-- ==== Sys2Proof/Word.lean ====
section
/-!
DEFINITION. The word types of the block: bytes, 32-bit register words and 64-byte descriptors.
Bit 0 is the least significant bit everywhere (R2).
-/
namespace Sys2Proof

/-- One byte of memory or of a frame. -/
abbrev Byte := BitVec 8

/-- One 32-bit register word of the set-up window. -/
abbrev Word := BitVec 32

/-- One raw 64-byte descriptor, its byte 0 in bits 7:0 (R2, R48). -/
abbrev RawDesc := BitVec 512

end Sys2Proof
end

