-- ==== Sys2Proof/Syntax.lean ====
section
/-!
DEFINITION. The commands of the block: one constructor for every row of the operation table, in the table's order.
What the outside supplies (a written value, a received frame, the bytes a DMA read returned, a measured time) is an
operand of the command.
-/
namespace Sys2Proof

/-- How a write reaches a 64-bit register (R8): its low word alone, its high word alone, or both at once. -/
inductive Wr64 where
  | lo (v : Word)
  | hi (v : Word)
  | both (v : BitVec 64)
  deriving DecidableEq, Repr

/-- What a read of host memory brought back: the bytes, or a failure at an address with the kind that
`HIF.DMA_ERR_INFO` codes (R62, R63). -/
inductive DmaIn where
  | ok (bytes : List Byte)
  | fail (addr : Nat) (kind : Nat)
  deriving DecidableEq, Repr

/-- What an encoder answers in an absolute frame (R256, R257): the clocks until the start bit (BiSS-C), the bits it sends then,
first bit most significant - SSI the position and an error bit where one is configured, BiSS-C after CDS the position, nE, nW and
the CRC - and the time in steps of 5 ns after the last bit until SLO returns high (BiSS-C). -/
structure FrameIn where
  start : Nat
  word : Nat
  release : Nat
  deriving DecidableEq, Repr

/-- The header of a received PTP message (R431): domainNumber, and whether it came over UDP rather than over IEEE 802.3. -/
structure PtpHdr where
  domain : Nat
  udp : Bool
  deriving DecidableEq, Repr

/-- What an Announce message says of its grandmaster (R431): priority1, clockClass, clockAccuracy, offsetScaledLogVariance,
priority2, clockIdentity and stepsRemoved. -/
structure Ann where
  prio1 : Nat
  cls : Nat
  acc : Nat
  var : Nat
  prio2 : Nat
  gm : Nat
  steps : Nat
  deriving DecidableEq, Repr

/-- The state of a compression stream between blocks (R336-R339): PARAMS and WIDTH, whether the header has been written or
read, whether no block has come yet, whether the stream has ended, original bytes so far, the CRC register, elements since
the last reset, the latest elements newest first, and the lane states (a, n). -/
structure Codec where
  params : Nat
  width : Nat
  hdr : Bool
  first : Bool
  ended : Bool
  total : Nat
  crc : Nat
  i : Nat
  hist : List Nat
  lanes : List (Nat × Nat)
  deriving DecidableEq, Repr

/-- What a read of a state record brought back (R339): its bytes, or a failed read; or none was read. -/
inductive StateIn where
  | none
  | ok (bytes : List Byte)
  | fail (addr : Nat) (kind : Nat)
  deriving DecidableEq, Repr


/-- What a start-up finds outside the device (R512-R521): RECOVERY_N low; the image slots (index of the TYPE, slot) whose
signature and HASH hold; the board settings read (Subsystem Vendor ID, Subsystem ID, `CPM.REF_CFG`, `DMC.GEOMETRY`, the
words of `DMC.TSET`), if a valid blob is there; whether the management cluster reaches READY within READY_TIMEOUT; whether
the LP5 training passes, with each channel's last step and eyes; the lifetime copy that loads (0 the newest, 1 the other
one, 2 neither); and whether a migration of settings succeeds. -/
structure Boot where
  recoveryLow : Bool
  good : List (Nat × Nat)
  board : Option (Nat × Nat × Nat × Nat × List Nat)
  mgmtUp : Bool
  trained : Bool
  training : List (Nat × Nat × Nat)
  lifeCopy : Nat
  migrateOk : Bool
  deriving DecidableEq, Repr

/-- Security settings (R456): SERIAL, stored-settings version, the Block World Table, Region Table entries (index, first
page, last page, RT_ATTR), the limits of the stalls (power, speed, d_min), and TCK.CFG bit 0. -/
structure SecSet where
  serial : Nat
  version : Nat
  bwt : Nat
  regions : List (Nat × Nat × Nat × Nat)
  limits : List (Nat × Nat × Nat)
  sealOn : Bool
  deriving DecidableEq, Repr


/-- One command of the block. Each constructor is one row of spec/opcode_table.json; its docstring is the row's
summary and rule. -/
inductive Instr where
  /-- MICROVECTOR_TICK: At every yard time that is a multiple of P, every block that keys to the microvector performs its
  share of the tick in the fixed order of steps 1 to 7 (R18) -/
  | microvectorTick (errs : List (Fin 48 × Nat))
  /-- SQUASH: At step 3 of the tick after the request, speculative entries are discarded, the planner state is restored, and
  the squash is recorded (R136) -/
  | squash (g : Fin 48)
  /-- MV_UNDERRUN: The microvector watchdog finds no committed entry at step 1, so the stall repeats its set-points, forces
  its gate off and faults (R21) -/
  | mvUnderrun (g : Fin 48)
  /-- MV_PERIOD_WRITE: A write of YRD.MV_PERIOD.SEL is accepted or refused; on acceptance, the ACTIVE bays send CAP_CONFIRM (R18) -/
  | mvPeriodWrite (sec : Bool) (v : Word)
  /-- MV_PERIOD_CHANGE: An accepted period takes effect at the first tick of the new period after the write (R18) -/
  | mvPeriodChange
  /-- BAY_MAP_WRITE: A write of YRD.BAY_MAP[b] is accepted or refused, with event 77 on refusal (R13) -/
  | bayMapWrite (sec : Bool) (b : Fin 12) (v : Word)
  /-- STABLE_ENABLE_WRITE: A write of YRD.CTRL enables stables, which starts their clocks and loads the sequencer image, or
  clears enables; a refusal is judged on the whole write (R29) -/
  | stableEnableWrite (sec : Bool) (v : Word)
  /-- LAYER_SET_WRITE: A write of YRD.LAYER_SET takes effect at the next tick, where the barrier is evaluated again (R25) -/
  | layerSetWrite (sec : Bool) (w : Wr64)
  /-- LAYER_BARRIER_REACHED: At the first tick at which every stall in LAYER_SET is in LAYER_WAIT, LAYER increments, BARRIER
  sets, event 78 is raised and the barrier transactions are committed (R24) -/
  | layerBarrierReached
  /-- REGISTER_WRITE: A write to a register that has no row of its own acts according to its access code, world and
  reserved-bit rules (R5) -/
  | registerWrite (sec : Bool) (o : Nat) (w : Wr64)
  /-- READ_CLEAR: A read of an RC register returns the field and then clears it; a clear that races with a set leaves the
  bit set (R5) -/
  | readClear (sec : Bool) (o : Nat) (wide : Bool)
  /-- UNSUPPORTED_ACCESS: An access of unsupported size or alignment to the set-up window is discarded or reads all ones,
  and raises the access-error event (R4) -/
  | unsupportedAccess (o : Nat) (write : Bool)
  /-- ATOMIC_OP_REQUEST: An AtomicOp request to the device receives Unsupported Request (R34) -/
  | atomicOpRequest (off : Nat)
  /-- CTX_ENABLE: The ENABLE command checks readiness, the agreed version, the configuration and the binding, then resets
  the ring indexes and makes the context ACTIVE (R41) -/
  | ctxEnable (sec : Bool) (c : Fin 256)
  /-- CTX_DISABLE: The DISABLE command stops fetching, aborts unstarted descriptors and makes the context DRAINING (R41) -/
  | ctxDisable (sec : Bool) (c : Fin 256)
  /-- CTX_RESUME: The RESUME command makes a STOPPED context ACTIVE, continuing with its oldest unstarted descriptor (R41) -/
  | ctxResume (sec : Bool) (c : Fin 256)
  /-- CTX_DRAIN_DONE: A DRAINING context becomes DISABLED once every started descriptor has completed, which completes the
  pending DISABLE (R40) -/
  | ctxDrainDone (c : Fin 256)
  /-- SQ_TAIL_DOORBELL: A write of SQ_TAIL to a doorbell page is recorded, or discarded with event 50; a write to page 0 is
  a world fault (R46) -/
  | sqTailDoorbell (c : Fin 256) (v : Word) (hi : Option Word)
  /-- CQ_HEAD_DOORBELL: A write of CQ_HEAD to a doorbell page is recorded, which frees completion slots, or is discarded (R46) -/
  | cqHeadDoorbell (c : Fin 256) (v : Word)
  /-- DOORBELL_ACCESS_ERROR: A doorbell-window access of unsupported size or alignment is rejected, recorded and raises
  event 48 (R45) -/
  | doorbellAccessError (off : Nat) (acc : Nat × Bool)
  /-- DESCRIPTOR_FETCH: The fetcher reads a burst of up to 8 descriptors for a context within the in-flight bounds; a failed
  fetch stops the context (R61) -/
  | descriptorFetch (descs : List RawDesc) (err : Option Nat)
  /-- DUPLICATE_COMPLETION: A resubmitted SEQ completes DUPLICATE with the original's values once the original has completed
  (R52) -/
  | duplicateCompletion (c : Fin 256)
  /-- PAYLOAD_READ_ERROR: A failed payload read completes its descriptor with MEMORY_ERROR and raises event 53 (R63) -/
  | payloadReadError (c : Fin 256) (a : Nat) (kind : Nat)
  /-- COMPLETION_POST: A completion record is written in ring order into a free slot, then the interrupt rule is evaluated
  and ERR_STOP may stop the context (R47) -/
  | completionPost (c : Fin 256)
  /-- IRQ_AGE_EXPIRY: When the oldest unsignalled completion reaches TIME µs, the context's vector is signalled (R58) -/
  | irqAgeExpiry (c : Fin 256)
  /-- HIF_BACKPRESSURE: A continuous back-pressure wait that exceeds HIF.BP_THRESHOLD raises event 55 once (R60) -/
  | hifBackpressure (c : Fin 256)
  /-- VERSION_OFFER_WRITE: A write of HIF.VERSION_OFFER sets AGREED, or is refused while any host context is not DISABLED (R65) -/
  | versionOfferWrite (sec : Bool) (v : Word)
  /-- LAST_SEQ_WRITE: A write of LAST_SEQ while the context is DISABLED also clears its completion history (R51) -/
  | lastSeqWrite (sec : Bool) (c : Fin 256) (v : Word)
  /-- MAILBOX_POST: A write of MBOX_CTRL.POST sets BUSY and hands the request to the tack room; a post while BUSY sets
  OVERRUN (R67) -/
  | mailboxPost (v : Word)
  /-- MAILBOX_RESPONSE: The tack room writes the response, clears BUSY, sets DONE and raises event 56 (R67) -/
  | mailboxResponse
  /-- FUNCTION_LEVEL_RESET: A function-level reset disables every host context, discards unstarted descriptors as ABORTED,
  resets the version agreement and expires the heartbeat (R68) -/
  | functionLevelReset
  /-- HOT_RESET: A hot reset or link-disable acts as a function-level reset and takes the data link down (R68) -/
  | hotReset
  /-- DATA_LINK_DOWN: Loss of the data link acts as R68 states, and event 49 is raised (R68) -/
  | dataLinkDown
  /-- DATA_LINK_UP: The data link comes up, which updates the HIF.STATUS link fields and raises event 49 (R68) -/
  | dataLinkUp (speed : Nat) (width : Nat)
  /-- D3HOT_ENTRY: Entry to D3hot has the effect of a function-level reset and leaves the link up (R68) -/
  | d3hotEntry
  /-- L1_CHANGE: A move into or out of ASPM L1 changes only IN_L1 (R68) -/
  | l1Change (inL1 : Bool)
  /-- PERST_ASSERT: PERST_N low resets the PCIe endpoint and takes the data link down, as an event of R68 (R530) -/
  | perstAssert
  /-- NOP: Descriptor opcode 0x00 completes OK at once and returns the host cookie (R57) -/
  | nop (c : Fin 256)
  /-- WAIT_UNTIL: Descriptor opcode 0x01 blocks later descriptors of its context until yard time T (R57) -/
  | waitUntil (c : Fin 256)
  /-- WAIT_UNTIL_DONE: A WAIT_UNTIL completes OK at the first tick at or after T (R57) -/
  | waitUntilDone (c : Fin 256)
  /-- PROG_LOAD: Opcode 0x10 copies plain scan commands into the stall's program region once room is free (R77) -/
  | progLoad (c : Fin 256) (r : DmaIn)
  /-- PROG_LOAD_PACKED: Opcode 0x11 decompresses a stream into the stall's program region and checks it (R77) -/
  | progLoadPacked (c : Fin 256) (r : DmaIn)
  /-- PROG_LOAD_SEALED: Opcode 0x12 authenticates and decrypts a sealed envelope into a secure program region (R454) -/
  | progLoadSealed (c : Fin 256) (r : DmaIn) (plain : Option (List Byte))
  /-- LOAD_VISIBLE: A load's commands become visible to the sequencer in one step when it completes with OK (R75) -/
  | loadVisible (c : Fin 256)
  /-- RELEASE: Opcode 0x18 releases an IDLE stall into RUN, or is staged into a transaction (R77) -/
  | release (c : Fin 256)
  /-- HOLD: Opcode 0x19 requests a hold with cause HOST on the stall (R97) -/
  | hold (c : Fin 256)
  /-- RESUME: Opcode 0x1A clears the host-clearable hold causes and completes when the stall leaves HOLD (R98) -/
  | resume (c : Fin 256)
  /-- ABORT: Opcode 0x1B aborts the stall's program, which outputs its committed entries and stops, then returns it to IDLE (R99) -/
  | abort (c : Fin 256)
  /-- CMD_HOLD: A write of CMD = 0x1 requests a host hold on the stall without waiting behind the ring (R97) -/
  | cmdHold (sec : Bool) (g : Fin 48)
  /-- CMD_RESUME: A write of CMD = 0x2 resumes the stall from HOLD (R98) -/
  | cmdResume (sec : Bool) (g : Fin 48)
  /-- CMD_ABORT: A write of CMD = 0x3 aborts the stall and makes any running load complete ABORTED (R99) -/
  | cmdAbort (sec : Bool) (g : Fin 48)
  /-- HOLD_ALL_HOLD: A write of YRD.HOLD_ALL.HOLD requests a host hold on every stall in the same tick (R97) -/
  | holdAllHold (sec : Bool)
  /-- HOLD_ALL_RESUME: A write of YRD.HOLD_ALL.RESUME resumes every stall in the same tick (R98) -/
  | holdAllResume (sec : Bool)
  /-- PROG_REGION_WRITE: A high-word write of PROG_REGION sets the stall's region if the stall is OFFLINE and the region
  fits; otherwise it is refused (R76) -/
  | progRegionWrite (sec : Bool) (g : Fin 48) (w : Wr64)
  /-- STALL_ENABLE: Setting CTRL.EN lets the stall leave OFFLINE once the stable, the bay slot and the head link allow it (R94) -/
  | stallEnable (sec : Bool) (g : Fin 48) (v : Word)
  /-- STALL_ONLINE: At the first tick at which all enable conditions hold, an OFFLINE stall enters IDLE (R94) -/
  | stallOnline (g : Fin 48)
  /-- STALL_DISABLE: Clearing CTRL.EN aborts the stall if needed and then makes it OFFLINE (R94) -/
  | stallDisable (sec : Bool) (g : Fin 48) (v : Word)
  /-- SCAN_NOP: The sequencer parses a NOP scan command, which does nothing (R80) -/
  | scanNop (g : Fin 48)
  /-- JUMP: The sequencer parses a JUMP and the planner adds it to a gate-off jump chain (R112) -/
  | jump (g : Fin 48)
  /-- MARK_LINE: The sequencer parses a MARK_LINE as part of a stroke, once the whole stroke is visible and checked (R84) -/
  | markLine (g : Fin 48)
  /-- MARK_ARC: The sequencer parses a MARK_ARC, an arc around a centre through SWEEP, as part of a stroke (R118) -/
  | markArc (g : Fin 48)
  /-- POWER_RAMP: The sequencer parses a POWER_RAMP that ramps power over LENGTH of gate-on path (R82) -/
  | powerRamp (g : Fin 48)
  /-- WOBBLE: The sequencer parses a WOBBLE that sets the wobble shape, frequency and amplitudes (R120) -/
  | wobble (g : Fin 48)
  /-- SPEED_POWER: The sequencer parses a SPEED_POWER that sets power and speeds, clamped to the machine-builder limits (R83) -/
  | speedPower (g : Fin 48)
  /-- DELAY_SET: The sequencer parses a DELAY_SET that sets the settle time and the gate-on and gate-off delays (R123) -/
  | delaySet (g : Fin 48)
  /-- COMPARE_ARM: The sequencer parses a COMPARE_ARM that arms, or disarms, position compare for the next stroke (R153) -/
  | compareArm (g : Fin 48)
  /-- ISLAND_BEGIN: The sequencer parses an ISLAND_BEGIN that opens an island with its order and deadline (R87) -/
  | islandBegin (g : Fin 48)
  /-- ISLAND_END: The sequencer parses an ISLAND_END that closes the matching island (R87) -/
  | islandEnd (g : Fin 48)
  /-- LAYER_END: The sequencer parses a LAYER_END stopping marker (R91) -/
  | layerEnd (g : Fin 48)
  /-- SYNC_BARRIER: The sequencer parses a SYNC_BARRIER stopping marker (R90) -/
  | syncBarrier (g : Fin 48)
  /-- SEAM_HANDOVER: The sequencer parses a SEAM_HANDOVER, registers the section in the seam table, and then executes or
  skips it according to the owner (R180) -/
  | seamHandover (g : Fin 48)
  /-- PROGRAM_END: The sequencer parses a PROGRAM_END stopping marker (R93) -/
  | programEnd (g : Fin 48)
  /-- PROGRAM_ERROR: At the stroke boundary before a faulty command, the stall enters FAULT with PROGRAM_ERROR and records
  the code and offset (R103) -/
  | programError (g : Fin 48)
  /-- LAYER_END_REACHED: When output reaches a LAYER_END, the stall enters LAYER_WAIT and records LAYER (R91) -/
  | layerEndReached (g : Fin 48)
  /-- SYNC_BARRIER_REACHED: When output reaches a SYNC_BARRIER, the stall enters SYNC_WAIT (R90) -/
  | syncBarrierReached (g : Fin 48)
  /-- PROGRAM_END_REACHED: When output reaches a PROGRAM_END, the stall enters IDLE (R93) -/
  | programEndReached (g : Fin 48)
  /-- SYNC_BARRIER_RELEASE: Once every stall in MASK waits at the same barrier, all of them enter RUN at the next tick (R90) -/
  | syncBarrierRelease (g : Fin 48)
  /-- SYNC_MISMATCH: Stalls that wait with the same BARRIER_ID but different masks enter FAULT with SYNC_MISMATCH at the
  next tick (R90) -/
  | syncMismatch (g : Fin 48)
  /-- SYNC_TIMEOUT: A stall that waits longer than a non-zero TIMEOUT enters HOLD with cause SYNC_TIMEOUT (R90) -/
  | syncTimeout (g : Fin 48)
  /-- PROGRAM_EMPTY: A running stall that finds no visible command at a stroke boundary enters HOLD with cause PROGRAM_EMPTY
  (R86) -/
  | programEmpty (g : Fin 48)
  /-- PROGRAM_EMPTY_CLEARED: At the first tick after a load makes a complete stroke or a non-mark command visible, the
  PROGRAM_EMPTY cause clears (R86) -/
  | programEmptyCleared (g : Fin 48)
  /-- STROKE_TIMEOUT: When STROKE_ELAPSED exceeds the limit, the stall faults or sets STROKE_LATE, and raises stall event k
  = 1 (R88) -/
  | strokeTimeout (g : Fin 48)
  /-- ISLAND_DEADLINE: An island that has not completed DEADLINE µs after its start is late, and may request a hold (R89) -/
  | islandDeadline (g : Fin 48)
  /-- HOLD_TAKES_EFFECT: A pending hold takes effect when the gate closes at the end of the stroke that spans the horizon,
  or when the jump ends, and the stall enters HOLD (R97) -/
  | holdTakesEffect (g : Fin 48)
  /-- HOLD_RETURN: When no hold cause remains, the stall enters RETURN_STATE at the next tick (R98) -/
  | holdReturn (g : Fin 48)
  /-- ABORT_COMPLETE: After the last committed entry and the STOP path, the pointers reset, the settings return to defaults
  and the stall enters IDLE (R99) -/
  | abortComplete (g : Fin 48)
  /-- HEARTBEAT_PERIOD_WRITE: A write of YRD.HEARTBEAT.PERIOD arms or disarms the heartbeat and restarts it, or is refused (R100) -/
  | heartbeatPeriodWrite (sec : Bool) (v : Word)
  /-- HEARTBEAT_KICK: Any write of YRD.HEARTBEAT_KICK restarts the heartbeat and clears LOST (R100) -/
  | heartbeatKick (sec : Bool)
  /-- HEARTBEAT_EXPIRED: The heartbeat expires: LOST is set, event 75 is raised, stalls are held, axes pause, and releases
  are refused (R101) -/
  | heartbeatExpired
  /-- LAYER_DEADLINE_PASSED: The layer deadline timer reaches LIMIT ms, which sets LATE and raises event 76 (R102) -/
  | layerDeadlinePassed
  /-- STARVED_HOLD: A stall whose committed window empties while its horizon is blocked at a stroke start enters HOLD with
  cause STARVED (R131) -/
  | starvedHold (g : Fin 48)
  /-- STARVED_CLEARED: When both lead and marshal clearance hold, the STARVED cause clears and the stall returns to RUN (R131) -/
  | starvedCleared (g : Fin 48)
  /-- TRAJECTORY_FAULT: After a plan-time field, focus, grid or engine failure, the stall enters FAULT with cause TRAJECTORY
  once its committed entries have been output (R128) -/
  | trajectoryFault (g : Fin 48) (d : Nat)
  /-- GRID_SEL_WRITE: A write of GRID_SEL starts verification of the slots it names (R129) -/
  | gridSelWrite (sec : Bool) (g : Fin 48) (v : Word)
  /-- GRID_VERIFICATION: The CRC-32C verification of a grid slot completes within 50 µs and sets GRID_STATE to verified or
  failed (R129) -/
  | gridVerification (g : Fin 48)
  /-- GRID_WINDOW_WRITE: A window write to a grid slot or compare table is stored, or discarded with REFUSED when the slot
  or table is locked (R129) -/
  | gridWindowWrite (sec : Bool) (st : Fin 6) (o : Nat) (v : Word)
  /-- TRJ_CONFIG_WRITE: A direct write of a trajectory register is accepted only in OFFLINE or IDLE, and then discards the
  precomputed entries (R140) -/
  | trjConfigWrite (sec : Bool) (g : Fin 48) (o : Nat) (v : Word)
  /-- GATE_CFG_WRITE: A write of GATE_CFG sets polarity and drive only while the stall is OFFLINE (R146) -/
  | gateCfgWrite (sec : Bool) (g : Fin 48) (v : Word)
  /-- GATE_TRIM_WRITE: A write of GATE_TRIM.TRIM sets the value to be applied when no edge is in flight (R147) -/
  | gateTrimWrite (sec : Bool) (g : Fin 48) (v : Word)
  /-- TRIM_APPLIED: At the first tick with the gate off and no edge near, the written TRIM becomes IN_USE (R147) -/
  | trimApplied (g : Fin 48)
  /-- READBACK_MISMATCH: A mismatch of the read-back gate level against the commanded level that lasts over 50 ns faults the
  stall, and a stuck-on gate also latches inhibit (R149) -/
  | readbackMismatch (g : Fin 48) (on : Bool)
  /-- OUTPUT_CONFIG_WRITE: A direct write of PWR_GAIN, PWR_CODE or PWR_ADVANCE is accepted only in OFFLINE or IDLE (R151) -/
  | outputConfigWrite (sec : Bool) (g : Fin 48) (r : Fin 3) (v : Word)
  /-- LSAFE_INPUT_LOW: LSAFE_IN_A or LSAFE_IN_B low for longer than the filter activates the INPUT inhibit source (R157) -/
  | lsafeInputLow (b : Bool)
  /-- LSAFE_INPUT_HIGH: Both permissive inputs high again deactivate the INPUT source, which may start the release wait (R161) -/
  | lsafeInputHigh (b : Bool)
  /-- LASER_INHIBIT_ASSERTED: At the next tick, INHIBIT is set, event 40 is raised and every running stall latches an
  INHIBIT squash (R159) -/
  | laserInhibitAsserted
  /-- INHIBIT_STOP_COMPLETE: At the tick after its STOP path ends at rest, the stall enters FAULT with cause LASER_INHIBIT (R159) -/
  | inhibitStopComplete (g : Fin 48)
  /-- LSAFE_DISCREPANCY: Inputs that disagree for over 1 ms set the discrepancy latch and raise event 42 (R160) -/
  | lsafeDiscrepancy
  /-- CLEAR_DISCREPANCY: A write of LSAFE_CLEAR.DISCREPANCY clears the latch if both inputs read low, or is ignored (R160) -/
  | clearDiscrepancy (sec : Bool)
  /-- CLEAR_READBACK: A write of LSAFE_CLEAR.READBACK clears the stuck-on latch if every gate reads back correctly, or is
  ignored (R160) -/
  | clearReadback (sec : Bool) (bad : Bool)
  /-- LSAFE_SW_WRITE: A write of YRD.LSAFE_SW.INHIBIT activates or deactivates the SOFTWARE inhibit source (R157) -/
  | lsafeSwWrite (sec : Bool) (v : Word)
  /-- LSAFE_SEC_WRITE: A secure write of YRD.LSAFE_SEC.INHIBIT activates or deactivates the SECURE inhibit source (R157) -/
  | lsafeSecWrite (sec : Bool) (v : Word)
  /-- LASER_INHIBIT_RELEASED: After LSAFE_RELEASE ms with no source active, the forcing stops, LSAFE_OK rises, INHIBIT
  clears and event 41 is raised (R161) -/
  | laserInhibitReleased
  /-- MARSHAL_CONFIG_WRITE: A direct write of a marshal register is accepted only while every stall is OFFLINE or IDLE, or
  refused with event 74 (R179) -/
  | marshalConfigWrite (sec : Bool) (r : Fin 6) (v : Word)
  /-- SEAM_MOVE_WRITE: A high-word write of YRD.MSH_SEAM_MOVE requests a host move for the seam (R185) -/
  | seamMoveWrite (sec : Bool) (w : Wr64)
  /-- SEAM_MOVE: A move verdict hands an OPEN section to its other stall, squashing both stalls, or the move is refused or
  falls back (R185) -/
  | seamMove
  /-- SEAM_PAUSE_END: A sequencer paused at a SEAM_HANDOVER resumes when a seam entry becomes free (R182) -/
  | seamPauseEnd (g : Fin 48)
  /-- SEAM_HOLD: After a seam mismatch, the stall enters HOLD with cause SEAM at the stroke boundary before the
  SEAM_HANDOVER (R186) -/
  | seamHold (g : Fin 48)
  /-- PHOTODIODE_FRAME: An upstream PHOTODIODE frame delivers four channels of five samples per slot to the bins (R360) -/
  | photodiodeFrame (b : Fin 12) (broken : Bool) (head : BitVec 64) (data : List (BitVec 64))
  /-- POSITION_FRAME: An upstream POSITION frame delivers the measured positions or encoder values for servo sample k (R361) -/
  | positionFrame (b : Fin 12) (broken : Bool) (blocks : List (BitVec 64))
  /-- ENERGY_EVALUATION: At step 4, the CLE evaluates the bin of a committed entry, updating the loop state, kp and possibly
  ks (R202) -/
  | energyEvaluation (g : Fin 48) (err : Nat)
  /-- FEATURE_DELIVERY: A melt-pool feature arrives at the CLE and becomes the stall's last feature (R206) -/
  | featureDelivery (g : Fin 48) (v : Word) (seq gen : Nat)
  /-- SERVO_EVALUATION: At each 4 µs boundary, the CLE evaluates the servo law of each closed axis and checks the following
  error (R214) -/
  | servoEvaluation (errs : List (Fin 48 × Fin 3 × Nat))
  /-- SERVO_CLOSE: The CLOSE command of CLE_SERVO_CMD releases the brake and starts closing the stall's three loops (R216) -/
  | servoClose (sec : Bool) (st : Fin 6) (t : Fin 8)
  /-- SERVO_OPEN: The OPEN command of CLE_SERVO_CMD starts ramping the coil commands to 0 (R216) -/
  | servoOpen (sec : Bool) (st : Fin 6) (t : Fin 8)
  /-- SERVO_CLOSED: After 64 boundaries inside BAND on all axes, the loops enter CLOSED (R216) -/
  | servoClosed (g : Fin 48)
  /-- CLOSE_TIMEOUT: 25,000 boundaries without settling is a servo fault CLOSE_TIMEOUT (R216) -/
  | closeTimeout (g : Fin 48)
  /-- SERVO_OPENED: When c reaches 0 on all axes, the brake is requested and the state becomes OPEN (R216) -/
  | servoOpened (g : Fin 48)
  /-- BANK_SELECT: A write of ENG_BANK.SEL requests an energy bank swap (R209) -/
  | bankSelect (sec : Bool) (g : Fin 48) (v : Word)
  /-- BANK_SWAP: At step 4 of the next tick, or of the commit tick, ACTIVE takes the new bank and the loop state may be
  reset (R209) -/
  | bankSwap (g : Fin 48)
  /-- ENERGY_CONFIG_WRITE: A write of the energy registers is accepted under the state and range rules, and takes effect at
  step 4 of the next tick (R211) -/
  | energyConfigWrite (sec : Bool) (g : Fin 48) (r : Fin 7) (v : Word)
  /-- SERVO_CONFIG_WRITE: A write of the servo registers is accepted only while the servo state is OPEN or NONE, except
  SRV_FERR (R219) -/
  | servoConfigWrite (sec : Bool) (g : Fin 48) (r : Fin 4) (v : Word)
  /-- COEFFICIENT_WINDOW_WRITE: A CLE window write stores a coefficient, or is discarded for loop state, reserved parts,
  locked banks or servo sets in use (R195) -/
  | coefficientWindowWrite (sec : Bool) (st : Fin 6) (o : Nat) (v : Word)
  /-- CLE_LOAD: Management opcode 0x78 copies coefficients from host memory into an energy bank or servo set (R220) -/
  | cleLoad (c : Fin 256) (r : DmaIn)
  /-- TXN_OPEN: Opcode 0x60 opens a transaction ID, waiting while all 64 IDs are active (R227) -/
  | txnOpen (c : Fin 256)
  /-- TXN_WRITE: Opcode 0x61 stages a list of register writes into an open transaction after the checks of R231 (R229) -/
  | txnWrite (c : Fin 256) (r : DmaIn)
  /-- TXN_COMMIT: Opcode 0x62 moves an OPEN ID to COMMITTING with its commit kind, or returns the outcome of an earlier
  commit (R234) -/
  | txnCommit (c : Fin 256)
  /-- TXN_ABORT: Opcode 0x63 aborts an OPEN or COMMITTING ID, or undoes an APPLYING one (R244) -/
  | txnAbort (c : Fin 256)
  /-- TXN_QUERY: Opcode 0x64 returns TXN_INFO and TXN_TIME of an ID (R226) -/
  | txnQuery (c : Fin 256)
  /-- TXN_PRESENT: At step 2 of the commit tick, the gate checks the transaction and either aborts it or has every
  participant accept it and takes the shadow copies (R237) -/
  | txnPresent
  /-- TXN_EXPIRE: An ID still OPEN or COMMITTING after step 2 of the tick at EXPIRE aborts with reason DEADLINE (R235) -/
  | txnExpire
  /-- PARTICIPANT_SETTLE: A participant settles when its change can no longer be undone; the COMMIT completes when all have
  settled (R240) -/
  | participantSettle
  /-- COMMIT_TIMEOUT: COMMIT_TIMEOUT ms after the commit tick with a participant still not settled, the transaction is
  undone (R242) -/
  | commitTimeout
  /-- GTE_CONFIG_WRITE: A write of GTE.CFG or GTE.STORE_HIGH is accepted or refused by range (R249) -/
  | gteConfigWrite (sec : Bool) (high : Bool) (v : Word)
  /-- QUADRATURE_EDGE: An edge on A or B moves the count one step, or is rejected as too close to the previous accepted edge
  (R258) -/
  | quadratureEdge (p : Fin 8) (a b : Bool) (dt : Nat)
  /-- EDGE_RATE: Rejections that reach EDGE_LIMIT in one millisecond are a port fault with detail EDGE_RATE (R260) -/
  | edgeRate (p : Fin 8)
  /-- INDEX_LATCH: The gated index latches the count, sets REF_PHASE or computes and checks the drift (R262) -/
  | indexLatch (p : Fin 8) (z : Bool) (dt : Nat)
  /-- TOOTH: An accepted rising edge of A in tooth-wheel mode counts one tooth and tests for gaps and extra teeth (R265) -/
  | tooth (p : Fin 8) (rise b : Bool) (dt : Nat)
  /-- ABSOLUTE_FRAME: At each CYCLE boundary, an SSI or BiSS-C frame is clocked, and then validated and applied to POS (R257) -/
  | absoluteFrame (p : Fin 8) (dt : Nat) (r : FrameIn)
  /-- CABLE_FAULT: A wire disagreement that lasts longer than CABLE_TIME is a port fault with detail CABLE (R261) -/
  | cableFault (p : Fin 8) (pair : Fin 3) (dis : Bool × Nat)
  /-- SPEED_WINDOW: At each window boundary, the port updates the speed and switches method (R267) -/
  | speedWindow (p : Fin 8)
  /-- STANDSTILL: No count for STANDSTILL µs sets SPEED to 0 and declares standstill (R268) -/
  | standstill (p : Fin 8)
  /-- FEEDBACK_FAULT_CLEAR: A write of CTRL.FAULT_CLEAR clears the port fault if no fault condition is present (R273) -/
  | feedbackFaultClear (sec : Bool) (p : Fin 8)
  /-- REREF: A write of CTRL.REREF makes the next index latch set a new REF_PHASE (R263) -/
  | reref (sec : Bool) (p : Fin 8)
  /-- PORT_ENABLE: Setting CFG.EN loads COUNT_SET, clears the state and starts absolute frames (R275) -/
  | portEnable (sec : Bool) (p : Fin 8) (v : Word)
  /-- PORT_DISABLE: Clearing CFG.EN freezes the count and speed and abandons any frame in progress (R275) -/
  | portDisable (sec : Bool) (p : Fin 8) (v : Word)
  /-- FEEDBACK_CONFIG_WRITE: A write of a port register is accepted according to EN and range, or refused (R274) -/
  | feedbackConfigWrite (sec : Bool) (p : Fin 8) (o : Fin 12) (v : Word)
  /-- POS_READ: A read of POS latches SPEED, SAMPLE_TIME and STATUS into holding registers (R276) -/
  | posRead (sec : Bool) (p : Fin 8)
  /-- AXIS_MOVE: Opcode 0x30 queues a jerk-limited move, or is staged into a transaction (R283) -/
  | axisMove (c : Fin 256)
  /-- AXIS_DWELL: Opcode 0x31 queues a dwell of TIME µs (R283) -/
  | axisDwell (c : Fin 256)
  /-- AXIS_STOP: Opcode 0x32 brings the axis to a controlled stop and aborts its queued entries (R289) -/
  | axisStop (c : Fin 256)
  /-- AXIS_SET_POS: Opcode 0x33 sets POS on an IDLE axis and sets POS_TRUSTED (R283) -/
  | axisSetPos (c : Fin 256)
  /-- AXIS_RESUME: Opcode 0x34 lets a PAUSED axis continue with its queue (R298) -/
  | axisResume (c : Fin 256)
  /-- QUEUED_MOVE_START: An axis starts its oldest queued entry at a tick when IDLE, or when the current entry ends (R285) -/
  | queuedMoveStart (a : Fin 8)
  /-- MOVE_END: A move or dwell ends at rest or at its joint, and its descriptor completes (R287) -/
  | moveEnd (a : Fin 8)
  /-- AXIS_LIMIT_CHANGE: At the next tick, new VMAX, ACCEL or JERK values replan the current move, or are kept back with
  LIMIT_KEPT (R288) -/
  | axisLimitChange (a : Fin 8)
  /-- AXIS_CMD_STOP: A write of CMD = 0x1 brings the axis to a controlled stop (R289) -/
  | axisCmdStop (sec : Bool) (a : Fin 8)
  /-- STOP_ALL: A write of AXS.CMD.STOP_ALL stops every axis at the same tick (R289) -/
  | stopAll (sec : Bool)
  /-- AXIS_CMD_RESUME: A write of CMD = 0x2 resumes a PAUSED axis, or is refused while LOST is 1 (R298) -/
  | axisCmdResume (sec : Bool) (a : Fin 8)
  /-- AXIS_FAULT_CLEAR: A write of CMD = 0x3 returns the axis from FAULT to IDLE, unless its cause persists (R297) -/
  | axisFaultClear (sec : Bool) (a : Fin 8)
  /-- LOAD_ANGLE_SET: Every 4 µs, the axis computes the load angle and EMF, checks for stall, and checks the encoder
  deviation (R293) -/
  | loadAngleSet (a : Fin 8) (va vb ia ib : Fin 4096)
  /-- FAULT_STOP_END: At the tick after a fault stop reaches rest, the axis enters FAULT (R296) -/
  | faultStopEnd (a : Fin 8)
  /-- AXIS_ENABLE: Setting CFG.EN makes the axis IDLE at the next tick with POS 0, and asserts AEN (R300) -/
  | axisEnable (sec : Bool) (a : Fin 8) (v : Word)
  /-- AXIS_DISABLE: Clearing CFG.EN stops the axis first if it is moving, then disables it (R300) -/
  | axisDisable (sec : Bool) (a : Fin 8) (v : Word)
  /-- AXIS_CONFIG_WRITE: A write of an axis register is accepted according to the state and range rules, or refused (R299) -/
  | axisConfigWrite (sec : Bool) (a : Fin 8) (o : Fin 24) (v : Word)
  /-- FRAME_START: A frame start short packet increments FRAME_SEQ, stamps FS_TIME and moves the sensor context to STREAMING
  (R308) -/
  | frameStart (p : Fin 4) (vc : Nat) (dt : Nat)
  /-- FRAME_END: A frame end short packet stamps FE_TIME and may start waiting settings writes (R308) -/
  | frameEnd (p : Fin 4) (vc : Nat) (dt : Nat)
  /-- LINE_PACKET: A long packet delivers a line into a stripe slot, or is discarded and damages its frame (R314) -/
  | linePacket (p : Fin 4) (vc dtype : Nat) (hdr : Fin 3) (crcOk : Bool) (pix : List Nat)
  /-- LINE_PROCESSED: The pipeline finishes a line, frees its slot and turns to another context at a unit boundary (R315) -/
  | lineProcessed (x : Fin 2) (ecc : Bool)
  /-- FRAME_FINISHED: After the last line, the pipeline writes the tap data and statistics and delivers the feature (R317) -/
  | frameFinished (n : Fin 16)
  /-- FRAME_TIMEOUT: No frame start for FRAME_TIMEOUT ms after a frame end makes the context STALLED (R307) -/
  | frameTimeout (n : Fin 16)
  /-- SENSOR_ENABLE: Setting CFG.EN arms the sensor context and resets its frame number and generations (R307) -/
  | sensorEnable (sec : Bool) (n : Fin 16) (v : Word)
  /-- SENSOR_DISABLE: Clearing CFG.EN abandons the frame in progress and aborts waiting settings (R307) -/
  | sensorDisable (sec : Bool) (n : Fin 16) (v : Word)
  /-- SENSOR_CONFIG_WRITE: A write of sensor context registers is accepted or refused under the binding and EN rules (R306) -/
  | sensorConfigWrite (sec : Bool) (n : Fin 16) (o : Fin 12) (v : Word)
  /-- CAM_FRAME_BUF: Opcode 0x40 supplies a buffer for one tap frame (R326) -/
  | camFrameBuf (c : Fin 256)
  /-- CAM_STATS_BUF: Opcode 0x41 supplies a buffer for one statistics block (R326) -/
  | camStatsBuf (c : Fin 256)
  /-- CAM_SETTINGS: Opcode 0x42 issues a settings generation and waits to write its CCI list (R321) -/
  | camSettings (c : Fin 256) (r : DmaIn)
  /-- CCI_XFER: Opcode 0x43 runs a CCI transfer list, including reads (R324) -/
  | cciXfer (c : Fin 256) (r : DmaIn)
  /-- SETTINGS_WRITE_START: A waiting settings list starts its CCI write at the next frame end, or at once when not
  streaming (R321) -/
  | settingsWriteStart (p : Fin 4)
  /-- CCI_LIST_DONE: A CCI list completes or ends early, and the generation's first frame F is computed (R322) -/
  | cciListDone (p : Fin 4) (fail : Option (Nat × Bool)) (reads : List Word)
  /-- PIPELINE_FAULT: A pipeline inconsistency puts it into FAULT and drops its frames (R328) -/
  | pipelineFault (x : Fin 2)
  /-- PIPELINE_CLEAR_FAULT: A write of PIPE_CTRL.CLEAR_FAULT leaves the pipeline FAULT (R328) -/
  | pipelineClearFault (sec : Bool) (x : Fin 2)
  /-- CMP_ENCODE: Opcode 0x50 encodes host data into a compressed stream (R340) -/
  | cmpEncode (c : Fin 256) (r : DmaIn) (st : StateIn)
  /-- CMP_DECODE: Opcode 0x51 decodes a compressed stream and checks it (R340) -/
  | cmpDecode (c : Fin 256) (r : DmaIn) (st : StateIn)
  /-- BLOCK_START: At each block boundary, an engine starts the next block of the highest class with a job ready (R333) -/
  | blockStart (e : Fin 2) (ecc : Bool)
  /-- JOB_COMPLETE: A compression job completes OK, PARTIAL or with DATA_CHECK, writing its state record (R343) -/
  | jobComplete (e : Fin 2)
  /-- CMP_ENGINE_FAULT: An engine whose checks fail enters FAULT and aborts its jobs (R347) -/
  | cmpEngineFault (e : Fin 2)
  /-- ENGINE_CLEAR_FAULT: A write of CMP.ENG[e].CTRL.CLEAR_FAULT leaves FAULT (R347) -/
  | engineClearFault (sec : Bool) (e : Fin 2)
  /-- CMP_CONFIG_WRITE: A write of CMP.CFG enables engines, or is refused when it would clear an engine that holds jobs (R348) -/
  | cmpConfigWrite (sec : Bool) (v : Word)
  /-- SUPERFRAME: Every 4,000 ns, each bay sends its SUPERFRAME block and any COIL frame (R355) -/
  | superframe
  /-- UPSTREAM_SUPERFRAME: An upstream SUPERFRAME block arrives and the bay measures SKEW (R355) -/
  | upstreamSuperframe (b : Fin 12) (skew : Int)
  /-- RECEIVER_DETECT: Every 1 ms in DETECT, the bay tests for termination and forwarded clock, and moves to TRAIN (R364) -/
  | receiverDetect (b : Fin 12) (term clk : Bool)
  /-- EYE_SEARCH_DONE: The receiver's eye search finds an eye of at least EYE_MIN taps and the bay enters BIT_LOCK (R369) -/
  | eyeSearchDone (b : Fin 12) (width centre : Nat) (dfe : List Nat)
  /-- WORD_LOCK: 64 consecutive valid sync headers put the bay in WORD_LOCK (R370) -/
  | wordLock (b : Fin 12) (slips : Nat) (partner : Bool)
  /-- SLIP: A write of TRAIN_CTL.SLIP moves the word boundary by one UI (R370) -/
  | slip (sec : Bool) (b : Fin 12)
  /-- PROBE_ECHO: A PROBE_ECHO arrives and contributes to the delay measurement; 16 of them settle DELAY (R366) -/
  | probeEcho (b : Fin 12) (trip turn : Nat)
  /-- CAP_REPLY: The head's CAP_REPLY is checked, the version is agreed, and CAP_CONFIRM is sent (R366) -/
  | capReply (b : Fin 12) (vmin vmax vendor model fw : Nat) (slots : Word)
  /-- CAP_ACK: The head's CAP_ACK completes the capability exchange, and the bay enters ACTIVE at the next superframe (R366) -/
  | capAck (b : Fin 12) (version : Nat)
  /-- BRINGUP_TIMEOUT: Bring-up stages that do not complete in time fail the attempt, which may halt the bay (R365) -/
  | bringupTimeout (b : Fin 12) (search : Bool)
  /-- LINK_CLOCK_LOSS: No forwarded-clock edge for 20 ns takes the bay out of ACTIVE to DETECT (R373) -/
  | linkClockLoss (b : Fin 12)
  /-- WORD_LOCK_LOSS: 16 invalid sync headers in 64 blocks take the bay out of ACTIVE to TRAIN (R373) -/
  | wordLockLoss (b : Fin 12) (ws : List (Nat × Nat))
  /-- ERROR_RATE: CRC_ERRORS that grow by CRC_LIMIT within one millisecond take the bay out of ACTIVE (R373) -/
  | errorRate (b : Fin 12) (n : Nat)
  /-- MARKER_LOSS: Two consecutive missing upstream SUPERFRAME blocks take the bay out of ACTIVE (R373) -/
  | markerLoss (b : Fin 12)
  /-- SKEW_EXCEEDED: SKEW above SKEW_LIMIT at four consecutive superframes takes the bay to WORD_LOCK for remeasurement (R373) -/
  | skewExceeded (b : Fin 12)
  /-- DOWN_SLEEP: After IDLE_TIME with the bay idle, the downstream data lane sends SLEEP and stops (R371) -/
  | downSleep (b : Fin 12)
  /-- DOWN_WAKE: At the first tick at which a sleep condition fails, the bay sends 64 TRAIN blocks with WAKE (R371) -/
  | downWake (b : Fin 12)
  /-- SLEEP_UP: After IDLE_TIME with all stalls OFFLINE, the bay asks the head to sleep its upstream lane (R372) -/
  | sleepUp (b : Fin 12)
  /-- TEST_ENTER: Setting TRAIN_CTL.TEST sends TEST_ENTER if the bay is ACTIVE, and enters TEST with PRBS patterns (R376) -/
  | testEnter (sec : Bool) (b : Fin 12)
  /-- TEST_EXIT: Clearing TEST returns the bay to DETECT (R364) -/
  | testExit (sec : Bool) (b : Fin 12) (n errs : Nat)
  /-- PRBS_INJECT: A write of PRBS_CTL.INJECT inverts one transmitted bit (R376) -/
  | prbsInject (sec : Bool) (b : Fin 12)
  /-- RESTART: A write of TRAIN_CTL.RESTART returns the bay to DETECT (R364) -/
  | restart (sec : Bool) (b : Fin 12)
  /-- BAY_ENABLE: Setting LNK CTRL.EN starts bring-up in DETECT (R364) -/
  | bayEnable (sec : Bool) (b : Fin 12)
  /-- BAY_DISABLE: Clearing LNK CTRL.EN disables the bay, or is refused while its stalls or loops are busy (R375) -/
  | bayDisable (sec : Bool) (b : Fin 12)
  /-- LINK_CONFIG_WRITE: A write of LNK registers is accepted or refused under the stall-state and range rules (R375) -/
  | linkConfigWrite (sec : Bool) (b : Fin 12) (o : Fin 10) (v : Word)
  /-- LINK_MGMT: Management opcode 0x7C sends a maker message to a head (R377) -/
  | linkMgmt (c : Fin 256) (r : DmaIn)
  /-- MGMT_FRAME_UP: An upstream MGMT frame delivers a head message or a reply (R362) -/
  | mgmtFrameUp (b : Fin 12) (blocks : Option (List (BitVec 64))) (ok : Bool)
  /-- LINK_MGMT_TIMEOUT: No reply within 10 ms completes the LINK_MGMT with TIMEOUT (R377) -/
  | linkMgmtTimeout (b : Fin 12)
  /-- SRAM_SCRUB_PASS: At the end of each SRAM_PERIOD, the scrubber starts a new pass and reports a late pass (R386) -/
  | sramScrubPass (late : Bool) (errs : List (Nat × Nat × Nat))
  /-- PATROL_SCRUB: The LP5 patrol scrub reads every granule once per LP5_PERIOD hours (R391) -/
  | patrolScrub (busy : Bool) (errs : List (Nat × Nat × Nat))
  /-- MR4_POLL: Every 16 ms, the controller reads MR4, derates refresh, and flags LP5_HOT (R390) -/
  | mr4Poll (hot : Bool)
  /-- DQS_OSCILLATOR_CHECK: Every 100 ms, a DQS interval oscillator check corrects drift by one step (R390) -/
  | dqsOscillatorCheck
  /-- SELF_REFRESH_ENTRY: A channel idle for SR_IDLE µs enters self-refresh (R392) -/
  | selfRefreshEntry (ch : Fin 2)
  /-- SELF_REFRESH_EXIT: A request to a channel in self-refresh makes it exit (R392) -/
  | selfRefreshExit (ch : Fin 2)
  /-- FREQ_CHANGE: A write of DMC.CMD = 0x1 starts the frequency change to the shadow timing set (R393) -/
  | freqChange (sec : Bool)
  /-- FREQ_CHANGE_DONE: The frequency change completes: ACTIVE_SET swaps, requests are admitted, event 29 is raised (R393) -/
  | freqChangeDone
  /-- RETRAIN: A write of DMC.CMD = 0x2 repeats LP5 training while every stall is OFFLINE or IDLE (R394) -/
  | retrain (sec : Bool)
  /-- TRAINING_DONE: LP5 training ends, moving STATE to READY or FAILED and raising event 28 (R394) -/
  | trainingDone (ok : Bool) (res : List (Nat × Nat × Nat))
  /-- MEM_READ: Management opcode 0x74 copies device memory to host memory (R395) -/
  | memRead (c : Fin 256) (errs : List (Nat × Nat × Nat))
  /-- MEM_WRITE: Management opcode 0x75 copies host memory into LP5 memory (R395) -/
  | memWrite (c : Fin 256) (r : DmaIn) (errs : List (Nat × Nat × Nat))
  /-- DMC_CONFIG_WRITE: A write of DMC.CFG or DMC.SCRUB is accepted or refused by range (R396) -/
  | dmcConfigWrite (sec scrub : Bool) (v : Word)
  /-- REFERENCE_MONITOR_TRIP: A reference monitor trips on missing edges or frequency, losing qualification and raising
  event 0 (R402) -/
  | referenceMonitorTrip (r : Fin 4) (dev : Option Int)
  /-- REFERENCE_QUALIFIED: A reference in range without a break for its qualification time becomes qualified, and the root
  may move to it (R401) -/
  | referenceQualified (r : Fin 4)
  /-- SWITCH: A write of CPM.CMD.SWITCH moves the root to the highest-priority qualified reference, or is ignored (R403) -/
  | switch (sec : Bool)
  /-- PULL_COMPLETE: The PLL completes its pull and locks phase to the new reference (R403) -/
  | pullComplete
  /-- PLL_UNLOCK: The PLL lock detector reports loss of lock, which causes fallback to SAFE (R404) -/
  | pllUnlock
  /-- SAFE_EXIT: Once the crystal has been qualified for 2 ms and the pull has locked, CLOCK clears and events 1 and 3 are
  raised (R404) -/
  | safeExit
  /-- CLOCK_GATE: A unit without work is clock-gated after its acknowledgement, and started again when work arrives (R408) -/
  | clockGate (unit : Nat) (gate : Bool)
  /-- GATE_DENIED: No acknowledgement within 4,096 cycles cancels the gate request and raises event 5 (R409) -/
  | gateDenied (unit : Nat)
  /-- AO_CRYSTAL_CHANGE: The always-on island changes to the 32.768 kHz crystal once it oscillates (R411) -/
  | aoCrystalChange
  /-- RAIL_WARNING: A rail between its warning and reset thresholds clears its bit and raises event 14 (R414) -/
  | railWarning (rail : Fin 5)
  /-- RAIL_RESET: A rail below its reset threshold causes a device reset or power-on reset (R414) -/
  | railReset (rail : Fin 5)
  /-- POWER_FAIL_WARNING: PFAIL_N falling raises event 13 and starts the lifetime save (R414) -/
  | powerFailWarning (ok : Bool)
  /-- THERMAL_EVALUATION: Every 1 ms, the sensors are cross-checked, T_CTL is formed, the thermal state and k_throttle are
  updated, and shutdown is tested (R415) -/
  | thermalEvaluation
  /-- HARD_LIMIT: Analogue comparators detect two sensors above 125 °C and shut the device down (R420) -/
  | hardLimit
  /-- SHUTDOWN_GATING: 100 ms after shutdown, stables, pipelines, engines and bays are disabled and LP5 enters self-refresh
  (R420) -/
  | shutdownGating
  /-- SENSOR_RESET: A write of THM.CMD.SENSOR_RESET clears a sensor's BROKEN mark (R416) -/
  | sensorReset (sec : Bool) (v : Word)
  /-- THERMAL_CONFIG_WRITE: A write of CPM or THM configuration is accepted or refused by range and consistency (R423) -/
  | thermalConfigWrite (sec : Bool) (r : Fin 11) (v : Word)
  /-- PTP_SYNC: A Sync received in SLAVE yields an offset measurement applied by the PI servo, or refused as a jump (R434) -/
  | ptpSync (p : Fin 2) (hdr : PtpHdr) (twoStep : Bool) (ident : Nat) (rx origin corr : Int)
  /-- FOLLOW_UP: A Follow_Up completes a two-step Sync measurement (R431) -/
  | followUp (p : Fin 2) (hdr : PtpHdr) (ident : Nat) (origin corr : Int)
  /-- ANNOUNCE: An Announce message feeds the best timing transmitter selection (R431) -/
  | announce (p : Fin 2) (hdr : PtpHdr) (clock port : Nat) (ann : Ann)
  /-- DELAY_RESP: A Delay_Resp or Pdelay_Resp message completes a mean delay measurement (R431) -/
  | delayResp (p : Fin 2) (hdr : PtpHdr) (rx t4 corr : Int)
  /-- PDELAY_REQ: A Pdelay_Req received is answered by a one-step Pdelay_Resp (R433) -/
  | pdelayReq (p : Fin 2) (hdr : PtpHdr) (rx tx : Int)
  /-- SYNC_SEND: A port in MASTER sends a one-step Sync with its originTimestamp written in flight (R433) -/
  | syncSend (p : Fin 2) (tx : Int)
  /-- ANNOUNCE_RECEIPT_TIMEOUT: No valid Sync or Announce for the timeout puts the servo in HOLDOVER (R435) -/
  | announceReceiptTimeout (p : Fin 2)
  /-- TIME_HOLDOVER_LONG: HOLDOVER lasting LIMIT s sets HOLD_LONG and raises event 20 (R435) -/
  | timeHoldoverLong
  /-- ACCEPT_STEP: The ACCEPT_STEP command of TMS.CMD steps yard time by −PENDING in 4,000 ns multiples, or is refused (R437) -/
  | acceptStep (sec : Bool)
  /-- ACCEPT_SLEW: The ACCEPT_SLEW command of TMS.CMD removes PENDING at MAX_ADJ in state SLEWING (R437) -/
  | acceptSlew (sec : Bool)
  /-- SET: The SET command of TMS.CMD schedules yard time to take SET_VALUE at the next superframe boundary, or is refused (R438) -/
  | set (sec : Bool)
  /-- SET_APPLIED: At the superframe boundary, yard time takes the SET value and event 18 is raised (R438) -/
  | setApplied
  /-- SLEW_COMPLETE: The slew has removed PENDING, and the accepting descriptor completes (R437) -/
  | slewComplete
  /-- TIME_ACCEPT: Opcode 0x90 accepts a refused offset by STEP or SLEW (R439) -/
  | timeAccept (c : Fin 256)
  /-- TIME_SET: Opcode 0x91 sets yard time to its value as SET does (R439) -/
  | timeSet (c : Fin 256)
  /-- TIME_READ: Opcode 0x92 returns TMS.OFFSET and TMS.STATUS (R439) -/
  | timeRead (c : Fin 256)
  /-- TIME_CONFIG_WRITE: A write of TMS registers is accepted or refused by range and EN (R441) -/
  | timeConfigWrite (sec : Bool) (r : Fin 15) (w : Wr64)
  /-- INFO: Mailbox service 0x01 returns DEVICE_ID, the lifecycle, EVALUATED, the key status and optionally the device
  public key (R456) -/
  | info
  /-- KEY_IMPORT: Mailbox service 0x02 imports a wrapped key into a key-store slot (R456) -/
  | keyImport (r : DmaIn) (sigOk : Bool) (key : Option Nat)
  /-- KEY_ERASE: Mailbox service 0x03 erases a key-store slot (R456) -/
  | keyErase
  /-- SETTINGS_APPLY: Mailbox service 0x04 applies a signed settings object's BWT, Region Table, limits and CFG together at
  one tick (R456) -/
  | settingsApply (r : DmaIn) (sigOk : Bool) (body : Option SecSet)
  /-- RECORDER_ATTEST: Mailbox service 0x05 flushes the staged records and signs the recorder chain value with the host
  nonce (R493) -/
  | recorderAttest (sig : List Byte)
  /-- RECORDER_CLEAR: Mailbox service 0x06 clears the recorder with a KIND 0x4 record as the new TAIL (R494) -/
  | recorderClear (r : DmaIn) (sigOk : Bool)
  /-- LIFECYCLE_ADVANCE: Mailbox service 0x07 moves the lifecycle fuse state forward (R453) -/
  | lifecycleAdvance (r : DmaIn) (sigOk : Bool) (newKey : Nat)
  /-- RANDOM: Mailbox service 0x08 returns bytes from the true random source (R456) -/
  | random (bytes : List Byte)
  /-- BWT_WRITE: A secure write of TCK.BWT changes block worlds at the next tick while every stall is OFFLINE or IDLE (R450) -/
  | bwtWrite (sec : Bool) (w : Wr64)
  /-- REGION_TABLE_WRITE: A secure write of a Region Table entry is accepted and zeroes pages that become non-secure, or is
  refused (R450) -/
  | regionTableWrite (sec : Bool) (r : Fin 4) (v : Word)
  /-- REGION_ZEROING_DONE: The zeroing of pages that change to non-secure ends, and the world change takes effect (R450) -/
  | regionZeroingDone
  /-- LIMIT_WRITE: A secure write of a stall's power, speed or d_min limit takes effect at the next tick (R455) -/
  | limitWrite (sec : Bool) (g : Fin 48) (k : Fin 3) (v : Word)
  /-- TCK_FAULT: A secure-core fault or random-source health failure sets TRNG_FAIL and raises event 37 (R459) -/
  | tckFault (health : Bool)
  /-- FAR_RUN: Management opcode 0x7A makes calibration kinds pending on named units, or forces them to run at once (R468) -/
  | farRun (c : Fin 256)
  /-- LANE: A LANE run reads the eye centre, checks it and writes DATA_DLY (R462) -/
  | lane (b : Fin 12) (centre : Nat)
  /-- DFE: A DFE run starts the climb of the equaliser offsets, tap by tap (R462) -/
  | dfe (b : Fin 12)
  /-- DFE_STEP: After each 1 ms hold, the farrier reads EYE_WIDTH and takes the next offset step or ends the tap (R462) -/
  | dfeStep (b : Fin 12) (width : Nat)
  /-- GATE: A GATE run computes the median delay and the spread, checks them and starts stepping TRIM (R461) -/
  | gate (g : Fin 48)
  /-- THRESHOLD: A THRESHOLD run computes PD_THR from the baseline and moves it one code per tick (R461) -/
  | threshold (g : Fin 48)
  /-- LINK_TEST: A LINK_TEST run sets the bay into PRBS31 test (R462) -/
  | linkTest (b : Fin 12)
  /-- LINK_TEST_END: After TEST_MS, the farrier records PRBS_ERRS, clears TEST and lets the bay retrain (R462) -/
  | linkTestEnd (b : Fin 12) (bits errs : Nat)
  /-- FAR_CONFIG_WRITE: A write of FAR registers is accepted or refused by range; a host PD_THR write overrides the farrier
  (R469) -/
  | farConfigWrite (sec : Bool) (r : Fin 8) (g : Fin 48) (v : Word)
  /-- LAMP_FAULT: COUNT consecutive failed checks recognise an OPEN or SHORT fault, force the lamp off and fail its group (R478) -/
  | lampFault (i : Fin 160) (short : Bool)
  /-- TEST_BURST: Every TEST_PERIOD ms, a monitored lamp showing 0 receives a test burst (R477) -/
  | testBurst (i : Fin 160)
  /-- FADE_STEP: Every ms, a fading lamp's displayed value moves linearly towards its target (R475) -/
  | fadeStep
  /-- LMP_PATTERN_FAULT: A pattern engine that fails its checks enters FAULT, and its lamps fall back (R476) -/
  | lmpPatternFault (k : Fin 4)
  /-- GROUP_CLEAR: A write of LMP.CMD.GROUP_CLEAR runs a test burst on every lamp of a FAILED group (R479) -/
  | groupClear (sec : Bool) (k : Fin 8)
  /-- GROUP_CLEAR_DONE: The clear test ends: the group becomes OK, or stays FAILED with CLEAR_FAILED (R479) -/
  | groupClearDone (k : Fin 8) (bad : List (Fin 160))
  /-- LAMP_CLEAR: A write of LMP.CMD.LAMP_CLEAR tests and clears a faulty lamp that belongs to no group (R479) -/
  | lampClear (sec : Bool) (i : Fin 160) (pass : Bool)
  /-- PAT_CLEAR: A write of LMP.CMD.PAT_CLEAR takes a pattern engine out of FAULT (R476) -/
  | patClear (sec : Bool) (k : Fin 4)
  /-- BEACON_BIND_WRITE: A secure write of LMP.BEACON_BIND binds groups to the BEACON inhibit source, or is refused when a
  lamp is unmonitored (R480) -/
  | beaconBindWrite (sec : Bool) (v : Word)
  /-- LAMP_CONFIG_WRITE: A write of LMP registers is accepted or refused by range and by the secure-field rules (R483) -/
  | lampConfigWrite (sec : Bool) (o : Nat) (v : Word)
  /-- PEND_CLEAR: A W1C write of EVC.PEND clears sources and signals every vector that still has a routed source pending (R488) -/
  | pendClear (sec : Bool) (w : Fin 16) (v : Word)
  /-- EVENT_CONFIG_WRITE: A write of EVC.SRC or DGN configuration is accepted, or refused for a field out of range or an
  ALWAYS source (R505) -/
  | eventConfigWrite (sec : Bool) (n : Fin 513) (v : Word)
  /-- RECORDER_FLUSH: Staged records are written to the secure NOR partition when 256 are staged, extending the chain value
  (R492) -/
  | recorderFlush
  /-- CURSOR_WRITE: A write of ERW.CURSOR names a SEQ and starts the record fetch (R495) -/
  | cursorWrite (sec : Bool) (v : Word)
  /-- RECORD_FETCH_DONE: The fetched record arrives in ERW.RECORD, and READY sets (R495) -/
  | recordFetchDone
  /-- RECORD_READ_ADVANCE: With AUTO_ADV set, a read of ERW.RECORD[15] advances CURSOR and starts the next fetch (R495) -/
  | recordReadAdvance (sec : Bool)
  /-- FREEZE: A write of DGN.CMD.FREEZE triggers a snapshot at the next tick (R496) -/
  | freeze (sec : Bool)
  /-- SNAP_IN: A filtered edge on SNAP_IN triggers a snapshot (R496) -/
  | snapIn (rising : Bool)
  /-- SNAPSHOT_CAPTURE: At the freeze tick, every block captures its snapshot contents between steps 1 and 2, and event 220
  is raised (R496) -/
  | snapshotCapture
  /-- SNAPSHOT_RELEASE: A write of DGN.CMD.RELEASE releases a held snapshot (R497) -/
  | snapshotRelease (sec : Bool)
  /-- LIFETIME_SAVE: A write of DGN.CMD.SAVE writes the lifetime image to the other NOR copy (R499) -/
  | lifetimeSave (sec ok : Bool)
  /-- PERIODIC_SAVE: Every 600 s of OP_SECONDS, the lifetime image and the staged records are saved (R499) -/
  | periodicSave (ok : Bool)
  /-- OPERATING_SECOND: Each whole second of valid always-on rail increments OP_SECONDS (R498) -/
  | operatingSecond
  /-- TRACE_FLUSH: A partly filled trace block FLUSH_MS old is cut by FLUSH (R503) -/
  | traceFlush (c : Fin 64)
  /-- DGN_SNAP_READ: Opcode 0xA0 writes the held snapshot image to host memory, optionally releasing it (R504) -/
  | dgnSnapRead (c : Fin 256)
  /-- DGN_LIFETIME_READ: Opcode 0xA1 writes the lifetime counter image to host memory (R501) -/
  | dgnLifetimeRead (c : Fin 256)
  /-- DGN_RECORDER_READ: Opcode 0xA2 writes the held recorder records from a SEQ to host memory (R504) -/
  | dgnRecorderRead (c : Fin 256)
  /-- DGN_TRACE_BUF: Opcode 0xA3 supplies a buffer for a trace channel's compressed blocks (R503) -/
  | dgnTraceBuf (c : Fin 256)
  /-- DGN_FREEZE: Opcode 0xA4 triggers a snapshot and completes at the freeze tick (R504) -/
  | dgnFreeze (c : Fin 256)
  /-- TRACE_CONFIG_WRITE: A write of DGN.TRACE[c].CFG enables a channel, or ends its stream with a trailer (R505) -/
  | traceConfigWrite (sec : Bool) (c : Fin 64) (v : Word)
  /-- POWER_ON_RESET: PORST_N low, or the always-on rail below threshold, resets the whole device including the always-on
  island (R530) -/
  | powerOnReset
  /-- DEVICE_RESET: RESET_N low, or a rail reset, ramps every domain to SAFE and resets the device, keeping the always-on
  island (R413) -/
  | deviceReset
  /-- START_UP: After reset release, the ROM and firmware authenticate and start TCK, MGMT and AOS, load settings, train
  memory and set READY (R512) -/
  | startUp (b : Boot)
  /-- READY_TIMEOUT: A TRIAL MGMT slot that does not reach READY in time restarts the cluster, and falls back after TRIES
  attempts (R513) -/
  | readyTimeout
  /-- RECOVERY_LOAD: A write of BOOT.RCV_CMD.LOAD reads a recovery image by DMA, authenticates it and installs it (R515) -/
  | recoveryLoad (sec : Bool) (r : DmaIn) (sigOk hashOk : Bool)
  /-- RECOVERY_REBOOT: A write of BOOT.RCV_CMD.REBOOT restarts the device from step 1 of start-up (R515) -/
  | recoveryReboot (sec : Bool)
  /-- UART_FRAME: A service UART recovery frame is checked and acknowledged, and LEN 0 ends the image (R515) -/
  | uartFrame (frame : List Byte) (sigOk hashOk : Bool)
  /-- IMG_WRITE: Management opcode 0x80 writes a chunk of an image into the inactive slot and verifies it at LAST (R516) -/
  | imgWrite (c : Fin 256) (r : DmaIn) (sigOk hashOk : Bool)
  /-- IMG_ACTIVATE: Management opcode 0x81 activates a verified image at a commit tick, directly or staged (R518) -/
  | imgActivate (c : Fin 256)
  /-- IN_PLACE_COPY_DONE: The copy of STAGE into the AOS or TCK partition ends, and the core restarts from it (R519) -/
  | inPlaceCopyDone
  /-- BOOT_CONFIG_WRITE: A write of BOOT registers is accepted or refused by range, and recovery registers are refused
  outside recovery (R522) -/
  | bootConfigWrite (sec : Bool) (r : Fin 4) (w : Wr64)
  /-- LINK_SPEED_WIDTH_CHANGE: The PCIe data link changes speed or width without going down, which updates LINK_SPEED and
  LINK_WIDTH, raises event 49 and counts in the lifetime record (R71) -/
  | linkSpeedWidthChange (speed : Nat) (width : Nat)
  /-- SEQUENCER_FAULT: A stable sequencer fault raises event stable + 34 and puts the affected stalls into FAULT with cause
  SEQUENCER (R95) -/
  | sequencerFault (t : Fin 6) (stalls : List (Fin 48))
  /-- CONTROLLED_STOP_COMPLETE: An axis in a controlled stop comes to rest, so it leaves STOPPING for IDLE and its AXIS_STOP
  completes (R289) -/
  | controlledStopComplete (a : Fin 8)
  /-- DESKEW_SEQUENCE: A sensor's initial or periodic deskew sequence arrives on a CSI-2 port, which sets DESKEW_DONE, or
  sets DESKEW_FAIL and raises event 96 + p (R304) -/
  | deskewSequence (p : Fin 4) (ok : Bool)
  /-- UPSTREAM_WAKE: A head whose upstream lane sleeps sends its 64-block TRAIN burst with WAKE, and UP_PWR returns through
  exiting to awake (R372) -/
  | upstreamWake (b : Fin 12)
  /-- LANE_TRACKING: With TRACK set, a drift of the eye centre by 2 or more taps moves LANE_DLY.IN_USE by one tap towards it
  in ACTIVE (R369) -/
  | laneTracking (b : Fin 12) (rx : Nat × List Nat × Nat × Nat)
  /-- PROBE_TIMEOUT: A PROBE not answered within 10 µs restarts the set of 16 delay probes (R366) -/
  | probeTimeout (b : Fin 12)
  /-- ETHERNET_LINK_DOWN: An Ethernet port's link goes down, which clears PORT_STATUS.LINK_UP, squelches its recovered
  clock, removes it as a reference and may move the PTP port out of SLAVE (R440) -/
  | ethernetLinkDown (p : Fin 2) (frags : Nat)
  /-- ETHERNET_LINK_UP: An Ethernet port's link comes up, which sets LINK_UP, releases the squelch and lets the port take
  part in PTP again (R440) -/
  | ethernetLinkUp (p : Fin 2) (mbps : Nat)
  /-- DELAY_REQ_SEND: At each logMinDelayReqInterval or logMinPdelayReqInterval, a port sends a time-stamped Delay_Req or
  Pdelay_Req (R431) -/
  | delayReqSend (p : Fin 2) (tx : Int)
  /-- ANNOUNCE_SEND: A port in MASTER sends an Announce message at each logAnnounceInterval (R431) -/
  | announceSend (p : Fin 2)
  /-- DELAY_REQ: A Delay_Req received on a port in MASTER is stamped and answered with a Delay_Resp (R432) -/
  | delayReq (p : Fin 2) (hdr : PtpHdr) (rx : Int)
  /-- IMG_REPLY_TIMEOUT: A head that does not reply to an IMG_OFFER, IMG_DATA or IMG_DONE within 10 ms fails the staging of
  the HEAD or LINK_BARE activation (R520) -/
  | imgReplyTimeout (b : Fin 12)
  /-- MGMT_READY: After an MGMT activation restarts the management cluster, READY returns, the TRIAL slot becomes ACTIVE,
  the previous slot becomes VERIFIED and the rollback minimum rises (R513) -/
  | mgmtReady
  /-- RAIL_WARNING_CLEARED: A monitored rail rises back above its warning threshold, and its bit in CPM.PWR_STATUS sets
  again (R414) -/
  | railWarningCleared (rail : Fin 5)
  /-- TEMPERATURE_CONVERSION: Every 100 µs each temperature sensor is converted, and THM.TEMP takes the rounded mean of the
  last 16 conversions (R415) -/
  | temperatureConversion (vals : List Int)
  deriving DecidableEq, Repr

end Sys2Proof
end

