-- ==== Sys2Proof/Decode.lean ====
section
/-!
DEFINITION. The command a word of the operation table spells. The table gives no row any bits (spec/opcode_table.json: every
"fields" is empty): a command reaches the block as an event or an access, never as an instruction word, so no word spells
one. The encodings the spec does give - ring descriptors (R48), scan commands (R80), link frames (R355-R363) - are data that
the commands carry, and are read where the commands take them.
-/
namespace Sys2Proof

/-- The command that a word spells by the table's bits: none, since the table gives no bits (notes/assumptions/90). -/
def decodeTableWord (_nbits _w : Nat) : Option Instr := none

end Sys2Proof
end

