-- ==== Sys2Proof/Config.lean ====
section
/-!
DEFINITION. What an implementation fixes and what the spec leaves open. A free value is a constant without a body:
nothing can evaluate it, and a claim about it holds for every value. Each has an entry in the assumption log.
-/
namespace Sys2Proof

/-- A free value where the spec states none: `tag` names the place in the model, `n` is the state's counter of free
values drawn so far. UNVERIFIED: constrained by nothing (notes/assumptions/3). -/
opaque Config.free (tag : Nat) (n : Nat) : Nat

/-- SHA-384 of bytes (R493), as the number whose 48 little-endian bytes are the digest. The spec names the function and
does not define it. UNVERIFIED: constrained by nothing (notes/assumptions/62). -/
opaque Config.sha384 (bytes : List Byte) : Nat

/-- Whether the Region Table refuses a range of host memory to a camera stream (R325 check 4). R448 gives the table no address space
that holds host memory, so the spec leaves open which ranges those are. UNVERIFIED: constrained by nothing
(notes/assumptions/104). -/
opaque Config.hostRefused (addr len : Nat) : Bool

/-- What the device is as a PTP clock and the spec does not state (R431): clockIdentity, clockAccuracy and offsetScaledLogVariance.
UNVERIFIED: constrained by nothing (notes/assumptions/85). -/
opaque Config.ptpClock : Nat × Nat × Nat

/-- A PTP frame as it stands before the port writes into it (R433), from the destination address on and without its check sequence:
port, messageType and the state's counter of free values. UNVERIFIED: constrained by nothing (notes/assumptions/228). -/
opaque Config.ptpFrame (port type n : Nat) : List Byte

end Sys2Proof
end

