-- ==== Sys2Proof/Machine/Bits.lean ====
section
/-!
DEFINITION. Bit fields, sign extension, byte order and saturation: the arithmetic of fields that every chapter
shares (R2).
-/
namespace Sys2Proof

/-- Bits `lo + w - 1` to `lo` of `v`. -/
def bits (v lo w : Nat) : Nat := v / 2 ^ lo % 2 ^ w

/-- Bit `i` of `v`. -/
def bit (v i : Nat) : Bool := v / 2 ^ i % 2 == 1

/-- `v` with the `w` bits from `lo` replaced by `x`, which is cut to `w` bits. -/
def setBits (v lo w x : Nat) : Nat :=
  v % 2 ^ lo + 2 ^ lo * (x % 2 ^ w) + 2 ^ (lo + w) * (v / 2 ^ (lo + w))

/-- A Boolean as a one-bit field. -/
def b2n (b : Bool) : Nat := if b then 1 else 0

/-- The two's complement value of the low `w` bits of `v` (R2). -/
def sext (w v : Nat) : Int :=
  if v % 2 ^ w < 2 ^ (w - 1) then (v % 2 ^ w : Nat) else (v % 2 ^ w : Nat) - (2 ^ w : Nat)

/-- The `w`-bit two's complement code of an integer, as a natural number. -/
def code (w : Nat) (i : Int) : Nat := (i % (2 ^ w : Nat)).toNat

/-- An integer as a 32-bit register word. -/
def wordOf (i : Int) : Word := BitVec.ofInt 32 i

/-- Clamp `x` to `lo`..`hi`. -/
def clampI (lo hi x : Int) : Int := if x < lo then lo else if hi < x then hi else x

/-- Clamp for naturals. -/
def clampN (lo hi x : Nat) : Nat := if x < lo then lo else if hi < x then hi else x

/-- `x`, at most `hi`: a saturating counter's new value. -/
def satN (hi x : Nat) : Nat := if hi < x then hi else x

/-- Division rounded down of an integer by a positive natural. -/
def fdivN (x : Int) (n : Nat) : Int := x.fdiv n

/-- Division rounded up of naturals. -/
def cdiv (a b : Nat) : Nat := (a + b - 1) / b

/-- Integer division rounded to the nearest, ties upwards. -/
def rdivUp (x : Int) (n : Nat) : Int := (2 * x + n).fdiv (2 * n)

/-- The little-endian value of a list of bytes (R2). -/
def leNat : List Byte → Nat
  | [] => 0
  | b :: bs => b.toNat + 256 * leNat bs

/-- `n` little-endian bytes of `v` (R2). -/
def leBytes : Nat → Nat → List Byte
  | 0, _ => []
  | n + 1, v => BitVec.ofNat 8 v :: leBytes n (v / 256)

/-- The little-endian value of `n` bytes of `bs` from offset `o`. -/
def leAt (bs : List Byte) (o n : Nat) : Nat := leNat ((bs.drop o).take n)

/-- Bytes `o` to `o + n - 1` of a raw descriptor, as a number (R2, R48). -/
def dbytes (d : RawDesc) (o n : Nat) : Nat := bits d.toNat (8 * o) (8 * n)

/-- The integer square root, by Newton's method with `fuel` steps. -/
def isqrtGo : Nat → Nat → Nat → Nat
  | 0, _, x => x
  | fuel + 1, n, x => let y := (x + n / x) / 2; if y < x then isqrtGo fuel n y else x

/-- The integer square root, rounded down. -/
def isqrt (n : Nat) : Nat := if n = 0 then 0 else isqrtGo (n.log2 + 8) n (2 ^ (n.log2 / 2 + 1))

/-- The sum of a list of naturals. -/
def sumN (l : List Nat) : Nat := l.foldl (· + ·) 0

/-- Insert a value in an ascending list. -/
def insertAsc (x : Nat) : List Nat → List Nat
  | [] => [x]
  | y :: ys => if x ≤ y then x :: y :: ys else y :: insertAsc x ys

/-- Ascending sort. -/
def sortAsc (l : List Nat) : List Nat := l.foldl (fun acc x => insertAsc x acc) []

end Sys2Proof
end

