-- ==== Sys2Proof/Machine/RegMap.lean ====
section
/-!
DEFINITION. The set-up window's register map: one address per register (namespace `R`), one field per documented
field (namespace `F`), and one row per register with its reset value, its access masks and its world, as the
register tables of the chapters of spec/ give them (R4-R10, R27, R28). An address takes the indices the manual's
register arrays take: `g` a global stall number, `s` a stable, `b` a bay, `c` a ring context and so on.
-/
namespace Sys2Proof

/-- A field of a register: the register's set-up window offset, the field's lowest bit and its width. -/
structure Fld where
  off : Nat
  lo : Nat
  w : Nat
  deriving DecidableEq, Repr

/-- First offset of stall `g`'s register block (R27, R28). -/
def stallBase (g : Nat) : Nat := 0x200000 + 0x100000 * (g / 8) + 0x10000 * (g % 8)
/-- First offset of stable `s`'s closed-loop engine registers (R28). -/
def cleBase (s : Nat) : Nat := 0x280000 + 0x100000 * s
/-- First offset of stable `s`'s stable-wide registers (R28). -/
def stbBase (s : Nat) : Nat := 0x2A0000 + 0x100000 * s
/-- First offset of bay `b`'s link registers (R27). -/
def lnkBase (b : Nat) : Nat := 0x800000 + 0x10000 * b

def R.YRD_CTRL : Nat := 0x20000
def R.YRD_MV_PERIOD : Nat := 0x20004
def R.YRD_CFG_STATUS : Nat := 0x20008
def R.YRD_LAYER_SET : Nat := 0x20010
def R.YRD_LAYER_STATUS : Nat := 0x20018
def R.YRD_BAY_MAP (b : Nat) : Nat := 0x20040 + 0x4 * b
def R.YRD_STALL_SUMMARY (s : Nat) : Nat := 0x20080 + 0x4 * s
def R.HIF_STATUS : Nat := 0x10000
def R.HIF_VERSION_OFFER : Nat := 0x10008
def R.HIF_VERSION_AGREED : Nat := 0x1000C
def R.HIF_CTX_CMD : Nat := 0x10010
def R.HIF_CTX_CMD_STATUS : Nat := 0x10014
def R.HIF_ACCESS_ERR : Nat := 0x10018
def R.HIF_ERR_STATUS : Nat := 0x1001C
def R.HIF_INFLIGHT : Nat := 0x10020
def R.HIF_BP_THRESHOLD : Nat := 0x10024
def R.HIF_DMA_ERR_ADDR : Nat := 0x10030
def R.HIF_DMA_ERR_INFO : Nat := 0x10038
def R.HIF_MBOX_REQ (i : Nat) : Nat := 0x10100 + 0x4 * i
def R.HIF_MBOX_RSP (i : Nat) : Nat := 0x10140 + 0x4 * i
def R.HIF_MBOX_CTRL : Nat := 0x10180
def R.HIF_MBOX_STATUS : Nat := 0x10184
def R.HIF_CTX_CFG (c : Nat) : Nat := 0x11000 + 0x40 * c
def R.HIF_CTX_STATUS (c : Nat) : Nat := 0x11004 + 0x40 * c
def R.HIF_CTX_SQ_BASE (c : Nat) : Nat := 0x11008 + 0x40 * c
def R.HIF_CTX_CQ_BASE (c : Nat) : Nat := 0x11010 + 0x40 * c
def R.HIF_CTX_SQ_HEAD (c : Nat) : Nat := 0x11018 + 0x40 * c
def R.HIF_CTX_SQ_TAIL (c : Nat) : Nat := 0x1101C + 0x40 * c
def R.HIF_CTX_CQ_TAIL (c : Nat) : Nat := 0x11020 + 0x40 * c
def R.HIF_CTX_CQ_HEAD (c : Nat) : Nat := 0x11024 + 0x40 * c
def R.HIF_CTX_LAST_SEQ (c : Nat) : Nat := 0x11028 + 0x40 * c
def R.HIF_CTX_IRQ (c : Nat) : Nat := 0x1102C + 0x40 * c
def R.HIF_CTX_BP_TIME (c : Nat) : Nat := 0x11030 + 0x40 * c
def R.HIF_CTX_DUP_COUNT (c : Nat) : Nat := 0x11038 + 0x40 * c
def R.STALL_CTRL (g : Nat) : Nat := stallBase g + 0x0
def R.STALL_CMD (g : Nat) : Nat := stallBase g + 0x4
def R.STALL_STATE (g : Nat) : Nat := stallBase g + 0x8
def R.STALL_FLAGS (g : Nat) : Nat := stallBase g + 0xC
def R.STALL_PROG_REGION (g : Nat) : Nat := stallBase g + 0x10
def R.STALL_PROG_WP (g : Nat) : Nat := stallBase g + 0x18
def R.STALL_PROG_RP (g : Nat) : Nat := stallBase g + 0x1C
def R.STALL_PROG_PARSE (g : Nat) : Nat := stallBase g + 0x20
def R.STALL_PROG_FREE (g : Nat) : Nat := stallBase g + 0x24
def R.STALL_PROG_ERR (g : Nat) : Nat := stallBase g + 0x28
def R.STALL_PROG_ERR_OFFSET (g : Nat) : Nat := stallBase g + 0x2C
def R.STALL_STROKE_TIMEOUT (g : Nat) : Nat := stallBase g + 0x30
def R.STALL_STROKE_PLAN (g : Nat) : Nat := stallBase g + 0x34
def R.STALL_STROKE_ELAPSED (g : Nat) : Nat := stallBase g + 0x38
def R.STALL_ISLAND (g : Nat) : Nat := stallBase g + 0x3C
def R.STALL_ISLAND_ELAPSED (g : Nat) : Nat := stallBase g + 0x40
def R.STALL_LAYER_MARK (g : Nat) : Nat := stallBase g + 0x44
def R.STALL_SYNC (g : Nat) : Nat := stallBase g + 0x48
def R.STALL_STROKE_COUNT (g : Nat) : Nat := stallBase g + 0x50
def R.STALL_ISLAND_COUNT (g : Nat) : Nat := stallBase g + 0x58
def R.STALL_LIMIT_CLAMPS (g : Nat) : Nat := stallBase g + 0x5C
def R.YRD_HEARTBEAT : Nat := 0x20100
def R.YRD_HEARTBEAT_KICK : Nat := 0x20104
def R.YRD_HEARTBEAT_STATUS : Nat := 0x20108
def R.YRD_LAYER_DEADLINE : Nat := 0x20110
def R.YRD_LAYER_DEADLINE_STATUS : Nat := 0x20114
def R.YRD_HOLD_ALL : Nat := 0x20118
def R.STALL_TRJ_CTRL (g : Nat) : Nat := stallBase g + 0x100
def R.STALL_TRJ_RUNAHEAD (g : Nat) : Nat := stallBase g + 0x104
def R.STALL_TRJ_LEAD (g : Nat) : Nat := stallBase g + 0x108
def R.STALL_TRJ_LAG (g : Nat) : Nat := stallBase g + 0x10C
def R.STALL_MARK_ACCEL (g : Nat) : Nat := stallBase g + 0x110
def R.STALL_MARK_JERK (g : Nat) : Nat := stallBase g + 0x114
def R.STALL_JUMP_ACCEL (g : Nat) : Nat := stallBase g + 0x118
def R.STALL_JUMP_JERK (g : Nat) : Nat := stallBase g + 0x11C
def R.STALL_CORNER (g : Nat) : Nat := stallBase g + 0x120
def R.STALL_F_LIMIT (g : Nat) : Nat := stallBase g + 0x124
def R.STALL_GRID_ORIGIN_X (g : Nat) : Nat := stallBase g + 0x128
def R.STALL_GRID_ORIGIN_Y (g : Nat) : Nat := stallBase g + 0x12C
def R.STALL_GRID_PITCH (g : Nat) : Nat := stallBase g + 0x130
def R.STALL_GRID_SEL (g : Nat) : Nat := stallBase g + 0x134
def R.STALL_FOCUS_PLANES (g : Nat) : Nat := stallBase g + 0x138
def R.STALL_F_GAIN (g : Nat) : Nat := stallBase g + 0x13C
def R.STALL_TRJ_STATUS (g : Nat) : Nat := stallBase g + 0x140
def R.STALL_TRJ_FAULT (g : Nat) : Nat := stallBase g + 0x144
def R.STALL_TRJ_FLAGS (g : Nat) : Nat := stallBase g + 0x148
def R.STALL_TRJ_SQUASH_LAST (g : Nat) : Nat := stallBase g + 0x14C
def R.STALL_TRJ_SQUASH_TIME (g : Nat) : Nat := stallBase g + 0x150
def R.STALL_TRJ_SQUASHES (g : Nat) : Nat := stallBase g + 0x158
def R.STALL_TRJ_STARVED_HOLDS (g : Nat) : Nat := stallBase g + 0x15C
def R.STALL_TRJ_SQUASHED_MV (g : Nat) : Nat := stallBase g + 0x160
def R.STALL_TRJ_SATURATIONS (g : Nat) : Nat := stallBase g + 0x168
def R.STALL_TRJ_FACTORS (g : Nat) : Nat := stallBase g + 0x16C
def R.STALL_TRJ_POS_X (g : Nat) : Nat := stallBase g + 0x170
def R.STALL_TRJ_POS_Y (g : Nat) : Nat := stallBase g + 0x174
def R.STALL_TRJ_POS_F (g : Nat) : Nat := stallBase g + 0x178
def R.STALL_TRJ_SPEED (g : Nat) : Nat := stallBase g + 0x17C
def R.STB_TRJ_ENGINE (s : Nat) : Nat := stbBase s + 0x0
def R.STB_TRJ_ENGINE_PEAK (s : Nat) : Nat := stbBase s + 0x4
def R.STB_GRID_WIN_SEL (s : Nat) : Nat := stbBase s + 0x10
def R.STB_GRID_WIN_STATUS (s : Nat) : Nat := stbBase s + 0x14
def R.STB_GRID_CRC (s n : Nat) : Nat := stbBase s + 0x40 + 0x4 * n
def R.STALL_GATE_CFG (g : Nat) : Nat := stallBase g + 0x200
def R.STALL_GATE_TRIM (g : Nat) : Nat := stallBase g + 0x204
def R.STALL_PWR_GAIN (g : Nat) : Nat := stallBase g + 0x208
def R.STALL_PWR_CODE (g : Nat) : Nat := stallBase g + 0x20C
def R.STALL_PWR_ADVANCE (g : Nat) : Nat := stallBase g + 0x210
def R.STALL_OUT_STATUS (g : Nat) : Nat := stallBase g + 0x214
def R.STALL_OUT_FLAGS (g : Nat) : Nat := stallBase g + 0x218
def R.STALL_OUT_FAULT (g : Nat) : Nat := stallBase g + 0x21C
def R.STALL_CMP_LAST_A (g : Nat) : Nat := stallBase g + 0x220
def R.STALL_CMP_LAST_B (g : Nat) : Nat := stallBase g + 0x224
def R.STALL_PWR_CLAMPS (g : Nat) : Nat := stallBase g + 0x228
def R.STALL_CMP_FIRED (g : Nat) : Nat := stallBase g + 0x230
def R.STALL_GATE_ON_TIME (g : Nat) : Nat := stallBase g + 0x238
def R.STALL_READBACK_COUNT (g : Nat) : Nat := stallBase g + 0x240
def R.STB_CMP_LOCKED (s : Nat) : Nat := stbBase s + 0x100
def R.YRD_LSAFE_STATUS : Nat := 0x20200
def R.YRD_LSAFE_FLAGS : Nat := 0x20204
def R.YRD_LSAFE_CLEAR : Nat := 0x20208
def R.YRD_LSAFE_SW : Nat := 0x2020C
def R.YRD_LSAFE_SEC : Nat := 0x20210
def R.YRD_LSAFE_RELEASE : Nat := 0x20214
def R.YRD_LSAFE_FILTER : Nat := 0x20218
def R.YRD_LSAFE_TIME : Nat := 0x20220
def R.YRD_LSAFE_COUNT : Nat := 0x20228
def R.YRD_MSH_CTRL : Nat := 0x20800
def R.YRD_MSH_DMIN : Nat := 0x20804
def R.YRD_MSH_PLUME : Nat := 0x20808
def R.YRD_MSH_FLOW : Nat := 0x2080C
def R.YRD_MSH_DEFER : Nat := 0x20810
def R.YRD_MSH_SEAM_CFG : Nat := 0x20814
def R.YRD_MSH_STATUS : Nat := 0x20818
def R.YRD_MSH_FLAGS : Nat := 0x2081C
def R.YRD_MSH_SEAM_MOVE : Nat := 0x20820
def R.YRD_MSH_SEAM_RESULT : Nat := 0x20828
def R.YRD_MSH_SEAM_SEL : Nat := 0x2082C
def R.YRD_MSH_SEAM_INFO : Nat := 0x20830
def R.YRD_MSH_LAST_CONFLICT : Nat := 0x20838
def R.YRD_MSH_LAST_CONFLICT_TIME : Nat := 0x20840
def R.YRD_MSH_DEFERRALS : Nat := 0x20848
def R.YRD_MSH_LATE_COUNT : Nat := 0x20850
def R.YRD_MSH_MOVE_COUNT : Nat := 0x20854
def R.YRD_MSH_STALL (g : Nat) : Nat := 0x20900 + 0x4 * g
def R.CLE_STATUS (s : Nat) : Nat := cleBase s + 0x0
def R.CLE_FLAGS (s : Nat) : Nat := cleBase s + 0x4
def R.CLE_SERVO_CMD (s : Nat) : Nat := cleBase s + 0x8
def R.CLE_SERVO_CMD_STATUS (s : Nat) : Nat := cleBase s + 0xC
def R.CLE_BANK_SWAPS (s : Nat) : Nat := cleBase s + 0x10
def R.CLE_SATURATIONS (s : Nat) : Nat := cleBase s + 0x14
def R.ENG_CFG (g : Nat) : Nat := cleBase (g / 8) + 0x100 + 0x40 * (g % 8)
def R.ENG_BANK (g : Nat) : Nat := cleBase (g / 8) + 0x104 + 0x40 * (g % 8)
def R.ENG_PCORR (g : Nat) : Nat := cleBase (g / 8) + 0x108 + 0x40 * (g % 8)
def R.ENG_SLEW (g : Nat) : Nat := cleBase (g / 8) + 0x10C + 0x40 * (g % 8)
def R.ENG_SPEED (g : Nat) : Nat := cleBase (g / 8) + 0x110 + 0x40 * (g % 8)
def R.ENG_DELIVER (g : Nat) : Nat := cleBase (g / 8) + 0x114 + 0x40 * (g % 8)
def R.ENG_FAULT_CFG (g : Nat) : Nat := cleBase (g / 8) + 0x118 + 0x40 * (g % 8)
def R.ENG_EMIT_FLOOR (g : Nat) : Nat := cleBase (g / 8) + 0x11C + 0x40 * (g % 8)
def R.ENG_OUT (g : Nat) : Nat := cleBase (g / 8) + 0x120 + 0x40 * (g % 8)
def R.ENG_Y (g : Nat) : Nat := cleBase (g / 8) + 0x124 + 0x40 * (g % 8)
def R.ENG_E (g : Nat) : Nat := cleBase (g / 8) + 0x128 + 0x40 * (g % 8)
def R.ENG_STATUS (g : Nat) : Nat := cleBase (g / 8) + 0x12C + 0x40 * (g % 8)
def R.ENG_FEAT (g : Nat) : Nat := cleBase (g / 8) + 0x130 + 0x40 * (g % 8)
def R.ENG_FEAT_TAG (g : Nat) : Nat := cleBase (g / 8) + 0x134 + 0x40 * (g % 8)
def R.ENG_DELIVERIES (g : Nat) : Nat := cleBase (g / 8) + 0x138 + 0x40 * (g % 8)
def R.ENG_INVALID (g : Nat) : Nat := cleBase (g / 8) + 0x13C + 0x40 * (g % 8)
def R.SRV_STATE (g : Nat) : Nat := cleBase (g / 8) + 0x400 + 0x40 * (g % 8)
def R.SRV_CUR_LIM (g : Nat) : Nat := cleBase (g / 8) + 0x404 + 0x40 * (g % 8)
def R.SRV_FERR (g : Nat) : Nat := cleBase (g / 8) + 0x408 + 0x40 * (g % 8)
def R.SRV_SETTLE (g : Nat) : Nat := cleBase (g / 8) + 0x40C + 0x40 * (g % 8)
def R.SRV_SAT_LIM (g : Nat) : Nat := cleBase (g / 8) + 0x410 + 0x40 * (g % 8)
def R.SRV_FOLLOW (g a : Nat) : Nat := cleBase (g / 8) + 0x414 + 0x40 * (g % 8) + 4 * a
def R.SRV_CURRENT (g a : Nat) : Nat := cleBase (g / 8) + 0x420 + 0x40 * (g % 8) + 4 * a
def R.SRV_FLAGS (g : Nat) : Nat := cleBase (g / 8) + 0x42C + 0x40 * (g % 8)
def R.SRV_PEAK_FOLLOW (g : Nat) : Nat := cleBase (g / 8) + 0x430 + 0x40 * (g % 8)
def R.SRV_MISSING (g : Nat) : Nat := cleBase (g / 8) + 0x434 + 0x40 * (g % 8)
def R.SRV_CLOSES (g : Nat) : Nat := cleBase (g / 8) + 0x438 + 0x40 * (g % 8)
def R.GTE_CFG : Nat := 0x30000
def R.GTE_STATUS : Nat := 0x30004
def R.GTE_FLAGS : Nat := 0x30008
def R.GTE_STORE_HIGH : Nat := 0x3000C
def R.GTE_TXN_SEL : Nat := 0x30010
def R.GTE_TXN_INFO : Nat := 0x30018
def R.GTE_TXN_TIME : Nat := 0x30020
def R.GTE_TXN_EXPIRE : Nat := 0x30028
def R.GTE_LAST_ABORT : Nat := 0x30030
def R.GTE_LAST_ABORT_TIME : Nat := 0x30038
def R.GTE_COMMITS : Nat := 0x30040
def R.GTE_ABORTS : Nat := 0x30044
def R.GTE_UNDOS : Nat := 0x30048
def R.GTE_UNDO_SKIPPED : Nat := 0x3004C
def R.GTE_APPLY_PEAK : Nat := 0x30050
def R.FBKP_CFG (p : Nat) : Nat := 0xE0100 + 0x80 * p
def R.FBKP_FILTER (p : Nat) : Nat := 0xE0104 + 0x80 * p
def R.FBKP_INDEX_CFG (p : Nat) : Nat := 0xE0108 + 0x80 * p
def R.FBKP_CPR (p : Nat) : Nat := 0xE010C + 0x80 * p
def R.FBKP_DRIFT_LIM (p : Nat) : Nat := 0xE0110 + 0x80 * p
def R.FBKP_SPEED_CFG (p : Nat) : Nat := 0xE0114 + 0x80 * p
def R.FBKP_STANDSTILL (p : Nat) : Nat := 0xE0118 + 0x80 * p
def R.FBKP_TOOTH_CFG (p : Nat) : Nat := 0xE011C + 0x80 * p
def R.FBKP_ABS_CFG (p : Nat) : Nat := 0xE0120 + 0x80 * p
def R.FBKP_ABS_TIMING (p : Nat) : Nat := 0xE0124 + 0x80 * p
def R.FBKP_JUMP_LIMIT (p : Nat) : Nat := 0xE0128 + 0x80 * p
def R.FBKP_COUNT_SET (p : Nat) : Nat := 0xE012C + 0x80 * p
def R.FBKP_CTRL (p : Nat) : Nat := 0xE0130 + 0x80 * p
def R.FBKP_STATUS (p : Nat) : Nat := 0xE0134 + 0x80 * p
def R.FBKP_FLAGS (p : Nat) : Nat := 0xE0138 + 0x80 * p
def R.FBKP_FAULT_INFO (p : Nat) : Nat := 0xE013C + 0x80 * p
def R.FBKP_POS (p : Nat) : Nat := 0xE0140 + 0x80 * p
def R.FBKP_SPEED (p : Nat) : Nat := 0xE0144 + 0x80 * p
def R.FBKP_SAMPLE_TIME (p : Nat) : Nat := 0xE0148 + 0x80 * p
def R.FBKP_INDEX_LATCH (p : Nat) : Nat := 0xE0150 + 0x80 * p
def R.FBKP_INDEX_DRIFT (p : Nat) : Nat := 0xE0154 + 0x80 * p
def R.FBKP_INDEX_TIME (p : Nat) : Nat := 0xE0158 + 0x80 * p
def R.FBKP_POS_IN_REV (p : Nat) : Nat := 0xE0160 + 0x80 * p
def R.FBKP_REF_PHASE (p : Nat) : Nat := 0xE0164 + 0x80 * p
def R.FBKP_EDGE_FAULTS (p : Nat) : Nat := 0xE0168 + 0x80 * p
def R.FBKP_FRAME_ERRORS (p : Nat) : Nat := 0xE016C + 0x80 * p
def R.FBKP_INDEX_COUNT (p : Nat) : Nat := 0xE0170 + 0x80 * p
def R.AXIS_CFG (a : Nat) : Nat := 0xD0100 + 0x80 * a
def R.AXIS_STEP_TIMING (a : Nat) : Nat := 0xD0104 + 0x80 * a
def R.AXIS_VMAX (a : Nat) : Nat := 0xD0108 + 0x80 * a
def R.AXIS_ACCEL (a : Nat) : Nat := 0xD010C + 0x80 * a
def R.AXIS_JERK (a : Nat) : Nat := 0xD0110 + 0x80 * a
def R.AXIS_STOP_ACCEL (a : Nat) : Nat := 0xD0114 + 0x80 * a
def R.AXIS_POS_MIN (a : Nat) : Nat := 0xD0118 + 0x80 * a
def R.AXIS_POS_MAX (a : Nat) : Nat := 0xD011C + 0x80 * a
def R.AXIS_CMD (a : Nat) : Nat := 0xD0120 + 0x80 * a
def R.AXIS_STATUS (a : Nat) : Nat := 0xD0124 + 0x80 * a
def R.AXIS_FLAGS (a : Nat) : Nat := 0xD0128 + 0x80 * a
def R.AXIS_POS (a : Nat) : Nat := 0xD012C + 0x80 * a
def R.AXIS_TARGET (a : Nat) : Nat := 0xD0130 + 0x80 * a
def R.AXIS_SPEED (a : Nat) : Nat := 0xD0134 + 0x80 * a
def R.AXIS_LOAD_RL (a : Nat) : Nat := 0xD0138 + 0x80 * a
def R.AXIS_LOAD_CFG (a : Nat) : Nat := 0xD013C + 0x80 * a
def R.AXIS_LOAD_LIM (a : Nat) : Nat := 0xD0140 + 0x80 * a
def R.AXIS_EST_MIN_SPEED (a : Nat) : Nat := 0xD0144 + 0x80 * a
def R.AXIS_LOAD_ANGLE (a : Nat) : Nat := 0xD0148 + 0x80 * a
def R.AXIS_EMF (a : Nat) : Nat := 0xD014C + 0x80 * a
def R.AXIS_DEV_RATIO (a : Nat) : Nat := 0xD0150 + 0x80 * a
def R.AXIS_DEV_LIM (a : Nat) : Nat := 0xD0154 + 0x80 * a
def R.AXIS_FAULT_INFO (a : Nat) : Nat := 0xD0158 + 0x80 * a
def R.AXIS_MOVES (a : Nat) : Nat := 0xD0160 + 0x80 * a
def R.AXIS_STALL_WARNS (a : Nat) : Nat := 0xD0168 + 0x80 * a
def R.IMG_STATUS : Nat := 0xC0000
def R.PORT_PHY_CFG (p : Nat) : Nat := 0xC0100 + 0x40 * p
def R.PORT_PHY_STATUS (p : Nat) : Nat := 0xC0104 + 0x40 * p
def R.PORT_CSI_ERR (p : Nat) : Nat := 0xC0108 + 0x40 * p
def R.PORT_CRC_ERR (p : Nat) : Nat := 0xC010C + 0x40 * p
def R.PORT_CCI_CFG (p : Nat) : Nat := 0xC0110 + 0x40 * p
def R.PORT_CCI_STATUS (p : Nat) : Nat := 0xC0114 + 0x40 * p
def R.PORT_FLAGS (p : Nat) : Nat := 0xC0118 + 0x40 * p
def R.PIPE_CFG (x : Nat) : Nat := 0xC0400 + 0x40 * x
def R.PIPE_STATUS (x : Nat) : Nat := 0xC0404 + 0x40 * x
def R.PIPE_PEAK (x : Nat) : Nat := 0xC0408 + 0x40 * x
def R.PIPE_DROPS (x : Nat) : Nat := 0xC040C + 0x40 * x
def R.PIPE_LOAD (x : Nat) : Nat := 0xC0410 + 0x40 * x
def R.PIPE_CTRL (x : Nat) : Nat := 0xC0414 + 0x40 * x
def R.SENS_CFG (n : Nat) : Nat := 0xC1000 + 0x80 * n
def R.SENS_SIZE (n : Nat) : Nat := 0xC1004 + 0x80 * n
def R.SENS_WINDOW (n : Nat) : Nat := 0xC1008 + 0x80 * n
def R.SENS_WINDOW_SIZE (n : Nat) : Nat := 0xC100C + 0x80 * n
def R.SENS_LEVEL (n : Nat) : Nat := 0xC1010 + 0x80 * n
def R.SENS_LUMA (n : Nat) : Nat := 0xC1014 + 0x80 * n
def R.SENS_LUMA_B (n : Nat) : Nat := 0xC1018 + 0x80 * n
def R.SENS_FEAT_CFG (n : Nat) : Nat := 0xC101C + 0x80 * n
def R.SENS_FEAT_THR (n : Nat) : Nat := 0xC1020 + 0x80 * n
def R.SENS_FEAT_WIN_POS (n : Nat) : Nat := 0xC1024 + 0x80 * n
def R.SENS_FEAT_WIN_SIZE (n : Nat) : Nat := 0xC1028 + 0x80 * n
def R.SENS_TIMING (n : Nat) : Nat := 0xC102C + 0x80 * n
def R.SENS_STATUS (n : Nat) : Nat := 0xC1030 + 0x80 * n
def R.SENS_FRAME_SEQ (n : Nat) : Nat := 0xC1034 + 0x80 * n
def R.SENS_GEN (n : Nat) : Nat := 0xC1038 + 0x80 * n
def R.SENS_FLAGS (n : Nat) : Nat := 0xC103C + 0x80 * n
def R.SENS_FS_TIME (n : Nat) : Nat := 0xC1040 + 0x80 * n
def R.SENS_FE_TIME (n : Nat) : Nat := 0xC1048 + 0x80 * n
def R.SENS_FRAMES (n : Nat) : Nat := 0xC1050 + 0x80 * n
def R.SENS_DROPS (n : Nat) : Nat := 0xC1058 + 0x80 * n
def R.SENS_DAMAGED_COUNT (n : Nat) : Nat := 0xC105C + 0x80 * n
def R.SENS_NO_BUFFER_COUNT (n : Nat) : Nat := 0xC1060 + 0x80 * n
def R.SENS_FEAT_LAST (n : Nat) : Nat := 0xC1064 + 0x80 * n
def R.CMP_CFG : Nat := 0xB0000
def R.CMP_STATUS : Nat := 0xB0004
def R.CMP_FLAGS : Nat := 0xB0008
def R.ENGINE_CTRL (e : Nat) : Nat := 0xB0100 + 0x40 * e
def R.ENGINE_LOAD (e : Nat) : Nat := 0xB0104 + 0x40 * e
def R.ENGINE_IN_BYTES (e : Nat) : Nat := 0xB0108 + 0x40 * e
def R.ENGINE_OUT_BYTES (e : Nat) : Nat := 0xB0110 + 0x40 * e
def R.ENGINE_JOBS (e : Nat) : Nat := 0xB0118 + 0x40 * e
def R.ENGINE_PARTIALS (e : Nat) : Nat := 0xB011C + 0x40 * e
def R.ENGINE_DATA_CHECKS (e : Nat) : Nat := 0xB0120 + 0x40 * e
def R.ENGINE_RAW_BLOCKS (e : Nat) : Nat := 0xB0124 + 0x40 * e
def R.ENGINE_CURRENT (e : Nat) : Nat := 0xB0128 + 0x40 * e
def R.LNK_CTRL (b : Nat) : Nat := lnkBase b + 0x0
def R.LNK_TRAIN_CTL (b : Nat) : Nat := lnkBase b + 0x4
def R.LNK_STATE (b : Nat) : Nat := lnkBase b + 0x8
def R.LNK_RX_STATUS (b : Nat) : Nat := lnkBase b + 0xC
def R.LNK_DELAY (b : Nat) : Nat := lnkBase b + 0x10
def R.LNK_SKEW (b : Nat) : Nat := lnkBase b + 0x14
def R.LNK_ERR_CFG (b : Nat) : Nat := lnkBase b + 0x18
def R.LNK_LANE_DLY (b : Nat) : Nat := lnkBase b + 0x1C
def R.LNK_CAPS (b : Nat) : Nat := lnkBase b + 0x20
def R.LNK_FLAGS (b : Nat) : Nat := lnkBase b + 0x24
def R.LNK_HEAD_ID (b : Nat) : Nat := lnkBase b + 0x28
def R.LNK_HEAD_ALARM (b : Nat) : Nat := lnkBase b + 0x30
def R.LNK_DFE (b i : Nat) : Nat := lnkBase b + 0x40 + 0x4 * i
def R.LNK_PRBS_CTL (b : Nat) : Nat := lnkBase b + 0x60
def R.LNK_PRBS_BITS (b : Nat) : Nat := lnkBase b + 0x68
def R.LNK_PRBS_ERRS (b : Nat) : Nat := lnkBase b + 0x70
def R.LNK_CRC_ERRORS (b : Nat) : Nat := lnkBase b + 0x74
def R.LNK_SYNC_ERRORS (b : Nat) : Nat := lnkBase b + 0x78
def R.LNK_RETRAINS (b : Nat) : Nat := lnkBase b + 0x7C
def R.LNK_ACTIVE_TIME (b : Nat) : Nat := lnkBase b + 0x80
def R.DMC_STATUS : Nat := 0xA0000
def R.DMC_GEOMETRY : Nat := 0xA0004
def R.DMC_CFG : Nat := 0xA0008
def R.DMC_CMD : Nat := 0xA000C
def R.DMC_CMD_STATUS : Nat := 0xA0010
def R.DMC_FLAGS : Nat := 0xA0014
def R.DMC_SCRUB : Nat := 0xA0018
def R.DMC_TSET (n w : Nat) : Nat := 0xA0020 + 0x20 * n + 0x4 * w
def R.DMC_ELOG_SEL : Nat := 0xA0060
def R.DMC_ELOG_HEAD : Nat := 0xA0064
def R.DMC_ELOG_ENTRY (w : Nat) : Nat := 0xA0070 + 0x4 * w
def R.DMC_SRAM_CORRECTED : Nat := 0xA00A0
def R.DMC_SRAM_UNCORR : Nat := 0xA00A4
def R.DMC_LP5_CORRECTED : Nat := 0xA00A8
def R.DMC_LP5_UNCORR : Nat := 0xA00AC
def R.DMC_RAW_WAITS : Nat := 0xA00B0
def R.DMC_SR_ENTRIES : Nat := 0xA00B4
def R.DMC_SR_TIME : Nat := 0xA00B8
def R.DMC_CH_TRAIN (c : Nat) : Nat := 0xA0100 + 0x40 * c
def R.DMC_CH_QUEUE (c : Nat) : Nat := 0xA0104 + 0x40 * c
def R.CPM_STATUS : Nat := 0x40000
def R.CPM_REF_CFG : Nat := 0x40004
def R.CPM_MON_CFG : Nat := 0x40008
def R.CPM_PLL_CFG : Nat := 0x4000C
def R.CPM_XO_COMP : Nat := 0x40010
def R.CPM_XO_COMP_T0 : Nat := 0x40014
def R.CPM_CMD : Nat := 0x40018
def R.CPM_FLAGS : Nat := 0x4001C
def R.CPM_LOST_INFO : Nat := 0x40020
def R.CPM_GATE_CFG : Nat := 0x40024
def R.CPM_GATED_UNITS : Nat := 0x40028
def R.CPM_GATED_STALLS : Nat := 0x40030
def R.CPM_GATE_DENIED_LAST : Nat := 0x40038
def R.CPM_GATE_DENIALS : Nat := 0x4003C
def R.CPM_SAFE_TIME : Nat := 0x40040
def R.CPM_PWR_STATUS : Nat := 0x40048
def R.THM_TEMP (i : Nat) : Nat := 0x50000 + 0x4 * i
def R.THM_CTL : Nat := 0x50020
def R.THM_STATUS : Nat := 0x50024
def R.THM_LIMITS_A : Nat := 0x50028
def R.THM_LIMITS_B : Nat := 0x5002C
def R.THM_RATE : Nat := 0x50030
def R.THM_THROTTLE_CFG : Nat := 0x50034
def R.THM_XCHECK : Nat := 0x50038
def R.THM_FLAGS : Nat := 0x5003C
def R.THM_CMD : Nat := 0x50040
def R.THM_PEAK : Nat := 0x50044
def R.THM_THROTTLE_TIME : Nat := 0x50048
def R.TMS_STATUS : Nat := 0x60000
def R.TMS_CFG : Nat := 0x60004
def R.TMS_SERVO : Nat := 0x60008
def R.TMS_SERVO_LIM : Nat := 0x6000C
def R.TMS_JUMP : Nat := 0x60010
def R.TMS_HOLD_CFG : Nat := 0x60014
def R.TMS_NOW : Nat := 0x60018
def R.TMS_OFFSET : Nat := 0x60020
def R.TMS_PENDING : Nat := 0x60028
def R.TMS_FREQ_ADJ : Nat := 0x60030
def R.TMS_MEAN_DELAY : Nat := 0x60034
def R.TMS_GM_ID : Nat := 0x60038
def R.TMS_SET_VALUE : Nat := 0x60040
def R.TMS_CMD : Nat := 0x60048
def R.TMS_CMD_STATUS : Nat := 0x6004C
def R.TMS_FLAGS : Nat := 0x60050
def R.TMS_OUT_CFG : Nat := 0x60054
def R.TPORT_CFG (p : Nat) : Nat := 0x60100 + 0x40 * p
def R.TPORT_STATUS (p : Nat) : Nat := 0x60104 + 0x40 * p
def R.TPORT_RX_LAT (p : Nat) : Nat := 0x60108 + 0x40 * p
def R.TPORT_TX_LAT (p : Nat) : Nat := 0x6010C + 0x40 * p
def R.TPORT_ASYM (p : Nat) : Nat := 0x60110 + 0x40 * p
def R.TPORT_DISCARDS (p : Nat) : Nat := 0x60114 + 0x40 * p
def R.TPORT_RX_STAMPS (p : Nat) : Nat := 0x60118 + 0x40 * p
def R.TPORT_TX_STAMPS (p : Nat) : Nat := 0x6011C + 0x40 * p
def R.YRD_LIMIT_PWR (g : Nat) : Nat := 0x20C00 + 0x10 * g
def R.YRD_LIMIT_SPEED (g : Nat) : Nat := 0x20C04 + 0x10 * g
def R.YRD_LIMIT_DMIN (g : Nat) : Nat := 0x20C08 + 0x10 * g
def R.TCK_STATUS : Nat := 0x110000
def R.TCK_CFG : Nat := 0x110004
def R.TCK_FLAGS : Nat := 0x110008
def R.TCK_BWT : Nat := 0x110010
def R.TCK_RT_SEL : Nat := 0x110018
def R.TCK_RT_BASE : Nat := 0x110020
def R.TCK_RT_LIMIT : Nat := 0x110024
def R.TCK_RT_ATTR : Nat := 0x110028
def R.TCK_KEY_STATUS : Nat := 0x110030
def R.TCK_WF_ADDR : Nat := 0x110038
def R.TCK_WF_INFO : Nat := 0x110040
def R.TCK_WF_TIME : Nat := 0x110048
def R.TCK_WF_COUNT : Nat := 0x110050
def R.TCK_AUTH_FAILS : Nat := 0x110054
def R.TCK_DEVICE_ID : Nat := 0x110060
def R.FAR_CFG : Nat := 0x100000
def R.FAR_STATUS : Nat := 0x100004
def R.FAR_FLAGS : Nat := 0x100008
def R.FAR_LIMITS : Nat := 0x10000C
def R.FAR_GATE_CFG : Nat := 0x100010
def R.FAR_GATE_SPREAD : Nat := 0x100014
def R.FAR_THR_CFG : Nat := 0x100018
def R.FAR_TEST_CFG : Nat := 0x10001C
def R.FAR_LAST_FAIL : Nat := 0x100020
def R.FAR_LAST_FAIL_TIME : Nat := 0x100028
def R.FAR_RUNS : Nat := 0x100030
def R.FAR_REJECTS : Nat := 0x100034
def R.FAR_STALL_GATE_TARGET (g : Nat) : Nat := 0x100100 + 0x20 * g
def R.FAR_STALL_GATE_MEAS (g : Nat) : Nat := 0x100104 + 0x20 * g
def R.FAR_STALL_PD_THR (g : Nat) : Nat := 0x100108 + 0x20 * g
def R.FAR_STALL_INFO (g : Nat) : Nat := 0x10010C + 0x20 * g
def R.FAR_STALL_LAST_T (g : Nat) : Nat := 0x100110 + 0x20 * g
def R.FAR_STALL_SPREAD (g : Nat) : Nat := 0x100114 + 0x20 * g
def R.FAR_BAY_INFO (b : Nat) : Nat := 0x100800 + 0x10 * b
def R.FAR_BAY_LAST_T (b : Nat) : Nat := 0x100804 + 0x10 * b
def R.FAR_BAY_TEST_ERRS (b : Nat) : Nat := 0x100808 + 0x10 * b
def R.LMP_CFG : Nat := 0xF0000
def R.LMP_STATUS : Nat := 0xF0004
def R.LMP_FLAGS : Nat := 0xF0008
def R.LMP_CMD : Nat := 0xF000C
def R.LMP_MATRIX_CFG : Nat := 0xF0010
def R.LMP_DETECT : Nat := 0xF0014
def R.LMP_FADE : Nat := 0xF0018
def R.LMP_BEACON_BIND : Nat := 0xF001C
def R.LMP_GROUP_STATUS : Nat := 0xF0020
def R.LMP_LAMP_FAULT (w : Nat) : Nat := 0xF0030 + 0x4 * w
def R.LMP_LAST_FAULT : Nat := 0xF0044
def R.LMP_LAST_FAULT_TIME : Nat := 0xF0048
def R.LMP_PAT_CTRL (k : Nat) : Nat := 0xF0100 + 0x10 * k
def R.LMP_PAT_LEVELS (k : Nat) : Nat := 0xF0104 + 0x10 * k
def R.LMP_PAT_CHASE (k : Nat) : Nat := 0xF0108 + 0x10 * k
def R.LMP_SINK_CUR (i : Nat) : Nat := 0xF0300 + 0x4 * i
def R.LMP_LAMP (i : Nat) : Nat := 0xF0400 + 0x4 * i
def R.EVC_STATUS : Nat := 0x70000
def R.EVC_PEND (w : Nat) : Nat := 0x70010 + 0x4 * w
def R.EVC_VEC (v : Nat) : Nat := 0x70100 + 0x4 * v
def R.EVC_SRC (n : Nat) : Nat := 0x71000 + 0x4 * n
def R.EVC_INFO (n : Nat) : Nat := 0x72000 + 0x4 * n
def R.EVC_STAMP (n : Nat) : Nat := 0x74000 + 0x8 * n
def R.DGN_CFG : Nat := 0x80000
def R.DGN_STATUS : Nat := 0x80004
def R.DGN_FLAGS : Nat := 0x80008
def R.DGN_CMD : Nat := 0x8000C
def R.DGN_SNAP_TIME : Nat := 0x80010
def R.DGN_SNAP_LEN : Nat := 0x80018
def R.DGN_MISSED : Nat := 0x8001C
def R.DGN_OP_SECONDS : Nat := 0x80020
def R.DGN_POWER_CYCLES : Nat := 0x80024
def R.DGN_LAST_SAVE : Nat := 0x80028
def R.DGN_TRACE_CFG (c : Nat) : Nat := 0x80100 + 0x10 * c
def R.DGN_TRACE_DROPS (c : Nat) : Nat := 0x80104 + 0x10 * c
def R.DGN_TRACE_FILL (c : Nat) : Nat := 0x80108 + 0x10 * c
def R.ERW_STATUS : Nat := 0x90000
def R.ERW_CURSOR : Nat := 0x90004
def R.ERW_HEAD : Nat := 0x90008
def R.ERW_TAIL : Nat := 0x9000C
def R.ERW_CFG : Nat := 0x90010
def R.ERW_OVERWRITTEN : Nat := 0x90014
def R.ERW_RECORD (w : Nat) : Nat := 0x90040 + 0x4 * w
def R.BOOT_STATUS : Nat := 0x120000
def R.BOOT_FLAGS : Nat := 0x120004
def R.BOOT_TRIAL_CFG : Nat := 0x120008
def R.BOOT_IMG_SEL : Nat := 0x12000C
def R.BOOT_IMG_INFO : Nat := 0x120010
def R.BOOT_SETTINGS : Nat := 0x120018
def R.BOOT_RCV_ADDR : Nat := 0x120020
def R.BOOT_RCV_LEN : Nat := 0x120028
def R.BOOT_RCV_CMD : Nat := 0x12002C
def R.BOOT_RCV_STATUS : Nat := 0x120030
def R.GLB_ID : Nat := 0x0
def R.FBK_STATUS : Nat := 0xE0000
def R.AXS_STATUS : Nat := 0xD0000
def R.AXS_CMD : Nat := 0xD0004
def R.HIF_MSIX_ADDR (v : Nat) : Nat := 0x18000 + 0x10 * v
def R.HIF_MSIX_DATA (v : Nat) : Nat := 0x18008 + 0x10 * v
def R.HIF_MSIX_CTRL (v : Nat) : Nat := 0x1800C + 0x10 * v
def R.HIF_MSIX_PBA : Nat := 0x19000

def F.YRD_CTRL_STABLE_EN : Fld := ⟨R.YRD_CTRL, 0, 6⟩
def F.YRD_MV_PERIOD_SEL : Fld := ⟨R.YRD_MV_PERIOD, 0, 2⟩
def F.YRD_CFG_STATUS_MAP_REFUSED : Fld := ⟨R.YRD_CFG_STATUS, 0, 1⟩
def F.YRD_CFG_STATUS_PERIOD_REFUSED : Fld := ⟨R.YRD_CFG_STATUS, 1, 1⟩
def F.YRD_CFG_STATUS_ENABLE_REFUSED : Fld := ⟨R.YRD_CFG_STATUS, 2, 1⟩
def F.YRD_CFG_STATUS_LAST_TARGET : Fld := ⟨R.YRD_CFG_STATUS, 8, 4⟩
def F.YRD_LAYER_STATUS_LAYER : Fld := ⟨R.YRD_LAYER_STATUS, 0, 24⟩
def F.YRD_LAYER_STATUS_WAITING : Fld := ⟨R.YRD_LAYER_STATUS, 24, 6⟩
def F.YRD_LAYER_STATUS_BARRIER : Fld := ⟨R.YRD_LAYER_STATUS, 31, 1⟩
def F.YRD_BAY_MAP_SLOT3_V (b : Nat) : Fld := ⟨R.YRD_BAY_MAP b, 31, 1⟩
def F.YRD_BAY_MAP_SLOT3_STALL (b : Nat) : Fld := ⟨R.YRD_BAY_MAP b, 24, 6⟩
def F.YRD_BAY_MAP_SLOT2_V (b : Nat) : Fld := ⟨R.YRD_BAY_MAP b, 23, 1⟩
def F.YRD_BAY_MAP_SLOT2_STALL (b : Nat) : Fld := ⟨R.YRD_BAY_MAP b, 16, 6⟩
def F.YRD_BAY_MAP_SLOT1_V (b : Nat) : Fld := ⟨R.YRD_BAY_MAP b, 15, 1⟩
def F.YRD_BAY_MAP_SLOT1_STALL (b : Nat) : Fld := ⟨R.YRD_BAY_MAP b, 8, 6⟩
def F.YRD_BAY_MAP_SLOT0_V (b : Nat) : Fld := ⟨R.YRD_BAY_MAP b, 7, 1⟩
def F.YRD_BAY_MAP_SLOT0_STALL (b : Nat) : Fld := ⟨R.YRD_BAY_MAP b, 0, 6⟩
def F.HIF_STATUS_LINK_SPEED : Fld := ⟨R.HIF_STATUS, 0, 3⟩
def F.HIF_STATUS_LINK_WIDTH : Fld := ⟨R.HIF_STATUS, 4, 3⟩
def F.HIF_STATUS_LINK_UP : Fld := ⟨R.HIF_STATUS, 8, 1⟩
def F.HIF_STATUS_READY : Fld := ⟨R.HIF_STATUS, 9, 1⟩
def F.HIF_STATUS_IN_L1 : Fld := ⟨R.HIF_STATUS, 10, 1⟩
def F.HIF_VERSION_OFFER_OFFER : Fld := ⟨R.HIF_VERSION_OFFER, 0, 4⟩
def F.HIF_VERSION_AGREED_AGREED : Fld := ⟨R.HIF_VERSION_AGREED, 0, 4⟩
def F.HIF_VERSION_AGREED_MIN : Fld := ⟨R.HIF_VERSION_AGREED, 8, 4⟩
def F.HIF_VERSION_AGREED_MAX : Fld := ⟨R.HIF_VERSION_AGREED, 12, 4⟩
def F.HIF_CTX_CMD_CTX : Fld := ⟨R.HIF_CTX_CMD, 0, 8⟩
def F.HIF_CTX_CMD_CMD : Fld := ⟨R.HIF_CTX_CMD, 8, 3⟩
def F.HIF_CTX_CMD_STATUS_CTX : Fld := ⟨R.HIF_CTX_CMD_STATUS, 0, 8⟩
def F.HIF_CTX_CMD_STATUS_CMD : Fld := ⟨R.HIF_CTX_CMD_STATUS, 8, 3⟩
def F.HIF_CTX_CMD_STATUS_RESULT : Fld := ⟨R.HIF_CTX_CMD_STATUS, 12, 4⟩
def F.HIF_CTX_CMD_STATUS_BUSY : Fld := ⟨R.HIF_CTX_CMD_STATUS, 16, 1⟩
def F.HIF_ACCESS_ERR_OFFSET : Fld := ⟨R.HIF_ACCESS_ERR, 0, 24⟩
def F.HIF_ACCESS_ERR_KIND : Fld := ⟨R.HIF_ACCESS_ERR, 24, 4⟩
def F.HIF_ACCESS_ERR_WINDOW : Fld := ⟨R.HIF_ACCESS_ERR, 28, 1⟩
def F.HIF_ERR_STATUS_ACCESS_ERROR : Fld := ⟨R.HIF_ERR_STATUS, 0, 1⟩
def F.HIF_ERR_STATUS_DOORBELL_REJECT : Fld := ⟨R.HIF_ERR_STATUS, 1, 1⟩
def F.HIF_ERR_STATUS_DMA_ERROR : Fld := ⟨R.HIF_ERR_STATUS, 2, 1⟩
def F.HIF_ERR_STATUS_VERSION_REFUSED : Fld := ⟨R.HIF_ERR_STATUS, 3, 1⟩
def F.HIF_ERR_STATUS_FLR_SEEN : Fld := ⟨R.HIF_ERR_STATUS, 4, 1⟩
def F.HIF_ERR_STATUS_MBOX_OVERRUN : Fld := ⟨R.HIF_ERR_STATUS, 5, 1⟩
def F.HIF_INFLIGHT_UNRETIRED : Fld := ⟨R.HIF_INFLIGHT, 0, 14⟩
def F.HIF_INFLIGHT_TAGS : Fld := ⟨R.HIF_INFLIGHT, 16, 9⟩
def F.HIF_DMA_ERR_INFO_CTX : Fld := ⟨R.HIF_DMA_ERR_INFO, 0, 8⟩
def F.HIF_DMA_ERR_INFO_KIND : Fld := ⟨R.HIF_DMA_ERR_INFO, 8, 4⟩
def F.HIF_DMA_ERR_INFO_FETCH : Fld := ⟨R.HIF_DMA_ERR_INFO, 12, 1⟩
def F.HIF_MBOX_CTRL_POST : Fld := ⟨R.HIF_MBOX_CTRL, 0, 1⟩
def F.HIF_MBOX_STATUS_BUSY : Fld := ⟨R.HIF_MBOX_STATUS, 0, 1⟩
def F.HIF_MBOX_STATUS_DONE : Fld := ⟨R.HIF_MBOX_STATUS, 1, 1⟩
def F.HIF_MBOX_STATUS_OVERRUN : Fld := ⟨R.HIF_MBOX_STATUS, 2, 1⟩
def F.HIF_MBOX_STATUS_TOKEN : Fld := ⟨R.HIF_MBOX_STATUS, 16, 16⟩
def F.HIF_CTX_CFG_TYPE (c : Nat) : Fld := ⟨R.HIF_CTX_CFG c, 0, 4⟩
def F.HIF_CTX_CFG_BIND (c : Nat) : Fld := ⟨R.HIF_CTX_CFG c, 4, 8⟩
def F.HIF_CTX_CFG_SIZE_LOG2 (c : Nat) : Fld := ⟨R.HIF_CTX_CFG c, 12, 4⟩
def F.HIF_CTX_CFG_VECTOR (c : Nat) : Fld := ⟨R.HIF_CTX_CFG c, 16, 6⟩
def F.HIF_CTX_STATUS_STATE (c : Nat) : Fld := ⟨R.HIF_CTX_STATUS c, 0, 2⟩
def F.HIF_CTX_STATUS_STOP_CAUSE (c : Nat) : Fld := ⟨R.HIF_CTX_STATUS c, 4, 4⟩
def F.HIF_CTX_STATUS_FETCHED (c : Nat) : Fld := ⟨R.HIF_CTX_STATUS c, 8, 7⟩
def F.HIF_CTX_STATUS_BP_CTX_AHEAD (c : Nat) : Fld := ⟨R.HIF_CTX_STATUS c, 16, 1⟩
def F.HIF_CTX_STATUS_BP_DEVICE (c : Nat) : Fld := ⟨R.HIF_CTX_STATUS c, 17, 1⟩
def F.HIF_CTX_STATUS_BP_TAGS (c : Nat) : Fld := ⟨R.HIF_CTX_STATUS c, 18, 1⟩
def F.HIF_CTX_STATUS_BP_TARGET (c : Nat) : Fld := ⟨R.HIF_CTX_STATUS c, 19, 1⟩
def F.HIF_CTX_STATUS_BP_CQ_FULL (c : Nat) : Fld := ⟨R.HIF_CTX_STATUS c, 20, 1⟩
def F.HIF_CTX_SQ_HEAD_IDX (c : Nat) : Fld := ⟨R.HIF_CTX_SQ_HEAD c, 0, 12⟩
def F.HIF_CTX_SQ_TAIL_IDX (c : Nat) : Fld := ⟨R.HIF_CTX_SQ_TAIL c, 0, 12⟩
def F.HIF_CTX_CQ_TAIL_IDX (c : Nat) : Fld := ⟨R.HIF_CTX_CQ_TAIL c, 0, 12⟩
def F.HIF_CTX_CQ_HEAD_IDX (c : Nat) : Fld := ⟨R.HIF_CTX_CQ_HEAD c, 0, 12⟩
def F.HIF_CTX_IRQ_COUNT (c : Nat) : Fld := ⟨R.HIF_CTX_IRQ c, 0, 8⟩
def F.HIF_CTX_IRQ_TIME (c : Nat) : Fld := ⟨R.HIF_CTX_IRQ c, 8, 10⟩
def F.STALL_CTRL_EN (g : Nat) : Fld := ⟨R.STALL_CTRL g, 0, 1⟩
def F.STALL_CTRL_ISLAND_LATE_HOLD (g : Nat) : Fld := ⟨R.STALL_CTRL g, 1, 1⟩
def F.STALL_CTRL_STROKE_TIMEOUT_FAULT (g : Nat) : Fld := ⟨R.STALL_CTRL g, 2, 1⟩
def F.STALL_CMD_CMD (g : Nat) : Fld := ⟨R.STALL_CMD g, 0, 2⟩
def F.STALL_STATE_STATE (g : Nat) : Fld := ⟨R.STALL_STATE g, 0, 4⟩
def F.STALL_STATE_RETURN_STATE (g : Nat) : Fld := ⟨R.STALL_STATE g, 4, 4⟩
def F.STALL_STATE_HOLD_CAUSE (g : Nat) : Fld := ⟨R.STALL_STATE g, 8, 8⟩
def F.STALL_STATE_FAULT_CAUSE (g : Nat) : Fld := ⟨R.STALL_STATE g, 16, 8⟩
def F.STALL_STATE_HOLD_PENDING (g : Nat) : Fld := ⟨R.STALL_STATE g, 24, 1⟩
def F.STALL_STATE_ABORTING (g : Nat) : Fld := ⟨R.STALL_STATE g, 25, 1⟩
def F.STALL_STATE_EN_WAIT (g : Nat) : Fld := ⟨R.STALL_STATE g, 26, 1⟩
def F.STALL_STATE_IN_STROKE (g : Nat) : Fld := ⟨R.STALL_STATE g, 27, 1⟩
def F.STALL_STATE_IN_ISLAND (g : Nat) : Fld := ⟨R.STALL_STATE g, 28, 1⟩
def F.STALL_STATE_HB_LOST (g : Nat) : Fld := ⟨R.STALL_STATE g, 29, 1⟩
def F.STALL_FLAGS_LIMIT_CLAMPED (g : Nat) : Fld := ⟨R.STALL_FLAGS g, 0, 1⟩
def F.STALL_FLAGS_ISLAND_LATE (g : Nat) : Fld := ⟨R.STALL_FLAGS g, 1, 1⟩
def F.STALL_FLAGS_STROKE_LATE (g : Nat) : Fld := ⟨R.STALL_FLAGS g, 2, 1⟩
def F.STALL_FLAGS_REGION_REFUSED (g : Nat) : Fld := ⟨R.STALL_FLAGS g, 3, 1⟩
def F.STALL_FLAGS_CMD_REFUSED (g : Nat) : Fld := ⟨R.STALL_FLAGS g, 4, 1⟩
def F.STALL_PROG_REGION_BASE (g : Nat) : Fld := ⟨R.STALL_PROG_REGION g, 0, 32⟩
def F.STALL_PROG_REGION_SIZE (g : Nat) : Fld := ⟨R.STALL_PROG_REGION g + 4, 0, 32⟩
def F.STALL_PROG_ERR_CODE (g : Nat) : Fld := ⟨R.STALL_PROG_ERR g, 0, 8⟩
def F.STALL_PROG_ERR_OPCODE (g : Nat) : Fld := ⟨R.STALL_PROG_ERR g, 8, 8⟩
def F.STALL_STROKE_TIMEOUT_FACTOR (g : Nat) : Fld := ⟨R.STALL_STROKE_TIMEOUT g, 0, 8⟩
def F.STALL_STROKE_TIMEOUT_MARGIN (g : Nat) : Fld := ⟨R.STALL_STROKE_TIMEOUT g, 8, 16⟩
def F.STALL_SYNC_BARRIER_ID (g : Nat) : Fld := ⟨R.STALL_SYNC g, 0, 8⟩
def F.STALL_SYNC_MS (g : Nat) : Fld := ⟨R.STALL_SYNC g, 8, 24⟩
def F.YRD_HEARTBEAT_PERIOD : Fld := ⟨R.YRD_HEARTBEAT, 0, 8⟩
def F.YRD_HEARTBEAT_STATUS_LOST : Fld := ⟨R.YRD_HEARTBEAT_STATUS, 0, 1⟩
def F.YRD_HEARTBEAT_STATUS_EXPIRED : Fld := ⟨R.YRD_HEARTBEAT_STATUS, 1, 1⟩
def F.YRD_HEARTBEAT_STATUS_REFUSED : Fld := ⟨R.YRD_HEARTBEAT_STATUS, 2, 1⟩
def F.YRD_HEARTBEAT_STATUS_REMAIN_MS : Fld := ⟨R.YRD_HEARTBEAT_STATUS, 8, 24⟩
def F.YRD_LAYER_DEADLINE_LIMIT : Fld := ⟨R.YRD_LAYER_DEADLINE, 0, 24⟩
def F.YRD_LAYER_DEADLINE_STATUS_RUNNING : Fld := ⟨R.YRD_LAYER_DEADLINE_STATUS, 0, 1⟩
def F.YRD_LAYER_DEADLINE_STATUS_LATE : Fld := ⟨R.YRD_LAYER_DEADLINE_STATUS, 1, 1⟩
def F.YRD_LAYER_DEADLINE_STATUS_ELAPSED_MS : Fld := ⟨R.YRD_LAYER_DEADLINE_STATUS, 8, 24⟩
def F.YRD_HOLD_ALL_HOLD : Fld := ⟨R.YRD_HOLD_ALL, 0, 1⟩
def F.YRD_HOLD_ALL_RESUME : Fld := ⟨R.YRD_HOLD_ALL, 1, 1⟩
def F.STALL_TRJ_CTRL_POWER_TRACK (g : Nat) : Fld := ⟨R.STALL_TRJ_CTRL g, 0, 1⟩
def F.STALL_TRJ_CTRL_TWO_PLANE (g : Nat) : Fld := ⟨R.STALL_TRJ_CTRL g, 1, 1⟩
def F.STALL_TRJ_RUNAHEAD_HORIZON (g : Nat) : Fld := ⟨R.STALL_TRJ_RUNAHEAD g, 0, 11⟩
def F.STALL_TRJ_RUNAHEAD_DEPTH (g : Nat) : Fld := ⟨R.STALL_TRJ_RUNAHEAD g, 16, 13⟩
def F.STALL_TRJ_LEAD_STROKE_LEAD (g : Nat) : Fld := ⟨R.STALL_TRJ_LEAD g, 0, 13⟩
def F.STALL_TRJ_LAG_LAG (g : Nat) : Fld := ⟨R.STALL_TRJ_LAG g, 0, 24⟩
def F.STALL_CORNER_DEV (g : Nat) : Fld := ⟨R.STALL_CORNER g, 0, 16⟩
def F.STALL_F_LIMIT_F_VMAX (g : Nat) : Fld := ⟨R.STALL_F_LIMIT g, 0, 16⟩
def F.STALL_F_LIMIT_F_ACCEL (g : Nat) : Fld := ⟨R.STALL_F_LIMIT g, 16, 16⟩
def F.STALL_GRID_SEL_PLANE0_SLOT (g : Nat) : Fld := ⟨R.STALL_GRID_SEL g, 0, 4⟩
def F.STALL_GRID_SEL_PLANE1_SLOT (g : Nat) : Fld := ⟨R.STALL_GRID_SEL g, 8, 4⟩
def F.STALL_FOCUS_PLANES_PLANE0_F (g : Nat) : Fld := ⟨R.STALL_FOCUS_PLANES g, 0, 16⟩
def F.STALL_FOCUS_PLANES_PLANE1_F (g : Nat) : Fld := ⟨R.STALL_FOCUS_PLANES g, 16, 16⟩
def F.STALL_TRJ_STATUS_GRID_STATE (g : Nat) : Fld := ⟨R.STALL_TRJ_STATUS g, 0, 2⟩
def F.STALL_TRJ_STATUS_LEAD_WAIT (g : Nat) : Fld := ⟨R.STALL_TRJ_STATUS g, 2, 1⟩
def F.STALL_TRJ_STATUS_STOPPING (g : Nat) : Fld := ⟨R.STALL_TRJ_STATUS g, 3, 1⟩
def F.STALL_TRJ_STATUS_COMMITTED (g : Nat) : Fld := ⟨R.STALL_TRJ_STATUS g, 4, 11⟩
def F.STALL_TRJ_STATUS_SPECULATIVE (g : Nat) : Fld := ⟨R.STALL_TRJ_STATUS g, 15, 13⟩
def F.STALL_TRJ_FAULT_DETAIL (g : Nat) : Fld := ⟨R.STALL_TRJ_FAULT g, 0, 8⟩
def F.STALL_TRJ_FLAGS_CFG_REFUSED (g : Nat) : Fld := ⟨R.STALL_TRJ_FLAGS g, 0, 1⟩
def F.STALL_TRJ_FLAGS_CODE_SATURATED (g : Nat) : Fld := ⟨R.STALL_TRJ_FLAGS g, 1, 1⟩
def F.STALL_TRJ_FLAGS_FIELD_CLAMPED (g : Nat) : Fld := ⟨R.STALL_TRJ_FLAGS g, 2, 1⟩
def F.STALL_TRJ_FLAGS_EDGE_CLAMPED (g : Nat) : Fld := ⟨R.STALL_TRJ_FLAGS g, 3, 1⟩
def F.STALL_TRJ_FLAGS_EDGE_SPACED (g : Nat) : Fld := ⟨R.STALL_TRJ_FLAGS g, 4, 1⟩
def F.STALL_TRJ_FLAGS_EDGE_EMPTY (g : Nat) : Fld := ⟨R.STALL_TRJ_FLAGS g, 5, 1⟩
def F.STALL_TRJ_SQUASH_LAST_CAUSE (g : Nat) : Fld := ⟨R.STALL_TRJ_SQUASH_LAST g, 0, 6⟩
def F.STALL_TRJ_SQUASH_LAST_DISCARDED (g : Nat) : Fld := ⟨R.STALL_TRJ_SQUASH_LAST g, 16, 12⟩
def F.STALL_TRJ_FACTORS_K_SPEED (g : Nat) : Fld := ⟨R.STALL_TRJ_FACTORS g, 0, 16⟩
def F.STALL_TRJ_FACTORS_K_THROTTLE (g : Nat) : Fld := ⟨R.STALL_TRJ_FACTORS g, 16, 16⟩
def F.STB_TRJ_ENGINE_CAPACITY (s : Nat) : Fld := ⟨R.STB_TRJ_ENGINE s, 0, 8⟩
def F.STB_TRJ_ENGINE_LAST_USED (s : Nat) : Fld := ⟨R.STB_TRJ_ENGINE s, 8, 8⟩
def F.STB_GRID_WIN_SEL_TARGET (s : Nat) : Fld := ⟨R.STB_GRID_WIN_SEL s, 0, 5⟩
def F.STB_GRID_WIN_STATUS_REFUSED (s : Nat) : Fld := ⟨R.STB_GRID_WIN_STATUS s, 0, 1⟩
def F.STB_GRID_WIN_STATUS_LOCKED (s : Nat) : Fld := ⟨R.STB_GRID_WIN_STATUS s, 16, 16⟩
def F.STALL_GATE_CFG_POL (g : Nat) : Fld := ⟨R.STALL_GATE_CFG g, 0, 1⟩
def F.STALL_GATE_CFG_DRIVE (g : Nat) : Fld := ⟨R.STALL_GATE_CFG g, 1, 1⟩
def F.STALL_GATE_TRIM_TRIM (g : Nat) : Fld := ⟨R.STALL_GATE_TRIM g, 0, 12⟩
def F.STALL_GATE_TRIM_IN_USE (g : Nat) : Fld := ⟨R.STALL_GATE_TRIM g, 16, 12⟩
def F.STALL_PWR_CODE_OFFSET (g : Nat) : Fld := ⟨R.STALL_PWR_CODE g, 0, 16⟩
def F.STALL_PWR_CODE_IDLE_CODE (g : Nat) : Fld := ⟨R.STALL_PWR_CODE g, 16, 16⟩
def F.STALL_PWR_ADVANCE_ADVANCE (g : Nat) : Fld := ⟨R.STALL_PWR_ADVANCE g, 0, 4⟩
def F.STALL_OUT_STATUS_GATE (g : Nat) : Fld := ⟨R.STALL_OUT_STATUS g, 0, 1⟩
def F.STALL_OUT_STATUS_INHIBITED (g : Nat) : Fld := ⟨R.STALL_OUT_STATUS g, 1, 1⟩
def F.STALL_OUT_STATUS_PIN (g : Nat) : Fld := ⟨R.STALL_OUT_STATUS g, 2, 1⟩
def F.STALL_OUT_STATUS_CMP_ARMED (g : Nat) : Fld := ⟨R.STALL_OUT_STATUS g, 3, 1⟩
def F.STALL_OUT_STATUS_CMP_ACTIVE (g : Nat) : Fld := ⟨R.STALL_OUT_STATUS g, 4, 1⟩
def F.STALL_OUT_STATUS_LAST_CODE (g : Nat) : Fld := ⟨R.STALL_OUT_STATUS g, 16, 16⟩
def F.STALL_OUT_FLAGS_PWR_CLAMPED (g : Nat) : Fld := ⟨R.STALL_OUT_FLAGS g, 0, 1⟩
def F.STALL_OUT_FLAGS_CMP_SKIPPED (g : Nat) : Fld := ⟨R.STALL_OUT_FLAGS g, 1, 1⟩
def F.STALL_OUT_FLAGS_CMP_UNFIRED (g : Nat) : Fld := ⟨R.STALL_OUT_FLAGS g, 2, 1⟩
def F.STALL_OUT_FLAGS_CMP_MERGED (g : Nat) : Fld := ⟨R.STALL_OUT_FLAGS g, 3, 1⟩
def F.STALL_OUT_FLAGS_CMP_DROPPED (g : Nat) : Fld := ⟨R.STALL_OUT_FLAGS g, 4, 1⟩
def F.STALL_OUT_FLAGS_CFG_REFUSED (g : Nat) : Fld := ⟨R.STALL_OUT_FLAGS g, 5, 1⟩
def F.STALL_OUT_FLAGS_READBACK_MISMATCH (g : Nat) : Fld := ⟨R.STALL_OUT_FLAGS g, 6, 1⟩
def F.STALL_OUT_FAULT_DETAIL (g : Nat) : Fld := ⟨R.STALL_OUT_FAULT g, 0, 8⟩
def F.STALL_CMP_LAST_A_FIRED (g : Nat) : Fld := ⟨R.STALL_CMP_LAST_A g, 0, 16⟩
def F.STALL_CMP_LAST_A_MERGED (g : Nat) : Fld := ⟨R.STALL_CMP_LAST_A g, 16, 16⟩
def F.STALL_CMP_LAST_B_SKIPPED (g : Nat) : Fld := ⟨R.STALL_CMP_LAST_B g, 0, 11⟩
def F.STALL_CMP_LAST_B_UNFIRED (g : Nat) : Fld := ⟨R.STALL_CMP_LAST_B g, 11, 11⟩
def F.STALL_CMP_LAST_B_DROPPED (g : Nat) : Fld := ⟨R.STALL_CMP_LAST_B g, 22, 10⟩
def F.YRD_LSAFE_STATUS_IN_A : Fld := ⟨R.YRD_LSAFE_STATUS, 0, 1⟩
def F.YRD_LSAFE_STATUS_IN_B : Fld := ⟨R.YRD_LSAFE_STATUS, 1, 1⟩
def F.YRD_LSAFE_STATUS_INHIBIT : Fld := ⟨R.YRD_LSAFE_STATUS, 2, 1⟩
def F.YRD_LSAFE_STATUS_OK : Fld := ⟨R.YRD_LSAFE_STATUS, 3, 1⟩
def F.YRD_LSAFE_STATUS_SOURCES : Fld := ⟨R.YRD_LSAFE_STATUS, 8, 9⟩
def F.YRD_LSAFE_STATUS_RELEASE_WAIT : Fld := ⟨R.YRD_LSAFE_STATUS, 17, 1⟩
def F.YRD_LSAFE_FLAGS_ASSERTED : Fld := ⟨R.YRD_LSAFE_FLAGS, 0, 1⟩
def F.YRD_LSAFE_FLAGS_DISCREPANCY_SEEN : Fld := ⟨R.YRD_LSAFE_FLAGS, 1, 1⟩
def F.YRD_LSAFE_FLAGS_CLEAR_IGNORED : Fld := ⟨R.YRD_LSAFE_FLAGS, 2, 1⟩
def F.YRD_LSAFE_CLEAR_DISCREPANCY : Fld := ⟨R.YRD_LSAFE_CLEAR, 0, 1⟩
def F.YRD_LSAFE_CLEAR_READBACK : Fld := ⟨R.YRD_LSAFE_CLEAR, 1, 1⟩
def F.YRD_LSAFE_SW_INHIBIT : Fld := ⟨R.YRD_LSAFE_SW, 0, 1⟩
def F.YRD_LSAFE_SEC_INHIBIT : Fld := ⟨R.YRD_LSAFE_SEC, 0, 1⟩
def F.YRD_MSH_CTRL_EN : Fld := ⟨R.YRD_MSH_CTRL, 0, 1⟩
def F.YRD_MSH_CTRL_GUARD : Fld := ⟨R.YRD_MSH_CTRL, 4, 2⟩
def F.YRD_MSH_PLUME_LENGTH : Fld := ⟨R.YRD_MSH_PLUME, 0, 16⟩
def F.YRD_MSH_PLUME_WIDTH : Fld := ⟨R.YRD_MSH_PLUME, 16, 16⟩
def F.YRD_MSH_FLOW_C : Fld := ⟨R.YRD_MSH_FLOW, 0, 16⟩
def F.YRD_MSH_FLOW_S : Fld := ⟨R.YRD_MSH_FLOW, 16, 16⟩
def F.YRD_MSH_DEFER_STEP : Fld := ⟨R.YRD_MSH_DEFER, 0, 12⟩
def F.YRD_MSH_DEFER_ELDEST_AFTER : Fld := ⟨R.YRD_MSH_DEFER, 16, 8⟩
def F.YRD_MSH_SEAM_CFG_AUTO_DEFERS : Fld := ⟨R.YRD_MSH_SEAM_CFG, 0, 8⟩
def F.YRD_MSH_SEAM_CFG_RESCUE : Fld := ⟨R.YRD_MSH_SEAM_CFG, 8, 1⟩
def F.YRD_MSH_STATUS_ELDEST_NOW : Fld := ⟨R.YRD_MSH_STATUS, 0, 6⟩
def F.YRD_MSH_STATUS_SEAMS_OPEN : Fld := ⟨R.YRD_MSH_STATUS, 8, 8⟩
def F.YRD_MSH_FLAGS_CFG_REFUSED : Fld := ⟨R.YRD_MSH_FLAGS, 0, 1⟩
def F.YRD_MSH_FLAGS_LATE_CONFLICT : Fld := ⟨R.YRD_MSH_FLAGS, 1, 1⟩
def F.YRD_MSH_FLAGS_SEAM_ORPHANED : Fld := ⟨R.YRD_MSH_FLAGS, 2, 1⟩
def F.YRD_MSH_FLAGS_SEAM_MISMATCH : Fld := ⟨R.YRD_MSH_FLAGS, 3, 1⟩
def F.YRD_MSH_FLAGS_MOVE_REFUSED : Fld := ⟨R.YRD_MSH_FLAGS, 4, 1⟩
def F.YRD_MSH_FLAGS_SEAM_DISAGREE : Fld := ⟨R.YRD_MSH_FLAGS, 5, 1⟩
def F.YRD_MSH_FLAGS_SEAM_UNPAIRED : Fld := ⟨R.YRD_MSH_FLAGS, 6, 1⟩
def F.YRD_MSH_FLAGS_SEAM_TABLE_FULL : Fld := ⟨R.YRD_MSH_FLAGS, 7, 1⟩
def F.YRD_MSH_SEAM_MOVE_SEAM_ID : Fld := ⟨R.YRD_MSH_SEAM_MOVE, 0, 32⟩
def F.YRD_MSH_SEAM_MOVE_NEW_OWNER : Fld := ⟨R.YRD_MSH_SEAM_MOVE + 4, 0, 6⟩
def F.YRD_MSH_SEAM_RESULT_RESULT : Fld := ⟨R.YRD_MSH_SEAM_RESULT, 0, 4⟩
def F.YRD_MSH_SEAM_RESULT_KIND : Fld := ⟨R.YRD_MSH_SEAM_RESULT, 4, 2⟩
def F.YRD_MSH_SEAM_RESULT_INDEX : Fld := ⟨R.YRD_MSH_SEAM_RESULT, 8, 8⟩
def F.YRD_MSH_SEAM_SEL_INDEX : Fld := ⟨R.YRD_MSH_SEAM_SEL, 0, 8⟩
def F.YRD_MSH_SEAM_INFO_SEAM_ID : Fld := ⟨R.YRD_MSH_SEAM_INFO, 0, 32⟩
def F.YRD_MSH_SEAM_INFO_STATE : Fld := ⟨R.YRD_MSH_SEAM_INFO + 4, 0, 3⟩
def F.YRD_MSH_SEAM_INFO_OWNER : Fld := ⟨R.YRD_MSH_SEAM_INFO + 4, 8, 6⟩
def F.YRD_MSH_SEAM_INFO_OTHER : Fld := ⟨R.YRD_MSH_SEAM_INFO + 4, 16, 6⟩
def F.YRD_MSH_SEAM_INFO_OWNER_REG : Fld := ⟨R.YRD_MSH_SEAM_INFO + 4, 22, 1⟩
def F.YRD_MSH_SEAM_INFO_OTHER_REG : Fld := ⟨R.YRD_MSH_SEAM_INFO + 4, 23, 1⟩
def F.YRD_MSH_SEAM_INFO_MOVES : Fld := ⟨R.YRD_MSH_SEAM_INFO + 4, 24, 8⟩
def F.YRD_MSH_LAST_CONFLICT_LOSER : Fld := ⟨R.YRD_MSH_LAST_CONFLICT, 0, 6⟩
def F.YRD_MSH_LAST_CONFLICT_WINNER : Fld := ⟨R.YRD_MSH_LAST_CONFLICT, 8, 6⟩
def F.YRD_MSH_LAST_CONFLICT_SEPARATION : Fld := ⟨R.YRD_MSH_LAST_CONFLICT, 16, 1⟩
def F.YRD_MSH_LAST_CONFLICT_PLUME : Fld := ⟨R.YRD_MSH_LAST_CONFLICT, 17, 1⟩
def F.YRD_MSH_LAST_CONFLICT_LATE : Fld := ⟨R.YRD_MSH_LAST_CONFLICT, 18, 1⟩
def F.YRD_MSH_LAST_CONFLICT_TO_ELDEST : Fld := ⟨R.YRD_MSH_LAST_CONFLICT, 19, 1⟩
def F.YRD_MSH_STALL_DEFERS (g : Nat) : Fld := ⟨R.YRD_MSH_STALL g, 0, 8⟩
def F.YRD_MSH_STALL_ELDEST (g : Nat) : Fld := ⟨R.YRD_MSH_STALL g, 8, 1⟩
def F.YRD_MSH_STALL_DWELL (g : Nat) : Fld := ⟨R.YRD_MSH_STALL g, 12, 20⟩
def F.CLE_STATUS_ENG_RUNNING (s : Nat) : Fld := ⟨R.CLE_STATUS s, 0, 8⟩
def F.CLE_STATUS_SERVO_CLOSED (s : Nat) : Fld := ⟨R.CLE_STATUS s, 8, 8⟩
def F.CLE_STATUS_STALL_FAULTED (s : Nat) : Fld := ⟨R.CLE_STATUS s, 16, 8⟩
def F.CLE_FLAGS_CFG_REFUSED (s : Nat) : Fld := ⟨R.CLE_FLAGS s, 0, 1⟩
def F.CLE_FLAGS_COEF_REFUSED (s : Nat) : Fld := ⟨R.CLE_FLAGS s, 1, 1⟩
def F.CLE_FLAGS_SERVO_CMD_REFUSED (s : Nat) : Fld := ⟨R.CLE_FLAGS s, 2, 1⟩
def F.CLE_FLAGS_SAT32 (s : Nat) : Fld := ⟨R.CLE_FLAGS s, 3, 1⟩
def F.CLE_SERVO_CMD_STALL (s : Nat) : Fld := ⟨R.CLE_SERVO_CMD s, 0, 3⟩
def F.CLE_SERVO_CMD_CMD (s : Nat) : Fld := ⟨R.CLE_SERVO_CMD s, 4, 2⟩
def F.CLE_SERVO_CMD_STATUS_STALL (s : Nat) : Fld := ⟨R.CLE_SERVO_CMD_STATUS s, 0, 3⟩
def F.CLE_SERVO_CMD_STATUS_CMD (s : Nat) : Fld := ⟨R.CLE_SERVO_CMD_STATUS s, 4, 2⟩
def F.CLE_SERVO_CMD_STATUS_RESULT (s : Nat) : Fld := ⟨R.CLE_SERVO_CMD_STATUS s, 8, 4⟩
def F.ENG_CFG_EN (g : Nat) : Fld := ⟨R.ENG_CFG g, 0, 1⟩
def F.ENG_CFG_SPEED_EN (g : Nat) : Fld := ⟨R.ENG_CFG g, 1, 1⟩
def F.ENG_CFG_STROKE_RESET (g : Nat) : Fld := ⟨R.ENG_CFG g, 2, 1⟩
def F.ENG_CFG_SWAP_RESET (g : Nat) : Fld := ⟨R.ENG_CFG g, 3, 1⟩
def F.ENG_CFG_CH_EN (g : Nat) : Fld := ⟨R.ENG_CFG g, 4, 4⟩
def F.ENG_CFG_ALIGN (g : Nat) : Fld := ⟨R.ENG_CFG g, 8, 10⟩
def F.ENG_BANK_SEL (g : Nat) : Fld := ⟨R.ENG_BANK g, 0, 1⟩
def F.ENG_BANK_ACTIVE (g : Nat) : Fld := ⟨R.ENG_BANK g, 8, 1⟩
def F.ENG_BANK_PENDING (g : Nat) : Fld := ⟨R.ENG_BANK g, 9, 1⟩
def F.ENG_PCORR_PCORR_MIN (g : Nat) : Fld := ⟨R.ENG_PCORR g, 0, 16⟩
def F.ENG_PCORR_PCORR_MAX (g : Nat) : Fld := ⟨R.ENG_PCORR g, 16, 16⟩
def F.ENG_SLEW_PSLEW (g : Nat) : Fld := ⟨R.ENG_SLEW g, 0, 16⟩
def F.ENG_SLEW_SSLEW (g : Nat) : Fld := ⟨R.ENG_SLEW g, 16, 16⟩
def F.ENG_SPEED_SPD_MIN (g : Nat) : Fld := ⟨R.ENG_SPEED g, 0, 16⟩
def F.ENG_SPEED_SPD_MAX (g : Nat) : Fld := ⟨R.ENG_SPEED g, 16, 16⟩
def F.ENG_DELIVER_STEP (g : Nat) : Fld := ⟨R.ENG_DELIVER g, 0, 12⟩
def F.ENG_DELIVER_HOLDOFF (g : Nat) : Fld := ⟨R.ENG_DELIVER g, 16, 12⟩
def F.ENG_FAULT_CFG_ACT (g : Nat) : Fld := ⟨R.ENG_FAULT_CFG g, 0, 3⟩
def F.ENG_FAULT_CFG_COUNT (g : Nat) : Fld := ⟨R.ENG_FAULT_CFG g, 4, 12⟩
def F.ENG_FAULT_CFG_FEAT_MAX_AGE (g : Nat) : Fld := ⟨R.ENG_FAULT_CFG g, 16, 16⟩
def F.ENG_OUT_KP (g : Nat) : Fld := ⟨R.ENG_OUT g, 0, 16⟩
def F.ENG_OUT_KS (g : Nat) : Fld := ⟨R.ENG_OUT g, 16, 16⟩
def F.ENG_STATUS_LOOP (g : Nat) : Fld := ⟨R.ENG_STATUS g, 0, 2⟩
def F.ENG_STATUS_FEAT_VALID (g : Nat) : Fld := ⟨R.ENG_STATUS g, 2, 1⟩
def F.ENG_STATUS_KP_AT_LIMIT (g : Nat) : Fld := ⟨R.ENG_STATUS g, 3, 1⟩
def F.ENG_STATUS_FAULT_DETAIL (g : Nat) : Fld := ⟨R.ENG_STATUS g, 8, 8⟩
def F.ENG_STATUS_LATENCY (g : Nat) : Fld := ⟨R.ENG_STATUS g, 16, 8⟩
def F.ENG_FEAT_TAG_SEQ (g : Nat) : Fld := ⟨R.ENG_FEAT_TAG g, 0, 24⟩
def F.ENG_FEAT_TAG_GEN (g : Nat) : Fld := ⟨R.ENG_FEAT_TAG g, 24, 8⟩
def F.SRV_STATE_STATE (g : Nat) : Fld := ⟨R.SRV_STATE g, 0, 3⟩
def F.SRV_STATE_FAULT_DETAIL (g : Nat) : Fld := ⟨R.SRV_STATE g, 8, 4⟩
def F.SRV_STATE_FAULT_AXIS (g : Nat) : Fld := ⟨R.SRV_STATE g, 12, 3⟩
def F.SRV_STATE_HEAD_BARE (g : Nat) : Fld := ⟨R.SRV_STATE g, 16, 1⟩
def F.SRV_CUR_LIM_CUR_LIM (g : Nat) : Fld := ⟨R.SRV_CUR_LIM g, 0, 16⟩
def F.SRV_CUR_LIM_CUR_SLEW (g : Nat) : Fld := ⟨R.SRV_CUR_LIM g, 16, 16⟩
def F.SRV_FERR_LIMIT (g : Nat) : Fld := ⟨R.SRV_FERR g, 0, 24⟩
def F.SRV_FERR_COUNT (g : Nat) : Fld := ⟨R.SRV_FERR g, 24, 8⟩
def F.SRV_SETTLE_BAND (g : Nat) : Fld := ⟨R.SRV_SETTLE g, 0, 24⟩
def F.SRV_CURRENT_C (g a : Nat) : Fld := ⟨R.SRV_CURRENT g a, 0, 16⟩
def F.SRV_FLAGS_CUR_SATURATED (g : Nat) : Fld := ⟨R.SRV_FLAGS g, 0, 1⟩
def F.SRV_FLAGS_SAMPLE_MISSING (g : Nat) : Fld := ⟨R.SRV_FLAGS g, 1, 1⟩
def F.GTE_CFG_COMMIT_TIMEOUT : Fld := ⟨R.GTE_CFG, 0, 16⟩
def F.GTE_CFG_MIN_LEAD : Fld := ⟨R.GTE_CFG, 16, 16⟩
def F.GTE_STATUS_ACTIVE : Fld := ⟨R.GTE_STATUS, 0, 7⟩
def F.GTE_STATUS_STAGED : Fld := ⟨R.GTE_STATUS, 8, 11⟩
def F.GTE_STATUS_APPLYING : Fld := ⟨R.GTE_STATUS, 20, 7⟩
def F.GTE_FLAGS_ABORTED : Fld := ⟨R.GTE_FLAGS, 0, 1⟩
def F.GTE_FLAGS_UNDONE : Fld := ⟨R.GTE_FLAGS, 1, 1⟩
def F.GTE_FLAGS_DOOMED : Fld := ⟨R.GTE_FLAGS, 2, 1⟩
def F.GTE_FLAGS_STORE_HIGH : Fld := ⟨R.GTE_FLAGS, 3, 1⟩
def F.GTE_FLAGS_CFG_REFUSED : Fld := ⟨R.GTE_FLAGS, 4, 1⟩
def F.GTE_TXN_SEL_ID : Fld := ⟨R.GTE_TXN_SEL, 0, 6⟩
def F.GTE_TXN_INFO_STATE : Fld := ⟨R.GTE_TXN_INFO, 0, 3⟩
def F.GTE_TXN_INFO_KIND : Fld := ⟨R.GTE_TXN_INFO, 4, 2⟩
def F.GTE_TXN_INFO_DOOMED : Fld := ⟨R.GTE_TXN_INFO, 6, 1⟩
def F.GTE_TXN_INFO_NOTIFY : Fld := ⟨R.GTE_TXN_INFO, 7, 1⟩
def F.GTE_TXN_INFO_ACTIONS : Fld := ⟨R.GTE_TXN_INFO, 8, 11⟩
def F.GTE_TXN_INFO_ONE_WAY : Fld := ⟨R.GTE_TXN_INFO, 19, 1⟩
def F.GTE_TXN_INFO_OUTCOME : Fld := ⟨R.GTE_TXN_INFO, 24, 8⟩
def F.GTE_TXN_INFO_OPENED_BY : Fld := ⟨R.GTE_TXN_INFO + 4, 0, 8⟩
def F.FBKP_CFG_EN (p : Nat) : Fld := ⟨R.FBKP_CFG p, 0, 1⟩
def F.FBKP_CFG_MODE (p : Nat) : Fld := ⟨R.FBKP_CFG p, 1, 3⟩
def F.FBKP_CFG_DIR_INV (p : Nat) : Fld := ⟨R.FBKP_CFG p, 4, 1⟩
def F.FBKP_CFG_TERM (p : Nat) : Fld := ⟨R.FBKP_CFG p, 5, 1⟩
def F.FBKP_CFG_STOP_ON_FAULT (p : Nat) : Fld := ⟨R.FBKP_CFG p, 6, 1⟩
def F.FBKP_CFG_AXIS (p : Nat) : Fld := ⟨R.FBKP_CFG p, 8, 3⟩
def F.FBKP_CFG_AXIS_V (p : Nat) : Fld := ⟨R.FBKP_CFG p, 11, 1⟩
def F.FBKP_CFG_DIR_SRC (p : Nat) : Fld := ⟨R.FBKP_CFG p, 12, 1⟩
def F.FBKP_FILTER_MIN_EDGE (p : Nat) : Fld := ⟨R.FBKP_FILTER p, 0, 10⟩
def F.FBKP_FILTER_CABLE_TIME (p : Nat) : Fld := ⟨R.FBKP_FILTER p, 16, 8⟩
def F.FBKP_FILTER_EDGE_LIMIT (p : Nat) : Fld := ⟨R.FBKP_FILTER p, 24, 8⟩
def F.FBKP_INDEX_CFG_INDEX_EN (p : Nat) : Fld := ⟨R.FBKP_INDEX_CFG p, 0, 1⟩
def F.FBKP_INDEX_CFG_GATE_EN (p : Nat) : Fld := ⟨R.FBKP_INDEX_CFG p, 1, 1⟩
def F.FBKP_INDEX_CFG_GATE_A (p : Nat) : Fld := ⟨R.FBKP_INDEX_CFG p, 2, 1⟩
def F.FBKP_INDEX_CFG_GATE_B (p : Nat) : Fld := ⟨R.FBKP_INDEX_CFG p, 3, 1⟩
def F.FBKP_DRIFT_LIM_TOL (p : Nat) : Fld := ⟨R.FBKP_DRIFT_LIM p, 0, 16⟩
def F.FBKP_DRIFT_LIM_FAULT_LIM (p : Nat) : Fld := ⟨R.FBKP_DRIFT_LIM p, 16, 16⟩
def F.FBKP_SPEED_CFG_WINDOW (p : Nat) : Fld := ⟨R.FBKP_SPEED_CFG p, 0, 10⟩
def F.FBKP_SPEED_CFG_SWITCH_LOW (p : Nat) : Fld := ⟨R.FBKP_SPEED_CFG p, 12, 8⟩
def F.FBKP_SPEED_CFG_SWITCH_HIGH (p : Nat) : Fld := ⟨R.FBKP_SPEED_CFG p, 20, 8⟩
def F.FBKP_SPEED_CFG_N (p : Nat) : Fld := ⟨R.FBKP_SPEED_CFG p, 28, 3⟩
def F.FBKP_TOOTH_CFG_MISSING (p : Nat) : Fld := ⟨R.FBKP_TOOTH_CFG p, 0, 2⟩
def F.FBKP_TOOTH_CFG_EXTRA (p : Nat) : Fld := ⟨R.FBKP_TOOTH_CFG p, 2, 1⟩
def F.FBKP_TOOTH_CFG_GAP_RATIO (p : Nat) : Fld := ⟨R.FBKP_TOOTH_CFG p, 4, 8⟩
def F.FBKP_TOOTH_CFG_SHORT_RATIO (p : Nat) : Fld := ⟨R.FBKP_TOOTH_CFG p, 12, 4⟩
def F.FBKP_ABS_CFG_BITS (p : Nat) : Fld := ⟨R.FBKP_ABS_CFG p, 0, 6⟩
def F.FBKP_ABS_CFG_GRAY (p : Nat) : Fld := ⟨R.FBKP_ABS_CFG p, 6, 1⟩
def F.FBKP_ABS_CFG_ERR_BIT (p : Nat) : Fld := ⟨R.FBKP_ABS_CFG p, 7, 1⟩
def F.FBKP_ABS_CFG_CLK_DIV (p : Nat) : Fld := ⟨R.FBKP_ABS_CFG p, 8, 10⟩
def F.FBKP_ABS_CFG_DELAY (p : Nat) : Fld := ⟨R.FBKP_ABS_CFG p, 20, 8⟩
def F.FBKP_ABS_TIMING_CYCLE (p : Nat) : Fld := ⟨R.FBKP_ABS_TIMING p, 0, 10⟩
def F.FBKP_ABS_TIMING_MONO (p : Nat) : Fld := ⟨R.FBKP_ABS_TIMING p, 12, 8⟩
def F.FBKP_ABS_TIMING_FRAME_LIMIT (p : Nat) : Fld := ⟨R.FBKP_ABS_TIMING p, 20, 8⟩
def F.FBKP_CTRL_FAULT_CLEAR (p : Nat) : Fld := ⟨R.FBKP_CTRL p, 0, 1⟩
def F.FBKP_CTRL_REREF (p : Nat) : Fld := ⟨R.FBKP_CTRL p, 1, 1⟩
def F.FBKP_STATUS_ENABLED (p : Nat) : Fld := ⟨R.FBKP_STATUS p, 0, 1⟩
def F.FBKP_STATUS_POS_VALID (p : Nat) : Fld := ⟨R.FBKP_STATUS p, 1, 1⟩
def F.FBKP_STATUS_SPEED_VALID (p : Nat) : Fld := ⟨R.FBKP_STATUS p, 2, 1⟩
def F.FBKP_STATUS_STANDSTILL (p : Nat) : Fld := ⟨R.FBKP_STATUS p, 3, 1⟩
def F.FBKP_STATUS_METHOD (p : Nat) : Fld := ⟨R.FBKP_STATUS p, 4, 1⟩
def F.FBKP_STATUS_REF_SET (p : Nat) : Fld := ⟨R.FBKP_STATUS p, 5, 1⟩
def F.FBKP_STATUS_COUNT_SUSPECT (p : Nat) : Fld := ⟨R.FBKP_STATUS p, 6, 1⟩
def F.FBKP_STATUS_FAULT (p : Nat) : Fld := ⟨R.FBKP_STATUS p, 7, 1⟩
def F.FBKP_STATUS_DIR (p : Nat) : Fld := ⟨R.FBKP_STATUS p, 8, 1⟩
def F.FBKP_STATUS_DISAGREE (p : Nat) : Fld := ⟨R.FBKP_STATUS p, 9, 3⟩
def F.FBKP_STATUS_FAULT_DETAIL (p : Nat) : Fld := ⟨R.FBKP_STATUS p, 12, 4⟩
def F.FBKP_FLAGS_INDEX_DRIFT (p : Nat) : Fld := ⟨R.FBKP_FLAGS p, 0, 1⟩
def F.FBKP_FLAGS_EDGE_FAULT (p : Nat) : Fld := ⟨R.FBKP_FLAGS p, 1, 1⟩
def F.FBKP_FLAGS_FRAME_ERROR (p : Nat) : Fld := ⟨R.FBKP_FLAGS p, 2, 1⟩
def F.FBKP_FLAGS_ENC_ERROR (p : Nat) : Fld := ⟨R.FBKP_FLAGS p, 3, 1⟩
def F.FBKP_FLAGS_ENC_WARN (p : Nat) : Fld := ⟨R.FBKP_FLAGS p, 4, 1⟩
def F.FBKP_FLAGS_CFG_REFUSED (p : Nat) : Fld := ⟨R.FBKP_FLAGS p, 5, 1⟩
def F.FBKP_FLAGS_CLEAR_IGNORED (p : Nat) : Fld := ⟨R.FBKP_FLAGS p, 6, 1⟩
def F.FBKP_FLAGS_OVERRUN (p : Nat) : Fld := ⟨R.FBKP_FLAGS p, 7, 1⟩
def F.FBKP_FAULT_INFO_DETAIL (p : Nat) : Fld := ⟨R.FBKP_FAULT_INFO p, 0, 4⟩
def F.FBKP_FAULT_INFO_PAIR (p : Nat) : Fld := ⟨R.FBKP_FAULT_INFO p, 4, 3⟩
def F.AXIS_CFG_EN (a : Nat) : Fld := ⟨R.AXIS_CFG a, 0, 1⟩
def F.AXIS_CFG_STEP_POL (a : Nat) : Fld := ⟨R.AXIS_CFG a, 1, 1⟩
def F.AXIS_CFG_DIR_INV (a : Nat) : Fld := ⟨R.AXIS_CFG a, 2, 1⟩
def F.AXIS_CFG_AEN_POL (a : Nat) : Fld := ⟨R.AXIS_CFG a, 3, 1⟩
def F.AXIS_CFG_FAULT_DISABLE (a : Nat) : Fld := ⟨R.AXIS_CFG a, 4, 1⟩
def F.AXIS_CFG_STALL_ACT (a : Nat) : Fld := ⟨R.AXIS_CFG a, 5, 1⟩
def F.AXIS_CFG_DEV_EN (a : Nat) : Fld := ⟨R.AXIS_CFG a, 6, 1⟩
def F.AXIS_CFG_STEPS_PER_ECYCLE (a : Nat) : Fld := ⟨R.AXIS_CFG a, 16, 12⟩
def F.AXIS_STEP_TIMING_STEP_WIDTH (a : Nat) : Fld := ⟨R.AXIS_STEP_TIMING a, 0, 10⟩
def F.AXIS_STEP_TIMING_DIR_SETUP (a : Nat) : Fld := ⟨R.AXIS_STEP_TIMING a, 16, 10⟩
def F.AXIS_CMD_CMD (a : Nat) : Fld := ⟨R.AXIS_CMD a, 0, 2⟩
def F.AXIS_STATUS_STATE (a : Nat) : Fld := ⟨R.AXIS_STATUS a, 0, 3⟩
def F.AXIS_STATUS_POS_TRUSTED (a : Nat) : Fld := ⟨R.AXIS_STATUS a, 3, 1⟩
def F.AXIS_STATUS_DIR (a : Nat) : Fld := ⟨R.AXIS_STATUS a, 4, 1⟩
def F.AXIS_STATUS_RESERVED (a : Nat) : Fld := ⟨R.AXIS_STATUS a, 5, 1⟩
def F.AXIS_STATUS_QUEUED (a : Nat) : Fld := ⟨R.AXIS_STATUS a, 8, 6⟩
def F.AXIS_STATUS_EST_VALID (a : Nat) : Fld := ⟨R.AXIS_STATUS a, 14, 1⟩
def F.AXIS_STATUS_FAULT_DETAIL (a : Nat) : Fld := ⟨R.AXIS_STATUS a, 16, 4⟩
def F.AXIS_FLAGS_LIMIT_KEPT (a : Nat) : Fld := ⟨R.AXIS_FLAGS a, 0, 1⟩
def F.AXIS_FLAGS_LOAD_HIGH (a : Nat) : Fld := ⟨R.AXIS_FLAGS a, 1, 1⟩
def F.AXIS_FLAGS_STAGED_DONE (a : Nat) : Fld := ⟨R.AXIS_FLAGS a, 2, 1⟩
def F.AXIS_FLAGS_CFG_REFUSED (a : Nat) : Fld := ⟨R.AXIS_FLAGS a, 3, 1⟩
def F.AXIS_FLAGS_DIR_DELAYED (a : Nat) : Fld := ⟨R.AXIS_FLAGS a, 4, 1⟩
def F.AXIS_FLAGS_CLEAR_IGNORED (a : Nat) : Fld := ⟨R.AXIS_FLAGS a, 5, 1⟩
def F.AXIS_LOAD_RL_R (a : Nat) : Fld := ⟨R.AXIS_LOAD_RL a, 0, 16⟩
def F.AXIS_LOAD_RL_L (a : Nat) : Fld := ⟨R.AXIS_LOAD_RL a, 16, 16⟩
def F.AXIS_LOAD_CFG_FILT (a : Nat) : Fld := ⟨R.AXIS_LOAD_CFG a, 0, 4⟩
def F.AXIS_LOAD_CFG_STALL_COUNT (a : Nat) : Fld := ⟨R.AXIS_LOAD_CFG a, 8, 8⟩
def F.AXIS_LOAD_CFG_EMF_MIN (a : Nat) : Fld := ⟨R.AXIS_LOAD_CFG a, 16, 16⟩
def F.AXIS_LOAD_LIM_WARN_ANGLE (a : Nat) : Fld := ⟨R.AXIS_LOAD_LIM a, 0, 16⟩
def F.AXIS_LOAD_LIM_STALL_ANGLE (a : Nat) : Fld := ⟨R.AXIS_LOAD_LIM a, 16, 16⟩
def F.AXIS_LOAD_ANGLE_DELTA (a : Nat) : Fld := ⟨R.AXIS_LOAD_ANGLE a, 0, 16⟩
def F.AXIS_LOAD_ANGLE_PEAK (a : Nat) : Fld := ⟨R.AXIS_LOAD_ANGLE a, 16, 16⟩
def F.AXIS_EMF_EMF (a : Nat) : Fld := ⟨R.AXIS_EMF a, 0, 16⟩
def F.AXIS_FAULT_INFO_DETAIL (a : Nat) : Fld := ⟨R.AXIS_FAULT_INFO a, 0, 4⟩
def F.IMG_STATUS_STREAMING : Fld := ⟨R.IMG_STATUS, 0, 16⟩
def F.IMG_STATUS_PIPE_FAULT : Fld := ⟨R.IMG_STATUS, 16, 2⟩
def F.IMG_STATUS_PHY_ON : Fld := ⟨R.IMG_STATUS, 24, 4⟩
def F.PORT_PHY_CFG_EN (p : Nat) : Fld := ⟨R.PORT_PHY_CFG p, 0, 1⟩
def F.PORT_PHY_CFG_LANES (p : Nat) : Fld := ⟨R.PORT_PHY_CFG p, 1, 2⟩
def F.PORT_PHY_CFG_DESKEW_EN (p : Nat) : Fld := ⟨R.PORT_PHY_CFG p, 3, 1⟩
def F.PORT_PHY_CFG_LANE_MAP (p : Nat) : Fld := ⟨R.PORT_PHY_CFG p, 8, 8⟩
def F.PORT_PHY_CFG_POL_INV (p : Nat) : Fld := ⟨R.PORT_PHY_CFG p, 16, 4⟩
def F.PORT_PHY_CFG_CLK_POL_INV (p : Nat) : Fld := ⟨R.PORT_PHY_CFG p, 20, 1⟩
def F.PORT_PHY_STATUS_LANE_STOP (p : Nat) : Fld := ⟨R.PORT_PHY_STATUS p, 0, 4⟩
def F.PORT_PHY_STATUS_LANE_HS (p : Nat) : Fld := ⟨R.PORT_PHY_STATUS p, 4, 4⟩
def F.PORT_PHY_STATUS_LANE_ULPS (p : Nat) : Fld := ⟨R.PORT_PHY_STATUS p, 8, 4⟩
def F.PORT_PHY_STATUS_CLK_HS (p : Nat) : Fld := ⟨R.PORT_PHY_STATUS p, 12, 1⟩
def F.PORT_PHY_STATUS_DESKEW_DONE (p : Nat) : Fld := ⟨R.PORT_PHY_STATUS p, 13, 1⟩
def F.PORT_CSI_ERR_ECC_CORRECTED (p : Nat) : Fld := ⟨R.PORT_CSI_ERR p, 0, 16⟩
def F.PORT_CSI_ERR_ECC_FATAL (p : Nat) : Fld := ⟨R.PORT_CSI_ERR p, 16, 16⟩
def F.PORT_CRC_ERR_CRC (p : Nat) : Fld := ⟨R.PORT_CRC_ERR p, 0, 16⟩
def F.PORT_CRC_ERR_DISCARDED (p : Nat) : Fld := ⟨R.PORT_CRC_ERR p, 16, 16⟩
def F.PORT_CCI_CFG_SPEED (p : Nat) : Fld := ⟨R.PORT_CCI_CFG p, 0, 2⟩
def F.PORT_CCI_CFG_STRETCH_LIMIT (p : Nat) : Fld := ⟨R.PORT_CCI_CFG p, 8, 8⟩
def F.PORT_CCI_STATUS_BUSY (p : Nat) : Fld := ⟨R.PORT_CCI_STATUS p, 0, 1⟩
def F.PORT_CCI_STATUS_BUS_STUCK (p : Nat) : Fld := ⟨R.PORT_CCI_STATUS p, 1, 1⟩
def F.PORT_CCI_STATUS_SENSOR (p : Nat) : Fld := ⟨R.PORT_CCI_STATUS p, 8, 4⟩
def F.PORT_FLAGS_ECC_FATAL (p : Nat) : Fld := ⟨R.PORT_FLAGS p, 0, 1⟩
def F.PORT_FLAGS_CRC (p : Nat) : Fld := ⟨R.PORT_FLAGS p, 1, 1⟩
def F.PORT_FLAGS_DISCARD (p : Nat) : Fld := ⟨R.PORT_FLAGS p, 2, 1⟩
def F.PORT_FLAGS_CCI_NACK (p : Nat) : Fld := ⟨R.PORT_FLAGS p, 3, 1⟩
def F.PORT_FLAGS_CCI_TIMEOUT (p : Nat) : Fld := ⟨R.PORT_FLAGS p, 4, 1⟩
def F.PORT_FLAGS_DESKEW_FAIL (p : Nat) : Fld := ⟨R.PORT_FLAGS p, 5, 1⟩
def F.PIPE_CFG_SHARE (x : Nat) : Fld := ⟨R.PIPE_CFG x, 0, 1⟩
def F.PIPE_STATUS_CURRENT (x : Nat) : Fld := ⟨R.PIPE_STATUS x, 0, 5⟩
def F.PIPE_STATUS_BUF_LINES (x : Nat) : Fld := ⟨R.PIPE_STATUS x, 8, 7⟩
def F.PIPE_STATUS_FAULT (x : Nat) : Fld := ⟨R.PIPE_STATUS x, 15, 1⟩
def F.PIPE_STATUS_FAULT_DETAIL (x : Nat) : Fld := ⟨R.PIPE_STATUS x, 16, 8⟩
def F.PIPE_CTRL_CLEAR_FAULT (x : Nat) : Fld := ⟨R.PIPE_CTRL x, 0, 1⟩
def F.SENS_CFG_EN (n : Nat) : Fld := ⟨R.SENS_CFG n, 0, 1⟩
def F.SENS_CFG_PORT (n : Nat) : Fld := ⟨R.SENS_CFG n, 1, 2⟩
def F.SENS_CFG_VC (n : Nat) : Fld := ⟨R.SENS_CFG n, 3, 2⟩
def F.SENS_CFG_DT (n : Nat) : Fld := ⟨R.SENS_CFG n, 5, 6⟩
def F.SENS_CFG_PIPE (n : Nat) : Fld := ⟨R.SENS_CFG n, 11, 1⟩
def F.SENS_CFG_PRIO (n : Nat) : Fld := ⟨R.SENS_CFG n, 12, 4⟩
def F.SENS_CFG_COLOUR (n : Nat) : Fld := ⟨R.SENS_CFG n, 16, 1⟩
def F.SENS_CFG_BAYER (n : Nat) : Fld := ⟨R.SENS_CFG n, 17, 2⟩
def F.SENS_CFG_TAP (n : Nat) : Fld := ⟨R.SENS_CFG n, 19, 3⟩
def F.SENS_CFG_SENSOR_PIPE (n : Nat) : Fld := ⟨R.SENS_CFG n, 22, 1⟩
def F.SENS_SIZE_WIDTH (n : Nat) : Fld := ⟨R.SENS_SIZE n, 0, 14⟩
def F.SENS_SIZE_HEIGHT (n : Nat) : Fld := ⟨R.SENS_SIZE n, 16, 14⟩
def F.SENS_WINDOW_X0 (n : Nat) : Fld := ⟨R.SENS_WINDOW n, 0, 14⟩
def F.SENS_WINDOW_Y0 (n : Nat) : Fld := ⟨R.SENS_WINDOW n, 16, 14⟩
def F.SENS_WINDOW_SIZE_BIN2 (n : Nat) : Fld := ⟨R.SENS_WINDOW_SIZE n, 31, 1⟩
def F.SENS_WINDOW_SIZE_W (n : Nat) : Fld := ⟨R.SENS_WINDOW_SIZE n, 0, 14⟩
def F.SENS_WINDOW_SIZE_H (n : Nat) : Fld := ⟨R.SENS_WINDOW_SIZE n, 16, 14⟩
def F.SENS_LEVEL_BLACK (n : Nat) : Fld := ⟨R.SENS_LEVEL n, 0, 16⟩
def F.SENS_LEVEL_GAIN (n : Nat) : Fld := ⟨R.SENS_LEVEL n, 16, 16⟩
def F.SENS_LUMA_CR (n : Nat) : Fld := ⟨R.SENS_LUMA n, 0, 16⟩
def F.SENS_LUMA_CG (n : Nat) : Fld := ⟨R.SENS_LUMA n, 16, 16⟩
def F.SENS_LUMA_B_CB (n : Nat) : Fld := ⟨R.SENS_LUMA_B n, 0, 16⟩
def F.SENS_FEAT_CFG_KIND (n : Nat) : Fld := ⟨R.SENS_FEAT_CFG n, 0, 2⟩
def F.SENS_FEAT_CFG_STALL (n : Nat) : Fld := ⟨R.SENS_FEAT_CFG n, 4, 6⟩
def F.SENS_FEAT_CFG_FEAT_V (n : Nat) : Fld := ⟨R.SENS_FEAT_CFG n, 12, 1⟩
def F.SENS_FEAT_CFG_SHIFT (n : Nat) : Fld := ⟨R.SENS_FEAT_CFG n, 16, 5⟩
def F.SENS_FEAT_THR_THR (n : Nat) : Fld := ⟨R.SENS_FEAT_THR n, 0, 16⟩
def F.SENS_FEAT_WIN_POS_X0 (n : Nat) : Fld := ⟨R.SENS_FEAT_WIN_POS n, 0, 14⟩
def F.SENS_FEAT_WIN_POS_Y0 (n : Nat) : Fld := ⟨R.SENS_FEAT_WIN_POS n, 16, 14⟩
def F.SENS_FEAT_WIN_SIZE_W (n : Nat) : Fld := ⟨R.SENS_FEAT_WIN_SIZE n, 0, 14⟩
def F.SENS_FEAT_WIN_SIZE_H (n : Nat) : Fld := ⟨R.SENS_FEAT_WIN_SIZE n, 16, 14⟩
def F.SENS_TIMING_LATCH (n : Nat) : Fld := ⟨R.SENS_TIMING n, 0, 16⟩
def F.SENS_TIMING_FRAME_TIMEOUT (n : Nat) : Fld := ⟨R.SENS_TIMING n, 16, 8⟩
def F.SENS_TIMING_DAMAGE_LIMIT (n : Nat) : Fld := ⟨R.SENS_TIMING n, 24, 8⟩
def F.SENS_STATUS_STATE (n : Nat) : Fld := ⟨R.SENS_STATUS n, 0, 3⟩
def F.SENS_STATUS_IN_FRAME (n : Nat) : Fld := ⟨R.SENS_STATUS n, 3, 1⟩
def F.SENS_STATUS_SETTINGS_PENDING (n : Nat) : Fld := ⟨R.SENS_STATUS n, 4, 1⟩
def F.SENS_STATUS_SETTINGS_UNCERTAIN (n : Nat) : Fld := ⟨R.SENS_STATUS n, 5, 1⟩
def F.SENS_STATUS_GEN (n : Nat) : Fld := ⟨R.SENS_STATUS n, 16, 16⟩
def F.SENS_GEN_LAST_ISSUED (n : Nat) : Fld := ⟨R.SENS_GEN n, 0, 16⟩
def F.SENS_GEN_LAST_DONE (n : Nat) : Fld := ⟨R.SENS_GEN n, 16, 16⟩
def F.SENS_FLAGS_DROPPED (n : Nat) : Fld := ⟨R.SENS_FLAGS n, 0, 1⟩
def F.SENS_FLAGS_DAMAGED (n : Nat) : Fld := ⟨R.SENS_FLAGS n, 1, 1⟩
def F.SENS_FLAGS_NO_BUFFER (n : Nat) : Fld := ⟨R.SENS_FLAGS n, 2, 1⟩
def F.SENS_FLAGS_SETTINGS_FAILED (n : Nat) : Fld := ⟨R.SENS_FLAGS n, 3, 1⟩
def F.SENS_FLAGS_SETTINGS_LATE (n : Nat) : Fld := ⟨R.SENS_FLAGS n, 4, 1⟩
def F.SENS_FLAGS_STALLED (n : Nat) : Fld := ⟨R.SENS_FLAGS n, 5, 1⟩
def F.SENS_FLAGS_CFG_REFUSED (n : Nat) : Fld := ⟨R.SENS_FLAGS n, 6, 1⟩
def F.SENS_FLAGS_FEAT_UNDELIVERED (n : Nat) : Fld := ⟨R.SENS_FLAGS n, 7, 1⟩
def F.CMP_CFG_EN : Fld := ⟨R.CMP_CFG, 0, 2⟩
def F.CMP_CFG_HOST_MIN : Fld := ⟨R.CMP_CFG, 8, 4⟩
def F.CMP_STATUS_JOBS0 : Fld := ⟨R.CMP_STATUS, 0, 5⟩
def F.CMP_STATUS_JOBS1 : Fld := ⟨R.CMP_STATUS, 8, 5⟩
def F.CMP_STATUS_FAULT : Fld := ⟨R.CMP_STATUS, 16, 2⟩
def F.CMP_FLAGS_DATA_CHECK_SEEN : Fld := ⟨R.CMP_FLAGS, 0, 1⟩
def F.CMP_FLAGS_MEMORY_ERROR : Fld := ⟨R.CMP_FLAGS, 1, 1⟩
def F.CMP_FLAGS_CFG_REFUSED : Fld := ⟨R.CMP_FLAGS, 2, 1⟩
def F.ENGINE_CTRL_CLEAR_FAULT (e : Nat) : Fld := ⟨R.ENGINE_CTRL e, 0, 1⟩
def F.ENGINE_CURRENT_BUSY (e : Nat) : Fld := ⟨R.ENGINE_CURRENT e, 15, 1⟩
def F.ENGINE_CURRENT_CTX (e : Nat) : Fld := ⟨R.ENGINE_CURRENT e, 0, 8⟩
def F.ENGINE_CURRENT_CLASS (e : Nat) : Fld := ⟨R.ENGINE_CURRENT e, 8, 2⟩
def F.LNK_CTRL_EN (b : Nat) : Fld := ⟨R.LNK_CTRL b, 0, 1⟩
def F.LNK_CTRL_DOWN_SLEEP_EN (b : Nat) : Fld := ⟨R.LNK_CTRL b, 1, 1⟩
def F.LNK_CTRL_UP_SLEEP_EN (b : Nat) : Fld := ⟨R.LNK_CTRL b, 2, 1⟩
def F.LNK_CTRL_VER_MAX (b : Nat) : Fld := ⟨R.LNK_CTRL b, 4, 2⟩
def F.LNK_CTRL_RETRY_LIMIT (b : Nat) : Fld := ⟨R.LNK_CTRL b, 8, 4⟩
def F.LNK_CTRL_IDLE_TIME (b : Nat) : Fld := ⟨R.LNK_CTRL b, 16, 16⟩
def F.LNK_TRAIN_CTL_AUTO_ALIGN (b : Nat) : Fld := ⟨R.LNK_TRAIN_CTL b, 0, 1⟩
def F.LNK_TRAIN_CTL_DFE_FREEZE (b : Nat) : Fld := ⟨R.LNK_TRAIN_CTL b, 1, 1⟩
def F.LNK_TRAIN_CTL_TRACK (b : Nat) : Fld := ⟨R.LNK_TRAIN_CTL b, 2, 1⟩
def F.LNK_TRAIN_CTL_TEST (b : Nat) : Fld := ⟨R.LNK_TRAIN_CTL b, 3, 1⟩
def F.LNK_TRAIN_CTL_EYE_MIN (b : Nat) : Fld := ⟨R.LNK_TRAIN_CTL b, 8, 7⟩
def F.LNK_TRAIN_CTL_SLIP (b : Nat) : Fld := ⟨R.LNK_TRAIN_CTL b, 16, 1⟩
def F.LNK_TRAIN_CTL_RESTART (b : Nat) : Fld := ⟨R.LNK_TRAIN_CTL b, 17, 1⟩
def F.LNK_STATE_STAGE (b : Nat) : Fld := ⟨R.LNK_STATE b, 0, 4⟩
def F.LNK_STATE_VERSION (b : Nat) : Fld := ⟨R.LNK_STATE b, 4, 4⟩
def F.LNK_STATE_DETAIL (b : Nat) : Fld := ⟨R.LNK_STATE b, 8, 4⟩
def F.LNK_STATE_DOWN_PWR (b : Nat) : Fld := ⟨R.LNK_STATE b, 12, 2⟩
def F.LNK_STATE_UP_PWR (b : Nat) : Fld := ⟨R.LNK_STATE b, 14, 2⟩
def F.LNK_STATE_RETRIES (b : Nat) : Fld := ⟨R.LNK_STATE b, 16, 4⟩
def F.LNK_RX_STATUS_CLK_PRESENT (b : Nat) : Fld := ⟨R.LNK_RX_STATUS b, 0, 1⟩
def F.LNK_RX_STATUS_BIT_LOCK (b : Nat) : Fld := ⟨R.LNK_RX_STATUS b, 1, 1⟩
def F.LNK_RX_STATUS_WORD_LOCK (b : Nat) : Fld := ⟨R.LNK_RX_STATUS b, 2, 1⟩
def F.LNK_RX_STATUS_PARTNER_LOCK (b : Nat) : Fld := ⟨R.LNK_RX_STATUS b, 3, 1⟩
def F.LNK_RX_STATUS_SLIP_POS (b : Nat) : Fld := ⟨R.LNK_RX_STATUS b, 8, 7⟩
def F.LNK_RX_STATUS_EYE_WIDTH (b : Nat) : Fld := ⟨R.LNK_RX_STATUS b, 16, 7⟩
def F.LNK_RX_STATUS_EYE_CENTRE (b : Nat) : Fld := ⟨R.LNK_RX_STATUS b, 24, 7⟩
def F.LNK_ERR_CFG_CRC_LIMIT (b : Nat) : Fld := ⟨R.LNK_ERR_CFG b, 0, 16⟩
def F.LNK_ERR_CFG_SKEW_LIMIT (b : Nat) : Fld := ⟨R.LNK_ERR_CFG b, 16, 12⟩
def F.LNK_LANE_DLY_DATA_DLY (b : Nat) : Fld := ⟨R.LNK_LANE_DLY b, 0, 7⟩
def F.LNK_LANE_DLY_IN_USE (b : Nat) : Fld := ⟨R.LNK_LANE_DLY b, 16, 7⟩
def F.LNK_FLAGS_CRC_ERR (b : Nat) : Fld := ⟨R.LNK_FLAGS b, 0, 1⟩
def F.LNK_FLAGS_SYNC_ERR (b : Nat) : Fld := ⟨R.LNK_FLAGS b, 1, 1⟩
def F.LNK_FLAGS_SKEW (b : Nat) : Fld := ⟨R.LNK_FLAGS b, 2, 1⟩
def F.LNK_FLAGS_HEAD_ALARM (b : Nat) : Fld := ⟨R.LNK_FLAGS b, 3, 1⟩
def F.LNK_FLAGS_CFG_REFUSED (b : Nat) : Fld := ⟨R.LNK_FLAGS b, 4, 1⟩
def F.LNK_FLAGS_HALTED (b : Nat) : Fld := ⟨R.LNK_FLAGS b, 5, 1⟩
def F.LNK_FLAGS_PRBS_ERR (b : Nat) : Fld := ⟨R.LNK_FLAGS b, 6, 1⟩
def F.LNK_HEAD_ID_VENDOR (b : Nat) : Fld := ⟨R.LNK_HEAD_ID b, 0, 16⟩
def F.LNK_HEAD_ID_MODEL (b : Nat) : Fld := ⟨R.LNK_HEAD_ID b, 16, 16⟩
def F.LNK_HEAD_ID_FW (b : Nat) : Fld := ⟨R.LNK_HEAD_ID b + 4, 0, 16⟩
def F.LNK_HEAD_ID_VER_MIN (b : Nat) : Fld := ⟨R.LNK_HEAD_ID b + 4, 16, 4⟩
def F.LNK_HEAD_ID_VER_MAX (b : Nat) : Fld := ⟨R.LNK_HEAD_ID b + 4, 20, 4⟩
def F.LNK_DFE_VALUE (b i : Nat) : Fld := ⟨R.LNK_DFE b i, 0, 8⟩
def F.LNK_DFE_OFFSET (b i : Nat) : Fld := ⟨R.LNK_DFE b i, 16, 8⟩
def F.LNK_PRBS_CTL_TX_MODE (b : Nat) : Fld := ⟨R.LNK_PRBS_CTL b, 0, 2⟩
def F.LNK_PRBS_CTL_RX_MODE (b : Nat) : Fld := ⟨R.LNK_PRBS_CTL b, 4, 2⟩
def F.LNK_PRBS_CTL_INJECT (b : Nat) : Fld := ⟨R.LNK_PRBS_CTL b, 8, 1⟩
def F.DMC_STATUS_STATE : Fld := ⟨R.DMC_STATUS, 0, 3⟩
def F.DMC_STATUS_ACTIVE_SET : Fld := ⟨R.DMC_STATUS, 4, 1⟩
def F.DMC_STATUS_SPEED : Fld := ⟨R.DMC_STATUS, 8, 3⟩
def F.DMC_STATUS_SCRUB_BUSY : Fld := ⟨R.DMC_STATUS, 12, 1⟩
def F.DMC_GEOMETRY_RANKS : Fld := ⟨R.DMC_GEOMETRY, 0, 2⟩
def F.DMC_GEOMETRY_ROW_BITS : Fld := ⟨R.DMC_GEOMETRY, 4, 2⟩
def F.DMC_GEOMETRY_USABLE_MIB : Fld := ⟨R.DMC_GEOMETRY, 16, 16⟩
def F.DMC_CFG_LOG_CORRECTED : Fld := ⟨R.DMC_CFG, 0, 1⟩
def F.DMC_CFG_AGE_LIMIT : Fld := ⟨R.DMC_CFG, 8, 8⟩
def F.DMC_CFG_SR_IDLE : Fld := ⟨R.DMC_CFG, 16, 16⟩
def F.DMC_CMD_CMD : Fld := ⟨R.DMC_CMD, 0, 2⟩
def F.DMC_CMD_STATUS_CMD : Fld := ⟨R.DMC_CMD_STATUS, 0, 2⟩
def F.DMC_CMD_STATUS_RESULT : Fld := ⟨R.DMC_CMD_STATUS, 4, 4⟩
def F.DMC_FLAGS_SRAM_CORRECTED : Fld := ⟨R.DMC_FLAGS, 0, 1⟩
def F.DMC_FLAGS_LP5_CORRECTED : Fld := ⟨R.DMC_FLAGS, 1, 1⟩
def F.DMC_FLAGS_SCRUB_LATE : Fld := ⟨R.DMC_FLAGS, 2, 1⟩
def F.DMC_FLAGS_LP5_HOT : Fld := ⟨R.DMC_FLAGS, 3, 1⟩
def F.DMC_FLAGS_CFG_REFUSED : Fld := ⟨R.DMC_FLAGS, 4, 1⟩
def F.DMC_SCRUB_SRAM_PERIOD : Fld := ⟨R.DMC_SCRUB, 0, 16⟩
def F.DMC_SCRUB_LP5_PERIOD : Fld := ⟨R.DMC_SCRUB, 16, 16⟩
def F.DMC_ELOG_SEL_INDEX : Fld := ⟨R.DMC_ELOG_SEL, 0, 4⟩
def F.DMC_ELOG_HEAD_NEXT : Fld := ⟨R.DMC_ELOG_HEAD, 0, 4⟩
def F.DMC_ELOG_HEAD_TOTAL : Fld := ⟨R.DMC_ELOG_HEAD, 8, 24⟩
def F.DMC_CH_TRAIN_LAST_STEP (c : Nat) : Fld := ⟨R.DMC_CH_TRAIN c, 0, 3⟩
def F.DMC_CH_TRAIN_FAIL (c : Nat) : Fld := ⟨R.DMC_CH_TRAIN c, 3, 1⟩
def F.DMC_CH_TRAIN_READ_EYE (c : Nat) : Fld := ⟨R.DMC_CH_TRAIN c, 8, 8⟩
def F.DMC_CH_TRAIN_WRITE_EYE (c : Nat) : Fld := ⟨R.DMC_CH_TRAIN c, 16, 8⟩
def F.DMC_CH_QUEUE_IN_SR (c : Nat) : Fld := ⟨R.DMC_CH_QUEUE c, 8, 1⟩
def F.DMC_CH_QUEUE_REQS (c : Nat) : Fld := ⟨R.DMC_CH_QUEUE c, 0, 7⟩
def F.CPM_STATUS_ROOT_SRC : Fld := ⟨R.CPM_STATUS, 0, 3⟩
def F.CPM_STATUS_PLL_STATE : Fld := ⟨R.CPM_STATUS, 4, 3⟩
def F.CPM_STATUS_QUALIFIED : Fld := ⟨R.CPM_STATUS, 8, 4⟩
def F.CPM_STATUS_XO_STARTING : Fld := ⟨R.CPM_STATUS, 12, 1⟩
def F.CPM_STATUS_AO_XTAL : Fld := ⟨R.CPM_STATUS, 16, 1⟩
def F.CPM_REF_CFG_FIRST : Fld := ⟨R.CPM_REF_CFG, 0, 3⟩
def F.CPM_REF_CFG_SECOND : Fld := ⟨R.CPM_REF_CFG, 4, 3⟩
def F.CPM_REF_CFG_REVERT : Fld := ⟨R.CPM_REF_CFG, 8, 1⟩
def F.CPM_REF_CFG_QUAL_MS : Fld := ⟨R.CPM_REF_CFG, 16, 16⟩
def F.CPM_MON_CFG_TOL : Fld := ⟨R.CPM_MON_CFG, 0, 16⟩
def F.CPM_PLL_CFG_PULL_RATE : Fld := ⟨R.CPM_PLL_CFG, 0, 16⟩
def F.CPM_XO_COMP_A1 : Fld := ⟨R.CPM_XO_COMP, 0, 16⟩
def F.CPM_XO_COMP_A2 : Fld := ⟨R.CPM_XO_COMP, 16, 16⟩
def F.CPM_XO_COMP_T0_T0 : Fld := ⟨R.CPM_XO_COMP_T0, 0, 16⟩
def F.CPM_CMD_SWITCH : Fld := ⟨R.CPM_CMD, 0, 1⟩
def F.CPM_FLAGS_REF_LOST : Fld := ⟨R.CPM_FLAGS, 0, 1⟩
def F.CPM_FLAGS_SWITCHED : Fld := ⟨R.CPM_FLAGS, 1, 1⟩
def F.CPM_FLAGS_SAFE_ENTERED : Fld := ⟨R.CPM_FLAGS, 2, 1⟩
def F.CPM_FLAGS_PLL_UNLOCK : Fld := ⟨R.CPM_FLAGS, 3, 1⟩
def F.CPM_FLAGS_GATE_DENIED : Fld := ⟨R.CPM_FLAGS, 4, 1⟩
def F.CPM_FLAGS_CFG_REFUSED : Fld := ⟨R.CPM_FLAGS, 5, 1⟩
def F.CPM_FLAGS_PFAIL : Fld := ⟨R.CPM_FLAGS, 6, 1⟩
def F.CPM_FLAGS_RAIL_LOW : Fld := ⟨R.CPM_FLAGS, 7, 1⟩
def F.CPM_FLAGS_SWITCH_IGNORED : Fld := ⟨R.CPM_FLAGS, 8, 1⟩
def F.CPM_LOST_INFO_CAUSE : Fld := ⟨R.CPM_LOST_INFO, 4, 2⟩
def F.CPM_LOST_INFO_REF : Fld := ⟨R.CPM_LOST_INFO, 0, 3⟩
def F.CPM_GATE_CFG_IDLE : Fld := ⟨R.CPM_GATE_CFG, 0, 16⟩
def F.CPM_GATED_UNITS_STABLES : Fld := ⟨R.CPM_GATED_UNITS, 0, 6⟩
def F.CPM_GATED_UNITS_PIPES : Fld := ⟨R.CPM_GATED_UNITS, 8, 2⟩
def F.CPM_GATED_UNITS_ENGINES : Fld := ⟨R.CPM_GATED_UNITS, 10, 2⟩
def F.CPM_GATED_UNITS_BAYS : Fld := ⟨R.CPM_GATED_UNITS, 16, 12⟩
def F.CPM_GATE_DENIED_LAST_UNIT : Fld := ⟨R.CPM_GATE_DENIED_LAST, 0, 8⟩
def F.CPM_PWR_STATUS_CORE_OK : Fld := ⟨R.CPM_PWR_STATUS, 0, 1⟩
def F.CPM_PWR_STATUS_SRAM_OK : Fld := ⟨R.CPM_PWR_STATUS, 1, 1⟩
def F.CPM_PWR_STATUS_AO_OK : Fld := ⟨R.CPM_PWR_STATUS, 2, 1⟩
def F.CPM_PWR_STATUS_SERDES_OK : Fld := ⟨R.CPM_PWR_STATUS, 3, 1⟩
def F.CPM_PWR_STATUS_IO_OK : Fld := ⟨R.CPM_PWR_STATUS, 4, 1⟩
def F.CPM_PWR_STATUS_PFAIL_N : Fld := ⟨R.CPM_PWR_STATUS, 8, 1⟩
def F.THM_TEMP_VALID (i : Nat) : Fld := ⟨R.THM_TEMP i, 16, 1⟩
def F.THM_TEMP_BROKEN (i : Nat) : Fld := ⟨R.THM_TEMP i, 17, 1⟩
def F.THM_TEMP_VALUE (i : Nat) : Fld := ⟨R.THM_TEMP i, 0, 16⟩
def F.THM_CTL_T_CTL : Fld := ⟨R.THM_CTL, 0, 16⟩
def F.THM_CTL_SENSOR : Fld := ⟨R.THM_CTL, 16, 3⟩
def F.THM_CTL_GOOD : Fld := ⟨R.THM_CTL, 20, 4⟩
def F.THM_STATUS_STATE : Fld := ⟨R.THM_STATUS, 0, 2⟩
def F.THM_STATUS_SD_CAUSE : Fld := ⟨R.THM_STATUS, 4, 3⟩
def F.THM_STATUS_K_THROTTLE : Fld := ⟨R.THM_STATUS, 16, 16⟩
def F.THM_LIMITS_A_WARN : Fld := ⟨R.THM_LIMITS_A, 0, 16⟩
def F.THM_LIMITS_A_THROTTLE : Fld := ⟨R.THM_LIMITS_A, 16, 16⟩
def F.THM_LIMITS_B_SHUTDOWN : Fld := ⟨R.THM_LIMITS_B, 0, 16⟩
def F.THM_LIMITS_B_HYST : Fld := ⟨R.THM_LIMITS_B, 16, 8⟩
def F.THM_RATE_RATE : Fld := ⟨R.THM_RATE, 0, 16⟩
def F.THM_RATE_RATE_ACT : Fld := ⟨R.THM_RATE, 16, 2⟩
def F.THM_THROTTLE_CFG_K_MIN : Fld := ⟨R.THM_THROTTLE_CFG, 0, 16⟩
def F.THM_XCHECK_DEV : Fld := ⟨R.THM_XCHECK, 0, 16⟩
def F.THM_FLAGS_WARNING : Fld := ⟨R.THM_FLAGS, 0, 1⟩
def F.THM_FLAGS_THROTTLED : Fld := ⟨R.THM_FLAGS, 1, 1⟩
def F.THM_FLAGS_RATE : Fld := ⟨R.THM_FLAGS, 2, 1⟩
def F.THM_FLAGS_SENSOR_BROKEN : Fld := ⟨R.THM_FLAGS, 3, 1⟩
def F.THM_FLAGS_SENSORS_LOW : Fld := ⟨R.THM_FLAGS, 4, 1⟩
def F.THM_FLAGS_CFG_REFUSED : Fld := ⟨R.THM_FLAGS, 5, 1⟩
def F.THM_CMD_SENSOR_RESET : Fld := ⟨R.THM_CMD, 0, 7⟩
def F.THM_PEAK_VALUE : Fld := ⟨R.THM_PEAK, 0, 16⟩
def F.TMS_STATUS_STATE : Fld := ⟨R.TMS_STATUS, 0, 3⟩
def F.TMS_STATUS_SLAVE_PORT : Fld := ⟨R.TMS_STATUS, 4, 2⟩
def F.TMS_CFG_DOMAIN : Fld := ⟨R.TMS_CFG, 0, 8⟩
def F.TMS_CFG_PRIORITY1 : Fld := ⟨R.TMS_CFG, 8, 8⟩
def F.TMS_CFG_PRIORITY2 : Fld := ⟨R.TMS_CFG, 16, 8⟩
def F.TMS_CFG_INITIAL_STEP : Fld := ⟨R.TMS_CFG, 24, 1⟩
def F.TMS_SERVO_KP : Fld := ⟨R.TMS_SERVO, 0, 16⟩
def F.TMS_SERVO_KI : Fld := ⟨R.TMS_SERVO, 16, 16⟩
def F.TMS_SERVO_LIM_MAX_ADJ : Fld := ⟨R.TMS_SERVO_LIM, 0, 16⟩
def F.TMS_SERVO_LIM_LOCK_NS : Fld := ⟨R.TMS_SERVO_LIM, 16, 16⟩
def F.TMS_HOLD_CFG_LIMIT : Fld := ⟨R.TMS_HOLD_CFG, 16, 16⟩
def F.TMS_HOLD_CFG_RECEIPT : Fld := ⟨R.TMS_HOLD_CFG, 0, 4⟩
def F.TMS_CMD_CMD : Fld := ⟨R.TMS_CMD, 0, 2⟩
def F.TMS_CMD_STATUS_RESULT : Fld := ⟨R.TMS_CMD_STATUS, 4, 4⟩
def F.TMS_FLAGS_JUMP_REFUSED : Fld := ⟨R.TMS_FLAGS, 0, 1⟩
def F.TMS_FLAGS_HOLD_LONG : Fld := ⟨R.TMS_FLAGS, 1, 1⟩
def F.TMS_FLAGS_STEPPED : Fld := ⟨R.TMS_FLAGS, 2, 1⟩
def F.TMS_FLAGS_GM_CHANGED : Fld := ⟨R.TMS_FLAGS, 3, 1⟩
def F.TMS_FLAGS_CFG_REFUSED : Fld := ⟨R.TMS_FLAGS, 4, 1⟩
def F.TMS_OUT_CFG_RCLK_SRC : Fld := ⟨R.TMS_OUT_CFG, 0, 2⟩
def F.TMS_OUT_CFG_SQUELCH : Fld := ⟨R.TMS_OUT_CFG, 2, 1⟩
def F.TMS_OUT_CFG_PPS_EN : Fld := ⟨R.TMS_OUT_CFG, 3, 1⟩
def F.TMS_OUT_CFG_WIDTH : Fld := ⟨R.TMS_OUT_CFG, 8, 8⟩
def F.TPORT_CFG_EN (p : Nat) : Fld := ⟨R.TPORT_CFG p, 0, 1⟩
def F.TPORT_CFG_UDP (p : Nat) : Fld := ⟨R.TPORT_CFG p, 1, 1⟩
def F.TPORT_CFG_P2P (p : Nat) : Fld := ⟨R.TPORT_CFG p, 2, 1⟩
def F.TPORT_CFG_SLAVE_ONLY (p : Nat) : Fld := ⟨R.TPORT_CFG p, 3, 1⟩
def F.TPORT_CFG_SGMII (p : Nat) : Fld := ⟨R.TPORT_CFG p, 4, 1⟩
def F.TPORT_CFG_SPEED_100 (p : Nat) : Fld := ⟨R.TPORT_CFG p, 5, 1⟩
def F.TPORT_CFG_LOG_SYNC (p : Nat) : Fld := ⟨R.TPORT_CFG p, 8, 4⟩
def F.TPORT_CFG_LOG_ANNOUNCE (p : Nat) : Fld := ⟨R.TPORT_CFG p, 12, 4⟩
def F.TPORT_CFG_LOG_DELAY_REQ (p : Nat) : Fld := ⟨R.TPORT_CFG p, 16, 4⟩
def F.TPORT_STATUS_LINK_UP (p : Nat) : Fld := ⟨R.TPORT_STATUS p, 4, 1⟩
def F.TPORT_STATUS_STATE (p : Nat) : Fld := ⟨R.TPORT_STATUS p, 0, 4⟩
def F.TCK_STATUS_LIFECYCLE : Fld := ⟨R.TCK_STATUS, 0, 3⟩
def F.TCK_STATUS_EVALUATED : Fld := ⟨R.TCK_STATUS, 4, 1⟩
def F.TCK_STATUS_DEBUG_OPEN : Fld := ⟨R.TCK_STATUS, 5, 1⟩
def F.TCK_STATUS_TRNG_OK : Fld := ⟨R.TCK_STATUS, 6, 1⟩
def F.TCK_STATUS_SETTINGS_LOADED : Fld := ⟨R.TCK_STATUS, 7, 1⟩
def F.TCK_CFG_RECORDER_SEAL : Fld := ⟨R.TCK_CFG, 0, 1⟩
def F.TCK_CFG_UART_RECOVERY : Fld := ⟨R.TCK_CFG, 1, 1⟩
def F.TCK_FLAGS_WORLD_FAULT : Fld := ⟨R.TCK_FLAGS, 0, 1⟩
def F.TCK_FLAGS_AUTH_FAIL : Fld := ⟨R.TCK_FLAGS, 1, 1⟩
def F.TCK_FLAGS_TRNG_FAIL : Fld := ⟨R.TCK_FLAGS, 2, 1⟩
def F.TCK_FLAGS_EVAL_LOST : Fld := ⟨R.TCK_FLAGS, 3, 1⟩
def F.TCK_FLAGS_CFG_REFUSED : Fld := ⟨R.TCK_FLAGS, 4, 1⟩
def F.TCK_RT_SEL_INDEX : Fld := ⟨R.TCK_RT_SEL, 0, 7⟩
def F.TCK_RT_ATTR_VALID : Fld := ⟨R.TCK_RT_ATTR, 0, 1⟩
def F.TCK_RT_ATTR_SECURE : Fld := ⟨R.TCK_RT_ATTR, 1, 1⟩
def F.TCK_RT_ATTR_SPACE : Fld := ⟨R.TCK_RT_ATTR, 2, 2⟩
def F.TCK_RT_ATTR_READERS : Fld := ⟨R.TCK_RT_ATTR, 4, 3⟩
def F.TCK_RT_ATTR_LOCK : Fld := ⟨R.TCK_RT_ATTR, 8, 1⟩
def F.TCK_WF_INFO_CONTEXT : Fld := ⟨R.TCK_WF_INFO, 0, 8⟩
def F.TCK_WF_INFO_REQUESTER : Fld := ⟨R.TCK_WF_INFO, 8, 4⟩
def F.TCK_WF_INFO_WRITE : Fld := ⟨R.TCK_WF_INFO, 12, 1⟩
def F.TCK_WF_INFO_BWT : Fld := ⟨R.TCK_WF_INFO, 16, 8⟩
def F.FAR_CFG_EN : Fld := ⟨R.FAR_CFG, 0, 4⟩
def F.FAR_CFG_DELTA_T : Fld := ⟨R.FAR_CFG, 8, 8⟩
def F.FAR_CFG_AUTO : Fld := ⟨R.FAR_CFG, 16, 1⟩
def F.FAR_STATUS_STATE : Fld := ⟨R.FAR_STATUS, 0, 2⟩
def F.FAR_STATUS_PENDING : Fld := ⟨R.FAR_STATUS, 8, 8⟩
def F.FAR_FLAGS_REJECTED : Fld := ⟨R.FAR_FLAGS, 0, 1⟩
def F.FAR_FLAGS_SKIPPED : Fld := ⟨R.FAR_FLAGS, 1, 1⟩
def F.FAR_FLAGS_CFG_REFUSED : Fld := ⟨R.FAR_FLAGS, 2, 1⟩
def F.FAR_LIMITS_LANE_MAX_STEP : Fld := ⟨R.FAR_LIMITS, 0, 8⟩
def F.FAR_LIMITS_OFS_MAX : Fld := ⟨R.FAR_LIMITS, 8, 8⟩
def F.FAR_LIMITS_GATE_MAX_STEP : Fld := ⟨R.FAR_LIMITS, 16, 12⟩
def F.FAR_GATE_CFG_CH : Fld := ⟨R.FAR_GATE_CFG, 8, 2⟩
def F.FAR_GATE_CFG_WIN : Fld := ⟨R.FAR_GATE_CFG, 16, 8⟩
def F.FAR_GATE_CFG_N : Fld := ⟨R.FAR_GATE_CFG, 0, 8⟩
def F.FAR_THR_CFG_MARGIN : Fld := ⟨R.FAR_THR_CFG, 0, 16⟩
def F.FAR_THR_CFG_THR_MAX : Fld := ⟨R.FAR_THR_CFG, 16, 16⟩
def F.FAR_TEST_CFG_TEST_MS : Fld := ⟨R.FAR_TEST_CFG, 0, 16⟩
def F.FAR_LAST_FAIL_KIND : Fld := ⟨R.FAR_LAST_FAIL, 0, 3⟩
def F.FAR_LAST_FAIL_RESULT : Fld := ⟨R.FAR_LAST_FAIL, 4, 4⟩
def F.FAR_LAST_FAIL_UNIT : Fld := ⟨R.FAR_LAST_FAIL, 8, 8⟩
def F.FAR_STALL_INFO_ALIGN_SUGGEST (g : Nat) : Fld := ⟨R.FAR_STALL_INFO g, 0, 10⟩
def F.FAR_STALL_INFO_RESULT (g : Nat) : Fld := ⟨R.FAR_STALL_INFO g, 12, 4⟩
def F.FAR_STALL_INFO_COLLECTED (g : Nat) : Fld := ⟨R.FAR_STALL_INFO g, 16, 8⟩
def F.FAR_STALL_LAST_T_VALID (g : Nat) : Fld := ⟨R.FAR_STALL_LAST_T g, 16, 1⟩
def F.FAR_STALL_LAST_T_VALUE (g : Nat) : Fld := ⟨R.FAR_STALL_LAST_T g, 0, 16⟩
def F.FAR_BAY_INFO_RESULT (b : Nat) : Fld := ⟨R.FAR_BAY_INFO b, 0, 4⟩
def F.FAR_BAY_INFO_KIND (b : Nat) : Fld := ⟨R.FAR_BAY_INFO b, 4, 3⟩
def F.FAR_BAY_INFO_EYE (b : Nat) : Fld := ⟨R.FAR_BAY_INFO b, 8, 7⟩
def F.FAR_BAY_LAST_T_VALUE (b : Nat) : Fld := ⟨R.FAR_BAY_LAST_T b, 0, 16⟩
def F.FAR_BAY_LAST_T_VALID (b : Nat) : Fld := ⟨R.FAR_BAY_LAST_T b, 16, 1⟩
def F.LMP_CFG_RES : Fld := ⟨R.LMP_CFG, 0, 5⟩
def F.LMP_CFG_DIV : Fld := ⟨R.LMP_CFG, 8, 8⟩
def F.LMP_STATUS_PAT_RUN : Fld := ⟨R.LMP_STATUS, 0, 4⟩
def F.LMP_STATUS_PAT_FAULT : Fld := ⟨R.LMP_STATUS, 4, 4⟩
def F.LMP_STATUS_GROUP_FAILED : Fld := ⟨R.LMP_STATUS, 8, 8⟩
def F.LMP_FLAGS_LAMP_FAULT : Fld := ⟨R.LMP_FLAGS, 0, 1⟩
def F.LMP_FLAGS_GROUP_FAILED : Fld := ⟨R.LMP_FLAGS, 1, 1⟩
def F.LMP_FLAGS_PAT_FAULT : Fld := ⟨R.LMP_FLAGS, 2, 1⟩
def F.LMP_FLAGS_CLEAR_FAILED : Fld := ⟨R.LMP_FLAGS, 3, 1⟩
def F.LMP_FLAGS_CFG_REFUSED : Fld := ⟨R.LMP_FLAGS, 4, 1⟩
def F.LMP_CMD_GROUP_CLEAR : Fld := ⟨R.LMP_CMD, 0, 8⟩
def F.LMP_CMD_PAT_CLEAR : Fld := ⟨R.LMP_CMD, 8, 4⟩
def F.LMP_CMD_LAMP_CLEAR : Fld := ⟨R.LMP_CMD, 16, 1⟩
def F.LMP_MATRIX_CFG_ROW_TIME : Fld := ⟨R.LMP_MATRIX_CFG, 0, 10⟩
def F.LMP_MATRIX_CFG_EN : Fld := ⟨R.LMP_MATRIX_CFG, 15, 1⟩
def F.LMP_MATRIX_CFG_BLANK : Fld := ⟨R.LMP_MATRIX_CFG, 16, 6⟩
def F.LMP_MATRIX_CFG_COL_CURRENT : Fld := ⟨R.LMP_MATRIX_CFG, 24, 8⟩
def F.LMP_DETECT_COUNT : Fld := ⟨R.LMP_DETECT, 0, 8⟩
def F.LMP_DETECT_TEST_PERIOD : Fld := ⟨R.LMP_DETECT, 16, 16⟩
def F.LMP_FADE_TIME : Fld := ⟨R.LMP_FADE, 0, 16⟩
def F.LMP_BEACON_BIND_GROUPS : Fld := ⟨R.LMP_BEACON_BIND, 0, 8⟩
def F.LMP_GROUP_STATUS_FAILED : Fld := ⟨R.LMP_GROUP_STATUS, 0, 8⟩
def F.LMP_GROUP_STATUS_EMPTY : Fld := ⟨R.LMP_GROUP_STATUS, 8, 8⟩
def F.LMP_LAST_FAULT_LAMP : Fld := ⟨R.LMP_LAST_FAULT, 0, 8⟩
def F.LMP_LAST_FAULT_KIND : Fld := ⟨R.LMP_LAST_FAULT, 8, 1⟩
def F.LMP_PAT_CTRL_EN (k : Nat) : Fld := ⟨R.LMP_PAT_CTRL k, 0, 1⟩
def F.LMP_PAT_CTRL_SHAPE (k : Nat) : Fld := ⟨R.LMP_PAT_CTRL k, 1, 2⟩
def F.LMP_PAT_CTRL_PERIOD (k : Nat) : Fld := ⟨R.LMP_PAT_CTRL k, 8, 16⟩
def F.LMP_PAT_LEVELS_LOW (k : Nat) : Fld := ⟨R.LMP_PAT_LEVELS k, 0, 16⟩
def F.LMP_PAT_LEVELS_HIGH (k : Nat) : Fld := ⟨R.LMP_PAT_LEVELS k, 16, 16⟩
def F.LMP_PAT_CHASE_STEP (k : Nat) : Fld := ⟨R.LMP_PAT_CHASE k, 0, 16⟩
def F.LMP_PAT_CHASE_WIDTH (k : Nat) : Fld := ⟨R.LMP_PAT_CHASE k, 16, 8⟩
def F.LMP_LAMP_LEVEL (i : Nat) : Fld := ⟨R.LMP_LAMP i, 0, 16⟩
def F.LMP_LAMP_SRC (i : Nat) : Fld := ⟨R.LMP_LAMP i, 16, 3⟩
def F.LMP_LAMP_GROUP (i : Nat) : Fld := ⟨R.LMP_LAMP i, 20, 4⟩
def F.LMP_LAMP_MONITOR (i : Nat) : Fld := ⟨R.LMP_LAMP i, 24, 1⟩
def F.EVC_STATUS_PENDING : Fld := ⟨R.EVC_STATUS, 0, 10⟩
def F.EVC_VEC_FIRST (v : Nat) : Fld := ⟨R.EVC_VEC v, 0, 9⟩
def F.EVC_VEC_ANY (v : Nat) : Fld := ⟨R.EVC_VEC v, 15, 1⟩
def F.EVC_VEC_COUNT (v : Nat) : Fld := ⟨R.EVC_VEC v, 16, 10⟩
def F.EVC_SRC_VECTOR (n : Nat) : Fld := ⟨R.EVC_SRC n, 0, 6⟩
def F.EVC_SRC_ROUTE (n : Nat) : Fld := ⟨R.EVC_SRC n, 6, 2⟩
def F.EVC_SRC_RECORD (n : Nat) : Fld := ⟨R.EVC_SRC n, 8, 1⟩
def F.EVC_SRC_FREEZE (n : Nat) : Fld := ⟨R.EVC_SRC n, 9, 1⟩
def F.EVC_SRC_ALWAYS (n : Nat) : Fld := ⟨R.EVC_SRC n, 10, 1⟩
def F.EVC_INFO_RAISES (n : Nat) : Fld := ⟨R.EVC_INFO n, 0, 16⟩
def F.DGN_CFG_SNAP_IN_EN : Fld := ⟨R.DGN_CFG, 0, 1⟩
def F.DGN_CFG_SNAP_IN_FALL : Fld := ⟨R.DGN_CFG, 1, 1⟩
def F.DGN_CFG_SNAP_IN_FILTER : Fld := ⟨R.DGN_CFG, 8, 8⟩
def F.DGN_STATUS_HELD : Fld := ⟨R.DGN_STATUS, 0, 1⟩
def F.DGN_STATUS_TRIGGER : Fld := ⟨R.DGN_STATUS, 1, 2⟩
def F.DGN_STATUS_SAVING : Fld := ⟨R.DGN_STATUS, 3, 1⟩
def F.DGN_STATUS_SOURCE : Fld := ⟨R.DGN_STATUS, 16, 9⟩
def F.DGN_FLAGS_MISSED : Fld := ⟨R.DGN_FLAGS, 0, 1⟩
def F.DGN_FLAGS_SAVE_FAILED : Fld := ⟨R.DGN_FLAGS, 1, 1⟩
def F.DGN_FLAGS_LIFETIME_RESTORED : Fld := ⟨R.DGN_FLAGS, 2, 1⟩
def F.DGN_FLAGS_TRACE_DROP : Fld := ⟨R.DGN_FLAGS, 3, 1⟩
def F.DGN_FLAGS_CFG_REFUSED : Fld := ⟨R.DGN_FLAGS, 4, 1⟩
def F.DGN_CMD_FREEZE : Fld := ⟨R.DGN_CMD, 0, 1⟩
def F.DGN_CMD_RELEASE : Fld := ⟨R.DGN_CMD, 1, 1⟩
def F.DGN_CMD_SAVE : Fld := ⟨R.DGN_CMD, 2, 1⟩
def F.DGN_TRACE_CFG_EN (c : Nat) : Fld := ⟨R.DGN_TRACE_CFG c, 0, 1⟩
def F.DGN_TRACE_CFG_DECIM (c : Nat) : Fld := ⟨R.DGN_TRACE_CFG c, 4, 12⟩
def F.DGN_TRACE_CFG_FLUSH_MS (c : Nat) : Fld := ⟨R.DGN_TRACE_CFG c, 16, 16⟩
def F.ERW_STATUS_READY : Fld := ⟨R.ERW_STATUS, 0, 1⟩
def F.ERW_STATUS_VALID : Fld := ⟨R.ERW_STATUS, 1, 1⟩
def F.ERW_STATUS_SEALED : Fld := ⟨R.ERW_STATUS, 2, 1⟩
def F.ERW_STATUS_FULL : Fld := ⟨R.ERW_STATUS, 3, 1⟩
def F.ERW_STATUS_STAGED : Fld := ⟨R.ERW_STATUS, 16, 10⟩
def F.ERW_CFG_AUTO_ADV : Fld := ⟨R.ERW_CFG, 0, 1⟩
def F.BOOT_STATUS_PHASE : Fld := ⟨R.BOOT_STATUS, 0, 3⟩
def F.BOOT_STATUS_RECOVERY_CAUSE : Fld := ⟨R.BOOT_STATUS, 4, 4⟩
def F.BOOT_STATUS_COPY_RESUMED : Fld := ⟨R.BOOT_STATUS, 8, 1⟩
def F.BOOT_STATUS_BOOT_TRIES : Fld := ⟨R.BOOT_STATUS, 16, 4⟩
def F.BOOT_STATUS_IMG_FMT_MAX : Fld := ⟨R.BOOT_STATUS, 24, 4⟩
def F.BOOT_FLAGS_FALLBACK : Fld := ⟨R.BOOT_FLAGS, 0, 1⟩
def F.BOOT_FLAGS_MIGRATED : Fld := ⟨R.BOOT_FLAGS, 1, 1⟩
def F.BOOT_FLAGS_MIGRATE_FAILED : Fld := ⟨R.BOOT_FLAGS, 2, 1⟩
def F.BOOT_FLAGS_CFG_REFUSED : Fld := ⟨R.BOOT_FLAGS, 3, 1⟩
def F.BOOT_TRIAL_CFG_TRIES : Fld := ⟨R.BOOT_TRIAL_CFG, 0, 4⟩
def F.BOOT_TRIAL_CFG_READY_TIMEOUT : Fld := ⟨R.BOOT_TRIAL_CFG, 16, 16⟩
def F.BOOT_IMG_SEL_TYPE : Fld := ⟨R.BOOT_IMG_SEL, 0, 8⟩
def F.BOOT_IMG_SEL_SLOT : Fld := ⟨R.BOOT_IMG_SEL, 8, 1⟩
def F.BOOT_IMG_INFO_VERSION : Fld := ⟨R.BOOT_IMG_INFO, 0, 32⟩
def F.BOOT_IMG_INFO_STATE : Fld := ⟨R.BOOT_IMG_INFO + 4, 0, 3⟩
def F.BOOT_IMG_INFO_EVALUATED : Fld := ⟨R.BOOT_IMG_INFO + 4, 3, 1⟩
def F.BOOT_IMG_INFO_ROLLBACK : Fld := ⟨R.BOOT_IMG_INFO + 4, 8, 24⟩
def F.BOOT_SETTINGS_VERSION : Fld := ⟨R.BOOT_SETTINGS, 0, 16⟩
def F.BOOT_SETTINGS_MIN : Fld := ⟨R.BOOT_SETTINGS, 16, 16⟩
def F.BOOT_SETTINGS_MAX : Fld := ⟨R.BOOT_SETTINGS + 4, 0, 16⟩
def F.BOOT_SETTINGS_OLD_KEPT : Fld := ⟨R.BOOT_SETTINGS + 4, 16, 1⟩
def F.BOOT_RCV_CMD_LOAD : Fld := ⟨R.BOOT_RCV_CMD, 0, 1⟩
def F.BOOT_RCV_CMD_REBOOT : Fld := ⟨R.BOOT_RCV_CMD, 1, 1⟩
def F.BOOT_RCV_STATUS_RESULT : Fld := ⟨R.BOOT_RCV_STATUS, 0, 4⟩
def F.BOOT_RCV_STATUS_TYPE : Fld := ⟨R.BOOT_RCV_STATUS, 8, 8⟩
def F.GLB_ID_PART : Fld := ⟨R.GLB_ID, 16, 16⟩
def F.GLB_ID_REV : Fld := ⟨R.GLB_ID, 8, 8⟩
def F.FBK_STATUS_FAULT : Fld := ⟨R.FBK_STATUS, 0, 8⟩
def F.FBK_STATUS_ENABLED : Fld := ⟨R.FBK_STATUS, 8, 8⟩
def F.AXS_STATUS_MOVING : Fld := ⟨R.AXS_STATUS, 0, 8⟩
def F.AXS_STATUS_FAULT : Fld := ⟨R.AXS_STATUS, 8, 8⟩
def F.AXS_STATUS_PAUSED : Fld := ⟨R.AXS_STATUS, 16, 8⟩
def F.AXS_CMD_STOP_ALL : Fld := ⟨R.AXS_CMD, 0, 1⟩
def F.HIF_MSIX_CTRL_MASK (v : Nat) : Fld := ⟨R.HIF_MSIX_CTRL v, 0, 1⟩

/-- One register of a block's map: its offset in the block, up to two array dimensions (count and stride), whether
it is 64 bits wide, its reset value, the bits each access code owns (R5) and its world (0 NS, 1 S, 2 BWT; R9).
Bits in none of the four masks are RO, WO or reserved. -/
structure RegRow where
  off : Nat
  n1 : Nat
  s1 : Nat
  n2 : Nat
  s2 : Nat
  wide : Bool
  reset : Nat
  rw : Nat
  w1c : Nat
  rc : Nat
  rws : Nat
  world : Nat
  deriving DecidableEq, Repr

def yrdRows0 : List RegRow := [
  ⟨0x0, 1, 0x0, 1, 0x0, false, 0x0, 0x3F, 0x0, 0x0, 0x0, 2⟩,
  ⟨0x4, 1, 0x0, 1, 0x0, false, 0x1, 0x3, 0x0, 0x0, 0x0, 2⟩,
  ⟨0x8, 1, 0x0, 1, 0x0, false, 0x0, 0x0, 0x7, 0x0, 0x0, 2⟩,
  ⟨0x10, 1, 0x0, 1, 0x0, true, 0x0, 0xFFFFFFFFFFFF, 0x0, 0x0, 0x0, 2⟩,
  ⟨0x18, 1, 0x0, 1, 0x0, false, 0x0, 0x0, 0x0, 0x0, 0x0, 2⟩,
  ⟨0x40, 12, 0x4, 1, 0x0, false, 0x83828180, 0xBFBFBFBF, 0x0, 0x0, 0x0, 2⟩,
  ⟨0x80, 6, 0x4, 1, 0x0, false, 0x0, 0x0, 0x0, 0x0, 0x0, 2⟩,
  ⟨0x100, 1, 0x0, 1, 0x0, false, 0x0, 0xFF, 0x0, 0x0, 0x0, 2⟩,
  ⟨0x104, 1, 0x0, 1, 0x0, false, 0x0, 0x0, 0x0, 0x0, 0x0, 2⟩,
  ⟨0x108, 1, 0x0, 1, 0x0, false, 0x0, 0x0, 0x6, 0x0, 0x0, 2⟩,
  ⟨0x110, 1, 0x0, 1, 0x0, false, 0x0, 0xFFFFFF, 0x0, 0x0, 0x0, 2⟩,
  ⟨0x114, 1, 0x0, 1, 0x0, false, 0x0, 0x0, 0x2, 0x0, 0x0, 2⟩,
  ⟨0x118, 1, 0x0, 1, 0x0, false, 0x0, 0x0, 0x0, 0x0, 0x0, 2⟩,
  ⟨0x200, 1, 0x0, 1, 0x0, false, 0x10000, 0x0, 0x0, 0x0, 0x0, 2⟩,
  ⟨0x204, 1, 0x0, 1, 0x0, false, 0x0, 0x0, 0x7, 0x0, 0x0, 2⟩,
  ⟨0x208, 1, 0x0, 1, 0x0, false, 0x0, 0x0, 0x0, 0x0, 0x0, 2⟩,
  ⟨0x20C, 1, 0x0, 1, 0x0, false, 0x0, 0x1, 0x0, 0x0, 0x0, 2⟩,
  ⟨0x210, 1, 0x0, 1, 0x0, false, 0x0, 0x1, 0x0, 0x0, 0x0, 1⟩,
  ⟨0x214, 1, 0x0, 1, 0x0, false, 0xA, 0x0, 0x0, 0x0, 0x3FF, 2⟩,
  ⟨0x218, 1, 0x0, 1, 0x0, false, 0x4, 0x0, 0x0, 0x0, 0x7, 2⟩,
  ⟨0x220, 1, 0x0, 1, 0x0, true, 0x0, 0x0, 0x0, 0x0, 0x0, 2⟩,
  ⟨0x228, 1, 0x0, 1, 0x0, false, 0x0, 0x0, 0x0, 0xFFFFFFFF, 0x0, 2⟩,
  ⟨0x800, 1, 0x0, 1, 0x0, false, 0x11, 0x31, 0x0, 0x0, 0x0, 2⟩,
  ⟨0x804, 1, 0x0, 1, 0x0, false, 0x2710, 0x1FFFF, 0x0, 0x0, 0x0, 2⟩]

def yrdRows1 : List RegRow := [
  ⟨0x808, 1, 0x0, 1, 0x0, false, 0x0, 0xFFFFFFFF, 0x0, 0x0, 0x0, 2⟩,
  ⟨0x80C, 1, 0x0, 1, 0x0, false, 0x4000, 0xFFFFFFFF, 0x0, 0x0, 0x0, 2⟩,
  ⟨0x810, 1, 0x0, 1, 0x0, false, 0x80100, 0xFF0FFF, 0x0, 0x0, 0x0, 2⟩,
  ⟨0x814, 1, 0x0, 1, 0x0, false, 0x100, 0x1FF, 0x0, 0x0, 0x0, 2⟩,
  ⟨0x818, 1, 0x0, 1, 0x0, false, 0x0, 0x0, 0x0, 0x0, 0x0, 2⟩,
  ⟨0x81C, 1, 0x0, 1, 0x0, false, 0x0, 0x0, 0xFF, 0x0, 0x0, 2⟩,
  ⟨0x820, 1, 0x0, 1, 0x0, true, 0x0, 0x0, 0x0, 0x0, 0x0, 2⟩,
  ⟨0x828, 1, 0x0, 1, 0x0, false, 0x0, 0x0, 0x0, 0x0, 0x0, 2⟩,
  ⟨0x82C, 1, 0x0, 1, 0x0, false, 0x0, 0xFF, 0x0, 0x0, 0x0, 2⟩,
  ⟨0x830, 1, 0x0, 1, 0x0, true, 0x0, 0x0, 0x0, 0x0, 0x0, 2⟩,
  ⟨0x838, 1, 0x0, 1, 0x0, false, 0x0, 0x0, 0x0, 0x0, 0x0, 2⟩,
  ⟨0x840, 1, 0x0, 1, 0x0, true, 0x0, 0x0, 0x0, 0x0, 0x0, 2⟩,
  ⟨0x848, 1, 0x0, 1, 0x0, true, 0x0, 0x0, 0x0, 0x0, 0x0, 2⟩,
  ⟨0x850, 1, 0x0, 1, 0x0, false, 0x0, 0x0, 0x0, 0xFFFFFFFF, 0x0, 2⟩,
  ⟨0x854, 1, 0x0, 1, 0x0, false, 0x0, 0x0, 0x0, 0xFFFFFFFF, 0x0, 2⟩,
  ⟨0x900, 48, 0x4, 1, 0x0, false, 0x0, 0x0, 0x0, 0x0, 0x0, 2⟩,
  ⟨0xC00, 48, 0x10, 1, 0x0, false, 0x0, 0x0, 0x0, 0x0, 0xFFFF, 2⟩,
  ⟨0xC04, 48, 0x10, 1, 0x0, false, 0x0, 0x0, 0x0, 0x0, 0xFFFFFFFF, 2⟩,
  ⟨0xC08, 48, 0x10, 1, 0x0, false, 0x0, 0x0, 0x0, 0x0, 0x1FFFF, 2⟩]

/-- The register rows of block YRD. -/
def yrdRows : List RegRow := yrdRows0 ++ yrdRows1

def hifRows0 : List RegRow := [
  ⟨0x0, 1, 0x0, 1, 0x0, false, 0x0, 0x0, 0x0, 0x0, 0x0, 2⟩,
  ⟨0x8, 1, 0x0, 1, 0x0, false, 0x0, 0xF, 0x0, 0x0, 0x0, 2⟩,
  ⟨0xC, 1, 0x0, 1, 0x0, false, 0x1100, 0x0, 0x0, 0x0, 0x0, 2⟩,
  ⟨0x10, 1, 0x0, 1, 0x0, false, 0x0, 0x0, 0x0, 0x0, 0x0, 2⟩,
  ⟨0x14, 1, 0x0, 1, 0x0, false, 0x0, 0x0, 0x0, 0x0, 0x0, 2⟩,
  ⟨0x18, 1, 0x0, 1, 0x0, false, 0x0, 0x0, 0x0, 0x0, 0x0, 2⟩,
  ⟨0x1C, 1, 0x0, 1, 0x0, false, 0x0, 0x0, 0x3F, 0x0, 0x0, 2⟩,
  ⟨0x20, 1, 0x0, 1, 0x0, false, 0x0, 0x0, 0x0, 0x0, 0x0, 2⟩,
  ⟨0x24, 1, 0x0, 1, 0x0, false, 0x2710, 0xFFFFF, 0x0, 0x0, 0x0, 2⟩,
  ⟨0x30, 1, 0x0, 1, 0x0, true, 0x0, 0x0, 0x0, 0x0, 0x0, 2⟩,
  ⟨0x38, 1, 0x0, 1, 0x0, false, 0x0, 0x0, 0x0, 0x0, 0x0, 2⟩,
  ⟨0x100, 16, 0x4, 1, 0x0, false, 0x0, 0xFFFFFFFF, 0x0, 0x0, 0x0, 0⟩,
  ⟨0x140, 16, 0x4, 1, 0x0, false, 0x0, 0x0, 0x0, 0x0, 0x0, 0⟩,
  ⟨0x180, 1, 0x0, 1, 0x0, false, 0x0, 0x0, 0x0, 0x0, 0x0, 0⟩,
  ⟨0x184, 1, 0x0, 1, 0x0, false, 0x0, 0x0, 0x6, 0x0, 0x0, 0⟩,
  ⟨0x1000, 256, 0x40, 1, 0x0, false, 0x4000, 0x3FFFFF, 0x0, 0x0, 0x0, 2⟩,
  ⟨0x1004, 256, 0x40, 1, 0x0, false, 0x0, 0x0, 0x0, 0x0, 0x0, 2⟩,
  ⟨0x1008, 256, 0x40, 1, 0x0, true, 0x0, 0xFFFFFFFFFFFFFFFF, 0x0, 0x0, 0x0, 2⟩,
  ⟨0x1010, 256, 0x40, 1, 0x0, true, 0x0, 0xFFFFFFFFFFFFFFFF, 0x0, 0x0, 0x0, 2⟩,
  ⟨0x1018, 256, 0x40, 1, 0x0, false, 0x0, 0x0, 0x0, 0x0, 0x0, 2⟩,
  ⟨0x101C, 256, 0x40, 1, 0x0, false, 0x0, 0x0, 0x0, 0x0, 0x0, 2⟩,
  ⟨0x1020, 256, 0x40, 1, 0x0, false, 0x0, 0x0, 0x0, 0x0, 0x0, 2⟩,
  ⟨0x1024, 256, 0x40, 1, 0x0, false, 0x0, 0x0, 0x0, 0x0, 0x0, 2⟩,
  ⟨0x1028, 256, 0x40, 1, 0x0, false, 0xFFFFFFFF, 0xFFFFFFFF, 0x0, 0x0, 0x0, 2⟩]

def hifRows1 : List RegRow := [
  ⟨0x102C, 256, 0x40, 1, 0x0, false, 0x0, 0x3FFFF, 0x0, 0x0, 0x0, 2⟩,
  ⟨0x1030, 256, 0x40, 1, 0x0, true, 0x0, 0x0, 0x0, 0x0, 0x0, 2⟩,
  ⟨0x1038, 256, 0x40, 1, 0x0, false, 0x0, 0x0, 0x0, 0xFFFFFFFF, 0x0, 2⟩,
  ⟨0x8000, 64, 0x10, 1, 0x0, true, 0x0, 0xFFFFFFFFFFFFFFFF, 0x0, 0x0, 0x0, 0⟩,
  ⟨0x8008, 64, 0x10, 1, 0x0, false, 0x0, 0xFFFFFFFF, 0x0, 0x0, 0x0, 0⟩,
  ⟨0x800C, 64, 0x10, 1, 0x0, false, 0x1, 0x1, 0x0, 0x0, 0x0, 0⟩,
  ⟨0x9000, 1, 0x0, 1, 0x0, true, 0x0, 0x0, 0x0, 0x0, 0x0, 0⟩]

/-- The register rows of block HIF. -/
def hifRows : List RegRow := hifRows0 ++ hifRows1

def stallRows0 : List RegRow := [
  ⟨0x0, 1, 0x0, 1, 0x0, false, 0x4, 0x7, 0x0, 0x0, 0x0, 2⟩,
  ⟨0x4, 1, 0x0, 1, 0x0, false, 0x0, 0x0, 0x0, 0x0, 0x0, 2⟩,
  ⟨0x8, 1, 0x0, 1, 0x0, false, 0x0, 0x0, 0x0, 0x0, 0x0, 2⟩,
  ⟨0xC, 1, 0x0, 1, 0x0, false, 0x0, 0x0, 0x1F, 0x0, 0x0, 2⟩,
  ⟨0x10, 1, 0x0, 1, 0x0, true, 0x6000000000, 0xFFFFFFFFFFFFFFFF, 0x0, 0x0, 0x0, 2⟩,
  ⟨0x18, 1, 0x0, 1, 0x0, false, 0x0, 0x0, 0x0, 0x0, 0x0, 2⟩,
  ⟨0x1C, 1, 0x0, 1, 0x0, false, 0x0, 0x0, 0x0, 0x0, 0x0, 2⟩,
  ⟨0x20, 1, 0x0, 1, 0x0, false, 0x0, 0x0, 0x0, 0x0, 0x0, 2⟩,
  ⟨0x24, 1, 0x0, 1, 0x0, false, 0x5FFF0, 0x0, 0x0, 0x0, 0x0, 2⟩,
  ⟨0x28, 1, 0x0, 1, 0x0, false, 0x0, 0x0, 0x0, 0x0, 0x0, 2⟩,
  ⟨0x2C, 1, 0x0, 1, 0x0, false, 0x0, 0x0, 0x0, 0x0, 0x0, 2⟩,
  ⟨0x30, 1, 0x0, 1, 0x0, false, 0x3E828, 0xFFFFFF, 0x0, 0x0, 0x0, 2⟩,
  ⟨0x34, 1, 0x0, 1, 0x0, false, 0x0, 0x0, 0x0, 0x0, 0x0, 2⟩,
  ⟨0x38, 1, 0x0, 1, 0x0, false, 0x0, 0x0, 0x0, 0x0, 0x0, 2⟩,
  ⟨0x3C, 1, 0x0, 1, 0x0, false, 0x0, 0x0, 0x0, 0x0, 0x0, 2⟩,
  ⟨0x40, 1, 0x0, 1, 0x0, false, 0x0, 0x0, 0x0, 0x0, 0x0, 2⟩,
  ⟨0x44, 1, 0x0, 1, 0x0, false, 0x0, 0x0, 0x0, 0x0, 0x0, 2⟩,
  ⟨0x48, 1, 0x0, 1, 0x0, false, 0x0, 0x0, 0x0, 0x0, 0x0, 2⟩,
  ⟨0x50, 1, 0x0, 1, 0x0, true, 0x0, 0x0, 0x0, 0x0, 0x0, 2⟩,
  ⟨0x58, 1, 0x0, 1, 0x0, false, 0x0, 0x0, 0x0, 0x0, 0x0, 2⟩,
  ⟨0x5C, 1, 0x0, 1, 0x0, false, 0x0, 0x0, 0x0, 0xFFFFFFFF, 0x0, 2⟩,
  ⟨0x100, 1, 0x0, 1, 0x0, false, 0x0, 0x3, 0x0, 0x0, 0x0, 2⟩,
  ⟨0x104, 1, 0x0, 1, 0x0, false, 0x10000100, 0x1FFF07FF, 0x0, 0x0, 0x0, 2⟩,
  ⟨0x108, 1, 0x0, 1, 0x0, false, 0x400, 0x1FFF, 0x0, 0x0, 0x0, 2⟩]

def stallRows1 : List RegRow := [
  ⟨0x10C, 1, 0x0, 1, 0x0, false, 0x0, 0xFFFFFF, 0x0, 0x0, 0x0, 2⟩,
  ⟨0x110, 1, 0x0, 1, 0x0, false, 0x2710, 0xFFFFF, 0x0, 0x0, 0x0, 2⟩,
  ⟨0x114, 1, 0x0, 1, 0x0, false, 0x186A0, 0x3FFFFF, 0x0, 0x0, 0x0, 2⟩,
  ⟨0x118, 1, 0x0, 1, 0x0, false, 0x2710, 0xFFFFF, 0x0, 0x0, 0x0, 2⟩,
  ⟨0x11C, 1, 0x0, 1, 0x0, false, 0x186A0, 0x3FFFFF, 0x0, 0x0, 0x0, 2⟩,
  ⟨0x120, 1, 0x0, 1, 0x0, false, 0x4, 0xFFFF, 0x0, 0x0, 0x0, 2⟩,
  ⟨0x124, 1, 0x0, 1, 0x0, false, 0x6401F4, 0xFFFFFFFF, 0x0, 0x0, 0x0, 2⟩,
  ⟨0x128, 1, 0x0, 1, 0x0, false, 0xFFF80000, 0xFFFFFFFF, 0x0, 0x0, 0x0, 2⟩,
  ⟨0x12C, 1, 0x0, 1, 0x0, false, 0xFFF80000, 0xFFFFFFFF, 0x0, 0x0, 0x0, 2⟩,
  ⟨0x130, 1, 0x0, 1, 0x0, false, 0x4000, 0xFFFF, 0x0, 0x0, 0x0, 2⟩,
  ⟨0x134, 1, 0x0, 1, 0x0, false, 0x100, 0xF0F, 0x0, 0x0, 0x0, 2⟩,
  ⟨0x138, 1, 0x0, 1, 0x0, false, 0x0, 0xFFFFFFFF, 0x0, 0x0, 0x0, 2⟩,
  ⟨0x13C, 1, 0x0, 1, 0x0, false, 0x0, 0xFFFFFFFF, 0x0, 0x0, 0x0, 2⟩,
  ⟨0x140, 1, 0x0, 1, 0x0, false, 0x0, 0x0, 0x0, 0x0, 0x0, 2⟩,
  ⟨0x144, 1, 0x0, 1, 0x0, false, 0x0, 0x0, 0x0, 0x0, 0x0, 2⟩,
  ⟨0x148, 1, 0x0, 1, 0x0, false, 0x0, 0x0, 0x3F, 0x0, 0x0, 2⟩,
  ⟨0x14C, 1, 0x0, 1, 0x0, false, 0x0, 0x0, 0x0, 0x0, 0x0, 2⟩,
  ⟨0x150, 1, 0x0, 1, 0x0, true, 0x0, 0x0, 0x0, 0x0, 0x0, 2⟩,
  ⟨0x158, 1, 0x0, 1, 0x0, false, 0x0, 0x0, 0x0, 0xFFFFFFFF, 0x0, 2⟩,
  ⟨0x15C, 1, 0x0, 1, 0x0, false, 0x0, 0x0, 0x0, 0xFFFFFFFF, 0x0, 2⟩,
  ⟨0x160, 1, 0x0, 1, 0x0, true, 0x0, 0x0, 0x0, 0x0, 0x0, 2⟩,
  ⟨0x168, 1, 0x0, 1, 0x0, false, 0x0, 0x0, 0x0, 0xFFFFFFFF, 0x0, 2⟩,
  ⟨0x16C, 1, 0x0, 1, 0x0, false, 0x40004000, 0x0, 0x0, 0x0, 0x0, 2⟩,
  ⟨0x170, 1, 0x0, 1, 0x0, false, 0x0, 0x0, 0x0, 0x0, 0x0, 2⟩]

def stallRows2 : List RegRow := [
  ⟨0x174, 1, 0x0, 1, 0x0, false, 0x0, 0x0, 0x0, 0x0, 0x0, 2⟩,
  ⟨0x178, 1, 0x0, 1, 0x0, false, 0x0, 0x0, 0x0, 0x0, 0x0, 2⟩,
  ⟨0x17C, 1, 0x0, 1, 0x0, false, 0x0, 0x0, 0x0, 0x0, 0x0, 2⟩,
  ⟨0x200, 1, 0x0, 1, 0x0, false, 0x0, 0x3, 0x0, 0x0, 0x0, 2⟩,
  ⟨0x204, 1, 0x0, 1, 0x0, false, 0x0, 0xFFF, 0x0, 0x0, 0x0, 2⟩,
  ⟨0x208, 1, 0x0, 1, 0x0, false, 0x0, 0xFFFFFFFF, 0x0, 0x0, 0x0, 2⟩,
  ⟨0x20C, 1, 0x0, 1, 0x0, false, 0x0, 0xFFFFFFFF, 0x0, 0x0, 0x0, 2⟩,
  ⟨0x210, 1, 0x0, 1, 0x0, false, 0x0, 0xF, 0x0, 0x0, 0x0, 2⟩,
  ⟨0x214, 1, 0x0, 1, 0x0, false, 0x0, 0x0, 0x0, 0x0, 0x0, 2⟩,
  ⟨0x218, 1, 0x0, 1, 0x0, false, 0x0, 0x0, 0x7F, 0x0, 0x0, 2⟩,
  ⟨0x21C, 1, 0x0, 1, 0x0, false, 0x0, 0x0, 0x0, 0x0, 0x0, 2⟩,
  ⟨0x220, 1, 0x0, 1, 0x0, false, 0x0, 0x0, 0x0, 0x0, 0x0, 2⟩,
  ⟨0x224, 1, 0x0, 1, 0x0, false, 0x0, 0x0, 0x0, 0x0, 0x0, 2⟩,
  ⟨0x228, 1, 0x0, 1, 0x0, false, 0x0, 0x0, 0x0, 0xFFFFFFFF, 0x0, 2⟩,
  ⟨0x230, 1, 0x0, 1, 0x0, true, 0x0, 0x0, 0x0, 0x0, 0x0, 2⟩,
  ⟨0x238, 1, 0x0, 1, 0x0, true, 0x0, 0x0, 0x0, 0x0, 0x0, 2⟩,
  ⟨0x240, 1, 0x0, 1, 0x0, false, 0x0, 0x0, 0x0, 0xFFFFFFFF, 0x0, 2⟩]

/-- The register rows of block STALL. -/
def stallRows : List RegRow := stallRows0 ++ stallRows1 ++ stallRows2

def stbRows0 : List RegRow := [
  ⟨0x0, 1, 0x0, 1, 0x0, false, 0x40, 0x0, 0x0, 0x0, 0x0, 2⟩,
  ⟨0x4, 1, 0x0, 1, 0x0, false, 0x0, 0x0, 0x0, 0xFFFFFFFF, 0x0, 2⟩,
  ⟨0x10, 1, 0x0, 1, 0x0, false, 0x0, 0x1F, 0x0, 0x0, 0x0, 2⟩,
  ⟨0x14, 1, 0x0, 1, 0x0, false, 0x0, 0x0, 0x1, 0x0, 0x0, 2⟩,
  ⟨0x40, 16, 0x4, 1, 0x0, false, 0x0, 0xFFFFFFFF, 0x0, 0x0, 0x0, 2⟩,
  ⟨0x100, 1, 0x0, 1, 0x0, false, 0x0, 0x0, 0x0, 0x0, 0x0, 2⟩]

/-- The register rows of block STBW. -/
def stbRows : List RegRow := stbRows0

def cleRows0 : List RegRow := [
  ⟨0x0, 1, 0x0, 1, 0x0, false, 0x0, 0x0, 0x0, 0x0, 0x0, 2⟩,
  ⟨0x4, 1, 0x0, 1, 0x0, false, 0x0, 0x0, 0xF, 0x0, 0x0, 2⟩,
  ⟨0x8, 1, 0x0, 1, 0x0, false, 0x0, 0x0, 0x0, 0x0, 0x0, 2⟩,
  ⟨0xC, 1, 0x0, 1, 0x0, false, 0x0, 0x0, 0x0, 0x0, 0x0, 2⟩,
  ⟨0x10, 1, 0x0, 1, 0x0, false, 0x0, 0x0, 0x0, 0xFFFFFFFF, 0x0, 2⟩,
  ⟨0x14, 1, 0x0, 1, 0x0, false, 0x0, 0x0, 0x0, 0xFFFFFFFF, 0x0, 2⟩,
  ⟨0x100, 8, 0x40, 1, 0x0, false, 0xF0, 0x3FFFF, 0x0, 0x0, 0x0, 2⟩,
  ⟨0x104, 8, 0x40, 1, 0x0, false, 0x0, 0x1, 0x0, 0x0, 0x0, 2⟩,
  ⟨0x108, 8, 0x40, 1, 0x0, false, 0x53332CCD, 0xFFFFFFFF, 0x0, 0x0, 0x0, 2⟩,
  ⟨0x10C, 8, 0x40, 1, 0x0, false, 0x8000200, 0xFFFFFFFF, 0x0, 0x0, 0x0, 2⟩,
  ⟨0x110, 8, 0x40, 1, 0x0, false, 0x50002000, 0xFFFFFFFF, 0x0, 0x0, 0x0, 2⟩,
  ⟨0x114, 8, 0x40, 1, 0x0, false, 0x2000040, 0xFFF0FFF, 0x0, 0x0, 0x0, 2⟩,
  ⟨0x118, 8, 0x40, 1, 0x0, false, 0x1000, 0xFFFFFFF7, 0x0, 0x0, 0x0, 2⟩,
  ⟨0x11C, 8, 0x40, 1, 0x0, false, 0x0, 0xFFFFFF, 0x0, 0x0, 0x0, 2⟩,
  ⟨0x120, 8, 0x40, 1, 0x0, false, 0x40004000, 0x0, 0x0, 0x0, 0x0, 2⟩,
  ⟨0x124, 8, 0x40, 1, 0x0, false, 0x0, 0x0, 0x0, 0x0, 0x0, 2⟩,
  ⟨0x128, 8, 0x40, 1, 0x0, false, 0x0, 0x0, 0x0, 0x0, 0x0, 2⟩,
  ⟨0x12C, 8, 0x40, 1, 0x0, false, 0x0, 0x0, 0x0, 0x0, 0x0, 2⟩,
  ⟨0x130, 8, 0x40, 1, 0x0, false, 0x0, 0x0, 0x0, 0x0, 0x0, 2⟩,
  ⟨0x134, 8, 0x40, 1, 0x0, false, 0x0, 0x0, 0x0, 0x0, 0x0, 2⟩,
  ⟨0x138, 8, 0x40, 1, 0x0, false, 0x0, 0x0, 0x0, 0xFFFFFFFF, 0x0, 2⟩,
  ⟨0x13C, 8, 0x40, 1, 0x0, false, 0x0, 0x0, 0x0, 0xFFFFFFFF, 0x0, 2⟩,
  ⟨0x400, 8, 0x40, 1, 0x0, false, 0x7000, 0x0, 0x0, 0x0, 0x0, 2⟩,
  ⟨0x404, 8, 0x40, 1, 0x0, false, 0x8004000, 0xFFFFFFFF, 0x0, 0x0, 0x0, 2⟩]

def cleRows1 : List RegRow := [
  ⟨0x408, 8, 0x40, 1, 0x0, false, 0x4004000, 0xFFFFFFFF, 0x0, 0x0, 0x0, 2⟩,
  ⟨0x40C, 8, 0x40, 1, 0x0, false, 0x100, 0xFFFFFF, 0x0, 0x0, 0x0, 2⟩,
  ⟨0x410, 8, 0x40, 1, 0x0, false, 0x9C4, 0xFFFF, 0x0, 0x0, 0x0, 2⟩,
  ⟨0x414, 8, 0x40, 3, 0x4, false, 0x0, 0x0, 0x0, 0x0, 0x0, 2⟩,
  ⟨0x420, 8, 0x40, 3, 0x4, false, 0x0, 0x0, 0x0, 0x0, 0x0, 2⟩,
  ⟨0x42C, 8, 0x40, 1, 0x0, false, 0x0, 0x0, 0x3, 0x0, 0x0, 2⟩,
  ⟨0x430, 8, 0x40, 1, 0x0, false, 0x0, 0x0, 0x0, 0xFFFFFFFF, 0x0, 2⟩,
  ⟨0x434, 8, 0x40, 1, 0x0, false, 0x0, 0x0, 0x0, 0xFFFFFFFF, 0x0, 2⟩,
  ⟨0x438, 8, 0x40, 1, 0x0, false, 0x0, 0x0, 0x0, 0xFFFFFFFF, 0x0, 2⟩]

/-- The register rows of block CLE. -/
def cleRows : List RegRow := cleRows0 ++ cleRows1

def gteRows0 : List RegRow := [
  ⟨0x0, 1, 0x0, 1, 0x0, false, 0xA0064, 0xFFFFFFFF, 0x0, 0x0, 0x0, 2⟩,
  ⟨0x4, 1, 0x0, 1, 0x0, false, 0x0, 0x0, 0x0, 0x0, 0x0, 2⟩,
  ⟨0x8, 1, 0x0, 1, 0x0, false, 0x0, 0x0, 0x1F, 0x0, 0x0, 2⟩,
  ⟨0xC, 1, 0x0, 1, 0x0, false, 0x380, 0x7FF, 0x0, 0x0, 0x0, 2⟩,
  ⟨0x10, 1, 0x0, 1, 0x0, false, 0x0, 0x3F, 0x0, 0x0, 0x0, 2⟩,
  ⟨0x18, 1, 0x0, 1, 0x0, true, 0xFF000000, 0x0, 0x0, 0x0, 0x0, 2⟩,
  ⟨0x20, 1, 0x0, 1, 0x0, true, 0x0, 0x0, 0x0, 0x0, 0x0, 2⟩,
  ⟨0x28, 1, 0x0, 1, 0x0, true, 0x0, 0x0, 0x0, 0x0, 0x0, 2⟩,
  ⟨0x30, 1, 0x0, 1, 0x0, true, 0x0, 0x0, 0x0, 0x0, 0x0, 2⟩,
  ⟨0x38, 1, 0x0, 1, 0x0, true, 0x0, 0x0, 0x0, 0x0, 0x0, 2⟩,
  ⟨0x40, 1, 0x0, 1, 0x0, false, 0x0, 0x0, 0x0, 0xFFFFFFFF, 0x0, 2⟩,
  ⟨0x44, 1, 0x0, 1, 0x0, false, 0x0, 0x0, 0x0, 0xFFFFFFFF, 0x0, 2⟩,
  ⟨0x48, 1, 0x0, 1, 0x0, false, 0x0, 0x0, 0x0, 0xFFFFFFFF, 0x0, 2⟩,
  ⟨0x4C, 1, 0x0, 1, 0x0, false, 0x0, 0x0, 0x0, 0xFFFFFFFF, 0x0, 2⟩,
  ⟨0x50, 1, 0x0, 1, 0x0, false, 0x0, 0x0, 0x0, 0xFFFFFFFF, 0x0, 2⟩]

/-- The register rows of block GTE. -/
def gteRows : List RegRow := gteRows0

def fbkRows0 : List RegRow := [
  ⟨0x100, 8, 0x80, 1, 0x0, false, 0x0, 0x1F7F, 0x0, 0x0, 0x0, 2⟩,
  ⟨0x104, 8, 0x80, 1, 0x0, false, 0x100A0014, 0xFFFF03FF, 0x0, 0x0, 0x0, 2⟩,
  ⟨0x108, 8, 0x80, 1, 0x0, false, 0x0, 0xF, 0x0, 0x0, 0x0, 2⟩,
  ⟨0x10C, 8, 0x80, 1, 0x0, false, 0x1000, 0xFFFFFF, 0x0, 0x0, 0x0, 2⟩,
  ⟨0x110, 8, 0x80, 1, 0x0, false, 0x100004, 0xFFFFFFFF, 0x0, 0x0, 0x0, 2⟩,
  ⟨0x114, 8, 0x80, 1, 0x0, false, 0x41008064, 0x7FFFF3FF, 0x0, 0x0, 0x0, 2⟩,
  ⟨0x118, 8, 0x80, 1, 0x0, false, 0x4E20, 0xFFFFFF, 0x0, 0x0, 0x0, 2⟩,
  ⟨0x11C, 8, 0x80, 1, 0x0, false, 0xC200, 0xFFF7, 0x0, 0x0, 0x0, 2⟩,
  ⟨0x120, 8, 0x80, 1, 0x0, false, 0x6318, 0xFF3FFFF, 0x0, 0x0, 0x0, 2⟩,
  ⟨0x124, 8, 0x80, 1, 0x0, false, 0x3140FA, 0xFFFF3FF, 0x0, 0x0, 0x0, 2⟩,
  ⟨0x128, 8, 0x80, 1, 0x0, false, 0x1000, 0xFFFFFF, 0x0, 0x0, 0x0, 2⟩,
  ⟨0x12C, 8, 0x80, 1, 0x0, false, 0x0, 0xFFFFFFFF, 0x0, 0x0, 0x0, 2⟩,
  ⟨0x130, 8, 0x80, 1, 0x0, false, 0x0, 0x0, 0x0, 0x0, 0x0, 2⟩,
  ⟨0x134, 8, 0x80, 1, 0x0, false, 0x0, 0x0, 0x0, 0x0, 0x0, 2⟩,
  ⟨0x138, 8, 0x80, 1, 0x0, false, 0x0, 0x0, 0xFF, 0x0, 0x0, 2⟩,
  ⟨0x13C, 8, 0x80, 1, 0x0, false, 0x0, 0x0, 0x0, 0x0, 0x0, 2⟩,
  ⟨0x140, 8, 0x80, 1, 0x0, false, 0x0, 0x0, 0x0, 0x0, 0x0, 2⟩,
  ⟨0x144, 8, 0x80, 1, 0x0, false, 0x0, 0x0, 0x0, 0x0, 0x0, 2⟩,
  ⟨0x148, 8, 0x80, 1, 0x0, true, 0x0, 0x0, 0x0, 0x0, 0x0, 2⟩,
  ⟨0x150, 8, 0x80, 1, 0x0, false, 0x0, 0x0, 0x0, 0x0, 0x0, 2⟩,
  ⟨0x154, 8, 0x80, 1, 0x0, false, 0x0, 0x0, 0x0, 0x0, 0x0, 2⟩,
  ⟨0x158, 8, 0x80, 1, 0x0, true, 0x0, 0x0, 0x0, 0x0, 0x0, 2⟩,
  ⟨0x160, 8, 0x80, 1, 0x0, false, 0x0, 0x0, 0x0, 0x0, 0x0, 2⟩,
  ⟨0x164, 8, 0x80, 1, 0x0, false, 0x0, 0x0, 0x0, 0x0, 0x0, 2⟩]

def fbkRows1 : List RegRow := [
  ⟨0x168, 8, 0x80, 1, 0x0, false, 0x0, 0x0, 0x0, 0xFFFFFFFF, 0x0, 2⟩,
  ⟨0x16C, 8, 0x80, 1, 0x0, false, 0x0, 0x0, 0x0, 0xFFFFFFFF, 0x0, 2⟩,
  ⟨0x170, 8, 0x80, 1, 0x0, false, 0x0, 0x0, 0x0, 0xFFFFFFFF, 0x0, 2⟩,
  ⟨0x0, 1, 0x0, 1, 0x0, false, 0x0, 0x0, 0x0, 0x0, 0x0, 2⟩]

/-- The register rows of block FBK. -/
def fbkRows : List RegRow := fbkRows0 ++ fbkRows1

def axsRows0 : List RegRow := [
  ⟨0x100, 8, 0x80, 1, 0x0, false, 0x1000000, 0xFFF007F, 0x0, 0x0, 0x0, 2⟩,
  ⟨0x104, 8, 0x80, 1, 0x0, false, 0xC800C8, 0x3FF03FF, 0x0, 0x0, 0x0, 2⟩,
  ⟨0x108, 8, 0x80, 1, 0x0, false, 0x2710, 0xFFFFFFFF, 0x0, 0x0, 0x0, 2⟩,
  ⟨0x10C, 8, 0x80, 1, 0x0, false, 0x186A0, 0xFFFFFFFF, 0x0, 0x0, 0x0, 2⟩,
  ⟨0x110, 8, 0x80, 1, 0x0, false, 0xF4240, 0xFFFFFFFF, 0x0, 0x0, 0x0, 2⟩,
  ⟨0x114, 8, 0x80, 1, 0x0, false, 0x30D40, 0xFFFFFFFF, 0x0, 0x0, 0x0, 2⟩,
  ⟨0x118, 8, 0x80, 1, 0x0, false, 0x80000000, 0xFFFFFFFF, 0x0, 0x0, 0x0, 2⟩,
  ⟨0x11C, 8, 0x80, 1, 0x0, false, 0x7FFFFFFF, 0xFFFFFFFF, 0x0, 0x0, 0x0, 2⟩,
  ⟨0x120, 8, 0x80, 1, 0x0, false, 0x0, 0x0, 0x0, 0x0, 0x0, 2⟩,
  ⟨0x124, 8, 0x80, 1, 0x0, false, 0x0, 0x0, 0x0, 0x0, 0x0, 2⟩,
  ⟨0x128, 8, 0x80, 1, 0x0, false, 0x0, 0x0, 0x3F, 0x0, 0x0, 2⟩,
  ⟨0x12C, 8, 0x80, 1, 0x0, false, 0x0, 0x0, 0x0, 0x0, 0x0, 2⟩,
  ⟨0x130, 8, 0x80, 1, 0x0, false, 0x0, 0x0, 0x0, 0x0, 0x0, 2⟩,
  ⟨0x134, 8, 0x80, 1, 0x0, false, 0x0, 0x0, 0x0, 0x0, 0x0, 2⟩,
  ⟨0x138, 8, 0x80, 1, 0x0, false, 0x0, 0xFFFFFFFF, 0x0, 0x0, 0x0, 2⟩,
  ⟨0x13C, 8, 0x80, 1, 0x0, false, 0x404, 0xFFFFFF0F, 0x0, 0x0, 0x0, 2⟩,
  ⟨0x140, 8, 0x80, 1, 0x0, false, 0x40002000, 0xFFFFFFFF, 0x0, 0x0, 0x0, 2⟩,
  ⟨0x144, 8, 0x80, 1, 0x0, false, 0x3E8, 0xFFFFF, 0x0, 0x0, 0x0, 2⟩,
  ⟨0x148, 8, 0x80, 1, 0x0, false, 0x0, 0x0, 0x0, 0x0, 0x0, 2⟩,
  ⟨0x14C, 8, 0x80, 1, 0x0, false, 0x0, 0x0, 0x0, 0x0, 0x0, 2⟩,
  ⟨0x150, 8, 0x80, 1, 0x0, false, 0x10000, 0xFFFFFFFF, 0x0, 0x0, 0x0, 2⟩,
  ⟨0x154, 8, 0x80, 1, 0x0, false, 0x40, 0xFFFFFF, 0x0, 0x0, 0x0, 2⟩,
  ⟨0x158, 8, 0x80, 1, 0x0, false, 0x0, 0x0, 0x0, 0x0, 0x0, 2⟩,
  ⟨0x160, 8, 0x80, 1, 0x0, true, 0x0, 0x0, 0x0, 0x0, 0x0, 2⟩]

def axsRows1 : List RegRow := [
  ⟨0x168, 8, 0x80, 1, 0x0, false, 0x0, 0x0, 0x0, 0xFFFFFFFF, 0x0, 2⟩,
  ⟨0x0, 1, 0x0, 1, 0x0, false, 0x0, 0x0, 0x0, 0x0, 0x0, 2⟩,
  ⟨0x4, 1, 0x0, 1, 0x0, false, 0x0, 0x0, 0x0, 0x0, 0x0, 2⟩]

/-- The register rows of block AXS. -/
def axsRows : List RegRow := axsRows0 ++ axsRows1

def imgRows0 : List RegRow := [
  ⟨0x0, 1, 0x0, 1, 0x0, false, 0x0, 0x0, 0x0, 0x0, 0x0, 2⟩,
  ⟨0x100, 4, 0x40, 1, 0x0, false, 0xE400, 0x1FFF0F, 0x0, 0x0, 0x0, 2⟩,
  ⟨0x104, 4, 0x40, 1, 0x0, false, 0x0, 0x0, 0x0, 0x0, 0x0, 2⟩,
  ⟨0x108, 4, 0x40, 1, 0x0, false, 0x0, 0x0, 0x0, 0xFFFFFFFF, 0x0, 2⟩,
  ⟨0x10C, 4, 0x40, 1, 0x0, false, 0x0, 0x0, 0x0, 0xFFFFFFFF, 0x0, 2⟩,
  ⟨0x110, 4, 0x40, 1, 0x0, false, 0x6401, 0xFF03, 0x0, 0x0, 0x0, 2⟩,
  ⟨0x114, 4, 0x40, 1, 0x0, false, 0x0, 0x0, 0x0, 0x0, 0x0, 2⟩,
  ⟨0x118, 4, 0x40, 1, 0x0, false, 0x0, 0x0, 0x3F, 0x0, 0x0, 2⟩,
  ⟨0x400, 2, 0x40, 1, 0x0, false, 0x0, 0x1, 0x0, 0x0, 0x0, 2⟩,
  ⟨0x404, 2, 0x40, 1, 0x0, false, 0x1F, 0x0, 0x0, 0x0, 0x0, 2⟩,
  ⟨0x408, 2, 0x40, 1, 0x0, false, 0x0, 0x0, 0x0, 0xFFFFFFFF, 0x0, 2⟩,
  ⟨0x40C, 2, 0x40, 1, 0x0, false, 0x0, 0x0, 0x0, 0xFFFFFFFF, 0x0, 2⟩,
  ⟨0x410, 2, 0x40, 1, 0x0, false, 0x0, 0x0, 0x0, 0x0, 0x0, 2⟩,
  ⟨0x414, 2, 0x40, 1, 0x0, false, 0x0, 0x0, 0x0, 0x0, 0x0, 2⟩,
  ⟨0x1000, 16, 0x80, 1, 0x0, false, 0x380000, 0x7FFFFF, 0x0, 0x0, 0x0, 2⟩,
  ⟨0x1004, 16, 0x80, 1, 0x0, false, 0x0, 0x3FFF3FFF, 0x0, 0x0, 0x0, 2⟩,
  ⟨0x1008, 16, 0x80, 1, 0x0, false, 0x0, 0x3FFF3FFF, 0x0, 0x0, 0x0, 2⟩,
  ⟨0x100C, 16, 0x80, 1, 0x0, false, 0x0, 0xBFFF3FFF, 0x0, 0x0, 0x0, 2⟩,
  ⟨0x1010, 16, 0x80, 1, 0x0, false, 0x10000000, 0xFFFFFFFF, 0x0, 0x0, 0x0, 2⟩,
  ⟨0x1014, 16, 0x80, 1, 0x0, false, 0x2DC60D9B, 0xFFFFFFFF, 0x0, 0x0, 0x0, 2⟩,
  ⟨0x1018, 16, 0x80, 1, 0x0, false, 0x49F, 0xFFFF, 0x0, 0x0, 0x0, 2⟩,
  ⟨0x101C, 16, 0x80, 1, 0x0, false, 0x0, 0x1F13F3, 0x0, 0x0, 0x0, 2⟩,
  ⟨0x1020, 16, 0x80, 1, 0x0, false, 0x8000, 0xFFFF, 0x0, 0x0, 0x0, 2⟩,
  ⟨0x1024, 16, 0x80, 1, 0x0, false, 0x0, 0x3FFF3FFF, 0x0, 0x0, 0x0, 2⟩]

def imgRows1 : List RegRow := [
  ⟨0x1028, 16, 0x80, 1, 0x0, false, 0x0, 0x3FFF3FFF, 0x0, 0x0, 0x0, 2⟩,
  ⟨0x102C, 16, 0x80, 1, 0x0, false, 0xA640000, 0xFFFFFFFF, 0x0, 0x0, 0x0, 2⟩,
  ⟨0x1030, 16, 0x80, 1, 0x0, false, 0x0, 0x0, 0x0, 0x0, 0x0, 2⟩,
  ⟨0x1034, 16, 0x80, 1, 0x0, false, 0x0, 0x0, 0x0, 0x0, 0x0, 2⟩,
  ⟨0x1038, 16, 0x80, 1, 0x0, false, 0x0, 0x0, 0x0, 0x0, 0x0, 2⟩,
  ⟨0x103C, 16, 0x80, 1, 0x0, false, 0x0, 0x0, 0xFF, 0x0, 0x0, 2⟩,
  ⟨0x1040, 16, 0x80, 1, 0x0, true, 0x0, 0x0, 0x0, 0x0, 0x0, 2⟩,
  ⟨0x1048, 16, 0x80, 1, 0x0, true, 0x0, 0x0, 0x0, 0x0, 0x0, 2⟩,
  ⟨0x1050, 16, 0x80, 1, 0x0, true, 0x0, 0x0, 0x0, 0x0, 0x0, 2⟩,
  ⟨0x1058, 16, 0x80, 1, 0x0, false, 0x0, 0x0, 0x0, 0xFFFFFFFF, 0x0, 2⟩,
  ⟨0x105C, 16, 0x80, 1, 0x0, false, 0x0, 0x0, 0x0, 0xFFFFFFFF, 0x0, 2⟩,
  ⟨0x1060, 16, 0x80, 1, 0x0, false, 0x0, 0x0, 0x0, 0xFFFFFFFF, 0x0, 2⟩,
  ⟨0x1064, 16, 0x80, 1, 0x0, false, 0x0, 0x0, 0x0, 0x0, 0x0, 2⟩]

/-- The register rows of block IMG. -/
def imgRows : List RegRow := imgRows0 ++ imgRows1

def cmpRows0 : List RegRow := [
  ⟨0x0, 1, 0x0, 1, 0x0, false, 0x403, 0xF03, 0x0, 0x0, 0x0, 2⟩,
  ⟨0x4, 1, 0x0, 1, 0x0, false, 0x0, 0x0, 0x0, 0x0, 0x0, 2⟩,
  ⟨0x8, 1, 0x0, 1, 0x0, false, 0x0, 0x0, 0x7, 0x0, 0x0, 2⟩,
  ⟨0x100, 2, 0x40, 1, 0x0, false, 0x0, 0x0, 0x0, 0x0, 0x0, 2⟩,
  ⟨0x104, 2, 0x40, 1, 0x0, false, 0x0, 0x0, 0x0, 0x0, 0x0, 2⟩,
  ⟨0x108, 2, 0x40, 1, 0x0, true, 0x0, 0x0, 0x0, 0x0, 0x0, 2⟩,
  ⟨0x110, 2, 0x40, 1, 0x0, true, 0x0, 0x0, 0x0, 0x0, 0x0, 2⟩,
  ⟨0x118, 2, 0x40, 1, 0x0, false, 0x0, 0x0, 0x0, 0xFFFFFFFF, 0x0, 2⟩,
  ⟨0x11C, 2, 0x40, 1, 0x0, false, 0x0, 0x0, 0x0, 0xFFFFFFFF, 0x0, 2⟩,
  ⟨0x120, 2, 0x40, 1, 0x0, false, 0x0, 0x0, 0x0, 0xFFFFFFFF, 0x0, 2⟩,
  ⟨0x124, 2, 0x40, 1, 0x0, false, 0x0, 0x0, 0x0, 0xFFFFFFFF, 0x0, 2⟩,
  ⟨0x128, 2, 0x40, 1, 0x0, false, 0x0, 0x0, 0x0, 0x0, 0x0, 2⟩]

/-- The register rows of block CMP. -/
def cmpRows : List RegRow := cmpRows0

def lnkRows0 : List RegRow := [
  ⟨0x0, 1, 0x0, 1, 0x0, false, 0x3E80830, 0xFFFF0F37, 0x0, 0x0, 0x0, 2⟩,
  ⟨0x4, 1, 0x0, 1, 0x0, false, 0x1805, 0x7F0F, 0x0, 0x0, 0x0, 2⟩,
  ⟨0x8, 1, 0x0, 1, 0x0, false, 0x0, 0x0, 0x0, 0x0, 0x0, 2⟩,
  ⟨0xC, 1, 0x0, 1, 0x0, false, 0x0, 0x0, 0x0, 0x0, 0x0, 2⟩,
  ⟨0x10, 1, 0x0, 1, 0x0, false, 0x0, 0x0, 0x0, 0x0, 0x0, 2⟩,
  ⟨0x14, 1, 0x0, 1, 0x0, false, 0x0, 0x0, 0x0, 0x0, 0x0, 2⟩,
  ⟨0x18, 1, 0x0, 1, 0x0, false, 0x400010, 0xFFFFFFF, 0x0, 0x0, 0x0, 2⟩,
  ⟨0x1C, 1, 0x0, 1, 0x0, false, 0x400040, 0x7F, 0x0, 0x0, 0x0, 2⟩,
  ⟨0x20, 1, 0x0, 1, 0x0, false, 0x0, 0x0, 0x0, 0x0, 0x0, 2⟩,
  ⟨0x24, 1, 0x0, 1, 0x0, false, 0x0, 0x0, 0x7F, 0x0, 0x0, 2⟩,
  ⟨0x28, 1, 0x0, 1, 0x0, true, 0x0, 0x0, 0x0, 0x0, 0x0, 2⟩,
  ⟨0x30, 1, 0x0, 1, 0x0, false, 0x0, 0x0, 0x0, 0x0, 0x0, 2⟩,
  ⟨0x40, 5, 0x4, 1, 0x0, false, 0x0, 0xFF0000, 0x0, 0x0, 0x0, 2⟩,
  ⟨0x60, 1, 0x0, 1, 0x0, false, 0x0, 0x33, 0x0, 0x0, 0x0, 2⟩,
  ⟨0x68, 1, 0x0, 1, 0x0, true, 0x0, 0x0, 0x0, 0x0, 0x0, 2⟩,
  ⟨0x70, 1, 0x0, 1, 0x0, false, 0x0, 0x0, 0x0, 0x0, 0x0, 2⟩,
  ⟨0x74, 1, 0x0, 1, 0x0, false, 0x0, 0x0, 0x0, 0xFFFFFFFF, 0x0, 2⟩,
  ⟨0x78, 1, 0x0, 1, 0x0, false, 0x0, 0x0, 0x0, 0xFFFFFFFF, 0x0, 2⟩,
  ⟨0x7C, 1, 0x0, 1, 0x0, false, 0x0, 0x0, 0x0, 0xFFFFFFFF, 0x0, 2⟩,
  ⟨0x80, 1, 0x0, 1, 0x0, true, 0x0, 0x0, 0x0, 0x0, 0x0, 2⟩]

/-- The register rows of block LNK. -/
def lnkRows : List RegRow := lnkRows0

def dmcRows0 : List RegRow := [
  ⟨0x0, 1, 0x0, 1, 0x0, false, 0x0, 0x0, 0x0, 0x0, 0x0, 2⟩,
  ⟨0x4, 1, 0x0, 1, 0x0, false, 0x0, 0x0, 0x0, 0x0, 0x0, 2⟩,
  ⟨0x8, 1, 0x0, 1, 0x0, false, 0x3E81000, 0xFFFFFF01, 0x0, 0x0, 0x0, 2⟩,
  ⟨0xC, 1, 0x0, 1, 0x0, false, 0x0, 0x0, 0x0, 0x0, 0x0, 2⟩,
  ⟨0x10, 1, 0x0, 1, 0x0, false, 0x0, 0x0, 0x0, 0x0, 0x0, 2⟩,
  ⟨0x14, 1, 0x0, 1, 0x0, false, 0x0, 0x0, 0x1F, 0x0, 0x0, 2⟩,
  ⟨0x18, 1, 0x0, 1, 0x0, false, 0x180E10, 0xFFFFFFFF, 0x0, 0x0, 0x0, 2⟩,
  ⟨0x20, 2, 0x20, 8, 0x4, false, 0x0, 0xFFFFFFFF, 0x0, 0x0, 0x0, 2⟩,
  ⟨0x60, 1, 0x0, 1, 0x0, false, 0x0, 0xF, 0x0, 0x0, 0x0, 2⟩,
  ⟨0x64, 1, 0x0, 1, 0x0, false, 0x0, 0x0, 0x0, 0x0, 0x0, 2⟩,
  ⟨0x70, 8, 0x4, 1, 0x0, false, 0x0, 0x0, 0x0, 0x0, 0x0, 2⟩,
  ⟨0xA0, 1, 0x0, 1, 0x0, false, 0x0, 0x0, 0x0, 0xFFFFFFFF, 0x0, 2⟩,
  ⟨0xA4, 1, 0x0, 1, 0x0, false, 0x0, 0x0, 0x0, 0xFFFFFFFF, 0x0, 2⟩,
  ⟨0xA8, 1, 0x0, 1, 0x0, false, 0x0, 0x0, 0x0, 0xFFFFFFFF, 0x0, 2⟩,
  ⟨0xAC, 1, 0x0, 1, 0x0, false, 0x0, 0x0, 0x0, 0xFFFFFFFF, 0x0, 2⟩,
  ⟨0xB0, 1, 0x0, 1, 0x0, false, 0x0, 0x0, 0x0, 0xFFFFFFFF, 0x0, 2⟩,
  ⟨0xB4, 1, 0x0, 1, 0x0, false, 0x0, 0x0, 0x0, 0xFFFFFFFF, 0x0, 2⟩,
  ⟨0xB8, 1, 0x0, 1, 0x0, true, 0x0, 0x0, 0x0, 0x0, 0x0, 2⟩,
  ⟨0x100, 2, 0x40, 1, 0x0, false, 0x0, 0x0, 0x0, 0x0, 0x0, 2⟩,
  ⟨0x104, 2, 0x40, 1, 0x0, false, 0x0, 0x0, 0x0, 0x0, 0x0, 2⟩]

/-- The register rows of block DMC. -/
def dmcRows : List RegRow := dmcRows0

def cpmRows0 : List RegRow := [
  ⟨0x0, 1, 0x0, 1, 0x0, false, 0x34, 0x0, 0x0, 0x0, 0x0, 2⟩,
  ⟨0x4, 1, 0x0, 1, 0x0, false, 0x640177, 0xFFFF0177, 0x0, 0x0, 0x0, 2⟩,
  ⟨0x8, 1, 0x0, 1, 0x0, false, 0x64, 0xFFFF, 0x0, 0x0, 0x0, 2⟩,
  ⟨0xC, 1, 0x0, 1, 0x0, false, 0x3E8, 0xFFFF, 0x0, 0x0, 0x0, 2⟩,
  ⟨0x10, 1, 0x0, 1, 0x0, false, 0x0, 0xFFFFFFFF, 0x0, 0x0, 0x0, 2⟩,
  ⟨0x14, 1, 0x0, 1, 0x0, false, 0x190, 0xFFFF, 0x0, 0x0, 0x0, 2⟩,
  ⟨0x18, 1, 0x0, 1, 0x0, false, 0x0, 0x0, 0x0, 0x0, 0x0, 2⟩,
  ⟨0x1C, 1, 0x0, 1, 0x0, false, 0x0, 0x0, 0x1FF, 0x0, 0x0, 2⟩,
  ⟨0x20, 1, 0x0, 1, 0x0, false, 0x0, 0x0, 0x0, 0x0, 0x0, 2⟩,
  ⟨0x24, 1, 0x0, 1, 0x0, false, 0x400, 0xFFFF, 0x0, 0x0, 0x0, 2⟩,
  ⟨0x28, 1, 0x0, 1, 0x0, false, 0xFFF0F3F, 0x0, 0x0, 0x0, 0x0, 2⟩,
  ⟨0x30, 1, 0x0, 1, 0x0, true, 0xFFFFFFFFFFFF, 0x0, 0x0, 0x0, 0x0, 2⟩,
  ⟨0x38, 1, 0x0, 1, 0x0, false, 0x0, 0x0, 0x0, 0x0, 0x0, 2⟩,
  ⟨0x3C, 1, 0x0, 1, 0x0, false, 0x0, 0x0, 0x0, 0xFFFFFFFF, 0x0, 2⟩,
  ⟨0x40, 1, 0x0, 1, 0x0, true, 0x0, 0x0, 0x0, 0x0, 0x0, 2⟩,
  ⟨0x48, 1, 0x0, 1, 0x0, false, 0x0, 0x0, 0x0, 0x0, 0x0, 2⟩]

/-- The register rows of block CPM. -/
def cpmRows : List RegRow := cpmRows0

def thmRows0 : List RegRow := [
  ⟨0x0, 7, 0x4, 1, 0x0, false, 0x0, 0x0, 0x0, 0x0, 0x0, 2⟩,
  ⟨0x20, 1, 0x0, 1, 0x0, false, 0x0, 0x0, 0x0, 0x0, 0x0, 2⟩,
  ⟨0x24, 1, 0x0, 1, 0x0, false, 0x40000000, 0x0, 0x0, 0x0, 0x0, 2⟩,
  ⟨0x28, 1, 0x0, 1, 0x0, false, 0x64005F0, 0xFFFFFFFF, 0x0, 0x0, 0x0, 2⟩,
  ⟨0x2C, 1, 0x0, 1, 0x0, false, 0x2006E0, 0x0, 0x0, 0x0, 0xFFFFFF, 2⟩,
  ⟨0x30, 1, 0x0, 1, 0x0, false, 0x10050, 0x3FFFF, 0x0, 0x0, 0x0, 2⟩,
  ⟨0x34, 1, 0x0, 1, 0x0, false, 0x2000, 0xFFFF, 0x0, 0x0, 0x0, 2⟩,
  ⟨0x38, 1, 0x0, 1, 0x0, false, 0x80, 0xFFFF, 0x0, 0x0, 0x0, 2⟩,
  ⟨0x3C, 1, 0x0, 1, 0x0, false, 0x0, 0x0, 0x3F, 0x0, 0x0, 2⟩,
  ⟨0x40, 1, 0x0, 1, 0x0, false, 0x0, 0x0, 0x0, 0x0, 0x0, 2⟩,
  ⟨0x44, 1, 0x0, 1, 0x0, false, 0x0, 0x0, 0x0, 0xFFFF, 0x0, 2⟩,
  ⟨0x48, 1, 0x0, 1, 0x0, true, 0x0, 0x0, 0x0, 0x0, 0x0, 2⟩]

/-- The register rows of block THM. -/
def thmRows : List RegRow := thmRows0

def tmsRows0 : List RegRow := [
  ⟨0x0, 1, 0x0, 1, 0x0, false, 0x30, 0x0, 0x0, 0x0, 0x0, 2⟩,
  ⟨0x4, 1, 0x0, 1, 0x0, false, 0x1808000, 0x1FFFFFF, 0x0, 0x0, 0x0, 2⟩,
  ⟨0x8, 1, 0x0, 1, 0x0, false, 0x100080, 0xFFFFFFFF, 0x0, 0x0, 0x0, 2⟩,
  ⟨0xC, 1, 0x0, 1, 0x0, false, 0x640064, 0xFFFFFFFF, 0x0, 0x0, 0x0, 2⟩,
  ⟨0x10, 1, 0x0, 1, 0x0, false, 0x3E8, 0xFFFFFFFF, 0x0, 0x0, 0x0, 2⟩,
  ⟨0x14, 1, 0x0, 1, 0x0, false, 0x3C0003, 0xFFFF000F, 0x0, 0x0, 0x0, 2⟩,
  ⟨0x18, 1, 0x0, 1, 0x0, true, 0x0, 0x0, 0x0, 0x0, 0x0, 2⟩,
  ⟨0x20, 1, 0x0, 1, 0x0, true, 0x0, 0x0, 0x0, 0x0, 0x0, 2⟩,
  ⟨0x28, 1, 0x0, 1, 0x0, true, 0x0, 0x0, 0x0, 0x0, 0x0, 2⟩,
  ⟨0x30, 1, 0x0, 1, 0x0, false, 0x0, 0x0, 0x0, 0x0, 0x0, 2⟩,
  ⟨0x34, 1, 0x0, 1, 0x0, false, 0x0, 0x0, 0x0, 0x0, 0x0, 2⟩,
  ⟨0x38, 1, 0x0, 1, 0x0, true, 0x0, 0x0, 0x0, 0x0, 0x0, 2⟩,
  ⟨0x40, 1, 0x0, 1, 0x0, true, 0x0, 0xFFFFFFFFFFFFFFFF, 0x0, 0x0, 0x0, 2⟩,
  ⟨0x48, 1, 0x0, 1, 0x0, false, 0x0, 0x0, 0x0, 0x0, 0x0, 2⟩,
  ⟨0x4C, 1, 0x0, 1, 0x0, false, 0x0, 0x0, 0x0, 0x0, 0x0, 2⟩,
  ⟨0x50, 1, 0x0, 1, 0x0, false, 0x0, 0x0, 0x1F, 0x0, 0x0, 2⟩,
  ⟨0x54, 1, 0x0, 1, 0x0, false, 0x6400, 0xFF0F, 0x0, 0x0, 0x0, 2⟩,
  ⟨0x100, 2, 0x40, 1, 0x0, false, 0xFFC00, 0xFFF3F, 0x0, 0x0, 0x0, 2⟩,
  ⟨0x104, 2, 0x40, 1, 0x0, false, 0x0, 0x0, 0x0, 0x0, 0x0, 2⟩,
  ⟨0x108, 2, 0x40, 1, 0x0, false, 0x0, 0xFFFF, 0x0, 0x0, 0x0, 2⟩,
  ⟨0x10C, 2, 0x40, 1, 0x0, false, 0x0, 0xFFFF, 0x0, 0x0, 0x0, 2⟩,
  ⟨0x110, 2, 0x40, 1, 0x0, false, 0x0, 0xFFFFFFFF, 0x0, 0x0, 0x0, 2⟩,
  ⟨0x114, 2, 0x40, 1, 0x0, false, 0x0, 0x0, 0x0, 0xFFFFFFFF, 0x0, 2⟩,
  ⟨0x118, 2, 0x40, 1, 0x0, false, 0x0, 0x0, 0x0, 0xFFFFFFFF, 0x0, 2⟩]

def tmsRows1 : List RegRow := [
  ⟨0x11C, 2, 0x40, 1, 0x0, false, 0x0, 0x0, 0x0, 0xFFFFFFFF, 0x0, 2⟩]

/-- The register rows of block TMS. -/
def tmsRows : List RegRow := tmsRows0 ++ tmsRows1

def tckRows0 : List RegRow := [
  ⟨0x0, 1, 0x0, 1, 0x0, false, 0x60, 0x0, 0x0, 0x0, 0x0, 1⟩,
  ⟨0x4, 1, 0x0, 1, 0x0, false, 0x0, 0x1, 0x0, 0x0, 0x0, 1⟩,
  ⟨0x8, 1, 0x0, 1, 0x0, false, 0x0, 0x0, 0x1F, 0x0, 0x0, 1⟩,
  ⟨0x10, 1, 0x0, 1, 0x0, true, 0x20000, 0xFFFFFFFFFFFFFFFF, 0x0, 0x0, 0x0, 1⟩,
  ⟨0x18, 1, 0x0, 1, 0x0, false, 0x0, 0x7F, 0x0, 0x0, 0x0, 1⟩,
  ⟨0x20, 1, 0x0, 1, 0x0, false, 0x0, 0xFFFFFFF, 0x0, 0x0, 0x0, 1⟩,
  ⟨0x24, 1, 0x0, 1, 0x0, false, 0x0, 0xFFFFFFF, 0x0, 0x0, 0x0, 1⟩,
  ⟨0x28, 1, 0x0, 1, 0x0, false, 0x0, 0x17F, 0x0, 0x0, 0x0, 1⟩,
  ⟨0x30, 1, 0x0, 1, 0x0, false, 0x1, 0x0, 0x0, 0x0, 0x0, 1⟩,
  ⟨0x38, 1, 0x0, 1, 0x0, true, 0x0, 0x0, 0x0, 0x0, 0x0, 1⟩,
  ⟨0x40, 1, 0x0, 1, 0x0, false, 0x0, 0x0, 0x0, 0x0, 0x0, 1⟩,
  ⟨0x48, 1, 0x0, 1, 0x0, true, 0x0, 0x0, 0x0, 0x0, 0x0, 1⟩,
  ⟨0x50, 1, 0x0, 1, 0x0, false, 0x0, 0x0, 0x0, 0xFFFFFFFF, 0x0, 1⟩,
  ⟨0x54, 1, 0x0, 1, 0x0, false, 0x0, 0x0, 0x0, 0xFFFFFFFF, 0x0, 1⟩,
  ⟨0x60, 1, 0x0, 1, 0x0, true, 0x1, 0x0, 0x0, 0x0, 0x0, 1⟩]

/-- The register rows of block TCK. -/
def tckRows : List RegRow := tckRows0

def farRows0 : List RegRow := [
  ⟨0x0, 1, 0x0, 1, 0x0, false, 0x2000, 0x1FF0F, 0x0, 0x0, 0x0, 2⟩,
  ⟨0x4, 1, 0x0, 1, 0x0, false, 0x0, 0x0, 0x0, 0x0, 0x0, 2⟩,
  ⟨0x8, 1, 0x0, 1, 0x0, false, 0x0, 0x0, 0x7, 0x0, 0x0, 2⟩,
  ⟨0xC, 1, 0x0, 1, 0x0, false, 0x401008, 0xFFFFFFF, 0x0, 0x0, 0x0, 2⟩,
  ⟨0x10, 1, 0x0, 1, 0x0, false, 0x280040, 0xFF03FF, 0x0, 0x0, 0x0, 2⟩,
  ⟨0x14, 1, 0x0, 1, 0x0, false, 0x200, 0xFFFF, 0x0, 0x0, 0x0, 2⟩,
  ⟨0x18, 1, 0x0, 1, 0x0, false, 0x40000800, 0xFFFFFFFF, 0x0, 0x0, 0x0, 2⟩,
  ⟨0x1C, 1, 0x0, 1, 0x0, false, 0x64, 0xFFFF, 0x0, 0x0, 0x0, 2⟩,
  ⟨0x20, 1, 0x0, 1, 0x0, false, 0x0, 0x0, 0x0, 0x0, 0x0, 2⟩,
  ⟨0x28, 1, 0x0, 1, 0x0, true, 0x0, 0x0, 0x0, 0x0, 0x0, 2⟩,
  ⟨0x30, 1, 0x0, 1, 0x0, false, 0x0, 0x0, 0x0, 0xFFFFFFFF, 0x0, 2⟩,
  ⟨0x34, 1, 0x0, 1, 0x0, false, 0x0, 0x0, 0x0, 0xFFFFFFFF, 0x0, 2⟩,
  ⟨0x100, 48, 0x20, 1, 0x0, false, 0x0, 0xFFFFF, 0x0, 0x0, 0x0, 2⟩,
  ⟨0x104, 48, 0x20, 1, 0x0, false, 0x0, 0x0, 0x0, 0x0, 0x0, 2⟩,
  ⟨0x108, 48, 0x20, 1, 0x0, false, 0x4000, 0xFFFF, 0x0, 0x0, 0x0, 2⟩,
  ⟨0x10C, 48, 0x20, 1, 0x0, false, 0x0, 0x0, 0x0, 0x0, 0x0, 2⟩,
  ⟨0x110, 48, 0x20, 1, 0x0, false, 0x0, 0x0, 0x0, 0x0, 0x0, 2⟩,
  ⟨0x114, 48, 0x20, 1, 0x0, false, 0x0, 0x0, 0x0, 0x0, 0x0, 2⟩,
  ⟨0x800, 12, 0x10, 1, 0x0, false, 0x0, 0x0, 0x0, 0x0, 0x0, 2⟩,
  ⟨0x804, 12, 0x10, 1, 0x0, false, 0x0, 0x0, 0x0, 0x0, 0x0, 2⟩,
  ⟨0x808, 12, 0x10, 1, 0x0, false, 0x0, 0x0, 0x0, 0x0, 0x0, 2⟩]

/-- The register rows of block FAR. -/
def farRows : List RegRow := farRows0

def lmpRows0 : List RegRow := [
  ⟨0x0, 1, 0x0, 1, 0x0, false, 0xC, 0xFF1F, 0x0, 0x0, 0x0, 2⟩,
  ⟨0x4, 1, 0x0, 1, 0x0, false, 0x0, 0x0, 0x0, 0x0, 0x0, 2⟩,
  ⟨0x8, 1, 0x0, 1, 0x0, false, 0x0, 0x0, 0x1F, 0x0, 0x0, 2⟩,
  ⟨0xC, 1, 0x0, 1, 0x0, false, 0x0, 0x0, 0x0, 0x0, 0x0, 2⟩,
  ⟨0x10, 1, 0x0, 1, 0x0, false, 0x280A00FA, 0xFF3F83FF, 0x0, 0x0, 0x0, 2⟩,
  ⟨0x14, 1, 0x0, 1, 0x0, false, 0x3E80008, 0xFFFF00FF, 0x0, 0x0, 0x0, 2⟩,
  ⟨0x18, 1, 0x0, 1, 0x0, false, 0xFA, 0xFFFF, 0x0, 0x0, 0x0, 2⟩,
  ⟨0x1C, 1, 0x0, 1, 0x0, false, 0x0, 0x0, 0x0, 0x0, 0xFF, 2⟩,
  ⟨0x20, 1, 0x0, 1, 0x0, false, 0x0, 0x0, 0x0, 0x0, 0x0, 2⟩,
  ⟨0x30, 5, 0x4, 1, 0x0, false, 0x0, 0x0, 0x0, 0x0, 0x0, 2⟩,
  ⟨0x44, 1, 0x0, 1, 0x0, false, 0x0, 0x0, 0x0, 0x0, 0x0, 2⟩,
  ⟨0x48, 1, 0x0, 1, 0x0, true, 0x0, 0x0, 0x0, 0x0, 0x0, 2⟩,
  ⟨0x100, 4, 0x10, 1, 0x0, false, 0x7D000, 0xFFFF07, 0x0, 0x0, 0x0, 2⟩,
  ⟨0x104, 4, 0x10, 1, 0x0, false, 0xFFFF0000, 0xFFFFFFFF, 0x0, 0x0, 0x0, 2⟩,
  ⟨0x108, 4, 0x10, 1, 0x0, false, 0x10064, 0xFFFFFF, 0x0, 0x0, 0x0, 2⟩,
  ⟨0x300, 24, 0x4, 1, 0x0, false, 0x0, 0xFF, 0x0, 0x0, 0x0, 2⟩,
  ⟨0x400, 24, 0x4, 1, 0x0, false, 0xF00000, 0x1F7FFFF, 0x0, 0x0, 0x0, 2⟩,
  ⟨0x480, 128, 0x4, 1, 0x0, false, 0xF00000, 0x1F7FFFF, 0x0, 0x0, 0x0, 2⟩]

/-- The register rows of block LMP. -/
def lmpRows : List RegRow := lmpRows0

def evcRows0 : List RegRow := [
  ⟨0x0, 1, 0x0, 1, 0x0, false, 0x0, 0x0, 0x0, 0x0, 0x0, 2⟩,
  ⟨0x10, 16, 0x4, 1, 0x0, false, 0x0, 0x0, 0xFFFFFFFF, 0x0, 0x0, 2⟩,
  ⟨0x100, 64, 0x4, 1, 0x0, false, 0x0, 0x0, 0x0, 0x0, 0x0, 2⟩,
  ⟨0x1000, 512, 0x4, 1, 0x0, false, 0x0, 0x3FF, 0x0, 0x0, 0x0, 2⟩,
  ⟨0x2000, 512, 0x4, 1, 0x0, false, 0x0, 0x0, 0x0, 0x0, 0x0, 2⟩,
  ⟨0x4000, 512, 0x8, 1, 0x0, true, 0x0, 0x0, 0x0, 0x0, 0x0, 2⟩]

/-- The register rows of block EVC. -/
def evcRows : List RegRow := evcRows0

def dgnRows0 : List RegRow := [
  ⟨0x0, 1, 0x0, 1, 0x0, false, 0xA00, 0xFF03, 0x0, 0x0, 0x0, 2⟩,
  ⟨0x4, 1, 0x0, 1, 0x0, false, 0x1FF0000, 0x0, 0x0, 0x0, 0x0, 2⟩,
  ⟨0x8, 1, 0x0, 1, 0x0, false, 0x0, 0x0, 0x1F, 0x0, 0x0, 2⟩,
  ⟨0xC, 1, 0x0, 1, 0x0, false, 0x0, 0x0, 0x0, 0x0, 0x0, 2⟩,
  ⟨0x10, 1, 0x0, 1, 0x0, true, 0x0, 0x0, 0x0, 0x0, 0x0, 2⟩,
  ⟨0x18, 1, 0x0, 1, 0x0, false, 0x0, 0x0, 0x0, 0x0, 0x0, 2⟩,
  ⟨0x1C, 1, 0x0, 1, 0x0, false, 0x0, 0x0, 0x0, 0xFFFFFFFF, 0x0, 2⟩,
  ⟨0x20, 1, 0x0, 1, 0x0, false, 0x0, 0x0, 0x0, 0x0, 0x0, 2⟩,
  ⟨0x24, 1, 0x0, 1, 0x0, false, 0x0, 0x0, 0x0, 0x0, 0x0, 2⟩,
  ⟨0x28, 1, 0x0, 1, 0x0, false, 0x0, 0x0, 0x0, 0x0, 0x0, 2⟩,
  ⟨0x100, 64, 0x10, 1, 0x0, false, 0x10, 0xFFFFFFF1, 0x0, 0x0, 0x0, 2⟩,
  ⟨0x104, 64, 0x10, 1, 0x0, false, 0x0, 0x0, 0x0, 0xFFFFFFFF, 0x0, 2⟩,
  ⟨0x108, 64, 0x10, 1, 0x0, false, 0x0, 0x0, 0x0, 0x0, 0x0, 2⟩]

/-- The register rows of block DGN. -/
def dgnRows : List RegRow := dgnRows0

def erwRows0 : List RegRow := [
  ⟨0x0, 1, 0x0, 1, 0x0, false, 0x0, 0x0, 0x0, 0x0, 0x0, 2⟩,
  ⟨0x4, 1, 0x0, 1, 0x0, false, 0x0, 0xFFFFFFFF, 0x0, 0x0, 0x0, 2⟩,
  ⟨0x8, 1, 0x0, 1, 0x0, false, 0x0, 0x0, 0x0, 0x0, 0x0, 2⟩,
  ⟨0xC, 1, 0x0, 1, 0x0, false, 0x0, 0x0, 0x0, 0x0, 0x0, 2⟩,
  ⟨0x10, 1, 0x0, 1, 0x0, false, 0x1, 0x1, 0x0, 0x0, 0x0, 2⟩,
  ⟨0x14, 1, 0x0, 1, 0x0, false, 0x0, 0x0, 0x0, 0x0, 0x0, 2⟩,
  ⟨0x40, 16, 0x4, 1, 0x0, false, 0x0, 0x0, 0x0, 0x0, 0x0, 2⟩]

/-- The register rows of block ERW. -/
def erwRows : List RegRow := erwRows0

def bootRows0 : List RegRow := [
  ⟨0x0, 1, 0x0, 1, 0x0, false, 0x1000000, 0x0, 0x0, 0x0, 0x0, 2⟩,
  ⟨0x4, 1, 0x0, 1, 0x0, false, 0x0, 0x0, 0xF, 0x0, 0x0, 2⟩,
  ⟨0x8, 1, 0x0, 1, 0x0, false, 0x7D00003, 0xFFFF000F, 0x0, 0x0, 0x0, 2⟩,
  ⟨0xC, 1, 0x0, 1, 0x0, false, 0x1, 0x1FF, 0x0, 0x0, 0x0, 2⟩,
  ⟨0x10, 1, 0x0, 1, 0x0, true, 0x0, 0x0, 0x0, 0x0, 0x0, 2⟩,
  ⟨0x18, 1, 0x0, 1, 0x0, true, 0x0, 0x0, 0x0, 0x0, 0x0, 2⟩,
  ⟨0x20, 1, 0x0, 1, 0x0, true, 0x0, 0xFFFFFFFFFFFFFFFF, 0x0, 0x0, 0x0, 2⟩,
  ⟨0x28, 1, 0x0, 1, 0x0, false, 0x0, 0xFFFFFF, 0x0, 0x0, 0x0, 2⟩,
  ⟨0x2C, 1, 0x0, 1, 0x0, false, 0x0, 0x0, 0x0, 0x0, 0x0, 2⟩,
  ⟨0x30, 1, 0x0, 1, 0x0, false, 0x0, 0x0, 0x0, 0x0, 0x0, 2⟩]

/-- The register rows of block BOOT. -/
def bootRows : List RegRow := bootRows0

def glbRows0 : List RegRow := [
  ⟨0x0, 1, 0x0, 1, 0x0, false, 0x4896A100, 0x0, 0x0, 0x0, 0x0, 0⟩]

/-- The register rows of block GLB. -/
def glbRows : List RegRow := glbRows0

end Sys2Proof
end

