-- ==== Sys2Proof/Machine/State.lean ====
section
/-!
DEFINITION. The state of the block: the set-up window's registers, every piece of state the chapters of spec/ give
the machine beside them, and the queue of waiting commands. Plain data throughout.
-/
namespace Sys2Proof
namespace Machine

/-- Why a step may stop with a fault. The block has none: every access the spec refuses has the answer R4, R7 and R9
give it, and every failure the spec names is an effect on the state. The type has no constructor. -/
inductive Fault : Type
  deriving DecidableEq, Repr

/-- Why a command may be refused by the model. -/
inductive Refusal where
  /-- Raised by an arm of `exec` for a command the model has no meaning for; safe: nothing is claimed of it. -/
  | notModelled (mnemonic : String)
  deriving DecidableEq, Repr

/-- What the block sends out: the model keeps it in the order sent. -/
inductive Out where
  /-- A write of bytes to host memory. -/
  | hostWrite (addr : Nat) (bytes : List Byte)
  /-- An MSI-X message of a vector, with the address and the data its table entry holds (R34, R58, R488). -/
  | msix (vector : Nat) (addr : Nat) (data : Nat)
  /-- A frame on a bay's downstream lane: bay, the time at the pins in tenths of a nanosecond where R363 fixes it, and the blocks,
  FRAME block first (R356-R363). Blocks stand as they are before scrambling (R354); their words on the lane follow in `words`. -/
  | frame (bay : Nat) (time : Option Nat) (blocks : List Nat)
  /-- Control blocks on a bay's downstream lane: SUPERFRAME, SLEEP, a TRAIN burst with WAKE, PROBE (R354, R366, R371). -/
  | control (bay : Nat) (time : Option Nat) (blocks : List Nat)
  /-- Words of 66 bits on a bay's downstream lane, bit 0 first, from a time where the spec fixes it: sync header and
  scrambled payload (R354). -/
  | words (bay : Nat) (time : Option Nat) (words : List Nat)
  /-- What a bay transmits from now on between the frames and blocks above is that of a stage of R364: the control block that it
  repeats, or in TEST the TX_MODE of the pattern (R376). -/
  | laneMode (bay : Nat) (stage : Nat) (fill : Option Nat)
  /-- One transmitted bit of a bay's test pattern is inverted (R376). -/
  | prbsInvert (bay : Nat)
  /-- A frame on an Ethernet port: port, messageType, and its bytes with the check sequence (R431-R433). -/
  | eth (port : Nat) (type : Nat) (bytes : List Byte)
  /-- A CCI transfer on a CSI-2 port: port, bytes. -/
  | cci (port : Nat) (bytes : List Nat)
  /-- What a read of the set-up window returned: offset, value, and whether the access was 64 bits wide (R4, R5, R8). -/
  | readReply (addr : Nat) (value : Nat) (wide : Bool)
  /-- What a read of the doorbell window returned: offset, value, bytes read (R45). -/
  | doorbellReply (off : Nat) (value : Nat) (size : Nat)
  /-- The answer Unsupported Request to an AtomicOp at an offset (R34, R37). -/
  | unsupportedRequest (off : Nat)
  /-- The gate pair of a stall at its balls: the time on the beam timebase in fifths of a tap, and the differential level, none
  while the driver is high-impedance (R145, R146, R158). -/
  | gatePair (stall : Nat) (time : Nat) (level : Option Bool)
  /-- CK of a feedback port begins a frame: port, yard time of the first falling edge, period in ns, clocks; it is high
  afterwards (R256, R257). -/
  | feedbackClock (port : Nat) (time : Nat) (period : Nat) (clocks : Nat)
  /-- CK of a feedback port returns high at a yard time: a frame was abandoned (R275). -/
  | feedbackHigh (port : Nat) (time : Nat)
  /-- A change of an output of an axis at a yard time: axis, 0 STEP, 1 DIR or 2 AEN, and the level (R290, R300). -/
  | axisPin (axis : Nat) (pin : Nat) (time : Nat) (level : Bool)
  /-- What RCLK_OUT carries from now on: 0 low, 1 and 2 the recovered clock of port 0 and 1, 3 the root divided by 192 (R440). -/
  | rclkOut (source : Nat)
  /-- A change of an output pin at a yard time: 0 PPS_OUT, 1 THERM_N (R420, R440). -/
  | pin (number : Nat) (time : Nat) (level : Bool)
  /-- A byte on the service UART (R515). -/
  | uart (byte : Nat)
  deriving DecidableEq, Repr

/-- One record of the event recorder (R490), without its format byte and CRC, which are computed. -/
structure EvRec where
  seq : Nat
  kind : Nat
  source : Nat
  opSeconds : Nat
  powerCycles : Nat
  time : Nat
  raises : Nat
  lost : Nat
  detail : List Nat
  deriving DecidableEq, Repr

/-- A snapshot trigger taken and waiting for its freeze tick (R496): kind 1 host, 2 event, 3 pin, the event source
(0x1FF none), the context of a waiting DGN_FREEZE and the yard time of the trigger. -/
structure SnapTrig where
  kind : Nat
  source : Nat
  ctx : Option Nat
  since : Nat
  deriving DecidableEq, Repr


/-- State of a ring context (R40). -/
inductive CtxState where
  | disabled | active | stopped | draining
  deriving DecidableEq, Repr

/-- A decided completion (R50): STATUS, RESULT_A, RESULT_B, TIME and the STAGED flag. -/
structure Compl where
  status : Nat
  a : Nat
  b : Nat
  time : Nat
  staged : Bool
  deriving DecidableEq, Repr

/-- One entry of a context's completion history (R52): SEQ, OPCODE and, once decided, the completion. -/
structure HistEnt where
  seq : Nat
  opcode : Nat
  compl : Option Compl
  deriving DecidableEq, Repr

/-- A fetched descriptor that has not been retired: its 64 bytes, whether check 1 of R49 found it a duplicate (and
then whether its original was in the history), whether it has started, a value its operation keeps while it runs,
and its completion once decided. -/
structure Desc where
  raw : RawDesc
  dup : Bool
  lost : Bool
  started : Bool
  aux : Nat
  compl : Option Compl
  deriving DecidableEq, Repr

/-- One ring context: state, stop cause, the four ring indexes, the completion phase, fetched descriptors oldest
first, started descriptors an event of R68 cut loose, the history newest first, the completions since the last signal
with the beam time of the oldest (R58), and the current continuous back-pressure wait (R60). -/
structure Ctx where
  st : CtxState
  stopCause : Nat
  sqHead : Nat
  sqTail : Nat
  cqTail : Nat
  cqHead : Nat
  phase : Bool
  fetched : List Desc
  orphans : List Desc
  hist : List HistEnt
  irqN : Nat
  irqSince : Nat
  bpWait : Nat
  bpTold : Bool
  deriving DecidableEq, Repr

/-- A context after reset. -/
def Ctx.init : Ctx := ⟨.disabled, 0, 0, 0, 0, 0, true, [], [], [], 0, 0, 0, false⟩


/-- One parsed scan command, its values already checked and clamped (R80, R81, R83). -/
inductive ItemK where
  | nop
  | jump (f x y : Int)
  | line (cont : Bool) (f x y : Int) (tag : Nat)
  | arc (cont : Bool) (f cx cy sweep : Int)
  | ramp (target len : Nat)
  | wobble (shape freq along across : Nat)
  | speed (power : Option Nat) (mark jump : Nat)
  | delay (settle : Nat) (on off : Int)
  | compare (mode first count : Nat)
  | islBegin (v deadline : Nat)
  | islEnd (v : Nat)
  | layerEnd (layer : Nat)
  | sync (timeout mask id : Nat)
  | seam (id : Nat)
  | progEnd
  deriving DecidableEq, Repr

/-- The sequencer of a stall (R80-R93): island value and deadline, island ordinal, commands in the stroke being parsed (0
outside), current point in 1/256 LSB, commands left in the innermost seam section, its SEAM_ID while it is registered and
whether it is skipped, whether the next section is passed over after a mismatch (R186), why parsing has stopped: 0 not, 1 to
6 the program error of R103 with its opcode and offset, 7 a seam mismatch, 8 a pause for registrations (R181), 9 a pause for
the full table (R182), 10 PROGRAM_END parsed and not yet reached, 11 a command that may not be read (R449); and the sections
around the innermost one, each with the commands left in it, its SEAM_ID and whether it is skipped (R92). -/
structure Seq where
  isl : Option (Nat × Nat)
  islNo : Nat
  stroke : Nat
  x : Int
  y : Int
  seamLeft : Nat
  seamId : Option Nat
  skip : Bool
  passBy : Bool
  stop : Nat
  errOp : Nat
  errOff : Nat
  outer : List (Nat × Option Nat × Bool)
  deriving DecidableEq, Repr

def Seq.init (x y : Int) : Seq := ⟨none, 0, 0, x, y, 0, none, false, false, 0, 0, 0, []⟩

/-- A parsed command: its offset in the region, the ordinal, value and deadline of the island around it (0, and the
order 0xFFFFFFFF of R172, outside any), the SEAM_IDs of the sections around it, whether its section is skipped (R180), the
sequencer before it, and the command. -/
structure Item where
  off : Nat
  isl : Nat
  islV : Nat
  islD : Nat
  seams : List Nat
  skip : Bool
  pre : Seq
  k : ItemK
  deriving DecidableEq, Repr

/-- The settings of R82. -/
structure Sett where
  power : Nat
  mark : Nat
  jump : Nat
  on : Int
  off : Int
  settle : Nat
  wobble : Nat × Nat × Nat × Nat
  ramp : Option (Nat × Nat)
  arm : Option (Nat × Nat × Nat)
  deriving DecidableEq, Repr

/-- The defaults of R82. -/
def Sett.init : Sett := ⟨0, 1000, 1000, 0, 0, 0, (0, 0, 0, 0), none, none⟩

/-- A stretch of constant jerk (R113): duration in 1/65,536 tap, jerk in µm/s³, acceleration in 2^-16 µm/s² and speed in
2^-32 µm/s at its start. -/
structure Seg where
  dur : Nat
  j : Int
  a : Int
  v : Int
  deriving DecidableEq, Repr

/-- A planned move: entry KIND (R108), shape (0 line, 1 arc, 2 focus only), start point and displacement (line) or radius
vector and sweep (arc) in 1/256 LSB and 2^-24 turn, length in 2^-32 LSB, focus values, the item it derives from, its TAG and
programmed speed, wobble, the stroke distance at its start, the part of its length already behind its first segment, its
segments, and the detail of a failed check (R128). -/
structure Move where
  kind : Nat
  shape : Nat
  x : Int
  y : Int
  dx : Int
  dy : Int
  sweep : Int
  len : Nat
  f0 : Int
  f1 : Int
  item : Nat
  tag : Nat
  spd : Nat
  wob : Nat × Nat × Nat × Nat
  dist : Int
  s0 : Nat
  segs : List Seg
  bad : Nat
  deriving DecidableEq, Repr

/-- A compare pulse or gate window of a stroke (R123, R154): rise and fall in taps of entry time, and the LEVEL. -/
structure Pulse where
  rise : Int
  fall : Int
  level : Nat
  deriving DecidableEq, Repr

/-- The compare arm of a stroke (R153-R156): mode, kept entries (DIST, PITCH, WIDTH in taps, LEVEL), the count SKIPPED, and what
came of its requests in order: the rise in taps of entry time (of the pulse merged into), the kept entry, and 0 fired, 1 merged,
2 dropped, 3 outside the gate window, 4 nowhere requested, 5 behind the end of its segment. -/
structure Arm where
  mode : Nat
  kept : List (Nat × Nat × Nat × Nat)
  skipped : Nat
  log : List (Int × Nat × Nat)
  deriving DecidableEq, Repr

/-- A planned stroke: the item of its first mark, its number, island order, index of its first RUN_IN entry, gate-on
and gate-off times in taps of entry time, whether its gate opens, the last index of its commit span, its STROKE_PLAN,
k_throttle, ON_DELAY and OFF_DELAY, the power along its path (distance, power, ramp target, ramp length), its arm and
its pulses; the index after its last mark, the length of its marks, and the programmed speeds of its first and last mark. -/
structure Stroke where
  key : Nat
  no : Nat
  islV : Nat
  t0 : Nat
  tOn : Int
  tOff : Int
  opens : Bool
  spanEnd : Nat
  splan : Nat
  kThr : Nat
  on : Int
  off : Int
  tag : Nat
  pw : List (Int × Nat × Nat × Nat)
  arm : Option Arm
  pulses : List Pulse
  kEnd : Nat
  total : Nat
  spd0 : Nat
  spd1 : Nat
  deriving DecidableEq, Repr

/-- The parameters of chapter 04 a plan was made with (R137). -/
structure PlanEnv where
  pTaps : Nat
  markA : Nat
  markJ : Nat
  jumpA : Nat
  jumpJ : Nat
  dev : Nat
  fV : Nat
  fA : Nat
  lag : Nat
  spdLim : Nat
  orgX : Int
  orgY : Int
  pitch : Nat
  slot0 : Nat
  slot1 : Nat
  twoPlane : Bool
  plane0 : Int
  plane1 : Int
  fGain : Int
  track : Bool
  verified : Bool
  deriving DecidableEq, Repr

/-- A sample of the planned path: position in 1/256 LSB, stroke distance in 2^-32 LSB, path speed and effective
speed in 2^-32 µm/s, and the number of strokes started so far (R122): behind a stroke its distance is the whole of it. -/
structure Trk where
  x : Int
  y : Int
  d : Int
  v : Int
  ve : Nat
  no : Nat
  deriving DecidableEq, Repr

/-- A stroke planned and not yet started: its record, its moves from run-in to run-out, and the item, settings and
programmed point after it. -/
structure NextStroke where
  st : Stroke
  moves : List Move
  k : Nat
  sett : Sett
  gx : Int
  gy : Int
  gf : Int
  deriving DecidableEq, Repr

/-- The planner's state (R136): the index of the next entry, the next item, rest point and programmed point, settings, phase
(0 rest, 1 jump, 2 settle, 3 dwell, 4 stroke, 5 stop, 6 stopped), remaining moves, time into the first of them, settle
entries left, dwell entries placed, whether the jump had length, the planned stroke waiting, the started strokes whose gate
window is not over (newest first), pending gate edges, gate state, the last t_off, the end of the last commit span (one past
its last index) and the item of its stroke's last mark (R545), strokes started, parameters and speed factor in effect, plan
fault, TRJ_FLAGS bits to report, the state at the last entry (position, unit tangent, speed, acceleration), the recent path,
the last t_off before the newest stroke (R123), the number of the stroke whose commit span keeps parameters since changed
(R137; 0 none), the settings and the programmed point before each command on the way to the present element (R185), and
whether a jump chain cut short by a seam move waits for the targets behind it. -/
structure Plan where
  n : Nat
  k : Nat
  x : Int
  y : Int
  f : Int
  gx : Int
  gy : Int
  gf : Int
  sett : Sett
  ph : Nat
  moves : List Move
  t : Nat
  cnt : Nat
  dwelt : Nat
  moved : Bool
  nxt : Option NextStroke
  live : List Stroke
  edges : List (Int × Bool × Nat)
  gate : Bool
  offRef : Option Int
  spanEnd : Nat
  spanItem : Nat
  strokeNo : Nat
  env : PlanEnv
  kSpeed : Nat
  fault : Nat
  flags : Nat
  lx : Int
  ly : Int
  ltx : Int
  lty : Int
  lv : Int
  la : Int
  track : List Trk
  offPrev : Option Int
  bound : Nat
  trail : List (Nat × Sett × Int × Int × Int)
  redo : Bool
  deriving DecidableEq, Repr

/-- An entry of the run-ahead buffer (R108): KIND, set-point, command position, spot position, power, gate state at
the tick, edges, path speed in µm/s, stroke number and TAG; and with it the item it derives from, the stroke it is
the first RUN_IN entry of, whether it lies in a commit span, the strokes whose span it ends, the strokes (by item) whose gate
window it lies in (R166), the gate state at its end, saturated codes, whether the position was clamped to the field,
its cost (R132), the TRJ_FLAGS bits its planning set, and the planner state after it (R136). -/
structure Entry where
  kind : Nat
  sx : Int
  sy : Int
  sf : Int
  cx : Int
  cy : Int
  cf : Int
  px : Int
  py : Int
  power : Nat
  gate : Bool
  edges : List (Bool × Nat)
  speed : Nat
  stroke : Nat
  tag : Nat
  item : Nat
  first : Option Stroke
  span : Bool
  last : List Stroke
  wins : List Nat
  gateEnd : Bool
  sat : Nat
  clamped : Bool
  cost : Nat
  flags : Nat
  after : Plan
  deriving DecidableEq, Repr

/-- The marshal's record of a stroke (R172-R177): its item, origin tick, deferrals, dwell and promotion tick. -/
structure MRec where
  key : Nat
  origin : Nat
  defers : Nat
  dwell : Nat
  eldest : Option Nat
  deriving DecidableEq, Repr

/-- Parameters of a plan never made. -/
def PlanEnv.init : PlanEnv :=
  ⟨38400, 0, 0, 0, 0, 0, 0, 0, 0, 0, 0, 0, 0, 0, 0, false, 0, 0, 0, false, false⟩

/-- A plan at rest at a point (R133), about to plan item `k`. -/
def Plan.rest (n k : Nat) (x y f : Int) : Plan :=
  ⟨n, k, x, y, f, x, y, f, Sett.init, 0, [], 0, 0, 0, false, none, [], [], false, none, 0, 0, 0, PlanEnv.init, 16384, 0, 0,
    x, y, 0, 0, 0, 0, [], none, 0, [], false⟩

/-- The state of a stall beyond its registers. Parsed items with the index of the first; the sequencer; the run-ahead buffer
(OUT to END) with the number of committed entries and the planner states at END and HZN (R130, R136). The entry output at
this tick, the last one output, whether step 1 found none, whether the output stands at a stopping marker (R545), and
whether the stall has been in RUN since reset. Squash causes latched and due (R135), abort latched and due (R99), what the
stall is stopping for (0 nothing, 1 abort, 2 laser inhibit), whether EN was cleared (R94), a release accepted for the next
tick, whether the return from HOLD is due (R98), a fault cause for the next tick (R95), hold causes waiting (R97), and
whether the starved hold is due (R131). The marshal's stroke records and whether the stroke at HZN is cleared (R175). Island
ordinal, start and deadline and whether lateness was told, whether the stroke's was (R88, R89). The barrier waited at (mask,
id, timeout), since when, and whether it is satisfied or mismatched (R90). Nanoseconds of gate-on time not yet counted, arm
counts of a cut stroke, whether the read-back level is wrong, the TRIM wait, slots being verified, the power settings still
in effect where newer ones wait for the end of a commit span (R151), the gate edges on their way to the balls, oldest first,
with their times on the beam timebase in fifths of a tap (R145), whether commands that end a PROGRAM_EMPTY hold have become
visible (R86), where it stood when it first entered RUN (R133), whether a hold requested before the last tick may take
effect (R97), the settings kept in IDLE behind a PROGRAM_END (R93), the failure of the engine that ends its plan (R139: 4
GRID_ECC, 5 ENGINE), the gate level at the balls before the edges on their way (R145), the power samples of the microvector,
each with whether its limit clamped it (R150, R151), whether the compare table reads with an uncorrectable error (R153), the
speed factor that plans use until the SPEED squash of a newer one (R115, R135), and the index of the entry after the one at
whose output laser inhibit forced the gates off (R156, R158). -/
structure Stall where
  items : List Item
  ibase : Nat
  seq : Seq
  buf : List Entry
  hzn : Nat
  plan : Plan
  hplan : Plan
  cur : Option Entry
  lastOut : Option Entry
  noEntry : Bool
  atMarker : Bool
  everRun : Bool
  squashNew : Nat
  squashDue : Nat
  abortNew : Bool
  abortDue : Bool
  stopping : Nat
  disable : Bool
  relNew : Bool
  retDue : Bool
  faultNew : Nat
  holdReq : Nat
  starveDue : Bool
  leadOk : Bool
  recs : List MRec
  cleared : Bool
  islNo : Nat
  islStart : Nat
  islD : Nat
  islTold : Bool
  strokeTold : Bool
  sync : Option (Nat × Nat × Nat)
  syncSince : Nat
  syncRel : Bool
  syncBad : Bool
  onTaps : Nat
  armEnd : Option Arm
  pinBad : Bool
  verify : List Nat
  pwPend : List (Nat × Word)
  balls : List (Nat × Bool)
  loaded : Bool
  rest0 : Int × Int × Int
  holdDue : Bool
  kept : Option Sett
  engFault : Nat
  ballOn : Bool
  samples : List (Nat × Bool)
  tableErr : Bool
  kOld : Nat
  forcedN : Option Nat
  deriving DecidableEq, Repr

/-- A stall after reset (R10, R104, R141). Its rest point follows the grid registers until it first runs (R133). -/
def Stall.init : Stall :=
  ⟨[], 0, Seq.init 0 0, [], 0, Plan.rest 0 0 0 0 0, Plan.rest 0 0 0 0 0, none, none, false, false, false, 0, 0, false,
    false, 0, false, false, false, 0, 0, false, true, [], false, 0, 0, 0, false, false, none, 0, false, false, 0, none,
    false, [], [], [], false, (0, 0, 0), false, none, 0, false, [], false, 16384, none⟩

/-- A seam table entry (R180): SEAM_ID, state (0 FREE, 1 OPEN, 2 BOUND, 3 ORPHANED), owner, other stall, whether each
has registered, moves carried out, and COUNT. -/
structure Seam where
  id : Nat
  st : Nat
  owner : Nat
  other : Nat
  oReg : Bool
  xReg : Bool
  moves : Nat
  count : Nat
  deriving DecidableEq, Repr

/-- A seam move request (R185): kind (1 host, 2 automatic, 3 rescue), SEAM_ID, new owner, and whether it waits for the
next tick. -/
structure SeamReq where
  kind : Nat
  id : Nat
  new : Nat
  wait : Bool
  deriving DecidableEq, Repr

/-- A photodiode bin (R199-R201): the tick of its entry, whether the entry is of gate-on class, its power, the samples
per enabled channel it expects, the enabled channels, and the sum and count of the samples of each channel. -/
structure Bin where
  t : Nat
  cls : Bool
  power : Nat
  expect : Nat
  chans : Nat
  align : Nat
  sums : List Nat
  got : List Nat
  deriving DecidableEq, Repr

/-- The energy loop of a stall (R195, R202-R209): loop state i, e1, e2, u1, u2, v; fault counts NO_EMISSION, SATURATED
and MISSING; beam time of the last delivery; a factor to deliver when the stall next runs; a bank swap latched and due;
the yard time of the last feature; the bins not yet evaluated, oldest
first, the windows (start, end, channels) of those evaluated, newest first and joined where they meet, whether EN has been
written to 0 since the last tick (R207), whether a fault of the stall has stopped the loop with its state kept (R207), whether the
factor to deliver is the return of a stopped loop (R205), and the beam time of the last tick with kp_raw out of range (R203). -/
structure Eng where
  i : Int
  e1 : Int
  e2 : Int
  u1 : Int
  u2 : Int
  v : Int
  noEmit : Nat
  satur : Nat
  missing : Nat
  lastDel : Option Nat
  ksPend : Option Nat
  swapNew : Bool
  swapDue : Bool
  feat : Option Nat
  bins : List Bin
  done : List (Nat × Nat × Nat)
  enOff : Bool
  kept : Bool
  back : Bool
  limAt : Option Nat
  deriving DecidableEq, Repr

def Eng.init : Eng := ⟨0, 0, 0, 0, 0, 0, 0, 0, 0, none, none, false, false, none, [], [], false, false, false, none⟩

/-- A CLE_LOAD that runs (R220): its context and SEQ, the stable, the loft offsets of its coefficient set and of its first byte,
and its bytes. -/
structure CleLoad where
  ctx : Nat
  seq : Nat
  st : Nat
  base : Nat
  at_ : Nat
  bytes : List Byte
  deriving DecidableEq, Repr

/-- A servo axis (R195, R214, R215): pos, e1, i, sp1, sp2, x1, x2, z1, z2, c1, c_raw1, the coil command leaving at the
next boundary, the counts of consecutive missing samples, saturated boundaries and large following errors, and the
sample that arrived for the current boundary, and whether a position has been returned since the head link became
active. -/
structure SrvAxis where
  pos : Int
  e1 : Int
  i : Int
  sp1 : Int
  sp2 : Int
  x1 : Int
  x2 : Int
  z1 : Int
  z2 : Int
  c1 : Int
  cRaw1 : Int
  miss : Nat
  sat : Nat
  ferr : Nat
  sample : Option Int
  seen : Bool
  deriving DecidableEq, Repr

def SrvAxis.init : SrvAxis := ⟨0, 0, 0, 0, 0, 0, 0, 0, 0, 0, 0, 0, 0, 0, none, false⟩

/-- The servo of a stall (R212-R218): its axes X, Y, F; whether the next evaluation is the first after CLOSE; boundaries
inside BAND and since CLOSING; a CLOSE waiting for its boundary; and the set-points of the last boundaries, newest
first. -/
structure Srv where
  axes : Vector SrvAxis 3
  first : Bool
  settle : Nat
  since : Nat
  closeReq : Bool
  sps : List (Int × Int × Int)
  deriving DecidableEq, Repr

def Srv.init : Srv := ⟨Vector.replicate 3 SrvAxis.init, true, 0, 0, false, []⟩

/-- A staged action (R228-R232): a register write by offset (a 64-bit register by its low word), value and mask; a
RELEASE or RESUME of a stall; an axis move or a firmware activation with its descriptor. -/
inductive Act where
  | write (off val mask : Nat) (wide : Bool)
  | release (g : Nat)
  | resume (g : Nat)
  | move (axis : Nat) (d : RawDesc)
  | activate (d : RawDesc)
  deriving DecidableEq, Repr

/-- An action in the staging store: the staging context, the action, the shadow copy and the value written once it is
accepted (R239), and whether its participant has settled. -/
structure Staged where
  ctx : Nat
  act : Act
  shadow : Option Nat
  wrote : Nat
  settled : Bool
  deriving DecidableEq, Repr

/-- A transaction (R225-R246): state code, commit kind, doom reason (0 none), NOTIFY, EXPIRE, T, opening context,
actions in staging order, the order in which its COMMIT was checked, commit tick, COMMIT_TIMEOUT that applies to it,
outcome (the low 48 bits of R241) once DONE, the COMMITs that wait as (context, SEQ, repeat), the TXN_ABORTs that wait
for its undo, the stalls whose staged grids failed verification (R129), and the outcome a participant's fault gives it at
the next tick (R242). -/
structure Txn where
  st : Nat
  kind : Nat
  doom : Nat
  notify : Bool
  expire : Nat
  t : Nat
  opener : Nat
  acts : List Staged
  order : Nat
  tick : Nat
  tmo : Nat
  outcome : Option Nat
  waits : List (Nat × Nat × Bool)
  aborts : List (Nat × Nat)
  badGrids : List Nat
  faulted : Option Nat
  deriving DecidableEq, Repr

/-- A FREE transaction ID. -/
def Txn.init : Txn := ⟨0, 0, 0, false, 0, 0, 0, [], 0, 0, 0, none, [], [], [], none⟩



/-- An absolute frame in progress (R257): the yard time of its start, that of the next start, the beam time at which it ends,
whether it has overrun a start, and what the encoder answers in it. -/
structure AbsFrame where
  start : Nat
  next : Nat
  fin : Nat
  late : Bool
  inp : FrameIn
  deriving DecidableEq, Repr

/-- A feedback port (R254-R276) beyond its registers, which hold the live values: the levels of A, B and Z, the decoder's A
and B, the stamp of the last accepted edge and whether a re-read of the levels is due (R259), the rejections of a
millisecond of yard time and its number and whether they were told (R260), the start of each pair's disagreement and whether
it was told (R261), the stamps of the last counted edges since a standstill or reversal, newest first, each with the counts
it moved (R267-R269), the count at the last window boundary, the yard time of the next one and the SPEED_CFG in effect, the
time of the last counted move, whether the gated index is true, the net travel since the last latch, whether COUNT_SUSPECT
was set before the command or enable (R263), the tooth basis and teeth since enable or standstill with the stamp of the last
counted tooth (R266), the last valid frame (position, stamp), the valid and invalid frames in a row, whether the last frame
was invalid and carried a low error bit, the held SPEED, SAMPLE_TIME and STATUS (R276), the frame in progress, whether CK is
not at its idle high level and the beam time at which it returns there after an abandoned frame (R254, R257, R275), and the
pairs that a CABLE fault has named and whether a FRAME or ENC_ERROR fault has come while FAULT is set (R273). -/
structure Port where
  a : Bool
  b : Bool
  z : Bool
  da : Bool
  db : Bool
  acc : Option Nat
  reread : Bool
  rejMs : Nat
  rejN : Nat
  rejTold : Bool
  dis : Vector (Option Nat) 3
  disTold : Vector Bool 3
  edges : List (Nat × Nat)
  winCount : Int
  winAt : Nat
  spCfg : Nat
  moved : Nat
  gated : Bool
  travel : Int
  suspectB4 : Bool
  refNew : Bool
  basis : Option Nat
  teeth : Nat
  tooth : Nat
  lastPos : Option (Nat × Nat)
  good : Nat
  bad : Nat
  badNow : Bool
  badErr : Bool
  hSpeed : Word
  hTime : Nat
  hStatus : Word
  frame : Option AbsFrame
  clk : Bool
  ckUp : Option Nat
  fCable : List Nat
  fFrame : Bool
  deriving DecidableEq, Repr

def Port.init : Port :=
  ⟨false, false, false, false, false, none, false, 0, 0, false, Vector.replicate 3 none, Vector.replicate 3 false, [], 0, 0,
    0, 0, false, 0, false, true, none, 0, 0, none, 0, 0, false, false, 0#32, 0, 0#32, none, false, none, [], false⟩


/-- An entry of an axis queue (R283, R285): a move (KIND 0) or a dwell (1), its descriptor's context and SEQ, the
target in steps, its own VMAX, ACCEL and JERK (0 none), BLEND, the dwell time in µs, and whether it was staged. -/
structure AxEnt where
  kind : Nat
  ctx : Nat
  seq : Nat
  target : Int
  v : Nat
  a : Nat
  j : Nat
  blend : Bool
  time : Nat
  staged : Bool
  deriving DecidableEq, Repr

/-- What an axis executes (R287-R290): an entry, its mode (0 the entry itself, 1 a controlled stop, 2 a fault stop), its
direction, its position at time 0 in 2^-33 step, that time and the end in 1/65,536 tap of the beam timebase, the limits in
use with the register values they come from (R288) and those they were last judged by, its segments, whether it ends at a
joint, whether the first step waits for DIR, and the yard time at which the entry started. -/
structure AxRun where
  e : AxEnt
  mode : Nat
  dir : Int
  base : Int
  t0 : Nat
  fin : Nat
  v : Nat
  a : Nat
  j : Nat
  regs : Nat × Nat × Nat
  seen : Nat × Nat × Nat
  segs : List Seg
  joint : Bool
  turned : Bool
  start : Nat
  deriving DecidableEq, Repr

/-- Requests that reach an axis at one tick (R282): faults by detail, a controlled stop, a heartbeat expiry, a resume, a
fault clear. -/
structure AxReq where
  faults : List Nat
  stop : Bool
  hb : Bool
  resume : Bool
  clear : Bool
  deriving DecidableEq, Repr

def AxReq.init : AxReq := ⟨[], false, false, false, false⟩

/-- A machine axis beyond its registers (R281-R298): the queue, how many of its entries stood in it at the last tick (R285), the
entry it executes, the transaction that reserves the
queue with the number of entries ahead of the staged move, its target, and whether a stop or fault spoiled it, the
requests of this tick and of the next, the values of EN and of VMAX, ACCEL, JERK at the last tick, whether to pause when
the running entry ends, whether the queue changed since the plan, entries dropped by the stop in progress, the beam
time from which a step in the present direction may come, whether AEN is active, whether a fault stop ends in DISABLED,
the previous currents, filtered voltages, stall count (R293, R294), and the deviation check: the port with which it is active,
its latches and the last deviation (R295). -/
structure Axis where
  queue : List AxEnt
  avail : Nat
  run : Option AxRun
  resv : Option Nat
  ahead : Nat
  resvTarget : Int
  resvBad : Bool
  new : AxReq
  due : AxReq
  en : Bool
  lims : Nat × Nat × Nat
  pauseAtEnd : Bool
  replan : Bool
  drops : Nat
  dirReady : Nat
  aen : Bool
  ia : Int
  ib : Int
  fa : Int
  fb : Int
  stallN : Nat
  devOn : Option Nat
  pos0 : Int
  port0 : Int
  dev : Int
  deriving DecidableEq, Repr

def Axis.init : Axis :=
  ⟨[], 0, none, none, 0, 0, false, AxReq.init, AxReq.init, false, (10000, 100000, 1000000), false, false, 0, 0, false, 0, 0,
    0, 0, 0, none, 0, 0, 0⟩


/-- A frame in flight (R308-R317): number, generation, SETTINGS_UNCERTAIN, stamps of its start and end, the values of
LEVEL, FEAT_CFG, FEAT_THR, FEAT_WIN_POS and FEAT_WIN_SIZE it started under, the lines received, the lines processed,
whether it is damaged, whether it has ended, and its buffers as (context, SEQ, ADDR, LEN, PACK). -/
structure Frame where
  seq : Nat
  gen : Nat
  unsure : Bool
  fs : Nat
  fe : Nat
  par : List Nat
  lines : List (List Nat)
  done : Nat
  dam : Bool
  ended : Bool
  buf : Option (Nat × Nat × Nat × Nat × Bool)
  stats : Option (Nat × Nat × Nat)
  deriving DecidableEq, Repr

/-- A CCI list that waits or runs (R320-R323): sensor context, ring context and SEQ, generation (0 for a CCI_XFER), host
address and entries, whether it is ready, whether its write started while the sensor was streaming, the beam time of the start, and
the last entry to be written where EN was cleared during the write (R307). -/
structure CciList where
  sensor : Nat
  ctx : Nat
  seq : Nat
  gen : Nat
  addr : Nat
  entries : List Byte
  ready : Bool
  streaming : Bool
  since : Nat
  stop : Option Nat
  deriving DecidableEq, Repr

/-- A sensor context beyond its registers (R306-R327): frames in flight, oldest first; whether the frame being received
was dropped; damaged frames in a row; waiting buffers (statistics?, context, SEQ, ADDR, LEN, PACK); the generations
written, with the first frame of each, newest first; number, stamp and beam time of the last frame that ended. -/
structure Sens where
  frames : List Frame
  dropped : Bool
  damaged : Nat
  bufs : List (Bool × Nat × Nat × Nat × Nat × Bool)
  gens : List (Nat × Nat)
  lastEnd : Option (Nat × Nat × Nat)
  deriving DecidableEq, Repr

def Sens.init : Sens := ⟨[], false, 0, [], [], none⟩


/-- A compression job (R333, R340-R346): class, context and SEQ, whether it decodes, the input left and the input
consumed, the output produced and its limit, output and state addresses, END and FLUSH, the stream's state, its outcome
once known (status and CAUSE), its kind (0 host job, 1 program load, 2 camera frame, 3 a piece of a trace stream), the engine it is
bound to, and the results a camera frame completes with, or the channel of a trace and whether its piece was cut by a FLUSH. -/
structure Job where
  cls : Nat
  ctx : Nat
  seq : Nat
  dec : Bool
  input : List Byte
  used : Nat
  out : List Byte
  outMax : Nat
  outAddr : Nat
  stateAddr : Nat
  fin : Bool
  flush : Bool
  codec : Codec
  done : Option (Nat × Nat)
  kind : Nat
  bind : Nat
  resA : Nat
  resB : Nat
  deriving DecidableEq, Repr

/-- A head image being pushed to a bay (R520): the transaction that stages it (64 for one that is not staged), TYPE, the
bytes sent so far, the message in flight (0 IMG_OFFER, 1 IMG_DATA, 2 IMG_DONE, 3 accepted), its TAG, and the beam time
at which it was sent. -/
structure Push where
  txn : Nat
  type : Nat
  off : Nat
  phase : Nat
  tag : Nat
  at_ : Nat
  deriving DecidableEq, Repr

/-- A bay beyond its registers (R354-R378): the beam time at which its stage or attempt began; the round trips less
turnaround of the probes answered; the head's CAP_REPLY (VER_MIN, VER_MAX, VENDOR, MODEL, FW and the four slot bytes) and
the agreed version; whether CAP_ACK has come; whether it left ACTIVE since the last tick; superframes in a row with SKEW
over its limit and with a missing upstream block; the millisecond of yard time and the discarded frames in it; since when
the sleep conditions of each direction hold; the LINK_MGMT messages outstanding as (TAG, beam time, context, SEQ); the next
TAG; frames that wait for the lane to wake; the beam time of the last sampling-delay step while stepping; the last HEAD_IDs
seen, newest first; the moves of the word boundary in this search (R370); the head images being pushed, and the superframe a
bay's head switches at with its TYPE. -/
structure Bay where
  since : Nat
  probes : List Nat
  reply : Option (List Nat)
  agreed : Nat
  acked : Bool
  left : Bool
  skewRun : Nat
  missRun : Nat
  crcMs : Nat
  crcN : Nat
  eyeMin : Nat
  autoAl : Bool
  idle : Option Nat
  off : Option Nat
  mgmt : List (Nat × Nat × Nat × Nat)
  tag : Nat
  txq : List (List Nat)
  dly : Option Nat
  ids : List Nat
  slips : Nat
  push : List Push
  switchAt : Option Nat
  deriving DecidableEq, Repr

def Bay.init : Bay :=
  ⟨0, [], none, 0, false, false, 0, 0, 0, 0, 0, false, none, none, [], 0, [], none, [], 0, [], none⟩


/-- A sender of Announce messages that a port has heard (R431): its clockIdentity and portNumber, the last message, and the beam
times of the last message and of the one before. -/
structure Foreign where
  clock : Nat
  port : Nat
  ann : Ann
  last : Nat
  prev : Option Nat
  deriving DecidableEq, Repr

/-- A PTP port beyond its registers (R431-R435): the identity of the Sync that awaits its Follow_Up with its receive time,
times t1 and t2 of the last Sync, the send time of the last delay request, meanDelay; all in 2^-16 ns; the beam time of
the last valid Sync or Announce; the senders of Announce messages heard; and the beam time at which PRE_MASTER ends. -/
structure TPort where
  wait : Option (Nat × Int)
  t1 : Int
  t2 : Int
  t3 : Option Int
  delay : Int
  seen : Nat
  foreign : List Foreign
  masterAt : Option Nat
  deriving DecidableEq, Repr

def TPort.init : TPort := ⟨none, 0, 0, none, 0, 0, [], none⟩

/-- An accepted change of worlds that has not taken effect (R450): a Block World Table, Region Table entries, whole
security settings, and whether the zeroing of the pages it opens is over. -/
structure WorldNext where
  bwt : Option Nat
  regions : List (Nat × Nat × Nat × Nat)
  settings : Option SecSet
  ready : Bool
  deriving DecidableEq, Repr

/-- A unit of the farrier: a stall, or a bay (R460-R467). Kinds pending, as a mask; the kind that runs, with its beam time
of start and its goal; whether the host wrote the register during it; the equaliser climb (tap, direction, best offset, best
width, whether no step of the tap has been judged, the offsets before the run); the sensor reading for LAST_T; the baseline
samples and the delays collected, newest first; the last gate-off edge output, in taps; the gate-on edges at the balls whose
onset is searched, in taps, oldest first; the windows of the samples for the baseline; the last samples (time, value), newest
first; whether a trim written now is the farrier's own; and GATE_CFG and THR_CFG as the last sample collected found them
(R469). -/
structure FarUnit where
  pend : Nat
  run : Option Nat
  since : Nat
  goal : Int
  cut : Bool
  tap : Nat
  dir : Int
  best : Int
  bestW : Nat
  first : Bool
  olds : List Int
  seen : Int
  base : List Nat
  delays : List Int
  lastOff : Option Int
  edges : List Int
  wins : List (Nat × Nat)
  samples : List (Nat × Nat)
  own : Bool
  gcfg : Nat
  tcfg : Nat
  deriving DecidableEq, Repr

def FarUnit.init : FarUnit :=
  ⟨0, none, 0, 0, false, 0, 0, 0, 0, false, [], 0, [], [], none, [], [], [], false, 0x00280040, 0x40000800⟩

/-- A FAR_RUN that waits (R468): context and SEQ (none for a window's automatic runs), the runs it waits for as (unit,
kind), the rejected stalls and bays, and the sum of TEST_ERRS. -/
structure FarReq where
  who : Option (Nat × Nat)
  runs : List (Nat × Nat)
  badS : Nat
  badB : Nat
  errs : Nat
  deriving DecidableEq, Repr

/-- A lamp (R475, R477): the value shown during a fade, the value the fade began from, its start in beam time (none
where none runs) and its length in ms, and the beam time of its last test burst. -/
structure Lamp where
  cur : Nat
  base : Nat
  since : Option Nat
  dur : Nat
  tested : Nat
  deriving DecidableEq, Repr

/-- A held snapshot (R497, R498): its trigger, freeze tick, the counters at capture, and the captured sections in
order: block number, instance, words. -/
structure Snapshot where
  trigger : Nat
  source : Nat
  tick : Nat
  opSeconds : Nat
  powerCycles : Nat
  bwt : Nat
  sections : List (Nat × Nat × List Nat)
  deriving DecidableEq, Repr

/-- One monitoring trace channel (R502, R503): the records waiting in its ring (each a list of u16 elements), the
decimation count, whether a stream is open, the beam time at which the partly filled block began, how many of the first of the
ring's items the engine job of the channel codes (R333; 0 without a job), the trace
descriptors waiting as (context, SEQ, bytes written), the drops since the last completion, whether the stream is to be
cut, the coder's state (R334), the coded bytes that wait for a buffer, and the byte of its ring in the hayloft at which the next
record is stored (R16). -/
structure Trace where
  ring : List (List Nat)
  decim : Nat
  streamOpen : Bool
  blockSince : Option Nat
  taken : Nat
  bufs : List (Nat × Nat × Nat)
  dropsTold : Nat
  cut : Bool
  codec : Codec
  coded : List (List Byte)
  wp : Nat
  deriving DecidableEq, Repr


/-- A slot of an image TYPE (R508-R511): its state (0 EMPTY, 1 WRITING, 2 VERIFIED, 3 ACTIVE, 4 TRIAL, 5 INVALID), header
fields, and the bytes written. -/
structure Img where
  st : Nat
  version : Nat
  evaluated : Bool
  rollback : Nat
  smin : Nat
  smax : Nat
  vendor : Nat
  model : Nat
  bytes : List Byte
  deriving DecidableEq, Repr

def Img.init : Img := ⟨0, 0, false, 0, 0, 0, 0, 0, []⟩


set_option maxRecDepth 1000 in
/-- The state of the block. -/
structure State where
  /-- The commands waiting, first in, first out (the model's own queue). -/
  pending : List Instr
  /-- The set-up window: every 32-bit word that differs from its reset value, by rising offset. -/
  regs : List (Nat × Word)
  /-- Held low-word writes of 64-bit registers, by offset (R8). -/
  lowHeld : List (Nat × Word)
  /-- High words latched by reads of the low word, by offset (R8). -/
  hiLatch : List (Nat × Word)
  /-- Yard time in nanoseconds (R3). -/
  now : Nat
  /-- Nanoseconds of the beam timebase since reset, by which durations are measured (R429). -/
  beam : Nat
  /-- The model's own counter of free values drawn. -/
  fresh : Nat
  /-- What the block has sent out, in order (the model's own record of its outputs). -/
  out : List Out
  /-- Lifetime counters that are not zero, by counter number (R499). -/
  life : List (Nat × Nat)
  /-- Nanoseconds not yet counted as a whole second, by lifetime counter (R499). -/
  lifeRem : List (Nat × Nat)
  /-- The ring contexts (R38-R60). -/
  ctxs : Vector Ctx 256
  /-- The context whose DISABLE is in progress (R41). -/
  hifCmd : Option Nat
  /-- The class 0 context served last by the fetcher (R61). -/
  rrLast0 : Nat
  /-- The class 1 context served last by the fetcher (R61). -/
  rrLast1 : Nat
  /-- Bursts fetched while both classes waited, since class 1 was last served (R61). -/
  bursts : Nat
  /-- The vectors signalled in the present cycle of the fabric clock, while one runs (R58, R488); none between commands. -/
  cycleVecs : Option (List Nat)
  /-- The tack room's answer to the mailbox request, 16 words, not yet written (R67). -/
  mboxReply : Option (List Nat)
  /-- An event of R68 met the request in progress, so its response is discarded (R68). -/
  mboxDrop : Bool
  /-- The agreed version when the mailbox request was posted, by which it is judged (R66, R68). -/
  mboxVer : Nat
  /-- Subsystem Vendor ID and Subsystem ID of the configuration header (R35). -/
  subIds : Nat × Nat
  /-- The base address registers of the configuration header as stored: BAR 0 with 1 and BAR 2 with 3, 64-bit and
  non-prefetchable; BARs 4 and 5 read 0 (R36). -/
  bars : Vector Nat 6
  /-- The microvector period P in effect, in nanoseconds (R17, R18). -/
  mvP : Nat
  /-- An accepted period waiting for its first tick (R18). -/
  periodNext : Option Nat
  /-- Yard time at which the waiting period was accepted (R18). -/
  periodAt : Nat
  /-- The value of LAYER_SET in effect at the last tick (R25). -/
  layerSet : Nat
  /-- The microvector index within the current layer (R32). -/
  layerMv : Nat
  /-- Beam time of the last heartbeat restart (R100). -/
  hbSince : Nat
  /-- Beam time at which the layer deadline timer started (R102). -/
  ldSince : Option Nat
  /-- The layer deadline of this layer was told (R102). -/
  ldTold : Bool
  /-- The stalls beyond their registers (R22, R74-R145). -/
  stalls : Vector Stall 48
  /-- The stable lofts, 4 MiB each (R15). -/
  lofts : Vector (List (Nat × Byte)) 6
  /-- The gates are forced off by laser inhibit (R158). -/
  forced : Bool
  /-- A source became active and the stalls have not yet followed (R159). -/
  inhNew : Bool
  /-- Beam time at which laser inhibit last became active (R165). -/
  inhSince : Nat
  /-- Beam time at which the inhibit release wait began (R161). -/
  relSince : Option Nat
  /-- The release ended and INHIBIT clears at the next tick (R161). -/
  relTick : Bool
  /-- The heartbeat has expired since its last restart (R101). -/
  hbTold : Bool
  /-- The layer barrier completes at this tick (R24). -/
  barrierDue : Bool
  /-- The stalls follow an inhibit at this tick (R159). -/
  inhDue : Bool
  /-- Beam time since which the two inhibit inputs disagree (R160). -/
  lsDiff : Option Nat
  /-- The seam table (R180). -/
  seams : Vector Seam 192
  /-- Seam move requests not yet decided (R185). -/
  seamReqs : List SeamReq
  /-- Seam moves decided at step 6, to take effect at step 3 of the next tick (R185). -/
  seamMoves : List SeamReq
  /-- Pairs of started strokes reported as late conflicts: stall and item of each (R176). -/
  latePairs : List (Nat × Nat × Nat × Nat)
  /-- Earlier marshal parameters kept for pairs of started strokes, newest first (R179). -/
  mshOld : List (List Nat × List (Nat × Nat × Nat × Nat))
  /-- The melt-pool energy loops (R195-R208). -/
  engs : Vector Eng 48
  /-- The galvanometer servos (R212-R218). -/
  srvs : Vector Srv 48
  /-- The number of the first servo boundary not yet evaluated, yard time divided by 4,000 ns (R213). -/
  boundary : Nat
  /-- The servo command in progress of each stable: stall t and CMD (R216). -/
  srvCmd : Vector (Option (Nat × Nat)) 6
  /-- The CLE_LOADs that run (R220). -/
  cleLoads : List CleLoad
  /-- The transactions (R225). -/
  txns : Vector Txn 64
  /-- COMMITs checked so far (R236). -/
  gteOrder : Nat
  /-- The feedback ports (R254-R276). -/
  ports : Vector Port 8
  /-- The machine axes (R281-R298). -/
  axes : Vector Axis 8
  /-- The sensor contexts (R306-R327). -/
  sens : Vector Sens 16
  /-- The CCI lists of each port in the order in which they became ready (R320). -/
  cci : Vector (List CciList) 4
  /-- The first list of a port is in progress (R320). -/
  cciRun : Vector Bool 4
  /-- The sensor context a pipeline serves (R315). -/
  pipeCur : Vector (Option Nat) 2
  /-- Busy cycles of a pipeline in the present millisecond (R311). -/
  pipeBusy : Vector Nat 2
  /-- The jobs in progress of each compression engine, in arrival order (R333). -/
  cmpJobs : Vector (List Job) 2
  /-- Jobs that wait for an engine, in arrival order (R333). -/
  cmpWait : List Job
  /-- The classes of an engine's last blocks, newest first (R333). -/
  cmpRecent : Vector (List Nat) 2
  /-- Decoded program loads not yet taken up (R345). -/
  cmpDone : List Job
  /-- The bays (R354-R378). -/
  bays : Vector Bay 12
  /-- A superframe boundary was reached and the bays have not yet sent their SUPERFRAME blocks (R355). -/
  superDue : Bool
  /-- A millisecond of yard time has been reached and the temperatures are not yet evaluated (R415). -/
  thmDue : Bool
  /-- DMC error log: the eight words of each of the 16 entries written, by index (R391). -/
  elog : List (Nat × List Nat)
  /-- The hayloft, 16 MiB (R16, R383). -/
  hayloft : List (Nat × Byte)
  /-- The usable LP5 memory, by offset (R383, R387). -/
  lp5 : List (Nat × Byte)
  /-- Device addresses of the words that hold the poison pattern (R385, R389). -/
  poison : List Nat
  /-- Device addresses of the SRAM words that a read found uncorrectable and that no one has written since (R384, R385). -/
  sramBad : List Nat
  /-- Beam time of the last request to each DMC channel (R392). -/
  lpLast : Vector Nat 2
  /-- Writes that each channel of LP5 memory may still hold, as granule numbers, oldest first (R389). -/
  lpQueue : Vector (List Nat) 2
  /-- The command of DMC.CMD that runs: 1 FREQ_CHANGE, 2 RETRAIN, 0 none (R393, R394). -/
  lpCmd : Nat
  /-- Beam time since which each reference may have been in range (R401). -/
  refSince : Vector Nat 4
  /-- Beam time at which each reference was last qualified (R401). -/
  refQualAt : Vector Nat 4
  /-- The root fell back to SAFE since the last tick (R404). -/
  safeEvt : Bool
  /-- The root is between steps 1 and 6 of a fallback to SAFE (R404). -/
  safeOn : Bool
  /-- The last 16 conversions of each temperature sensor, newest first (R415). -/
  thmConv : Vector (List Int) 7
  /-- Evaluations in a row at which a sensor differed from its neighbours (R416). -/
  thmDev : Vector Nat 7
  /-- The sensor values at the last 100 ms multiples of yard time, newest first (R419). -/
  thmHist : List (List Int)
  /-- Beam time of the last rise above RATE (R419). -/
  thmRateAt : Option Nat
  /-- Beam time of the thermal shutdown (R420). -/
  sdAt : Option Nat
  /-- The units are disabled and gated after a thermal shutdown (R420). -/
  sdGated : Bool
  /-- Fewer than three sensors were good at the last thermal evaluation (R417). -/
  thmFew : Bool
  /-- Per unit of GATE_DENIED_LAST, the beam time from which its idle time counts before its gate may close (R408, R409). -/
  idleFrom : List (Nat × Nat)
  /-- Nanoseconds on the beam timebase from power-on to the last device reset (R411). -/
  aoTime : Nat
  /-- The compensation of the crystal now in effect, in ppb (R421). -/
  xoPpb : Int
  /-- The steering of the root PLL in effect, servo and crystal compensation together, in 10^-3 ppb (R428). -/
  steer : Int
  /-- The PTP ports (R431-R435). -/
  tports : Vector TPort 2
  /-- The integral term of the time servo, in 2^-8 ppb (R434). -/
  tmsI : Int
  /-- Measurements in a row below LOCK_NS (R434). -/
  lockRun : Nat
  /-- An accepted SET waiting for its boundary: its value, the elapsed time (`beam`) at which it was accepted, and the
  context and SEQ of a TIME_SET (R438). -/
  tmsSet : Option (Nat × Nat × Option (Nat × Nat))
  /-- Accepted offsets that act at the next tick: STEP or SLEW, value, and the context and SEQ of a TIME_ACCEPT (R437). -/
  tmsAcc : List (Bool × Int × Option (Nat × Nat))
  /-- The offset being removed by a slew (R437). -/
  slewVal : Int
  /-- How far a slew has come, in 10^-6 ns (R437). -/
  slewMoved : Nat
  /-- The TIME_ACCEPTs that wait for the slew: context, SEQ, and the yard time at which the slew began (R437, R439). -/
  slewWho : List (Nat × Nat × Nat)
  /-- The offset that the slew's acceptance took (R439). -/
  slewAcc : Int
  /-- Beam time at which HOLDOVER began (R435). -/
  holdAt : Option Nat
  /-- HOLD_LONG was reported for this HOLDOVER (R435). -/
  holdTold : Bool
  /-- PPS_OUT is high (R440). -/
  ppsUp : Bool
  /-- What RCLK_OUT carries, as `Out.rclkOut` names it (R440). -/
  rclkSrc : Nat
  /-- The Region Table: first page, last page and RT_ATTR of each entry (R448). -/
  rtab : Vector (Nat × Nat × Nat) 128
  /-- Register values in effect until the next tick, by offset (R211, R455). -/
  oldRegs : List (Nat × Word)
  /-- The 256-bit keys of the key store; which slots are occupied shows in TCK.KEY_STATUS (R451). -/
  keys : Vector Nat 16
  /-- The last SERIAL accepted for each KIND of signed object (R452). -/
  serials : Vector Nat 5
  /-- The hash of the machine builder's public key, fixed at the entry to DEVELOPMENT (R451). -/
  builderHash : Option Nat
  /-- The public half of the device signing key, 97 bytes (R451). -/
  signKey : Option Nat
  /-- The latest accepted security settings, kept in the secure NOR partition (R458). -/
  secSet : Option SecSet
  /-- Changes of worlds that have not taken effect, oldest first (R450). -/
  worldNext : List WorldNext
  /-- Device address ranges into which sealed loads have been made since reset (R457). -/
  sealedAt : List (Nat × Nat)
  /-- The farrier's units: stalls 0 to 47, and bays as 48 + b (R460-R467). -/
  fars : Vector FarUnit 60
  /-- The FAR_RUNs that wait (R468). -/
  farReqs : List FarReq
  /-- The lamps, by number (R473-R478). -/
  lamps : Vector Lamp 160
  /-- Lamp groups whose clear test runs (R479). -/
  lmpClear : List Nat
  /-- Staged recorder records, oldest first, at most 512 (R492). -/
  recStaged : List EvRec
  /-- Recorder records in the secure NOR partition, oldest first, at most 65,536 (R492). -/
  recNor : List EvRec
  /-- Records dropped since the last one stored (R490 LOST). -/
  recLost : Nat
  /-- The sealed recorder's chain value H, 384 bits (R493). -/
  recChain : Nat
  /-- A recorder window fetch is running (R495). -/
  recFetch : Bool
  /-- A snapshot trigger waiting for its freeze tick (R496). -/
  snapTrig : Option SnapTrig
  /-- The held snapshot (R497). -/
  snap : Option Snapshot
  /-- The monitoring trace channels (R502). -/
  traces : Vector Trace 64
  /-- The lifetime images in NOR, newest first, with their save counts by order (R499). -/
  lifeNor : List (List (Nat × Nat))
  /-- The save count of the newest lifetime image (R499). -/
  lifeSaves : Nat
  /-- OP_SECONDS at the last periodic lifetime save (R499). -/
  saveLast : Nat
  /-- The last power-down made a power-fail save (R490 UNCLEAN). -/
  pfailSaved : Bool
  /-- The next start-up follows a power-on (R500). -/
  coldStart : Bool
  /-- The image slots of MGMT, SEQ, LINK_BARE, HEAD, AOS, TCK and BOARD_SETTINGS; for AOS and TCK the partition and STAGE
  (R508, R511). -/
  imgs : Vector (Vector Img 2) 7
  /-- The rollback minimum of each TYPE, in the secure NOR partition (R517). -/
  rollMin : Vector Nat 7
  /-- The in-place copy whose marker is set: the TYPE's index and its beam time of start (R519). -/
  imgCopy : Option (Nat × Nat)
  /-- IMG_ACTIVATEs that are not staged and act at the next tick: context and SEQ (R518). -/
  imgAct : List (Nat × Nat)
  /-- IMG_ACTIVATEs that act at this tick. -/
  imgDue : List (Nat × Nat)
  /-- Beam time at which the management cluster restarted into a TRIAL slot (R513, R518). -/
  mgmtDown : Option Nat
  /-- The image bytes received by the service UART (R515). -/
  uart : List Byte
  /-- The TYPE the service UART's image is of (R515). -/
  uartType : Option Nat
  /-- A BOARD_SETTINGS blob has been written and is used from the next start (R521). -/
  boardNew : Bool
  deriving DecidableEq, Repr

/-- The block right after a device reset at first power-on (R10): every register at its reset value (nothing differs
from it in `regs`), every unit idle, every memory with nothing listed. -/
def State.reset : State where
  pending := []
  regs := []
  lowHeld := []
  hiLatch := []
  now := 0
  beam := 0
  fresh := 0
  out := []
  life := []
  lifeRem := []
  ctxs := Vector.replicate 256 Ctx.init
  hifCmd := none
  rrLast0 := 0
  rrLast1 := 0
  bursts := 0
  cycleVecs := none
  mboxReply := none
  mboxDrop := false
  mboxVer := 0
  subIds := (0, 0)
  bars := #v[4, 0, 4, 0, 0, 0]
  mvP := 1000
  periodNext := none
  periodAt := 0
  layerSet := 0
  layerMv := 0
  hbSince := 0
  ldSince := none
  ldTold := false
  stalls := Vector.replicate 48 Stall.init
  lofts := Vector.replicate 6 []
  forced := true
  inhNew := true
  inhSince := 0
  relSince := none
  relTick := false
  hbTold := false
  barrierDue := false
  inhDue := false
  lsDiff := none
  seams := Vector.replicate 192 ⟨0, 0, 0, 0, false, false, 0, 0⟩
  seamReqs := []
  seamMoves := []
  latePairs := []
  mshOld := []
  engs := Vector.replicate 48 Eng.init
  srvs := Vector.replicate 48 Srv.init
  boundary := 0
  srvCmd := Vector.replicate 6 none
  cleLoads := []
  txns := Vector.replicate 64 Txn.init
  gteOrder := 0
  ports := Vector.replicate 8 Port.init
  axes := Vector.replicate 8 Axis.init
  sens := Vector.replicate 16 Sens.init
  cci := Vector.replicate 4 []
  cciRun := Vector.replicate 4 false
  pipeCur := Vector.replicate 2 none
  pipeBusy := Vector.replicate 2 0
  cmpJobs := Vector.replicate 2 []
  cmpWait := []
  cmpRecent := Vector.replicate 2 []
  cmpDone := []
  bays := Vector.replicate 12 Bay.init
  superDue := false
  thmDue := false
  elog := []
  hayloft := []
  lp5 := []
  poison := []
  sramBad := []
  lpLast := Vector.replicate 2 0
  lpQueue := Vector.replicate 2 []
  lpCmd := 0
  refSince := Vector.replicate 4 0
  refQualAt := Vector.replicate 4 0
  safeEvt := false
  safeOn := false
  thmConv := Vector.replicate 7 []
  thmDev := Vector.replicate 7 0
  thmHist := []
  thmRateAt := none
  sdAt := none
  sdGated := false
  thmFew := false
  idleFrom := []
  aoTime := 0
  xoPpb := 0
  steer := 0
  tports := Vector.replicate 2 TPort.init
  tmsI := 0
  lockRun := 0
  tmsSet := none
  tmsAcc := []
  slewVal := 0
  slewMoved := 0
  slewWho := []
  slewAcc := 0
  holdAt := none
  holdTold := false
  ppsUp := false
  rclkSrc := 0
  rtab := Vector.replicate 128 (0, 0, 0)
  oldRegs := []
  keys := Vector.replicate 16 0
  serials := Vector.replicate 5 0
  builderHash := none
  signKey := none
  secSet := none
  worldNext := []
  sealedAt := []
  fars := Vector.replicate 60 FarUnit.init
  farReqs := []
  lamps := Vector.replicate 160 ⟨0, 0, none, 0, 0⟩
  lmpClear := []
  recStaged := []
  recNor := []
  recLost := 0
  recChain := 0
  recFetch := false
  snapTrig := none
  snap := none
  traces := Vector.replicate 64 ⟨[], 0, false, none, 0, [], 0, false, ⟨0, 0, false, true, false, 0, 0, 0, [], []⟩, [], 0⟩
  lifeNor := []
  lifeSaves := 0
  saveLast := 0
  pfailSaved := true
  coldStart := true
  imgs := Vector.replicate 7 (Vector.replicate 2 Img.init)
  rollMin := Vector.replicate 7 0
  imgCopy := none
  imgAct := []
  imgDue := []
  mgmtDown := none
  uart := []
  uartType := none
  boardNew := false

end Machine
end Sys2Proof
end

