-- ==== Sys2Proof/Machine/Ops.lean ====
section
/-!
DEFINITION. The named operations every chapter shares: sorted cells, the register file with its reset values
(R8, R10), byte memories, lifetime counters (R499) and units held in vectors.
-/
namespace Sys2Proof
namespace Machine

/-! ## Cells: a sorted list of keyed values in one canonical form -/

/-- The value listed under `k`. -/
def cellGet {α : Type} : List (Nat × α) → Nat → Option α
  | [], _ => none
  | (a, b) :: t, k => if a = k then some b else cellGet t k

/-- The list with `k` holding `v`, kept in rising order. -/
def cellPut {α : Type} : List (Nat × α) → Nat → α → List (Nat × α)
  | [], k, v => [(k, v)]
  | (a, b) :: t, k, v =>
    if k < a then (k, v) :: (a, b) :: t else if k = a then (k, v) :: t else (a, b) :: cellPut t k v

/-- The list without `k`. -/
def cellDel {α : Type} : List (Nat × α) → Nat → List (Nat × α)
  | [], _ => []
  | (a, b) :: t, k => if a = k then cellDel t k else (a, b) :: cellDel t k

/-- The list after `k` takes `v`, where an unlisted key reads as `d`: no entry ever equals what an unlisted key reads
as. -/
def cellSet {α : Type} [DecidableEq α] (l : List (Nat × α)) (k : Nat) (v d : α) : List (Nat × α) :=
  if v = d then cellDel l k else cellPut l k v

/-- Keys strictly rising. -/
def cellsRising {α : Type} : List (Nat × α) → Bool
  | [] => true
  | [_] => true
  | (a, _) :: (b, y) :: t => decide (a < b) && cellsRising ((b, y) :: t)

/-! ## The register map (R27, R28) -/

/-- The rows of the block that holds offset `o` and the offset within the block; none between block ranges (R7). -/
def blockAt (o : Nat) : Option (List RegRow × Nat) :=
  let r := o % 0x10000
  if o < 0x130000 then
    match o / 0x10000 with
    | 0 => some (glbRows, r) | 1 => some (hifRows, r) | 2 => some (yrdRows, r) | 3 => some (gteRows, r)
    | 4 => some (cpmRows, r) | 5 => some (thmRows, r) | 6 => some (tmsRows, r) | 7 => some (evcRows, r)
    | 8 => some (dgnRows, r) | 9 => some (erwRows, r) | 10 => some (dmcRows, r) | 11 => some (cmpRows, r)
    | 12 => some (imgRows, r) | 13 => some (axsRows, r) | 14 => some (fbkRows, r) | 15 => some (lmpRows, r)
    | 16 => some (farRows, r) | 17 => some (tckRows, r) | _ => some (bootRows, r)
  else if o < 0x200000 then none
  else if o < 0x800000 then
    let x := (o - 0x200000) % 0x100000
    if x < 0x80000 then some (stallRows, r)
    else if x < 0x90000 then some (cleRows, r)
    else if x < 0xA0000 then some ([], r)
    else if x < 0xB0000 then some (stbRows, r)
    else some ([], x - 0xB0000)
  else if o < 0x8C0000 then some (lnkRows, r)
  else none

/-- Where a row covers the in-block offset `rel`: 0 its low (or only) word, 1 its high word. -/
def rowWord (w : RegRow) (rel : Nat) : Option Nat :=
  if rel < w.off then none else
  let d := rel - w.off
  let i := if w.s1 = 0 then 0 else d / w.s1
  let r := if w.s1 = 0 then d else d % w.s1
  let j := if w.s2 = 0 then 0 else r / w.s2
  let q := if w.s2 = 0 then r else r % w.s2
  if i < w.n1 ∧ j < w.n2 then
    if q = 0 then some 0 else if q = 4 ∧ w.wide then some 1 else none
  else none

/-- The first row that covers the in-block offset, with the word it covers. -/
def findRow (rel : Nat) : List RegRow → Option (RegRow × Nat)
  | [] => none
  | w :: t => match rowWord w rel with
    | some k => some (w, k)
    | none => findRow rel t

/-- The register row of a set-up window offset. -/
def rowAt (o : Nat) : Option (RegRow × Nat) :=
  match blockAt o with
  | none => none
  | some (rows, rel) => findRow rel rows

/-- The event sources whose records cannot be switched off (R489). -/
def alwaysSource (n : Nat) : Bool :=
  [2, 4, 10, 13, 17, 18, 25, 27, 32, 33, 34, 35, 36, 37, 40, 42, 58, 66, 73, 75, 208, 216].contains n ||
  (256 ≤ n && n < 496 && (n - 256) % 40 < 32 && (n - 256) % 4 == 0)

/-- The word at an offset after a device reset (R10): the row's reset value, or the four registers whose reset value
depends on the instance (R1, R31, R76, R129). -/
def resetWord (o : Nat) : Word :=
  if 0x20040 ≤ o ∧ o < 0x20070 then BitVec.ofNat 32 (0x83828180 + (o - 0x20040) / 4 * 0x04040404)
  else if 0x71000 ≤ o ∧ o < 0x71800 then if alwaysSource ((o - 0x71000) / 4) then 0x500#32 else 0#32
  else if 0x200000 ≤ o ∧ o < 0x800000 ∧ o % 0x100000 < 0x80000 ∧ o % 0x10000 = 0x10 then
    BitVec.ofNat 32 (0x60 * (o / 0x10000 % 8))
  else if 0x200000 ≤ o ∧ o < 0x800000 ∧ o % 0x100000 < 0x80000 ∧ o % 0x10000 = 0x134 then
    BitVec.ofNat 32 ((2 * (o / 0x10000 % 8) + 1) * 0x100 + 2 * (o / 0x10000 % 8))
  else match rowAt o with
    | some (w, k) => BitVec.ofNat 32 (if k = 0 then w.reset else w.reset / 2 ^ 32)
    | none => 0#32

/-! ## The register file -/

/-- The stored word at a set-up window offset. -/
def rd (s : State) (o : Nat) : Word := (cellGet s.regs o).getD (resetWord o)

/-- Store a word at a set-up window offset. -/
def wr (s : State) (o : Nat) (v : Word) : State := { s with regs := cellSet s.regs o v (resetWord o) }

/-- The stored word as a number. -/
def rdN (s : State) (o : Nat) : Nat := (rd s o).toNat

/-- Store a number, cut to 32 bits. -/
def wrN (s : State) (o : Nat) (v : Nat) : State := wr s o (BitVec.ofNat 32 v)

/-- A field's value. -/
def get (s : State) (f : Fld) : Nat := bits (rdN s f.off) f.lo f.w

/-- A one-bit field. -/
def flag (s : State) (f : Fld) : Bool := get s f == 1

/-- A field's value as a two's complement number. -/
def getI (s : State) (f : Fld) : Int := sext f.w (get s f)

/-- Store a field, cut to its width; the register's other bits stay. -/
def put (s : State) (f : Fld) (v : Nat) : State := wrN s f.off (setBits (rdN s f.off) f.lo f.w v)

/-- Set a one-bit field. -/
def setF (s : State) (f : Fld) : State := put s f 1

/-- Clear a field. -/
def clrF (s : State) (f : Fld) : State := put s f 0

/-- A 64-bit register's value (R8). -/
def rd64 (s : State) (o : Nat) : Nat := rdN s o + 2 ^ 32 * rdN s (o + 4)

/-- Store a 64-bit register (R8). -/
def wr64 (s : State) (o : Nat) (v : Nat) : State := wrN (wrN s o v) (o + 4) (v / 2 ^ 32)

/-- Add to a counter register that wraps at its width. -/
def addW (s : State) (o n : Nat) : State := wrN s o (rdN s o + n)

/-- Add to a counter register that saturates at its width. -/
def addSat (s : State) (o n : Nat) : State := wrN s o (satN 0xFFFFFFFF (rdN s o + n))

/-- Add to a counter field that saturates at its width. -/
def addSatF (s : State) (f : Fld) (n : Nat) : State := put s f (satN (2 ^ f.w - 1) (get s f + n))

/-- Add to a 64-bit counter. -/
def add64 (s : State) (o n : Nat) : State := wr64 s o (rd64 s o + n)

/-- A register as a signed 32-bit number. -/
def rdI (s : State) (o : Nat) : Int := sext 32 (rdN s o)

/-- Store a signed number in a register. -/
def wrI (s : State) (o : Nat) (v : Int) : State := wrN s o (code 32 v)

/-! ## Byte memories: an unlisted address reads 0 (notes/assumptions/4) -/

/-- A byte memory in canonical form: addresses strictly rising, no entry equal to the 0 an unlisted address reads
as. -/
abbrev Mem := List (Nat × Byte)

/-- The canonical form of a byte memory. -/
def Mem.wf (m : Mem) : Bool := cellsRising m && m.all (fun c => c.2 != 0#8)

/-- One byte of a memory. -/
def memGet (m : Mem) (a : Nat) : Byte := (cellGet m a).getD 0#8

/-- Store one byte. -/
def memSet (m : Mem) (a : Nat) (v : Byte) : Mem := cellSet m a v 0#8

/-- `n` bytes from address `a`. -/
def memBytes (m : Mem) (a : Nat) : Nat → List Byte
  | 0 => []
  | n + 1 => memGet m a :: memBytes m (a + 1) n

/-- Store bytes from address `a` on. -/
def memWrite (m : Mem) (a : Nat) : List Byte → Mem
  | [] => m
  | b :: bs => memWrite (memSet m a b) (a + 1) bs

/-- The little-endian number of `n` bytes at `a` (R2). -/
def memLe (m : Mem) (a n : Nat) : Nat := leNat (memBytes m a n)

/-! ## Lifetime counters (R499) -/

/-- A lifetime counter's value. -/
def life (s : State) (k : Nat) : Nat := (cellGet s.life k).getD 0

/-- Set a lifetime counter. -/
def lifeSet (s : State) (k v : Nat) : State := { s with life := cellSet s.life k v 0 }

/-- Add to a lifetime counter; it saturates at 2^64 - 1 (R499). -/
def lifeAdd (s : State) (k n : Nat) : State := lifeSet s k (satN (2 ^ 64 - 1) (life s k + n))

/-- Raise a "largest" lifetime counter (R499). -/
def lifeMax (s : State) (k v : Nat) : State := if life s k < v then lifeSet s k (satN (2 ^ 64 - 1) v) else s

/-- Add nanoseconds to a lifetime counter of whole seconds (R499). -/
def lifeTime (s : State) (k dt : Nat) : State :=
  let t := (cellGet s.lifeRem k).getD 0 + dt
  lifeAdd { s with lifeRem := cellSet s.lifeRem k (t % 1000000000) 0 } k (t / 1000000000)

/-! ## Units held in vectors -/

/-- The vector with unit `i` changed. -/
def vmod {α : Type} {n : Nat} (v : Vector α n) (i : Fin n) (f : α → α) : Vector α n := v.set i.val (f v[i.val]) i.isLt

/-- The vector with unit `i` replaced. -/
def vset {α : Type} {n : Nat} (v : Vector α n) (i : Fin n) (x : α) : Vector α n := v.set i.val x i.isLt

/-- All indices of a bounded range, ascending. -/
def fins (n : Nat) : List (Fin n) := List.finRange n

/-- Run an operation for every index of a bounded range, ascending. -/
def forAll {α : Type} (n : Nat) (f : Fin n → α → α) (a : α) : α := (fins n).foldl (fun x i => f i x) a

/-! ## Outputs, free values -/

/-- Send something out. -/
def emit (o : Out) (s : State) : State := { s with out := s.out ++ [o] }

/-- Draw a free value of a place `tag` (notes/assumptions/3). -/
def draw (tag : Nat) (s : State) : Nat × State := (Config.free tag s.fresh, { s with fresh := s.fresh + 1 })

end Machine
end Sys2Proof
end

