-- ==== Sys2Proof/Machine/Profile.lean ====
section
/-!
DEFINITION. Jerk-limited profiles (R113, R114, R116) and the speeds at the joints of a path (R117). Times are in
1/65,536 tap (26.0417 ps / 65,536), lengths in 2^-32 LSB, speeds in 2^-32 µm/s, accelerations in 2^-16 µm/s² and jerks in
µm/s³; every quotient is rounded down to those units, so that the errors of a stroke of 1,024 marks stay far below the tolerance
of R109 (notes/assumptions/20). Acceleration and jerk limits are given in whole µm/s² and µm/s³.
-/
namespace Sys2Proof
namespace Machine

/-- Time units in a tap. -/
def tapU : Nat := 65536

/-- Time units in a second. -/
def tauHz : Nat := 38400000000 * 65536

/-- Speed units in 1 µm/s. -/
def speedU : Nat := 2 ^ 32

/-- Acceleration units in 1 µm/s². -/
def accU : Nat := 2 ^ 16

/-- Length units in 1 µm. -/
def lenU : Nat := 2 ^ 33

/-- Length covered by a segment after `t`. -/
def Seg.dist (g : Seg) (t : Nat) : Int :=
  lenU * (6 * (tauHz : Int) ^ 2 * accU * g.v * t + 3 * (tauHz : Int) * speedU * g.a * t ^ 2 + speedU * accU * g.j * t ^ 3) /
    (6 * (tauHz : Int) ^ 3 * speedU * accU)

/-- Speed of a segment after `t`. -/
def Seg.speed (g : Seg) (t : Nat) : Int :=
  g.v + speedU * (2 * (tauHz : Int) * g.a * t + accU * g.j * t ^ 2) / (2 * (tauHz : Int) ^ 2 * accU)

/-- Acceleration of a segment after `t`. -/
def Seg.acc (g : Seg) (t : Nat) : Int := g.a + accU * g.j * t / (tauHz : Int)

/-- Length of a list of segments. -/
def segsDist (l : List Seg) : Int := l.foldl (fun d g => d + g.dist g.dur) 0

/-- Duration of a list of segments. -/
def segsDur (l : List Seg) : Nat := l.foldl (fun d g => d + g.dur) 0

/-- The change of speed from `v` towards `vt` whose acceleration towards the target is `al ≥ 0`, reaching the target
with zero acceleration (R113, R116). `sg` is the sign of the change. A plan that starts above the acceleration limit, after a
limit was lowered, takes the acceleration to the limit at once; R116 describes no jerk phase for that. DESIGN CHOICE
(notes/assumptions/189). -/
def rampFrom (A J : Nat) (sg v al vt : Int) : List Seg :=
  let dv := (vt - v).natAbs
  let a := al.toNat
  if 2 * J * dv * accU ^ 2 < a * a * speedU then
    [⟨2 * dv * accU * tauHz / (a * speedU), -sg * ((a * a * speedU / (2 * dv * accU ^ 2) : Nat) : Int), sg * al, v⟩]
  else
    let full := dv + a * a * speedU / (2 * J * accU ^ 2)
    let p := if A * A * speedU ≤ full * J then A * accU else isqrt (full * J * accU ^ 2 / speedU)
    let v1 := v + sg * ((speedU * (p * p - a * a) / (2 * J * accU ^ 2) : Nat) : Int)
    let v3 := vt - sg * ((speedU * (p * p) / (2 * J * accU ^ 2) : Nat) : Int)
    [⟨(p - a) * tauHz / (J * accU), sg * J, sg * al, v⟩,
     ⟨if p = 0 then 0 else (v3 - v1).natAbs * accU * tauHz / (p * speedU), 0, sg * p, v1⟩,
     ⟨p * tauHz / (J * accU), -sg * J, sg * p, v3⟩]

/-- The profile from speed `v` and acceleration `a` to speed `vt` with zero acceleration, under acceleration limit
`A` and jerk limit `J` (R113, R116). A path that slows down on its way to a higher speed comes to rest under R116 where it could
not otherwise help reversing. -/
def rampSegs (A J : Nat) (v a vt : Int) : List Seg :=
  if v = vt ∧ a = 0 then []
  else
    let sg : Int := if v < vt ∨ (v = vt ∧ a < 0) then 1 else -1
    let al := sg * a
    if al < 0 then
      let n := al.natAbs
      let v0 := v - sg * ((n * n * speedU / (2 * J * accU ^ 2) : Nat) : Int)
      if 0 < sg ∧ v0 < 0 then rampFrom A J (-1) v n 0 ++ rampFrom A J 1 0 0 vt
      else ⟨n * tauHz / (J * accU), sg * J, a, v⟩ :: rampFrom A J sg v0 0 vt
    else rampFrom A J sg v al vt

/-- Length a change of speed needs; with no acceleration at its start it is the same in both directions (R113). -/
def rampDist (A J : Nat) (v a vt : Int) : Int :=
  if a = 0 ∧ vt < v then segsDist (rampSegs A J vt 0 v) else segsDist (rampSegs A J v a vt)

/-- Bisection: `lo` holds, `hi` does not; the last value found that holds. -/
def bisect : Nat → (Int → Bool) → Int → Int → Int
  | 0, _, lo, _ => lo
  | n + 1, ok, lo, hi =>
    if (hi - lo).natAbs ≤ 1 then lo
    else
      let m := (lo + hi) / 2
      if ok m then bisect n ok m hi else bisect n ok lo m

/-- The speed reached when the acceleration is taken to zero at once. -/
def restAcc (J : Nat) (v a : Int) : Int :=
  let d : Int := ((a.natAbs * a.natAbs * speedU / (2 * J * accU ^ 2) : Nat) : Int)
  max 0 (if a < 0 then v - d else v + d)

/-- The speed nearest to `target` that can be reached within a length. -/
def reach (len A J : Nat) (v a target : Int) : Int :=
  let ok := fun x => decide (rampDist A J v a x ≤ len)
  if ok target then target else bisect 96 ok (restAcc J v a) target

/-- A stretch of path as the planner sees it: length, its own speed, acceleration and jerk limits, and the joint
speed at its end (R117, R119). -/
structure Piece where
  len : Nat
  vmax : Nat
  acc : Nat
  jerk : Nat
  joint : Nat

/-- The greatest speeds at the ends of the pieces from which the rest can still be run (R117): joint speeds lowered
until every later piece is long enough. -/
def endCaps : List Piece → List Int
  | [] => []
  | p :: ps =>
    match ps, endCaps ps with
    | q :: _, c :: cs => min (p.joint : Int) (reach q.len q.acc q.jerk c 0 q.vmax) :: c :: cs
    | _, cs => (p.joint : Int) :: cs

/-- The way from `(v, a)` to the highest speed `x` of a piece: from a deceleration it leads through the speed at which the
acceleration is back at zero, unless `x` is lower (R116). -/
def climb (A J : Nat) (v a x : Int) : List Seg :=
  let v0 := restAcc J v a
  if a < 0 ∧ v0 ≤ x then rampSegs A J v a v0 ++ rampSegs A J v0 0 x else rampSegs A J v a x

/-- The segments of one piece from `(v, a)` to end speed `v1`: the highest speed that fits, held as long as the
length allows (R114, R117). A piece without length only changes its speed. -/
def pieceSegs (p : Piece) (v a v1 : Int) : List Seg :=
  if p.len = 0 then rampSegs p.acc p.jerk v a v1 else
  let f := fun x => (if a < 0 then segsDist (climb p.acc p.jerk v a x) else rampDist p.acc p.jerk v a x) +
    rampDist p.acc p.jerk x 0 v1
  let lo := if a < 0 then v1 else max (restAcc p.jerk v a) v1
  let ok := fun x => decide (f x ≤ p.len)
  let top := if lo ≤ (p.vmax : Int) then (if ok p.vmax then (p.vmax : Int) else if ok lo then bisect 96 ok lo p.vmax else v1)
    else if ok p.vmax then (p.vmax : Int) else v1
  let up := climb p.acc p.jerk v a top
  let down := rampSegs p.acc p.jerk top 0 v1
  let rest := (p.len : Int) - segsDist up - segsDist down
  let cruise := if 0 < rest ∧ 0 < top then [⟨(rest.toNat * speedU * tauHz / (lenU * top.toNat)), 0, 0, top⟩] else []
  up ++ cruise ++ down

/-- The segments of every piece, from the first one's starting speed and acceleration. -/
def planPieces (v a : Int) : List Piece → List Int → List (List Seg)
  | p :: ps, c :: cs =>
    let v1 := reach p.len p.acc p.jerk v a c
    pieceSegs p v a v1 :: planPieces v1 0 ps cs
  | _, _ => []

/-- The position, speed and acceleration `t` into a list of segments. -/
def segsAt : List Seg → Nat → Int × Int × Int
  | [], _ => (0, 0, 0)
  | g :: gs, t =>
    if t < g.dur ∨ gs = [] then (g.dist t, g.speed t, g.acc t)
    else let (d, v, a) := segsAt gs (t - g.dur); (g.dist g.dur + d, v, a)

/-- The end speed of a list of segments. -/
def segsEnd (l : List Seg) : Int :=
  match l.getLast? with
  | some g => g.speed g.dur
  | none => 0

end Machine
end Sys2Proof
end

