-- ==== Sys2Proof/Machine/Geometry.lean ====
section
/-!
DEFINITION. The geometry of moves (R111, R117-R120, R128): points and tangents on lines and arcs, focus along a move,
wobble, bounding boxes, and the limits of a move. Positions are in 1/256 LSB (R109), unit vectors in 2^-40.
-/
namespace Sys2Proof
namespace Machine

/-- Division rounded to the nearest, ties away from zero (R109). -/
def rAway (x : Int) (d : Nat) : Int :=
  let q : Int := ((2 * x.natAbs + d) / (2 * d) : Nat)
  if x < 0 then -q else q

/-- The integer square root of a non-negative integer. -/
def isqrtI (x : Int) : Int := (isqrt x.toNat : Nat)

/-- Sum of an alternating power series: `t` is the last term, `k` its power, `q` the square of the angle. -/
def altSeries : Nat → Nat → Int → Int → Int → Int
  | 0, _, _, _, acc => acc
  | n + 1, k, q, t, acc =>
    let t' := -(t * q / 2 ^ 60) / ((k + 1) * (k + 2))
    altSeries n (k + 2) q t' (acc + t')

/-- Sine and cosine of an angle of 0 to a quarter turn, given in 2^-60 rad, in 2^-60. -/
def sinQ (x : Int) : Int := altSeries 14 1 (x * x / 2 ^ 60) x x
def cosQ (x : Int) : Int := altSeries 14 0 (x * x / 2 ^ 60) (2 ^ 60) (2 ^ 60)

/-- Sine of an angle in 2^-40 turn, in 2^-60. -/
def sinTurn (x : Int) : Int :=
  let m := x % 2 ^ 40
  let th := m % 2 ^ 38 * 3622009729038561421 / 2 ^ 39
  match (m / 2 ^ 38).toNat with
  | 0 => sinQ th
  | 1 => cosQ th
  | 2 => -sinQ th
  | _ => -cosQ th

/-- Cosine of an angle in 2^-40 turn, in 2^-60. -/
def cosTurn (x : Int) : Int := sinTurn (x + 2 ^ 38)

/-- Length in 2^-32 LSB of a vector in 1/256 LSB. -/
def vecLen (dx dy : Int) : Nat := isqrt ((dx * dx + dy * dy).toNat * 2 ^ 48)

/-- A radius vector turned by an angle in 2^-40 turn. -/
def turned (dx dy th : Int) : Int × Int :=
  let c := cosTurn th
  let n := sinTurn th
  (rAway (dx * c - dy * n) (2 ^ 60), rAway (dx * n + dy * c) (2 ^ 60))

/-- The angle a move has turned through after length `s`, in 2^-40 turn. -/
def Move.angle (m : Move) (s : Int) : Int := if m.len = 0 then 0 else m.sweep * 2 ^ 16 * s / m.len

/-- The point of a move after length `s`. -/
def Move.point (m : Move) (s : Int) : Int × Int :=
  match m.shape with
  | 0 => if m.len = 0 then (m.x + m.dx, m.y + m.dy) else (m.x + rAway (m.dx * s) m.len, m.y + rAway (m.dy * s) m.len)
  | 1 => let (rx, ry) := turned m.dx m.dy (m.angle s); (m.x - m.dx + rx, m.y - m.dy + ry)
  | _ => (m.x, m.y)

/-- The end point of a move; of an arc the exact end of its sweep, rounded (R81). -/
def Move.stop (m : Move) : Int × Int :=
  if m.shape = 1 then let (rx, ry) := turned m.dx m.dy (m.sweep * 2 ^ 16); (m.x - m.dx + rx, m.y - m.dy + ry)
  else m.point m.len

/-- The focus value of a move after length `s` (R119). -/
def Move.focus (m : Move) (s : Int) : Int := if m.len = 0 then m.f1 else m.f0 + rAway ((m.f1 - m.f0) * s) m.len

/-- The unit tangent of a move after length `s`, in 2^-40; zero for a focus move. -/
def Move.tangent (m : Move) (s : Int) : Int × Int :=
  match m.shape with
  | 0 => if m.len = 0 then (0, 0) else (m.dx * 2 ^ 64 / m.len, m.dy * 2 ^ 64 / m.len)
  | 1 =>
    let (rx, ry) := turned (m.dx * 2 ^ 20) (m.dy * 2 ^ 20) (m.angle s)
    let r : Int := (vecLen m.dx m.dy : Nat)
    if r = 0 then (0, 0)
    else if m.sweep < 0 then (ry * 2 ^ 44 / r, -rx * 2 ^ 44 / r) else (-ry * 2 ^ 44 / r, rx * 2 ^ 44 / r)
  | _ => (0, 0)

/-- A line from a point to a point, or a focus-only move where they are equal (R112, R546). -/
def lineMove (kind item tag spd : Nat) (wob : Nat × Nat × Nat × Nat) (x y f x1 y1 f1 dist : Int) : Move :=
  if x = x1 ∧ y = y1 then
    ⟨kind, 2, x, y, 0, 0, 0, (f1 - f).natAbs * 2 ^ 32, f, f1, item, tag, spd, wob, dist, 0, [], 0⟩
  else ⟨kind, 0, x, y, x1 - x, y1 - y, 0, vecLen (x1 - x) (y1 - y), f, f1, item, tag, spd, wob, dist, 0, [], 0⟩

/-- The length of an arc of a radius vector through a sweep in 2^-24 turn. -/
def arcLen (dx dy sweep : Int) : Nat := vecLen dx dy * sweep.natAbs * 7244019458077122842 / 2 ^ 84

/-- An arc from a point about a centre (R118). Its command carries no TAG, and its entries show 0. DESIGN CHOICE
(notes/assumptions/218). -/
def arcMove (item spd : Nat) (wob : Nat × Nat × Nat × Nat) (x y f cx cy sweep f1 dist : Int) : Move :=
  ⟨4, 1, x, y, x - cx, y - cy, sweep, arcLen (x - cx) (y - cy) sweep, f, f1, item, 0, spd, wob, dist, 0, [], 0⟩

/-- The programmed-path length of a move: focus moves have none (R546). -/
def Move.planar (m : Move) : Nat := if m.shape = 2 then 0 else m.len

/-- The effective mark speed (R115). -/
def vEff (spd kS kT lim : Nat) : Nat :=
  let v := spd * kS * kT * speedU / 2 ^ 28
  if lim = 0 then v else min v (lim * speedU)

/-- The speed, acceleration and jerk limits of a move at effective mark speed `ve` (R113, R114, R118, R119). Every
limit is at least 1. -/
def Move.limits (m : Move) (e : PlanEnv) (ve : Nat) : Nat × Nat × Nat :=
  let mark := m.kind != 0 && m.kind != 6
  let V := if mark then ve else m.spd * speedU
  let A := if mark then e.markA else e.jumpA
  let J := max 1 (if mark then e.markJ else e.jumpJ)
  match m.shape with
  | 2 => (max 1 e.fV, max 1 e.fA, J)
  | sh =>
    let V1 := if sh = 1 then min V (isqrt (A * vecLen m.dx m.dy * speedU ^ 2 / lenU)) else V
    let df := (m.f1 - m.f0).natAbs * 2 ^ 32
    if df = 0 then (max 1 V1, max 1 A, J)
    else (max 1 (min V1 (e.fV * m.len / df)), max 1 (min A (e.fA * m.len / df)), J)

/-- The joint speed of two moves (R117): tangents `a` and `b`, the limits `A` and deviation `dev` in LSB. -/
def jointSpeed (A dev : Nat) (a b : Int × Int) (vin vout : Nat) : Nat :=
  let v := min vin vout
  let dot := a.1 * b.1 + a.2 * b.2
  let cross := a.1 * b.2 - a.2 * b.1
  if 0 < dot ∧ cross.natAbs ≤ 268435453 * 2 ^ 40 then v
  else
    let dx := a.1 - b.1
    let dy := a.2 - b.2
    let h2 := (dx * dx + dy * dy).toNat / 4
    let c := isqrt (2 ^ 80 - min (2 ^ 80) h2)
    let rho2 := dev * c * (2 ^ 40 + c)
    if h2 = 0 then v else min v (isqrt (A * rho2 * 2 ^ 63 / h2))

/-- The joint speed between two moves with their limits; 0 next to a focus-only move (R112, R546). -/
def joint (e : PlanEnv) (mark : Bool) (m n : Move) (vm vn : Nat) : Nat :=
  if m.shape = 2 ∨ n.shape = 2 then 0
  else jointSpeed (if mark then e.markA else e.jumpA) e.dev (m.tangent m.len) (n.tangent 0) vm vn

/-- The wobble offset (R120) along and across, in 1/256 LSB: `tw` since the first RUN_IN entry, `v` over `ve`. -/
def wobbleOff (w : Nat × Nat × Nat × Nat) (tw v ve : Nat) : Int × Int :=
  let (shape, freq, al, ac) := w
  if (al = 0 ∧ ac = 0) ∨ ve = 0 then (0, 0)
  else
    let th : Int := ((freq * tw * 2 ^ 40 / tauHz : Nat) : Int)
    let amp := fun (a : Nat) (f : Int) => rAway ((a : Int) * 256 * v * f) (ve * 2 ^ 60)
    match shape with
    | 0 => (amp al (cosTurn th - 2 ^ 60), amp ac (sinTurn th))
    | 1 => (amp al (sinTurn (2 * th)), amp ac (sinTurn th))
    | 2 => (0, amp ac (sinTurn th))
    | _ => (amp al (sinTurn th), 0)

/-- A frame offset laid along a unit tangent and its counter-clockwise normal. -/
def inFrame (t o : Int × Int) : Int × Int :=
  (rAway (o.1 * t.1 - o.2 * t.2) (2 ^ 40), rAway (o.1 * t.2 + o.2 * t.1) (2 ^ 40))

/-- The quadrant of a vector: 0 for +X to below +Y, counter-clockwise. -/
def quadrant (x y : Int) : Int := if 0 < x ∧ 0 ≤ y then 0 else if x ≤ 0 ∧ 0 < y then 1 else if x < 0 ∧ y ≤ 0 then 2 else 3

/-- The quarter points an arc passes, as unit directions. -/
def arcAxes (m : Move) : List (Int × Int) :=
  let e := m.stop
  let ex := e.1 - (m.x - m.dx)
  let ey := e.2 - (m.y - m.dy)
  let (q0, q1) := if 0 < m.sweep then (quadrant m.dx m.dy, quadrant ex ey) else (quadrant ex ey, quadrant m.dx m.dy)
  let b := ((q1 - q0) % 4).toNat
  let n := if 2 ^ 24 ≤ m.sweep.natAbs ∨ (b = 0 ∧ 2 ^ 23 < m.sweep.natAbs) then 4 else b
  (List.range n).map fun (i : Nat) =>
    match ((q0 + 1 + i) % 4).toNat with
    | 0 => (1, 0) | 1 => (0, 1) | 2 => (-1, 0) | _ => (0, -1)

/-- The corners that bound a move, in 1/256 LSB, without wobble. -/
def Move.extent (m : Move) : List (Int × Int) :=
  (m.x, m.y) :: m.stop ::
    (if m.shape = 1 then
      let r : Int := ((vecLen m.dx m.dy / 2 ^ 24 : Nat) : Int)
      (arcAxes m).map fun a => (m.x - m.dx + a.1 * r, m.y - m.dy + a.2 * r)
    else [])

/-- The corners of the box of wobble offsets of a shape, along and across, at full amplitude in 1/256 LSB (R120). -/
def wobbleCorners (w : Nat × Nat × Nat × Nat) : List (Int × Int) :=
  let al : Int := w.2.2.1 * 256
  let ac : Int := w.2.2.2 * 256
  if al = 0 ∧ ac = 0 then [(0, 0)]
  else match w.1 with
  | 0 => [(-2 * al, -ac), (-2 * al, ac), (0, -ac), (0, ac)]
  | 1 => [(-al, -ac), (-al, ac), (al, -ac), (al, ac)]
  | 2 => [(0, -ac), (0, ac)]
  | _ => [(-al, 0), (al, 0)]

/-- A move shifted by an offset in the frame of its path: a corner of the wobble's box runs a parallel line or an arc about the
same centre. -/
def Move.shifted (m : Move) (o : Int × Int) : Move :=
  let (u, w) := inFrame (m.tangent 0) o
  if m.shape = 1 then { m with x := m.x + u, y := m.y + w, dx := m.dx + u, dy := m.dy + w }
  else { m with x := m.x + u, y := m.y + w }

/-- The focus weight of two-plane correction (R126). -/
def planeWeight (e : PlanEnv) (f : Int) : Int :=
  if e.plane1 = e.plane0 then 0 else ((f - e.plane0) * 65536).fdiv (e.plane1 - e.plane0)

/-- The checks of a move, in order (R128): FIELD, FOCUS_RANGE, GRID_UNVERIFIED. The wobble counts with its full amplitude in the
directions its shape moves (R120). -/
def Move.check (m : Move) (e : PlanEnv) : Nat :=
  let out := fun (p org : Int) => decide (p < org * 256 ∨ (org + 64 * e.pitch) * 256 < p)
  let bad := fun (f : Int) => decide (planeWeight e f < -65536 ∨ 131072 < planeWeight e f)
  if ((wobbleCorners m.wob).flatMap fun o => (m.shifted o).extent).any (fun p => out p.1 e.orgX || out p.2 e.orgY) then 1
  else if e.twoPlane && (bad m.f0 || bad m.f1) then 2
  else if ¬ e.verified then 3
  else 0

end Machine
end Sys2Proof
end

