-- ==== Sys2Proof/Machine/Path.lean ====
section
/-!
DEFINITION. The planner of a stall (R110-R124, R136-R138, R153-R156): from parsed commands to jumps, strokes and
stops, one entry at a time.
-/
namespace Sys2Proof
namespace Machine

/-- What a planner reads beside its own state: parameters in force, speed factor and throttle factor, parsed items with the
index of the first, the marshal's dwell by stroke, the loft of the stable and the place of the stall's compare table in it,
whether that table reads with an uncorrectable error (R153), and whether a hold keeps jumps from following a stroke (R97).
-/
structure PlanIn where
  env : PlanEnv
  kSpeed : Nat
  kThr : Nat
  items : List Item
  ibase : Nat
  recs : List MRec
  loft : Mem
  table : Nat
  tableBad : Bool
  holding : Bool

/-! ## Settings and power (R82) -/

/-- The value of the power plan of a stroke at a distance (R82, R121). -/
def powerAt (l : List (Int × Nat × Nat × Nat)) (d : Int) : Nat :=
  match (l.filter (fun p => p.1 ≤ d)).getLast? <|> l.head? with
  | none => 0
  | some (d0, p0, p1, n) =>
    if n = 0 then p0
    else
      let x := clampI 0 n (d - d0)
      ((p0 : Int) + rdivUp (((p1 : Int) - p0) * x) n).toNat

/-- A settings command applied to the settings (R82). -/
def Sett.apply (t : Sett) : ItemK → Sett
  | .ramp target len => { t with ramp := some (target, len) }
  | .wobble sh f al ac => { t with wobble := (sh, f, al, ac) }
  | .speed p m j =>
    { t with power := p.getD t.power, mark := if m = 0 then t.mark else m, jump := if j = 0 then t.jump else j }
  | .delay n on off => { t with settle := n, on := on, off := off }
  | .compare m a n => { t with arm := if m = 2 then none else some (m, a, n) }
  | _ => t

/-! ## Compare entries (R152, R153) -/

/-- The kept entries of an arm and the count of skipped ones: DIST, PITCH and WIDTH in 1/16 LSB, 1/16 LSB and taps,
and LEVEL. -/
def readCompare (m : Mem) (base mode : Nat) : Nat → Nat → Option Nat → List (Nat × Nat × Nat × Nat) × Nat
  | _, 0, _ => ([], 0)
  | i, n + 1, lastD =>
    let d := memLe m (base + 8 * i) 4
    let w := memLe m (base + 8 * i + 4) 4
    let e : Nat × Nat × Nat × Nat :=
      if mode = 0 then (d, 0, w % 2 ^ 24, w / 2 ^ 24) else (d, w % 2 ^ 16, w / 2 ^ 16 * 32, 255)
    if (match lastD with | some x => decide (d ≤ x) | none => false) || decide (e.2.2.1 < 32) then
      let (l, k) := readCompare m base mode (i + 1) n lastD
      (l, k + 1)
    else
      let (l, k) := readCompare m base mode (i + 1) n (some d)
      (e :: l, k)

/-! ## Gathering a stroke (R84, R110, R111) -/

/-- What gathering the marks of a stroke carries. -/
structure Gather where
  marks : List Move
  sett : Sett
  gx : Int
  gy : Int
  gf : Int
  dist : Int
  pw : List (Int × Nat × Nat × Nat)
  changed : Bool
  tag : Nat

/-- The power plan as a mark starts: a waiting ramp begins, or a changed power applies (R82). -/
def Gather.power (g : Gather) : Gather :=
  let now := if g.pw.isEmpty ∨ g.changed then g.sett.power else powerAt g.pw g.dist
  match g.sett.ramp with
  | some (t, n) =>
    { g with pw := g.pw ++ [(g.dist, now, t, n * 2 ^ 32)], changed := false,
             sett := { g.sett with ramp := none, power := t } }
  | none =>
    if g.pw.isEmpty ∨ g.changed then { g with pw := g.pw ++ [(g.dist, now, now, 0)], changed := false } else g

/-- Add a mark. -/
def Gather.add (g : Gather) (m : Move) : Gather :=
  let (ex, ey) := m.stop
  { g with marks := g.marks ++ [m], gx := ex, gy := ey, gf := m.f1, dist := g.dist + m.planar }

/-- Gather the marks from item index `i` to the stroke's last; none while they are not all there (R85). The result
holds the index after the last mark. -/
def gather (g : Gather) (i : Nat) : List Item → Option (Gather × Nat)
  | [] => none
  | it :: rest =>
    match it.k with
    | .line cont f x y tag =>
      let g1 := g.power
      let g2 := g1.add (lineMove 4 i tag g1.sett.mark g1.sett.wobble g1.gx g1.gy g1.gf (x * 256) (y * 256) f g1.dist)
      if cont then gather g2 (i + 1) rest else some (g2, i + 1)
    | .arc cont f cx cy sw =>
      let g1 := g.power
      let g2 := g1.add
        (arcMove i g1.sett.mark g1.sett.wobble g1.gx g1.gy g1.gf (cx * 256) (cy * 256) sw f g1.dist)
      if cont then gather g2 (i + 1) rest else some (g2, i + 1)
    | .speed p m j =>
      gather { g with sett := g.sett.apply (.speed p m j), changed := g.changed || p.isSome } (i + 1) rest
    | k => gather { g with sett := g.sett.apply k } (i + 1) rest

/-! ## Speeds over a list of moves (R113-R119) -/

/-- The joint speeds at the end of each move; `last` bounds the end of the list. -/
def joints (e : PlanEnv) (mark : Bool) (last : Nat) : List (Move × Nat × Nat × Nat) → List Nat
  | [] => []
  | [(_, v, _, _)] => [min v last]
  | (m, v, _, _) :: (n, w, x, y) :: t =>
    joint e mark m n v w :: joints e mark last ((n, w, x, y) :: t)

/-- The moves with their segments, from speed and acceleration at the first one's offset `s0`. -/
def speedMoves (e : PlanEnv) (mark : Bool) (ves : List Nat) (last : Nat) (v a : Int) (ms : List Move) : List Move :=
  let ls := (ms.zip ves).map fun (m, ve) => let (V, A, J) := m.limits e ve; (m, V, A, J)
  let js := joints e mark last ls
  let ps : List Piece := (ls.zip js).map fun ((m, V, A, J), j) => ⟨m.len - m.s0, V, A, J, j⟩
  let sg := planPieces v a ps (endCaps ps)
  (ms.zip sg).map fun (m, l) => { m with segs := l }

/-- Duration of a move. -/
def Move.dur (m : Move) : Nat := segsDur m.segs

/-- Duration of moves. -/
def movesDur (l : List Move) : Nat := l.foldl (fun d m => d + m.dur) 0

/-- The run-in move to a first mark at entry speed `v` (R111). -/
def runIn (e : PlanEnv) (m : Move) (v : Int) : Move :=
  let segs := rampSegs e.markA (max 1 e.markJ) 0 0 v
  let len := (segsDist segs).toNat
  let (tx, ty) := m.tangent 0
  let x0 := m.x - rAway (tx * len) (2 ^ 64)
  let y0 := m.y - rAway (ty * len) (2 ^ 64)
  { m with kind := 3, shape := 0, x := x0, y := y0, dx := m.x - x0, dy := m.y - y0, sweep := 0, len := len, f1 := m.f0,
           dist := -(len : Int), s0 := 0, segs := segs }

/-- The run-out move after a last mark at exit speed `v` (R111). -/
def runOut (e : PlanEnv) (m : Move) (v : Int) (dist : Int) : Move :=
  let segs := rampSegs e.markA (max 1 e.markJ) v 0 0
  let len := (segsDist segs).toNat
  let (tx, ty) := m.tangent m.len
  let (x0, y0) := m.stop
  { m with kind := 5, shape := 0, x := x0, y := y0, dx := rAway (tx * len) (2 ^ 64), dy := rAway (ty * len) (2 ^ 64),
           sweep := 0, len := len, f0 := m.f1, dist := dist, s0 := 0, segs := segs }

/-- The moves of a stroke from run-in to run-out at the given factors (R111, R546). -/
def strokeMoves (e : PlanEnv) (kS kT : Nat) (ms : List Move) (dist : Int) : List Move :=
  let ves := ms.map fun m => vEff m.spd kS kT e.spdLim
  match ms.zip ves with
  | [] => []
  | (m, ve) :: _ =>
    let (V, A, J) := m.limits e ve
    let last := if (ms.getLast?.getD m).shape = 2 then 0 else (ves.getLast?.getD 0)
    let ls := (ms.zip ves).map fun (m, ve) => let (V, A, J) := m.limits e ve; (m, V, A, J)
    let js := joints e true last ls
    let ps : List Piece := (ls.zip js).map fun ((m, V, A, J), j) => ⟨m.len, V, A, J, j⟩
    let caps := endCaps ps
    let v0 : Int := if m.shape = 2 then 0
      else min (min ve V : Nat) (reach m.len A J (caps.headD 0) 0 V)
    let sg := planPieces v0 0 ps caps
    let done := (ms.zip sg).map fun (m, l) => { m with segs := l }
    let lastM := done.getLast?.getD m
    let done1 := if movesDur done = 0 then
        [{ m with shape := 2, len := 0, segs := [⟨tapU * e.pTaps, 0, 0, 0⟩] }] else done
    (if m.shape = 2 then [] else [runIn e m v0]) ++ done1 ++
      (if lastM.shape = 2 then [] else [runOut e lastM (segsEnd lastM.segs) dist])

/-- Time from the first entry to the end of the run-in, and to the end of the last mark; the entry of a stroke whose
marks take no time counts as none (R546). -/
def markTimes (ms : List Move) : Nat × Nat :=
  (movesDur (ms.filter (fun m => m.kind == 3)),
   movesDur (ms.filter (fun m => m.kind != 5 && !(m.shape == 2 && m.len == 0))))

/-- Rounded to the nearest tap, ties up (R123). -/
def toTaps (t : Nat) : Int := ((t + tapU / 2) / tapU : Nat)

/-! ## Compare pulses (R154-R156) -/

/-- Stroke distance `t` after the start of a list of moves. -/
def distAt : List Move → Nat → Int
  | [], _ => 0
  | m :: ms, t =>
    if t < m.dur ∨ ms.isEmpty then
      let (d, _, _) := segsAt m.segs (min t m.dur)
      if m.shape = 2 then m.dist else m.dist + m.s0 + d
    else distAt ms (t - m.dur)

/-- The stroke distance of a recorded sample for stroke number `no`: before the stroke it is short of its path. -/
def Trk.dist (b : Trk) (no : Nat) (d0 : Int) : Int := if b.no = no then b.d else min d0 (-1)

/-- The spot's stroke distance at entry `i`: on the planned moves, which start at entry `n`, or on the recorded path
before them; the path before the stroke is no part of it (R122, R154). -/
def spotDist (ms : List Move) (no n : Nat) (track : List Trk) (pTaps lag i : Nat) : Int :=
  let t : Int := ((i : Int) - n) * pTaps - lag
  let d0 := distAt ms 0
  if 0 ≤ t then distAt ms (t.toNat * tapU)
  else
    let back := t.natAbs
    let q := (back - 1) / pTaps
    let r : Int := (((back - 1) % pTaps + 1 : Nat) : Int)
    match track[q]?, (if q = 0 then some d0 else (track[q - 1]?).map fun b => b.dist no d0) with
    | some b, some a => a + (b.dist no d0 - a) * r / pTaps
    | _, _ => min d0 (-1)

/-- Requested pulses of an arm as (distance, width, level, segment, first of its segment). -/
def pulseReqs (mode : Nat) (total : Nat) : Nat → List (Nat × Nat × Nat × Nat) → List (Nat × Nat × Nat × Nat)
  | _, [] => []
  | i, (d, pitch, w, lev) :: rest =>
    (if mode = 0 then [(d * 2 ^ 28, w, lev, i)]
     else if pitch = 0 then []
     else
       let stop := match rest with | (d1, _) :: _ => d1 * 2 ^ 28 - 1 | [] => total
       if stop < d * 2 ^ 28 then []
       else (List.range ((stop - d * 2 ^ 28) / (pitch * 2 ^ 28) + 1)).map
         fun j => ((d + j * pitch) * 2 ^ 28, w, lev, i)) ++ pulseReqs mode total (i + 1) rest

/-- Place the requests on entry time: for each, the instant the spot's distance equals it, plus ON_DELAY (R154). The
requests rise in distance. -/
def placeReqs (D : Nat → Int) (pTaps : Nat) (on : Int) :
    Nat → Nat → List (Nat × Nat × Nat × Nat) → List (Int × Nat × Nat × Nat)
  | _, _, [] => []
  | 0, _, _ => []
  | fuel + 1, i, (d, w, lev, g) :: rest =>
    let a := D i
    let b := D (i + 1)
    if (d : Int) < b ∨ ((d : Int) = b ∧ D (i + 2) ≤ b) then
      let span := (b - a).toNat
      let off : Int := if span = 0 then 0 else rdivUp (((d : Int) - a) * pTaps) span
      ((i : Int) * pTaps + off + on, w, lev, g) :: placeReqs D pTaps on fuel i rest
    else placeReqs D pTaps on fuel (i + 1) ((d, w, lev, g) :: rest)

/-- Edges of a list of pulses that lie in an entry. -/
def edgesIn (l : List Pulse) (pTaps : Nat) (e : Int) : Nat :=
  l.foldl (fun n p => n + b2n (p.rise / pTaps == e) + b2n (p.fall / pTaps == e)) 0

/-- Fire, merge or drop the placed requests in order, and note what came of each (R155, R156); `others` are the pulses of the
strokes before. A merged pulse keeps the LEVEL of its first one, which R156 leaves open: DESIGN CHOICE (notes/assumptions/220). A
pulse whose edge would be the ninth is dropped before a later request could merge with it and take that edge away; R156 does not
say which comes first: DESIGN CHOICE (notes/assumptions/221). -/
def firePulses (mode pTaps : Nat) (tOn tOff : Int) (others : List Pulse) :
    List (Int × Nat × Nat × Nat) → Arm → List Pulse → Arm × List Pulse
  | [], a, out => (a, out)
  | (r, w, lev, g) :: rest, a, out =>
    let fl := r + w
    let note := fun (t : Int) (k : Nat) => ({ a with log := a.log ++ [(t, g, k)] } : Arm)
    let full := 8 ≤ edgesIn (others ++ out) pTaps (r / pTaps) + b2n (r / pTaps == fl / pTaps) ∨
      8 ≤ edgesIn (others ++ out) pTaps (fl / pTaps)
    if mode = 1 ∧ (a.log.any fun q => q.2.1 == g && q.2.2 == 3) then firePulses mode pTaps tOn tOff others rest (note r 5) out
    else if r < tOn ∨ tOff < fl then firePulses mode pTaps tOn tOff others rest (note r 3) out
    else
      match out.getLast? with
      | some p =>
        if r < p.fall + 32 then
          firePulses mode pTaps tOn tOff others rest (note p.rise 1) (out.dropLast ++ [{ p with fall := max p.fall fl }])
        else if full then firePulses mode pTaps tOn tOff others rest (note r 2) out
        else firePulses mode pTaps tOn tOff others rest (note r 0) (out ++ [⟨r, fl, lev⟩])
      | none =>
        if full then firePulses mode pTaps tOn tOff others rest (note r 2) out
        else firePulses mode pTaps tOn tOff others rest (note r 0) [⟨r, fl, lev⟩]

/-- The pulses of an armed stroke: those whose rising edge is committed stand, with what came of the requests up to them, and
the rest are placed afresh from the next entry on (R154-R156). -/
def strokePulses (p : Plan) (ms : List Move) (total : Nat) (st : Stroke) (a : Arm) : Arm × List Pulse :=
  let e := p.env
  let from_ : Int := (p.n : Int) * e.pTaps
  let a0 := { a with log := a.log.takeWhile fun q => decide (q.1 < from_) && q.2.2 != 4 }
  let kept := st.pulses.filter (fun q => q.rise < from_)
  let others := (p.live.filter fun o => o.no != st.no && o.arm.isSome).flatMap Stroke.pulses
  let D := spotDist ms st.no p.n p.track e.pTaps e.lag
  let reqs := (pulseReqs a.mode total 0 a.kept).drop a0.log.length
  let i0 := max st.t0 (p.n - (st.on.toNat / e.pTaps + 1))
  let fuel := reqs.length + (p.n - i0) + e.lag / e.pTaps + movesDur ms / (tapU * e.pTaps) + 4
  let placed := placeReqs D e.pTaps st.on fuel i0 reqs
  let (a1, out) := firePulses a.mode e.pTaps (max st.tOn from_) st.tOff others placed a0 kept
  let lost := (List.range a.kept.length).filter fun i => !(a1.log.any fun q => q.2.1 == i)
  ({ a1 with log := a1.log ++ lost.map fun i => (st.tOff, i, 4) }, out)

/-! ## The next element (R110, R112) -/

/-- The items from index `i` on. -/
def itemsFrom (pi : PlanIn) (i : Nat) : List Item := pi.items.drop (i - pi.ibase)

/-- The compare table of a waiting stroke could not be read (R153). -/
def NextStroke.unread (n : NextStroke) : Bool := n.moves.head?.any fun m => m.bad == 0x83

/-- Plan the stroke whose first mark is at `p.k`; an uncorrectable error in the read of its compare table is a plan-time fault
of it (R153). -/
def planStroke (pi : PlanIn) (p : Plan) : Option NextStroke :=
  let g0 : Gather := ⟨[], p.sett, p.gx, p.gy, p.gf, 0, [], false, 0⟩
  match gather g0 p.k (itemsFrom pi p.k) with
  | none => none
  | some (g, k) =>
    let e := pi.env
    let ms := strokeMoves e pi.kSpeed pi.kThr g.marks g.dist
    let nom := strokeMoves e 16384 pi.kThr g.marks g.dist
    let (n0, n1) := markTimes nom
    let tn := (toTaps n1 + p.sett.off) - max (toTaps n0 + p.sett.on) (-(e.lag : Int))
    let unread := p.sett.arm.isSome && (pi.tableBad || p.nxt.any fun n => n.st.key == p.k && n.unread)
    let bad := if unread then 0x83 else ((ms.map fun m => m.check e).find? (· != 0)).getD 0
    let arm := p.sett.arm.map fun (m, f, c) =>
      let (l, sk) := readCompare pi.loft pi.table m f c none
      (⟨m, l, sk, []⟩ : Arm)
    let isl := ((itemsFrom pi p.k).head?.map Item.islV).getD 0xFFFFFFFF
    let tag := (g.marks.head?.map Move.tag).getD 0
    let st : Stroke := ⟨p.k, 0, isl, 0, 0, 0, false, 0, ((tn + e.pTaps - 1) / e.pTaps).toNat, pi.kThr, p.sett.on,
      p.sett.off, tag, g.pw, arm, [], k, g.dist.toNat, (g.marks.head?.map Move.spd).getD 0,
      (g.marks.getLast?.map Move.spd).getD 0⟩
    some ⟨st, ms.map (fun m => { m with bad := bad }), k, { g.sett with arm := none }, g.gx, g.gy, g.gf⟩

/-- Where a stroke begins: the start of its run-in. -/
def NextStroke.origin (n : NextStroke) : Int × Int := ((n.moves.head?.map fun m => (m.x, m.y)).getD (n.gx, n.gy))

/-- The moves of a jump chain from `(x, y, f)` over its targets, each with its item and JUMP_SPEED. -/
def jumpMoves (e : PlanEnv) (v a : Int) : Int → Int → Int → List (Int × Int × Int × Nat × Nat) → List Move :=
  fun x y f l =>
    let rec go : Int → Int → Int → List (Int × Int × Int × Nat × Nat) → List Move
      | _, _, _, [] => []
      | x, y, f, (x1, y1, f1, it, spd) :: t =>
        if x = x1 ∧ y = y1 ∧ f = f1 then go x y f t
        else lineMove 0 it 0 spd (0, 0, 0, 0) x y f x1 y1 f1 0 :: go x1 y1 f1 t
    let ms := go x y f l
    (speedMoves e false (ms.map fun _ => 0) 0 v a ms).map fun m => { m with bad := m.check e }

/-- Walk the items that lead to the next element: jump targets, the settings and programmed point there, the index
reached, and whether a mark stands there. -/
def walk (i : Nat) (t : Sett) (g : Int × Int × Int) (acc : List (Int × Int × Int × Nat × Nat)) :
    List Item → Nat × Sett × (Int × Int × Int) × List (Int × Int × Int × Nat × Nat) × Bool
  | [] => (i, t, g, acc, false)
  | it :: rest =>
    if it.skip then walk (i + 1) t g acc rest
    else match it.k with
    | .jump f x y => walk (i + 1) t (x * 256, y * 256, f) (acc ++ [(x * 256, y * 256, f, i, t.jump)]) rest
    | .line .. => (i, t, g, acc, true)
    | .arc .. => (i, t, g, acc, true)
    | .layerEnd _ => (i, t, g, acc, false)
    | .sync .. => (i, t, g, acc, false)
    | .progEnd => (i, t, g, acc, false)
    | k => walk (i + 1) (t.apply k) g acc rest

/-- The settings and the programmed point before each of the first `n` items that `walk` passes (R185). -/
def trailOf : Nat → Nat → Sett → Int × Int × Int → List Item → List (Nat × Sett × Int × Int × Int)
  | 0, _, _, _, _ => []
  | _, _, _, _, [] => []
  | n + 1, i, t, g, it :: rest =>
    (i, t, g) :: (if it.skip then trailOf n (i + 1) t g rest
      else match it.k with
      | .jump f x y => trailOf n (i + 1) t (x * 256, y * 256, f) rest
      | k => trailOf n (i + 1) (t.apply k) g rest)

/-- A plan that has walked to item `k`, with the settings and the programmed point there. -/
def walkedTo (pi : PlanIn) (k : Nat) (t : Sett) (g : Int × Int × Int) (p : Plan) : Plan :=
  { p with
    k := k, sett := t, gx := g.1, gy := g.2.1, gf := g.2.2, env := pi.env, kSpeed := pi.kSpeed, redo := false,
    trail := (p.trail.filter fun e => decide (pi.ibase ≤ e.1)) ++
      trailOf (k - p.k) p.k p.sett (p.gx, p.gy, p.gf) (itemsFrom pi p.k) }

/-- The targets of a chain with the last one replaced by the start of the stroke that follows, or the implicit jump
to it (R112). -/
def chainTo (k : Nat) (t : Sett) (f : Int) (o : Int × Int) :
    List (Int × Int × Int × Nat × Nat) → List (Int × Int × Int × Nat × Nat)
  | [] => [(o.1, o.2, f, k, t.jump)]
  | [(_, _, f1, it, spd)] => [(o.1, o.2, f1, it, spd)]
  | a :: b :: l => a :: chainTo k t f o (b :: l)

/-- The end of the commit span that keeps parameters since changed (R137); 0 where none does. -/
def Plan.boundEnd (p : Plan) : Nat := ((p.live.find? fun s => s.no == p.bound).map Stroke.spanEnd).getD 0

/-- What a planner reads before the safe boundary: the parameters from before their change (R137). -/
def PlanIn.within (pi : PlanIn) (p : Plan) : PlanIn := if p.n < p.boundEnd then { pi with env := p.env } else pi

/-- A change of parameters acts behind the commit span that holds the horizon at its squash, in whatever plan is current; a stroke
that begins within the tail of that span is planned with the old values to its end and again with the new ones from there
(R137). The rule does not name such a stroke. DESIGN CHOICE (notes/assumptions/216). -/
def bounded (pi : PlanIn) (p : Plan) : Plan :=
  if p.env = pi.env then { p with bound := 0 }
  else if p.bound = 0 ∧ p.n < p.spanEnd then { p with bound := p.strokeNo }
  else p

/-- Plan the next element from rest; none while no item leads to one. The time already past (`p.t`) counts into it
(R112). -/
def planElement (pi0 : PlanIn) (p : Plan) : Option Plan :=
  let pi := pi0.within p
  let (k, t, g, targets, mark) := walk p.k p.sett (p.gx, p.gy, p.gf) [] (itemsFrom pi p.k)
  let p1 := walkedTo pi k t g p
  match (if mark then planStroke pi p1 else none) with
  | some ns =>
    let ms := jumpMoves pi.env 0 0 p.x p.y p.f (chainTo k t g.2.2 ns.origin targets)
    some { p1 with ph := 1, moves := ms, nxt := some ns, moved := !ms.isEmpty, dwelt := 0 }
  | none =>
    if targets.isEmpty then none
    else
      let ms := jumpMoves pi.env 0 0 p.x p.y p.f targets
      some { p1 with ph := 1, moves := ms, nxt := none, moved := !ms.isEmpty, dwelt := 0 }

/-! ## Starting a stroke (R110, R123) -/

/-- Gate times of a stroke whose first entry is `n` (R123): t_on after the early rule, t_off, and whether t_on was
moved. -/
def gateTimes (e : PlanEnv) (st : Stroke) (ms : List Move) (n : Nat) : Int × Int × Bool :=
  let (a, b) := markTimes ms
  let base : Int := (n : Int) * e.pTaps
  let on := base + toTaps a + e.lag + st.on
  (max base on, base + toTaps b + e.lag + st.off, decide (on < base))

/-- Pending edges that lie in an entry. -/
def pendIn (l : List (Int × Bool × Nat)) (pTaps : Nat) (e : Int) : Nat := l.countP fun x => x.1 / pTaps == e

/-- The stroke waiting must still dwell for its edges (R123): too close to the last gate-off, or a third edge in an
entry. -/
def mustSpace (p : Plan) (ns : NextStroke) : Bool :=
  let (on, off, _) := gateTimes p.env ns.st ns.moves p.n
  let pt := p.env.pTaps
  decide (on + 32 ≤ off) &&
    ((match p.offRef with | some r => decide (on < r + 32) | none => false) ||
     (ns.st.arm.isNone &&
      (decide (2 ≤ pendIn p.edges pt (on / pt) + b2n (on / pt == off / pt)) ||
       decide (2 ≤ pendIn p.edges pt (off / pt)))))

/-- Insert an edge in time order. -/
def addEdge (x : Int × Bool × Nat) : List (Int × Bool × Nat) → List (Int × Bool × Nat)
  | [] => [x]
  | y :: t => if x.1 < y.1 then x :: y :: t else y :: addEdge x t

/-- Add the edges of a stroke. -/
def addEdges (st : Stroke) (from_ : Int) (l : List (Int × Bool × Nat)) : List (Int × Bool × Nat) :=
  match st.arm with
  | some _ =>
    st.pulses.foldl (fun l q =>
      let l1 := if from_ ≤ q.rise then addEdge (q.rise, true, st.no) l else l
      if from_ ≤ q.fall then addEdge (q.fall, false, st.no) l1 else l1) l
  | none =>
    if st.opens then
      let l1 := if from_ ≤ st.tOn then addEdge (st.tOn, true, st.no) l else l
      addEdge (max from_ st.tOff, false, st.no) l1
    else l

/-- One past the last index of a commit span that starts at `n` (R110, R546). -/
def spanEndOf (e : PlanEnv) (ms : List Move) (n : Nat) (st : Stroke) : Nat :=
  let path := n + cdiv (movesDur ms) (tapU * e.pTaps)
  if st.opens then max (max path (n + 1)) ((st.tOff / e.pTaps).toNat + 1) else max path (n + 1)

/-- The planned length of the programmed path of a stroke. -/
def pathTotal (ms : List Move) : Nat := (ms.filter fun m => m.kind == 4).foldl (fun n m => n + m.planar) 0

/-- Start the waiting stroke: its first RUN_IN entry is the next one. -/
def startStroke (p : Plan) (ns : NextStroke) : Plan :=
  let (on, off, early) := gateTimes p.env ns.st ns.moves p.n
  let opens := decide (on + 32 ≤ off)
  let no := p.strokeNo + 1
  let st0 := { ns.st with no := no, t0 := p.n, tOn := on, tOff := off, opens := opens,
                          splan := if opens then ns.st.splan else 0 }
  let st1 := match st0.arm with
    | some a => let (a', l) := strokePulses p ns.moves (pathTotal ns.moves) st0 a; { st0 with arm := some a', pulses := l }
    | none => st0
  let spanEnd := spanEndOf p.env ns.moves p.n st1
  let st := { st1 with spanEnd := spanEnd }
  { p with
    ph := 4, moves := ns.moves, t := 0, nxt := none, live := st :: p.live, strokeNo := no,
    edges := addEdges st ((p.n : Int) * p.env.pTaps) p.edges,
    offRef := if opens then some off else p.offRef, offPrev := p.offRef,
    spanEnd := max p.spanEnd spanEnd, spanItem := ns.k - 1, k := ns.k, sett := ns.sett, gx := ns.gx, gy := ns.gy, gf := ns.gf,
    flags := p.flags ||| (if early then 8 else 0) ||| (if opens then 0 else 32) }

/-! ## Replanning from the horizon (R135-R137) -/

/-- The state of the first move at the next tick: length behind, speed, acceleration. -/
def headAt (m : Move) (t : Nat) : Nat × Int × Int :=
  let (d, v, a) := segsAt m.segs t
  (min m.len (m.s0 + d.toNat), v, a)

/-- Replan the rest of a stroke in progress at a new speed factor (R115, R135), or with new parameters where it began before
their boundary (R137): its run-in and marks from the state at the next tick, and a new run-out. Its gate edges follow R123
again; one that would fall among the entries already committed is placed at the first entry that is not
(notes/assumptions/183). -/
def retimeStroke (pi : PlanIn) (p0 : Plan) : Plan :=
  let p := { p0 with env := pi.env, kSpeed := pi.kSpeed }
  match p.moves, p.live with
  | m :: rest, st :: older =>
    if m.kind = 5 then p
    else
      let e := p.env
      let (s, v, a) := headAt m p.t
      let ms := { m with s0 := s } :: rest.filter (fun x => x.kind != 5)
      let ves := ms.map fun x => vEff x.spd p.kSpeed st.kThr e.spdLim
      let lastM := ms.getLast?.getD m
      let last := if lastM.shape = 2 then 0 else ves.getLast?.getD 0
      let done := speedMoves e true ves last v a ms
      let lastD := done.getLast?.getD m
      let total := lastD.dist + lastD.planar
      let all := done ++ (if lastD.shape = 2 then [] else [runOut e lastD (segsEnd lastD.segs) total])
      let (ta, tb) := markTimes all
      let base : Int := (p.n : Int) * e.pTaps
      let begun := decide (st.tOn < base) && st.opens
      let on := if begun then st.tOn else if m.kind = 3 then max base (base + toTaps ta + e.lag + st.on) else max base st.tOn
      let off0 := base + toTaps tb + e.lag + st.off
      let opens := begun || decide (on + 32 ≤ off0)
      let off := if begun then max (on + 32) (max base off0) else off0
      let st0 := { st with tOn := on, tOff := off, opens := opens }
      let st1 := match st0.arm with
        | some ar =>
          let (ar', l) := strokePulses p all total.toNat st0 ar; { st0 with arm := some ar', pulses := l }
        | none => st0
      let st2 := { st1 with spanEnd := spanEndOf e all p.n st1 }
      let others := p.edges.filter fun x => x.2.2 != st.no
      let open_ := p.edges.filter fun x => x.2.2 == st.no && (x.1 < base)
      let started := begun && st.arm.isNone
      { p with
        moves := all, t := 0, live := st2 :: older,
        edges := if started then addEdge (off, false, st.no) (open_ ++ others)
          else addEdges st2 base (open_ ++ others),
        offRef := if opens then some off else p.offPrev, spanEnd := st2.spanEnd,
        flags := p.flags ||| (if st.opens ∧ ¬ opens then 32 else 0) }
  | _, _ => p

/-- Replan a jump in progress and the stroke behind it with the parameters now in force (R115, R137). -/
def retimeJump (pi : PlanIn) (p : Plan) : Plan :=
  let p1 := { p with env := pi.env, kSpeed := pi.kSpeed }
  let ns := if p.nxt.isSome then planStroke pi p1 else none
  match p.moves with
  | [] => { p1 with nxt := ns }
  | m :: rest =>
    let (s, v, a) := headAt m p.t
    let (x, y) := m.point s
    let f := m.focus s
    let ends := (m :: rest).map fun q => let (ex, ey) := q.stop; (ex, ey, q.f1, q.item, q.spd)
    let targets := match ns with | some n => chainTo p.k p.sett p.gf n.origin ends | none => ends
    { p1 with moves := jumpMoves pi.env v a x y f targets, t := 0, nxt := ns }

/-- Go on with a jump chain that a seam move has cut short: its last target stands as programmed, and what lies behind the section
follows (R112, R185). -/
def extendChain (pi : PlanIn) (p : Plan) : Plan :=
  let (k, t, g, more, mark) := walk p.k p.sett (p.gx, p.gy, p.gf) [] (itemsFrom pi p.k)
  let p1 := walkedTo pi k t g p
  let ns := if mark then planStroke pi p1 else none
  match p.moves with
  | [] => p1
  | m :: rest =>
    let (s, v, a) := headAt m p.t
    let (x, y) := m.point s
    let ends := (m :: rest).dropLast.map fun q => let (ex, ey) := q.stop; (ex, ey, q.f1, q.item, q.spd)
    let last := (m :: rest).getLast?.getD m
    let all := ends ++ (p.gx, p.gy, p.gf, last.item, last.spd) :: more
    let targets := match ns with | some n => chainTo k t g.2.2 n.origin all | none => all
    { p1 with moves := jumpMoves pi.env v a x y (m.focus s) targets, t := 0, nxt := ns }

/-- Replan a stroke waiting behind settle or dwell; where its start has moved, a jump leads there first (R112). -/
def retimeWait (pi : PlanIn) (p : Plan) : Plan :=
  let p1 := { p with env := pi.env, kSpeed := pi.kSpeed }
  match planStroke pi p1 with
  | none => { p1 with ph := 0, nxt := none }
  | some ns =>
    if ns.origin = (p.x, p.y) then { p1 with nxt := some ns }
    else
      let ms := jumpMoves pi.env 0 0 p.x p.y p.f [(ns.origin.1, ns.origin.2, p.f, p.k, p.sett.jump)]
      { p1 with ph := 1, moves := ms, t := 0, nxt := some ns, moved := true }

/-- Bring a plan up to the parameters and speed factor in force: the commit span that held the horizon keeps the parameters from
before a change to its end (R137); a new speed factor acts from the horizon on (R115, R135). -/
def refresh (pi0 : PlanIn) (p0 : Plan) : Plan :=
  let p := bounded pi0 p0
  let pi := pi0.within p
  if p.ph = 1 ∧ p.redo then extendChain pi p
  else if p.env = pi.env ∧ p.kSpeed = pi.kSpeed then p
  else match p.ph with
    | 1 => retimeJump pi p
    | 2 => retimeWait pi p
    | 3 => retimeWait pi p
    | 4 => retimeStroke pi p
    | _ => { p with env := pi.env, kSpeed := pi.kSpeed }

/-! ## A stop (R138) -/

/-- The STOP path after the last committed entry: deceleration along its tangent under the jump limits, gate off. It starts from
the path without its wobble, and F is held where it stands; R138 says neither. DESIGN CHOICE (notes/assumptions/219). -/
def planStop (pi : PlanIn) (p : Plan) : Plan :=
  let e := pi.env
  let p0 := { p with moves := [], nxt := none, edges := [], gate := false, live := [], fault := 0, spanEnd := 0 }
  let segs := rampSegs e.jumpA (max 1 e.jumpJ) p.lv p.la 0
  let len := (segsDist segs).toNat
  if p.lv ≤ 0 ∨ len = 0 ∨ (p.ltx = 0 ∧ p.lty = 0) then { p0 with ph := 6, x := p.lx, y := p.ly }
  else
    let m : Move := ⟨6, 0, p.lx, p.ly, rAway (p.ltx * len) (2 ^ 64), rAway (p.lty * len) (2 ^ 64), 0, len, p.f, p.f,
      p.k, 0, 0, (0, 0, 0, 0), 0, 0, segs, 0⟩
    { p0 with ph := 5, moves := [m], t := tapU * e.pTaps }

/-! ## Field correction (R124-R127) -/

/-- The correction sum of one axis (R125): `o` is the axis' byte offset in a node, `slot` the grid's loft offset. -/
def gridSum (loft : Mem) (slot o i j : Nat) (fu fv : Int) : Int :=
  let nd := fun (i j : Nat) => sext 32 (memLe loft (slot + 12 * (65 * j + i) + o) 4)
  nd i j * (65536 - fu) * (65536 - fv) + nd (i + 1) j * fu * (65536 - fv) +
    nd i (j + 1) * (65536 - fu) * fv + nd (i + 1) (j + 1) * fu * fv

/-- The node and fraction of a coordinate (R125). -/
def gridPlace (d : Int) (pitch : Nat) : Nat × Int :=
  let q := d.fdiv (pitch * 256)
  let f := ((d - q * (pitch * 256)) * 65536).fdiv (pitch * 256)
  if q < 0 then (0, 0) else if 64 ≤ q then (63, 65536) else (q.toNat, f)

/-- The axis codes of a command position (R125, R126), before saturation. `x`, `y` in 1/256 LSB. -/
def correct (e : PlanEnv) (loft : Mem) (x y f : Int) : Int × Int × Int :=
  let pitch := max 1 e.pitch
  let (i, fu) := gridPlace (x - e.orgX * 256) pitch
  let (j, fv) := gridPlace (y - e.orgY * 256) pitch
  let s := fun (slot o : Nat) => gridSum loft (0xD000 * slot) o i j fu fv
  if e.twoPlane then
    let w := planeWeight e f
    let c := fun o => (s e.slot0 o * (65536 - w) + s e.slot1 o * w + 2 ^ 55) / 2 ^ 56
    (c 0, c 4, c 8)
  else
    let c := fun (o : Nat) (t : Int) => (s e.slot0 o + t + 2 ^ 39) / 2 ^ 40
    (c 0 0, c 4 0, c 8 (f * e.fGain * 2 ^ 24))

/-- A code saturated to 24 bits (R127). -/
def satCode (c : Int) : Int := clampI (-8388608) 8388607 c

/-! ## Producing entries -/

/-- The path `lag` taps before an entry (R122): between the two samples around it, along their chord. R122 says only that the
position is interpolated along the planned path. DESIGN CHOICE (notes/assumptions/217). -/
def spotAt (track : List Trk) (pTaps lag : Nat) : Option Trk :=
  let q := lag / pTaps
  let r : Int := ((lag % pTaps : Nat) : Int)
  match track[q]?, track[q + 1]? with
  | some a, some b =>
    let mix := fun (u v : Int) => u + (v - u) * r / pTaps
    some ⟨mix a.x b.x, mix a.y b.y, if a.no = b.no ∧ a.d < 2 ^ 96 then mix a.d b.d else a.d, mix a.v b.v, a.ve, a.no⟩
  | some a, none => some a
  | none, _ => track.getLast?

/-- The gate after edges up to and including tap time `t`. -/
def gateAfter (g : Bool) (l : List (Int × Bool × Nat)) : Bool :=
  match l.getLast? with
  | some (_, on, _) => on
  | none => g

/-- The distance along a stroke of a spot position: its start before it, its end behind it. -/
def Stroke.spotDist (s : Stroke) (spot : Trk) : Int :=
  if spot.no < s.no then 0 else if s.no < spot.no then s.total else clampI 0 s.total spot.d

/-- The effective mark speed of a stroke at a spot position (R115): of the mark there, of the first mark before the stroke
and of the last behind it. -/
def Stroke.spotVe (s : Stroke) (p : Plan) (spot : Trk) : Nat :=
  if spot.no = s.no ∧ spot.ve ≠ 0 then spot.ve
  else vEff (if spot.no < s.no then s.spd0 else s.spd1) p.kSpeed s.kThr p.env.spdLim

/-- Power commanded at an entry (R121): that of the stroke whose gate window, from t_on to t_off, holds the tick; the pulses
of an armed stroke and an edge within the microvector do not change it. A ramp's power and a tracked power are rounded to the
nearest 0.1 W, ties up. The rule states neither. DESIGN CHOICE (notes/assumptions/184). -/
def entryPower (p : Plan) (spot : Trk) : Nat :=
  let t : Int := (p.n : Int) * p.env.pTaps
  match p.live.find? (fun s => s.opens && decide (s.tOn ≤ t) && decide (t < s.tOff)) with
  | none => 0
  | some s =>
    let w := powerAt s.pw (s.spotDist spot)
    let ve := s.spotVe p spot
    if p.env.track ∧ spot.v < ve then (rdivUp ((w : Int) * spot.v) ve).toNat else w

/-- The nearest point of the field (R138). -/
def clampField (e : PlanEnv) (x y : Int) : Int × Int :=
  (clampI (e.orgX * 256) ((e.orgX + 64 * e.pitch) * 256) x, clampI (e.orgY * 256) ((e.orgY + 64 * e.pitch) * 256) y)

/-- The entry at a path point (`kind`, unwobbled position, focus, tangent, speed, acceleration, stroke distance,
effective speed, wobble, item, tag), and the plan after it, whose time moves by one microvector. An entry of a commit span
behind the run-out derives from the stroke's last mark (R545). -/
def produce (pi : PlanIn) (p : Plan) (kind : Nat) (x y f : Int) (tan : Int × Int) (v a d : Int) (ve : Nat)
    (wob : Nat × Nat × Nat × Nat) (item tag extra : Nat) (first : Option Stroke) : Entry × Plan :=
  let e := p.env
  let pt := e.pTaps
  let tick : Int := (p.n : Int) * pt
  let no := if kind = 3 ∨ kind = 4 ∨ kind = 5 then (p.live.head?.map Stroke.no).getD 0 else 0
  let tw := if no = 0 then 0 else (p.n - (p.live.head?.map Stroke.t0).getD p.n) * pt * tapU
  let off := if no = 0 then (0, 0) else inFrame tan (wobbleOff wob tw v.toNat ve)
  let fx := x + off.1
  let fy := y + off.2
  let (gx, gy) := if kind = 6 then clampField e fx fy else (fx, fy)
  let (c0, c1, c2) := correct e pi.loft gx gy f
  let sats := b2n (c0 != satCode c0) + b2n (c1 != satCode c1) + b2n (c2 != satCode c2)
  let item := if no = 0 ∧ kind ≠ 6 ∧ p.n < p.spanEnd then p.spanItem else item
  let here : Trk := ⟨gx, gy, if no = 0 then 2 ^ 96 else d, v, ve, p.strokeNo⟩
  let track := (here :: p.track).take 900
  let spot := (spotAt track pt e.lag).getD here
  let now := p.edges.filter fun q => q.1 < tick + pt
  let gate := gateAfter p.gate (now.filter fun q => q.1 ≤ tick)
  let gateEnd := gateAfter p.gate now
  let wins := (p.live.filter fun s => s.opens && decide (s.tOn < tick + pt) && decide (tick ≤ s.tOff)).map Stroke.key
  let span := decide (p.n < p.spanEnd) && kind != 6
  let ended := p.live.filter fun s => s.spanEnd == p.n + 1
  let p' := { p with
    n := p.n + 1, edges := p.edges.filter (fun q => tick + pt ≤ q.1), gate := gateEnd,
    live := p.live.filter (fun s => decide (tick + pt ≤ s.tOff) || decide (p.n + 1 < s.spanEnd) ||
      (p.ph == 4 && s.no == p.strokeNo)),
    track := track, lx := x, ly := y, ltx := tan.1, lty := tan.2, lv := v, la := a, flags := 0 }
  (⟨kind, satCode c0, satCode c1, satCode c2, rAway gx 256, rAway gy 256, f, rAway spot.x 256, rAway spot.y 256,
    entryPower p spot, gate, now.map (fun q => (q.2.1, (q.1 - tick).toNat)), v.toNat / speedU,
    if no = 0 then p.strokeNo else no, tag, item, first, span, ended, wins, gateEnd, sats,
    kind == 6 && (gx != fx || gy != fy), 1 + extra + b2n e.twoPlane, p.flags, p'⟩, p')

/-- An entry at rest. -/
def produceRest (pi : PlanIn) (p : Plan) (kind item : Nat) : Entry × Plan :=
  produce pi p kind p.x p.y p.f (0, 0) 0 0 0 0 (0, 0, 0, 0) item 0 0 none

/-- An entry on the first of the remaining moves. The unit that wobble costs (R132) is charged to the entries of a stroke, on
which alone it acts (R120); the rule does not say so of jump, settle and dwell entries. DESIGN CHOICE
(notes/assumptions/185). -/
def produceMove (pi : PlanIn) (p : Plan) (m : Move) (first : Option Stroke) : Entry × Plan :=
  let (s, v, a) := headAt m p.t
  let (x, y) := m.point s
  let kT := (p.live.head?.map Stroke.kThr).getD 16384
  let ve := if m.kind = 0 ∨ m.kind = 6 then 0 else vEff m.spd p.kSpeed kT p.env.spdLim
  let planar := m.shape != 2
  let (en, p') := produce pi p m.kind x y (rAway (m.focus s * 256) 256) (m.tangent s) (if planar then v else 0)
    (if planar then a else 0) (if planar then m.dist + s else m.dist) ve m.wob m.item m.tag
    (b2n (m.shape == 1) + b2n (m.kind != 0 && m.kind != 6 && (m.wob.2.2.1 != 0 || m.wob.2.2.2 != 0))) first
  let q := { p' with t := p.t + tapU * p.env.pTaps, f := m.focus s }
  (en, q)

/-- Dwell that the marshal asks before a stroke (R174). -/
def dwellOf (recs : List MRec) (key : Nat) : Nat := ((recs.find? fun r => r.key == key).map MRec.dwell).getD 0

/-- Where a plan is at rest, if it is: behind its last move. -/
def planRest (p : Plan) : Option (Int × Int × Int) :=
  match p.moves.getLast? with
  | none => some (p.x, p.y, p.f)
  | some m =>
    if movesDur p.moves ≤ p.t then
      let (x, y) := if p.ph = 5 then clampField p.env m.stop.1 m.stop.2 else m.stop
      some (x, y, m.f1)
    else none

/-- The next entry of a plan lies in a jump that is under way. -/
def Plan.inJump (p : Plan) : Bool := p.ph == 1 && decide (p.t < movesDur p.moves)

/-- A dwell at rest in a commit span behind the run-out, where no jump follows or none may (R123, R128, R138); none behind the
span. -/
def spanDwell (pi : PlanIn) (p : Plan) (q : Plan) : Option Entry × Plan :=
  if p.n < p.spanEnd then let (e, r) := produceRest pi p 2 p.spanItem; (some e, { r with t := 0 }) else (none, q)

/-- The next entry of a plan and the plan after it (a stop ends at rest at its last position, clamped to the field,
R138), or the plan as far as it can go without one; the fuel bounds the
elements passed on the way. The throttle factor of a stroke is the one in force when its first entry is computed (R115): where it
has changed since the jump before the stroke was planned, a jump leads to the new start of the run-in. -/
def nextEntry (pi : PlanIn) : Nat → Plan → Option Entry × Plan
  | 0, p => (none, p)
  | fuel + 1, p =>
    if p.fault ≠ 0 then (none, p)
    else match p.ph with
    | 0 =>
      if pi.holding then spanDwell pi p { p with t := 0 }
      else match planElement pi p with
      | some q => nextEntry pi fuel q
      | none => spanDwell pi p { p with t := 0 }
    | 2 =>
      if pi.holding ∧ p.n < p.spanEnd then spanDwell pi p p
      else if 0 < p.cnt then
        let (e, q) := produceRest pi p 1 p.k
        (some e, { q with cnt := p.cnt - 1 })
      else nextEntry pi fuel { p with ph := 3 }
    | 3 =>
      match p.nxt with
      | none => nextEntry pi fuel { p with ph := 0, t := 0 }
      | some ns =>
        if pi.holding ∧ p.n < p.spanEnd then spanDwell pi p p
        else if pi.kThr ≠ ns.st.kThr then nextEntry pi fuel (retimeWait (pi.within p) p)
        else if p.dwelt < dwellOf pi.recs ns.st.key then
          let (e, q) := produceRest pi p 2 p.k
          (some e, { q with dwelt := p.dwelt + 1 })
        else if mustSpace p ns then
          let (e, q) := produceRest pi { p with flags := p.flags ||| 16 } 2 p.k
          (some e, q)
        else
          let bad := (ns.moves.head?.map Move.bad).getD 0
          if bad ≠ 0 then spanDwell pi p { p with fault := bad }
          else nextEntry pi fuel (startStroke p ns)
    | 6 => (none, p)
    | ph =>
      match p.moves with
      | [] =>
        if ph = 1 then
          if p.nxt.isSome then
            nextEntry pi fuel { p with ph := 2, cnt := if p.moved then p.sett.settle else 0, t := 0 }
          else nextEntry pi fuel { p with ph := 0 }
        else if ph = 5 then
          let (x, y) := clampField p.env p.x p.y
          (none, { p with ph := 6, x := x, y := y })
        else nextEntry pi fuel { p with ph := 0 }
      | m :: rest =>
        if ph = 1 ∧ m.bad ≠ 0 then spanDwell pi p { p with fault := m.bad }
        else if p.t < m.dur then
          let first := if ph = 4 then (p.live.head?.bind fun s => if s.t0 = p.n then some s else none) else none
          let (e, q) := produceMove pi p m first
          (some e, q)
        else
          let (x, y) := m.stop
          nextEntry pi fuel { p with moves := rest, t := p.t - m.dur, x := x, y := y, f := m.f1 }

/-- The next entry of a plan under the parameters in force, holding the plan after it. -/
def planStep (pi : PlanIn) (p : Plan) : Option Entry × Plan :=
  match nextEntry pi (p.moves.length + pi.items.length + 16) (refresh pi p) with
  | (some e, q) => (some { e with after := q }, q)
  | (none, q) => (none, q)

end Machine
end Sys2Proof
end

