-- ==== Sys2Proof/Machine/Lifetime.lean ====
section
/-!
DEFINITION. The numbers of the lifetime counters (R499): chapter, position of the counter in its chapter's list,
instance.
-/
namespace Sys2Proof
namespace Machine

/-- The number of a lifetime counter: chapter `ch`, item `i` of the chapter's list, instance `k`. -/
def lifeNo (ch i k : Nat) : Nat := ch * 0x100000 + i * 0x1000 + k

end Machine
end Sys2Proof
end

