-- ==== Sys2Proof/Machine/Views.lean ====
section
/-!
DEFINITION. What a read of a register shows where the value is not a stored word but follows from other state:
counts, states of many units in one word, windows that a select register moves.
-/
namespace Sys2Proof
namespace Machine

/-- Stalls of LAYER_SET in LAYER_WAIT (R24). -/
def layerWaiting (s : State) : Nat :=
  ((fins 48).filter fun (g : Fin 48) => bit s.layerSet g.val && get s (F.STALL_STATE_STATE g) == 4).length

/-- Milliseconds until the heartbeat expires; 0 while it is off or has expired (R100). -/
def heartbeatRemain (s : State) : Nat :=
  let p := get s F.YRD_HEARTBEAT_PERIOD * 1000
  if flag s F.YRD_HEARTBEAT_STATUS_LOST then 0 else p - (s.beam - s.hbSince) / 1000000

/-- `CLE_STATUS`: of the stalls of a stable, those whose energy loop runs, those whose servo is CLOSED and those in FAULT
with cause CLE (R221). -/
def cleStatus (t : Fin 6) (s : State) : Nat :=
  let mask := fun (f : Nat → Bool) => ((List.range 8).map fun i => if f (8 * t.val + i) then 2 ^ i else 0).sum
  mask (fun g => get s (F.ENG_STATUS_LOOP g) == 1) + 2 ^ 8 * mask (fun g => get s (F.SRV_STATE_STATE g) == 3) +
    2 ^ 16 * mask (fun g => get s (F.STALL_STATE_STATE g) == 6 && get s (F.STALL_STATE_FAULT_CAUSE g) == 10)

/-- The value of a computed word, or none where the word is stored. -/
def viewWord (o : Nat) (s : State) : Option Nat :=
  if o = R.TMS_NOW then some s.now
  else if o = R.TMS_NOW + 4 then some (s.now / 2 ^ 32)
  else if o = R.YRD_LAYER_STATUS then some (setBits (rdN s o) 24 6 (layerWaiting s))
  else if o = R.YRD_HEARTBEAT_STATUS then some (setBits (rdN s o) 8 24 (heartbeatRemain s))
  else match (fins 6).find? fun (t : Fin 6) => o == R.CLE_STATUS t with
    | some t => some (cleStatus t s)
    | none => none

/-- The word a read of an offset shows. -/
def readWord (o : Nat) (s : State) : Word :=
  match viewWord o s with
  | some v => BitVec.ofNat 32 v
  | none => rd s o

/-- The word a read of an offset shows, as a number. -/
def readN (o : Nat) (s : State) : Nat := (readWord o s).toNat

end Machine
end Sys2Proof
end

