-- ==== Sys2Proof/Machine/Flags.lean ====
section
/-!
DEFINITION. Raising an event source and what a raise does: the pending bit and stamp (R487), the routed vector
(R488), a snapshot trigger (R496) and the event recorder (R489-R492); world faults (R9, R37, R447, R449).
-/
namespace Sys2Proof
namespace Machine

/-- The source number of stall `g`'s event `k` (R31). -/
def stallEv (g k : Nat) : Nat := 256 + 40 * (g / 8) + 4 * (g % 8) + k

/-- The source number of stable `t`'s event 32 + `k` (R31). -/
def stableEv (t k : Nat) : Nat := 256 + 40 * t + 32 + k

/-- The pending bit of a source. -/
def pendBit (n : Nat) : Fld := ⟨R.EVC_PEND (n / 32), n % 32, 1⟩

/-- The message of a vector, as its table entry has it (R36). -/
def msixOut (v : Nat) (s : State) : Out := .msix v (rd64 s (R.HIF_MSIX_ADDR v)) (rdN s (R.HIF_MSIX_DATA v))

/-- A signal goes out: an MSI-X message, or the pending bit of a masked vector (R58, R488). -/
def signalOut (v : Nat) (s : State) : State :=
  if flag s (F.HIF_MSIX_CTRL_MASK v) then put s ⟨R.HIF_MSIX_PBA + 4 * (v / 32), v % 32, 1⟩ 1
  else emit (msixOut v s) s

/-- Signal a vector (R58, R488): within one cycle of the fabric clock only its first signal goes out. -/
def signalVector (v : Nat) (s : State) : State :=
  if (s.cycleVecs.getD []).contains v then s else signalOut v { s with cycleVecs := s.cycleVecs.map (v :: ·) }

/-- What happens in one cycle of the fabric clock: several signals of one vector are one message (R58, R488). Which commands
are one cycle is notes/assumptions/13. -/
def oneCycle (f : State → State) (s : State) : State :=
  { f { s with cycleVecs := some [] } with cycleVecs := none }

/-- The registers a source's record captures (R491), as offsets. The entries of `DMC.ELOG` are read by `recDetail`. -/
def detailRegs (n : Nat) : List Nat :=
  if n < 8 then [R.CPM_FLAGS, R.CPM_STATUS, R.CPM_LOST_INFO]
  else if n < 16 then [R.THM_FLAGS, R.THM_STATUS, R.THM_CTL, R.CPM_PWR_STATUS]
  else if n < 24 then [R.TMS_FLAGS, R.TMS_STATUS, R.TMS_OFFSET, R.TMS_OFFSET + 4]
  else if n < 32 then [R.DMC_FLAGS]
  else if n < 40 then [R.TCK_FLAGS, R.TCK_WF_INFO, R.TCK_WF_ADDR, R.TCK_WF_ADDR + 4, R.TCK_STATUS]
  else if n < 48 then [R.YRD_LSAFE_STATUS, R.YRD_LSAFE_FLAGS, R.YRD_LSAFE_TIME]
  else if n < 64 then [R.HIF_ERR_STATUS, R.HIF_ACCESS_ERR, R.HIF_DMA_ERR_INFO]
  else if n < 72 then [R.GTE_FLAGS, R.GTE_LAST_ABORT, R.GTE_LAST_ABORT + 4]
  else if n < 80 then [R.YRD_MSH_FLAGS, R.YRD_MSH_LAST_CONFLICT, R.YRD_LAYER_STATUS, R.YRD_HEARTBEAT_STATUS,
    R.YRD_CFG_STATUS]
  else if n < 96 then [R.SENS_FLAGS (n - 80), R.SENS_STATUS (n - 80), R.SENS_FRAME_SEQ (n - 80)]
  else if n < 100 then [R.PORT_FLAGS (n - 96), R.PORT_PHY_STATUS (n - 96)]
  else if n < 104 then [R.PIPE_STATUS ((n - 100) % 2)]
  else if n < 108 then [R.PORT_FLAGS (n - 104), R.PORT_PHY_STATUS (n - 104)]
  else if n < 112 then []
  else if n < 128 then [R.CMP_FLAGS, R.CMP_STATUS]
  else if n < 144 then
    let a := (n - 128) / 2; [R.AXIS_FLAGS a, R.AXIS_STATUS a, R.AXIS_POS a, R.AXIS_FAULT_INFO a]
  else if n < 160 then
    let p := (n - 144) / 2; [R.FBKP_FLAGS p, R.FBKP_STATUS p, R.FBKP_POS p, R.FBKP_FAULT_INFO p]
  else if n < 208 then
    let b := (n - 160) / 4; [R.LNK_STATE b, R.LNK_FLAGS b, R.LNK_RX_STATUS b, R.LNK_SKEW b]
  else if n < 216 then [R.LMP_FLAGS, R.LMP_GROUP_STATUS, R.LMP_LAST_FAULT]
  else if n < 220 then [R.FAR_FLAGS, R.FAR_LAST_FAIL]
  else if n < 224 then [R.DGN_FLAGS, R.DGN_STATUS]
  else if n < 256 then []
  else if n < 496 then
    let t := (n - 256) / 40; let r := (n - 256) % 40
    if r < 32 then
      let g := 8 * t + r / 4
      [R.STALL_STATE g, R.STALL_FLAGS g, R.STALL_TRJ_FLAGS g, R.STALL_OUT_FLAGS g, R.STALL_TRJ_SQUASH_LAST g,
        R.STALL_TRJ_FAULT g, R.STALL_OUT_FAULT g, R.ENG_STATUS g]
    else [R.CLE_FLAGS t, R.CLE_STATUS t, R.STB_TRJ_ENGINE t]
  else []

/-- A word of the newest `DMC.ELOG` entry, 0 when none was written. -/
def elogNewest (w : Nat) (s : State) : Nat :=
  match cellGet s.elog ((get s F.DMC_ELOG_HEAD_NEXT + 15) % 16) with
  | some e => e.getD w 0
  | none => 0

/-- The DETAIL words of a source's record (R491). -/
def recDetail (n : Nat) (s : State) : List Nat :=
  (detailRegs n).map (fun o => readN o s) ++
    (if 24 ≤ n ∧ n < 32 then [elogNewest 0 s, elogNewest 1 s, elogNewest 2 s]
     else if 256 ≤ n ∧ n < 496 ∧ 32 ≤ (n - 256) % 40 then [elogNewest 0 s] else [])

/-- Records held: HEAD - TAIL modulo 2^32 (R492). -/
def recHeld (s : State) : Nat := (rdN s R.ERW_HEAD + 2 ^ 32 - rdN s R.ERW_TAIL) % 2 ^ 32

/-- The recorder is sealed (R492). -/
def recSealed (s : State) : Bool := flag s F.TCK_CFG_RECORDER_SEAL

/-- Create a recorder record, or count it as LOST where there is no room (R492). -/
def recNew (kind source : Nat) (detail : List Nat) (s : State) : State :=
  if 512 ≤ s.recStaged.length ∨ (recSealed s ∧ 65536 ≤ recHeld s) then
    lifeAdd { s with recLost := satN 65535 (s.recLost + 1) } (lifeNo 20 5 0) 1
  else
    let r : EvRec := ⟨rdN s R.ERW_HEAD, kind, source, rdN s R.DGN_OP_SECONDS, rdN s R.DGN_POWER_CYCLES, s.now, 1,
      s.recLost, detail⟩
    addW { s with recStaged := s.recStaged ++ [r], recLost := 0 } R.ERW_HEAD 1

/-- The position of the newest staged record of a source. -/
def newestOf (n : Nat) (l : List EvRec) : Option Nat :=
  (l.zipIdx.filter (fun p => p.1.kind == 1 && p.1.source == n)).getLast?.map Prod.snd

/-- A raise reaches the recorder: merged into the newest staged record of its source if that is less than 1 s old,
else a new record (R489). -/
def recRaise (n : Nat) (s : State) : State :=
  match newestOf n s.recStaged with
  | some i =>
    match s.recStaged[i]? with
    | some r =>
      if r.time ≤ s.now ∧ s.now < r.time + 1000000000 then
        { s with recStaged := s.recStaged.set i { r with raises := satN 65535 (r.raises + 1) } }
      else recNew 1 n (recDetail n s) s
    | none => recNew 1 n (recDetail n s) s
  | none => recNew 1 n (recDetail n s) s

/-- A snapshot trigger (R496, R497): kind 1 host, 2 event, 3 pin. A trigger while a snapshot is held, or before the
freeze tick of one already taken, is missed; of several before one freeze tick the lowest kind, and among events the
lowest source, is recorded. -/
def snapTrigger (t : SnapTrig) (s : State) : State :=
  let miss := fun s' => lifeAdd (setF (addW s' R.DGN_MISSED 1) F.DGN_FLAGS_MISSED) (lifeNo 20 1 0) 1
  if s.snap.isSome then miss s
  else match s.snapTrig with
    | none => { s with snapTrig := some t }
    | some o =>
      if t.kind < o.kind ∨ (t.kind = o.kind ∧ t.source < o.source) then
        miss { s with snapTrig := some { t with ctx := o.ctx, since := o.since } }
      else miss s

/-- Raise an event source (R487, R488, R489, R496). -/
def raise (n : Nat) (s : State) : State :=
  let was := flag s (pendBit n)
  let s1 := addSatF s (F.EVC_INFO_RAISES n) 1
  let s2 :=
    if was then s1
    else
      let t := wr64 (setF s1 (pendBit n)) (R.EVC_STAMP n) s.now
      if get t (F.EVC_SRC_ROUTE n) = 1 then signalVector (get t (F.EVC_SRC_VECTOR n)) t else t
  let s3 := if flag s2 (F.EVC_SRC_FREEZE n) then snapTrigger ⟨2, n, none, s2.now⟩ s2 else s2
  if flag s3 (F.EVC_SRC_RECORD n) ∨ alwaysSource n then recRaise n s3 else s3

/-- Raise a source only where a flag that reports it was clear; the flag sets either way. -/
def raiseOnSet (f : Fld) (n : Nat) (s : State) : State := if flag s f then s else raise n (setF s f)

/-! ## World faults -/

/-- The bit of the Block World Table that governs an offset (R447); none between block ranges. -/
def bwtBit (o : Nat) : Option Nat :=
  if o < 0x130000 then some (o / 0x10000)
  else if o < 0x200000 then none
  else if o < 0x800000 then some (32 + (o - 0x200000) / 0x100000)
  else if o < 0x8C0000 then some (40 + (o - 0x800000) / 0x10000)
  else none

/-- The block of a Block World Table bit is secure (R447). -/
def blockSecure (b : Nat) (s : State) : Bool :=
  if b = 0 then false else if b = 17 then true else bit (rd64 s R.TCK_BWT) b

/-- Record a world fault: requester 1 register, 2 descriptor, 3 window; context; whether it is a write; the block's
bit, 0xFF a memory region; the address (R447, R449). -/
def worldFault (req ctx : Nat) (write : Bool) (bwt addr : Nat) (s : State) : State :=
  let s1 := wrN s R.TCK_WF_INFO (ctx + 2 ^ 8 * req + 2 ^ 12 * b2n write + 2 ^ 16 * bwt)
  let s2 := wr64 (wr64 s1 R.TCK_WF_ADDR addr) R.TCK_WF_TIME s.now
  let s3 := setF (addW s2 R.TCK_WF_COUNT 1) F.TCK_FLAGS_WORLD_FAULT
  raise 32 (lifeAdd s3 (lifeNo 17 0 req) 1)

/-- Record a rejected access in `HIF.ACCESS_ERR` (R4, R37, R39, R45, R46). -/
def accessErr (off kind window : Nat) (s : State) : State :=
  wrN s R.HIF_ACCESS_ERR (off % 2 ^ 24 + 2 ^ 24 * kind + 2 ^ 28 * window)

/-- A non-secure access to a secure register: R9, R37. -/
def regWorldFault (off : Nat) (write : Bool) (s : State) : State :=
  worldFault 1 0 write ((bwtBit off).getD 0xFF) off
    (setF (accessErr off 2 0 s) F.HIF_ERR_STATUS_ACCESS_ERROR)

end Machine
end Sys2Proof
end

