-- ==== Sys2Proof/Machine/Operands.lean ====
section
/-!
DEFINITION. The operand forms: a host or secure access to a register with its world check (R5, R9, R37) and its
64-bit form (R8), and a descriptor of a ring context with its header fields (R48), its start (R54, R55) and its
completion (R50, R52).
-/
namespace Sys2Proof
namespace Machine

/-! ## Register accesses -/

/-- The world a register belongs to (R9): 0 NS, 1 S, 2 BWT. A reserved offset follows its block (R7). -/
def regWorld (o : Nat) : Nat :=
  if 0x11000 ≤ o ∧ o < 0x11040 then 1
  else match rowAt o with
    | some (w, _) => w.world
    | none => 2

/-- Whether a requester may reach a register: a secure requester always, a non-secure one where the register is not
secure (R9, R447). -/
def accessOk (sec : Bool) (o : Nat) (s : State) : Bool :=
  sec || match regWorld o with
    | 0 => true
    | 1 => false
    | _ => !(blockSecure ((bwtBit o).getD 0) s)

/-- A register write under the world check of R9: its effect `k`, or a world fault. -/
def hostWrite (sec : Bool) (o : Nat) (k : State → State) (s : State) : State :=
  if accessOk sec o s then k s else regWorldFault o true s

/-- A write of an RWS register (R5): the secure world only. -/
def secureWrite (sec : Bool) (o : Nat) (k : State → State) (s : State) : State :=
  if sec then k s else regWorldFault o true s

/-- A write that reaches a 64-bit register (R8): the state after the hold, and the value that takes effect, if any.
`wo` marks a register whose words read 0. -/
def wide (o : Nat) (wo : Bool) (w : Wr64) (s : State) : State × Option Nat :=
  match w with
  | .lo v => ({ s with lowHeld := cellPut s.lowHeld o v }, none)
  | .hi v =>
    match cellGet s.lowHeld o with
    | some l => ({ s with lowHeld := cellDel s.lowHeld o }, some (l.toNat + 2 ^ 32 * v.toNat))
    | none => (s, some ((if wo then 0 else rdN s o) + 2 ^ 32 * v.toNat))
  | .both v => ({ s with lowHeld := cellDel s.lowHeld o }, some v.toNat)

/-- Run an operation with the value a 64-bit register write makes effective, if it does. -/
def withWide (o : Nat) (wo : Bool) (w : Wr64) (k : Nat → State → State) (s : State) : State :=
  match wide o wo w s with
  | (s', some v) => k v s'
  | (s', none) => s'

/-! ## Descriptor header fields (R48) -/

def Desc.op (d : Desc) : Nat := dbytes d.raw 0 1
def Desc.fmt (d : Desc) : Nat := bits (dbytes d.raw 0 4) 8 4
def Desc.irq (d : Desc) : Bool := bit (dbytes d.raw 0 4) 12
def Desc.errStop (d : Desc) : Bool := bit (dbytes d.raw 0 4) 13
/-- The opcode bits of FLAGS, bits 23:14. -/
def Desc.flags (d : Desc) : Nat := bits (dbytes d.raw 0 4) 14 10
/-- Opcode bit `i` of FLAGS, by its place in the word (14 to 23). -/
def Desc.fbit (d : Desc) (i : Nat) : Bool := bit (dbytes d.raw 0 4) i
def Desc.txn (d : Desc) : Nat := bits (dbytes d.raw 0 4) 24 6
def Desc.txnV (d : Desc) : Bool := bit (dbytes d.raw 0 4) 30
def Desc.fence (d : Desc) : Bool := bit (dbytes d.raw 0 4) 31
def Desc.seq (d : Desc) : Nat := dbytes d.raw 4 4
def Desc.addr (d : Desc) : Nat := dbytes d.raw 8 8
def Desc.len (d : Desc) : Nat := dbytes d.raw 16 4
/-- Bytes `o` to `o + n - 1`. -/
def Desc.at (d : Desc) (o n : Nat) : Nat := dbytes d.raw o n

/-! ## Status codes (R544) -/

def stOK : Nat := 0x00
def stDUPLICATE : Nat := 0x01
def stABORTED : Nat := 0x02
def stVERSION : Nat := 0x03
def stFORMAT : Nat := 0x04
def stINTERLOCK : Nat := 0x05
def stNO_SPACE : Nat := 0x06
def stWORLD_FAULT : Nat := 0x07
def stDATA_CHECK : Nat := 0x08
def stMEMORY_ERROR : Nat := 0x09
def stBUSY : Nat := 0x0A
def stTIMEOUT : Nat := 0x0B
def stTXN_CONFLICT : Nat := 0x0C
def stLIMIT : Nat := 0x0D
def stPARTIAL : Nat := 0x0E

/-! ## Contexts -/

/-- A context. -/
def ctx (s : State) (c : Fin 256) : Ctx := s.ctxs[c.val]

/-- Change a context. -/
def setCtx (c : Fin 256) (f : Ctx → Ctx) (s : State) : State := { s with ctxs := vmod s.ctxs c f }

/-- Entries of a context's rings (R43). -/
def ringN (s : State) (c : Fin 256) : Nat := 2 ^ get s (F.HIF_CTX_CFG_SIZE_LOG2 c)

/-- A decided completion of the descriptors with a SEQ: the original takes it, and a waiting DUPLICATE of it too
(R52). -/
def settleDescs (q : Nat) (k : Compl) (l : List Desc) : List Desc :=
  l.map fun d =>
    if d.seq = q ∧ d.compl.isNone ∧ (d.dup → ¬ d.lost) then { d with compl := some k } else d

/-- The history with the entry of a SEQ decided. -/
def settleHist (q : Nat) (k : Compl) (l : List HistEnt) : List HistEnt :=
  l.map fun h => if h.seq = q ∧ h.compl.isNone then { h with compl := some k } else h

/-- A value a completion record takes: given, or free where the spec states none (notes/assumptions/3). -/
def openValue (v : Option Nat) (s : State) : Nat × State :=
  match v with
  | some n => (n, s)
  | none => let (n, s') := draw 1 s; (n % 2 ^ 64, s')

/-- Decide the completion of an accepted descriptor of a context, by its SEQ (R50, R52): the status, the results
(none where the spec states no value) and the STAGED flag. -/
def complete (c : Fin 256) (q st : Nat) (a b : Option Nat) (staged : Bool) (s : State) : State :=
  let (av, s1) := openValue a s
  let (bv, s2) := openValue b s1
  let k : Compl := ⟨st, av, bv, s2.now, staged⟩
  setCtx c (fun x => { x with
    fetched := settleDescs q k x.fetched
    orphans := x.orphans.filter (fun d => d.seq != q)
    hist := settleHist q k x.hist }) s2

/-- The descriptors ahead of the oldest one that has neither started nor completed, and that one. -/
def oldestUnstarted : List Desc → List Desc × Option Desc
  | [] => ([], none)
  | d :: t =>
    if ¬ d.started ∧ d.compl.isNone ∧ ¬ d.dup then ([], some d)
    else let (b, r) := oldestUnstarted t; (d :: b, r)

/-- A descriptor with FENCE, or one that acts as if FENCE were set (R55, R79, R326). -/
def Desc.fences (d : Desc) : Bool :=
  d.fence || d.op == 0x42 || d.op == 0x43 || (decide (0x18 ≤ d.op) && decide (d.op ≤ 0x1B))

/-- A descriptor that waits for every earlier one: a FENCE, or a compression job without START (R55, R339). -/
def Desc.waitsEarlier (d : Desc) : Bool := d.fences || ((d.op == 0x50 || d.op == 0x51) && !(d.fbit 14))

/-- A program load that has passed its checks and waits for room in its region (R79). -/
def Desc.loadWaits (d : Desc) : Bool := [0x10, 0x11, 0x12].contains d.op && d.started && d.aux == 0

/-- A descriptor that keeps later ones from starting: a FENCE or a WAIT_UNTIL that has not completed (R55, R57), or a
TXN_OPEN that waits for an ID (R227), or a program load that waits for room (R79). A DUPLICATE that waits for its original
holds back no work (R52). -/
def holdsLater (d : Desc) : Bool :=
  (d.fences || d.op == 0x01 || d.op == 0x60 || d.loadWaits) && d.compl.isNone && !d.dup

/-- The descriptor of a context that may start now (R40, R54, R55): the context is ACTIVE, or STOPPED by a fetch
error; a FENCE waits for every earlier one; nothing passes an uncompleted FENCE or WAIT_UNTIL. Started descriptors that an
event of R68 cut loose are not among the earlier ones of a FENCE of the next ENABLE; R55 does not say. DESIGN CHOICE
(notes/assumptions/210). -/
def mayStart (x : Ctx) : Option Desc :=
  if x.st = .active ∨ (x.st = .stopped ∧ x.stopCause = 2) then
    match oldestUnstarted x.fetched with
    | (before, some d) =>
      if (d.waitsEarlier ∧ ¬ before.all (fun e => e.compl.isSome || e.dup)) ∨ before.any holdsLater then none else some d
    | (_, none) => none
  else none

/-- Mark the accepted, undecided descriptor of a SEQ as started, with its kept value. -/
def startDescs (q aux : Nat) (l : List Desc) : List Desc :=
  l.map fun d => if d.seq = q ∧ ¬ d.dup ∧ d.compl.isNone then { d with started := true, aux := aux } else d

/-- Mark a descriptor as started. -/
def startDesc (c : Fin 256) (q aux : Nat) (s : State) : State :=
  setCtx c (fun x => { x with fetched := startDescs q aux x.fetched }) s

/-- No descriptor starts in recovery mode (R514), none of a management, time or diagnostic context while the management
cluster restarts (R518), and no sealed load while a TCK copy runs (R519). -/
def startHeld (c : Fin 256) (op : Nat) (s : State) : Bool :=
  get s F.BOOT_STATUS_PHASE == 5 || (s.mgmtDown.isSome && decide (6 ≤ get s (F.HIF_CTX_CFG_TYPE c))) ||
    ((s.imgCopy.map Prod.fst == some 5) && op == 0x12)

/-- Start the context's next descriptor if its opcode is `op`: the command's operation runs on the state with the
descriptor started. Where no descriptor of that opcode may start, nothing happens. -/
def withDesc (c : Fin 256) (op : Nat) (k : Desc → State → State) (s : State) : State :=
  match mayStart (ctx s c) with
  | some d => if d.op = op ∧ ¬ startHeld c op s then k d (startDesc c d.seq 0 s) else s
  | none => s

/-- The oldest started, undecided descriptor of a context, the ones cut loose by R68 first. -/
def runningDesc (x : Ctx) (p : Desc → Bool) : Option Desc :=
  (x.orphans ++ x.fetched).find? (fun d => d.started && d.compl.isNone && !d.dup && p d)

/-- A context's requester is secure (R446). -/
def ctxSecure (c : Fin 256) : Bool := c.val == 0

/-- FORMAT for a required zero that is not 0 (R49 check 5). -/
def formatZero (c : Fin 256) (q : Nat) (s : State) : State := complete c q stFORMAT (some 4) none false s

/-- Run an operation if a target block may be reached by the context, else complete with WORLD_FAULT (R447). -/
def blockCheck (c : Fin 256) (q b off : Nat) (k : State → State) (s : State) : State :=
  if ¬ ctxSecure c ∧ blockSecure b s then
    complete c q stWORLD_FAULT none none false (worldFault 2 c.val false b off s)
  else k s

/-- A failed payload read (R63), with the RESULT_A of the opcode where the spec gives one. -/
def payloadFailAt (c : Fin 256) (q a kind : Nat) (ra : Option Nat) (s : State) : State :=
  let s1 := wrN (wr64 s R.HIF_DMA_ERR_ADDR a) R.HIF_DMA_ERR_INFO (c.val + 2 ^ 8 * kind)
  let s2 := lifeAdd (setF s1 F.HIF_ERR_STATUS_DMA_ERROR) (lifeNo 2 3 kind) 1
  complete c q stMEMORY_ERROR ra (some a) false (raise 53 s2)

/-- A failed payload read (R63). -/
def payloadFail (c : Fin 256) (q a kind : Nat) (s : State) : State := payloadFailAt c q a kind none s

/-- Run an operation on the payload a read brought back, or complete with MEMORY_ERROR (R63). -/
def withPayload (c : Fin 256) (q : Nat) (r : DmaIn) (k : List Byte → State → State) (s : State) : State :=
  match r with
  | .ok bs => k bs s
  | .fail a kind => payloadFail c q a kind s

end Machine
end Sys2Proof
end

