-- ==== Sys2Proof/Machine/Regions.lean ====
section
/-!
DEFINITION. Device addresses (R383), the Region Table (R448, R449) and the machine-builder limits (R455).
-/
namespace Sys2Proof
namespace Machine

/-- The Region Table entry that decides a page of an address space: the valid entry of lowest index that covers it
(R448). -/
def regionEntry (sp page : Nat) (s : State) : Option (Nat × Nat × Nat) :=
  s.rtab.toList.find? fun e => bit e.2.2 0 && bits e.2.2 2 2 == sp && decide (e.1 ≤ page) && decide (page ≤ e.2.1)

/-- The tack-room area of the hayloft, always secure (R16, R448). -/
def tackArea (a : Nat) : Bool := decide (0x2F00000 ≤ a) && decide (a < 0x3000000)

/-- A page is secure (R448). -/
def pageSecure (sp page : Nat) (s : State) : Bool :=
  if sp = 0 ∧ tackArea (page * 4096) then true
  else match regionEntry sp page s with
    | some e => bit e.2.2 1
    | none => sp == 1

/-- The READERS of a page (R449). -/
def pageReaders (page : Nat) (s : State) : Nat :=
  match regionEntry 0 page s with
  | some e => bits e.2.2 4 3
  | none => 0

/-- A unit of a stable may read a page of its loft: one that is not secure, or whose READERS name the unit (R446, R449): 0 the
sequencer, 1 the trajectory engine, 2 the CLE. -/
def pageReadable (unit page : Nat) (s : State) : Bool := !(pageSecure 0 page s) || bit (pageReaders page s) unit

/-- The pages of `n` bytes from address `a`. -/
def pagesOf (a n : Nat) : List Nat :=
  if n = 0 then [] else (List.range ((a + n - 1) / 4096 - a / 4096 + 1)).map (a / 4096 + ·)

/-- Any page of a device address range is secure. -/
def anySecure (a n : Nat) (s : State) : Bool := (pagesOf a n).any fun p => pageSecure 0 p s

/-- Any page of a device address range is non-secure. -/
def anyOpen (a n : Nat) (s : State) : Bool := (pagesOf a n).any fun p => !pageSecure 0 p s

/-- A requester may reach a range (R449): the secure world always. -/
def rangeOk (secure : Bool) (a n : Nat) (s : State) : Bool := secure || !anySecure a n s

/-- A unit of a stable may read a range of its loft; an access of several pages fails as a whole (R448, R449). -/
def unitReads (unit a n : Nat) (s : State) : Bool := (pagesOf a n).all fun p => pageReadable unit p s

/-- The device address of a loft offset (R383). -/
def loftAddr (st off : Nat) : Nat := 0x400000 * st + off

/-- A stable's loft. -/
def loft (s : State) (st : Nat) : Mem := s.lofts.toList.getD st []

/-- Change a stable's loft. -/
def setLoft (st : Fin 6) (f : Mem → Mem) (s : State) : State := { s with lofts := vmod s.lofts st f }

/-- Bytes of device memory are written (R385): a word written whole loses what was wrong with it; one written in part that could
not be read becomes poison. -/
def heal (a n : Nat) (s : State) : State :=
  let whole := fun (w : Nat) => decide (a ≤ w) && decide (w + 8 ≤ a + n)
  let part := fun (w : Nat) => decide (a < w + 8) && decide (w < a + n)
  { s with
    poison := (s.poison.filter fun w => !whole w) ++ s.sramBad.filter fun w => part w && !whole w
    sramBad := s.sramBad.filter fun w => !part w }

/-- Bytes written to a stable's loft. -/
def loftWrite (st : Fin 6) (off : Nat) (bs : List Byte) (s : State) : State :=
  heal (loftAddr st off) bs.length (setLoft st (fun m => memWrite m off bs) s)

/-- The stable of a stall. -/
def stableOf (g : Fin 48) : Fin 6 := ⟨g.val / 8, by omega⟩

/-- A register's value in effect where a write waits for the next tick (R211, R455). -/
def rdEff (o : Nat) (s : State) : Nat :=
  match cellGet s.oldRegs o with
  | some w => w.toNat
  | none => rdN s o

/-- Write a register whose value takes effect at the next tick. -/
def wrLater (o : Nat) (v : Word) (s : State) : State :=
  let s1 := match cellGet s.oldRegs o with
    | some _ => s
    | none => { s with oldRegs := cellPut s.oldRegs o (rd s o) }
  wr s1 o v

def limPower (g : Nat) (s : State) : Nat := bits (rdEff (R.YRD_LIMIT_PWR g) s) 0 16
def limSpeed (g : Nat) (s : State) : Nat := rdEff (R.YRD_LIMIT_SPEED g) s
def limDmin (g : Nat) (s : State) : Nat := bits (rdEff (R.YRD_LIMIT_DMIN g) s) 0 17

end Machine
end Sys2Proof
end

