-- ==== Sys2Proof/Machine/Stalls.lean ====
section
/-!
DEFINITION. What the chapters on stalls share: the state of a stall and its codes (R22, R94, R95), the descriptors that
wait for a state change (R77), the program pointers (R74), seam registrations (R180-R187) and entry to HOLD and FAULT.
-/
namespace Sys2Proof
namespace Machine

/-! ## State codes (R22) and hold causes -/

def ssOFFLINE : Nat := 0
def ssIDLE : Nat := 1
def ssRUN : Nat := 2
def ssSYNC : Nat := 3
def ssLAYER : Nat := 4
def ssHOLD : Nat := 5
def ssFAULT : Nat := 6

/-- Bits of STATE.HOLD_CAUSE: HOST, HEARTBEAT, STARVED, PROGRAM_EMPTY, ISLAND_DEADLINE, SYNC_TIMEOUT, SEAM. -/
def hcHOST : Nat := 1
def hcHEARTBEAT : Nat := 2
def hcSTARVED : Nat := 4
def hcPROGRAM_EMPTY : Nat := 8
def hcISLAND : Nat := 16
def hcSYNC : Nat := 32
def hcSEAM : Nat := 64

/-- A stall's state beyond its registers. -/
def stall (s : State) (g : Fin 48) : Stall := s.stalls[g.val]

/-- Change a stall. -/
def setStall (g : Fin 48) (f : Stall → Stall) (s : State) : State := { s with stalls := vmod s.stalls g f }

/-- An abort asked for in RUN that finds the stall at rest outside it ends at the next tick (R99). -/
def Stall.abortWaits (x : Stall) : Stall :=
  if bit x.squashNew 5 then { x with squashNew := x.squashNew - 32, abortNew := true } else x

/-- A stall's R22 code. -/
def stSt (g : Nat) (s : State) : Nat := get s (F.STALL_STATE_STATE g)

/-- Every stall is OFFLINE or IDLE. -/
def allQuiet (s : State) : Bool := (fins 48).all fun g => decide (stSt g s ≤ ssIDLE)

/-- Enter a state other than HOLD. -/
def enterState (g : Nat) (c : Nat) (s : State) : State :=
  put (put s (F.STALL_STATE_STATE g) c) (F.STALL_STATE_RETURN_STATE g) 0

/-- The STATE word. -/
def stateWord (g : Nat) (s : State) : Nat := rdN s (R.STALL_STATE g)

/-! ## Descriptors that wait on a stall (R77) -/

/-- The contexts bound to a stall (R38). -/
def stallCtxs (g : Nat) (s : State) : List (Fin 256) :=
  (fins 256).filter fun c => get s (F.HIF_CTX_CFG_TYPE c) == 1 && get s (F.HIF_CTX_CFG_BIND c) == g

/-- The SEQs of the started, undecided descriptors of a context with an opcode in a list. -/
def waitingSeqs (c : Fin 256) (ops : List Nat) (s : State) : List Nat :=
  (((ctx s c).orphans ++ (ctx s c).fetched).filter fun d =>
    d.started && d.compl.isNone && !d.dup && !d.loadWaits && ops.contains d.op).map Desc.seq

/-- Complete the stall descriptors of the given opcodes that wait. -/
def tellStall (g : Nat) (ops : List Nat) (st : Nat) (a b : Option Nat) (s : State) : State :=
  (stallCtxs g s).foldl (fun s c => (waitingSeqs c ops s).foldl (fun s q => complete c q st a b false s) s) s

/-! ## Program pointers (R74) -/

def progBase (g : Nat) (s : State) : Nat := 0x100000 + 4096 * rdN s (R.STALL_PROG_REGION g)
def progSize (g : Nat) (s : State) : Nat := 4096 * rdN s (R.STALL_PROG_REGION g + 4)

/-- Bytes of commands the region holds (R74). -/
def progHeld (g : Nat) (s : State) : Nat :=
  let n := progSize g s
  if n = 0 then 0 else (rdN s (R.STALL_PROG_WP g) + n - rdN s (R.STALL_PROG_RP g)) % n

/-- Bytes free. -/
def progFree (g : Nat) (s : State) : Nat := progSize g s - 16 - progHeld g s

/-- Show the free bytes after a pointer moved. -/
def showFree (g : Nat) (s : State) : State := wrN s (R.STALL_PROG_FREE g) (progFree g s)

/-- Set all three pointers to 0. -/
def zeroPtrs (g : Nat) (s : State) : State :=
  showFree g (wrN (wrN (wrN s (R.STALL_PROG_WP g) 0) (R.STALL_PROG_RP g) 0) (R.STALL_PROG_PARSE g) 0)

/-! ## The planner's inputs -/

/-- The parameters of chapter 04 in force for a stall. -/
def envOf (g : Nat) (s : State) : PlanEnv where
  pTaps := s.mvP * 384 / 10
  markA := (rdN s (R.STALL_MARK_ACCEL g) % 2 ^ 20) * 1000000
  markJ := (rdN s (R.STALL_MARK_JERK g) % 2 ^ 22) * 1000000000
  jumpA := (rdN s (R.STALL_JUMP_ACCEL g) % 2 ^ 20) * 1000000
  jumpJ := (rdN s (R.STALL_JUMP_JERK g) % 2 ^ 22) * 1000000000
  dev := get s (F.STALL_CORNER_DEV g)
  fV := get s (F.STALL_F_LIMIT_F_VMAX g) * 1000 * speedU
  fA := get s (F.STALL_F_LIMIT_F_ACCEL g) * 10000000
  lag := get s (F.STALL_TRJ_LAG_LAG g)
  spdLim := limSpeed g s
  orgX := rdI s (R.STALL_GRID_ORIGIN_X g)
  orgY := rdI s (R.STALL_GRID_ORIGIN_Y g)
  pitch := rdN s (R.STALL_GRID_PITCH g) % 2 ^ 16
  slot0 := get s (F.STALL_GRID_SEL_PLANE0_SLOT g)
  slot1 := get s (F.STALL_GRID_SEL_PLANE1_SLOT g)
  twoPlane := flag s (F.STALL_TRJ_CTRL_TWO_PLANE g)
  plane0 := getI s (F.STALL_FOCUS_PLANES_PLANE0_F g)
  plane1 := getI s (F.STALL_FOCUS_PLANES_PLANE1_F g)
  fGain := rdI s (R.STALL_F_GAIN g)
  track := flag s (F.STALL_TRJ_CTRL_POWER_TRACK g)
  verified := get s (F.STALL_TRJ_STATUS_GRID_STATE g) == 2

/-- The thermal throttle factor in effect, 2^-14 (R115). -/
def kThrottle (s : State) : Nat := get s F.THM_STATUS_K_THROTTLE

/-- What a stall's planner reads. A speed factor delivered at this tick acts from its squash on (R115, R135). -/
def planIn (g : Fin 48) (s : State) : PlanIn :=
  let x := stall s g
  { env := envOf g s, kSpeed := if bit x.squashNew 0 then x.kOld else get s (F.STALL_TRJ_FACTORS_K_SPEED g),
    kThr := kThrottle s, items := x.items,
    ibase := x.ibase, recs := x.recs, loft := loft s (g.val / 8), table := 0xD0000 + 0x2000 * (g.val % 8),
    tableBad := x.tableErr || !(unitReads 1 (loftAddr (g / 8) (0xD0000 + 0x2000 * (g % 8))) 0x2000 s),
    holding := (flag s (F.STALL_STATE_HOLD_PENDING g) && x.holdDue) ||
      (stSt g s == ssHOLD && decide (x.hplan.n < x.hplan.spanEnd)) }

/-- Where a stall is at rest (R133): the middle of its grid until it first runs. -/
def restOf (g : Fin 48) (s : State) : Int × Int × Int :=
  let x := stall s g
  if ¬ x.everRun then
    let p := 32 * ((rdN s (R.STALL_GRID_PITCH g) % 2 ^ 16 : Nat) : Int)
    ((rdI s (R.STALL_GRID_ORIGIN_X g) + p) * 256, (rdI s (R.STALL_GRID_ORIGIN_Y g) + p) * 256, 0)
  else if x.buf.isEmpty ∧ (x.plan.ph = 0 ∨ x.plan.ph = 6) then (x.plan.x, x.plan.y, x.plan.f)
  else match x.lastOut with
    | some e =>
      let last := (e.after.lx, e.after.ly, e.cf)
      if x.hzn = 0 then (planRest x.hplan).getD last else last
    | none => x.rest0

/-- Drop every entry and plan again from rest with the defaults of R82, from the first item held (R133, R140). -/
def replanFromRest (g : Fin 48) (s : State) : State :=
  let (x, y, f) := restOf g s
  setStall g (fun t => { t with
    buf := [], hzn := 0, plan := Plan.rest 0 t.ibase x y f, hplan := Plan.rest 0 t.ibase x y f }) s

/-- Show the run-ahead window in TRJ_STATUS. -/
def showWindow (g : Fin 48) (s : State) : State :=
  let x := stall s g
  put (put (put (put s (F.STALL_TRJ_STATUS_COMMITTED g) x.hzn) (F.STALL_TRJ_STATUS_SPECULATIVE g) (x.buf.length - x.hzn))
    (F.STALL_TRJ_STATUS_STOPPING g) (b2n (x.buf.any fun e => e.kind == 6)))
    (F.STALL_TRJ_STATUS_LEAD_WAIT g) (b2n (!x.leadOk))

/-! ## Seams (R180-R187) -/

/-- The index of the table entry that holds a SEAM_ID. -/
def seamIdx (id : Nat) (s : State) : Option (Fin 192) := (fins 192).find? fun i => s.seams[i.val].st != 0 && s.seams[i.val].id == id

/-- A free table entry. -/
def seamFree (s : State) : Option (Fin 192) := (fins 192).find? fun i => s.seams[i.val].st == 0

/-- The seam entry of an index. -/
def seam (s : State) (i : Fin 192) : Seam := s.seams[i.val]

def setSeam (i : Fin 192) (f : Seam → Seam) (s : State) : State := { s with seams := vmod s.seams i f }

/-- Show the number of OPEN entries. -/
def showSeams (s : State) : State :=
  put s F.YRD_MSH_STATUS_SEAMS_OPEN ((fins 192).countP fun i => (seam s i).st == 1)

/-- Free an entry. -/
def freeSeam (i : Fin 192) (s : State) : State := showSeams (setSeam i (fun _ => ⟨0, 0, 0, 0, false, false, 0, 0⟩) s)

/-- A stall's registrations in entries not yet BOUND (R181). -/
def seamRegs (g : Nat) (s : State) : Nat :=
  (fins 192).countP fun i =>
    let e := seam s i
    (e.st == 1 || e.st == 3) && ((e.owner == g && e.oReg) || (e.other == g && e.xReg))

/-- An entry without its owner becomes ORPHANED (R187). -/
def orphanSeam (i : Fin 192) (s : State) : State :=
  raise 74 (setF (lifeAdd (showSeams (setSeam i (fun e => { e with st := 3 }) s)) (lifeNo 6 7 0) 1) F.YRD_MSH_FLAGS_SEAM_ORPHANED)

/-- A stall that aborts or faults: its OPEN entries as owner ask for a rescue or become ORPHANED; an abort withdraws
its registrations as the other stall (R185, R187). -/
def seamLoss (g : Nat) (abort : Bool) (s : State) : State :=
  forAll 192 (fun i s =>
    let e := seam s i
    if e.st = 1 ∧ e.owner = g then
      if s.seamReqs.any (fun r => r.kind == 3 && r.id == e.id) then s
      else if flag s F.YRD_MSH_SEAM_CFG_RESCUE then
        { s with seamReqs := s.seamReqs ++ [⟨3, e.id, e.other, false⟩] }
      else orphanSeam i s
    else if abort ∧ e.other = g then setSeam i (fun e => { e with xReg := false }) s
    else s) s

/-! ## Armed strokes (R153-R156) -/

/-- Set a flag of OUT_FLAGS and raise stall event k = 3 where it was clear (R163). -/
def outFlag (f : Fld) (g : Nat) (s : State) : State := raiseOnSet f (stallEv g 3) s

/-- Requests of an arm that came to one of the given ends. -/
def Arm.ends (a : Arm) (l : List Nat) : Nat := a.log.countP fun q => l.contains q.2.2

/-- Pulses fired, the merged ones among them (R156). -/
def Arm.fired (a : Arm) : Nat := a.ends [0, 1]

/-- Kept entries that came to no pulse inside the gate window (R155). -/
def Arm.unfired (a : Arm) : Nat :=
  (List.range a.kept.length).countP fun i =>
    (a.log.any fun q => q.2.1 == i && (q.2.2 == 3 || q.2.2 == 4)) && !(a.log.any fun q => q.2.1 == i && decide (q.2.2 ≤ 2))

/-- The counts of an armed stroke, written at its end (R153, R155, R156). -/
def writeArm (g : Nat) (a : Arm) (s : State) : State :=
  let s1 := wrN s (R.STALL_CMP_LAST_A g) (satN 0xFFFF a.fired + 2 ^ 16 * satN 0xFFFF (a.ends [1]))
  let s2 := wrN s1 (R.STALL_CMP_LAST_B g)
    (satN 2047 a.skipped + 2 ^ 11 * satN 2047 a.unfired + 2 ^ 22 * satN 1023 (a.ends [2]))
  let s3 := lifeAdd (add64 s2 (R.STALL_CMP_FIRED g) a.fired) (lifeNo 5 1 g) a.fired
  let s4 := if 0 < a.skipped then outFlag (F.STALL_OUT_FLAGS_CMP_SKIPPED g) g s3 else s3
  let s5 := if 0 < a.unfired then outFlag (F.STALL_OUT_FLAGS_CMP_UNFIRED g) g s4 else s4
  let s6 := if 0 < a.ends [1] then outFlag (F.STALL_OUT_FLAGS_CMP_MERGED g) g s5 else s5
  if 0 < a.ends [2] then outFlag (F.STALL_OUT_FLAGS_CMP_DROPPED g) g s6 else s6

/-- An arm cut at tap time `t`: only what came of the requests before it (R155). -/
def Arm.cut (a : Arm) (t : Int) : Arm := { a with log := a.log.filter fun q => decide (q.1 < t) && q.2.2 != 4 }

/-- What an arm did before laser inhibit forced the gate off: a pulse committed behind that instant does not fire (R156, R158). -/
def Stall.armShown (x : Stall) (pTaps : Nat) (a : Arm) : Arm :=
  match x.forcedN with
  | some n => a.cut ((n : Int) * pTaps)
  | none => a

/-- The counts of an armed stroke cut by a stop or a fault: its pulses already committed (R155). -/
def cutArm (p : Plan) : Option Arm :=
  (p.live.find? fun st => st.arm.isSome && decide (p.n < st.spanEnd)).bind fun st =>
    st.arm.map fun a => a.cut ((p.n : Int) * p.env.pTaps)

/-- The last entry output belongs to no stroke any more. -/
def Entry.settled (e : Entry) : Entry := { e with after := { e.after with live := [] } }

/-- Write the counts of an armed stroke that a stop or a fault cuts short; what was output belongs to no stroke then. -/
def writeCutArm (g : Fin 48) (s : State) : State :=
  let x := stall s g
  let cut := x.armEnd <|> x.lastOut.bind fun e => cutArm e.after
  let s1 := setStall g (fun x => { x with armEnd := none, lastOut := x.lastOut.map Entry.settled }) s
  match cut with
  | some a => writeArm g (x.armShown (s.mvP * 384 / 10) a) s1
  | none => s1

/-! ## Gates at their balls (R145, R158) -/

/-- The time at the balls, in fifths of a tap, of an output at this instant (R145). -/
def ballBase (g : Nat) (s : State) : Nat := ((s.beam * 192 + 384000 : Nat) + 5 * getI s (F.STALL_GATE_TRIM_IN_USE g)).toNat

/-- The level at the balls behind all edges on their way. -/
def Stall.ballEnd (x : Stall) : Bool := (x.balls.getLast?.map Prod.snd).getD x.ballOn

/-- The gate closes at the present tick: later edges of it are dropped. -/
def gateCut (g : Fin 48) (s : State) : State :=
  let b := ballBase g s
  setStall g (fun x =>
    let y := { x with balls := x.balls.filter fun q => decide (q.1 < b) }
    if y.ballEnd then { y with balls := y.balls ++ [(b, false)] } else y) s

/-! ## The energy loop and the states of a stall (R205) -/

/-- A stall's energy loop. -/
def eng (s : State) (g : Fin 48) : Eng := s.engs[g.val]

/-- Change an energy loop. -/
def setEng (g : Fin 48) (f : Eng → Eng) (s : State) : State := { s with engs := vmod s.engs g f }

/-- Loop state cleared (R205, R208, R211). -/
def Eng.clear (e : Eng) : Eng := { e with i := 0, e1 := 0, e2 := 0, u1 := 0, u2 := 0, v := 0 }

/-- What entering IDLE does to the loop: state cleared, kp and ks at 16,384, no delivery (R205). -/
def engIdle (g : Fin 48) (s : State) : State :=
  put (put (put (setEng g (fun e => { e.clear with ksPend := none, kept := false, back := false }) s) (F.ENG_OUT_KP g) 16384) (F.ENG_OUT_KS g) 16384)
    (F.STALL_TRJ_FACTORS_K_SPEED g) 16384

/-- Enter IDLE. -/
def enterIdle (g : Fin 48) (s : State) : State := engIdle g (enterState g ssIDLE s)

/-! ## HOLD and FAULT -/

/-- Lifetime entries to HOLD by cause (R107). -/
def countHold (g causes : Nat) (s : State) : State :=
  (List.range 7).foldl (fun s i => if bit causes i then lifeAdd s (lifeNo 3 5 (16 * g + i)) 1 else s) s

/-- Enter HOLD with causes and a return state (R94, R97): the stall event k = 0 and the HOLD descriptors that waited.
-/
def enterHold (g : Fin 48) (causes ret : Nat) (s : State) : State :=
  let s1 := put (put s (F.STALL_STATE_STATE g) ssHOLD) (F.STALL_STATE_RETURN_STATE g) ret
  let s2 := clrF (put s1 (F.STALL_STATE_HOLD_CAUSE g) (get s1 (F.STALL_STATE_HOLD_CAUSE g) ||| causes))
    (F.STALL_STATE_HOLD_PENDING g)
  let s3 := setStall g (fun x => { (if x.hzn = 0 then x.abortWaits else x) with
    holdReq := 0, holdDue := false, noEntry := false, starveDue := false, retDue := false }) s2
  let s4 := raise (stallEv g 0) (countHold g causes s3)
  tellStall g [0x19] stOK (some (stateWord g s4)) (some 0) s4

/-- Add causes to a stall in HOLD. -/
def addHold (g causes : Nat) (s : State) : State :=
  put s (F.STALL_STATE_HOLD_CAUSE g) (get s (F.STALL_STATE_HOLD_CAUSE g) ||| causes)

/-- Enter FAULT (R95): gate off, set-points repeated, work dropped, waiting descriptors ABORTED (R77), seams told. -/
def enterFault (g : Fin 48) (cause : Nat) (s : State) : State :=
  let (x, y, f) := restOf g s
  let s1 := put (enterState g ssFAULT s) (F.STALL_STATE_FAULT_CAUSE g) cause
  let s2 := clrF (clrF (clrF (clrF s1 (F.STALL_STATE_HOLD_CAUSE g)) (F.STALL_STATE_HOLD_PENDING g))
    (F.STALL_STATE_ABORTING g)) (F.STALL_STATE_IN_STROKE g)
  let s3 := setStall g (fun t => { t with
    buf := [], hzn := 0, plan := Plan.rest 0 t.ibase x y f, hplan := Plan.rest 0 t.ibase x y f, cur := none,
    noEntry := false, atMarker := false, stopping := 0, squashNew := 0, squashDue := 0, abortNew := false,
    abortDue := false, faultNew := 0, holdReq := 0, starveDue := false, retDue := false, relNew := false,
    engFault := 0, sync := none, syncRel := false, syncBad := false, cleared := false, holdDue := false, pwPend := [],
    samples := [], recs := t.recs.filter fun r => decide (t.hplan.k ≤ r.key) }) s2
  let s4 := seamLoss g false (raise (stallEv g 0) (showWindow g (writeCutArm g (gateCut g s3))))
  let w := stateWord g s4
  tellStall g [0x18, 0x19, 0x1A, 0x1B] stABORTED (some w) none s4

/-- Step 4 of R99: pointers, islands, barriers, registrations and settings dropped; the stall goes to the state `code`. -/
def abortEnd (g : Fin 48) (code : Nat) (s : State) : State :=
  let held := progHeld g s
  let (x, y, f) := restOf g s
  let s1 := zeroPtrs g (if code = ssIDLE then enterIdle g s else enterState g code s)
  let s2 := clrF (clrF (clrF (clrF (clrF (clrF s1 (F.STALL_STATE_HOLD_CAUSE g)) (F.STALL_STATE_HOLD_PENDING g))
    (F.STALL_STATE_ABORTING g)) (F.STALL_STATE_FAULT_CAUSE g)) (F.STALL_STATE_IN_ISLAND g)) (F.STALL_STATE_IN_STROKE g)
  let s3 := wrN (wrN s2 (R.STALL_TRJ_FAULT g) 0) (R.STALL_OUT_FAULT g) 0
  let s4 := setStall g (fun t => { t with
    items := [], ibase := 0, seq := Seq.init x y, buf := [], hzn := 0, plan := Plan.rest 0 0 x y f,
    hplan := Plan.rest 0 0 x y f, cur := none, noEntry := false, atMarker := false, stopping := 0, disable := false,
    squashNew := 0, squashDue := 0, abortNew := false, abortDue := false, faultNew := 0, holdReq := 0,
    starveDue := false, retDue := false, relNew := false, sync := none, syncRel := false, syncBad := false, recs := [],
    cleared := false, islNo := 0, holdDue := false, pwPend := [], kept := none, engFault := 0 }) s3
  let s5 := seamLoss g true (showWindow g (writeCutArm g s4))
  let w := stateWord g s5
  tellStall g [0x1B] stOK (some w) (some held) (tellStall g [0x18, 0x19, 0x1A] stABORTED (some w) none s5)

/-- Enter RUN from IDLE, a barrier or HOLD. -/
def enterRun (g : Fin 48) (s : State) : State :=
  let s1 := if (stall s g).everRun then s else setStall g (fun x => { x with rest0 := restOf g s }) s
  setStall g (fun x => { x with everRun := true, noEntry := false, atMarker := false, forcedN := none })
    (enterState g ssRUN s1)

/-- Ask for a fault at the next tick; the first cause asked for stands. -/
def faultNext (g : Fin 48) (c : Nat) (s : State) : State :=
  setStall g (fun x => { x with faultNew := if x.faultNew = 0 then c else x.faultNew }) s

/-! ## Clocked units (R408) -/

/-- A unit is clock-gated, by its code in GATE_DENIED_LAST: the bit that shows it. -/
def gateBit (u : Nat) : Option Fld :=
  if u < 32 then some ⟨R.CPM_GATED_STALLS, u, 1⟩
  else if u < 48 then some ⟨R.CPM_GATED_STALLS + 4, u - 32, 1⟩
  else if u < 0x36 then some ⟨R.CPM_GATED_UNITS, u - 0x30, 1⟩
  else if 0x38 ≤ u ∧ u < 0x3A then some ⟨R.CPM_GATED_UNITS, 8 + (u - 0x38), 1⟩
  else if 0x3A ≤ u ∧ u < 0x3C then some ⟨R.CPM_GATED_UNITS, 10 + (u - 0x3A), 1⟩
  else if 0x40 ≤ u ∧ u < 0x4C then some ⟨R.CPM_GATED_UNITS, 16 + (u - 0x40), 1⟩
  else none

/-- Work arrives for a unit: it is clocked (R408). The gates that a thermal shutdown has closed stay closed (R420). -/
def ungate (u : Nat) (s : State) : State :=
  match gateBit u with
  | some f => if flag s f ∧ ¬ s.sdGated then clrF s f else s
  | none => s

end Machine
end Sys2Proof
end

