-- ==== Sys2Proof/Machine/Sequencer.lean ====
section
/-!
DEFINITION. Chapter 03: the stable sequencer of a stall (R74, R80-R93, R103, R180-R186). It parses the visible commands
one at a time, checks and clamps them, registers seam sections, and hands parsed items to the planner.
-/
namespace Sys2Proof
namespace Machine

/-! ## Reading a command -/

/-- A scan command's 16 bytes as fields (R80). -/
structure Raw where
  op : Nat
  fl : Nat
  h : Nat
  w1 : Nat
  w2 : Nat
  w3 : Nat

/-- The command at a region offset. -/
def rawAt (g : Fin 48) (off : Nat) (s : State) : Raw :=
  let m := loft s (g.val / 8)
  let a := progBase g s + off
  ⟨memLe m a 1, memLe m (a + 1) 1, memLe m (a + 2) 2, memLe m (a + 4) 4, memLe m (a + 8) 4, memLe m (a + 12) 4⟩

/-- A required-zero byte or bit is not zero (R80, R103). -/
def reservedBad (r : Raw) : Bool :=
  match r.op with
  | 0x00 => false
  | 0x01 => r.fl != 0 || r.w3 != 0
  | 0x02 => 2 ≤ r.fl
  | 0x03 => 2 ≤ r.fl
  | 0x04 => r.fl != 0 || r.w2 != 0 || r.w3 != 0
  | 0x05 => 4 ≤ r.fl || r.w2 != 0 || r.w3 != 0
  | 0x06 => r.fl != 0 || r.w3 != 0
  | 0x07 => r.fl != 0 || r.w3 != 0
  | 0x08 => 4 ≤ r.fl || 2 ^ 16 ≤ r.w1 || r.w2 != 0 || r.w3 != 0
  | 0x09 => r.fl != 0 || r.h != 0 || r.w3 != 0
  | 0x0A => r.fl != 0 || r.h != 0 || r.w2 != 0 || r.w3 != 0
  | 0x0B => r.fl != 0 || r.h != 0 || r.w2 != 0 || r.w3 != 0
  | 0x0C => r.fl != 0 || 2 ^ 24 ≤ r.w2 || r.w3 != 0
  | 0x0D => 2 ≤ r.fl || 256 ≤ r.w2 || r.w3 != 0
  | _ => r.fl != 0 || r.h != 0 || r.w1 != 0 || r.w2 != 0 || r.w3 != 0

/-- A field is outside its range (R81); `p` is the microvector period in ns and `q` the sequencer. -/
def rangeBad (g : Nat) (p : Nat) (q : Seq) (r : Raw) : Bool :=
  match r.op with
  | 0x03 =>
    let sw := sext 32 r.w3
    let dx := q.x - sext 32 r.w1 * 256
    let dy := q.y - sext 32 r.w2 * 256
    sw == 0 || 2 ^ 28 < sw.natAbs || decide (dx * dx + dy * dy < 512 * 512)
  | 0x04 => r.h == 0xFFFF || r.w1 == 0
  | 0x05 =>
    let al := r.w1 % 2 ^ 16
    let ac := r.w1 / 2 ^ 16
    4000 < al || 4000 < ac || ((al != 0 || ac != 0) && r.h == 0) || 1000000000 < r.h * (8 * p)
  | 0x06 => (r.w1 != 0 && r.w1 < 1000) || (r.w2 != 0 && r.w2 < 1000)
  | 0x07 =>
    let a := sext 32 r.w1
    let b := sext 32 r.w2
    decide (a < -8388608 ∨ 8388607 < a ∨ b < -8388608 ∨ 8388607 < b)
  | 0x08 =>
    let n := r.w1 % 2 ^ 16
    r.fl == 3 || 1023 < r.h || n == 0 || 1024 < n || 1024 < r.h + n
  | 0x0C => !bit (r.w1 + 2 ^ 32 * (r.w2 % 2 ^ 16)) g
  | 0x0D => r.h == 0 || 1024 < r.h || 47 < r.w2 % 256 || r.w2 % 256 == g
  | _ => false

/-- The sections around the next command: commands left, SEAM_ID while registered, whether skipped; the innermost first. -/
def Seq.sections (q : Seq) : List (Nat × Option Nat × Bool) :=
  if q.seamLeft = 0 then q.outer else (q.seamLeft, q.seamId, q.skip) :: q.outer

/-- The next command is the last of a section. -/
def Seq.endsHere (q : Seq) : Bool := q.sections.any fun e => e.1 == 1

/-- The registered sections around the next command. -/
def Seq.ids (q : Seq) : List Nat := q.sections.filterMap fun e => e.2.1

/-- A sequencer in the given sections. -/
def Seq.within (q : Seq) : List (Nat × Option Nat × Bool) → Seq
  | [] => { q with seamLeft := 0, seamId := none, skip := false, outer := [] }
  | (n, id, sk) :: l => { q with seamLeft := n, seamId := id, skip := sk, outer := l }

/-- The structure error of a command, if any (R84, R87, R90, R92). A section may stand inside another: R92 lets each
SEAM_HANDOVER open one. -/
def structBad (q : Seq) (r : Raw) : Nat :=
  let inMarks := [0x00, 0x02, 0x03, 0x04, 0x05, 0x06].contains r.op
  if 0 < q.stroke ∧ (¬ inMarks ∨ 1024 ≤ q.stroke) then 4
  else if r.op = 0x09 ∧ q.isl.isSome then 5
  else if r.op = 0x0A ∧ (q.isl.map Prod.fst) ≠ some r.w1 then 5
  else if [0x0B, 0x0C, 0x0E].contains r.op ∧ q.isl.isSome then 5
  else if q.endsHere ∧ ((r.op = 0x02 ∨ r.op = 0x03) ∧ r.fl = 1 ∨ 0 < q.stroke ∧ r.op ≠ 0x02 ∧ r.op ≠ 0x03) then 6
  else 0

/-- The program error of a command (R103): 0 none. Where several conditions hold at once the rule gives no order; the first of
ILLEGAL_COMMAND, RESERVED_FIELD, RANGE and the structure errors is reported, and of these STROKE_STRUCTURE before
ISLAND_STRUCTURE before SEAM_STRUCTURE. DESIGN CHOICE (notes/assumptions/182). -/
def progError (g p : Nat) (q : Seq) (r : Raw) : Nat :=
  if 0x0E < r.op then 1
  else if reservedBad r then 2
  else if rangeBad g p q r then 3
  else structBad q r

/-! ## Clamps (R83) -/

/-- One clamp. -/
def limitClamp (g : Nat) (s : State) : State :=
  raiseOnSet (F.STALL_FLAGS_LIMIT_CLAMPED g) (stallEv g 2) (lifeAdd (addSat s (R.STALL_LIMIT_CLAMPS g) 1) (lifeNo 3 4 g) 1)

/-- A power value at most the stall's limit. -/
def clampPower (g v : Nat) (s : State) : Nat × State :=
  if limPower g s < v then (limPower g s, limitClamp g s) else (v, s)

/-- A mark speed at most the stall's limit; a limit of 0 sets none. -/
def clampSpeed (g v : Nat) (s : State) : Nat × State :=
  if limSpeed g s ≠ 0 ∧ limSpeed g s < v then (limSpeed g s, limitClamp g s) else (v, s)

/-! ## Items -/

/-- The sequencer after a command: stroke length, current point, island. -/
def seqAfter (q : Seq) (r : Raw) : Seq :=
  let open_ := (r.op = 0x02 ∨ r.op = 0x03) ∧ r.fl = 1
  let marks := r.op = 0x02 ∨ r.op = 0x03
  let q1 := { q with stroke := if open_ then q.stroke + 1 else if marks then 0 else if 0 < q.stroke then q.stroke + 1 else 0 }
  match r.op with
  | 0x01 => { q1 with x := sext 32 r.w1 * 256, y := sext 32 r.w2 * 256 }
  | 0x02 => { q1 with x := sext 32 r.w1 * 256, y := sext 32 r.w2 * 256 }
  | 0x03 =>
    let e := (arcMove 0 0 (0, 0, 0, 0) q.x q.y 0 (sext 32 r.w1 * 256) (sext 32 r.w2 * 256) (sext 32 r.w3) 0 0).stop
    { q1 with x := e.1, y := e.2 }
  | 0x09 => { q1 with isl := some (r.w1, r.w2), islNo := q.islNo + 1 }
  | 0x0A => { q1 with isl := none }
  | 0x0E => { q1 with stop := 10 }
  | _ => q1

/-- The parsed form of a command, clamped, and the state after its clamps. -/
def itemOf (g : Nat) (r : Raw) (s : State) : ItemK × State :=
  match r.op with
  | 0x01 => (.jump (sext 16 r.h) (sext 32 r.w1) (sext 32 r.w2), s)
  | 0x02 => (.line (r.fl == 1) (sext 16 r.h) (sext 32 r.w1) (sext 32 r.w2) r.w3, s)
  | 0x03 => (.arc (r.fl == 1) (sext 16 r.h) (sext 32 r.w1) (sext 32 r.w2) (sext 32 r.w3), s)
  | 0x04 => let (t, s1) := clampPower g r.h s; (.ramp t r.w1, s1)
  | 0x05 => (.wobble r.fl r.h (r.w1 % 2 ^ 16) (r.w1 / 2 ^ 16), s)
  | 0x06 =>
    let (p, s1) := if r.h = 0xFFFF then (none, s) else let (p, s1) := clampPower g r.h s; (some p, s1)
    let (m, s2) := if r.w1 = 0 then (0, s1) else clampSpeed g r.w1 s1
    (.speed p m r.w2, s2)
  | 0x07 => (.delay r.h (sext 32 r.w1) (sext 32 r.w2), s)
  | 0x08 => (.compare r.fl r.h (r.w1 % 2 ^ 16), s)
  | 0x09 => (.islBegin r.w1 r.w2, s)
  | 0x0A => (.islEnd r.w1, s)
  | 0x0B => (.layerEnd r.w1, s)
  | 0x0C => (.sync r.h (r.w1 + 2 ^ 32 * (r.w2 % 2 ^ 16)) (r.w2 / 2 ^ 16 % 256), s)
  | 0x0D => (.seam r.w1, s)
  | 0x0E => (.progEnd, s)
  | _ => (.nop, s)

/-- The next region offset after a command. -/
def nextOff (g : Nat) (off : Nat) (s : State) : Nat := if progSize g s = 0 then 0 else (off + 16) % progSize g s

/-- Append an item and move PARSE past its command. -/
def pushItem (g : Fin 48) (off : Nat) (k : ItemK) (skip : Bool) (q' : Seq) (s : State) : State :=
  let s1 := setStall g (fun x =>
    let q := x.seq
    let inside := !(match k with | .islEnd _ => true | _ => false)
    let it : Item := ⟨off, if q.isl.isSome ∧ inside then q.islNo else 0,
      if inside then (q.isl.map Prod.fst).getD 0xFFFFFFFF else 0xFFFFFFFF,
      if inside then (q.isl.map Prod.snd).getD 0 else 0, q.ids, skip, q, k⟩
    { x with items := x.items ++ [it], seq := q' }) s
  wrN s1 (R.STALL_PROG_PARSE g) (nextOff g off s1)

/-- One command parsed: every section around it shortens, and ends with its last command (R92). -/
def sectionStep (q : Seq) : Seq :=
  q.within ((q.sections.map fun e => (e.1 - 1, e.2)).filter fun e => e.1 != 0)

/-- A section opened behind a SEAM_HANDOVER. -/
def Seq.opened (q : Seq) (count : Nat) (id : Option Nat) (skip : Bool) : Seq :=
  { (sectionStep q).within ((count, id, skip) :: (sectionStep q).sections) with passBy := false }

/-! ## Registering a section (R180-R182, R186) -/

/-- Stop the sequencer with a reason. -/
def seqStop (g : Fin 48) (why : Nat) (s : State) : State := setStall g (fun x => { x with seq := { x.seq with stop := why } }) s

/-- The stall's registration fits an entry: its two stalls and its COUNT (R180). -/
def seamFits (g partner count : Nat) (e : Seam) : Bool :=
  e.count == count && ((e.owner == g && e.other == partner) || (e.other == g && e.owner == partner))

/-- The sequencer of a stall works: the stall is neither OFFLINE, in FAULT nor being stopped. -/
def seqWorks (g : Fin 48) (s : State) : Bool :=
  (stall s g).stopping == 0 && stSt g s != ssOFFLINE && stSt g s != ssFAULT

/-- The stalls paused for a free entry, ascending; one whose section stands in the table by now needs none (R182). -/
def pausedFull (s : State) : List (Fin 48) :=
  (fins 48).filter fun g => (stall s g).seq.stop == 9 && seqWorks g s && (seamIdx (rawAt g (rdN s (R.STALL_PROG_PARSE g)) s).w1 s).isNone

/-- How many entries are free. -/
def seamsFree (s : State) : Nat := (fins 192).countP fun i => (seam s i).st == 0

/-- Enter the section: executed by its owner, skipped by the other stall. -/
def enterSection (g : Fin 48) (off id count : Nat) (own : Bool) (s : State) : State :=
  pushItem g off (.seam id) false ((stall s g).seq.opened count (some id) (!own)) s

/-- Register a SEAM_HANDOVER; a free entry goes to the paused stalls first (R182), of which `first` is the one whose turn it is.
-/
def registerSeam (first : Bool) (g : Fin 48) (off : Nat) (r : Raw) (s : State) : State :=
  let partner := r.w2 % 256
  let dflt := r.fl == 1
  if 4 ≤ seamRegs g s then seqStop g 8 s
  else match seamIdx r.w1 s with
    | some i =>
      let e := seam s i
      if seamFits g partner r.h e then
        let own := e.owner == g.val
        let s1 := setSeam i (fun e => if own then { e with oReg := true } else { e with xReg := true }) s
        let s2 := if dflt = own then s1 else setF s1 F.YRD_MSH_FLAGS_SEAM_DISAGREE
        enterSection g off r.w1 r.h own s2
      else
        raise 74 (setF (lifeAdd (seqStop g 7 s) (lifeNo 6 9 0) 1) F.YRD_MSH_FLAGS_SEAM_MISMATCH)
    | none =>
      match (if first ∨ (pausedFull s).length < seamsFree s then seamFree s else none) with
      | none => raiseOnSet F.YRD_MSH_FLAGS_SEAM_TABLE_FULL 74 (seqStop g 9 s)
      | some i =>
        let e : Seam := if dflt then ⟨r.w1, 1, g, partner, true, false, 0, r.h⟩
          else ⟨r.w1, 1, partner, g, false, true, 0, r.h⟩
        enterSection g off r.w1 r.h dflt (showSeams (setSeam i (fun _ => e) s))

/-! ## Parsing -/

/-- The sequencer may read the command at an offset of its program region (R449). -/
def seqReads (g : Fin 48) (off : Nat) (s : State) : Bool := unitReads 0 (loftAddr (g.val / 8) (progBase g s + off)) 16 s

/-- The sequencer may parse: it has not stopped, and a command is visible. -/
def canParse (g : Fin 48) (s : State) : Bool :=
  (stall s g).seq.stop == 0 && rdN s (R.STALL_PROG_PARSE g) != rdN s (R.STALL_PROG_WP g) && seqWorks g s

/-- Skip one command of a section (R180, R186). -/
def skipOne (g : Fin 48) (off : Nat) (s : State) : State :=
  pushItem g off .nop true (sectionStep (stall s g).seq) s

/-- Pass over a section without registering: a RESUME asked for it (R186). -/
def passSection (g : Fin 48) (off count : Nat) (s : State) : State :=
  pushItem g off .nop true ((stall s g).seq.opened count none true) s

/-- Parse one command. One that the Region Table does not let the sequencer read is handled like one that cannot be read for an
error (R95, R449, notes/assumptions/30). -/
def parseOne (g : Fin 48) (s : State) : State :=
  let x := stall s g
  let off := rdN s (R.STALL_PROG_PARSE g)
  let r := rawAt g off s
  if ¬ seqReads g off s then faultNext g 8 (setStall g (fun x => { x with seq := { x.seq with stop := 11 } }) s)
  else if 0 < x.seq.seamLeft ∧ x.seq.skip then skipOne g off s
  else
    let e := progError g s.mvP x.seq r
    if e ≠ 0 then setStall g (fun x => { x with seq := { x.seq with stop := e, errOp := r.op, errOff := off } }) s
    else if r.op = 0x0D then if x.seq.passBy then passSection g off r.h s else registerSeam false g off r s
    else
      let (k, s1) := itemOf g r s
      pushItem g off k false (sectionStep (seqAfter (stall s1 g).seq r)) s1

/-- Parse the next command if it has a code. -/
def parseCode (op : Nat) (g : Fin 48) (s : State) : State :=
  if canParse g s ∧ (rawAt g (rdN s (R.STALL_PROG_PARSE g)) s).op = op then parseOne g s else s

/-- Parse every visible command; the fuel bounds their number. -/
def parseAll (g : Fin 48) : Nat → State → State
  | 0, s => s
  | n + 1, s => if canParse g s then parseAll g n (parseOne g s) else s

def execScanNop (g : Fin 48) (s : State) : Host.Outcome State Fault Refusal := .next (parseCode 0x00 g s)
def execJump (g : Fin 48) (s : State) : Host.Outcome State Fault Refusal := .next (parseCode 0x01 g s)
def execMarkLine (g : Fin 48) (s : State) : Host.Outcome State Fault Refusal := .next (parseCode 0x02 g s)
def execMarkArc (g : Fin 48) (s : State) : Host.Outcome State Fault Refusal := .next (parseCode 0x03 g s)
def execPowerRamp (g : Fin 48) (s : State) : Host.Outcome State Fault Refusal := .next (parseCode 0x04 g s)
def execWobble (g : Fin 48) (s : State) : Host.Outcome State Fault Refusal := .next (parseCode 0x05 g s)
def execSpeedPower (g : Fin 48) (s : State) : Host.Outcome State Fault Refusal := .next (parseCode 0x06 g s)
def execDelaySet (g : Fin 48) (s : State) : Host.Outcome State Fault Refusal := .next (parseCode 0x07 g s)
def execCompareArm (g : Fin 48) (s : State) : Host.Outcome State Fault Refusal := .next (parseCode 0x08 g s)
def execIslandBegin (g : Fin 48) (s : State) : Host.Outcome State Fault Refusal := .next (parseCode 0x09 g s)
def execIslandEnd (g : Fin 48) (s : State) : Host.Outcome State Fault Refusal := .next (parseCode 0x0A g s)
def execLayerEnd (g : Fin 48) (s : State) : Host.Outcome State Fault Refusal := .next (parseCode 0x0B g s)
def execSyncBarrier (g : Fin 48) (s : State) : Host.Outcome State Fault Refusal := .next (parseCode 0x0C g s)
def execSeamHandover (g : Fin 48) (s : State) : Host.Outcome State Fault Refusal := .next (parseCode 0x0D g s)
def execProgramEnd (g : Fin 48) (s : State) : Host.Outcome State Fault Refusal := .next (parseCode 0x0E g s)

/-! ## The end of a pause (R181, R182) -/

/-- A paused sequencer resumes: an entry of its own bound or was freed, or the table has a free entry and no lower
paused stall needs it, or its section stands in the table by now. The end of the pause counts as a load (R86). -/
def seamPauseEnd (g : Fin 48) (s : State) : State :=
  let q := (stall s g).seq
  let go := fun (s : State) => setStall g (fun x => { x with loaded := true }) (seqStop g 0 s)
  let off := rdN s (R.STALL_PROG_PARSE g)
  let r := rawAt g off s
  if ¬ seqWorks g s then s
  else if q.stop = 8 ∧ seamRegs g s < 4 then go s
  else if q.stop = 9 ∧ ((seamIdx r.w1 s).isSome ∨ ((pausedFull s).head? = some g ∧ (seamFree s).isSome)) then
    registerSeam true g off r (go s)
  else s

def execSeamPauseEnd (g : Fin 48) (s : State) : Host.Outcome State Fault Refusal := .next (seamPauseEnd g s)

/-! ## Going back (R136, R185) -/

/-- Drop the parsed items from index `k` on; parsing resumes at the first of them. -/
def unparse (g : Fin 48) (k : Nat) (s : State) : State :=
  let x := stall s g
  match x.items[k - x.ibase]? with
  | none => s
  | some it =>
    wrN (setStall g (fun x => { x with items := x.items.take (k - x.ibase), seq := { it.pre with stop := 0 } }) s)
      (R.STALL_PROG_PARSE g) it.off

end Machine
end Sys2Proof
end

