-- ==== Sys2Proof/Machine/RunAhead.lean ====
section
/-!
DEFINITION. Chapter 04: the run-ahead buffer of a stall (R130-R139): computing entries within the engine's capacity,
the commit horizon, squashes, and the release of commands already output (R74).
-/
namespace Sys2Proof
namespace Machine

/-! ## Computing entries (R132, R133) -/

/-- Set TRJ_FLAGS bits a plan reports (R123, R127, R138) with stall event k = 3 (R142). -/
def trjFlag (i : Nat) (g : Nat) (s : State) : State := raiseOnSet ⟨R.STALL_TRJ_FLAGS g, i, 1⟩ (stallEv g 3) s

/-- The reports of a computed entry: saturated codes and TRJ_FLAGS. -/
def entryReports (g : Nat) (e : Entry) (s : State) : State :=
  let s1 := if 0 < e.sat then
      trjFlag 1 g (lifeAdd (addSat s (R.STALL_TRJ_SATURATIONS g) e.sat) (lifeNo 4 4 g) e.sat) else s
  let s2 := if e.clamped then trjFlag 2 g s1 else s1
  (List.range 3).foldl (fun s i => if bit e.flags (i + 3) then trjFlag (i + 3) g s else s) s2

/-- The plan of a stall one entry further: the entry, if it can be computed; none behind a failure of the engine (R139). -/
def peekEntry (g : Fin 48) (s : State) : Option Entry × Plan :=
  if (stall s g).engFault ≠ 0 then (none, (stall s g).plan) else planStep (planIn g s) (stall s g).plan

/-- Store a computed entry; a STOP entry is committed as it is computed (R138). Saturations and the flags of an entry are
reported when it is computed, so an entry computed again after a squash reports them again; R127 does not say which.
DESIGN CHOICE (notes/assumptions/186). -/
def storeEntry (g : Fin 48) (e : Entry) (s : State) : State :=
  entryReports g e (setStall g (fun x =>
    { x with
      buf := x.buf ++ [e], plan := e.after,
      hzn := if e.kind = 6 then x.buf.length + 1 else x.hzn,
      hplan := if e.kind = 6 then e.after else x.hplan }) s)

/-- A stall that gets entries at step 5: any state but OFFLINE and FAULT, room in its buffer (R132). -/
def wantsEntry (g : Fin 48) (s : State) : Bool :=
  stSt g s != ssOFFLINE && stSt g s != ssFAULT &&
    decide ((stall s g).buf.length < get s (F.STALL_TRJ_RUNAHEAD_DEPTH g))

/-- The trajectory engine may read the grids of a stall (R449). -/
def gridsRead (g : Fin 48) (s : State) : Bool :=
  let slots := get s (F.STALL_GRID_SEL_PLANE0_SLOT g) ::
    (if flag s (F.STALL_TRJ_CTRL_TWO_PLANE g) then [get s (F.STALL_GRID_SEL_PLANE1_SLOT g)] else [])
  slots.all fun n => unitReads 1 (loftAddr (g.val / 8) (0xD000 * n)) 50700 s

/-- An entry whose grid the Region Table does not let the engine read cannot be computed, as where the read meets an error (R139,
R449, notes/assumptions/30). -/
def gridRefused (g : Fin 48) (s : State) : State :=
  if ¬ gridsRead g s ∧ wantsEntry g s ∧ (stall s g).engFault = 0 ∧ (peekEntry g s).1.isSome then
    setStall g (fun x => { x with engFault := 4 }) s
  else s

/-- Capacity of an engine in units per tick (R132). -/
def engineCap (s : State) : Nat := if s.mvP = 500 then 32 else if s.mvP = 2000 then 128 else 64

/-- The stalls of a stable. -/
def stallsOf (st : Fin 6) : List (Fin 48) :=
  (List.finRange 8).map fun t => ⟨8 * st.val + t.val, by omega⟩

/-- The reserve of one stall. -/
def reserveOne (r : State × List (Fin 48 × Nat) × Nat) (g : Fin 48) : State × List (Fin 48 × Nat) × Nat :=
  let (s, l, used) := r
  if stSt g s = ssRUN ∧ wantsEntry g s ∧ (stall s g).buf.length ≤ (stall s g).hzn then
    match peekEntry g s with
    | (some e, _) => (storeEntry g e s, l ++ [(g, 1)], used + e.cost)
    | (none, p) => (setStall g (fun x => { x with plan := p }) s, l ++ [(g, 8)], used)
  else (s, l ++ [(g, 0)], used)

/-- Reserve (R132): one entry for every running stall with END ≤ HZN; the entries used per stall and units. -/
def reserve (st : Fin 6) (s : State) : State × List (Fin 48 × Nat) × Nat := (stallsOf st).foldl reserveOne (s, [], 0)

/-- The stall whose turn it is: the fewest speculative entries, the lower number on a tie. -/
def nextTurn (l : List (Fin 48 × Nat)) (s : State) : Option (Fin 48 × Nat) :=
  (l.filter fun p => decide (p.2 < 8) && wantsEntry p.1 s).foldl (fun b p =>
    match b with
    | none => some p
    | some q =>
      let spec := fun (g : Fin 48) => (stall s g).buf.length - (stall s g).hzn
      if spec p.1 < spec q.1 then some p else some q) none

/-- Refill (R132): one entry per turn until the next entry costs more than is left or no stall wants one. -/
def refill (cap : Nat) : Nat → List (Fin 48 × Nat) → Nat → State → State × Nat
  | 0, _, used, s => (s, used)
  | n + 1, l, used, s =>
    match nextTurn l s with
    | none => (s, used)
    | some (g, k) =>
      let set := fun (v : Nat) => l.map fun p => if p.1 = g then (g, v) else p
      match peekEntry g s with
      | (some e, _) =>
        if cap < used + e.cost then (s, used) else refill cap n (set (k + 1)) (used + e.cost) (storeEntry g e s)
      | (none, p) => refill cap n (set 8) used (setStall g (fun x => { x with plan := p }) s)

/-- The engine's registers after it has spent `used` of its `cap` (R132). -/
def engineUsed (st : Fin 6) (cap used : Nat) (s : State) : State :=
  let s1 := put (put s (F.STB_TRJ_ENGINE_CAPACITY st) cap) (F.STB_TRJ_ENGINE_LAST_USED st) used
  let s2 := if get s1 ⟨R.STB_TRJ_ENGINE_PEAK st, 0, 8⟩ < used then put s1 ⟨R.STB_TRJ_ENGINE_PEAK st, 0, 8⟩ used else s1
  if used = cap then lifeAdd s2 (lifeNo 4 5 st) 1 else s2

/-- Step 5 of a stable (R132). -/
def engineStep (st : Fin 6) (s : State) : State :=
  let r := reserve st s
  let q := refill (engineCap s) 80 r.2.1 r.2.2 r.1
  engineUsed st (engineCap s) q.2 q.1

/-! ## The commit horizon (R130, R131, R97, R185) -/

/-- The engine has computed enough of the stroke at HZN (R131). -/
def leadMet (g : Fin 48) (st : Stroke) (s : State) : Bool :=
  let x := stall s g
  decide (min (st.spanEnd - st.t0) (get s (F.STALL_TRJ_LEAD_STROKE_LEAD g)) ≤ x.buf.length - x.hzn)

/-- The marshal has cleared the stroke at HZN (R175, R179). -/
def clearedNow (g : Fin 48) (s : State) : Bool := (stall s g).cleared || !(flag s F.YRD_MSH_CTRL_EN)

/-- The index of the first command of a section that a stall still holds, or will parse next. -/
def sectionStart (x : Stall) (id : Nat) : Option Nat :=
  match x.items.zipIdx.find? fun p => p.1.seams.contains id with
  | some p => some (x.ibase + p.2)
  | none => if x.seq.ids.contains id then some (x.ibase + x.items.length) else none

/-- A decided seam move keeps the horizon before its section (R185). -/
def seamBlocks (g : Fin 48) (e : Entry) (s : State) : Bool :=
  s.seamMoves.any fun m =>
    match seamIdx m.id s with
    | some i =>
      let d := seam s i
      (d.owner == g.val || d.other == g.val) &&
        ((sectionStart (stall s g) m.id).any fun k => decide (k ≤ e.item))
    | none => false

/-- A hold that is due keeps the horizon from strokes and jumps that have not begun (R97, R138). -/
def holdBlocks (g : Fin 48) (s : State) : Bool :=
  (flag s (F.STALL_STATE_HOLD_PENDING g) && (stall s g).holdDue) || stSt g s == ssHOLD

/-- What a hold lets pass from plan state `p`: the rest of a jump chain under way, or the rest of a commit span without the
jump behind the stroke (R97, R123, R138). -/
def holdPasses (p : Plan) (e : Entry) : Bool :=
  p.inJump || (decide (p.n < p.spanEnd) && e.first.isNone && e.kind != 0 && e.kind != 1)

/-- The horizon may commit an entry (R130, R131, R97, R138). -/
def mayCommit (g : Fin 48) (e : Entry) (s : State) : Bool :=
  if e.kind = 6 then true
  else if seamBlocks g e s then false
  else if holdBlocks g s then holdPasses (stall s g).hplan e
  else stSt g s == ssRUN && (match e.first with
    | some st => clearedNow g s && leadMet g st s
    | none => true)

/-- How many entries from plan state `p` on a hold lets pass, and the plan behind them. -/
def holdPrefix (p : Plan) : List Entry → Nat × Plan
  | [] => (0, p)
  | e :: l => if holdPasses p e then let (n, q) := holdPrefix e.after l; (n + 1, q) else (0, p)

/-- A hold that is due discards the entries it withholds, which are computed again on resume, or now as dwell in a commit
span; this is no squash (R97, R123, R138). -/
def holdTrim (g : Fin 48) (s : State) : State :=
  let x := stall s g
  let (n, p) := holdPrefix x.hplan (x.buf.drop x.hzn)
  if stSt g s = ssRUN ∧ holdBlocks g s ∧ x.stopping = 0 ∧ x.hzn + n < x.buf.length then
    setStall g (fun x => { x with buf := x.buf.take (x.hzn + n), plan := p, cleared := false }) s
  else s

/-- A committed entry of a section binds its OPEN entry (R184). -/
def bindSeam (g : Fin 48) (e : Entry) (s : State) : State :=
  let x := stall s g
  (((x.items[e.item - x.ibase]?).map Item.seams).getD []).foldl (fun s id =>
    match seamIdx id s with
    | some i => if (seam s i).st = 1 ∧ (seam s i).owner = g.val then
        showSeams (setSeam i (fun d => { d with st := 2 }) s) else s
    | none => s) s

/-- Commit the entry at HZN. -/
def commitOne (g : Fin 48) (e : Entry) (s : State) : State :=
  let s1 := setStall g (fun x => { x with
    hzn := x.hzn + 1, hplan := e.after, cleared := if e.first.isSome then false else x.cleared,
    recs := match e.first with
      | some st => x.recs.map fun r => if r.key = st.key then { r with eldest := none } else r
      | none => x.recs }) s
  bindSeam g e s1

/-- Advance the horizon until the committed window is full or the horizon is blocked (R130). -/
def horizonLoop (g : Fin 48) : Nat → State → State
  | 0, s => s
  | n + 1, s =>
    let x := stall s g
    if get s (F.STALL_TRJ_RUNAHEAD_HORIZON g) ≤ x.hzn then s
    else match x.buf[x.hzn]? with
    | none => s
    | some e => if mayCommit g e s then horizonLoop g n (commitOne g e s) else s

/-- Step 7 of a stall (R130), with LEAD_WAIT and the starved hold it may make due (R131). -/
def horizonStep (g : Fin 48) (s : State) : State :=
  let s1 := if stSt g s = ssRUN ∨ stSt g s = ssHOLD then horizonLoop g 1024 s else s
  let x := stall s1 g
  let first := (x.buf[x.hzn]?).bind Entry.first
  let lead := match first with | some st => leadMet g st s1 | none => true
  let starve := stSt g s1 == ssRUN && x.hzn == 0 && first.isSome && x.stopping == 0 && x.engFault == 0 &&
    !(holdBlocks g s1)
  showWindow g (setStall g (fun x => { x with leadOk := lead, starveDue := starve }) s1)

/-! ## Squash (R135-R138) -/

/-- Lifetime squashes by cause (R144). -/
def countSquash (g mask n : Nat) (s : State) : State :=
  (List.range 6).foldl (fun s i => if bit mask i then lifeAdd s (lifeNo 4 0 (16 * g + i)) 1 else s)
    (lifeAdd s (lifeNo 4 1 g) n)

/-- Discard the speculative entries and go back to the planner state at HZN. -/
def discard (g : Fin 48) (s : State) : State :=
  setStall g (fun x => { x with buf := x.buf.take x.hzn, plan := x.hplan, cleared := false }) s

/-- One squash at step 3 with its cause mask (R19, R136): requests are dropped while the stall is aborting; ABORT and
INHIBIT end with a stop (R99, R138, R159). A count of 4,096 entries does not fit the 12 bits of TRJ_SQUASH_LAST.DISCARDED and shows
as 0; R136 does not say how it shows. DESIGN CHOICE (notes/assumptions/187). -/
def squash (g : Fin 48) (mask : Nat) (s : State) : State :=
  if flag s (F.STALL_STATE_ABORTING g) ∨ mask = 0 then setStall g (fun x => { x with squashDue := 0 }) s
  else
    let x := stall s g
    let n := x.buf.length - x.hzn
    let s1 := discard g s
    let s2 := wr64 (wrN s1 (R.STALL_TRJ_SQUASH_LAST g) (mask + 2 ^ 16 * (n % 2 ^ 12))) (R.STALL_TRJ_SQUASH_TIME g) s.now
    let s3 := countSquash g mask n (add64 (addSat s2 (R.STALL_TRJ_SQUASHES g) 1) (R.STALL_TRJ_SQUASHED_MV g) n)
    let s4 := setStall g (fun x => { x with squashDue := 0 }) s3
    let stop := fun (why : Nat) (s : State) =>
      setStall g (fun x =>
        let p := planStop (planIn g s) x.hplan
        { x with stopping := why, plan := p, hplan := p, recs := [], armEnd := cutArm x.hplan }) s
    showWindow g (if bit mask 5 then setF (stop 1 s4) (F.STALL_STATE_ABORTING g)
      else if bit mask 4 then stop 2 s4 else s4)

/-- The squash latched for this tick. -/
def squashDueStep (g : Fin 48) (s : State) : State :=
  if (stall s g).squashDue = 0 then s else squash g (stall s g).squashDue s

def execSquash (g : Fin 48) (s : State) : Host.Outcome State Fault Refusal := .next (squashDueStep g s)

/-- Latch a squash request (R19, R135): it acts at step 3 of the next tick. -/
def latchSquash (g : Fin 48) (i : Nat) (s : State) : State :=
  setStall g (fun x => { x with squashNew := x.squashNew ||| 2 ^ i }) s

/-! ## Releasing commands (R74, R183) -/

/-- A skipped command that its section still needs (R183). -/
def skipHeld (it : Item) (s : State) : Bool :=
  it.skip && it.seams.any fun id => match seamIdx id s with | some i => (seam s i).st == 1 || (seam s i).st == 3 | none => false

/-- Items at the front that are no longer needed below index `k`. -/
def dropCount (s : State) : Nat → Nat → List Item → Nat
  | _, _, [] => 0
  | k, i, it :: t => if i < k ∧ ¬ skipHeld it s then 1 + dropCount s k (i + 1) t else 0

/-- Release the commands before item `k`; RP moves to the first one still needed (R74). -/
def releaseTo (g : Fin 48) (k : Nat) (s : State) : State :=
  let x := stall s g
  let n := dropCount s k x.ibase x.items
  if n = 0 then s
  else
    let rest := x.items.drop n
    let off := match rest with | it :: _ => it.off | [] => rdN s (R.STALL_PROG_PARSE g)
    showFree g (wrN (setStall g (fun x => { x with items := rest, ibase := x.ibase + n }) s) (R.STALL_PROG_RP g) off)

end Machine
end Sys2Proof
end

