-- ==== Sys2Proof/Machine/Errors.lean ====
section
/-!
DEFINITION. Chapter 14: the errors of the device memories, their log and their events (R384, R385, R388, R391).
-/
namespace Sys2Proof
namespace Machine

/-- The offset of LP5 memory among the device addresses. -/
def lpBase : Nat := 0x1000000000

/-! ## Errors (R384, R385, R391) -/

/-- The memory of a device address, for the error log. -/
def errMemory (a : Nat) : Nat := if lpBase ≤ a then 7 else if 0x2000000 ≤ a then 6 else a / 0x400000

/-- The placement of an LP5 address (R388): channel, rank, bank, row, column. -/
def lpPlace (a : Nat) (s : State) : Nat × Nat × Nat × Nat × Nat :=
  let x := a - lpBase
  let rows := 7 * 2 ^ (get s F.DMC_GEOMETRY_ROW_BITS + 14) / 8
  let r := x / 2 ^ 17
  (bits x 8 1, r / rows, bits x 9 2 * 4 + bits x 11 2, r % rows, bits x 13 4 * 4 + bits x 6 2)

/-- The placement of the check bytes of an LP5 address (R388). -/
def lpCheckPlace (a : Nat) (s : State) : Nat × Nat × Nat × Nat × Nat :=
  let (ch, rank, bank, row, col) := lpPlace a s
  (ch, rank, bank, 7 * 2 ^ (get s F.DMC_GEOMETRY_ROW_BITS + 14) / 8 + row / 8, row % 8 * 8 + col / 8)

/-- The words of an error log entry (R391); a kind of 4 or more is that of check bytes of LP5 memory. -/
def errWords (kind synd rep ctx a : Nat) (s : State) : List Nat :=
  let m := errMemory a
  let (ch, rank, bank, row, col) :=
    if m ≠ 7 then (0, 0, 0, 0, 0) else if 4 ≤ kind then lpCheckPlace a s else lpPlace a s
  [kind % 4 + 16 * (m + b2n (decide (4 ≤ kind))) + 2 ^ 8 * (synd % 256) + 2 ^ 16 * rep + 2 ^ 24 * ctx, a % 2 ^ 32,
    a / 2 ^ 32 % 256 + 2 ^ 8 * (ch % 2) + 2 ^ 9 * (rank % 2) + 2 ^ 10 * (bank % 16) + 2 ^ 14 * (row % 2 ^ 17), col,
    s.now % 2 ^ 32, s.now / 2 ^ 32 % 2 ^ 32, 0, 0]

/-- Record an error, or count a repeat of the last entry's address and KIND within 1 ms (R391). -/
def logError (kind synd ctx a : Nat) (s : State) : State :=
  let nx := get s F.DMC_ELOG_HEAD_NEXT
  let i := (nx + 15) % 16
  let new := { put (addSatF s F.DMC_ELOG_HEAD_TOTAL 1) F.DMC_ELOG_HEAD_NEXT ((nx + 1) % 16) with
    elog := cellPut s.elog nx (errWords kind synd 0 ctx a s) }
  match cellGet s.elog i with
  | some e =>
    let t := e.getD 4 0 + 2 ^ 32 * e.getD 5 0
    let w := e.getD 0 0
    if e.getD 1 0 = a % 2 ^ 32 ∧ e.getD 2 0 % 256 = a / 2 ^ 32 % 256 ∧ w % 4 = kind % 4 ∧ s.now < t + 1000000 then
      { s with elog := cellPut s.elog i (e.set 0 (setBits w 16 8 (satN 255 (bits w 16 8 + 1)))) }
    else new
  | none => new

/-- A word of a stable's loft holds a command that a stall still needs: one between RP and WP (R74, R95). -/
def commandNeeded (g : Fin 48) (o : Nat) (s : State) : Bool :=
  let b := progBase g s
  let n := progSize g s
  decide (b ≤ o) && decide (o < b + n) && decide ((o - b + n - rdN s (R.STALL_PROG_RP g)) % n < progHeld g s)

/-- An uncorrectable word of a loft faults the stalls whose commands it holds (R95). -/
def commandsLost (st : Fin 6) (o : Nat) (s : State) : State :=
  (stallsOf st).foldl (fun s g => if commandNeeded g o s then faultNext g 8 s else s) s

/-- An SRAM word is known to be uncorrectable until it is written. -/
def noteBad (a : Nat) (s : State) : State :=
  if a < lpBase ∧ ¬ s.poison.contains a ∧ ¬ s.sramBad.contains a then { s with sramBad := s.sramBad ++ [a] } else s

/-- A memory error found by a read: KIND 1 corrected, 2 uncorrectable, 3 poison, and 4 more where it lies in check bytes of LP5
memory; with the events and counts of its memory. Every LP5 error is logged, a corrected one of SRAM only with LOG_CORRECTED
(R384, R391). -/
def memError (kind synd ctx a : Nat) (s : State) : State :=
  let m := errMemory a
  let bad := kind % 4 ≠ 1
  let s0 := if kind = 2 then noteBad a s else s
  let s1 := if bad ∨ m = 7 ∨ bit (rdN s R.DMC_CFG) 0 then logError kind synd ctx a s0 else s0
  if m = 7 then
    let (ch, rank, bank, _, _) := lpPlace a s
    if bad then raise 27 (lifeAdd (addSat s1 R.DMC_LP5_UNCORR 1) (lifeNo 14 1 ch) 1)
    else raiseOnSet F.DMC_FLAGS_LP5_CORRECTED 26
      (lifeAdd (addSat s1 R.DMC_LP5_CORRECTED 1) (lifeNo 14 0 (32 * ch + 16 * (rank % 2) + bank)) 1)
  else
    let s2 := if bad then lifeAdd (addSat s1 R.DMC_SRAM_UNCORR 1) (lifeNo 14 3 m) 1
      else lifeAdd (addSat s1 R.DMC_SRAM_CORRECTED 1) (lifeNo 14 2 m) 1
    if m = 6 then (if bad then raise 25 s2 else raiseOnSet F.DMC_FLAGS_SRAM_CORRECTED 24 s2)
    else raise (stableEv m (b2n bad)) (if bad then commandsLost (Fin.ofNat 6 m) (a % 0x400000) s2 else s2)

/-- A read of a block meets an error in a word of its own area of a loft, whose address and syndrome are open (R384, R391). -/
def loftError (st : Fin 6) (base size kind : Nat) (s : State) : State :=
  let (synd, s1) := draw 25 s
  let (o, s2) := draw 29 s1
  memError kind synd 0 (0x400000 * st + base + o % size / 8 * 8) s2

/-- An error met in the correction grids of a stall (R15, R139). -/
def gridError (g : Fin 48) (kind : Nat) (s : State) : State :=
  loftError (stableOf g) (0xD000 * (2 * (g.val % 8))) 0x1A000 kind s

/-- An error met in the compare table of a stall (R15, R153). -/
def tableError (g : Fin 48) (kind : Nat) (s : State) : State :=
  loftError (stableOf g) (0xD0000 + 0x2000 * (g.val % 8)) 0x2000 kind s

/-- A read of a word that is known to be bad: poison, or uncorrectable since a read found it so (R384, R385). The syndrome of the
word is open. -/
def wordRead (a : Nat) (s : State) : State :=
  let w := a / 8 * 8
  if s.poison.contains w then let (n, s1) := draw 25 s; memError 3 n 0 w s1
  else if s.sramBad.contains w then let (n, s1) := draw 25 s; memError 2 n 0 w s1
  else s

end Machine
end Sys2Proof
end

