-- ==== Sys2Proof/Machine/Bays.lean ====
section
/-!
DEFINITION. The stall-to-bay map (R13) and the head link of a stall (R367).
-/
namespace Sys2Proof
namespace Machine

/-- The stall in a valid slot `k` of bay `b` (R13). -/
def slotStall (b k : Nat) (s : State) : Option Nat :=
  let w := bits (rdN s (R.YRD_BAY_MAP b)) (8 * k) 8
  if bit w 7 then some (w % 64) else none

/-- Every bay and slot. -/
def allSlots : List (Nat × Nat) := (List.range 12).flatMap fun b => (List.range 4).map fun k => (b, k)

/-- The bay and slot of a stall. -/
def bayOf (g : Nat) (s : State) : Option (Nat × Nat) := allSlots.find? fun p => slotStall p.1 p.2 s == some g

/-- The stalls in the valid slots of a bay. -/
def bayStalls (b : Nat) (s : State) : List (Fin 48) := (fins 48).filter fun g => (bayOf g s).map Prod.fst == some b

/-- A bay is ACTIVE (R364). -/
def bayActive (b : Nat) (s : State) : Bool := get s (F.LNK_STATE_STAGE b) == 6

/-- The CLASS of the head in a slot: 0 none, 1 smart, 2 bare (R366). -/
def slotClass (b k : Nat) (s : State) : Nat := bits (rdN s (R.LNK_CAPS b)) (8 * k) 2

/-- The CLASS of a stall's head; 0 while its bay is not ACTIVE (R367). -/
def headClass (g : Nat) (s : State) : Nat :=
  match bayOf g s with
  | some (b, k) => if bayActive b s then slotClass b k s else 0
  | none => 0

/-- A stall's head link is active (R367). -/
def linkActive (g : Nat) (s : State) : Bool := headClass g s != 0

/-- A stable is enabled (R29). -/
def stableEn (st : Nat) (s : State) : Bool := bit (rdN s R.YRD_CTRL) st

/-- Every condition of OFFLINE to IDLE but `CTRL.EN` (R94). -/
def canOnline (g : Nat) (s : State) : Bool := stableEn (g / 8) s && linkActive g s

/-- Laser inhibit is active for the stalls (R157, R159): any source, or the
release that follows it not complete. -/
def inhibited (s : State) : Bool := get s F.YRD_LSAFE_STATUS_SOURCES != 0 || s.forced

/-- A bare-head stall may start: its loops are CLOSED (R217). -/
def servoOk (g : Nat) (s : State) : Bool := !(flag s (F.SRV_STATE_HEAD_BARE g)) || get s (F.SRV_STATE_STATE g) == 3

/-- The host heartbeat is lost (R101). -/
def hbLost (s : State) : Bool := flag s F.YRD_HEARTBEAT_STATUS_LOST

/-- Show in EN_WAIT whether an OFFLINE stall with EN = 1 misses a condition (R94). -/
def showWait (g : Nat) (s : State) : State :=
  put s (F.STALL_STATE_EN_WAIT g) (b2n (stSt g s == ssOFFLINE && flag s (F.STALL_CTRL_EN g) && !canOnline g s))

end Machine
end Sys2Proof
end

