-- ==== Sys2Proof/Machine/Frames.lean ====
section
/-!
DEFINITION. Chapter 13: the frames of the link as blocks of 64 bits (R354, R356, R357): the header with its CRC, a frame that is
sent, and a frame that is received, which is discarded unless it is whole.
-/
namespace Sys2Proof
namespace Machine

/-- One bit of the CRC-16 of polynomial 0x1021, most significant bit first (R356). -/
def crc16Bit (c : Nat) : Nat := if c < 0x8000 then 2 * c else (2 * c % 0x10000) ^^^ 0x1021

/-- One byte of the CRC-16. -/
def crc16Byte (c : Nat) (b : Byte) : Nat := (List.range 8).foldl (fun c _ => crc16Bit c) (c ^^^ (b.toNat * 256))

/-- The CRC-16 of bytes (R356): initial value 0xFFFF, no final XOR. -/
def crc16 (l : List Byte) : Nat := l.foldl crc16Byte 0xFFFF

/-- The CRC of a frame: header bytes 1 to 5, then every data block's bytes. -/
def frameCrc (head : Nat) (data : List Nat) : Nat := crc16 (((leBytes 8 head).drop 1).take 5 ++ data.flatMap (leBytes 8))

/-- The bits of a set of slots. -/
def slotMask (l : List Nat) : Nat := sumN (l.map fun k => 2 ^ k)

/-- A frame that is sent: FTYPE, the bits of its slots, CELL and SUPER, and its data blocks (R356). -/
def frameBlocks (ftype slots cell super : Nat) (data : List Nat) : List Nat :=
  let h := 0x2D + 2 ^ 8 * ftype + 2 ^ 12 * slots + 2 ^ 16 * data.length + 2 ^ 24 * cell + 2 ^ 32 * (super % 2 ^ 16)
  (h + 2 ^ 48 * frameCrc h data) :: data

/-- What a received frame carries: its slots, its reference instant as CELL and SUPER, and its data blocks. -/
structure UpFrame where
  slots : List (Fin 4)
  cell : Nat
  super : Nat
  data : List Nat

/-- A received frame of a type, unless it is discarded (R356, R357): `broken` tells that it held an invalid block or was cut short;
`per` is the number of blocks in a slot's record, none for a MGMT frame of 1 to 16 blocks and at most one slot. -/
def frameRead (ftype : Nat) (per : Option Nat) (broken : Bool) (blocks : List (BitVec 64)) : Option UpFrame :=
  match blocks.map BitVec.toNat with
  | [] => none
  | h :: data =>
    let slots := (fins 4).filter fun k => bit h (12 + k.val)
    let n := data.length
    let fits : Bool := match per with
      | some p => n == p * slots.length && decide (0 < n)
      | none => decide (1 ≤ n) && decide (n ≤ 16) && decide (slots.length ≤ 1)
    if ¬ broken ∧ bits h 0 8 = 0x2D ∧ bits h 8 4 = ftype ∧ bits h 16 6 = n ∧ fits ∧ bits h 48 16 = frameCrc h data then
      some ⟨slots, bits h 24 6, bits h 32 16, data⟩
    else none

/-- The records of a frame, `per` blocks for each slot. -/
def UpFrame.records (f : UpFrame) (per : Nat) : List (Fin 4 × List Nat) :=
  f.slots.zipIdx.map fun p => (p.1, (f.data.drop (per * p.2)).take per)

/-- The message of a MGMT frame: MOP, TAG, PLEN and PLEN bytes (R362). -/
def UpFrame.message (f : UpFrame) : List Byte :=
  let l := f.data.flatMap (leBytes 8)
  l.take (4 + leAt l 2 2)

/-- The data blocks of a message, filled up with zeros. -/
def messageBlocks (l : List Nat) : List Nat :=
  (List.range ((l.length + 7) / 8)).map fun i => sumN ((List.range 8).map fun j => 256 ^ j * (l.getD (8 * i + j) 0 % 256))

/-- A control block: its type and what its bytes 1 to 3 and 4 to 7 hold (R354). -/
def controlBlock (type low high : Nat) : Nat := type + 2 ^ 8 * low + 2 ^ 32 * (high % 2 ^ 32)

/-- A payload under the scrambler x^58 + x^39 + 1 (R354): `h` holds the last 58 scrambled bits, the latest in bit 57. The scrambled
payload, and the bits held after it. -/
def scramble (h payload : Nat) : Nat × Nat :=
  let low := (payload ^^^ (h / 2 ^ 19) ^^^ h) % 2 ^ 39
  let high := ((payload / 2 ^ 39) ^^^ low ^^^ ((h + 2 ^ 58 * low) / 2 ^ 39)) % 2 ^ 25
  let w := low + 2 ^ 39 * high
  (w, (h + 2 ^ 58 * w) / 2 ^ 64)

/-- The words of blocks on the lane, bit 0 first: the sync header, 0b01 of a data block and 0b10 of a control block, then
the scrambled payload. -/
def laneWords (ctl : Bool) : Nat → List Nat → List Nat
  | _, [] => []
  | h, p :: ps => let (w, h') := scramble h p; ((if ctl then 2 else 1) + 4 * w) :: laneWords ctl h' ps

/-- A frame's words: its FRAME block, and its data blocks. -/
def frameWords (h : Nat) : List Nat → List Nat
  | [] => []
  | p :: ps => let (w, h') := scramble h p; (2 + 4 * w) :: laneWords false h' ps

/-- A frame leaves a bay. What the scrambler holds before it follows from all that the lane has carried, and is free
(notes/assumptions/201). -/
def sendFrame (b : Nat) (t : Option Nat) (blocks : List Nat) (s : State) : State :=
  let (h, s1) := draw 28 s
  emit (.words b t (frameWords (h % 2 ^ 58) blocks)) (emit (.frame b t blocks) s1)

/-- Control blocks leave a bay. -/
def sendControl (b : Nat) (t : Option Nat) (blocks : List Nat) (s : State) : State :=
  let (h, s1) := draw 28 s
  emit (.words b t (laneWords true (h % 2 ^ 58) blocks)) (emit (.control b t blocks) s1)

/-- The time at the pins of a frame that leaves in a word of the present superframe, in tenths of a nanosecond (R353). -/
def wordTime (word : Nat) (s : State) : Nat := s.now / 4000 * 40000 + 64 * word

/-- The word in which the SETPOINT frame of the present tick begins: the first boundary at or after T + 400 ns (R363). -/
def setpointWord (s : State) : Nat := cdiv ((s.now % 4000 + 400) * 10) 64

end Machine
end Sys2Proof
end

