-- ==== Sys2Proof/Machine/Output.lean ====
section
/-!
DEFINITION. Step 1 of a tick for one stall (R18, R96, R145-R151): the output of a committed entry, the counters of
strokes and islands (R87-R89, R134), the power samples and the SETPOINT frames (R358).
-/
namespace Sys2Proof
namespace Machine

/-! ## Gate state inside an entry -/

/-- The gate state of an entry at an offset in tenths of nanoseconds times 384: an edge at or before it counts. -/
def gateAt (e : Entry) (ns : Nat) : Bool :=
  e.edges.foldl (fun g x => if x.2 * 10 ≤ ns * 384 then x.1 else g) e.gate

/-- Taps of gate-on time of an entry. -/
def onTapsOf (pTaps : Nat) (e : Entry) : Nat :=
  let r := e.edges.foldl (fun (a : Bool × Nat × Nat) x =>
    (x.1, x.2, if a.1 then a.2.2 + (x.2 - a.2.1) else a.2.2)) (e.gate, 0, 0)
  if r.1 then r.2.2 + (pTaps - r.2.1) else r.2.2

/-- A gate-on entry: its gate is on at some instant of its microvector. -/
def Entry.onClass (e : Entry) : Bool := e.gate || e.edges.any (fun x => x.1)

/-! ## Power samples (R150, R151) -/

/-- LEVEL in force at tap `t` of entry time: a pulse of an armed stroke in point exposure (R154). -/
def levelAt (l : List Stroke) (t : Int) : Nat :=
  ((l.flatMap fun st => match st.arm with
    | some a => if a.mode = 0 then st.pulses else []
    | none => []).filter fun q => decide (q.rise ≤ t) && decide (t < q.fall)).head?.map Pulse.level |>.getD 255

/-- The power of one sample before coding, in 0.1 W (R151 steps 2 to 5), and whether step 5 clamped it. -/
def samplePower (p0 p1 off p kp lev lim : Nat) : Nat × Bool :=
  let a := rdivUp ((p0 : Int) * p + ((p1 : Int) - p0) * off) p
  let b := rdivUp (a * kp) 16384
  let c := (if lev = 255 then b else rdivUp (b * (lev + 1)) 256).toNat
  (min c lim, decide (lim < c))

/-- A power register's value in effect: in RUN the earlier one until the end of the commit span (R151). -/
def pwEff (g o : Nat) (s : State) : Nat :=
  match (s.stalls[g]?).bind fun x => cellGet x.pwPend o with
  | some w => if stSt g s = ssRUN then w.toNat else rdN s o
  | none => rdN s o

/-- The idle code in effect. -/
def idleCode (g : Nat) (s : State) : Nat := bits (pwEff g (R.STALL_PWR_CODE g) s) 16 16

/-- The code of a power value (R151 step 6). -/
def powerCode (g p : Nat) (s : State) : Nat :=
  let v : Int := sext 16 (pwEff g (R.STALL_PWR_CODE g) s) + ((p * pwEff g (R.STALL_PWR_GAIN g) s / 65536 : Nat) : Int)
  (clampI 0 65535 v).toNat

/-- Sample `j` of the microvector whose entry heads `l` (that entry and the committed ones after it), and whether it was clamped;
`prev` holds the strokes of the entry before. A pulse of a stroke that ends within an entry still counts in it (R151 step 4). -/
def sampleOf (g j : Nat) (prev : List Stroke) (l : List Entry) (s : State) : Nat × Bool :=
  let idle := idleCode g s
  let t := (j + bits (pwEff g (R.STALL_PWR_ADVANCE g) s) 0 4) * 100
  let n := t / s.mvP
  let off := t % s.mvP
  match l[n]?, l[n + 1]? with
  | some e, some f =>
    if s.forced ∨ ¬ gateAt e off then (idle, false)
    else
      let before := if n = 0 then prev else ((l[n - 1]?).map fun o => o.after.live).getD []
      let tap : Int := ((e.after.n - 1) * (s.mvP * 384 / 10) + off * 384 / 10 : Nat)
      let (p, cl) := samplePower e.power f.power off s.mvP (get s (F.ENG_OUT_KP g)) (levelAt (e.after.live ++ before) tap)
        (limPower g s)
      (powerCode g p s, cl)
  | _, _ => (idle, false)

/-- The samples of a microvector, each with whether it was clamped. -/
def samplesOf (g : Fin 48) (prev : List Stroke) (l : List Entry) (s : State) : List (Nat × Bool) :=
  (List.range (s.mvP / 100)).map fun j => sampleOf g j prev l s

/-- Count clamped samples (R151 step 5). -/
def countPwrClamps (g n : Nat) (s : State) : State :=
  if n = 0 then s
  else outFlag (F.STALL_OUT_FLAGS_PWR_CLAMPED g) g
    (lifeAdd (addSat s (R.STALL_PWR_CLAMPS g) n) (lifeNo 5 2 g) n)

/-! ## Strokes and islands of the output (R87-R89) -/

/-- The first entry of a stroke output. -/
def strokeStart (g : Fin 48) (st : Stroke) (s : State) : State :=
  let s1 := wrN (wrN s (R.STALL_STROKE_PLAN g) st.splan) (R.STALL_STROKE_ELAPSED g) 0
  let s2 := put (setStall g (fun x => { x with strokeTold := false }) s1) (F.STALL_TRJ_FACTORS_K_THROTTLE g) st.kThr
  if flag s2 (F.ENG_CFG_STROKE_RESET g) then put (setEng g Eng.clear s2) (F.ENG_OUT_KP g) 16384 else s2

/-- The last entry of a stroke output. -/
def strokeEnd (g : Fin 48) (st : Stroke) (s : State) : State :=
  let s1 := lifeAdd (add64 s (R.STALL_STROKE_COUNT g) 1) (lifeNo 3 0 g) 1
  match st.arm with
  | some a => writeArm g ((stall s g).armShown (s.mvP * 384 / 10) a) s1
  | none => s1

/-- The island around an item: its ordinal (0 none), value and deadline. -/
def islandOf (x : Stall) (item : Nat) : Nat × Nat × Nat :=
  match x.items[item - x.ibase]? with
  | some it => (it.isl, it.islV, it.islD)
  | none => (0, 0xFFFFFFFF, 0)

/-- The island completes: its time is held (R87). -/
def islandDone (g : Fin 48) (s : State) : State :=
  if flag s (F.STALL_STATE_IN_ISLAND g) then
    wrN (addW (clrF s (F.STALL_STATE_IN_ISLAND g)) (R.STALL_ISLAND_COUNT g) 1) (R.STALL_ISLAND_ELAPSED g)
      ((s.beam - (stall s g).islStart) / 1000)
  else s

/-- The island of an entry output: one that is left completes, one that is entered starts (R87). -/
def islandStep (g : Fin 48) (item : Nat) (s : State) : State :=
  let (no, v, d) := islandOf (stall s g) item
  let s1 := if (stall s g).islNo ≠ no then setStall g (fun x => { x with islNo := no }) (islandDone g s) else s
  if no ≠ 0 ∧ (stall s g).islNo ≠ no then
    setStall g (fun x => { x with islStart := s.beam, islD := d, islTold := false })
      (wrN (setF s1 (F.STALL_STATE_IN_ISLAND g)) (R.STALL_ISLAND g) v)
  else s1

/-- No command that produces entries is left of the current island among the items from index `k`, and its end is
parsed. -/
def islandOver (no : Nat) : List Item → Bool
  | [] => false
  | it :: t =>
    if it.isl ≠ no then true
    else if it.skip then islandOver no t
    else match it.k with
      | .jump .. => false
      | .line .. => false
      | .arc .. => false
      | _ => islandOver no t

/-- At a tick without an entry, an island whose last entry is out completes (R87). -/
def islandRest (g : Fin 48) (s : State) : State :=
  let x := stall s g
  let past : Bool := match x.buf with
    | e :: _ => (islandOf x e.item).1 != x.islNo
    | [] => islandOver x.islNo (x.items.drop (x.hplan.k - x.ibase))
  if flag s (F.STALL_STATE_IN_ISLAND g) ∧ x.hzn = 0 ∧ past then
    setStall g (fun x => { x with islNo := 0 }) (islandDone g s)
  else s

/-! ## Step 1 -/

/-- Power settings take effect after the last entry of the commit span they waited for (R151). -/
def applyPower (g : Fin 48) (s : State) : State :=
  match (stall s g).lastOut with
  | some e => if e.span ∧ e.last.isEmpty then s else setStall g (fun x => { x with pwPend := [] }) s
  | none => setStall g (fun x => { x with pwPend := [] }) s

/-- Gate edges come to the balls: a level change of the pair is sent out unless the gate is forced off (R145, R158). -/
def ballTick (g : Fin 48) (s : State) : State :=
  let x := stall s g
  let past := x.balls.takeWhile fun q => decide (q.1 ≤ s.beam * 192)
  if past.isEmpty then s
  else
    let s1 := setStall g (fun x => { x with
      balls := x.balls.drop past.length, ballOn := (past.getLast?.map Prod.snd).getD x.ballOn }) s
    if s.forced ∨ ¬ flag s (F.STALL_GATE_CFG_DRIVE g) then s1
    else past.foldl (fun s q => emit (.gatePair g q.1 (some (q.2 != flag s (F.STALL_GATE_CFG_POL g)))) s) s1

/-- The gate edges of an output set out for the balls (R145): those of the entry, and one at the tick where the gate state
there differs from the last. -/
def sendEdges (g : Fin 48) (gate : Bool) (edges : List (Bool × Nat)) (s : State) : State :=
  let b := ballBase g s
  setStall g (fun x =>
    let first := if x.ballEnd != gate && !(edges.any fun q => q.2 == 0) then [(b, gate)] else []
    { x with balls := x.balls ++ first ++ edges.map fun q => (b + 5 * q.2, q.1) }) s

/-- The registers that show the entry output (R143). -/
def showEntry (g : Fin 48) (e : Entry) (s : State) : State :=
  let s1 := wrI (wrI (wrN s (R.STALL_TRJ_POS_F g) (code 16 e.cf)) (R.STALL_TRJ_POS_X g) e.cx) (R.STALL_TRJ_POS_Y g) e.cy
  put (wrN s1 (R.STALL_TRJ_SPEED g) e.speed) (F.STALL_STATE_IN_STROKE g) (b2n e.onClass)

/-- A photodiode bin opens with its entry (R199-R201). -/
def openBin (g : Fin 48) (e : Entry) (s : State) : State :=
  let armed := e.after.live.any fun st => st.arm.isSome && decide (e.after.n ≤ st.spanEnd)
  let cls := e.gate && e.edges.isEmpty && !armed && decide (0 < e.power) && stSt g s == ssRUN
  let b : Bin := ⟨s.now, cls, e.power, s.mvP / 100, get s (F.ENG_CFG_CH_EN g), get s (F.ENG_CFG_ALIGN g),
    [0, 0, 0, 0], [0, 0, 0, 0]⟩
  setEng g (fun x => { x with bins := x.bins ++ [b] }) s

/-- The moves that the next entry of a plan lies on or before. -/
def movesLeft : Nat → List Move → List Move
  | _, [] => []
  | t, m :: l => if t < m.dur then m :: l else movesLeft (t - m.dur) l

/-- No entry of the command that an entry on a jump, a run-in, a mark or a run-out derives from is still to come. -/
def itemDone (e : Entry) : Bool :=
  (e.kind == 3 || e.kind == 4 || e.kind == 5 || (e.kind == 0 && decide (e.item < e.after.k))) &&
    (movesLeft e.after.t e.after.moves).all fun m => m.item != e.item

/-- The index after the last command below `k` that produces entries. -/
def movesBelow (x : Stall) (k : Nat) : Nat :=
  ((x.items.take (k - x.ibase)).zipIdx.filter fun p => !p.1.skip && (match p.1.k with
    | .jump .. => true | .line .. => true | .arc .. => true | _ => false)).getLast?.map (fun p => x.ibase + p.2 + 1)
    |>.getD x.ibase

/-- The oldest item that entries still to come derive from, at most `k`: a commit span not yet output to its end needs its
last mark (R74, R545). -/
def stillNeeded (e : Entry) (k : Nat) : Nat :=
  e.after.live.foldl (fun m st => if e.after.n < st.spanEnd then min m (st.kEnd - 1) else m) k

/-- The item that the release of commands has come to with an entry (R74). -/
def releaseItem (e : Entry) : Nat :=
  stillNeeded e (e.last.foldl (fun k st => max k st.kEnd) (e.item + b2n (itemDone e)))

/-- Output the oldest committed entry. -/
def outputEntry (g : Fin 48) (e : Entry) (rest : List Entry) (s : State) : State :=
  let x := stall s g
  let prev := (x.lastOut.map fun o => o.after.live).getD []
  let s0 := applyPower g s
  let s1 := setStall g (fun x => { x with
    buf := rest, hzn := x.hzn - 1, cur := some e, lastOut := some e, noEntry := false, atMarker := false }) s0
  let s2 := match e.first with | some st => strokeStart g st s1 | none => s1
  let s3 := islandStep g e.item s2
  let pTaps := s.mvP * 384 / 10
  let on := if s.forced then 0 else onTapsOf pTaps e
  let s4 := if e.onClass then addSat s3 (R.STALL_STROKE_ELAPSED g) 1 else s3
  let acc := x.onTaps + on * 10
  let ns := acc / 384
  let s5 := setStall g (fun x => { x with onTaps := acc % 384 }) s4
  let s6 := lifeTime (add64 s5 (R.STALL_GATE_ON_TIME g) ns) (lifeNo 5 0 g) ns
  let s7 := e.last.foldl (fun s st => strokeEnd g st s) s6
  let l := samplesOf g prev (e :: rest.take (x.hzn - 1)) s7
  let s8 := setStall g (fun x => { x with samples := l }) (put s7 (F.STALL_OUT_STATUS_LAST_CODE g) ((l.getLast?.map Prod.fst).getD 0))
  releaseTo g (releaseItem e) (openBin g e (sendEdges g e.gate e.edges (showEntry g e s8)))

/-- The set-points at rest behind the last entry output: those of the rest position (R545). -/
def restCodes (g : Fin 48) (x : Stall) (s : State) : Option Entry :=
  match x.lastOut, planRest x.hplan with
  | some e, some (px, py, pf) =>
    if x.cur.isSome ∧ x.hzn = 0 then
      let (a, b, c) := correct e.after.env (loft s (g.val / 8)) px py pf
      some { e with sx := satCode a, sy := satCode b, sf := satCode c }
    else x.lastOut
  | l, _ => l

/-- A tick without an entry: the set-points repeat. -/
def outputNone (g : Fin 48) (s : State) : State :=
  let x := stall s g
  let due := (stSt g s == ssRUN || x.stopping != 0) && !x.starveDue
  let s1 := setStall g (fun x => { x with 
    cur := none, lastOut := restCodes g x s, noEntry := due, pwPend := [], samples := [] }) s
  let s2 := put (put s1 (F.STALL_OUT_STATUS_LAST_CODE g) (idleCode g s1))
    (F.STALL_STATE_IN_STROKE g) 0
  let s3 := islandRest g (sendEdges g false [] (wrN s2 (R.STALL_TRJ_SPEED g) 0))
  if x.buf.isEmpty ∧ x.plan.ph = 0 ∧ x.stopping = 0 then releaseTo g (movesBelow x x.plan.k) s3 else s3

/-- Step 1 of a stall: a stall in RUN outputs, and one in HOLD what was committed before it (R97, R99); one that enters FAULT at
this tick repeats its set-points (R95). -/
def outputStep (g : Fin 48) (s0 : State) : State :=
  let s := ballTick g s0
  let x := stall s g
  if (stSt g s = ssRUN ∨ stSt g s = ssHOLD) ∧ 0 < x.hzn ∧ x.faultNew = 0 then
    match x.buf with
    | e :: rest => showWindow g (outputEntry g e rest s)
    | [] => outputNone g s
  else outputNone g s

/-! ## Set-points and frames (R12, R358) -/

/-- The set-point a stall shows: of the last entry output, else of its rest position. -/
def setpoint (g : Fin 48) (s : State) : Int × Int × Int :=
  match (stall s g).lastOut with
  | some e => (e.sx, e.sy, e.sf)
  | none =>
    let (x, y, f) := restOf g s
    let (a, b, c) := correct (envOf g s) (loft s (g.val / 8)) x y f
    (satCode a, satCode b, satCode c)

/-- Pack 16-bit samples four to a block. -/
def packSamples : Nat → List Nat → List Nat
  | 0, _ => []
  | n + 1, l => (l.getD 0 0 + 2 ^ 16 * l.getD 1 0 + 2 ^ 32 * l.getD 2 0 + 2 ^ 48 * l.getD 3 0) :: packSamples n (l.drop 4)

/-- The blocks of a stall's record (R358); the sample codes are those of the microvector that ends. -/
def setpointRecord (g : Fin 48) (codes : List Nat) (s : State) : List Nat :=
  let (x, y, f) := setpoint g s
  let b0 := code 24 x + 2 ^ 24 * code 24 y + 2 ^ 48 * (code 24 f % 2 ^ 16)
  let b1 := code 24 f / 2 ^ 16 + 2 ^ 8 * b2n (inhibited s) + 2 ^ 16 * codes.getD 0 0 + 2 ^ 32 * codes.getD 1 0 +
    2 ^ 48 * codes.getD 2 0
  b0 :: b1 :: packSamples (codes.length / 4) (codes.drop 3)

/-- The codes a stall sends in this microvector: without an entry, the idle code. -/
def codesNow (g : Fin 48) (s : State) : List Nat :=
  let l := (stall s g).samples
  if l.isEmpty then List.replicate (s.mvP / 100) (idleCode g s) else l.map Prod.fst

/-- Count the clamped samples that left (R151 step 5). -/
def countSamples (g : Fin 48) (s : State) : State := countPwrClamps g ((stall s g).samples.countP Prod.snd) s

/-- The stalls of a bay's frame, in slot order, with their slots. -/
def frameStalls (b : Nat) (s : State) : List (Nat × Fin 48) :=
  (List.range 4).filterMap fun k =>
    match slotStall b k s with
    | some g => if h : g < 48 then (if stSt g s = ssOFFLINE then none else some (k, ⟨g, h⟩)) else none
    | none => none

/-- The data blocks of a bay's SETPOINT frame. -/
def setpointData (b : Nat) (s : State) : List Nat :=
  (frameStalls b s).flatMap fun p => setpointRecord p.2 (codesNow p.2 s) s

/-- The SETPOINT frame of an ACTIVE bay (R356, R358, R363). Without a record there is no frame: a frame has 1 to 32 data blocks
(notes/assumptions/201). -/
def setpointFrame (b : Nat) (s : State) : State :=
  if ¬ bayActive b s ∨ (setpointData b s).isEmpty then s
  else
    sendFrame b (some (wordTime (setpointWord s) s))
      (frameBlocks 1 (slotMask ((frameStalls b s).map Prod.fst)) (s.now % 4000 / 100) (s.now / 4000) (setpointData b s)) s

end Machine
end Sys2Proof
end

