-- ==== Sys2Proof/Machine/Scan.lean ====
section
/-!
DEFINITION. Chapter 03: the state machine of a stall (R94-R99), its descriptors and commands (R77, R78), its timers
(R86-R91), the end of programs (R93, R103, R545), the heartbeat (R100, R101) and the layer deadline (R102).
-/
namespace Sys2Proof
namespace Machine

/-! ## Why a stall in RUN finds no entry (R21, R86, R103, R128, R186, R545) -/

/-- The items a planner at rest has before it: the index of the next command that produces entries or stops, its
settings, the jump targets before it, and whether it is a mark. -/
def ahead (x : Stall) : Nat × Sett × (Int × Int × Int) × List (Int × Int × Int × Nat × Nat) × Bool :=
  walk x.plan.k x.plan.sett (x.plan.gx, x.plan.gy, x.plan.gf) [] (x.items.drop (x.plan.k - x.ibase))

/-- The stopping marker a planner at rest stands before, with its index. -/
def markerAt (x : Stall) : Option (Nat × ItemK) :=
  let (k, _, _, t, m) := ahead x
  if ¬ t.isEmpty ∨ m then none else (x.items[k - x.ibase]?).map fun it => (k, it.k)

/-- The next stroke is not whole among the parsed commands, or no command is there. -/
def nothingWhole (g : Fin 48) (s : State) : Bool :=
  let x := stall s g
  let (_, _, _, t, m) := ahead x
  t.isEmpty && (!m || (planElement (planIn g s) x.plan).isNone)

/-- The stall is being stopped, or an abort begins at this tick, which acts before all else (R96, R99). -/
def Stall.stops (x : Stall) : Bool := x.stopping != 0 || bit x.squashDue 5

/-- A failure of the engine keeps the plan from its end (R139); a stop that has come to rest needs no more of it. -/
def Stall.engineFails (x : Stall) : Bool := x.engFault != 0 && (x.stopping == 0 || x.plan.ph != 6)

/-- Why step 1 found no committed entry: 0 a fault of the machine (R21), 1 a stopping marker, 2 a program error, 3 a seam
mismatch, 4 no visible command, 5 a plan that failed, 6 the end of a stop. An abort that begins at this tick has taken every
speculative entry (R96, R99). -/
def emptyWhy (g : Fin 48) (s : State) : Nat :=
  let x := stall s g
  if x.engineFails then 5
  else if bit x.squashDue 5 then 6
  else if ¬ x.buf.isEmpty then 0
  else if x.stopping ≠ 0 then 6
  else if x.plan.fault ≠ 0 then 5
  else if x.plan.ph ≠ 0 then 0
  else if (markerAt x).isSome then 1
  else if ¬ nothingWhole g s then 0
  else if 1 ≤ x.seq.stop ∧ x.seq.stop ≤ 6 then 2
  else if x.seq.stop = 7 then 3
  else 4

/-- A stall in RUN found no entry at this tick for reason `w`. -/
def emptyFor (g : Fin 48) (w : Nat) (s : State) : Bool :=
  stSt g s == ssRUN && (stall s g).noEntry && emptyWhy g s == w

/-- MV_UNDERRUN (R21). -/
def mvUnderrun (g : Fin 48) (s : State) : State :=
  if emptyFor g 0 s then lifeAdd (enterFault g 1 s) (lifeNo 1 2 g) 1 else s

def execMvUnderrun (g : Fin 48) (s : State) : Host.Outcome State Fault Refusal := .next (mvUnderrun g s)

/-- PROGRAM_ERROR (R103): event k = 2 and the record of the error. -/
def programError (g : Fin 48) (s : State) : State :=
  if emptyFor g 2 s then
    let q := (stall s g).seq
    let s1 := wrN (wrN s (R.STALL_PROG_ERR g) (q.stop + 2 ^ 8 * q.errOp)) (R.STALL_PROG_ERR_OFFSET g) q.errOff
    raise (stallEv g 2) (enterFault g 3 (lifeAdd s1 (lifeNo 3 3 (16 * g + q.stop)) 1))
  else s

def execProgramError (g : Fin 48) (s : State) : Host.Outcome State Fault Refusal := .next (programError g s)

/-- SEAM_HOLD (R186). -/
def seamHold (g : Fin 48) (s : State) : State := if emptyFor g 3 s then enterHold g hcSEAM ssRUN s else s

def execSeamHold (g : Fin 48) (s : State) : Host.Outcome State Fault Refusal := .next (seamHold g s)

/-- PROGRAM_EMPTY (R86). -/
def programEmpty (g : Fin 48) (s : State) : State := if emptyFor g 4 s then enterHold g hcPROGRAM_EMPTY ssRUN s else s

def execProgramEmpty (g : Fin 48) (s : State) : Host.Outcome State Fault Refusal := .next (programEmpty g s)

/-- Commands that end a PROGRAM_EMPTY hold are there: a whole stroke or a command that is no mark (R86). -/
def visibleAgain (g : Fin 48) (s : State) : Bool :=
  let x := stall s g
  x.loaded || !(nothingWhole g s) || (markerAt x).isSome

/-- PROGRAM_EMPTY_CLEARED (R86): the cause clears by itself. -/
def programEmptyCleared (g : Fin 48) (s : State) : State :=
  let hc := get s (F.STALL_STATE_HOLD_CAUSE g)
  if stSt g s = ssHOLD ∧ bit hc 3 ∧ visibleAgain g s then
    setStall g (fun x => { x with loaded := false }) (put s (F.STALL_STATE_HOLD_CAUSE g) (hc - hcPROGRAM_EMPTY))
  else s

def execProgramEmptyCleared (g : Fin 48) (s : State) : Host.Outcome State Fault Refusal :=
  .next (programEmptyCleared g s)

/-! ## Starved hold (R131) -/

/-- Count a starved hold (R131, R144). -/
def noteStarved (g : Fin 48) (s : State) : State :=
  lifeAdd (addSat s (R.STALL_TRJ_STARVED_HOLDS g) 1) (lifeNo 4 2 g) 1

/-- STARVED_HOLD: the hold made due at step 7 of the last tick. -/
def starvedHold (g : Fin 48) (s : State) : State :=
  if stSt g s = ssRUN ∧ (stall s g).starveDue ∧ ¬ (stall s g).stops then noteStarved g (enterHold g hcSTARVED ssRUN s) else s

def execStarvedHold (g : Fin 48) (s : State) : Host.Outcome State Fault Refusal := .next (starvedHold g s)

/-- The stroke at HZN meets both conditions of R131. -/
def strokeReady (g : Fin 48) (s : State) : Bool :=
  let x := stall s g
  match x.buf[x.hzn]? with
  | some e => match e.first with | some st => clearedNow g s && leadMet g st s | none => true
  | none => false

/-- STARVED_CLEARED: both conditions hold. -/
def starvedCleared (g : Fin 48) (s : State) : State :=
  let hc := get s (F.STALL_STATE_HOLD_CAUSE g)
  if stSt g s = ssHOLD ∧ bit hc 2 ∧ strokeReady g s then put s (F.STALL_STATE_HOLD_CAUSE g) (hc - hcSTARVED) else s

def execStarvedCleared (g : Fin 48) (s : State) : Host.Outcome State Fault Refusal := .next (starvedCleared g s)

/-! ## Stopping markers (R90, R91, R93, R545) -/

/-- The output passes a marker: planning goes on after it, from rest, with the settings before it. -/
def passMarker (g : Fin 48) (s : State) : State :=
  let (k, t, gp, _, _) := ahead (stall s g)
  let f := fun (p : Plan) =>
    let (x, y, z) := (planRest p).getD (p.x, p.y, p.f)
    { p with
      ph := 0, moves := [], nxt := none, x := x, y := y, f := z, k := k + 1, sett := t, gx := gp.1, gy := gp.2.1, gf := gp.2.2,
      t := 0 }
  releaseTo g (k + 1) (setStall g (fun x => { x.abortWaits with
    plan := f x.plan, hplan := f x.hplan, noEntry := false, atMarker := true }) s)

/-- The marker this stall's output has reached at this tick. -/
def reached (g : Fin 48) (s : State) : Option ItemK :=
  if emptyFor g 1 s then (markerAt (stall s g)).map Prod.snd else none

/-- LAYER_END_REACHED (R91). -/
def layerEndReached (g : Fin 48) (s : State) : State :=
  match reached g s with
  | some (.layerEnd n) => wrN (enterState g ssLAYER (passMarker g s)) (R.STALL_LAYER_MARK g) n
  | _ => s

def execLayerEndReached (g : Fin 48) (s : State) : Host.Outcome State Fault Refusal := .next (layerEndReached g s)

/-- Begin to wait at a barrier. -/
def beginSync (g : Fin 48) (mask id tmo : Nat) (s : State) : State :=
  setStall g (fun x => { x with sync := some (mask, id, tmo), syncSince := s.beam, syncRel := false, syncBad := false })
    (put s (F.STALL_SYNC_BARRIER_ID g) id)

/-- SYNC_BARRIER_REACHED (R90). -/
def syncBarrierReached (g : Fin 48) (s : State) : State :=
  match reached g s with
  | some (.sync tmo mask id) => beginSync g mask id tmo (enterState g ssSYNC (passMarker g s))
  | _ => s

def execSyncBarrierReached (g : Fin 48) (s : State) : Host.Outcome State Fault Refusal :=
  .next (syncBarrierReached g s)

/-- Start again from the rest point in IDLE: planning from the defaults, parsing after the program's end (R82, R93). -/
def restIdle (g : Fin 48) (s : State) : State :=
  let (x, y, _) := restOf g s
  let s1 := setStall g (fun t => { t with
    seq := if t.seq.stop = 10 ∨ t.items.isEmpty then Seq.init x y else t.seq, recs := [], cleared := false }) s
  replanFromRest g s1

/-- PROGRAM_END_REACHED (R93): IDLE, the settings kept until the next RELEASE; a HOLD that was pending can no longer take
effect. -/
def programEndReached (g : Fin 48) (s : State) : State :=
  match reached g s with
  | some .progEnd =>
    let s1 := enterIdle g (passMarker g s)
    let s2 := setStall g (fun x => { x with holdReq := 0, squashNew := 0, squashDue := 0, kept := some x.plan.sett })
      (clrF s1 (F.STALL_STATE_HOLD_PENDING g))
    let s3 := restIdle g s2
    tellStall g [0x19] stABORTED (some (stateWord g s3)) (some 0) s3
  | _ => s

def execProgramEndReached (g : Fin 48) (s : State) : Host.Outcome State Fault Refusal := .next (programEndReached g s)

/-! ## Sync barriers (R90) -/

/-- The stalls of a mask. -/
def maskStalls (m : Nat) : List (Fin 48) := (fins 48).filter fun g => bit m g

/-- Two stalls wait at the same barrier. -/
def sameBarrier (g h : Fin 48) (s : State) : Bool :=
  stSt h s == ssSYNC && (match (stall s g).sync, (stall s h).sync with
    | some (m, i, _), some (n, j, _) => m == n && i == j
    | _, _ => false)

/-- The barrier of a waiting stall is satisfied (R90). -/
def barrierMet (g : Fin 48) (s : State) : Bool :=
  stSt g s == ssSYNC && (match (stall s g).sync with
    | some (m, _, _) => (maskStalls m).all fun h => sameBarrier g h s
    | none => false)

/-- A waiting stall and another one, each named by the other's mask, wait with one BARRIER_ID and different masks. -/
def barrierClash (g : Fin 48) (s : State) : Bool :=
  stSt g s == ssSYNC && (match (stall s g).sync with
    | some (m, i, _) => (fins 48).any fun h => h != g && stSt h s == ssSYNC && (match (stall s h).sync with
      | some (n, j, _) => i == j && m != n && bit m h && bit n g
      | none => false)
    | none => false)

/-- Judge the barriers after the state changes of a tick (R90); inhibit keeps one from being released (R159). -/
def judgeBarriers (s : State) : State :=
  forAll 48 (fun g s' =>
    if stSt g s = ssSYNC then
      setStall g (fun x => { x with
        syncRel := barrierMet g s && !(inhibited s), syncBad := barrierClash g s }) s'
    else s') s

/-- The start of the layer deadline timer (R102). -/
def layerTimer (g : Nat) (s : State) : State :=
  if s.ldSince.isNone ∧ bit s.layerSet g then
    setF { s with ldSince := some s.beam, ldTold := false } F.YRD_LAYER_DEADLINE_STATUS_RUNNING
  else s

/-- Enter RUN, with the layer deadline timer it may start. -/
def goRun (g : Fin 48) (s : State) : State := layerTimer g (enterRun g s)

/-- SYNC_BARRIER_RELEASE (R90): every stall of the barrier enters RUN together. Where one of them faults, aborts or holds at the
release tick, the barrier is judged again and none is released; R90 does not say whether the others are. DESIGN CHOICE
(notes/assumptions/214). -/
def syncBarrierRelease (g : Fin 48) (s : State) : State :=
  match (stall s g).sync with
  | some (m, _, _) =>
    if (stall s g).syncRel ∧ barrierMet g s ∧ ¬ inhibited s then
      (maskStalls m).foldl (fun s h => goRun h (setStall h (fun x => { x with
        sync := none, syncRel := false, syncBad := false }) s)) s
    else s
  | none => s

def execSyncBarrierRelease (g : Fin 48) (s : State) : Host.Outcome State Fault Refusal :=
  .next (syncBarrierRelease g s)

/-- SYNC_MISMATCH (R90). -/
def syncMismatch (g : Fin 48) (s : State) : State :=
  if stSt g s = ssSYNC ∧ (stall s g).syncBad then enterFault g 9 s else s

def execSyncMismatch (g : Fin 48) (s : State) : Host.Outcome State Fault Refusal := .next (syncMismatch g s)

/-- SYNC_TIMEOUT (R90). -/
def syncTimeout (g : Fin 48) (s : State) : State :=
  match (stall s g).sync with
  | some (_, _, t) =>
    if stSt g s = ssSYNC ∧ t ≠ 0 ∧ t * 1000000 < s.beam - (stall s g).syncSince then enterHold g hcSYNC ssSYNC s else s
  | none => s

def execSyncTimeout (g : Fin 48) (s : State) : Host.Outcome State Fault Refusal := .next (syncTimeout g s)

/-! ## Timers of a stall (R88, R89) -/

/-- The stroke's limit in microvectors (R88). -/
def strokeLimit (g : Nat) (s : State) : Nat :=
  rdN s (R.STALL_STROKE_PLAN g) * max 16 (get s (F.STALL_STROKE_TIMEOUT_FACTOR g)) / 16 +
    get s (F.STALL_STROKE_TIMEOUT_MARGIN g) * 1000 / s.mvP

/-- STROKE_TIMEOUT (R88). -/
def strokeTimeout (g : Fin 48) (s : State) : State :=
  if stSt g s = ssRUN ∧ ¬ (stall s g).strokeTold ∧ strokeLimit g s < rdN s (R.STALL_STROKE_ELAPSED g) then
    let s1 := raise (stallEv g 1) (lifeAdd (setStall g (fun x => { x with strokeTold := true }) s) (lifeNo 3 1 g) 1)
    if flag s (F.STALL_CTRL_STROKE_TIMEOUT_FAULT g) then enterFault g 2 s1 else setF s1 (F.STALL_FLAGS_STROKE_LATE g)
  else s

def execStrokeTimeout (g : Fin 48) (s : State) : Host.Outcome State Fault Refusal := .next (strokeTimeout g s)

/-- A hold requested of a stall by a cause (R97, R101): in RUN it is pending, a waiting stall takes it at the next tick,
a held one adds it. -/
def requestHold (g : Fin 48) (c : Nat) (s : State) : State :=
  let st := stSt g s
  if st = ssHOLD then addHold g c s
  else if st = ssRUN then setF (setStall g (fun x => { x with holdReq := x.holdReq ||| c }) s) (F.STALL_STATE_HOLD_PENDING g)
  else if st = ssSYNC ∨ st = ssLAYER then setStall g (fun x => { x with holdReq := x.holdReq ||| c }) s
  else s

/-- ISLAND_DEADLINE (R89). -/
def islandDeadline (g : Fin 48) (s : State) : State :=
  let x := stall s g
  if flag s (F.STALL_STATE_IN_ISLAND g) ∧ x.islD ≠ 0 ∧ ¬ x.islTold ∧ x.islD * 1000 ≤ s.beam - x.islStart then
    let s1 := setF (setStall g (fun x => { x with islTold := true }) s) (F.STALL_FLAGS_ISLAND_LATE g)
    let s2 := raise (stallEv g 1) (lifeAdd s1 (lifeNo 3 2 g) 1)
    if flag s (F.STALL_CTRL_ISLAND_LATE_HOLD g) then requestHold g hcISLAND s2 else s2
  else s

def execIslandDeadline (g : Fin 48) (s : State) : Host.Outcome State Fault Refusal := .next (islandDeadline g s)

/-! ## Hold and resume (R97, R98) -/

/-- The gate is on at this tick or has an edge after it in the microvector that began at it (R22, R97). -/
def gateNow (x : Stall) : Bool :=
  match x.cur with
  | some e => gateAt e 0 || e.edges.any (fun q => decide (0 < q.2))
  | none => (x.lastOut.map Entry.gateEnd).getD false

/-- No gate-on time of a started stroke lies ahead of this tick: the gate is closed, none of the committed entries opens
it and no edge is pending behind them. -/
def gateOver (x : Stall) : Bool :=
  !gateNow x && !((x.buf.take x.hzn).any Entry.onClass) && !x.hplan.gate &&
    x.hplan.edges.isEmpty

/-- A pending hold, requested before this tick, takes effect at it: the gate has closed at the end of the stroke the horizon
lay in, or the last committed entry of a jump is out (R97). -/
def holdDueNow (g : Fin 48) (s : State) : Bool :=
  let x := stall s g
  if stSt g s = ssRUN then
    flag s (F.STALL_STATE_HOLD_PENDING g) && x.holdDue && !x.stops && gateOver x && !x.hplan.inJump &&
      (x.buf.take x.hzn).all fun e => e.span && e.kind != 0
  else (stSt g s == ssSYNC || stSt g s == ssLAYER) && x.holdDue && x.holdReq != 0

/-- HOLD_TAKES_EFFECT (R96, R97): a stall that reaches a LAYER_END or SYNC_BARRIER at the same tick holds with the wait
as return state. -/
def holdTakesEffect (g : Fin 48) (s : State) : State :=
  if ¬ holdDueNow g s then s
  else
    let starved := (stall s g).starveDue
    let c := (stall s g).holdReq ||| (if starved then hcSTARVED else 0)
    let s := if starved then noteStarved g s else s
    if stSt g s ≠ ssRUN then enterHold g c (stSt g s) s
    else match reached g s with
    | some (.layerEnd n) => enterHold g c ssLAYER (wrN (passMarker g s) (R.STALL_LAYER_MARK g) n)
    | some (.sync tmo mask id) => enterHold g c ssSYNC (beginSync g mask id tmo (passMarker g s))
    | _ => enterHold g c ssRUN (discard g s)

def execHoldTakesEffect (g : Fin 48) (s : State) : Host.Outcome State Fault Refusal := .next (holdTakesEffect g s)

/-- HOLD_RETURN (R98): no cause remained at the last tick. -/
def holdReturn (g : Fin 48) (s : State) : State :=
  if stSt g s = ssHOLD ∧ (stall s g).retDue ∧ get s (F.STALL_STATE_HOLD_CAUSE g) = 0 ∧ ¬ inhibited s then
    let r := get s (F.STALL_STATE_RETURN_STATE g)
    let s1 := setStall g (fun x => { x with retDue := false, syncSince := s.beam, syncRel := false }) s
    let s2 := if r = ssRUN then goRun g s1 else enterState g r s1
    tellStall g [0x1A] stOK (some (stateWord g s2)) (some 0) s2
  else s

def execHoldReturn (g : Fin 48) (s : State) : Host.Outcome State Fault Refusal := .next (holdReturn g s)

/-- A stall accepts a HOLD in these states (R97). -/
def holdOk (g : Nat) (s : State) : Bool := decide (ssRUN ≤ stSt g s) && decide (stSt g s ≤ ssHOLD)

/-- A stall accepts a RESUME (R98, R159, R217). -/
def resumeOk (g : Nat) (s : State) : Bool := stSt g s == ssHOLD && !(hbLost s) && !(inhibited s) && servoOk g s

/-- What a RESUME clears (R98); behind a hold with cause SEAM it passes over the mismatched section (R186). -/
def resumeNow (g : Fin 48) (s : State) : State :=
  let keep := get s (F.STALL_STATE_HOLD_CAUSE g) &&& (hcSTARVED ||| hcPROGRAM_EMPTY)
  let s1 := put s (F.STALL_STATE_HOLD_CAUSE g) keep
  if bit (get s (F.STALL_STATE_HOLD_CAUSE g)) 6 then
    setStall g (fun x => if x.seq.stop = 7 then { x with seq := { x.seq with stop := 0, passBy := true } } else x) s1
  else s1

/-- INTERLOCK with the STATE value (R78). -/
def interlock (c : Fin 256) (q g : Nat) (s : State) : State := complete c q stINTERLOCK (some (stateWord g s)) none false s

/-- The stall of a stall program context (R38). -/
def ctxStall (c : Fin 256) (s : State) : Option (Fin 48) :=
  if h : get s (F.HIF_CTX_CFG_BIND c) < 48 then some ⟨_, h⟩ else none

/-- Run a descriptor of a stall program context on its stall. -/
def withStall (c : Fin 256) (op : Nat) (k : Desc → Fin 48 → State → State) (s : State) : State :=
  withDesc c op (fun d s => match ctxStall c s with
    | some g =>
      if d.txnV then k d g s else blockCheck c d.seq (32 + g.val / 8) (0x200000 + 0x100000 * (g.val / 8)) (k d g) s
    | none => s) s

/-- ADDR, LEN and bytes 20 to 63 of a stall order are 0 (R77). -/
def orderPlain (d : Desc) : Bool := d.addr == 0 && d.len == 0 && d.at 20 44 == 0

/-- HOLD (R77, R78, R97). -/
def opHold (c : Fin 256) (d : Desc) (g : Fin 48) (s : State) : State :=
  if ¬ orderPlain d then formatZero c d.seq s
  else if ¬ holdOk g s then interlock c d.seq g s
  else
    let s1 := requestHold g hcHOST s
    if stSt g s = ssHOLD then complete c d.seq stOK (some (stateWord g s1)) (some 0) false s1 else s1

def execHold (c : Fin 256) (s : State) : Host.Outcome State Fault Refusal := .next (withStall c 0x19 (opHold c) s)

/-- A refused `CMD` value. -/
def cmdRefuse (g : Nat) (s : State) : State := setF s (F.STALL_FLAGS_CMD_REFUSED g)

/-- HOLD by register (R97). -/
def regHold (g : Fin 48) (s : State) : State := if holdOk g s then requestHold g hcHOST s else cmdRefuse g s

/-- RESUME by register (R98). -/
def regResume (g : Fin 48) (s : State) : State := if resumeOk g s then resumeNow g s else cmdRefuse g s

def execCmdHold (sec : Bool) (g : Fin 48) (s : State) : Host.Outcome State Fault Refusal :=
  .next (hostWrite sec (R.STALL_CMD g) (regHold g) s)

def execCmdResume (sec : Bool) (g : Fin 48) (s : State) : Host.Outcome State Fault Refusal :=
  .next (hostWrite sec (R.STALL_CMD g) (regResume g) s)

def execHoldAllHold (sec : Bool) (s : State) : Host.Outcome State Fault Refusal :=
  .next (hostWrite sec R.YRD_HOLD_ALL (forAll 48 regHold) s)

def execHoldAllResume (sec : Bool) (s : State) : Host.Outcome State Fault Refusal :=
  .next (hostWrite sec R.YRD_HOLD_ALL (forAll 48 regResume) s)

/-! ## Abort (R99) -/

/-- Ask for an abort: a squash in RUN, and in HOLD while committed entries are left; else at the next tick; one already
running stays (R99). -/
def requestAbort (g : Fin 48) (s : State) : State :=
  if flag s (F.STALL_STATE_ABORTING g) then s
  else
    let s1 := seamLoss g true s
    if stSt g s = ssRUN ∨ (stSt g s = ssHOLD ∧ 0 < (stall s g).hzn) then latchSquash g 5 s1 else setStall g (fun x => { x with abortNew := true }) s1

/-- ABORT (R77, R99). -/
def opAbort (c : Fin 256) (d : Desc) (g : Fin 48) (s : State) : State :=
  if ¬ orderPlain d then formatZero c d.seq s else requestAbort g s

def execAbort (c : Fin 256) (s : State) : Host.Outcome State Fault Refusal := .next (withStall c 0x1B (opAbort c) s)

/-- ABORT by register: running loads complete with ABORTED and make nothing visible (R99). -/
def regAbort (g : Fin 48) (s : State) : State := requestAbort g (tellStall g [0x10, 0x11, 0x12] stABORTED none none s)

def execCmdAbort (sec : Bool) (g : Fin 48) (s : State) : Host.Outcome State Fault Refusal :=
  .next (hostWrite sec (R.STALL_CMD g) (regAbort g) s)

/-- The state an abort ends in (R94, R99). -/
def abortTarget (g : Fin 48) (s : State) : Nat :=
  if (stall s g).disable ∨ stSt g s = ssOFFLINE ∨ (stSt g s = ssFAULT ∧ ¬ linkActive g s) then ssOFFLINE else ssIDLE

/-- An abort has come to its step 4 (R99). -/
def abortOver (g : Fin 48) (s : State) : Bool :=
  let x := stall s g
  (x.stopping == 1 && x.noEntry && x.buf.isEmpty && x.plan.ph == 6) ||
    (x.abortDue && (stSt g s != ssRUN) && (stSt g s != ssHOLD || x.hzn == 0))

/-- ABORT_COMPLETE (R99); an IDLE stall whose EN was cleared only goes OFFLINE (R94). -/
def abortComplete (g : Fin 48) (s : State) : State :=
  if ¬ abortOver g s then s
  else if stSt g s = ssIDLE ∧ (stall s g).disable then
    let s1 := enterState g ssOFFLINE (setStall g (fun x => { x with disable := false, abortDue := false, relNew := false }) s)
    tellStall g [0x18] stABORTED (some (stateWord g s1)) none s1
  else
    let t := abortTarget g s
    let s1 := showWait g (abortEnd g t s)
    if t = ssIDLE then restIdle g s1 else s1

def execAbortComplete (g : Fin 48) (s : State) : Host.Outcome State Fault Refusal := .next (abortComplete g s)

/-! ## Enabling (R76, R94) -/

/-- The bits of `CTRL` beside EN. -/
def ctrlWord (v : Word) (en : Nat) : Nat := v.toNat % 8 / 2 * 2 + en

/-- STALL_ENABLE: `CTRL` written with EN = 1. -/
def stallEnable (g : Fin 48) (v : Word) (s : State) : State := showWait g (wrN s (R.STALL_CTRL g) (ctrlWord v 1))

def execStallEnable (sec : Bool) (g : Fin 48) (v : Word) (s : State) : Host.Outcome State Fault Refusal :=
  .next (hostWrite sec (R.STALL_CTRL g) (stallEnable g v) s)

/-- STALL_ONLINE (R94). -/
def stallOnline (g : Fin 48) (s : State) : State :=
  if stSt g s = ssOFFLINE ∧ flag s (F.STALL_CTRL_EN g) ∧ canOnline g s then
    restIdle g (clrF (enterIdle g (ungate g s)) (F.STALL_STATE_EN_WAIT g))
  else s

def execStallOnline (g : Fin 48) (s : State) : Host.Outcome State Fault Refusal := .next (stallOnline g s)

/-- STALL_DISABLE: `CTRL` written with EN = 0 (R94). -/
def stallDisable (g : Fin 48) (v : Word) (s : State) : State :=
  let s1 := wrN s (R.STALL_CTRL g) (ctrlWord v 0)
  if stSt g s = ssOFFLINE then showWait g s1
  else
    let s2 := setStall g (fun x => { x with disable := true }) s1
    if stSt g s = ssIDLE ∨ stSt g s = ssFAULT then setStall g (fun x => { x with abortNew := true }) s2
    else requestAbort g s2

def execStallDisable (sec : Bool) (g : Fin 48) (v : Word) (s : State) : Host.Outcome State Fault Refusal :=
  .next (hostWrite sec (R.STALL_CTRL g) (stallDisable g v) s)

/-- Two regions share bytes. -/
def overlap (a n b m : Nat) : Bool := decide (a < b + m) && decide (b < a + n)

/-- A program region is acceptable (R76): pages of 4 KiB. -/
def regionOk (g : Fin 48) (base size : Nat) (s : State) : Bool :=
  stSt g s == ssOFFLINE && decide (4 ≤ size) && decide (size ≤ 768) && decide (base + size ≤ 768) &&
    (stallsOf (stableOf g)).all fun h => h == g ||
      !(overlap base size (rdN s (R.STALL_PROG_REGION h)) (rdN s (R.STALL_PROG_REGION h + 4)))

/-- PROG_REGION_WRITE (R76). -/
def progRegionWrite (g : Fin 48) (v : Nat) (s : State) : State :=
  let base := v % 2 ^ 32
  let size := v / 2 ^ 32
  if regionOk g base size s then
    let (x, y, _) := restOf g s
    zeroPtrs g (setStall g (fun t => { t with items := [], ibase := 0, seq := Seq.init x y }) (wr64 s (R.STALL_PROG_REGION g) v))
  else setF s (F.STALL_FLAGS_REGION_REFUSED g)

def execProgRegionWrite (sec : Bool) (g : Fin 48) (w : Wr64) (s : State) : Host.Outcome State Fault Refusal :=
  .next (hostWrite sec (R.STALL_PROG_REGION g) (withWide (R.STALL_PROG_REGION g) false w (progRegionWrite g)) s)

/-! ## Heartbeat and layer deadline (R100-R102) -/

/-- Restart the heartbeat; LOST clears (R100, R101). -/
def hbRestart (s : State) : State :=
  forAll 48 (fun g s => clrF s (F.STALL_STATE_HB_LOST g))
    (clrF { s with hbSince := s.beam, hbTold := false } F.YRD_HEARTBEAT_STATUS_LOST)

/-- HEARTBEAT_PERIOD_WRITE (R100). -/
def heartbeatPeriodWrite (v : Word) (s : State) : State :=
  let p := v.toNat % 256
  let busy := (fins 48).any fun g => holdOk g s
  if 60 < p ∨ (p = 0 ∧ busy) then setF s F.YRD_HEARTBEAT_STATUS_REFUSED
  else hbRestart (wrN s R.YRD_HEARTBEAT p)

def execHeartbeatPeriodWrite (sec : Bool) (v : Word) (s : State) : Host.Outcome State Fault Refusal :=
  .next (hostWrite sec R.YRD_HEARTBEAT (heartbeatPeriodWrite v) s)

def execHeartbeatKick (sec : Bool) (s : State) : Host.Outcome State Fault Refusal :=
  .next (hostWrite sec R.YRD_HEARTBEAT_KICK hbRestart s)

/-- What an expiry does to the stalls (R101). -/
def heartbeatStall (g : Fin 48) (s : State) : State :=
  let s1 := setF s (F.STALL_STATE_HB_LOST g)
  let st := stSt g s
  if st = ssSYNC ∨ st = ssLAYER then enterHold g (hcHEARTBEAT ||| (stall s g).holdReq) st s1
  else if st = ssRUN ∨ st = ssHOLD then requestHold g hcHEARTBEAT s1 else s1

/-- The heartbeat expires, as the stalls see it (R101). -/
def heartbeatExpire (s : State) : State :=
  let s1 := setF (setF { s with hbTold := true } F.YRD_HEARTBEAT_STATUS_LOST) F.YRD_HEARTBEAT_STATUS_EXPIRED
  forAll 48 heartbeatStall (raise 75 (lifeAdd s1 (lifeNo 3 6 0) 1))

/-- PERIOD seconds have passed since the last restart (R101). -/
def heartbeatDue (s : State) : Bool :=
  let p := get s F.YRD_HEARTBEAT_PERIOD
  decide (1 ≤ p) && decide (p ≤ 60) && !s.hbTold && decide (p * 1000000000 ≤ s.beam - s.hbSince)

/-- LAYER_DEADLINE_PASSED (R102). -/
def layerDeadlinePassed (s : State) : State :=
  let lim := get s F.YRD_LAYER_DEADLINE_LIMIT
  match s.ldSince with
  | some t =>
    if lim ≠ 0 ∧ ¬ s.ldTold ∧ lim * 1000000 ≤ s.beam - t then
      raise 76 (lifeAdd (setF { s with ldTold := true } F.YRD_LAYER_DEADLINE_STATUS_LATE) (lifeNo 1 1 0) 1)
    else s
  | none => s

def execLayerDeadlinePassed (s : State) : Host.Outcome State Fault Refusal := .next (layerDeadlinePassed s)

/-! ## Trajectory faults and other faults of a stall (R95, R128, R139) -/

/-- A TRAJECTORY fault with its detail; event stable + 35 (R139). -/
def trajFault (g : Fin 48) (d : Nat) (s : State) : State :=
  raise (stableEv (g / 8) 3) (enterFault g 6 (lifeAdd (wrN s (R.STALL_TRJ_FAULT g) d) (lifeNo 4 3 (16 * g + d)) 1))

/-- TRAJECTORY_FAULT: the fault of a failed plan (R128) once its last entry is out, or a failure the engine met (R139):
`d` is 4 for a grid read and 5 for its own checks, 0 where neither is met now. A failure of the engine ends a stall that is not in
RUN at once where no committed entry is left to output. -/
def trajectoryFault (g : Fin 48) (d : Nat) (s : State) : State :=
  let x := stall s g
  if emptyFor g 5 s then
    if x.engFault ≠ 0 then trajFault g x.engFault s
    else if x.plan.fault = 0x83 then
      raise (stableEv (g / 8) 6) (enterFault g 7 (wrN s (R.STALL_OUT_FAULT g) 3))
    else trajFault g x.plan.fault s
  else if x.engineFails ∧ x.hzn = 0 ∧ stSt g s ≠ ssRUN then trajFault g x.engFault s
  else if (d = 4 ∨ d = 5) ∧ x.engFault = 0 ∧ stSt g s ≠ ssOFFLINE ∧ stSt g s ≠ ssFAULT then
    setStall g (fun x => { x with engFault := d }) (if d = 4 then gridError g 2 s else s)
  else s

def execTrajectoryFault (g : Fin 48) (d : Nat) (s : State) : Host.Outcome State Fault Refusal :=
  .next (trajectoryFault g d s)

/-- A fault cause asked for the next tick takes effect; beside an OUTPUT cause stands its `OUT_FAULT.DETAIL`. -/
def faultStep (g : Fin 48) (s : State) : State :=
  let c := (stall s g).faultNew
  if c = 0 then s
  else if stSt g s = ssOFFLINE ∨ stSt g s = ssFAULT then setStall g (fun x => { x with faultNew := 0 }) s
  else enterFault g (c % 256) (if c % 256 = 7 then wrN s (R.STALL_OUT_FAULT g) (c / 256) else s)

/-- A stall order of the gate or a descriptor: RELEASE takes effect (R26, R94). -/
def releaseNow (g : Fin 48) (s : State) : State :=
  let s1 := goRun g (setStall g (fun x => { x with relNew := false, kept := none }) s)
  tellStall g [0x18] stOK (some (stateWord g s1)) (some 0) s1

end Machine
end Sys2Proof
end

