-- ==== Sys2Proof/Machine/Staged.lean ====
section
/-!
DEFINITION. What configuration writes share: the bits a write reaches (R5-R7), the values staged transactions hold
(R229), windows onto a loft (R129, R195), and the locks a stall or a transaction keeps (R129, R153).
-/
namespace Sys2Proof
namespace Machine

/-! ## Writes -/

/-- The bits of a word that are RW (R5). -/
def rwMask (o : Nat) : Nat :=
  match rowAt o with
  | some (w, k) => if k = 0 then w.rw % 2 ^ 32 else w.rw / 2 ^ 32
  | none => 0

/-- The bits of a word that a staged write reaches: its RW bits, and of `YRD.MSH_SEAM_MOVE`, which is written only, its
fields (R185, R229). -/
def stagedMask (o : Nat) : Nat :=
  if o = R.YRD_MSH_SEAM_MOVE then 0xFFFFFFFF else if o = R.YRD_MSH_SEAM_MOVE + 4 then 0x3F else rwMask o

/-- The bits of a register that a staged write reaches. -/
def stagedBits (o : Nat) (wide : Bool) : Nat := stagedMask o + if wide then 2 ^ 32 * stagedMask (o + 4) else 0

/-- A word with the bits under a mask replaced. -/
def mix (old v mask : Nat) : Nat := old - (old &&& mask) + (v &&& mask)

/-- What a write of `v` would leave in a register: its RW bits take the written ones (R5, R7). -/
def merged (o : Nat) (v : Word) (s : State) : Nat := mix (rdN s o) v.toNat (rwMask o)

/-- A configuration write: accepted where `ok` holds of the value it would leave, and then `apply`; else `refuse`. -/
def cfgWrite (sec : Bool) (o : Nat) (v : Word) (ok : Nat → State → Bool) (refuse : State → State)
    (apply : Nat → State → State) (s : State) : State :=
  hostWrite sec o (fun s => let n := merged o v s; if ok n s then apply n s else refuse s) s

/-! ## Staged values (R225, R229) -/

/-- A transaction. -/
def txn (s : State) (i : Fin 64) : Txn := s.txns[i.val]

def setTxn (i : Fin 64) (f : Txn → Txn) (s : State) : State := { s with txns := vmod s.txns i f }

/-- Active: OPEN, COMMITTING or APPLYING. -/
def Txn.active (t : Txn) : Bool := decide (1 ≤ t.st) && decide (t.st ≤ 3)

/-- The transaction holds a write of an offset. -/
def Txn.writes (t : Txn) (o : Nat) : Bool :=
  t.active && t.acts.any fun a => match a.act with
    | .write p _ _ w => p == o || (w && p + 4 == o)
    | _ => false

/-- The value a register takes from a transaction's writes in staging order, over a present one (R229, R237). -/
def Txn.value (t : Txn) (o old : Nat) : Nat :=
  t.acts.foldl (fun x a => match a.act with
    | .write p v m w =>
      if p = o then mix x (v % 2 ^ 32) (m % 2 ^ 32 &&& stagedMask o)
      else if w ∧ p + 4 = o then mix x (v / 2 ^ 32) (m / 2 ^ 32 &&& stagedMask o) else x
    | _ => x) old

/-- The values a transaction would leave. -/
def Txn.after (t : Txn) (s : State) (o : Nat) : Nat := t.value o (rdN s o)

/-! ## Windows onto a loft -/

/-- A window access that the Region Table refuses (R449): handled as R9 and R37 state; TCK.WF_ADDR holds the device
address (notes/assumptions/21). -/
def windowFault (o addr : Nat) (s : State) : State :=
  worldFault 1 0 true 0xFF addr (setF (accessErr o 2 0 s) F.HIF_ERR_STATUS_ACCESS_ERROR)

/-- A window write of a word at a loft offset, under the Region Table. -/
def windowWrite (sec : Bool) (o : Nat) (st : Fin 6) (off : Nat) (v : Word) (s : State) : State :=
  if rangeOk sec (loftAddr st off) 4 s then loftWrite st off (leBytes 4 v.toNat) s
  else windowFault o (loftAddr st off) s

/-! ## Grid slots and compare tables (R129, R153) -/

/-- The slots in use under the values of GRID_SEL and TRJ_CTRL. -/
def slotsInUse (sel ctrl : Nat) : List Nat := bits sel 0 4 :: (if bit ctrl 1 then [bits sel 8 4] else [])

/-- A grid slot of a stable is locked (R129). -/
def slotLocked (st : Fin 6) (n : Nat) (s : State) : Bool :=
  (stallsOf st).any fun g =>
    (stSt g s != ssOFFLINE && (slotsInUse (rdN s (R.STALL_GRID_SEL g)) (rdN s (R.STALL_TRJ_CTRL g))).contains n) ||
    (fins 64).any fun i =>
      let t := txn s i
      (t.writes (R.STALL_GRID_SEL g) || t.writes (R.STALL_TRJ_CTRL g)) &&
        (slotsInUse (t.after s (R.STALL_GRID_SEL g)) (t.after s (R.STALL_TRJ_CTRL g))).contains n

/-- A stall's compare table is locked: an armed stroke has been read and its commit span is not over (R153). -/
def tableLocked (g : Fin 48) (s : State) : Bool :=
  let x := stall s g
  (x.plan.nxt.any fun n => n.st.arm.isSome) || (x.plan.live.any fun st => st.arm.isSome) ||
    (x.buf.any fun e => (e.last.any fun st => st.arm.isSome))

/-! ## CRC-32C (R129) -/

/-- One bit of a reflected CRC. -/
def crcBit (poly c : Nat) : Nat := if c % 2 = 1 then (c / 2) ^^^ poly else c / 2

/-- One byte of a reflected CRC. -/
def crcByte (poly c : Nat) (b : Byte) : Nat := (List.range 8).foldl (fun c _ => crcBit poly c) (c ^^^ b.toNat)

/-- CRC-32C of bytes. -/
def crc32c (l : List Byte) : Nat := l.foldl (crcByte 0x82F63B78) 0xFFFFFFFF ^^^ 0xFFFFFFFF

/-- A grid slot matches its `GRID_CRC` (R129). -/
def gridGood (st : Fin 6) (n : Nat) (s : State) : Bool :=
  crc32c (memBytes (loft s st) (0xD000 * n) 50700) == rdN s (R.STB_GRID_CRC st n)

end Machine
end Sys2Proof
end

