-- ==== Sys2Proof/Machine/Beam.lean ====
section
/-!
DEFINITION. Writes of the trajectory registers and grids (R129, R140) and chapter 05: gate outputs (R145-R149), output
parameters (R151) and the laser inhibit (R157-R161).
-/
namespace Sys2Proof
namespace Machine

/-! ## Trajectory registers (R129, R140) -/

/-- The stall is OFFLINE or IDLE. -/
def idleOrOff (g : Nat) (s : State) : Bool := decide (stSt g s ≤ ssIDLE)

/-- A word of a stall's trajectory registers is in range (R140); `r` is its offset in the stall block. -/
def trjRange (r n : Nat) : Bool :=
  match r with
  | 0x110 => decide (100 ≤ n) && decide (n ≤ 1000000)
  | 0x114 => decide (1 ≤ n) && decide (n ≤ 4000000)
  | 0x118 => decide (100 ≤ n) && decide (n ≤ 1000000)
  | 0x11C => decide (1 ≤ n) && decide (n ≤ 4000000)
  | 0x124 => decide (1 ≤ n % 2 ^ 16) && decide (1 ≤ n / 2 ^ 16)
  | 0x130 => decide (1024 ≤ n)
  | _ => true

/-- TWO_PLANE and the focus planes fit together (R140). -/
def planesOk (ctrl planes : Nat) : Bool := !bit ctrl 1 || decide (sext 16 planes < sext 16 (planes / 2 ^ 16))

/-- HORIZON, DEPTH and STROKE_LEAD fit together (R140). -/
def runaheadOk (ra lead : Nat) : Bool :=
  let h := bits ra 0 11; let d := bits ra 16 13; let l := bits lead 0 13
  decide (32 ≤ h) && decide (h ≤ 1024) && decide (64 ≤ d) && decide (d ≤ 4096) && decide (1 ≤ l) && decide (l ≤ 4096) &&
    decide (h + l ≤ d)

/-- A direct write of a trajectory register is accepted (R140). -/
def trjOk (g : Fin 48) (o n : Nat) (s : State) : Bool :=
  let at_ := fun r => if r = o then n else rdN s r
  idleOrOff g s && trjRange (o - stallBase g) n &&
    (if o = R.STALL_TRJ_RUNAHEAD g ∨ o = R.STALL_TRJ_LEAD g then
      runaheadOk (at_ (R.STALL_TRJ_RUNAHEAD g)) (at_ (R.STALL_TRJ_LEAD g))
     else planesOk (at_ (R.STALL_TRJ_CTRL g)) (at_ (R.STALL_FOCUS_PLANES g)))

/-- Begin to verify slots of a stall beside those of a verification under way that the stall still uses (R129). -/
def startVerify (g : Fin 48) (l : List Nat) (s : State) : State :=
  let use := slotsInUse (rdN s (R.STALL_GRID_SEL g)) (rdN s (R.STALL_TRJ_CTRL g))
  put (setStall g (fun x => { x with verify := (x.verify.filter use.contains ++ l).eraseDups }) s)
    (F.STALL_TRJ_STATUS_GRID_STATE g) 1

/-- After an accepted direct write: entries computed in IDLE are planned again (R140). -/
def replanIdle (g : Fin 48) (s : State) : State :=
  if stSt g s = ssIDLE ∨ (stSt g s = ssOFFLINE ∧ ¬ (stall s g).everRun) then restIdle g s else s

def trjRefused (g : Nat) (s : State) : State := setF s (F.STALL_TRJ_FLAGS_CFG_REFUSED g)

/-- TRJ_CONFIG_WRITE: a register of +0x0100 to +0x013C other than GRID_SEL; setting TWO_PLANE verifies the second
slot (R129). -/
def trjConfigWrite (sec : Bool) (g : Fin 48) (o : Nat) (v : Word) (s : State) : State :=
  let a := stallBase g + 0x100 + 4 * (o % 16)
  if a = R.STALL_GRID_SEL g then s
  else cfgWrite sec a v (trjOk g a) (trjRefused g) (fun n s =>
    let two := a == R.STALL_TRJ_CTRL g && bit n 1 && !(flag s (F.STALL_TRJ_CTRL_TWO_PLANE g))
    let s1 := replanIdle g (wrN s a n)
    if two then startVerify g [get s1 (F.STALL_GRID_SEL_PLANE1_SLOT g)] s1 else s1) s

def execTrjConfigWrite (sec : Bool) (g : Fin 48) (o : Nat) (v : Word) (s : State) : Host.Outcome State Fault Refusal :=
  .next (trjConfigWrite sec g o v s)

/-- GRID_SEL_WRITE: accepted in OFFLINE and IDLE, and then verified (R129, R140). -/
def gridSelWrite (sec : Bool) (g : Fin 48) (v : Word) (s : State) : State :=
  cfgWrite sec (R.STALL_GRID_SEL g) v (fun _ s => idleOrOff g s) (trjRefused g) (fun n s =>
    startVerify g (slotsInUse n (rdN s (R.STALL_TRJ_CTRL g))) (replanIdle g (wrN s (R.STALL_GRID_SEL g) n))) s

def execGridSelWrite (sec : Bool) (g : Fin 48) (v : Word) (s : State) : Host.Outcome State Fault Refusal :=
  .next (gridSelWrite sec g v s)

/-- GRID_VERIFICATION: a running verification ends (R129). -/
def gridVerification (g : Fin 48) (s : State) : State :=
  if get s (F.STALL_TRJ_STATUS_GRID_STATE g) = 1 then
    let good := (stall s g).verify.all fun n => gridGood (stableOf g) n s
    let s1 := put (setStall g (fun x => { x with verify := [] }) s) (F.STALL_TRJ_STATUS_GRID_STATE g) (if good then 2 else 3)
    if good then replanIdle g s1 else raise (stableEv (g / 8) 3) s1
  else s

def execGridVerification (g : Fin 48) (s : State) : Host.Outcome State Fault Refusal := .next (gridVerification g s)

/-- GRID_WINDOW_WRITE at a window offset (R129, R152, R153). -/
def gridWindowWrite (sec : Bool) (st : Fin 6) (o : Nat) (v : Word) (s : State) : State :=
  let w := o % 0x10000 / 4 * 4
  let a := 0x290000 + 0x100000 * st.val + w
  let t := get s (F.STB_GRID_WIN_SEL_TARGET st)
  hostWrite sec a (fun s =>
    if t < 16 then
      if 0xD000 ≤ w then s
      else if slotLocked st t s then setF s (F.STB_GRID_WIN_STATUS_REFUSED st)
      else windowWrite sec a st (0xD000 * t + w) v s
    else if t = 16 then
      if (stallsOf st).any (fun g => g.val % 8 == w / 0x2000 && tableLocked g s) then
        setF s (F.STB_GRID_WIN_STATUS_REFUSED st)
      else windowWrite sec a st (0xD0000 + w) v s
    else s) s

def execGridWindowWrite (sec : Bool) (st : Fin 6) (o : Nat) (v : Word) (s : State) : Host.Outcome State Fault Refusal :=
  .next (gridWindowWrite sec st o v s)

/-! ## Gate outputs (R145-R149) -/

def outRefused (g : Nat) (s : State) : State := outFlag (F.STALL_OUT_FLAGS_CFG_REFUSED g) g s

/-- A unit of the farrier: stall g, or bay b as 48 + b (R460). -/
def far (u : Fin 60) (s : State) : FarUnit := s.fars[u.val]
def setFar (u : Fin 60) (f : FarUnit → FarUnit) (s : State) : State := { s with fars := vmod s.fars u f }

/-- The farrier's unit of a stall and of a bay. -/
def stallUnit (g : Fin 48) : Fin 60 := ⟨g.val, by omega⟩
def bayUnit (b : Fin 12) : Fin 60 := ⟨48 + b.val, by omega⟩

/-- GATE_TRIM takes a value of the host: the farrier stops stepping it (R467). -/
def hostTrim (g : Fin 48) (n : Nat) (s : State) : State :=
  setFar (stallUnit g) (fun x => { x with own := false, cut := x.cut || x.run == some 2 }) (wrN s (R.STALL_GATE_TRIM g) n)

/-- The delays collected for a stall are dropped (R460). -/
def farEmpty (g : Fin 48) (s : State) : State :=
  put (setFar (stallUnit g) (fun x => { x with delays := [], edges := [] }) s) (F.FAR_STALL_INFO_COLLECTED g) 0

def execGateTrimWrite (sec : Bool) (g : Fin 48) (v : Word) (s : State) : Host.Outcome State Fault Refusal :=
  .next (cfgWrite sec (R.STALL_GATE_TRIM g) v (fun _ _ => true) id (hostTrim g) s)

/-- No gate-on time now, no edge on its way to the balls, and none to come up to 2,048 taps after D_GATE (R147). -/
def trimFree (g : Fin 48) (s : State) : Bool :=
  let x := stall s g
  let l := x.cur.toList ++ x.buf.take x.hzn
  let pt := s.mvP * 384 / 10
  !((x.cur.map Entry.gate).getD false) && !(x.balls.any fun q => decide (s.beam * 192 < q.1)) &&
    !(l.zipIdx.any fun p => p.1.edges.any fun e => decide (p.2 * pt + e.2 ≤ 76800 + 2048))

/-- TRIM_APPLIED (R147); a change that is not the farrier's empties its collection (R460). -/
def trimApplied (g : Fin 48) (s : State) : State :=
  if (stSt g s ≠ ssRUN ∨ trimFree g s) ∧ get s (F.STALL_GATE_TRIM_IN_USE g) ≠ get s (F.STALL_GATE_TRIM_TRIM g) then
    let s1 := put s (F.STALL_GATE_TRIM_IN_USE g) (get s (F.STALL_GATE_TRIM_TRIM g))
    if (far (stallUnit g) s).own then s1 else farEmpty g s1
  else s

def execTrimApplied (g : Fin 48) (s : State) : Host.Outcome State Fault Refusal := .next (trimApplied g s)

/-- The gate state at the balls at this tick: D_GATE after the output (R145). -/
def Stall.ballNow (x : Stall) (beam : Nat) : Bool :=
  ((x.balls.takeWhile fun q => decide (q.1 ≤ beam * 192)).getLast?.map Prod.snd).getD x.ballOn

/-- The commanded level at the gate balls, forced off by inhibit (R145, R149, R158). -/
def ballGate (g : Fin 48) (s : State) : Bool :=
  !s.forced && flag s (F.STALL_GATE_CFG_DRIVE g) && (stall s g).ballNow s.beam

/-- The commanded level at the balls differs from `on` at some instant of the microvector (R149). -/
def ballDiffers (g : Fin 48) (on : Bool) (s : State) : Bool :=
  ballGate g s != on || (!s.forced && (stall s g).balls.any fun q =>
    decide (s.beam * 192 < q.1) && decide (q.1 < (s.beam + s.mvP) * 192) && q.2 != on)

/-- The differential level of a gate pair: none while its driver is high-impedance (R146). -/
def pairLevel (g : Fin 48) (s : State) : Option Bool :=
  if flag s (F.STALL_GATE_CFG_DRIVE g) then some (ballGate g s != flag s (F.STALL_GATE_CFG_POL g)) else none

/-- Send out the pairs whose level another command than a tick has changed (R146, R158). -/
def tellPairs (old s : State) : State :=
  forAll 48 (fun g s =>
    if pairLevel g s = pairLevel g old then s else emit (.gatePair g (s.beam * 192) (pairLevel g s)) s) s

/-- GATE_CFG_WRITE: accepted in OFFLINE only (R146). -/
def execGateCfgWrite (sec : Bool) (g : Fin 48) (v : Word) (s : State) : Host.Outcome State Fault Refusal :=
  .next (tellPairs s (cfgWrite sec (R.STALL_GATE_CFG g) v (fun _ s => stSt g s == ssOFFLINE) (outRefused g)
    (fun n s => wrN s (R.STALL_GATE_CFG g) n) s))

/-- OUTPUT_CONFIG_WRITE of PWR_GAIN, PWR_CODE or PWR_ADVANCE (R151). -/
def execOutputConfigWrite (sec : Bool) (g : Fin 48) (r : Fin 3) (v : Word) (s : State) :
    Host.Outcome State Fault Refusal :=
  .next (cfgWrite sec (R.STALL_PWR_GAIN g + 4 * r.val) v (fun _ s => idleOrOff g s) (outRefused g)
    (fun n s => wrN s (R.STALL_PWR_GAIN g + 4 * r.val) n) s)

/-! ## Inhibit sources (R157, R158) -/

/-- The samples that leave more than 100 ns after a source became active carry the idle code: all but the first two of the
microvector (R158). -/
def idleSamples (g : Fin 48) (s : State) : State :=
  let i := idleCode g s
  put (setStall g (fun x => { x with samples := x.samples.take 2 ++ (x.samples.drop 2).map fun _ => (i, false) }) s)
    (F.STALL_OUT_STATUS_LAST_CODE g) i

/-- A stall notes how far its output has come as the gates are forced off (R156, R158). -/
def noteForced (g : Fin 48) (s : State) : State :=
  setStall g (fun x => { x with forcedN := x.lastOut.map fun e => e.after.n }) s

/-- A source becomes active: gates forced off, LSAFE_OK low (R158); the stalls follow at the next tick unless inhibit
was active already (R159). -/
def inhibitOn (i : Nat) (s : State) : State :=
  if bit (get s F.YRD_LSAFE_STATUS_SOURCES) i then s
  else
    let s1 := put s F.YRD_LSAFE_STATUS_SOURCES (get s F.YRD_LSAFE_STATUS_SOURCES + 2 ^ i)
    let s2 := clrF (clrF { s1 with relSince := none } F.YRD_LSAFE_STATUS_RELEASE_WAIT) F.YRD_LSAFE_STATUS_OK
    let s3 := lifeAdd s2 (lifeNo 5 5 i) 1
    if s.forced then s3
    else tellPairs s (forAll 48 idleSamples (forAll 48 noteForced { s3 with forced := true, inhNew := true, inhSince := s.beam }))

/-- A source ends; with none left the release wait begins (R161). -/
def inhibitOff (i : Nat) (s : State) : State :=
  let src := get s F.YRD_LSAFE_STATUS_SOURCES
  if ¬ bit src i then s
  else
    let s1 := put s F.YRD_LSAFE_STATUS_SOURCES (src - 2 ^ i)
    if src = 2 ^ i then setF { s1 with relSince := some s.beam } F.YRD_LSAFE_STATUS_RELEASE_WAIT else s1

/-- The source numbers of R157. -/
def srcINPUT : Nat := 0
def srcDISCREPANCY : Nat := 1
def srcBEACON : Nat := 2
def srcCLOCK : Nat := 3
def srcTHERMAL : Nat := 4
def srcREADBACK : Nat := 5
def srcSOFTWARE : Nat := 6
def srcSECURE : Nat := 7
def srcRESET : Nat := 8

/-- The two inputs agree. -/
def lsafeAgree (s : State) : Bool := get s F.YRD_LSAFE_STATUS_IN_A == get s F.YRD_LSAFE_STATUS_IN_B

/-- Since when the two inputs disagree, where that is not told yet (R160); `was` tells whether they agreed before. -/
def noteDiff (was : Bool) (s : State) : State :=
  if lsafeAgree s then { s with lsDiff := none } else if was then { s with lsDiff := some s.beam } else s

/-- The field of an inhibit input: A, or B. -/
def lsafeIn (b : Bool) : Fld := if b then F.YRD_LSAFE_STATUS_IN_B else F.YRD_LSAFE_STATUS_IN_A

/-- LSAFE_INPUT_LOW: input A (or B) has been low for longer than the filter (R157). -/
def lsafeInputLow (b : Bool) (s : State) : State := inhibitOn srcINPUT (noteDiff (lsafeAgree s) (clrF s (lsafeIn b)))

def execLsafeInputLow (b : Bool) (s : State) : Host.Outcome State Fault Refusal := .next (lsafeInputLow b s)

/-- Both inputs are high. -/
def lsafeHigh (s : State) : Bool := flag s F.YRD_LSAFE_STATUS_IN_A && flag s F.YRD_LSAFE_STATUS_IN_B

/-- LSAFE_INPUT_HIGH: both inputs must stay high through the release wait, which begins anew as they come to it (R157, R161). -/
def lsafeInputHigh (b : Bool) (s : State) : State :=
  let s1 := noteDiff (lsafeAgree s) (setF s (lsafeIn b))
  if lsafeHigh s1 then
    inhibitOff srcINPUT (if lsafeHigh s then s1 else { s1 with relSince := s1.relSince.map fun _ => s1.beam })
  else s1

def execLsafeInputHigh (b : Bool) (s : State) : Host.Outcome State Fault Refusal := .next (lsafeInputHigh b s)

/-- READBACK_MISMATCH: the level read back, `on`, has differed from the commanded one for over 50 ns (R149). -/
def readbackMismatch (g : Fin 48) (on : Bool) (s : State) : State :=
  if ¬ flag s (F.STALL_GATE_CFG_DRIVE g) ∨ ¬ ballDiffers g on s then s
  else
    let d := if on then 1 else 2
    let s1 := addSat (outFlag (F.STALL_OUT_FLAGS_READBACK_MISMATCH g) g s) (R.STALL_READBACK_COUNT g) 1
    let s2 := faultNext g (7 + 256 * d) (setStall g (fun x => { x with pinBad := true }) s1)
    let s3 := raise (stableEv (g / 8) 6) (lifeAdd s2 (lifeNo 5 3 (2 * g + (d - 1))) 1)
    if on then inhibitOn srcREADBACK s3 else s3

def execReadbackMismatch (g : Fin 48) (on : Bool) (s : State) : Host.Outcome State Fault Refusal :=
  .next (readbackMismatch g on s)

/-- LASER_INHIBIT_ASSERTED: step 2 of R159 at T1. -/
def laserInhibitAsserted (s : State) : State :=
  if ¬ s.inhDue then s
  else
    let s1 := wr64 (setF { s with inhDue := false, relTick := false } F.YRD_LSAFE_STATUS_INHIBIT) R.YRD_LSAFE_TIME s.now
    let s2 := raise 40 (addSat (setF s1 F.YRD_LSAFE_FLAGS_ASSERTED) R.YRD_LSAFE_COUNT 1)
    forAll 48 (fun g s =>
      if stSt g s = ssRUN ∧ ¬ flag s (F.STALL_STATE_ABORTING g) then latchSquash g 4 s else s) s2

def execLaserInhibitAsserted (s : State) : Host.Outcome State Fault Refusal := .next (laserInhibitAsserted s)

/-- INHIBIT_STOP_COMPLETE: step 5 of R159. -/
def inhibitStopComplete (g : Fin 48) (s : State) : State :=
  let x := stall s g
  if x.stopping = 2 ∧ x.noEntry ∧ x.buf.isEmpty then lifeAdd (enterFault g 0x0B s) (lifeNo 5 4 g) 1 else s

def execInhibitStopComplete (g : Fin 48) (s : State) : Host.Outcome State Fault Refusal :=
  .next (inhibitStopComplete g s)

/-- LSAFE_DISCREPANCY: the inputs have disagreed for longer than 1 ms (R160); one disagreement acts once. -/
def lsafeDiscrepancy (s : State) : State :=
  match s.lsDiff with
  | some t =>
    if 1000000 < s.beam - t then
      inhibitOn srcDISCREPANCY
        (raise 42 (lifeAdd (setF { s with lsDiff := none } F.YRD_LSAFE_FLAGS_DISCREPANCY_SEEN) (lifeNo 5 6 0) 1))
    else s
  | none => s

def execLsafeDiscrepancy (s : State) : Host.Outcome State Fault Refusal := .next (lsafeDiscrepancy s)

/-- A clear of an inhibit latch: obeyed where `ok` holds, else ignored and told (R160). -/
def latchClear (sec : Bool) (i : Nat) (ok : State → Bool) (s : State) : State :=
  hostWrite sec R.YRD_LSAFE_CLEAR (fun s =>
    if ok s then inhibitOff i s else setF s F.YRD_LSAFE_FLAGS_CLEAR_IGNORED) s

def execClearDiscrepancy (sec : Bool) (s : State) : Host.Outcome State Fault Refusal :=
  .next (latchClear sec srcDISCREPANCY
    (fun s => !(flag s F.YRD_LSAFE_STATUS_IN_A) && !(flag s F.YRD_LSAFE_STATUS_IN_B)) s)

/-- CLEAR_READBACK: `bad` tells whether some driven gate still reads back another level than its commanded one. -/
def clearReadback (sec bad : Bool) (s : State) : State :=
  latchClear sec srcREADBACK (fun _ => !bad)
    (if bad ∨ ¬ accessOk sec R.YRD_LSAFE_CLEAR s then s
     else forAll 48 (fun g s => setStall g (fun x => { x with pinBad := false }) s) s)

def execClearReadback (sec bad : Bool) (s : State) : Host.Outcome State Fault Refusal := .next (clearReadback sec bad s)

/-- A register whose bit 0 is an inhibit source. -/
def inhibitBit (o i : Nat) (v : Word) (s : State) : State :=
  let s1 := wrN s o (v.toNat % 2)
  if v.toNat % 2 = 1 then inhibitOn i s1 else inhibitOff i s1

def execLsafeSwWrite (sec : Bool) (v : Word) (s : State) : Host.Outcome State Fault Refusal :=
  .next (hostWrite sec R.YRD_LSAFE_SW (inhibitBit R.YRD_LSAFE_SW srcSOFTWARE v) s)

def execLsafeSecWrite (sec : Bool) (v : Word) (s : State) : Host.Outcome State Fault Refusal :=
  .next (hostWrite sec R.YRD_LSAFE_SEC (inhibitBit R.YRD_LSAFE_SEC srcSECURE v) s)

/-- LASER_INHIBIT_RELEASED: the release wait is over (R161). -/
def laserInhibitReleased (s : State) : State :=
  match s.relSince with
  | some t =>
    if clampN 1 1000 (rdN s R.YRD_LSAFE_RELEASE % 1024) * 1000000 ≤ s.beam - t ∧ lsafeHigh s then
      let s1 := tellPairs s (clrF { s with relSince := none, forced := false, relTick := true } F.YRD_LSAFE_STATUS_RELEASE_WAIT)
      raise 41 (lifeMax (setF s1 F.YRD_LSAFE_STATUS_OK) (lifeNo 5 7 0) ((s.beam - s.inhSince) / 1000000))
    else s
  | none => s

def execLaserInhibitReleased (s : State) : Host.Outcome State Fault Refusal := .next (laserInhibitReleased s)

end Machine
end Sys2Proof
end

