-- ==== Sys2Proof/Machine/Marshal.lean ====
section
/-!
DEFINITION. Chapter 06: the yard marshal. Footprints (R166-R168), the two rules (R169, R170), conflicts, ranking and
deferrals (R171-R178), its parameters (R179), and seam moves (R180-R187).
-/
namespace Sys2Proof
namespace Machine

/-! ## Parameters (R179) -/

/-- The marshal's parameters: MSH_CTRL, MSH_DMIN, MSH_PLUME, MSH_FLOW, then the d_min floor of every stall. -/
def mshParams (s : State) : List Nat :=
  [rdN s R.YRD_MSH_CTRL, rdN s R.YRD_MSH_DMIN, rdN s R.YRD_MSH_PLUME, rdN s R.YRD_MSH_FLOW] ++
    (List.range 48).map fun g => limDmin g s

/-! ## Footprints (R166-R168) -/

/-- A footprint: slot, machine box, flow box, and the strokes (by key) it belongs to. -/
structure Foot where
  slot : Nat
  x0 : Int
  x1 : Int
  y0 : Int
  y1 : Int
  u0 : Int
  u1 : Int
  w0 : Int
  w1 : Int
  keys : List Nat

/-- The flow coordinates of a spot (R168). -/
def flowOf (flow : Nat) (x y : Int) : Int × Int :=
  let c := sext 16 flow; let n := sext 16 (flow / 2 ^ 16)
  ((x * c + y * n).fdiv 16384, (y * c - x * n).fdiv 16384)

/-- Widen a footprint by a spot. -/
def Foot.add (f : Foot) (flow : Nat) (x y : Int) : Foot :=
  let (u, w) := flowOf flow x y
  { f with x0 := min f.x0 x, x1 := max f.x1 x, y0 := min f.y0 y, y1 := max f.y1 y,
           u0 := min f.u0 u, u1 := max f.u1 u, w0 := min f.w0 w, w1 := max f.w1 w }

/-- A footprint of one spot. -/
def Foot.one (slot flow : Nat) (x y : Int) : Foot :=
  let (u, w) := flowOf flow x y
  ⟨slot, x, x, y, y, u, u, w, w, []⟩

/-- The footprints of entries, each with its slot, in order: a slot's box covers its gate-on entries and the entry after
the last of them only (R166). -/
def footsOf (flow : Nat) : List (Nat × Entry) → List Foot → List Foot
  | [], acc => acc.reverse
  | (k, e) :: rest, acc =>
    if e.wins.isEmpty then footsOf flow rest acc
    else
      let (base, tail) := match acc with
        | f :: t => if f.slot = k then (f, t) else (Foot.one k flow e.px e.py, acc)
        | [] => (Foot.one k flow e.px e.py, [])
      let f1 := base.add flow e.px e.py
      let more := (rest.takeWhile fun p => p.1 == k).any fun p => !p.2.wins.isEmpty
      let f2 := match rest with | (_, n) :: _ => if more then f1 else f1.add flow n.px n.py | [] => f1
      footsOf flow rest ({ f2 with keys := f2.keys ++ e.wins.filter fun q => !f2.keys.contains q } :: tail)

/-- A stall the marshal checks (R167). -/
def checked (g : Fin 48) (s : State) : Bool := stSt g s == ssRUN

/-- The yard time at which entry `i` of the buffer of a running stall will be output. -/
def outTime (i : Nat) (s : State) : Nat := s.now + (i + 1) * s.mvP

/-- A stall's entries with their slots. -/
def slotted (g : Fin 48) (s : State) : List (Nat × Entry) :=
  (stall s g).buf.zipIdx.map fun p => (outTime p.2 s / (16 * s.mvP), p.1)

/-! ## Rules (R169, R170) -/

/-- Separation fails. -/
def sepFail (d : Nat) (a b : Foot) : Bool :=
  let dx := max 0 (max (a.x0 - b.x1) (b.x0 - a.x1))
  let dy := max 0 (max (a.y0 - b.y1) (b.y0 - a.y1))
  decide (dx * dx + dy * dy < (d : Int) * d)

/-- `b` lies in the plume zone of `a`. -/
def inZone (l h : Int) (a b : Foot) : Bool :=
  decide (a.u0 ≤ b.u1) && decide (b.u0 ≤ a.u1 + l) && decide (a.w0 - h ≤ b.w1) && decide (b.w0 ≤ a.w1 + h)

/-- The plume rule fails. -/
def plumeFail (plume : Nat) (a b : Foot) : Bool :=
  let l : Int := 4 * (plume % 2 ^ 16 : Nat); let h : Int := 2 * (plume / 2 ^ 16 : Nat)
  l != 0 && (inZone l h a b || inZone l h b a)

/-- The distance of two stalls under parameters (R169). -/
def sepDist (ps : List Nat) (g h : Nat) : Nat :=
  max (ps.getD 1 0 % 2 ^ 17) (max (ps.getD (4 + g) 0) (ps.getD (4 + h) 0))

/-- Two footprints of stalls `g` and `h` conflict under parameters: separation and plume (R171). -/
def footFail (ps : List Nat) (g h : Nat) (a b : Foot) : Bool × Bool :=
  let guard := bits (ps.getD 0 0) 4 2
  if a.slot ≤ b.slot + guard ∧ b.slot ≤ a.slot + guard then
    (sepFail (sepDist ps g h) a b, plumeFail (ps.getD 2 0) a b)
  else (false, false)

/-! ## Strokes and their ranks (R172) -/

/-- The keys of the strokes of a stall that have not started: their first RUN_IN entry is speculative. -/
def unstarted (x : Stall) : List Nat := (x.buf.drop x.hzn).filterMap fun e => e.first.map Stroke.key

/-- The record of a stroke. -/
def recOf (x : Stall) (key : Nat) : MRec := (x.recs.find? fun r => r.key == key).getD ⟨key, 0, 0, 0, none⟩

/-- Rank keys of a stroke of stall `g` (R172), in order: lower ranks higher. -/
def rankOf (g : Nat) (x : Stall) (key : Nat) : List Nat :=
  let r := recOf x key
  let isl := ((x.items[key - x.ibase]?).map Item.islV).getD 0xFFFFFFFF
  [b2n ((unstarted x).contains key), (match r.eldest with | some _ => 0 | none => 1),
    (match r.eldest with | some t => t | none => 0),
    (match r.eldest with | some _ => 0 | none => isl), (match r.eldest with | some _ => 0 | none => r.origin), g]

/-- Lexicographic order. -/
def lexLt : List Nat → List Nat → Bool
  | a :: l, b :: m => decide (a < b) || (a == b && lexLt l m)
  | _, _ => false

/-- A conflict between stroke `a` of stall `g` and stroke `b` of stall `h`: which rules failed. -/
structure Conflict where
  g : Fin 48
  a : Nat
  h : Fin 48
  b : Nat
  sep : Bool
  plume : Bool

/-- The parameters two started strokes keep: those before the first change since both started (R179). -/
def pairOld (s : State) (q : Nat × Nat × Nat × Nat) : Option (List Nat) :=
  ((s.mshOld.filter fun e => e.2.contains q).getLast?).map Prod.fst

/-- The parameters kept for two strokes, if both have started and keep any (R179). -/
def keptFor (s : State) (g h : Fin 48) (a b : Nat) : Option (List Nat) :=
  if (unstarted (stall s g)).contains a ∨ (unstarted (stall s h)).contains b then none else pairOld s (g.val, a, h.val, b)

/-- The conflicts of two stalls under parameters, among the strokes whose kept parameters are `kept`. -/
def conflictsOf (s : State) (ps : List Nat) (kept : Option (List Nat)) (g h : Fin 48) (fg fh : List Foot) : List Conflict :=
  fg.flatMap fun a => fh.flatMap fun b =>
    let (sp, pl) := footFail ps g h a b
    if ¬ (sp || pl) then []
    else a.keys.flatMap fun ka => b.keys.filterMap fun kb =>
      if keptFor s g h ka kb = kept then some ⟨g, ka, h, kb, sp, pl⟩ else none

/-- The conflicts of the yard under parameters, with the flow frame they name, stalls in ascending order; kept parameters with
EN = 0 check nothing (R179). -/
def conflictsUnder (s : State) (ps : List Nat) (kept : Option (List Nat)) : List Conflict :=
  let feet := if kept.isSome ∧ ¬ bit (ps.getD 0 0) 0 then [] else ((fins 48).filter fun g => checked g s).map fun g => (g, footsOf (ps.getD 3 0) (slotted g s) [])
  feet.flatMap fun p => feet.flatMap fun q => if p.1 < q.1 then conflictsOf s ps kept p.1 q.1 p.2 q.2 else []

/-- Every conflict of the yard: under the present parameters, and for pairs of started strokes that keep older ones, under those
(R167, R179). -/
def allConflicts (s : State) : List Conflict :=
  conflictsUnder s (mshParams s) none ++ (s.mshOld.map Prod.fst).eraseDups.flatMap fun ps => conflictsUnder s ps (some ps)

/-- A conflict in which neither stroke can be deferred (R176). -/
def Conflict.late (c : Conflict) (s : State) : Bool :=
  !(unstarted (stall s c.g)).contains c.a && !(unstarted (stall s c.h)).contains c.b

/-- The losing stall and stroke of a conflict, the other stall, and whether the eldest key decided (R172, R173): between two eldest
strokes it decides even by the stall number. -/
def Conflict.loser (c : Conflict) (s : State) : Fin 48 × Nat × Fin 48 × Bool :=
  let ra := rankOf c.g (stall s c.g) c.a; let rb := rankOf c.h (stall s c.h) c.b
  let byEldest := ra.take 1 == rb.take 1 && (ra.take 3 != rb.take 3 || ra.getD 1 1 == 0)
  if lexLt ra rb then (c.h, c.b, c.g, byEldest) else (c.g, c.a, c.h, byEldest)

/-! ## Verdicts (R173-R178) -/

/-- Records for strokes seen the first time (R172), which the marshal sees in RUN only; those of strokes that are gone are
dropped. -/
def noteStrokes (g : Fin 48) (s : State) : State :=
  setStall g (fun x =>
    let seen := if checked g s then x.buf.zipIdx.filterMap fun p => p.1.first.map fun st => (st.key, outTime p.2 s) else []
    let fresh := seen.filter fun p => !x.recs.any fun r => r.key == p.1
    { x with recs := (x.recs.filter fun r => decide (x.ibase ≤ r.key)) ++ fresh.map fun p => ⟨p.1, p.2, 0, 0, none⟩ }) s

/-- Write MSH_LAST_CONFLICT (R174, R176). -/
def writeConflict (loser winner : Nat) (c : Conflict) (late eldest : Bool) (s : State) : State :=
  wr64 (wrN s R.YRD_MSH_LAST_CONFLICT (loser + 2 ^ 8 * winner + 2 ^ 16 * b2n c.sep + 2 ^ 17 * b2n c.plume +
    2 ^ 18 * b2n late + 2 ^ 19 * b2n eldest)) R.YRD_MSH_LAST_CONFLICT_TIME s.now

/-- One late conflict, told once for a pair of strokes (R176). -/
def lateConflict (s : State) (c : Conflict) : State :=
  let q := (c.g.val, c.a, c.h.val, c.b)
  if s.latePairs.contains q then s
  else
    let s1 := writeConflict (max c.g.val c.h.val) (min c.g.val c.h.val) c true false { s with latePairs := q :: s.latePairs }
    raise 73 (lifeAdd (addSat (setF s1 F.YRD_MSH_FLAGS_LATE_CONFLICT) R.YRD_MSH_LATE_COUNT 1) (lifeNo 6 3 0) 1)

/-- The innermost section whose first stroke a stroke is and whose table entry is OPEN and owned by this stall. -/
def sectionOf (g : Fin 48) (key : Nat) (s : State) : Option (Fin 192) :=
  let x := stall s g
  (((x.items[key - x.ibase]?).map Item.seams).getD []).findSome? fun id =>
    let earlier := (x.items.take (key - x.ibase)).any fun it => it.seams.contains id && !it.skip && (match it.k with
      | .line .. => true | .arc .. => true | _ => false)
    match seamIdx id s with
    | some i => if earlier ∨ (seam s i).st ≠ 1 ∨ (seam s i).owner ≠ g.val then none else some i
    | none => none

/-- The index after a stall's copy of a section. -/
def seamItemEnd (x : Stall) (id : Nat) : Option Nat :=
  ((x.items.zipIdx.filter fun p => p.1.seams.contains id).getLast?).map fun p => x.ibase + p.2 + 1

/-- A stall's horizon has committed an entry derived from a command after a section. -/
def pastSection (g : Fin 48) (id : Nat) (s : State) : Bool :=
  let x := stall s g
  match seamItemEnd x id with
  | some k => ((x.buf.take x.hzn).any fun e => decide (k ≤ e.item)) ||
      (match x.lastOut with | some e => decide (k ≤ e.item) | none => false)
  | none => false

/-- Why a move fails (R185), by the result codes of MSH_SEAM_RESULT; 0 where it may be carried out. -/
def moveFails (id new : Nat) (s : State) : Nat :=
  match seamIdx id s with
  | none => 3
  | some i =>
    let e := seam s i
    if e.st = 2 then 4
    else if e.st ≠ 1 then 3
    else if e.other ≠ new then 6
    else if h : new < 48 then
      let n : Fin 48 := ⟨new, h⟩
      if stSt n s = ssOFFLINE ∨ stSt n s = ssFAULT ∨ flag s (F.STALL_STATE_ABORTING n) then 7
      else if e.xReg ∧ pastSection n id s then 5
      else 0
    else 6

/-- Write MSH_SEAM_RESULT. -/
def seamResult (id result kind : Nat) (s : State) : State :=
  wrN s R.YRD_MSH_SEAM_RESULT (result + 2 ^ 4 * kind + 2 ^ 8 * ((seamIdx id s).map Fin.val).getD 0)

/-- One deferral of a stroke that lost; one that is eldest stays so (R174, R177). -/
def deferStroke (g : Fin 48) (key : Nat) (w : Fin 48) (c : Conflict) (eldest : Bool) (s : State) : State :=
  let step := get s F.YRD_MSH_DEFER_STEP
  let n := (recOf (stall s g) key).defers + 1
  let turns := n == get s F.YRD_MSH_DEFER_ELDEST_AFTER && (recOf (stall s g) key).eldest.isNone
  let s1 := setStall g (fun x => { x with recs := x.recs.map fun r =>
    if r.key = key then
      { r with defers := n, dwell := r.dwell + step, eldest := if turns then some s.now else r.eldest } else r }) s
  let s2 := lifeAdd (lifeAdd (add64 s1 R.YRD_MSH_DEFERRALS 1) (lifeNo 6 0 g) 1) (lifeNo 6 2 g) step
  let s3 := latchSquash g 1 (writeConflict g w c false eldest s2)
  if turns then raise 72 (lifeAdd s3 (lifeNo 6 1 g) 1) else s3

/-- The earliest losing stroke of a stall with the conflict that decided it. -/
def earliestLoss (g : Fin 48) (l : List (Fin 48 × Nat × Fin 48 × Bool × Conflict)) :
    Option (Fin 48 × Nat × Fin 48 × Bool × Conflict) :=
  (l.filter fun p => p.1 == g).foldl (fun b p => match b with
    | none => some p
    | some q => if p.2.1 < q.2.1 then some p else some q) none

/-- A stall's verdict: an automatic move of the section (R185), or a deferral (R173). -/
def verdict (l : List (Fin 48 × Nat × Fin 48 × Bool × Conflict)) (g : Fin 48) (s : State) : State :=
  match earliestLoss g l with
  | none => s
  | some (_, key, w, e, c) =>
    let auto_ := get s F.YRD_MSH_SEAM_CFG_AUTO_DEFERS
    match sectionOf g key s with
    | some i =>
      let d := seam s i
      let other := s.seamReqs.any fun r => r.id == d.id && !r.wait
      if auto_ ≠ 0 ∧ (recOf (stall s g) key).defers = auto_ ∧ d.moves = 0 ∧ (other ∨ moveFails d.id d.other s = 0) then
        if other then s else { s with seamReqs := s.seamReqs ++ [⟨2, d.id, d.other, false⟩] }
      else deferStroke g key w c e s
    | none => deferStroke g key w c e s

/-- The verdict on the stroke at HZN (R175); a stall that is not checked loses no conflict (R167; notes/assumptions/22). -/
def clearHead (l : List (Fin 48 × Nat × Fin 48 × Bool × Conflict)) (g : Fin 48) (s : State) : State :=
  setStall g (fun x => match (x.buf[x.hzn]?).bind Entry.first with
    | some st => { x with cleared := !(l.any fun p => p.1 == g && p.2.1 == st.key) }
    | none => { x with cleared := false }) s

/-- The strokes of a stall, computed or recorded, that have not started. -/
def waitingKeys (x : Stall) : List Nat := unstarted x ++ (x.recs.map MRec.key).filter fun k => decide (x.hplan.k ≤ k)

/-- Show a stall's earliest stroke that has not started, also while a squash has taken its entries (R174). -/
def showMarshal (g : Fin 48) (s : State) : State :=
  let x := stall s g
  match (waitingKeys x).min? with
  | some k =>
    let r := recOf x k
    wrN s (R.YRD_MSH_STALL g) (satN 255 r.defers + 2 ^ 8 * b2n r.eldest.isSome + 2 ^ 12 * satN (2 ^ 20 - 1) r.dwell)
  | none => wrN s (R.YRD_MSH_STALL g) 0

/-! ## Seam moves at step 6 (R185) -/

/-- A move refused (R185, R187). -/
def refuseMove (r : SeamReq) (code : Nat) (s : State) : State :=
  let s1 := raise 74 (lifeAdd (setF (seamResult r.id code r.kind s) F.YRD_MSH_FLAGS_MOVE_REFUSED) (lifeNo 6 5 0) 1)
  if r.kind = 3 then
    match seamIdx r.id s1 with
    | some i => if (seam s1 i).st = 1 then orphanSeam i s1 else s1
    | none => s1
  else s1

/-- Decide one request: with its conditions met it takes effect at the next tick. -/
def decideMove (s : State) (r : SeamReq) : State :=
  let c := moveFails r.id r.new s
  if c = 0 then { s with seamMoves := s.seamMoves ++ [r] } else refuseMove r c s

/-- The requests that act in this tick: for one seam a host request drops the others (R185), and of two host requests the one
written last acts. DESIGN CHOICE (notes/assumptions/192). `seen` holds the seams that have theirs. -/
def actingReqs (seen : List Nat) : List SeamReq → List SeamReq
  | [] => []
  | r :: t =>
    if r.wait || seen.contains r.id || t.any (fun q => q.id == r.id && !q.wait && q.kind == 1) then actingReqs seen t
    else r :: actingReqs (r.id :: seen) t

/-- A rescue that a host request has replaced leaves its section ORPHANED where that request is refused (R185, R187). -/
def loseRescue (s : State) (r : SeamReq) : State :=
  match seamIdx r.id s with
  | some i => if (seam s i).st = 1 ∧ ¬ s.seamMoves.any (fun q => q.id == r.id) then orphanSeam i s else s
  | none => s

def decideMoves (s : State) : State :=
  (s.seamReqs.filter fun r => r.kind == 3 && !r.wait).foldl loseRescue
    ((actingReqs [] s.seamReqs).foldl decideMove { s with seamReqs := s.seamReqs.filter SeamReq.wait })

/-- Withdraw a stall's registrations in entries whose SEAM_HANDOVER is dropped again. -/
def withdraw (g : Fin 48) (l : List Item) (s : State) : State :=
  l.foldl (fun s it => match it.k with
    | .seam id => (match seamIdx id s with
      | some i => setSeam i (fun e => if e.st = 2 then e else if e.owner = g.val then { e with oReg := false }
          else { e with xReg := false }) s
      | none => s)
    | _ => s) s

/-- The plan of a stall that goes on from the first command of a section, of index `k`: with the settings and the programmed point
there, and what is under way of a jump chain before it. -/
def backTo (k : Nat) (p : Plan) : Plan :=
  if p.k ≤ k then p
  else
    let (t, g) := ((p.trail.find? fun e => e.1 == k).map Prod.snd).getD (p.sett, p.gx, p.gy, p.gf)
    let q := { p with
      nxt := none, moves := p.moves.filter (fun m => decide (m.item < k)), k := k, sett := t, gx := g.1, gy := g.2.1,
      gf := g.2.2, trail := p.trail.filter (fun e => decide (e.1 < k)), cnt := 0 }
    if q.moves.isEmpty then { q with ph := if p.ph = 4 ∧ p.n < p.spanEnd then 4 else 0 } else { q with ph := 1, redo := true }

/-- A registered stall follows a change of owner behind its squash (R185): its sequencer parses the section again. The records
of strokes the move does not take from it stay (R172, R174). A stall that stops has nothing to go on with. -/
def followMove (g : Fin 48) (id count : Nat) (own : Bool) (s : State) : State :=
  match sectionStart (stall s g) id with
  | none => s
  | some k =>
    if (stall s g).stopping ≠ 0 then s
    else
      let s2 := withdraw g ((stall s g).items.drop (k - (stall s g).ibase)) s
      setStall g (fun x => { x with
        seq := { x.seq with skip := !own }, plan := backTo k x.plan, hplan := backTo k x.hplan,
        recs := x.recs.filter fun r => decide (r.key < k) || decide (k + count ≤ r.key) }) (unparse g k s2)

/-- Change the owner of a decided move and latch the squash of the stalls that have registered (R185). -/
def carryMove (s : State) (r : SeamReq) : State :=
  match seamIdx r.id s with
  | none => s
  | some i =>
    let e := seam s i
    let s1 := setSeam i (fun d => { d with
      owner := d.other, other := d.owner, oReg := d.xReg, xReg := d.oReg, moves := satN 255 (d.moves + 1) }) s
    let due := fun (n : Nat) (on : Bool) (s : State) => if h : n < 48 then
      (if on then setStall ⟨n, h⟩ (fun x => { x with squashDue := x.squashDue ||| 2 }) s else s) else s
    let s2 := due e.other e.xReg (due e.owner e.oReg s1)
    raise 74 (lifeAdd (addSat (seamResult r.id 2 r.kind s2) R.YRD_MSH_MOVE_COUNT 1) (lifeNo 6 4 r.kind) 1)

/-- The stalls that follow a move, each with the section, its COUNT and whether it becomes the owner. -/
def followers (s : State) (r : SeamReq) : List (Fin 48 × Nat × Nat × Bool) :=
  match seamIdx r.id s with
  | none => []
  | some i =>
    let e := seam s i
    (fins 48).filterMap fun g =>
      if e.oReg ∧ e.owner = g.val then some (g, r.id, e.count, false)
      else if e.xReg ∧ e.other = g.val then some (g, r.id, e.count, true) else none

/-- SEAM_MOVE: the moves decided at step 6 of the last tick take effect at step 3 (R185): one squash of each stall with all
causes latched for it (R19), and then each follows its moves. -/
def seamMove (s : State) : State :=
  let l := s.seamMoves.flatMap (followers s)
  let s1 := s.seamMoves.foldl carryMove { s with seamMoves := [] }
  let s2 := l.foldl (fun s p => squashDueStep p.1 s) s1
  l.foldl (fun s p => followMove p.1 p.2.1 p.2.2.1 p.2.2.2 s) s2

def execSeamMove (s : State) : Host.Outcome State Fault Refusal := .next (seamMove s)

/-- A request of a move by the host (R185); a direct write acts at step 6 of the next tick. -/
def seamMoveWrite (v : Nat) (s : State) : State :=
  let id := v % 2 ^ 32
  seamResult id 1 1 { s with seamReqs := s.seamReqs ++ [⟨1, id, v / 2 ^ 32 % 64, true⟩] }

def execSeamMoveWrite (sec : Bool) (w : Wr64) (s : State) : Host.Outcome State Fault Refusal :=
  .next (hostWrite sec R.YRD_MSH_SEAM_MOVE (withWide R.YRD_MSH_SEAM_MOVE true w seamMoveWrite) s)

/-! ## Entries that leave the table (R187) -/

/-- The other stall's output has passed its copy of a section. -/
def passedCopy (id g : Nat) (s : State) : Bool :=
  if h : g < 48 then
    let x := stall s ⟨g, h⟩
    let at_ := if x.buf.isEmpty then x.plan.k else ((x.lastOut.map Entry.item).getD 0)
    !x.seq.ids.contains id && !(x.items.zipIdx.any fun p => p.1.seams.contains id && decide (at_ ≤ x.ibase + p.2))
  else true

/-- BOUND entries that both stalls have registered and passed are freed (R187). -/
def sweepSeams (s : State) : State :=
  forAll 192 (fun i s =>
    let e := seam s i
    if e.st = 2 ∧ e.oReg ∧ e.xReg ∧ passedCopy e.id e.other s then freeSeam i s else s) s

/-- The layer barrier frees every entry; one with only its non-owner registered is unpaired (R187). -/
def flushSeams (s : State) : State :=
  forAll 192 (fun i s =>
    let e := seam s i
    if e.st = 0 then s
    else
      let s1 := freeSeam i s
      if e.xReg ∧ ¬ e.oReg then raise 74 (lifeAdd (setF s1 F.YRD_MSH_FLAGS_SEAM_UNPAIRED) (lifeNo 6 8 0) 1) else s1) s

/-! ## Step 6 -/

/-- A started stroke has not ended: its first mark is still held, or entries of its commit span are still to come (R110). -/
def strokeLive (x : Stall) (key : Nat) : Bool :=
  (decide (x.ibase ≤ key) && decide (key < x.hplan.k)) ||
    (x.hplan.live ++ (x.lastOut.map fun e => e.after.live).getD []).any fun st => st.key == key

/-- A pair of started strokes of which neither has ended. -/
def pairLive (s : State) (q : Nat × Nat × Nat × Nat) : Bool :=
  (fins 48).all fun g =>
    (g.val != q.1 || strokeLive (stall s g) q.2.1) && (g.val != q.2.2.1 || strokeLive (stall s g) q.2.2.2)

/-- Forget pairs of strokes that have ended (R176, R179). -/
def prunePairs (s : State) : State :=
  { s with
    latePairs := s.latePairs.filter (pairLive s)
    mshOld := (s.mshOld.map fun e => (e.1, e.2.filter (pairLive s))).filter fun e => !e.2.isEmpty }

/-- Step 6 of a tick (R167). -/
def marshalStep (s : State) : State :=
  let s0 := forAll 48 noteStrokes (prunePairs s)
  let cs := if flag s0 F.YRD_MSH_CTRL_EN then allConflicts s0 else []
  let lost := (cs.filter fun c => !c.late s0).map fun c => let (g, k, w, e) := c.loser s0; (g, k, w, e, c)
  let s1 := (cs.filter fun c => c.late s0).foldl lateConflict s0
  let s2 := forAll 48 (verdict lost) (forAll 48 (clearHead lost) s1)
  let s3 := decideMoves s2
  put (forAll 48 showMarshal s3) F.YRD_MSH_STATUS_ELDEST_NOW
    ((fins 48).countP fun g => (waitingKeys (stall s3 g)).any fun k => (recOf (stall s3 g) k).eldest.isSome)

/-! ## Parameter writes (R179) -/

/-- The strokes of a stall that have started and not ended. -/
def startedKeys (x : Stall) : List Nat :=
  ((x.hplan.live.map Stroke.key) ++ (x.buf.take x.hzn).flatMap fun e => e.last.map Stroke.key).eraseDups

/-- All pairs of started strokes of different stalls. -/
def startedPairs (s : State) : List (Nat × Nat × Nat × Nat) :=
  (fins 48).flatMap fun (g : Fin 48) => (fins 48).flatMap fun (h : Fin 48) =>
    if g < h ∧ stSt g s = ssRUN ∧ stSt h s = ssRUN then
      (startedKeys (stall s g)).flatMap fun a => (startedKeys (stall s h)).map fun b => (g.val, a, h.val, b)
    else []

/-- Keep the present parameters for the pairs of started strokes (R179). -/
def keepParams (s : State) : State :=
  let l := startedPairs s
  if l.isEmpty then s else { s with mshOld := (mshParams s, l) :: s.mshOld }

/-- A value of a marshal register is in range (R179): CTRL, DMIN, PLUME, FLOW, DEFER, SEAM_CFG. -/
def marshalRange (o n : Nat) (s : State) : Bool :=
  if o = R.YRD_MSH_CTRL then bit n 0 || (List.range 48).all fun g => limDmin g s == 0
  else if o = R.YRD_MSH_DMIN then decide (1000 ≤ n) && decide (n ≤ 100000)
  else if o = R.YRD_MSH_FLOW then
    let c := sext 16 n; let d := sext 16 (n / 2 ^ 16)
    decide ((c * c + d * d - 2 ^ 28).natAbs ≤ 2 ^ 21)
  else if o = R.YRD_MSH_DEFER then decide (16 ≤ bits n 0 12) && decide (1 ≤ bits n 16 8)
  else true

/-- MARSHAL_CONFIG_WRITE (R179). -/
def execMarshalConfigWrite (sec : Bool) (r : Fin 6) (v : Word) (s : State) : Host.Outcome State Fault Refusal :=
  let o := R.YRD_MSH_CTRL + 4 * r.val
  .next (cfgWrite sec o v (fun n s => allQuiet s && marshalRange o n s)
    (fun s => raise 74 (setF s F.YRD_MSH_FLAGS_CFG_REFUSED)) (fun n s => wrN s o n) s)

end Machine
end Sys2Proof
end

