-- ==== Sys2Proof/Machine/Cle.lean ====
section
/-!
DEFINITION. Chapter 07: the closed-loop engines. Coefficients and exact arithmetic (R192-R198), photodiode bins
(R199-R201), the energy loop (R202-R211), the galvanometer servo (R212-R219) and CLE_LOAD (R220).
-/
namespace Sys2Proof
namespace Machine

/-! ## Arithmetic (R192, R195-R198) -/

/-- A coefficient: VALUE and SHIFT. -/
structure Coef where
  value : Int
  shift : Nat

/-- A term of a loop: the exact product, rounded half up and shifted. -/
def Coef.mul (c : Coef) (x : Int) : Int :=
  (c.value * x + (if c.shift = 0 then 0 else 2 ^ (c.shift - 1))).fdiv (2 ^ c.shift)

/-- The sum of terms, left to right, in an accumulator that saturates after every addition. -/
def accSum (l : List Int) : Int := l.foldl (fun a t => clampI (-(2 ^ 63)) (2 ^ 63 - 1) (a + t)) 0

/-- Reduce a value to 32 bits. -/
def sat32 (a : Int) : Int := clampI (-(2 ^ 31)) (2 ^ 31 - 1) a

/-- How many of the values that were reduced were clipped. -/
def clips (l : List Int) : Nat := l.countP fun a => sat32 a != a

/-- Slot `k` of the coefficient set at a loft offset (R196). -/
def coefAt (m : Mem) (base k : Nat) : Coef := ⟨sext 32 (memLe m (base + 8 * k) 4), memLe m (base + 8 * k + 4) 1 % 32⟩

/-- A limit slot: VALUE only; a negative one acts as 0 (R196). -/
def Coef.limit (c : Coef) : Int := max 0 c.value

/-- The loft offset of an energy bank of a stall (R195). -/
def bankOff (g b : Nat) : Nat := 0xE0000 + 0x200 * (2 * (g % 8) + b)

/-- The loft offset of a servo set of a stall (R195). -/
def servoOff (g a : Nat) : Nat := 0xE2000 + 0x100 * (3 * (g % 8) + a)

/-- Count clipped values of a stable (R192). -/
def countClips (st n : Nat) (s : State) : State :=
  if n = 0 then s
  else setF (lifeAdd (addW s (R.CLE_SATURATIONS st) n) (lifeNo 7 9 st) n) (F.CLE_FLAGS_SAT32 st)

/-! ## The energy law (R202) -/

/-- What an evaluation of the law gives: y, e, ef, kp_raw, kp, ks_raw, the loop state i, u, v, and the clipped values. -/
structure EnergyOut where
  y : Int
  e : Int
  kpRaw : Int
  kp : Int
  ks : Int
  i : Int
  u : Int
  v : Int
  clipped : Nat

/-- The registers the law reads. -/
structure EnergyRegs where
  pmin : Int
  pmax : Int
  pslew : Int
  speed : Bool
  smin : Int
  smax : Int

/-- One evaluation: bank `k`, channel values `yc`, entry power, feature (none where not valid), `kp` before it. -/
def energyLaw (k : Nat → Coef) (x : Eng) (yc : List Nat) (power : Nat) (feat : Option Int) (r : EnergyRegs) (kp0 : Int) :
    EnergyOut :=
  let yr := accSum ((List.range 4).map (fun c => (k c).mul (yc.getD c 0)) ++ [(k 4).mul 1])
  let y := sat32 yr
  let rr := (k 5).mul power
  let er := sat32 rr - y
  let e := sat32 er
  let efr := match feat with | some f => accSum [(k 6).mul 1, -((k 7).mul f)] | none => 0
  let ef := sat32 efr
  let u0 := accSum [(k 8).mul e, (k 9).mul x.e1, (k 10).mul x.e2, -((k 11).mul x.u1), -((k 12).mul x.u2), (k 13).mul ef]
  let di := (k 14).mul e
  let ar := accSum [u0, x.i]
  let kr := accSum [16384, (k 16).mul (sat32 ar)]
  let kpr := sat32 kr
  let hold := (r.pmax < kpr ∧ 0 < (k 16).value * di) ∨ (kpr < r.pmin ∧ (k 16).value * di < 0)
  let ir := accSum [x.i, di]
  let lim := (k 15).limit
  let i := if hold then x.i else min lim (max (-lim) (sat32 ir))
  let ur := accSum [u0, i]
  let u := sat32 ur
  let qr := accSum [16384, (k 16).mul u]
  let q := sat32 qr
  let kp := min r.pmax (max r.pmin (kp0 + min r.pslew (max (-r.pslew) (q - kp0))))
  let xr := accSum [(k 17).mul (kp - 16384), (k 18).mul ef]
  let dr := sat32 xr - x.v
  let vr := accSum [x.v, (k 19).mul (sat32 dr)]
  let v := if r.speed then sat32 vr else x.v
  let ks := if r.speed then min r.smax (max r.smin (16384 - (k 20).mul v)) else 16384
  ⟨y, e, q, kp, ks, i, u, v,
    clips ([yr, rr, er, efr, ar, kr, ur, qr] ++ (if hold then [] else [ir]) ++ (if r.speed then [xr, dr, vr] else []))⟩

/-! ## Delivering a speed factor (R204, R205) -/

/-- Deliver a speed factor: the SPEED cause of a squash at the next tick, up to which plans use the factor before it. -/
def deliverKs (g : Fin 48) (v : Nat) (s : State) : State :=
  let s0 := setStall g (fun x =>
    if bit x.squashNew 0 then x else { x with kOld := get s (F.STALL_TRJ_FACTORS_K_SPEED g) }) s
  let s1 := put (put s0 (F.ENG_OUT_KS g) v) (F.STALL_TRJ_FACTORS_K_SPEED g) v
  let s2 := lifeAdd (addW s1 (R.ENG_DELIVERIES g) 1) (lifeNo 7 0 g) 1
  latchSquash g 0 (setEng g (fun x => { x with lastDel := some s.beam, ksPend := none, back := false }) s2)

/-- The stall may take a speed factor. -/
def maySpeed (g : Nat) (s : State) : Bool := stSt g s == ssRUN && !(flag s (F.STALL_STATE_ABORTING g))

/-- A factor that waits for the stall to run is delivered at the first tick at which it may (R205); a stall takes at most one
delivery per tick (R204). -/
def deliverPend (g : Fin 48) (s : State) : State :=
  match (eng s g).ksPend with
  | some v => if maySpeed g s ∧ (eng s g).lastDel ≠ some s.beam then deliverKs g v s else s
  | none => s

/-- The delivery at the end of an active bin's evaluation (R204). -/
def deliverSpeed (g : Fin 48) (raw : Int) (s : State) : State :=
  let d := rdEff (R.ENG_DELIVER g) s
  let ks : Int := get s (F.ENG_OUT_KS g)
  let slew : Int := rdEff (R.ENG_SLEW g) s / 2 ^ 16
  let free_ : Bool := match (eng s g).lastDel with
    | some t => decide (bits d 16 12 ≤ (s.beam - t) / s.mvP)
    | none => true
  if bit (rdEff (R.ENG_CFG g) s) 1 ∧ maySpeed g s ∧ bits d 0 12 ≤ (raw - ks).natAbs ∧ free_ then
    deliverKs g (ks + min slew (max (-slew) (raw - ks))).toNat s
  else s

/-! ## Energy-loop faults (R207) -/

/-- A loop that stops with the factor `ks` delivered returns it to 16,384 (R205). -/
def Eng.return (ks : Nat) (x : Eng) : Eng :=
  { x with ksPend := if ks = 16384 then none else some 16384, back := decide (ks ≠ 16384) }

/-- An energy-loop fault: the loop opens, and the stall faults where its detail asks for it. -/
def energyFault (g : Fin 48) (d : Nat) (s : State) : State :=
  let act := decide (3 < d) || bit (rdEff (R.ENG_FAULT_CFG g) s) (d - 1)
  let s1 := raise (stableEv (g / 8) 4) (lifeAdd (put s (F.ENG_STATUS_FAULT_DETAIL g) d) (lifeNo 7 3 (8 * g + d)) 1)
  let s2 := put s1 (F.ENG_STATUS_LOOP g) 2
  if act then
    let s3 := setEng g (fun x => { x with kept := true }) s2
    if stSt g s = ssOFFLINE ∨ stSt g s = ssFAULT then s3 else faultNext g 0x0A s3
  else setEng g (Eng.return (get s (F.ENG_OUT_KS g))) s2

/-- The first of the fault counts that has reached COUNT. -/
def energyCount (g : Fin 48) (s : State) : Nat :=
  let n := bits (rdEff (R.ENG_FAULT_CFG g) s) 4 12
  let x := eng s g
  if n ≤ x.noEmit then 1 else if n ≤ x.satur then 2 else if n ≤ x.missing then 3 else 0

/-- Fault where a count has reached its limit and the loop is running. -/
def energyCheck (g : Fin 48) (s : State) : State :=
  let d := energyCount g s
  if d ≠ 0 ∧ get s (F.ENG_STATUS_LOOP g) = 1 then energyFault g d s else s

/-! ## Photodiode bins and their evaluation (R199-R203, R208) -/

/-- The feature is valid at this evaluation (R206). -/
def featValid (g : Fin 48) (s : State) : Bool :=
  let age := rdEff (R.ENG_FAULT_CFG g) s / 2 ^ 16
  age != 0 && (match (eng s g).feat with | some t => decide (s.now - t ≤ age * 1000) | none => false)

/-- Every expected sample of every enabled channel has arrived. -/
def Bin.complete (b : Bin) : Bool := (List.range 4).all fun c => !(bit b.chans c) || b.got.getD c 0 == b.expect

/-- The channel values of a bin (R199). -/
def Bin.values (b : Bin) : List Nat :=
  (List.range 4).map fun c => if bit b.chans c then b.sums.getD c 0 * 20 / b.expect else 0

/-- The instants a bin covers. -/
def Bin.window (b : Bin) : Nat × Nat := (b.t + b.align * 100, b.t + b.align * 100 + b.expect * 100)

/-- The registers the energy law of a stall reads. -/
def energyRegs (g : Nat) (s : State) : EnergyRegs :=
  let pc := rdEff (R.ENG_PCORR g) s
  let sp := rdEff (R.ENG_SPEED g) s
  ⟨bits pc 0 16, bits pc 16 16, bits (rdEff (R.ENG_SLEW g) s) 0 16, bit (rdEff (R.ENG_CFG g) s) 1, bits sp 0 16,
    bits sp 16 16⟩

/-- KP_AT_LIMIT: an evaluation of this tick had kp_raw out of range (R203). -/
def showLimit (g : Fin 48) (s : State) : State :=
  put s (F.ENG_STATUS_KP_AT_LIMIT g) (b2n ((eng s g).limAt == some s.beam))

/-- An active bin: the law, its outputs, the fault counts and the delivery. -/
def activeBin (g : Fin 48) (b : Bin) (s : State) : State :=
  let x := eng s g
  let r := energyRegs g s
  let valid := featValid g s
  let k := coefAt (loft s (g / 8)) (bankOff g (get s (F.ENG_BANK_ACTIVE g)))
  let o := energyLaw k x b.values b.power (if valid then some (rdI s (R.ENG_FEAT g)) else none) r (get s (F.ENG_OUT_KP g))
  let out_ := decide (o.kpRaw < r.pmin) || decide (r.pmax < o.kpRaw)
  let floor : Int := bits (rdEff (R.ENG_EMIT_FLOOR g) s) 0 24
  let s1 := setEng g (fun x => { x with
    e2 := x.e1, e1 := o.e, u2 := x.u1, u1 := o.u, i := o.i, v := o.v, missing := 0,
    noEmit := if floor ≠ 0 ∧ o.y < floor then x.noEmit + 1 else 0, satur := if out_ then x.satur + 1 else 0 }) s
  let s2 := put (wrI (wrI s1 (R.ENG_Y g) o.y) (R.ENG_E g) o.e) (F.ENG_OUT_KP g) o.kp.toNat
  let s3 := showLimit g (setEng g (fun x => { x with limAt := if out_ then some s.beam else x.limAt })
    (put s2 (F.ENG_STATUS_FEAT_VALID g) (b2n valid)))
  let s4 := energyCheck g (countClips (g / 8) o.clipped (if out_ then lifeAdd s3 (lifeNo 7 1 g) 1 else s3))
  if get s4 (F.ENG_STATUS_LOOP g) = 1 then deliverSpeed g o.ks s4 else s4

/-- The loop's own checks fail: detail ENGINE in every running loop of the stable (R194, R207). -/
def energyEngineFault (st : Fin 6) (s : State) : State :=
  (stallsOf st).foldl (fun s (g : Fin 48) => if get s (F.ENG_STATUS_LOOP g) = 1 then energyFault g 5 s else s) s

/-- The bin of a stall that is due for evaluation. -/
def dueBin (g : Fin 48) (s : State) : Option Bin :=
  match (eng s g).bins with
  | b :: _ => if b.window.2 + 3000 ≤ s.now then some b else none
  | [] => none

/-- A window of a bin evaluated joins those before it. -/
def joinDone (w : Nat × Nat × Nat) : List (Nat × Nat × Nat) → List (Nat × Nat × Nat)
  | d :: t => if d.2.1 = w.1 ∧ d.2.2 = w.2.2 then (d.1, w.2) :: t else w :: d :: t
  | [] => [w]

/-- The swap itself. -/
def swapBank (g : Fin 48) (s : State) : State :=
  let s1 := clrF (put s (F.ENG_BANK_ACTIVE g) (get s (F.ENG_BANK_SEL g))) (F.ENG_BANK_PENDING g)
  let s2 := lifeAdd (addW s1 (R.CLE_BANK_SWAPS (g / 8)) 1) (lifeNo 7 8 (g / 8)) 1
  setEng g (fun x =>
    let y := if flag s (F.ENG_CFG_SWAP_RESET g) then x.clear else x
    { y with swapNew := false, swapDue := false }) s2

/-- BANK_SWAP: at step 4 of the tick after a direct write. -/
def bankSwap (g : Fin 48) (s : State) : State := if (eng s g).swapDue then swapBank g s else s

/-- An error met in the active energy bank of a stall (R195, R222). -/
def bankError (g : Fin 48) (kind : Nat) (s : State) : State :=
  loftError (stableOf g) (0xE0000 + 0x200 * (2 * (g.val % 8) + get s (F.ENG_BANK_ACTIVE g))) 0x200 kind s

/-- The CLE may read the active energy bank of a stall (R449). -/
def bankReads (g : Fin 48) (s : State) : Bool :=
  unitReads 2 (loftAddr (g.val / 8) (0xE0000 + 0x200 * (2 * (g.val % 8) + get s (F.ENG_BANK_ACTIVE g)))) 0x200 s

/-- ENERGY_EVALUATION: the oldest due bin, behind a bank swap and a delivery that are due (R205, R209); `err` is 1 for a
corrected and 4 for an uncorrectable error of a bank read (R222), 5 for a failed self-check, else 0. -/
def energyEvaluation (g : Fin 48) (err : Nat) (s0 : State) : State :=
  match dueBin g s0 with
  | none => s0
  | some b =>
    let s := deliverPend g (bankSwap g s0)
    let s1 := setEng g (fun x => { x with bins := x.bins.drop 1, done := joinDone (b.window.1, b.window.2, b.chans) x.done }) s
    let s2 := put s1 (F.ENG_STATUS_LATENCY g) ((s.now - b.t) / s.mvP)
    let loop := get s (F.ENG_STATUS_LOOP g)
    if ¬ b.cls ∨ loop = 0 then s2
    else if ¬ b.complete then
      energyCheck g (setEng g (fun x => { x with missing := x.missing + 1 })
        (lifeAdd (addW s2 (R.ENG_INVALID g) 1) (lifeNo 7 2 g) 1))
    else if loop ≠ 1 then s2
    else if err = 4 then energyFault g 4 (bankError g 2 s2)
    else if ¬ bankReads g s2 then energyFault g 4 s2
    else if err = 5 then energyEngineFault (stableOf g) s2
    else activeBin g b (if err = 1 then bankError g 1 s2 else s2)

def execEnergyEvaluation (g : Fin 48) (err : Nat) (s : State) : Host.Outcome State Fault Refusal :=
  .next (energyEvaluation g err s)

/-- A sample of a channel joins its bin. -/
def Bin.add (b : Bin) (c v : Nat) : Bin :=
  { b with sums := b.sums.set c (b.sums.getD c 0 + v), got := b.got.set c (b.got.getD c 0 + 1) }

/-- One photodiode sample of a stall's channel, acquired at `t` (R199, R200). -/
def pdSample (g : Fin 48) (t c v : Nat) (s : State) : State :=
  let inside := fun (w : Nat × Nat) => decide (w.1 ≤ t) && decide (t < w.2)
  let x := eng s g
  if x.bins.any fun b => inside b.window && bit b.chans c then
    setEng g (fun x => { x with bins := x.bins.map fun b => if inside b.window ∧ bit b.chans c then b.add c v else b }) s
  else if x.done.any fun d => inside (d.1, d.2.1) && bit d.2.2 c then
    addW s (R.ENG_INVALID g) 1
  else s

/-- A 16-bit superframe number extended to the one nearest to now (R356), as a time. -/
def superTime (super : Nat) (s : State) : Nat :=
  let k := s.now / 4000
  let d := (super + 2 ^ 16 - k % 2 ^ 16) % 2 ^ 16
  4000 * (if d < 2 ^ 15 then k + d else k + d - 2 ^ 16)

/-- A slot's record of a PHOTODIODE frame (R360): its status word and the samples acquired from `t` on, each with four
channels. -/
def pdRecord (g : Fin 48) (t status : Nat) (samples : List (List Nat)) (s : State) : State :=
  samples.zipIdx.foldl (fun s p => (List.range 4).foldl (fun s c =>
    if bit status c then pdSample g (t + 100 * p.2) c (p.1.getD c 0 % 65536) s else s) s) s

/-! ## Camera feature (R206) -/

/-- A feature reaches the stall's loop. -/
def featureDelivery (g : Fin 48) (v : Word) (seq gen : Nat) (s : State) : State :=
  let s1 := put (put (wr s (R.ENG_FEAT g) v) (F.ENG_FEAT_TAG_SEQ g) seq) (F.ENG_FEAT_TAG_GEN g) gen
  setEng g (fun x => { x with feat := some s.now }) s1

def execFeatureDelivery (g : Fin 48) (v : Word) (seq gen : Nat) (s : State) : Host.Outcome State Fault Refusal :=
  .next (featureDelivery g v seq gen s)

/-! ## Banks (R209, R210) -/

/-- A transaction holds a write of SEL that names a bank other than the active one. -/
def selStaged (g b : Nat) (s : State) : Bool :=
  (fins 64).any fun i =>
    let t := txn s i
    t.writes (R.ENG_BANK g) && t.after s (R.ENG_BANK g) % 2 == b

/-- A bank is locked (R210). -/
def bankLocked (g : Fin 48) (b : Nat) (s : State) : Bool :=
  get s (F.ENG_BANK_ACTIVE g) == b || (flag s (F.ENG_BANK_PENDING g) && get s (F.ENG_BANK_SEL g) == b) || selStaged g b s

/-- A CLE_LOAD writes the bank (R220). -/
def bankLoading (g : Fin 48) (b : Nat) (s : State) : Bool :=
  s.cleLoads.any fun l => l.st == g.val / 8 && l.base == bankOff g b

/-- A CLE_LOAD writes one of a stall's servo sets (R220). -/
def servoLoading (g : Fin 48) (s : State) : Bool :=
  s.cleLoads.any fun l => l.st == g.val / 8 && (List.range 3).any fun a => l.base == servoOff g a

/-- BANK_SELECT: a direct write of SEL; the lock of a bank that a CLE_LOAD writes is refused (R220). -/
def bankSelect (g : Fin 48) (v : Word) (s : State) : State :=
  if v.toNat % 2 = get s (F.ENG_BANK_ACTIVE g) then s
  else if bankLoading g (v.toNat % 2) s then setF s (F.CLE_FLAGS_CFG_REFUSED (g / 8))
  else setF (put (setEng g (fun x => { x with swapNew := true }) s) (F.ENG_BANK_SEL g) (v.toNat % 2)) (F.ENG_BANK_PENDING g)

def execBankSelect (sec : Bool) (g : Fin 48) (v : Word) (s : State) : Host.Outcome State Fault Refusal :=
  .next (hostWrite sec (R.ENG_BANK g) (bankSelect g v) s)

def execBankSwap (g : Fin 48) (s : State) : Host.Outcome State Fault Refusal := .next (bankSwap g s)

/-! ## Energy registers (R211) -/

/-- The offsets of the energy registers a host writes, within a stall's block. -/
def engRegOff (r : Fin 7) : Nat :=
  match r with | 0 => 0 | 1 => 8 | 2 => 0xC | 3 => 0x10 | 4 => 0x14 | 5 => 0x18 | 6 => 0x1C

/-- A value of an energy register is in range. -/
def engRange (o n : Nat) : Bool :=
  let a := n % 2 ^ 16
  let b := n / 2 ^ 16
  match o with
  | 8 => decide (a ≤ 16384) && decide (16384 ≤ b) && decide (b ≤ 32767)
  | 0xC => decide (1 ≤ a) && decide (a ≤ 32767) && decide (1 ≤ b) && decide (b ≤ 32767)
  | 0x10 => decide (8192 ≤ a) && decide (a ≤ b) && decide (b ≤ 20480)
  | 0x14 => decide (1 ≤ bits n 0 12) && decide (1 ≤ bits n 16 12)
  | 0x18 => decide (1 ≤ bits n 4 12)
  | _ => true

/-- A value of an energy register is accepted, over `old`. -/
def engOk (g o old n : Nat) (s : State) : Bool := engRange o n && (o != 0 || n / 4 == old / 4 || idleOrOff g s)

def cleRefused (st : Nat) (s : State) : State := setF s (F.CLE_FLAGS_CFG_REFUSED st)

/-- ENERGY_CONFIG_WRITE. -/
def energyConfigWrite (sec : Bool) (g : Fin 48) (r : Fin 7) (v : Word) (s : State) : State :=
  let o := R.ENG_CFG g + engRegOff r
  cfgWrite sec o v (fun n s => engOk g (engRegOff r) (rdN s o) n s) (cleRefused (g / 8))
    (fun n s => wrLater o (BitVec.ofNat 32 n)
      (if r = 0 ∧ ¬ bit n 0 then setEng g (fun x => { x with enOff := true }) s else s)) s

def execEnergyConfigWrite (sec : Bool) (g : Fin 48) (r : Fin 7) (v : Word) (s : State) :
    Host.Outcome State Fault Refusal := .next (energyConfigWrite sec g r v s)

/-- What a new ENG_CFG does when it takes effect: EN set clears the loop state and starts the loop (R211); EN cleared
stops it (R205). EN written to 0 and then to 1 within a tick counts as set (R207). -/
def engEnable (g : Fin 48) (old n : Nat) (s : State) : State :=
  if bit n 0 ∧ (¬ bit old 0 ∨ (eng s g).enOff) then
    put (setEng g (fun x => { x.clear with noEmit := 0, satur := 0, missing := 0, enOff := false, kept := false }) s)
      (F.ENG_STATUS_LOOP g) 1
  else if bit old 0 ∧ ¬ bit n 0 then
    put (setEng g (fun x => { x.return (get s (F.ENG_OUT_KS g)) with enOff := false, kept := false }) s) (F.ENG_STATUS_LOOP g) 0
  else setEng g (fun x => { x with enOff := false }) s

/-- What a new ENG_PCORR does: kp is clamped into the range (R205). -/
def engClampKp (g : Nat) (n : Nat) (s : State) : State :=
  put s (F.ENG_OUT_KP g) (clampN (n % 2 ^ 16) (n / 2 ^ 16) (get s (F.ENG_OUT_KP g)))

/-- What a new ENG_SPEED does: a ks outside the range is delivered clamped, unless a stopped loop returns to 16,384 (R205). -/
def engClampKs (g : Fin 48) (n : Nat) (s : State) : State :=
  let ks := get s (F.ENG_OUT_KS g)
  let c := clampN (n % 2 ^ 16) (n / 2 ^ 16) ks
  if (eng s g).back then s else setEng g (fun x => { x with ksPend := if c = ks then none else some c }) s

/-- The energy registers of a stall and a bank selected directly take effect for step 4 of this tick (R209, R211). -/
def engTick (g : Fin 48) (s : State) : State :=
  let on := fun (o : Nat) (f : Nat → Nat → State → State) (s : State) =>
    match cellGet s.oldRegs o with
    | some old => f old.toNat (rdN s o) s
    | none => s
  on (R.ENG_SPEED g) (fun _ n => engClampKs g n)
    (on (R.ENG_PCORR g) (fun _ n => engClampKp g n) (on (R.ENG_CFG g) (engEnable g)
      (setEng g (fun x => { x with swapDue := x.swapDue || x.swapNew, swapNew := false }) s)))

/-- kp of a stopped loop returns to 16,384 by one PSLEW step per tick (R205); a loop stopped by a fault of its stall
keeps its state (R207). -/
def kpSlew (g : Fin 48) (s : State) : State :=
  let l := get s (F.ENG_STATUS_LOOP g)
  if l = 1 ∨ (eng s g).kept then s
  else
    let kp : Int := get s (F.ENG_OUT_KP g)
    let p : Int := rdEff (R.ENG_SLEW g) s % 2 ^ 16
    put s (F.ENG_OUT_KP g) (kp + min p (max (-p) (16384 - kp))).toNat

/-- Step 4 of a stall: bank swap, evaluation, the return of kp and a waiting delivery. -/
def cleStep (g : Fin 48) (s : State) : State :=
  deliverPend g (kpSlew g (energyEvaluation g 0 (deliverPend g (bankSwap g (showLimit g s)))))

/-! ## The servo (R212-R218) -/

/-- A stall's servo. -/
def srv (s : State) (g : Fin 48) : Srv := s.srvs[g.val]

def setSrv (g : Fin 48) (f : Srv → Srv) (s : State) : State := { s with srvs := vmod s.srvs g f }

/-- The servo state (R212): 0 NONE, 1 OPEN, 2 CLOSING, 3 CLOSED, 4 OPENING. -/
def srvSt (g : Nat) (s : State) : Nat := get s (F.SRV_STATE_STATE g)

/-- Axis `a` of a set-point. -/
def spAxis (p : Int × Int × Int) (a : Nat) : Int := if a = 0 then p.1 else if a = 1 then p.2.1 else p.2.2

/-- Change an axis. -/
def Srv.axis (v : Srv) (a : Fin 3) (f : SrvAxis → SrvAxis) : Srv := { v with axes := vmod v.axes a f }

/-- The servo command in progress in a stable ends, with RESULT done where the register still shows it (R216). -/
def srvCmdDone (g : Fin 48) (s : State) : State :=
  let st := stableOf g
  match s.srvCmd[st.val] with
  | some (t, cmd) =>
    if t = g.val % 8 then
      let s1 := { s with srvCmd := vset s.srvCmd st none }
      if get s (F.CLE_SERVO_CMD_STATUS_STALL st) = t ∧ get s (F.CLE_SERVO_CMD_STATUS_CMD st) = cmd ∧
          get s (F.CLE_SERVO_CMD_STATUS_RESULT st) = 1 then put s1 (F.CLE_SERVO_CMD_STATUS_RESULT st) 0 else s1
    else s
  | none => s

/-- Count a servo fault by detail and axis; one of all three axes counts for each of them, of which R224 says nothing. DESIGN
CHOICE (notes/assumptions/194). -/
def countServo (g : Fin 48) (d a : Nat) (s : State) : State :=
  (if a < 3 then [a] else [0, 1, 2]).foldl (fun s a => lifeAdd s (lifeNo 7 4 (64 * g + 8 * a + d)) 1) s

/-- A servo fault (R218): detail and axis (3 all). -/
def servoFault (g : Fin 48) (d a : Nat) (s : State) : State :=
  let s1 := put (put s (F.SRV_STATE_FAULT_DETAIL g) d) (F.SRV_STATE_FAULT_AXIS g) a
  let s2 := raise (stableEv (g / 8) 5) (countServo g d a s1)
  let s3 := if srvSt g s = 0 then s2
    else srvCmdDone g (setSrv g (fun v => { v with closeReq := false })
      (if d = 5 then put s2 (F.SRV_STATE_STATE g) 0
       else if srvSt g s = 2 ∨ srvSt g s = 3 then put s2 (F.SRV_STATE_STATE g) 4 else s2))
  if d = 5 ∨ stSt g s = ssOFFLINE ∨ stSt g s = ssFAULT then s3 else faultNext g 0x0A s3

/-- What one evaluation of an axis gives. -/
structure ServoOut where
  ax : SrvAxis
  raw : Int
  clipped : Nat

/-- The law of R214 for one axis: set `k`, its set-point, and the limits. -/
def servoLaw (k : Nat → Coef) (x : SrvAxis) (sp lim slew : Int) : ServoOut :=
  let pr := match x.sample with | some r => accSum [(k 0).mul r, (k 1).mul 1] | none => x.pos
  let pos := sat32 pr
  let er := sp - pos
  let e := sat32 er
  let dr := e - x.e1
  let vr := sp - x.sp1
  let ar := sp - 2 * x.sp1 + x.sp2
  let x0 := accSum [(k 2).mul e, (k 5).mul (sat32 dr), (k 6).mul (sat32 vr), (k 7).mul (sat32 ar)]
  let di := (k 3).mul e
  let hold := (lim < x.cRaw1 ∧ 0 < (k 13).value * di) ∨ (x.cRaw1 < -lim ∧ (k 13).value * di < 0)
  let ir := accSum [x.i, di]
  let il := (k 4).limit
  let i := if hold then x.i else min il (max (-il) (sat32 ir))
  let xr := accSum [x0, i]
  let xv := sat32 xr
  let plain := (List.range 5).all fun j => (k (8 + j)).value == 0
  let zr := accSum [(k 8).mul xv, (k 9).mul x.x1, (k 10).mul x.x2, -((k 11).mul x.z1), -((k 12).mul x.z2)]
  let z := if plain then xv else sat32 zr
  let cr := (k 13).mul z
  let raw := sat32 cr
  let c := min lim (max (-lim) (x.c1 + min slew (max (-slew) (raw - x.c1))))
  ⟨{ x with pos := pos, e1 := e, i := i, sp2 := x.sp1, sp1 := sp, x2 := x.x1, x1 := xv, z2 := x.z1, z1 := z, c1 := c,
            cRaw1 := raw, sat := if lim < raw ∨ raw < -lim then x.sat + 1 else 0 },
    raw, clips ([pr, er, dr, vr, ar, xr, cr] ++ (if hold then [] else [ir]) ++ (if plain then [] else [zr]))⟩

/-- An axis before its first evaluation after CLOSE. -/
def SrvAxis.start (x : SrvAxis) (sp : Int) : SrvAxis :=
  { SrvAxis.init with pos := x.pos, sample := x.sample, seen := x.seen, sp1 := sp, sp2 := sp }

/-- Evaluate one axis of a closing or closed loop. -/
def servoAxis (g : Fin 48) (first : Bool) (sp : Int × Int × Int) (a : Fin 3) (s : State) : State :=
  let x0 := (srv s g).axes[a.val]
  let x := if first then x0.start (spAxis sp a) else x0
  let lim : Int := get s (F.SRV_CUR_LIM_CUR_LIM g)
  let o := servoLaw (coefAt (loft s (g / 8)) (servoOff g a)) x (spAxis sp a) lim (get s (F.SRV_CUR_LIM_CUR_SLEW g))
  let gone := x.sample.isNone
  let s1 := setSrv g (fun v => v.axis a fun _ => { o.ax with
    miss := if gone then x.miss + 1 else 0, seen := x.seen || !gone, sample := none }) s
  let s2 := put s1 (F.SRV_CURRENT_C g a) (code 16 o.ax.c1)
  let s3 := if gone then setF (addW s2 (R.SRV_MISSING g) 1) (F.SRV_FLAGS_SAMPLE_MISSING g) else s2
  let s4 := if lim < o.raw ∨ o.raw < -lim then setF s3 (F.SRV_FLAGS_CUR_SATURATED g) else s3
  countClips (g / 8) o.clipped s4

/-- The boundaries of delay between a set-point and the spot (R215). -/
def servoLag (g : Nat) (s : State) : Nat := (get s (F.STALL_TRJ_LAG_LAG g) + 76800) / 153600

/-- The following error of an axis, shown and counted (R215). -/
def followAxis (g : Fin 48) (a : Fin 3) (s : State) : State :=
  let v := srv s g
  let x := v.axes[a.val]
  let sp := spAxis (v.sps.getD (servoLag g s) (0, 0, 0)) a
  let fe := sp - x.pos
  let lim := bits (rdEff (R.SRV_FERR g) s) 0 24
  let s1 := wrI s (R.SRV_FOLLOW g a) fe
  let s2 := if rdN s1 (R.SRV_PEAK_FOLLOW g) < fe.natAbs then wrN s1 (R.SRV_PEAK_FOLLOW g) fe.natAbs else s1
  setSrv g (fun v => v.axis a fun x => { x with ferr := if lim < fe.natAbs then x.ferr + 1 else 0 })
    (lifeMax s2 (lifeNo 7 7 g) fe.natAbs)

/-- The first servo fault an evaluation met: detail and axis (R215, R218). -/
def servoMet (g : Fin 48) (law fol : Bool) (s : State) : Option (Nat × Nat) :=
  let axes := fins 3
  let ax := fun (a : Fin 3) => (srv s g).axes[a.val]
  let n := rdEff (R.SRV_FERR g) s / 2 ^ 24
  let f1 := if fol ∧ n ≠ 0 then axes.find? fun a => decide (n ≤ (ax a).ferr) else none
  let f2 := if law then axes.find? fun a => decide (2 ≤ (ax a).miss) else none
  let f3 := if law then axes.find? fun a => decide (rdN s (R.SRV_SAT_LIM g) % 2 ^ 16 ≤ (ax a).sat) else none
  (f1.map fun a => (1, a.val)) <|> (f2.map fun a => (2, a.val)) <|> (f3.map fun a => (3, a.val))

/-- Boundaries inside BAND on all three axes (R216). -/
def settleCount (g : Fin 48) (sp : Int × Int × Int) (s : State) : State :=
  let ok := (fins 3).all fun a => decide ((spAxis sp a - (srv s g).axes[a.val].pos).natAbs ≤ get s (F.SRV_SETTLE_BAND g))
  setSrv g (fun v => { v with settle := if ok then v.settle + 1 else 0, since := v.since + 1, first := false }) s

/-- Evaluate a closing or closed loop. -/
def servoClosedLoop (g : Fin 48) (s : State) : State :=
  let v := srv s g
  let sp := v.sps.headD (0, 0, 0)
  let closed := srvSt g s == 3
  let s1 := forAll 3 (servoAxis g v.first sp) s
  let s2 := settleCount g sp s1
  let s3 := if closed then forAll 3 (followAxis g) (lifeTime s2 (lifeNo 7 6 g) 4000) else s2
  match servoMet g true closed s3 with
  | some (d, a) => servoFault g d a s3
  | none => s3

/-- An opening loop: every c moves towards 0 by CUR_SLEW (R216). -/
def servoOpening (g : Fin 48) (s : State) : State :=
  let p : Int := get s (F.SRV_CUR_LIM_CUR_SLEW g)
  forAll 3 (fun a s =>
    let c := (srv s g).axes[a.val].c1
    let c' := c + min p (max (-p) (-c))
    put (setSrv g (fun v => v.axis a fun x => { x with c1 := c', sample := none }) s) (F.SRV_CURRENT_C g a) (code 16 c')) s

/-- Clear the counts of large following errors: they are of consecutive checks (R215). -/
def clearFerr (g : Fin 48) (s : State) : State := setSrv g (fun v => { v with axes := v.axes.map fun x => { x with ferr := 0 } }) s

/-- A smart head: the following error of the measured position while the stall is not OFFLINE (R215). -/
def servoSmart (g : Fin 48) (s : State) : State :=
  let s1 := setSrv g (fun v => { v with axes := v.axes.map fun x =>
    { x with pos := x.sample.getD x.pos, seen := x.seen || x.sample.isSome, sample := none } }) s
  if stSt g s = ssOFFLINE ∨ ¬ linkActive g s ∨ ¬ (srv s1 g).axes.toList.all (·.seen) then clearFerr g s1
  else
    let s2 := forAll 3 (followAxis g) s1
    match servoMet g false true s2 with
    | some (d, a) => servoFault g d a (clearFerr g s2)
    | none => s2

/-- An error met in the coefficient set of a servo axis (R195, R218). -/
def servoSetError (g : Fin 48) (a : Fin 3) (kind : Nat) (s : State) : State :=
  loftError (stableOf g) (0xE2000 + 0x100 * (3 * (g.val % 8) + a.val)) 0x100 kind s

/-- An axis whose coefficient set the CLE may not read (R449). -/
def setRefused (g : Fin 48) (s : State) : Option (Fin 3) :=
  (fins 3).find? fun (a : Fin 3) => !(unitReads 2 (loftAddr (g.val / 8) (0xE2000 + 0x100 * (3 * (g.val % 8) + a.val))) 0x100 s)

/-- The evaluation of one stall at a boundary, with an error of its engine if one is met (R214, R218). -/
def servoStall (errs : List (Fin 48 × Fin 3 × Nat)) (g : Fin 48) (s : State) : State :=
  let st := srvSt g s
  if st = 2 ∨ st = 3 then
    match errs.find? fun e => e.1 == g with
    | some (_, a, d) =>
      if d = 6 then servoFault g 6 a (servoSetError g a 2 s)
      else if d = 7 then servoFault g 7 3 s
      else servoClosedLoop g (if d = 1 then servoSetError g a 1 s else s)
    | none =>
      match setRefused g s with
      | some a => servoFault g 6 a s
      | none => servoClosedLoop g s
  else if st = 4 then servoOpening g s
  else if flag s (F.SRV_STATE_HEAD_BARE g) then
    setSrv g (fun v => { v with axes := v.axes.map fun x => { x with seen := x.seen || x.sample.isSome, sample := none } }) s
  else servoSmart g s

/-- SERVO_EVALUATION: the law of every stall at the last boundary B_k, once and not before B_k + 3 µs (R213); `errs` names stalls
whose evaluation meets a corrected (1) or an uncorrectable coefficient (6) or a failed self-check (7). -/
def servoEvaluation (errs : List (Fin 48 × Fin 3 × Nat)) (s : State) : State :=
  let k := s.now / 4000
  if s.boundary ≤ k ∧ 3000 < s.now % 4000 + s.mvP then forAll 48 (servoStall errs) { s with boundary := k + 1 } else s

def execServoEvaluation (errs : List (Fin 48 × Fin 3 × Nat)) (s : State) : Host.Outcome State Fault Refusal :=
  .next (servoEvaluation errs s)

/-- SERVO_CLOSED: 64 consecutive boundaries inside BAND (R216). -/
def servoClosed (g : Fin 48) (s : State) : State :=
  if srvSt g s = 2 ∧ 64 ≤ (srv s g).settle then
    srvCmdDone g (lifeAdd (addW (put s (F.SRV_STATE_STATE g) 3) (R.SRV_CLOSES g) 1) (lifeNo 7 5 g) 1)
  else s

def execServoClosed (g : Fin 48) (s : State) : Host.Outcome State Fault Refusal := .next (servoClosed g s)

/-- CLOSE_TIMEOUT: 25,000 boundaries have passed first (R216). -/
def closeTimeout (g : Fin 48) (s : State) : State :=
  if srvSt g s = 2 ∧ 25000 ≤ (srv s g).since ∧ (srv s g).settle < 64 then servoFault g 4 3 s else s

def execCloseTimeout (g : Fin 48) (s : State) : Host.Outcome State Fault Refusal := .next (closeTimeout g s)

/-- SERVO_OPENED: c is 0 on all axes (R216). -/
def servoOpened (g : Fin 48) (s : State) : State :=
  if srvSt g s = 4 ∧ (srv s g).axes.toList.all (fun x => x.c1 == 0) then
    srvCmdDone g (put s (F.SRV_STATE_STATE g) 1)
  else s

def execServoOpened (g : Fin 48) (s : State) : Host.Outcome State Fault Refusal := .next (servoOpened g s)

/-- A servo boundary begins: the set-points of the entries output, and a CLOSE that waited (R213, R216). -/
def servoBoundary (g : Fin 48) (s : State) : State :=
  let p := setpoint g s
  let s1 := setSrv g (fun v => { v with sps := (p :: v.sps).take 128 }) s
  if (srv s g).closeReq ∧ srvSt g s = 1 then
    put (setSrv g (fun v => { v with closeReq := false, first := true, settle := 0, since := 0 }) s1) (F.SRV_STATE_STATE g) 2
  else s1

/-- The coil record of a slot (R359). -/
def coilRecord (g : Fin 48) (s : State) : Nat :=
  let st := srvSt g s
  let c := fun (a : Nat) => if st = 1 then 0 else code 16 (((srv s g).axes.toList.map SrvAxis.c1).getD a 0)
  c 0 + 2 ^ 16 * c 1 + 2 ^ 32 * c 2 + 2 ^ 48 * b2n (st == 1)

/-- The COIL frame of a bay, directly behind the SETPOINT frame of the tick (R359, R363). -/
def coilFrame (b : Nat) (s : State) : State :=
  let l := (List.range 4).filterMap fun k => match slotStall b k s with
    | some g => if h : g < 48 then (if srvSt g s = 0 then none else some (k, (⟨g, h⟩ : Fin 48))) else none
    | none => none
  let d := (setpointData b s).length
  let at_ := wordTime (setpointWord s + (if d = 0 then 0 else d + 1)) s
  if bayActive b s ∧ ¬ l.isEmpty then
    sendFrame b (some at_)
      (frameBlocks 2 (slotMask (l.map Prod.fst)) 0 (s.now / 4000) (l.map fun p => coilRecord p.2 s)) s
  else s

/-! ## Servo commands (R216) -/

/-- Stall `t` of a stable. -/
def stallOf (st : Fin 6) (t : Fin 8) : Fin 48 := ⟨8 * st.val + t.val, by omega⟩

/-- Why a servo command is refused, or 0. -/
def servoRefusal (st : Fin 6) (g : Fin 48) (cmd : Nat) (s : State) : Nat :=
  let v := srvSt g s
  let q := stSt g s
  if s.srvCmd[st.val].isSome ∨ (cmd = 1 ∧ servoLoading g s) then 5
  else if v = 0 then 4
  else if cmd = 1 then (if v ≠ 1 then 2 else if q ≠ ssIDLE then 3 else 0)
  else if v ≠ 2 ∧ v ≠ 3 then 2
  else if q = ssOFFLINE ∨ q = ssIDLE ∨ q = ssFAULT then 0 else 3

/-- Show a command and its result. -/
def servoShow (st t cmd r : Nat) (s : State) : State :=
  put (put (put s (F.CLE_SERVO_CMD_STATUS_STALL st) t) (F.CLE_SERVO_CMD_STATUS_CMD st) cmd) (F.CLE_SERVO_CMD_STATUS_RESULT st) r

/-- A servo command. -/
def servoCommand (st : Fin 6) (t : Fin 8) (cmd : Nat) (s : State) : State :=
  let g := stallOf st t
  let r := servoRefusal st g cmd s
  if r ≠ 0 then setF (servoShow st t cmd r s) (F.CLE_FLAGS_SERVO_CMD_REFUSED st)
  else
    let s1 := servoShow st t cmd 1 { s with srvCmd := vset s.srvCmd st (some (t.val, cmd)) }
    if cmd = 1 then
      put (clrF (setSrv g (fun v => { v with closeReq := true }) s1) (F.SRV_STATE_FAULT_DETAIL g)) (F.SRV_STATE_FAULT_AXIS g) 7
    else put s1 (F.SRV_STATE_STATE g) 4

def execServoClose (sec : Bool) (st : Fin 6) (t : Fin 8) (s : State) : Host.Outcome State Fault Refusal :=
  .next (hostWrite sec (R.CLE_SERVO_CMD st) (servoCommand st t 1) s)

def execServoOpen (sec : Bool) (st : Fin 6) (t : Fin 8) (s : State) : Host.Outcome State Fault Refusal :=
  .next (hostWrite sec (R.CLE_SERVO_CMD st) (servoCommand st t 2) s)

/-- Clearing a STABLE_EN bit opens the stable's loops (R216). -/
def openLoops (st : Fin 6) (s : State) : State :=
  (stallsOf st).foldl (fun s g =>
    let s1 := if (srv s g).closeReq then srvCmdDone g (setSrv g (fun v => { v with closeReq := false }) s) else s
    if srvSt g s = 2 ∨ srvSt g s = 3 then srvCmdDone g (put s1 (F.SRV_STATE_STATE g) 4) else s1) s

/-- No loop of a stable is closing, closed or opening (R216). -/
def loopsOpen (st : Fin 6) (s : State) : Bool := (stallsOf st).all fun g => decide (srvSt g s ≤ 1)

/-! ## Servo registers and the coefficient window (R195, R219) -/

/-- A servo set and the servo parameters of a stall may change (R219). -/
def servoFree (g : Nat) (s : State) : Bool := decide (srvSt g s ≤ 1)

/-- A value of a servo register is in range: 0 CUR_LIM, 1 FERR, 2 SETTLE, 3 SAT_LIM. -/
def srvRange (r n : Nat) : Bool :=
  match r with
  | 0 => decide (1 ≤ n % 2 ^ 16) && decide (n % 2 ^ 16 ≤ 32767) && decide (1 ≤ n / 2 ^ 16) && decide (n / 2 ^ 16 ≤ 32767)
  | 3 => decide (1 ≤ n % 2 ^ 16)
  | _ => true

/-- SERVO_CONFIG_WRITE. -/
def servoConfigWrite (sec : Bool) (g : Fin 48) (r : Fin 4) (v : Word) (s : State) : State :=
  let o := R.SRV_CUR_LIM g + 4 * r.val
  cfgWrite sec o v (fun n s => srvRange r n && (r == 1 || servoFree g s)) (cleRefused (g / 8))
    (fun n s => if r = 1 then wrLater o (BitVec.ofNat 32 n) s else wrN s o n) s

def execServoConfigWrite (sec : Bool) (g : Fin 48) (r : Fin 4) (v : Word) (s : State) :
    Host.Outcome State Fault Refusal := .next (servoConfigWrite sec g r v s)

/-- A coefficient offset in the CLE window may be written now (R195, R210, R219). -/
def coefOpen (st : Fin 6) (w : Nat) (s : State) : Bool :=
  if w < 0x2000 then !(bankLocked (stallOf st ⟨w / 0x400 % 8, by omega⟩) (w / 0x200 % 2) s)
  else if w < 0x3800 then servoFree (8 * st.val + (w - 0x2000) / 0x300) s
  else false

/-- COEFFICIENT_WINDOW_WRITE at a window offset; a part that the Region Table closes to the writer follows R9 (R195). -/
def coefficientWindowWrite (sec : Bool) (st : Fin 6) (o : Nat) (v : Word) (s : State) : State :=
  let w := o % 0x8000 / 4 * 4
  let a := cleBase st + 0x4000 + w
  hostWrite sec a (fun s =>
    if coefOpen st w s ∨ ¬ rangeOk sec (loftAddr st (0xE0000 + w)) 4 s then windowWrite sec a st (0xE0000 + w) v s
    else setF s (F.CLE_FLAGS_COEF_REFUSED st)) s

def execCoefficientWindowWrite (sec : Bool) (st : Fin 6) (o : Nat) (v : Word) (s : State) :
    Host.Outcome State Fault Refusal := .next (coefficientWindowWrite sec st o v s)

/-! ## CLE_LOAD (R220) -/

/-- The loft offset and size of a CLE_LOAD target. -/
def cleTarget (t : Nat) : Option (Nat × Nat) :=
  if t < 0x10 then some (0xE0000 + 0x200 * t, 0x200)
  else if t < 0x28 then some (0xE2000 + 0x100 * (t - 0x10), 0x100) else none

/-- CLE_LOAD, with the checks in the order of R220. The load runs from its command to the next tick. DESIGN CHOICE
(notes/assumptions/193). -/
def opCleLoad (c : Fin 256) (r : DmaIn) (d : Desc) (s : State) : State :=
  let st := d.at 20 1
  let off := d.at 22 2
  match cleTarget (d.at 21 1) with
  | none => formatZero c d.seq s
  | some (base, size) =>
    if h : st < 6 then
      let a := base + off
      if d.len = 0 ∨ d.len % 8 ≠ 0 ∨ off % 8 ≠ 0 ∨ size < off + d.len ∨ d.at 24 40 ≠ 0 then formatZero c d.seq s
      else blockCheck c d.seq (32 + st) (0x200000 + 0x100000 * st) (fun s =>
        if ¬ stableEn st s then complete c d.seq stINTERLOCK none none false s
        else if ¬ rangeOk (ctxSecure c) (loftAddr st a) d.len s then
          complete c d.seq stWORLD_FAULT none none false (worldFault 2 c.val true 0xFF (loftAddr st a) s)
        else if ¬ coefOpen ⟨st, h⟩ (base - 0xE0000) s then complete c d.seq stBUSY none none false s
        else withPayload c d.seq r (fun bs s =>
          { s with cleLoads := s.cleLoads ++ [⟨c.val, d.seq, st, base, a, (bs ++ List.replicate d.len 0#8).take d.len⟩] }) s) s
    else formatZero c d.seq s

def execCleLoad (c : Fin 256) (r : DmaIn) (s : State) : Host.Outcome State Fault Refusal :=
  .next (withDesc c 0x78 (opCleLoad c r) s)

/-- A CLE_LOAD has written its range and completes (R220). -/
def cleLoadEnd (s : State) (l : CleLoad) : State :=
  if h : l.st < 6 ∧ l.ctx < 256 then
    complete ⟨l.ctx, h.2⟩ l.seq stOK (some l.bytes.length) (some 0) false (loftWrite ⟨l.st, h.1⟩ l.at_ l.bytes s)
  else s

/-- The CLE_LOADs that run end at a tick, in their order. -/
def cleLoadsEnd (s : State) : State := s.cleLoads.foldl cleLoadEnd { s with cleLoads := [] }

/-- The loop-state words of a stall (R195). -/
def loopWords (g : Fin 48) (s : State) : List Nat :=
  let x := eng s g
  let v := srv s g
  [code 32 x.i, code 32 x.e1, code 32 x.e2, code 32 x.u1, code 32 x.u2, code 32 x.v, get s (F.ENG_OUT_KP g),
    get s (F.ENG_OUT_KS g)] ++
    v.axes.toList.flatMap fun a => [a.pos, a.e1, a.i, a.sp1, a.sp2, a.x1, a.x2, a.z1, a.z2, a.c1, a.cRaw1].map (code 32)

/-- The word of a stable's loop-state part at its byte offset (R195). -/
def loopWordAt (st : Fin 6) (o : Nat) (s : State) : Nat :=
  let l := loopWords (stallOf st (Fin.ofNat 8 (o / 0x200))) s
  let k := o % 0x200
  if k < 0x20 then l.getD (k / 4) 0
  else if 0x40 ≤ k ∧ k < 0x100 ∧ k % 0x40 < 0x2C then l.getD (8 + 11 * (k / 0x40 - 1) + k % 0x40 / 4) 0 else 0

/-- Bytes of a loft as a read shows them: the loop-state part holds the loops' state (R195). -/
def loftBytes (st : Fin 6) (a n : Nat) (s : State) : List Byte :=
  let l := memBytes (loft s st.val) a n
  if a + n ≤ 0xE4000 ∨ 0xE5000 ≤ a then l
  else l.zipIdx.map fun p =>
    let o := a + p.2
    if 0xE4000 ≤ o ∧ o < 0xE5000 then BitVec.ofNat 8 (loopWordAt st ((o - 0xE4000) / 4 * 4) s / 2 ^ (8 * (o % 4))) else p.1

end Machine
end Sys2Proof
end

