-- ==== Sys2Proof/Machine/Lamps.lean ====
section
/-!
DEFINITION. Chapter 19: the beacon and panel lamp driver. What a lamp shows (R473-R476), lamp faults and groups
(R477-R479), the warning-beacon binding (R480) and register writes (R482, R483).
-/
namespace Sys2Proof
namespace Machine

/-- A lamp of this number exists: a sink or a matrix lamp. -/
def lampThere (i : Nat) : Bool := decide (i < 24) || (decide (32 ≤ i) && decide (i < 160))

/-- A lamp. -/
def lamp (s : State) (i : Fin 160) : Lamp := s.lamps[i.val]

def setLamp (i : Fin 160) (f : Lamp → Lamp) (s : State) : State := { s with lamps := vmod s.lamps i f }

/-- The latched fault bit of a lamp. -/
def lampBit (i : Nat) : Fld := ⟨R.LMP_LAMP_FAULT (i / 32), i % 32, 1⟩

/-- A group is FAILED. -/
def groupFailed (k : Nat) (s : State) : Bool := bit (get s F.LMP_GROUP_STATUS_FAILED) k

/-- The lamps of a group. -/
def groupLamps (k : Nat) (s : State) : List (Fin 160) := (fins 160).filter fun i => lampThere i && get s (F.LMP_LAMP_GROUP i) == k

/-- The lamp is forced off by its own fault or by its group (R478). -/
def lampOff (i : Nat) (s : State) : Bool :=
  let k := get s (F.LMP_LAMP_GROUP i)
  flag s (lampBit i) || (decide (k < 8) && groupFailed k s)

/-! ## What a lamp shows (R474-R476) -/

/-- A pattern engine is enabled and not in FAULT. -/
def patRuns (k : Nat) (s : State) : Bool := flag s (F.LMP_PAT_CTRL_EN k) && !(bit (get s F.LMP_STATUS_PAT_FAULT) k)

/-- The engine that drives a lamp. -/
def lampEngine (i : Nat) (s : State) : Option Nat :=
  let q := get s (F.LMP_LAMP_SRC i)
  if 1 ≤ q ∧ q ≤ 4 ∧ patRuns (q - 1) s then some (q - 1) else none

/-- The level an engine gives a lamp (R476). -/
def patLevel (k i : Nat) (s : State) : Nat :=
  let t := s.now / 1000000
  let per := max 1 (get s (F.LMP_PAT_CTRL_PERIOD k))
  let p := t % per
  let low := get s (F.LMP_PAT_LEVELS_LOW k)
  let high := get s (F.LMP_PAT_LEVELS_HIGH k)
  match get s (F.LMP_PAT_CTRL_SHAPE k) with
  | 0 =>
    let x := if 2 * p < per then 2 * p else 2 * (per - p)
    ((low : Int) + (((high : Int) - low) * (x * x : Nat)).fdiv (per * per : Nat)).toNat
  | 1 =>
    let l : List (Fin 160) := (fins 160).filter fun j => lampThere j && get s (F.LMP_LAMP_SRC j) == k + 1
    let n := max 1 l.length
    let j := (l.findIdx? fun q => q.val == i).getD 0
    let pos := t / max 1 (get s (F.LMP_PAT_CHASE_STEP k)) % n
    if (j + n - pos) % n < get s (F.LMP_PAT_CHASE_WIDTH k) then high else low
  | _ => if 2 * p < per then high else low

/-- The value a lamp shows without a fade. -/
def lampTarget (i : Nat) (s : State) : Nat :=
  match lampEngine i s with
  | some k => patLevel k i s
  | none => get s (F.LMP_LAMP_LEVEL i)

/-- The displayed value of a lamp. -/
def lampShown (i : Fin 160) (s : State) : Nat :=
  if lampOff i s then 0
  else match (lamp s i).since with
    | some _ => (lamp s i).cur
    | none => lampTarget i s

/-- Start a fade from the value `v` (R475). -/
def fadeFrom (i : Fin 160) (v : Nat) (s : State) : State :=
  let t := get s F.LMP_FADE_TIME
  setLamp i (fun l => { l with cur := v, base := v, since := if t = 0 then none else some s.beam, dur := t }) s

/-- One lamp's fade at its present ms: between two steps of the line the value is one of its neighbours
(notes/assumptions/3). -/
def fadeLamp (i : Fin 160) (s : State) : State :=
  let l := lamp s i
  match l.since with
  | none => s
  | some t =>
    let n := (s.beam - t) / 1000000
    if l.dur ≤ n then setLamp i (fun l => { l with since := none, cur := lampTarget i s }) s
    else
      let d : Int := ((lampTarget i s : Int) - l.base) * n
      let (f, s1) := draw 2 s
      let up : Int := if d % l.dur = 0 then 0 else ((f % 2 : Nat) : Int)
      setLamp i (fun l => { l with cur := ((l.base : Int) + d.fdiv l.dur + up).toNat }) s1

/-- FADE_STEP (R475). -/
def execFadeStep (s : State) : Host.Outcome State Fault Refusal := .next (forAll 160 fadeLamp s)

/-! ## Groups, faults and the beacon (R477-R480) -/

/-- The time a lamp conducts in its PWM period or row slot, in ns (R473): the duty's share of the period, or of what a row
slot leaves after its blanking. -/
def lampOn (i : Fin 160) (s : State) : Nat :=
  let res := get s F.LMP_CFG_RES
  let duty := lampShown i s / 2 ^ (16 - res)
  if i.val < 24 then duty * ((get s F.LMP_CFG_DIV + 1) * 5)
  else if flag s F.LMP_MATRIX_CFG_EN then
    duty * (get s F.LMP_MATRIX_CFG_ROW_TIME * 1000 - get s F.LMP_MATRIX_CFG_BLANK * 100) / 2 ^ res
  else 0

/-- A monitored lamp is checked: it conducts for at least 2 µs, or shows 0 and gets its test bursts (R477). -/
def lampChecked (i : Fin 160) (s : State) : Bool :=
  flag s (F.LMP_LAMP_MONITOR i) && (lampShown i s == 0 || decide (2000 ≤ lampOn i s))

/-- Show the empty groups, and take the BEACON inhibit source to what the bound groups ask for (R480). -/
def beaconEval (s : State) : State :=
  let empty := fun (k : Nat) => (groupLamps k s).isEmpty
  let s1 := put s F.LMP_GROUP_STATUS_EMPTY (sumN ((List.range 8).map fun k => if empty k then 2 ^ k else 0))
  if (List.range 8).any fun k => bit (get s F.LMP_BEACON_BIND_GROUPS) k && (groupFailed k s || empty k) then
    inhibitOn srcBEACON s1
  else inhibitOff srcBEACON s1

/-- A group enters FAILED (R478). -/
def failGroup (k : Nat) (s : State) : State :=
  if groupFailed k s then s
  else
    let s1 := put s F.LMP_GROUP_STATUS_FAILED (get s F.LMP_GROUP_STATUS_FAILED + 2 ^ k)
    let s2 := raise 208 (lifeAdd (setF s1 F.LMP_FLAGS_GROUP_FAILED) (lifeNo 19 1 k) 1)
    if bit (get s F.LMP_BEACON_BIND_GROUPS) k then lifeAdd s2 (lifeNo 19 2 k) 1 else s2

/-- LAMP_FAULT: COUNT consecutive checked periods failed in the same way (R477, R478). -/
def lampFault (i : Fin 160) (short : Bool) (s : State) : State :=
  if ¬ lampThere i ∨ ¬ lampChecked i s ∨ flag s (lampBit i) then s
  else
    let s1 := wr64 (wrN (setF s (lampBit i)) R.LMP_LAST_FAULT (i + 256 * b2n short)) R.LMP_LAST_FAULT_TIME s.now
    let s2 := raise 209 (lifeAdd (setF s1 F.LMP_FLAGS_LAMP_FAULT) (lifeNo 19 0 (2 * i + b2n short)) 1)
    let k := get s (F.LMP_LAMP_GROUP i)
    beaconEval (if k < 8 then failGroup k s2 else s2)

def execLampFault (i : Fin 160) (short : Bool) (s : State) : Host.Outcome State Fault Refusal :=
  .next (lampFault i short s)

/-- TEST_BURST of a monitored lamp that shows 0 (R477). -/
def testBurst (i : Fin 160) (s : State) : State :=
  if lampThere i ∧ flag s (F.LMP_LAMP_MONITOR i) ∧ lampShown i s = 0 ∧
      get s F.LMP_DETECT_TEST_PERIOD * 1000000 ≤ s.beam - (lamp s i).tested then
    setLamp i (fun l => { l with tested := s.beam }) s
  else s

def execTestBurst (i : Fin 160) (s : State) : Host.Outcome State Fault Refusal := .next (testBurst i s)

def lmpReport (f : Fld) (s : State) : State := raiseOnSet f 211 s

/-- GROUP_CLEAR (R479): the tests of a FAILED group begin. -/
def groupClear (k : Fin 8) (s : State) : State :=
  if groupFailed k s ∧ ¬ s.lmpClear.contains k.val then { s with lmpClear := s.lmpClear ++ [k.val] } else s

def execGroupClear (sec : Bool) (k : Fin 8) (s : State) : Host.Outcome State Fault Refusal :=
  .next (hostWrite sec R.LMP_CMD (groupClear k) s)

/-- Clear a lamp's fault bit and let it show its value again. -/
def lampHealed (i : Fin 160) (s : State) : State := fadeFrom i 0 (clrF s (lampBit i))

/-- GROUP_CLEAR_DONE: `bad` names the lamps whose test failed. -/
def groupClearDone (k : Fin 8) (bad : List (Fin 160)) (s : State) : State :=
  if ¬ s.lmpClear.contains k.val then s
  else
    let s1 := { s with lmpClear := s.lmpClear.filter (· != k.val) }
    let l := groupLamps k s
    if l.any bad.contains then lmpReport F.LMP_FLAGS_CLEAR_FAILED s1
    else
      let s2 := put s1 F.LMP_GROUP_STATUS_FAILED (get s1 F.LMP_GROUP_STATUS_FAILED - 2 ^ k.val)
      beaconEval (l.foldl (fun s i => lampHealed i s) s2)

def execGroupClearDone (k : Fin 8) (bad : List (Fin 160)) (s : State) : Host.Outcome State Fault Refusal :=
  .next (groupClearDone k bad s)

/-- LAMP_CLEAR of a faulty lamp that belongs to no group (R479). -/
def lampClear (i : Fin 160) (pass : Bool) (s : State) : State :=
  if flag s (lampBit i) ∧ 8 ≤ get s (F.LMP_LAMP_GROUP i) then
    if pass then lampHealed i s else lmpReport F.LMP_FLAGS_CLEAR_FAILED s
  else s

def execLampClear (sec : Bool) (i : Fin 160) (pass : Bool) (s : State) : Host.Outcome State Fault Refusal :=
  .next (hostWrite sec R.LMP_CMD (lampClear i pass) s)

/-! ## Pattern engines (R474-R476) -/

/-- The lamps an engine drives fall back, each from what it shows. -/
def fallBack (k : Nat) (s : State) (s' : State) : State :=
  (fins 160).foldl (fun t (i : Fin 160) => if lampThere i ∧ lampEngine i s = some k then fadeFrom i (lampShown i s) t else t) s'

/-- LMP_PATTERN_FAULT. -/
def lmpPatternFault (k : Fin 4) (s : State) : State :=
  if bit (get s F.LMP_STATUS_PAT_FAULT) k then s
  else
    let s1 := put s F.LMP_STATUS_PAT_FAULT (get s F.LMP_STATUS_PAT_FAULT + 2 ^ k.val)
    fallBack k s (raise 210 (setF s1 F.LMP_FLAGS_PAT_FAULT))

def execLmpPatternFault (k : Fin 4) (s : State) : Host.Outcome State Fault Refusal := .next (lmpPatternFault k s)

/-- An engine drives its lamps at once. -/
def driveNow (k : Nat) (s : State) : State :=
  forAll 160 (fun i t => if lampEngine i t = some k then setLamp i (fun l => { l with since := none }) t else t) s

/-- PAT_CLEAR: the engine drives its lamps again at once. -/
def patClear (k : Fin 4) (s : State) : State :=
  if bit (get s F.LMP_STATUS_PAT_FAULT) k then
    driveNow k (put s F.LMP_STATUS_PAT_FAULT (get s F.LMP_STATUS_PAT_FAULT - 2 ^ k.val))
  else s

def execPatClear (sec : Bool) (k : Fin 4) (s : State) : Host.Outcome State Fault Refusal :=
  .next (hostWrite sec R.LMP_CMD (patClear k) s)

/-! ## Writes (R480, R482, R483) -/

/-- BEACON_BIND_WRITE: the secure world only; refused while a group newly bound has an unmonitored lamp. -/
def beaconBindWrite (v : Word) (s : State) : State :=
  let n := v.toNat % 256
  let old := get s F.LMP_BEACON_BIND_GROUPS
  if (List.range 8).any fun k => bit n k && !bit old k && (groupLamps k s).any fun i => !flag s (F.LMP_LAMP_MONITOR i) then
    lmpReport F.LMP_FLAGS_CFG_REFUSED s
  else beaconEval (put s F.LMP_BEACON_BIND_GROUPS n)

def execBeaconBindWrite (sec : Bool) (v : Word) (s : State) : Host.Outcome State Fault Refusal :=
  .next (secureWrite sec R.LMP_BEACON_BIND (beaconBindWrite v) s)

/-- The lamp whose register lies at an offset. -/
def lampAt (o : Nat) : Option (Fin 160) :=
  if h : 0xF0400 ≤ o ∧ (o - 0xF0400) / 4 < 160 then
    (if lampThere ((o - 0xF0400) / 4) then some ⟨(o - 0xF0400) / 4, h.2⟩ else none)
  else none

/-- The engine whose register lies at an offset. -/
def patAt (o : Nat) : Option (Nat × Nat) :=
  if 0xF0100 ≤ o ∧ o < 0xF0140 then some ((o - 0xF0100) / 0x10, o % 0x10) else none

/-- A value of a lamp-driver register is in range. -/
def lmpRange (o n : Nat) : Bool :=
  match lampAt o, patAt o with
  | some _, _ => decide (bits n 16 3 ≤ 4) && (decide (bits n 20 4 < 8) || bits n 20 4 == 15)
  | none, some (_, 0) => bits n 1 2 != 3 && decide (10 ≤ bits n 8 16) && decide (bits n 8 16 ≤ 60000)
  | none, some (_, 8) => decide (1 ≤ bits n 0 16) && decide (bits n 0 16 ≤ 60000) && decide (1 ≤ bits n 16 8)
  | none, some _ => true
  | none, none =>
    if o = R.LMP_CFG then decide (8 ≤ bits n 0 5) && decide (bits n 0 5 ≤ 16)
    else if o = R.LMP_MATRIX_CFG then
      decide (50 ≤ bits n 0 10) && decide (bits n 0 10 ≤ 1000) && decide (2 ≤ bits n 16 6) && decide (n / 2 ^ 24 ≤ 240)
    else if o = R.LMP_DETECT then
      decide (1 ≤ bits n 0 8) && decide (10 ≤ n / 2 ^ 16) && decide (n / 2 ^ 16 ≤ 60000)
    else if R.LMP_SINK_CUR 0 ≤ o ∧ o < R.LMP_SINK_CUR 24 then decide (n % 256 ≤ 240)
    else true

/-- GROUP and MONITOR of a lamp register that only the secure world may set: those of a lamp in a bound group, and any
that would place a lamp in one (R480). -/
def lampGuarded (old n : Nat) (s : State) : Bool :=
  let bound := fun (x : Nat) => decide (bits x 20 4 < 8) && bit (get s F.LMP_BEACON_BIND_GROUPS) (bits x 20 4)
  n / 2 ^ 20 != old / 2 ^ 20 && (bound old || bound n)

/-- A write changes what drives a lamp: its own LEVEL, an engine, or that it is forced off (R475). -/
def lampMoved (i : Nat) (s s' : State) : Bool :=
  lampOff i s != lampOff i s' || lampEngine i s != lampEngine i s' ||
    ((lampEngine i s').isNone && get s (F.LMP_LAMP_LEVEL i) != get s' (F.LMP_LAMP_LEVEL i))

/-- Store an accepted value, with what it does to the lamps. -/
def lmpApply (o n : Nat) (s : State) : State :=
  match lampAt o with
  | some i =>
    let s1 := wrN s o n
    let s2 := if lampMoved i s s1 then fadeFrom i (lampShown i s) s1 else s1
    let k := bits n 20 4
    beaconEval (if k < 8 ∧ flag s2 (lampBit i) then failGroup k s2 else s2)
  | none => match patAt o with
    | some (k, 0) =>
      let s1 := wrN s o n
      if patRuns k s ∧ ¬ patRuns k s1 then fallBack k s s1 else if ¬ patRuns k s ∧ patRuns k s1 then driveNow k s1 else s1
    | _ => wrN s o n

/-- A value of a register goes to the driver, or is refused (R483). -/
def lmpTake (a n : Nat) (s : State) : State :=
  if lmpRange a n then lmpApply a n s else lmpReport F.LMP_FLAGS_CFG_REFUSED s

/-- LAMP_CONFIG_WRITE at an offset of the block. A non-secure write that would change guarded fields keeps them, takes a
world fault, and acts in the rest (R5, R480), which alone is judged by range: DEDUCED (notes/assumptions/230). -/
def lampConfigWrite (sec : Bool) (o : Nat) (v : Word) (s : State) : State :=
  let a := 0xF0000 + o % 0x10000 / 4 * 4
  if a = R.LMP_BEACON_BIND ∨ rwMask a = 0 then s
  else hostWrite sec a (fun s =>
    let n := merged a v s
    let old := rdN s a
    if (lampAt a).isSome ∧ ¬ sec ∧ lampGuarded old n s then
      regWorldFault a true (lmpTake a (n % 2 ^ 20 + old / 2 ^ 20 * 2 ^ 20) s)
    else lmpTake a n s) s

def execLampConfigWrite (sec : Bool) (o : Nat) (v : Word) (s : State) : Host.Outcome State Fault Refusal :=
  .next (lampConfigWrite sec o v s)

end Machine
end Sys2Proof
end

