-- ==== Sys2Proof/Machine/Stage.lean ====
section
/-!
DEFINITION. Staging into a gate transaction (R228-R233): targets, stageable registers, the checks of a staging
descriptor, dooms, and the staging store.
-/
namespace Sys2Proof
namespace Machine

/-! ## Registers of blocks with many units -/

/-- The stall and the in-block offset of a stall register. -/
def stallAt (o : Nat) : Option (Fin 48 × Nat) :=
  if h : 0x200000 ≤ o ∧ o < 0x800000 ∧ o % 0x100000 < 0x80000 then
    some (⟨8 * ((o - 0x200000) / 0x100000) + o % 0x100000 / 0x10000, by omega⟩, o % 0x10000)
  else none

/-- The stall and the offset from `ENG_CFG` (energy registers) or, plus 0x300, from `SRV_STATE`. -/
def cleAt (o : Nat) : Option (Fin 48 × Nat) :=
  let x := o % 0x100000
  if h : 0x200000 ≤ o ∧ o < 0x800000 then
    if h2 : 0x80100 ≤ x ∧ x < 0x80300 then
      some (⟨8 * ((o - 0x200000) / 0x100000) + (x - 0x80100) / 0x40, by omega⟩, (x - 0x80100) % 0x40)
    else if h3 : 0x80400 ≤ x ∧ x < 0x80600 then
      some (⟨8 * ((o - 0x200000) / 0x100000) + (x - 0x80400) / 0x40, by omega⟩, 0x300 + (x - 0x80400) % 0x40)
    else none
  else none

/-- The axis and the offset of an axis register. -/
def axisAt (o : Nat) : Option (Fin 8 × Nat) :=
  if h : 0xD0100 ≤ o ∧ o < 0xD0500 then some (⟨(o - 0xD0100) / 0x80, by omega⟩, (o - 0xD0100) % 0x80) else none

/-- The sensor context and the offset of a sensor register. -/
def sensAt (o : Nat) : Option (Fin 16 × Nat) :=
  if h : 0xC1000 ≤ o ∧ o < 0xC1800 then some (⟨(o - 0xC1000) / 0x80, by omega⟩, (o - 0xC1000) % 0x80) else none

/-! ## Stageable registers (R230) -/

/-- A stageable register word, and whether it is one word of a 64-bit register (1 the low one, 2 the high one). -/
def stageable (o : Nat) : Option Nat :=
  let plain := fun (b : Bool) => if b then some 0 else none
  if o = R.YRD_LAYER_SET ∨ o = R.YRD_MSH_SEAM_MOVE then some 1
  else if o = R.YRD_LAYER_SET + 4 ∨ o = R.YRD_MSH_SEAM_MOVE + 4 then some 2
  else match stallAt o, cleAt o, axisAt o, sensAt o with
    | some (_, r), _, _, _ =>
      plain ((decide (0x100 ≤ r) && decide (r < 0x140) && r != 0x104 && r != 0x108 && rwMask o != 0) ||
        [0x204, 0x208, 0x20C, 0x210].contains r)
    | _, some (_, r), _, _ =>
      plain ([0, 4, 8, 0xC, 0x10, 0x14, 0x18, 0x1C, 0x304, 0x308, 0x30C, 0x310].contains r)
    | _, _, some (_, r), _ => plain ([0x08, 0x0C, 0x10, 0x14].contains r)
    | _, _, _, some (_, r) => plain ([0x10, 0x1C, 0x20, 0x24, 0x28].contains r)
    | _, _, _, _ =>
      plain ((decide (R.YRD_MSH_CTRL ≤ o) && decide (o ≤ R.YRD_MSH_SEAM_CFG)) || o == R.YRD_LAYER_DEADLINE ||
        (lampAt o).isSome || (match patAt o with | some (_, r) => decide (r ≤ 8) | none => false))

/-- The target of an action (R232): a register, a stall, an axis, an image type, or a sensor context (R327). -/
def Act.target : Act → Nat × Nat
  | .write o _ _ _ => match sensAt o with | some (n, _) => (4, n) | none => (0, o)
  | .release g => (1, g)
  | .resume g => (1, g)
  | .move a _ => (2, a)
  | .activate d => (3, dbytes d 20 1)

/-- A one-way action (R238). -/
def Act.oneWay : Act → Bool
  | .write .. => false
  | _ => true

/-! ## The write list (R229) -/

/-- The actions of a write list; the index of the first entry that breaks R229 or names a register that takes no
staged writes. A low word that no high word follows fails at its own entry (notes/assumptions/195). -/
def writeList : Nat → Nat → List Byte → Except Nat (List Act)
  | 0, _, _ => .ok []
  | fuel + 1, i, l =>
    if l.isEmpty then .ok []
    else
      let o := leAt l 0 4
      let v := leAt l 4 4
      let m := leAt l 8 4
      if 2 ^ 24 ≤ o ∨ o % 4 ≠ 0 ∨ m = 0 ∨ leAt l 12 4 ≠ 0 then .error i
      else match stageable o with
        | some 0 => (writeList fuel (i + 1) (l.drop 16)).map (.write o v m false :: ·)
        | some 1 =>
          let h := l.drop 16
          if h.isEmpty ∨ leAt h 0 3 ≠ o + 4 then .error i
          else if leAt h 3 1 ≠ 0 ∨ leAt h 8 4 = 0 ∨ leAt h 12 4 ≠ 0 then .error (i + 1)
          else (writeList fuel (i + 2) (h.drop 16)).map
            (.write o (v + 2 ^ 32 * leAt h 4 4) (m + 2 ^ 32 * leAt h 8 4) true :: ·)
        | _ => .error i

/-! ## Staging (R231, R232) -/

/-- Actions of active IDs in the store (R225). -/
def storeUsed (s : State) : Nat :=
  s.txns.toList.foldl (fun n t => if t.active then n + t.acts.length else n) 0

/-- Active IDs. -/
def activeTxns (s : State) : Nat := s.txns.toList.countP Txn.active

/-- Doom a transaction (R231): the first reason stands. -/
def doom (i : Fin 64) (why : Nat) (s : State) : State :=
  let s1 := setTxn i (fun t => { t with doom := if t.doom = 0 then why else t.doom }) s
  raise 67 (setF s1 F.GTE_FLAGS_DOOMED)

/-- Another active transaction holds a target (R232). -/
def heldElsewhere (i : Fin 64) (k : Nat × Nat) (s : State) : Bool :=
  (fins 64).any fun j => j != i && (txn s j).active && (txn s j).acts.any fun a => a.act.target == k

/-- The GROUP and MONITOR bits of a lamp register that only the secure world stages (R480, R482). -/
def lampStageBad (sec : Bool) (a : Act) (s : State) : Bool :=
  match a with
  | .write o v m _ => !sec && (lampAt o).isSome && lampGuarded (rdN s o) (mix (rdN s o) v (m &&& rwMask o)) s
  | _ => false

/-- The staging world may write the target (R231 check 4). -/
def actWorldOk (sec : Bool) (a : Act) (s : State) : Bool :=
  match a with
  | .write o _ _ _ => accessOk sec o s && !(lampStageBad sec a s)
  | .release g => accessOk sec (R.STALL_CTRL g) s
  | .resume g => accessOk sec (R.STALL_CTRL g) s
  | .move a _ => accessOk sec (R.AXIS_CMD a) s
  | .activate _ => accessOk sec R.BOOT_IMG_SEL s

/-- The offset that a world fault of an action records. -/
def actOffset : Act → Nat
  | .write o _ _ _ => o
  | .release g => R.STALL_CTRL g
  | .resume g => R.STALL_CTRL g
  | .move a _ => R.AXIS_CMD a
  | .activate _ => R.BOOT_IMG_SEL

/-- The stalls whose grids a transaction selects and that do not match their CRC (R129). -/
def badGridsOf (t : Txn) (s : State) : List Nat :=
  (((fins 48).filter fun (g : Fin 48) =>
    let sel := t.writes (R.STALL_GRID_SEL g)
    let ctrl := t.writes (R.STALL_TRJ_CTRL g)
    let c := t.after s (R.STALL_TRJ_CTRL g)
    let slots :=
      if sel then slotsInUse (t.after s (R.STALL_GRID_SEL g)) c
      else if ctrl && bit c 1 && !(flag s (F.STALL_TRJ_CTRL_TWO_PLANE g)) then
        [bits (rdN s (R.STALL_GRID_SEL g)) 8 4]
      else []
    !(slots.all fun n => gridGood (stableOf g) n s)).map fun (g : Fin 48) => g.val)

/-- The stalls whose grid selection a list of actions writes. -/
def gridsWritten (l : List Act) : List Nat :=
  (List.range 48).filter fun g => l.any fun a => match a with
    | .write o _ _ _ => o == R.STALL_GRID_SEL g || o == R.STALL_TRJ_CTRL g
    | _ => false

/-- Stable event +35 for every verification at staging that fails (R129). -/
def stagedGridsFail (l : List Act) (bad : List Nat) (s : State) : State :=
  (bad.filter (gridsWritten l).contains).foldl (fun s g => raise (stableEv (g / 8) 3) s) s

/-- Store actions in a transaction; event 68 where the store reaches its mark from below (R251). -/
def storeActs (c : Nat) (i : Fin 64) (l : List Act) (s : State) : State :=
  let n := storeUsed s
  let s1 := setTxn i (fun t => { t with acts := t.acts ++ l.map fun a => ⟨c, a, none, 0, false⟩ }) s
  let s2 := stagedGridsFail l (badGridsOf (txn s1 i) s) (setTxn i (fun t => { t with badGrids := badGridsOf t s }) s1)
  let s3 := lifeMax s2 (lifeNo 8 4 0) (n + l.length)
  let high := rdN s3 R.GTE_STORE_HIGH % 2048
  if 0 < high ∧ n < high ∧ high ≤ n + l.length then raise 68 (setF s3 F.GTE_FLAGS_STORE_HIGH) else s3

/-- Checks 4 to 6 of R231 on the actions of a descriptor, and their storing. `ra` gives the results of a descriptor
that passes. -/
def stageActs (c : Fin 256) (q : Nat) (i : Fin 64) (l : List Act) (ra : State → Option Nat × Option Nat)
    (k : State → State) (s : State) : State :=
  match l.find? fun a => !(actWorldOk (ctxSecure c) a s) with
  | some a =>
    let o := actOffset a
    doom i 2 (complete c q stWORLD_FAULT none none false (worldFault 2 c.val true ((bwtBit o).getD 0xFF) o s))
  | none =>
    if l.any fun a => heldElsewhere i a.target s then doom i 3 (complete c q stTXN_CONFLICT none none false s)
    else if 1024 < storeUsed s + l.length then doom i 5 (complete c q stNO_SPACE none none false s)
    else
      let s1 := k (storeActs c.val i l s)
      let (a, b) := ra s1
      complete c q stOK a b true s1

/-- Checks 1 and 2 of R231. -/
def stageOpen (c : Fin 256) (q : Nat) (i : Fin 64) (k : State → State) (s : State) : State :=
  if (txn s i).st ≠ 1 then complete c q stINTERLOCK none none false s
  else if (txn s i).doom ≠ 0 then complete c q stABORTED none none false s
  else k s

/-- Check 3 of R231 failed at an entry. -/
def stageFormat (c : Fin 256) (q n : Nat) (i : Fin 64) (s : State) : State :=
  doom i 0x0A (complete c q stFORMAT (some n) none false s)

/-- The transaction a descriptor names in its header. -/
def Desc.txnId (d : Desc) : Fin 64 := ⟨d.txn % 64, Nat.mod_lt _ (by decide)⟩

/-- Stage the one action of a descriptor with TXN_V = 1; `ok` is its format (R231). -/
def stageOne (c : Fin 256) (d : Desc) (ok : Bool) (a : Act) (k : State → State) (s : State) : State :=
  stageOpen c d.seq d.txnId (fun s =>
    if ok then stageActs c d.seq d.txnId [a] (fun _ => (none, none)) k s else stageFormat c d.seq 0 d.txnId s) s

/-- The active transaction that holds a staged move of an axis (R286). -/
def resvOf (a : Nat) (s : State) : Option (Fin 64) :=
  (fins 64).find? fun i => (txn s i).active && (txn s i).acts.any fun x => x.act.target == (2, a)

end Machine
end Sys2Proof
end

