-- ==== Sys2Proof/Machine/Axes.lean ====
section
/-!
DEFINITION. Chapter 10: machine axes. The queue and its moves (R283-R286), profiles and replanning (R287, R288), stops
and faults (R289, R296-R298), steps (R290), the load angle (R292-R294), the encoder deviation (R295) and the registers
(R299). A step plays the part of a micrometre in the profiles: positions are in 2^-33 step, speeds in 2^-16 step/s.
-/
namespace Sys2Proof
namespace Machine

def asDISABLED : Nat := 0
def asIDLE : Nat := 1
def asMOVING : Nat := 2
def asSTOPPING : Nat := 3
def asPAUSED : Nat := 4
def asFAULT : Nat := 5

/-- An axis. -/
def axis (s : State) (a : Fin 8) : Axis := s.axes[a.val]

def setAxis (a : Fin 8) (f : Axis → Axis) (s : State) : State := { s with axes := vmod s.axes a f }

/-- The state of an axis (R281). -/
def axSt (a : Nat) (s : State) : Nat := get s (F.AXIS_STATUS_STATE a)

/-- Show a word of AXS.STATUS beside the axis's own STATE. -/
def axEnter (a : Fin 8) (c : Nat) (s : State) : State :=
  let s1 := put s (F.AXIS_STATUS_STATE a) c
  let s2 := put s1 ⟨R.AXS_STATUS, a.val, 1⟩ (b2n (c == asMOVING))
  put (put s2 ⟨R.AXS_STATUS, 8 + a.val, 1⟩ (b2n (c == asFAULT))) ⟨R.AXS_STATUS, 16 + a.val, 1⟩ (b2n (c == asPAUSED))

/-- Show the number of queue entries. -/
def axShow (a : Fin 8) (s : State) : State :=
  put (put s (F.AXIS_STATUS_QUEUED a) (axis s a).queue.length) (F.AXIS_STATUS_RESERVED a) (b2n (axis s a).resv.isSome)

/-- POS as a number. -/
def axPos (a : Nat) (s : State) : Int := rdI s (R.AXIS_POS a)

/-- POS as a completion shows it: sign-extended (R283). -/
def posResult (a : Nat) (s : State) : Option Nat := some (code 64 (axPos a s))

/-- Raise the report event where a flag that reports was clear (R301). -/
def axReport (f : Fld) (a : Nat) (s : State) : State := raiseOnSet f (129 + 2 * a) s

/-! ## Time and position -/

/-- Beam time in 1/65,536 tap. -/
def tau (ns : Nat) : Nat := ns * 12582912 / 5

/-- Half of the 5 ns to which the time of a step is rounded. -/
def halfStep : Nat := 6291456

/-- The present limits of the registers, VMAX, ACCEL and JERK. -/
def axRegs (a : Nat) (s : State) : Nat × Nat × Nat :=
  (rdN s (R.AXIS_VMAX a), rdN s (R.AXIS_ACCEL a), rdN s (R.AXIS_JERK a))

/-- The effective limits of an entry (R283). -/
def AxEnt.limits (e : AxEnt) (l : Nat × Nat × Nat) : Nat × Nat × Nat :=
  let pick := fun (own reg : Nat) => max 1 (if own = 0 then reg else min own reg)
  (pick e.v l.1, pick e.a l.2.1, pick e.j l.2.2)

/-- The steps from a distance travelled: the step to the next position comes at the half (R290). -/
def stepsOf (d : Int) : Int := (d + 2 ^ 32) / 2 ^ 33

/-- Planned distance from time 0 of a run, with rounding of a step time to 5 ns (R290). -/
def AxRun.dist (r : AxRun) (t : Nat) : Int := if r.segs = [] then 0 else (segsAt r.segs t).1

/-- POS at a beam time in 1/65,536 tap: a move that is over stands at its target. -/
def AxRun.pos (r : AxRun) (t : Nat) : Int :=
  if r.mode = 0 ∧ r.fin ≤ t then r.e.target
  else
    let d := r.dist (min (t + (halfStep - 1) - r.t0) (r.fin - r.t0))
    if r.dir < 0 then -stepsOf (d - r.base) else stepsOf (r.base + d)

/-- Planned position, speed and acceleration along the direction of a run. -/
def AxRun.state (r : AxRun) (t : Nat) : Int × Int × Int := if r.segs = [] then (0, 0, 0) else segsAt r.segs (t - r.t0)

/-- The earliest time at which POS has the value it has at `hi`. -/
def AxRun.lastStep (r : AxRun) (p : Int) : Nat → Nat → Nat → Nat
  | 0, _, hi => hi
  | n + 1, lo, hi =>
    if hi ≤ lo + 1 then hi
    else
      let m := (lo + hi) / 2
      if r.pos m = p then r.lastStep p n lo m else r.lastStep p n m hi

/-- Beam time, ns, at which the pulse of a run's last step ends. -/
def AxRun.pulseEnd (r : AxRun) (a : Nat) (p : Int) (s : State) : Nat :=
  r.lastStep p 64 r.t0 r.fin * 5 / 12582912 + 5 * get s (F.AXIS_STEP_TIMING_STEP_WIDTH a)

/-! ## The outputs (R290, R300) -/

/-- The level of DIR (R290). -/
def dirLevel (a : Fin 8) (s : State) : Bool := flag s (F.AXIS_STATUS_DIR a) != flag s (F.AXIS_CFG_DIR_INV a)

/-- The level of AEN (R300). -/
def aenLevel (a : Fin 8) (s : State) : Bool := (axis s a).aen != flag s (F.AXIS_CFG_AEN_POL a)

/-- The inactive level of STEP (R290). -/
def stepIdle (a : Fin 8) (s : State) : Bool := flag s (F.AXIS_CFG_STEP_POL a)

/-- Send out the level of STEP at rest, DIR and AEN where they have changed; DIR changes at the given yard time. -/
def tellAxisPins (a : Fin 8) (t : Nat) (old s : State) : State :=
  let s0 := if stepIdle a s = stepIdle a old then s else emit (.axisPin a 0 s.now (stepIdle a s)) s
  let s1 := if dirLevel a s = dirLevel a old then s0 else emit (.axisPin a 1 t (dirLevel a s)) s0
  if aenLevel a s = aenLevel a old then s1 else emit (.axisPin a 2 s.now (aenLevel a s)) s1

/-- The first time, in steps of 5 ns of the beam timebase, at which a run has reached a position. -/
def AxRun.stepAt (r : AxRun) (up : Bool) (k : Int) : Nat → Nat → Nat → Nat
  | 0, _, hi => hi
  | n + 1, lo, hi =>
    if hi ≤ lo then hi
    else
      let m := (lo + hi) / 2
      let p := r.pos (m * 12582912)
      if (if up then k ≤ p else p ≤ k) then r.stepAt up k n lo m else r.stepAt up k n (m + 1) hi

/-- The step pulses of a run from one position to another, none before a beam time: STEP goes to its active level for
STEP_WIDTH (R290). -/
def stepPulses (a : Fin 8) (r : AxRun) (p q : Int) (lo : Nat) (s : State) : State :=
  let active := !flag s (F.AXIS_CFG_STEP_POL a)
  (List.range (q - p).natAbs).foldl (fun s i =>
    let k := if p < q then p + i + 1 else p - i - 1
    let t := max (max (5 * r.stepAt (decide (p < q)) k 64 (lo / 5) (s.beam / 5)) lo) (axis s a).dirReady
    let y := s.now - (s.beam - t)
    emit (.axisPin a 0 (y + 5 * get s (F.AXIS_STEP_TIMING_STEP_WIDTH a)) (!active)) (emit (.axisPin a 0 y active) s)) s

/-! ## Planning (R287, R288) -/

/-- The direction of a move from a position. -/
def dirOf (p target : Int) : Int := if target < p then -1 else 1

/-- The moves of the queue that blend on: same direction, each but the last with BLEND. -/
def blended (dir : Int) (p : Int) : List AxEnt → List AxEnt
  | [] => []
  | e :: t => if e.kind = 0 ∧ e.target ≠ p ∧ dirOf p e.target = dir then e :: (if e.blend then blended dir e.target t else []) else []

/-- The pieces of a chain of moves with the joint speeds of R287; the first move has limits of its own (R288). -/
def axPieces (own l : Nat × Nat × Nat) (p : Int) : List AxEnt → List Piece
  | [] => []
  | e :: t =>
    let (v, A, J) := e.limits own
    let j := match t with
      | f :: _ => min v (f.limits l).1
      | [] => 0
    ⟨(e.target - p).natAbs * 2 ^ 33, v * speedU, A, J, j * speedU⟩ :: axPieces l l e.target t

/-- What follows the running move without rest: nothing unless it blends and the queue may start. -/
def follows (x : Axis) (e : AxEnt) (dir : Int) : List AxEnt :=
  if e.blend ∧ e.kind = 0 ∧ ¬ x.pauseAtEnd ∧ x.resv.isNone then blended dir e.target x.queue else []

/-- Plan a move from a point of it under some limits: `left` remains, at speed `v` and acceleration `ac`. The moves after it
take the limits of the axis. -/
def planAxis (x : Axis) (e : AxEnt) (dir : Int) (left : Nat) (v ac : Int) (l : Nat × Nat × Nat) : List Seg × Bool :=
  let next := follows x e dir
  match axPieces l x.lims (e.target - dir) (e :: next) with
  | p :: ps =>
    let pcs : List Piece := { p with len := left } :: ps
    ((planPieces v ac pcs (endCaps pcs)).headD [], !next.isEmpty)
  | [] => ([], false)

/-- A plan to the target or joint exists from a state under some limits (R288). -/
def canReach (x : Axis) (e : AxEnt) (dir : Int) (left : Nat) (v ac : Int) (l : Nat × Nat × Nat) : Bool :=
  let next := follows x e dir
  let pcs := axPieces l x.lims (e.target - dir) (e :: next)
  match pcs, endCaps pcs with
  | p :: _, c :: _ => decide (rampDist p.acc p.jerk v ac (min c (max 0 v)) ≤ left) || decide (rampDist p.acc p.jerk v ac 0 ≤ left)
  | _, _ => true

/-- The time at which a plan's final braking begins. -/
def brakeStart (l : List Seg) : Nat :=
  segsDur (l.reverse.dropWhile fun g => decide (g.a ≤ 0) && (decide (g.a < 0) || decide (g.j < 0)))

/-! ## Starting and ending entries -/

/-- DIR changes at rest, at a beam time; the first step of the new direction comes DIR_SETUP later at the earliest
(R290). -/
def turnDir (a : Fin 8) (dir : Int) (at_ : Nat) (s : State) : State :=
  if get s (F.AXIS_STATUS_DIR a) = b2n (decide (dir < 0)) then s
  else
    tellAxisPins a (s.now + at_ - s.beam) s
      (setAxis a (fun x => { x with dirReady := at_ + 5 * get s (F.AXIS_STEP_TIMING_DIR_SETUP a) })
        (put s (F.AXIS_STATUS_DIR a) (b2n (decide (dir < 0)))))

/-- Start an entry at a beam time in 1/65,536 tap, from a position with a speed along its direction, under the limits in effect at
this tick (R282, R288). -/
def startEntry (a : Fin 8) (e : AxEnt) (t0 : Nat) (p v : Int) (s : State) : State :=
  let x := axis s a
  let l := x.lims
  let dir := dirOf p e.target
  let (lv, la, lj) := e.limits l
  if e.kind = 1 then
    let r : AxRun := ⟨e, 0, 1, p * 2 ^ 33, t0, t0 + tau (e.time * 1000), lv, la, lj, l, l, [], false, false, s.now⟩
    setAxis a (fun x => { x with run := some { r with e := { e with target := p } } }) (axEnter a asMOVING s)
  else
    let s1 := if e.target = p then s else turnDir a dir s.beam s
    let (segs, joint) := if e.target = p then ([], false) else planAxis x e dir ((e.target - p).natAbs * 2 ^ 33) v 0 l
    let r : AxRun := ⟨e, 0, dir, p * 2 ^ 33, t0, t0 + segsDur segs, lv, la, lj, l, l, segs, joint,
      decide (s.beam < (axis s1 a).dirReady), s.now⟩
    let s2 := wrI (axEnter a asMOVING s1) (R.AXIS_TARGET a) e.target
    put (setAxis a (fun x => { x with run := some r, replan := false }) s2) ⟨R.AXIS_LOAD_ANGLE a, 16, 16⟩ 0

/-- Complete an entry's descriptor. -/
def axComplete (e : AxEnt) (st : Nat) (ra rb : Option Nat) (s : State) : State :=
  if h : e.ctx < 256 then (if e.staged then s else complete ⟨e.ctx, h⟩ e.seq st ra rb false s) else s

/-- Drop the queue, every entry ABORTED (R289), after a fault with POS at rest as RESULT_A (R296); `drops` counts them. -/
def dropQueue (a : Fin 8) (ra : Option Nat) (s : State) : State :=
  let x := axis s a
  let s1 := setAxis a (fun x => { x with
    queue := [], avail := 0, ahead := 0, resvBad := x.resv.isSome, drops := x.drops + x.queue.length }) s
  axShow a (x.queue.foldl (fun s e => axComplete e stABORTED ra none s) s1)

/-- The entries dropped are counted anew from here. -/
def freshDrops (a : Fin 8) (s : State) : State := setAxis a (fun x => { x with drops := 0 }) s

/-- The oldest entry leaves the queue. -/
def takeEntry (a : Fin 8) (s : State) : State :=
  setAxis a (fun x => { x with queue := x.queue.tail, avail := x.avail - 1 }) s

/-- QUEUED_MOVE_START: an IDLE axis starts its oldest entry, if it stood in the queue at this tick; a reserved queue starts none,
also not of the entries from before the reservation (R285, R286, notes/assumptions/199). -/
def queuedMoveStart (a : Fin 8) (s : State) : State :=
  let x := axis s a
  if axSt a s = asIDLE ∧ x.resv.isNone ∧ 0 < x.avail then
    match x.queue with
    | e :: _ => axShow a (startEntry a e (tau s.beam) (axPos a s) 0 (takeEntry a s))
    | [] => s
  else s

def execQueuedMoveStart (a : Fin 8) (s : State) : Host.Outcome State Fault Refusal := .next (queuedMoveStart a s)

/-- Count steps output from one POS to another (R303). -/
def countSteps (a : Nat) (p q : Int) (s : State) : State :=
  if p < q then lifeAdd s (lifeNo 10 1 a) (q - p).toNat else if q < p then lifeAdd s (lifeNo 10 2 a) (p - q).toNat else s

/-- Move POS to a value. -/
def setPos (a : Nat) (q : Int) (s : State) : State := countSteps a (axPos a s) q (wrI s (R.AXIS_POS a) q)

/-- What an ended entry tells: its descriptor, or for a staged move STAGED_DONE (R283, R286). -/
def tellEntry (a : Fin 8) (e : AxEnt) (start : Nat) (s : State) : State :=
  let s1 := if e.kind = 0 then lifeAdd (add64 s (R.AXIS_MOVES a) 1) (lifeNo 10 0 a) 1 else s
  if e.staged then axReport (F.AXIS_FLAGS_STAGED_DONE a) a s1
  else axComplete e stOK (posResult a s1) (some start) s1

/-- The axis comes to rest at the end of an entry: PAUSED, or IDLE; the next entry starts as order 7 of R282 (R285, R298). DIR turns
for the next move of the queue, also where a dwell comes before it (R290). -/
def entryRest (a : Fin 8) (r : AxRun) (s : State) : State :=
  let x := axis s a
  let s1 := match (x.queue.take x.avail).find? fun e => e.kind == 0 && e.target != r.e.target with
    | some e => if r.e.kind = 0 ∧ x.resv.isNone then turnDir a (dirOf r.e.target e.target) (r.pulseEnd a r.e.target s) s else s
    | none => s
  let pause := x.pauseAtEnd && !x.queue.isEmpty
  setAxis a (fun x => { x with run := none, pauseAtEnd := false }) (axEnter a (if pause then asPAUSED else asIDLE) s1)

/-- MOVE_END: a move or dwell that is over at this tick ends, at rest or at its joint (R285, R287). -/
def moveEnd (a : Fin 8) (s : State) : State :=
  match (axis s a).run with
  | some r =>
    if r.mode = 0 ∧ r.fin ≤ tau s.beam then
      let s1 := tellEntry a r.e r.start (if r.e.kind = 0 then setPos a r.e.target s else s)
      match r.joint, (axis s a).queue with
      | true, e :: _ =>
        let s2 := axShow a (startEntry a e r.fin r.e.target (segsEnd r.segs) (takeEntry a s1))
        match (axis s2 a).run with
        | some r' =>
          let q := r'.pos (tau s2.beam)
          setPos a q (stepPulses a r' (axPos a s2) q (r.fin * 5 / 12582912) s2)
        | none => s2
      | _, _ => entryRest a r s1
    else s
  | none => s

def execMoveEnd (a : Fin 8) (s : State) : Host.Outcome State Fault Refusal := .next (moveEnd a s)

/-- Every entry that is over at this tick ends. -/
def moveEnds (a : Fin 8) : Nat → State → State
  | 0, s => s
  | n + 1, s =>
    match (axis s a).run with
    | some r => if r.mode = 0 ∧ r.fin ≤ tau s.beam then moveEnds a n (moveEnd a s) else s
    | none => s

/-! ## Stops and faults (R289, R296) -/

/-- Decelerate to rest from the present state with the given limits. -/
def brake (a : Fin 8) (mode A J : Nat) (s : State) : State :=
  match (axis s a).run with
  | some r =>
    let t := tau s.beam
    let (d, v, ac) := r.state t
    let segs := if r.e.kind = 1 ∧ r.mode = 0 then [] else rampSegs A J v ac 0
    let base := if r.e.kind = 1 ∧ r.mode = 0 then r.base else r.base + r.dir * d
    setAxis a (fun x => { x with
      run := some { r with mode := mode, base := base, t0 := t, fin := t + segsDur segs, segs := segs, joint := false }
      pauseAtEnd := false, replan := false }) (axEnter a asSTOPPING s)
  | none => s

/-- A controlled stop of a MOVING axis begins (R289). -/
def beginStop (a : Fin 8) (s : State) : State :=
  match (axis s a).run with
  | some r => dropQueue a none (brake a 1 r.a r.j (freshDrops a s))
  | none => s

/-- The contexts bound to an axis. -/
def axisCtxs (a : Nat) (s : State) : List (Fin 256) :=
  (fins 256).filter fun c => get s (F.HIF_CTX_CFG_TYPE c) == 2 && get s (F.HIF_CTX_CFG_BIND c) == a

/-- Complete the started axis descriptors of some opcodes. -/
def tellAxis (a : Nat) (ops : List Nat) (st : Nat) (ra rb : Option Nat) (s : State) : State :=
  (axisCtxs a s).foldl (fun s c => (waitingSeqs c ops s).foldl (fun s q => complete c q st ra rb false s) s) s

/-- A stop drops the queue of an axis that is not MOVING; where a fault stops it, with the POS at which it will rest (R289,
R296). -/
def stopQueue (a : Fin 8) (s : State) : State :=
  dropQueue a ((axis s a).run.bind fun r => if r.mode = 2 then some (code 64 (r.pos r.fin)) else none) s

/-- A controlled stop reaches the axis at a tick (R289): of one that is not MOVING any more it is complete at once, and the
queued entries are dropped, in STOPPING also those queued during the stop. -/
def stopStep (a : Fin 8) (s : State) : State :=
  if axSt a s = asMOVING then beginStop a s
  else if axSt a s = asIDLE ∨ axSt a s = asPAUSED then
    let s1 := dropQueue a none (freshDrops a s)
    tellAxis a [0x32] stOK (posResult a s1) (some (axis s1 a).drops) s1
  else if axSt a s = asSTOPPING then stopQueue a s
  else s

/-- The position a stopped run rests at becomes POS; the interrupted entry completes with ABORTED. -/
def stopRest (a : Fin 8) (r : AxRun) (s : State) : State :=
  let s1 := if r.e.kind = 1 then s else setPos a (r.pos r.fin) s
  let s2 := axComplete r.e stABORTED (posResult a s1) none s1
  setAxis a (fun x => { x with run := none }) s2

/-- CONTROLLED_STOP_COMPLETE: the axis is at rest (R289). -/
def controlledStopComplete (a : Fin 8) (s : State) : State :=
  match (axis s a).run with
  | some r =>
    if r.mode = 1 ∧ r.fin < tau s.beam then
      let s1 := axEnter a asIDLE (stopRest a r s)
      tellAxis a [0x32] stOK (posResult a s1) (some (axis s1 a).drops) s1
    else s
  | none => s

def execControlledStopComplete (a : Fin 8) (s : State) : Host.Outcome State Fault Refusal :=
  .next (controlledStopComplete a s)

/-- A fault reaches the axis at a tick (R296); a DISABLED axis takes only that of a thermal shutdown, which every axis takes
(R420). A fault in FAULT only updates FAULT_INFO. -/
def axisFault (a : Fin 8) (d : Nat) (s : State) : State :=
  let st := axSt a s
  if st = asDISABLED ∧ d ≠ 4 then s
  else
    let s1 := wrN s (R.AXIS_FAULT_INFO a) d
    if st = asFAULT then s1
    else
      let s2 := raise (128 + 2 * a.val) (lifeAdd s1 (lifeNo 10 3 (8 * a.val + d)) 1)
      let s3 := if d = 1 ∨ d = 3 then clrF s2 (F.AXIS_STATUS_POS_TRUSTED a) else s2
      let first := get s (F.AXIS_STATUS_FAULT_DETAIL a) = 0
      let s4 := if first then put s3 (F.AXIS_STATUS_FAULT_DETAIL a) d else s3
      let s4 := if ((axis s4 a).run.map AxRun.mode).getD 0 = 0 then freshDrops a s4 else s4
      match (axis s4 a).run with
      | some r =>
        let t := tau s.beam
        if d = 1 then
          setAxis a (fun x => { x with run := some { r with mode := 2, base := axPos a s4 * 2 ^ 33, t0 := t, fin := t,
                                                              segs := [], joint := false } }) (axEnter a asSTOPPING s4)
        else if r.mode = 2 then s4
        else brake a 2 (rdN s (R.AXIS_STOP_ACCEL a)) (rdN s (R.AXIS_JERK a)) s4
      | none =>
        let t := tau s.beam
        let e : AxEnt := ⟨1, 256, 0, axPos a s4, 0, 0, 0, false, 0, true⟩
        setAxis a (fun x => { x with run := some ⟨e, 2, 1, axPos a s4 * 2 ^ 33, t, t, 1, 1, 1, x.lims, x.lims, [], false, false, s.now⟩ })
          (axEnter a asSTOPPING s4)

/-- FAULT_STOP_END: FAULT at the tick after the axis is at rest; the running move and the queue complete with ABORTED
(R296). An AXIS_STOP that the fault overtook completes too. -/
def faultStopEnd (a : Fin 8) (s : State) : State :=
  match (axis s a).run with
  | some r =>
    if r.mode = 2 ∧ r.fin < tau s.beam then
      let s0 := axEnter a asFAULT (stopRest a r s)
      let s1 := dropQueue a (posResult a s0) s0
      let s2 := tellAxis a [0x32] stOK (posResult a s1) (some (axis s1 a).drops) s1
      let s3 := tellAxis a [0x34] stABORTED none none s2
      if flag s3 (F.AXIS_CFG_FAULT_DISABLE a) then tellAxisPins a s.now s3 (setAxis a (fun x => { x with aen := false }) s3)
      else s3
    else s
  | none => s

def execFaultStopEnd (a : Fin 8) (s : State) : Host.Outcome State Fault Refusal := .next (faultStopEnd a s)

/-! ## A tick of an axis (R282) -/

/-- EN as latched at the tick: enabling (R300), and disabling, after a controlled stop where the axis moves. FAULT is left only by
FAULT_CLEAR (R281); with EN clear the axis is DISABLED at the tick after that. -/
def enableStep (a : Fin 8) (s : State) : State :=
  let x := axis s a
  let st := axSt a s
  if x.en ∧ st = asDISABLED then
    setAxis a (fun x => { x with aen := true }) (axEnter a asIDLE (clrF (wrN s (R.AXIS_POS a) 0) (F.AXIS_STATUS_POS_TRUSTED a)))
  else if ¬ x.en ∧ st ≠ asDISABLED then
    if st = asMOVING then beginStop a s
    else if st = asSTOPPING ∨ st = asFAULT then s
    else
      let s0 := dropQueue a none (freshDrops a s)
      let s1 := tellAxis a [0x34] stABORTED none none (tellAxis a [0x32] stOK (posResult a s0) (some (axis s0 a).drops) s0)
      put (setAxis a (fun x => { x with aen := false, due := AxReq.init }) (axEnter a asDISABLED s1))
        (F.AXIS_STATUS_FAULT_DETAIL a) 0
  else s

/-- A heartbeat expiry (R298). -/
def axisHeartbeat (a : Fin 8) (s : State) : State :=
  let x := axis s a
  if axSt a s = asMOVING then
    setAxis a (fun x => { x with pauseAtEnd := true, replan := (x.run.map AxRun.joint).getD false }) s
  else if axSt a s = asIDLE ∧ ¬ x.queue.isEmpty then axEnter a asPAUSED s
  else s

/-- Give the running move a new plan from its present state. -/
def replanRun (a : Fin 8) (l : Nat × Nat × Nat) (s : State) : State :=
  match (axis s a).run with
  | some r =>
    let t := tau s.beam
    let (d, v, ac) := r.state t
    let p := r.base + r.dir * d
    let left := (r.e.target * 2 ^ 33 - p).natAbs
    let (segs, joint) := planAxis (axis s a) r.e r.dir left v ac l
    let (lv, la, lj) := r.e.limits l
    setAxis a (fun x => { x with
      run := some { r with base := p, t0 := t, fin := t + segsDur segs, segs := segs, joint := joint, v := lv, a := la, j := lj,
                           regs := l, seen := x.lims }
      replan := false }) s
  | none => s

/-- AXIS_LIMIT_CHANGE: new limits replan the running move, or are kept back (R288). -/
def axisLimitChange (a : Fin 8) (s : State) : State :=
  let x := axis s a
  match x.run with
  | some r =>
    if axSt a s = asMOVING ∧ r.mode = 0 ∧ r.e.kind = 0 ∧ x.lims ≠ r.seen then
      let (d, v, ac) := r.state (tau s.beam)
      let left := (r.e.target * 2 ^ 33 - (r.base + r.dir * d)).natAbs
      if canReach x r.e r.dir left v ac x.lims then replanRun a x.lims s
      else
        let s1 := setAxis a (fun x => { x with run := some { r with seen := x.lims } }) s
        axReport (F.AXIS_FLAGS_LIMIT_KEPT a) a (lifeAdd s1 (lifeNo 10 5 a) 1)
    else s
  | none => s

def execAxisLimitChange (a : Fin 8) (s : State) : Host.Outcome State Fault Refusal := .next (axisLimitChange a s)

/-- A blend is cancelled too near its joint for the move to rest at its target: the move brakes with its own limits, passes
the target and ends where it rests, so that no further entry starts (R298; notes/assumptions/223). -/
def restPast (a : Fin 8) (s : State) : State :=
  match (axis s a).run with
  | some r =>
    let t := tau s.beam
    let (d, v, ac) := r.state t
    let segs := rampSegs r.a r.j v ac 0
    let base := r.base + r.dir * d
    let r1 : AxRun := { r with base := base, t0 := t, fin := t + segsDur segs, segs := segs, joint := false, mode := 1 }
    setAxis a (fun x => { x with
      run := some { r1 with mode := 0, e := { r.e with target := r1.pos r1.fin, blend := false } }, replan := false }) s
  | none => s

/-- A queue that changed, or a cancelled blend, gives the running move a new plan under its limits, unless its final braking has
begun (R287). -/
def blendStep (a : Fin 8) (s : State) : State :=
  let x := axis s a
  match x.run with
  | some r =>
    if x.replan ∧ r.mode = 0 ∧ r.e.kind = 0 ∧ (r.joint ∨ tau s.beam - r.t0 < brakeStart r.segs) then
      let (d, v, ac) := r.state (tau s.beam)
      let left := (r.e.target * 2 ^ 33 - (r.base + r.dir * d)).natAbs
      if canReach x r.e r.dir left v ac r.regs then replanRun a r.regs s
      else if r.joint ∧ (follows x r.e r.dir).isEmpty then restPast a s
      else setAxis a (fun x => { x with replan := false }) s
    else setAxis a (fun x => { x with replan := false }) s
  | none => s

/-- Orders 1 to 5 of R282 at this tick, after the entries and stops that are over. -/
def axisEarly (a : Fin 8) (s : State) : State :=
  let s1 := faultStopEnd a (controlledStopComplete a (moveEnds a 40 s))
  let s2 := enableStep a s1
  let q := (axis s2 a).due
  let s3 := q.faults.foldl (fun s d => axisFault a d s) s2
  let s4 := if q.stop then stopStep a s3 else s3
  let s5 := if q.hb then axisHeartbeat a s4 else s4
  tellAxisPins a s.now s1 (blendStep a (axisLimitChange a s5))

/-- A FAULT_CLEAR and a RESUME take effect, and the next entry starts (order 7 of R282). -/
def axisLate (a : Fin 8) (s : State) : State :=
  let q := (axis s a).due
  let s1 := setAxis a (fun x => { x with due := AxReq.init }) s
  let s2 := if q.clear ∧ axSt a s1 = asFAULT then
      put (setAxis a (fun x => { x with aen := true }) (axEnter a asIDLE s1)) (F.AXIS_STATUS_FAULT_DETAIL a) 0
    else s1
  let s3 :=
    tellAxisPins a s.now s1 <| if axSt a s2 = asPAUSED ∧ ((axis s2 a).queue.isEmpty ∨ (q.resume ∧ ¬ hbLost s2)) then
      let t := queuedMoveStart a (axEnter a asIDLE s2)
      tellAxis a [0x34] stOK (some (rdN t (R.AXIS_STATUS a))) (some 0) t
    else s2
  queuedMoveStart a s3

/-- The first step after a change of DIR was due before DIR had been set up, and is delayed (R290). -/
def dirDelay (a : Fin 8) (s : State) : State :=
  let x := axis s a
  match x.run with
  | some r =>
    if r.turned ∧ x.dirReady ≤ s.beam then
      let s1 := setAxis a (fun x => { x with run := some { r with turned := false } }) s
      if r.pos (tau x.dirReady - halfStep) ≠ r.pos r.t0 ∧ r.mode = 0 then axReport (F.AXIS_FLAGS_DIR_DELAYED a) a s1 else s1
    else s
  | none => s

/-- |SPEED| is high enough for the estimate of the load angle (R293). -/
def estimable (a : Nat) (s : State) : Bool := decide (rdN s (R.AXIS_EST_MIN_SPEED a) % 2 ^ 20 ≤ (rdI s (R.AXIS_SPEED a)).natAbs)

/-- EST_VALID stands only while |SPEED| is high enough, and while sets are evaluated (R293). -/
def showEstimate (a : Fin 8) (s : State) : State :=
  if estimable a s ∧ flag s (F.AXIS_CFG_EN a) then s else clrF s (F.AXIS_STATUS_EST_VALID a)

/-- What an axis shows at a new tick, and the requests it takes: POS, SPEED, EN and the limits. -/
def axisTick (a : Fin 8) (s : State) : State :=
  let s0 := dirDelay a s
  let x := axis s0 a
  let s1 := match x.run with
    | some r =>
      if r.e.kind = 1 ∨ (r.turned ∧ s.beam < x.dirReady) then s0
      else setPos a (r.pos (tau s.beam)) (stepPulses a r (axPos a s0) (r.pos (tau s.beam)) (max (r.t0 * 5 / 12582912) (s.beam - s.mvP)) s0)
    | none => s0
  let v := match x.run with
    | some r => if r.fin ≤ tau s.beam ∧ ¬ r.joint then 0 else r.dir * ((r.state (tau s.beam)).2.1 / speedU)
    | none => 0
  let s2 := showEstimate a (wrI s1 (R.AXIS_SPEED a) v)
  let s3 := if x.en then lifeTime s2 (lifeNo 10 7 a) s.mvP else s2
  setAxis a (fun x => { x with
    en := flag s3 (F.AXIS_CFG_EN a), lims := axRegs a s3, due := x.new, new := AxReq.init, avail := x.queue.length }) s3

/-- Ask for something at the next tick. -/
def axAsk (a : Fin 8) (f : AxReq → AxReq) (s : State) : State := setAxis a (fun x => { x with new := f x.new }) s

/-! ## Descriptors (R283-R286) -/

/-- Start the axis descriptor of an opcode, with the axis of its context. -/
def withAxis (c : Fin 256) (op : Nat) (k : Desc → Fin 8 → State → State) (s : State) : State :=
  withDesc c op (fun d s =>
    if h : get s (F.HIF_CTX_CFG_BIND c) < 8 then
      let a : Fin 8 := ⟨get s (F.HIF_CTX_CFG_BIND c), h⟩
      if d.txnV then k d a s else blockCheck c d.seq 13 0xD0000 (k d a) s
    else s) s

/-- Refuse by the state of the axis (R284). -/
def axInterlock (c : Fin 256) (q a : Nat) (s : State) : State :=
  complete c q stINTERLOCK (some (rdN s (R.AXIS_STATUS a))) none false s

/-- The end position of the previous queued move, or POS (R283, R286). -/
def prevEnd (a : Fin 8) (s : State) : Int :=
  let x := axis s a
  let behind := if x.resv.isSome then x.queue.drop x.ahead else x.queue
  match (behind.filter fun e => e.kind == 0).getLast? with
  | some e => e.target
  | none =>
    if x.resv.isSome then x.resvTarget
    else match x.run with
      | some r => if r.mode = 0 then r.e.target else axPos a s
      | none => axPos a s

/-- A VMAX with the step width that would make two pulses touch (R291). -/
def pulseBad (v width : Nat) : Bool := decide (1000000000 < v * 2 * width * 5)

/-- The fields of an AXIS_MOVE. -/
def moveEnt (c : Nat) (d : Desc) (target : Int) (staged : Bool) : AxEnt :=
  ⟨0, c, d.seq, target, d.at 24 4, d.at 28 4, d.at 32 4, d.fbit 15, 0, staged⟩

/-- A field of an AXIS_MOVE out of range (R284, R291). -/
def moveRange (a : Nat) (d : Desc) (s : State) : Bool :=
  decide (1000000 < d.at 24 4) || decide (100000000 < d.at 28 4) || pulseBad (d.at 24 4) (get s (F.AXIS_STEP_TIMING_STEP_WIDTH a))

/-- The target of an AXIS_MOVE in steps. -/
def moveTarget (a : Fin 8) (d : Desc) (s : State) : Int :=
  sext 32 (d.at 20 4) + if d.fbit 14 then prevEnd a s else 0

/-- A target lies outside the range of the axis. -/
def targetBad (a : Nat) (t : Int) (s : State) : Bool := decide (t < rdI s (R.AXIS_POS_MIN a)) || decide (rdI s (R.AXIS_POS_MAX a) < t)

/-- Add an entry to a queue. -/
def enqueue (a : Fin 8) (e : AxEnt) (s : State) : State :=
  axShow a (setAxis a (fun x => { x with queue := x.queue ++ [e], replan := (x.run.map fun r => r.e.blend).getD false }) s)

/-- AXIS_MOVE. -/
def opAxisMove (c : Fin 256) (d : Desc) (a : Fin 8) (s : State) : State :=
  let zero := d.addr == 0 && d.len == 0 && d.at 36 28 == 0
  if d.txnV then
    let t := moveTarget a d s
    stageOne c d zero (.move a d.raw) (fun s =>
      let x := axis s a
      if x.resv.isSome then s
      else axShow a (setAxis a (fun x => { x with
        resv := some d.txn, ahead := x.queue.length, resvTarget := t, resvBad := false,
        replan := (x.run.map AxRun.joint).getD false }) s)) s
  else if ¬ zero ∨ moveRange a d s then formatZero c d.seq s
  else if axSt a s = asDISABLED ∨ axSt a s = asFAULT then axInterlock c d.seq a s
  else
    let t := moveTarget a d s
    if targetBad a t s then complete c d.seq stLIMIT none none false s else enqueue a (moveEnt c d t false) s

/-- An AXIS_MOVE or AXIS_DWELL starts only while the queue has room (R285). -/
def withRoom (c : Fin 256) (op : Nat) (k : Desc → Fin 8 → State → State) (s : State) : State :=
  match mayStart (ctx s c) with
  | some d =>
    if h : get s (F.HIF_CTX_CFG_BIND c) < 8 then
      if ¬ d.txnV ∧ 32 ≤ (axis s ⟨get s (F.HIF_CTX_CFG_BIND c), h⟩).queue.length then s else withAxis c op k s
    else s
  | none => s

def execAxisMove (c : Fin 256) (s : State) : Host.Outcome State Fault Refusal := .next (withRoom c 0x30 (opAxisMove c) s)

/-- AXIS_DWELL. -/
def opAxisDwell (c : Fin 256) (d : Desc) (a : Fin 8) (s : State) : State :=
  let t := d.at 20 4
  if d.addr ≠ 0 ∨ d.len ≠ 0 ∨ d.at 24 40 ≠ 0 ∨ t = 0 ∨ 60000000 < t then formatZero c d.seq s
  else if axSt a s = asDISABLED ∨ axSt a s = asFAULT then axInterlock c d.seq a s
  else enqueue a ⟨1, c, d.seq, 0, 0, 0, 0, false, t, false⟩ s

def execAxisDwell (c : Fin 256) (s : State) : Host.Outcome State Fault Refusal :=
  .next (withRoom c 0x31 (opAxisDwell c) s)

/-- AXIS_STOP (R289): of an axis that is not MOVING it completes at once, with the entries it drops. -/
def opAxisStop (c : Fin 256) (d : Desc) (a : Fin 8) (s : State) : State :=
  if ¬ orderPlain d then formatZero c d.seq s
  else if axSt a s = asDISABLED ∨ axSt a s = asFAULT then axInterlock c d.seq a s
  else if axSt a s = asMOVING then axAsk a (fun q => { q with stop := true }) s
  else
    let n := (axis s a).queue.length
    let s1 := stopQueue a s
    complete c d.seq stOK (posResult a s1) (some n) false s1

def execAxisStop (c : Fin 256) (s : State) : Host.Outcome State Fault Refusal := .next (withAxis c 0x32 (opAxisStop c) s)

/-- The port bound to an axis for the deviation check, with its conditions (R295). -/
def devPort (a : Fin 8) (s : State) : Option (Fin 8) :=
  if flag s (F.AXIS_CFG_DEV_EN a) then
    (fins 8).find? fun p => flag s (F.FBKP_CFG_EN p) && flag s (F.FBKP_CFG_AXIS_V p) && get s (F.FBKP_CFG_AXIS p) == a.val &&
      flag s (F.FBKP_STATUS_POS_VALID p)
  else none

/-- Latch POS and the port's position (R295). -/
def devLatch (a p : Fin 8) (s : State) : State :=
  setAxis a (fun x => { x with devOn := some p.val, pos0 := axPos a s, port0 := rdI s (R.FBKP_POS p) }) s

/-- A check whose port no longer meets its conditions is inactive from then on (R295). -/
def devSync (a : Fin 8) (s : State) : State :=
  if (axis s a).devOn = (devPort a s).map Fin.val then s else setAxis a (fun x => { x with devOn := none }) s

/-- AXIS_SET_POS. -/
def opAxisSetPos (c : Fin 256) (d : Desc) (a : Fin 8) (s : State) : State :=
  if d.addr ≠ 0 ∨ d.len ≠ 0 ∨ d.at 24 40 ≠ 0 then formatZero c d.seq s
  else if axSt a s ≠ asIDLE then axInterlock c d.seq a s
  else
    let s1 := setF (wrN s (R.AXIS_POS a) (d.at 20 4)) (F.AXIS_STATUS_POS_TRUSTED a)
    let s2 := match devPort a s1 with
      | some p => if (axis s1 a).devOn.isSome then devLatch a p s1 else s1
      | none => s1
    complete c d.seq stOK (posResult a s2) (some 0) false s2

def execAxisSetPos (c : Fin 256) (s : State) : Host.Outcome State Fault Refusal :=
  .next (withAxis c 0x33 (opAxisSetPos c) s)

/-- AXIS_RESUME (R298): refused while the heartbeat is lost. -/
def opAxisResume (c : Fin 256) (d : Desc) (a : Fin 8) (s : State) : State :=
  if ¬ orderPlain d then formatZero c d.seq s
  else if axSt a s ≠ asPAUSED ∨ hbLost s then axInterlock c d.seq a s
  else axAsk a (fun q => { q with resume := true }) s

def execAxisResume (c : Fin 256) (s : State) : Host.Outcome State Fault Refusal :=
  .next (withAxis c 0x34 (opAxisResume c) s)

/-! ## Commands of the registers -/

def execAxisCmdStop (sec : Bool) (a : Fin 8) (s : State) : Host.Outcome State Fault Refusal :=
  .next (hostWrite sec (R.AXIS_CMD a) (axAsk a fun q => { q with stop := true }) s)

def execStopAll (sec : Bool) (s : State) : Host.Outcome State Fault Refusal :=
  .next (hostWrite sec R.AXS_CMD (forAll 8 fun a => axAsk a fun q => { q with stop := true }) s)

def execAxisCmdResume (sec : Bool) (a : Fin 8) (s : State) : Host.Outcome State Fault Refusal :=
  .next (hostWrite sec (R.AXIS_CMD a) (fun s =>
    if axSt a s = asPAUSED ∧ ¬ hbLost s then axAsk a (fun q => { q with resume := true }) s else s) s)

/-- The bound port of an axis is in fault. -/
def portFaulted (a : Nat) (s : State) : Bool :=
  (List.range 8).any fun p => flag s (F.FBKP_CFG_AXIS_V p) && get s (F.FBKP_CFG_AXIS p) == a && flag s (F.FBKP_STATUS_FAULT p)

/-- FAULT_CLEAR (R297). -/
def axisFaultClear (a : Fin 8) (s : State) : State :=
  if axSt a s ≠ asFAULT then s
  else
    let d := get s (F.AXIS_STATUS_FAULT_DETAIL a)
    if (d = 2 ∧ portFaulted a s) ∨ (d = 4 ∧ get s F.THM_STATUS_STATE = 3) then setF s (F.AXIS_FLAGS_CLEAR_IGNORED a)
    else axAsk a (fun q => { q with clear := true }) s

def execAxisFaultClear (sec : Bool) (a : Fin 8) (s : State) : Host.Outcome State Fault Refusal :=
  .next (hostWrite sec (R.AXIS_CMD a) (axisFaultClear a) s)

/-! ## Load angle and deviation (R292-R295) -/

/-- The angle of a vector in 2^-16 turn, by bisection in the octant-free form: the greatest angle whose direction does
not pass the vector. -/
def angleOf (y x : Int) : Int :=
  if x = 0 ∧ y = 0 then 0
  else
    let left := fun (k : Nat) =>
      let th : Int := (k : Int) * 2 ^ 24
      decide (0 ≤ cosTurn th * y - sinTurn th * x)
    let q : Nat := if 0 < x ∧ 0 ≤ y then 0 else if x ≤ 0 ∧ 0 < y then 16384 else if x < 0 ∧ y ≤ 0 then 32768 else 49152
    ((List.range 14).foldl (fun (k : Nat) i => let k' := k + 2 ^ (13 - i); if left k' then k' else k) q : Nat)

/-- The encoder deviation of this set (R295). -/
def deviationStep (a : Fin 8) (s : State) : State :=
  match devPort a s with
  | none => setAxis a (fun x => { x with devOn := none }) s
  | some p =>
    let x := axis s a
    if x.devOn ≠ some p.val then devLatch a p s
    else
      let dev := sext 32 (code 32 (rdI s (R.FBKP_POS p) - x.port0)) -
        ((sext 32 (code 32 (axPos a s - x.pos0)) * rdI s (R.AXIS_DEV_RATIO a)).fdiv 65536)
      let s1 := setAxis a (fun x => { x with dev := dev }) s
      if rdN s (R.AXIS_DEV_LIM a) % 2 ^ 24 < dev.natAbs then axAsk a (fun q => { q with faults := q.faults ++ [3] }) s1 else s1

/-- The angle function: a 16-bit fraction of a turn within 1 LSB of the angle of the vector, either of the two or, on an exact
multiple of 1/8 turn, three such values (notes/assumptions/3); of the zero vector any value (notes/assumptions/224). -/
def angleNear (y x : Int) (s : State) : Int × State :=
  let (e, s1) := draw 10 s
  let th : Int :=
    if x = 0 ∧ y = 0 then ((e % 65536 : Nat) : Int)
    else if x = 0 ∨ y = 0 ∨ x.natAbs = y.natAbs then angleOf y x + ((e % 3 : Nat) : Int) - 1
    else angleOf y x + ((e % 2 : Nat) : Int)
  (th, s1)

/-- LOAD_ANGLE_SET: one set of the four samples (R293, R294) and the deviation check. The peak is that of the current or last
move. -/
def loadAngleSet (a : Fin 8) (va vb ia ib : Nat) (s : State) : State :=
  if ¬ flag s (F.AXIS_CFG_EN a) then showEstimate a s
  else
    let x := axis s a
    let smp := fun (v : Nat) => (v : Int) - 2048
    let r := sext 16 (rdN s (R.AXIS_LOAD_RL a))
    let l := sext 16 (rdN s (R.AXIS_LOAD_RL a) / 2 ^ 16)
    let emf := fun (v i prev : Int) => v - (r * i).fdiv 4096 - (l * (i - prev)).fdiv 4096
    let filt := get s (F.AXIS_LOAD_CFG_FILT a)
    let fa := x.fa + (emf (smp va) (smp ia) x.ia - x.fa).fdiv (2 ^ filt)
    let fb := x.fb + (emf (smp vb) (smp ib) x.ib - x.fb).fdiv (2 ^ filt)
    let (th, s1) := angleNear fb fa s
    let dir : Int := if flag s (F.AXIS_STATUS_DIR a) then -1 else 1
    let n := max 1 (get s (F.AXIS_CFG_STEPS_PER_ECYCLE a))
    let cmd := (axPos a s % n) * 65536 / n
    let delta := sext 16 (code 16 (cmd - (th - dir * 16384)))
    let mag : Nat := max fa.natAbs fb.natAbs + min fa.natAbs fb.natAbs / 2
    let valid := estimable a s
    let old := rdN s (R.AXIS_LOAD_ANGLE a) / 2 ^ 16
    let peak := if x.run.any fun r => r.e.kind == 0 then max old delta.natAbs else old
    let s2 := setAxis a (fun x => { x with ia := smp ia, ib := smp ib, fa := fa, fb := fb }) s1
    let s3 := wrN (wrN s2 (R.AXIS_LOAD_ANGLE a) (code 16 delta + 2 ^ 16 * peak)) (R.AXIS_EMF a) (satN 65535 mag)
    let s4 := put (lifeMax s3 (lifeNo 10 6 a) delta.natAbs) (F.AXIS_STATUS_EST_VALID a) (b2n valid)
    let s5 :=
      if ¬ valid then setAxis a (fun x => { x with stallN := 0 }) s4
      else
        let warn := bits (rdN s (R.AXIS_LOAD_LIM a)) 0 16 < delta.natAbs
        let bad := bits (rdN s (R.AXIS_LOAD_LIM a)) 16 16 < delta.natAbs ∨ mag < bits (rdN s (R.AXIS_LOAD_CFG a)) 16 16
        let s5 := if warn then
            axReport (F.AXIS_FLAGS_LOAD_HIGH a) a (lifeAdd (addSat s4 (R.AXIS_STALL_WARNS a) 1) (lifeNo 10 4 a) 1) else s4
        let k := if bad then x.stallN + 1 else 0
        if 0 < k ∧ bits (rdN s (R.AXIS_LOAD_CFG a)) 8 8 ≤ k then
          let s6 := setAxis a (fun x => { x with stallN := 0 }) s5
          if flag s (F.AXIS_CFG_STALL_ACT a) then axAsk a (fun q => { q with faults := q.faults ++ [1] }) s6
          else raise (129 + 2 * a.val) (setF s6 (F.AXIS_FLAGS_LOAD_HIGH a))
        else setAxis a (fun x => { x with stallN := k }) s5
    deviationStep a s5

def execLoadAngleSet (a : Fin 8) (va vb ia ib : Fin 4096) (s : State) : Host.Outcome State Fault Refusal :=
  .next (loadAngleSet a va vb ia ib s)

/-! ## Register writes (R291, R299) -/

/-- A value of an axis register is in range, with the other registers' values. -/
def axisRange (a : Nat) (o n : Nat) (rdv : Nat → Nat) : Bool :=
  let w := bits (rdv (R.AXIS_STEP_TIMING a)) 0 10
  match o with
  | 0x00 => decide (4 ≤ bits n 16 12)
  | 0x04 => decide (20 ≤ bits n 0 10) && decide (bits n 0 10 ≤ 1000) && decide (20 ≤ bits n 16 10) && decide (bits n 16 10 ≤ 1000) &&
      !(pulseBad (rdv (R.AXIS_VMAX a)) (bits n 0 10))
  | 0x08 => decide (1 ≤ n) && decide (n ≤ 1000000) && !(pulseBad n w)
  | 0x0C => decide (1 ≤ n) && decide (n ≤ 100000000) && decide (n ≤ rdv (R.AXIS_STOP_ACCEL a))
  | 0x10 => decide (1 ≤ n) && decide (n ≤ 4000000000)
  | 0x14 => decide (1 ≤ n) && decide (n ≤ 100000000) && decide (rdv (R.AXIS_ACCEL a) ≤ n)
  | 0x18 => decide (sext 32 n ≤ sext 32 (rdv (R.AXIS_POS_MAX a)))
  | 0x1C => decide (sext 32 (rdv (R.AXIS_POS_MIN a)) ≤ sext 32 n)
  | 0x3C => decide (bits n 0 4 ≤ 12) && decide (1 ≤ bits n 8 8)
  | 0x40 => decide (bits n 0 16 ≤ bits n 16 16)
  | 0x54 => decide (1 ≤ n % 2 ^ 24)
  | _ => true

/-- The state of the axis lets a register be written (R299). -/
def axisOpen (a o n : Nat) (s : State) : Bool :=
  let st := axSt a s
  match o with
  | 0x00 =>
    let old := rdN s (R.AXIS_CFG a)
    let same := bits old 1 3 == bits n 1 3 && bits old 16 12 == bits n 16 12
    same || !(bit old 0)
  | 0x04 => st == asDISABLED
  | 0x18 => st != asMOVING && st != asSTOPPING
  | 0x1C => st != asMOVING && st != asSTOPPING
  | _ => true

/-- A write of an axis register. -/
def axisWrite (sec : Bool) (a : Fin 8) (o : Nat) (v : Word) (s : State) : State :=
  let p := R.AXIS_CFG a + o
  if rwMask p = 0 then s
  else cfgWrite sec p v (fun n s => axisOpen a o n s && axisRange a o n (rdN s))
    (fun s => setF s (F.AXIS_FLAGS_CFG_REFUSED a)) (fun n s => tellAxisPins a s.now s (devSync a (wrN s p n))) s

/-- AXIS_ENABLE: a write of CFG with EN = 1; the axis is IDLE from the next tick (R300). -/
def execAxisEnable (sec : Bool) (a : Fin 8) (v : Word) (s : State) : Host.Outcome State Fault Refusal :=
  .next (if bit v.toNat 0 then axisWrite sec a 0 v s else s)

/-- AXIS_DISABLE: a write of CFG with EN = 0. -/
def execAxisDisable (sec : Bool) (a : Fin 8) (v : Word) (s : State) : Host.Outcome State Fault Refusal :=
  .next (if bit v.toNat 0 then s else axisWrite sec a 0 v s)

def execAxisConfigWrite (sec : Bool) (a : Fin 8) (o : Fin 24) (v : Word) (s : State) : Host.Outcome State Fault Refusal :=
  .next (if o = 0 then s else axisWrite sec a (4 * o.val) v s)

/-! ## The staged move (R286) -/

/-- Why an axis refuses a staged move at the commit tick; 0 where it accepts. -/
def stagedRefusal (a : Fin 8) (d : Desc) (s : State) : Nat :=
  let x := axis s a
  if axSt a s ≠ asIDLE ∨ x.ahead ≠ 0 ∨ x.resvBad then 1
  else if targetBad a x.resvTarget s ∨ moveRange a d s then 2
  else if hbLost s then 3
  else 0

/-- An accepted staged move starts at the commit tick. -/
def startStaged (a : Fin 8) (c : Nat) (d : Desc) (s : State) : State :=
  startEntry a (moveEnt c d (axis s a).resvTarget true) (tau s.beam) (axPos a s) 0 s

/-- The reservation of a queue ends (R286): after an abort the entries behind the staged move complete with ABORTED. -/
def endReserve (a : Fin 8) (aborted : Bool) (s : State) : State :=
  let x := axis s a
  let behind := x.queue.drop x.ahead
  let s1 := setAxis a (fun x => { x with
    resv := none, ahead := 0, resvBad := false, queue := if aborted then x.queue.take x.ahead else x.queue,
    avail := if aborted then min x.avail x.ahead else x.avail,
    replan := (x.run.map fun r => r.e.blend).getD false }) s
  axShow a (if aborted then behind.foldl (fun s e => axComplete e stABORTED none none s) s1 else s1)

end Machine
end Sys2Proof
end

