-- ==== Sys2Proof/Machine/Feedback.lean ====
section
/-!
DEFINITION. Chapter 09: position feedback ports. Quadrature decoding and rejections (R258-R260), the cable check (R261),
index and drift (R262-R264), tooth wheels (R265, R266), speed (R267-R270), absolute frames (R257, R271), faults (R272,
R273), configuration (R274, R275) and the held reads (R276).
-/
namespace Sys2Proof
namespace Machine

/-- A feedback port. -/
def port (s : State) (p : Fin 8) : Port := s.ports[p.val]

def setPort (p : Fin 8) (f : Port → Port) (s : State) : State := { s with ports := vmod s.ports p f }

def fbkMode (p : Nat) (s : State) : Nat := get s (F.FBKP_CFG_MODE p)

/-- Counts or teeth of a turn. -/
def fbkCpr (p : Nat) (s : State) : Nat := max 1 (rdN s (R.FBKP_CPR p) % 2 ^ 24)

/-- The yard time `dt` steps of 5 ns into the present microvector (R255). -/
def stampAt (dt : Nat) (s : State) : Nat := s.now + 5 * dt

/-- The time on the beam timebase, which counts elapsed ticks (R429), of a yard time of this microvector. -/
def beamAt (t : Nat) (s : State) : Nat := s.beam + t - s.now

/-- The yard time of a time on the beam timebase in this microvector. -/
def yardAt (b : Nat) (s : State) : Nat := s.now + b - s.beam

/-- A report flag with event 145 + 2p (R278). -/
def fbkReport (f : Fld) (p : Nat) (s : State) : State := raiseOnSet f (145 + 2 * p) s

/-! ## Faults (R272, R273) -/

/-- A port fault. -/
def portFault (p : Fin 8) (d pair : Nat) (s : State) : State :=
  let s0 := setPort p (fun x => { x with
    fCable := if d = 2 then pair :: x.fCable else x.fCable, fFrame := x.fFrame || d == 5 || d == 6 }) s
  let s1 := lifeAdd (wrN s0 (R.FBKP_FAULT_INFO p) (d + 16 * pair)) (lifeNo 9 1 (8 * p.val + d)) 1
  if flag s (F.FBKP_STATUS_FAULT p) then s1
  else
    let s2 := put (setF (put s1 (F.FBKP_STATUS_FAULT_DETAIL p) d) (F.FBKP_STATUS_FAULT p)) ⟨R.FBK_STATUS, p.val, 1⟩ 1
    let s3 := forAll 8 devSync (raise (144 + 2 * p.val) (clrF s2 (F.FBKP_STATUS_POS_VALID p)))
    let a := get s3 (F.FBKP_CFG_AXIS p)
    if h : a < 8 then
      if flag s3 (F.FBKP_CFG_STOP_ON_FAULT p) ∧ flag s3 (F.FBKP_CFG_AXIS_V p) then
        axAsk ⟨a, h⟩ (fun q => { q with faults := q.faults ++ [2] }) s3
      else s3
    else s3

/-- A present condition keeps a fault: a pair that a CABLE fault has named since FAULT was set still disagrees, or a FRAME or
ENC_ERROR fault has come and the last frame was not valid (R273). -/
def faultHeld (p : Fin 8) (s : State) : Bool :=
  ((port s p).fCable.any fun i => bit (get s (F.FBKP_STATUS_DISAGREE p)) i) || ((port s p).fFrame && (port s p).badNow)

/-- Take back FAULT and its detail. -/
def faultGone (p : Fin 8) (s : State) : State :=
  put (put (clrF (setPort p (fun x => { x with fCable := [], fFrame := false }) s) (F.FBKP_STATUS_FAULT p))
    (F.FBKP_STATUS_FAULT_DETAIL p) 0) ⟨R.FBK_STATUS, p.val, 1⟩ 0

def feedbackFaultClear (p : Fin 8) (s : State) : State :=
  if ¬ flag s (F.FBKP_STATUS_FAULT p) then s
  else if faultHeld p s then setF s (F.FBKP_FLAGS_CLEAR_IGNORED p)
  else setF (faultGone p s) (F.FBKP_STATUS_POS_VALID p)

def execFeedbackFaultClear (sec : Bool) (p : Fin 8) (s : State) : Host.Outcome State Fault Refusal :=
  .next (hostWrite sec (R.FBKP_CTRL p) (feedbackFaultClear p) s)

/-- REREF: the next latch sets REF_PHASE (R263). -/
def reref (p : Fin 8) (s : State) : State :=
  setPort p (fun x => { x with refNew := true, suspectB4 := flag s (F.FBKP_STATUS_COUNT_SUSPECT p) }) s

def execReref (sec : Bool) (p : Fin 8) (s : State) : Host.Outcome State Fault Refusal :=
  .next (hostWrite sec (R.FBKP_CTRL p) (reref p) s)

/-! ## The latch (R262-R264) -/

/-- The drift of a latch against the reference (R263). -/
def driftOf (rev ref cpr : Nat) : Int :=
  let d := (rev + cpr - ref % cpr) % cpr
  if cpr / 2 < d then (d : Int) - cpr else d

/-- The index, or the reference of a tooth wheel, latches the count at a time. -/
def latchIndex (p : Fin 8) (t : Nat) (s : State) : State :=
  let s1 := addSat (wr64 (wr s (R.FBKP_INDEX_LATCH p) (rd s (R.FBKP_POS p))) (R.FBKP_INDEX_TIME p) t) (R.FBKP_INDEX_COUNT p) 1
  let x := port s1 p
  let s2 := setPort p (fun x => { x with travel := 0, refNew := false }) s1
  let rev := rdN s (R.FBKP_POS_IN_REV p) % 2 ^ 24
  if x.refNew ∨ ¬ flag s (F.FBKP_STATUS_REF_SET p) then
    let s3 := setF (wrN s2 (R.FBKP_REF_PHASE p) rev) (F.FBKP_STATUS_REF_SET p)
    if x.suspectB4 then clrF s3 (F.FBKP_STATUS_COUNT_SUSPECT p) else s3
  else
    let d := driftOf rev (rdN s (R.FBKP_REF_PHASE p) % 2 ^ 24) (fbkCpr p s)
    let s3 := lifeMax (wrI s2 (R.FBKP_INDEX_DRIFT p) d) (lifeNo 9 3 p) d.natAbs
    let tol := bits (rdN s (R.FBKP_DRIFT_LIM p)) 0 16
    let lim := bits (rdN s (R.FBKP_DRIFT_LIM p)) 16 16
    let s4 := if tol < d.natAbs then fbkReport (F.FBKP_FLAGS_INDEX_DRIFT p) p (lifeAdd s3 (lifeNo 9 2 p) 1) else s3
    if 0 < lim ∧ lim < d.natAbs then portFault p 3 0 (setF s4 (F.FBKP_STATUS_COUNT_SUSPECT p)) else s4

/-- Evaluate the gated index after an edge (R262). -/
def gateIndex (p : Fin 8) (t : Nat) (s : State) : State :=
  let x := port s p
  let c := rdN s (R.FBKP_INDEX_CFG p)
  let g := x.z && (!(bit c 1) || (x.da == bit c 2 && x.db == bit c 3))
  let s1 := setPort p (fun x => { x with gated := g }) s
  if bit c 0 ∧ fbkMode p s = 0 ∧ g ∧ ¬ x.gated then latchIndex p t s1 else s1

/-! ## Counting and speed (R258, R263-R269) -/

/-- A speed in 1/16 count per second of `k` counts in `dt` ns; between two whole values either is possible
(notes/assumptions/3). -/
def speedOf (k : Int) (dt : Nat) (s : State) : Int × State :=
  let n := k.natAbs * 16000000000
  let d := max 1 dt
  let (f, s1) := draw 9 s
  let m : Int := ((n / d + (if n % d = 0 then 0 else f % 2) : Nat) : Int)
  (clampI (-(2 ^ 31)) (2 ^ 31 - 1) (if k < 0 then -m else m), s1)

/-- The speed of R270 from two frame stamps, whose difference a step of yard time can make 0 or less; for 0 the quotient has no
value and the speed is a free one (notes/assumptions/222). -/
def frameSpeed (k : Int) (dt : Int) (s : State) : Int × State :=
  if dt = 0 then let (f, s1) := draw 9 s; (sext 32 f, s1)
  else speedOf (if dt < 0 then -k else k) dt.natAbs s

/-- The counts and the stamp of the edge that many counts before the latest one: at most `n` counts, at least one
edge. -/
def edgeBack (n : Nat) : List (Nat × Nat) → Option (Nat × Nat)
  | (_, m) :: (t, k) :: r =>
    if m ≤ n then
      match edgeBack (n - m) ((t, k) :: r) with
      | some (c, u) => if m + c ≤ n then some (m + c, u) else some (m, t)
      | none => some (m, t)
    else some (m, t)
  | _ => none

/-- The EDGE method (R267). -/
def edgeSpeed (p : Fin 8) (dir : Int) (s : State) : State :=
  let x := port s p
  match x.edges, edgeBack (bits x.spCfg 28 3) x.edges with
  | (t1, _) :: _, some (k, t0) =>
    let (v, s1) := speedOf (dir * k) (t1 - t0) s
    wrI s1 (R.FBKP_SPEED p) v
  | _, _ => s

/-- What a counted edge does to the speed (R267-R269). The first edge in a new direction begins the count change of its window anew
(notes/assumptions/197); the second one sets the speed whatever the method. The times between edges are elapsed ones. -/
def edgeCounted (p : Fin 8) (dir : Int) (n t : Nat) (s : State) : State :=
  let neg := decide (dir < 0)
  let turned : Bool := flag s (F.FBKP_STATUS_DIR p) != neg
  let b := beamAt t s
  let s1 := wr64 (put s (F.FBKP_STATUS_DIR p) (b2n neg)) (R.FBKP_SAMPLE_TIME p) t
  let s2 := setPort p (fun x => { x with
    moved := b, winCount := if turned then rdI s (R.FBKP_POS p) - dir * n else x.winCount }) s1
  if flag s (F.FBKP_STATUS_STANDSTILL p) ∨ (port s p).edges = [] ∨ turned then
    let s3 := setPort p (fun x => { x with edges := [(b, n)] }) (clrF (wrN (clrF s2 (F.FBKP_STATUS_STANDSTILL p)) (R.FBKP_SPEED p) 0)
      (F.FBKP_STATUS_SPEED_VALID p))
    if turned then clrF s3 (F.FBKP_STATUS_METHOD p) else s3
  else
    let s3 := setF (setPort p (fun x => { x with edges := ((b, n) :: x.edges).take 6 }) s2) (F.FBKP_STATUS_SPEED_VALID p)
    if flag s (F.FBKP_STATUS_SPEED_VALID p) ∧ flag s3 (F.FBKP_STATUS_METHOD p) then s3 else edgeSpeed p dir s3

/-- Move the count by `n` in a direction at a time, after DIR_INV (R258, R263, R264). -/
def countMove (p : Fin 8) (dir0 : Int) (n t : Nat) (s : State) : State :=
  let dir := if flag s (F.FBKP_CFG_DIR_INV p) then -dir0 else dir0
  let cpr := fbkCpr p s
  let s1 := wrI s (R.FBKP_POS p) (rdI s (R.FBKP_POS p) + dir * n)
  let s2 := wrN s1 (R.FBKP_POS_IN_REV p) ((((rdN s (R.FBKP_POS_IN_REV p) : Nat) : Int) + dir * n) % cpr).toNat
  let lim := cpr + cpr / 2
  let old := (port s2 p).travel
  let s3 := edgeCounted p dir n t (setPort p (fun x => { x with travel := x.travel + dir * n }) s2)
  if flag s (F.FBKP_STATUS_REF_SET p) ∧ old.natAbs ≤ lim ∧ lim < (old + dir * n).natAbs then portFault p 4 0 s3 else s3

/-! ## Quadrature (R258-R260) -/

/-- Count a rejected edge (R259). -/
def rejectEdge (p : Fin 8) (t : Nat) (s : State) : State :=
  let ms := t / 1000000
  let s1 := lifeAdd (setF (addSat s (R.FBKP_EDGE_FAULTS p) 1) (F.FBKP_FLAGS_EDGE_FAULT p)) (lifeNo 9 0 p) 1
  setPort p (fun x => { x with
    rejMs := ms, rejN := if x.rejMs = ms then x.rejN + 1 else 1, rejTold := x.rejTold && x.rejMs == ms }) s1

/-- EDGE_RATE: rejections of one millisecond reach EDGE_LIMIT (R260). -/
def edgeRate (p : Fin 8) (s : State) : State :=
  let x := port s p
  let lim := rdN s (R.FBKP_FILTER p) / 2 ^ 24
  if 0 < lim ∧ lim ≤ x.rejN ∧ ¬ x.rejTold then portFault p 1 0 (setPort p (fun x => { x with rejTold := true }) s) else s

def execEdgeRate (p : Fin 8) (s : State) : Host.Outcome State Fault Refusal := .next (edgeRate p s)

/-- MIN_EDGE in ns. -/
def minEdge (p : Nat) (s : State) : Nat := 5 * bits (rdN s (R.FBKP_FILTER p)) 0 10

/-- The direction of an edge: of A (or else of B), with the other input's level (R258). -/
def edgeDir (ofA other : Bool) : Int := if ofA != other then 1 else -1

/-- The decoder accepts an edge of A, or else of B: it takes the levels and counts, and reads them again MIN_EDGE later. -/
def quadStep (p : Fin 8) (ofA a b : Bool) (t : Nat) (s : State) : State :=
  gateIndex p t (countMove p (if ofA then edgeDir true b else edgeDir false a) 1 t
    (setPort p (fun x => { x with da := a, db := b, acc := some (beamAt t s), reread := true }) s))

/-- The reference of a tooth wheel or a plain tooth (R265, R266). -/
def toothCount (p : Fin 8) (high : Bool) (t : Nat) (s : State) : State :=
  let x := port s p
  let dir : Int := if flag s (F.FBKP_CFG_DIR_SRC p) && high then -1 else 1
  let c := rdN s (R.FBKP_TOOTH_CFG p)
  let m := bits c 0 2
  let b := beamAt t s
  let iv := b - x.tooth
  let plain := fun (s : State) => countMove p dir 1 t (setPort p (fun x => { x with
    teeth := min 2 (x.teeth + 1), tooth := b, basis := if x.teeth = 0 then none else some iv }) s)
  match x.basis with
  | some basis =>
    if x.teeth < 2 then plain s
    else if 0 < m ∧ bits c 4 8 * basis < 16 * iv then
      latchIndex p t (countMove p dir (m + 1) t (setPort p (fun x => { x with tooth := b }) s))
    else if bit c 2 ∧ 16 * iv < bits c 12 4 * basis then latchIndex p t s
    else plain s
  | none => plain s

/-- An edge comes too soon after the last accepted one, by elapsed time. -/
def tooSoon (p : Fin 8) (t : Nat) (s : State) : Bool :=
  match (port s p).acc with
  | some u => decide (beamAt t s < u + minEdge p s)
  | none => false

/-- MIN_EDGE after the last accepted edge the decoder reads the levels again (R259). -/
def rereadLevels (p : Fin 8) (s : State) : State :=
  let x := port s p
  let due := x.acc.getD 0 + minEdge p s
  let at_ := yardAt due s
  let s1 := setPort p (fun x => { x with reread := false }) s
  if fbkMode p s = 1 then
    if x.a = x.da then s1
    else
      let s2 := setPort p (fun y => { y with da := x.a, acc := some due, reread := true }) s1
      if x.a then toothCount p x.b at_ s2 else s2
  else if x.a = x.da ∧ x.b = x.db then s1
  else if x.a = x.da ∨ x.b = x.db then quadStep p (x.a != x.da) x.a x.b at_ s1
  else
    gateIndex p at_
      (setF (rejectEdge p at_ (setPort p (fun y => { y with da := x.a, db := x.b }) s1)) (F.FBKP_STATUS_COUNT_SUSPECT p))

/-! ## Cable check (R261) -/

/-- A pair is checked: an input of the port's format (R254). -/
def pairUsed (p : Nat) (i : Nat) (s : State) : Bool :=
  match fbkMode p s, i with
  | _, 0 => true
  | 0, 1 => true
  | 0, _ => bit (rdN s (R.FBKP_INDEX_CFG p)) 0
  | 1, 1 => flag s (F.FBKP_CFG_DIR_SRC p)
  | _, _ => false

/-- STATUS.DISAGREE shows the present condition of the pairs in use. -/
def showDisagree (p : Fin 8) (s : State) : State :=
  let on := fun (i : Fin 3) => b2n (((port s p).dis[i.val]).isSome && pairUsed p i s)
  put s (F.FBKP_STATUS_DISAGREE p) (on 0 + 2 * on 1 + 4 * on 2)

/-- A disagreement that has lasted longer than CABLE_TIME at a beam time is a fault. -/
def cableCheck (p : Fin 8) (t : Nat) (i : Fin 3) (s : State) : State :=
  match (port s p).dis[i.val] with
  | some u =>
    if flag s (F.FBKP_STATUS_ENABLED p) ∧ ¬ (port s p).disTold[i.val] ∧ pairUsed p i s ∧
        100 * bits (rdN s (R.FBKP_FILTER p)) 16 8 < t - u then
      portFault p 2 i.val (setPort p (fun x => { x with disTold := vset x.disTold i true }) s)
    else s
  | none => s

/-- CABLE_FAULT: the wires of a pair disagree from a beam time on, or agree again from then. -/
def cableFault (p : Fin 8) (i : Fin 3) (d : Bool) (t : Nat) (s : State) : State :=
  let s1 := cableCheck p t i s
  showDisagree p (setPort p (fun x =>
    if d then { x with dis := vset x.dis i (some (x.dis[i.val].getD t)) }
    else { x with dis := vset x.dis i none, disTold := vset x.disTold i false }) s1)

/-- CABLE_FAULT: `d` tells whether the wires disagree, and from which step of 5 ns of this microvector on. -/
def execCableFault (p : Fin 8) (i : Fin 3) (d : Bool × Nat) (s : State) : Host.Outcome State Fault Refusal :=
  .next (cableFault p i d.1 (s.beam + 5 * d.2) s)

/-! ## Speed windows and standstill (R267, R268) -/

/-- The window boundary after a time. -/
def nextWindow (t w : Nat) : Nat := (t / (1000 * max 1 w) + 1) * (1000 * max 1 w)

/-- The method and the speed at a window boundary, for a count that moved by `d` over it. -/
def windowSpeed (p : Fin 8) (d : Int) (t : Nat) (s : State) : State :=
  let x := port s p
  let w := max 1 (bits x.spCfg 0 10)
  let count := flag s (F.FBKP_STATUS_METHOD p)
  let s1 :=
    if ¬ count ∧ bits x.spCfg 20 8 ≤ d.natAbs then setF s (F.FBKP_STATUS_METHOD p)
    else if count ∧ d.natAbs < bits x.spCfg 12 8 then clrF s (F.FBKP_STATUS_METHOD p) else s
  if ¬ flag s (F.FBKP_STATUS_SPEED_VALID p) then s1
  else if flag s1 (F.FBKP_STATUS_METHOD p) then
    wrI s1 (R.FBKP_SPEED p) (clampI (-(2 ^ 31)) (2 ^ 31 - 1) ((d * 16000000).tdiv w))
  else
    let dir : Int := if flag s1 (F.FBKP_STATUS_DIR p) then -1 else 1
    let s2 := edgeSpeed p dir s1
    let v := rdI s2 (R.FBKP_SPEED p)
    match x.edges with
    | (u, _) :: _ =>
      let b := beamAt t s
      if u < b then
        let (lim, s3) := speedOf 1 (b - u) s2
        if lim < v.natAbs then wrI s3 (R.FBKP_SPEED p) (if v < 0 then -lim else lim) else s3
      else s2
    | [] => s2

/-- The port passes its next window boundary. -/
def windowStep (p : Fin 8) (s : State) : State :=
  let t := (port s p).winAt
  let pos := rdI s (R.FBKP_POS p)
  let s1 := windowSpeed p (sext 32 (code 32 (pos - (port s p).winCount))) t s
  let c := rdN s1 (R.FBKP_SPEED_CFG p)
  setPort p (fun x => { x with winCount := pos, spCfg := c, winAt := nextWindow t (bits c 0 10) }) s1

/-- Standstill is declared (R268, R270). -/
def standstillNow (p : Fin 8) (s : State) : State :=
  let s1 := setF s (F.FBKP_STATUS_STANDSTILL p)
  if 2 ≤ fbkMode p s then s1
  else
    setPort p (fun x => { x with edges := [], teeth := 0, basis := none })
      (clrF (clrF (wrN s1 (R.FBKP_SPEED p) 0) (F.FBKP_STATUS_SPEED_VALID p)) (F.FBKP_STATUS_METHOD p))

/-- The time on the beam timebase at which standstill would be declared (R268, R429). -/
def standsAt (p : Fin 8) (s : State) : Nat := (port s p).moved + 1000 * (rdN s (R.FBKP_STANDSTILL p) % 2 ^ 24)

/-- STANDSTILL: no count has moved for STANDSTILL µs (R268, R270). -/
def standstill (p : Fin 8) (s : State) : State :=
  if flag s (F.FBKP_STATUS_ENABLED p) ∧ ¬ flag s (F.FBKP_STATUS_STANDSTILL p) ∧ standsAt p s ≤ s.beam then standstillNow p s else s

def execStandstill (p : Fin 8) (s : State) : Host.Outcome State Fault Refusal := .next (standstill p s)

/-! ## Absolute frames (R257, R270, R271) -/

/-- Gray code to binary, for a given number of bits. -/
def fromGray : Nat → Nat → Nat
  | 0, _ => 0
  | n + 1, g => let hi := fromGray n (g / 2); 2 * hi + (g % 2 + hi) % 2

/-- A change of position modulo 2^BITS, in the signed range. -/
def posDelta (w a b : Nat) : Int := sext w (a + 2 ^ w - b % 2 ^ w)

/-- A frame that is not valid (R271). -/
def badFrame (p : Fin 8) (err : Bool) (s : State) : State :=
  let s1 := lifeAdd (addSat s (R.FBKP_FRAME_ERRORS p) 1) (lifeNo 9 4 p) 1
  let s2 := fbkReport (if err then F.FBKP_FLAGS_ENC_ERROR p else F.FBKP_FLAGS_FRAME_ERROR p) p s1
  let n := (port s p).bad + 1
  let s3 := setPort p (fun x => { x with good := 0, bad := n, badNow := true, badErr := err })
    (clrF s2 (F.FBKP_STATUS_SPEED_VALID p))
  if n = bits (rdN s (R.FBKP_ABS_TIMING p)) 20 8 then portFault p (if err then 6 else 5) 0 s3 else s3

/-- A valid frame, with its stamp and the same time on the beam timebase. -/
def goodFrame (p : Fin 8) (pos t b w : Nat) (s : State) : State :=
  let x := port s p
  let moved := match x.lastPos with | some (q, _) => q != pos | none => true
  let s1 := wr64 (wrN s (R.FBKP_POS p) pos) (R.FBKP_SAMPLE_TIME p) t
  let s2 := setPort p (fun x => { x with
    lastPos := some (pos, t), good := x.good + 1, bad := 0, badNow := false, badErr := false,
    moved := if moved then b else x.moved }) s1
  let s3 := if x.lastPos.isNone then setF s2 (F.FBKP_STATUS_POS_VALID p) else s2
  let s4 := if moved then clrF s3 (F.FBKP_STATUS_STANDSTILL p) else s3
  match x.lastPos with
  | some (q, u) =>
    if 1 ≤ x.good then
      let (v, s5) := frameSpeed (posDelta w pos q) ((t : Int) - u) s4
      setF (wrI s5 (R.FBKP_SPEED p) v) (F.FBKP_STATUS_SPEED_VALID p)
    else s4
  | none => s4

/-- The CRC of R256 over bits, most significant first: x^6 + x + 1 from 0 (notes/assumptions/198). -/
def crc6 : List Bool → Nat
  | [] => 0
  | l => l.foldl (fun c b => let x := 2 * c % 64; if b != bit c 5 then x ^^^ 3 else x) 0

/-- The low `n` bits of a number, most significant first. -/
def bitsDown : Nat → Nat → List Bool
  | 0, _ => []
  | n + 1, v => bit v n :: bitsDown n v

/-- The period of CK in ns (R256). -/
def ckPeriod (p : Fin 8) (s : State) : Nat := 10 * (get s (F.FBKP_ABS_CFG_CLK_DIV p) + 1)

/-- MONO in ns. -/
def monoTime (p : Fin 8) (s : State) : Nat := 1000 * get s (F.FBKP_ABS_TIMING_MONO p)

/-- CYCLE in ns. -/
def cycleTime (p : Fin 8) (s : State) : Nat := 1000 * get s (F.FBKP_ABS_TIMING_CYCLE p)

/-- No start bit within 64 clocks, or SLO not high again within MONO (R257). -/
def absFrameLate (r : FrameIn) (mono : Nat) : Bool := decide (64 < r.start) || decide (mono < 5 * r.release)

/-- The clocks of a frame (R257): SSI one for each bit; BiSS-C up to the start bit, then CDS, the position, nE, nW and the CRC, or
64 without a start bit. -/
def absFrameClocks (p : Fin 8) (r : FrameIn) (s : State) : Nat :=
  let w := get s (F.FBKP_ABS_CFG_BITS p)
  if fbkMode p s = 3 then (if 64 < r.start then 64 else r.start + w + 9) else w + get s (F.FBKP_ABS_CFG_ERR_BIT p)

/-- How long a frame runs, in ns: its clocks, and then for SSI the hold of MONO, for BiSS-C the wait for SLO (R257). -/
def absFrameTime (p : Fin 8) (r : FrameIn) (s : State) : Nat :=
  absFrameClocks p r s * ckPeriod p s +
    (if fbkMode p s = 3 then (if 64 < r.start then 0 else min (5 * r.release) (monoTime p s)) else monoTime p s)

/-- What a frame that has ended brings: the position bits, whether an error bit is low, whether nW is low, whether the CRC
mismatches (R256, R271). -/
def absFrameRead (p : Fin 8) (r : FrameIn) (s : State) : Nat × Bool × Bool × Bool :=
  let w := get s (F.FBKP_ABS_CFG_BITS p)
  if fbkMode p s = 3 then
    (r.word / 2 ^ 8 % 2 ^ w, !(bit r.word 7), !(bit r.word 6), r.word % 64 != 63 - crc6 (bitsDown (w + 2) (r.word / 2 ^ 6)))
  else
    let e := flag s (F.FBKP_ABS_CFG_ERR_BIT p)
    let raw := (if e then r.word / 2 else r.word) % 2 ^ w
    (if flag s (F.FBKP_ABS_CFG_GRAY p) then fromGray w raw else raw, e && !(bit r.word 0), false, false)

/-- A frame that has ended in time is judged (R271); `t` is its stamp, `b` the same time on the beam timebase. A low error
bit that was read is told as ENC_ERROR, whatever else makes the frame invalid. -/
def absFrameResult (p : Fin 8) (t b : Nat) (r : FrameIn) (s : State) : State :=
  let w := get s (F.FBKP_ABS_CFG_BITS p)
  let (pos, err, warn, crc) := absFrameRead p r s
  let jump := rdN s (R.FBKP_JUMP_LIMIT p) % 2 ^ 24
  let far : Bool := match (port s p).lastPos with
    | some (q, _) => decide (0 < jump) && decide (jump < (posDelta w pos q).natAbs)
    | none => false
  let biss := fbkMode p s == 3
  let unread := biss && decide (64 < r.start)
  let lost := biss && absFrameLate r (monoTime p s)
  if lost ∨ crc ∨ err ∨ far then badFrame p (err && !unread) s
  else goodFrame p pos t b w (if warn then fbkReport (F.FBKP_FLAGS_ENC_WARN p) p s else s)

/-- The frame in progress ends. -/
def absFrameEnd (p : Fin 8) (s : State) : State :=
  match (port s p).frame with
  | some f =>
    let s1 := setPort p (fun x => { x with frame := none, clk := false }) s
    if f.late then s1 else absFrameResult p f.start (f.fin - absFrameTime p f.inp s) f.inp s1
  | none => s

/-- The next start comes while a frame runs: it is skipped, and the frame is not valid (R257). -/
def absFrameOver (p : Fin 8) (s : State) : State :=
  match (port s p).frame with
  | some f =>
    let s1 := fbkReport (F.FBKP_FLAGS_OVERRUN p) p
      (setPort p (fun x => { x with frame := some { f with next := f.next + cycleTime p s, late := true } }) s)
    if f.late then s1 else badFrame p false s1
  | none => s

/-! ## The course of a port between edges (R255) -/

/-- What is due at an enabled port, as ns after the last tick with a kind: 0 a window boundary, 1 standstill, 2 the re-read of
the levels, 3 the end of a frame, 4 a start that a running frame skips. -/
def portTimes (p : Fin 8) (s : State) : List (Int × Nat) :=
  let x := port s p
  let yard := fun (t k : Nat) => ((t : Int) - s.now, k)
  let elapsed := fun (t k : Nat) => ((t : Int) - s.beam, k)
  (if fbkMode p s < 2 then [yard x.winAt 0] else []) ++
    (if flag s (F.FBKP_STATUS_STANDSTILL p) then [] else [elapsed (standsAt p s) 1]) ++
    (match x.acc with | some u => if x.reread then [elapsed (u + minEdge p s) 2] else [] | none => []) ++
    (match x.frame with | some f => [elapsed f.fin 3, yard f.next 4] | none => [])

/-- The first of what is due by `d`; at one time in the order of the kinds. -/
def portNext (p : Fin 8) (d : Int) (s : State) : Option (Int × Nat) :=
  (portTimes p s).foldl (fun b e => if d < e.1 then b else match b with
    | some c => if e.1 < c.1 then some e else b
    | none => some e) none

/-- One thing that is due happens. -/
def portEvent (p : Fin 8) (k : Nat) (s : State) : State :=
  match k with
  | 0 => windowStep p s
  | 1 => standstillNow p s
  | 2 => rereadLevels p s
  | 3 => absFrameEnd p s
  | _ => absFrameOver p s

/-- Everything due by `d` ns after the last tick happens, in the order of time. -/
def portUntil (p : Fin 8) (d : Int) : Nat → State → State
  | 0, s => s
  | n + 1, s => match portNext p d s with
    | some e => portUntil p d n (portEvent p e.2 s)
    | none => s

/-- The port's own course up to a yard time of this microvector. -/
def portRun (p : Fin 8) (t : Nat) (s : State) : State :=
  if flag s (F.FBKP_STATUS_ENABLED p) then portUntil p ((t : Int) - s.now) 32 s else s

/-- SPEED_WINDOW: the port's course up to the next window boundary, if that lies in this microvector. -/
def speedWindow (p : Fin 8) (s : State) : State :=
  if 2 ≤ fbkMode p s ∨ s.now + s.mvP < (port s p).winAt then s else portRun p (port s p).winAt s

def execSpeedWindow (p : Fin 8) (s : State) : Host.Outcome State Fault Refusal := .next (speedWindow p s)

/-! ## Edges (R258, R259, R262, R265) -/

/-- QUADRATURE_EDGE: the levels of A and B after an edge. -/
def quadratureEdge (p : Fin 8) (a b : Bool) (t : Nat) (s : State) : State :=
  if ¬ flag s (F.FBKP_STATUS_ENABLED p) then setPort p (fun x => { x with a := a, b := b, da := a, db := b }) s
  else if fbkMode p s ≠ 0 then s
  else
    let s0 := portRun p t s
    let x := port s0 p
    let s1 := setPort p (fun x => { x with a := a, b := b }) s0
    if a = x.a ∧ b = x.b then s1
    else if tooSoon p t s1 ∨ (a ≠ x.a ∧ b ≠ x.b) then rejectEdge p t s1
    else quadStep p (a != x.a) a b t s1

def execQuadratureEdge (p : Fin 8) (a b : Bool) (dt : Nat) (s : State) : Host.Outcome State Fault Refusal :=
  .next (quadratureEdge p a b (stampAt dt s) s)

/-- INDEX_LATCH: a level of Z; the gated index that becomes true latches (R262). -/
def indexLevel (p : Fin 8) (z : Bool) (t : Nat) (s : State) : State :=
  let s1 := setPort p (fun x => { x with z := z }) (portRun p t s)
  if flag s (F.FBKP_STATUS_ENABLED p) then gateIndex p t s1 else s1

def execIndexLatch (p : Fin 8) (z : Bool) (dt : Nat) (s : State) : Host.Outcome State Fault Refusal :=
  .next (indexLevel p z (stampAt dt s) s)

/-- TOOTH: an edge of A of a tooth wheel, with the level of B (R265). -/
def toothEdge (p : Fin 8) (rise b : Bool) (t : Nat) (s : State) : State :=
  if ¬ flag s (F.FBKP_STATUS_ENABLED p) then setPort p (fun x => { x with a := rise, b := b, da := rise, db := b }) s
  else if fbkMode p s ≠ 1 then s
  else
    let s0 := portRun p t s
    let s1 := setPort p (fun x => { x with a := rise, b := b }) s0
    if rise = (port s0 p).a then s1
    else if tooSoon p t s1 then rejectEdge p t s1
    else
      let s2 := setPort p (fun x => { x with da := rise, acc := some (beamAt t s1), reread := true }) s1
      if rise then toothCount p b t s2 else s2

def execTooth (p : Fin 8) (rise b : Bool) (dt : Nat) (s : State) : Host.Outcome State Fault Refusal :=
  .next (toothEdge p rise b (stampAt dt s) s)

/-! ## Starts of absolute frames (R257) -/

/-- ABSOLUTE_FRAME: a frame starts at a CYCLE boundary, unless one is still running. -/
def absoluteFrame (p : Fin 8) (t : Nat) (r : FrameIn) (s : State) : State :=
  if ¬ flag s (F.FBKP_STATUS_ENABLED p) ∨ fbkMode p s < 2 ∨ t % cycleTime p s ≠ 0 then s
  else
    let s1 := portRun p t s
    if (port s1 p).frame.isSome then s1
    else
      let f : AbsFrame := ⟨t, t + cycleTime p s, s.beam + (t - s.now) + absFrameTime p r s, false, r⟩
      emit (.feedbackClock p t (ckPeriod p s) (absFrameClocks p r s))
        (setPort p (fun x => { x with frame := some f, clk := true, ckUp := none }) s1)

def execAbsoluteFrame (p : Fin 8) (dt : Nat) (r : FrameIn) (s : State) : Host.Outcome State Fault Refusal :=
  .next (absoluteFrame p (stampAt dt s) r s)

/-! ## Configuration (R274, R275) -/

/-- A value of a port register is in range. -/
def fbkRange (o n : Nat) : Bool :=
  let within := fun (lo hi x : Nat) => decide (lo ≤ x) && decide (x ≤ hi)
  match o with
  | 0x00 => decide (bits n 1 3 ≤ 3)
  | 0x04 => decide (2 ≤ bits n 0 10) && decide (2 ≤ bits n 16 8)
  | 0x0C => decide (4 ≤ n % 2 ^ 24)
  | 0x10 => n / 2 ^ 16 == 0 || decide (n % 2 ^ 16 ≤ n / 2 ^ 16)
  | 0x14 => within 1 1000 (bits n 0 10) && within 1 254 (bits n 12 8) && within 2 255 (bits n 20 8) && within 1 4 (bits n 28 3) &&
      decide (bits n 12 8 < bits n 20 8)
  | 0x18 => within 10 10000000 (n % 2 ^ 24)
  | 0x1C => (bits n 0 2 == 0 || !(bit n 2)) && within 20 255 (bits n 4 8) && within 4 15 (bits n 12 4)
  | 0x20 => within 8 32 (bits n 0 6) && within 9 999 (bits n 8 10)
  | 0x24 => within 4 1000 (bits n 0 10) && within 1 255 (bits n 12 8) && within 1 255 (bits n 20 8)
  | _ => true

/-- A register accepts a write with EN as it stands (R274). -/
def fbkOpen (p o n : Nat) (s : State) : Bool :=
  let old := rdN s (R.FBKP_CFG p)
  if ¬ bit old 0 then true
  else if o = 0 then bits old 1 5 == bits n 1 5 && bits old 12 1 == bits n 12 1
  else o == 0x10 || o == 0x14 || o == 0x18

/-- Setting EN (R275). -/
def portEnable (p : Fin 8) (s : State) : State :=
  let set := rdN s (R.FBKP_COUNT_SET p)
  let was := flag s (F.FBKP_STATUS_COUNT_SUSPECT p)
  let s1 := wrN (wrN s (R.FBKP_POS p) set) (R.FBKP_POS_IN_REV p) (sext 32 set % fbkCpr p s).toNat
  let s2 := wrN (faultGone p s1) (R.FBKP_SPEED p) 0
  let dis := get s2 (F.FBKP_STATUS_DISAGREE p)
  let s3 := wrN s2 (R.FBKP_STATUS p) (1 + 2 * b2n (decide (fbkMode p s < 2)) + 8 + 2 ^ 9 * dis)
  let c := rdN s (R.FBKP_SPEED_CFG p)
  let s4 := setPort p (fun x => { x with
    da := x.a, db := x.b, acc := none, reread := false, rejN := 0, rejTold := false, edges := [], winCount := sext 32 set,
    winAt := nextWindow s.now (bits c 0 10), spCfg := c, moved := s.beam, travel := 0, suspectB4 := was, refNew := true,
    basis := none, teeth := 0, lastPos := none, good := 0, bad := 0, badNow := false, badErr := false,
    disTold := Vector.replicate 3 false }) s3
  let s5 := put s4 ⟨R.FBK_STATUS, 8 + p.val, 1⟩ 1
  setPort p (fun x => { x with
    gated := x.z && (!(bit (rdN s (R.FBKP_INDEX_CFG p)) 1) ||
      (x.da == bit (rdN s (R.FBKP_INDEX_CFG p)) 2 && x.db == bit (rdN s (R.FBKP_INDEX_CFG p)) 3)) }) s5

/-- Clearing EN: a frame in progress is abandoned, and CK returns high after MONO (R275). -/
def portDisable (p : Fin 8) (s : State) : State :=
  let s1 := match (port s p).frame with
    | some _ => emit (.feedbackHigh p (s.now + monoTime p s))
        (setPort p (fun x => { x with frame := none, ckUp := some (s.beam + monoTime p s) }) s)
    | none => s
  put (clrF (faultGone p s1) (F.FBKP_STATUS_ENABLED p)) ⟨R.FBK_STATUS, 8 + p.val, 1⟩ 0

/-- A write of a port register. -/
def fbkWrite (sec : Bool) (p : Fin 8) (o : Nat) (v : Word) (s : State) : State :=
  let a := R.FBKP_CFG p + o
  cfgWrite sec a v (fun n s => fbkOpen p o n s && fbkRange o n) (fun s => setF s (F.FBKP_FLAGS_CFG_REFUSED p))
    (fun n s =>
      let old := rdN s a
      let s1 := wrN s a n
      let s2 := if o ≠ 0 ∨ bit old 0 = bit n 0 then s1 else if bit n 0 then portEnable p s1 else portDisable p s1
      showDisagree p (if o = 0 then forAll 8 devSync s2 else s2)) s

/-- PORT_ENABLE: a write of CFG that sets EN. -/
def execPortEnable (sec : Bool) (p : Fin 8) (v : Word) (s : State) : Host.Outcome State Fault Refusal :=
  .next (if bit v.toNat 0 then fbkWrite sec p 0 v s else s)

/-- PORT_DISABLE: a write of CFG that clears EN. -/
def execPortDisable (sec : Bool) (p : Fin 8) (v : Word) (s : State) : Host.Outcome State Fault Refusal :=
  .next (if bit v.toNat 0 then s else fbkWrite sec p 0 v s)

def execFeedbackConfigWrite (sec : Bool) (p : Fin 8) (o : Fin 12) (v : Word) (s : State) : Host.Outcome State Fault Refusal :=
  .next (if o = 0 then s else fbkWrite sec p (4 * o.val) v s)

/-- POS_READ: the holding registers take the live values (R276). -/
def posRead (p : Fin 8) (s : State) : State :=
  setPort p (fun x => { x with
    hSpeed := rd s (R.FBKP_SPEED p), hTime := rd64 s (R.FBKP_SAMPLE_TIME p), hStatus := rd s (R.FBKP_STATUS p) }) s

def execPosRead (sec : Bool) (p : Fin 8) (s : State) : Host.Outcome State Fault Refusal :=
  .next (if accessOk sec (R.FBKP_POS p) s then emit (.readReply (R.FBKP_POS p) (rdN s (R.FBKP_POS p)) false) (posRead p s)
    else emit (.readReply (R.FBKP_POS p) 0 false) (regWorldFault (R.FBKP_POS p) false s))

/-- The word that the holding registers show in place of a register of the ports (R276). -/
def heldWord (o : Nat) (s : State) : Option Nat :=
  if 0xE0100 ≤ o ∧ o < 0xE0500 then
    let x := port s (Fin.ofNat 8 ((o - 0xE0100) / 0x80))
    match o % 0x80 with
    | 0x34 => some x.hStatus.toNat
    | 0x44 => some x.hSpeed.toNat
    | 0x48 => some (x.hTime % 2 ^ 32)
    | 0x4C => some (x.hTime / 2 ^ 32)
    | _ => none
  else none

/-- A read of POS fills the holding registers (R276). -/
def latchPos (o : Nat) (s : State) : State :=
  match (fins 8).find? fun (p : Fin 8) => o == R.FBKP_POS p with
  | some p => posRead p s
  | none => s

/-- CK is back at its idle level after an abandoned frame (R275). -/
def clockHigh (p : Fin 8) (s : State) : State :=
  if (port s p).ckUp.any fun t => decide (t ≤ s.beam) then setPort p (fun x => { x with clk := false, ckUp := none }) s else s

/-- After a step of yard time the boundaries of the speed windows and the starts of absolute frames are those of the new yard time;
the window in progress begins anew at the step (R257, R267; notes/assumptions/222). -/
def alignPort (p : Fin 8) (s : State) : State :=
  setPort p (fun x => { x with
    winAt := nextWindow s.now (bits x.spCfg 0 10), winCount := rdI s (R.FBKP_POS p),
    frame := x.frame.map fun f => { f with next := nextWindow s.now (get s (F.FBKP_ABS_TIMING_CYCLE p)) } }) s

/-- What a port does at a tick: what was due by it, and the checks that a time ends. -/
def portTick (p : Fin 8) (s : State) : State :=
  let s0 := clockHigh p s
  if ¬ flag s (F.FBKP_STATUS_ENABLED p) then s0
  else
    let s1 := portRun p s.now s0
    let s2 := edgeRate p (forAll 3 (cableCheck p s.beam) s1)
    lifeTime s2 (lifeNo 9 5 p) s.mvP

end Machine
end Sys2Proof
end

