-- ==== Sys2Proof/Machine/Codec.lean ====
section
/-!
DEFINITION. Chapter 12: the stream format (R334, R335), prediction and coding (R336-R338). Bits are held as a number
with a count, bit 0 first.
-/
namespace Sys2Proof
open Machine

/-! ## Parameters (R340) -/

/-- Bytes of an element. -/
def Codec.e (c : Codec) : Nat := 2 ^ bits c.params 0 2
/-- Bits of an element. -/
def Codec.w (c : Codec) : Nat := 8 * c.e
def Codec.pred (c : Codec) : Nat := bits c.params 2 2
def Codec.stride (c : Codec) : Nat := bits c.params 4 6 + 1
def Codec.carry (c : Codec) : Bool := bit c.params 10
/-- Original bytes of a whole block. -/
def Codec.block (c : Codec) : Nat := 4096 * 2 ^ bits c.params 12 3

/-- PARAMS and WIDTH with no reserved value (R340, R342). -/
def paramsOk (p width : Nat) : Bool :=
  p < 2 ^ 15 && !(bit p 11) && bits p 0 2 != 3 && bits p 12 3 ≤ 4 &&
    (if bits p 2 2 = 3 then 1 ≤ width && width ≤ 16384 && width % (bits p 4 6 + 1) == 0 else width == 0)

/-- A stream about to begin. -/
def Codec.start (params width : Nat) : Codec := ⟨params, width, false, true, false, 0, 0xFFFFFFFF, 0, [], []⟩

/-- The state reset of R336. -/
def Codec.reset (c : Codec) : Codec := { c with i := 0, hist := [], lanes := List.replicate c.stride (4, 1) }

/-- The next block begins with a state reset (R338). -/
def Codec.resets (c : Codec) : Bool := c.first || !c.carry

/-- The running CRC-32C of the original. -/
def Codec.crc32 (c : Codec) : Nat := c.crc ^^^ 0xFFFFFFFF

/-! ## Prediction and lane states (R336) -/

/-- The element `k` places back. -/
def Codec.x (c : Codec) (k : Nat) : Nat := c.hist.getD (k - 1) 0

/-- The prediction of the next element. -/
def Codec.predict (c : Codec) : Nat :=
  let m := 2 ^ c.w
  let s := c.stride
  match c.pred with
  | 0 => 0
  | 1 => c.x s
  | 2 => if c.i < 2 * s then c.x s else (2 * c.x s + m - c.x (2 * s)) % m
  | _ =>
    let a := c.x s
    let b := c.x c.width
    let d := c.x (c.width + s)
    if c.i < c.width then a
    else if c.i % c.width < s then b
    else if max a b ≤ d then min a b
    else if d ≤ min a b then max a b
    else (a + b + m - d) % m

/-- The smallest k with n 2^k at or above a. -/
def riceK (w a n : Nat) : Nat := ((List.range w).find? fun k => decide (a ≤ n * 2 ^ k)).getD w

/-- A lane state after a value. -/
def laneNext (l : Nat × Nat) (m : Nat) : Nat × Nat :=
  let a := l.1 + m
  if l.2 + 1 = 64 then (a / 2, 32) else (a, l.2 + 1)

/-- The state after an element `x` whose code value is `m`, none for an element written plainly. -/
def Codec.push (c : Codec) (x : Nat) (m : Option Nat) : Codec :=
  let l := c.i % c.stride
  { c with
    i := c.i + 1
    hist := (x :: c.hist).take (max (2 * c.stride) (c.width + c.stride))
    lanes := match m with
      | some v => c.lanes.set l (laneNext (c.lanes.getD l (4, 1)) v)
      | none => c.lanes }

/-- The code of one element, as (bits, count), and the state after it. -/
def encElem (c : Codec) (x : Nat) : (Nat × Nat) × Codec :=
  let w := c.w
  if c.i < c.stride then ((x, w), c.push x none)
  else
    let r := (x + 2 ^ w - c.predict) % 2 ^ w
    let m := if r < 2 ^ (w - 1) then 2 * r else 2 * (2 ^ w - r) - 1
    let l := c.lanes.getD (c.i % c.stride) (4, 1)
    let k := riceK w l.1 l.2
    let q := m / 2 ^ k
    let v := if q < 24 then (2 ^ q - 1 + 2 ^ (q + 1) * (m % 2 ^ k), q + 1 + k) else (2 ^ 24 - 1 + 2 ^ 24 * m, 24 + w)
    (v, c.push x (some m))

/-- One bits below the first zero, at most `fuel`. -/
def onesOf : Nat → Nat → Nat
  | 0, _ => 0
  | fuel + 1, v => if v % 2 = 1 then onesOf fuel (v / 2) + 1 else 0

/-- Decode one element from `n` bits `v`: the element, the bits used and the state after it. -/
def decElem (c : Codec) (v n : Nat) : Option (Nat × Nat × Codec) :=
  let w := c.w
  if c.i < c.stride then (if n < w then none else some (v % 2 ^ w, w, c.push (v % 2 ^ w) none))
  else
    let l := c.lanes.getD (c.i % c.stride) (4, 1)
    let k := riceK w l.1 l.2
    let q := onesOf 24 v
    let used := if q < 24 then q + 1 + k else 24 + w
    if n < used then none
    else
      let m := if q < 24 then q * 2 ^ k + v / 2 ^ (q + 1) % 2 ^ k else v / 2 ^ 24 % 2 ^ w
      let x := if m % 2 = 0 then (c.predict + m / 2) % 2 ^ w else (c.predict + 2 ^ w - (m / 2 + 1) % 2 ^ w) % 2 ^ w
      some (x, used, c.push x (some m))

/-! ## Blocks (R334, R337) -/

/-- `n` elements of `e` bytes each. -/
def elemsOf (e : Nat) : Nat → List Byte → List Nat
  | 0, _ => []
  | n + 1, l => leNat (l.take e) :: elemsOf e n (l.drop e)

/-- Code elements one after another: the bits, their count, the state. -/
def encElems (c : Codec) (xs : List Nat) : (Nat × Nat) × Codec :=
  xs.foldl (fun (acc : (Nat × Nat) × Codec) x =>
    let (v, c') := encElem acc.2 x
    ((acc.1.1 + 2 ^ acc.1.2 * v.1, acc.1.2 + v.2), c')) ((0, 0), c)

/-- Round up to whole groups of 8 bytes. -/
def pad8 (n : Nat) : Nat := cdiv n 8 * 8

/-- The state with the original bytes of a block counted. -/
def Codec.count (c : Codec) (l : List Byte) : Codec :=
  { c with first := false, total := c.total + l.length, crc := l.foldl (crcByte 0x82F63B78) c.crc }

/-- Encode one block: its bytes, whether it is RAW, and the state after it. -/
def encBlock (c : Codec) (l : List Byte) : List Byte × Bool × Codec :=
  let c0 := if c.resets then c.reset else c
  let (v, c1) := encElems c0 (elemsOf c.e (l.length / c.e) l)
  let n := pad8 (cdiv v.2 8)
  let raw := decide (pad8 l.length < n)
  let clen := if raw then pad8 l.length else n
  let body := if raw then l ++ List.replicate (clen - l.length) 0#8 else leBytes clen v.1
  (leBytes 4 clen ++ leBytes 2 (l.length - 1) ++ leBytes 2 (b2n raw + 2 * b2n c.resets) ++ body, raw, c1.count l)

/-- Decode `n` elements: the elements, bits used, the state. -/
def decElems : Nat → Codec → Nat → Nat → Option (List Nat × Nat × Codec)
  | 0, c, _, _ => some ([], 0, c)
  | k + 1, c, v, n =>
    match decElem c v n with
    | none => none
    | some (x, u, c1) =>
      match decElems k c1 (v / 2 ^ u) (n - u) with
      | none => none
      | some (xs, u2, c2) => some (x :: xs, u + u2, c2)

/-- The original bytes of elements. -/
def elemBytes (e : Nat) (xs : List Nat) : List Byte := xs.flatMap fun x => leBytes e x

/-- Decode one block whose header and payload are whole (R344): the original bytes and the state after it, or none. -/
def decBlock (c : Codec) (hdr body : List Byte) : Option (List Byte × Codec) :=
  let olen := leAt hdr 4 2 + 1
  let fl := leAt hdr 6 2
  let c0 := if c.resets then c.reset else c
  if fl / 2 ≠ b2n c.resets ∨ olen % c.e ≠ 0 then none
  else if fl % 2 = 1 then
    if body.length < olen ∨ ¬ (body.drop olen).all (· == 0#8) then none
    else
      let l := body.take olen
      some (l, ((encElems c0 (elemsOf c.e (olen / c.e) l)).2).count l)
  else match decElems (olen / c.e) c0 (leNat body) (8 * body.length) with
    | none => none
    | some (xs, u, c1) =>
      if (body.drop (cdiv u 8)).all (· == 0#8) then
        let l := elemBytes c.e xs
        some (l, c1.count l)
      else none

/-- The 16 bytes of a stream header. -/
def streamHeader (c : Codec) : List Byte :=
  leBytes 4 0x31435747 ++ leBytes 4 1 ++ leBytes 4 c.params ++ leBytes 4 c.width

/-- The 16 bytes of a trailer. -/
def streamTrailer (c : Codec) : List Byte := leBytes 4 0xFFFFFFFF ++ leBytes 8 c.total ++ leBytes 4 c.crc32

/-- The compressed bound of n bytes in b blocks (R335). -/
def streamBound (n b : Nat) : Nat := n + cdiv n 256 + 64 * (b + 1)

/-! ## Streams -/

/-- Encode input as one whole stream. -/
def encStream (fuel : Nat) (c : Codec) (l : List Byte) : List Byte :=
  match fuel with
  | 0 => streamTrailer c
  | f + 1 =>
    if l.isEmpty then streamTrailer c
    else
      let (o, _, c1) := encBlock c (l.take c.block)
      o ++ encStream f c1 (l.drop c.block)

end Sys2Proof
end

