-- ==== Sys2Proof/Machine/Memory.lean ====
section
/-!
DEFINITION. Chapter 14: device memories (R383), scrubbing (R386), LP5 memory (R389-R394), the memory
descriptors (R395) and the registers (R396).
-/
namespace Sys2Proof
namespace Machine

/-! ## Device addresses (R383) -/

/-- Usable bytes of LP5 memory. -/
def lpSize (s : State) : Nat := get s F.DMC_GEOMETRY_USABLE_MIB * 0x100000

/-- The memory a range lies in: 0 to 5 a loft, 6 the hayloft, 7 LP5 memory; none where it is not inside one. -/
def memOf (a n : Nat) (s : State) : Option Nat :=
  if a + n ≤ 0x1800000 ∧ a / 0x400000 = (a + n - 1) / 0x400000 then some (a / 0x400000)
  else if 0x2000000 ≤ a ∧ a + n ≤ 0x3000000 then some 6
  else if lpBase ≤ a ∧ a + n ≤ lpBase + lpSize s then some 7
  else none

/-- Bytes at a device address. -/
def devRead (a n : Nat) (s : State) : List Byte :=
  match memOf a n s with
  | some 6 => memBytes s.hayloft (a - 0x2000000) n
  | some 7 => memBytes s.lp5 (a - lpBase) n
  | some k => loftBytes (Fin.ofNat 6 k) (a % 0x400000) n s
  | none => []

/-! ## Scrubbing and the maintenance of LP5 memory (R386, R390-R392) -/

/-- What a read of a word finds: what the machine knows to be wrong with it, or else the error met now. -/
def foundKind (k a : Nat) (s : State) : Nat :=
  if s.poison.contains a then 3 else if s.sramBad.contains a then 2 else k

/-- Errors that a pass of a scrubber finds, each word once: those met now, as (address, KIND, syndrome), and, where the pass ends,
the words already known to be bad. -/
def passErrors (whole : Bool) (mine : Nat → Bool) (errs : List (Nat × Nat × Nat)) (s : State) : State :=
  let met := (errs.filter fun e => mine e.1).map fun e => (e.1 / 8 * 8, foundKind e.2.1 (e.1 / 8 * 8) s, e.2.2)
  let known := (s.poison ++ s.sramBad).filter fun a => whole && mine a && !met.any fun e => e.1 == a
  known.foldl (fun s a => wordRead a s) (met.foldl (fun s e => memError e.2.1 e.2.2 0 e.1 s) s)

/-- SRAM_SCRUB_PASS: a pass ends in time, having read every word, or the period ends before it (R386). -/
def execSramScrubPass (late : Bool) (errs : List (Nat × Nat × Nat)) (s : State) : Host.Outcome State Fault Refusal :=
  let on := decide (bits (rdN s R.DMC_SCRUB) 0 16 ≠ 0)
  let s1 := if on then passErrors (!late) (fun a => decide (a < lpBase)) errs s else s
  .next (if late && on then raise 29 (lifeAdd (setF s1 F.DMC_FLAGS_SCRUB_LATE) (lifeNo 14 9 0) 1) else s1)

/-- PATROL_SCRUB: a pass starts or ends, with what it found (R391). -/
def execPatrolScrub (busy : Bool) (errs : List (Nat × Nat × Nat)) (s : State) : Host.Outcome State Fault Refusal :=
  .next (if bits (rdN s R.DMC_SCRUB) 16 16 = 0 then s
    else put (passErrors (!busy && flag s F.DMC_STATUS_SCRUB_BUSY) (fun a => decide (lpBase ≤ a)) errs s)
      F.DMC_STATUS_SCRUB_BUSY (b2n busy))

def dmcState (s : State) : Nat := get s F.DMC_STATUS_STATE

/-- MR4_POLL: `hot` tells whether some die reports that it is above its upper limit. -/
def execMr4Poll (hot : Bool) (s : State) : Host.Outcome State Fault Refusal :=
  .next (if hot ∧ (dmcState s = 2 ∨ dmcState s = 3) then raise 29 (setF s F.DMC_FLAGS_LP5_HOT) else s)

/-- DQS_OSCILLATOR_CHECK: a drift is corrected by a delay step inside a refresh; no register shows it (R390). -/
def execDqsOscillatorCheck (s : State) : Host.Outcome State Fault Refusal := .next s

/-- A channel is in self-refresh. -/
def inSr (ch : Nat) (s : State) : Bool := bit (rdN s (R.DMC_CH_QUEUE ch)) 8

/-- Show the self-refresh of a channel, and the STATE of both. -/
def showSr (ch : Nat) (on : Bool) (s : State) : State :=
  let s1 := put s ⟨R.DMC_CH_QUEUE ch, 8, 1⟩ (b2n on)
  if dmcState s = 2 ∨ dmcState s = 3 then put s1 F.DMC_STATUS_STATE (if inSr 0 s1 && inSr 1 s1 then 3 else 2) else s1

/-- The writes that the channels hold have been issued. -/
def lpIssued (s : State) : State := { s with lpQueue := Vector.replicate 2 [] }

/-- SELF_REFRESH_ENTRY of a channel that has been idle long enough (R392). -/
def selfRefreshEntry (ch : Fin 2) (s : State) : State :=
  let idle := rdN s R.DMC_CFG / 2 ^ 16
  if (dmcState s = 2 ∨ dmcState s = 3) ∧ 0 < idle ∧ ¬ inSr ch s ∧ idle * 1000 ≤ s.beam - s.lpLast[ch.val] then
    showSr ch true (lifeAdd (addSat { s with lpQueue := vset s.lpQueue ch [] } R.DMC_SR_ENTRIES 1) (lifeNo 14 4 0) 1)
  else s

def execSelfRefreshEntry (ch : Fin 2) (s : State) : Host.Outcome State Fault Refusal := .next (selfRefreshEntry ch s)

/-- A request reaches a channel: it leaves self-refresh. -/
def lpRequest (ch : Fin 2) (s : State) : State :=
  showSr ch false { s with lpLast := vset s.lpLast ch s.beam }

def execSelfRefreshExit (ch : Fin 2) (s : State) : Host.Outcome State Fault Refusal :=
  .next (if inSr ch s then lpRequest ch s else s)

/-- The granules of a range. -/
def granules (a n : Nat) : List Nat := (List.range ((a + n - 1) / 64 - a / 64 + 1)).map (a / 64 + ·)

/-- A copy touches the channels of its granules. -/
def lpTouch (a n : Nat) (s : State) : State :=
  let gs := granules a n
  let s1 := if gs.any (fun g => g / 4 % 2 == 0) then lpRequest 0 s else s
  if gs.any (fun g => g / 4 % 2 == 1) then lpRequest 1 s1 else s1

/-- Writes enter the queues of their channels, each of which holds 64; older ones have been issued by then (R389). -/
def lpWrites (a n : Nat) (s : State) : State :=
  { s with lpQueue := Vector.ofFn fun (ch : Fin 2) =>
      let q := s.lpQueue[ch.val] ++ (granules a n).filter fun g => g / 4 % 2 == ch.val
      q.drop (q.length - 64) }

/-- A read of a granule that a write in the channel matches may find that write still waiting, and then waits for it. How many of
them wait is open; after the read those writes have been issued (R389). -/
def rawWaits (a n : Nat) (s : State) : State :=
  let gs := granules a n
  let held := gs.filter fun g => s.lpQueue[g / 4 % 2].contains g
  let (k, s1) := draw 24 s
  addSat { s1 with lpQueue := s.lpQueue.map fun q => q.filter fun g => !gs.contains g } R.DMC_RAW_WAITS (k % (held.length + 1))

/-- Requests that a channel holds: none while LP5 memory is not there or the channel is in self-refresh, else some of the
writes that have not certainly been issued. `n` is a free value. -/
def requestsHeld (ch : Fin 2) (n : Nat) (s : State) : Nat :=
  if dmcState s = 0 ∨ dmcState s = 1 ∨ dmcState s = 5 ∨ inSr ch s then 0 else n % (s.lpQueue[ch.val].length + 1)

/-! ## Frequency change and training (R393, R394) -/

/-- Show a command and its RESULT. -/
def dmcResult (cmd r : Nat) (s : State) : State := wrN s R.DMC_CMD_STATUS (cmd + 16 * r)

def dmcPending (s : State) : Bool := s.lpCmd != 0

/-- A command of DMC.CMD begins, or is over. -/
def runCmd (cmd : Nat) (s : State) : State := { s with lpCmd := cmd }

/-- The SPEED of a timing set. -/
def setSpeed (n : Nat) (s : State) : Nat := bits (rdN s (R.DMC_TSET n 0)) 0 3

/-- The timing set in use. -/
def activeSet (s : State) : Nat := get s F.DMC_STATUS_ACTIVE_SET

def freqChange (s : State) : State :=
  if dmcPending s ∨ (dmcState s ≠ 2 ∧ dmcState s ≠ 3) then dmcResult 1 2 s
  else if setSpeed (1 - activeSet s) s = 0 ∨ 4 < setSpeed (1 - activeSet s) s then dmcResult 1 3 s
  else forAll 2 (fun ch s => put s ⟨R.DMC_CH_QUEUE ch, 8, 1⟩ 1) (put (dmcResult 1 1 (runCmd 1 (lpIssued s))) F.DMC_STATUS_STATE 4)

def execFreqChange (sec : Bool) (s : State) : Host.Outcome State Fault Refusal :=
  .next (hostWrite sec R.DMC_CMD freqChange s)

/-- FREQ_CHANGE_DONE: step 6 of R393. -/
def freqChangeDone (s : State) : State :=
  if dmcState s ≠ 4 then s
  else
    let n := 1 - activeSet s
    let s1 := put (put (put s F.DMC_STATUS_ACTIVE_SET n) F.DMC_STATUS_SPEED (setSpeed n s)) F.DMC_STATUS_STATE 2
    let s2 := forAll 2 (fun ch s => lpRequest ch s) (dmcResult 1 0 (runCmd 0 s1))
    raise 29 (lifeAdd s2 (lifeNo 14 6 0) 1)

def execFreqChangeDone (s : State) : Host.Outcome State Fault Refusal := .next (freqChangeDone s)

/-- Training begins: both channels are out of self-refresh, and set 0 is in use (R394, R397). -/
def beginTraining (s : State) : State :=
  let s1 := forAll 2 (fun ch s => showSr ch false s) (lpIssued s)
  put (put (put s1 F.DMC_STATUS_ACTIVE_SET 0) F.DMC_STATUS_SPEED (setSpeed 0 s)) F.DMC_STATUS_STATE 1

def retrain (s : State) : State :=
  if dmcPending s ∨ dmcState s = 0 ∨ dmcState s = 1 then dmcResult 2 2 s
  else if ¬ allQuiet s then dmcResult 2 4 s
  else beginTraining (dmcResult 2 1 (runCmd 2 s))

def execRetrain (sec : Bool) (s : State) : Host.Outcome State Fault Refusal := .next (hostWrite sec R.DMC_CMD retrain s)

/-- TRAINING_DONE: `res` holds for each channel the last step passed, of five, and the eyes; `ok` tells that every step passed. A
channel failed where its own last step is not the fifth (R394). -/
def trainingDone (ok : Bool) (res : List (Nat × Nat × Nat)) (s : State) : State :=
  if dmcState s ≠ 1 then s
  else
    let last := fun (ch : Nat) => if ok then 5 else min 5 (res.getD ch (0, 0, 0)).1
    let s1 := forAll 2 (fun ch s =>
      let (_, re, we) := res.getD ch.val (0, 0, 0)
      wrN s (R.DMC_CH_TRAIN ch) (last ch + 8 * b2n (decide (last ch < 5)) + 2 ^ 8 * (re % 256) + 2 ^ 16 * (we % 256))) s
    let pass := last 0 = 5 ∧ last 1 = 5
    let again := dmcPending s
    let s2 := put s1 F.DMC_STATUS_STATE (if pass then 2 else 5)
    let s3 := if again then lifeAdd (dmcResult 2 (if pass then 0 else 5) (runCmd 0 s2)) (lifeNo 14 8 0) 1 else s2
    let s4 := if pass then forAll 2 (fun ch s => lpRequest ch s) s3 else lifeAdd s3 (lifeNo 14 7 0) 1
    if again ∨ ¬ pass then raise 28 s4 else s4

def execTrainingDone (ok : Bool) (res : List (Nat × Nat × Nat)) (s : State) : Host.Outcome State Fault Refusal :=
  .next (trainingDone ok res s)

/-! ## Memory descriptors (R395) -/

/-- The device address of a memory descriptor. -/
def memAddr (d : Desc) : Nat := d.at 20 5

/-- A range of LP5 memory as far as it is known: none is before the geometry is loaded (R397), and check 2 then answers. -/
def lpRange (a n : Nat) (s : State) : Bool :=
  decide (lpBase ≤ a) && (decide (a + n ≤ lpBase + lpSize s) || decide (lpSize s = 0))

/-- The checks of R395; `write` for MEM_WRITE. -/
def memChecks (c : Fin 256) (d : Desc) (write : Bool) (k : State → State) (s : State) : State :=
  let a := memAddr d
  if d.at 25 39 ≠ 0 ∨ d.len % 8 ≠ 0 ∨ a % 8 ≠ 0 ∨ d.len < 8 ∨ 0x100000 < d.len ∨
      ((memOf a d.len s).isNone ∧ ¬ lpRange a d.len s) ∨ (write ∧ a < lpBase) then formatZero c d.seq s
  else if lpBase ≤ a ∧ (dmcState s = 0 ∨ dmcState s = 5) then complete c d.seq stINTERLOCK (some 0) none false s
  else if ¬ rangeOk (ctxSecure c) a d.len s then
    complete c d.seq stWORLD_FAULT (some 0) none false (worldFault 2 c.val write 0xFF a s)
  else k s

/-- A word of a range that cannot be read: poison it holds, or an uncorrectable error met now. The syndrome `synd` of a word
known to be bad is open. -/
def badWord (a n synd : Nat) (errs : List (Nat × Nat × Nat)) (s : State) : Option (Nat × Nat × Nat) :=
  let poisoned := (List.range (n / 8)).find? fun i => s.poison.contains (a + 8 * i)
  let known := (List.range (n / 8)).find? fun i => s.sramBad.contains (a + 8 * i)
  let first := fun (x y : Nat × Nat × Nat) => if x.1 ≤ y.1 then x else y
  let hit := match errs.find? (fun e => e.1 < n && e.2.1 % 4 == 2), known with
    | some e, some i => some (first (8 * i, 2, synd) e)
    | none, some i => some (8 * i, 2, synd)
    | e, none => e
  match poisoned, hit with
  | some i, some e => if 8 * i ≤ e.1 then some (8 * i, 3, synd) else some (e.1 / 8 * 8, e.2.1, e.2.2)
  | some i, none => some (8 * i, 3, synd)
  | none, some e => some (e.1 / 8 * 8, e.2.1, e.2.2)
  | none, none => none

/-- Corrected errors met in a range. -/
def corrected (c : Fin 256) (a n : Nat) (errs : List (Nat × Nat × Nat)) (s : State) : State :=
  (errs.filter fun e => e.1 < n && e.2.1 % 4 == 1).foldl (fun s e => memError e.2.1 e.2.2 c (a + e.1 / 8 * 8) s) s

/-- The copy of MEM_READ; `errs` are errors met in the range, as (offset, KIND, syndrome). -/
def memReadCopy (c : Fin 256) (errs : List (Nat × Nat × Nat)) (d : Desc) (s : State) : State :=
  let a := memAddr d
  let (synd, s) := draw 25 s
  let s0 := if lpBase ≤ a then rawWaits a d.len (lpTouch a d.len s) else s
  match badWord a d.len synd errs s with
  | none =>
    complete c d.seq stOK (some d.len) (some 0) false
      (emit (.hostWrite d.addr (devRead a d.len s)) (corrected c a d.len errs s0))
  | some (o, kind, synd) =>
    let n := if lpBase ≤ a then (a + o) / 64 * 64 - a else o
    let s1 := memError kind synd c (a + o) (corrected c a o errs s0)
    let s2 := if n = 0 then s1 else emit (.hostWrite d.addr (devRead a n s)) s1
    complete c d.seq stMEMORY_ERROR (some n) (some (a + o)) false s2

/-- A request to LP5 memory waits through a training or a frequency change (R393, R394). -/
def lpWaits (d : Desc) (s : State) : Bool := decide (lpBase ≤ memAddr d) && (dmcState s == 1 || dmcState s == 4)

/-- The oldest copy of a context that has started and waits; a MEM_READ waits behind an earlier MEM_WRITE (R395). -/
def memWaiting (c : Fin 256) (s : State) : Option Desc := runningDesc (ctx s c) fun d => d.op == 0x74 || d.op == 0x75

/-- A copy that has passed its checks runs, or waits as started while LP5 memory takes no request. One that waited until LP5 memory
has failed gets MEMORY_ERROR (R394). -/
def memRun (c : Fin 256) (d : Desc) (copy : Desc → State → State) (s : State) : State :=
  if lpWaits d s then s
  else if lpBase ≤ memAddr d ∧ dmcState s = 5 then
    complete c d.seq stMEMORY_ERROR (some 0) (some (memAddr d)) false s
  else copy d s

/-- MEM_READ or MEM_WRITE: the copy that waits goes on, or the next descriptor of that opcode starts. -/
def memDesc (c : Fin 256) (op : Nat) (copy : Desc → State → State) (s : State) : State :=
  match memWaiting c s with
  | some d =>
    if lpWaits d s then withDesc c op (fun d => memChecks c d (op == 0x75) (memRun c d copy)) s
    else if d.op = op then memRun c d copy s else s
  | none => withDesc c op (fun d => memChecks c d (op == 0x75) (memRun c d copy)) s

def execMemRead (c : Fin 256) (errs : List (Nat × Nat × Nat)) (s : State) : Host.Outcome State Fault Refusal :=
  .next (memDesc c 0x74 (memReadCopy c errs) s)

/-- The granules that a range covers in part. -/
def partGranules (a n : Nat) : List Nat :=
  [(a, a % 64), (a + n, (a + n) % 64)].filterMap fun p => if p.2 = 0 then none else some (p.1 / 64 * 64)

/-- The copy of MEM_WRITE: the rest of a granule covered in part is read and merged, and a word of it that cannot be read becomes
poison; a word written whole loses its poison (R385, R389). The offsets of `errs` count from the granule in which the range
begins. -/
def memWriteCopy (c : Fin 256) (errs : List (Nat × Nat × Nat)) (d : Desc) (bs : List Byte) (s : State) : State :=
  let a := memAddr d
  let parts := partGranules a d.len
  let at_ := fun (e : Nat × Nat × Nat) => (a / 64 * 64 + e.1) / 8 * 8
  let met := errs.filter fun e => parts.contains (at_ e / 64 * 64)
  let left := (met.filter fun e => e.2.1 % 4 == 2 && !(decide (a ≤ at_ e) && decide (at_ e < a + d.len))).map at_
  let s1 := met.foldl (fun s e => memError e.2.1 e.2.2 c (at_ e) s) (lpWrites a d.len (lpTouch a d.len s))
  let s2 := heal a d.len { s1 with lp5 := memWrite s1.lp5 (a - lpBase) (bs.take d.len) }
  complete c d.seq stOK (some d.len) (some 0) false
    { s2 with poison := s2.poison ++ left.filter fun w => !s2.poison.contains w }

/-- MEM_WRITE with its payload; where that cannot be read, no byte is copied (R63, R395). -/
def memWriteRun (c : Fin 256) (r : DmaIn) (errs : List (Nat × Nat × Nat)) (d : Desc) (s : State) : State :=
  match r with
  | .ok bs => memWriteCopy c errs d bs s
  | .fail a kind => payloadFailAt c d.seq a kind (some 0) s

def execMemWrite (c : Fin 256) (r : DmaIn) (errs : List (Nat × Nat × Nat)) (s : State) : Host.Outcome State Fault Refusal :=
  .next (memDesc c 0x75 (memWriteRun c r errs) s)

/-! ## Registers (R393, R396) -/

/-- DMC_CONFIG_WRITE of DMC.CFG or DMC.SCRUB. -/
def dmcConfigWrite (sec scrub : Bool) (v : Word) (s : State) : State :=
  let o := if scrub then R.DMC_SCRUB else R.DMC_CFG
  cfgWrite sec o v (fun n _ => scrub || decide (1 ≤ bits n 8 8)) (fun s => setF s F.DMC_FLAGS_CFG_REFUSED)
    (fun n s => wrN s o n) s

def execDmcConfigWrite (sec scrub : Bool) (v : Word) (s : State) : Host.Outcome State Fault Refusal :=
  .next (dmcConfigWrite sec scrub v s)

/-- The bits of word `w` of a timing set that carry a field; the others are reserved and read 0 (R7). -/
def tsetMask (w : Nat) : Nat :=
  [0x00FFFF07, 0x00FFFFFF, 0x00FFFFFF, 0x0000FFFF, 0x0000FFFF, 0xFFFFFFFF, 0x0000FFFF, 0x0000000F].getD (w % 8) 0

/-- A write of a timing set: only the shadow takes it, in every state but FREQ_CHANGE (R393). -/
def tsetWrite (sec : Bool) (o : Nat) (v : Word) (s : State) : State :=
  cfgWrite sec o v (fun _ s => dmcState s != 4 && (o - R.DMC_TSET 0 0) / 0x20 != activeSet s) id
    (fun n s => wrN s o (n &&& tsetMask ((o - R.DMC_TSET 0 0) / 4))) s

/-- What the DMC counts at a tick: time with both channels in self-refresh. -/
def dmcTick (dt : Nat) (s : State) : State :=
  if inSr 0 s ∧ inSr 1 s then lifeTime (add64 s R.DMC_SR_TIME dt) (lifeNo 14 5 0) dt else s

end Machine
end Sys2Proof
end

