-- ==== Sys2Proof/Machine/Compress.lean ====
section
/-!
DEFINITION. Chapter 12: sharing the compression engines (R333), streams across descriptors and job descriptors
(R339-R343), internal jobs (R345, R346), faults and registers (R347, R348).
-/
namespace Sys2Proof
namespace Machine

/-! ## Jobs and engines (R333) -/

def cmpEnabled (e : Nat) (s : State) : Bool := bit (rdN s R.CMP_CFG) e
def cmpFaulted (e : Nat) (s : State) : Bool := bit (rdN s R.CMP_STATUS) (16 + e)
def jobsOf (e : Fin 2) (s : State) : List Job := s.cmpJobs[e.val]

/-- The jobs of an engine change: it is clocked for a job, and its idle time counts from the end of its last one (R408). -/
def setJobs (e : Fin 2) (f : List Job → List Job) (s : State) : State :=
  let s1 := { s with cmpJobs := vmod s.cmpJobs e f }
  if (jobsOf e s1).isEmpty then
    (if (jobsOf e s).isEmpty then s1 else { s1 with idleFrom := cellPut s1.idleFrom (0x3A + e.val) s1.beam })
  else ungate (0x3A + e.val) s1

/-- Show JOBS, and clear BUSY of an engine without work. -/
def showJobs (s : State) : State :=
  let s1 := put (put s F.CMP_STATUS_JOBS0 (jobsOf 0 s).length) F.CMP_STATUS_JOBS1 (jobsOf 1 s).length
  forAll 2 (fun e s =>
    if (jobsOf e s).any fun j => j.done.isNone then s else wrN s (R.ENGINE_CURRENT e) (bits (rdN s (R.ENGINE_CURRENT e)) 0 15))
    s1

/-- An engine that takes jobs; none does once a thermal shutdown has gated them (R420). -/
def engineOpen (e : Nat) (s : State) : Bool := cmpEnabled e s && !(cmpFaulted e s) && !s.sdGated

/-- The engine a job goes to. -/
def engineFor (bind : Nat) (s : State) : Option (Fin 2) :=
  let pick := if bind = 0 then some 0 else if bind = 1 then some 1
    else if engineOpen 0 s ∧ (¬ engineOpen 1 s ∨ (jobsOf 0 s).length ≤ (jobsOf 1 s).length) then some 0
    else some 1
  pick.filter fun e => engineOpen e s && decide ((jobsOf e s).length < 16)

/-- Give a job to its engine, or let it wait. -/
def placeJob (s : State) (j : Job) : State :=
  match engineFor j.bind s with
  | some e => setJobs e (· ++ [j]) s
  | none => { s with cmpWait := s.cmpWait ++ [j] }

/-- Offer the waiting jobs to the engines, in arrival order. -/
def feedEngines (s : State) : State := showJobs (s.cmpWait.foldl placeJob { s with cmpWait := [] })

/-- A new job. -/
def submitJob (j : Job) (s : State) : State := showJobs (placeJob s j)

/-! ## Blocks -/

/-- The position of the job that an engine's next block serves. -/
def nextJob (e : Fin 2) (s : State) : Option (Nat × Job) :=
  let l := (jobsOf e s).zipIdx.filter fun p => p.1.done.isNone
  let first := fun (k : Nat) => l.find? fun p => p.1.cls == k
  let r := (s.cmpRecent[e.val].take 15).countP (· == 3)
  let host := first 3
  let pick := if host.isSome ∧ r < get s F.CMP_CFG_HOST_MIN then host
    else first 0 <|> first 1 <|> first 2 <|> host
  pick.map fun p => (p.2, p.1)

/-- A job that has ended: its STATUS and CAUSE. -/
def Job.stop (j : Job) (st cause : Nat) : Job := { j with done := some (st, cause) }

/-- Room left for output. -/
def Job.room (j : Job) : Nat := j.outMax - j.out.length

/-- What is left of an encode job when its input is used up. -/
def encTail (j : Job) : Job :=
  if ¬ j.input.isEmpty then j
  else if ¬ j.fin then j.stop stOK 0
  else
    let o := (if j.codec.hdr then [] else streamHeader j.codec) ++ streamTrailer j.codec
    if j.room < o.length then j.stop stPARTIAL 1
    else { j with out := j.out ++ o, codec := { j.codec with hdr := true, ended := true }, done := some (stOK, 0) }

/-- The next block of an encode job, and whether it is RAW. -/
def encStep (j : Job) : Job × Bool :=
  if j.input.isEmpty then (encTail j, false)
  else
    let l := j.input.take j.codec.block
    let (b, raw, c) := encBlock j.codec l
    let o := (if j.codec.hdr then [] else streamHeader j.codec) ++ b
    if j.room < o.length then (j.stop stPARTIAL 1, false)
    else
      (encTail { j with
        input := j.input.drop l.length, used := j.used + l.length, out := j.out ++ o, codec := { c with hdr := true } }, raw)

/-- What a decode job does at a block boundary without another block. -/
def decTail (j : Job) : Job :=
  if j.input.isEmpty then j.stop stOK 0
  else if 4 ≤ j.input.length ∧ leAt j.input 0 4 = 0xFFFFFFFF then
    if j.input.length < 16 then j.stop stPARTIAL 2
    else if leAt j.input 4 8 = j.codec.total ∧ leAt j.input 12 4 = j.codec.crc32 then
      { j with used := j.used + 16, input := j.input.drop 16, codec := { j.codec with ended := true }, done := some (stOK, 0) }
    else j.stop stDATA_CHECK 0
  else j

/-- Read the header of a stream, whose MAGIC and FMT_VER have been checked where they were there. -/
def decHeader (j : Job) : Job :=
  if j.codec.hdr then j
  else if j.input.length < 16 then j.stop stPARTIAL 2
  else if leAt j.input 0 4 ≠ 0x31435747 ∨ leAt j.input 4 1 ≠ 1 ∨ ¬ paramsOkAny (leAt j.input 8 4) then j.stop stDATA_CHECK 0
  else { j with
    used := j.used + 16, input := j.input.drop 16
    codec := { Codec.start (leAt j.input 8 4) (leAt j.input 12 4) with hdr := true } }
where
  /-- PARAMS that a decoder can follow; WIDTH is taken as it stands (R346). -/
  paramsOkAny (p : Nat) : Bool := bits p 0 2 != 3 && bits p 12 3 ≤ 4

/-- The next block of a decode job. -/
def decStep (j0 : Job) : Job :=
  let j := decTail (decHeader j0)
  if j.done.isSome then j
  else if j.input.length < 8 then j.stop stPARTIAL 2
  else
    let clen := leAt j.input 0 4
    let olen := leAt j.input 4 2 + 1
    if j.room < olen then j.stop stPARTIAL 1
    else if j.input.length < 8 + clen then j.stop stPARTIAL 2
    else match decBlock j.codec (j.input.take 8) ((j.input.drop 8).take clen) with
      | none => j.stop stDATA_CHECK 0
      | some (l, c) =>
        decTail { j with used := j.used + 8 + clen, input := j.input.drop (8 + clen), out := j.out ++ l, codec := c }

/-- An uncorrectable error in the staging of the engines, at an address that the device meets (R347, R385). -/
def stagingError (base size : Nat) (s : State) : State :=
  let (a, s1) := draw 12 s
  let (y, s2) := draw 12 s1
  memError 2 (y % 256) 0 (0x2000000 + base + a % size / 8 * 8) s2

/-- One block of a job: the job after it, and whether the block is RAW. -/
def runBlock (ecc : Bool) (j : Job) : Job × Bool :=
  if ecc then (j.stop stMEMORY_ERROR 0, false) else if j.dec then (decStep j, false) else encStep j

/-- BLOCK_START: an engine takes its next block; `ecc` tells that its staging has an uncorrectable error. -/
def blockStart (e : Fin 2) (ecc : Bool) (s : State) : State :=
  if ¬ engineOpen e s then s
  else match nextJob e s with
    | none => s
    | some (i, j) =>
      let (j1, raw) := runBlock ecc j
      let host := j.kind == 0
      let s1 := setJobs e (fun l => l.set i j1) s
      let s2 := { s1 with cmpRecent := vmod s1.cmpRecent e fun l => (j.cls :: l).take 15 }
      let s3 := wrN s2 (R.ENGINE_CURRENT e) ((if host then j.ctx else 0) + 2 ^ 8 * j.cls + 2 ^ 15)
      let din := j1.used - j.used
      let dout := j1.out.length - j.out.length
      let s4 := add64 (add64 s3 (R.ENGINE_IN_BYTES e) din) (R.ENGINE_OUT_BYTES e) dout
      let s5 := lifeAdd (lifeAdd s4 (lifeNo 12 0 (2 * e + b2n j.dec)) din) (lifeNo 12 1 (2 * e + b2n j.dec)) dout
      let s6 := if raw then lifeAdd (addW s5 (R.ENGINE_RAW_BLOCKS e) 1) (lifeNo 12 3 e) 1 else s5
      showJobs (if ecc then
        raise 115 (lifeAdd (setF (stagingError 0x400000 0x400000 s6) F.CMP_FLAGS_MEMORY_ERROR) (lifeNo 12 6 e) 1)
      else s6)

def execBlockStart (e : Fin 2) (ecc : Bool) (s : State) : Host.Outcome State Fault Refusal := .next (blockStart e ecc s)

/-! ## State records (R339) -/

/-- The length of a stream's state record. -/
def recordLen (c : Codec) : Nat := 4096 + if c.pred = 3 then c.width * c.e else 0

/-- A state record: the engine's contents, whose layout is the model's (DESIGN CHOICE, notes/assumptions/225), and the
CRC-32C of the rest in the last 4 bytes. -/
def recordBytes (c : Codec) : List Byte :=
  let b := leBytes 4 c.params ++ leBytes 4 c.width ++ leBytes 4 (b2n c.hdr + 2 * b2n c.first + 4 * b2n c.ended) ++ leBytes 8 c.total ++
    leBytes 4 c.crc ++ leBytes 8 c.i ++ leBytes 4 c.hist.length ++ leBytes 4 c.lanes.length ++
    (c.lanes.flatMap fun l => leBytes 8 l.1 ++ leBytes 4 l.2) ++ c.hist.flatMap (leBytes c.e)
  let body := (b ++ List.replicate (recordLen c - 4 - b.length) 0#8).take (recordLen c - 4)
  body ++ leBytes 4 (crc32c body)

/-- The state that a record holds; none where its CRC fails. -/
def recordState (l : List Byte) : Option Codec :=
  let f := leAt l 8 4
  let lanes := leAt l 36 4
  let c0 : Codec := ⟨leAt l 0 4, leAt l 4 4, bit f 0, bit f 1, bit f 2, leAt l 12 8, leAt l 20 4, leAt l 24 8, [], []⟩
  let n := recordLen c0
  if n ≤ l.length ∧ leAt l (n - 4) 4 = crc32c (l.take (n - 4)) then
    some { c0 with
      lanes := (List.range lanes).map fun i => (leAt l (40 + 12 * i) 8, leAt l (48 + 12 * i) 4)
      hist := elemsOf c0.e (leAt l 32 4) (l.drop (40 + 12 * lanes)) }
  else none

/-- Write a stream's state record, where the job has a STATE_ADDR. -/
def putRecord (a : Nat) (c : Codec) (s : State) : State := if a = 0 then s else emit (.hostWrite a (recordBytes c)) s

/-! ## Completion (R340, R343, R345, R346) -/

/-- The state record of a job, at every completion but a refusal and one by an error of its staging. -/
def writeRecord (j : Job) (st : Nat) (s : State) : State :=
  if st = stMEMORY_ERROR then s else putRecord j.stateAddr j.codec s

/-- Complete a host job. -/
def finishHost (j : Job) (st cause : Nat) (s : State) : State :=
  let s1 := if j.out.isEmpty then s else emit (.hostWrite j.outAddr j.out) s
  if h : j.ctx < 256 then
    complete ⟨j.ctx, h⟩ j.seq st (some (j.used % 2 ^ 32 + 2 ^ 32 * j.out.length))
      (some (j.codec.crc32 + 2 ^ 32 * cause + 2 ^ 40 * b2n j.codec.ended)) false (writeRecord j st s1)
  else s1

/-- Complete a camera frame (R324, R346). -/
def finishFrame (j : Job) (st : Nat) (s : State) : State :=
  let ok := st == stOK
  let s1 := if ok then emit (.hostWrite j.outAddr j.out) s else s
  if h : j.ctx < 256 then
    complete ⟨j.ctx, h⟩ j.seq (if ok then (if bit j.resA 48 then stDATA_CHECK else stOK) else st) (some j.resA)
      (some (j.resB + if ok then j.out.length else 0)) false s1
  else s1

/-- The STATUS of a program load: every failure but one of memory or of the engine is DATA_CHECK (R345). -/
def loadStatus (j : Job) (st : Nat) : Nat :=
  if st = stMEMORY_ERROR ∨ st = stABORTED then st
  else if st = stOK ∧ j.codec.ended ∧ j.out.length = j.outMax then stOK else stDATA_CHECK

/-- A trace channel. -/
def trace (s : State) (c : Fin 64) : Trace := s.traces[c.val]

/-- Change a trace channel. -/
def setTrace (c : Fin 64) (f : Trace → Trace) (s : State) : State := { s with traces := vmod s.traces c f }

/-- A piece of a trace stream has been coded: it waits for its buffer, and its records leave the ring. A piece whose job failed is
coded again, so that every stream stays whole (R503; notes/assumptions/94). -/
def traceCoded (j : Job) (st : Nat) (s : State) : State :=
  setTrace (Fin.ofNat 64 j.resA) (fun x =>
    if st = stOK then { x with ring := x.ring.drop x.taken, taken := 0, coded := [j.out], codec := j.codec }
    else { x with taken := 0, cut := x.cut || j.resB == 1 }) s

/-- End a job with its outcome. -/
def finishJob (e : Fin 2) (j : Job) (st cause : Nat) (s : State) : State :=
  let st1 := if j.kind = 1 then loadStatus j st else st
  let s1 := lifeAdd (addW s (R.ENGINE_JOBS e) 1) (lifeNo 12 2 (4 * e + j.cls)) 1
  let s2 := if st1 = stPARTIAL then lifeAdd (addW s1 (R.ENGINE_PARTIALS e) 1) (lifeNo 12 4 e) 1
    else if st1 = stDATA_CHECK then
      raise 114 (lifeAdd (setF (addW s1 (R.ENGINE_DATA_CHECKS e) 1) F.CMP_FLAGS_DATA_CHECK_SEEN) (lifeNo 12 5 e) 1)
    else s1
  match j.kind with
  | 0 => finishHost j st cause s2
  | 1 => { s2 with cmpDone := s2.cmpDone ++ [{ j with done := some (st1, cause) }] }
  | 3 => traceCoded j st s2
  | _ => finishFrame j st s2

/-- JOB_COMPLETE: an engine completes its first job that has ended. -/
def jobComplete (e : Fin 2) (s : State) : State :=
  match (jobsOf e s).find? fun j => j.done.isSome with
  | none => s
  | some j =>
    let i := (jobsOf e s).findIdx fun j => j.done.isSome
    let (st, cause) := j.done.getD (0, 0)
    feedEngines (finishJob e j st cause (setJobs e (fun l => l.eraseIdx i) s))

/-! ## Job descriptors (R340-R342) -/

/-- A job in progress uses a state record (R339). -/
def recordInUse (a : Nat) (s : State) : Bool :=
  a != 0 && ((jobsOf 0 s ++ jobsOf 1 s ++ s.cmpWait).any fun j => j.stateAddr == a)

/-- Check 1 of R342. -/
def jobFormatOk (dec : Bool) (d : Desc) (st : StateIn) : Bool :=
  let start := d.fbit 14
  let fin := d.fbit 15
  let p := d.at 40 4
  let w := d.at 44 4
  let q := if start then p else match st with
    | .ok l => ((recordState l).map Codec.params).getD 0
    | _ => 0
  let c := Codec.start q 0
  d.at 48 16 == 0 && (if start && !dec then paramsOk p w else p == 0 && w == 0) &&
    (if dec then start || d.at 32 8 != 0
     else (start && fin || d.at 32 8 != 0) && d.len % c.e == 0 && (fin || d.fbit 16 || d.len % c.block == 0))

/-- Start a job on its input. A read that fails completes it with its state record written as it stands (R63, R339). -/
def startJob (c : Fin 256) (d : Desc) (dec : Bool) (codec : Codec) (r : DmaIn) (s : State) : State :=
  let s0 := match r with
    | .fail _ _ => putRecord (d.at 32 8) codec s
    | .ok _ => s
  withPayload c d.seq r (fun bs s =>
    let l := bs.take d.len
    if dec ∧ d.fbit 14 ∧ 5 ≤ l.length ∧ leAt l 4 1 ≠ 1 then complete c d.seq stVERSION (some 1) none false s
    else if dec ∧ d.fbit 14 ∧ 4 ≤ l.length ∧ leAt l 0 4 ≠ 0x31435747 then complete c d.seq stDATA_CHECK none none false s
    else submitJob ⟨3, c.val, d.seq, dec, l, 0, [], d.at 28 4, d.at 20 8, d.at 32 8, d.fbit 15, d.fbit 16, codec, none, 0,
      get s (F.HIF_CTX_CFG_BIND c), 0, 0⟩ s) s0

/-- CMP_ENCODE and CMP_DECODE. -/
def opJob (c : Fin 256) (dec : Bool) (r : DmaIn) (st : StateIn) (d : Desc) (s : State) : State :=
  blockCheck c d.seq 11 0xB0000 (fun s =>
    if ¬ jobFormatOk dec d st then formatZero c d.seq s
    else if recordInUse (d.at 32 8) s then complete c d.seq stBUSY none none false s
    else if d.fbit 14 then startJob c d dec (Codec.start (d.at 40 4) (d.at 44 4)) r s
    else match st with
      | .ok l => match recordState l with
        | some k => if k.ended then complete c d.seq stDATA_CHECK none none false s else startJob c d dec k r s
        | none => complete c d.seq stDATA_CHECK none none false s
      | .fail a kind => payloadFail c d.seq a kind s
      | .none => complete c d.seq stDATA_CHECK none none false s) s

def execCmpEncode (c : Fin 256) (r : DmaIn) (st : StateIn) (s : State) : Host.Outcome State Fault Refusal :=
  .next (withDesc c 0x50 (opJob c false r st) s)

def execCmpDecode (c : Fin 256) (r : DmaIn) (st : StateIn) (s : State) : Host.Outcome State Fault Refusal :=
  .next (withDesc c 0x51 (opJob c true r st) s)

/-! ## Faults and configuration (R347, R348) -/

/-- CMP_ENGINE_FAULT: the jobs in progress complete with ABORTED; waiting ones move where they may. -/
def cmpEngineFault (e : Fin 2) (s : State) : State :=
  if cmpFaulted e s then s
  else
    let s1 := put s ⟨R.CMP_STATUS, 16 + e, 1⟩ 1
    let s2 := (jobsOf e s).foldl (fun s j => finishJob e j stABORTED 0 s) (setJobs e (fun _ => []) s1)
    feedEngines (raise (112 + e) (lifeAdd s2 (lifeNo 12 7 e) 1))

def execCmpEngineFault (e : Fin 2) (s : State) : Host.Outcome State Fault Refusal := .next (cmpEngineFault e s)

/-- ENGINE_CLEAR_FAULT, a write of CTRL with CLEAR_FAULT = 1. -/
def execEngineClearFault (sec : Bool) (e : Fin 2) (s : State) : Host.Outcome State Fault Refusal :=
  .next (hostWrite sec (R.ENGINE_CTRL e) (fun s => feedEngines (put s ⟨R.CMP_STATUS, 16 + e, 1⟩ 0)) s)

/-- CMP_CONFIG_WRITE: a write of CMP.CFG. -/
def cmpConfigWrite (sec : Bool) (v : Word) (s : State) : State :=
  cfgWrite sec R.CMP_CFG v
    (fun n s => (fins 2).all fun e =>
      if bit n e then cmpEnabled e s || !s.sdGated else !(cmpEnabled e s) || (jobsOf e s).isEmpty)
    (fun s => setF s F.CMP_FLAGS_CFG_REFUSED) (fun n s => feedEngines (wrN s R.CMP_CFG n)) s

def execCmpConfigWrite (sec : Bool) (v : Word) (s : State) : Host.Outcome State Fault Refusal :=
  .next (cmpConfigWrite sec v s)

/-- What the engines show each millisecond: their busy fraction, which follows their timing. -/
def cmpLoad (s : State) : State :=
  forAll 2 (fun e s =>
    let (v, s1) := draw 13 s
    wrN s1 (R.ENGINE_LOAD e) (if (jobsOf e s).isEmpty ∧ rdN s (R.ENGINE_CURRENT e) = 0 then 0 else v % 65537)) s

end Machine
end Sys2Proof
end

