-- ==== Sys2Proof/Machine/Pixels.lean ====
section
/-!
DEFINITION. Chapter 11: the pixel stages (R311, R312), tap frames (R313), statistics and features (R317, R318), as
functions of a frame's lines.
-/
namespace Sys2Proof
namespace Machine

/-- A plane of pixels by column and row. -/
abbrev Plane := Nat → Nat → Int

/-- What the stages take from the registers of a sensor context: size, bits per pixel, BLACK and GAIN, COLOUR, BAYER,
luma coefficients, window (X0, Y0, W, H, BIN2), feature kind, threshold, shift, and feature window. -/
structure PixCfg where
  w : Nat
  h : Nat
  nb : Nat
  black : Nat
  gain : Nat
  colour : Bool
  bayer : Nat
  cr : Nat
  cg : Nat
  cb : Nat
  x0 : Nat
  y0 : Nat
  ww : Nat
  wh : Nat
  bin : Bool
  kind : Nat
  thr : Nat
  shift : Nat
  fx : Nat
  fy : Nat
  fw : Nat
  fh : Nat
  deriving DecidableEq, Repr

/-- Limit to 0 to 65,535. -/
def clip16 (x : Int) : Int := clampI 0 65535 x

/-- A coordinate mirrored about the edge pixels of `n`, again where the mirror image lies beyond the other edge. -/
def mirror (n : Nat) (i : Int) : Nat :=
  let k := i.natAbs % (2 * (n - 1))
  if k < n then k else 2 * (n - 1) - k

/-- A plane with mirrored edges. -/
def edgeRead (c : PixCfg) (p : Plane) (x y : Int) : Int := p (mirror c.w x) (mirror c.h y)

/-! ## The stages (R311, R312) -/

/-- T0 of a frame's lines. -/
def t0Of (c : PixCfg) (lines : List (List Nat)) : Plane :=
  fun x y => (((lines.getD y []).getD x 0) % 2 ^ c.nb * 2 ^ (16 - c.nb) : Nat)

/-- Level. -/
def levelOf (c : PixCfg) (v : Int) : Int := clip16 (((v - c.black) * c.gain + 2048).fdiv 4096)

/-- The colour of a site: 0 red, 1 green, 2 blue. -/
def siteOf (bayer x y : Nat) : Nat :=
  let top := match bayer with
    | 0 => [0, 1, 1, 2]
    | 1 => [1, 0, 2, 1]
    | 2 => [1, 2, 0, 1]
    | _ => [2, 1, 1, 0]
  top.getD (2 * (y % 2) + x % 2) 1

/-- Division rounded half up. -/
def halfUp (a : Int) (n : Nat) : Int := (a + n / 2).fdiv n

/-- The green value at a site (R312). -/
def greenAt (c : PixCfg) (t : Plane) (x y : Nat) : Int :=
  let r := fun (dx dy : Int) => edgeRead c t (x + dx) (y + dy)
  if siteOf c.bayer x y = 1 then t x y
  else
    let ch := 2 * r 0 0 - r (-2) 0 - r 2 0
    let cv := 2 * r 0 0 - r 0 (-2) - r 0 2
    let gh := halfUp (r (-1) 0 + r 1 0) 2 + halfUp ch 4
    let gv := halfUp (r 0 (-1) + r 0 1) 2 + halfUp cv 4
    let dh := (r (-1) 0 - r 1 0).natAbs + ch.natAbs
    let dv := (r 0 (-1) - r 0 1).natAbs + cv.natAbs
    clip16 (if dh < dv then gh else if dv < dh then gv else halfUp (gh + gv) 2)

/-- A red (0) or blue (2) value (R312): the site's own, or green plus the mean difference of the nearest sites. -/
def colourAt (c : PixCfg) (t : Plane) (col x y : Nat) : Int :=
  let here := siteOf c.bayer x y
  if here = col then t x y
  else
    let d := fun (dx dy : Int) =>
      let p := mirror c.w (x + dx)
      let q := mirror c.h (y + dy)
      t p q - greenAt c t p q
    let m :=
      if here = 1 then
        if siteOf c.bayer (mirror c.w (x - 1)) y = col then halfUp (d (-1) 0 + d 1 0) 2 else halfUp (d 0 (-1) + d 0 1) 2
      else halfUp (d (-1) (-1) + d 1 (-1) + d (-1) 1 + d 1 1) 4
    clip16 (greenAt c t x y + m)

/-- Luma. -/
def lumaAt (c : PixCfg) (t : Plane) : Plane := fun x y =>
  if c.colour then
    clip16 ((colourAt c t 0 x y * c.cr + greenAt c t x y * c.cg + colourAt c t 2 x y * c.cb + 8192).fdiv 16384)
  else t x y

/-- Size of the T4 output. -/
def t4Size (c : PixCfg) : Nat × Nat :=
  let w := if c.ww = 0 ∧ c.wh = 0 then c.w else c.ww
  let h := if c.ww = 0 ∧ c.wh = 0 then c.h else c.wh
  if c.bin then (w / 2, h / 2) else (w, h)

/-- Window. -/
def t4At (c : PixCfg) (y3 : Plane) : Plane := fun x y =>
  let x0 := if c.ww = 0 ∧ c.wh = 0 then 0 else c.x0
  let y0 := if c.ww = 0 ∧ c.wh = 0 then 0 else c.y0
  if c.bin then
    let a := x0 + 2 * x
    let b := y0 + 2 * y
    (y3 a b + y3 (a + 1) b + y3 a (b + 1) + y3 (a + 1) (b + 1) + 2).fdiv 4
  else y3 (x0 + x) (y0 + y)

/-- The pixels of a rectangle, by rows. -/
def pixelsOf (p : Plane) (x0 y0 w h : Nat) : List Int :=
  (List.range h).flatMap fun y => (List.range w).map fun x => p (x0 + x) (y0 + y)

/-- 16-bit pixels as bytes. -/
def bytes16 (l : List Int) : List Byte := l.flatMap fun v => leBytes 2 v.toNat

/-- A tap frame (R313). -/
def tapBytes (c : PixCfg) (tap : Nat) (lines : List (List Nat)) : List Byte :=
  let t0 := t0Of c lines
  let t1 : Plane := fun x y => levelOf c (t0 x y)
  let y3 := lumaAt c t1
  let (w, h) := t4Size c
  match tap with
  | 0 => bytes16 (pixelsOf t0 0 0 c.w c.h)
  | 1 => bytes16 (pixelsOf t1 0 0 c.w c.h)
  | 2 =>
    if c.colour then
      (List.range c.h).flatMap fun y => (List.range c.w).flatMap fun x =>
        bytes16 [colourAt c t1 0 x y, greenAt c t1 x y, colourAt c t1 2 x y]
    else bytes16 (pixelsOf t1 0 0 c.w c.h)
  | 3 => bytes16 (pixelsOf y3 0 0 c.w c.h)
  | _ => bytes16 (pixelsOf (t4At c y3) 0 0 w h)

/-- Bytes of a tap line and lines of a tap frame (R313); no lines for TAP none. -/
def tapShape (c : PixCfg) (tap : Nat) : Nat × Nat :=
  let (w, h) := t4Size c
  if tap = 2 ∧ c.colour then (6 * c.w, c.h)
  else if tap ≤ 3 then (2 * c.w, c.h)
  else if tap = 4 then (2 * w, h) else (0, 0)

def tapSize (c : PixCfg) (tap : Nat) : Nat := (tapShape c tap).1 * (tapShape c tap).2

/-! ## Statistics (R317, R318) -/

/-- AREA, INTENSITY, PEAK, CX and CY over the feature window. -/
structure Feat where
  area : Nat
  intensity : Int
  peak : Int
  cx : Nat
  cy : Nat
  deriving DecidableEq, Repr

/-- The feature quantities of a T4 plane. -/
def featOf (c : PixCfg) (t4 : Plane) : Feat :=
  let (w, h) := t4Size c
  let fw := if c.fw = 0 ∧ c.fh = 0 then w else c.fw
  let fh := if c.fw = 0 ∧ c.fh = 0 then h else c.fh
  let x0 := if c.fw = 0 ∧ c.fh = 0 then 0 else c.fx
  let y0 := if c.fw = 0 ∧ c.fh = 0 then 0 else c.fy
  let ps := (List.range fh).flatMap fun y => (List.range fw).map fun x => (x0 + x, y0 + y, t4 (x0 + x) (y0 + y))
  let hot := ps.filter fun p => decide ((c.thr : Int) ≤ p.2.2)
  let n := hot.length
  let mean := fun (s : Nat) => if n = 0 then 0 else (s * 16 + n / 2) / n
  ⟨n, clampI (-(2 ^ 31)) (2 ^ 31 - 1) ((hot.foldl (fun (a : Int) p => a + (p.2.2 - (c.thr : Int))) 0).fdiv (2 ^ c.shift)),
    ps.foldl (fun a p => max a p.2.2) 0, mean (sumN (hot.map fun p => p.1)), mean (sumN (hot.map fun p => p.2.1))⟩

/-- FEATURE of a KIND. -/
def featureOf (c : PixCfg) (f : Feat) : Int := match c.kind with
  | 0 => f.area
  | 1 => f.intensity
  | _ => f.peak

/-- Pixels under the window whose T0 value is the largest code of the data type. -/
def satCount (c : PixCfg) (lines : List (List Nat)) : Nat :=
  let whole := c.ww = 0 ∧ c.wh = 0
  let l := if whole then pixelsOf (t0Of c lines) 0 0 c.w c.h else pixelsOf (t0Of c lines) c.x0 c.y0 c.ww c.wh
  l.countP fun (v : Int) => v == (((2 ^ c.nb - 1) * 2 ^ (16 - c.nb) : Nat) : Int)

/-- The 384 bytes of a statistics block, from its first 24 bytes (number, generation, FLAGS, stamps). -/
def statsBytes (c : PixCfg) (head : List Byte) (lines : List (List Nat)) : List Byte :=
  let t1 : Plane := fun x y => levelOf c (t0Of c lines x y)
  let t4 := t4At c (lumaAt c t1)
  let (w, h) := t4Size c
  let ys := pixelsOf t4 0 0 w h
  let f := featOf c t4
  head ++ leBytes 2 w ++ leBytes 2 h ++
    leBytes 2 (ys.foldl min 65535).toNat ++ leBytes 2 (ys.foldl max 0).toNat ++
    leBytes 8 (ys.foldl (· + ·) 0).toNat ++ leBytes 4 (satCount c lines) ++ leBytes 4 (code 32 (featureOf c f)) ++
    leBytes 4 f.area ++ leBytes 4 (code 32 f.intensity) ++ leBytes 4 f.cx ++ leBytes 4 f.cy ++ leBytes 2 f.peak.toNat ++
    List.replicate 62 0#8 ++
    (List.range 64).flatMap fun k => leBytes 4 (ys.countP fun v => v.toNat / 1024 == k)

end Machine
end Sys2Proof
end

