-- ==== Sys2Proof/Machine/Imaging.lean ====
section
/-!
DEFINITION. Chapter 11: the camera ports (R304, R305), sensor contexts (R306-R310), sharing a pipeline (R314-R316),
frames' results (R313, R317-R319), sensor settings (R320-R323), camera descriptors (R324-R326), parameters (R327) and
pipeline faults (R328).
-/
namespace Sys2Proof
namespace Machine

/-! ## Sensor contexts -/

def sn (s : State) (n : Fin 16) : Sens := s.sens[n.val]
def setSn (n : Fin 16) (f : Sens → Sens) (s : State) : State := { s with sens := vmod s.sens n f }
def sensState (n : Nat) (s : State) : Nat := get s (F.SENS_STATUS_STATE n)
def sensPipe (n : Nat) (s : State) : Fin 2 := ⟨get s (F.SENS_CFG_PIPE n) % 2, by omega⟩
def sensPort (n : Nat) (s : State) : Fin 4 := ⟨get s (F.SENS_CFG_PORT n) % 4, by omega⟩
def sensOn (n : Nat) (s : State) : Bool := flag s (F.SENS_CFG_EN n)
def pipeFaulted (x : Nat) (s : State) : Bool := flag s (F.PIPE_STATUS_FAULT x)

/-- Enter a state of R307, shown in STREAMING too. -/
def sensEnter (n st : Nat) (s : State) : State :=
  put (put s (F.SENS_STATUS_STATE n) st) ⟨R.IMG_STATUS, n, 1⟩ (b2n (st == 2))

/-- A report flag with event 80 + n (R330). -/
def sensReport (f : Fld) (n : Nat) (s : State) : State := raiseOnSet f (80 + n) s

/-- Bits per pixel of a data type (R304). -/
def dtBits (dt : Nat) : Nat := 8 + 2 * (dt - 0x2A)

/-- What the stages take from the registers, with the five registers that a frame keeps from its start (R327). -/
def pixCfg (n : Nat) (par : List Nat) (s : State) : PixCfg :=
  let lv := par.getD 0 0
  let fc := par.getD 1 0
  let fp := par.getD 3 0
  let fs := par.getD 4 0
  ⟨get s (F.SENS_SIZE_WIDTH n), get s (F.SENS_SIZE_HEIGHT n), dtBits (get s (F.SENS_CFG_DT n)), bits lv 0 16, bits lv 16 16,
    flag s (F.SENS_CFG_COLOUR n), get s (F.SENS_CFG_BAYER n), get s (F.SENS_LUMA_CR n), get s (F.SENS_LUMA_CG n),
    get s (F.SENS_LUMA_B_CB n), get s (F.SENS_WINDOW_X0 n), get s (F.SENS_WINDOW_Y0 n), get s (F.SENS_WINDOW_SIZE_W n),
    get s (F.SENS_WINDOW_SIZE_H n), flag s (F.SENS_WINDOW_SIZE_BIN2 n), bits fc 0 2, bits (par.getD 2 0) 0 16, bits fc 16 5,
    bits fp 0 14, bits fp 16 14, bits fs 0 14, bits fs 16 14⟩

/-- The five registers of R327. -/
def sensPar (n : Nat) (s : State) : List Nat :=
  [rdN s (R.SENS_LEVEL n), rdN s (R.SENS_FEAT_CFG n), rdN s (R.SENS_FEAT_THR n), rdN s (R.SENS_FEAT_WIN_POS n),
    rdN s (R.SENS_FEAT_WIN_SIZE n)]

/-- Five values of R327 that a sensor context accepts under its other registers. -/
def parOk (n : Nat) (par : List Nat) (s : State) : Bool :=
  let c := pixCfg n par s
  let (w, h) := t4Size c
  c.kind != 3 && bits (par.getD 1 0) 4 6 < 48 &&
    ((c.fw == 0 && c.fh == 0) || (decide (c.fx + c.fw ≤ w) && decide (c.fy + c.fh ≤ h)))

/-- The enabled sensor context of a port and virtual channel; the device enables at most one (R306). -/
def sensFor (p vc : Nat) (s : State) : Option (Fin 16) :=
  (fins 16).find? fun (n : Fin 16) => sensOn n s && get s (F.SENS_CFG_PORT n) == p && get s (F.SENS_CFG_VC n) == vc

/-! ## Pipelines (R314-R316) -/

/-- Slots a frame holds. -/
def Frame.slots (f : Frame) : Nat := f.lines.length - f.done

/-- Lines a sensor context has in the buffer. -/
def sensLines (n : Fin 16) (s : State) : Nat := (sn s n).frames.foldl (fun a f => a + f.slots) 0

/-- The sensor contexts of a pipeline. -/
def pipeSens (x : Nat) (s : State) : List (Fin 16) := (fins 16).filter fun (n : Fin 16) => (sensPipe n s).val == x

def bufLines (x : Nat) (s : State) : Nat := sumN ((pipeSens x s).map fun n => sensLines n s)

/-- Show CURRENT, BUF_LINES and their peak. -/
def showPipe (x : Fin 2) (s : State) : State :=
  let n := bufLines x s
  let s1 := put (put s (F.PIPE_STATUS_CURRENT x) (s.pipeCur[x.val].getD 0x1F)) (F.PIPE_STATUS_BUF_LINES x) n
  lifeMax (wrN s1 (R.PIPE_PEAK x) (max (bits (rdN s1 (R.PIPE_PEAK x)) 0 7) n)) (lifeNo 11 12 x) n

/-- The first of a list with the greatest PRIO (R315). -/
def topPrio (l : List (Fin 16)) (s : State) : Option (Fin 16) :=
  l.foldl (fun best n => match best with
    | none => some n
    | some b => if get s (F.SENS_CFG_PRIO b) < get s (F.SENS_CFG_PRIO n) then some n else some b) none

/-- The pipeline goes over to another context. -/
def turnMoves : Option Nat → Option Nat → Bool
  | some a, some b => a != b
  | none, some _ => true
  | _, none => false

/-- A turn: the context of highest PRIO that has a line in the buffer, or none (R315). -/
def pipeTurn (x : Fin 2) (s : State) : State :=
  let n := topPrio ((pipeSens x s).filter fun n => decide (0 < sensLines n s)) s
  let moved := turnMoves (s.pipeCur[x.val]) (n.map Fin.val)
  showPipe x { s with
    pipeCur := vset s.pipeCur x (n.map Fin.val)
    pipeBusy := if moved then vmod s.pipeBusy x (· + 64) else s.pipeBusy }

/-- The position of the frame that a context's pipeline works on: the first with unprocessed lines to come. -/
def workFrame (n : Fin 16) (s : State) : Nat :=
  (sn s n).frames.findIdx fun f => !(f.ended && f.done == f.lines.length)

/-! ## Buffers of frames (R324, R326) -/

/-- A descriptor of a ring context still waits, also one that an event of R68 cut loose (R329). -/
def stillWaits (c q : Nat) (s : State) : Bool :=
  match s.ctxs[c]? with
  | some x => (x.orphans ++ x.fetched).any fun d => d.seq == q && !d.dup && d.compl.isNone
  | none => false

/-- Complete by context number. -/
def completeN (c q st : Nat) (a b : Option Nat) (s : State) : State :=
  if h : c < 256 then complete ⟨c, h⟩ q st a b false s else s

/-- RESULT_A of a frame's buffers. -/
def frameA (f : Frame) : Nat := f.seq + 2 ^ 32 * f.gen + 2 ^ 48 * b2n f.dam

/-- Complete a frame's buffers without data. -/
def abortBufs (n : Nat) (f : Frame) (s : State) : State :=
  let s1 := match f.buf with
    | some (c, q, _) => completeN c q stABORTED (some (frameA f)) (some (2 ^ 32 * get s (F.SENS_CFG_TAP n))) s
    | none => s
  match f.stats with
  | some (c, q, _) => completeN c q stABORTED (some (frameA f)) (some 384) s1
  | none => s1

/-- Take the first waiting buffer of a kind. -/
def takeBuf (stats : Bool) (n : Fin 16) (s : State) : Option (Nat × Nat × Nat × Nat × Bool) × State :=
  let l := (sn s n).bufs.filter fun b => stillWaits b.2.1 b.2.2.1 s
  match l.find? fun b => b.1 == stats with
  | none => (none, setSn n (fun x => { x with bufs := l }) s)
  | some b => (some b.2, setSn n (fun x => { x with bufs := l.erase b }) s)

/-! ## Dropping a frame (R316, R328) -/

/-- Remove a frame whose slots are freed. -/
def removeFrame (n : Fin 16) (i : Nat) (s : State) : State :=
  match (sn s n).frames[i]? with
  | none => s
  | some f =>
    let x := sensPipe n s
    let turn := s.pipeCur[x.val] == some n.val && workFrame n s == i
    let s1 := abortBufs n f (setSn n (fun y => { y with frames := y.frames.eraseIdx i, dropped := y.dropped || !f.ended }) s)
    if turn then pipeTurn x s1 else showPipe x s1

/-- Drop a frame. -/
def dropFrame (n : Fin 16) (i : Nat) (s : State) : State :=
  let x := sensPipe n s
  let s1 := addSat (addSat (removeFrame n i s) (R.SENS_DROPS n) 1) (R.PIPE_DROPS x) 1
  let s2 := lifeAdd (lifeAdd s1 (lifeNo 11 1 n) 1) (lifeNo 11 11 x) 1
  raise (102 + x) (sensReport (F.SENS_FLAGS_DROPPED n) n s2)

/-- The frame that an arriving line of context `n` forces out (R316). -/
def dropPick (x : Fin 2) (n : Fin 16) (s : State) : Option (Fin 16 × Nat) :=
  let all := (pipeSens x s).flatMap fun k => ((sn s k).frames.zipIdx.filter fun p =>
    decide (0 < p.1.slots) || (k == n && !p.1.ended)).map fun p => (k, p.2)
  let busy := fun (p : Fin 16 × Nat) => s.pipeCur[x.val] == some p.1.val && workFrame p.1 s == p.2
  let l := all.filter fun p => !busy p
  let low := fun (l : List (Fin 16 × Nat)) => l.foldl (fun (b : Option (Fin 16 × Nat)) p => match b with
    | none => some p
    | some q => if get s (F.SENS_CFG_PRIO p.1) ≤ get s (F.SENS_CFG_PRIO q.1) then some p else some q) none
  if l.isEmpty then low all else low l

/-- Drop frames until a slot is free, or until the arriving line belongs to no frame any more. -/
def makeRoom : Nat → Fin 2 → Fin 16 → State → State
  | 0, _, _, s => s
  | k + 1, x, n, s =>
    if bufLines x s < 64 ∨ (sn s n).frames.all Frame.ended then s
    else match dropPick x n s with
      | none => s
      | some (m, i) => makeRoom k x n (dropFrame m i s)

/-! ## Packets (R304, R305, R308, R309) -/

/-- Discard a packet with a valid header (R305). -/
def portDiscard (p : Fin 4) (s : State) : State :=
  lifeAdd (raiseOnSet (F.PORT_FLAGS_DISCARD p) (96 + p) (addSatF s (F.PORT_CRC_ERR_DISCARDED p) 1)) (lifeNo 11 9 p) 1

/-- The position of the frame being received. -/
def openFrame (n : Fin 16) (s : State) : Option Nat := (sn s n).frames.findIdx? fun f => !f.ended

/-- Change a frame. -/
def setFrame (n : Fin 16) (i : Nat) (f : Frame → Frame) (s : State) : State :=
  setSn n (fun x => { x with frames := x.frames.modify i f }) s

/-- End the frame being received; a pipeline that was waiting for its lines turns. -/
def endFrame (n : Fin 16) (fe : Nat) (dam : Bool) (s : State) : State :=
  match openFrame n s with
  | none => s
  | some i =>
    let x := sensPipe n s
    let h := get s (F.SENS_SIZE_HEIGHT n)
    let mine := s.pipeCur[x.val] == some n.val && workFrame n s == i
    let s1 := setFrame n i (fun f => { f with ended := true, fe := fe, dam := f.dam || dam || f.lines.length != h }) s
    if mine ∧ workFrame n s1 ≠ i then pipeTurn x s1 else s1

/-- A frame number is at or after `f`, modulo 2^32 (R322). -/
def seqReached (f q : Nat) : Bool := (q + 2 ^ 32 - f) % 2 ^ 32 < 2 ^ 31

/-- The frame's settings write that is in progress at a frame start (R321). -/
def settingsLate (n : Fin 16) (s : State) : State :=
  let p := sensPort n s
  if s.cciRun[p.val] ∧ s.cci[p.val].head?.any fun l => l.sensor == n.val && l.gen != 0 then
    sensReport (F.SENS_FLAGS_SETTINGS_LATE n) n s
  else s

/-- Number a new frame and give it its generation and buffers (R308, R322, R326). -/
def newFrame (n : Fin 16) (t : Nat) (s0 : State) : State :=
  let s := ungate (0x38 + (sensPipe n s0).val) s0
  let q := (rdN s (R.SENS_FRAME_SEQ n) + 1) % 2 ^ 32
  let g := ((sn s n).gens.find? fun g => seqReached g.2 q).map Prod.fst
  let gen := g.getD (get s (F.SENS_STATUS_GEN n))
  let s1 := wr64 (wrN s (R.SENS_FRAME_SEQ n) q) (R.SENS_FS_TIME n) t
  let s2 := put (setF s1 (F.SENS_STATUS_IN_FRAME n)) (F.SENS_STATUS_GEN n) gen
  let tap := get s (F.SENS_CFG_TAP n)
  let (buf, s3) := if tap = 7 then (none, s2) else takeBuf false n s2
  let (st, s4) := takeBuf true n s3
  let f : Frame := ⟨q, gen, flag s (F.SENS_STATUS_SETTINGS_UNCERTAIN n), t, 0, sensPar n s, [], 0, false, false, buf,
    st.map fun b => (b.1, b.2.1, b.2.2.1)⟩
  let s5 := setSn n (fun x => { x with frames := x.frames ++ [f], dropped := false }) s4
  let s6 := lifeAdd s5 (lifeNo 11 0 n) 1
  if buf.isNone then
    lifeAdd (sensReport (F.SENS_FLAGS_NO_BUFFER n) n (addSat s6 (R.SENS_NO_BUFFER_COUNT n) 1)) (lifeNo 11 3 n) 1
  else s6

/-- FRAME_START, `t` its stamp (R308). -/
def frameStart (p : Fin 4) (vc t : Nat) (s : State) : State :=
  if ¬ flag s (F.PORT_PHY_CFG_EN p) then s
  else match sensFor p vc s with
    | none => portDiscard p s
    | some n =>
      if sensState n s = 4 then portDiscard p s
      else
        let (v, s0) := draw 14 s
        let s1 := match openFrame n s with
          | some _ => add64 (endFrame n (v % 2 ^ 64) true s0) (R.SENS_FRAMES n) 1
          | none => s
        let s2 := settingsLate n (newFrame n t (sensEnter n 2 s1))
        if pipeFaulted (sensPipe n s) s then dropFrame n ((sn s2 n).frames.length - 1) s2 else s2

def execFrameStart (p : Fin 4) (vc dt : Nat) (s : State) : Host.Outcome State Fault Refusal :=
  .next (frameStart p vc (s.now + dt) s)

/-! ## CCI lists (R320-R323) -/

/-- Show SETTINGS_PENDING. -/
def showSettings (n : Fin 16) (s : State) : State :=
  put s (F.SENS_STATUS_SETTINGS_PENDING n)
    (b2n (s.cci.toList.any fun q => q.any fun l => l.sensor == n.val && l.gen != 0))

def setCci (p : Fin 4) (f : List CciList → List CciList) (s : State) : State := { s with cci := vmod s.cci p f }

/-- The waiting lists of a sensor context become ready, in ring order, behind the lists that are. -/
def readyLists (n : Fin 16) (s : State) : State :=
  setCci (sensPort n s) (fun q =>
    let mine := fun (l : CciList) => !l.ready && l.sensor == n.val
    q.filter (fun l => l.ready) ++ (q.filter mine).map (fun l => { l with ready := true }) ++
      q.filter (fun l => !l.ready && l.sensor != n.val)) s

/-- FRAME_END, `t` its stamp. -/
def frameEnd (p : Fin 4) (vc t : Nat) (s : State) : State :=
  if ¬ flag s (F.PORT_PHY_CFG_EN p) then s
  else match sensFor p vc s with
    | none => portDiscard p s
    | some n =>
      if sensState n s = 4 then portDiscard p s
      else if ¬ flag s (F.SENS_STATUS_IN_FRAME n) then s
      else
        let s1 := add64 (wr64 (clrF s (F.SENS_STATUS_IN_FRAME n)) (R.SENS_FE_TIME n) t) (R.SENS_FRAMES n) 1
        let s2 := setSn n (fun x => { x with lastEnd := some (rdN s (R.SENS_FRAME_SEQ n), t, s.beam), dropped := false }) s1
        readyLists n (endFrame n t false s2)

def execFrameEnd (p : Fin 4) (vc dt : Nat) (s : State) : Host.Outcome State Fault Refusal :=
  .next (frameEnd p vc (s.now + dt) s)

/-- The line that stands for a missing or unreadable one (R309). -/
def fillLine (lines : List (List Nat)) (w : Nat) : List Nat := lines.getLast?.getD (List.replicate w 0)

/-- Put a line into the frame being received; `good` where it is readable and whole. -/
def takeLine (n : Fin 16) (pix : List Nat) (good : Bool) (s : State) : State :=
  let x := sensPipe n s
  let s1 := makeRoom 17 x n s
  match openFrame n s1 with
  | none => s1
  | some i =>
    let w := get s (F.SENS_SIZE_WIDTH n)
    let s2 := setFrame n i (fun f => { f with
      lines := f.lines ++ [if good then pix else fillLine f.lines w], dam := f.dam || !good }) s1
    if s2.pipeCur[x.val].isNone then pipeTurn x s2 else showPipe x s2

/-- LINE_PACKET: a long packet; `hdr` 0 good, 1 corrected, 2 with a 2-bit error. -/
def linePacket (p : Fin 4) (vc dt : Nat) (hdr : Fin 3) (crcOk : Bool) (pix : List Nat) (s : State) : State :=
  if ¬ flag s (F.PORT_PHY_CFG_EN p) then s
  else if hdr.val = 2 then
    lifeAdd (raiseOnSet (F.PORT_FLAGS_ECC_FATAL p) (96 + p) (addSatF s (F.PORT_CSI_ERR_ECC_FATAL p) 1)) (lifeNo 11 7 p) 1
  else
    let s0 := if hdr.val = 1 then lifeAdd (addSatF s (F.PORT_CSI_ERR_ECC_CORRECTED p) 1) (lifeNo 11 7 p) 1 else s
    match (sensFor p vc s).filter fun (n : Fin 16) => get s (F.SENS_CFG_DT n) == dt with
    | none => portDiscard p s0
    | some n =>
      if sensState n s = 4 then portDiscard p s0
      else
        let s1 := if crcOk then s0
          else lifeAdd (raiseOnSet (F.PORT_FLAGS_CRC p) (96 + p) (addSatF s0 (F.PORT_CRC_ERR_CRC p) 1)) (lifeNo 11 8 p) 1
        match openFrame n s1 with
        | none => s1
        | some i =>
          let f := (sn s1 n).frames[i]?
          if f.any fun f => f.lines.length < get s (F.SENS_SIZE_HEIGHT n) then
            takeLine n pix (crcOk && pix.length == get s (F.SENS_SIZE_WIDTH n)) s1
          else setFrame n i (fun f => { f with dam := true }) s1

def execLinePacket (p : Fin 4) (vc dt : Nat) (hdr : Fin 3) (crcOk : Bool) (pix : List Nat) (s : State) :
    Host.Outcome State Fault Refusal := .next (linePacket p vc dt hdr crcOk pix s)

/-- The lines with line `i` replaced by the one before it. -/
def hideLine (i w : Nat) (l : List (List Nat)) : List (List Nat) := l.set i (fillLine (l.take i) w)

/-- LINE_PROCESSED: the pipeline finishes a line; `ecc` tells of an uncorrectable error in its slot. -/
def lineProcessed (x : Fin 2) (ecc : Bool) (s : State) : State :=
  if pipeFaulted x s then s
  else match s.pipeCur[x.val] with
    | none => s
    | some m =>
      if h : m < 16 then
        let n : Fin 16 := ⟨m, h⟩
        let i := workFrame n s
        match (sn s n).frames[i]? with
        | none => s
        | some f =>
          if f.lines.length ≤ f.done then s
          else
            let w := get s (F.SENS_SIZE_WIDTH n)
            let d := f.done + 1
            let s1 := if ecc then
                stagingError 0 0x400000
                  (setFrame n i (fun f => { f with dam := true, lines := hideLine f.done w f.lines }) s)
              else s
            let s2 := setFrame n i (fun f => { f with done := d }) s1
            let s3 := { s2 with pipeBusy := vmod s2.pipeBusy x (· + cdiv w 2 + 32) }
            let last := d == get s (F.SENS_SIZE_HEIGHT n) || (f.ended && d == f.lines.length)
            if last ∨ (flag s (F.PIPE_CFG_SHARE x) ∧ d % 32 = 0) then pipeTurn x s3 else showPipe x s3
      else s

def execLineProcessed (x : Fin 2) (ecc : Bool) (s : State) : Host.Outcome State Fault Refusal :=
  .next (lineProcessed x ecc s)

/-! ## Results of a frame (R309, R313, R317-R319, R346) -/

/-- The parameters of a packed tap frame (R346). -/
def packCodec (c : PixCfg) (tap : Nat) : Codec :=
  Codec.start (1 + 3 * 4 + (if tap = 2 ∧ c.colour then 2 * 16 else 0) + 2 ^ 10 + 2 * 2 ^ 12) ((tapShape c tap).1 / 2)

/-- Write the tap data of a frame into its buffer, at once or through an engine. -/
def writeTap (n : Nat) (c : PixCfg) (f : Frame) (lines : List (List Nat)) (s : State) : State :=
  match f.buf with
  | none => s
  | some (k, q, addr, len, pack) =>
    let tap := get s (F.SENS_CFG_TAP n)
    let bs := tapBytes c tap lines
    if pack then
      submitJob ⟨1, k, q, false, bs, 0, [], len, addr, 0, true, false, packCodec c tap, none, 2, 0xFF, frameA f,
        2 ^ 32 * tap⟩ s
    else
      completeN k q (if f.dam then stDATA_CHECK else stOK) (some (frameA f)) (some ((bs.take len).length + 2 ^ 32 * tap))
        (emit (.hostWrite addr (bs.take len)) s)

/-- Write the statistics block of a frame into its buffer. -/
def writeStats (c : PixCfg) (f : Frame) (sent : Bool) (lines : List (List Nat)) (s : State) : State :=
  match f.stats with
  | none => s
  | some (k, q, addr) =>
    let head := leBytes 4 f.seq ++ leBytes 2 f.gen ++
      leBytes 2 (b2n f.dam + 2 * b2n f.unsure + 4 * b2n sent + 8 * b2n c.colour) ++ leBytes 8 f.fs ++ leBytes 8 f.fe
    completeN k q (if f.dam then stDATA_CHECK else stOK) (some (frameA f)) (some 384)
      (emit (.hostWrite addr (statsBytes c head lines)) s)

/-- Deliver the feature of a frame (R319): whether it was delivered. -/
def sendFeature (n : Nat) (f : Frame) (v : Int) (s : State) : Bool × State :=
  let fc := f.par.getD 1 0
  if ¬ bit fc 12 ∨ f.dam then (false, s)
  else if h : bits fc 4 6 < 48 then
    let g : Fin 48 := ⟨bits fc 4 6, h⟩
    if stableEn (g.val / 8) s then (true, featureDelivery g (wordOf v) f.seq f.gen s)
    else (false, sensReport (F.SENS_FLAGS_FEAT_UNDELIVERED n) n s)
  else (false, s)

/-- Count a damaged frame, and the run of them (R309). -/
def countDamage (n : Fin 16) (dam : Bool) (s : State) : State :=
  if ¬ dam then setSn n (fun x => { x with damaged := 0 }) s
  else
    let s1 := setSn n (fun x => { x with damaged := x.damaged + 1 }) s
    let s2 := lifeAdd (sensReport (F.SENS_FLAGS_DAMAGED n) n (addSat s1 (R.SENS_DAMAGED_COUNT n) 1)) (lifeNo 11 2 n) 1
    if get s (F.SENS_TIMING_DAMAGE_LIMIT n) ≤ (sn s2 n).damaged ∧ sensState n s ≠ 4 then raise (80 + n) (sensEnter n 4 s2)
    else s2

/-- FRAME_FINISHED: the pipeline has processed the last line of the oldest frame. -/
def frameFinished (n : Fin 16) (s : State) : State :=
  match (sn s n).frames with
  | [] => s
  | f :: rest =>
    if ¬ f.ended ∨ f.done ≠ f.lines.length ∨ pipeFaulted (sensPipe n s) s then s
    else
      let c := pixCfg n f.par s
      let fill := List.replicate (c.h - f.lines.length) (fillLine f.lines c.w)
      let lines := f.lines ++ fill
      let t1 : Plane := fun x y => levelOf c (t0Of c lines x y)
      let v := featureOf c (featOf c (t4At c (lumaAt c t1)))
      let s1 := wrI (setSn n (fun x => { x with frames := rest }) s) (R.SENS_FEAT_LAST n) v
      let (sent, s2) := sendFeature n f v s1
      countDamage n f.dam (writeStats c f sent lines (writeTap n c f lines s2))

def execFrameFinished (n : Fin 16) (s : State) : Host.Outcome State Fault Refusal := .next (frameFinished n s)

/-- FRAME_TIMEOUT (R307). -/
def frameTimeout (n : Fin 16) (s : State) : State :=
  let t := get s (F.SENS_TIMING_FRAME_TIMEOUT n)
  match (sn s n).lastEnd with
  | some (_, _, b) =>
    if sensState n s = 2 ∧ t ≠ 0 ∧ ¬ flag s (F.SENS_STATUS_IN_FRAME n) ∧ b + t * 1000000 ≤ s.beam then
      readyLists n (sensReport (F.SENS_FLAGS_STALLED n) n (sensEnter n 3 s))
    else s
  | none => s

def execFrameTimeout (n : Fin 16) (s : State) : Host.Outcome State Fault Refusal := .next (frameTimeout n s)

/-! ## Settings writes -/

/-- Drop lists at the head of a port's queue whose descriptors no longer wait. -/
def dropDead (p : Fin 4) (s : State) : State :=
  setCci p (fun q => q.filter fun l => stillWaits l.ctx l.seq s) s

/-- SETTINGS_WRITE_START: the first ready list of a port starts. -/
def settingsWriteStart (p : Fin 4) (s : State) : State :=
  if s.cciRun[p.val] then s
  else
    let s1 := dropDead p s
    match s1.cci[p.val].head? with
    | some l =>
      if ¬ l.ready then s1
      else
        let busy := sensState l.sensor s == 2
        let s2 := setCci p (fun q => q.modify 0 fun l => { l with streaming := busy, since := s.beam }) { s1 with cciRun := vset s1.cciRun p true }
        put (setF s2 (F.PORT_CCI_STATUS_BUSY p)) (F.PORT_CCI_STATUS_SENSOR p) l.sensor
    | none => s1

def execSettingsWriteStart (p : Fin 4) (s : State) : Host.Outcome State Fault Refusal := .next (settingsWriteStart p s)

/-- The entries of a list. -/
def cciCount (l : CciList) : Nat := l.entries.length / 8

/-- Entry `i` of a list: register-address bytes, data bytes, whether it reads. -/
def cciShape (l : CciList) (i : Nat) : Nat × Nat × Bool :=
  let b := leAt l.entries (8 * i + 1) 1
  (bits b 0 2, 2 ^ min 2 (bits b 4 2), bit (leAt l.entries (8 * i) 1) 7)

/-- The low `n` bytes of a number, most significant first. -/
def beBytes (n v : Nat) : List Nat := (List.range n).map fun i => v / 256 ^ (n - 1 - i) % 256

/-- The bytes that the port sends for entry `i`, the address bytes with the direction bit among them; of DATA the low bytes, most
significant first (R320; notes/assumptions/105). -/
def cciBytes (l : CciList) (i : Nat) : List Nat :=
  let (a, d, rd) := cciShape l i
  let dev := leAt l.entries (8 * i) 1 % 128
  2 * dev :: beBytes a (leAt l.entries (8 * i + 2) 2) ++ if rd then [2 * dev + 1] else beBytes d (leAt l.entries (8 * i + 4) 4)

/-- The bit periods of entry `i` with the bus-free time after it. -/
def cciBits (l : CciList) (i : Nat) : Nat :=
  let (a, d, rd) := cciShape l i
  (if rd then (2 + a + d) * 9 + 3 else (1 + a + d) * 9 + 2) + 1

/-- The entry of `n` entries from `i` on that is in progress after some bit periods without stretching. -/
def cciAt (l : CciList) : Nat → Nat → Nat → Nat
  | 0, i, _ => i
  | n + 1, i, t => if t < cciBits l i then i else cciAt l n (i + 1) (t - cciBits l i)

/-- A bit period in ns. -/
def cciBit (p : Nat) (s : State) : Nat :=
  match get s (F.PORT_CCI_CFG_SPEED p) with | 0 => 10000 | 1 => 2500 | _ => 1000

/-- The last entry that a stopped write finishes: the one in progress, which the sensor's stretching can only make an earlier one
(R307; notes/assumptions/105). -/
def cciStop (p : Nat) (l : CciList) (s : State) : Nat × State :=
  let k := cciAt l (cciCount l - 1) 0 ((s.beam - l.since) / cciBit p s)
  let (f, s1) := draw 26 s
  (k - f % (k + 1), s1)

/-- A list's entries go out on the bus; of one that ended early, its last entry up to the byte without an acknowledge. -/
def sendEntries (p : Fin 4) (l : CciList) (n : Nat) (early : Bool) (s : State) : State :=
  (List.range n).foldl (fun s i =>
    let b := cciBytes l i
    if early ∧ i + 1 = n then
      let (f, s1) := draw 27 s
      emit (.cci p.val (b.take (1 + f % b.length))) s1
    else emit (.cci p.val b) s) s

/-- The data of reads, written back into the list (R320). -/
def writeBack (l : CciList) (n : Nat) (reads : List Word) (s : State) : State :=
  ((List.range n).foldl (fun (a : List Word × State) i =>
    if (cciShape l i).2.2 then
      let d := (cciShape l i).2.1
      (a.1.drop 1, emit (.hostWrite (l.addr + 8 * i + 4) (leBytes 4 ((a.1.headD 0#32).toNat % 256 ^ d))) a.2)
    else a) (reads, s)).2

/-- The first frame a generation applies from (R322). -/
def firstFrame (n : Fin 16) (streaming : Bool) (w : Nat) (s : State) : Nat :=
  let sp := get s (F.SENS_CFG_SENSOR_PIPE n)
  (match streaming, (sn s n).lastEnd with
  | true, some (j, fe, _) => if w - fe ≤ get s (F.SENS_TIMING_LATCH n) * 1000 then j + 1 + sp else j + 2 + sp
  | _, _ => rdN s (R.SENS_FRAME_SEQ n) + 1 + sp) % 2 ^ 32

/-- A settings list has been written. A frame that has begun by then carries the generation too, where its number is F or later
(R322). -/
def settingsDone (n : Fin 16) (l : CciList) (s : State) : State :=
  let f := firstFrame n l.streaming s.now s
  let s0 := setSn n (fun x => { x with
    gens := (l.gen, f) :: x.gens,
    frames := x.frames.map fun r => if seqReached f r.seq then { r with gen := l.gen } else r }) s
  let s1 := if flag s (F.SENS_STATUS_IN_FRAME n) ∧ seqReached f (rdN s (R.SENS_FRAME_SEQ n)) then put s0 (F.SENS_STATUS_GEN n) l.gen
    else s0
  let s2 := clrF (put s1 (F.SENS_GEN_LAST_DONE n) l.gen) (F.SENS_STATUS_SETTINGS_UNCERTAIN n)
  completeN l.ctx l.seq stOK (some (l.gen + 2 ^ 32 * f)) (some s.now) s2

/-- A settings list ended early at entry `i` (R323). -/
def settingsFailed (n : Fin 16) (l : CciList) (i : Nat) (s : State) : State :=
  let (f, s1) := draw 11 s
  let s2 := sensReport (F.SENS_FLAGS_SETTINGS_FAILED n) n (setF s1 (F.SENS_STATUS_SETTINGS_UNCERTAIN n))
  completeN l.ctx l.seq stDATA_CHECK (some (l.gen + 2 ^ 16 * i + 2 ^ 32 * (f % 2 ^ 32))) (some s.now)
    (lifeAdd s2 (lifeNo 11 5 n) 1)

/-- The completion of a list. -/
def listResult (n : Fin 16) (l : CciList) (fail : Option Nat) (s : State) : State :=
  if l.stop.isSome then completeN l.ctx l.seq stABORTED none none s
  else match decide (l.gen = 0), fail with
    | true, none => completeN l.ctx l.seq stOK (some 0) (some s.now) s
    | true, some i => completeN l.ctx l.seq stDATA_CHECK (some (2 ^ 16 * i)) (some s.now) s
    | false, none => settingsDone n l s
    | false, some i => settingsFailed n l i s

/-- CCI_LIST_DONE: the list in progress ends; `fail` is the entry it ended early at, with whether by stretching beyond the
limit; `reads` are the data read. A list whose sensor context was disabled ends after the entry that was in progress then (R307). -/
def cciListDone (p : Fin 4) (fail : Option (Nat × Bool)) (reads : List Word) (s : State) : State :=
  match s.cciRun[p.val], s.cci[p.val].head? with
  | true, some l =>
    let s0 := clrF (setCci p (fun q => q.drop 1) { s with cciRun := vset s.cciRun p false }) (F.PORT_CCI_STATUS_BUSY p)
    let last := min (l.stop.getD (cciCount l - 1)) (cciCount l - 1)
    let early := fail.filter fun f => decide (f.1 ≤ last)
    let i := early.map Prod.fst
    let s1 := sendEntries p l (i.getD last + 1) early.isSome s0
    let s2 := writeBack l (i.getD (last + 1)) reads s1
    let s3 := match early with
      | none => s2
      | some (_, late) =>
        lifeAdd (raiseOnSet (if late then F.PORT_FLAGS_CCI_TIMEOUT p else F.PORT_FLAGS_CCI_NACK p) (104 + p) s2)
          (lifeNo 11 10 p) 1
    if h : l.sensor < 16 then
      let n : Fin 16 := ⟨l.sensor, h⟩
      showSettings n (listResult n l i (if l.gen = 0 then s3 else lifeAdd s3 (lifeNo 11 4 n) 1))
    else s3
  | _, _ => s

def execCciListDone (p : Fin 4) (fail : Option (Nat × Bool)) (reads : List Word) (s : State) :
    Host.Outcome State Fault Refusal := .next (cciListDone p fail reads s)

/-! ## Camera descriptors (R324-R326) -/

/-- The sensor context a ring context is bound to. -/
def ctxSens (c : Fin 256) (s : State) : Fin 16 := ⟨get s (F.HIF_CTX_CFG_BIND c) % 16, by omega⟩

/-- The room a tap frame needs (R325). -/
def tapNeed (n : Nat) (pack : Bool) (s : State) : Nat :=
  let k := tapSize (pixCfg n (sensPar n s) s) (get s (F.SENS_CFG_TAP n))
  if pack then streamBound k (cdiv k 16384) else k

/-- Check 4 of R325: an ADDR that the Region Table refuses completes with WORLD_FAULT. -/
def hostCheck (c : Fin 256) (write : Bool) (d : Desc) (k : State → State) (s : State) : State :=
  if Config.hostRefused d.addr d.len then
    complete c d.seq stWORLD_FAULT none none false (worldFault 2 c.val write 0xFF d.addr s)
  else k s

/-- CAM_FRAME_BUF and CAM_STATS_BUF. -/
def opCamBuf (stats : Bool) (c : Fin 256) (d : Desc) (s : State) : State :=
  let n := ctxSens c s
  let st := sensState n s
  blockCheck c d.seq 12 0xC0000 (fun s =>
    if d.at 20 44 ≠ 0 then formatZero c d.seq s
    else if d.len < (if stats then 384 else tapNeed n (d.fbit 14) s) then complete c d.seq stNO_SPACE none none false s
    else if st = 0 ∨ st = 4 ∨ (¬ stats ∧ get s (F.SENS_CFG_TAP n) = 7) then complete c d.seq stINTERLOCK none none false s
    else hostCheck c true d
      (setSn n fun x => { x with bufs := x.bufs ++ [(stats, c.val, d.seq, d.addr, d.len, !stats && d.fbit 14)] }) s) s

def execCamFrameBuf (c : Fin 256) (s : State) : Host.Outcome State Fault Refusal :=
  .next (withDesc c 0x40 (opCamBuf false c) s)

def execCamStatsBuf (c : Fin 256) (s : State) : Host.Outcome State Fault Refusal :=
  .next (withDesc c 0x41 (opCamBuf true c) s)

/-- The entries of a transfer list are well-formed (R325 check 1). -/
def cciFormatOk (reads : Bool) (l : List Byte) : Bool :=
  (List.range (l.length / 8)).all fun i =>
    let b1 := leAt l (8 * i + 1) 1
    (reads || !(bit (leAt l (8 * i) 1) 7)) && (bits b1 0 2 == 1 || bits b1 0 2 == 2) && bits b1 4 2 != 3

/-- The generation after one (R321). -/
def genNext (g : Nat) : Nat := if g = 65535 then 1 else g + 1

/-- Queue a CCI list; it is ready at once unless it is a settings list of a streaming context. -/
def queueList (n : Fin 16) (l : CciList) (s : State) : State :=
  setCci (sensPort n s) (fun q =>
    if l.ready then q.filter (fun x => x.ready) ++ [l] ++ q.filter (fun x => !x.ready) else q ++ [l]) s

/-- CAM_SETTINGS and CCI_XFER. -/
def opCciList (settings : Bool) (c : Fin 256) (r : DmaIn) (d : Desc) (s : State) : State :=
  let n := ctxSens c s
  let st := sensState n s
  blockCheck c d.seq 12 0xC0000 (fun s =>
    if d.at 20 44 ≠ 0 ∨ d.len % 8 ≠ 0 ∨ d.len < 8 ∨ 512 < d.len then formatZero c d.seq s
    else withPayload c d.seq r (fun bs s =>
      let l := bs.take d.len
      if ¬ cciFormatOk (!settings) l then formatZero c d.seq s
      else if st = 0 ∨ st = 4 ∨ (¬ settings ∧ st = 2) then complete c d.seq stINTERLOCK none none false s
      else hostCheck c (!settings) d (fun s =>
        let g := if settings then genNext (get s (F.SENS_GEN_LAST_ISSUED n)) else 0
        let s1 := if settings then put s (F.SENS_GEN_LAST_ISSUED n) g else s
        showSettings n (queueList n ⟨n.val, c.val, d.seq, g, d.addr, l, !settings || st != 2, false, 0, none⟩ s1)) s) s) s

def execCamSettings (c : Fin 256) (r : DmaIn) (s : State) : Host.Outcome State Fault Refusal :=
  .next (withDesc c 0x42 (opCciList true c r) s)

def execCciXfer (c : Fin 256) (r : DmaIn) (s : State) : Host.Outcome State Fault Refusal :=
  .next (withDesc c 0x43 (opCciList false c r) s)

/-! ## Pipeline faults (R328) -/

/-- Drop every frame of a pipeline's sensor contexts. -/
def dropAll (x : Nat) (s : State) : State :=
  (pipeSens x s).foldl (fun s n => (List.range (sn s n).frames.length).foldl (fun s _ => dropFrame n 0 s) s) s

def pipelineFault (x : Fin 2) (s : State) : State :=
  if pipeFaulted x s then s
  else
    let s1 := put (put (put s (F.PIPE_STATUS_FAULT x) 1) (F.PIPE_STATUS_FAULT_DETAIL x) 1) ⟨R.IMG_STATUS, 16 + x, 1⟩ 1
    raise (100 + x) (lifeAdd (dropAll x s1) (lifeNo 11 13 x) 1)

def execPipelineFault (x : Fin 2) (s : State) : Host.Outcome State Fault Refusal := .next (pipelineFault x s)

def execPipelineClearFault (sec : Bool) (x : Fin 2) (s : State) : Host.Outcome State Fault Refusal :=
  .next (hostWrite sec (R.PIPE_CTRL x) (fun s =>
    put (put (put s (F.PIPE_STATUS_FAULT x) 0) (F.PIPE_STATUS_FAULT_DETAIL x) 0) ⟨R.IMG_STATUS, 16 + x, 1⟩ 0) s)

/-! ## Registers (R306, R307, R327) -/

def sensRefuse (n : Nat) (s : State) : State := setF s (F.SENS_FLAGS_CFG_REFUSED n)

/-- An enabled sensor context other than `n` uses a pipeline. -/
def pipeUsed (x : Nat) (n : Fin 16) (s : State) : Bool := (pipeSens x s).any fun k => k != n && sensOn k s

/-- The registers of a sensor context with its CFG at `v` describe a frame that the stages can take (R311, R318). -/
def shapeOk (n : Nat) (v : Nat) (s : State) : Bool :=
  let s1 := wrN s (R.SENS_CFG n) v
  let c := pixCfg n (sensPar n s1) s1
  let even := fun (k : Nat) => k % 2 == 0
  let (tw, th) := t4Size { c with bin := false }
  decide (16 ≤ c.w) && decide (c.w ≤ 8192) && decide (2 ≤ c.h) && (!c.colour || (even c.w && even c.h)) &&
    ((c.ww == 0 && c.wh == 0) || (decide (c.x0 + c.ww ≤ c.w) && decide (c.y0 + c.wh ≤ c.h))) &&
    (!c.bin || (even tw && even th)) && parOk n (sensPar n s1) s1

/-- A value of CFG is accepted (R306, R327). -/
def sensCfgOk (n : Fin 16) (v : Nat) (s : State) : Bool :=
  let old := rdN s (R.SENS_CFG n)
  let on := bit old 0
  let en := bit v 0
  let tap := bits v 19 3
  let moved := bits v 11 5 != bits old 11 5
  let clash := (fins 16).any fun (k : Fin 16) =>
    k != n && sensOn k s && get s (F.SENS_CFG_PORT k) == bits v 1 2 && get s (F.SENS_CFG_VC k) == bits v 3 2
  if on then v / 2 == old / 2
  else
    tap != 5 && tap != 6 && !(moved && (pipeUsed (bits v 11 1) n s || pipeUsed (bits old 11 1) n s)) &&
      (!en || (!clash && !s.sdGated && decide (0x2A ≤ bits v 5 6) && decide (bits v 5 6 ≤ 0x2E) && shapeOk n v s))

/-- What setting EN does. -/
def sensArm (n : Fin 16) (s : State) : State :=
  let s1 := wrN (wrN s (R.SENS_FRAME_SEQ n) 0) (R.SENS_GEN n) 0
  let s2 := put (clrF s1 (F.SENS_STATUS_SETTINGS_UNCERTAIN n)) (F.SENS_STATUS_GEN n) 0
  sensEnter n 1 (setSn n (fun x => { x with frames := [], dropped := false, damaged := 0, gens := [], lastEnd := none }) s2)

/-- What clearing EN does. -/
def sensStop (n : Fin 16) (s : State) : State :=
  let p := sensPort n s
  let s1 := (List.range (sn s n).frames.length).foldl (fun s _ => removeFrame n 0 s) s
  let mine := fun (l : CciList) => l.sensor == n.val && l.gen != 0
  let run := s1.cciRun[p.val]
  let head := if run then s1.cci[p.val].take 1 else []
  let rest := if run then s1.cci[p.val].drop 1 else s1.cci[p.val]
  let s2 := (rest.filter mine).foldl (fun s l => completeN l.ctx l.seq stABORTED none none s) s1
  let (k, s2) := match head.find? mine with
    | some l => cciStop p l s2
    | none => (0, s2)
  let s3 := setCci p (fun _ => head.map (fun l => if mine l then { l with stop := some k } else l) ++
    rest.filter fun l => !(mine l)) s2
  showSettings n (sensEnter n 0 (clrF (setSn n (fun x => { x with dropped := false }) s3) (F.SENS_STATUS_IN_FRAME n)))

/-- A write of CFG. -/
def sensCfgWrite (sec : Bool) (n : Fin 16) (v : Word) (s : State) : State :=
  cfgWrite sec (R.SENS_CFG n) v (sensCfgOk n) (sensRefuse n) (fun k s =>
    let was := sensOn n s
    let s1 := wrN (if was ∧ ¬ bit k 0 then sensStop n s else s) (R.SENS_CFG n) k
    if ¬ was ∧ bit k 0 then sensArm n s1 else s1) s

def execSensorEnable (sec : Bool) (n : Fin 16) (v : Word) (s : State) : Host.Outcome State Fault Refusal :=
  .next (sensCfgWrite sec n (v ||| 1#32) s)

def execSensorDisable (sec : Bool) (n : Fin 16) (v : Word) (s : State) : Host.Outcome State Fault Refusal :=
  .next (sensCfgWrite sec n (v &&& 0xFFFFFFFE#32) s)

/-- The offset of register `o` of a sensor context, CFG to TIMING. -/
def sensReg (n : Nat) (o : Nat) : Nat := R.SENS_CFG n + 4 * o

/-- The five registers with one of them changed. -/
def parWith (n : Nat) (o v : Nat) (s : State) : List Nat :=
  let s1 := wrN s (sensReg n o) v
  sensPar n s1

/-- A value of a register other than CFG is accepted. -/
def sensRegOk (n : Fin 16) (o v : Nat) (s : State) : Bool :=
  if o = 1 ∨ o = 2 ∨ o = 3 ∨ o = 5 then !(sensOn n s)
  else if o = 11 then decide (1 ≤ bits v 24 8)
  else if o = 4 ∨ (7 ≤ o ∧ o ≤ 10) then parOk n (parWith n o v s) s
  else true

/-- SENSOR_CONFIG_WRITE of register `o`, in the order of the table. -/
def sensorConfigWrite (sec : Bool) (n : Fin 16) (o : Fin 12) (v : Word) (s : State) : State :=
  if o.val = 0 then sensCfgWrite sec n v s
  else cfgWrite sec (sensReg n o) v (sensRegOk n o) (sensRefuse n) (fun k s => wrN s (sensReg n o) k) s

def execSensorConfigWrite (sec : Bool) (n : Fin 16) (o : Fin 12) (v : Word) (s : State) :
    Host.Outcome State Fault Refusal := .next (sensorConfigWrite sec n o v s)

/-- A write of PHY_CFG: fields other than EN change only while EN = 0. -/
def phyCfgWrite (sec : Bool) (p : Fin 4) (v : Word) (s : State) : State :=
  cfgWrite sec (R.PORT_PHY_CFG p) v (fun _ _ => true) id (fun n s =>
    let k := if flag s (F.PORT_PHY_CFG_EN p) then setBits (rdN s (R.PORT_PHY_CFG p)) 0 1 n else n
    let s1 := put (wrN s (R.PORT_PHY_CFG p) k) ⟨R.IMG_STATUS, 24 + p, 1⟩ (bits k 0 1)
    if bit k 0 then s1 else wrN s1 (R.PORT_PHY_STATUS p) 0) s

/-- A write of CCI_CFG: STRETCH_LIMIT is 1 to 255. -/
def cciCfgWrite (sec : Bool) (p : Fin 4) (v : Word) (s : State) : State :=
  cfgWrite sec (R.PORT_CCI_CFG p) v (fun n _ => decide (1 ≤ bits n 8 8) && bits n 0 2 != 3) id
    (fun n s => wrN s (R.PORT_CCI_CFG p) n) s

/-- A write of PIPE_CFG: only while no enabled sensor context is bound to the pipeline. -/
def pipeCfgWrite (sec : Bool) (x : Fin 2) (v : Word) (s : State) : State :=
  cfgWrite sec (R.PIPE_CFG x) v (fun _ s => !((pipeSens x s).any fun k => sensOn k s)) id
    (fun n s => wrN s (R.PIPE_CFG x) n) s

/-- DESKEW_SEQUENCE: a port receives a sensor's deskew sequence, and the deskew succeeds or not (R304). -/
def deskewSequence (p : Fin 4) (ok : Bool) (s : State) : State :=
  if ¬ flag s (F.PORT_PHY_CFG_EN p) ∨ ¬ flag s (F.PORT_PHY_CFG_DESKEW_EN p) then s
  else if ok then setF s (F.PORT_PHY_STATUS_DESKEW_DONE p)
  else raiseOnSet (F.PORT_FLAGS_DESKEW_FAIL p) (96 + p) s

def execDeskewSequence (p : Fin 4) (ok : Bool) (s : State) : Host.Outcome State Fault Refusal :=
  .next (deskewSequence p ok s)

/-- What the imaging block counts in `dt` ns. -/
def imgTick (dt : Nat) (s : State) : State :=
  forAll 16 (fun n s => if sensState n s = 2 then lifeTime s (lifeNo 11 6 n) dt else s) s

/-- The busy fraction of each pipeline's last millisecond: 600,000 cycles. -/
def pipeLoad (s : State) : State :=
  forAll 2 (fun x s => { wrN s (R.PIPE_LOAD x) (s.pipeBusy[x.val] * 65536 / 600000) with
    pipeBusy := vset s.pipeBusy x 0 }) s

end Machine
end Sys2Proof
end

