-- ==== Sys2Proof/Machine/Yard.lean ====
section
/-!
DEFINITION. Chapter 01: the yard's own registers (R13, R14, R29) and the layer rhythm (R24-R26).
-/
namespace Sys2Proof
namespace Machine

/-- A refused configuration write of the yard: its bit of CFG_STATUS, the target and event 77 (R13, R14, R29). -/
def yardRefused (f : Fld) (target : Nat) (s : State) : State := raise 77 (put (setF s f) F.YRD_CFG_STATUS_LAST_TARGET target)

/-! ## The bay map (R13, R14) -/

/-- The stall a valid slot of a map word names. -/
def slotOf (w k : Nat) : Option Nat := if bit w (8 * k + 7) then some (bits w (8 * k) 6) else none

/-- No stall stands in two valid slots, and none above 47 in any. -/
def mapSingle (words : List Nat) : Bool :=
  let l := words.flatMap fun w => (List.range 4).filterMap (slotOf w)
  l.all (fun g => decide (g < 48)) && decide (l.Nodup)

/-- Every stall named in a valid slot that a write changes is OFFLINE. -/
def mapQuiet (old new : Nat) (s : State) : Bool :=
  (List.range 4).all fun k =>
    slotOf old k == slotOf new k ||
      ((slotOf old k).toList ++ (slotOf new k).toList).all fun g => stSt g s == ssOFFLINE

/-- A write of a map word is accepted. -/
def mapOk (b : Fin 12) (n : Nat) (s : State) : Bool :=
  mapSingle ((List.range 12).map fun i => if i = b.val then n else rdN s (R.YRD_BAY_MAP i)) &&
    mapQuiet (rdN s (R.YRD_BAY_MAP b)) n s

/-- What a stall's servo registers show of its head (R212, R367): a bare head whose link becomes active is OPEN, with
coil commands of 0. -/
def showHead (g : Fin 48) (s : State) : State :=
  let bare := headClass g s == 2
  let s1 := put s (F.SRV_STATE_HEAD_BARE g) (b2n bare)
  let s2 := if bare then (if srvSt g s1 = 0 then put s1 (F.SRV_STATE_STATE g) 1 else s1)
    else put s1 (F.SRV_STATE_STATE g) 0
  if bare ∧ ¬ flag s (F.SRV_STATE_HEAD_BARE g) then
    setSrv g (fun v => { v with axes := v.axes.map fun x => { x with seen := false, c1 := 0 } }) s2
  else s2

/-- What follows a change of map, link or enables: heads and EN_WAIT. -/
def showHeads (s : State) : State := forAll 48 (fun g s => showWait g (showHead g s)) s

/-- BAY_MAP_WRITE. -/
def bayMapWrite (sec : Bool) (b : Fin 12) (v : Word) (s : State) : State :=
  cfgWrite sec (R.YRD_BAY_MAP b) v (mapOk b) (yardRefused F.YRD_CFG_STATUS_MAP_REFUSED b)
    (fun n s => showHeads (wrN s (R.YRD_BAY_MAP b) n)) s

def execBayMapWrite (sec : Bool) (b : Fin 12) (v : Word) (s : State) : Host.Outcome State Fault Refusal :=
  .next (bayMapWrite sec b v s)

/-! ## Stable enables (R29) -/

/-- A stable whose clear is refused: a stall of it is neither OFFLINE nor FAULT. -/
def clearBad (st : Fin 6) (s : State) : Bool :=
  (stallsOf st).any fun g => stSt g s != ssOFFLINE && stSt g s != ssFAULT

/-- The stables a write of CTRL would wrongly clear. -/
def wrongClears (n : Nat) (s : State) : List (Fin 6) :=
  (fins 6).filter fun (st : Fin 6) => stableEn st s && !bit n st && clearBad st s

/-- A stable is disabled: its loops open (R216), and its stalls in FAULT go OFFLINE at the next tick (R22, R94). -/
def disableStable (st : Fin 6) (s : State) : State :=
  (stallsOf st).foldl (fun s (g : Fin 48) =>
    if stSt g s = ssFAULT then setStall g (fun x => { x with abortNew := true, disable := true }) s else s)
    (openLoops st s)

/-- STABLE_ENABLE_WRITE: judged as a whole; in recovery mode every write is refused (R29,
R514), and after a thermal shutdown every one that would enable a stable (R420). -/
def stableEnableWrite (sec : Bool) (v : Word) (s : State) : State :=
  hostWrite sec R.YRD_CTRL (fun s =>
    let n := v.toNat % 64
    if get s F.BOOT_STATUS_PHASE = 5 ∨ (s.sdGated ∧ (fins 6).any fun (st : Fin 6) => bit n st && !(stableEn st s)) then
      yardRefused F.YRD_CFG_STATUS_ENABLE_REFUSED 0 s
    else match wrongClears n s with
    | st :: _ => yardRefused F.YRD_CFG_STATUS_ENABLE_REFUSED st s
    | [] =>
      let gone := (fins 6).filter fun (st : Fin 6) => stableEn st s && !bit n st
      forAll 48 (fun g s => showWait g s) (gone.foldl (fun s st => disableStable st s)
        ((fins 6).foldl (fun s (st : Fin 6) => if bit n st then ungate (0x30 + st.val) s else s) (put s F.YRD_CTRL_STABLE_EN n)))) s

def execStableEnableWrite (sec : Bool) (v : Word) (s : State) : Host.Outcome State Fault Refusal :=
  .next (stableEnableWrite sec v s)

/-! ## The layer rhythm (R24-R26) -/

/-- LAYER_SET_WRITE: the value acts from the next tick (R25). -/
def execLayerSetWrite (sec : Bool) (w : Wr64) (s : State) : Host.Outcome State Fault Refusal :=
  .next (hostWrite sec R.YRD_LAYER_SET
    (withWide R.YRD_LAYER_SET false w (fun v s => wr64 s R.YRD_LAYER_SET (v % 2 ^ 48))) s)

/-- The barrier completes at this tick (R24): none is open, and every stall of a set that is not empty waits. -/
def barrierComplete (s : State) : Bool :=
  s.layerSet != 0 && !(flag s F.YRD_LAYER_STATUS_BARRIER) &&
    (List.range 48).all fun g => !(bit s.layerSet g) || stSt g s == ssLAYER

/-- A transaction that waits for the barrier is due at this tick (R24, R234). -/
def Txn.barrierMark (now : Nat) (t : Txn) : Txn := if t.st = 2 ∧ t.kind = 2 then { t with t := now + 1 } else t

/-- The layer deadline timer stops and keeps its time (R102). -/
def layerTimerStop (s : State) : State :=
  let ms := (s.ldSince.map fun t => (s.beam - t) / 1000000).getD (get s F.YRD_LAYER_DEADLINE_STATUS_ELAPSED_MS)
  { clrF (put s F.YRD_LAYER_DEADLINE_STATUS_ELAPSED_MS (satN 0xFFFFFF ms)) F.YRD_LAYER_DEADLINE_STATUS_RUNNING with
    ldSince := none, ldTold := false }

/-- Every transaction that waits for a barrier notes it (R237). -/
def barrierMarks (s : State) : State := { s with txns := s.txns.map (Txn.barrierMark s.now) }

/-- LAYER_BARRIER_REACHED (R24): LAYER, BARRIER, event 78; the seam table is freed (R187), the layer deadline timer stops
(R102), and the transactions of the barrier are due. A named stall that faulted, held or was aborted at this tick keeps the
barrier from completing (R25, R96). -/
def layerBarrierReached (s : State) : State :=
  if ¬ s.barrierDue ∨ ¬ barrierComplete s then { s with barrierDue := false }
  else
    let s1 := { layerTimerStop s with barrierDue := false, layerMv := 0 }
    let s2 := setF (put s1 F.YRD_LAYER_STATUS_LAYER (get s1 F.YRD_LAYER_STATUS_LAYER + 1)) F.YRD_LAYER_STATUS_BARRIER
    barrierMarks (flushSeams (raise 78 (lifeAdd s2 (lifeNo 1 0 0) 1)))

def execLayerBarrierReached (s : State) : Host.Outcome State Fault Refusal := .next (layerBarrierReached s)

/-- A committed transaction releases stalls (R26): BARRIER clears with event 79 where it stands and a released stall is
named in LAYER_SET. -/
def layerReleased (gs : List Nat) (s : State) : State :=
  if flag s F.YRD_LAYER_STATUS_BARRIER ∧ gs.any fun g => bit s.layerSet g then
    raise 79 (clrF s F.YRD_LAYER_STATUS_BARRIER)
  else s

end Machine
end Sys2Proof
end

