-- ==== Sys2Proof/Machine/Link.lean ====
section
/-!
DEFINITION. Chapter 13: the Byenolink bays. Bring-up (R364-R366), alignment (R369, R370), electrical idle (R371, R372),
errors and retraining (R373, R374), register writes (R368, R375), test patterns (R376) and LINK_MGMT (R377, R378).
-/
namespace Sys2Proof
namespace Machine

/-- A bay. -/
def bay (s : State) (b : Fin 12) : Bay := s.bays[b.val]

def setBay (b : Fin 12) (f : Bay → Bay) (s : State) : State := { s with bays := vmod s.bays b f }

/-- The stage of a bay (R364): 0 DISABLED, 1 DETECT, 2 TRAIN, 3 BIT_LOCK, 4 WORD_LOCK, 5 CAPABILITY, 6 ACTIVE, 7 TEST,
8 HALTED. -/
def lnkStage (b : Nat) (s : State) : Nat := get s (F.LNK_STATE_STAGE b)

/-- An event of a bay (R380). -/
def bayEvent (b k : Nat) (s : State) : State := raise (160 + 4 * b + k) s

/-- Set a flag of a bay with event k where it was clear (R380). -/
def bayFlag (f : Nat → Fld) (k : Nat) (b : Nat) (s : State) : State := raiseOnSet (f b) (160 + 4 * b + k) s

/-! ## Messages (R362) -/

/-- A MGMT frame: the bits of its slot, then the bytes of its message; CELL and SUPER name the present time
(notes/assumptions/201). -/
def mgmtBlocks (words : List Nat) (s : State) : List Nat :=
  frameBlocks 3 (words.headD 0) (s.now % 4000 / 100) (s.now / 4000) (messageBlocks words.tail)

/-- Send a MGMT frame; a sleeping lane keeps it until it wakes (R371). -/
def sendMgmt (b : Fin 12) (words : List Nat) (s : State) : State :=
  if get s (F.LNK_STATE_DOWN_PWR b) = 0 then sendFrame b none (mgmtBlocks words s) s
  else setBay b (fun x => { x with txq := x.txq ++ [words] }) s

/-- Take the next TAG of a bay. -/
def takeTag (b : Fin 12) (s : State) : Nat × State :=
  ((bay s b).tag, setBay b (fun x => { x with tag := (x.tag + 1) % 256 }) s)

/-- Send a message of a bay: slots, MOP and payload bytes. -/
def sendMsg (b : Fin 12) (slots mop : Nat) (payload : List Nat) (s : State) : State :=
  let (t, s1) := takeTag b s
  sendMgmt b ([slots, mop, t, payload.length % 256, payload.length / 256] ++ payload) s1

/-- CAP_CONFIRM (R366). -/
def sendConfirm (b : Fin 12) (version : Nat) (s : State) : State :=
  sendMsg b 0 3 [version, get s F.YRD_MV_PERIOD_SEL] s

/-- CAP_OFFER (R366). -/
def sendOffer (b : Fin 12) (s : State) : State :=
  let d := get s ⟨R.LNK_DELAY b, 0, 16⟩
  sendMsg b 0 1 [1, get s (F.LNK_CTRL_VER_MAX b), d % 256, d / 256, get s F.YRD_MV_PERIOD_SEL] s

/-! ## Stages (R364, R365) -/

/-- What the lane carries in a stage between frames (R364, R376): TRAIN with its lock bits, IDLE, or the pattern of TX_MODE. The
running count of the TRAIN blocks goes on from 0 (notes/assumptions/201). -/
def laneFill (b : Nat) (st : Nat) (s : State) : Option Nat :=
  match st with
  | 2 => some (controlBlock 0x4B 0 0)
  | 3 => some (controlBlock 0x4B 1 0)
  | 4 => some (controlBlock 0x4B 3 0)
  | 5 => some (controlBlock 0x1E 0 0)
  | 6 => some (controlBlock 0x1E 0 0)
  | 7 => some (get s (F.LNK_PRBS_CTL_TX_MODE b))
  | _ => none

/-- STAGE shows a stage, and the bay transmits what R364 gives it. -/
def showStage (b : Fin 12) (st : Nat) (s : State) : State :=
  emit (.laneMode b st (laneFill b st s)) (put (if st = 0 then s else ungate (0x40 + b.val) s) (F.LNK_STATE_STAGE b) st)

/-- The set of 16 PROBE blocks (R366), with tokens 0 to 15 (notes/assumptions/201). -/
def sendProbes (b : Fin 12) (s : State) : State :=
  sendControl b none ((List.range 16).map fun i => controlBlock 0x66 0 i) (setBay b (fun x => { x with probes := [] }) s)

/-- An attempt begins in TRAIN with the AUTO_ALIGN and EYE_MIN of that moment. -/
def latchTrain (b : Fin 12) (s : State) : State :=
  setBay b (fun x => { x with eyeMin := get s (F.LNK_TRAIN_CTL_EYE_MIN b), autoAl := flag s (F.LNK_TRAIN_CTL_AUTO_ALIGN b) }) s

/-- Enter a stage: the time it began, and a clean attempt. -/
def enterStage (b : Fin 12) (st : Nat) (s : State) : State :=
  let s1 := setBay b (fun x => { x with
    since := s.beam, probes := [], reply := none, acked := false, skewRun := 0, missRun := 0, idle := none, off := none,
    switchAt := none }) (showStage b st s)
  let s2 := clrF (clrF (clrF s1 (F.LNK_STATE_VERSION b)) (F.LNK_STATE_DOWN_PWR b)) (F.LNK_STATE_UP_PWR b)
  let s3 := if st ≤ 1 ∨ st = 7 then put s2 ⟨R.LNK_RX_STATUS b, 0, 4⟩ 0
    else if st = 2 then put s2 ⟨R.LNK_RX_STATUS b, 1, 3⟩ 0
    else if st = 4 then put s2 ⟨R.LNK_RX_STATUS b, 2, 2⟩ 1 else s2
  if st = 4 then sendProbes b s3 else if st = 2 then latchTrain b s3 else s3

/-- Enter HALTED with its detail (R365). -/
def linkHalt (b : Fin 12) (d : Nat) (s : State) : State :=
  let s1 := bayEvent b 0 (lifeAdd (enterStage b 8 (put s (F.LNK_STATE_DETAIL b) d)) (lifeNo 13 1 (16 * b + d)) 1)
  bayFlag F.LNK_FLAGS_HALTED 3 b s1

/-- One more failed attempt in RETRIES. -/
def countRetry (b : Fin 12) (s : State) : State := addSatF s (F.LNK_STATE_RETRIES b) 1

/-- A failed attempt (R365): back to a stage, or HALTED at the limit. -/
def linkFail (b : Fin 12) (d stage : Nat) (s : State) : State :=
  let s1 := countRetry b s
  if get s1 (F.LNK_CTRL_RETRY_LIMIT b) ≤ get s1 (F.LNK_STATE_RETRIES b) then linkHalt b d s1
  else enterStage b stage (put s1 (F.LNK_STATE_DETAIL b) d)

/-- A stall whose head link is lost (R218, R374): its loop takes servo fault LINK at once; at the next tick an IDLE stall
goes OFFLINE and one in RUN, SYNC_WAIT, LAYER_WAIT or HOLD faults with cause LINK. -/
def stallLinkLost (s : State) (g : Fin 48) : State :=
  let st := stSt g s
  let s1 := if srvSt g s ≠ 0 then servoFault g 5 3 s else s
  if st = ssIDLE then setStall g (fun x => { x with disable := true, abortNew := true }) s1
  else if ssRUN ≤ st ∧ st ≤ ssHOLD then faultNext g 4 s1 else s1

/-- Leave ACTIVE (R373, R374); event 160 + 4b follows at the next tick. -/
def leaveActive (b : Fin 12) (d : Nat) (s : State) : State :=
  let s1 := (bayStalls b s).foldl stallLinkLost s
  let s2 := setBay b (fun x => { x with left := true }) (put s1 (F.LNK_STATE_DETAIL b) d)
  if d = 0xB then s2 else lifeAdd (addW s2 (R.LNK_RETRAINS b) 1) (lifeNo 13 0 (16 * b + d)) 1

/-- A bay leaves ACTIVE for a stage: a failed attempt, except by the host (R373). -/
def exitActive (b : Fin 12) (d stage : Nat) (s : State) : State :=
  if lnkStage b s ≠ 6 then s
  else
    let s1 := leaveActive b d s
    showHeads (if d = 0xB then enterStage b stage s1 else linkFail b d stage s1)

/-- Leave ACTIVE, or halt a bring-up, with a detail that leads to HALTED at once (R365, R368). -/
def haltNow (b : Fin 12) (d : Nat) (s : State) : State :=
  showHeads (linkHalt b d (countRetry b (if lnkStage b s = 6 then leaveActive b d s else s)))

/-- Go to a stage by order of the host: leaving ACTIVE is DETAIL HOST. -/
def hostStage (b : Fin 12) (stage : Nat) (s : State) : State :=
  if lnkStage b s = 6 then exitActive b 0xB stage s else enterStage b stage s

/-- Enter CAPABILITY with its offer. -/
def toCapability (b : Fin 12) (s : State) : State :=
  let s1 := setBay b (fun x => { x with since := s.beam, reply := none, acked := false }) (showStage b 5 s)
  sendOffer b s1

/-- RECEIVER_DETECT: what the test of this millisecond finds (R364). -/
def receiverDetect (b : Fin 12) (term clk : Bool) (s : State) : State :=
  if lnkStage b s ≠ 1 then s
  else
    let s1 := if term ∧ clk then enterStage b 2 s else s
    put s1 (F.LNK_RX_STATUS_CLK_PRESENT b) (b2n clk)

def execReceiverDetect (b : Fin 12) (term clk : Bool) (s : State) : Host.Outcome State Fault Refusal :=
  .next (receiverDetect b term clk s)

/-- The values of the five taps of the equaliser. -/
def showDfe (b : Fin 12) (dfe : List Nat) (s : State) : State :=
  (List.range 5).foldl (fun s i => put s (F.LNK_DFE_VALUE b i) (dfe.getD i 0)) s

/-- EYE_SEARCH_DONE: the width and centre found and the equaliser's values (R369). -/
def eyeSearchDone (b : Fin 12) (width centre : Nat) (dfe : List Nat) (s : State) : State :=
  if lnkStage b s ≠ 2 then s
  else
    let s1 := put (put s (F.LNK_RX_STATUS_EYE_WIDTH b) width) (F.LNK_RX_STATUS_EYE_CENTRE b) centre
    let s2 := showDfe b dfe s1
    if (bay s b).eyeMin ≤ width then
      setBay b (fun x => { x with dly := none, slips := 0 })
        (setF (showStage b 3 (put s2 (F.LNK_LANE_DLY_IN_USE b) centre)) (F.LNK_RX_STATUS_BIT_LOCK b))
    else s2

def execEyeSearchDone (b : Fin 12) (width centre : Nat) (dfe : List Nat) (s : State) :
    Host.Outcome State Fault Refusal := .next (eyeSearchDone b width centre dfe s)

/-- The word boundary moves by `n` UI (R370). -/
def moveSlip (b : Fin 12) (n : Nat) (s : State) : State :=
  put s (F.LNK_RX_STATUS_SLIP_POS b) ((get s (F.LNK_RX_STATUS_SLIP_POS b) + n) % 66)

/-- The search for the word boundary moves by one UI; one that has not locked after 66 moves has tried every boundary, and
the attempt fails (R370). -/
def slipOnce (b : Fin 12) (s : State) : State :=
  let s1 := moveSlip b 1 s
  if lnkStage b s ≠ 3 then s1
  else
    let s2 := setBay b (fun x => { x with slips := x.slips + 1 }) s1
    if 66 ≤ (bay s2 b).slips then linkFail b 6 1 s2 else s2

/-- `n` windows of 64 blocks with an invalid sync header pass in BIT_LOCK: each moves the boundary where AUTO_ALIGN stands
(R370). -/
def badWindows (b : Fin 12) : Nat → State → State
  | 0, s => s
  | n + 1, s => if lnkStage b s = 3 ∧ (bay s b).autoAl then badWindows b n (slipOnce b s) else s

/-- The delay is measured and the partner shows its lock. -/
def settleDelay (b : Fin 12) (s : State) : State :=
  if lnkStage b s = 4 ∧ (bay s b).probes.length = 16 ∧ flag s (F.LNK_RX_STATUS_PARTNER_LOCK b) then toCapability b s else s

/-- WORD_LOCK: 64 consecutive valid sync headers after `slips` windows with an invalid one (R370); in WORD_LOCK it tells that the
partner shows WORD_LOCK = 1. -/
def wordLock (b : Fin 12) (slips : Nat) (partner : Bool) (s : State) : State :=
  let mark := fun (s : State) => if partner then setF s (F.LNK_RX_STATUS_PARTNER_LOCK b) else s
  if lnkStage b s = 3 then
    let s1 := badWindows b (min slips 66) s
    if lnkStage b s1 = 3 then mark (sendProbes b (setF (showStage b 4 s1) (F.LNK_RX_STATUS_WORD_LOCK b))) else s1
  else if lnkStage b s = 4 then settleDelay b (mark s)
  else s

def execWordLock (b : Fin 12) (slips : Nat) (partner : Bool) (s : State) : Host.Outcome State Fault Refusal :=
  .next (wordLock b slips partner s)

/-- Insert into a rising list. -/
def insertNat (x : Nat) : List Nat → List Nat
  | [] => [x]
  | y :: t => if x ≤ y then x :: y :: t else y :: insertNat x t

/-- A list in rising order. -/
def sortNat (l : List Nat) : List Nat := l.foldr insertNat []

/-- DELAY from 16 probes (R366): the median halved and rounded down; between the two middle values where they differ
(notes/assumptions/3). -/
def probeDelay (l : List Nat) (s : State) : Nat × State :=
  let m := sortNat l
  let lo := m.getD 7 0 / 2
  let hi := m.getD 8 0 / 2
  if lo = hi then (lo, s) else let (n, s1) := draw 16 s; (lo + n % (hi - lo + 1), s1)

/-- PROBE_ECHO: the round trip and its turnaround, in UI (R366). -/
def probeEcho (b : Fin 12) (trip turn : Nat) (s : State) : State :=
  if lnkStage b s ≠ 4 ∨ 16 ≤ (bay s b).probes.length then s
  else
    let l := (bay s b).probes ++ [trip - turn]
    let s1 := setBay b (fun x => { x with probes := l }) s
    if l.length < 16 then s1
    else
      let (d, s2) := probeDelay l s1
      let s3 := put s2 ⟨R.LNK_DELAY b, 0, 16⟩ d
      if 2578 < d then haltNow b 0xA s3 else settleDelay b s3

def execProbeEcho (b : Fin 12) (trip turn : Nat) (s : State) : Host.Outcome State Fault Refusal :=
  .next (probeEcho b trip turn s)

/-- PROBE_TIMEOUT: the set of probes starts again (R366). -/
def probeTimeout (b : Fin 12) (s : State) : State :=
  if lnkStage b s = 4 ∧ (bay s b).probes.length < 16 then
    sendProbes b s
  else s

def execProbeTimeout (b : Fin 12) (s : State) : Host.Outcome State Fault Refusal := .next (probeTimeout b s)

/-- The detail with which a CAP_REPLY fails, 0 where it agrees (R366). -/
def capDetail (agreed vmin period : Nat) (slots : List Nat) : Nat :=
  if agreed < max 1 vmin then 7
  else if slots.any (fun x => x % 4 == 3) ∨ (agreed = 1 ∧ slots.any fun x => x % 4 == 2) then 9
  else if agreed < 3 ∧ period = 0 then 8
  else 0

/-- CAP_REPLY (R366). -/
def capReply (b : Fin 12) (vmin vmax vendor model fw : Nat) (slots : Word) (s : State) : State :=
  if lnkStage b s ≠ 5 ∨ (bay s b).reply.isSome then s
  else
    let l := (List.range 4).map fun k => bits slots.toNat (8 * k) 8
    let agreed := min (get s (F.LNK_CTRL_VER_MAX b)) vmax
    let d := capDetail agreed vmin (get s F.YRD_MV_PERIOD_SEL) l
    if d ≠ 0 then haltNow b d s
    else sendConfirm b agreed
      (setBay b (fun x => { x with reply := some ([vmin, vmax, vendor, model, fw] ++ l), agreed := agreed }) s)

def execCapReply (b : Fin 12) (vmin vmax vendor model fw : Nat) (slots : Word) (s : State) :
    Host.Outcome State Fault Refusal := .next (capReply b vmin vmax vendor model fw slots s)

/-- CAP_ACK echoes the agreed version (R366). -/
def capAck (b : Fin 12) (version : Nat) (s : State) : State :=
  if lnkStage b s = 5 ∧ (bay s b).reply.isSome ∧ version = (bay s b).agreed then
    setBay b (fun x => { x with acked := true }) s
  else s

def execCapAck (b : Fin 12) (version : Nat) (s : State) : Host.Outcome State Fault Refusal := .next (capAck b version s)

/-- The bay enters ACTIVE, shows the reply, and records the head's identity (R366, R382). -/
def linkUp (b : Fin 12) (s : State) : State :=
  match (bay s b).reply with
  | none => s
  | some r =>
    let id := r.getD 2 0 + 2 ^ 16 * r.getD 3 0 + 2 ^ 32 * r.getD 4 0 + 2 ^ 48 * (r.getD 0 0 + 16 * r.getD 1 0)
    let caps := r.getD 5 0 + 2 ^ 8 * r.getD 6 0 + 2 ^ 16 * r.getD 7 0 + 2 ^ 24 * r.getD 8 0
    let v := (bay s b).agreed
    let s1 := enterStage b 6 s
    let s2 := clrF (put s1 (F.LNK_STATE_VERSION b) v) (F.LNK_STATE_RETRIES b)
    let s3 := wr64 (wrN s2 (R.LNK_CAPS b) caps) (R.LNK_HEAD_ID b) id
    let s4 := setBay b (fun x => { x with ids := (id :: x.ids.filter (· != id)).take 8 }) s3
    showHeads (bayEvent b 1 s4)

/-- The downstream lane carries blocks. -/
def laneUp (b : Nat) (s : State) : Bool := get s (F.LNK_STATE_DOWN_PWR b) == 0

/-- What one bay does at a superframe boundary (R355, R359, R366). -/
def superframeBay (b : Fin 12) (s : State) : State :=
  let s1 := if lnkStage b s = 5 ∧ (bay s b).acked then linkUp b s else s
  if (lnkStage b s1 = 5 ∨ lnkStage b s1 = 6) ∧ laneUp b s1 then
    coilFrame b (sendControl b (some (wordTime 0 s1)) [controlBlock 0x33 0 (s1.now / 4000)] s1)
  else s1

/-- SUPERFRAME: once for every superframe boundary reached. -/
def superframe (s : State) : State := if s.superDue then forAll 12 superframeBay { s with superDue := false } else s

def execSuperframe (s : State) : Host.Outcome State Fault Refusal := .next (superframe s)

/-- UPSTREAM_SUPERFRAME: where the block arrived against its due instant, in UI (R355, R373). -/
def upstreamSuperframe (b : Fin 12) (skew : Int) (s : State) : State :=
  if lnkStage b s ≠ 5 ∧ lnkStage b s ≠ 6 then s
  else
    let s1 := lifeMax (put s ⟨R.LNK_SKEW b, 0, 16⟩ (code 16 skew)) (lifeNo 13 5 b) skew.natAbs
    let overrun := lnkStage b s == 6 && decide (get s (F.LNK_ERR_CFG_SKEW_LIMIT b) < skew.natAbs)
    let s2 := setBay b (fun x => { x with missRun := 0, skewRun := if overrun then x.skewRun + 1 else 0 }) s1
    if overrun ∧ (bay s b).skewRun = 0 then bayFlag F.LNK_FLAGS_SKEW 2 b s2 else s2

def execUpstreamSuperframe (b : Fin 12) (skew : Int) (s : State) : Host.Outcome State Fault Refusal :=
  .next (upstreamSuperframe b skew s)

/-- BRINGUP_TIMEOUT (R365, R370): 20 ms from TRAIN to WORD_LOCK, 10 ms in CAPABILITY; with `search` no boundary gives a
window without an invalid sync header, so that an automatic search tries the boundaries that are left. -/
def bringupTimeout (b : Fin 12) (search : Bool) (s : State) : State :=
  let st := lnkStage b s
  let t := s.beam - (bay s b).since
  if (2 ≤ st ∧ st ≤ 4 ∧ 20000000 ≤ t) ∨ (st = 5 ∧ 10000000 ≤ t) then linkFail b 6 1 s
  else if search then badWindows b 66 s
  else s

def execBringupTimeout (b : Fin 12) (search : Bool) (s : State) : Host.Outcome State Fault Refusal :=
  .next (bringupTimeout b search s)

/-! ## Errors (R373) -/

/-- LINK_CLOCK_LOSS. -/
def linkClockLoss (b : Fin 12) (s : State) : State := exitActive b 1 1 (clrF s (F.LNK_RX_STATUS_CLK_PRESENT b))

def execLinkClockLoss (b : Fin 12) (s : State) : Host.Outcome State Fault Refusal := .next (linkClockLoss b s)

/-- A sync header that is invalid (R354). -/
def badHeader (w : Nat × Nat) : Bool := w.1 == 0 || w.1 == 3

/-- A control block whose type is none of R354. -/
def blockError (w : Nat × Nat) : Bool := w.1 == 2 && !([0x1E, 0x2D, 0x33, 0x4B, 0x55, 0x66, 0x78].contains w.2)

/-- WORD_LOCK_LOSS: sync header and byte 0 of the blocks in a window of 64 that are not data blocks: invalid headers and
block errors count in ACTIVE (R373), and an invalid header in BIT_LOCK moves the word boundary (R370). -/
def wordLockLoss (b : Fin 12) (ws : List (Nat × Nat)) (s : State) : State :=
  let bad := ws.countP badHeader
  let n := bad + ws.countP blockError
  if lnkStage b s = 3 then (if 0 < bad then badWindows b 1 s else s)
  else if lnkStage b s ≠ 6 ∨ n = 0 then s
  else
    let s1 := bayFlag F.LNK_FLAGS_SYNC_ERR 2 b (lifeAdd (addW s (R.LNK_SYNC_ERRORS b) n) (lifeNo 13 3 b) n)
    if 16 ≤ bad then exitActive b 2 2 s1 else s1

def execWordLockLoss (b : Fin 12) (ws : List (Nat × Nat)) (s : State) : Host.Outcome State Fault Refusal :=
  .next (wordLockLoss b ws s)

/-- ERROR_RATE: `n` upstream frames were discarded. -/
def errorRate (b : Fin 12) (n : Nat) (s : State) : State :=
  if lnkStage b s ≠ 6 ∨ n = 0 then s
  else
    let s1 := bayFlag F.LNK_FLAGS_CRC_ERR 2 b (lifeAdd (addW s (R.LNK_CRC_ERRORS b) n) (lifeNo 13 2 b) n)
    let ms := s.now / 1000000
    let k := (if (bay s b).crcMs = ms then (bay s b).crcN else 0) + n
    let s2 := setBay b (fun x => { x with crcMs := ms, crcN := k }) s1
    if get s (F.LNK_ERR_CFG_CRC_LIMIT b) ≤ k then exitActive b 3 2 s2 else s2

def execErrorRate (b : Fin 12) (n : Nat) (s : State) : Host.Outcome State Fault Refusal := .next (errorRate b n s)

/-- MARKER_LOSS: an upstream SUPERFRAME block is missing while upstream is awake; two in a row. -/
def markerLoss (b : Fin 12) (s : State) : State :=
  if lnkStage b s ≠ 6 ∨ get s (F.LNK_STATE_UP_PWR b) ≠ 0 then s
  else
    let s1 := setBay b (fun x => { x with missRun := x.missRun + 1, skewRun := 0 }) s
    if 1 ≤ (bay s b).missRun then exitActive b 4 2 s1 else s1

def execMarkerLoss (b : Fin 12) (s : State) : Host.Outcome State Fault Refusal := .next (markerLoss b s)

/-- SKEW_EXCEEDED: four consecutive superframes beyond the limit. -/
def skewExceeded (b : Fin 12) (s : State) : State := if 4 ≤ (bay s b).skewRun then exitActive b 5 4 s else s

def execSkewExceeded (b : Fin 12) (s : State) : Host.Outcome State Fault Refusal := .next (skewExceeded b s)

/-! ## Electrical idle (R371, R372) -/

/-- The conditions under which the downstream lane may sleep. -/
def downQuiet (b : Fin 12) (s : State) : Bool :=
  (bay s b).txq.isEmpty && (bayStalls b s).all fun g =>
    (stSt g s == ssOFFLINE || (stSt g s == ssIDLE && progHeld g s == 0)) && decide (srvSt g s ≤ 1)

/-- Every stall of the bay is OFFLINE. -/
def bayOffline (b : Nat) (s : State) : Bool := (bayStalls b s).all fun g => stSt g s == ssOFFLINE

/-- A condition has held for IDLE_TIME. -/
def idleLong (b : Fin 12) (since : Option Nat) (s : State) : Bool :=
  since.any fun t => decide (get s (F.LNK_CTRL_IDLE_TIME b) * 1000 ≤ s.beam - t)

/-- DOWN_SLEEP. -/
def downSleep (b : Fin 12) (s : State) : State :=
  if lnkStage b s = 6 ∧ get s (F.LNK_STATE_VERSION b) = 3 ∧ flag s (F.LNK_CTRL_DOWN_SLEEP_EN b) ∧ laneUp b s ∧
      downQuiet b s ∧ idleLong b (bay s b).idle s then
    put (sendControl b none [controlBlock 0x55 0 0] s) (F.LNK_STATE_DOWN_PWR b) 1
  else s

def execDownSleep (b : Fin 12) (s : State) : Host.Outcome State Fault Refusal := .next (downSleep b s)

/-- 64 TRAIN blocks with WAKE = 1 (R371); where their running count stands is open (notes/assumptions/3). -/
def wakeBurst (b : Fin 12) (s : State) : State :=
  let (n, s1) := draw 23 s
  sendControl b none ((List.range 64).map fun i => controlBlock 0x4B 4 (n + i)) s1

/-- DOWN_WAKE. -/
def downWake (b : Fin 12) (s : State) : State :=
  if get s (F.LNK_STATE_DOWN_PWR b) = 1 ∧ ¬ downQuiet b s then put (wakeBurst b s) (F.LNK_STATE_DOWN_PWR b) 2
  else s

def execDownWake (b : Fin 12) (s : State) : Host.Outcome State Fault Refusal := .next (downWake b s)

/-- SLEEP_UP. -/
def sleepUp (b : Fin 12) (s : State) : State :=
  if lnkStage b s = 6 ∧ get s (F.LNK_STATE_VERSION b) = 3 ∧ flag s (F.LNK_CTRL_UP_SLEEP_EN b) ∧
      get s (F.LNK_STATE_UP_PWR b) = 0 ∧ bayOffline b s ∧ idleLong b (bay s b).off s then
    put (sendMsg b 0 5 [] s) (F.LNK_STATE_UP_PWR b) 1
  else s

def execSleepUp (b : Fin 12) (s : State) : Host.Outcome State Fault Refusal := .next (sleepUp b s)

/-- UPSTREAM_WAKE: the head's burst; the lane is awake from the next tick. -/
def upstreamWake (b : Fin 12) (s : State) : State :=
  if get s (F.LNK_STATE_UP_PWR b) = 1 then put s (F.LNK_STATE_UP_PWR b) 2 else s

def execUpstreamWake (b : Fin 12) (s : State) : Host.Outcome State Fault Refusal := .next (upstreamWake b s)

/-- What the checker of a bay in TEST has counted: bits and errors (R376). -/
def prbsCount (b : Fin 12) (n errs : Nat) (s : State) : State :=
  if lnkStage b s ≠ 7 ∨ get s (F.LNK_PRBS_CTL_RX_MODE b) = 0 then s
  else
    let s1 := addSat (add64 s (R.LNK_PRBS_BITS b) n) (R.LNK_PRBS_ERRS b) errs
    if errs = 0 ∨ rdN s (R.LNK_PRBS_ERRS b) ≠ 0 then s1 else bayFlag F.LNK_FLAGS_PRBS_ERR 3 b s1

/-- LANE_TRACKING: what the receiver has come to: the eye centre of the histogram, and the taps of the equaliser, which adapts
from the eye search on unless DFE_FREEZE stands (R369); in TEST the bits and errors counted since the last report (R376). -/
def laneTracking (b : Fin 12) (centre : Nat) (dfe : List Nat) (prbs : Nat × Nat) (s : State) : State :=
  let st := lnkStage b s
  if st = 7 then prbsCount b prbs.1 prbs.2 s else
  let s0 := if 3 ≤ st ∧ st ≤ 6 ∧ ¬ flag s (F.LNK_TRAIN_CTL_DFE_FREEZE b) then showDfe b dfe s else s
  if st ≠ 6 ∨ ¬ flag s (F.LNK_TRAIN_CTL_TRACK b) then s0
  else
    let s1 := put s0 (F.LNK_RX_STATUS_EYE_CENTRE b) centre
    let u := get s (F.LNK_LANE_DLY_IN_USE b)
    put s1 (F.LNK_LANE_DLY_IN_USE b) (if u + 2 ≤ centre then u + 1 else if centre + 2 ≤ u then u - 1 else u)

/-- LANE_TRACKING: `rx` gives the eye centre, the taps of the equaliser, and what the checker has counted. -/
def execLaneTracking (b : Fin 12) (rx : Nat × List Nat × Nat × Nat) (s : State) : Host.Outcome State Fault Refusal :=
  .next (laneTracking b rx.1 rx.2.1 rx.2.2 s)

/-- Sampling-delay steps up to now: one tap per µs towards DATA_DLY (R369). -/
def delaySteps (b : Fin 12) (s : State) : State :=
  match (bay s b).dly with
  | none => s
  | some t =>
    let n := (s.beam - t) / 1000
    let u := get s (F.LNK_LANE_DLY_IN_USE b)
    let d := get s (F.LNK_LANE_DLY_DATA_DLY b)
    let v := if u ≤ d then min d (u + n) else max d (u - n)
    setBay b (fun x => { x with dly := if v = d then none else some (t + 1000 * n) }) (put s (F.LNK_LANE_DLY_IN_USE b) v)

/-- A bay at a tick, `dt` after the last: the report of R374, times, power states and delay steps; a bay whose head
restarts into a new image leaves ACTIVE (R520). -/
def bayTick (dt : Nat) (b : Fin 12) (s : State) : State :=
  let s0 := delaySteps b s
  let s1 := if (bay s0 b).left then bayEvent b 0 (setBay b (fun x => { x with left := false }) s0) else s0
  if lnkStage b s1 ≠ 6 then s1
  else
    let s2 := lifeTime (add64 s1 (R.LNK_ACTIVE_TIME b) dt) (lifeNo 13 4 b) dt
    let up := fun (f : Fld) (s : State) => if get s f = 2 then clrF s f else s
    let s3 := downWake b (up (F.LNK_STATE_UP_PWR b) (up (F.LNK_STATE_DOWN_PWR b) s2))
    let q := downQuiet b s3
    let o := bayOffline b s3
    let s4 := setBay b (fun x => { x with
      idle := if q then some (x.idle.getD s.beam) else none, off := if o then some (x.off.getD s.beam) else none }) s3
    let s5 := if laneUp b s4 then
        (bay s4 b).txq.foldl (fun s w => sendFrame b none (mgmtBlocks w s) s) (setBay b (fun x => { x with txq := [] }) s4) else s4
    match (bay s5 b).switchAt with
    | some n => if n * 4000 ≤ s5.now then exitActive b 0xB 1 s5 else s5
    | none => s5

/-! ## Register writes (R368, R375, R376) -/

def lnkRefused (b : Nat) (s : State) : State := bayFlag F.LNK_FLAGS_CFG_REFUSED 3 b s

/-- No stall of the bay is at work and none of its loops is busy. -/
def bayIdle (b : Nat) (s : State) : Bool :=
  (bayStalls b s).all fun g => !(decide (ssRUN ≤ stSt g s) && decide (stSt g s ≤ ssHOLD)) && decide (srvSt g s ≤ 1)

/-- A write of CTRL is accepted. -/
def lnkCtrlOk (b : Nat) (n : Nat) (s : State) : Bool :=
  let old := rdN s (R.LNK_CTRL b)
  bits n 4 2 != 0 && bits n 8 4 != 0 && n / 2 ^ 16 != 0 &&
    (bits n 4 2 == bits old 4 2 || bayOffline b s) &&
    (bit n 0 || !(bit old 0) || bayIdle b s) && (!(bit n 0) || bit old 0 || !s.sdGated)

/-- A write of CTRL: EN starts bring-up or disables the bay (R364). -/
def lnkCtrlWrite (sec : Bool) (b : Fin 12) (v : Word) (s : State) : State :=
  cfgWrite sec (R.LNK_CTRL b) v (lnkCtrlOk b) (lnkRefused b) (fun n s =>
    let was := flag s (F.LNK_CTRL_EN b)
    let s1 := wrN s (R.LNK_CTRL b) n
    if bit n 0 ∧ ¬ was then enterStage b (if flag s (F.LNK_TRAIN_CTL_TEST b) then 7 else 1) s1
    else if was ∧ ¬ bit n 0 then hostStage b 0 s1
    else s1) s

def execBayEnable (sec : Bool) (b : Fin 12) (s : State) : Host.Outcome State Fault Refusal :=
  .next (lnkCtrlWrite sec b (rd s (R.LNK_CTRL b) ||| 1#32) s)

def execBayDisable (sec : Bool) (b : Fin 12) (s : State) : Host.Outcome State Fault Refusal :=
  .next (lnkCtrlWrite sec b (rd s (R.LNK_CTRL b) &&& 0xFFFFFFFE#32) s)

/-- A write of TRAIN_CTL is accepted. -/
def trainCtlOk (b : Nat) (n : Nat) (s : State) : Bool :=
  decide (8 ≤ bits n 8 7) && decide (bits n 8 7 ≤ 64) &&
    (!(bit n 3) || flag s (F.LNK_TRAIN_CTL_TEST b) || bayOffline b s)

/-- Enter TEST (R376): an ACTIVE bay first sends TEST_ENTER. -/
def enterTest (b : Fin 12) (s : State) : State :=
  if ¬ flag s (F.LNK_CTRL_EN b) then s
  else hostStage b 7 (if lnkStage b s = 6 then sendMsg b 0 6 [] s else s)

/-- A write of TRAIN_CTL: TEST, SLIP and RESTART (R364, R370, R376). -/
def trainCtlWrite (sec : Bool) (b : Fin 12) (v : Word) (s : State) : State :=
  cfgWrite sec (R.LNK_TRAIN_CTL b) v (trainCtlOk b) (lnkRefused b) (fun n s =>
    let was := flag s (F.LNK_TRAIN_CTL_TEST b)
    let s1 := wrN s (R.LNK_TRAIN_CTL b) n
    let s2 := if bit n 3 ∧ ¬ was then enterTest b s1
      else if was ∧ ¬ bit n 3 ∧ lnkStage b s1 = 7 then enterStage b 1 s1 else s1
    let s3 := if bit v.toNat 16 ∧ lnkStage b s2 ≠ 0 then slipOnce b s2 else s2
    if bit v.toNat 17 ∧ flag s3 (F.LNK_CTRL_EN b) ∧ ¬ bit n 3 then hostStage b 1 s3 else s3) s

def execTestEnter (sec : Bool) (b : Fin 12) (s : State) : Host.Outcome State Fault Refusal :=
  .next (trainCtlWrite sec b (rd s (R.LNK_TRAIN_CTL b) ||| 8#32) s)

/-- TEST_EXIT; `n` bits and `errs` errors were counted in TEST since the last report. -/
def execTestExit (sec : Bool) (b : Fin 12) (n errs : Nat) (s : State) : Host.Outcome State Fault Refusal :=
  .next (trainCtlWrite sec b (rd s (R.LNK_TRAIN_CTL b) &&& 0xFFFFFFF7#32) (prbsCount b n errs s))

def execSlip (sec : Bool) (b : Fin 12) (s : State) : Host.Outcome State Fault Refusal :=
  .next (trainCtlWrite sec b (rd s (R.LNK_TRAIN_CTL b) ||| 0x10000#32) s)

def execRestart (sec : Bool) (b : Fin 12) (s : State) : Host.Outcome State Fault Refusal :=
  .next (trainCtlWrite sec b (rd s (R.LNK_TRAIN_CTL b) ||| 0x20000#32) s)

/-- A write of PRBS_CTL: it clears the counts, in TEST it changes the pattern sent, and INJECT inverts one transmitted bit
(R376). -/
def prbsCtlWrite (sec : Bool) (b : Fin 12) (v : Word) (s : State) : State :=
  cfgWrite sec (R.LNK_PRBS_CTL b) v (fun n _ => bits n 0 2 != 3 && bits n 4 2 != 3) (lnkRefused b) (fun n s =>
    let s1 := wrN (wr64 (wrN s (R.LNK_PRBS_CTL b) n) (R.LNK_PRBS_BITS b) 0) (R.LNK_PRBS_ERRS b) 0
    if lnkStage b s1 ≠ 7 then s1
    else
      let s2 := if get s (F.LNK_PRBS_CTL_TX_MODE b) = bits n 0 2 then s1 else emit (.laneMode b 7 (laneFill b 7 s1)) s1
      if bit v.toNat 8 then emit (.prbsInvert b) s2 else s2) s

/-- PRBS_INJECT: INJECT alone; the counts stay, as RX_MODE is not written anew. -/
def prbsInject (sec : Bool) (b : Fin 12) (s : State) : State :=
  hostWrite sec (R.LNK_PRBS_CTL b) (fun s => if lnkStage b s = 7 then emit (.prbsInvert b) s else s) s

def execPrbsInject (sec : Bool) (b : Fin 12) (s : State) : Host.Outcome State Fault Refusal := .next (prbsInject sec b s)

/-- A write of LANE_DLY: IN_USE moves towards DATA_DLY from now on (R369). -/
def laneDlySet (b : Fin 12) (d : Nat) (s : State) : State :=
  setBay b (fun x => { x with dly := some s.beam }) (put s (F.LNK_LANE_DLY_DATA_DLY b) d)

/-- LINK_CONFIG_WRITE of register `o`: CTRL, TRAIN_CTL, ERR_CFG, LANE_DLY, DFE[0] to DFE[4], PRBS_CTL. -/
def linkConfigWrite (sec : Bool) (b : Fin 12) (o : Fin 10) (v : Word) (s : State) : State :=
  match o with
  | 0 => lnkCtrlWrite sec b v s
  | 1 => trainCtlWrite sec b v s
  | 2 => cfgWrite sec (R.LNK_ERR_CFG b) v (fun n _ => n % 2 ^ 16 != 0 && bits n 16 12 != 0) (lnkRefused b)
      (fun n s => wrN s (R.LNK_ERR_CFG b) n) s
  | 3 => cfgWrite sec (R.LNK_LANE_DLY b) v (fun _ _ => true) id (fun n s => laneDlySet b (bits n 0 7) s) s
  | 9 => prbsCtlWrite sec b v s
  | o => cfgWrite sec (R.LNK_DFE b (o.val - 4)) v (fun _ _ => true) id (fun n s =>
    setFar (bayUnit b) (fun x => { x with cut := x.cut || x.run == some 1 }) (wrN s (R.LNK_DFE b (o.val - 4)) n)) s

def execLinkConfigWrite (sec : Bool) (b : Fin 12) (o : Fin 10) (v : Word) (s : State) :
    Host.Outcome State Fault Refusal := .next (linkConfigWrite sec b o v s)

/-! ## The microvector period (R18, R368) -/

/-- P of a code of SEL. -/
def periodOf (sel : Nat) : Nat := if sel = 0 then 500 else if sel = 1 then 1000 else 2000

/-- An ACTIVE bay hears of a new period (R368). -/
def periodBay (sel : Nat) (b : Fin 12) (s : State) : State :=
  if lnkStage b s ≠ 6 then s
  else
    let v := get s (F.LNK_STATE_VERSION b)
    let s1 := sendConfirm b v s
    if v < 3 ∧ sel = 0 then haltNow b 8 s1 else s1

/-- The accepted period that waits for its first tick. -/
def setPeriodNext (p : Option Nat) (s : State) : State := { s with periodNext := p, periodAt := s.now }

/-- MV_PERIOD_WRITE (R18). -/
def mvPeriodWrite (sec : Bool) (v : Word) (s : State) : State :=
  hostWrite sec R.YRD_MV_PERIOD (fun s =>
    let sel := v.toNat % 4
    if sel = 3 ∨ ¬ allQuiet s then raise 77 (setF s F.YRD_CFG_STATUS_PERIOD_REFUSED)
    else forAll 12 (periodBay sel) (put (setPeriodNext (some (periodOf sel)) s) F.YRD_MV_PERIOD_SEL sel)) s

def execMvPeriodWrite (sec : Bool) (v : Word) (s : State) : Host.Outcome State Fault Refusal :=
  .next (mvPeriodWrite sec v s)

/-- The period in effect becomes `p`. -/
def setPeriod (p : Nat) (s : State) : State := { s with mvP := p }

/-- MV_PERIOD_CHANGE: an accepted period takes effect at the first multiple of it after the write (R18). The entries a stall
in IDLE has computed are computed again in the new period, as if it entered RUN at the next tick (R133). -/
def mvPeriodChange (s : State) : State :=
  match s.periodNext with
  | some p =>
    if s.now % p = 0 ∧ s.now ≠ s.periodAt then
      forAll 48 (fun g s => if stSt g s = ssIDLE then replanFromRest g s else s)
        (setPeriod p (setPeriodNext none s))
    else s
  | none => s

def execMvPeriodChange (s : State) : Host.Outcome State Fault Refusal := .next (mvPeriodChange s)

/-! ## LINK_MGMT (R377, R378) -/

/-- A message is well formed: MOP of the maker, PLEN the payload's length. -/
def msgOk (bs : List Byte) : Bool :=
  decide (0x40 ≤ leAt bs 0 1) && leAt bs 2 2 + 4 == bs.length

/-- Send the host's message with the bay's TAG. -/
def sendHost (c : Fin 256) (d : Desc) (b : Fin 12) (bs : List Byte) (s : State) : State :=
  let (t, s1) := takeTag b s
  let slots := if d.at 21 1 = 0xFF then 0 else 2 ^ d.at 21 1
  let words := bs.zipIdx.map fun p => if p.2 = 1 then t else p.1.toNat
  setBay b (fun x => { x with mgmt := x.mgmt ++ [(t, s.beam, c.val, d.seq)] }) (sendMgmt b (slots :: words) s1)

/-- LINK_MGMT with the message its read brought back. -/
def opLinkMgmt (c : Fin 256) (r : DmaIn) (d : Desc) (s : State) : State :=
  if h : d.at 20 1 < 12 then
    let b : Fin 12 := ⟨d.at 20 1, h⟩
    blockCheck c d.seq (40 + b.val) (0x800000 + 0x10000 * b.val) (fun s =>
      if (3 < d.at 21 1 ∧ d.at 21 1 ≠ 0xFF) ∨ d.len < 4 ∨ 128 < d.len ∨ d.at 22 2 ≠ 0 ∨ d.at 36 28 ≠ 0 then
        formatZero c d.seq s
      else withPayload c d.seq r (fun bs s =>
        if ¬ msgOk (bs.take d.len) then formatZero c d.seq s
        else if lnkStage b s ≠ 6 then complete c d.seq stINTERLOCK (some (rdN s (R.LNK_STATE b))) none false s
        else sendHost c d b (bs.take d.len) s) s) s
  else formatZero c d.seq s

/-- The bay that the context's next LINK_MGMT names can take it (R377). -/
def mgmtRoom (c : Fin 256) (s : State) : Bool :=
  match mayStart (ctx s c) with
  | some d => (s.bays[d.at 20 1]?).all fun x => decide (x.mgmt.length < 8)
  | none => true

def execLinkMgmt (c : Fin 256) (r : DmaIn) (s : State) : Host.Outcome State Fault Refusal :=
  .next (if mgmtRoom c s then withDesc c 0x7C (opLinkMgmt c r) s else s)

/-- The descriptor of a context and SEQ, with its host addresses. -/
def findDesc (c : Fin 256) (q : Nat) (s : State) : Option Desc :=
  ((ctx s c).orphans ++ (ctx s c).fetched).find? fun d => d.seq == q && !d.dup

/-- A reply to a LINK_MGMT (R377, R378). -/
def mgmtReply (b : Fin 12) (msg : List Byte) (s : State) : State :=
  match (bay s b).mgmt.find? fun m => m.1 == leAt msg 1 1 with
  | some m =>
    let s1 := setBay b (fun x => { x with mgmt := x.mgmt.filter fun k => k != m }) s
    if h : m.2.2.1 < 256 then
      let c : Fin 256 := ⟨m.2.2.1, h⟩
      match findDesc c m.2.2.2 s1 with
      | some d =>
        if d.at 32 4 < msg.length then complete c d.seq stNO_SPACE none none false s1
        else complete c d.seq stOK (some msg.length) (some s1.now) false (emit (.hostWrite (d.at 24 8) msg) s1)
      | none => s1
    else s1
  | none => s

/-- LINK_MGMT_TIMEOUT: messages without a reply for 10 ms (R377). -/
def linkMgmtTimeout (b : Fin 12) (s : State) : State :=
  let late := (bay s b).mgmt.filter fun m => decide (10000000 ≤ s.beam - m.2.1)
  let s1 := setBay b (fun x => { x with mgmt := x.mgmt.filter fun m => !(decide (10000000 ≤ s.beam - m.2.1)) }) s
  late.foldl (fun s m => if h : m.2.2.1 < 256 then complete ⟨m.2.2.1, h⟩ m.2.2.2 stTIMEOUT none none false s else s) s1

def execLinkMgmtTimeout (b : Fin 12) (s : State) : Host.Outcome State Fault Refusal := .next (linkMgmtTimeout b s)

end Machine
end Sys2Proof
end

