-- ==== Sys2Proof/Machine/Farrier.lean ====
section
/-!
DEFINITION. Chapter 18: what the farrier measures (R460), its runs and their checks (R461-R463), when they run (R464-R467),
FAR_RUN (R468) and its registers (R469); and the PHOTODIODE frame (R360).
-/
namespace Sys2Proof
namespace Machine

/-! ## Units -/

/-- The kinds: 0 LANE, 1 DFE, 2 GATE, 3 THRESHOLD, 4 LINK_TEST; those of a stall. -/
def stallKind (k : Nat) : Bool := k == 2 || k == 3

/-- The sensor of a unit (R464). -/
def unitTemp (u : Fin 60) (s : State) : Int :=
  let i := if u.val < 48 then u.val / 8 else (u.val - 48) / 2
  getI s (F.THM_TEMP_VALUE (if flag s (F.THM_TEMP_BROKEN i) then 6 else i))

/-- The LAST_T register of a unit, and the UNIT byte of LAST_FAIL. -/
def lastT (u : Fin 60) : Nat := if u.val < 48 then R.FAR_STALL_LAST_T u.val else R.FAR_BAY_LAST_T (u.val - 48)
def unitByte (u : Fin 60) : Nat := if u.val < 48 then u.val else 0x40 + (u.val - 48)

/-- The Block World Table bit of a unit's block. -/
def unitBlock (u : Fin 60) : Nat := if u.val < 48 then 32 + u.val / 8 else 40 + (u.val - 48)

/-- A stall is available (R465). -/
def stallAvail (g : Nat) (s : State) : Bool :=
  stSt g s == ssIDLE || (stSt g s == ssLAYER && flag s F.YRD_LAYER_STATUS_BARRIER)

/-- A unit is available for a kind (R465). -/
def unitAvail (u : Fin 60) (k : Nat) (s : State) : Bool :=
  if u.val < 48 then stallAvail u.val s
  else
    let l := bayStalls (u.val - 48) s
    if k = 4 then l.all fun g => stSt g s == ssOFFLINE
    else (l.all fun g => stSt g s == ssOFFLINE || stallAvail g s) && (k != 1 || l.all fun g => decide (srvSt g s ≤ 1))

/-- Show the farrier's state and how many units wait. -/
def showFar (s : State) : State :=
  let wait := (fins 60).countP fun u => (far u s).pend != 0 && (far u s).run.isNone
  let runs := (fins 60).any fun u => (far u s).run.isSome
  put (put s F.FAR_STATUS_STATE (if runs then 2 else if wait ≠ 0 then 1 else 0)) F.FAR_STATUS_PENDING wait

/-! ## Ends of runs (R466-R468) -/

/-- A FAR_RUN whose named runs have all ended completes; event 217. -/
def reqDone (r : FarReq) (s : State) : State :=
  let s1 := match r.who with
    | some (c, q) =>
      if h : c < 256 then
        if (waitingSeqs ⟨c, h⟩ [0x7A] s).contains q then
          complete ⟨c, h⟩ q (if r.badS = 0 ∧ r.badB = 0 then stOK else stLIMIT) (some r.badS)
            (some (r.badB + 2 ^ 16 * satN (2 ^ 32 - 1) r.errs)) false s
        else s
      else s
    | none => s
  raise 217 s1

/-- Tell the requests that a run has ended. -/
def reqsEnd (u : Fin 60) (k : Nat) (bad : Bool) (errs : Nat) (s : State) : State :=
  let note := fun (r : FarReq) =>
    if r.runs.contains (u.val, k) then
      { r with
        runs := r.runs.filter (· != (u.val, k)), errs := r.errs + errs
        badS := if bad ∧ u.val < 48 then r.badS ||| 2 ^ u.val else r.badS
        badB := if bad ∧ 48 ≤ u.val then r.badB ||| 2 ^ (u.val - 48) else r.badB }
    else r
  let l := s.farReqs.map note
  (l.filter fun r => r.runs.isEmpty).foldl (fun s r => reqDone r s)
    { s with farReqs := l.filter fun r => !r.runs.isEmpty }

/-- A run ends with its RESULT; `errs` is the count of a LINK_TEST. -/
def farEnd (u : Fin 60) (k res errs : Nat) (s : State) : State :=
  let x := far u s
  let s1 := setFar u (fun x => { x with pend := x.pend - (x.pend &&& 2 ^ k), run := none, cut := false }) s
  let s2 := if h : u.val < 48 then put s1 (F.FAR_STALL_INFO_RESULT u.val) res
    else put (put s1 (F.FAR_BAY_INFO_RESULT (u.val - 48)) res) (F.FAR_BAY_INFO_KIND (u.val - 48)) k
  let s3 := lifeAdd (addW s2 R.FAR_RUNS 1) (lifeNo 18 0 (5 * u.val + k)) 1
  let s4 := if res = 1 ∨ res = 2 then wrN s3 (lastT u) (code 16 x.seen + 2 ^ 16) else s3
  let s5 := if res = 3 then
      let t := wr64 (wrN s4 R.FAR_LAST_FAIL (k + 2 ^ 4 * res + 2 ^ 8 * unitByte u)) R.FAR_LAST_FAIL_TIME s.now
      raise 216 (lifeAdd (addW (setF t F.FAR_FLAGS_REJECTED) R.FAR_REJECTS 1) (lifeNo 18 1 (5 * u.val + k)) 1)
    else s4
  showFar (reqsEnd u k (res == 3) errs s5)

/-- A unit is skipped before its run (R467). -/
def farSkip (u : Fin 60) (k res : Nat) (s : State) : State :=
  raise 218 (setF (farEnd u k res 0 s) F.FAR_FLAGS_SKIPPED)

/-- Start a pending run on an available unit (R465), unless it is skipped. -/
def farStart (u : Fin 60) (k : Nat) (go : State → State) (s : State) : State :=
  let x := far u s
  if ¬ bit x.pend k ∨ x.run.isSome ∨ ¬ unitAvail u k s ∨ (k = 3 ∧ bit x.pend 2) ∨ (k = 1 ∧ bit x.pend 0) then s
  else if blockSecure 16 s ≠ blockSecure (unitBlock u) s then farSkip u k 6 s
  else if k = 2 ∧ heldByTxn (0, R.STALL_GATE_TRIM u.val) s then farSkip u k 5 s
  else go s
where
  /-- A target of an active transaction (R232). -/
  heldByTxn (t : Nat × Nat) (s : State) : Bool :=
    (fins 64).any fun j => (txn s j).active && (txn s j).acts.any fun a => a.act.target == t

/-- Mark a run as under way. -/
def farRun (u : Fin 60) (k : Nat) (s : State) : State :=
  showFar (setFar u (fun x => { x with run := some k, since := s.beam, cut := false }) s)

/-! ## LANE, DFE and LINK_TEST (R462) -/

/-- LANE: `centre` is the eye centre of the histogram. -/
def laneRun (b : Fin 12) (centre : Nat) (s : State) : State :=
  let u := bayUnit b
  let d := get s (F.LNK_LANE_DLY_DATA_DLY b)
  let c := centre % 128
  let off : Nat := if c < d then d - c else c - d
  if ¬ bayActive b s then s
  else farStart u 0 (fun s =>
    let s1 := put s (F.FAR_BAY_INFO_EYE b) c
    if get s (F.LNK_RX_STATUS_EYE_WIDTH b) < get s (F.LNK_TRAIN_CTL_EYE_MIN b) ∨ get s F.FAR_LIMITS_LANE_MAX_STEP < off then
      farEnd u 0 3 0 s1
    else if c = d then farEnd u 0 2 0 s1
    else farEnd u 0 1 0 (laneDlySet b c s1)) s

def execLane (b : Fin 12) (centre : Nat) (s : State) : Host.Outcome State Fault Refusal := .next (laneRun b centre s)

/-- An equaliser offset. -/
def dfeOffset (b i : Nat) (s : State) : Int := getI s (F.LNK_DFE_OFFSET b i)

/-- Write one. -/
def setOffset (b i : Nat) (v : Int) (s : State) : State := put s (F.LNK_DFE_OFFSET b i) (code 8 v)

/-- The climb of a DFE run is over: RESULT 1, 2 or 3. -/
def dfeFinish (b : Fin 12) (s : State) : State :=
  let u := bayUnit b
  let l := (List.range 5).map fun i => dfeOffset b i s
  let top : Int := get s F.FAR_LIMITS_OFS_MAX
  if l.any fun v => decide (top < v) || decide (v < -top) then
    farEnd u 1 3 0 ((List.range 5).foldl (fun s i => setOffset b i ((far u s).olds.getD i 0) s) s)
  else farEnd u 1 (if l = (far u s).olds then 2 else 1) 0 s

/-- Begin with a tap: step +1, or -1 where OFFSET has no +1 (notes/assumptions/140). -/
def dfeTap (b : Fin 12) (i : Nat) (s : State) : State :=
  if 5 ≤ i then dfeFinish b s
  else
    let v := dfeOffset b i s
    let up := decide (v < 127)
    setOffset b i (if up then v + 1 else v - 1) (setFar (bayUnit b) (fun x => { x with
      tap := i, dir := if up then 1 else -1, best := v, first := up, since := s.beam }) s)

/-- DFE. -/
def dfeRun (b : Fin 12) (s : State) : State :=
  let u := bayUnit b
  if ¬ bayActive b s then s
  else farStart u 1 (fun s =>
    dfeTap b 0 (setFar u (fun x => { x with
      bestW := get s (F.LNK_RX_STATUS_EYE_WIDTH b), olds := (List.range 5).map fun i => dfeOffset b i s }) (farRun u 1 s))) s

def execDfe (b : Fin 12) (s : State) : Host.Outcome State Fault Refusal := .next (dfeRun b s)

/-- Judge a step by the eye width it gave. -/
def dfeJudge (b : Fin 12) (width : Nat) (s : State) : State :=
  let u := bayUnit b
  let x := far u s
  let v := dfeOffset b x.tap s
  if x.bestW < width ∧ -127 ≤ v + x.dir ∧ v + x.dir ≤ 127 then
    setOffset b x.tap (v + x.dir) (setFar u (fun x => { x with best := v, bestW := width, first := false, since := s.beam }) s)
  else if x.bestW < width then dfeTap b (x.tap + 1) (setFar u (fun x => { x with best := v, bestW := width }) s)
  else if x.first ∧ x.dir = 1 ∧ -127 ≤ x.best - 1 then
    setOffset b x.tap (x.best - 1) (setFar u (fun x => { x with dir := -1, first := false, since := s.beam }) s)
  else dfeTap b (x.tap + 1) (setOffset b x.tap x.best s)

/-- DFE_STEP: the hold of 1 ms is over; `width` is the eye width now. -/
def dfeStep (b : Fin 12) (width : Nat) (s : State) : State :=
  let x := far (bayUnit b) s
  if x.run = some 1 ∧ x.since + 1000000 ≤ s.beam then
    dfeJudge b (width % 128) (put s (F.LNK_RX_STATUS_EYE_WIDTH b) (width % 128))
  else s

def execDfeStep (b : Fin 12) (width : Nat) (s : State) : Host.Outcome State Fault Refusal := .next (dfeStep b width s)

/-- LINK_TEST: PRBS31 in both directions, with the counts cleared. -/
def linkTest (b : Fin 12) (s : State) : State :=
  let u := bayUnit b
  if ¬ bayActive b s then s
  else farStart u 4 (fun s =>
    let s1 := put (put s (F.LNK_PRBS_CTL_TX_MODE b) 2) (F.LNK_PRBS_CTL_RX_MODE b) 2
    let s2 := wrN (wr64 s1 (R.LNK_PRBS_BITS b) 0) (R.LNK_PRBS_ERRS b) 0
    farRun u 4 (enterTest b (setF s2 (F.LNK_TRAIN_CTL_TEST b)))) s

def execLinkTest (b : Fin 12) (s : State) : Host.Outcome State Fault Refusal := .next (linkTest b s)

/-- LINK_TEST_END after TEST_MS; `n` bits and `errs` errors were counted in TEST. -/
def linkTestEnd (b : Fin 12) (n errs : Nat) (s : State) : State :=
  let u := bayUnit b
  let x := far u s
  if x.run = some 4 ∧ x.since + get s F.FAR_TEST_CFG_TEST_MS * 1000000 ≤ s.beam ∧ lnkStage b s = 7 then
    let s1 := prbsCount b n errs s
    let e := rdN s1 (R.LNK_PRBS_ERRS b)
    let s2 := wrN s1 (R.FAR_BAY_TEST_ERRS b) e
    let s3 := enterStage b 1 (clrF s2 (F.LNK_TRAIN_CTL_TEST b))
    farEnd u 4 (if e = 0 then 2 else 3) e (if e = 0 then s3 else lifeAdd s3 (lifeNo 18 3 b.val) 1)
  else s

def execLinkTestEnd (b : Fin 12) (bits errs : Nat) (s : State) : Host.Outcome State Fault Refusal :=
  .next (linkTestEnd b bits errs s)

/-! ## GATE and THRESHOLD (R461) -/

/-- Sort ascending. -/
def insertInt (v : Int) : List Int → List Int
  | [] => [v]
  | a :: t => if v ≤ a then v :: a :: t else a :: insertInt v t

def sortInts (l : List Int) : List Int := l.foldr insertInt []

/-- The median: the lower middle value for an even count. -/
def medianInt (l : List Int) : Int := (sortInts l).getD ((l.length - 1) / 2) 0

/-- The spread of delays: upper quartile less lower quartile, which lies between 0 and their range (notes/assumptions/3). -/
def spreadOf (l : List Int) (s : State) : Nat × State :=
  let a := sortInts l
  let range := (a.getLast?.getD 0 - a.head?.getD 0).toNat
  let (v, s1) := draw 17 s
  (v % (range + 1), s1)

/-- ALIGN_SUGGEST of a target. -/
def alignFor (target : Nat) : Nat := (1000000000 + 13021 * (target + 1920)) / (13021 * 3840)

/-- GATE, with N as the last collected sample found it (R469). -/
def gateRun (g : Fin 48) (s : State) : State :=
  let u := stallUnit g
  farStart u 2 (fun s =>
    let l := (far u s).delays
    if l.length < bits (far u s).gcfg 0 8 then farEnd u 2 4 0 s
    else
      let m := medianInt l
      let (spread, s1) := spreadOf l s
      let target : Nat := rdN s (R.FAR_STALL_GATE_TARGET g) % 2 ^ 20
      let trim : Int := (target : Int) - m
      let used := getI s (F.STALL_GATE_TRIM_IN_USE g)
      let step : Int := get s F.FAR_LIMITS_GATE_MAX_STEP
      if rdN s R.FAR_GATE_SPREAD % 2 ^ 16 < spread ∨ step < trim - used ∨ step < used - trim ∨ trim < -2048 ∨ 2047 < trim then
        farEnd u 2 3 0 s1
      else
        let s2 := put (wrN (wrN s1 (R.FAR_STALL_GATE_MEAS g) (m.toNat % 2 ^ 20)) (R.FAR_STALL_SPREAD g) (satN 65535 spread))
          (F.FAR_STALL_INFO_ALIGN_SUGGEST g) (alignFor target % 1024)
        if trim = used ∧ get s (F.STALL_GATE_TRIM_TRIM g) = get s (F.STALL_GATE_TRIM_IN_USE g) then farEnd u 2 2 0 s2
        else setFar u (fun x => { x with goal := trim }) (farRun u 2 s2)) s

def execGate (g : Fin 48) (s : State) : Host.Outcome State Fault Refusal := .next (gateRun g s)

/-- THRESHOLD, with THR_CFG as the last collected sample found it (R469): without a baseline sample there is nothing to
compute. -/
def thresholdRun (g : Fin 48) (s : State) : State :=
  let u := stallUnit g
  farStart u 3 (fun s =>
    let l := (far u s).base
    if l.isEmpty then farEnd u 3 4 0 s
    else
      let cfg := (far u s).tcfg
      let thr := (medianInt (l.map Int.ofNat)).toNat + bits cfg 0 16
      if bits cfg 16 16 < thr then farEnd u 3 3 0 s
      else if thr = rdN s (R.FAR_STALL_PD_THR g) % 2 ^ 16 then farEnd u 3 2 0 s
      else setFar u (fun x => { x with goal := thr }) (farRun u 3 s)) s

def execThreshold (g : Fin 48) (s : State) : Host.Outcome State Fault Refusal := .next (thresholdRun g s)

/-! ## What a tick does (R465-R467) -/

/-- One step of TRIM, once R147 has applied the last one. -/
def stepTrim (g : Fin 48) (s : State) : State :=
  let u := stallUnit g
  let x := far u s
  let used := getI s (F.STALL_GATE_TRIM_IN_USE g)
  if x.cut then farEnd u 2 5 0 s
  else if get s (F.STALL_GATE_TRIM_TRIM g) ≠ get s (F.STALL_GATE_TRIM_IN_USE g) then s
  else if used = x.goal then farEnd u 2 1 0 (lifeMax s (lifeNo 18 2 g.val) used.natAbs)
  else
    put (setFar u (fun x => { x with own := true }) s) (F.STALL_GATE_TRIM_TRIM g)
      (code 12 (if used < x.goal then used + 1 else used - 1))

/-- One step of PD_THR; a change of it empties the collection. -/
def stepThr (g : Fin 48) (s : State) : State :=
  let u := stallUnit g
  let x := far u s
  let v : Nat := rdN s (R.FAR_STALL_PD_THR g) % 2 ^ 16
  if x.cut then farEnd u 3 5 0 s
  else if (v : Int) = x.goal then farEnd u 3 1 0 s
  else
    let n : Nat := if (v : Int) < x.goal then v + 1 else v - 1
    let s1 := farEmpty g (wrN s (R.FAR_STALL_PD_THR g) n)
    if (n : Int) = x.goal then farEnd u 3 1 0 s1 else s1

/-- What may end a DFE run between its steps. -/
def watchDfe (b : Fin 12) (s : State) : State :=
  let u := bayUnit b
  let x := far u s
  let keep := setOffset b x.tap x.best s
  if x.cut then farEnd u 1 5 0 s
  else if ¬ bayActive b s then farEnd u 1 3 0 s
  else if (bayStalls b s).any fun g => decide (2 ≤ srvSt g s) && decide (srvSt g s ≤ 4) then farEnd u 1 7 0 keep
  else if ¬ unitAvail u 1 s then dfeFinish b keep
  else s

/-- The farrier's share of a tick. -/
def farTick (s : State) : State :=
  let s1 := forAll 48 (fun g s => match (far (stallUnit g) s).run with
    | some 2 => stepTrim g s
    | some 3 => stepThr g s
    | _ => s) s
  forAll 12 (fun b s => match (far (bayUnit b) s).run with
    | some 1 => watchDfe b s
    | some 4 => if lnkStage b s = 7 then s else farEnd (bayUnit b) 4 3 0 s
    | _ => s) s1

/-! ## Becoming pending (R464, R468) -/

/-- Kinds become pending on a unit. -/
def farPend (u : Fin 60) (kinds : Nat) (s : State) : State :=
  let x := far u s
  let new := kinds - (kinds &&& x.pend)
  if new = 0 then s
  else
    let s1 := setFar u (fun x => { x with pend := x.pend ||| kinds, seen := unitTemp u s }) s
    lifeAdd s1 (lifeNo 18 4 0) ((List.range 5).countP fun k => bit new k && !(unitAvail u k s))

/-- The (unit, kind) pairs of a mask of kinds. -/
def unitRuns (u : Fin 60) (kinds : Nat) : List (Nat × Nat) :=
  ((List.range 5).filter fun k => bit kinds k).map fun k => (u.val, k)

/-- Add automatic runs to the window's request. -/
def autoRuns (l : List (Nat × Nat)) (s : State) : State :=
  if l.isEmpty then s
  else if s.farReqs.any fun r => r.who.isNone then
    { s with farReqs := s.farReqs.map fun r =>
        if r.who.isNone then { r with runs := r.runs ++ l.filter fun p => !(r.runs.contains p) } else r }
  else { s with farReqs := s.farReqs ++ [⟨none, l, 0, 0, 0⟩] }

/-- The kinds of a unit that `FAR.CFG` enables. -/
def unitEn (u : Fin 60) (s : State) : Nat := get s F.FAR_CFG_EN &&& (if u.val < 48 then 0xC else 0x3)

/-- A unit's temperature asks for calibration. -/
def unitDrifted (u : Fin 60) (s : State) : Bool :=
  let w := rdN s (lastT u)
  !(bit w 16) || decide (get s F.FAR_CFG_DELTA_T < (unitTemp u s - sext 16 (w % 2 ^ 16)).natAbs)

/-- What a thermal evaluation makes pending. -/
def farThermal (s : State) : State :=
  if ¬ flag s F.FAR_CFG_AUTO then s
  else
    let l := (fins 60).filter fun (u : Fin 60) => unitEn u s != 0 && unitDrifted u s
    showFar (autoRuns (l.flatMap fun u => unitRuns u (unitEn u s)) (l.foldl (fun s u => farPend u (unitEn u s) s) s))

/-- The units a FAR_RUN names for a kind. -/
def namedUnits (k stalls bays : Nat) : List (Fin 60) :=
  (fins 60).filter fun (u : Fin 60) =>
    if stallKind k then decide (u.val < 48) && bit stalls u.val else decide (48 ≤ u.val) && bit bays (u.val - 48)

/-- Check 1 of R468. -/
def farRunOk (d : Desc) (s : State) : Bool :=
  let kinds := d.at 20 1
  let stalls := d.at 24 6
  let bays := d.at 32 2
  d.addr == 0 && d.len == 0 && kinds != 0 && decide (kinds < 32) && decide (d.at 21 1 < 2) && d.at 22 2 == 0 &&
    d.at 30 2 == 0 && decide (bays < 4096) && d.at 34 30 == 0 &&
    (kinds &&& 0xC == 0 || stalls != 0) && (kinds &&& 0x13 == 0 || bays != 0) &&
    ((fins 48).all fun (g : Fin 48) => !(bit stalls g.val) || stableEn (g.val / 8) s) &&
    ((fins 12).all fun (b : Fin 12) => !(bit bays b.val) || flag s (F.LNK_CTRL_EN b.val))

/-- Units as masks of stalls and bays. -/
def unitMask (lo hi : Nat) (l : List (Fin 60)) : Nat :=
  (List.range (hi - lo)).foldl (fun n i => if l.any fun u => u.val == lo + i then n + 2 ^ i else n) 0

/-- FAR_RUN. -/
def opFarRun (c : Fin 256) (d : Desc) (s : State) : State :=
  let kinds := (List.range 5).filter fun k => bit (d.at 20 1) k
  let stalls := d.at 24 6
  let bays := d.at 32 2
  let named := kinds.flatMap fun k => (namedUnits k stalls bays).map fun u => (u, k)
  if ¬ farRunOk d s then formatZero c d.seq s
  else match (if ctxSecure c then none else named.find? fun p => blockSecure (unitBlock p.1) s) with
  | some p =>
    let b := unitBlock p.1
    complete c d.seq stWORLD_FAULT none none false
      (worldFault 2 c.val true b (if b < 40 then 0x200000 + 0x100000 * (b - 32) else 0x800000 + 0x10000 * (b - 40)) s)
  | none =>
    let busy := (named.filter fun p => !(unitAvail p.1 p.2 s)).map Prod.fst
    if d.at 21 1 = 1 ∧ ¬ busy.isEmpty then
      complete c d.seq stBUSY (some (unitMask 0 48 busy)) (some (unitMask 48 60 busy)) false (lifeAdd s (lifeNo 18 5 0) 1)
    else
      let runs := named.filter fun p => p.2 == 4 || bit (get s F.FAR_CFG_EN) p.2
      let s1 := runs.foldl (fun s p => farPend p.1 (2 ^ p.2) s) s
      let r : FarReq := ⟨some (c.val, d.seq), runs.map fun p => (p.1.val, p.2), 0, 0, 0⟩
      showFar (if runs.isEmpty then reqDone r s1 else { s1 with farReqs := s1.farReqs ++ [r] })

def execFarRun (c : Fin 256) (s : State) : Host.Outcome State Fault Refusal := .next (withDesc c 0x7A (opFarRun c) s)

/-! ## Registers (R469) -/

def farRefused (s : State) : State := setF s F.FAR_FLAGS_CFG_REFUSED

/-- Kinds that are no longer enabled are not pending. -/
def farEnabled (s : State) : State :=
  let en := get s F.FAR_CFG_EN ||| 0x10
  let gone := (fins 60).flatMap fun (u : Fin 60) =>
    ((List.range 5).filter fun k => bit (far u s).pend k && !(bit en k) && (far u s).run != some k).map fun k => (u, k)
  showFar (gone.foldl (fun s p =>
    reqsEnd p.1 p.2 false 0 (setFar p.1 (fun x => { x with pend := x.pend - 2 ^ p.2 }) s)) s)

/-- FAR_CONFIG_WRITE: CFG, LIMITS, GATE_CFG, GATE_SPREAD, THR_CFG, TEST_CFG, GATE_TARGET[g], PD_THR[g]. -/
def farConfigWrite (sec : Bool) (r : Fin 8) (g : Fin 48) (v : Word) (s : State) : State :=
  let w := fun (o : Nat) (ok : Nat → Bool) (k : State → State) =>
    cfgWrite sec o v (fun n _ => ok n) farRefused (fun n s => k (wrN s o n)) s
  match r with
  | 0 => w R.FAR_CFG (fun n => bits n 8 8 != 0) farEnabled
  | 1 => w R.FAR_LIMITS (fun n => decide (1 ≤ bits n 0 8) && decide (bits n 0 8 ≤ 64) && decide (1 ≤ bits n 8 8) &&
      decide (bits n 8 8 ≤ 127) && decide (1 ≤ bits n 16 12) && decide (bits n 16 12 ≤ 2047)) id
  | 2 => w R.FAR_GATE_CFG (fun n => decide (8 ≤ bits n 0 8) && bits n 16 8 != 0) (fun t =>
      if get t F.FAR_GATE_CFG_CH = get s F.FAR_GATE_CFG_CH then t
      else forAll 48 (fun g t => farEmpty g (setFar (stallUnit g) (fun x => { x with samples := [], base := [] }) t)) t)
  | 3 => w R.FAR_GATE_SPREAD (fun n => n % 2 ^ 16 != 0) id
  | 4 => w R.FAR_THR_CFG (fun _ => true) id
  | 5 => w R.FAR_TEST_CFG (fun n => decide (1 ≤ n % 2 ^ 16) && decide (n % 2 ^ 16 ≤ 10000)) id
  | 6 => w (R.FAR_STALL_GATE_TARGET g) (fun _ => true) id
  | _ => w (R.FAR_STALL_PD_THR g) (fun _ => true) (fun t =>
      let t1 := setFar (stallUnit g) (fun x => { x with cut := x.cut || x.run == some 3 }) t
      if rdN t (R.FAR_STALL_PD_THR g) = rdN s (R.FAR_STALL_PD_THR g) then t1 else farEmpty g t1)

def execFarConfigWrite (sec : Bool) (r : Fin 8) (g : Fin 48) (v : Word) (s : State) : Host.Outcome State Fault Refusal :=
  .next (farConfigWrite sec r g v s)

/-! ## Collection (R460) -/

/-- The farrier collects for the stalls. -/
def farCollects (s : State) : Bool := bit (get s F.FAR_CFG_EN) 2 || bit (get s F.FAR_CFG_EN) 3

/-- An instant in taps. -/
def tapsOf (ns : Nat) : Int := (ns * 384 / 10 : Nat)

/-- One gate edge of an entry output at a tick. -/
def noteEdge (base trim : Int) (armed : Bool) (x : FarUnit) (e : Bool × Nat) : FarUnit :=
  let t := base + e.2
  if ¬ e.1 then { x with lastOff := some t }
  else if ¬ armed ∧ (x.lastOff.map fun o => decide (o + 76800 ≤ t)).getD true then
    { x with edges := x.edges ++ [t + 76800 + trim] }
  else x

/-- What the farrier notes of an entry output at this tick: its edges, and the window of samples for the baseline. The last
gate-off edge is followed whether or not it collects. -/
def farNote (g : Fin 48) (s : State) : State :=
  match (stall s g).cur with
  | none => s
  | some e =>
    let u := stallUnit g
    if ¬ farCollects s then
      setFar u (fun x => { x with lastOff := e.edges.foldl (fun o p => if p.1 then o else some (tapsOf s.now + p.2)) x.lastOff }) s
    else
      let base := tapsOf s.now
      let armed := e.after.live.any fun st => st.arm.isSome && decide (e.after.n ≤ st.spanEnd)
      let trim := getI s (F.STALL_GATE_TRIM_IN_USE g)
      let quiet := !e.gate && e.edges.isEmpty && ((far u s).lastOff.map fun o => decide (o + 76800 ≤ base)).getD true
      let t := s.now + 100 * get s (F.ENG_CFG_ALIGN g)
      setFar u (fun x =>
        let y := if s.forced then { x with lastOff := if e.gate || !e.edges.isEmpty then some base else x.lastOff }
          else e.edges.foldl (noteEdge base trim armed) x
        if quiet ∨ (s.forced ∧ (y.lastOff.map fun o => decide (o + 76800 ≤ base)).getD true) then
          { y with wins := y.wins ++ [(t, t + s.mvP)] } else y) s

/-- The first crossing of a threshold in consecutive samples, oldest first, in taps; `none` where there is none or a sample is
missing before it. -/
def crossing (thr : Nat) : List (Nat × Nat) → Option Int
  | a :: b :: t =>
    if b.1 ≠ a.1 + 100 then none
    else if a.2 < thr ∧ thr ≤ b.2 then
      let d := b.2 - a.2
      some (tapsOf a.1 + ((2 * 3840 * (thr - a.2) + d) / (2 * d) : Nat))
    else crossing thr (b :: t)
  | _ => none

/-- The oldest edge whose onset is searched: its delay, or that it gives none, once that is known. -/
def edgeOver (thr win : Nat) (e : Int) (x : FarUnit) : Option (Option Int) :=
  let stop := e + 3840 * win
  let l := (x.samples.filter fun p => decide (e ≤ tapsOf p.1) && decide (tapsOf p.1 ≤ stop)).reverse
  match crossing thr l with
  | some t => some (some (t - e))
  | none => if (x.samples.head?.map fun p => decide (stop ≤ tapsOf p.1)).getD false then some none else none

/-- Settle the edges that can be settled. -/
def settleEdges (thr win n : Nat) (x : FarUnit) : FarUnit :=
  x.edges.foldl (fun y e =>
    match edgeOver thr win e y with
    | some r => { y with edges := y.edges.drop 1, delays := (r.toList ++ y.delays).take n }
    | none => y) x

/-- One sample of the farrier's channel. -/
def farSample (t v : Nat) (x : FarUnit) : FarUnit :=
  let wins := x.wins.filter fun w => decide (t < w.2 + 4000)
  let inWin := wins.any fun w => decide (w.1 ≤ t) && decide (t < w.2)
  { x with
    wins := wins, samples := ((t, v) :: x.samples).take 300
    base := if inWin then (v :: x.base).take 4096 else x.base }

/-- The samples of a slot's record, for the farrier. -/
def farRecord (g : Fin 48) (t status : Nat) (samples : List (List Nat)) (s : State) : State :=
  let ch := get s F.FAR_GATE_CFG_CH
  if ¬ farCollects s ∨ ¬ bit status ch then s
  else
    let u := stallUnit g
    let f := fun (x : FarUnit) => settleEdges (rdN s (R.FAR_STALL_PD_THR g) % 2 ^ 16) (get s F.FAR_GATE_CFG_WIN)
      (get s F.FAR_GATE_CFG_N) (samples.zipIdx.foldl (fun x p => farSample (t + 100 * p.2) (p.1.getD ch 0 % 65536) x)
        { x with delays := x.delays.take (get s F.FAR_GATE_CFG_N), gcfg := rdN s R.FAR_GATE_CFG, tcfg := rdN s R.FAR_THR_CFG })
    let s1 := setFar u f s
    put s1 (F.FAR_STALL_INFO_COLLECTED g) (satN 255 (far u s1).delays.length)

/-! ## PHOTODIODE frames (R360) -/

/-- A head's ALARM. -/
def headAlarm (b : Fin 12) (k status : Nat) (s : State) : State :=
  let a := bits status 8 8
  if a = 0 then s else bayFlag F.LNK_FLAGS_HEAD_ALARM 3 b.val (put s ⟨R.LNK_HEAD_ALARM b, 8 * k, 8⟩ a)

/-- One record: slot, status block, samples. -/
def photoRecord (b : Fin 12) (t : Nat) (s : State) (r : Fin 4 × Nat × List (List Nat)) : State :=
  let s1 := headAlarm b r.1.val r.2.1 s
  match slotStall b r.1 s with
  | some g =>
    if h : g < 48 then farRecord ⟨g, h⟩ t r.2.1 (r.2.2.take 5) (pdRecord ⟨g, h⟩ t r.2.1 (r.2.2.take 5) s1) else s1
  | none => s1

/-- A PHOTODIODE frame. -/
def photodiodeFrame (b : Fin 12) (super cell : Nat) (recs : List (Fin 4 × Nat × List (List Nat))) (s : State) : State :=
  if bayActive b s then recs.foldl (photoRecord b (superTime super s + 100 * cell)) s else s

/-- PHOTODIODE_FRAME: the blocks that arrived; a discarded frame counts in CRC_ERRORS (R356, R360, R373). -/
def photodiodeUp (b : Fin 12) (broken : Bool) (blocks : List (BitVec 64)) (s : State) : State :=
  match frameRead 9 (some 6) broken blocks with
  | some f => photodiodeFrame b f.super f.cell ((f.records 6).map fun r =>
      (r.1, r.2.getD 0 0, (r.2.drop 1).map fun w => (List.range 4).map fun c => bits w (16 * c) 16)) s
  | none => errorRate b 1 s

def execPhotodiodeFrame (b : Fin 12) (broken : Bool) (head : BitVec 64) (data : List (BitVec 64)) (s : State) :
    Host.Outcome State Fault Refusal := .next (photodiodeUp b broken (head :: data) s)

/-! ## POSITION frames (R361) -/

/-- One slot's record: its samples for the boundary the CLE is about to evaluate. -/
def posRecord (g : Fin 48) (b0 b1 : Nat) (s : State) : State :=
  let raw := fun (a : Nat) => if a = 0 then bits b0 0 24 else if a = 1 then bits b0 24 24 else bits b0 48 16 + 2 ^ 16 * bits b1 0 8
  if bit b1 8 ≠ flag s (F.SRV_STATE_HEAD_BARE g) then s
  else forAll 3 (fun a s => if bit b1 (9 + a) then
    setSrv g (fun v => v.axis a fun x => { x with sample := some (sext 24 (raw a)) }) s else s) s

/-- A POSITION frame: slot, block 0 and block 1 of each record. A frame that comes after B_k + 3 µs is too late (R213). -/
def positionFrame (b : Fin 12) (super : Nat) (recs : List (Fin 4 × Nat × Nat)) (s : State) : State :=
  let t := superTime super s
  if bayActive b s ∧ t / 4000 = s.now / 4000 ∧ s.boundary ≤ s.now / 4000 ∧ s.now % 4000 < 3000 then
    recs.foldl (fun s r => match slotStall b r.1 s with
      | some g => if h : g < 48 then posRecord ⟨g, h⟩ r.2.1 r.2.2 s else s
      | none => s) s
  else s

/-- POSITION_FRAME: the blocks that arrived (R356, R361, R373). -/
def positionUp (b : Fin 12) (broken : Bool) (blocks : List (BitVec 64)) (s : State) : State :=
  match frameRead 0xA (some 2) broken blocks with
  | some f => positionFrame b f.super ((f.records 2).map fun r => (r.1, r.2.getD 0 0, r.2.getD 1 0)) s
  | none => errorRate b 1 s

def execPositionFrame (b : Fin 12) (broken : Bool) (blocks : List (BitVec 64)) (s : State) :
    Host.Outcome State Fault Refusal := .next (positionUp b broken blocks s)

end Machine
end Sys2Proof
end

