-- ==== Sys2Proof/Machine/Images.lean ====
section
/-!
DEFINITION. Chapter 21: firmware images (R508-R511), writing them (R516, R517), activating them (R518-R520), the restart
of the management cluster (R513), recovery loads (R515), and the evaluated configuration (R457).
-/
namespace Sys2Proof
namespace Machine

/-! ## Image types and slots (R508-R511) -/

/-- The index of a TYPE: MGMT, SEQ, LINK_BARE, HEAD, AOS, TCK, BOARD_SETTINGS. -/
def imgIdx (type : Nat) : Option (Fin 7) :=
  match type with
  | 1 => some 0 | 2 => some 1 | 3 => some 2 | 4 => some 3 | 0x10 => some 4 | 0x11 => some 5 | 0x20 => some 6
  | _ => none

/-- The bytes a partition holds (R509). -/
def imgSize (i : Fin 7) : Nat :=
  match i with
  | 0 => 0x800000 | 1 => 0x100000 | 2 => 0x100000 | 3 => 0x400000 | 4 => 0x40000 | 5 => 0x100000 | 6 => 0x40000

/-- An image updated in place, through STAGE. -/
def inPlace (i : Fin 7) : Bool := i.val == 4 || i.val == 5

/-- A slot of a TYPE. -/
def img (i : Fin 7) (k : Fin 2) (s : State) : Img := s.imgs[i.val][k.val]

def setImg (i : Fin 7) (k : Fin 2) (f : Img → Img) (s : State) : State :=
  { s with imgs := vmod s.imgs i fun v => vmod v k f }

/-- The slot that is written: STAGE, or the one not in use (R511). -/
def spareSlot (i : Fin 7) (s : State) : Fin 2 :=
  if inPlace i then 1 else if (img i 0 s).st = 3 ∨ (img i 0 s).st = 4 then 1 else 0

/-- The other slot. -/
def otherSlot (k : Fin 2) : Fin 2 := if k = 0 then 1 else 0

/-- The header fields of an image (R510). -/
def Img.header (x : Img) : Img :=
  { x with
    version := leAt x.bytes 8 4, evaluated := bit (leAt x.bytes 20 4) 0, rollback := leAt x.bytes 24 4,
    smin := leAt x.bytes 16 2, smax := leAt x.bytes 18 2, vendor := leAt x.bytes 28 2, model := leAt x.bytes 30 2 }

/-- The header of an image agrees with R510: MAGIC, FMT_VER, TYPE, the required zeros and the length. -/
def headerGood (type : Nat) (l : List Byte) : Bool :=
  leAt l 0 4 == 0x474D4946 && leAt l 4 1 == 1 && leAt l 5 1 == type && leAt l 6 2 == 0 && leAt l 80 48 == 0 &&
    l.length == 128 + leAt l 12 4 + (if type = 0x20 then 0 else 96)

/-- ROLLBACK is at or above the minimum, where it is enforced: DEVELOPMENT and LOCKED (R517). -/
def rollbackGood (i : Fin 7) (x : Img) (s : State) : Bool :=
  let lc := get s F.TCK_STATUS_LIFECYCLE
  !(lc == 1 || lc == 2) || decide (s.rollMin[i.val] ≤ x.rollback)

/-- The stored-settings version lies in an image's range (R521). -/
def settingsGood (x : Img) (s : State) : Bool :=
  let v := get s F.BOOT_SETTINGS_VERSION
  decide (x.smin ≤ v) && decide (v ≤ x.smax)

/-- The CRC-32C at the end of a BOARD_SETTINGS blob (R510). -/
def boardCrcGood (l : List Byte) : Bool := crc32c (l.take (l.length - 4)) == leAt l (l.length - 4) 4

/-- An image fails authentication (R512): counted, event 33. -/
def authFail (i : Nat) (s : State) : State :=
  raise 33 (setF (addSat (lifeAdd s (lifeNo 21 6 i) 1) R.TCK_AUTH_FAILS 1) F.TCK_FLAGS_AUTH_FAIL)

/-- The rollback minimum of a TYPE rises to a value (R517). -/
def raiseMin (i : Fin 7) (n : Nat) (s : State) : State := { s with rollMin := vmod s.rollMin i (max n) }

/-! ## The evaluated configuration (R457) -/

/-- Every running firmware image is listed as evaluated; the STAGE image counts while its copy runs (R518). -/
def imagesEvaluated (s : State) : Bool :=
  (fins 7).all fun (i : Fin 7) => i.val == 6 || ((fins 2).all fun (k : Fin 2) =>
    let x := img i k s
    let runs := x.st == 3 || x.st == 4 || (s.imgCopy.map Prod.fst == some i.val && k.val == 1)
    !runs || x.evaluated)

/-- The five conditions of R457. -/
def evaluatedNow (s : State) : Bool :=
  get s F.TCK_STATUS_LIFECYCLE == 2 && flag s F.TCK_CFG_RECORDER_SEAL && !(flag s F.TCK_CFG_UART_RECOVERY) &&
    imagesEvaluated s && s.sealedAt.all fun r => !(anyOpen r.1 r.2 s)

/-- EVALUATED is recomputed: a change raises event 35, a loss sets EVAL_LOST. -/
def evalUpdate (s : State) : State :=
  let was := flag s F.TCK_STATUS_EVALUATED
  let is := evaluatedNow s
  if was = is then s
  else if is then raise 35 (setF s F.TCK_STATUS_EVALUATED)
  else raise 35 (lifeAdd (setF (clrF s F.TCK_STATUS_EVALUATED) F.TCK_FLAGS_EVAL_LOST) (lifeNo 17 6 0) 1)

/-! ## IMG_WRITE (R516) -/

/-- A TYPE is the target of an active transaction or of an activation under way, or a copy is pending. -/
def imgBusy (type : Nat) (s : State) : Bool :=
  s.imgCopy.isSome || ((fins 64).any fun i => (txn s i).active && (txn s i).acts.any fun a => a.act.target == (3, type)) ||
    s.bays.toList.any fun b => b.push.any fun p => p.type == type

/-- FIRST: erase the slot. STAGE holds one image, of AOS or of TCK. -/
def eraseSlot (i : Fin 7) (s : State) : State :=
  let s1 := setImg i (spareSlot i s) (fun _ => { Img.init with st := 1 }) s
  if i = 4 then setImg 5 1 (fun _ => Img.init) s1 else if i = 5 then setImg 4 1 (fun _ => Img.init) s1 else s1

/-- What LAST finds in an image: 0 for a good one, else the detail. `sig` and `hash` are the outcomes of the signature and
HASH checks. A BOARD_SETTINGS blob has its CRC in their place. -/
def verifyImage (type : Nat) (i : Fin 7) (x : Img) (sig hash : Bool) (s : State) : Nat :=
  if ¬ headerGood type x.bytes then 1
  else if i = 6 then (if boardCrcGood x.bytes then 0 else 6)
  else if ¬ sig then 2
  else if ¬ hash then 3
  else if ¬ rollbackGood i x s then 4
  else if i = 0 ∧ ¬ settingsGood x s then 5
  else 0

/-- LAST: verify the image and complete. -/
def imgLast (c : Fin 256) (q type : Nat) (i : Fin 7) (sig hash : Bool) (s : State) : State :=
  let k := spareSlot i s
  let x := img i k s
  let d := verifyImage type i x sig hash s
  let s1 := setImg i k (fun x => { x with st := if d = 0 then 2 else 5 }) s
  if d = 0 then complete c q stOK (some x.bytes.length) none false { s1 with boardNew := s1.boardNew || i == 6 }
  else
    let s2 := if d = 2 ∨ d = 3 then authFail i s1 else s1
    complete c q stDATA_CHECK (some x.bytes.length) (if d = 6 then none else some d) false s2

/-- IMG_WRITE of a TYPE with a chunk. -/
def imgChunk (c : Fin 256) (d : Desc) (type : Nat) (i : Fin 7) (bs : List Byte) (sig hash : Bool) (s : State) : State :=
  let first := bit (d.at 21 1) 0
  if first ∧ 5 ≤ bs.length ∧ leAt bs 4 1 ≠ 1 then complete c d.seq stVERSION (some 1) none false s
  else
    let s1 := if first then eraseSlot i s else s
    let k := spareSlot i s1
    let s2 := setImg i k (fun x => Img.header { x with bytes := x.bytes ++ bs.take d.len }) s1
    if bit (d.at 21 1) 1 then imgLast c d.seq type i sig hash s2
    else complete c d.seq stOK (some (img i k s2).bytes.length) none false s2

/-- IMG_WRITE. -/
def opImgWrite (c : Fin 256) (r : DmaIn) (sig hash : Bool) (d : Desc) (s : State) : State :=
  let off := d.at 24 4
  blockCheck c d.seq 18 0x120000 (fun s =>
    if d.at 21 3 ≥ 4 ∨ d.at 28 36 ≠ 0 ∨ d.len % 4 ≠ 0 ∨ d.len < 4 ∨ 2 ^ 20 < d.len then formatZero c d.seq s
    else match imgIdx (d.at 20 1) with
      | none => formatZero c d.seq s
      | some i =>
        let x := img i (spareSlot i s) s
        let first := bit (d.at 21 1) 0
        if (first ∧ off ≠ 0) ∨ (¬ first ∧ (x.st ≠ 1 ∨ off ≠ x.bytes.length)) ∨ imgSize i < off + d.len then
          formatZero c d.seq s
        else if imgBusy (d.at 20 1) s then complete c d.seq stBUSY none none false s
        else withPayload c d.seq r (fun bs s => imgChunk c d (d.at 20 1) i bs sig hash s) s) s

def execImgWrite (c : Fin 256) (r : DmaIn) (sigOk hashOk : Bool) (s : State) : Host.Outcome State Fault Refusal :=
  .next (withDesc c 0x80 (opImgWrite c r sigOk hashOk) s)

/-! ## Activation (R518, R519, R520) -/

/-- The bays an image of HEAD or LINK_BARE concerns (R520). -/
def bayConcerned (i : Fin 7) (x : Img) (b : Fin 12) (s : State) : Bool :=
  bayActive b s &&
    (if i = 3 then get s (F.LNK_HEAD_ID_VENDOR b) == x.vendor && get s (F.LNK_HEAD_ID_MODEL b) == x.model
     else (List.range 4).any fun k => slotClass b k s == 2)

def concernedBays (i : Fin 7) (s : State) : List (Fin 12) :=
  (fins 12).filter fun (b : Fin 12) => bayConcerned i (img i (spareSlot i s) s) b s

/-- Why an activation is refused at the commit tick (R518): 0 accepted, else DETAIL. -/
def imgRefusal (i : Fin 7) (s : State) : Nat :=
  let x := img i (spareSlot i s) s
  let head := i.val == 2 || i.val == 3
  if ¬ allQuiet s ∨ (fins 8).any (fun (a : Fin 8) => axSt a s == asMOVING || axSt a s == asSTOPPING) then 1
  else if x.st ≠ 2 then 2
  else if ¬ rollbackGood i x s then 3
  else if i = 0 ∧ ¬ settingsGood x s then 4
  else if head ∧ (concernedBays i s).any (fun (b : Fin 12) => (bayStalls b s).any fun (g : Fin 48) => decide (1 < srvSt g s)) then 5
  else if head ∧ (concernedBays i s).isEmpty then 6
  else 0

/-- The slots of a TYPE swap: the spare slot becomes ACTIVE, the one in use VERIFIED. -/
def swapSlots (i : Fin 7) (s : State) : State :=
  let k := spareSlot i s
  setImg i (otherSlot k) (fun x => if x.st = 3 ∨ x.st = 4 then { x with st := 2 } else x)
    (setImg i k (fun x => { x with st := 3 }) s)

/-- The management cluster restarts (R513, R518). -/
def mgmtRestart (s : State) : State :=
  let k : Fin 2 := if (img 0 0 s).st = 4 then 0 else if (img 0 1 s).st = 4 then 1 else if (img 0 0 s).st = 3 then 0 else 1
  lifeAdd (clrF { s with mgmtDown := some s.beam } F.HIF_STATUS_READY) (lifeNo 21 0 k) 1

/-- The superframe a head switches at: the first one at least 1 ms after the commit tick (R518). -/
def switchFrame (s : State) : Nat := (s.now + 1000000 + 3999) / 4000

/-- A bay with the accepted image sends IMG_SWITCH (R518, R520). -/
def sendSwitch (n type : Nat) (b : Fin 12) (s : State) : State :=
  if (bay s b).push.any (fun p => p.type == type && p.phase == 3) ∧ bayActive b s then
    let s1 := sendMsg b 0 0x13 [n % 256, n / 256 % 256, n / 65536 % 256, n / 16777216 % 256] s
    setBay b (fun x => { x with switchAt := some n }) s1
  else s

/-- The pushes of a TYPE end. -/
def dropPushes (type : Nat) (s : State) : State :=
  { s with bays := s.bays.map fun b => { b with push := b.push.filter fun p => p.type != type } }

/-- An accepted activation takes effect at the commit tick and settles (R518). -/
def imgApply (i : Fin 7) (type : Nat) (s : State) : State :=
  let k := spareSlot i s
  let roll := (img i k s).rollback
  let s1 := lifeAdd s (lifeNo 21 3 i) 1
  let s2 :=
    if i = 0 then
      mgmtRestart (put (setImg 0 k (fun x => { x with st := 4 }) s1) F.BOOT_STATUS_BOOT_TRIES 0)
    else if inPlace i then raiseMin i roll { s1 with imgCopy := some (i.val, s.beam) }
    else if i = 1 then raiseMin i roll (swapSlots i s1)
    else dropPushes type (forAll 12 (sendSwitch (switchFrame s) type) (raiseMin i roll (swapSlots i s1)))
  evalUpdate s2

/-! ### Pushing head images (R520) -/

/-- The next message of a push: IMG_OFFER, then IMG_DATA, then IMG_DONE. -/
def pushSend (b : Fin 12) (p : Push) (l : List Byte) (s : State) : State :=
  let t := (bay s b).tag
  let s1 := if p.phase = 0 then sendMsg b 0 0x10 [1, 1] s
    else if p.phase = 1 then sendMsg b 0 0x11 (((l.drop p.off).take 120).map BitVec.toNat) s
    else sendMsg b 0 0x12 [] s
  setBay b (fun x => { x with push :=
    { p with tag := t, at_ := s.beam } :: x.push.filter fun q => !(q.txn == p.txn && q.type == p.type) }) s1

/-- Begin to push an image to the bays concerned. -/
def pushStart (t : Nat) (i : Fin 7) (type : Nat) (s : State) : State :=
  (concernedBays i s).foldl (fun s b => pushSend b ⟨t, type, 0, 0, 0, 0⟩ [] s) s

/-- Any push of a transaction and TYPE still runs. -/
def pushing (t type : Nat) (s : State) : Bool :=
  s.bays.toList.any fun b => b.push.any fun p => p.txn == t && p.type == type && p.phase != 3

/-- The started IMG_ACTIVATE a push belongs to. -/
def pushOwner (t type : Nat) (s : State) : Option (Fin 256 × Desc) :=
  (fins 256).findSome? fun c => (runningDesc (ctx s c) fun d =>
    d.op == 0x81 && d.at 20 1 == type && (if t = 64 then !d.txnV else d.txnV && d.txn == t)).map fun d => (c, d)

/-- An IMG_ACTIVATE that passed its own checks goes on: it is staged, or waits for the next tick (R518). -/
def activateReady (c : Fin 256) (d : Desc) (s : State) : State :=
  if d.txnV then
    stageOpen c d.seq d.txnId (fun s => stageActs c d.seq d.txnId [.activate d.raw] (fun _ => (none, none)) id s) s
  else { s with imgAct := s.imgAct ++ [(c.val, d.seq)] }

/-- The pushes of an activation are over: all heads hold the image, or one failed. -/
def pushOver (t type : Nat) (ok : Bool) (s : State) : State :=
  match pushOwner t type s with
  | none => s
  | some (c, d) =>
    if ok then (if pushing t type s then s else activateReady c d s)
    else
      let s1 := dropPushes type s
      if d.txnV then stageFormat c d.seq 0 d.txnId s1 else complete c d.seq stFORMAT (some 0) none false s1

/-- A head answers a message of a push: the next message, or the end. `ok` is the head's acceptance. -/
def pushReply (b : Fin 12) (msg : List Byte) (ok : Bool) (s : State) : State :=
  match (bay s b).push.find? fun p => p.phase != 3 && p.tag == leAt msg 1 1 with
  | none => s
  | some p =>
    if ¬ ok then pushOver p.txn p.type false s
    else match imgIdx p.type with
      | none => s
      | some i =>
        let l := (img i (spareSlot i s) s).bytes
        let off := if p.phase = 1 then p.off + 120 else p.off
        if p.phase = 2 then
          pushOver p.txn p.type true (setBay b (fun x => { x with push := x.push.map fun q => if q = p then { q with phase := 3 } else q }) s)
        else pushSend b { p with phase := if off < l.length then 1 else 2, off := off } l s

/-- A message of a head: a reply to a LINK_MGMT or to a head-image message (R362, R377, R520). -/
def mgmtFrameUp (b : Fin 12) (msg : List Byte) (ok : Bool) (s : State) : State :=
  let mop := leAt msg 0 1
  if 0x10 ≤ mop ∧ mop < 0x20 then pushReply b msg ok s else mgmtReply b msg s

/-- MGMT_FRAME_UP: the blocks that arrived, and for a reply to a head-image message the head's acceptance (R356, R362, R373). -/
def mgmtUp (b : Fin 12) (broken : Bool) (blocks : List (BitVec 64)) (ok : Bool) (s : State) : State :=
  match frameRead 0xB none broken blocks with
  | some f => mgmtFrameUp b f.message ok s
  | none => errorRate b 1 s

/-- MGMT_FRAME_UP: no `blocks` where the frame arrived broken. -/
def execMgmtFrameUp (b : Fin 12) (blocks : Option (List (BitVec 64))) (ok : Bool) (s : State) :
    Host.Outcome State Fault Refusal := .next (mgmtUp b blocks.isNone (blocks.getD []) ok s)

/-- IMG_REPLY_TIMEOUT: a message of a push is 10 ms without a reply. -/
def imgReplyTimeout (b : Fin 12) (s : State) : State :=
  match (bay s b).push.find? fun p => p.phase != 3 && decide (10000000 ≤ s.beam - p.at_) with
  | some p => pushOver p.txn p.type false s
  | none => s

def execImgReplyTimeout (b : Fin 12) (s : State) : Host.Outcome State Fault Refusal := .next (imgReplyTimeout b s)

/-! ### IMG_ACTIVATE -/

/-- IMG_ACTIVATE. A head image is pushed before the action is staged, or acts. -/
def opImgActivate (c : Fin 256) (d : Desc) (s : State) : State :=
  let go := fun (s : State) =>
    let ok := d.addr == 0 && d.len == 0 && d.at 21 43 == 0 && d.at 20 1 != 0x20
    match (if ok then imgIdx (d.at 20 1) else none) with
    | none => if d.txnV then stageFormat c d.seq 0 d.txnId s else formatZero c d.seq s
    | some i =>
      let t := if d.txnV then d.txn else 64
      let head := i.val == 2 || i.val == 3
      if head ∧ (img i (spareSlot i s) s).st = 2 ∧ ¬ (concernedBays i s).isEmpty then pushStart t i (d.at 20 1) s
      else activateReady c d s
  if d.txnV then stageOpen c d.seq d.txnId go s else blockCheck c d.seq 18 0x120000 go s

def execImgActivate (c : Fin 256) (s : State) : Host.Outcome State Fault Refusal :=
  .next (withDesc c 0x81 (opImgActivate c) s)

/-- The IMG_ACTIVATEs that are not staged act at a tick as immediate commits do (R518); the outcome is that of R241. -/
def activateStep (s : State) : State :=
  s.imgDue.foldl (fun s (p : Nat × Nat) =>
    if h : p.1 < 256 then
      let c : Fin 256 := ⟨p.1, h⟩
      match findDesc c p.2 s with
      | some d => match imgIdx (d.at 20 1) with
        | some i =>
          let r := imgRefusal i s
          if r = 0 then complete c p.2 stOK (some 0) none false (imgApply i (d.at 20 1) s)
          else complete c p.2 stINTERLOCK (some (7 + 2 ^ 8 * 8 + 2 ^ 16 * d.at 20 1 + 2 ^ 24 * r)) none false
            (dropPushes (d.at 20 1) s)
        | none => s
      | none => s
    else s) { s with imgDue := [] }

/-! ## The management cluster's restart (R513) -/

/-- The device enters recovery mode (R514). -/
def enterRecovery (cause : Nat) (s : State) : State :=
  let s1 := put (put s F.BOOT_STATUS_PHASE 5) F.BOOT_STATUS_RECOVERY_CAUSE cause
  inhibitOn srcRESET (lifeAdd (clrF s1 F.HIF_STATUS_READY) (lifeNo 21 2 cause) 1)

/-- The slot in TRIAL. -/
def trialSlot (s : State) : Option (Fin 2) :=
  if (img 0 0 s).st = 4 then some 0 else if (img 0 1 s).st = 4 then some 1 else none

/-- A TRIAL slot reached READY: it is ACTIVE, the other VERIFIED, and the minimum rises. -/
def trialPassed (s : State) : State :=
  match trialSlot s with
  | some k =>
    let s1 := setImg 0 (otherSlot k) (fun x => if x.st = 3 then { x with st := 2 } else x) (setImg 0 k (fun x => { x with st := 3 }) s)
    raiseMin 0 (img 0 k s).rollback s1
  | none => s

/-- MGMT_READY: the return of a cluster that restarted while the device ran. A cluster that comes up during start-up lets
START_UP go on instead. -/
def mgmtReady (s : State) : State :=
  if s.mgmtDown.isSome ∧ get s F.BOOT_STATUS_PHASE = 4 then
    let s1 := trialPassed { s with mgmtDown := none }
    put (setF s1 F.HIF_STATUS_READY) F.BOOT_STATUS_PHASE 4
  else s

def execMgmtReady (s : State) : Host.Outcome State Fault Refusal := .next (mgmtReady s)

/-- The other slot is started where a TRIAL slot is given up (R513). -/
def fallBackTo (k : Fin 2) (s : State) : State :=
  let s1 := setImg 0 (otherSlot k) (fun x => { x with st := 5 }) s
  if (img 0 k s).st = 2 ∨ (img 0 k s).st = 3 then
    let s2 := setImg 0 k (fun x => { x with st := 3 }) s1
    mgmtRestart (lifeAdd (setF s2 F.BOOT_FLAGS_FALLBACK) (lifeNo 21 1 0) 1)
  else enterRecovery 2 s1

/-- READY_TIMEOUT: a TRIAL slot did not reach READY in time. -/
def readyTimeout (s : State) : State :=
  match s.mgmtDown, trialSlot s with
  | some t, some k =>
    if get s F.BOOT_STATUS_PHASE ≠ 5 ∧ get s F.BOOT_TRIAL_CFG_READY_TIMEOUT * 1000000 ≤ s.beam - t then
      let s1 := addSatF s F.BOOT_STATUS_BOOT_TRIES 1
      if get s1 F.BOOT_TRIAL_CFG_TRIES ≤ get s1 F.BOOT_STATUS_BOOT_TRIES then fallBackTo (otherSlot k) s1
      else mgmtRestart s1
    else s
  | _, _ => s

def execReadyTimeout (s : State) : Host.Outcome State Fault Refusal := .next (readyTimeout s)

/-! ## Recovery (R515) -/

/-- The outcome of a recovery image: 2 loaded, 3 authentication, 4 rollback, 5 format. -/
def recoveryResult (type : Nat) (l : List Byte) (sig hash : Bool) (s : State) : Nat :=
  match imgIdx type with
  | some i =>
    let x := Img.header { Img.init with bytes := l }
    if i = 1 ∨ i = 2 ∨ i = 3 ∨ imgSize i < l.length ∨ ¬ headerGood type l then 5
    else if i = 6 then (if boardCrcGood l then 2 else 5)
    else if ¬ (sig ∧ hash) then 3
    else if ¬ rollbackGood i x s then 4
    else 2
  | none => 5

/-- Install a recovery image. -/
def recoveryInstall (type : Nat) (l : List Byte) (s : State) : State :=
  match imgIdx type with
  | some i =>
    let x := Img.header { Img.init with bytes := l }
    if i = 0 then setImg 0 1 (fun _ => Img.init) (setImg 0 0 (fun _ => { x with st := 3 }) s)
    else if inPlace i then
      let s1 := setImg i 1 (fun _ => { x with st := 2 }) (eraseSlot i s)
      { s1 with imgCopy := some (i.val, s.beam) }
    else { setImg i (spareSlot i s) (fun _ => { x with st := 2 }) s with boardNew := s.boardNew || i == 6 }
  | none => s

/-- Judge a recovery image, and install a good one. -/
def recoveryImage (type : Nat) (l : List Byte) (sig hash : Bool) (s : State) : Nat × State :=
  let r := recoveryResult type l sig hash s
  (r, if r = 2 then recoveryInstall type l s
      else if r = 3 then authFail (((imgIdx type).map Fin.val).getD 7) s else s)

/-- A write of a recovery register outside recovery mode (R515). -/
def bootRefused (s : State) : State := setF s F.BOOT_FLAGS_CFG_REFUSED

/-- RECOVERY_LOAD: RCV_CMD.LOAD reads RCV_LEN bytes and installs the image. A read that fails shows in RCV_STATUS (R515) and
counts in no lifetime counter: R73 counts failed reads by KIND and does not say whether the ROM's count too. DESIGN CHOICE
(notes/assumptions/181). -/
def recoveryLoad (r : DmaIn) (sig hash : Bool) (s : State) : State :=
  if get s F.BOOT_STATUS_PHASE ≠ 5 then bootRefused s
  else match r with
    | .fail _ _ => wrN s R.BOOT_RCV_STATUS 6
    | .ok bs =>
      let l := bs.take (rdN s R.BOOT_RCV_LEN % 2 ^ 24)
      let (n, s1) := recoveryImage (leAt l 5 1) l sig hash s
      wrN s1 R.BOOT_RCV_STATUS (n + 2 ^ 8 * leAt l 5 1)

def execRecoveryLoad (sec : Bool) (r : DmaIn) (sigOk hashOk : Bool) (s : State) : Host.Outcome State Fault Refusal :=
  .next (hostWrite sec R.BOOT_RCV_CMD (recoveryLoad r sigOk hashOk) s)

/-- The ROM's answer on the service UART. -/
def uartSay (b : Nat) (s : State) : State := emit (.uart b) s

/-- A frame is whole: 0x7E, TYPE, OFFSET, LEN, data and CRC-32C. -/
def uartFrameGood (f : List Byte) : Bool :=
  let n := leAt f 6 2
  leAt f 0 1 == 0x7E && f.length == 12 + n && decide (n ≤ 4096) && crc32c (f.take (8 + n)) == leAt f (8 + n) 4

/-- UART_FRAME, in recovery mode with the fuse UART_RECOVERY. -/
def uartFrame (f : List Byte) (sig hash : Bool) (s : State) : State :=
  if get s F.BOOT_STATUS_PHASE ≠ 5 ∨ ¬ flag s F.TCK_CFG_UART_RECOVERY then s
  else
    let type := leAt f 1 1
    let n := leAt f 6 2
    if ¬ uartFrameGood f ∨ leAt f 2 4 ≠ s.uart.length ∨ s.uartType.any (fun t => t != type) then uartSay 0x15 s
    else if n = 0 then
      let (r, s1) := recoveryImage type s.uart sig hash { s with uart := [], uartType := none }
      uartSay (if r = 2 then 0x06 else 0x18) s1
    else uartSay 0x06 { s with uart := s.uart ++ (f.drop 8).take n, uartType := some type }

def execUartFrame (frame : List Byte) (sigOk hashOk : Bool) (s : State) : Host.Outcome State Fault Refusal :=
  .next (uartFrame frame sigOk hashOk s)

/-! ## Register writes (R522) -/

/-- TRIAL_CFG is in range. -/
def trialRange (n : Nat) : Bool :=
  decide (1 ≤ bits n 0 4) && decide (bits n 0 4 ≤ 7) && decide (500 ≤ n / 2 ^ 16) && decide (n / 2 ^ 16 ≤ 10000)

/-- The value a 64-bit access gives a 32-bit register at its low word. -/
def wrWord (w : Wr64) : Word :=
  match w with
  | .lo v => v
  | .hi v => v
  | .both v => BitVec.ofNat 32 v.toNat

/-- BOOT_CONFIG_WRITE of TRIAL_CFG, IMG_SEL, RCV_LEN or RCV_ADDR. -/
def bootConfigWrite (sec : Bool) (r : Fin 4) (w : Wr64) (s : State) : State :=
  let rec_ := get s F.BOOT_STATUS_PHASE == 5
  match r with
  | 0 => cfgWrite sec R.BOOT_TRIAL_CFG (wrWord w) (fun n _ => trialRange n) bootRefused (fun n s => wrN s R.BOOT_TRIAL_CFG n) s
  | 1 => cfgWrite sec R.BOOT_IMG_SEL (wrWord w) (fun n _ => (imgIdx (n % 256)).isSome) bootRefused
      (fun n s => wrN s R.BOOT_IMG_SEL n) s
  | 2 => cfgWrite sec R.BOOT_RCV_LEN (wrWord w) (fun _ _ => rec_) bootRefused (fun n s => wrN s R.BOOT_RCV_LEN n) s
  | 3 => hostWrite sec R.BOOT_RCV_ADDR (withWide R.BOOT_RCV_ADDR false w (fun v s =>
      if rec_ then wr64 s R.BOOT_RCV_ADDR v else bootRefused s)) s

def execBootConfigWrite (sec : Bool) (r : Fin 4) (w : Wr64) (s : State) : Host.Outcome State Fault Refusal :=
  .next (bootConfigWrite sec r w s)

end Machine
end Sys2Proof
end

