-- ==== Sys2Proof/Machine/Gate.lean ====
section
/-!
DEFINITION. Chapter 08: the gate. The control descriptors (R226), the checks and the acceptance of a transaction at its
commit tick (R237-R240), settling, undo, abort and expiry (R235, R241-R246).
-/
namespace Sys2Proof
namespace Machine

/-! ## Outcomes (R241, R246) -/

/-- The low 48 bits of an outcome. -/
def mkOutcome (reason kind num detail action : Nat) : Nat :=
  reason + 2 ^ 8 * kind + 2 ^ 16 * (num % 256) + 2 ^ 24 * (detail % 256) + 2 ^ 32 * action

/-- The STATUS that reports a reason. -/
def reasonStatus (r : Nat) : Nat :=
  match r with
  | 0 => stOK | 1 => stABORTED | 2 => stWORLD_FAULT | 3 => stTXN_CONFLICT | 4 => stTIMEOUT | 5 => stNO_SPACE
  | 6 => stBUSY | 7 => stINTERLOCK | 8 => stTIMEOUT | 9 => stABORTED | 0xA => stFORMAT | _ => stMEMORY_ERROR

/-- `GTE.TXN_INFO` of a transaction. -/
def txnInfo (t : Txn) : Nat :=
  t.st + 2 ^ 4 * t.kind + 2 ^ 6 * b2n (t.doom != 0) + 2 ^ 7 * b2n t.notify + 2 ^ 8 * t.acts.length +
    2 ^ 19 * b2n (t.acts.any fun a => a.act.oneWay) + 2 ^ 24 * (t.outcome.map (· % 256)).getD 0xFF + 2 ^ 32 * t.opener

/-- `GTE.TXN_TIME` of a transaction. -/
def txnTime (t : Txn) : Nat := if t.st = 2 ∧ t.kind = 1 then t.t else if 3 ≤ t.st then t.tick else 0

/-- A COMMIT that waits completes with the outcome; REPEAT marks one that came later (R241, R245). -/
def tellCommit (t : Txn) (o : Nat) (s : State) (w : Nat × Nat × Bool) : State :=
  if h : w.1 < 256 then
    complete ⟨w.1, h⟩ w.2.1 (reasonStatus (o % 256)) (some (o + 2 ^ 48 * b2n w.2.2)) (some t.tick) false s
  else s

/-- The TXN_ABORTs that wait for an undo complete with OK (R244). -/
def tellAbort (o : Nat) (s : State) (w : Nat × Nat) : State :=
  if h : w.1 < 256 then complete ⟨w.1, h⟩ w.2 stOK (some o) (some 0) false s else s

/-- The reservations of the axes a transaction moves end (R286). -/
def endReserves (aborted : Bool) (t : Txn) (s : State) : State :=
  t.acts.foldl (fun s a => match a.act with
    | .move x _ => if h : x < 8 then endReserve ⟨x, h⟩ aborted s else s
    | .activate d => if aborted then dropPushes (dbytes d 20 1) s else s
    | _ => s) s

/-- An ID becomes DONE with an outcome: its actions leave the store, its COMMITs and ABORTs complete. -/
def txnDone (i : Fin 64) (o : Nat) (s : State) : State :=
  let t := txn s i
  let s1 := setTxn i (fun t => { t with st := 4, outcome := some o, acts := [], waits := [], aborts := [], badGrids := [] }) s
  let s2 := endReserves (o % 256 != 0) t s1
  t.aborts.foldl (tellAbort o) (t.waits.foldl (tellCommit t o) s2)

/-- Report an abort or an undo (R241, R251). -/
def noteAbort (i : Fin 64) (o : Nat) (s : State) : State :=
  let s1 := wr64 (wr64 s R.GTE_LAST_ABORT (o + 2 ^ 58 * i.val)) R.GTE_LAST_ABORT_TIME s.now
  raise 65 (lifeAdd (setF (addW s1 R.GTE_ABORTS 1) F.GTE_FLAGS_ABORTED) (lifeNo 8 1 (o % 256)) 1)

/-- Abort a transaction; nothing has changed. -/
def txnAbort (i : Fin 64) (o : Nat) (s : State) : State := txnDone i o (noteAbort i o s)

/-! ## Participants (R232, R240, R327, R482) -/

/-- The participant KIND and NUMBER of an action (R241). -/
def participant (a : Act) (s : State) : Nat × Nat :=
  match a with
  | .release g => (1, g)
  | .resume g => (1, g)
  | .move x _ => (5, x)
  | .activate d => (8, dbytes d 20 1)
  | .write o _ _ _ =>
    match stallAt o, cleAt o, axisAt o, sensAt o with
    | some (g, _), _, _, _ => (1, g)
    | _, some (g, _), _, _ => (2, g / 8)
    | _, _, some (x, _), _ => (5, x)
    | _, _, _, some (n, _) => (6, sensPipe n s)
    | _, _, _, _ =>
      match lampAt o, patAt o with
      | some _, _ => (7, let k := bits (rdN s o) 20 4; if k < 8 then k else 0xFF)
      | _, some (k, _) => (7, 0x10 + k)
      | _, _ => (if (R.YRD_MSH_CTRL ≤ o ∧ o ≤ R.YRD_MSH_SEAM_CFG) ∨ o = R.YRD_MSH_SEAM_MOVE then 3 else 4, 0)

/-- The fault code of a faulted participant (R237 check 3). -/
def partFault (a : Act) (s : State) : Option Nat :=
  match participant a s with
  | (1, g) => if stSt g s = ssFAULT then some (get s (F.STALL_STATE_FAULT_CAUSE g)) else none
  | (5, x) => if axSt x s = asFAULT then some (get s (F.AXIS_FAULT_INFO_DETAIL x)) else none
  | (6, x) => if pipeFaulted x s then some 1 else none
  | (7, k) =>
    if k < 8 then (if groupFailed k s then some 1 else none)
    else if 0x10 ≤ k ∧ bit (get s F.LMP_STATUS_PAT_FAULT) (k - 0x10) then some 2 else none
  | _ => none

/-- RELEASE and RESUME share these conditions (R240). -/
def stallFree (g : Nat) (s : State) : Nat :=
  if hbLost s then 3 else if inhibited s then 4 else if servoOk g s then 0 else 5

/-- A stall's parameter write: 0 accepted, 7 a grid that failed, 256 a refusal whose DETAIL the spec leaves open. -/
def stallRefusal (t : Txn) (g : Fin 48) (o r : Nat) (s : State) : Nat :=
  if r < 0x200 ∧ ¬ (trjRange r (t.after s o) ∧
      planesOk (t.after s (R.STALL_TRJ_CTRL g)) (t.after s (R.STALL_FOCUS_PLANES g))) then 256
  else if (o = R.STALL_GRID_SEL g ∨ o = R.STALL_TRJ_CTRL g) ∧ t.badGrids.contains g.val then 7
  else 0

/-- A CLE write (R210, R211, R219). -/
def cleRefusal (t : Txn) (g : Fin 48) (o r : Nat) (s : State) : Nat :=
  let n := t.after s o
  if ¬ stableEn (g / 8) s then 8
  else if r = 4 then
    (if (flag s (F.ENG_BANK_PENDING g) ∧ get s (F.ENG_BANK_SEL g) = n % 2) ∨ bankLoading g (n % 2) s then 6 else 0)
  else if r < 0x300 then
    (if ¬ engRange r n then 2 else if engOk g r (rdN s o) n s then 0 else 1)
  else if ¬ srvRange ((r - 0x304) / 4) n then 2
  else if r = 0x308 ∨ servoFree g s then 0 else 1

/-- A write of a sensor context's parameters (R327). -/
def sensRefusal (t : Txn) (n : Fin 16) (s : State) : Nat :=
  let s' := [4, 7, 8, 9, 10].foldl (fun x o => wrN x (sensReg n o) (t.after s (sensReg n o))) s
  if sensState n s = 4 then 1 else if parOk n (sensPar n s') s then 0 else 2

/-- The state in which step 6 of this tick judges a seam move (R185, R240): moves decided before have changed their owners, and the
aborts of this tick have begun. -/
def seamAhead (s : State) : State :=
  forAll 48 (fun g s => if bit (stall s g).squashDue 5 then setF s (F.STALL_STATE_ABORTING g) else s)
    (s.seamMoves.foldl carryMove s)

/-- Why a staged seam move is refused, by the codes of MSH_SEAM_RESULT; 0 where it is accepted. -/
def seamStaged (w : Nat) (s : State) : Nat := moveFails (w % 2 ^ 32) (w / 2 ^ 32 % 64) (seamAhead s)

/-- Why a participant refuses an action (R240): 0 accepted, else DETAIL. -/
def refusal (t : Txn) (a : Act) (s : State) : Nat :=
  match a with
  | .release g => if stSt g s ≠ ssIDLE ∧ stSt g s ≠ ssLAYER then 1 else stallFree g s
  | .resume g => if stSt g s ≠ ssHOLD then 1 else stallFree g s
  | .move x d => if h : x < 8 then stagedRefusal ⟨x, h⟩ ⟨d, false, false, true, 0, none⟩ s else 1
  | .activate d => match imgIdx (dbytes d 20 1) with | some i => imgRefusal i s | none => 2
  | .write o v m wide =>
    match stallAt o, cleAt o, axisAt o, sensAt o with
    | some (g, r), _, _, _ => stallRefusal t g o r s
    | _, some (g, r), _, _ => cleRefusal t g o r s
    | _, _, some (x, r), _ => if axisRange x r (t.after s o) (t.after s) then 0 else 2
    | _, _, _, some (n, _) => sensRefusal t n s
    | _, _, _, _ =>
      if (lampAt o).isSome ∨ (patAt o).isSome then (if lmpRange o (t.after s o) then 0 else 2)
      else if o = R.YRD_MSH_SEAM_MOVE then
        (if wide ∧ seamStaged (v &&& m) s = 0 then 0 else 1)
      else if R.YRD_MSH_CTRL ≤ o ∧ o ≤ R.YRD_MSH_SEAM_CFG then (if marshalRange o (t.after s o) s then 0 else 2)
      else 0

/-- A participant beside its safe boundary in a one-way transaction (R238, R286). -/
def offBoundary (a : Act) (s : State) : Bool :=
  match a with
  | .write o _ _ _ =>
    (match stallAt o with | some (g, _) => stSt g s == ssRUN | none => false) ||
      (match axisAt o with | some (x, _) => axSt x s == asMOVING || axSt x s == asSTOPPING | none => false)
  | .move x _ => axSt x s == asMOVING || axSt x s == asSTOPPING
  | _ => false

/-! ## The checks at the commit tick (R237) -/

/-- The first action of a list for which a check gives a DETAIL, with the reason and that DETAIL. -/
def firstFail (f : Staged → Option (Nat × Nat)) : Nat → List Staged → Option (Nat × Staged × Nat × Nat)
  | _, [] => none
  | k, a :: l => match f a with
    | some (r, d) => some (k, a, r, d)
    | none => firstFail f (k + 1) l

/-- A second staged move of one axis in one transaction: the axis will not be IDLE for it (R286; notes/assumptions/49). -/
def secondMove (t : Txn) (a : Staged) : Bool :=
  match a.act with
  | .move _ _ => (t.acts.find? fun b => b.act.target == a.act.target) != some a
  | _ => false

/-- The reasons of checks 2 to 5, in order. -/
def presentFail (t : Txn) (s : State) : Option (Nat × Staged × Nat × Nat) :=
  let world := firstFail (fun a => if actWorldOk (a.ctx == 0) a.act s then none else some (2, 0)) 0 t.acts
  let fault := firstFail (fun a => (partFault a.act s).map (1, ·)) 0 t.acts
  let refuse := firstFail (fun a => let d := if secondMove t a then 1 else refusal t a.act s; if d = 0 then none else some (7, d)) 0 t.acts
  let bound := if t.acts.any fun a => a.act.oneWay then
      firstFail (fun a => if offBoundary a.act s then some (6, 0) else none) 0 t.acts else none
  (world.or fault).or (refuse.or bound)

/-- A DETAIL the spec leaves open is a free value. -/
def openDetail (d : Nat) (s : State) : Nat × State :=
  if d = 256 then (let (n, s1) := draw 15 s; (n % 256, s1)) else (d, s)

/-! ## Acceptance (R239, R240) -/

/-- The present value of an action's register. -/
def actValue (o : Nat) (wide : Bool) (s : State) : Nat := if wide then rd64 s o else rdN s o

/-- The value an action makes of a register (R229). -/
def actNew (o v m : Nat) (wide : Bool) (s : State) : Nat :=
  mix (rdN s o) (v % 2 ^ 32) (m % 2 ^ 32 &&& stagedMask o) +
    (if wide then 2 ^ 32 * mix (rdN s (o + 4)) (v / 2 ^ 32) (m / 2 ^ 32 &&& stagedMask (o + 4)) else 0)

/-- The state of a stall's grids behind a write of GRID_SEL or TRJ_CTRL through the gate (R129, R242): a write that verifies
passed its check at staging; one that an undo restores is checked as it is restored (notes/assumptions/190). `two` tells whether
the stall used two planes before. -/
def gridsApplied (undo two : Bool) (g : Fin 48) (o : Nat) (s : State) : State :=
  let sel := rdN s (R.STALL_GRID_SEL g)
  let ctrl := rdN s (R.STALL_TRJ_CTRL g)
  let slots := if o = R.STALL_GRID_SEL g then slotsInUse sel ctrl
    else if o = R.STALL_TRJ_CTRL g ∧ bit ctrl 1 ∧ ¬ two then [bits sel 8 4] else []
  if slots.isEmpty then s
  else if undo ∧ ¬ slots.all (fun n => gridGood (stableOf g) n s) then
    raise (stableEv (g / 8) 3) (put s (F.STALL_TRJ_STATUS_GRID_STATE g) 3)
  else put s (F.STALL_TRJ_STATUS_GRID_STATE g) 2

/-- A stall's parameter takes a value through the gate, or again at an undo: a squash where the stall plans ahead (R135, R137), a
new plan in IDLE (R140), a delayed change of the output settings in RUN (R151). -/
def stallApply (undo : Bool) (g : Fin 48) (o r n : Nat) (s : State) : State :=
  if r < 0x200 then
    let s2 := gridsApplied undo (flag s (F.STALL_TRJ_CTRL_TWO_PLANE g)) g o (wrN s o n)
    if stSt g s < ssRUN then replanIdle g s2 else latchSquash g (if r = 0x134 then 3 else 2) s2
  else if r = 0x204 then hostTrim g n s
  else
    let keep := stSt g s = ssRUN ∧ (cellGet (stall s g).pwPend o).isNone
    wrN (if keep then setStall g (fun x => { x with pwPend := cellPut x.pwPend o (rd s o) }) s else s) o n

/-- A CLE register takes a staged value at step 4 of the commit tick. The value is made from what a direct write of this
tick has left in the register, so that it holds both (R243). -/
def cleTake (o n : Nat) (s : State) : State := wrN { s with oldRegs := cellDel s.oldRegs o } o n

/-- A staged SEL takes effect at step 4 of the commit tick, before a direct write made since that tick began (R209). -/
def bankApply (g : Fin 48) (n : Nat) (s : State) : State :=
  let sel := get s (F.ENG_BANK_SEL g)
  let late := (eng s g).swapNew
  let s1 := put s (F.ENG_BANK_SEL g) (n % 2)
  let s2 := if n % 2 = get s (F.ENG_BANK_ACTIVE g) then
      clrF (setEng g (fun x => { x with swapNew := false, swapDue := false }) s1) (F.ENG_BANK_PENDING g)
    else if late then swapBank g s1
    else setF (setEng g (fun x => { x with swapNew := false, swapDue := true }) s1) (F.ENG_BANK_PENDING g)
  if late ∧ sel ≠ get s2 (F.ENG_BANK_ACTIVE g) then
    setF (put (setEng g (fun x => { x with swapNew := true }) s2) (F.ENG_BANK_SEL g) sel) (F.ENG_BANK_PENDING g)
  else s2

/-- A CLE register takes a value at step 4 of the commit tick (R209, R211). -/
def cleApply (g : Fin 48) (o r n : Nat) (s : State) : State :=
  match r with
  | 0 =>
    let late := (eng s g).enOff
    setEng g (fun x => { x with enOff := late }) (engEnable g (rdEff o s) n (cleTake o n (setEng g (fun x => { x with enOff := false }) s)))
  | 4 => bankApply g n s
  | 8 => engClampKp g n (cleTake o n s)
  | 0x10 => engClampKs g n (cleTake o n s)
  | 0x308 => wrLater o (BitVec.ofNat 32 n) s
  | _ => if r < 0x300 then cleTake o n s else wrN s o n

/-- A register takes a value at its participant's apply point, or takes an old one back at an undo. -/
def applyWrite (undo : Bool) (o n : Nat) (wide : Bool) (s : State) : State :=
  match stallAt o, cleAt o with
  | some (g, r), _ => stallApply undo g o r n s
  | _, some (g, r) => cleApply g o r n s
  | _, _ =>
    if (lampAt o).isSome ∨ (patAt o).isSome then lmpApply o n s
    else if o = R.YRD_MSH_SEAM_MOVE then
      seamResult (n % 2 ^ 32) 1 1 { s with seamReqs := s.seamReqs ++ [⟨1, n % 2 ^ 32, n / 2 ^ 32 % 64, false⟩] }
    else if R.YRD_MSH_CTRL ≤ o ∧ o ≤ R.YRD_MSH_SEAM_CFG then wrN (keepParams s) o n
    else if o = R.YRD_LAYER_SET then { wr64 s o n with layerSet := n % 2 ^ 48 }
    else if wide then wr64 s o n else wrN s o n

/-- A stall participant in RUN settles later (R240). -/
def settlesNow (a : Act) (s : State) : Bool :=
  match a with
  | .write o _ _ _ => match stallAt o with | some (g, _) => stSt g s != ssRUN | none => true
  | _ => true

/-- Carry out one action, with its shadow copy. -/
def acceptAct (r : State × List Staged) (a : Staged) : State × List Staged :=
  let s := r.1
  match a.act with
  | .write o v m wide =>
    let n := actNew o v m wide s
    (applyWrite false o n wide s, r.2 ++ [{ a with shadow := some (actValue o wide s), wrote := n, settled := settlesNow a.act s }])
  | .release g => (if h : g < 48 then releaseNow ⟨g, h⟩ s else s, r.2 ++ [{ a with settled := true }])
  | .resume g => (if h : g < 48 then resumeNow ⟨g, h⟩ s else s, r.2 ++ [{ a with settled := true }])
  | .move x d => (if h : x < 8 then startStaged ⟨x, h⟩ a.ctx ⟨d, false, false, true, 0, none⟩ s else s,
      r.2 ++ [{ a with settled := true }])
  | .activate d => (match imgIdx (dbytes d 20 1) with | some i => imgApply i (dbytes d 20 1) s | none => s,
      r.2 ++ [{ a with settled := true }])

/-- The stalls a transaction releases. -/
def releasedBy (t : Txn) : List Nat := t.acts.filterMap fun a => match a.act with | .release g => some g | _ => none

/-- A committed transaction is complete (R241). -/
def txnCommitted (i : Fin 64) (s : State) : State :=
  let t := txn s i
  let us := (s.beam - t.t) / 1000
  let s1 := lifeMax (lifeAdd (addW s R.GTE_COMMITS 1) (lifeNo 8 0 t.kind) 1) (lifeNo 8 5 0) us
  let s2 := if rdN s1 R.GTE_APPLY_PEAK < us then wrN s1 R.GTE_APPLY_PEAK (satN 0xFFFFFFFF us) else s1
  let s3 := txnDone i 0 s2
  if t.notify then raise 64 s3 else s3

/-- Every participant of an APPLYING transaction has settled. -/
def settledAll (t : Txn) : Bool := t.acts.all (·.settled)

/-- Accept a transaction that passed its checks. Every participant of one that holds a one-way action settles at the commit
tick (R238). -/
def txnAccept (i : Fin 64) (s : State) : State :=
  let t := txn s i
  let once := t.acts.any fun a => a.act.oneWay
  let (s1, acts) := t.acts.foldl acceptAct (s, [])
  let s2 := setTxn i (fun t => { t with
    st := 3, tick := s.now, t := s.beam, tmo := s.beam + get s F.GTE_CFG_COMMIT_TIMEOUT * 1000000
    acts := acts.map fun a => { a with settled := a.settled || once } }) s1
  let s3 := layerReleased (releasedBy t) s2
  if settledAll (txn s3 i) then txnCommitted i s3 else s3

/-- A refused seam move reports itself beside the transaction it aborts (R185, R189). -/
def tellSeam (a : Act) (r : Nat) (s : State) : State :=
  match a with
  | .write o v m _ =>
    if r = 7 ∧ o = R.YRD_MSH_SEAM_MOVE then
      let w := v &&& m
      refuseMove ⟨1, w % 2 ^ 32, w / 2 ^ 32 % 64, false⟩ (seamStaged w s) s
    else s
  | _ => s

/-- Present one transaction at its commit tick (R237, R239). -/
def presentOne (s : State) (i : Fin 64) : State :=
  let t := txn s i
  let s0 := setTxn i (fun t => { t with tick := s.now }) s
  if t.doom ≠ 0 then txnAbort i (mkOutcome t.doom 0 0 0 0) s0
  else match presentFail t s0 with
    | some (k, a, r, d) =>
      let (kind, num) := participant a.act s0
      let (e, s1) := openDetail d s0
      txnAbort i (mkOutcome r kind num e k) (tellSeam a.act r s1)
    | none => txnAccept i s0

/-- A COMMITTING transaction's commit tick is this one (R234): T in yard time, or, for an immediate commit, the first tick after
the check on the beam timebase, which a step of yard time does not move. -/
def txnDue (i : Fin 64) (s : State) : Bool :=
  let t := txn s i
  t.st == 2 && (if t.kind = 2 then t.t != 0 else if t.kind = 1 then decide (t.t ≤ s.now) else decide (t.t ≤ s.beam))

/-- Insert by the order of the COMMITs (R236). -/
def byOrder (s : State) (i : Fin 64) : List (Fin 64) → List (Fin 64)
  | [] => [i]
  | j :: l => if (txn s i).order ≤ (txn s j).order then i :: j :: l else j :: byOrder s i l

/-- TXN_PRESENT: every transaction whose commit tick this is, in the order of their COMMITs. -/
def presentAll (s : State) : State :=
  (((fins 64).filter fun (i : Fin 64) => txnDue i s).foldl (fun l i => byOrder s i l) []).foldl presentOne s

def execTxnPresent (s : State) : Host.Outcome State Fault Refusal := .next (presentAll s)

/-! ## Settling and undo (R240, R242) -/

/-- An unsettled stall participant settles (R240): the stall left RUN, or its output has passed the point of R151, a staged
GATE_TRIM is in use (R147), and its horizon has committed an entry computed with the new values. -/
def stallSettled (g : Fin 48) (r : Nat) (s : State) : Bool :=
  let x := stall s g
  let trimmed := r != 0x204 || get s (F.STALL_GATE_TRIM_IN_USE g) == get s (F.STALL_GATE_TRIM_TRIM g)
  (stSt g s != ssRUN && stSt g s != ssFAULT) ||
    (stSt g s == ssRUN && trimmed && x.pwPend.isEmpty && x.squashNew == 0 && x.squashDue == 0 && x.hplan.env == envOf g s)

/-- Mark what settles at this tick. -/
def settleAct (s : State) (a : Staged) : Staged :=
  match a.act with
  | .write o _ _ _ => match stallAt o with
    | some (g, r) => if stallSettled g r s then { a with settled := true } else a
    | none => a
  | _ => a

/-- PARTICIPANT_SETTLE for one transaction; one whose undo was asked for does not settle. -/
def settleOne (i : Fin 64) (s : State) : State :=
  let t := txn s i
  if t.st = 3 ∧ t.aborts.isEmpty then
    let s1 := setTxn i (fun t => { t with acts := t.acts.map (settleAct s) }) s
    if settledAll (txn s1 i) then txnCommitted i s1 else s1
  else s

def settleAll (s : State) : State := forAll 64 settleOne s

def execParticipantSettle (s : State) : Host.Outcome State Fault Refusal := .next (settleAll s)

/-- The first shadow copy of a register among the actions. -/
def shadowOf (o : Nat) (l : List Staged) : Option Nat :=
  (l.find? fun a => match a.act with | .write p _ _ _ => p == o | _ => false).bind (·.shadow)

/-- Restore the registers of a transaction, each once, from the last action on it backwards (R242, R243). The bits a write
reaches tell whether a register has changed since; a seam move has no register to restore (notes/assumptions/196). -/
def undoActs (all : List Staged) : List Staged → State → State
  | [], s => s
  | a :: l, s =>
    let s1 := undoActs all l s
    match a.act with
    | .write o _ _ wide =>
      if o = R.YRD_MSH_SEAM_MOVE ∨ l.any (fun b => match b.act with | .write p _ _ _ => p == o | _ => false) then s1
      else match shadowOf o all with
        | some v =>
          let k := stagedBits o wide
          let now := actValue o wide s1
          if now &&& k = a.wrote &&& k then applyWrite true o (mix now v k) wide s1
          else lifeAdd (addW s1 R.GTE_UNDO_SKIPPED 1) (lifeNo 8 3 0) 1
        | none => s1
    | _ => s1

/-- Undo an APPLYING transaction (R242). -/
def txnUndo (i : Fin 64) (o : Nat) (s : State) : State :=
  let l := (txn s i).acts
  let s1 := undoActs l l s
  let s2 := raise 66 (lifeAdd (setF (addW s1 R.GTE_UNDOS 1) F.GTE_FLAGS_UNDONE) (lifeNo 8 2 0) 1)
  txnAbort i o s2

/-- The first unsettled participant of a transaction that has faulted, as an outcome. -/
def faultedPart (t : Txn) (s : State) : Option Nat :=
  (firstFail (fun a => if a.settled then none else (partFault a.act s).map (1, ·)) 0 t.acts).map fun (k, a, r, d) =>
    let (kind, num) := participant a.act s
    mkOutcome r kind num d k

/-- Undo by the fault of an unsettled participant at an earlier tick, or by a TXN_ABORT; a fault of this tick is noted.
-/
def undoAsked (i : Fin 64) (s : State) : State :=
  let t := txn s i
  if t.st ≠ 3 then s
  else match t.faulted with
    | some o => txnUndo i o s
    | none =>
      if ¬ t.aborts.isEmpty then txnUndo i (mkOutcome 9 0 0 0 0) s
      else setTxn i (fun x => { x with faulted := faultedPart t s }) s

/-- The outcome of a COMMIT_TIMEOUT: the first participant not settled. -/
def lateOutcome (t : Txn) (s : State) : Nat :=
  match firstFail (fun a => if a.settled then none else some (8, 0)) 0 t.acts with
  | some (k, a, r, d) =>
    let (kind, num) := participant a.act s
    mkOutcome r kind num d k
  | none => mkOutcome 8 0 0 0 0

/-- COMMIT_TIMEOUT for one transaction; a participant's fault and a TXN_ABORT come before it (R242). -/
def undoLate (i : Fin 64) (s : State) : State :=
  let t := txn s i
  if t.st = 3 ∧ ¬ settledAll t ∧ t.tmo ≤ s.beam ∧ t.faulted.isNone ∧ t.aborts.isEmpty then txnUndo i (lateOutcome t s) s else s

def execCommitTimeout (s : State) : Host.Outcome State Fault Refusal := .next (forAll 64 undoLate s)

/-- This tick still has to present the transaction: its commit tick is this one, or the layer barrier it waits for completes
now (R234). -/
def presentsHere (i : Fin 64) (s : State) : Bool := txnDue i s || ((txn s i).st == 2 && (txn s i).kind == 2 && s.barrierDue)

/-- TXN_EXPIRE for one transaction; a presentation of the same tick comes first (R235). -/
def expireOne (i : Fin 64) (s : State) : State :=
  let t := txn s i
  if (t.st = 1 ∨ t.st = 2) ∧ t.expire ≠ 0 ∧ t.expire ≤ s.now ∧ ¬ presentsHere i s then txnAbort i (mkOutcome 4 0 0 0 0) s else s

def expireAll (s : State) : State := forAll 64 expireOne s

def execTxnExpire (s : State) : Host.Outcome State Fault Refusal := .next (expireAll s)

/-- Step 2 of a tick (R18): undos, settling, presentations and the activations that are not staged, expiry. -/
def gateStep (s : State) : State :=
  let s1 := forAll 64 undoLate (settleAll (forAll 64 undoAsked s))
  expireAll (activateStep (presentAll s1))

/-! ## Control descriptors (R226) -/

/-- The ID a control descriptor names. -/
def Desc.ident (d : Desc) : Fin 64 := ⟨d.at 20 1 % 64, Nat.mod_lt _ (by decide)⟩

/-- ADDR and LEN are 0, and byte 20 names an ID. -/
def idPlain (d : Desc) : Bool := d.addr == 0 && d.len == 0 && decide (d.at 20 1 < 64)

/-- Run a control descriptor under the world of the gate. -/
def withGate (c : Fin 256) (op : Nat) (k : Desc → State → State) (s : State) : State :=
  withDesc c op (fun d => blockCheck c d.seq 3 0x30000 (k d)) s

/-- TXN_OPEN that may have an ID. -/
def openId (c : Fin 256) (d : Desc) (s : State) : State :=
  let e := d.at 24 8
  if (txn s d.ident).active then complete c d.seq stBUSY none none false s
  else if e ≠ 0 ∧ e < s.now then complete c d.seq stTIMEOUT none none false s
  else
    let s1 := setTxn d.ident (fun _ => { Txn.init with st := 1, notify := bit (d.at 21 1) 0, expire := e, opener := c.val }) s
    complete c d.seq stOK (some d.ident.val) (some 0) false s1

/-- TXN_OPEN (R227): it waits while every ID is active. -/
def opTxnOpen (c : Fin 256) (d : Desc) (s : State) : State :=
  if ¬ idPlain d ∨ 2 ≤ d.at 21 1 ∨ d.at 22 2 ≠ 0 ∨ d.at 32 32 ≠ 0 then formatZero c d.seq s
  else if activeTxns s = 64 then s
  else openId c d s

/-- A TXN_OPEN that has started and waits goes on, else the next descriptor starts. -/
def execTxnOpen (c : Fin 256) (s : State) : Host.Outcome State Fault Refusal :=
  .next (match runningDesc (ctx s c) fun d => d.op == 0x60 with
    | some d => if activeTxns s = 64 then s else openId c d s
    | none => withGate c 0x60 (opTxnOpen c) s)

/-- The list of a TXN_WRITE, or the index of its first failing entry. -/
def listActs (n : Nat) (l : List Byte) : Except Nat (List Act) :=
  let whole := min (n / 16) 64
  match writeList 64 0 (l.take (16 * whole)) with
  | .error k => .error k
  | .ok acts => if n % 16 ≠ 0 ∨ n = 0 ∨ 1024 < n then .error whole else .ok acts

/-- TXN_WRITE (R229, R231). -/
def opTxnWrite (c : Fin 256) (r : DmaIn) (d : Desc) (s : State) : State :=
  let i := d.txnId
  if ¬ d.txnV then complete c d.seq stFORMAT (some 2) none false s
  else if d.at 20 44 ≠ 0 then formatZero c d.seq s
  else stageOpen c d.seq i (fun s => match r with
    | .fail a kind => doom i 0xB (payloadFail c d.seq a kind s)
    | .ok bs => match listActs d.len bs with
      | .error n => stageFormat c d.seq n i s
      | .ok acts => stageActs c d.seq i acts
          (fun s => (some (txn s i).acts.length, some (1024 - storeUsed s))) id s) s

def execTxnWrite (c : Fin 256) (r : DmaIn) (s : State) : Host.Outcome State Fault Refusal :=
  .next (withDesc c 0x61 (opTxnWrite c r) s)

/-- A COMMIT of an OPEN ID (R234). -/
def commitOpen (c : Fin 256) (d : Desc) (i : Fin 64) (s : State) : State :=
  let kind := d.at 21 1
  let T := d.at 24 8
  let t := if kind = 0 then s.beam + 1 else if kind = 1 then T else 0
  let s1 := setTxn i (fun x => { x with
    st := 2, kind := kind, t := t, order := s.gteOrder, waits := x.waits ++ [(c.val, d.seq, false)] })
    { s with gteOrder := s.gteOrder + 1 }
  let e := (txn s i).expire
  if kind = 1 ∧ (T < s.now + get s F.GTE_CFG_MIN_LEAD * 1000 ∨ (e ≠ 0 ∧ e < T)) then txnAbort i (mkOutcome 4 0 0 0 0) s1
  else s1

/-- TXN_COMMIT (R234, R245). -/
def opTxnCommit (c : Fin 256) (d : Desc) (s : State) : State :=
  let i := d.ident
  if ¬ idPlain d ∨ 3 ≤ d.at 21 1 ∨ d.at 22 2 ≠ 0 ∨ (d.at 21 1 ≠ 1 ∧ d.at 24 8 ≠ 0) ∨ d.at 32 32 ≠ 0 then
    formatZero c d.seq s
  else match (txn s i).st with
    | 0 => complete c d.seq stINTERLOCK none none false s
    | 1 => commitOpen c d i s
    | 4 => tellCommit (txn s i) ((txn s i).outcome.getD 0) s (c.val, d.seq, true)
    | _ => setTxn i (fun t => { t with waits := t.waits ++ [(c.val, d.seq, true)] }) s

def execTxnCommit (c : Fin 256) (s : State) : Host.Outcome State Fault Refusal := .next (withGate c 0x62 (opTxnCommit c) s)

/-- TXN_ABORT (R244). -/
def opTxnAbort (c : Fin 256) (d : Desc) (s : State) : State :=
  let i := d.ident
  if ¬ idPlain d ∨ d.at 21 43 ≠ 0 then formatZero c d.seq s
  else match (txn s i).st with
    | 1 => complete c d.seq stOK (some (mkOutcome 9 0 0 0 0)) (some 0) false (txnAbort i (mkOutcome 9 0 0 0 0) s)
    | 2 => complete c d.seq stOK (some (mkOutcome 9 0 0 0 0)) (some 0) false (txnAbort i (mkOutcome 9 0 0 0 0) s)
    | 3 => setTxn i (fun t => { t with aborts := t.aborts ++ [(c.val, d.seq)] }) s
    | _ => complete c d.seq stINTERLOCK none none false s

def execTxnAbort (c : Fin 256) (s : State) : Host.Outcome State Fault Refusal := .next (withGate c 0x63 (opTxnAbort c) s)

/-- TXN_QUERY. -/
def opTxnQuery (c : Fin 256) (d : Desc) (s : State) : State :=
  if ¬ idPlain d ∨ d.at 21 43 ≠ 0 then formatZero c d.seq s
  else complete c d.seq stOK (some (txnInfo (txn s d.ident))) (some (txnTime (txn s d.ident))) false s

def execTxnQuery (c : Fin 256) (s : State) : Host.Outcome State Fault Refusal := .next (withGate c 0x64 (opTxnQuery c) s)

/-! ## Configuration (R249) -/

/-- GTE.CFG is in range. -/
def gteRange (n : Nat) : Bool :=
  decide (1 ≤ n % 2 ^ 16) && decide (n % 2 ^ 16 ≤ 10000) && decide (1 ≤ n / 2 ^ 16)

/-- GTE_CONFIG_WRITE of CFG, or of STORE_HIGH. -/
def gteConfigWrite (sec high : Bool) (v : Word) (s : State) : State :=
  let refuse := fun s => setF s F.GTE_FLAGS_CFG_REFUSED
  if high then cfgWrite sec R.GTE_STORE_HIGH v (fun n _ => decide (n ≤ 1024)) refuse (fun n s => wrN s R.GTE_STORE_HIGH n) s
  else cfgWrite sec R.GTE_CFG v (fun n _ => gteRange n) refuse (fun n s => wrN s R.GTE_CFG n) s

def execGteConfigWrite (sec high : Bool) (v : Word) (s : State) : Host.Outcome State Fault Refusal :=
  .next (gteConfigWrite sec high v s)

end Machine
end Sys2Proof
end

