-- ==== Sys2Proof/Machine/Records.lean ====
section
/-!
DEFINITION. The recorder's records as bytes (R490), the recorder in the secure NOR partition and its chain (R492, R493),
and the saving of the lifetime image (R499).
-/
namespace Sys2Proof
namespace Machine

/-! ## Records (R490) -/

/-- Bytes 0 to 59 of a record. -/
def recBody (r : EvRec) : List Byte :=
  leBytes 4 r.seq ++ leBytes 1 r.kind ++ leBytes 1 1 ++ leBytes 2 r.source ++ leBytes 4 r.opSeconds ++
    leBytes 4 r.powerCycles ++ leBytes 8 r.time ++ leBytes 2 r.raises ++ leBytes 2 r.lost ++
    (List.range 8).flatMap fun i => leBytes 4 (r.detail.getD i 0)

/-- The 64 bytes of a record. -/
def recBytes (r : EvRec) : List Byte := recBody r ++ leBytes 4 (crc32c (recBody r))

/-! ## The partition and its chain (R492, R493) -/

/-- H_init for a TAIL. -/
def chainInit (tail : Nat) (s : State) : Nat := Config.sha384 (leBytes 8 (rd64 s R.TCK_DEVICE_ID) ++ leBytes 4 tail)

/-- H after one more record. -/
def chainStep (h : Nat) (r : EvRec) : Nat := Config.sha384 (leBytes 48 h ++ recBytes r)

/-- The records of the partition that are held: from TAIL on. -/
def recPartition (s : State) : List EvRec :=
  s.recNor.filter fun r => decide ((r.seq + 2 ^ 32 - rdN s R.ERW_TAIL) % 2 ^ 32 < 2 ^ 31)

/-- The chain value over the partition. -/
def chainNow (s : State) : Nat := (recPartition s).foldl chainStep (chainInit (rdN s R.ERW_TAIL) s)

/-- One record goes to the partition; unsealed and full, the oldest is overwritten. -/
def recStore (s : State) (r : EvRec) : State :=
  let s1 := lifeAdd { s with recNor := s.recNor ++ [r] } (lifeNo 20 4 0) 1
  if recSealed s then { s1 with recChain := chainStep s.recChain r }
  else if 65536 < (recPartition s1).length then
    addSat (addW { s1 with recNor := s1.recNor.drop 1 } R.ERW_TAIL 1) R.ERW_OVERWRITTEN 1
  else s1

/-- Write the staged records to the partition; event 222 at 90 % of a sealed recorder. -/
def recFlush (s : State) : State :=
  let s1 := s.recStaged.foldl recStore { s with recStaged := [] }
  if recSealed s ∧ (recPartition s).length < 58982 ∧ 58982 ≤ (recPartition s1).length then raise 222 s1 else s1

/-- RECORDER_FLUSH: 256 records are staged. -/
def recorderFlush (s : State) : State := if 256 ≤ s.recStaged.length then recFlush s else s

def execRecorderFlush (s : State) : Host.Outcome State Fault Refusal := .next (recorderFlush s)

/-! ## Saving the lifetime image (R499) -/

/-- The cells of the lifetime image that hold the HEAD_IDs of the bays (R382). -/
def headCells (s : State) : List (Nat × Nat) :=
  (fins 12).flatMap fun (b : Fin 12) => s.bays[b.val].ids.zipIdx.map fun p => (lifeNo 13 16 (8 * b + p.2), p.1)

/-- Save: the image to the other copy, and the staged records. A save that fails reports it. -/
def lifeSave (ok : Bool) (s : State) : State :=
  let s1 := recFlush (clrF s F.DGN_STATUS_SAVING)
  if ok then
    let s2 := lifeAdd s1 (lifeNo 20 2 0) 1
    let op := rdN s2 R.DGN_OP_SECONDS
    let image := (headCells s2).foldl (fun l p => cellPut l p.1 p.2)
      (cellPut (cellPut s2.life (lifeNo 0 0 0) op) (lifeNo 0 1 0) (rdN s2 R.DGN_POWER_CYCLES))
    wrN { s2 with lifeNor := image :: s2.lifeNor.take 1, lifeSaves := s2.lifeSaves + 1, saveLast := op } R.DGN_LAST_SAVE op
  else raise 221 (lifeAdd (setF { s1 with saveLast := rdN s1 R.DGN_OP_SECONDS } F.DGN_FLAGS_SAVE_FAILED) (lifeNo 20 3 0) 1)

/-- A save is asked for: while the supervisor's image is copied it waits (R519). -/
def lifeAsk (ok : Bool) (s : State) : State :=
  if s.imgCopy.map Prod.fst = some 4 then setF s F.DGN_STATUS_SAVING else lifeSave ok s

/-- LIFETIME_SAVE: a write of DGN.CMD.SAVE. -/
def execLifetimeSave (sec ok : Bool) (s : State) : Host.Outcome State Fault Refusal :=
  .next (hostWrite sec R.DGN_CMD (lifeAsk ok) s)

/-- PERIODIC_SAVE: 600 s of OP_SECONDS have passed since the last save. -/
def execPeriodicSave (ok : Bool) (s : State) : Host.Outcome State Fault Refusal :=
  .next (if s.saveLast + 600 ≤ rdN s R.DGN_OP_SECONDS then lifeAsk ok s else s)

/-- OPERATING_SECOND (R498). -/
def execOperatingSecond (s : State) : Host.Outcome State Fault Refusal := .next (addW s R.DGN_OP_SECONDS 1)

/-- POWER_FAIL_WARNING (R414): PFAIL_N falls; the save is made with its own record. -/
def powerFailWarning (ok : Bool) (s : State) : State :=
  let s1 := raise 13 (lifeAdd (setF (clrF s F.CPM_PWR_STATUS_PFAIL_N) F.CPM_FLAGS_PFAIL) (lifeNo 15 13 0) 1)
  let s2 := recNew 3 0xFFFF [] s1
  { lifeSave ok s2 with pfailSaved := ok }

def execPowerFailWarning (ok : Bool) (s : State) : Host.Outcome State Fault Refusal := .next (powerFailWarning ok s)

/-! ## In-place copies (R519) -/

/-- IN_PLACE_COPY_DONE: the copy ends and the core restarts from its partition; a save that waited for the supervisor is
made then. -/
def inPlaceCopyDone (s : State) : State :=
  match s.imgCopy with
  | some (n, _) =>
    if h : n < 7 then
      let i : Fin 7 := ⟨n, h⟩
      let x := img i 1 s
      let s1 := evalUpdate (setImg i 0 (fun _ => { x with st := 3 }) { s with imgCopy := none })
      if n = 4 ∧ flag s F.DGN_STATUS_SAVING then lifeSave true s1 else s1
    else s
  | none => s

def execInPlaceCopyDone (s : State) : Host.Outcome State Fault Refusal := .next (inPlaceCopyDone s)

end Machine
end Sys2Proof
end

