-- ==== Sys2Proof/Machine/Clocks.lean ====
section
/-!
DEFINITION. Chapter 15: reference clocks and the root (R401-R404), clock gating (R408, R409), rails (R414), temperature,
throttling and shutdown (R415-R420), crystal compensation (R421), and the writes of R423.
-/
namespace Sys2Proof
namespace Machine

/-! ## References (R401-R404) -/

/-- A reference is qualified. -/
def refGood (r : Nat) (s : State) : Bool := bit (get s F.CPM_STATUS_QUALIFIED) r

/-- The highest-priority qualified reference of FIRST, SECOND, XO and SAFE (R403). -/
def bestRef (s : State) : Nat :=
  let a := get s F.CPM_REF_CFG_FIRST
  let b := get s F.CPM_REF_CFG_SECOND
  if a < 4 ∧ refGood a s then a else if b < 4 ∧ refGood b s then b else if refGood 3 s then 3 else 4

def rootSrc (s : State) : Nat := get s F.CPM_STATUS_ROOT_SRC

/-- The PLL is starting (R412). -/
def pllStarting (s : State) : Bool := get s F.CPM_STATUS_PLL_STATE == 3

/-- A hitless move of the root (R403). -/
def moveRoot (r : Nat) (s : State) : State :=
  let s1 := put (put s F.CPM_STATUS_ROOT_SRC r) F.CPM_STATUS_PLL_STATE 2
  raise 1 (lifeAdd (setF s1 F.CPM_FLAGS_SWITCHED) (lifeNo 15 4 0) 1)

/-- The root falls back to SAFE (R404 steps 1 and 4); step 3 follows at the next tick. -/
def safeFallback (s : State) : State :=
  let s1 := put (put s F.CPM_STATUS_ROOT_SRC 4) F.CPM_STATUS_PLL_STATE 2
  inhibitOn srcCLOCK (lifeAdd { s1 with safeOn := true, safeEvt := true } (lifeNo 15 5 0) 1)

/-- The root takes the best reference on its way back from SAFE and pulls to it (R404 step 5). -/
def pullBack (s : State) : State := put (put s F.CPM_STATUS_ROOT_SRC (bestRef s)) F.CPM_STATUS_PLL_STATE 2

/-- The root leaves a reference it has lost. -/
def leaveRef (s : State) : State :=
  let r := rootSrc s
  if pllStarting s ∨ r = 4 ∨ refGood r s then s
  else if bestRef s = 4 then safeFallback s
  else if s.safeOn then pullBack s
  else moveRoot (bestRef s) s

/-- A reference loses its qualification; the crystal restarts. -/
def refLost (r : Fin 4) (s : State) : State :=
  let q := get s F.CPM_STATUS_QUALIFIED
  let s1 := put { s with refSince := vset s.refSince r s.beam } F.CPM_STATUS_QUALIFIED (if bit q r then q - 2 ^ r.val else q)
  if r = 3 then setF s1 F.CPM_STATUS_XO_STARTING else s1

/-- The tolerance of a monitor in ppb: TOL against the qualified crystal, else 6 % against SAFE (R402). -/
def monitorTol (r : Fin 4) (s : State) : Nat :=
  if r = 3 ∨ ¬ refGood 3 s then 60000000 else get s F.CPM_MON_CFG_TOL * 1000

/-- The CAUSE for which a monitor trips: 1 for missing edges, 2 for a frequency outside its tolerance over the millisecond
of yard time that ends now; none where the measurement is in range. -/
def tripCause (r : Fin 4) (dev : Option Int) (s : State) : Option Nat :=
  match dev with
  | none => some 1
  | some d => if s.now % 1000000 = 0 ∧ monitorTol r s < d.natAbs then some 2 else none

/-- REFERENCE_MONITOR_TRIP: `dev` is the deviation from 25 MHz that the monitor has measured, in ppb, none for missing edges
(R402). -/
def monitorTrip (r : Fin 4) (dev : Option Int) (s : State) : State :=
  match tripCause r dev s with
  | some cause =>
    let s1 := wrN (setF s F.CPM_FLAGS_REF_LOST) R.CPM_LOST_INFO (r.val + 2 ^ 4 * cause)
    leaveRef (refLost r (raise 0 (lifeAdd s1 (lifeNo 15 3 (4 * r.val + cause)) 1)))
  | none => s

def execReferenceMonitorTrip (r : Fin 4) (dev : Option Int) (s : State) : Host.Outcome State Fault Refusal :=
  .next (monitorTrip r dev s)

/-- Nanoseconds a reference must be in range (R401). -/
def qualTime (r : Fin 4) (s : State) : Nat := if r = 3 then 2000000 else get s F.CPM_REF_CFG_QUAL_MS * 1000000

/-- Where the root may move by itself (R403). -/
def mayRevert (s : State) : Bool :=
  flag s F.CPM_REF_CFG_REVERT && !s.safeOn && !(pllStarting s) && rootSrc s != 4 && bestRef s != 4 && bestRef s != rootSrc s

/-- The root moves by itself where R403 says so. -/
def revertRoot (s : State) : State := if mayRevert s then moveRoot (bestRef s) s else s

/-- REFERENCE_QUALIFIED. -/
def refQualified (r : Fin 4) (s : State) : State :=
  if refGood r s ∨ s.beam - s.refSince[r.val] < qualTime r s ∨ (r.val < 2 ∧ ¬ flag s (F.TPORT_STATUS_LINK_UP r.val)) then s
  else
    let s1 := put { s with refQualAt := vset s.refQualAt r s.beam } F.CPM_STATUS_QUALIFIED
      (get s F.CPM_STATUS_QUALIFIED + 2 ^ r.val)
    let s2 := if r = 3 then clrF s1 F.CPM_STATUS_XO_STARTING else s1
    revertRoot s2

def execReferenceQualified (r : Fin 4) (s : State) : Host.Outcome State Fault Refusal := .next (refQualified r s)

/-- SWITCH (R403). -/
def switchRoot (s : State) : State :=
  if s.safeOn ∨ pllStarting s ∨ rootSrc s = 4 ∨ bestRef s = rootSrc s ∨ bestRef s = 4 then setF s F.CPM_FLAGS_SWITCH_IGNORED
  else moveRoot (bestRef s) s

def execSwitch (sec : Bool) (s : State) : Host.Outcome State Fault Refusal := .next (hostWrite sec R.CPM_CMD switchRoot s)

/-- The pull back from SAFE is complete and the phase is locked: CLOCK clears (R404 step 6). -/
def safeEnd (s : State) : State :=
  raise 3 (raise 1 (lifeAdd (inhibitOff srcCLOCK (put { s with safeOn := false } F.CPM_STATUS_PLL_STATE 0)) (lifeNo 15 4 0) 1))

/-- PULL_COMPLETE: the PLL is locked; at start-up CLOCK clears after the ramps (R412), and on the way back from SAFE it clears too
(R404). -/
def pullComplete (s : State) : State :=
  if pllStarting s then
    (if refGood 3 s then revertRoot (inhibitOff srcCLOCK (put (put s F.CPM_STATUS_ROOT_SRC 3) F.CPM_STATUS_PLL_STATE 0)) else s)
  else if get s F.CPM_STATUS_PLL_STATE ≠ 2 then s
  else if s.safeOn ∧ rootSrc s ≠ 4 then safeEnd s
  else put s F.CPM_STATUS_PLL_STATE 0

def execPullComplete (s : State) : Host.Outcome State Fault Refusal := .next (pullComplete s)

/-- PLL_UNLOCK (R404). -/
def pllUnlock (s : State) : State :=
  let s1 := raise 4 (lifeAdd (setF s F.CPM_FLAGS_PLL_UNLOCK) (lifeNo 15 7 0) 1)
  if (s.safeOn ∧ rootSrc s = 4) ∨ pllStarting s then s1 else safeFallback s1

def execPllUnlock (s : State) : Host.Outcome State Fault Refusal := .next (pllUnlock s)

/-- The crystal has been qualified for 2 ms while the root runs from SAFE: it takes the best reference, whatever REVERT holds (R404
step 5). -/
def safeLeave (s : State) : State :=
  if s.safeOn ∧ rootSrc s = 4 ∧ refGood 3 s ∧ 2000000 ≤ s.beam - s.refQualAt[3] then pullBack s else s

/-- SAFE_EXIT: the pull back to a reference has come to its end (R404 step 6). -/
def safeExit (s : State) : State :=
  let s1 := safeLeave s
  if s1.safeOn ∧ rootSrc s1 ≠ 4 then safeEnd s1 else s1

def execSafeExit (s : State) : Host.Outcome State Fault Refusal := .next (safeExit s)

/-- The start of the device: source CLOCK and the crystal are on, and a crystal not qualified within 20 ms of the release is
reported (R412). The beam timebase counts from the release. -/
def startTick (dt : Nat) (s : State) : State :=
  if pllStarting s then
    let s1 := inhibitOn srcCLOCK s
    if refGood 3 s then s1
    else
      let s2 := setF s1 F.CPM_STATUS_XO_STARTING
      if 20000000 ≤ s2.beam ∧ s2.beam < 20000000 + dt then raise 0 (setF s2 F.CPM_FLAGS_REF_LOST) else s2
  else s

/-- What a tick does: the start of the device, step 3 of a fallback, the time on SAFE and the way back from it (R404, R412). -/
def clockTick (dt : Nat) (s : State) : State :=
  let s0 := startTick dt s
  let s1 := if s0.safeEvt then raise 2 (setF { s0 with safeEvt := false } F.CPM_FLAGS_SAFE_ENTERED) else s0
  safeLeave (if s1.safeOn then lifeTime (add64 s1 R.CPM_SAFE_TIME dt) (lifeNo 15 6 0) dt else s1)

/-! ## Clock gating (R408, R409) -/

/-- A unit has no work (R408); a stable's clocks stop only when its loops are OPEN (R216). -/
def unitIdle (u : Nat) (s : State) : Bool :=
  if u < 48 then stSt u s == ssOFFLINE
  else if u < 0x36 then !(stableEn (u - 0x30) s) && loopsOpen (Fin.ofNat 6 (u - 0x30)) s
  else if u < 0x3A then !((fins 16).any fun (n : Fin 16) => sensOn n s && (sensPipe n s).val == u - 0x38)
  else if u < 0x3C then
    !(cmpEnabled (u - 0x3A) s) || (s.cmpJobs.toList.getD (u - 0x3A) []).isEmpty
  else
    let st := get s (F.LNK_STATE_STAGE (u - 0x40))
    st == 0 || (st == 7 && get s (F.LNK_PRBS_CTL_TX_MODE (u - 0x40)) == 0 && get s (F.LNK_PRBS_CTL_RX_MODE (u - 0x40)) == 0)

/-- Megahertz of a unit's domain (R406): stalls and stables, pipelines, engines and bays. -/
def unitMHz (u : Nat) : Nat := if u < 0x36 then 1200 else if u < 0x3A then 600 else 800

/-- `GATE_CFG.IDLE` cycles of a unit's domain, in ns. -/
def idleTime (u : Nat) (s : State) : Nat := (get s F.CPM_GATE_CFG_IDLE * 1000 + unitMHz u - 1) / unitMHz u

/-- The scheduler may ask for a unit's gate: it has no work, an engine has been without a job for IDLE cycles, and a unit
whose gate was denied has been idle for IDLE cycles more (R408, R409). -/
def mayGate (u : Nat) (s : State) : Bool :=
  unitIdle u s &&
    (match cellGet s.idleFrom u with
    | some t => decide (t + idleTime u s ≤ s.beam)
    | none => true)

/-- CLOCK_GATE: a unit without work is gated, or started again; a shutdown's gates stay closed (R420). -/
def clockGate (u : Nat) (close : Bool) (s : State) : State :=
  match gateBit u with
  | some f => if ¬ close then ungate u s else if mayGate u s then setF s f else s
  | none => s

def execClockGate (unit : Nat) (gate : Bool) (s : State) : Host.Outcome State Fault Refusal := .next (clockGate unit gate s)

/-- The scheduler starts every gated unit that has work. -/
def ungateBusy (s : State) : State :=
  (List.range 0x4C).foldl (fun s u => if unitIdle u s then s else ungate u s) s

/-- GATE_DENIED: a request to gate a unit is cancelled (R409). -/
def gateDenied (u : Nat) (s : State) : State :=
  match gateBit u with
  | some f =>
    if flag s f ∨ ¬ mayGate u s then s
    else
      let s1 := addW (put { s with idleFrom := cellPut s.idleFrom u s.beam } F.CPM_GATE_DENIED_LAST_UNIT u) R.CPM_GATE_DENIALS 1
      raiseOnSet F.CPM_FLAGS_GATE_DENIED 5 (lifeAdd s1 (lifeNo 15 8 u) 1)
  | none => s

def execGateDenied (unit : Nat) (s : State) : Host.Outcome State Fault Refusal := .next (gateDenied unit s)

/-- AO_CRYSTAL_CHANGE: an external crystal oscillates within 1 s of power-on (R411). -/
def aoCrystalChange (s : State) : State := if s.aoTime + s.beam ≤ 1000000000 then setF s F.CPM_STATUS_AO_XTAL else s

def execAoCrystalChange (s : State) : Host.Outcome State Fault Refusal := .next (aoCrystalChange s)

/-! ## Rails (R414) -/

/-- RAIL_WARNING. -/
def railWarning (r : Fin 5) (s : State) : State :=
  raise 14 (lifeAdd (setF (clrF s ⟨R.CPM_PWR_STATUS, r.val, 1⟩) F.CPM_FLAGS_RAIL_LOW) (lifeNo 15 14 r) 1)

def execRailWarning (rail : Fin 5) (s : State) : Host.Outcome State Fault Refusal := .next (railWarning rail s)

/-- RAIL_WARNING_CLEARED. -/
def execRailWarningCleared (rail : Fin 5) (s : State) : Host.Outcome State Fault Refusal :=
  .next (setF s ⟨R.CPM_PWR_STATUS, rail.val, 1⟩)

/-! ## Temperature (R415-R417) -/

/-- The mean of some conversions, rounded half up. -/
def meanHalfUp (l : List Int) : Int := if l = [] then 0 else (2 * l.sum + l.length) / (2 * l.length)

/-- A sensor's reading. -/
def temp (i : Nat) (s : State) : Int := getI s (F.THM_TEMP_VALUE i)

def broken (i : Nat) (s : State) : Bool := flag s (F.THM_TEMP_BROKEN i)

/-- TEMPERATURE_CONVERSION of the seven sensors, in 1/16 °C. -/
def temperatureConversion (vals : List Int) (s : State) : State :=
  forAll 7 (fun i s =>
    let l := (clampI (-32768) 32767 (vals.getD i.val 0) :: s.thmConv[i.val]).take 16
    let s1 := { s with thmConv := vset s.thmConv i l }
    let v := meanHalfUp l
    let s2 := put (put s1 (F.THM_TEMP_VALUE i) (code 16 v)) (F.THM_TEMP_VALID i) (b2n (l.length == 16))
    lifeMax s2 (lifeNo 15 2 i) v.toNat) s

def execTemperatureConversion (vals : List Int) (s : State) : Host.Outcome State Fault Refusal :=
  .next (temperatureConversion vals s)

/-- The neighbours of a sensor (R416). -/
def neighbours (i : Nat) : List Nat :=
  match i with
  | 0 => [1, 3, 6] | 1 => [0, 2, 4, 6] | 2 => [1, 5, 6] | 3 => [0, 4, 6] | 4 => [1, 3, 5, 6] | 5 => [2, 4, 6]
  | _ => [0, 1, 2, 3, 4, 5]

/-- The median; of an even number the floor of the mean of the two middle ones. -/
def medianFloor (l : List Int) : Int :=
  let m := sortInts l
  let n := m.length
  if n % 2 = 1 then m.getD (n / 2) 0 else (m.getD (n / 2 - 1) 0 + m.getD (n / 2) 0) / 2

/-- The cross-check of one sensor, on the marks `was` of the evaluation before (R416). -/
def crossCheck (was : List Bool) (i : Fin 7) (s : State) : State :=
  let use := (neighbours i).filter fun k => !(was.getD k false)
  let off := decide (2 ≤ use.length) &&
    decide ((get s F.THM_XCHECK_DEV : Int) < ((temp i s - medianFloor (use.map fun k => temp k s)).natAbs : Int))
  let run := if off then s.thmDev[i.val] + 1 else 0
  let s1 := { s with thmDev := vset s.thmDev i run }
  if 10 ≤ run ∧ ¬ was.getD i false then
    raise 12 (lifeAdd (setF (setF s1 (F.THM_TEMP_BROKEN i)) F.THM_FLAGS_SENSOR_BROKEN) (lifeNo 15 1 i) 1)
  else s1

/-- The sensors in use. -/
def goodSensors (s : State) : List Nat := (List.range 7).filter fun i => !(broken i s)

/-- The hottest of some sensors; the lowest number where several are. -/
def hottest (l : List Nat) (s : State) : Nat :=
  l.foldl (fun b i => if temp b s < temp i s then i else b) (l.getD 0 0)

/-! ## Shutdown (R420) -/

/-- The device shuts down with a cause. -/
def thermalShutdown (cause : Nat) (s : State) : State :=
  if get s F.THM_STATUS_STATE = 3 then s
  else
    let s1 := put (put { s with sdAt := some s.beam } F.THM_STATUS_STATE 3) F.THM_STATUS_SD_CAUSE cause
    let s2 := forAll 8 (fun a => axAsk a fun q => { q with faults := q.faults ++ [4] }) (inhibitOn srcTHERMAL (lifeAdd s1 (lifeNo 15 12 cause) 1))
    raise 10 (emit (.pin 1 s2.now false) s2)

/-- HARD_LIMIT. -/
def execHardLimit (s : State) : Host.Outcome State Fault Refusal := .next (thermalShutdown 3 s)

/-- An engine is disabled: its jobs complete with ABORTED. -/
def disableEngine (e : Fin 2) (s : State) : State :=
  let s1 := (jobsOf e s).foldl (fun s j => finishJob e j stABORTED 0 s) (setJobs e (fun _ => []) s)
  showJobs (put s1 ⟨R.CMP_CFG, e.val, 1⟩ 0)

/-- A bay is disabled. -/
def disableBay (b : Fin 12) (s : State) : State :=
  if flag s (F.LNK_CTRL_EN b) then hostStage b 0 (clrF s (F.LNK_CTRL_EN b)) else s

/-- A sensor context is disabled with its pipeline. -/
def disableSensor (n : Fin 16) (s : State) : State := if sensOn n s then sensStop n (clrF s (F.SENS_CFG_EN n)) else s

/-- The stables whose loops are all OPEN. -/
def openStables (s : State) : Nat := sumN ((fins 6).map fun st => if loopsOpen st s then 2 ^ st.val else 0)

/-- All clocks that a shutdown stops are shown as gated: those of the bays, the camera inputs and the engines, of the stables whose
loops are OPEN, and of the stalls (R420). -/
def gateAll (s : State) : State :=
  let s1 := put (wrN s R.CPM_GATED_UNITS 0x0FFF0F00) ⟨R.CPM_GATED_UNITS, 0, 6⟩ (openStables s)
  { wr64 s1 R.CPM_GATED_STALLS (2 ^ 48 - 1) with sdGated := true }

/-- SHUTDOWN_GATING: 100 ms after the shutdown. -/
def shutdownGating (s : State) : State :=
  match s.sdAt with
  | some t =>
    if s.sdGated ∨ s.beam - t < 100000000 then s
    else
      let s1 := (fins 6).foldl (fun s st => disableStable st s) (put s F.YRD_CTRL_STABLE_EN 0)
      let s2 := forAll 12 disableBay (forAll 2 disableEngine (forAll 16 disableSensor s1))
      let s3 := forAll 2 (fun ch s => if dmcState s = 2 ∨ dmcState s = 3 then showSr ch true s else s) s2
      forAll 48 (fun g s => showWait g s) (gateAll s3)
  | none => s

def execShutdownGating (s : State) : Host.Outcome State Fault Refusal := .next (shutdownGating s)

/-! ## The evaluation (R415-R421) -/

/-- k_throttle for a T_CTL (R419). -/
def throttleFactor (t : Int) (s : State) : Nat :=
  let thr := getI s F.THM_LIMITS_A_THROTTLE
  let sd := getI s F.THM_LIMITS_B_SHUTDOWN
  let k := (get s F.THM_THROTTLE_CFG_K_MIN : Int)
  (if t ≤ thr then 16384 else if sd ≤ t then k else 16384 - (t - thr) * (16384 - k) / (sd - thr)).toNat

/-- The thermal state after one evaluation below shutdown, with its reports (R418). -/
def thermalState (t : Int) (s : State) : State :=
  let warn := getI s F.THM_LIMITS_A_WARN
  let thr := getI s F.THM_LIMITS_A_THROTTLE
  let hyst := (get s F.THM_LIMITS_B_HYST : Int)
  match get s F.THM_STATUS_STATE with
  | 0 => if warn < t then raise 8 (setF (put s F.THM_STATUS_STATE 1) F.THM_FLAGS_WARNING) else s
  | 1 => if thr < t then raise 9 (setF (put s F.THM_STATUS_STATE 2) F.THM_FLAGS_THROTTLED)
         else if t < warn - hyst then put s F.THM_STATUS_STATE 0 else s
  | 2 => if t < thr - hyst then raise 9 (put s F.THM_STATUS_STATE 1) else s
  | _ => s

/-- A good sensor rose by more than RATE over the last second (R419). -/
def rateExceeded (s : State) : Bool :=
  let r := get s F.THM_RATE_RATE
  match s.thmHist, s.thmHist[10]? with
  | a :: _, some b => r != 0 && (goodSensors s).any fun i => decide ((r : Int) < a.getD i 0 - b.getD i 0)
  | _, _ => false

/-- Keep the readings of the 100 ms multiples of yard time. -/
def keepTemps (s : State) : State :=
  if s.now % 100000000 = 0 then { s with thmHist := ((List.range 7).map (fun i => temp i s) :: s.thmHist).take 11 } else s

/-- The rate test; it tells whether K_MIN is held. -/
def rateTest (s : State) : State × Bool :=
  let act := get s F.THM_RATE_RATE_ACT
  let s1 := if rateExceeded s then
      let s2 := raise 11 (lifeAdd (setF { s with thmRateAt := some s.beam } F.THM_FLAGS_RATE) (lifeNo 15 11 0) 1)
      if act = 2 then thermalShutdown 2 s2 else s2
    else s
  (s1, act == 1 && (s1.thmRateAt.any fun t => decide (s1.beam - t < 1000000000)))

/-- The compensation of the crystal moves by at most 1 ppb (R421). -/
def xoStep (s : State) : State :=
  if rootSrc s ≠ 3 then s
  else
    let t := if broken 6 s then getI s F.THM_CTL_T_CTL else temp 6 s
    let dt := t - getI s F.CPM_XO_COMP_T0_T0
    let ppb := getI s F.CPM_XO_COMP_A1 * dt / 16 + getI s F.CPM_XO_COMP_A2 * dt * dt / 4096
    { s with xoPpb := if s.xoPpb < ppb then s.xoPpb + 1 else if ppb < s.xoPpb then s.xoPpb - 1 else ppb }

/-- The bin of a reading in the die-temperature histogram (R427). -/
def tempBin (t : Int) : Nat := (clampI 0 31 ((t + 400) / 80)).toNat

/-- One millisecond of the lifetime counters of the temperatures. -/
def tempLife (s : State) : State :=
  let s1 := forAll 7 (fun i s => lifeTime s (lifeNo 15 0 (32 * i.val + tempBin (temp i s))) 1000000) s
  let st := get s F.THM_STATUS_STATE
  let s2 := if st = 1 then lifeTime s1 (lifeNo 15 9 0) 1000000 else if st = 2 then lifeTime s1 (lifeNo 15 10 0) 1000000 else s1
  if get s F.THM_STATUS_K_THROTTLE < 16384 then add64 s2 R.THM_THROTTLE_TIME 1000000 else s2

/-- Fewer than three sensors are good: the flag is set, and event 12 is raised at the evaluation that finds it so first (R417). -/
def sensorsLow (n : Nat) (s : State) : State :=
  let s1 := if n < 3 then setF s F.THM_FLAGS_SENSORS_LOW else s
  let s2 := if n < 3 ∧ ¬ s.thmFew then raise 12 s1 else s1
  { s2 with thmFew := decide (n < 3) }

/-- The evaluation of the seven temperatures (R415-R421). -/
def thermalEvaluation (s : State) : State :=
  let s0 := keepTemps (tempLife s)
  let was := (List.range 7).map fun i => broken i s0
  let s1 := forAll 7 (crossCheck was) s0
  let good := goodSensors s1
  let h := hottest good s1
  let t := temp h s1
  if good = [] then
    thermalShutdown 4 (put (sensorsLow 0 (put s1 F.THM_CTL_GOOD 0)) F.THM_STATUS_K_THROTTLE (get s1 F.THM_THROTTLE_CFG_K_MIN))
  else
    let s2 := wrN s1 R.THM_CTL (code 16 t + 2 ^ 16 * h + 2 ^ 20 * good.length)
    let s3 := if getI s2 F.THM_PEAK_VALUE < t then put s2 F.THM_PEAK_VALUE (code 16 t) else s2
    let s4 := sensorsLow good.length s3
    let s5 := if getI s4 F.THM_LIMITS_B_SHUTDOWN ≤ t then thermalShutdown 1 s4 else thermalState t s4
    let (s6, held) := rateTest s5
    xoStep (put s6 F.THM_STATUS_K_THROTTLE
      (if held ∨ good.length < 3 then get s6 F.THM_THROTTLE_CFG_K_MIN else throttleFactor t s6))

/-- THERMAL_EVALUATION: once for every millisecond of yard time reached (R415). -/
def thermalStep (s : State) : State :=
  if s.thmDue then farThermal (thermalEvaluation { s with thmDue := false }) else s

def execThermalEvaluation (s : State) : Host.Outcome State Fault Refusal := .next (thermalStep s)

/-- SENSOR_RESET (R416). -/
def sensorReset (v : Word) (s : State) : State :=
  forAll 7 (fun i s => if bit v.toNat i then clrF { s with thmDev := vset s.thmDev i 0 } (F.THM_TEMP_BROKEN i) else s) s

def execSensorReset (sec : Bool) (v : Word) (s : State) : Host.Outcome State Fault Refusal :=
  .next (hostWrite sec R.THM_CMD (sensorReset v) s)

/-! ## Writes (R423) -/

/-- The thermal limits agree. -/
def limitsOk (a b : Nat) : Bool :=
  let w := sext 16 a; let t := sext 16 (a / 2 ^ 16); let d := sext 16 b
  decide (w ≤ t) && decide (t < d) && decide (d ≤ 2000) && decide (1 ≤ bits b 16 8)

/-- The register of a THERMAL_CONFIG_WRITE. -/
def thermalReg (r : Fin 11) : Nat :=
  match r with
  | 0 => R.CPM_REF_CFG | 1 => R.CPM_MON_CFG | 2 => R.CPM_PLL_CFG | 3 => R.CPM_XO_COMP | 4 => R.CPM_XO_COMP_T0
  | 5 => R.CPM_GATE_CFG | 6 => R.THM_LIMITS_A | 7 => R.THM_LIMITS_B | 8 => R.THM_RATE | 9 => R.THM_THROTTLE_CFG
  | 10 => R.THM_XCHECK

/-- A chain of references is acceptable: codes 0 to 3 or 7, not the same twice. -/
def chainOk (n : Nat) : Bool :=
  let a := bits n 0 3; let b := bits n 4 3
  (decide (a < 4) || a == 7) && (decide (b < 4) || b == 7) && (a != b || a == 7)

/-- A value of a CPM or THM register is accepted. -/
def thermalOk (r : Fin 11) (n : Nat) (s : State) : Bool :=
  let lo := bits n 0 16
  match r with
  | 0 => chainOk n && decide (1 ≤ n / 2 ^ 16) && decide (n / 2 ^ 16 ≤ 10000)
  | 1 => decide (10 ≤ lo) && decide (lo ≤ 10000)
  | 2 => decide (10 ≤ lo) && decide (lo ≤ 10000)
  | 3 => true
  | 4 => true
  | 5 => decide (64 ≤ lo)
  | 6 => limitsOk n (rdN s R.THM_LIMITS_B)
  | 7 => limitsOk (rdN s R.THM_LIMITS_A) n
  | 8 => bits n 16 2 != 3
  | 9 => decide (1638 ≤ lo) && decide (lo ≤ 16384)
  | 10 => decide (16 ≤ lo) && decide (lo ≤ 1600)

/-- THERMAL_CONFIG_WRITE. LIMITS_B is secure-only (RWS). -/
def thermalConfigWrite (sec : Bool) (r : Fin 11) (v : Word) (s : State) : State :=
  let o := thermalReg r
  let refuse := fun s => setF s (if r.val < 6 then F.CPM_FLAGS_CFG_REFUSED else F.THM_FLAGS_CFG_REFUSED)
  if r = 7 then secureWrite sec o (fun s =>
    let n := mix (rdN s o) v.toNat 0xFFFFFF
    if thermalOk r n s then wrN s o n else refuse s) s
  else cfgWrite sec o v (thermalOk r) refuse (fun n s =>
    if r = 0 then revertRoot (wrN s o n) else wrN s o n) s

def execThermalConfigWrite (sec : Bool) (r : Fin 11) (v : Word) (s : State) : Host.Outcome State Fault Refusal :=
  .next (thermalConfigWrite sec r v s)

end Machine
end Sys2Proof
end

