-- ==== Sys2Proof/Machine/Host.lean ====
section
/-!
DEFINITION. Chapter 02: the host interface. Context commands (R41), doorbells (R45, R46), descriptor fetch and its
checks (R49-R52, R59-R62), completions and their interrupts (R47, R50, R58, R64), version negotiation (R65), the
mailbox (R66, R67) and the descriptors NOP and WAIT_UNTIL (R57).
-/
namespace Sys2Proof
namespace Machine

/-! ## The configuration header (R34-R36) -/

/-- The word of the configuration header at an offset: identity, Class Code and revision, the base address registers, the
subsystem numbers and the Interrupt Pin; none where the chapter states no value (notes/assumptions/180). -/
def cfgWord (o : Nat) (s : State) : Option Nat :=
  if o = 0x00 then some (0x1E9B + 2 ^ 16 * 0x4896)
  else if o = 0x08 then some (0xA1 + 2 ^ 8 * 0x118000)
  else if 0x10 ≤ o ∧ o ≤ 0x24 ∧ o % 4 = 0 then s.bars[(o - 0x10) / 4]?
  else if o = 0x2C then some (s.subIds.1 + 2 ^ 16 * s.subIds.2)
  else if o = 0x3C then some 0
  else none

/-- The capabilities of R34 with their values, by name; a capability that the list does not name is absent. R34 gives no
offsets of their structures, which no command reads. -/
def capabilities : List (String × List Nat) := [
  ("link speeds in tenths of GT/s", [25, 50, 80, 160]), ("link widths", [4, 2, 1]), ("lane reversal", [1]),
  ("polarity inversion", [1]), ("Max Payload Size", [128, 256, 512]), ("largest read request", [512]),
  ("extended tag bits", [8]), ("address bits", [64]), ("MSI-X vectors", [64]),
  ("Advanced Error Reporting with ECRC generation and checking", [1]), ("Completion Timeout ranges A and B", [1, 2]),
  ("Completion Timeout Disable", [1]), ("Function Level Reset", [1]), ("ASPM L1", [1]), ("device power states D", [0, 3]),
  ("Relaxed Ordering on reads", [1])]

/-- The device has a capability (R34): not MSI, INTx, 10-bit tags, L0s, L1 substates, AtomicOp, SR-IOV, ATS, PRI, PASID, PTM,
Resizable BAR or an expansion ROM. -/
def capable (name : String) : Bool := capabilities.any fun c => c.1 == name

/-- The bytes of a window (R36): BAR 0 with 1 the set-up window of 16 MiB, BAR 2 with 3 the doorbell window of 64 KiB; BARs 4 and
5 are not implemented. -/
def barSize (i : Nat) : Nat := if i = 0 then 0x1000000 else if i = 2 then 0x10000 else 0

/-! ## Context types and opcodes (R38) -/

/-- The bindings a type admits (R38). -/
def bindOk (type bind : Nat) : Bool :=
  match type with
  | 1 => bind < 48
  | 2 => bind < 8
  | 3 => bind < 16
  | 4 => bind < 2 || bind == 0xFF
  | 5 => bind == 0
  | 6 => bind == 0
  | 7 => bind == 0
  | 8 => bind == 0
  | _ => false

/-- At most one context per target (R38). -/
def soleBinding (type : Nat) : Bool := 1 ≤ type && type ≤ 3

/-- The fetch class of a type (R38). -/
def fetchClass (type : Nat) : Nat := if type = 3 ∨ type = 4 ∨ type = 6 ∨ type = 8 then 1 else 0

/-- A defined opcode: the context type it belongs to (0 any), the opcode bits of FLAGS it defines (bit 0 for bit 14),
and whether the gate can stage it or it names a transaction (R57, R77, R226, R228, R283, R324, R340, R504 and the
management chapters). -/
def opInfo (op : Nat) : Option (Nat × Nat × Bool) :=
  match op with
  | 0x00 => some (0, 0, false) | 0x01 => some (0, 0, false)
  | 0x10 => some (1, 0, false) | 0x11 => some (1, 0, false) | 0x12 => some (1, 1, false)
  | 0x18 => some (1, 0, true) | 0x19 => some (1, 0, false) | 0x1A => some (1, 0, true) | 0x1B => some (1, 0, false)
  | 0x30 => some (2, 3, true) | 0x31 => some (2, 0, false) | 0x32 => some (2, 0, false) | 0x33 => some (2, 0, false)
  | 0x34 => some (2, 0, false)
  | 0x40 => some (3, 1, false) | 0x41 => some (3, 0, false) | 0x42 => some (3, 0, false) | 0x43 => some (3, 0, false)
  | 0x50 => some (4, 7, false) | 0x51 => some (4, 3, false)
  | 0x60 => some (5, 0, false) | 0x61 => some (5, 0, true) | 0x62 => some (5, 0, false) | 0x63 => some (5, 0, false)
  | 0x64 => some (5, 0, false)
  | 0x74 => some (6, 0, false) | 0x75 => some (6, 0, false) | 0x78 => some (6, 0, false) | 0x7A => some (6, 0, false)
  | 0x7C => some (6, 0, false) | 0x80 => some (6, 0, false) | 0x81 => some (6, 0, true)
  | 0x90 => some (7, 0, false) | 0x91 => some (7, 0, false) | 0x92 => some (7, 0, false)
  | 0xA0 => some (8, 1, false) | 0xA1 => some (8, 0, false) | 0xA2 => some (8, 0, false) | 0xA3 => some (8, 0, false)
  | 0xA4 => some (8, 0, false)
  | _ => none

/-! ## Context commands (R41) -/

/-- Show a context command and its result in `HIF.CTX_CMD_STATUS`. -/
def cmdStatus (c cmd result : Nat) (s : State) : State :=
  put (put (put s F.HIF_CTX_CMD_STATUS_CTX c) F.HIF_CTX_CMD_STATUS_CMD cmd) F.HIF_CTX_CMD_STATUS_RESULT result

/-- Another context that is not DISABLED holds the same binding (R41 check 4). -/
def bindingTaken (c : Fin 256) (s : State) : Bool :=
  (fins 256).any fun k => k != c && (ctx s k).st != .disabled &&
    get s (F.HIF_CTX_CFG_TYPE k) == get s (F.HIF_CTX_CFG_TYPE c) &&
    get s (F.HIF_CTX_CFG_BIND k) == get s (F.HIF_CTX_CFG_BIND c)

/-- The result of an ENABLE (R41): 0 where every check holds. -/
def enableResult (c : Fin 256) (s : State) : Nat :=
  let type := get s (F.HIF_CTX_CFG_TYPE c)
  let size := get s (F.HIF_CTX_CFG_SIZE_LOG2 c)
  if (ctx s c).st ≠ .disabled then 2
  else if ¬ flag s F.HIF_STATUS_READY then 6
  else if get s F.HIF_VERSION_AGREED_AGREED = 0 then 5
  else if ¬ bindOk type (get s (F.HIF_CTX_CFG_BIND c)) ∨ size < 4 ∨ 12 < size ∨
      rd64 s (R.HIF_CTX_SQ_BASE c) % 4096 ≠ 0 ∨ rd64 s (R.HIF_CTX_CQ_BASE c) % 4096 ≠ 0 then 3
  else if soleBinding type ∧ bindingTaken c s then 4
  else 0

/-- A context command refused at once: naming context 0 from the host, or while a command is in progress (R39, R41).
The order of the two tests is notes/assumptions/10. -/
def cmdRefused (sec : Bool) (c : Fin 256) (s : State) : Option Nat :=
  if flag s F.HIF_CTX_CMD_STATUS_BUSY then some 2
  else if c.val = 0 ∧ ¬ sec then some 7
  else none

/-- Run a context command that is not refused at once. -/
def ctxCommand (sec : Bool) (c : Fin 256) (cmd : Nat) (k : State → State) (s : State) : State :=
  hostWrite sec R.HIF_CTX_CMD (fun s =>
    match cmdRefused sec c s with
    | some r => cmdStatus c cmd r s
    | none => k s) s

/-- ENABLE (R41). -/
def ctxEnable (c : Fin 256) (s : State) : State :=
  let r := enableResult c s
  if r = 0 then
    cmdStatus c 1 0 (wr64 (setCtx c (fun x => { x with
      st := .active, stopCause := 0, sqHead := 0, sqTail := 0, cqTail := 0, cqHead := 0, phase := true,
      bpWait := 0, bpTold := false }) s) (R.HIF_CTX_BP_TIME c) 0)
  else cmdStatus c 1 r s

/-- The SEQs of the descriptors a DISABLE aborts: every accepted one that has not started, and the started ones whose
chapters say that DISABLE completes them while they wait (R41, R57, R468, R504), and the loads that wait to start (R79). -/
def abortable (x : Ctx) : List Nat :=
  (x.fetched.filter fun d => d.compl.isNone && !d.dup &&
    (!d.started || d.loadWaits || [0x01, 0x7A, 0xA3].contains d.op)).map Desc.seq

/-- DISABLE (R41). The count n of R58 is set to 0 when the command is taken: completions that are posted while DRAINING
count again, and what they leave is still there at the next ENABLE. R58 says that DISABLE sets n to 0 and not at which
moment of it. DESIGN CHOICE (notes/assumptions/177). -/
def ctxDisable (c : Fin 256) (s : State) : State :=
  if (ctx s c).st = .active ∨ (ctx s c).st = .stopped then
    let s1 := (abortable (ctx s c)).foldl (fun s q => complete c q stABORTED none none false s) s
    let s2 := setCtx c (fun x => { x with st := .draining, irqN := 0 }) s1
    setF (cmdStatus c 2 1 { s2 with hifCmd := some c.val }) F.HIF_CTX_CMD_STATUS_BUSY
  else cmdStatus c 2 2 s

/-- RESUME (R41). -/
def ctxResume (c : Fin 256) (s : State) : State :=
  if (ctx s c).st = .stopped then
    cmdStatus c 3 0 (setCtx c (fun x => { x with st := .active, stopCause := 0 }) s)
  else cmdStatus c 3 2 s

def execCtxEnable (sec : Bool) (c : Fin 256) (s : State) : Host.Outcome State Fault Refusal :=
  .next (ctxCommand sec c 1 (ctxEnable c) s)

def execCtxDisable (sec : Bool) (c : Fin 256) (s : State) : Host.Outcome State Fault Refusal :=
  .next (ctxCommand sec c 2 (ctxDisable c) s)

def execCtxResume (sec : Bool) (c : Fin 256) (s : State) : Host.Outcome State Fault Refusal :=
  .next (ctxCommand sec c 3 (ctxResume c) s)

/-- A DRAINING context all of whose descriptors have been retired becomes DISABLED (R40, R41). -/
def ctxDrainDone (c : Fin 256) (s : State) : State :=
  if (ctx s c).st = .draining ∧ (ctx s c).fetched = [] then
    let s1 := setCtx c (fun x => { x with st := .disabled, stopCause := 0 }) s
    if s.hifCmd = some c.val then
      clrF (cmdStatus c 2 0 { s1 with hifCmd := none }) F.HIF_CTX_CMD_STATUS_BUSY
    else s1
  else s

def execCtxDrainDone (c : Fin 256) (s : State) : Host.Outcome State Fault Refusal := .next (ctxDrainDone c s)

/-- An AtomicOp receives Unsupported Request; the device has no completer for it and keeps its state (R34, R37). -/
def execAtomicOpRequest (off : Nat) (s : State) : Host.Outcome State Fault Refusal :=
  .next (emit (.unsupportedRequest off) s)

/-! ## Doorbells (R39, R45, R46) -/

/-- Discard a doorbell (R46). -/
def doorbellReject (off kind : Nat) (s : State) : State :=
  raise 50 (setF (accessErr off kind 1 s) F.HIF_ERR_STATUS_DOORBELL_REJECT)

/-- A doorbell to a host context: recorded by `f`, or discarded (R46). -/
def doorbell (c : Fin 256) (off v : Nat) (f : Nat → Ctx → Ctx) (s : State) : State :=
  if (ctx s c).st = .disabled ∨ (ctx s c).st = .draining then doorbellReject (256 * c + off) 3 s
  else if ringN s c ≤ v % 4096 then doorbellReject (256 * c + off) 4 s
  else setCtx c (f (v % 4096)) s

/-- A write to doorbell page 0 is a world fault, not a doorbell (R39). -/
def doorbellPage0 (off : Nat) (s : State) : State :=
  worldFault 3 0 true 1 off (setF (accessErr off 5 1 s) F.HIF_ERR_STATUS_ACCESS_ERROR)

/-- A write of SQ_TAIL, with the high word of a 64-bit write (R45). Where both words of a 64-bit write are discarded, each is a
discard of its own, with its event 50, and ACCESS_ERR names the second; R46 does not say whether they are one or two. DESIGN
CHOICE (notes/assumptions/209). -/
def sqTailDoorbell (c : Fin 256) (v : Word) (hi : Option Word) (s : State) : State :=
  if c.val = 0 then doorbellPage0 0 s
  else
    let s1 := doorbell c 0 v.toNat (fun t x => { x with sqTail := t }) s
    match hi with
    | some h => doorbell c 4 h.toNat (fun t x => { x with cqHead := t }) s1
    | none => s1

def execSqTailDoorbell (c : Fin 256) (v : Word) (hi : Option Word) (s : State) : Host.Outcome State Fault Refusal :=
  .next (sqTailDoorbell c v hi s)

/-- A write of CQ_HEAD (R45, R46). -/
def cqHeadDoorbell (c : Fin 256) (v : Word) (s : State) : State :=
  if c.val = 0 then doorbellPage0 4 s
  else doorbell c 4 v.toNat (fun t x => { x with cqHead := t }) s

def execCqHeadDoorbell (c : Fin 256) (v : Word) (s : State) : Host.Outcome State Fault Refusal :=
  .next (cqHeadDoorbell c v s)

/-- An access of the doorbell window that it accepts: 32 bits aligned, or 64 bits at a multiple of 8 (R45). -/
def doorbellSize (off size : Nat) : Bool := (size == 4 && off % 4 == 0) || (size == 8 && off % 8 == 0)

/-- A doorbell-window access of unsupported size or alignment (R4, R45): a write is discarded, a read returns ones. -/
def doorbellRefused (off size : Nat) (write : Bool) (s : State) : State :=
  let s1 := raise 48 (setF (accessErr off 1 1 s) F.HIF_ERR_STATUS_ACCESS_ERROR)
  if write then s1 else emit (.doorbellReply off (2 ^ (8 * size) - 1) size) s1

/-- An access of the doorbell window that is no doorbell (R45): one of unsupported size or alignment is reported; a supported
read returns 0, and a supported write to another offset of a page is discarded without report, but on page 0 it is a world fault
(R39). The doorbells themselves are SQ_TAIL_DOORBELL and CQ_HEAD_DOORBELL. An access beyond the window's end does not reach it. -/
def doorbellAccessError (off size : Nat) (write : Bool) (s : State) : State :=
  if barSize 2 ≤ off then s
  else if ¬ doorbellSize off size then doorbellRefused off size write s
  else if write then (if off < 256 then doorbellPage0 off s else s)
  else emit (.doorbellReply off 0 size) s

/-- DOORBELL_ACCESS_ERROR: `acc` is the access's size in bytes and whether it is a write. -/
def execDoorbellAccessError (off : Nat) (acc : Nat × Bool) (s : State) : Host.Outcome State Fault Refusal :=
  .next (doorbellAccessError off acc.1 acc.2 s)

/-! ## Bounds and fetch (R59-R62) -/

/-- Fetched descriptors not retired, device-wide (R59). -/
def unretired (s : State) : Nat := s.ctxs.toList.foldl (fun n x => n + x.fetched.length) 0

/-- A completion ring is full (R43, R47). -/
def cqFull (c : Fin 256) (s : State) : Bool := ((ctx s c).cqTail + 1) % ringN s c == (ctx s c).cqHead

/-- The CCI lists of a camera context that wait, of which there are at most 8 (R326). -/
def waitingLists (x : Ctx) : Nat := x.fetched.countP fun d => d.compl.isNone && !d.dup && (d.op == 0x42 || d.op == 0x43)

/-- The target of a context cannot take more (R59): a descriptor that has started and waits for room in its target
keeps later ones from being fetched, and a sealed load that waits for a TCK copy too (R519). A DUPLICATE that waits for its
original holds back no work (R52). -/
def targetFull (c : Fin 256) (s : State) : Bool :=
  let b := get s (F.HIF_CTX_CFG_BIND c)
  let open_ := fun (d : Desc) => d.compl.isNone && !d.dup
  (ctx s c).fetched.any (fun d => d.compl.isNone && d.loadWaits) ||
    (match get s (F.HIF_CTX_CFG_TYPE c) with
    | 1 => ((mayStart (ctx s c)).any fun d => d.op == 0x12) && s.imgCopy.map Prod.fst == some 5
    | 2 => (s.axes[b]?).any fun x => decide (32 ≤ x.queue.length)
    | 3 => decide (8 ≤ waitingLists (ctx s c))
    | 4 => s.cmpWait.any fun j => j.ctx == c.val
    | 5 => ((ctx s c).fetched.find? fun d => open_ d && (!d.started || d.op == 0x60)).any fun d =>
        d.op == 0x60 && decide (64 ≤ s.txns.toList.countP fun t => decide (1 ≤ t.st) && decide (t.st ≤ 3))
    | 6 => ((ctx s c).fetched.find? fun d => open_ d && !d.started).any fun d =>
        d.op == 0x7C && (s.bays[d.at 20 1]?).any fun x => decide (8 ≤ x.mgmt.length)
    | _ => false)

/-- The BP_NOW bits of a context: 1 CTX_AHEAD, 2 DEVICE, 4 TAGS, 8 TARGET, 16 CQ_FULL (R59). -/
def bpNow (c : Fin 256) (s : State) : Nat :=
  b2n (64 ≤ (ctx s c).fetched.length) + 2 * b2n (8192 ≤ unretired s) + 8 * b2n (targetFull c s) +
    16 * b2n (cqFull c s)

/-- The context waits under back-pressure, whatever its state (R60). -/
def bpWaiting (c : Fin 256) (s : State) : Bool :=
  (ctx s c).sqHead != (ctx s c).sqTail && bpNow c s != 0

/-- A context the fetcher may serve (R59, R61). -/
def fetchable (c : Fin 256) (s : State) : Bool :=
  (ctx s c).st == .active && (ctx s c).sqHead != (ctx s c).sqTail && bpNow c s == 0

/-- The contexts of a fetch class that wait, ascending. -/
def fetchWaiting (cls : Nat) (s : State) : List (Fin 256) :=
  (fins 256).filter fun c => fetchable c s && fetchClass (get s (F.HIF_CTX_CFG_TYPE c)) == cls

/-- Round-robin by context number: the first after the last served, else the first (R61). -/
def roundRobin (last : Nat) (l : List (Fin 256)) : Option (Fin 256) :=
  match l.find? (fun c => last < c.val) with
  | some c => some c
  | none => l.head?

/-- The context the next burst serves, with its class (R61): class 0 first, every eighth burst to class 1 while both
wait. -/
def fetchPick (s : State) : Option (Fin 256 × Nat) :=
  let w0 := fetchWaiting 0 s
  let w1 := fetchWaiting 1 s
  if w0 ≠ [] ∧ (w1 = [] ∨ s.bursts < 7) then (roundRobin s.rrLast0 w0).map (·, 0)
  else (roundRobin s.rrLast1 w1).map (·, 1)

/-- Note a burst served (R61). -/
def noteBurst (c : Fin 256) (cls : Nat) (s : State) : State :=
  if cls = 0 then
    { s with rrLast0 := c.val, bursts := if fetchWaiting 1 s = [] then 0 else s.bursts + 1 }
  else { s with rrLast1 := c.val, bursts := 0 }

/-- A SEQ is newer than LAST_SEQ (R51). -/
def seqNewer (l q : Nat) : Bool :=
  let d := (q + 2 ^ 32 - l) % 2 ^ 32
  1 ≤ d && d < 2 ^ 31

/-- The history entry of a SEQ. -/
def histFind (q : Nat) (l : List HistEnt) : Option HistEnt := l.find? (fun h => h.seq == q)

/-- Checks 2 to 4 of R49, on an accepted descriptor: nothing, or the failing STATUS and RESULT_A. -/
def headerCheck (type agreed : Nat) (d : Desc) : Option (Nat × Nat) :=
  if d.fmt ≠ agreed then some (stVERSION, agreed)
  else match opInfo d.op with
    | none => some (stFORMAT, 1)
    | some (t, mask, stage) =>
      if t ≠ 0 ∧ t ≠ type then some (stFORMAT, 1)
      else if d.flags &&& mask ≠ d.flags ∨ (d.txnV ∧ ¬ stage) then some (stFORMAT, 2)
      else none

/-- Take one fetched descriptor: check 1 decides whether it is accepted or a DUPLICATE; an accepted one moves
LAST_SEQ, enters the history and takes checks 2 to 4 (R49, R51, R52). -/
def takeDesc (c : Fin 256) (r : RawDesc) (s : State) : State :=
  let d : Desc := ⟨r, false, false, false, 0, none⟩
  let x := ctx s c
  if seqNewer (rdN s (R.HIF_CTX_LAST_SEQ c)) d.seq then
    let s1 := wrN s (R.HIF_CTX_LAST_SEQ c) d.seq
    let s2 := setCtx c (fun x => { x with
      fetched := x.fetched ++ [d], hist := (⟨d.seq, d.op, none⟩ :: x.hist).take 64 }) s1
    match headerCheck (get s (F.HIF_CTX_CFG_TYPE c)) (get s F.HIF_VERSION_AGREED_AGREED) d with
    | some (st, a) => complete c d.seq st (some a) none false s2
    | none => s2
  else
    let e : Desc := match histFind d.seq x.hist with
      | some h => { d with dup := true, aux := h.opcode, compl := h.compl }
      | none => { d with dup := true, lost := true, aux := d.op, compl := some ⟨0xFF, 0, 0, s.now, false⟩ }
    setCtx c (fun x => { x with fetched := x.fetched ++ [e] }) s

/-- Descriptors the next burst of a context reads (R59, R61). -/
def burstLen (c : Fin 256) (s : State) : Nat :=
  let n := ringN s c
  let x := ctx s c
  let lists := if get s (F.HIF_CTX_CFG_TYPE c) = 3 then 8 - waitingLists x else 8
  min (min lists ((x.sqTail + n - x.sqHead) % n)) (min (n - x.sqHead) (min (64 - x.fetched.length) (8192 - unretired s)))

/-- A failed descriptor fetch stops the context (R62). -/
def fetchError (c : Fin 256) (kind : Nat) (s : State) : State :=
  let a := rd64 s (R.HIF_CTX_SQ_BASE c) + 64 * (ctx s c).sqHead
  let s1 := wrN (wr64 s R.HIF_DMA_ERR_ADDR a) R.HIF_DMA_ERR_INFO (c.val + 2 ^ 8 * kind + 2 ^ 12)
  let s2 := setCtx c (fun x => { x with st := .stopped, stopCause := 2 }) s1
  raise 54 (raise 53 (lifeAdd (setF s2 F.HIF_ERR_STATUS_DMA_ERROR) (lifeNo 2 3 kind) 1))

/-- A fetch burst (R61): the scheduled context takes the descriptors the read brought back, up to the burst's bounds;
a failure of the next one stops the context (R62). -/
def descriptorFetch (descs : List RawDesc) (err : Option Nat) (s : State) : State :=
  match fetchPick s with
  | none => s
  | some (c, cls) =>
    let n := burstLen c s
    let ds := descs.take n
    let s1 := ds.foldl (fun s r => takeDesc c r s) (noteBurst c cls s)
    let s2 := setCtx c (fun x => { x with sqHead := (x.sqHead + ds.length) % ringN s c }) s1
    match err with
    | some kind => if ds.length < n then fetchError c kind s2 else s2
    | none => s2

def execDescriptorFetch (descs : List RawDesc) (err : Option Nat) (s : State) : Host.Outcome State Fault Refusal :=
  .next (descriptorFetch descs err s)

/-! ## Completions (R47, R50, R52, R58, R64) -/

/-- The 32 bytes of a completion record (R50). -/
def complRecord (phase : Bool) (d : Desc) (k : Compl) : List Byte :=
  let f := b2n phase + 4 * b2n (d.dup && d.lost) + 8 * b2n (k.staged && !d.dup) +
    16 * b2n (d.dup && !d.lost && d.op != d.aux) + 256 * (if d.dup then k.status else 0)
  leBytes 4 d.seq ++ leBytes 1 (if d.dup then stDUPLICATE else k.status) ++
    leBytes 1 (if d.dup then d.aux else d.op) ++ leBytes 2 f ++
    leBytes 8 k.a ++ leBytes 8 k.b ++ leBytes 8 k.time

/-- The interrupt rule after a posted completion (R58). -/
def irqRule (c : Fin 256) (bad irq : Bool) (s : State) : State :=
  let n := (ctx s c).irqN + 1
  let count := get s (F.HIF_CTX_IRQ_COUNT c)
  let s1 := setCtx c (fun x => { x with irqN := n, irqSince := if n = 1 then s.beam else x.irqSince }) s
  if bad ∨ irq ∨ (count ≠ 0 ∧ count ≤ n) then
    setCtx c (fun x => { x with irqN := 0 }) (signalVector (get s1 (F.HIF_CTX_CFG_VECTOR c)) s1)
  else s1

/-- The reports of a posted completion: events 51 and 52, DUP_COUNT and the lifetime counts (R49, R52, R71, R73). VERSION and
FORMAT completions are one counter, as R73 names them in one item. DESIGN CHOICE (notes/assumptions/179). -/
def complReport (c : Fin 256) (dup : Bool) (st : Nat) (s : State) : State :=
  if dup then raise 52 (lifeAdd (addW s (R.HIF_CTX_DUP_COUNT c) 1) (lifeNo 2 4 0) 1)
  else if st = stVERSION ∨ st = stFORMAT then raise 51 (lifeAdd s (lifeNo 2 5 0) 1)
  else s

/-- A posted completion that asked for ERR_STOP stops its context (R64), one that a fetch error has stopped too: what was
fetched after it then waits for RESUME. A DRAINING context goes on to DISABLED, without event 54; R64 and R41 do not say which
of the two wins. DESIGN CHOICE (notes/assumptions/211). -/
def errStopRule (c : Fin 256) (d : Desc) (st : Nat) (s : State) : State :=
  if d.errStop ∧ ¬ d.dup ∧ st ≠ stOK ∧
      ((ctx s c).st = .active ∨ ((ctx s c).st = .stopped ∧ (ctx s c).stopCause = 2)) then
    raise 54 (setCtx c (fun x => { x with st := .stopped, stopCause := 1 }) s)
  else s

/-- A context posts the completion of a descriptor (R40): not while DISABLED; while STOPPED by ERR_STOP only of one that has
started, every other fetched descriptor being kept. -/
def mayPost (x : Ctx) (d : Desc) : Bool :=
  match x.st with
  | .disabled => false
  | .stopped => d.started || x.stopCause == 2
  | _ => true

/-- The effect of one posted completion record, in one cycle (R47, R50, R54, R58). -/
def postRecord (c : Fin 256) (d : Desc) (rest : List Desc) (k : Compl) (s : State) : State :=
  let t := (ctx s c).cqTail
  let n := (t + 1) % ringN s c
  let s1 := emit (.hostWrite (rd64 s (R.HIF_CTX_CQ_BASE c) + 32 * t) (complRecord (ctx s c).phase d k)) s
  let s2 := setCtx c (fun x => { x with
    fetched := rest, cqTail := n, phase := if n = 0 then !x.phase else x.phase }) s1
  let s3 := complReport c d.dup k.status s2
  errStopRule c d k.status (irqRule c (!d.dup && k.status != stOK) d.irq s3)

/-- Post the oldest descriptor's decided completion into a free slot (R40, R47, R50, R54). -/
def completionPost (c : Fin 256) (s : State) : State :=
  match (ctx s c).fetched with
  | d :: rest =>
    match d.compl with
    | some k => if ¬ mayPost (ctx s c) d ∨ cqFull c s then s else oneCycle (postRecord c d rest k) s
    | none => s
  | [] => s

def execCompletionPost (c : Fin 256) (s : State) : Host.Outcome State Fault Refusal := .next (completionPost c s)

/-- A resubmitted SEQ whose original has completed: its DUPLICATE completion, with the original's values, is posted
(R52). -/
def duplicateCompletion (c : Fin 256) (s : State) : State :=
  match (ctx s c).fetched.head? with
  | some d => if d.dup then completionPost c s else s
  | none => s

def execDuplicateCompletion (c : Fin 256) (s : State) : Host.Outcome State Fault Refusal :=
  .next (duplicateCompletion c s)

/-- A failed payload read of the context's started descriptor (R63). -/
def payloadReadError (c : Fin 256) (a kind : Nat) (s : State) : State :=
  match runningDesc (ctx s c) (fun _ => true) with
  | some d => payloadFail c d.seq a kind s
  | none => s

def execPayloadReadError (c : Fin 256) (a kind : Nat) (s : State) : Host.Outcome State Fault Refusal :=
  .next (payloadReadError c a kind s)

/-- The oldest unsignalled completion reached TIME µs of the beam timebase (R58). -/
def irqAgeExpiry (c : Fin 256) (s : State) : State :=
  let t := get s (F.HIF_CTX_IRQ_TIME c)
  if 0 < (ctx s c).irqN ∧ t ≠ 0 ∧ t ≤ (s.beam - (ctx s c).irqSince) / 1000 then
    setCtx c (fun x => { x with irqN := 0 }) (signalVector (get s (F.HIF_CTX_CFG_VECTOR c)) s)
  else s

def execIrqAgeExpiry (c : Fin 256) (s : State) : Host.Outcome State Fault Refusal := .next (oneCycle (irqAgeExpiry c) s)

/-- Time passes for back-pressure (R60): `dt` ns for every context that waits. -/
def bpTick (dt : Nat) (s : State) : State :=
  forAll 256 (fun c s =>
    if bpWaiting c s then
      lifeTime (add64 (setCtx c (fun x => { x with bpWait := x.bpWait + dt }) s) (R.HIF_CTX_BP_TIME c) dt)
        (lifeNo 2 6 0) dt
    else if (ctx s c).bpWait = 0 ∧ ¬ (ctx s c).bpTold then s
    else setCtx c (fun x => { x with bpWait := 0, bpTold := false }) s) s

/-- A continuous wait beyond the threshold is reported once (R60). -/
def hifBackpressure (c : Fin 256) (s : State) : State :=
  let t := rdN s R.HIF_BP_THRESHOLD % 2 ^ 20
  if t ≠ 0 ∧ t * 1000 < (ctx s c).bpWait ∧ ¬ (ctx s c).bpTold then
    raise 55 (setCtx c (fun x => { x with bpTold := true }) s)
  else s

def execHifBackpressure (c : Fin 256) (s : State) : Host.Outcome State Fault Refusal := .next (hifBackpressure c s)

/-! ## Version, LAST_SEQ, mailbox (R51, R65-R67) -/

/-- The agreed version for an offer (R65): MIN = MAX = 1. -/
def agreedVersion (offer : Nat) : Nat := if 1 ≤ offer then min offer 1 else 0

/-- A write of VERSION_OFFER (R65). -/
def versionOfferWrite (v : Word) (s : State) : State :=
  if (fins 256).any (fun c => c.val != 0 && (ctx s c).st != .disabled) then
    raise 57 (setF s F.HIF_ERR_STATUS_VERSION_REFUSED)
  else
    let o := v.toNat % 16
    put (put s F.HIF_VERSION_OFFER_OFFER o) F.HIF_VERSION_AGREED_AGREED (agreedVersion o)

def execVersionOfferWrite (sec : Bool) (v : Word) (s : State) : Host.Outcome State Fault Refusal :=
  .next (hostWrite sec R.HIF_VERSION_OFFER (versionOfferWrite v) s)

/-- A write of LAST_SEQ, ignored unless DISABLED; it clears the history (R51). -/
def lastSeqWrite (c : Fin 256) (v : Word) (s : State) : State :=
  if (ctx s c).st = .disabled then
    setCtx c (fun x => { x with hist := [] }) (wr s (R.HIF_CTX_LAST_SEQ c) v)
  else s

def execLastSeqWrite (sec : Bool) (c : Fin 256) (v : Word) (s : State) : Host.Outcome State Fault Refusal :=
  .next (hostWrite sec (R.HIF_CTX_LAST_SEQ c) (lastSeqWrite c v) s)

/-- A mailbox write that meets BUSY (R67). -/
def mboxOverrun (s : State) : State := setF (setF s F.HIF_MBOX_STATUS_OVERRUN) F.HIF_ERR_STATUS_MBOX_OVERRUN

/-- A write of MBOX_CTRL (R67): POST sets BUSY, clears DONE and takes TOKEN. -/
def mailboxPost (v : Word) (s : State) : State :=
  if v.toNat % 2 = 0 then s
  else if flag s F.HIF_MBOX_STATUS_BUSY then mboxOverrun s
  else
    put (clrF (setF { s with mboxReply := none, mboxDrop := false, mboxVer := get s F.HIF_VERSION_AGREED_AGREED }
        F.HIF_MBOX_STATUS_BUSY)
      F.HIF_MBOX_STATUS_DONE) F.HIF_MBOX_STATUS_TOKEN (rdN s (R.HIF_MBOX_REQ 0) / 2 ^ 16)

def execMailboxPost (v : Word) (s : State) : Host.Outcome State Fault Refusal := .next (mailboxPost v s)

/-- Byte `i` of the mailbox request (R66). -/
def mboxByte (i : Nat) (s : State) : Nat := bits (rdN s (R.HIF_MBOX_REQ (i / 4))) (8 * (i % 4)) 8

/-- The number in `n` bytes of the mailbox request from byte `i` (R2, R66). -/
def mboxLe (i n : Nat) (s : State) : Nat :=
  leNat ((List.range n).map fun k => BitVec.ofNat 8 (mboxByte (i + k) s))

/-- Words 0 to 15 of a response: the echo of service and token with a STATUS, then bytes 4 to 63 (R66). -/
def mboxWords (st : Nat) (payload : List Nat) (s : State) : List Nat :=
  (mboxByte 0 s + 2 ^ 8 * st + 2 ^ 16 * get s F.HIF_MBOX_STATUS_TOKEN) :: (List.range 15).map (fun i => payload.getD i 0)

/-- What the tack room answers by the request's header alone (R66): FMT_VER other than the version agreed when the request
was posted, which an event of R68 does not change for it, or an unknown service. R66 gives no order of the two for a request
with both: VERSION is tested first, as R49 has it for descriptors. DESIGN CHOICE (notes/assumptions/178). -/
def mboxHeaderReply (s : State) : Option (List Nat) :=
  if mboxByte 1 s % 16 ≠ s.mboxVer then some (mboxWords stVERSION [] s)
  else if 1 ≤ mboxByte 0 s ∧ mboxByte 0 s ≤ 8 then none
  else some (mboxWords stFORMAT [] s)

/-- Write the 16 words of a mailbox response. -/
def mboxWrite (ws : List Nat) (s : State) : State :=
  ws.zipIdx.foldl (fun s p => wrN s (R.HIF_MBOX_RSP p.2) p.1) s

/-- The tack room cannot answer: the device is in recovery mode (R514), the management cluster restarts, or a TCK copy runs
(R518, R519). -/
def tackBusy (s : State) : Bool := get s F.BOOT_STATUS_PHASE == 5 || s.mgmtDown.isSome || (s.imgCopy.map Prod.fst == some 5)

/-- The device writes the response, clears BUSY, sets DONE and raises event 56 (R67); after an event of R68 the
response is discarded. -/
def mailboxResponse (s : State) : State :=
  if ¬ flag s F.HIF_MBOX_STATUS_BUSY ∨ tackBusy s then s
  else
    match mboxHeaderReply s <|> s.mboxReply with
    | none => s
    | some ws =>
      let s1 := clrF { s with mboxReply := none, mboxDrop := false } F.HIF_MBOX_STATUS_BUSY
      if s.mboxDrop then s1 else raise 56 (setF (mboxWrite ws s1) F.HIF_MBOX_STATUS_DONE)

def execMailboxResponse (s : State) : Host.Outcome State Fault Refusal := .next (mailboxResponse s)

/-! ## Link and L1 (R68) -/

/-- The data link comes up (R68). -/
def dataLinkUp (speed width : Nat) (s : State) : State :=
  raise 49 (put (put (setF s F.HIF_STATUS_LINK_UP) F.HIF_STATUS_LINK_SPEED speed) F.HIF_STATUS_LINK_WIDTH width)

def execDataLinkUp (speed width : Nat) (s : State) : Host.Outcome State Fault Refusal :=
  .next (dataLinkUp speed width s)

/-- The link changes speed or width without going down (R71, R73). -/
def linkSpeedWidthChange (speed width : Nat) (s : State) : State :=
  if flag s F.HIF_STATUS_LINK_UP then
    let s1 := put (put s F.HIF_STATUS_LINK_SPEED speed) F.HIF_STATUS_LINK_WIDTH width
    raise 49 (if speed < 4 ∨ width < 4 then lifeAdd s1 (lifeNo 2 1 0) 1 else s1)
  else s

def execLinkSpeedWidthChange (speed width : Nat) (s : State) : Host.Outcome State Fault Refusal :=
  .next (linkSpeedWidthChange speed width s)

/-- A move into or out of L1 changes only IN_L1 (R68). -/
def execL1Change (inL1 : Bool) (s : State) : Host.Outcome State Fault Refusal :=
  .next (put s F.HIF_STATUS_IN_L1 (b2n inL1))

/-! ## NOP and WAIT_UNTIL (R57) -/

/-- NOP returns the host cookie. -/
def opNop (c : Fin 256) (d : Desc) (s : State) : State :=
  if d.addr ≠ 0 ∨ d.len ≠ 0 then formatZero c d.seq s
  else complete c d.seq stOK (some (d.at 20 8)) (some (d.at 28 8)) false s

def execNop (c : Fin 256) (s : State) : Host.Outcome State Fault Refusal := .next (withDesc c 0x00 (opNop c) s)

/-- WAIT_UNTIL completes at once if T has passed, else waits. -/
def opWaitUntil (c : Fin 256) (d : Desc) (s : State) : State :=
  if d.addr ≠ 0 ∨ d.len ≠ 0 ∨ d.at 28 36 ≠ 0 then formatZero c d.seq s
  else if d.at 20 8 ≤ s.now then complete c d.seq stOK (some (d.at 20 8)) (some s.now) false s
  else s

def execWaitUntil (c : Fin 256) (s : State) : Host.Outcome State Fault Refusal :=
  .next (withDesc c 0x01 (opWaitUntil c) s)

/-- A waiting WAIT_UNTIL whose T has come completes OK. -/
def waitUntilDone (c : Fin 256) (s : State) : State :=
  match runningDesc (ctx s c) (fun d => d.op == 0x01) with
  | some d => if d.at 20 8 ≤ s.now then complete c d.seq stOK (some (d.at 20 8)) (some s.now) false s else s
  | none => s

def execWaitUntilDone (c : Fin 256) (s : State) : Host.Outcome State Fault Refusal := .next (waitUntilDone c s)

end Machine
end Sys2Proof
end

