-- ==== Sys2Proof/Machine/Loads.lean ====
section
/-!
DEFINITION. Program loads (R75, R77-R79, R345, R454), RELEASE and RESUME descriptors (R77, R78, R94, R98), and the fault
of a stable sequencer (R95). A started load keeps in its descriptor the bytes it adds, its key slot plus 1 and its stall; 0
while it waits for room.
-/
namespace Sys2Proof
namespace Machine

/-! ## What a load keeps -/

/-- The value kept for a load under way. -/
def loadAux (g n slot : Nat) : Nat := n + 2 ^ 32 * (slot + 1) + 2 ^ 40 * g
def auxBytes (a : Nat) : Nat := bits a 0 32
def auxSlot (a : Nat) : Nat := bits a 32 8 - 1
def auxStall (a : Nat) : Nat := bits a 40 8

/-- The loads of a context under way, oldest first. -/
def loadsRunning (c : Fin 256) (s : State) : List Desc :=
  ((ctx s c).orphans ++ (ctx s c).fetched).filter fun d =>
    [0x10, 0x11, 0x12].contains d.op && d.started && d.compl.isNone && !d.dup && d.aux != 0

/-- The bytes that the loads under way will add to a region. -/
def bytesComing (c : Fin 256) (s : State) : Nat := (loadsRunning c s).foldl (fun n d => n + auxBytes d.aux) 0

/-- A key slot is in use by a running sealed load (R456). -/
def slotInUse (k : Nat) (s : State) : Bool :=
  (fins 256).any fun c => (loadsRunning c s).any fun d => d.op == 0x12 && auxSlot d.aux == k

/-- Bytes a load will add: LEN, or ORIG_LEN of a packed or sealed one (R77). -/
def Desc.loadBytes (d : Desc) : Nat := if d.op = 0x10 then d.len else d.at 20 4

/-- The device address of a stall's program region. -/
def progAddr (g : Nat) (s : State) : Nat := loftAddr (g / 8) (progBase g s)

/-! ## Starting a load (R77-R79) -/

/-- Bytes 20 to 63 are 0 where R77 says so. -/
def loadPlain (d : Desc) : Bool := if d.op = 0x10 then d.at 20 44 == 0 else d.at 24 40 == 0

/-- WORLD_FAULT of a load (R78 check 4). -/
def loadWorld (c : Fin 256) (d : Desc) (g : Fin 48) (s : State) : State :=
  complete c d.seq stWORLD_FAULT none none false (worldFault 2 c.val true 0xFF (progAddr g s) s)

/-- The checks a load can fail before its payload is read (R78), then `k` once room is free (R79). A load that waits for room makes
all checks again at each try; the rules do not say whether a fault of the stall or a change of world meanwhile ends it. DESIGN
CHOICE (notes/assumptions/215). -/
def loadStart (c : Fin 256) (k : Desc → Fin 48 → State → State) (d : Desc) (g : Fin 48) (s : State) : State :=
  let n := d.loadBytes
  if ¬ loadPlain d ∨ n = 0 ∨ n % 16 ≠ 0 then formatZero c d.seq s
  else if progSize g s < n + 16 then complete c d.seq stNO_SPACE none none false s
  else if stSt g s = ssOFFLINE ∨ stSt g s = ssFAULT then interlock c d.seq g s
  else if d.op = 0x12 then
    if anyOpen (progAddr g s) (progSize g s) s then loadWorld c d g s
    else if progFree g s < n + bytesComing c s then s else k d g s
  else if anySecure (progAddr g s) (progSize g s) s then loadWorld c d g s
  else if progFree g s < n + bytesComing c s then s else k d g s

/-- The context's load that waits for room, or its next descriptor, if its opcode is `op`. -/
def withLoad (c : Fin 256) (op : Nat) (k : Desc → Fin 48 → State → State) (s : State) : State :=
  match runningDesc (ctx s c) Desc.loadWaits with
  | none => withStall c op k s
  | some d => if d.op = op then (match ctxStall c s with | some g => k d g s | none => s) else s

/-- A payload of exactly `n` bytes. -/
def fitBytes (n : Nat) (l : List Byte) : List Byte := l.take n ++ List.replicate (n - l.length) 0#8

/-- The job that stands for the bytes of a load: `dec` where an engine decodes them. -/
def loadJob (c q : Nat) (dec : Bool) (input out : List Byte) (n : Nat) (done : Option (Nat × Nat)) : Job :=
  ⟨0, c, q, dec, input, 0, out, n, 0, 0, true, false, Codec.start 0 0, done, 1, 0xFF, 0, 0⟩

/-- The bytes of a load are ready to become visible. -/
def loadReady (c : Fin 256) (d : Desc) (g : Fin 48) (slot : Nat) (bs : List Byte) (s : State) : State :=
  startDesc c d.seq (loadAux g bs.length slot)
    { s with cmpDone := s.cmpDone ++ [loadJob c d.seq false [] bs bs.length (some (stOK, 0))] }

/-- A load goes to a decompression engine (R345). -/
def loadDecode (c : Fin 256) (d : Desc) (g : Fin 48) (slot : Nat) (bs : List Byte) (s : State) : State :=
  submitJob (loadJob c d.seq true bs [] d.loadBytes none) (startDesc c d.seq (loadAux g d.loadBytes slot) s)

/-- PROG_LOAD. -/
def opProgLoad (c : Fin 256) (r : DmaIn) : Desc → Fin 48 → State → State :=
  loadStart c fun d g s => withPayload c d.seq r (fun bs => loadReady c d g 0 (fitBytes d.len bs)) s

def execProgLoad (c : Fin 256) (r : DmaIn) (s : State) : Host.Outcome State Fault Refusal :=
  .next (withLoad c 0x10 (opProgLoad c r) s)

/-- PROG_LOAD_PACKED. -/
def opProgLoadPacked (c : Fin 256) (r : DmaIn) : Desc → Fin 48 → State → State :=
  loadStart c fun d g s => withPayload c d.seq r (fun bs => loadDecode c d g 0 (bs.take d.len)) s

def execProgLoadPacked (c : Fin 256) (r : DmaIn) (s : State) : Host.Outcome State Fault Refusal :=
  .next (withLoad c 0x11 (opProgLoadPacked c r) s)

/-! ## Sealed loads (R454) -/

/-- A failed authentication in the tack room: counted by detail, event 33. -/
def tackFail (detail : Nat) (s : State) : State :=
  raise 33 (setF (addSat (lifeAdd s (lifeNo 17 1 detail) 1) R.TCK_AUTH_FAILS 1) F.TCK_FLAGS_AUTH_FAIL)

/-- The usage of a key slot: 0 empty, 1 KEK, 2 PROGRAM. -/
def keyUse (k : Nat) (s : State) : Nat := bits (rdN s R.TCK_KEY_STATUS) (2 * k) 2

/-- The detail of a sealed envelope that fails, 0 where it holds; `plain` is what AES-256-GCM gives, none where the tag does
not match. -/
def sealedDetail (d : Desc) (l : List Byte) (plain : Option (List Byte)) (s : State) : Nat :=
  let ct := leAt l 28 4
  let slot := leAt l 5 1
  let lc := get s F.TCK_STATUS_LIFECYCLE
  if leAt l 0 4 ≠ 0x53454C47 ∨ leAt l 4 1 ≠ 1 ∨ leAt l 6 2 ≠ 0 ∨ leAt l 32 16 ≠ 0 ∨ d.len ≠ 64 + ct ∨
      (¬ d.fbit 14 ∧ ct ≠ d.at 20 4) then 1
  else if slot = 0 ∨ 15 < slot ∨ keyUse slot s ≠ 2 ∨ (lc ≠ 1 ∧ lc ≠ 2) then 2
  else if leAt l 8 8 ≠ 0 ∧ leAt l 8 8 ≠ rd64 s R.TCK_DEVICE_ID then 3
  else match plain with
    | some p => if p.length = ct then 0 else 4
    | none => 4

/-- PROG_LOAD_SEALED with its envelope read. -/
def sealedOpen (c : Fin 256) (plain : Option (List Byte)) (d : Desc) (g : Fin 48) (l : List Byte) (s : State) : State :=
  let k := sealedDetail d l plain s
  if k ≠ 0 then complete c d.seq stDATA_CHECK none (some k) false (tackFail k s)
  else if d.fbit 14 then loadDecode c d g (leAt l 5 1) (plain.getD []) s
  else loadReady c d g (leAt l 5 1) (plain.getD []) s

/-- PROG_LOAD_SEALED. -/
def opProgLoadSealed (c : Fin 256) (r : DmaIn) (plain : Option (List Byte)) : Desc → Fin 48 → State → State :=
  loadStart c fun d g s => withPayload c d.seq r (fun bs => sealedOpen c plain d g (bs.take d.len)) s

def execProgLoadSealed (c : Fin 256) (r : DmaIn) (plain : Option (List Byte)) (s : State) :
    Host.Outcome State Fault Refusal := .next (withLoad c 0x12 (opProgLoadSealed c r plain) s)

/-! ## Becoming visible (R75) -/

/-- Bytes stored in a ring region of a loft, of `size` bytes at `base`, from offset `w` on. -/
def ringWrite (st : Fin 6) (base size w : Nat) (bs : List Byte) (s : State) : State :=
  loftWrite st base (bs.drop (size - w)) (loftWrite st (base + w) (bs.take (size - w)) s)

/-- One of the commands of a load is no mark, or a mark that ends its stroke (CONT = 0, R81). -/
def endsEmpty : List Byte → Bool
  | o :: f :: _ :: _ :: _ :: _ :: _ :: _ :: _ :: _ :: _ :: _ :: _ :: _ :: _ :: _ :: bs =>
    !((o == 0x02 || o == 0x03) && f == 1) || endsEmpty bs
  | _ => false

/-- The commands of a load become visible; what ends a PROGRAM_EMPTY hold is noted (R86). Behind a SEAM_HANDOVER that has paused
the sequencer they count as not visible (R181, R182). -/
def showLoad (g : Fin 48) (bs : List Byte) (s : State) : State :=
  let w := rdN s (R.STALL_PROG_WP g)
  let s1 := ringWrite (stableOf g) (progBase g s) (progSize g s) w bs s
  let s2 := wrN s1 (R.STALL_PROG_WP g) ((w + bs.length) % progSize g s)
  setStall g (fun x => { x with loaded := x.loaded || (endsEmpty bs && x.seq.stop != 8 && x.seq.stop != 9) }) (showFree g s2)

/-- A sealed load has been made into a region (R457, R459). -/
def noteSealed (g : Fin 48) (s : State) : State :=
  let r := (progAddr g s, progSize g s)
  evalUpdate (lifeAdd (if s.sealedAt.contains r then s else { s with sealedAt := s.sealedAt ++ [r] }) (lifeNo 17 2 0) 1)

/-- The oldest load of a context ends with its outcome. -/
def loadEnd (c : Fin 256) (d : Desc) (g : Fin 48) (j : Job) (s : State) : State :=
  match (j.done.getD (stDATA_CHECK, 0)).1 with
  | 0 =>
    let s1 := showLoad g j.out s
    let s2 := if d.op = 0x12 then noteSealed g s1 else s1
    complete c d.seq stOK (some (rdN s2 (R.STALL_PROG_WP g))) (some j.out.length) false s2
  | 8 =>
    if d.op = 0x12 then complete c d.seq stDATA_CHECK none (some 5) false (tackFail 5 s)
    else complete c d.seq stDATA_CHECK none none false s
  | st => complete c d.seq st none none false s

/-- LOAD_VISIBLE: the oldest load of a context under way, once its bytes are there. -/
def loadVisible (c : Fin 256) (s : State) : State :=
  match (loadsRunning c s).head? with
  | none => s
  | some d =>
    if h : auxStall d.aux < 48 then
      match s.cmpDone.find? (fun j => j.ctx == c.val && j.seq == d.seq) with
      | none => s
      | some j =>
        if (j.done.map Prod.fst == some stOK) && decide (progFree (auxStall d.aux) s < j.out.length) then s
        else loadEnd c d ⟨_, h⟩ j { s with cmpDone := s.cmpDone.filter fun x => !(x.ctx == c.val && x.seq == d.seq) }
    else s

def execLoadVisible (c : Fin 256) (s : State) : Host.Outcome State Fault Refusal := .next (loadVisible c s)

/-! ## RELEASE and RESUME (R77, R78) -/

/-- RELEASE: it takes effect at the next tick (R94). -/
def opRelease (c : Fin 256) (d : Desc) (g : Fin 48) (s : State) : State :=
  if d.txnV then stageOne c d (orderPlain d) (.release g) id s
  else if ¬ orderPlain d then formatZero c d.seq s
  else if stSt g s ≠ ssIDLE ∨ hbLost s ∨ inhibited s ∨ ¬ servoOk g s then interlock c d.seq g s
  else setStall g (fun x => { x with relNew := true }) s

def execRelease (c : Fin 256) (s : State) : Host.Outcome State Fault Refusal :=
  .next (withStall c 0x18 (opRelease c) s)

/-- RESUME. -/
def opResume (c : Fin 256) (d : Desc) (g : Fin 48) (s : State) : State :=
  if d.txnV then stageOne c d (orderPlain d) (.resume g) id s
  else if ¬ orderPlain d then formatZero c d.seq s
  else if ¬ resumeOk g s then interlock c d.seq g s
  else resumeNow g s

def execResume (c : Fin 256) (s : State) : Host.Outcome State Fault Refusal :=
  .next (withStall c 0x1A (opResume c) s)

/-! ## The stable sequencer (R95) -/

/-- SEQUENCER_FAULT: event stable + 34, and the stalls it concerns fault. -/
def sequencerFault (t : Fin 6) (stalls : List (Fin 48)) (s : State) : State :=
  (stalls.filter fun (g : Fin 48) => g.val / 8 == t.val).foldl (fun s (g : Fin 48) =>
    if stSt g s = ssOFFLINE ∨ stSt g s = ssFAULT then s else enterFault g 5 s) (raise (stableEv t 2) s)

def execSequencerFault (t : Fin 6) (stalls : List (Fin 48)) (s : State) : Host.Outcome State Fault Refusal :=
  .next (sequencerFault t stalls s)

end Machine
end Sys2Proof
end

