-- ==== Sys2Proof/Machine/Tack.lean ====
section
/-!
DEFINITION. Chapter 17: changes of worlds (R447-R450), signed objects (R452), the lifecycle (R453), the limits (R455), the
mailbox services (R456) and their faults (R459). What only cryptography or the random source can give is an operand:
whether a signature holds, an unwrapped key, a new key pair, a signature, random bytes.
-/
namespace Sys2Proof
namespace Machine

/-! ## Requests and answers (R66, R456) -/

/-- Run a service on the request the mailbox holds, if it is the one asked for and has not been answered. -/
def mboxService (svc : Nat) (k : State → State) (s : State) : State :=
  if flag s F.HIF_MBOX_STATUS_BUSY ∧ mboxByte 0 s = svc ∧ mboxHeaderReply s = none ∧ s.mboxReply = none ∧ ¬ tackBusy s
  then k s else s

/-- The answer of a service: STATUS and words 1 to 15. -/
def answer (st : Nat) (payload : List Nat) (s : State) : State := { s with mboxReply := some (mboxWords st payload s) }

/-- The lifecycle (R453): 0 BLANK, 1 DEVELOPMENT, 2 LOCKED, 3 RETURNED. -/
def lifecycle (s : State) : Nat := get s F.TCK_STATUS_LIFECYCLE

/-- The bulk data of a request is checked against the Region Table in the non-secure world (R456). -/
def bulkCheck (write : Bool) (k : State → State) (s : State) : State :=
  let a := mboxLe 8 8 s
  if Config.hostRefused a (mboxLe 16 4 s) then answer stWORLD_FAULT [] (worldFault 2 0 write 0xFF a s) else k s

/-- The LEN bytes of bulk data that a request names, or MEMORY_ERROR (R63, R67). -/
def withBulk (r : DmaIn) (k : List Byte → State → State) : State → State := bulkCheck false fun s =>
  match r with
  | .ok l => k (l.take (mboxLe 16 4 s)) s
  | .fail a kind =>
    let s1 := wrN (wr64 s R.HIF_DMA_ERR_ADDR a) R.HIF_DMA_ERR_INFO (2 ^ 8 * kind)
    answer stMEMORY_ERROR [] (raise 53 (lifeAdd (setF s1 F.HIF_ERR_STATUS_DMA_ERROR) (lifeNo 2 3 kind) 1))

/-! ## Signed objects (R452) -/

/-- The body of a signed object. -/
def objBody (l : List Byte) : List Byte := (l.drop 24).take (leAt l 20 4)

/-- The public key of a signed object. -/
def objKey (l : List Byte) : List Byte := (l.drop (24 + leAt l 20 4)).take 97

/-- A signed object holds: header, length, the key's hash, the signature, DEVICE_ID and SERIAL. -/
def objectGood (kind : Nat) (l : List Byte) (sigOk : Bool) (s : State) : Bool :=
  leAt l 0 4 == 0x4E474953 && leAt l 4 1 == kind && leAt l 5 1 == 1 && leAt l 6 2 == 0 &&
    l.length == 24 + leAt l 20 4 + 193 && s.builderHash == some (Config.sha384 (objKey l)) && sigOk &&
    (leAt l 8 8 == rd64 s R.TCK_DEVICE_ID || (kind == 2 && leAt l 8 8 == 0)) &&
    decide (s.serials.toList.getD kind 0 < leAt l 16 4)

/-- An accepted object's SERIAL is kept. -/
def keepSerial (kind : Fin 5) (l : List Byte) (s : State) : State :=
  { s with serials := vset s.serials kind (leAt l 16 4) }

/-- A service on a signed object: refused in BLANK, and where the object does not hold. -/
def withObject (kind : Nat) (r : DmaIn) (sigOk : Bool) (k : List Byte → State → State) (s : State) : State :=
  if lifecycle s = 0 then answer stINTERLOCK [] s
  else withBulk r (fun l s => if objectGood kind l sigOk s then k l s else answer stDATA_CHECK [] (tackFail 0 s)) s

/-! ## INFO, KEY_IMPORT, KEY_ERASE, RANDOM -/

/-- INFO. -/
def svcInfo (s : State) : State :=
  let n := mboxLe 16 4 s
  if 1 ≤ n ∧ n < 97 then answer stNO_SPACE [] s
  else
    let reply := fun (s : State) => answer stOK [rdN s R.TCK_DEVICE_ID, rdN s (R.TCK_DEVICE_ID + 4),
      lifecycle s + 2 ^ 8 * b2n (flag s F.TCK_STATUS_EVALUATED), rdN s R.TCK_KEY_STATUS] s
    if n = 0 then reply s
    else bulkCheck true (fun s => reply (emit (.hostWrite (mboxLe 8 8 s) (leBytes 97 (s.signKey.getD 0))) s)) s

def execInfo (s : State) : Host.Outcome State Fault Refusal := .next (mboxService 1 svcInfo s)

/-- The key of a slot. -/
def storeKey (k : Fin 16) (key : Nat) (s : State) : State := { s with keys := vset s.keys k key }

/-- A key slot takes a key and a usage. -/
def setKey (k : Fin 16) (key usage : Nat) (s : State) : State :=
  wrN (storeKey k key s) R.TCK_KEY_STATUS (setBits (rdN s R.TCK_KEY_STATUS) (2 * k.val) 2 usage)

/-- A key slot of a request: 1 to 15. -/
def keySlot (n : Nat) : Option (Fin 16) := if h : 1 ≤ n ∧ n < 16 then some ⟨n, h.2⟩ else none

/-- KEY_IMPORT with its object accepted; `key` is the unwrapped key, none where its tag does not match. -/
def keyImport (key : Option Nat) (l : List Byte) (s : State) : State :=
  let b := objBody l
  let use := leAt b 1 1
  match keySlot (leAt b 0 1), key with
  | some k, some v =>
    if b.length ≠ 63 ∨ (use ≠ 1 ∧ use ≠ 2) ∨ 15 < leAt b 2 1 ∨ keyUse (leAt b 2 1) s ≠ 1 then
      answer stDATA_CHECK [] (tackFail 0 s)
    else if slotInUse k s then answer stBUSY [] s
    else if keyUse k s ≠ 0 then answer stNO_SPACE [] s
    else
      answer stOK [k.val] (raise 36 (lifeAdd (keepSerial 1 l (setKey k (v % 2 ^ 256) use s)) (lifeNo 17 3 0) 1))
  | _, _ => answer stDATA_CHECK [] (tackFail 0 s)

def execKeyImport (r : DmaIn) (sigOk : Bool) (key : Option Nat) (s : State) : Host.Outcome State Fault Refusal :=
  .next (mboxService 2 (withObject 1 r sigOk (keyImport key)) s)

/-- Erase a slot. -/
def eraseKey (k : Fin 16) (s : State) : State := lifeAdd (setKey k 0 0 s) (lifeNo 17 3 1) 1

/-- KEY_ERASE. -/
def svcKeyErase (s : State) : State :=
  match keySlot (mboxByte 4 s) with
  | none => answer stFORMAT [] s
  | some k => if slotInUse k s then answer stBUSY [] s else answer stOK [] (raise 36 (eraseKey k s))

def execKeyErase (s : State) : Host.Outcome State Fault Refusal := .next (mboxService 3 svcKeyErase s)

/-- Words of bytes. -/
def wordsOf : Nat → List Byte → List Nat
  | 0, _ => []
  | n + 1, l => leNat (l.take 4) :: wordsOf n (l.drop 4)

/-- RANDOM. -/
def svcRandom (bytes : List Byte) (s : State) : State :=
  let n := mboxByte 4 s
  if n = 0 ∨ 48 < n then answer stFORMAT [] s
  else if ¬ flag s F.TCK_STATUS_TRNG_OK then answer stDATA_CHECK [] s
  else answer stOK (wordsOf 15 (bytes.take n)) s

def execRandom (bytes : List Byte) (s : State) : Host.Outcome State Fault Refusal :=
  .next (mboxService 8 (svcRandom bytes) s)

/-! ## Limits (R453, R455) -/

/-- The register of a limit: 0 power, 1 speed, 2 the d_min floor. -/
def limitReg (g k : Nat) : Nat :=
  match k with
  | 0 => R.YRD_LIMIT_PWR g
  | 1 => R.YRD_LIMIT_SPEED g
  | _ => R.YRD_LIMIT_DMIN g

/-- The value of a limit: its bits, in range. -/
def limitVal (k n : Nat) : Option Nat :=
  match k with
  | 0 => if n % 2 ^ 16 ≤ 65534 then some (n % 2 ^ 16) else none
  | 1 => if n = 0 ∨ 1000 ≤ n then some n else none
  | _ => if n % 2 ^ 17 ≤ 100000 then some (n % 2 ^ 17) else none

/-- LIMIT_WRITE: the secure world only; ignored out of range, and where the lifecycle does not enforce limits. -/
def limitWrite (g : Fin 48) (k : Fin 3) (v : Word) (s : State) : State :=
  match limitVal k v.toNat with
  | some n =>
    if lifecycle s = 1 ∨ lifecycle s = 2 then raise 34 (wrLater (limitReg g k) (BitVec.ofNat 32 n) s) else s
  | none => s

def execLimitWrite (sec : Bool) (g : Fin 48) (k : Fin 3) (v : Word) (s : State) : Host.Outcome State Fault Refusal :=
  .next (secureWrite sec (limitReg g k) (limitWrite g k v) s)

/-- A limit that is not enforced. -/
def limitFree (k : Nat) : Nat := if k = 0 then 65534 else if k = 1 then 0xFFFFFFFF else 0

/-- The unenforced limits of BLANK and RETURNED, from the next tick on. -/
def freeLimits (s : State) : State :=
  forAll 48 (fun g s => forAll 3 (fun k s => wrLater (limitReg g k) (BitVec.ofNat 32 (limitFree k)) s) s) s

/-- Limits of settings, in effect at once. -/
def loadLimits (l : List (Nat × Nat × Nat)) (s : State) : State :=
  forAll 48 (fun (g : Fin 48) s =>
    let (a, b, c) := l.getD g.val (0, 0, 0)
    wrN (wrN (wrN s (limitReg g 0) a) (limitReg g 1) b) (limitReg g 2) c) s

/-- Limits in range. -/
def limitsGood (l : List (Nat × Nat × Nat)) : Bool :=
  l.all fun p => (limitVal 0 p.1).isSome && decide (p.1 < 2 ^ 16) && (limitVal 1 p.2.1).isSome &&
    (limitVal 2 p.2.2).isSome && decide (p.2.2 < 2 ^ 17)

/-! ## Worlds (R447-R450) -/

/-- The bits of `TCK.BWT` that can be written, bit 17 reading 1. -/
def bwtValue (n : Nat) : Nat :=
  (n &&& 0x000FFF3F0007FFFE) ||| 0x20000

/-- The fields of a Region Table entry; reserved bits read 0 (R7, R448). -/
def entryFields (e : Nat × Nat × Nat) : Nat × Nat × Nat := (e.1 % 2 ^ 28, e.2.1 % 2 ^ 28, e.2.2 &&& 0x17F)

/-- One Region Table entry written. -/
def setRegion (e : Nat × Nat × Nat × Nat) (s : State) : State :=
  if h : e.1 < 128 then { s with rtab := vset s.rtab ⟨e.1, h⟩ (entryFields e.2) } else s

/-- Region Table entries written. -/
def setRegions (l : List (Nat × Nat × Nat × Nat)) (s : State) : State :=
  l.foldl (fun s e => setRegion e s) s

/-- The state with the Region Table as the accepted changes will leave it. -/
def worldAfter (l : List WorldNext) (s : State) : State := l.foldl (fun s w => setRegions w.regions s) s

/-- The pages at which a Region Table may change its answer. -/
def pageEdges (s : State) : List Nat := 0 :: s.rtab.toList.flatMap fun e => if bit e.2.2 0 then [e.1, e.2.1 + 1] else []

/-- A page goes from secure to non-secure. -/
def opens (a b : State) (p : Nat) : Bool := pageSecure 0 p a && !(pageSecure 0 p b)

/-- Some page goes from secure to non-secure. -/
def opensAny (a b : State) : Bool := (pageEdges a ++ pageEdges b).any (opens a b)

/-- A memory at a base address with zeros in the pages that open. -/
def zeroPages (f : Nat → Bool) (base : Nat) (m : Mem) : Mem := m.filter fun c => !(f ((base + c.1) / 4096))

/-- Zeros in every page that opens. -/
def zeroOpened (a b : State) (s : State) : State :=
  let f := opens a b
  forAll 6 (fun (t : Fin 6) s => setLoft t (zeroPages f (loftAddr t.val 0)) s)
    { s with
      hayloft := zeroPages f 0x2000000 s.hayloft, lp5 := zeroPages f lpBase s.lp5
      poison := s.poison.filter fun w => !(f (w / 4096)), sramBad := s.sramBad.filter fun w => !(f (w / 4096)) }

/-- An accepted change: it takes effect at the next tick, or at the tick after the zeroing. -/
def worldAccept (bwt : Option Nat) (rs : List (Nat × Nat × Nat × Nat)) (st : Option SecSet) (s : State) : State :=
  let old := worldAfter s.worldNext s
  { s with worldNext := s.worldNext ++ [⟨bwt, rs, st, !(opensAny old (setRegions rs old))⟩] }

/-- A refused change. -/
def worldRefuse (s : State) : State := setF s F.TCK_FLAGS_CFG_REFUSED

/-- BWT_WRITE. -/
def bwtWrite (n : Nat) (s : State) : State :=
  if allQuiet s then worldAccept (some (bwtValue n)) [] none s else worldRefuse s

def execBwtWrite (sec : Bool) (w : Wr64) (s : State) : Host.Outcome State Fault Refusal :=
  .next (hostWrite sec R.TCK_BWT (withWide R.TCK_BWT false w bwtWrite) s)

/-- The Region Table entry that RT_SEL selects, with the accepted changes. -/
def selEntry (s : State) : Nat × Nat × Nat :=
  (worldAfter s.worldNext s).rtab.toList.getD (get s F.TCK_RT_SEL_INDEX) (0, 0, 0)

/-- An entry with a field written: 1 RT_BASE, 2 RT_LIMIT, 3 RT_ATTR. -/
def entryWith (r n : Nat) (e : Nat × Nat × Nat) : Nat × Nat × Nat :=
  match r with
  | 1 => (n % 2 ^ 28, e.2)
  | 2 => (e.1, n % 2 ^ 28, e.2.2)
  | _ => (e.1, e.2.1, n &&& 0x17F)

/-- A write of the Region Table's window: an entry that is not valid before and after changes at once. -/
def regionWrite (r n : Nat) (s : State) : State :=
  let e := selEntry s
  let e1 := entryWith r n e
  let i := get s F.TCK_RT_SEL_INDEX
  if r = 0 then put s F.TCK_RT_SEL_INDEX (n % 128)
  else if bit e.2.2 8 then worldRefuse s
  else if ¬ bit e.2.2 0 ∧ ¬ bit e1.2.2 0 then setRegions [(i, e1)] s
  else if allQuiet s then worldAccept none [(i, e1)] none s
  else worldRefuse s

/-- The register of REGION_TABLE_WRITE. -/
def regionReg (r : Nat) : Nat := if r = 0 then R.TCK_RT_SEL else R.TCK_RT_BASE + 4 * (r - 1)

def execRegionTableWrite (sec : Bool) (r : Fin 4) (v : Word) (s : State) : Host.Outcome State Fault Refusal :=
  .next (hostWrite sec (regionReg r) (regionWrite r v.toNat) s)

/-- REGION_ZEROING_DONE: the oldest change that waits for its zeroing. -/
def regionZeroingDone (s : State) : State :=
  let before := s.worldNext.takeWhile (·.ready)
  match s.worldNext.drop before.length with
  | w :: rest =>
    let a := worldAfter before s
    zeroOpened a (setRegions w.regions a) { s with worldNext := before ++ { w with ready := true } :: rest }
  | [] => s

def execRegionZeroingDone (s : State) : Host.Outcome State Fault Refusal := .next (regionZeroingDone s)

/-! ## Security settings (R456, R457) -/

/-- RECORDER_SEAL takes a value; a chain begins over the records held (R493). -/
def setSeal (b : Bool) (s : State) : State :=
  let s1 := put s F.TCK_CFG_RECORDER_SEAL (b2n b)
  if b ∧ ¬ recSealed s then { s1 with recChain := chainNow s1 } else s1

/-- Settings act: limits where the lifecycle enforces them, TCK.CFG, and SETTINGS_LOADED. -/
def settingsAct (x : SecSet) (s : State) : State :=
  let s1 := if lifecycle s = 1 ∨ lifecycle s = 2 then loadLimits x.limits s else s
  setF { setSeal x.sealOn s1 with secSet := some x } F.TCK_STATUS_SETTINGS_LOADED

/-- One change of worlds takes effect. -/
def worldAct (s : State) (w : WorldNext) : State :=
  let s1 := match w.bwt with
    | some n => wr64 s R.TCK_BWT n
    | none => s
  let s2 := setRegions w.regions s1
  evalUpdate (match w.settings with
    | some x =>
      answer stOK [x.serial] (raise 34 (lifeAdd (settingsAct x s2) (lifeNo 17 4 0) 1))
    | none => s2)

/-- The changes of worlds that take effect at a tick. -/
def worldTick (s : State) : State :=
  let l := s.worldNext.takeWhile (·.ready)
  l.foldl worldAct { s with worldNext := s.worldNext.drop l.length }

/-- Settings change the Block World Table or a Region Table entry. -/
def tablesChange (x : SecSet) (s : State) : Bool :=
  let now := (worldAfter s.worldNext s).rtab.toList
  bwtValue x.bwt != rd64 s R.TCK_BWT || x.regions.any fun e => now.getD e.1 (0, 0, 0) != entryFields e.2

/-- Settings change a locked entry. -/
def locksBroken (x : SecSet) (s : State) : Bool :=
  let now := (worldAfter s.worldNext s).rtab.toList
  x.regions.any fun e => let o := now.getD e.1 (0, 0, 0); bit o.2.2 8 && o != entryFields e.2

/-- SETTINGS_APPLY with its object accepted: everything at one tick, or nothing. -/
def settingsApply (body : Option SecSet) (l : List Byte) (s : State) : State :=
  match body with
  | none => answer stDATA_CHECK [] (tackFail 0 s)
  | some x =>
    if ¬ limitsGood x.limits ∨ locksBroken x s ∨ ¬ (x.regions.all fun e => decide (e.1 < 128)) then
      answer stDATA_CHECK [] (if locksBroken x s then worldRefuse s else s)
    else if tablesChange x s ∧ ¬ allQuiet s then answer stBUSY [] (worldRefuse s)
    else worldAccept (some (bwtValue x.bwt)) x.regions (some { x with serial := leAt l 16 4 }) (keepSerial 2 l s)

/-- No settings wait for their tick. -/
def noSettingsWait (s : State) : Bool := s.worldNext.all fun w => w.settings.isNone

def execSettingsApply (r : DmaIn) (sigOk : Bool) (body : Option SecSet) (s : State) : Host.Outcome State Fault Refusal :=
  .next (mboxService 4 (fun s => if noSettingsWait s then withObject 2 r sigOk (settingsApply body) s else s) s)

/-! ## The recorder (R493, R494) -/

/-- RECORDER_ATTEST: the staged records are written first; `sig` is the signature. -/
def recorderAttest (sig : List Byte) (s : State) : State :=
  if mboxLe 16 4 s < 96 then answer stNO_SPACE [] s
  else bulkCheck true (fun s =>
    let s1 := recFlush s
    let h := if recSealed s1 then leBytes 48 s1.recChain else []
    answer stOK ([recHeld s1, rdN s1 R.ERW_TAIL, rdN s1 R.ERW_HEAD] ++ wordsOf 12 h)
      (emit (.hostWrite (mboxLe 8 8 s) (sig.take 96)) s1)) s

def execRecorderAttest (sig : List Byte) (s : State) : Host.Outcome State Fault Refusal :=
  .next (mboxService 5 (recorderAttest sig) s)

/-- Clear the recorder: one record of KIND 0x4 is the new TAIL. -/
def recClear (s : State) : State :=
  let n := rdN s R.ERW_HEAD
  let h := if recSealed s then (leBytes 48 s.recChain).take 24 else []
  let r : EvRec := ⟨n, 4, 0xFFFF, rdN s R.DGN_OP_SECONDS, rdN s R.DGN_POWER_CYCLES, s.now, 1, s.recLost,
    rdN s R.ERW_TAIL :: n :: wordsOf 6 h⟩
  let s1 := addW (wrN { s with recStaged := [], recNor := [r], recLost := 0 } R.ERW_TAIL n) R.ERW_HEAD 1
  lifeAdd { s1 with recChain := chainStep (chainInit n s1) r } (lifeNo 20 4 0) 1

/-- RECORDER_CLEAR with its object accepted. -/
def recorderClear (l : List Byte) (s : State) : State := answer stOK [] (recClear (keepSerial 4 l s))

def execRecorderClear (r : DmaIn) (sigOk : Bool) (s : State) : Host.Outcome State Fault Refusal :=
  .next (mboxService 6 (withObject 4 r sigOk recorderClear) s)

/-! ## The lifecycle (R453) -/

/-- Enter a lifecycle state: event 35, the debug port, EVALUATED. -/
def enterLifecycle (n : Nat) (s : State) : State :=
  let s1 := put (put s F.TCK_STATUS_LIFECYCLE n) F.TCK_STATUS_DEBUG_OPEN (b2n (n ≠ 2))
  evalUpdate (raise 35 (lifeAdd s1 (lifeNo 17 5 0) 1))

/-- The device signing key. -/
def setSignKey (k : Option Nat) (s : State) : State := { s with signKey := k }

/-- The hash of the machine builder's public key. -/
def setBuilder (h : Nat) (s : State) : State := { s with builderHash := some h }

/-- Slots 1 to 15 and the signing key are erased. -/
def eraseKeys (s : State) : State :=
  raise 36 (forAll 16 (fun (k : Fin 16) s =>
    if k.val ≠ 0 ∧ keyUse k.val s ≠ 0 then eraseKey k s else s) (setSignKey none s))

/-- LIFECYCLE_ADVANCE from BLANK: the builder's public key, 97 bytes; the signing key is generated. -/
def lifeFirst (newKey : Nat) (l : List Byte) (s : State) : State :=
  if l.length = 97 then
    answer stOK [1] (enterLifecycle 1 (setSignKey (some (newKey % 2 ^ 776)) (setBuilder (Config.sha384 l) s)))
  else answer stDATA_CHECK [] s

/-- LIFECYCLE_ADVANCE by a token. -/
def lifeToken (l : List Byte) (s : State) : State :=
  let s1 := keepSerial 3 l s
  if lifecycle s = 1 then answer stOK [2] (enterLifecycle 2 s1)
  else answer stOK [3] (enterLifecycle 3 (freeLimits (eraseKeys s1)))

/-- LIFECYCLE_ADVANCE. -/
def svcLifecycle (r : DmaIn) (sigOk : Bool) (newKey : Nat) (s : State) : State :=
  if lifecycle s = 3 ∨ mboxByte 4 s ≠ lifecycle s + 1 then answer stINTERLOCK [] s
  else if lifecycle s = 0 then withBulk r (lifeFirst newKey) s
  else withObject 3 r sigOk lifeToken s

def execLifecycleAdvance (r : DmaIn) (sigOk : Bool) (newKey : Nat) (s : State) : Host.Outcome State Fault Refusal :=
  .next (mboxService 7 (svcLifecycle r sigOk newKey) s)

/-! ## Faults, and loading at start-up (R458, R459) -/

/-- TCK_FAULT; `health` tells a health failure of the random source. -/
def tckFault (health : Bool) (s : State) : State :=
  raise 37 (if health then lifeAdd (clrF (setF s F.TCK_FLAGS_TRNG_FAIL) F.TCK_STATUS_TRNG_OK) (lifeNo 17 7 0) 1 else s)

def execTckFault (health : Bool) (s : State) : Host.Outcome State Fault Refusal := .next (tckFault health s)

/-- What the tack-room firmware loads before READY (R458). -/
def tackStart (s : State) : State :=
  let s1 := match s.secSet with
    | some x =>
      setF (setSeal x.sealOn (setRegions x.regions (wr64 s R.TCK_BWT (bwtValue x.bwt)))) F.TCK_STATUS_SETTINGS_LOADED
    | none => s
  let s2 := if lifecycle s = 1 ∨ lifecycle s = 2 then loadLimits ((s.secSet.map SecSet.limits).getD []) s1
    else loadLimits (List.replicate 48 (limitFree 0, limitFree 1, limitFree 2)) s1
  evalUpdate s2

end Machine
end Sys2Proof
end

