-- ==== Sys2Proof/Machine/Ptp.lean ====
section
/-!
DEFINITION. Chapter 16: the best timing transmitter selection of IEEE 1588-2019 (R431, notes/assumptions/85) and the frames that the
Ethernet ports send (R433, notes/assumptions/228).
-/
namespace Sys2Proof
namespace Machine

def tport (s : State) (p : Fin 2) : TPort := s.tports[p.val]
def setTport (p : Fin 2) (f : TPort → TPort) (s : State) : State := { s with tports := vmod s.tports p f }

/-- A port's portState, as the standard codes it: 2 FAULTY, 3 DISABLED, 4 LISTENING, 5 PRE_MASTER, 6 MASTER, 7 PASSIVE, 9 SLAVE. -/
def portSt (p : Nat) (s : State) : Nat := get s (F.TPORT_STATUS_STATE p)

/-- A port works: enabled, with its link up. -/
def portOn (p : Nat) (s : State) : Bool := flag s (F.TPORT_CFG_EN p) && flag s (F.TPORT_STATUS_LINK_UP p)

/-! ## Data sets and their comparison -/

/-- A data set of the comparison: what is said of the grandmaster, the port it comes from and the port that received it, both as
clockIdentity and portNumber. -/
structure PtpSet where
  ann : Ann
  sender : Nat × Nat
  receiver : Nat × Nat

/-- The clockIdentity of the device. -/
def ownClock : Nat := Config.ptpClock.1 % 2 ^ 64

/-- The first difference of two lists of numbers. -/
def listOrder : List Nat → List Nat → Ordering
  | a :: l, b :: m => if a < b then .lt else if b < a then .gt else listOrder l m
  | _, _ => .eq

def idOrder (a b : Nat × Nat) : Ordering := listOrder [a.1, a.2] [b.1, b.2]

/-- Compare two data sets: .lt where the first is better; the flag tells that it is better by topology alone. -/
def setOrder (a b : PtpSet) : Ordering × Bool :=
  let key := fun (x : Ann) => [x.prio1, x.cls, x.acc, x.var, x.prio2, x.gm]
  if a.ann.gm ≠ b.ann.gm then (listOrder (key a.ann) (key b.ann), false)
  else if b.ann.steps + 1 < a.ann.steps then (.gt, false)
  else if a.ann.steps + 1 < b.ann.steps then (.lt, false)
  else if b.ann.steps < a.ann.steps then (.gt, idOrder a.receiver a.sender == .gt)
  else if a.ann.steps < b.ann.steps then (.lt, idOrder b.receiver b.sender == .gt)
  else match idOrder a.sender b.sender with
    | .eq => (listOrder [a.receiver.2] [b.receiver.2], true)
    | o => (o, true)

/-- The better of two data sets; the first where neither is. -/
def betterSet (a b : PtpSet) : PtpSet := if (setOrder b a).1 = .lt then b else a

/-- The best of some data sets. -/
def bestSet : List PtpSet → Option PtpSet
  | [] => none
  | a :: l => some (l.foldl betterSet a)

/-- The device's own data set: a clock all of whose enabled ports are slave-only has the class of one. -/
def ownSet (s : State) : PtpSet :=
  let only := (fins 2).all fun (p : Fin 2) => !(flag s (F.TPORT_CFG_EN p.val)) || flag s (F.TPORT_CFG_SLAVE_ONLY p.val)
  let a : Ann := ⟨get s F.TMS_CFG_PRIORITY1, if only then 255 else 248, Config.ptpClock.2.1 % 256, Config.ptpClock.2.2 % 2 ^ 16,
    get s F.TMS_CFG_PRIORITY2, ownClock, 0⟩
  ⟨a, (ownClock, 0), (ownClock, 0)⟩

/-- The announce interval of a port, in ns. -/
def announceNs (p : Nat) (s : State) : Nat :=
  let l := getI s (F.TPORT_CFG_LOG_ANNOUNCE p)
  if 0 ≤ l then 1000000000 * 2 ^ l.toNat else 1000000000 / 2 ^ (-l).toNat

/-- A sender counts: two messages within four intervals, the last of them not older than that, from another device, and fewer than
255 steps away. -/
def Foreign.counts (f : Foreign) (p : Nat) (s : State) : Bool :=
  let w := 4 * announceNs p s
  decide (s.beam - f.last ≤ w) && (f.prev.any fun t => decide (f.last - t ≤ w)) && decide (f.ann.steps < 255) && f.clock != ownClock

/-- The best data set that a port has received. -/
def portBest (p : Fin 2) (s : State) : Option PtpSet :=
  if portOn p s then
    bestSet (((tport s p).foreign.filter fun f => f.counts p s).map fun f => ⟨f.ann, (f.clock, f.port), (ownClock, p.val + 1)⟩)
  else none

/-- The best data set that the device has received. -/
def clockBest (s : State) : Option PtpSet := bestSet ((fins 2).filterMap fun p => portBest p s)

/-- The device's own clock is the grandmaster. -/
def ownBest (s : State) : Bool :=
  match clockBest s with
  | some e => (setOrder (ownSet s) e).1 == .lt
  | none => true

/-- The portState that the state decision recommends, and how many announce intervals PRE_MASTER lasts before MASTER. -/
def recommend (p : Fin 2) (s : State) : Nat × Nat :=
  let r :=
    if portSt p s = 4 ∧ (portBest p s).isNone then (4, 0)
    else match clockBest s with
      | none => (6, 0)
      | some e =>
        if ownBest s then (6, 0)
        else if e.receiver.2 = p.val + 1 then (9, 0)
        else match portBest p s with
          | some x => if setOrder e x = (.lt, true) then (7, 0) else (6, e.ann.steps + 1)
          | none => (6, e.ann.steps + 1)
  if flag s (F.TPORT_CFG_SLAVE_ONLY p.val) ∧ r.1 ≠ 9 then (4, 0) else r

/-- A sender is heard. -/
def hear (p : Fin 2) (clock port : Nat) (a : Ann) (s : State) : State :=
  let mine := fun (f : Foreign) => f.clock == clock && f.port == port
  let old := (tport s p).foreign.find? mine
  setTport p (fun x => { x with
    seen := s.beam
    foreign := x.foreign.filter (fun f => !mine f) ++ [⟨clock, port, a, s.beam, old.map Foreign.last⟩] }) s

/-! ## Frames -/

/-- The polynomial of the frame check sequence, reflected. -/
def fcs (l : List Byte) : Nat := l.foldl (crcByte 0xEDB88320) 0xFFFFFFFF ^^^ 0xFFFFFFFF

/-- Big-endian bytes of a number. -/
def netBytes (n v : Nat) : List Byte := (leBytes n v).reverse

/-- The number that some bytes of a frame spell. -/
def netAt (l : List Byte) (o n : Nat) : Nat := ((l.drop o).take n).foldl (fun v b => 256 * v + b.toNat) 0

/-- Write bytes into a frame. -/
def patch (l : List Byte) (o : Nat) (b : List Byte) : List Byte :=
  let l1 := l ++ List.replicate (o + b.length - l.length) 0
  l1.take o ++ b ++ l1.drop (o + b.length)

/-- The ones' complement sum of two 16-bit words. -/
def onesAdd (a b : Nat) : Nat := (a + b) % 0x10000 + (a + b) / 0x10000

/-- A UDP checksum after bytes of its datagram, of an even number at an even place, have changed: the incremental update (R433). A
checksum of 0 says that there is none. -/
def checksumAfter (c : Nat) (old new : List Byte) : Nat :=
  if c = 0 then 0
  else
    let words := fun (l : List Byte) => (List.range (l.length / 2)).map fun i => netAt l (2 * i) 2
    let sum := (words new).foldl onesAdd ((words old).foldl (fun v w => onesAdd v (0xFFFF - w)) (0xFFFF - c))
    if sum = 0xFFFF then 0xFFFF else 0xFFFF - sum

/-- Where the PTP header stands in a frame: behind the Ethernet header, and over UDP behind those of IPv4 and UDP too. -/
def ptpAt (udp : Bool) : Nat := if udp then 42 else 14

/-- Write into the PTP message of a frame and keep its UDP checksum right. -/
def ptpWrite (udp : Bool) (l : List Byte) (o : Nat) (b : List Byte) : List Byte :=
  let at_ := ptpAt udp + o
  let l1 := patch l at_ b
  if udp then patch l1 40 (netBytes 2 (checksumAfter (netAt l 40 2) (((patch l at_ []).drop at_).take b.length) b)) else l1

/-- A time in 2^-16 ns as the ten bytes of a timestamp: seconds and ns. -/
def stampBytes (t : Int) : List Byte :=
  let n := (t / 65536).toNat
  netBytes 6 (n / 1000000000 % 2 ^ 48) ++ netBytes 4 (n % 1000000000)

/-- Send a PTP frame of the configured domain with what the port writes into it - offsets in the message, and bytes - and a fresh
check sequence (R431, R433). -/
def sendPtp (p : Fin 2) (type : Nat) (writes : List (Nat × List Byte)) (s : State) : State :=
  let udp := flag s (F.TPORT_CFG_UDP p.val)
  let domain := (4, netBytes 2 (256 * get s F.TMS_CFG_DOMAIN))
  let l := (domain :: writes).foldl (fun l w => ptpWrite udp l w.1 w.2) (Config.ptpFrame p.val type s.fresh)
  emit (.eth p type (l ++ leBytes 4 (fcs l))) { s with fresh := s.fresh + 1 }

end Machine
end Sys2Proof
end

