-- ==== Sys2Proof/Machine/Time.lean ====
section
/-!
DEFINITION. Chapter 16: the PTP ports (R431-R433), the servo and holdover (R434, R435), refused jumps and their acceptance
(R436, R437), SET (R438), the time descriptors (R439), the outputs (R440) and the writes of R441.
-/
namespace Sys2Proof
namespace Machine

def tmsSt (s : State) : Nat := get s F.TMS_STATUS_STATE

/-! ## Outputs (R440) -/

/-- PPS_OUT is not held low: it is held so while STATE is UNSYNCED, HOLDOVER or REFUSED. -/
def ppsOn (s : State) : Bool := flag s F.TMS_OUT_CFG_PPS_EN && [1, 2, 5].contains (tmsSt s)

/-- Nanoseconds that a pulse on PPS_OUT has still to go: WIDTH from every whole second of yard time. -/
def ppsRest (s : State) : Nat := if ppsOn s then get s F.TMS_OUT_CFG_WIDTH * 1000 - s.now % 1000000000 else 0

/-- What RCLK_OUT is due to carry: with SQUELCH a recovered clock is held low while its port's link is down. -/
def rclkDue (s : State) : Nat :=
  let r := get s F.TMS_OUT_CFG_RCLK_SRC
  if (r = 1 ∨ r = 2) ∧ flag s F.TMS_OUT_CFG_SQUELCH ∧ ¬ flag s (F.TPORT_STATUS_LINK_UP (r - 1)) then 0 else r

/-- PPS_OUT takes a level at a yard time. -/
def setPps (t : Nat) (up : Bool) (s : State) : State := if up = s.ppsUp then s else emit (.pin 0 t up) { s with ppsUp := up }

/-- The outputs as the configuration and STATE now have them: RCLK_OUT, and PPS_OUT where it is held low. -/
def timeOutputs (s : State) : State :=
  let s1 := if ppsOn s then s else setPps s.now false s
  if rclkDue s1 = s1.rclkSrc then s1 else emit (.rclkOut (rclkDue s1)) { s1 with rclkSrc := rclkDue s1 }

/-- The outputs at a tick; a pulse that ends before the next tick ends at its own instant. -/
def timePins (s : State) : State :=
  let rest := ppsRest s
  let s1 := setPps s.now (decide (0 < rest)) (timeOutputs s)
  if 0 < rest ∧ rest < s1.mvP then setPps (s1.now + rest) false s1 else s1

/-! ## STATE (R443) -/

/-- Change STATE: event 16 at every change. A HOLDOVER that ends is measured (R445). -/
def tmsEnter (n : Nat) (s : State) : State :=
  if tmsSt s = n then s
  else
    let s1 := if tmsSt s = 3 then
        { lifeMax s (lifeNo 16 5 0) ((s.beam - s.holdAt.getD s.beam) / 1000000000) with holdAt := none }
      else s
    timeOutputs (raise 16 (put s1 F.TMS_STATUS_STATE n))

/-- The part of a slew removed so far, in ns (R437). -/
def slewDone (s : State) : Nat := min s.slewVal.natAbs (s.slewMoved / 1000000)

/-- The part of an accepted offset not yet removed. -/
def slewLeft (s : State) : Int :=
  if tmsSt s = 5 then (if s.slewVal < 0 then s.slewVal + slewDone s else s.slewVal - slewDone s) else 0

/-- Complete the TIME_ACCEPTs of a slew. -/
def tellSlew (st : Nat) (s : State) : State :=
  s.slewWho.foldl (fun s (w : Nat × Nat × Nat) =>
    if h : w.1 < 256 then complete ⟨w.1, h⟩ w.2.1 st (some (code 64 s.slewAcc)) (some w.2.2) false s else s)
    { s with slewWho := [] }

/-- A slew ends before its completion, at the point reached. -/
def endSlew (s : State) : State := if tmsSt s = 5 then tellSlew stABORTED s else s

/-- Begin to remove an offset at MAX_ADJ (R437). -/
def beginSlew (v : Int) (s : State) : State := tmsEnter 5 { s with slewVal := v, slewMoved := 0 }

/-- SLEW_COMPLETE. -/
def slewComplete (s : State) : State :=
  if tmsSt s = 5 ∧ slewDone s = s.slewVal.natAbs then tmsEnter 1 { tellSlew stOK s with slewVal := 0, lockRun := 0 } else s

def execSlewComplete (s : State) : Host.Outcome State Fault Refusal := .next (slewComplete s)

/-- The servo enters HOLDOVER (R435). -/
def enterHoldover (s : State) : State :=
  if tmsSt s = 3 then s else tmsEnter 3 { endSlew s with holdAt := some s.beam, holdTold := false }

/-! ## Steps (R437, R438) -/

/-- No stall and no axis is at work (R437). -/
def stepOk (s : State) : Bool :=
  allQuiet s && !((fins 8).any fun (a : Fin 8) => axSt a s == asMOVING || axSt a s == asSTOPPING)

/-- The nearest multiple of 4,000, ties away from zero. -/
def near4000 (v : Int) : Int :=
  let m := ((v.natAbs + 2000) / 4000 * 4000 : Nat)
  if v < 0 then -(m : Int) else m

/-- The acceptances that act at the next tick. -/
def setTmsAcc (l : List (Bool × Int × Option (Nat × Nat))) (s : State) : State := { s with tmsAcc := l }

/-- The SET that waits for its boundary. -/
def setTmsSet (x : Option (Nat × Nat × Option (Nat × Nat))) (s : State) : State := { s with tmsSet := x }

/-- Yard time takes a value; the servo boundary not yet evaluated stays the next one (R213). -/
def setNow (v : Nat) (s : State) : State :=
  let due := v % 4000 == 0 || decide (s.boundary ≤ s.now / 4000)
  forAll 8 alignPort { s with now := v, boundary := v / 4000 + b2n (!due) }

/-- Report a step (R437, R438). -/
def noteStep (s : State) : State := raise 18 (lifeAdd (setF s F.TMS_FLAGS_STEPPED) (lifeNo 16 1 0) 1)

/-- Step by an accepted offset: yard time changes by the rounded part, the rest is slewed. -/
def stepBy (v : Int) (s : State) : State :=
  let r := near4000 v
  let s1 := noteStep (setNow (code 64 ((s.now : Int) - r)) s)
  if v = r then tmsEnter 1 { s1 with lockRun := 0 } else beginSlew (v - r) s1

/-- An accepted offset acts (R437). -/
def acceptNow (s : State) (a : Bool × Int × Option (Nat × Nat)) : State :=
  let s0 := put s F.TMS_CMD_STATUS_RESULT 0
  match a with
  | (true, v, who) =>
    let s1 := stepBy v s0
    match who with
    | some (c, q) => if h : c < 256 then complete ⟨c, h⟩ q stOK (some (code 64 v)) (some s1.now) false s1 else s1
    | none => s1
  | (false, v, who) =>
    let s1 := lifeAdd (beginSlew v s0) (lifeNo 16 2 0) 1
    { s1 with slewAcc := v, slewWho := s1.slewWho ++ (match who with | some (c, q) => [(c, q, s1.now)] | none => []) }

/-- The acceptances that act at a tick. -/
def acceptStep (s : State) : State := s.tmsAcc.foldl acceptNow (setTmsAcc [] s)

/-- SET_APPLIED: at a superframe boundary after its acceptance yard time takes the value (R438). -/
def setApplied (s : State) : State :=
  match s.tmsSet with
  | some (v, t, who) =>
    if s.now % 4000 = 0 ∧ t < s.beam then
      let s1 := put (noteStep (setNow v (setTmsSet none s))) F.TMS_CMD_STATUS_RESULT 0
      match who with
      | some (c, q) => if h : c < 256 then complete ⟨c, h⟩ q stOK (some v) (some 0) false s1 else s1
      | none => s1
    else s
  | none => s

def execSetApplied (s : State) : Host.Outcome State Fault Refusal := .next (setApplied s)

/-! ## The servo (R434, R436) -/

/-- The PI law on an offset in ns. -/
def piLaw (o : Int) (s : State) : State :=
  let m : Int := get s F.TMS_SERVO_LIM_MAX_ADJ * 1000 * 256
  let i := clampI (-m) m (s.tmsI + get s F.TMS_SERVO_KI * o)
  let adj := clampI (-m) m (-(get s F.TMS_SERVO_KP * o + i))
  wrN { s with tmsI := i } R.TMS_FREQ_ADJ (code 32 (adj / 256))

/-- STATE after a measurement that the servo applied. -/
def lockStep (o : Int) (s : State) : State :=
  let near := decide (o.natAbs < get s F.TMS_SERVO_LIM_LOCK_NS)
  let run := if near then s.lockRun + 1 else 0
  let s1 := { s with lockRun := run }
  if tmsSt s = 2 then
    let s2 := lifeMax s1 (lifeNo 16 6 0) o.natAbs
    if near then s2 else tmsEnter 1 s2
  else tmsEnter (if 16 ≤ run then 2 else 1) s1

/-- A measurement beyond JUMP is refused (R436). -/
def refuseJump (o : Int) (s : State) : State :=
  let s1 := wr64 (endSlew s) R.TMS_PENDING (code 64 o)
  if tmsSt s = 4 then s1
  else tmsEnter 4 (raise 17 (lifeAdd (setF { s1 with lockRun := 0 } F.TMS_FLAGS_JUMP_REFUSED) (lifeNo 16 0 0) 1))

/-- An offset measurement, in ns (R434, R436). -/
def measured (o : Int) (s : State) : State :=
  let s1 := wr64 s R.TMS_OFFSET (code 64 o)
  if tmsSt s = 0 ∧ flag s F.TMS_CFG_INITIAL_STEP ∧ stepOk s then setTmsAcc (s1.tmsAcc ++ [(true, o, none)]) s1
  else if rdN s R.TMS_JUMP < (o - slewLeft s).natAbs then refuseJump o s1
  else if tmsSt s = 5 then s1
  else
    let s2 := if tmsSt s = 1 ∨ tmsSt s = 2 then s1 else { s1 with lockRun := 0 }
    lockStep o (piLaw o s2)

/-! ## Ports (R431-R433) -/

/-- Picoseconds as 2^-16 ns, rounded down. -/
def psFrac (n : Int) : Int := n * 65536 / 1000

/-- A receive stamp corrected by RX_LAT (R432). -/
def rxStamp (p : Nat) (t : Int) (s : State) : Int := t - psFrac (bits (rdN s (R.TPORT_RX_LAT p)) 0 16)

/-- A transmit stamp corrected by TX_LAT (R433). -/
def txStamp (p : Nat) (t : Int) (s : State) : Int := t + psFrac (bits (rdN s (R.TPORT_TX_LAT p)) 0 16)

/-- A received message: one of another domain, or over another transport than the port's, is discarded (R431). -/
def received (p : Fin 2) (hdr : PtpHdr) (k : State → State) (s : State) : State :=
  if ¬ portOn p s then s
  else if hdr.domain ≠ get s F.TMS_CFG_DOMAIN ∨ hdr.udp ≠ flag s (F.TPORT_CFG_UDP p.val) then addW s (R.TPORT_DISCARDS p) 1
  else k s

/-- Count a received event message. -/
def countRx (p : Nat) (s : State) : State := addW s (R.TPORT_RX_STAMPS p) 1

/-- Count a sent event message. -/
def countTx (p : Nat) (s : State) : State := addW s (R.TPORT_TX_STAMPS p) 1

/-- A Sync is whole: its corrected send time `t1` and receive time `t2` in 2^-16 ns. -/
def syncDone (p : Fin 2) (t1 t2 : Int) (s : State) : State :=
  let s1 := setTport p (fun x => { x with wait := none, t1 := t1, t2 := t2, seen := s.beam }) s
  if portSt p s = 9 then
    let asym := psFrac (sext 32 (rdN s (R.TPORT_ASYM p)))
    measured ((t2 - t1 - (tport s p).delay - asym) / 65536) s1
  else s1

/-- PTP_SYNC: `rx` is the stamp at the pins, `origin` and `corr` the message's originTimestamp and correctionField, all in
2^-16 ns; a two-step Sync waits for its Follow_Up by its identity. -/
def ptpSync (p : Fin 2) (twoStep : Bool) (ident : Nat) (rx origin corr : Int) (s : State) : State :=
  let t2 := rxStamp p rx s
  let s1 := countRx p s
  if twoStep then setTport p (fun x => { x with wait := some (ident, t2 - corr), seen := s.beam }) s1
  else syncDone p (origin + corr) t2 s1

def execPtpSync (p : Fin 2) (hdr : PtpHdr) (twoStep : Bool) (ident : Nat) (rx origin corr : Int) (s : State) :
    Host.Outcome State Fault Refusal := .next (received p hdr (ptpSync p twoStep ident rx origin corr) s)

/-- FOLLOW_UP. -/
def followUp (p : Fin 2) (ident : Nat) (origin corr : Int) (s : State) : State :=
  match (tport s p).wait with
  | some (i, t2) => if i = ident then syncDone p (origin + corr) t2 s else s
  | none => s

def execFollowUp (p : Fin 2) (hdr : PtpHdr) (ident : Nat) (origin corr : Int) (s : State) : Host.Outcome State Fault Refusal :=
  .next (received p hdr (followUp p ident origin corr) s)

/-- Store meanDelay. -/
def setDelay (p : Fin 2) (d : Int) (s : State) : State :=
  wrN (setTport p (fun x => { x with delay := d, t3 := none }) s) R.TMS_MEAN_DELAY (code 32 (d / 65536))

/-- DELAY_RESP: a Delay_Resp with the receive time `t4`, or a Pdelay_Resp received at `rx` with the turnaround in `corr`. -/
def delayResp (p : Fin 2) (rx t4 corr : Int) (s : State) : State :=
  let x := tport s p
  let p2p := flag s (F.TPORT_CFG_P2P p)
  let s1 := if p2p then countRx p s else s
  match x.t3 with
  | some t3 =>
    if p2p then setDelay p ((rxStamp p rx s - t3 - corr) / 2) s1
    else setDelay p ((x.t2 - x.t1 + (t4 - corr) - t3) / 2) s1
  | none => s1

def execDelayResp (p : Fin 2) (hdr : PtpHdr) (rx t4 corr : Int) (s : State) : Host.Outcome State Fault Refusal :=
  .next (received p hdr (delayResp p rx t4 corr) s)

/-- DELAY_REQ_SEND at `tx`. -/
def delayReqSend (p : Fin 2) (tx : Int) (s : State) : State :=
  let p2p := flag s (F.TPORT_CFG_P2P p)
  if portOn p s ∧ (p2p ∨ portSt p s = 9) then
    sendPtp p (if p2p then 2 else 1) [] (countTx p (setTport p (fun x => { x with t3 := some (txStamp p tx s) }) s))
  else s

def execDelayReqSend (p : Fin 2) (tx : Int) (s : State) : Host.Outcome State Fault Refusal := .next (delayReqSend p tx s)

/-- PDELAY_REQ: on a peer-to-peer port answered with the turnaround from `rx` to `tx` in correctionField (R431, R433). -/
def pdelayReq (p : Fin 2) (rx tx : Int) (s : State) : State :=
  let s1 := countRx p s
  if flag s (F.TPORT_CFG_P2P p) then
    sendPtp p 3 [(8, netBytes 8 (code 64 (txStamp p tx s - rxStamp p rx s)))] (countTx p s1)
  else s1

def execPdelayReq (p : Fin 2) (hdr : PtpHdr) (rx tx : Int) (s : State) : Host.Outcome State Fault Refusal :=
  .next (received p hdr (pdelayReq p rx tx) s)

/-- DELAY_REQ: a MASTER of the delay request-response profile answers with the receive time, whose fraction is taken off
correctionField. -/
def delayReq (p : Fin 2) (rx : Int) (s : State) : State :=
  let s1 := countRx p s
  let t := rxStamp p rx s
  if portSt p s = 6 ∧ ¬ flag s (F.TPORT_CFG_P2P p) then sendPtp p 9 [(8, netBytes 8 (code 64 (-(t % 65536)))), (34, stampBytes t)] s1
  else s1

def execDelayReq (p : Fin 2) (hdr : PtpHdr) (rx : Int) (s : State) : Host.Outcome State Fault Refusal :=
  .next (received p hdr (delayReq p rx) s)

/-- SYNC_SEND: originTimestamp holds the ns, correctionField the fraction (R433). -/
def syncSend (p : Fin 2) (tx : Int) (s : State) : State :=
  if portOn p s ∧ portSt p s = 6 then
    let t := txStamp p tx s
    sendPtp p 0 [(8, netBytes 8 (code 64 (t % 65536))), (34, stampBytes t)] (countTx p s)
  else s

def execSyncSend (p : Fin 2) (tx : Int) (s : State) : Host.Outcome State Fault Refusal := .next (syncSend p tx s)

/-- What an Announce says: the device's own clock, or the grandmaster it follows, one step further. -/
def announced (s : State) : Ann :=
  match clockBest s with
  | some e => if ownBest s then (ownSet s).ann else { e.ann with steps := e.ann.steps + 1 }
  | none => (ownSet s).ann

/-- ANNOUNCE_SEND, with the grandmaster in it. -/
def announceSend (p : Fin 2) (s : State) : State :=
  if portOn p s ∧ portSt p s = 6 then
    let a := announced s
    sendPtp p 11 [(46, netBytes 2 a.prio1 ++ netBytes 1 a.cls ++ netBytes 1 a.acc ++ netBytes 2 a.var ++ netBytes 2 (256 * a.prio2 + a.gm / 2 ^ 56) ++
        netBytes 7 (a.gm % 2 ^ 56) ++ netBytes 1 (a.steps / 256) ++ netBytes 1 (a.steps % 256) ++ netBytes 1 0xA0)] s
  else s

def execAnnounceSend (p : Fin 2) (s : State) : Host.Outcome State Fault Refusal := .next (announceSend p s)

/-! ### portState and grandmaster (R431, R435, R443) -/

/-- Show the port in SLAVE. -/
def showSlave (s : State) : State :=
  put s F.TMS_STATUS_SLAVE_PORT (if portSt 0 s = 9 then 0 else if portSt 1 s = 9 then 1 else 3)

/-- A port takes a portState: event 19 at a change, HOLDOVER where it leaves SLAVE. -/
def portEnter (p : Fin 2) (n : Nat) (s : State) : State :=
  if portSt p s = n % 16 then s
  else
    let was := portSt p s
    let s1 := raise 19 (showSlave (put s (F.TPORT_STATUS_STATE p) n))
    if was = 9 then enterHoldover s1 else s1

/-- A new grandmaster. -/
def newGm (gm : Nat) (s : State) : State :=
  if rd64 s R.TMS_GM_ID = gm % 2 ^ 64 then s
  else raise 19 (lifeAdd (setF (wr64 s R.TMS_GM_ID gm) F.TMS_FLAGS_GM_CHANGED) (lifeNo 16 3 0) 1)

/-- A port takes the portState that the state decision recommends; MASTER comes behind PRE_MASTER where it says so. -/
def takeState (p : Fin 2) (s : State) : State :=
  if ¬ portOn p s then s
  else
    let (n, wait) := recommend p s
    if n ≠ 6 then portEnter p n (setTport p (fun x => { x with masterAt := none }) s)
    else if wait = 0 then portEnter p 6 (setTport p (fun x => { x with masterAt := none }) s)
    else if portSt p s = 5 ∨ portSt p s = 6 then s
    else portEnter p 5 (setTport p (fun x => { x with masterAt := some (s.beam + wait * announceNs p s) }) s)

/-- The grandmaster in use: the device's own clock where a port serves it, else the one of the port in SLAVE. -/
def takeGm (s : State) : State :=
  match clockBest s with
  | some e => if ownBest s then newGm ownClock s else newGm e.ann.gm s
  | none => if portSt 0 s = 6 ∨ portSt 1 s = 6 then newGm ownClock s else s

/-- The state decision of both ports (R431). -/
def decideStates (s : State) : State := takeGm (forAll 2 takeState s)

/-- ANNOUNCE: a message of a sender feeds the selection. -/
def announce (p : Fin 2) (clock port : Nat) (a : Ann) (s : State) : State := decideStates (hear p clock port a s)

def execAnnounce (p : Fin 2) (hdr : PtpHdr) (clock port : Nat) (ann : Ann) (s : State) : Host.Outcome State Fault Refusal :=
  .next (received p hdr (announce p clock port ann) s)

/-- The announce-receipt timeout of a port, in ns (R435). -/
def receiptNs (p : Nat) (s : State) : Nat := get s F.TMS_HOLD_CFG_RECEIPT * announceNs p s

/-- ANNOUNCE_RECEIPT_TIMEOUT: a port in LISTENING, PASSIVE or SLAVE has heard neither a Sync nor an Announce for the timeout. It
forgets its senders and serves its own clock, or listens where it is slave-only; one that leaves SLAVE begins HOLDOVER (R435). -/
def receiptTimeout (p : Fin 2) (s : State) : State :=
  if portOn p s ∧ [4, 7, 9].contains (portSt p s) ∧ receiptNs p s ≤ s.beam - (tport s p).seen then
    let s1 := setTport p (fun x => { x with foreign := [], seen := s.beam, masterAt := none }) s
    decideStates (portEnter p (if flag s (F.TPORT_CFG_SLAVE_ONLY p) then 4 else 6) s1)
  else s

def execAnnounceReceiptTimeout (p : Fin 2) (s : State) : Host.Outcome State Fault Refusal := .next (receiptTimeout p s)

/-- PRE_MASTER ends. -/
def preMasterEnd (p : Fin 2) (s : State) : State :=
  if portSt p s = 5 ∧ ((tport s p).masterAt.any fun t => decide (t ≤ s.beam)) then
    portEnter p 6 (setTport p (fun x => { x with masterAt := none }) s)
  else s

/-- TIME_HOLDOVER_LONG. -/
def holdoverLong (s : State) : State :=
  match s.holdAt with
  | some t =>
    if tmsSt s = 3 ∧ ¬ s.holdTold ∧ get s F.TMS_HOLD_CFG_LIMIT * 1000000000 ≤ s.beam - t then
      raise 20 (setF { s with holdTold := true } F.TMS_FLAGS_HOLD_LONG)
    else s
  | none => s

def execTimeHoldoverLong (s : State) : Host.Outcome State Fault Refusal := .next (holdoverLong s)

/-- ETHERNET_LINK_DOWN: the recovered clock goes, and an enabled port is FAULTY; the fragments that the loss has left of
frames are no PTP messages and are discarded. -/
def ethLinkDown (p : Fin 2) (frags : Nat) (s : State) : State :=
  if ¬ flag s (F.TPORT_STATUS_LINK_UP p) then s
  else
    let s1 := addW s (R.TPORT_DISCARDS p) frags
    let s2 := timeOutputs (leaveRef (refLost ⟨p.val, by omega⟩ (clrF s1 (F.TPORT_STATUS_LINK_UP p))))
    let s3 := setTport p (fun x => { x with foreign := [], masterAt := none, wait := none, t3 := none }) s2
    if flag s (F.TPORT_CFG_EN p) then decideStates (portEnter p 2 s3) else s3

def execEthernetLinkDown (p : Fin 2) (frags : Nat) (s : State) : Host.Outcome State Fault Refusal :=
  .next (ethLinkDown p frags s)

/-- The speed that a port is set to, in Mb/s (R431). -/
def portSpeed (p : Nat) (s : State) : Nat :=
  if ¬ flag s (F.TPORT_CFG_SGMII p) then 2500 else if flag s (F.TPORT_CFG_SPEED_100 p) then 100 else 1000

/-- A port begins to listen. -/
def portListen (p : Fin 2) (s : State) : State := portEnter p 4 (setTport p (fun x => { x with seen := s.beam }) s)

/-- ETHERNET_LINK_UP: the link comes up at the speed of the partner, where the port is set to it. -/
def ethLinkUp (p : Fin 2) (mbps : Nat) (s : State) : State :=
  if mbps ≠ portSpeed p s ∨ flag s (F.TPORT_STATUS_LINK_UP p) then s
  else
    let s1 := timeOutputs (setF { s with refSince := vset s.refSince ⟨p.val, by omega⟩ s.beam } (F.TPORT_STATUS_LINK_UP p))
    if flag s (F.TPORT_CFG_EN p) then portListen p s1 else s1

def execEthernetLinkUp (p : Fin 2) (mbps : Nat) (s : State) : Host.Outcome State Fault Refusal :=
  .next (ethLinkUp p mbps s)

/-! ## Acceptance and SET (R437-R439) -/

/-- PENDING as a number. -/
def pendingNs (s : State) : Int := sext 64 (rd64 s R.TMS_PENDING)

/-- Why an acceptance is refused; 0 where it is not. -/
def acceptRefusal (step : Bool) (s : State) : Nat :=
  if tmsSt s ≠ 4 then 3 else if step ∧ ¬ stepOk s then 2 else 0

/-- Show a RESULT of TMS.CMD. -/
def tmsResult (r : Nat) (s : State) : State := put s F.TMS_CMD_STATUS_RESULT r

/-- ACCEPT_STEP and ACCEPT_SLEW by register. -/
def acceptCmd (step : Bool) (s : State) : State :=
  let r := acceptRefusal step s
  if r = 0 then tmsResult 1 (setTmsAcc (s.tmsAcc ++ [(step, pendingNs s, none)]) s) else tmsResult r s

def execAcceptStep (sec : Bool) (s : State) : Host.Outcome State Fault Refusal :=
  .next (hostWrite sec R.TMS_CMD (acceptCmd true) s)

def execAcceptSlew (sec : Bool) (s : State) : Host.Outcome State Fault Refusal :=
  .next (hostWrite sec R.TMS_CMD (acceptCmd false) s)

/-- Why a SET is refused; 0 where it is not (R438). -/
def setRefusal (v : Nat) (s : State) : Nat :=
  if ¬ stepOk s then 2 else if portSt 0 s = 9 ∨ portSt 1 s = 9 then 4 else if v % 4000 ≠ 0 then 5
  else if s.tmsSet.isSome then 6 else 0

/-- SET by register. -/
def setCmd (s : State) : State :=
  let v := rd64 s R.TMS_SET_VALUE
  let r := setRefusal v s
  if r = 0 then tmsResult 1 (setTmsSet (some (v, s.beam, none)) s) else tmsResult r s

def execSet (sec : Bool) (s : State) : Host.Outcome State Fault Refusal := .next (hostWrite sec R.TMS_CMD setCmd s)

/-- TIME_ACCEPT. -/
def opTimeAccept (c : Fin 256) (d : Desc) (s : State) : State :=
  if d.addr ≠ 0 ∨ d.len ≠ 0 ∨ 2 ≤ d.at 20 1 ∨ d.at 21 43 ≠ 0 then formatZero c d.seq s
  else
    let step := d.at 20 1 == 0
    let r := acceptRefusal step s
    if r = 0 then tmsResult 1 (setTmsAcc (s.tmsAcc ++ [(step, pendingNs s, some (c.val, d.seq))]) s)
    else complete c d.seq stINTERLOCK none none false (tmsResult r s)

/-- Run a time descriptor under the world of TMS. -/
def withTime (c : Fin 256) (op : Nat) (k : Desc → State → State) (s : State) : State :=
  withDesc c op (fun d => blockCheck c d.seq 6 0x60000 (k d)) s

def execTimeAccept (c : Fin 256) (s : State) : Host.Outcome State Fault Refusal := .next (withTime c 0x90 (opTimeAccept c) s)

/-- TIME_SET. -/
def opTimeSet (c : Fin 256) (d : Desc) (s : State) : State :=
  if d.addr ≠ 0 ∨ d.len ≠ 0 ∨ d.at 20 4 ≠ 0 ∨ d.at 32 32 ≠ 0 then formatZero c d.seq s
  else
    let r := setRefusal (d.at 24 8) s
    if r = 0 then tmsResult 1 (setTmsSet (some (d.at 24 8, s.beam, some (c.val, d.seq))) s)
    else complete c d.seq stINTERLOCK none none false (tmsResult r s)

def execTimeSet (c : Fin 256) (s : State) : Host.Outcome State Fault Refusal := .next (withTime c 0x91 (opTimeSet c) s)

/-- TIME_READ. -/
def opTimeRead (c : Fin 256) (d : Desc) (s : State) : State :=
  if d.addr ≠ 0 ∨ d.len ≠ 0 ∨ d.at 20 44 ≠ 0 then formatZero c d.seq s
  else complete c d.seq stOK (some (rd64 s R.TMS_OFFSET)) (some (rdN s R.TMS_STATUS)) false s

def execTimeRead (c : Fin 256) (s : State) : Host.Outcome State Fault Refusal := .next (withTime c 0x92 (opTimeRead c) s)

/-! ## A tick (R440) -/

/-- The steering that the servo and the compensation of R421 ask for, in ppb, within MAX_ADJ; a slew takes all of it (R428,
R437). -/
def steerGoal (s : State) : Int :=
  let m : Int := get s F.TMS_SERVO_LIM_MAX_ADJ * 1000
  let servo : Int := if tmsSt s = 5 then (if s.slewVal < 0 then m else -m) else sext 32 (rdN s R.TMS_FREQ_ADJ)
  clampI (-m) m (servo + (if rootSrc s = 3 then s.xoPpb else 0))

/-- The steering moves by at most PULL_RATE ppm in a ms (R428). -/
def steerTick (dt : Nat) (s : State) : State :=
  let most : Int := get s F.CPM_PLL_CFG_PULL_RATE * dt
  { s with steer := s.steer + clampI (-most) most (1000 * steerGoal s - s.steer) }

/-- A slew goes on at MAX_ADJ as it stands (R437). -/
def slewTick (dt : Nat) (s : State) : State :=
  if tmsSt s = 5 then { s with slewMoved := s.slewMoved + dt * get s F.TMS_SERVO_LIM_MAX_ADJ } else s

/-- What a tick does to time: the steering and a slew go on, acceptances act, a completed slew ends, seconds of HOLDOVER count. -/
def timeTick (dt : Nat) (s : State) : State :=
  let s1 := slewTick dt (steerTick dt (if tmsSt s = 3 then lifeTime s (lifeNo 16 4 0) dt else s))
  timePins (forAll 2 preMasterEnd (slewComplete (acceptStep s1)))

/-! ## Writes (R441) -/

/-- The register of a TIME_CONFIG_WRITE: the TMS registers, then PORT_CFG, RX_LAT, TX_LAT and ASYM of each port. -/
def timeReg (r : Fin 15) : Nat :=
  match r with
  | 0 => R.TMS_CFG | 1 => R.TMS_SERVO | 2 => R.TMS_SERVO_LIM | 3 => R.TMS_JUMP | 4 => R.TMS_HOLD_CFG
  | 5 => R.TMS_SET_VALUE | 6 => R.TMS_OUT_CFG
  | 7 => R.TPORT_CFG 0 | 8 => R.TPORT_RX_LAT 0 | 9 => R.TPORT_TX_LAT 0 | 10 => R.TPORT_ASYM 0
  | 11 => R.TPORT_CFG 1 | 12 => R.TPORT_RX_LAT 1 | 13 => R.TPORT_TX_LAT 1 | 14 => R.TPORT_ASYM 1

/-- PORT_CFG is in range, and beside EN nothing changes while EN = 1. -/
def portCfgOk (old n : Nat) : Bool :=
  let a := sext 4 (bits n 8 4); let b := sext 4 (bits n 12 4); let c := sext 4 (bits n 16 4)
  decide (-7 ≤ a) && decide (a ≤ 1) && decide (-3 ≤ b) && decide (b ≤ 4) && decide (-7 ≤ c) && decide (c ≤ 4) &&
    (!(bit old 0) || old / 2 == n / 2)

/-- A value of a TMS register is accepted. -/
def timeOk (r : Fin 15) (n : Nat) (s : State) : Bool :=
  let lo := bits n 0 16; let hi := n / 2 ^ 16
  match r.val with
  | 0 => decide (bits n 0 8 ≤ 127)
  | 2 => decide (1 ≤ lo) && decide (lo ≤ 500) && decide (1 ≤ hi)
  | 3 => decide (100 ≤ n) && decide (n ≤ 1000000000)
  | 4 => decide (2 ≤ bits n 0 4) && decide (1 ≤ hi)
  | 6 => decide (1 ≤ bits n 8 8)
  | 7 => portCfgOk (rdN s (R.TPORT_CFG 0)) n
  | 11 => portCfgOk (rdN s (R.TPORT_CFG 1)) n
  | _ => true

/-- A port that is enabled listens, or is FAULTY while its link is down; a port that is disabled is DISABLED, and the other
one decides again (R431). -/
def portSwitch (p : Fin 2) (s : State) : State :=
  if flag s (F.TPORT_CFG_EN p) then (if flag s (F.TPORT_STATUS_LINK_UP p) then portListen p s else portEnter p 2 s)
  else decideStates (portEnter p 3 (setTport p (fun _ => TPort.init) s))

/-- TIME_CONFIG_WRITE. -/
def timeConfigWrite (sec : Bool) (r : Fin 15) (w : Wr64) (s : State) : State :=
  let o := timeReg r
  if r = 5 then hostWrite sec o (withWide o false w (fun v s => wr64 s o v)) s
  else cfgWrite sec o (wrWord w) (timeOk r) (fun s => setF s F.TMS_FLAGS_CFG_REFUSED) (fun n s =>
    let s1 := wrN s o n
    if r = 7 ∧ bit n 0 ≠ bit (rdN s o) 0 then portSwitch 0 s1
    else if r = 11 ∧ bit n 0 ≠ bit (rdN s o) 0 then portSwitch 1 s1
    else if r = 6 then timeOutputs s1
    else s1) s

def execTimeConfigWrite (sec : Bool) (r : Fin 15) (w : Wr64) (s : State) : Host.Outcome State Fault Refusal :=
  .next (timeConfigWrite sec r w s)

end Machine
end Sys2Proof
end

