-- ==== Sys2Proof/Machine/Reset.lean ====
section
/-!
DEFINITION. The events of R68 and the expiry of the heartbeat (R69, R101), the resets of R10, R413, R414 and R530, and the
start-up of R512-R514 with the lifetime image (R500) and the migration of settings (R521).
-/
namespace Sys2Proof
namespace Machine

/-! ## Heartbeat expiry (R101) -/

/-- An expiry outside the tick: the stalls and the axes follow (R69, R101). -/
def heartbeatLost (s : State) : State := forAll 8 (fun a s => axAsk a (fun q => { q with hb := true }) s) (heartbeatExpire s)

/-- HEARTBEAT_EXPIRED: PERIOD seconds have passed since the last restart; the axes pause at this tick. -/
def heartbeatExpired (s : State) : State :=
  if heartbeatDue s then
    forAll 8 (fun a s => setAxis a (fun x => { x with due := { x.due with hb := true } }) s) (heartbeatExpire s)
  else s

def execHeartbeatExpired (s : State) : Host.Outcome State Fault Refusal := .next (heartbeatExpired s)

/-! ## Events of R68 -/

/-- A descriptor that R68 discards: accepted, and neither started nor completed. -/
def Desc.unexecuted (d : Desc) : Bool := d.compl.isNone && !d.dup && (!d.started || d.loadWaits)

/-- A descriptor that R68 lets run: started and not completed. -/
def Desc.running (d : Desc) : Bool := d.compl.isNone && !d.dup && d.started && !d.loadWaits

/-- One context becomes DISABLED (R68). -/
def Ctx.cut (now : Nat) (x : Ctx) : Ctx :=
  { x with
    st := .disabled, stopCause := 0, irqN := 0, bpWait := 0, bpTold := false, fetched := []
    orphans := x.orphans ++ x.fetched.filter Desc.running
    hist := (x.fetched.filter Desc.unexecuted).foldl (fun h d => settleHist d.seq ⟨stABORTED, 0, 0, now, false⟩ h) x.hist }

/-- Contexts 1 to 255 become DISABLED. -/
def cutContexts (s : State) : State :=
  forAll 256 (fun c s => if c.val = 0 then s else setCtx c (Ctx.cut s.now) s) s

/-- A DISABLE in progress ends with its context. -/
def cutCommand (s : State) : State :=
  match s.hifCmd with
  | some c => if c = 0 then s else clrF (cmdStatus c 2 0 { s with hifCmd := none }) F.HIF_CTX_CMD_STATUS_BUSY
  | none => s

/-- The MSI-X table and its pending bits return to their reset state (R58, R68). -/
def msixReset (s : State) : State :=
  { s with regs := s.regs.filter fun p => !(decide (0x18000 ≤ p.1) && decide (p.1 < 0x18400)) &&
      !(decide (R.HIF_MSIX_PBA ≤ p.1) && decide (p.1 < R.HIF_MSIX_PBA + 8)) }

/-- An event of R68: the host interface, and the heartbeat as R69 says. -/
def hostReset (s : State) : State :=
  let s1 := msixReset (cutCommand (cutContexts s))
  let s2 := put (wrN s1 R.HIF_VERSION_OFFER 0) F.HIF_VERSION_AGREED_AGREED 0
  let s3 := if flag s2 F.HIF_MBOX_STATUS_BUSY then { s2 with mboxDrop := true } else s2
  heartbeatLost (raise 58 (lifeAdd (setF s3 F.HIF_ERR_STATUS_FLR_SEEN) (lifeNo 2 2 0) 1))

/-- The data link goes down (R68). -/
def linkDown (s : State) : State :=
  if flag s F.HIF_STATUS_LINK_UP then
    let s1 := clrF (put (put (clrF s F.HIF_STATUS_LINK_UP) F.HIF_STATUS_LINK_SPEED 0) F.HIF_STATUS_LINK_WIDTH 0)
      F.HIF_STATUS_IN_L1
    raise 49 (lifeAdd s1 (lifeNo 2 0 0) 1)
  else s

def execFunctionLevelReset (s : State) : Host.Outcome State Fault Refusal := .next (hostReset s)

/-- D3HOT_ENTRY: the effect of a function-level reset; the link stays up. -/
def d3hotEntry (s : State) : State := hostReset s

def execD3hotEntry (s : State) : Host.Outcome State Fault Refusal := .next (d3hotEntry s)

/-- HOT_RESET and link-disable. -/
def hotReset (s : State) : State := linkDown (hostReset s)

def execHotReset (s : State) : Host.Outcome State Fault Refusal := .next (hotReset s)

/-- DATA_LINK_DOWN: loss of the data link. -/
def dataLinkDown (s : State) : State := linkDown (hostReset s)

def execDataLinkDown (s : State) : Host.Outcome State Fault Refusal := .next (dataLinkDown s)

/-- PERST_ASSERT: PERST_N resets the endpoint; it never resets the device (R530). -/
def perstAssert (s : State) : State := linkDown (hostReset s)

def execPerstAssert (s : State) : Host.Outcome State Fault Refusal := .next (perstAssert s)

/-! ## Resets (R10, R413, R530) -/

/-- A register keeps its value. -/
def keepReg (old : State) (o : Nat) (s : State) : State := wrN s o (rdN old o)

/-- A field keeps its value. -/
def keepField (old : State) (f : Fld) (s : State) : State := put s f (get old f)

/-- What no reset reaches: the queue, the outputs, the free values, the NOR partitions, the fuses, keys and serials. -/
def keptState (s : State) : State :=
  { State.reset with
    pending := s.pending, out := s.out, fresh := s.fresh
    recNor := s.recNor, recChain := s.recChain
    lifeNor := s.lifeNor, lifeSaves := s.lifeSaves, pfailSaved := s.pfailSaved
    imgs := s.imgs, rollMin := s.rollMin, imgCopy := s.imgCopy, boardNew := s.boardNew
    keys := s.keys, serials := s.serials, builderHash := s.builderHash, signKey := s.signKey, secSet := s.secSet }

/-- The fields that fuses and the key store hold. The random source passes its tests again after a reset (notes/assumptions/8). -/
def keptFuses (old s : State) : State :=
  [F.TCK_STATUS_LIFECYCLE, F.TCK_STATUS_DEBUG_OPEN, F.TCK_CFG_UART_RECOVERY].foldl
    (fun s f => keepField old f s)
    ([R.TCK_KEY_STATUS, R.TCK_DEVICE_ID, R.TCK_DEVICE_ID + 4].foldl (fun s o => keepReg old o s) s)

/-- The attempts of a TRIAL slot are counted through resets (R513, notes/assumptions/158). -/
def keptTries (old s : State) : State :=
  if (trialSlot old).isSome then keepField old F.BOOT_STATUS_BOOT_TRIES s else s

/-- The thermal latch and its cause are kept (R420); after a shutdown the units stay gated, as their Reset values show them
(R424). -/
def keptThermal (old s : State) : State :=
  let s1 := keepField old F.THM_STATUS_SD_CAUSE s
  if get old F.THM_STATUS_STATE = 3 then
    let s2 := put (put s1 F.THM_STATUS_STATE 3) F.YRD_LSAFE_STATUS_SOURCES (2 ^ srcRESET + 2 ^ srcTHERMAL)
    { s2 with sdAt := some 0, sdGated := old.sdGated }
  else s1

/-- A crystal that is qualified stays so, and start-up goes on from step 4 of R412 (R413). -/
def keptCrystal (old s : State) : State :=
  let s1 := keepField old F.CPM_STATUS_AO_XTAL s
  if bit (get old F.CPM_STATUS_QUALIFIED) 3 then clrF (put s1 F.CPM_STATUS_QUALIFIED 8) F.CPM_STATUS_XO_STARTING else s1

/-- The bays start anew and keep the heads they have met (R366). -/
def freshBays (old s : State) : State :=
  { s with bays := Vector.ofFn fun (b : Fin 12) => { Bay.init with ids := (bay old b).ids } }

/-- The always-on island keeps the lifetime records and the staged recorder records (R411, R506). -/
def keptIsland (old s : State) : State :=
  [R.DGN_OP_SECONDS, R.DGN_POWER_CYCLES, R.DGN_LAST_SAVE, R.ERW_HEAD, R.ERW_TAIL, R.ERW_OVERWRITTEN].foldl
    (fun s o => keepReg old o s)
    (freshBays old { s with
      life := old.life, lifeRem := old.lifeRem, recStaged := old.recStaged, recLost := old.recLost
      saveLast := old.saveLast, coldStart := old.coldStart, aoTime := old.aoTime + old.beam })

/-- The timing sets are kept (R397). -/
def keptTsets (old s : State) : State :=
  (List.range 16).foldl (fun s i => keepReg old (R.DMC_TSET 0 0 + 4 * i) s) s

/-- The inhibit source RESET that every device reset makes active counts (R157, R165). -/
def countReset (s : State) : State := lifeAdd s (lifeNo 5 5 srcRESET) 1

/-- The pins of an axis in a reset: STEP, DIR and AEN low (R531). -/
def resetAxisPins (old : State) (a : Fin 8) (s : State) : State :=
  let s1 := tellAxisPins a s.now old s
  if flag old (F.AXIS_CFG_STEP_POL a) then emit (.axisPin a 0 s.now false) s1 else s1

/-- The pins of a port and a bay in a reset: CK high, and electrical idle on the lanes (R531). -/
def resetPortPins (old : State) (p : Fin 8) (s : State) : State :=
  if (port old p).frame.isSome then emit (.feedbackHigh p s.now) s else s

def resetBayPins (old : State) (b : Fin 12) (s : State) : State := if lnkStage b old = 0 then s else showStage b 0 s

/-- The single pins in a reset: PPS_OUT and RCLK_OUT low, THERM_N released where the latch is (R531). -/
def resetSinglePins (old s : State) : State :=
  let s1 := if old.ppsUp then emit (.pin 0 s.now false) s else s
  let s2 := if old.rclkSrc = 0 then s1 else emit (.rclkOut 0) s1
  if get old F.THM_STATUS_STATE = 3 ∧ get s2 F.THM_STATUS_STATE ≠ 3 then emit (.pin 1 s2.now true) s2 else s2

/-- The pins take their reset states (R531); the gate drivers are high-impedance (R162). -/
def resetPins (old s : State) : State :=
  resetSinglePins old (forAll 12 (resetBayPins old) (forAll 8 (resetPortPins old) (forAll 8 (resetAxisPins old) (tellPairs old s))))

/-- A device reset (R10, R413): everything but what the always-on island, NOR and the fuses hold. A link that was up goes down
with it, which is not counted as a link-down event: neither R73 nor R68 nor R413 says that it is one. DESIGN CHOICE
(notes/assumptions/212). -/
def deviceReset (s : State) : State :=
  resetPins s (countReset (keptTsets s (keptIsland s (keptCrystal s (keptThermal s (keptTries s (keptFuses s (keptState s))))))))

/-- DEVICE_RESET: RESET_N low. -/
def execDeviceReset (s : State) : Host.Outcome State Fault Refusal := .next (deviceReset s)

/-- The recorder's head and tail as the partition gives them, after the island's own copy is lost (R492). -/
def recRecover (s : State) : State :=
  match s.recNor.head?, s.recNor.getLast? with
  | some a, some z => wrN (wrN s R.ERW_TAIL a.seq) R.ERW_HEAD (z.seq + 1)
  | _, _ => s

/-- A power-on reset: the always-on island is lost too (R10, R530). -/
def powerOnReset (s : State) : State := resetPins s (recRecover (keptTries s (keptFuses s (keptState s))))

/-- POWER_ON_RESET: PORST_N low, or the always-on rail below its threshold. -/
def execPowerOnReset (s : State) : Host.Outcome State Fault Refusal := .next (powerOnReset s)

/-- RAIL_RESET (R414): rail 2 is the always-on rail. -/
def railReset (rail : Fin 5) (s : State) : State := if rail = 2 then powerOnReset s else deviceReset s

def execRailReset (rail : Fin 5) (s : State) : Host.Outcome State Fault Refusal := .next (railReset rail s)

/-- RECOVERY_REBOOT: BOOT.RCV_CMD.REBOOT restarts the device from step 1 of R512, in recovery mode only (R515). -/
def recoveryReboot (s : State) : State := if get s F.BOOT_STATUS_PHASE = 5 then deviceReset s else bootRefused s

def execRecoveryReboot (sec : Bool) (s : State) : Host.Outcome State Fault Refusal :=
  .next (hostWrite sec R.BOOT_RCV_CMD recoveryReboot s)

/-! ## Start-up (R512, R513) -/

/-- Step 2: a copy whose marker is set is completed first (R519). -/
def bootCopy (s : State) : State :=
  if s.imgCopy.isSome then lifeAdd (setF (inPlaceCopyDone s) F.BOOT_STATUS_COPY_RESUMED) (lifeNo 21 4 0) 1 else s

/-- An image passes the checks of R512. -/
def bootGood (i : Fin 7) (k : Fin 2) (type : Nat) (b : Boot) (s : State) : Bool :=
  let x := img i k s
  headerGood type x.bytes && b.good.contains (i.val, k.val) && rollbackGood i x s

/-- The slot of MGMT in a state. -/
def mgmtSlot (st : Nat) (s : State) : Option (Fin 2) := (fins 2).find? fun (k : Fin 2) => (img 0 k s).st == st

/-- The MGMT slot that starts, TRIAL before ACTIVE before VERIFIED, with the slots that fail on the way (R513). -/
def mgmtPick (b : Boot) (fuel : Nat) (s : State) : Option (Fin 2) × State :=
  match fuel with
  | 0 => (none, s)
  | n + 1 =>
    match [4, 3, 2].findSome? fun st => mgmtSlot st s with
    | none => (none, s)
    | some k =>
      if bootGood 0 k 1 b s then (some k, s)
      else mgmtPick b n (authFail 0 (setImg 0 k (fun x => { x with st := 5 }) s))

/-- A start that finds a TRIAL slot counts; when TRIES attempts have failed, the slot becomes INVALID (R513). -/
def trialAttempt (s : State) : State :=
  match trialSlot s with
  | some k =>
    let s1 := addSatF s F.BOOT_STATUS_BOOT_TRIES 1
    if get s1 F.BOOT_TRIAL_CFG_TRIES ≤ get s1 F.BOOT_STATUS_BOOT_TRIES then
      setImg 0 k (fun x => { x with st := 5 }) s1
    else s1
  | none => s

/-- A slot that starts because the TRIAL or the ACTIVE one is given up is the fallback, and the slot in use (R513). -/
def mgmtFallback (k : Fin 2) (hadTrial : Bool) (s : State) : State :=
  if (img 0 k s).st = 2 ∨ (hadTrial ∧ (img 0 k s).st = 3) then
    setF (lifeAdd (setImg 0 k (fun x => { x with st := 3 }) s) (lifeNo 21 1 0) 1) F.BOOT_FLAGS_FALLBACK
  else s

/-- The BOARD_SETTINGS slot in use, after a new blob has been taken up (R521). -/
def boardTake (s : State) : State :=
  if s.boardNew ∧ (img 6 (spareSlot 6 s) s).st = 2 then { swapSlots 6 s with boardNew := false } else s

/-- The bits of DMC.GEOMETRY that carry a field; the others are reserved and read 0 (R7). -/
def geometryMask : Nat := 0xFFFF0033

/-- The board settings (R35, R397, R412, R512). -/
def boardLoad (b : Boot) (s : State) : State :=
  match b.board with
  | some (vid, sid, refCfg, geometry, tset) =>
    let s1 := wrN (wrN { s with subIds := (vid % 2 ^ 16, sid % 2 ^ 16) } R.CPM_REF_CFG (refCfg &&& rwMask R.CPM_REF_CFG))
      R.DMC_GEOMETRY (geometry &&& geometryMask)
    tset.zipIdx.foldl (fun s p => if p.2 < 16 then wrN s (R.DMC_TSET 0 0 + 4 * p.2) (p.1 &&& tsetMask p.2) else s) s1
  | none => s

/-- The settings versions as `BOOT.SETTINGS` shows them: the blob's, and the range of the running MGMT image (R521). -/
def settingsShow (k : Fin 2) (s : State) : State :=
  let v := (img 6 (otherSlot (spareSlot 6 s)) s).smin
  put (put (put s F.BOOT_SETTINGS_VERSION v) F.BOOT_SETTINGS_MIN (img 0 k s).smin) F.BOOT_SETTINGS_MAX (img 0 k s).smax

/-- A blob at another version: bytes 16-17 and the CRC (R510, R521). -/
def blobAt (v : Nat) (l : List Byte) : List Byte :=
  let body := l.take 16 ++ leBytes 2 v ++ (l.take (l.length - 4)).drop 18
  body ++ leBytes 4 (crc32c body)

/-- Migrate the settings to SETTINGS_MAX (R521); without a stored blob there is nothing to migrate. -/
def settingsMigrate (ok : Bool) (s : State) : State :=
  let hi := get s F.BOOT_SETTINGS_MAX
  if hi ≤ get s F.BOOT_SETTINGS_VERSION ∨ (img 6 (otherSlot (spareSlot 6 s)) s).st ≠ 3 then s
  else if ¬ ok then lifeAdd (setF s F.BOOT_FLAGS_MIGRATE_FAILED) (lifeNo 21 5 1) 1
  else
    let k := spareSlot 6 s
    let l := blobAt hi (img 6 (otherSlot k) s).bytes
    let s1 := swapSlots 6 (setImg 6 k (fun _ => Img.header { Img.init with bytes := l, st := 2 }) s)
    let s2 := setF (put (setF { s1 with secSet := s1.secSet.map fun x => { x with version := hi } }
      F.BOOT_SETTINGS_OLD_KEPT) F.BOOT_SETTINGS_VERSION hi) F.BOOT_FLAGS_MIGRATED
    lifeAdd s2 (lifeNo 21 5 0) 1

/-- The counters of an image, with what has been counted since the power-on added. -/
def lifeMerge (image counted : List (Nat × Nat)) : List (Nat × Nat) :=
  counted.foldl (fun l p => cellPut l p.1 (satN (2 ^ 64 - 1) ((cellGet l p.1).getD 0 + p.2)))
    (image.filter fun p => 0x100000 ≤ p.1 && p.1 / 0x1000 != lifeNo 13 16 0 / 0x1000)

/-- The lifetime image that loads (R500): copy 0 is the newest one written. Counting continues from it, also of what the start has
counted before it loads, and with the heads that the bays have met (R382). -/
def lifeRestore (copy : Nat) (s : State) : State :=
  let image := s.lifeNor.getD copy []
  let op := (cellGet image (lifeNo 0 0 0)).getD 0
  let heads := fun (b : Nat) => (List.range 8).filterMap fun k => cellGet image (lifeNo 13 16 (8 * b + k))
  let s1 := { s with
    life := lifeMerge image s.life, saveLast := op
    bays := Vector.ofFn fun (b : Fin 12) => { s.bays[b.val] with ids := heads b } }
  let s2 := wrN (wrN (wrN s1 R.DGN_OP_SECONDS op) R.DGN_POWER_CYCLES ((cellGet image (lifeNo 0 1 0)).getD 0)) R.DGN_LAST_SAVE op
  if copy = 0 ∧ ¬ s.lifeNor.isEmpty then s2 else recNew 6 0xFFFF [] (raise 221 (setF s2 F.DGN_FLAGS_LIFETIME_RESTORED))

/-- What a start after a power-on does with the lifetime image (R500). -/
def coldBoot (b : Boot) (s : State) : State :=
  if s.coldStart then
    let s1 := countReset (addW (lifeRestore b.lifeCopy s) R.DGN_POWER_CYCLES 1)
    { recNew 2 0xFFFF [b2n (!s.pfailSaved)] s1 with pfailSaved := false, coldStart := false }
  else s

/-- LP5 is trained where the board has it (R394, R397). -/
def bootTrain (b : Boot) (s : State) : State :=
  if rdN s R.DMC_GEOMETRY = 0 then s else trainingDone b.trained b.training (beginTraining s)

/-- Steps 5 to 7. -/
def bootRest (b : Boot) (k : Fin 2) (s : State) : State :=
  if ¬ bootGood 4 0 0x10 b s then enterRecovery 4 (authFail 4 s)
  else
    let s1 := put (settingsShow k (revertRoot (boardLoad b (boardTake s)))) F.BOOT_STATUS_PHASE 3
    let s2 := settingsMigrate b.migrateOk (coldBoot b (bootTrain b s1))
    let s3 := put (setF (trialPassed { s2 with mgmtDown := none }) F.HIF_STATUS_READY) F.BOOT_STATUS_PHASE 4
    evalUpdate (inhibitOff srcRESET s3)

/-- Step 4: the management cluster. One that does not come up waits for READY_TIMEOUT; its start is counted once. -/
def bootMgmt (b : Boot) (hadTrial counts : Bool) (s : State) : State :=
  match mgmtPick b 3 s with
  | (none, s1) => enterRecovery 2 s1
  | (some k, s1) =>
    let s2 := put (lifeAdd (mgmtFallback k hadTrial s1) (lifeNo 21 0 k) (b2n counts)) F.BOOT_STATUS_PHASE 2
    if b.mgmtUp then bootRest b k s2 else { s2 with mgmtDown := some s2.beam }

/-- Steps 1 to 3: RECOVERY_N, the copy, and TCK. -/
def bootFirst (b : Boot) (s : State) : State :=
  if b.recoveryLow then enterRecovery 1 s
  else
    let s1 := bootCopy s
    if bootGood 5 0 0x11 b s1 then
      bootMgmt b (trialSlot s1).isSome true (trialAttempt (tackStart (put s1 F.BOOT_STATUS_PHASE 1)))
    else enterRecovery 3 (authFail 5 s1)

/-- START_UP. A management cluster that did not come up starts again once READY_TIMEOUT has passed. -/
def startUp (b : Boot) (s : State) : State :=
  if get s F.BOOT_STATUS_PHASE = 0 then bootFirst b s
  else if get s F.BOOT_STATUS_PHASE = 2 ∧ s.mgmtDown.isSome then
    bootMgmt b (trialSlot s).isSome false { s with mgmtDown := none }
  else s

def execStartUp (b : Boot) (s : State) : Host.Outcome State Fault Refusal := .next (startUp b s)

end Machine
end Sys2Proof
end

