-- ==== Sys2Proof/Machine/Shown.lean ====
section
/-!
DEFINITION. What a read of a register shows where the value follows from the state of the units: the windows that a select
register moves (R180, R225, R391, R448, R511), the states of many units in one word (R23, R488), and the counts and times of
the chapters. A stored register shows its word.
-/
namespace Sys2Proof
namespace Machine

/-! ## Chapters 01 to 08 -/

/-- `YRD.STALL_SUMMARY[t]` (R23). -/
def stallSummary (t : Nat) (s : State) : Nat :=
  ((List.range 8).map fun i => 2 ^ (4 * i) * stSt (8 * t + i) s).sum

/-- `HIF.CTX[c].STATUS` (R40, R59). -/
def ctxStatus (c : Fin 256) (s : State) : Nat :=
  let x := ctx s c
  let st := match x.st with | .disabled => 0 | .active => 1 | .stopped => 2 | .draining => 3
  st + 2 ^ 4 * x.stopCause + 2 ^ 8 * x.fetched.length + 2 ^ 16 * bpNow c s

/-- A word of a context's registers that follows from its state. -/
def ctxWord (c : Fin 256) (rel : Nat) (s : State) : Option Nat :=
  let x := ctx s c
  match rel with
  | 0x04 => some (ctxStatus c s) | 0x18 => some x.sqHead | 0x1C => some x.sqTail | 0x20 => some x.cqTail
  | 0x24 => some x.cqHead | _ => none

/-- A seam table entry as `YRD.MSH_SEAM_INFO` shows it (R180). -/
def seamInfo (x : Seam) : Nat :=
  x.id + 2 ^ 32 * x.st + 2 ^ 40 * x.owner + 2 ^ 48 * x.other + 2 ^ 54 * b2n x.oReg + 2 ^ 55 * b2n x.xReg +
    2 ^ 56 * satN 255 x.moves

/-- `GTE.STATUS` (R225, R229). -/
def gteStatus (s : State) : Nat :=
  let l := s.txns.toList
  (l.filter Txn.active).length + 2 ^ 8 * (l.map fun t => t.acts.length).sum +
    2 ^ 20 * (l.filter fun t => t.st == 3).length

/-- The selected transaction. -/
def selTxn (s : State) : Txn := txn s (Fin.ofNat 64 (rdN s R.GTE_TXN_SEL))

/-- The selected seam entry; larger values act as 191. -/
def selSeam (s : State) : Seam :=
  let i := Fin.ofNat 192 (min 191 (rdN s R.YRD_MSH_SEAM_SEL % 256))
  s.seams[i.val]

/-- An arm waits for its stroke: behind a PROGRAM_END, among the parsed commands, or for a stroke whose output has not begun. -/
def Stall.cmpArmed (x : Stall) : Bool :=
  let (_, t, _) := walk x.plan.k x.plan.sett (x.plan.gx, x.plan.gy, x.plan.gf) [] (x.items.drop (x.plan.k - x.ibase))
  (x.kept.any fun t => t.arm.isSome) || t.arm.isSome || (x.plan.nxt.any fun n => n.st.arm.isSome) ||
    x.buf.any fun e => e.first.any fun st => st.arm.isSome

/-- An armed stroke is being output: the entry of this tick lies in its commit span. -/
def Stall.cmpActive (x : Stall) : Bool :=
  x.cur.any fun e => e.after.live.any fun st => st.arm.isSome && decide (e.after.n ≤ st.spanEnd)

/-- `OUT_STATUS` (R145, R149, R153, R158). The pin follows the balls unless it was reported wrong. -/
def outStatus (g : Fin 48) (s : State) : Nat :=
  let x := stall s g
  let on := ballGate g s
  let drive := flag s (F.STALL_GATE_CFG_DRIVE g)
  setBits (rdN s (R.STALL_OUT_STATUS g)) 0 16
    (b2n on + 2 * b2n s.forced + 4 * b2n (drive && on != x.pinBad) + 8 * b2n x.cmpArmed + 16 * b2n x.cmpActive)

/-- A word of a stall's registers that follows from its state. ISLAND_ELAPSED keeps what it last held where no island is in
progress, also after an abort ended one, and the time of SYNC reads 0 outside SYNC_WAIT; R89 and R90 say neither. DESIGN CHOICE
(notes/assumptions/188). -/
def stallWord (g : Fin 48) (o : Nat) (s : State) : Option Nat :=
  if o = R.STALL_OUT_STATUS g then some (outStatus g s)
  else if o = R.STALL_ISLAND_ELAPSED g then
    some (if flag s (F.STALL_STATE_IN_ISLAND g) then (s.beam - (stall s g).islStart) / 1000 else rdN s o)
  else if o = R.STALL_SYNC g then
    some (setBits (rdN s o) 8 24
      (if stSt g s = ssSYNC then satN 0xFFFFFF ((s.beam - (stall s g).syncSince) / 1000000) else 0))
  else none

/-! ## Chapters 14 to 21 -/

/-- The pending sources routed to a vector, ascending (R488). -/
def vecSources (v : Nat) (s : State) : List Nat :=
  (List.range 512).filter fun n =>
    flag s (pendBit n) && get s (F.EVC_SRC_ROUTE n) == 1 && get s (F.EVC_SRC_VECTOR n) == v

/-- `EVC.VEC[v]`. -/
def vecWord (v : Nat) (s : State) : Nat :=
  let l := vecSources v s
  l.head?.getD 0 + 2 ^ 15 * b2n (!l.isEmpty) + 2 ^ 16 * l.length

/-- CURSOR names a record that is held (R495). -/
def cursorValid (s : State) : Bool :=
  let c := rdN s R.ERW_CURSOR
  decide ((c + 2 ^ 32 - rdN s R.ERW_TAIL) % 2 ^ 32 < 2 ^ 31) &&
    decide (0 < (rdN s R.ERW_HEAD + 2 ^ 32 - c) % 2 ^ 32) && decide ((rdN s R.ERW_HEAD + 2 ^ 32 - c) % 2 ^ 32 < 2 ^ 31)

/-- `ERW.STATUS` (R492, R495). -/
def erwStatus (s : State) : Nat :=
  get s F.ERW_STATUS_READY + 2 * b2n (cursorValid s) + 4 * b2n (recSealed s) +
    8 * b2n (recSealed s && decide (65536 ≤ recHeld s)) + 2 ^ 16 * s.recStaged.length

/-- The selected image slot (R511). -/
def selImg (s : State) : Img :=
  match imgIdx (get s F.BOOT_IMG_SEL_TYPE) with
  | some i => img i (if flag s F.BOOT_IMG_SEL_SLOT then 1 else 0) s
  | none => Img.init

/-- `BOOT.IMG_INFO`. -/
def imgInfo (x : Img) : Nat :=
  x.version % 2 ^ 32 + 2 ^ 32 * x.st + 2 ^ 35 * b2n x.evaluated + 2 ^ 40 * (x.rollback % 2 ^ 24)

/-- The bytes a trace ring holds (R502): an end mark takes none. -/
def ringBytes (l : List (List Nat)) : Nat := 2 * (l.map List.length).sum

/-- The selected Region Table entry (R448). -/
def selRegion (s : State) : Nat × Nat × Nat :=
  let i := Fin.ofNat 128 (rdN s R.TCK_RT_SEL)
  s.rtab[i.val]

/-- The records in a channel's ring. -/
def traceRing (c : Fin 64) (s : State) : List (List Nat) := (s.traces[c.val]).ring

/-- A word of one of two halves of a 64-bit value. -/
def half (o base v : Nat) : Nat := if o = base then v % 2 ^ 32 else v / 2 ^ 32

/-- The blocks 0x00000 to 0x12FFFF. -/
def shownSingle (o : Nat) (s : State) : Option Nat :=
  if o = R.YRD_LAYER_DEADLINE_STATUS then
    some (setBits (rdN s o) 8 24 (satN 0xFFFFFF ((s.ldSince.map fun t => (s.beam - t) / 1000000).getD (rdN s o / 256))))
  else if R.YRD_STALL_SUMMARY 0 ≤ o ∧ o < R.YRD_STALL_SUMMARY 6 then some (stallSummary ((o - R.YRD_STALL_SUMMARY 0) / 4) s)
  else if o = R.YRD_MSH_SEAM_INFO ∨ o = R.YRD_MSH_SEAM_INFO + 4 then some (half o R.YRD_MSH_SEAM_INFO (seamInfo (selSeam s)))
  else if o = R.HIF_INFLIGHT then some (unretired s)
  else if 0x11000 ≤ o ∧ o < 0x15000 then ctxWord (Fin.ofNat 256 ((o - 0x11000) / 0x40)) ((o - 0x11000) % 0x40) s
  else if o = R.GTE_STATUS then some (gteStatus s)
  else if o = R.GTE_TXN_INFO ∨ o = R.GTE_TXN_INFO + 4 then some (half o R.GTE_TXN_INFO (txnInfo (selTxn s)))
  else if o = R.GTE_TXN_TIME ∨ o = R.GTE_TXN_TIME + 4 then some (half o R.GTE_TXN_TIME (txnTime (selTxn s)))
  else if o = R.GTE_TXN_EXPIRE ∨ o = R.GTE_TXN_EXPIRE + 4 then some (half o R.GTE_TXN_EXPIRE (selTxn s).expire)
  else if R.DMC_ELOG_ENTRY 0 ≤ o ∧ o < R.DMC_ELOG_ENTRY 8 then
    some (((cellGet s.elog (get s F.DMC_ELOG_SEL_INDEX)).getD []).getD ((o - R.DMC_ELOG_ENTRY 0) / 4) 0)
  else if o = R.DMC_CH_QUEUE 0 ∨ o = R.DMC_CH_QUEUE 1 then
    some (setBits (rdN s o) 0 7 (requestsHeld (if o = R.DMC_CH_QUEUE 0 then 0 else 1) (Config.free 19 s.fresh) s))
  else if 0xC0000 ≤ o ∧ o < 0xC0200 ∧ (o = R.PORT_PHY_STATUS 0 ∨ o = R.PORT_PHY_STATUS 1 ∨ o = R.PORT_PHY_STATUS 2 ∨
      o = R.PORT_PHY_STATUS 3) then
    some (if get s F.BOOT_STATUS_PHASE = 4 then setBits (rdN s o) 0 13 (Config.free 20 s.fresh) else rdN s o)
  else if o = R.PORT_CCI_STATUS 0 ∨ o = R.PORT_CCI_STATUS 1 ∨ o = R.PORT_CCI_STATUS 2 ∨ o = R.PORT_CCI_STATUS 3 then
    some (if get s F.BOOT_STATUS_PHASE = 4 ∧ rdN s o % 2 = 0 then setBits (rdN s o) 1 1 (Config.free 22 s.fresh) else rdN s o)
  else if o = R.TCK_RT_BASE then some (selRegion s).1
  else if o = R.TCK_RT_LIMIT then some (selRegion s).2.1
  else if o = R.TCK_RT_ATTR then some (selRegion s).2.2
  else if o = R.LMP_STATUS then
    some (setBits (setBits (rdN s o) 0 4 ((List.range 4).map fun k => 2 ^ k * b2n (patRuns k s)).sum) 8 8
      ((List.range 8).map fun k => 2 ^ k * b2n (groupFailed k s)).sum)
  else if o = R.EVC_STATUS then some ((List.range 512).filter fun n => flag s (pendBit n)).length
  else if R.EVC_VEC 0 ≤ o ∧ o < R.EVC_VEC 64 then some (vecWord ((o - R.EVC_VEC 0) / 4) s)
  else if o = R.ERW_STATUS then some (erwStatus s)
  else if o = R.BOOT_IMG_INFO ∨ o = R.BOOT_IMG_INFO + 4 then some (half o R.BOOT_IMG_INFO (imgInfo (selImg s)))
  else if R.DGN_TRACE_FILL 0 ≤ o ∧ o < R.DGN_TRACE_FILL 64 ∧ (o - R.DGN_TRACE_FILL 0) % 0x10 = 0 then
    some (ringBytes (traceRing (Fin.ofNat 64 ((o - R.DGN_TRACE_FILL 0) / 0x10)) s))
  else viewWord o s

/-- The stables' blocks. -/
def shownStable (o : Nat) (s : State) : Option Nat :=
  let t := (o - 0x200000) / 0x100000
  if o % 0x100000 < 0x80000 then stallWord (Fin.ofNat 48 (8 * t + o % 0x100000 / 0x10000)) o s
  else if o = R.STB_CMP_LOCKED t then
    some ((List.range 8).map fun i => 2 ^ i * b2n (tableLocked (Fin.ofNat 48 (8 * t + i)) s)).sum
  else if o = R.STB_GRID_WIN_STATUS t then
    some (setBits (rdN s o) 16 16 ((List.range 16).map fun n => 2 ^ n * b2n (slotLocked (Fin.ofNat 6 t) n s)).sum)
  else viewWord o s

/-- The word a read of a register shows. -/
def shown (o : Nat) (s : State) : Nat :=
  ((if 0x200000 ≤ o ∧ o < 0x800000 then shownStable o s else shownSingle o s).getD (rdN s o)) % 2 ^ 32

end Machine
end Sys2Proof
end

