-- ==== Sys2Proof/Machine/Bus.lean ====
section
/-!
DEFINITION. The accesses to the set-up window that have no row of their own: writes of plain registers and of W1C bits
(R5-R8), reads with the bits they clear and the words they latch (R5, R6, R8), reads of the windows onto a loft (R129, R152,
R195), and accesses of unsupported size or alignment (R4, R7).
-/
namespace Sys2Proof
namespace Machine

/-! ## Unsupported accesses (R4, R7) -/

/-- An access of unsupported size or alignment, or between block ranges: event 48. -/
def accessRefused (o : Nat) (s : State) : State := raise 48 (setF (accessErr o 1 0 s) F.HIF_ERR_STATUS_ACCESS_ERROR)

/-- A read that is refused returns ones in every byte. -/
def readRefused (o : Nat) (wide : Bool) (s : State) : State :=
  emit (.readReply o (if wide then 2 ^ 64 - 1 else 2 ^ 32 - 1) wide) (accessRefused o s)

/-- UNSUPPORTED_ACCESS. -/
def unsupportedAccess (o : Nat) (write : Bool) (s : State) : State :=
  if write then accessRefused o s else readRefused o false s

def execUnsupportedAccess (o : Nat) (write : Bool) (s : State) : Host.Outcome State Fault Refusal :=
  .next (unsupportedAccess o write s)

/-! ## Writes (R5-R8) -/

/-- An offset within the blocks of the ring contexts: the context and the offset in its block. -/
def ctxOffset (o : Nat) : Option (Fin 256 × Nat) :=
  if 0x11000 ≤ o ∧ o < 0x15000 then some (Fin.ofNat 256 ((o - 0x11000) / 0x40), (o - 0x11000) % 0x40) else none

/-- The RW registers of the blocks below the stables that no other command writes. -/
def plainSingle (o : Nat) (s : State) : Bool :=
  [R.HIF_BP_THRESHOLD, R.YRD_LAYER_DEADLINE, R.YRD_MSH_SEAM_SEL, R.GTE_TXN_SEL, R.DMC_ELOG_SEL, R.ERW_CFG].contains o ||
    (decide (0x18000 ≤ o) && decide (o < 0x18400)) ||
    (match ctxOffset o with
      | some (c, rel) => rel == 0x2C || ([0x00, 0x08, 0x0C, 0x10, 0x14].contains rel && (ctx s c).st == .disabled)
      | none => false)

/-- A register whose RW bits an ordinary write sets, as things stand. -/
def plainWrite (o : Nat) (s : State) : Bool :=
  if 0x200000 ≤ o ∧ o < 0x800000 then
    let x := o % 0x100000
    (decide (x < 0x80000) && x % 0x10000 == 0x30) || x == 0xA0010 || (decide (0xA0040 ≤ x) && decide (x < 0xA0080))
  else plainSingle o s

/-- The W1C bits of a word. -/
def w1cMask (o : Nat) : Nat :=
  match rowAt o with
  | some (w, k) => if k = 0 then w.w1c % 2 ^ 32 else w.w1c / 2 ^ 32
  | none => 0

/-- What a write of `v` leaves of a word: RW bits take the written ones where the register is plain, a written 1 clears a
W1C bit. The pending bits of EVC have a command of their own. -/
def stored (o v : Nat) (s : State) : Nat :=
  let x := if plainWrite o s then mix (rdN s o) v (rwMask o) else rdN s o
  if R.EVC_PEND 0 ≤ o ∧ o < R.EVC_PEND 16 then x else x - (x &&& v &&& w1cMask o)

/-- Store a written word. A vector whose mask clears sends its pending message (R58). -/
def storeWord (o v : Nat) (s : State) : State :=
  let s1 := wrN s o (stored o v s)
  let k := (o - 0x18000) / 0x10
  let p : Fld := ⟨R.HIF_MSIX_PBA + 4 * (k / 32), k % 32, 1⟩
  if 0x18000 ≤ o ∧ o < 0x18400 ∧ (o - 0x18000) % 0x10 = 0x0C ∧ ¬ bit (rdN s1 o) 0 ∧ flag s1 p then
    emit (msixOut k s1) (clrF s1 p)
  else s1

/-- A write of a register of a CSI-2 port or a pipeline (R326, R327), or none. -/
def imagingWrite (sec : Bool) (o : Nat) (v : Word) (s : State) : Option State :=
  if 0xC0100 ≤ o ∧ o < 0xC0200 ∧ o % 0x40 = 0 then some (phyCfgWrite sec (Fin.ofNat 4 ((o - 0xC0100) / 0x40)) v s)
  else if 0xC0100 ≤ o ∧ o < 0xC0200 ∧ o % 0x40 = 0x10 then some (cciCfgWrite sec (Fin.ofNat 4 ((o - 0xC0100) / 0x40)) v s)
  else if o = R.PIPE_CFG 0 then some (pipeCfgWrite sec 0 v s)
  else if o = R.PIPE_CFG 1 then some (pipeCfgWrite sec 1 v s)
  else none

/-- A write of one 32-bit register: the mailbox request is closed while BUSY (R67), and the registers that only some
writes reach. -/
def writeRegister (sec : Bool) (o : Nat) (v : Word) (s : State) : State :=
  match imagingWrite sec o v s with
  | some t => t
  | none =>
  if R.HIF_MBOX_REQ 0 ≤ o ∧ o < R.HIF_MBOX_REQ 16 then
    hostWrite sec o (fun s => if flag s F.HIF_MBOX_STATUS_BUSY then mboxOverrun s else wr s o v) s
  else if o = R.YRD_LSAFE_RELEASE ∨ o = R.YRD_LSAFE_FILTER then
    secureWrite sec o (fun s => wrN s o (mix (rdN s o) v.toNat (if o = R.YRD_LSAFE_RELEASE then 0x3FF else 7))) s
  else if R.DMC_TSET 0 0 ≤ o ∧ o < R.DMC_TSET 0 0 + 0x40 then tsetWrite sec o v s
  else if o = R.TCK_CFG then hostWrite sec o (fun s => evalUpdate (setSeal (bit v.toNat 0) s)) s
  else hostWrite sec o (storeWord o v.toNat) s

/-- A write that reaches a 64-bit register (R8). -/
def writeWide (sec : Bool) (o : Nat) (w : Wr64) (s : State) : State :=
  hostWrite sec o (withWide o false w (fun v s => storeWord (o + 4) (v / 2 ^ 32) (storeWord o (v % 2 ^ 32) s))) s

/-- A 32-bit write at an offset. -/
def write32 (sec : Bool) (o : Nat) (v : Word) (s : State) : State :=
  match rowAt o with
  | some (w, 0) => if w.wide then writeWide sec o (.lo v) s else writeRegister sec o v s
  | some (_, _) => writeWide sec (o - 4) (.hi v) s
  | none => hostWrite sec o id s

/-- A 64-bit write at an offset: one 64-bit register, or two registers. -/
def write64 (sec : Bool) (o : Nat) (v : BitVec 64) (s : State) : State :=
  match rowAt o with
  | some (w, 0) =>
    if w.wide then writeWide sec o (.both v) s
    else write32 sec (o + 4) (v.extractLsb' 32 32) (write32 sec o (v.extractLsb' 0 32) s)
  | _ => write32 sec (o + 4) (v.extractLsb' 32 32) (write32 sec o (v.extractLsb' 0 32) s)

/-- REGISTER_WRITE: a low word at `o`, a high word at `o + 4`, or 64 bits at `o`. -/
def registerWrite (sec : Bool) (o : Nat) (w : Wr64) (s : State) : State :=
  if o % (match w with | .both _ => 8 | _ => 4) ≠ 0 ∨ (blockAt o).isNone then accessRefused o s
  else match w with
    | .lo v => write32 sec o v s
    | .hi v => write32 sec (o + 4) v s
    | .both v => write64 sec o v s

def execRegisterWrite (sec : Bool) (o : Nat) (w : Wr64) (s : State) : Host.Outcome State Fault Refusal :=
  .next (registerWrite sec o w s)

/-! ## Reads (R5, R6, R8) -/

/-- The loft offset a window word shows: the grid and compare window (R129, R152) and the coefficient window (R195). The
outer option tells a window from a register; inside, none reads 0. -/
def windowAt (o : Nat) (s : State) : Option (Fin 6 × Option Nat) :=
  if 0x200000 ≤ o ∧ o < 0x800000 then
    let st : Fin 6 := Fin.ofNat 6 ((o - 0x200000) / 0x100000)
    let x := o % 0x100000
    if 0x90000 ≤ x ∧ x < 0xA0000 then
      let w := x - 0x90000
      let t := get s (F.STB_GRID_WIN_SEL_TARGET st)
      some (st, if t < 16 then (if w < 0xD000 then some (0xD000 * t + w) else none)
        else if t = 16 then some (0xD0000 + w) else none)
    else if 0x84000 ≤ x ∧ x < 0x8C000 then some (st, some (0xE0000 + (x - 0x84000)))
    else none
  else none

/-- A word of a window; a part the Region Table closes to the requester reads 0 with a world fault (R9, R449). -/
def windowRead (sec : Bool) (o : Nat) (st : Fin 6) (off : Nat) (s : State) : Nat × State :=
  let a := loftAddr st off
  if rangeOk sec a 4 s then
    (if 0xE4000 ≤ off ∧ off < 0xE5000 then (loopWordAt st (off - 0xE4000) s, s) else (memLe (loft s st) off 4, wordRead a s))
  else (0, worldFault 1 0 false 0xFF a (setF (accessErr o 2 0 s) F.HIF_ERR_STATUS_ACCESS_ERROR))

/-- The bits of a word that a read clears. -/
def rcMask (o : Nat) : Nat :=
  match rowAt o with
  | some (w, k) => if k = 0 then w.rc % 2 ^ 32 else w.rc / 2 ^ 32
  | none => 0

/-- The region of a stall's program has a secure page. -/
def progSecure (g : Fin 48) (s : State) : Bool := anySecure (loftAddr (g.val / 8) (progBase g s)) (progSize g s) s

/-- A word whose value the non-secure world may not see: where a program error of a sealed program lies (R103). -/
def hiddenWord (o : Nat) (s : State) : Bool :=
  (fins 48).any fun (g : Fin 48) => (o == R.STALL_PROG_ERR g || o == R.STALL_PROG_ERR_OFFSET g) && progSecure g s

/-- What a read by a world shows of a word. -/
def shownTo (sec : Bool) (o : Nat) (s : State) : Nat :=
  if sec ∨ ¬ hiddenWord o s then (heldWord o s).getD (shown o s) else 0

/-- A 32-bit read: the value shown, and the RC bits cleared. The low word of a 64-bit register latches the high word, and
the next read of the high word returns it (R8). -/
def readWord32 (sec : Bool) (o : Nat) (s : State) : Nat × State :=
  match windowAt o s with
  | some (_, none) => (0, s)
  | some (st, some off) => windowRead sec o st off s
  | none =>
    let v := shownTo sec o s
    match rowAt o with
    | some (w, 0) =>
      let s1 := latchPos o (wrN s o (rdN s o - (rdN s o &&& rcMask o)))
      (v, if w.wide then { s1 with hiLatch := cellPut s1.hiLatch o (BitVec.ofNat 32 (shownTo sec (o + 4) s)) } else s1)
    | some (_, _) =>
      match cellGet s.hiLatch (o - 4) with
      | some h => (h.toNat, { s with hiLatch := cellDel s.hiLatch (o - 4) })
      | none => (v, s)
    | none => (v, s)

/-- A 64-bit read: both words from the same instant. -/
def readWord64 (sec : Bool) (o : Nat) (s : State) : Nat × State :=
  match rowAt o with
  | some (w, 0) =>
    if w.wide then (shownTo sec o s + 2 ^ 32 * shownTo sec (o + 4) s, s)
    else
      let (a, s1) := readWord32 sec o s
      let (b, s2) := readWord32 sec (o + 4) s1
      (a + 2 ^ 32 * b, s2)
  | _ =>
    let (a, s1) := readWord32 sec o s
    let (b, s2) := readWord32 sec (o + 4) s1
    (a + 2 ^ 32 * b, s2)

/-- READ_CLEAR: a read of the set-up window. A non-secure read of a secure register returns 0 (R9). -/
def readClear (sec : Bool) (o : Nat) (wide : Bool) (s : State) : State :=
  if o % (if wide then 8 else 4) ≠ 0 ∨ (blockAt o).isNone then readRefused o wide s
  else if accessOk sec o s then
    let (v, s1) := if wide then readWord64 sec o s else readWord32 sec o s
    emit (.readReply o v wide) s1
  else emit (.readReply o 0 wide) (regWorldFault o false s)

def execReadClear (sec : Bool) (o : Nat) (wide : Bool) (s : State) : Host.Outcome State Fault Refusal :=
  .next (readClear sec o wide s)

end Machine
end Sys2Proof
end

