-- ==== Sys2Proof/Machine/Traces.lean ====
section
/-!
DEFINITION. The monitoring traces (R502, R503): the records of a channel, its ring, its stream, its engine jobs, and the delivery of coded
blocks into the buffers of DGN_TRACE_BUF. A ring is the list of its records; an empty list marks the end of a stream.
-/
namespace Sys2Proof
namespace Machine

/-- u16 elements of a record of a channel (R502). -/
def recElems (c : Nat) : Nat := if c < 48 then 16 else 8

/-- Records in a block of 16 KiB. -/
def blockRecs (c : Nat) : Nat := 8192 / recElems c

/-- The stream a channel begins: ELEM 0x1, PRED LINEAR, STRIDE of the record, HISTORY CARRY, BLOCK 16 KiB (R503). -/
def traceCodec (c : Nat) : Codec := Codec.start (1 + 2 * 4 + (recElems c - 1) * 2 ^ 4 + 2 ^ 10 + 2 * 2 ^ 12) 0

/-! ## Delivery -/

/-- The next piece of a channel's stream, as its number of records and whether the stream ends with it: a whole block, or
what is left before the end of a stream or at a cut. -/
def nextPiece (c : Nat) (x : Trace) : Option (Nat × Bool) :=
  let run := x.ring.takeWhile fun r => !r.isEmpty
  let n := blockRecs c
  let part := min n run.length
  let ends : Bool := ((x.ring.drop part).head?.map List.isEmpty).getD false
  if part < n ∧ ¬ ends ∧ ¬ (x.cut ∧ 0 < part) then none else some (part, ends)

/-- Give the next piece to an engine as a job of class 2 (R333), while a buffer waits and no other piece of the channel is on its
way. -/
def traceAsk (c : Fin 64) (s : State) : State :=
  let x := trace s c
  if x.taken ≠ 0 ∨ ¬ x.coded.isEmpty ∨ x.bufs.isEmpty then s
  else match nextPiece c.val x with
    | none => s
    | some (part, ends) =>
      let n := part + b2n ends
      let flushed := x.cut && decide (part < blockRecs c.val)
      let bytes := (x.ring.take part).flatMap fun r => r.flatMap fun v => leBytes 2 v
      submitJob ⟨2, 0, 0, false, bytes, 0, [], 2 ^ 32, 0, 0, ends, true, if x.codec.hdr then x.codec else traceCodec c.val, none, 3, 0xFF,
          c.val, b2n flushed⟩
        (setTrace c (fun x => { x with
          taken := n, cut := x.cut && !flushed,
          blockSince := if (x.ring.drop n).all List.isEmpty then none else x.blockSince }) s)

/-- A buffer of a channel completes (R504): the bytes written; whether a stream ended, and the drops since the last. -/
def bufDone (c : Fin 64) (b : Nat × Nat × Nat) (ended : Bool) (s : State) : State :=
  let x := trace s c
  let s1 := setTrace c (fun x => { x with bufs := x.bufs.drop 1, dropsTold := 0 }) s
  completeN b.1 b.2.1 stOK (some b.2.2) (some (b2n ended + 2 ^ 32 * x.dropsTold)) s1

/-- The waiting buffer of a channel as its descriptor. -/
def bufDesc (b : Nat × Nat × Nat) (s : State) : Option Desc :=
  if h : b.1 < 256 then
    let x := ctx s ⟨b.1, h⟩
    (x.orphans ++ x.fetched).find? fun d => d.seq == b.2.1 && d.started && d.compl.isNone && !d.dup && d.op == 0xA3
  else none

/-- One step of delivery: place the coded piece that waits. None where nothing can move. -/
def traceMove (c : Fin 64) (s : State) : Option State :=
  let x := trace s c
  match x.bufs with
  | [] => none
  | b :: t =>
    match bufDesc b s with
    | none => some (setTrace c (fun x => { x with bufs := t }) s)
    | some d =>
      match x.coded with
      | p :: ps =>
        if d.len < b.2.2 + p.length then some (bufDone c b false s)
        else
          let b' := (b.1, b.2.1, b.2.2 + p.length)
          let s1 := setTrace c (fun x => { x with coded := ps, bufs := b' :: t }) (emit (.hostWrite (d.addr + b.2.2) p) s)
          some (if x.codec.ended then bufDone c b' true (setTrace c (fun x => { x with codec := traceCodec c.val }) s1) else s1)
      | [] => none

/-- Move what can move, in ring order. -/
def traceRun (c : Fin 64) : Nat → State → State
  | 0, s => s
  | n + 1, s => match traceMove c s with
    | some s' => traceRun c n s'
    | none => s

/-- Deliver what a channel holds, every step of which places a piece or uses up a buffer, and have the next piece coded. -/
def traceFeed (c : Fin 64) (s : State) : State := traceAsk c (traceRun c ((trace s c).bufs.length + 2) s)

/-- JOB_COMPLETE: the first job of an engine that has ended completes; a piece of a trace goes into its buffer. -/
def jobDone (e : Fin 2) (s : State) : State :=
  match (jobsOf e s).find? fun j => j.done.isSome with
  | some j => if j.kind = 3 then traceFeed (Fin.ofNat 64 j.resA) (jobComplete e s) else jobComplete e s
  | none => s

def execJobComplete (e : Fin 2) (s : State) : Host.Outcome State Fault Refusal := .next (jobDone e s)

/-! ## Records (R502, R503) -/

/-- End the open stream: its trailer follows the records of the ring. -/
def traceEnd (c : Fin 64) (s : State) : State :=
  setTrace c (fun x =>
    if x.streamOpen then { x with ring := x.ring ++ [[]], streamOpen := false, blockSince := none } else x) s

/-- The bytes of a record are stored in the channel's ring of the hayloft, one record behind the other and round the ring
(R16, R502). Where in its ring a record stands is the model's: DESIGN CHOICE (notes/assumptions/213). -/
def traceStore (c : Fin 64) (r : List Nat) (s : State) : State :=
  let bs := r.flatMap fun v => leBytes 2 v
  let a := 0x800000 + 0x10000 * c.val + (trace s c).wp
  setTrace c (fun x => { x with wp := (x.wp + bs.length) % 0x10000 })
    (heal (0x2000000 + a) bs.length { s with hayloft := memWrite s.hayloft a bs })

/-- A record comes to a channel: it takes its place in the ring, or is dropped. -/
def tracePut (c : Fin 64) (r : List Nat) (s : State) : State :=
  let x := trace s c
  if 65536 < ringBytes x.ring + 2 * r.length then
    let s1 := setTrace c (fun x => { x with dropsTold := x.dropsTold + 1 }) (addSat s (R.DGN_TRACE_DROPS c) 1)
    traceEnd c (raise 223 (lifeAdd (setF s1 F.DGN_FLAGS_TRACE_DROP) (lifeNo 20 6 c.val) 1))
  else
    let tail := ((x.ring.drop x.taken).reverse.takeWhile fun q => !q.isEmpty).length + 1
    let since := if tail % blockRecs c.val = 1 then some s.beam else if tail % blockRecs c.val = 0 then none else x.blockSince
    traceFeed c (setTrace c (fun x => { x with ring := x.ring ++ [r], streamOpen := true, blockSince := since })
      (traceStore c r s))

/-- The low and high u16 of a 32-bit word. -/
def pair16 (v : Nat) : List Nat := [v % 2 ^ 16, v / 2 ^ 16 % 2 ^ 16]

/-- The record of a stall's entry. -/
def stallRecord (g : Fin 48) (e : Entry) (s : State) : List Nat :=
  pair16 (code 32 e.cx) ++ pair16 (code 32 e.cy) ++
    [code 16 e.cf, e.power % 2 ^ 16, b2n e.gate + 2 * (e.kind % 8), get s (F.ENG_OUT_KP g), get s (F.ENG_OUT_KS g)] ++
    pair16 (rdN s (R.ENG_Y g)) ++ pair16 e.tag ++ [get s (F.STALL_OUT_STATUS_LAST_CODE g)] ++ pair16 s.layerMv

/-- The record of an axis. -/
def axisRecord (a : Nat) (s : State) : List Nat :=
  pair16 (rdN s (R.AXIS_POS a)) ++ pair16 (rdN s (R.AXIS_SPEED a)) ++
    [get s (F.AXIS_LOAD_ANGLE_DELTA a), get s (F.AXIS_EMF_EMF a), rdN s (R.AXIS_STATUS a) % 2 ^ 16, 0]

/-- The record of a feedback port. -/
def portRecord (p : Nat) (s : State) : List Nat :=
  pair16 (rdN s (R.FBKP_POS p)) ++ pair16 (rdN s (R.FBKP_SPEED p)) ++
    [rdN s (R.FBKP_STATUS p) % 2 ^ 16, rdN s (R.FBKP_INDEX_DRIFT p) % 2 ^ 16, 0, 0]

/-- One more item of a channel has come: every DECIM-th is recorded. -/
def traceItem (c : Fin 64) (r : State → List Nat) (s : State) : State :=
  if flag s (F.DGN_TRACE_CFG_EN c) then
    if get s (F.DGN_TRACE_CFG_DECIM c) ≤ (trace s c).decim + 1 then
      tracePut c (r s) (setTrace c (fun x => { x with decim := 0 }) s)
    else setTrace c (fun x => { x with decim := x.decim + 1 }) s
  else s

/-- The entry a stall has output in RUN. -/
def traceStall (g : Fin 48) (s : State) : State :=
  match (stall s g).cur with
  | some e => if stSt g s = ssRUN then traceItem (Fin.ofNat 64 g.val) (stallRecord g e) s else s
  | none => s

/-- The axes and ports at a multiple of 4 µs. -/
def traceSlow (s : State) : State :=
  forAll 8 (fun p s => traceItem (Fin.ofNat 64 (56 + p.val)) (portRecord p.val) s)
    (forAll 8 (fun a s => traceItem (Fin.ofNat 64 (48 + a.val)) (axisRecord a.val) s) s)

/-- TRACE_FLUSH: a partly filled block is FLUSH_MS old. -/
def traceFlush (c : Fin 64) (s : State) : State :=
  let ms := get s (F.DGN_TRACE_CFG_FLUSH_MS c)
  match (trace s c).blockSince with
  | some t =>
    if 0 < ms ∧ ms * 1000000 ≤ s.beam - t then traceFeed c (setTrace c (fun x => { x with cut := true, blockSince := none }) s)
    else s
  | none => s

/-- What a channel does at a tick: the flush, and the coding and delivery that did not come about before. -/
def traceTick (c : Fin 64) (s : State) : State := traceFeed c (traceFlush c s)

def execTraceFlush (c : Fin 64) (s : State) : Host.Outcome State Fault Refusal := .next (traceFlush c s)

/-! ## Configuration (R505) -/

/-- TRACE_CONFIG_WRITE of `DGN.TRACE[c].CFG`: a DECIM of 0 is refused and keeps its value. -/
def traceConfigWrite (c : Fin 64) (v : Word) (s : State) : State :=
  let n := v.toNat
  let was := flag s (F.DGN_TRACE_CFG_EN c)
  let s1 := wrN s (R.DGN_TRACE_CFG c)
    (if bits n 4 12 = 0 then setBits n 4 12 (get s (F.DGN_TRACE_CFG_DECIM c)) else n)
  let s2 := clrBits (if bits n 4 12 = 0 then setF s1 F.DGN_FLAGS_CFG_REFUSED else s1)
  if was ∧ ¬ bit n 0 then traceFeed c (traceEnd c s2)
  else if ¬ was ∧ bit n 0 then setTrace c (fun x => { x with decim := 0 }) s2
  else s2
where
  /-- Bits 3:1 are reserved. -/
  clrBits (s : State) : State := put s ⟨R.DGN_TRACE_CFG c, 1, 3⟩ 0

def execTraceConfigWrite (sec : Bool) (c : Fin 64) (v : Word) (s : State) : Host.Outcome State Fault Refusal :=
  .next (hostWrite sec (R.DGN_TRACE_CFG c) (traceConfigWrite c v) s)

/-! ## DGN_TRACE_BUF -/

/-- DGN_TRACE_BUF: a buffer for a channel's blocks. -/
def opTraceBuf (c : Fin 256) (d : Desc) (s : State) : State :=
  let k := d.at 20 1
  if d.at 21 43 ≠ 0 ∨ d.len < 16512 ∨ 64 ≤ k then formatZero c d.seq s
  else
    let t := Fin.ofNat 64 k
    if ¬ flag s (F.DGN_TRACE_CFG_EN t) then complete c d.seq stINTERLOCK none none false s
    else traceFeed t (setTrace t (fun x => { x with bufs := x.bufs ++ [(c.val, d.seq, 0)] }) s)

end Machine
end Sys2Proof
end

