-- ==== Sys2Proof/Machine/Snaps.lean ====
section
/-!
DEFINITION. Snapshots: what each block captures (R32, R72, R106, R143, R164, R190, R223, R252, R279, R302, R331, R351, R381,
R399, R426, R444, R459, R471, R507 and the chapters on lamps and images) and the capture (R496, R497); the images of a
snapshot and of the lifetime counters (R498, R501).
-/
namespace Sys2Proof
namespace Machine

/-! ## Sections of a snapshot -/

/-- A 64-bit register takes two words, low word first. -/
def words64 (o : Nat) : List Nat := [o, o + 4]

/-- The words of a list of registers. -/
def shownAll (l : List Nat) (s : State) : List Nat := l.map fun o => shown o s

/-- The two words of a 64-bit value. -/
def two (v : Nat) : List Nat := [v % 2 ^ 32, v / 2 ^ 32 % 2 ^ 32]

/-- Register instances 0 to n - 1, each with the registers of `f`. -/
def perUnit (n : Nat) (f : Nat → List Nat) : List Nat := (List.range n).flatMap f

/-- The yard with its marshal (R32, R106, R164, R190). -/
def snapYard (s : State) : List Nat :=
  shownAll (perUnit 6 (fun t => [R.YRD_STALL_SUMMARY t]) ++ [R.YRD_LAYER_STATUS] ++ words64 R.YRD_LAYER_SET ++
    [R.YRD_MV_PERIOD]) s ++ [s.layerMv % 2 ^ 32] ++
  shownAll ([R.YRD_HEARTBEAT_STATUS, R.YRD_LAYER_DEADLINE_STATUS, R.YRD_LSAFE_STATUS, R.YRD_MSH_STATUS, R.YRD_MSH_FLAGS,
    R.YRD_MSH_LAST_CONFLICT] ++ perUnit 48 (fun g => [R.YRD_MSH_STALL g])) s ++
  (s.seams.toList.filter fun x => x.st != 0).flatMap fun x => two (seamInfo x)

/-- The host interface (R72). -/
def snapHif (s : State) : List Nat :=
  shownAll ([R.HIF_STATUS, R.HIF_INFLIGHT, R.HIF_MBOX_STATUS] ++ perUnit 256 fun c =>
    [R.HIF_CTX_STATUS c, R.HIF_CTX_SQ_HEAD c, R.HIF_CTX_SQ_TAIL c, R.HIF_CTX_CQ_TAIL c, R.HIF_CTX_CQ_HEAD c,
      R.HIF_CTX_LAST_SEQ c]) s

/-- The gate (R252). -/
def snapGate (s : State) : List Nat :=
  shownAll ([R.GTE_STATUS, R.GTE_FLAGS] ++ words64 R.GTE_LAST_ABORT) s ++
    (s.txns.toList.filter fun t => t.st != 0).flatMap fun t => two (txnInfo t) ++ two (txnTime t)

/-- The registers the other single blocks capture, by block number (R279, R302, R331, R351, R426, R444, R459, R471, R507). -/
def snapRegs (b : Nat) : List Nat :=
  match b with
  | 4 => [R.CPM_STATUS, R.CPM_FLAGS, R.CPM_GATED_UNITS] ++ words64 R.CPM_GATED_STALLS
  | 5 => perUnit 7 (fun i => [R.THM_TEMP i]) ++ [R.THM_CTL, R.THM_STATUS]
  | 6 => [R.TMS_STATUS] ++ words64 R.TMS_OFFSET ++ [R.TMS_FREQ_ADJ] ++ words64 R.TMS_PENDING ++
      perUnit 2 (fun p => [R.TPORT_STATUS p])
  | 7 => perUnit 16 fun w => [R.EVC_PEND w]
  | 8 => [R.DGN_FLAGS]
  | 9 => [R.ERW_STATUS, R.ERW_HEAD]
  | 10 => [R.DMC_STATUS, R.DMC_FLAGS, R.DMC_ELOG_HEAD, R.DMC_CH_QUEUE 0, R.DMC_CH_QUEUE 1]
  | 11 => [R.CMP_STATUS, R.CMP_FLAGS] ++ perUnit 2 fun e => [R.ENGINE_CURRENT e, R.ENGINE_LOAD e]
  | 12 => (perUnit 16 fun n => [R.SENS_STATUS n, R.SENS_FRAME_SEQ n, R.SENS_GEN n, R.SENS_FLAGS n] ++
      words64 (R.SENS_FS_TIME n) ++ [R.SENS_FEAT_LAST n]) ++ perUnit 2 (fun x => [R.PIPE_STATUS x]) ++
      perUnit 4 fun p => [R.PORT_PHY_STATUS p, R.PORT_CCI_STATUS p]
  | 14 => perUnit 8 fun p => [R.FBKP_STATUS p, R.FBKP_POS p, R.FBKP_SPEED p] ++ words64 (R.FBKP_SAMPLE_TIME p) ++
      [R.FBKP_INDEX_LATCH p, R.FBKP_INDEX_DRIFT p, R.FBKP_POS_IN_REV p, R.FBKP_FLAGS p, R.FBKP_FAULT_INFO p]
  | 15 => [R.LMP_STATUS, R.LMP_GROUP_STATUS] ++ perUnit 5 (fun w => [R.LMP_LAMP_FAULT w]) ++ [R.LMP_LAST_FAULT]
  | 16 => [R.FAR_STATUS, R.FAR_FLAGS, R.FAR_LAST_FAIL] ++ perUnit 48 (fun g => [R.FAR_STALL_INFO g]) ++
      perUnit 12 fun b => [R.FAR_BAY_INFO b]
  | 17 => [R.TCK_STATUS, R.TCK_FLAGS] ++ words64 R.TCK_BWT ++ [R.TCK_WF_INFO] ++ words64 R.TCK_WF_ADDR
  | 18 => [R.BOOT_STATUS, R.BOOT_FLAGS] ++ words64 R.BOOT_SETTINGS
  | _ => []

/-- The words of a single block's section. -/
def snapSingle (b : Nat) (s : State) : List Nat :=
  match b with
  | 1 => snapHif s
  | 2 => snapYard s
  | 3 => snapGate s
  | 10 => shownAll (snapRegs 10) s ++ (List.range 8).map fun w => elogNewest w s
  | 13 => (fins 8).flatMap fun (a : Fin 8) => shownAll [R.AXIS_STATUS a, R.AXIS_FLAGS a, R.AXIS_POS a, R.AXIS_TARGET a, R.AXIS_SPEED a,
      R.AXIS_LOAD_ANGLE a, R.AXIS_EMF a, R.AXIS_FAULT_INFO a] s ++ [code 32 (axis s a).dev]
  | _ => shownAll (snapRegs b) s

/-- KIND and gate state of the entry output at the freeze tick; a repeated set-point shows as all ones (notes/assumptions/144). -/
def entryWord (g : Fin 48) (s : State) : Nat :=
  match (stall s g).cur with
  | some e => e.kind + 2 ^ 8 * b2n e.gate
  | none => 0xFF

/-- The words of a stall's section, in the order of the chapters. -/
def snapStall (g : Fin 48) (s : State) : List Nat :=
  shownAll [R.STALL_STATE g, R.STALL_FLAGS g, R.STALL_PROG_WP g, R.STALL_PROG_RP g, R.STALL_PROG_PARSE g,
    R.STALL_STROKE_PLAN g, R.STALL_STROKE_ELAPSED g, R.STALL_ISLAND g, R.STALL_ISLAND_ELAPSED g, R.STALL_SYNC g,
    R.STALL_TRJ_STATUS g, R.STALL_TRJ_FACTORS g, R.STALL_TRJ_SQUASH_LAST g, R.STALL_TRJ_POS_X g, R.STALL_TRJ_POS_Y g,
    R.STALL_TRJ_POS_F g, R.STALL_TRJ_SPEED g, R.STALL_TRJ_FAULT g] s ++ [entryWord g s] ++
  shownAll ([R.STALL_OUT_STATUS g, R.STALL_OUT_FLAGS g, R.STALL_OUT_FAULT g, R.STALL_GATE_TRIM g, R.STALL_CMP_LAST_A g,
    R.STALL_CMP_LAST_B g, R.ENG_OUT g, R.ENG_Y g, R.ENG_E g, R.ENG_STATUS g, R.ENG_BANK g, R.ENG_FEAT_TAG g,
    R.SRV_STATE g] ++ perUnit 3 (fun a => [R.SRV_FOLLOW g a]) ++ perUnit 3 (fun a => [R.SRV_CURRENT g a])) s ++
  loopWords g s

/-- The words of a stable's section. -/
def snapStable (t : Nat) (s : State) : List Nat := shownAll [R.STB_TRJ_ENGINE t, R.CLE_STATUS t, R.CLE_FLAGS t] s

/-- The words of a bay's section (R381). -/
def snapBay (b : Nat) (s : State) : List Nat :=
  shownAll ([R.LNK_STATE b, R.LNK_RX_STATUS b, R.LNK_DELAY b, R.LNK_SKEW b, R.LNK_LANE_DLY b, R.LNK_CAPS b, R.LNK_FLAGS b,
    R.LNK_HEAD_ALARM b] ++ perUnit 5 fun i => [R.LNK_DFE b i]) s

/-- Every section: block, instance, words, in ascending BLOCK order, a stable's own section after its stalls'. -/
def snapSections (s : State) : List (Nat × Nat × List Nat) :=
  ((List.range 18).map fun i => (i + 1, 0xFF, snapSingle (i + 1) s)) ++
    ((fins 6).flatMap fun (t : Fin 6) => ((fins 8).map fun (i : Fin 8) =>
      (32 + t.val, i.val, snapStall (Fin.ofNat 48 (8 * t.val + i.val)) s)) ++ [(32 + t.val, 0xFF, snapStable t s)]) ++
    (List.range 12).map fun b => (40 + b, 0xFF, snapBay b s)

/-! ## Images (R498, R501) -/

/-- A section with its words of `e` bytes each. -/
def sectionBytes (e : Nat) (x : Nat × Nat × List Nat) : List Byte :=
  leBytes 2 x.1 ++ leBytes 2 x.2.1 ++ leBytes 4 x.2.2.length ++ x.2.2.flatMap fun w => leBytes e w

/-- An image: its header with the length and the CRC, and its sections. -/
def imageBytes (magic trigger source time ops cycles : Nat) (body : List Byte) : List Byte :=
  let head := fun crc => leBytes 4 magic ++ leBytes 1 1 ++ leBytes 1 trigger ++ leBytes 2 source ++ leBytes 8 time ++
    leBytes 4 ops ++ leBytes 4 cycles ++ leBytes 4 (32 + body.length) ++ leBytes 4 crc
  head (crc32c (head 0 ++ body)) ++ body

/-- A section is withheld from a non-secure reader: the tack room, and a block that was secure at the freeze tick. -/
def withheld (bwt b : Nat) : Bool := b == 17 || bit bwt b

/-- The image of a held snapshot as a reader gets it. -/
def snapImage (sec : Bool) (x : Snapshot) : List Byte :=
  imageBytes 0x50414E53 x.trigger (if x.trigger = 2 then x.source else 0xFFFF) x.tick x.opSeconds x.powerCycles
    (x.sections.flatMap fun y => sectionBytes 4
      (if !sec && withheld x.bwt y.1 then (y.1, y.2.1, y.2.2.map fun _ => 0) else y))

/-! ## Capture (R496, R497) -/

/-- SNAPSHOT_CAPTURE: the freeze tick of a trigger taken before it. -/
def snapshotCapture (s : State) : State :=
  match s.snapTrig with
  | none => s
  | some t =>
    if s.now ≤ t.since then s
    else
      let x : Snapshot := ⟨t.kind, t.source, s.now, rdN s R.DGN_OP_SECONDS, rdN s R.DGN_POWER_CYCLES, rd64 s R.TCK_BWT,
        snapSections s⟩
      let st := 1 + 2 * t.kind + 2 ^ 16 * (if t.kind = 2 then t.source else 0x1FF) + 2 ^ 3 * get s F.DGN_STATUS_SAVING
      let s1 := wrN (wr64 (wrN { s with snap := some x, snapTrig := none } R.DGN_STATUS st) R.DGN_SNAP_TIME s.now)
        R.DGN_SNAP_LEN (snapImage true x).length
      let s2 := recNew 5 0xFFFF [st, s.now % 2 ^ 32] (raise 220 (lifeAdd s1 (lifeNo 20 0 0) 1))
      match t.ctx with
      | some c => (waitingSeqs (Fin.ofNat 256 c) [0xA4] s2).foldl
          (fun s q => complete (Fin.ofNat 256 c) q stOK (some s.now) (some 0) false s) s2
      | none => s2

/-- SNAPSHOT_RELEASE. -/
def snapshotRelease (s : State) : State :=
  let st := 0x1FF0000 + 2 ^ 3 * get s F.DGN_STATUS_SAVING
  wrN (wr64 (wrN { s with snap := none } R.DGN_STATUS st) R.DGN_SNAP_TIME 0) R.DGN_SNAP_LEN 0

/-! ## The lifetime image (R501) -/

/-- Consecutive counters of one list item. -/
def lifeRun (ch i base n : Nat) : List Nat := (List.range n).map fun k => lifeNo ch i (base + k)

/-- The counters of a stall, in the order of the chapters (R33, R107, R144, R165, R191, R224, R472). -/
def lifeStall (g : Nat) : List Nat :=
  [lifeNo 1 2 g] ++
  [lifeNo 3 0 g, lifeNo 3 1 g, lifeNo 3 2 g] ++ lifeRun 3 3 (16 * g + 1) 6 ++ [lifeNo 3 4 g] ++ lifeRun 3 5 (16 * g) 7 ++
  lifeRun 4 0 (16 * g) 6 ++ [lifeNo 4 1 g, lifeNo 4 2 g] ++ lifeRun 4 3 (16 * g + 1) 5 ++ [lifeNo 4 4 g] ++
  [lifeNo 5 0 g, lifeNo 5 1 g, lifeNo 5 2 g] ++ lifeRun 5 3 (2 * g) 2 ++ [lifeNo 5 4 g] ++
  [lifeNo 6 0 g, lifeNo 6 1 g, lifeNo 6 2 g] ++
  [lifeNo 7 0 g, lifeNo 7 1 g, lifeNo 7 2 g] ++ lifeRun 7 3 (8 * g + 1) 5 ++
  (perUnit 7 fun d => perUnit 3 fun a => [lifeNo 7 4 (64 * g + 8 * a + d + 1)]) ++ [lifeNo 7 5 g, lifeNo 7 6 g, lifeNo 7 7 g] ++
  lifeRun 18 0 (5 * g) 5 ++ lifeRun 18 1 (5 * g) 5 ++ [lifeNo 18 2 g]

/-- The counters of a stable (R144, R224). -/
def lifeStable (t : Nat) : List Nat := [lifeNo 4 5 t, lifeNo 7 8 t, lifeNo 7 9 t]

/-- The counters of a bay (R382, R472). -/
def lifeBay (b : Nat) : List Nat :=
  lifeRun 13 0 (16 * b + 1) 11 ++ lifeRun 13 1 (16 * b + 1) 11 ++ [lifeNo 13 2 b, lifeNo 13 3 b, lifeNo 13 4 b, lifeNo 13 5 b]

def lifeBayFar (b : Nat) : List Nat := lifeRun 18 0 (5 * (48 + b)) 5 ++ lifeRun 18 1 (5 * (48 + b)) 5 ++ [lifeNo 18 3 b]

/-- The unit numbers a gate denial can name (R408, R409). -/
def gateUnits : List Nat := (List.range 0x4C).filter fun u => (gateBit u).isSome

/-- The counters of a single block (R33, R73, R107, R165, R191, R253, R280, R303, R332, R352, R400, R427, R445, R459, R472,
R507 and the chapters on lamps and images). -/
def lifeSingle (b : Nat) : List Nat :=
  match b with
  | 1 => lifeRun 2 0 0 1 ++ lifeRun 2 1 0 1 ++ lifeRun 2 2 0 1 ++ lifeRun 2 3 1 5 ++ lifeRun 2 4 0 1 ++ lifeRun 2 5 0 1 ++
      lifeRun 2 6 0 1
  | 2 => [lifeNo 1 0 0, lifeNo 1 1 0, lifeNo 3 6 0] ++ lifeRun 5 5 0 9 ++ [lifeNo 5 6 0, lifeNo 5 7 0, lifeNo 6 3 0] ++
      lifeRun 6 4 1 3 ++ [lifeNo 6 5 0, lifeNo 6 7 0, lifeNo 6 8 0, lifeNo 6 9 0]
  | 3 => lifeRun 8 0 0 3 ++ lifeRun 8 1 1 11 ++ [lifeNo 8 2 0, lifeNo 8 3 0, lifeNo 8 4 0, lifeNo 8 5 0]
  | 4 => (perUnit 4 fun r => [lifeNo 15 3 (4 * r + 1), lifeNo 15 3 (4 * r + 2)]) ++
      [lifeNo 15 4 0, lifeNo 15 5 0, lifeNo 15 6 0, lifeNo 15 7 0] ++ gateUnits.map (fun u => lifeNo 15 8 u) ++
      [lifeNo 15 13 0] ++ lifeRun 15 14 0 5
  | 5 => (perUnit 7 fun i => lifeRun 15 0 (32 * i) 32 ++ [lifeNo 15 1 i, lifeNo 15 2 i]) ++
      [lifeNo 15 9 0, lifeNo 15 10 0, lifeNo 15 11 0] ++ lifeRun 15 12 1 4
  | 6 => perUnit 7 fun i => [lifeNo 16 i 0]
  | 8 => (perUnit 6 fun i => [lifeNo 20 i 0]) ++ lifeRun 20 6 0 64
  | 10 => lifeRun 14 0 0 64 ++ lifeRun 14 1 0 2 ++ lifeRun 14 2 0 7 ++ lifeRun 14 3 0 7 ++ perUnit 6 fun i => [lifeNo 14 (4 + i) 0]
  | 11 => perUnit 2 fun e => lifeRun 12 0 (2 * e) 2 ++ lifeRun 12 1 (2 * e) 2 ++ lifeRun 12 2 (4 * e) 4 ++
      perUnit 5 fun i => [lifeNo 12 (3 + i) e]
  | 12 => (perUnit 16 fun n => perUnit 7 fun i => [lifeNo 11 i n]) ++ (perUnit 4 fun p => perUnit 4 fun i => [lifeNo 11 (7 + i) p]) ++
      perUnit 2 fun x => perUnit 3 fun i => [lifeNo 11 (11 + i) x]
  | 13 => perUnit 8 fun a => [lifeNo 10 0 a, lifeNo 10 1 a, lifeNo 10 2 a] ++ lifeRun 10 3 (8 * a + 1) 4 ++
      perUnit 4 fun i => [lifeNo 10 (4 + i) a]
  | 14 => perUnit 8 fun p => [lifeNo 9 0 p] ++ lifeRun 9 1 (8 * p + 1) 6 ++ perUnit 4 fun i => [lifeNo 9 (2 + i) p]
  | 15 => ((List.range 160).filter lampThere).flatMap (fun i => lifeRun 19 0 (2 * i) 2) ++ lifeRun 19 1 0 8 ++ lifeRun 19 2 0 8 ++
      lifeRun 19 3 0 24
  | 16 => [lifeNo 18 4 0, lifeNo 18 5 0]
  | 17 => lifeRun 17 0 1 3 ++ lifeRun 17 1 0 6 ++ [lifeNo 17 2 0] ++ lifeRun 17 3 0 2 ++ perUnit 4 fun i => [lifeNo 17 (4 + i) 0]
  | 18 => lifeRun 21 0 0 2 ++ [lifeNo 21 1 0] ++ lifeRun 21 2 1 4 ++ lifeRun 21 3 0 7 ++ [lifeNo 21 4 0] ++ lifeRun 21 5 0 2 ++
      lifeRun 21 6 0 7
  | _ => []

/-- The sections of the lifetime image, with their values. -/
def lifeSections (s : State) : List (Nat × Nat × List Nat) :=
  let v := fun (l : List Nat) => l.map (life s)
  ((List.range 18).map fun i => (i + 1, 0xFF, v (lifeSingle (i + 1)))) ++
    ((List.range 6).flatMap fun t => ((List.range 8).map fun i => (32 + t, i, v (lifeStall (8 * t + i)))) ++
      [(32 + t, 0xFF, v (lifeStable t))]) ++
    (fins 12).map fun (b : Fin 12) => (40 + b.val, 0xFF, v (lifeBay b) ++
      (List.range 8).map (fun i => (s.bays[b.val]).ids.getD i 0) ++ v (lifeBayFar b))

/-- The lifetime image. -/
def lifeImage (s : State) : List Byte :=
  imageBytes 0x4546494C 0 0xFFFF s.now (rdN s R.DGN_OP_SECONDS) (rdN s R.DGN_POWER_CYCLES)
    ((lifeSections s).flatMap (sectionBytes 8))

end Machine
end Sys2Proof
end

