-- ==== Sys2Proof/Machine/Diag.lean ====
section
/-!
DEFINITION. Chapter 20: clearing and configuring event sources (R487, R488, R505), the recorder window (R495), snapshot
triggers (R496, R497) and the diagnostic descriptors (R504).
-/
namespace Sys2Proof
namespace Machine

/-! ## Event sources -/

/-- The sources of a PEND word that a mask names. -/
def maskSources (w : Nat) (m : Nat) : List Nat := ((List.range 32).filter fun i => bit m i).map fun i => 32 * w + i

/-- PEND_CLEAR: the named sources clear with their RAISES, and every vector that still has a routed source pending is
signalled. -/
def pendClear (w : Fin 16) (v : Word) (s : State) : State :=
  let s1 := (maskSources w.val v.toNat).foldl (fun s n => clrF (clrF s (pendBit n)) (F.EVC_INFO_RAISES n)) s
  (List.range 64).foldl (fun s v => if (vecSources v s).isEmpty then s else signalVector v s) s1

def execPendClear (sec : Bool) (w : Fin 16) (v : Word) (s : State) : Host.Outcome State Fault Refusal :=
  .next (hostWrite sec (R.EVC_PEND w) (pendClear w v) s)

/-- A field of a configuration write: kept, with the report, where its value is refused. -/
def cfgField (f : Fld) (v : Nat) (ok : Bool) (s : State) : State :=
  if ok then put s f v else setF s F.DGN_FLAGS_CFG_REFUSED

/-- A write of `EVC.SRC[n]` (R488, R489). -/
def srcWrite (n v : Nat) (s : State) : State :=
  let s1 := cfgField (F.EVC_SRC_ROUTE n) (bits v 6 2) (bits v 6 2 ≤ 1) (put s (F.EVC_SRC_VECTOR n) (bits v 0 6))
  cfgField (F.EVC_SRC_RECORD n) (bits v 8 1) (!alwaysSource n || bit v 8) (put s1 (F.EVC_SRC_FREEZE n) (bits v 9 1))

/-- A write of `DGN.CFG`. -/
def dgnCfgWrite (v : Nat) (s : State) : State :=
  cfgField F.DGN_CFG_SNAP_IN_FILTER (bits v 8 8) (bits v 8 8 != 0)
    (put (put s F.DGN_CFG_SNAP_IN_EN (bits v 0 1)) F.DGN_CFG_SNAP_IN_FALL (bits v 1 1))

/-- EVENT_CONFIG_WRITE of `EVC.SRC[n]`, or of `DGN.CFG` for n = 512. -/
def execEventConfigWrite (sec : Bool) (n : Fin 513) (v : Word) (s : State) : Host.Outcome State Fault Refusal :=
  .next (if n.val = 512 then hostWrite sec R.DGN_CFG (dgnCfgWrite v.toNat) s
    else hostWrite sec (R.EVC_SRC n) (srcWrite n v.toNat) s)

/-! ## The recorder window (R495) -/

/-- Start a fetch: the window reads 0 until the record is there. -/
def startFetch (s : State) : State :=
  let s1 := clrF { s with recFetch := true } F.ERW_STATUS_READY
  (List.range 16).foldl (fun s w => wrN s (R.ERW_RECORD w) 0) s1

/-- CURSOR_WRITE. -/
def cursorWrite (v : Word) (s : State) : State := startFetch (wr s R.ERW_CURSOR v)

def execCursorWrite (sec : Bool) (v : Word) (s : State) : Host.Outcome State Fault Refusal :=
  .next (hostWrite sec R.ERW_CURSOR (cursorWrite v) s)

/-- The records held, oldest first: those of the partition and the staged ones. -/
def recAll (s : State) : List EvRec :=
  (recPartition s ++ s.recStaged).filter fun r => decide ((r.seq + 2 ^ 32 - rdN s R.ERW_TAIL) % 2 ^ 32 < 2 ^ 31)

/-- The bytes of the record with a SEQ, none where it is not held. -/
def recNamed (q : Nat) (s : State) : Option (List Byte) := ((recAll s).find? fun r => r.seq == q).map recBytes

/-- RECORD_FETCH_DONE. -/
def recordFetchDone (s : State) : State :=
  if s.recFetch then
    let s1 := setF { s with recFetch := false } F.ERW_STATUS_READY
    match recNamed (rdN s R.ERW_CURSOR) s with
    | some l => (List.range 16).foldl (fun s w => wrN s (R.ERW_RECORD w) (leAt l (4 * w) 4)) s1
    | none => s1
  else s

def execRecordFetchDone (s : State) : Host.Outcome State Fault Refusal := .next (recordFetchDone s)

/-- RECORD_READ_ADVANCE: a read of `ERW.RECORD[15]`. -/
def recordReadAdvance (s : State) : State :=
  if flag s F.ERW_CFG_AUTO_ADV then startFetch (addW s R.ERW_CURSOR 1) else s

def execRecordReadAdvance (sec : Bool) (s : State) : Host.Outcome State Fault Refusal :=
  .next (if accessOk sec (R.ERW_RECORD 15) s then recordReadAdvance s else regWorldFault (R.ERW_RECORD 15) false s)

/-! ## Snapshot triggers (R496, R497) -/

/-- FREEZE: a write of `DGN.CMD.FREEZE`. -/
def execFreeze (sec : Bool) (s : State) : Host.Outcome State Fault Refusal :=
  .next (hostWrite sec R.DGN_CMD (fun s => snapTrigger ⟨1, 0x1FF, none, s.now⟩ s) s)

/-- SNAP_IN: a filtered edge on the pin. -/
def snapIn (rising : Bool) (s : State) : State :=
  if flag s F.DGN_CFG_SNAP_IN_EN ∧ flag s F.DGN_CFG_SNAP_IN_FALL = !rising then
    snapTrigger ⟨3, 0x1FF, none, s.now⟩ s
  else s

def execSnapIn (rising : Bool) (s : State) : Host.Outcome State Fault Refusal := .next (snapIn rising s)

/-- SNAPSHOT_CAPTURE. -/
def execSnapshotCapture (s : State) : Host.Outcome State Fault Refusal := .next (snapshotCapture s)

/-- SNAPSHOT_RELEASE: a write of `DGN.CMD.RELEASE`. -/
def execSnapshotRelease (sec : Bool) (s : State) : Host.Outcome State Fault Refusal :=
  .next (hostWrite sec R.DGN_CMD snapshotRelease s)

/-! ## Diagnostic descriptors (R504) -/

/-- The block a diagnostic descriptor is judged by. -/
def withDiag (c : Fin 256) (op : Nat) (k : Desc → State → State) (s : State) : State :=
  withDesc c op (fun d => blockCheck c d.seq 8 0x80000 (k d)) s

/-- DGN_SNAP_READ. -/
def opSnapRead (c : Fin 256) (d : Desc) (s : State) : State :=
  if d.at 20 44 ≠ 0 then formatZero c d.seq s
  else match s.snap with
    | none => complete c d.seq stINTERLOCK none none false s
    | some x =>
      let l := snapImage (ctxSecure c) x
      if d.len < l.length then complete c d.seq stNO_SPACE none none false s
      else
        let s1 := emit (.hostWrite d.addr l) s
        let s2 := if d.fbit 14 then snapshotRelease s1 else s1
        complete c d.seq stOK (some l.length) (some x.tick) false s2

def execDgnSnapRead (c : Fin 256) (s : State) : Host.Outcome State Fault Refusal := .next (withDiag c 0xA0 (opSnapRead c) s)

/-- DGN_LIFETIME_READ. -/
def opLifetimeRead (c : Fin 256) (d : Desc) (s : State) : State :=
  if d.at 20 44 ≠ 0 then formatZero c d.seq s
  else
    let l := lifeImage s
    if d.len < l.length then complete c d.seq stNO_SPACE none none false s
    else complete c d.seq stOK (some l.length) (some (rdN s R.DGN_OP_SECONDS)) false (emit (.hostWrite d.addr l) s)

def execDgnLifetimeRead (c : Fin 256) (s : State) : Host.Outcome State Fault Refusal :=
  .next (withDiag c 0xA1 (opLifetimeRead c) s)

/-- DGN_RECORDER_READ: the held records from a SEQ on, or from TAIL where that one is not held. -/
def opRecorderRead (c : Fin 256) (d : Desc) (s : State) : State :=
  if d.at 24 40 ≠ 0 ∨ d.len % 64 ≠ 0 then formatZero c d.seq s
  else
    let q := d.at 20 4
    let all := recAll s
    let held := all.any fun r => r.seq == q
    let l := (if held then all.dropWhile fun r => r.seq != q else all).take (d.len / 64)
    let first := if held then q else rdN s R.ERW_TAIL
    let next := (l.getLast?.map fun r => (r.seq + 1) % 2 ^ 32).getD first
    let bytes := l.flatMap recBytes
    complete c d.seq stOK (some l.length) (some next) false
      (if bytes.isEmpty then s else emit (.hostWrite d.addr bytes) s)

def execDgnRecorderRead (c : Fin 256) (s : State) : Host.Outcome State Fault Refusal :=
  .next (withDiag c 0xA2 (opRecorderRead c) s)

/-- DGN_TRACE_BUF. -/
def execDgnTraceBuf (c : Fin 256) (s : State) : Host.Outcome State Fault Refusal :=
  .next (withDiag c 0xA3 (opTraceBuf c) s)

/-- DGN_FREEZE: a trigger; INTERLOCK where it is missed. -/
def opFreeze (c : Fin 256) (d : Desc) (s : State) : State :=
  if dbytes d.raw 8 56 ≠ 0 then formatZero c d.seq s
  else
    let s1 := snapTrigger ⟨1, 0x1FF, some c.val, s.now⟩ s
    if s.snap.isSome ∨ s.snapTrig.isSome then complete c d.seq stINTERLOCK none none false s1 else s1

def execDgnFreeze (c : Fin 256) (s : State) : Host.Outcome State Fault Refusal := .next (withDiag c 0xA4 (opFreeze c) s)

end Machine
end Sys2Proof
end

