-- ==== Sys2Proof/Machine/Tick.lean ====
section
/-!
DEFINITION. The microvector tick (R18). One MICROVECTOR_TICK completes the microvector that began at the present tick - the
state changes of R96 whose own commands did not come, and steps 2 to 7 - and then begins the next: time advances, what was
asked for takes effect, and step 1 outputs (notes/assumptions/100).
-/
namespace Sys2Proof
namespace Machine

/-! ## The state changes of a tick (R96) -/

/-- Faults of a stall that its output has come to, at this tick. -/
def stallFaults (g : Fin 48) (s : State) : State :=
  strokeTimeout g (syncMismatch g (trajectoryFault g 0 (programError g (inhibitStopComplete g (mvUnderrun g s)))))

/-- Holds that take effect at this tick. -/
def stallHolds (g : Fin 48) (s : State) : State :=
  islandDeadline g (syncTimeout g (programEmpty g (seamHold g (starvedHold g (holdTakesEffect g s)))))

/-- Arrivals at a marker. -/
def stallArrivals (g : Fin 48) (s : State) : State := programEndReached g (syncBarrierReached g (layerEndReached g s))

/-- Returns to RUN and to a wait, and the way out of OFFLINE. -/
def stallReturns (g : Fin 48) (s : State) : State := stallOnline g (syncBarrierRelease g (holdReturn g s))

/-- Every ACTIVE bay has sent its set-points, with the power samples that left in the microvector, and the clamped ones count
(R151, R358). -/
def sendSetpoints (s : State) : State :=
  forAll 12 (fun b s => if laneUp b s then setpointFrame b.val s else s) (forAll 48 countSamples s)

/-- The state changes of R96 in their order, where they are still due. -/
def settleStates (s : State) : State :=
  let s1 := forAll 48 stallFaults (forAll 48 abortComplete (laserInhibitAsserted s))
  let s2 := forAll 48 stallArrivals (forAll 48 stallHolds (heartbeatExpired s1))
  let s3 := layerBarrierReached (forAll 48 stallReturns s2)
  forAll 48 (fun g s => starvedCleared g (programEmptyCleared g s)) s3

/-! ## Steps 2 to 7 -/

/-- The planner of a stall meets an error of a loft read: 1 uncorrectable in a grid (R139), 2 uncorrectable in a compare
table, which counts where step 5 plans an armed stroke (R153); 3 corrected in a grid, 4 corrected in a compare table (R384).
-/
def planError (g : Fin 48) (e : Nat) (s : State) : State :=
  if e = 1 then trajectoryFault g 4 s
  else if e = 3 then gridError g 1 s
  else if e = 4 then tableError g 1 s
  else setStall g (fun x => { x with tableErr := e == 2 }) s

/-- After step 5: an armed stroke whose compare table could not be read has met an uncorrectable error (R153, R384). -/
def tableStep (errs : List (Fin 48 × Nat)) (old s : State) : State :=
  errs.foldl (fun s e =>
    let unread := fun (x : Stall) => x.plan.nxt.any NextStroke.unread
    let s1 := setStall e.1 (fun x => { x with tableErr := false }) s
    if (stall s e.1).tableErr ∧ unread (stall s e.1) ∧ ¬ unread (stall old e.1) then tableError e.1 2 s1 else s1) s

/-- Commands are parsed as they become visible; no more can be visible than the region holds. Only a stall in HOLD
waits for what a load makes visible (R86). -/
def parseStall (g : Fin 48) (s : State) : State :=
  let s1 := parseAll g (progHeld g s / 16 + 1) s
  if (stall s1 g).loaded ∧ stSt g s1 ≠ ssHOLD then setStall g (fun x => { x with loaded := false }) s1 else s1

/-- Steps 2 to 7 of the microvector that began at the present tick. -/
def microvectorRest (errs : List (Fin 48 × Nat)) (s : State) : State :=
  let s2 := forAll 8 axisLate (gateStep (forAll 8 axisEarly s))
  let s3 := forAll 48 parseStall (forAll 48 seamPauseEnd (forAll 48 holdTrim (forAll 48 squashDueStep (seamMove s2))))
  let s4 := forAll 48 cleStep s3
  let s5 := tableStep errs s4 (forAll 6 engineStep (forAll 48 gridRefused (errs.foldl (fun s e => planError e.1 e.2 s) s4)))
  judgeBarriers (forAll 48 horizonStep (marshalStep s5))

/-! ## The next tick -/

/-- The first multiple of `p` after `t`. -/
def nextMultiple (t p : Nat) : Nat := (t / p + 1) * p

/-- The next tick: of the period in effect, or the first of an accepted one (R18). -/
def nextTick (s : State) : Nat :=
  match s.periodNext with
  | some p => min (nextMultiple s.now s.mvP) (nextMultiple s.now p)
  | none => nextMultiple s.now s.mvP

/-- Yard time, a count of 64 bits (R3), and the beam timebase move on. -/
def moveTime (t dt : Nat) (s : State) : State := { s with now := t % 2 ^ 64, beam := s.beam + dt }

/-- Time advances to the next tick (R18, R429, R437, R438). -/
def advance (s : State) : State :=
  let t := nextTick s
  let dt := t - s.now
  clockTick dt (timeTick dt (setApplied (mvPeriodChange (moveTime t dt s))))

/-- What was asked of a stall before this tick is due at it. -/
def stallDue (g : Fin 48) (s : State) : State :=
  setStall g (fun x => { x with
    squashDue := x.squashDue ||| x.squashNew, squashNew := 0
    abortDue := x.abortDue || x.abortNew, abortNew := false
    holdDue := decide (x.holdReq ≠ 0)
    retDue := decide (stSt g s = ssHOLD ∧ get s (F.STALL_STATE_HOLD_CAUSE g) = 0) }) s

/-- A register value that waits for a servo boundary (R219). -/
def servoLater (o : Nat) : Bool := (fins 48).any fun (g : Fin 48) => o == R.SRV_FERR g

/-- Register values written before this tick take effect (R211, R455). Started strokes keep a d_min floor that changes so
(R179). -/
def takeRegisters (s : State) : State :=
  let s1 := forAll 48 engTick s
  let t := { s1 with oldRegs := s1.oldRegs.filter fun p => servoLater p.1 && decide (s1.now % 4000 ≠ 0) }
  if mshParams t = mshParams s1 then t else { t with mshOld := (keepParams s1).mshOld }

/-- What was asked for before this tick is due at it: world changes, squashes, aborts, inhibit, seam moves, the layer set. -/
def takeRequests (s : State) : State :=
  let s1 := forAll 48 stallDue (worldTick (takeRegisters s))
  let s2 := { s1 with
    inhDue := s1.inhDue || s1.inhNew, inhNew := false,
    seamReqs := s1.seamReqs.map (fun (r : SeamReq) => { r with wait := false }),
    layerSet := rd64 s1 R.YRD_LAYER_SET % 2 ^ 48,
    imgDue := s1.imgDue ++ s1.imgAct, imgAct := [] }
  let s3 := if s2.relTick then clrF { s2 with relTick := false } F.YRD_LSAFE_STATUS_INHIBIT else s2
  forAll 48 (fun g s => showWait g s) { s3 with barrierDue := barrierComplete s3 }

/-- A release that was accepted takes effect (R94), unless a loop of the stall has left CLOSED since then (R217). -/
def takeRelease (g : Fin 48) (s : State) : State :=
  if servoOk g s then releaseNow g s
  else tellStall g [0x18] stINTERLOCK (some (stateWord g s)) none (setStall g (fun x => { x with relNew := false }) s)

/-- A fault asked for takes effect after an abort that is over (R95, R96), and then a release that was accepted (R94). -/
def takeFault (g : Fin 48) (s : State) : State :=
  let s1 := if (stall s g).faultNew = 0 then s else faultStep g (abortComplete g s)
  let x := stall s1 g
  if x.relNew ∧ ¬ x.abortDue ∧ stSt g s1 = ssIDLE then takeRelease g s1 else s1

/-- On-time of the sinks (chapter 19). -/
def sinkTime (dt : Nat) (s : State) : State :=
  (List.range 24).foldl (fun s i => if lampShown (Fin.ofNat 160 i) s = 0 then s else lifeTime s (lifeNo 19 3 i) dt) s

/-- The times that have come to their end at this tick, also where their own commands did not come: waits, ages and
thresholds of the contexts, time-outs of bays, ports, sensors, lamps and images, the gating after a shutdown
(notes/assumptions/200). -/
def timesUp (s : State) : State :=
  let s1 := forAll 256 (fun c s => hifBackpressure c (irqAgeExpiry c (waitUntilDone c s))) (cleLoadsEnd s)
  let s2 := forAll 12 (fun b s => imgReplyTimeout b (linkMgmtTimeout b (bringupTimeout b false (skewExceeded b (downSleep b s))))) s1
  let s3 := forAll 160 testBurst (forAll 16 frameTimeout (holdoverLong (forAll 2 receiptTimeout s2)))
  recorderFlush (readyTimeout (shutdownGating (layerDeadlinePassed s3)))

/-- The units that count time or follow their own course at a tick `dt` after the last. -/
def unitsTick (dt : Nat) (s : State) : State :=
  let s1 := forAll 8 portTick (forAll 8 axisTick s)
  let s2 := forAll 12 (fun b s => bayTick dt b s) (imgTick dt (dmcTick dt s1))
  let s3 := if s2.now % 1000000 = 0 then cmpLoad (pipeLoad s2) else s2
  timesUp (ungateBusy (bpTick dt (farTick (sinkTime dt s3))))

/-- Step 1: every stall outputs (R18). -/
def outputAll (s : State) : State :=
  forAll 48 (fun g s => traceStall g (farNote g (outputStep g s))) { s with layerMv := s.layerMv + 1 }


/-- What a superframe boundary begins: the set-points of the servos, the traces of axes and ports, the SUPERFRAME blocks; and at a
millisecond the evaluation of the temperatures (R213, R355, R415, R502). -/
def boundaryBegin (s : State) : State :=
  if s.now % 4000 = 0 then
    traceSlow { forAll 48 servoBoundary s with superDue := true, thmDue := s.thmDue || decide (s.now % 1000000 = 0) }
  else s

/-- The tick that begins a microvector `dt` after the last: step 1, then a snapshot whose freeze tick this is (R32, R496), and
then what was asked for takes effect. -/
def microvectorBegin (dt : Nat) (s : State) : State :=
  let s1 := takeRequests (snapshotCapture (outputAll (unitsTick dt s)))
  sweepSeams (forAll 64 traceTick (boundaryBegin (forAll 48 takeFault s1)))

/-- The servos evaluate each boundary before the next one (R213). -/
def servoBefore (s : State) : State :=
  if s.now / 4000 < nextTick s / 4000 then servoEvaluation [] s else s

/-- MICROVECTOR_TICK. `errs` names stalls whose planner meets an uncorrectable read: 1 in a grid, 2 in a compare table. -/
def microvectorTick (errs : List (Fin 48 × Nat)) (s : State) : State :=
  let s1 := servoBefore (microvectorRest errs (sendSetpoints (thermalStep (superframe (settleStates s)))))
  let s2 := forAll 8 (fun p s => portRun p (nextTick s) s) s1
  microvectorBegin (nextTick s2 - s2.now) (advance s2)

def execMicrovectorTick (errs : List (Fin 48 × Nat)) (s : State) : Host.Outcome State Fault Refusal :=
  .next (microvectorTick errs s)

end Machine
end Sys2Proof
end

