-- ==== Sys2Proof/Machine/Dispatch.lean ====
section
/-!
DEFINITION. The dispatch of a command to its meaning: one arm per constructor of `Instr`.
-/
namespace Sys2Proof
namespace Machine

/-- The effect of a command on everything but the queue. -/
def exec (i : Instr) (s : State) : Host.Outcome State Fault Refusal :=
  match i with
  | .microvectorTick errs => Sys2Proof.Machine.execMicrovectorTick errs s
  | .squash g => Sys2Proof.Machine.execSquash g s
  | .mvUnderrun g => Sys2Proof.Machine.execMvUnderrun g s
  | .mvPeriodWrite sec v => Sys2Proof.Machine.execMvPeriodWrite sec v s
  | .mvPeriodChange => Sys2Proof.Machine.execMvPeriodChange s
  | .bayMapWrite sec b v => Sys2Proof.Machine.execBayMapWrite sec b v s
  | .stableEnableWrite sec v => Sys2Proof.Machine.execStableEnableWrite sec v s
  | .layerSetWrite sec w => Sys2Proof.Machine.execLayerSetWrite sec w s
  | .layerBarrierReached => Sys2Proof.Machine.execLayerBarrierReached s
  | .registerWrite sec o w => Sys2Proof.Machine.execRegisterWrite sec o w s
  | .readClear sec o wide => Sys2Proof.Machine.execReadClear sec o wide s
  | .unsupportedAccess o write => Sys2Proof.Machine.execUnsupportedAccess o write s
  | .atomicOpRequest off => Sys2Proof.Machine.execAtomicOpRequest off s
  | .ctxEnable sec c => Sys2Proof.Machine.execCtxEnable sec c s
  | .ctxDisable sec c => Sys2Proof.Machine.execCtxDisable sec c s
  | .ctxResume sec c => Sys2Proof.Machine.execCtxResume sec c s
  | .ctxDrainDone c => Sys2Proof.Machine.execCtxDrainDone c s
  | .sqTailDoorbell c v hi => Sys2Proof.Machine.execSqTailDoorbell c v hi s
  | .cqHeadDoorbell c v => Sys2Proof.Machine.execCqHeadDoorbell c v s
  | .doorbellAccessError off acc => Sys2Proof.Machine.execDoorbellAccessError off acc s
  | .descriptorFetch descs err => Sys2Proof.Machine.execDescriptorFetch descs err s
  | .duplicateCompletion c => Sys2Proof.Machine.execDuplicateCompletion c s
  | .payloadReadError c a kind => Sys2Proof.Machine.execPayloadReadError c a kind s
  | .completionPost c => Sys2Proof.Machine.execCompletionPost c s
  | .irqAgeExpiry c => Sys2Proof.Machine.execIrqAgeExpiry c s
  | .hifBackpressure c => Sys2Proof.Machine.execHifBackpressure c s
  | .versionOfferWrite sec v => Sys2Proof.Machine.execVersionOfferWrite sec v s
  | .lastSeqWrite sec c v => Sys2Proof.Machine.execLastSeqWrite sec c v s
  | .mailboxPost v => Sys2Proof.Machine.execMailboxPost v s
  | .mailboxResponse => Sys2Proof.Machine.execMailboxResponse s
  | .functionLevelReset => Sys2Proof.Machine.execFunctionLevelReset s
  | .hotReset => Sys2Proof.Machine.execHotReset s
  | .dataLinkDown => Sys2Proof.Machine.execDataLinkDown s
  | .dataLinkUp speed width => Sys2Proof.Machine.execDataLinkUp speed width s
  | .d3hotEntry => Sys2Proof.Machine.execD3hotEntry s
  | .l1Change inL1 => Sys2Proof.Machine.execL1Change inL1 s
  | .perstAssert => Sys2Proof.Machine.execPerstAssert s
  | .nop c => Sys2Proof.Machine.execNop c s
  | .waitUntil c => Sys2Proof.Machine.execWaitUntil c s
  | .waitUntilDone c => Sys2Proof.Machine.execWaitUntilDone c s
  | .progLoad c r => Sys2Proof.Machine.execProgLoad c r s
  | .progLoadPacked c r => Sys2Proof.Machine.execProgLoadPacked c r s
  | .progLoadSealed c r plain => Sys2Proof.Machine.execProgLoadSealed c r plain s
  | .loadVisible c => Sys2Proof.Machine.execLoadVisible c s
  | .release c => Sys2Proof.Machine.execRelease c s
  | .hold c => Sys2Proof.Machine.execHold c s
  | .resume c => Sys2Proof.Machine.execResume c s
  | .abort c => Sys2Proof.Machine.execAbort c s
  | .cmdHold sec g => Sys2Proof.Machine.execCmdHold sec g s
  | .cmdResume sec g => Sys2Proof.Machine.execCmdResume sec g s
  | .cmdAbort sec g => Sys2Proof.Machine.execCmdAbort sec g s
  | .holdAllHold sec => Sys2Proof.Machine.execHoldAllHold sec s
  | .holdAllResume sec => Sys2Proof.Machine.execHoldAllResume sec s
  | .progRegionWrite sec g w => Sys2Proof.Machine.execProgRegionWrite sec g w s
  | .stallEnable sec g v => Sys2Proof.Machine.execStallEnable sec g v s
  | .stallOnline g => Sys2Proof.Machine.execStallOnline g s
  | .stallDisable sec g v => Sys2Proof.Machine.execStallDisable sec g v s
  | .scanNop g => Sys2Proof.Machine.execScanNop g s
  | .jump g => Sys2Proof.Machine.execJump g s
  | .markLine g => Sys2Proof.Machine.execMarkLine g s
  | .markArc g => Sys2Proof.Machine.execMarkArc g s
  | .powerRamp g => Sys2Proof.Machine.execPowerRamp g s
  | .wobble g => Sys2Proof.Machine.execWobble g s
  | .speedPower g => Sys2Proof.Machine.execSpeedPower g s
  | .delaySet g => Sys2Proof.Machine.execDelaySet g s
  | .compareArm g => Sys2Proof.Machine.execCompareArm g s
  | .islandBegin g => Sys2Proof.Machine.execIslandBegin g s
  | .islandEnd g => Sys2Proof.Machine.execIslandEnd g s
  | .layerEnd g => Sys2Proof.Machine.execLayerEnd g s
  | .syncBarrier g => Sys2Proof.Machine.execSyncBarrier g s
  | .seamHandover g => Sys2Proof.Machine.execSeamHandover g s
  | .programEnd g => Sys2Proof.Machine.execProgramEnd g s
  | .programError g => Sys2Proof.Machine.execProgramError g s
  | .layerEndReached g => Sys2Proof.Machine.execLayerEndReached g s
  | .syncBarrierReached g => Sys2Proof.Machine.execSyncBarrierReached g s
  | .programEndReached g => Sys2Proof.Machine.execProgramEndReached g s
  | .syncBarrierRelease g => Sys2Proof.Machine.execSyncBarrierRelease g s
  | .syncMismatch g => Sys2Proof.Machine.execSyncMismatch g s
  | .syncTimeout g => Sys2Proof.Machine.execSyncTimeout g s
  | .programEmpty g => Sys2Proof.Machine.execProgramEmpty g s
  | .programEmptyCleared g => Sys2Proof.Machine.execProgramEmptyCleared g s
  | .strokeTimeout g => Sys2Proof.Machine.execStrokeTimeout g s
  | .islandDeadline g => Sys2Proof.Machine.execIslandDeadline g s
  | .holdTakesEffect g => Sys2Proof.Machine.execHoldTakesEffect g s
  | .holdReturn g => Sys2Proof.Machine.execHoldReturn g s
  | .abortComplete g => Sys2Proof.Machine.execAbortComplete g s
  | .heartbeatPeriodWrite sec v => Sys2Proof.Machine.execHeartbeatPeriodWrite sec v s
  | .heartbeatKick sec => Sys2Proof.Machine.execHeartbeatKick sec s
  | .heartbeatExpired => Sys2Proof.Machine.execHeartbeatExpired s
  | .layerDeadlinePassed => Sys2Proof.Machine.execLayerDeadlinePassed s
  | .starvedHold g => Sys2Proof.Machine.execStarvedHold g s
  | .starvedCleared g => Sys2Proof.Machine.execStarvedCleared g s
  | .trajectoryFault g d => Sys2Proof.Machine.execTrajectoryFault g d s
  | .gridSelWrite sec g v => Sys2Proof.Machine.execGridSelWrite sec g v s
  | .gridVerification g => Sys2Proof.Machine.execGridVerification g s
  | .gridWindowWrite sec st o v => Sys2Proof.Machine.execGridWindowWrite sec st o v s
  | .trjConfigWrite sec g o v => Sys2Proof.Machine.execTrjConfigWrite sec g o v s
  | .gateCfgWrite sec g v => Sys2Proof.Machine.execGateCfgWrite sec g v s
  | .gateTrimWrite sec g v => Sys2Proof.Machine.execGateTrimWrite sec g v s
  | .trimApplied g => Sys2Proof.Machine.execTrimApplied g s
  | .readbackMismatch g on => Sys2Proof.Machine.execReadbackMismatch g on s
  | .outputConfigWrite sec g r v => Sys2Proof.Machine.execOutputConfigWrite sec g r v s
  | .lsafeInputLow b => Sys2Proof.Machine.execLsafeInputLow b s
  | .lsafeInputHigh b => Sys2Proof.Machine.execLsafeInputHigh b s
  | .laserInhibitAsserted => Sys2Proof.Machine.execLaserInhibitAsserted s
  | .inhibitStopComplete g => Sys2Proof.Machine.execInhibitStopComplete g s
  | .lsafeDiscrepancy => Sys2Proof.Machine.execLsafeDiscrepancy s
  | .clearDiscrepancy sec => Sys2Proof.Machine.execClearDiscrepancy sec s
  | .clearReadback sec bad => Sys2Proof.Machine.execClearReadback sec bad s
  | .lsafeSwWrite sec v => Sys2Proof.Machine.execLsafeSwWrite sec v s
  | .lsafeSecWrite sec v => Sys2Proof.Machine.execLsafeSecWrite sec v s
  | .laserInhibitReleased => Sys2Proof.Machine.execLaserInhibitReleased s
  | .marshalConfigWrite sec r v => Sys2Proof.Machine.execMarshalConfigWrite sec r v s
  | .seamMoveWrite sec w => Sys2Proof.Machine.execSeamMoveWrite sec w s
  | .seamMove => Sys2Proof.Machine.execSeamMove s
  | .seamPauseEnd g => Sys2Proof.Machine.execSeamPauseEnd g s
  | .seamHold g => Sys2Proof.Machine.execSeamHold g s
  | .photodiodeFrame b broken head data => Sys2Proof.Machine.execPhotodiodeFrame b broken head data s
  | .positionFrame b broken blocks => Sys2Proof.Machine.execPositionFrame b broken blocks s
  | .energyEvaluation g err => Sys2Proof.Machine.execEnergyEvaluation g err s
  | .featureDelivery g v seq gen => Sys2Proof.Machine.execFeatureDelivery g v seq gen s
  | .servoEvaluation errs => Sys2Proof.Machine.execServoEvaluation errs s
  | .servoClose sec st t => Sys2Proof.Machine.execServoClose sec st t s
  | .servoOpen sec st t => Sys2Proof.Machine.execServoOpen sec st t s
  | .servoClosed g => Sys2Proof.Machine.execServoClosed g s
  | .closeTimeout g => Sys2Proof.Machine.execCloseTimeout g s
  | .servoOpened g => Sys2Proof.Machine.execServoOpened g s
  | .bankSelect sec g v => Sys2Proof.Machine.execBankSelect sec g v s
  | .bankSwap g => Sys2Proof.Machine.execBankSwap g s
  | .energyConfigWrite sec g r v => Sys2Proof.Machine.execEnergyConfigWrite sec g r v s
  | .servoConfigWrite sec g r v => Sys2Proof.Machine.execServoConfigWrite sec g r v s
  | .coefficientWindowWrite sec st o v => Sys2Proof.Machine.execCoefficientWindowWrite sec st o v s
  | .cleLoad c r => Sys2Proof.Machine.execCleLoad c r s
  | .txnOpen c => Sys2Proof.Machine.execTxnOpen c s
  | .txnWrite c r => Sys2Proof.Machine.execTxnWrite c r s
  | .txnCommit c => Sys2Proof.Machine.execTxnCommit c s
  | .txnAbort c => Sys2Proof.Machine.execTxnAbort c s
  | .txnQuery c => Sys2Proof.Machine.execTxnQuery c s
  | .txnPresent => Sys2Proof.Machine.execTxnPresent s
  | .txnExpire => Sys2Proof.Machine.execTxnExpire s
  | .participantSettle => Sys2Proof.Machine.execParticipantSettle s
  | .commitTimeout => Sys2Proof.Machine.execCommitTimeout s
  | .gteConfigWrite sec high v => Sys2Proof.Machine.execGteConfigWrite sec high v s
  | .quadratureEdge p a b dt => Sys2Proof.Machine.execQuadratureEdge p a b dt s
  | .edgeRate p => Sys2Proof.Machine.execEdgeRate p s
  | .indexLatch p z dt => Sys2Proof.Machine.execIndexLatch p z dt s
  | .tooth p rise b dt => Sys2Proof.Machine.execTooth p rise b dt s
  | .absoluteFrame p dt r => Sys2Proof.Machine.execAbsoluteFrame p dt r s
  | .cableFault p pair dis => Sys2Proof.Machine.execCableFault p pair dis s
  | .speedWindow p => Sys2Proof.Machine.execSpeedWindow p s
  | .standstill p => Sys2Proof.Machine.execStandstill p s
  | .feedbackFaultClear sec p => Sys2Proof.Machine.execFeedbackFaultClear sec p s
  | .reref sec p => Sys2Proof.Machine.execReref sec p s
  | .portEnable sec p v => Sys2Proof.Machine.execPortEnable sec p v s
  | .portDisable sec p v => Sys2Proof.Machine.execPortDisable sec p v s
  | .feedbackConfigWrite sec p o v => Sys2Proof.Machine.execFeedbackConfigWrite sec p o v s
  | .posRead sec p => Sys2Proof.Machine.execPosRead sec p s
  | .axisMove c => Sys2Proof.Machine.execAxisMove c s
  | .axisDwell c => Sys2Proof.Machine.execAxisDwell c s
  | .axisStop c => Sys2Proof.Machine.execAxisStop c s
  | .axisSetPos c => Sys2Proof.Machine.execAxisSetPos c s
  | .axisResume c => Sys2Proof.Machine.execAxisResume c s
  | .queuedMoveStart a => Sys2Proof.Machine.execQueuedMoveStart a s
  | .moveEnd a => Sys2Proof.Machine.execMoveEnd a s
  | .axisLimitChange a => Sys2Proof.Machine.execAxisLimitChange a s
  | .axisCmdStop sec a => Sys2Proof.Machine.execAxisCmdStop sec a s
  | .stopAll sec => Sys2Proof.Machine.execStopAll sec s
  | .axisCmdResume sec a => Sys2Proof.Machine.execAxisCmdResume sec a s
  | .axisFaultClear sec a => Sys2Proof.Machine.execAxisFaultClear sec a s
  | .loadAngleSet a va vb ia ib => Sys2Proof.Machine.execLoadAngleSet a va vb ia ib s
  | .faultStopEnd a => Sys2Proof.Machine.execFaultStopEnd a s
  | .axisEnable sec a v => Sys2Proof.Machine.execAxisEnable sec a v s
  | .axisDisable sec a v => Sys2Proof.Machine.execAxisDisable sec a v s
  | .axisConfigWrite sec a o v => Sys2Proof.Machine.execAxisConfigWrite sec a o v s
  | .frameStart p vc dt => Sys2Proof.Machine.execFrameStart p vc dt s
  | .frameEnd p vc dt => Sys2Proof.Machine.execFrameEnd p vc dt s
  | .linePacket p vc dtype hdr crcOk pix => Sys2Proof.Machine.execLinePacket p vc dtype hdr crcOk pix s
  | .lineProcessed x ecc => Sys2Proof.Machine.execLineProcessed x ecc s
  | .frameFinished n => Sys2Proof.Machine.execFrameFinished n s
  | .frameTimeout n => Sys2Proof.Machine.execFrameTimeout n s
  | .sensorEnable sec n v => Sys2Proof.Machine.execSensorEnable sec n v s
  | .sensorDisable sec n v => Sys2Proof.Machine.execSensorDisable sec n v s
  | .sensorConfigWrite sec n o v => Sys2Proof.Machine.execSensorConfigWrite sec n o v s
  | .camFrameBuf c => Sys2Proof.Machine.execCamFrameBuf c s
  | .camStatsBuf c => Sys2Proof.Machine.execCamStatsBuf c s
  | .camSettings c r => Sys2Proof.Machine.execCamSettings c r s
  | .cciXfer c r => Sys2Proof.Machine.execCciXfer c r s
  | .settingsWriteStart p => Sys2Proof.Machine.execSettingsWriteStart p s
  | .cciListDone p fail reads => Sys2Proof.Machine.execCciListDone p fail reads s
  | .pipelineFault x => Sys2Proof.Machine.execPipelineFault x s
  | .pipelineClearFault sec x => Sys2Proof.Machine.execPipelineClearFault sec x s
  | .cmpEncode c r st => Sys2Proof.Machine.execCmpEncode c r st s
  | .cmpDecode c r st => Sys2Proof.Machine.execCmpDecode c r st s
  | .blockStart e ecc => Sys2Proof.Machine.execBlockStart e ecc s
  | .jobComplete e => Sys2Proof.Machine.execJobComplete e s
  | .cmpEngineFault e => Sys2Proof.Machine.execCmpEngineFault e s
  | .engineClearFault sec e => Sys2Proof.Machine.execEngineClearFault sec e s
  | .cmpConfigWrite sec v => Sys2Proof.Machine.execCmpConfigWrite sec v s
  | .superframe => Sys2Proof.Machine.execSuperframe s
  | .upstreamSuperframe b skew => Sys2Proof.Machine.execUpstreamSuperframe b skew s
  | .receiverDetect b term clk => Sys2Proof.Machine.execReceiverDetect b term clk s
  | .eyeSearchDone b width centre dfe => Sys2Proof.Machine.execEyeSearchDone b width centre dfe s
  | .wordLock b slips partner => Sys2Proof.Machine.execWordLock b slips partner s
  | .slip sec b => Sys2Proof.Machine.execSlip sec b s
  | .probeEcho b trip turn => Sys2Proof.Machine.execProbeEcho b trip turn s
  | .capReply b vmin vmax vendor model fw slots => Sys2Proof.Machine.execCapReply b vmin vmax vendor model fw slots s
  | .capAck b version => Sys2Proof.Machine.execCapAck b version s
  | .bringupTimeout b search => Sys2Proof.Machine.execBringupTimeout b search s
  | .linkClockLoss b => Sys2Proof.Machine.execLinkClockLoss b s
  | .wordLockLoss b bad => Sys2Proof.Machine.execWordLockLoss b bad s
  | .errorRate b n => Sys2Proof.Machine.execErrorRate b n s
  | .markerLoss b => Sys2Proof.Machine.execMarkerLoss b s
  | .skewExceeded b => Sys2Proof.Machine.execSkewExceeded b s
  | .downSleep b => Sys2Proof.Machine.execDownSleep b s
  | .downWake b => Sys2Proof.Machine.execDownWake b s
  | .sleepUp b => Sys2Proof.Machine.execSleepUp b s
  | .testEnter sec b => Sys2Proof.Machine.execTestEnter sec b s
  | .testExit sec b n errs => Sys2Proof.Machine.execTestExit sec b n errs s
  | .prbsInject sec b => Sys2Proof.Machine.execPrbsInject sec b s
  | .restart sec b => Sys2Proof.Machine.execRestart sec b s
  | .bayEnable sec b => Sys2Proof.Machine.execBayEnable sec b s
  | .bayDisable sec b => Sys2Proof.Machine.execBayDisable sec b s
  | .linkConfigWrite sec b o v => Sys2Proof.Machine.execLinkConfigWrite sec b o v s
  | .linkMgmt c r => Sys2Proof.Machine.execLinkMgmt c r s
  | .mgmtFrameUp b blocks ok => Sys2Proof.Machine.execMgmtFrameUp b blocks ok s
  | .linkMgmtTimeout b => Sys2Proof.Machine.execLinkMgmtTimeout b s
  | .sramScrubPass late errs => Sys2Proof.Machine.execSramScrubPass late errs s
  | .patrolScrub busy errs => Sys2Proof.Machine.execPatrolScrub busy errs s
  | .mr4Poll hot => Sys2Proof.Machine.execMr4Poll hot s
  | .dqsOscillatorCheck => Sys2Proof.Machine.execDqsOscillatorCheck s
  | .selfRefreshEntry ch => Sys2Proof.Machine.execSelfRefreshEntry ch s
  | .selfRefreshExit ch => Sys2Proof.Machine.execSelfRefreshExit ch s
  | .freqChange sec => Sys2Proof.Machine.execFreqChange sec s
  | .freqChangeDone => Sys2Proof.Machine.execFreqChangeDone s
  | .retrain sec => Sys2Proof.Machine.execRetrain sec s
  | .trainingDone ok res => Sys2Proof.Machine.execTrainingDone ok res s
  | .memRead c errs => Sys2Proof.Machine.execMemRead c errs s
  | .memWrite c r errs => Sys2Proof.Machine.execMemWrite c r errs s
  | .dmcConfigWrite sec scrub v => Sys2Proof.Machine.execDmcConfigWrite sec scrub v s
  | .referenceMonitorTrip r dev => Sys2Proof.Machine.execReferenceMonitorTrip r dev s
  | .referenceQualified r => Sys2Proof.Machine.execReferenceQualified r s
  | .switch sec => Sys2Proof.Machine.execSwitch sec s
  | .pullComplete => Sys2Proof.Machine.execPullComplete s
  | .pllUnlock => Sys2Proof.Machine.execPllUnlock s
  | .safeExit => Sys2Proof.Machine.execSafeExit s
  | .clockGate unit gate => Sys2Proof.Machine.execClockGate unit gate s
  | .gateDenied unit => Sys2Proof.Machine.execGateDenied unit s
  | .aoCrystalChange => Sys2Proof.Machine.execAoCrystalChange s
  | .railWarning rail => Sys2Proof.Machine.execRailWarning rail s
  | .railReset rail => Sys2Proof.Machine.execRailReset rail s
  | .powerFailWarning ok => Sys2Proof.Machine.execPowerFailWarning ok s
  | .thermalEvaluation => Sys2Proof.Machine.execThermalEvaluation s
  | .hardLimit => Sys2Proof.Machine.execHardLimit s
  | .shutdownGating => Sys2Proof.Machine.execShutdownGating s
  | .sensorReset sec v => Sys2Proof.Machine.execSensorReset sec v s
  | .thermalConfigWrite sec r v => Sys2Proof.Machine.execThermalConfigWrite sec r v s
  | .ptpSync p hdr twoStep ident rx origin corr => Sys2Proof.Machine.execPtpSync p hdr twoStep ident rx origin corr s
  | .followUp p hdr ident origin corr => Sys2Proof.Machine.execFollowUp p hdr ident origin corr s
  | .announce p hdr clock port ann => Sys2Proof.Machine.execAnnounce p hdr clock port ann s
  | .delayResp p hdr rx t4 corr => Sys2Proof.Machine.execDelayResp p hdr rx t4 corr s
  | .pdelayReq p hdr rx tx => Sys2Proof.Machine.execPdelayReq p hdr rx tx s
  | .syncSend p tx => Sys2Proof.Machine.execSyncSend p tx s
  | .announceReceiptTimeout p => Sys2Proof.Machine.execAnnounceReceiptTimeout p s
  | .timeHoldoverLong => Sys2Proof.Machine.execTimeHoldoverLong s
  | .acceptStep sec => Sys2Proof.Machine.execAcceptStep sec s
  | .acceptSlew sec => Sys2Proof.Machine.execAcceptSlew sec s
  | .set sec => Sys2Proof.Machine.execSet sec s
  | .setApplied => Sys2Proof.Machine.execSetApplied s
  | .slewComplete => Sys2Proof.Machine.execSlewComplete s
  | .timeAccept c => Sys2Proof.Machine.execTimeAccept c s
  | .timeSet c => Sys2Proof.Machine.execTimeSet c s
  | .timeRead c => Sys2Proof.Machine.execTimeRead c s
  | .timeConfigWrite sec r w => Sys2Proof.Machine.execTimeConfigWrite sec r w s
  | .info => Sys2Proof.Machine.execInfo s
  | .keyImport r sigOk key => Sys2Proof.Machine.execKeyImport r sigOk key s
  | .keyErase => Sys2Proof.Machine.execKeyErase s
  | .settingsApply r sigOk body => Sys2Proof.Machine.execSettingsApply r sigOk body s
  | .recorderAttest sig => Sys2Proof.Machine.execRecorderAttest sig s
  | .recorderClear r sigOk => Sys2Proof.Machine.execRecorderClear r sigOk s
  | .lifecycleAdvance r sigOk newKey => Sys2Proof.Machine.execLifecycleAdvance r sigOk newKey s
  | .random bytes => Sys2Proof.Machine.execRandom bytes s
  | .bwtWrite sec w => Sys2Proof.Machine.execBwtWrite sec w s
  | .regionTableWrite sec r v => Sys2Proof.Machine.execRegionTableWrite sec r v s
  | .regionZeroingDone => Sys2Proof.Machine.execRegionZeroingDone s
  | .limitWrite sec g k v => Sys2Proof.Machine.execLimitWrite sec g k v s
  | .tckFault health => Sys2Proof.Machine.execTckFault health s
  | .farRun c => Sys2Proof.Machine.execFarRun c s
  | .lane b centre => Sys2Proof.Machine.execLane b centre s
  | .dfe b => Sys2Proof.Machine.execDfe b s
  | .dfeStep b width => Sys2Proof.Machine.execDfeStep b width s
  | .gate g => Sys2Proof.Machine.execGate g s
  | .threshold g => Sys2Proof.Machine.execThreshold g s
  | .linkTest b => Sys2Proof.Machine.execLinkTest b s
  | .linkTestEnd b bits errs => Sys2Proof.Machine.execLinkTestEnd b bits errs s
  | .farConfigWrite sec r g v => Sys2Proof.Machine.execFarConfigWrite sec r g v s
  | .lampFault k short => Sys2Proof.Machine.execLampFault k short s
  | .testBurst k => Sys2Proof.Machine.execTestBurst k s
  | .fadeStep => Sys2Proof.Machine.execFadeStep s
  | .lmpPatternFault k => Sys2Proof.Machine.execLmpPatternFault k s
  | .groupClear sec k => Sys2Proof.Machine.execGroupClear sec k s
  | .groupClearDone k bad => Sys2Proof.Machine.execGroupClearDone k bad s
  | .lampClear sec k pass => Sys2Proof.Machine.execLampClear sec k pass s
  | .patClear sec k => Sys2Proof.Machine.execPatClear sec k s
  | .beaconBindWrite sec v => Sys2Proof.Machine.execBeaconBindWrite sec v s
  | .lampConfigWrite sec o v => Sys2Proof.Machine.execLampConfigWrite sec o v s
  | .pendClear sec w v => Sys2Proof.Machine.execPendClear sec w v s
  | .eventConfigWrite sec n v => Sys2Proof.Machine.execEventConfigWrite sec n v s
  | .recorderFlush => Sys2Proof.Machine.execRecorderFlush s
  | .cursorWrite sec v => Sys2Proof.Machine.execCursorWrite sec v s
  | .recordFetchDone => Sys2Proof.Machine.execRecordFetchDone s
  | .recordReadAdvance sec => Sys2Proof.Machine.execRecordReadAdvance sec s
  | .freeze sec => Sys2Proof.Machine.execFreeze sec s
  | .snapIn rising => Sys2Proof.Machine.execSnapIn rising s
  | .snapshotCapture => Sys2Proof.Machine.execSnapshotCapture s
  | .snapshotRelease sec => Sys2Proof.Machine.execSnapshotRelease sec s
  | .lifetimeSave sec ok => Sys2Proof.Machine.execLifetimeSave sec ok s
  | .periodicSave ok => Sys2Proof.Machine.execPeriodicSave ok s
  | .operatingSecond => Sys2Proof.Machine.execOperatingSecond s
  | .traceFlush c => Sys2Proof.Machine.execTraceFlush c s
  | .dgnSnapRead c => Sys2Proof.Machine.execDgnSnapRead c s
  | .dgnLifetimeRead c => Sys2Proof.Machine.execDgnLifetimeRead c s
  | .dgnRecorderRead c => Sys2Proof.Machine.execDgnRecorderRead c s
  | .dgnTraceBuf c => Sys2Proof.Machine.execDgnTraceBuf c s
  | .dgnFreeze c => Sys2Proof.Machine.execDgnFreeze c s
  | .traceConfigWrite sec c v => Sys2Proof.Machine.execTraceConfigWrite sec c v s
  | .powerOnReset => Sys2Proof.Machine.execPowerOnReset s
  | .deviceReset => Sys2Proof.Machine.execDeviceReset s
  | .startUp b => Sys2Proof.Machine.execStartUp b s
  | .readyTimeout => Sys2Proof.Machine.execReadyTimeout s
  | .recoveryLoad sec r sigOk hashOk => Sys2Proof.Machine.execRecoveryLoad sec r sigOk hashOk s
  | .recoveryReboot sec => Sys2Proof.Machine.execRecoveryReboot sec s
  | .uartFrame frame sigOk hashOk => Sys2Proof.Machine.execUartFrame frame sigOk hashOk s
  | .imgWrite c r sigOk hashOk => Sys2Proof.Machine.execImgWrite c r sigOk hashOk s
  | .imgActivate c => Sys2Proof.Machine.execImgActivate c s
  | .inPlaceCopyDone => Sys2Proof.Machine.execInPlaceCopyDone s
  | .bootConfigWrite sec r w => Sys2Proof.Machine.execBootConfigWrite sec r w s
  | .linkSpeedWidthChange speed width => Sys2Proof.Machine.execLinkSpeedWidthChange speed width s
  | .sequencerFault t stalls => Sys2Proof.Machine.execSequencerFault t stalls s
  | .controlledStopComplete a => Sys2Proof.Machine.execControlledStopComplete a s
  | .deskewSequence p ok => Sys2Proof.Machine.execDeskewSequence p ok s
  | .upstreamWake b => Sys2Proof.Machine.execUpstreamWake b s
  | .laneTracking b centre => Sys2Proof.Machine.execLaneTracking b centre s
  | .probeTimeout b => Sys2Proof.Machine.execProbeTimeout b s
  | .ethernetLinkDown p frags => Sys2Proof.Machine.execEthernetLinkDown p frags s
  | .ethernetLinkUp p mbps => Sys2Proof.Machine.execEthernetLinkUp p mbps s
  | .delayReqSend p tx => Sys2Proof.Machine.execDelayReqSend p tx s
  | .announceSend p => Sys2Proof.Machine.execAnnounceSend p s
  | .delayReq p hdr rx => Sys2Proof.Machine.execDelayReq p hdr rx s
  | .imgReplyTimeout b => Sys2Proof.Machine.execImgReplyTimeout b s
  | .mgmtReady => Sys2Proof.Machine.execMgmtReady s
  | .railWarningCleared rail => Sys2Proof.Machine.execRailWarningCleared rail s
  | .temperatureConversion vals => Sys2Proof.Machine.execTemperatureConversion vals s

end Machine
end Sys2Proof
end

