-- ==== Sys2Proof/Safety.lean ====
section
/-!
DEFINITION. What counts as a safe run, in the terms the claims use: a command that completes, a state whose register file and
memories have their one canonical form, and the parts of the state that a command may change.
-/
namespace Sys2Proof
namespace Machine

/-! ## Commands that complete -/

/-- The command completes: `exec` answers a next state, and `P` holds of it. -/
def Completes (i : Instr) (s : State) (P : State → Prop) : Prop := ∃ t, exec i s = .next t ∧ P t

/-- The state goes on: its next step is neither a fault nor a refusal. -/
def State.safe (s : State) : Prop := ∃ t, step s = .next t

/-! ## The canonical form -/

/-- The canonical form of the register file: offsets strictly rising, and no entry at its register's reset value, so that
equal register files are equal lists. -/
def regsOk (l : List (Nat × Word)) : Bool := cellsRising l && l.all fun c => c.2 != resetWord c.1

/-- The register file, the six lofts, the hayloft and the LP5 memory have their canonical form. -/
def State.canonical (s : State) : Prop :=
  regsOk s.regs = true ∧ (∀ i : Fin 6, Mem.wf s.lofts[i] = true) ∧ Mem.wf s.hayloft = true ∧ Mem.wf s.lp5 = true

/-! ## The parts of the state -/

/-- The parts of the state that a command may leave alone: the time, the microvector period, what was asked of time and
period, the memories, the keys, the Region Table, everything that a reset sets anew, and the units of each kind. -/
inductive Part where
  | time | period | ask | mem | keys | world | reset
  | stalls | engs | srvs | seams | ports | axes | sens | bays | txns | lamps | fars | ctxs | imgs | tports |
  traces | cmpJobs | cci
  deriving DecidableEq, Repr

/-- A part of the state is the same in two states. -/
def Part.same (p : Part) (s t : State) : Prop :=
  match p with
  | .time => t.now = s.now ∧ t.beam = s.beam
  | .period => t.mvP = s.mvP
  | .ask => t.tmsSet = s.tmsSet ∧ t.tmsAcc = s.tmsAcc ∧ t.periodNext = s.periodNext
  | .mem => t.lofts = s.lofts ∧ t.hayloft = s.hayloft ∧ t.lp5 = s.lp5
  | .keys => t.keys = s.keys ∧ t.signKey = s.signKey ∧ t.builderHash = s.builderHash
  | .world => t.rtab = s.rtab
  | .reset => True
  | .stalls => t.stalls = s.stalls
  | .engs => t.engs = s.engs
  | .srvs => t.srvs = s.srvs
  | .seams => t.seams = s.seams
  | .ports => t.ports = s.ports
  | .axes => t.axes = s.axes
  | .sens => t.sens = s.sens
  | .bays => t.bays = s.bays
  | .txns => t.txns = s.txns
  | .lamps => t.lamps = s.lamps
  | .fars => t.fars = s.fars
  | .ctxs => t.ctxs = s.ctxs
  | .imgs => t.imgs = s.imgs
  | .tports => t.tports = s.tports
  | .traces => t.traces = s.traces
  | .cmpJobs => t.cmpJobs = s.cmpJobs
  | .cci => t.cci = s.cci

/-- The parts that a command may change. `reset` stands for a reset, which sets everything anew but the keys and the images
(R10). -/
def touches (i : Instr) : List Part :=
  match i with
  | .layerSetWrite .. | .registerWrite .. | .unsupportedAccess .. | .atomicOpRequest ..
  | .doorbellAccessError .. | .versionOfferWrite .. | .mailboxPost .. | .mailboxResponse | .dataLinkUp ..
  | .l1Change .. | .stallEnable .. | .heartbeatPeriodWrite .. | .heartbeatKick .. | .layerDeadlinePassed
  | .starvedCleared .. | .gateCfgWrite .. | .outputConfigWrite .. | .lsafeInputHigh .. | .clearDiscrepancy ..
  | .laserInhibitReleased | .marshalConfigWrite .. | .seamMoveWrite .. | .servoClosed .. | .servoOpened ..
  | .servoConfigWrite .. | .gteConfigWrite .. | .pipelineClearFault .. | .downSleep .. | .downWake ..
  | .prbsInject .. | .mr4Poll .. | .dqsOscillatorCheck | .selfRefreshEntry .. | .selfRefreshExit ..
  | .freqChange .. | .freqChangeDone | .retrain .. | .trainingDone .. | .dmcConfigWrite ..
  | .referenceQualified .. | .switch .. | .pullComplete | .safeExit | .clockGate .. | .gateDenied ..
  | .aoCrystalChange | .railWarning .. | .powerFailWarning .. | .sensorReset .. | .thermalConfigWrite ..
  | .pdelayReq .. | .syncSend .. | .timeHoldoverLong | .info | .settingsApply .. | .recorderAttest ..
  | .recorderClear .. | .random .. | .bwtWrite .. | .limitWrite .. | .tckFault .. | .groupClear ..
  | .pendClear .. | .eventConfigWrite .. | .recorderFlush | .cursorWrite .. | .recordFetchDone
  | .recordReadAdvance .. | .freeze .. | .snapIn .. | .snapshotRelease .. | .lifetimeSave ..
  | .periodicSave .. | .operatingSecond | .bootConfigWrite .. | .linkSpeedWidthChange .. | .deskewSequence ..
  | .upstreamWake .. | .laneTracking .. | .announceSend .. | .delayReq .. | .railWarningCleared ..
  | .temperatureConversion .. => []
  | .acceptStep .. | .acceptSlew .. | .set .. => [.ask]
  | .gridWindowWrite .. | .coefficientWindowWrite .. | .regionZeroingDone => [.mem]
  | .keyImport .. | .keyErase | .lifecycleAdvance .. => [.keys]
  | .regionTableWrite .. => [.world]
  | .powerOnReset => [.reset]
  | .squash .. | .cmdHold .. | .cmdResume .. | .holdAllHold .. | .holdAllResume .. | .progRegionWrite ..
  | .layerEndReached .. | .syncBarrierReached .. | .syncBarrierRelease .. | .programEmptyCleared ..
  | .islandDeadline .. | .gridSelWrite .. | .gridVerification .. | .trjConfigWrite .. | .readbackMismatch ..
  | .laserInhibitAsserted | .clearReadback .. | .lsafeInputLow .. | .lsafeDiscrepancy | .lsafeSwWrite ..
  | .lsafeSecWrite .. | .sramScrubPass .. | .patrolScrub .. | .referenceMonitorTrip .. | .pllUnlock
  | .lampFault .. | .beaconBindWrite .. => [.stalls]
  | .featureDelivery .. | .bankSelect .. | .bankSwap .. | .energyConfigWrite .. => [.engs]
  | .bayMapWrite .. | .servoClose .. | .servoOpen .. => [.srvs]
  | .standstill .. | .reref .. | .posRead .. | .feedbackFaultClear .. => [.ports]
  | .queuedMoveStart .. | .axisLimitChange .. | .axisCmdStop .. | .stopAll .. | .axisCmdResume ..
  | .axisFaultClear .. | .loadAngleSet .. | .axisEnable .. | .axisDisable .. | .axisConfigWrite .. => [.axes]
  | .upstreamSuperframe .. | .receiverDetect .. | .wordLock .. | .capAck .. | .bringupTimeout ..
  | .sleepUp .. | .probeTimeout .. | .eyeSearchDone .. => [.bays]
  | .testBurst .. | .fadeStep | .lmpPatternFault .. | .lampClear .. | .patClear .. => [.lamps]
  | .gateTrimWrite .. | .trimApplied .. => [.fars]
  | .ctxEnable .. | .ctxDisable .. | .ctxResume .. | .ctxDrainDone .. | .sqTailDoorbell ..
  | .cqHeadDoorbell .. | .descriptorFetch .. | .duplicateCompletion .. | .payloadReadError ..
  | .completionPost .. | .irqAgeExpiry .. | .hifBackpressure .. | .lastSeqWrite .. | .nop .. | .waitUntil ..
  | .waitUntilDone .. | .progLoad .. | .txnQuery .. | .slewComplete | .timeRead .. | .snapshotCapture
  | .dgnSnapRead .. | .dgnLifetimeRead .. | .dgnRecorderRead .. | .dgnFreeze .. => [.ctxs]
  | .recoveryLoad .. | .uartFrame .. | .inPlaceCopyDone | .mgmtReady => [.imgs]
  | .delayResp .. | .delayReqSend .. => [.tports]
  | .engineClearFault .. | .cmpConfigWrite .. => [.cmpJobs]
  | .frameTimeout .. | .settingsWriteStart .. => [.cci]
  | .timeAccept .. | .timeSet .. => [.ask, .ctxs]
  | .cleLoad .. => [.mem, .ctxs]
  | .railReset .. | .deviceReset | .recoveryReboot .. => [.reset, .bays]
  | .stallOnline .. | .energyEvaluation .. => [.stalls, .engs]
  | .stableEnableWrite .. | .servoEvaluation .. | .closeTimeout .. => [.stalls, .srvs]
  | .stallDisable .. | .scanNop .. | .jump .. | .markLine .. | .markArc .. | .powerRamp .. | .wobble ..
  | .speedPower .. | .delaySet .. | .compareArm .. | .islandBegin .. | .islandEnd .. | .layerEnd ..
  | .syncBarrier .. | .seamHandover .. | .programEnd .. | .seamMove | .seamPauseEnd .. => [.stalls, .seams]
  | .hold .. | .syncTimeout .. | .programEmpty .. | .holdTakesEffect .. | .holdReturn .. | .starvedHold ..
  | .seamHold .. | .memRead .. => [.stalls, .ctxs]
  | .superframe => [.srvs, .bays]
  | .layerBarrierReached => [.seams, .txns]
  | .quadratureEdge .. | .edgeRate .. | .indexLatch .. | .tooth .. | .absoluteFrame .. | .cableFault ..
  | .speedWindow .. | .portEnable .. | .portDisable .. | .feedbackConfigWrite .. => [.ports, .axes]
  | .axisDwell .. | .axisStop .. | .axisSetPos .. | .axisResume .. | .moveEnd .. | .faultStopEnd ..
  | .controlledStopComplete .. => [.axes, .ctxs]
  | .frameStart .. | .linePacket .. | .camFrameBuf .. | .camStatsBuf .. | .pipelineFault .. => [.sens, .ctxs]
  | .frameEnd .. => [.sens, .cci]
  | .linkMgmt .. | .linkMgmtTimeout .. => [.bays, .ctxs]
  | .txnOpen .. | .txnWrite .. => [.txns, .ctxs]
  | .farRun .. | .dfe .. | .dfeStep .. | .gate .. | .threshold .. | .farConfigWrite .. => [.fars, .ctxs]
  | .imgWrite .. => [.ctxs, .imgs]
  | .announce .. | .timeConfigWrite .. | .announceReceiptTimeout .. | .ethernetLinkUp .. => [.ctxs, .tports]
  | .progLoadPacked .. | .progLoadSealed .. | .cmpEncode .. | .cmpDecode .. => [.ctxs, .cmpJobs]
  | .camSettings .. | .cciXfer .. => [.ctxs, .cci]
  | .readClear .. => [.stalls, .ports]
  | .lineProcessed .. => [.stalls, .sens]
  | .blockStart .. => [.stalls, .cmpJobs]
  | .hardLimit => [.stalls, .axes]
  | .groupClearDone .. | .lampConfigWrite .. => [.stalls, .lamps]
  | .readyTimeout => [.stalls, .imgs]
  | .mvPeriodChange => [.period, .ask, .stalls]
  | .ptpSync .. | .followUp .. => [.ask, .ctxs, .tports]
  | .loadVisible .. | .memWrite .. => [.mem, .stalls, .ctxs]
  | .programEndReached .. => [.stalls, .engs, .ctxs]
  | .slip .. | .probeEcho .. | .capReply .. | .linkClockLoss .. | .wordLockLoss .. | .errorRate ..
  | .markerLoss .. | .skewExceeded .. | .testEnter .. | .testExit .. | .restart .. | .bayEnable ..
  | .bayDisable .. | .positionFrame .. => [.stalls, .srvs, .bays]
  | .mvUnderrun .. | .abort .. | .cmdAbort .. | .programError .. | .syncMismatch .. | .strokeTimeout ..
  | .trajectoryFault .. | .inhibitStopComplete .. | .sequencerFault .. => [.stalls, .seams, .ctxs]
  | .functionLevelReset | .hotReset | .dataLinkDown | .d3hotEntry | .perstAssert | .heartbeatExpired
    => [.stalls, .axes, .ctxs]
  | .release .. | .resume .. => [.stalls, .txns, .ctxs]
  | .axisMove .. => [.axes, .txns, .ctxs]
  | .sensorEnable .. | .sensorDisable .. | .sensorConfigWrite .. | .cciListDone .. => [.sens, .ctxs, .cci]
  | .imgActivate .. | .imgReplyTimeout .. => [.bays, .txns, .ctxs]
  | .lane .. | .linkTestEnd .. => [.bays, .fars, .ctxs]
  | .thermalEvaluation => [.stalls, .axes, .fars]
  | .jobComplete .. | .cmpEngineFault .. | .traceFlush .. | .dgnTraceBuf .. | .traceConfigWrite ..
    => [.ctxs, .traces, .cmpJobs]
  | .ethernetLinkDown .. => [.stalls, .ctxs, .tports]
  | .mvPeriodWrite .. => [.ask, .stalls, .srvs, .bays]
  | .abortComplete .. => [.stalls, .engs, .seams, .ctxs]
  | .linkConfigWrite .. => [.stalls, .srvs, .bays, .fars]
  | .frameFinished .. => [.engs, .sens, .ctxs, .cmpJobs]
  | .txnCommit .. | .txnAbort .. | .txnExpire | .participantSettle => [.axes, .bays, .txns, .ctxs]
  | .setApplied => [.time, .ask, .ports, .ctxs]
  | .startUp .. => [.world, .stalls, .bays, .imgs]
  | .linkTest .. => [.stalls, .srvs, .bays, .fars, .ctxs]
  | .photodiodeFrame .. => [.stalls, .engs, .srvs, .bays, .fars]
  | .mgmtFrameUp .. => [.stalls, .srvs, .bays, .txns, .ctxs]
  | .commitTimeout => [.stalls, .engs, .axes, .bays, .txns, .lamps, .fars, .ctxs]
  | .shutdownGating => [.stalls, .srvs, .sens, .bays, .ctxs, .traces, .cmpJobs, .cci]
  | .txnPresent => [.stalls, .engs, .seams, .axes, .bays, .txns, .lamps, .fars, .ctxs, .imgs]
  | .microvectorTick ..
    => [.time, .period, .ask, .mem, .world, .stalls, .engs, .srvs, .seams, .ports, .axes, .sens, .bays, .txns, .lamps,
      .fars, .ctxs, .imgs, .tports, .traces, .cmpJobs, .cci]

/-- A command may change a part. -/
def mayTouch (i : Instr) (p : Part) : Bool :=
  (touches i).contains p || ((touches i).contains .reset && p != .keys && p != .imgs)

end Machine
end Sys2Proof
end

