-- ==== Sys2Proof/Certificates/Slice0/Obligations.lean ====
section
/-!
DEFINITION. The statements for the provers: what the commands and the block do, by the rules of spec/.
-/
open Sys2Proof Sys2Proof.Machine

/-- The context's next descriptor that may start is `d`, with the opcode `op` (R54, R55). -/
def Starts (c : Fin 256) (op : Nat) (d : Desc) (s : State) : Prop :=
  mayStart (ctx s c) = some d ∧ d.op = op ∧ startHeld c op s = false

/-- The context's history gets the completion of a SEQ with a status, at the present yard time (R50, R52). -/
def Decided (c : Fin 256) (q st : Nat) (s t : State) : Prop :=
  ∃ a b k, (ctx t c).hist = settleHist q ⟨st, a, b, s.now, k⟩ (ctx s c).hist

/-- The same, with the results that the rule gives. -/
def DecidedWith (c : Fin 256) (q st a b : Nat) (s t : State) : Prop :=
  ∃ k, (ctx t c).hist = settleHist q ⟨st, a, b, s.now, k⟩ (ctx s c).hist

/-- With the command c at the front of the queue, a step is exec of c on the state with the queue's rest; on an empty
queue the block idles (log entry 1, the model's choice). (notes/assumptions/1, opcode_table.json) -/
def Obligations.StepRunsFront : Prop :=
  ∀ s : State, (s.pending = [] → step s = .next s) ∧
    ∀ c rest, s.pending = c :: rest → step s = exec c { s with pending := rest }

/-- Every command at every state answers a next state; what the spec calls a fault is state of the block.
(95_what_each_step_holds.md, opcode_table.json) -/
def Obligations.EveryCommandAnswers : Prop :=
  ∀ (i : Instr) (s : State), ∃ t, exec i s = .next t

/-- From every state whose register file lists no register at its reset value and whose lofts, hayloft and LP5 memory
list no byte at 0, all in rising order, every step that answers a next state gives such a state. The canonical form is
the model's own (log entry 4). (notes/assumptions/4, R10) -/
def Obligations.StepKeepsCanonical : Prop :=
  ∀ s t : State, s.canonical → step s = .next t → t.canonical

/-- The state after reset has the canonical form of registers and memories, an empty queue and nothing sent. (R10,
notes/assumptions/7) -/
def Obligations.ResetCanonical : Prop :=
  State.reset.canonical ∧ State.reset.pending = [] ∧ State.reset.out = []

/-- For every command and every part of the state (time, period, memories, keys, Region Table, and each kind of unit)
that the command may not touch, the part is the same after the command as before. The table of touched parts is the
model's own, read from the rules of each command. (opcode_table.json, 95_what_each_step_holds.md) -/
def Obligations.PartsFrame : Prop :=
  ∀ (i : Instr) (s t : State) (p : Part), exec i s = .next t → mayTouch i p = false → p.same s t

/-- Every command leaves the queue of waiting commands as it is, what was sent out before stays sent, and no free
value is drawn twice. (notes/assumptions/3, notes/assumptions/5) -/
def Obligations.QueueAndOutputs : Prop :=
  ∀ (i : Instr) (s t : State), exec i s = .next t → t.pending = s.pending ∧ s.out <+: t.out ∧ s.fresh ≤ t.fresh

/-- No command, a reset and a power cycle among them, lowers the rollback minimum of any image type.
(21_boot_update.md) -/
def Obligations.RollbackNeverFalls : Prop :=
  ∀ (i : Instr) (s t : State) (k : Fin 7), exec i s = .next t → s.rollMin[k] ≤ t.rollMin[k]

/-- With no new period, SET or acceptance waiting, a tick completes with yard time, a count of 64 bits, at the next multiple
of the period and the beam timebase moved on by as much, the period as it was. A squash that is due cuts the run-ahead
buffer to its committed entries, counts one squash and the entries it discards, and records mask and count; while the stall
aborts it only drops the request. (R18, R19, R136) -/
def Obligations.MicrovectorTick : Prop :=
  (∀ (errs : List (Fin 48 × Nat)) (s : State), s.periodNext = none → s.tmsSet = none → s.tmsAcc = [] →
    Completes (.microvectorTick errs) s fun t => t.now = (s.now / s.mvP + 1) * s.mvP % 2 ^ 64 ∧
      t.beam = s.beam + ((s.now / s.mvP + 1) * s.mvP - s.now) ∧ t.mvP = s.mvP) ∧
  (∀ (g : Fin 48) (s : State), (stall s g).squashDue ≠ 0 → flag s (F.STALL_STATE_ABORTING g) = false →
    Completes (.squash g) s fun t => (stall t g).buf = (stall s g).buf.take (stall s g).hzn ∧ (stall t g).squashDue = 0 ∧
      rdN t (R.STALL_TRJ_SQUASHES g) = min (rdN s (R.STALL_TRJ_SQUASHES g) + 1) 0xFFFFFFFF ∧
      rd64 t (R.STALL_TRJ_SQUASHED_MV g) =
        (rd64 s (R.STALL_TRJ_SQUASHED_MV g) + ((stall s g).buf.length - (stall s g).hzn)) % 2 ^ 64 ∧
      rdN t (R.STALL_TRJ_SQUASH_LAST g) =
        ((stall s g).squashDue + 2 ^ 16 * (((stall s g).buf.length - (stall s g).hzn) % 2 ^ 12)) % 2 ^ 32 ∧
      ∀ h : Fin 48, h ≠ g → stall t h = stall s h) ∧
  (∀ (g : Fin 48) (s : State), (stall s g).squashDue ≠ 0 → flag s (F.STALL_STATE_ABORTING g) = true →
    Completes (.squash g) s fun t => (stall t g).squashDue = 0 ∧ (stall t g).buf = (stall s g).buf ∧ t.regs = s.regs)

/-- A register takes a written value in its RW bits and keeps its others (R5, R7). -/
def Takes (o : Nat) (v : Word) (s t : State) : Prop := rd t o = BitVec.ofNat 32 (merged o v s)

/-- A period write with a defined encoding while every stall is OFFLINE or IDLE makes that period wait for its first
tick and shows SEL, else it leaves both and sets PERIOD_REFUSED with event 77; a waiting period takes effect at a
multiple of it after the write and not at another time. A bay-map write that places no stall twice and touches no stall that is not
OFFLINE takes effect, and another leaves the word, sets MAP_REFUSED with the bay in LAST_TARGET and raises event 77. A
write of the stable enables is refused as a whole where a clear is refused. (R13, R14, R18, R29) -/
def Obligations.PeriodAndYard : Prop :=
  (∀ (sec : Bool) (v : Word) (s : State), accessOk sec R.YRD_MV_PERIOD s = true →
    Completes (.mvPeriodWrite sec v) s fun t =>
      if v.toNat % 4 = 3 ∨ allQuiet s = false then t.periodNext = s.periodNext ∧ rd t R.YRD_MV_PERIOD = rd s R.YRD_MV_PERIOD ∧
        flag t F.YRD_CFG_STATUS_PERIOD_REFUSED = true ∧ flag t (pendBit 77) = true
      else t.periodNext = some (if v.toNat % 4 = 0 then 500 else if v.toNat % 4 = 1 then 1000 else 2000) ∧
        get t F.YRD_MV_PERIOD_SEL = v.toNat % 4 ∧ t.mvP = s.mvP) ∧
  (∀ (p : Nat) (s : State), s.periodNext = some p → s.now % p = 0 → s.now ≠ s.periodAt →
    Completes .mvPeriodChange s fun t => t.mvP = p ∧ t.periodNext = none ∧ t.regs = s.regs) ∧
  (∀ (p : Nat) (s : State), s.periodNext = some p → (s.now % p ≠ 0 ∨ s.now = s.periodAt) →
    exec .mvPeriodChange s = .next s) ∧
  (∀ (sec : Bool) (b : Fin 12) (v : Word) (s : State), accessOk sec (R.YRD_BAY_MAP b) s = true →
    Completes (.bayMapWrite sec b v) s fun t =>
      if mapOk b (merged (R.YRD_BAY_MAP b) v s) s then Takes (R.YRD_BAY_MAP b) v s t
      else rd t (R.YRD_BAY_MAP b) = rd s (R.YRD_BAY_MAP b) ∧ flag t F.YRD_CFG_STATUS_MAP_REFUSED = true ∧
        get t F.YRD_CFG_STATUS_LAST_TARGET = b.val ∧ flag t (pendBit 77) = true ∧ t.stalls = s.stalls) ∧
  (∀ (sec : Bool) (v : Word) (s : State), accessOk sec R.YRD_CTRL s = true → get s F.BOOT_STATUS_PHASE ≠ 5 →
    s.sdGated = false →
    Completes (.stableEnableWrite sec v) s fun t =>
      (wrongClears (v.toNat % 64) s = [] → get t F.YRD_CTRL_STABLE_EN = v.toNat % 64) ∧
      ∀ (st : Fin 6) (l : List (Fin 6)), wrongClears (v.toNat % 64) s = st :: l → rd t R.YRD_CTRL = rd s R.YRD_CTRL ∧
        flag t F.YRD_CFG_STATUS_ENABLE_REFUSED = true ∧ get t F.YRD_CFG_STATUS_LAST_TARGET = st.val ∧
        flag t (pendBit 77) = true ∧ t.stalls = s.stalls)

/-- A write of LAYER_SET stores 48 bits and leaves the set in effect until a tick takes it; a barrier that is due while
every named stall waits for it counts the layer, sets BARRIER, raises event 78, and frees every entry of the seam table;
one that a named stall has left since does not complete. (R24, R25, R187) -/
def Obligations.LayerBarrier : Prop :=
  (∀ (sec : Bool) (v : BitVec 64) (s : State), accessOk sec R.YRD_LAYER_SET s = true →
    Completes (.layerSetWrite sec (.both v)) s fun t => rd64 t R.YRD_LAYER_SET = v.toNat % 2 ^ 48 ∧ t.layerSet = s.layerSet) ∧
  (∀ s : State, s.barrierDue = true → barrierComplete s = false →
    exec .layerBarrierReached s = .next { s with barrierDue := false }) ∧
  (∀ s : State, s.barrierDue = true → barrierComplete s = true →
    Completes .layerBarrierReached s fun t => get t F.YRD_LAYER_STATUS_LAYER = (get s F.YRD_LAYER_STATUS_LAYER + 1) % 2 ^ 24 ∧
      flag t F.YRD_LAYER_STATUS_BARRIER = true ∧ flag t (pendBit 78) = true ∧ t.barrierDue = false ∧
      (∀ i : Fin 192, (seam t i).st = 0) ∧ t.stalls = s.stalls)

/-- A 32-bit register that no special rule of its chapter governs when it is written. -/
def OrdinaryReg (o : Nat) : Prop :=
  (∃ w, rowAt o = some (w, 0) ∧ w.wide = false) ∧ o % 4 = 0 ∧ ¬ (R.HIF_MBOX_REQ 0 ≤ o ∧ o < R.HIF_MBOX_REQ 16) ∧
  o ≠ R.YRD_LSAFE_RELEASE ∧ o ≠ R.YRD_LSAFE_FILTER ∧ ¬ (R.DMC_TSET 0 0 ≤ o ∧ o < R.DMC_TSET 0 0 + 0x40) ∧ o ≠ R.TCK_CFG ∧
  ¬ (0x18000 ≤ o ∧ o < 0x18400) ∧ ¬ (R.EVC_PEND 0 ≤ o ∧ o < R.EVC_PEND 16) ∧
  (∀ p : Fin 4, o ≠ R.PORT_PHY_CFG p ∧ o ≠ R.PORT_CCI_CFG p) ∧ ∀ x : Fin 2, o ≠ R.PIPE_CFG x

/-- A word write that may reach an ordinary 32-bit register sets its RW bits, clears the W1C bits written as 1 and
leaves every other bit and register; the low word of a 64-bit register is held and the high word makes both take
effect; a read answers the value shown to the requester's world, clears the RC bits and, at a low word, latches the high
word; a non-secure read of a closed register answers 0 and is a world fault; an access of unsupported size or alignment
is recorded and reads as ones; in the 64 KiB of the doorbell window a supported read answers 0 and a supported write that
is no doorbell is discarded, but on page 0 it is a world fault with KIND 5; an AtomicOp is answered with Unsupported
Request and changes nothing. (R4, R5, R6, R7, R8, R9, R34, R36, R39, R45) -/
def Obligations.RegisterAccess : Prop :=
  (∀ (sec : Bool) (o : Nat) (v : Word) (s : State), OrdinaryReg o → accessOk sec o s = true →
    Completes (.registerWrite sec o (.lo v)) s fun t =>
      (∀ i < 32, bit (rdN t o) i = if bit (w1cMask o) i then bit (rdN s o) i && !bit v.toNat i
        else if plainWrite o s && bit (rwMask o) i then bit v.toNat i else bit (rdN s o) i) ∧
      ∀ p, p ≠ o → rdN t p = rdN s p) ∧
  (∀ (sec : Bool) (o : Nat) (v : Word) (w : RegRow) (s : State), rowAt o = some (w, 0) → w.wide = true → o % 4 = 0 →
    accessOk sec o s = true →
    Completes (.registerWrite sec o (.lo v)) s fun t => cellGet t.lowHeld o = some v ∧ ∀ p, rdN t p = rdN s p) ∧
  (∀ (sec : Bool) (o : Nat) (w : RegRow) (s : State), rowAt o = some (w, 0) → w.wide = false → o % 4 = 0 →
    windowAt o s = none → accessOk sec o s = true →
    Completes (.readClear sec o false) s fun t => t.out = s.out ++ [.readReply o (shownTo sec o s) false] ∧
      rdN t o = rdN s o - (rdN s o &&& rcMask o) ∧ ∀ p, p ≠ o → rdN t p = rdN s p) ∧
  (∀ (sec : Bool) (o : Nat) (w : RegRow) (s : State), rowAt o = some (w, 0) → w.wide = true → o % 4 = 0 →
    windowAt o s = none → accessOk sec o s = true →
    Completes (.readClear sec o false) s fun t => t.out = s.out ++ [.readReply o (shownTo sec o s) false] ∧
      cellGet t.hiLatch o = some (BitVec.ofNat 32 (shownTo sec (o + 4) s))) ∧
  (∀ (o : Nat) (s : State), o % 4 = 0 → (blockAt o).isSome = true → accessOk false o s = false →
    Completes (.readClear false o false) s fun t => (∃ l, t.out = l ++ [.readReply o 0 false]) ∧
      flag t F.TCK_FLAGS_WORLD_FAULT = true ∧ flag t F.HIF_ERR_STATUS_ACCESS_ERROR = true) ∧
  (∀ (o : Nat) (write : Bool) (s : State),
    Completes (.unsupportedAccess o write) s fun t => flag t F.HIF_ERR_STATUS_ACCESS_ERROR = true ∧
      rdN t R.HIF_ACCESS_ERR = o % 2 ^ 24 + 2 ^ 24 ∧
      (write = false → ∃ l, t.out = l ++ [.readReply o 0xFFFFFFFF false])) ∧
  (∀ (off size : Nat) (write : Bool) (s : State), off < 0x10000 → doorbellSize off size = false →
    Completes (.doorbellAccessError off (size, write)) s fun t => flag t F.HIF_ERR_STATUS_ACCESS_ERROR = true ∧
      rdN t R.HIF_ACCESS_ERR = off % 2 ^ 24 + 2 ^ 24 + 2 ^ 28 ∧ t.ctxs = s.ctxs ∧
      (write = false → ∃ l, t.out = l ++ [.doorbellReply off (2 ^ (8 * size) - 1) size])) ∧
  (∀ (off size : Nat) (s : State), off < 0x10000 → doorbellSize off size = true →
    exec (.doorbellAccessError off (size, false)) s = .next { s with out := s.out ++ [.doorbellReply off 0 size] } ∧
    (256 ≤ off → exec (.doorbellAccessError off (size, true)) s = .next s) ∧
    (off < 256 → Completes (.doorbellAccessError off (size, true)) s fun t => t.ctxs = s.ctxs ∧
      flag t F.TCK_FLAGS_WORLD_FAULT = true ∧ flag t F.HIF_ERR_STATUS_ACCESS_ERROR = true ∧
      rdN t R.HIF_ACCESS_ERR = off + 5 * 2 ^ 24 + 2 ^ 28)) ∧
  (∀ (off : Nat) (acc : Nat × Bool) (s : State), 0x10000 ≤ off → exec (.doorbellAccessError off acc) s = .next s) ∧
  (∀ (off : Nat) (s : State), exec (.atomicOpRequest off) s = .next { s with out := s.out ++ [.unsupportedRequest off] })

/-- A context command that may reach the register and is not refused at once acts by the context's state: ENABLE with
every check met makes it ACTIVE with its four ring indexes 0, the phase 1 and BP_TIME 0, and with a failed check shows
that check's result and changes no context; DISABLE of an ACTIVE or STOPPED context makes it DRAINING, decides every
descriptor it aborts and shows PENDING with BUSY; RESUME of a STOPPED context makes it ACTIVE; a command in another
state shows result 2. A drained context becomes DISABLED, and its DISABLE shows its outcome. (R39, R40, R41) -/
def Obligations.ContextCommands : Prop :=
  (∀ (sec : Bool) (c : Fin 256) (s : State) (r cmd : Nat) (i : Instr), accessOk sec R.HIF_CTX_CMD s = true →
    (i, cmd) ∈ [(.ctxEnable sec c, 1), (.ctxDisable sec c, 2), (.ctxResume sec c, 3)] → cmdRefused sec c s = some r →
    Completes i s fun t => get t F.HIF_CTX_CMD_STATUS_RESULT = r ∧ get t F.HIF_CTX_CMD_STATUS_CTX = c.val ∧
      get t F.HIF_CTX_CMD_STATUS_CMD = cmd ∧ flag t F.HIF_CTX_CMD_STATUS_BUSY = flag s F.HIF_CTX_CMD_STATUS_BUSY ∧
      t.ctxs = s.ctxs) ∧
  (∀ (sec : Bool) (c : Fin 256) (s : State), accessOk sec R.HIF_CTX_CMD s = true → cmdRefused sec c s = none →
    Completes (.ctxEnable sec c) s fun t => get t F.HIF_CTX_CMD_STATUS_RESULT = enableResult c s ∧
      (enableResult c s ≠ 0 → t.ctxs = s.ctxs) ∧
      (enableResult c s = 0 → (ctx t c).st = .active ∧ (ctx t c).stopCause = 0 ∧ (ctx t c).sqHead = 0 ∧
        (ctx t c).sqTail = 0 ∧ (ctx t c).cqTail = 0 ∧ (ctx t c).cqHead = 0 ∧ (ctx t c).phase = true ∧
        rd64 t (R.HIF_CTX_BP_TIME c) = 0 ∧ (ctx t c).hist = (ctx s c).hist ∧ ∀ k : Fin 256, k ≠ c → ctx t k = ctx s k)) ∧
  (∀ (sec : Bool) (c : Fin 256) (s : State), accessOk sec R.HIF_CTX_CMD s = true → cmdRefused sec c s = none →
    Completes (.ctxDisable sec c) s fun t =>
      if (ctx s c).st = .active ∨ (ctx s c).st = .stopped then
        (ctx t c).st = .draining ∧ (ctx t c).irqN = 0 ∧ flag t F.HIF_CTX_CMD_STATUS_BUSY = true ∧
          get t F.HIF_CTX_CMD_STATUS_RESULT = 1 ∧
          ∀ d ∈ (ctx t c).fetched, d.seq ∈ abortable (ctx s c) → d.dup = false → d.compl.isSome = true
      else get t F.HIF_CTX_CMD_STATUS_RESULT = 2 ∧ t.ctxs = s.ctxs) ∧
  (∀ (sec : Bool) (c : Fin 256) (s : State), accessOk sec R.HIF_CTX_CMD s = true → cmdRefused sec c s = none →
    Completes (.ctxResume sec c) s fun t =>
      if (ctx s c).st = .stopped then
        (ctx t c).st = .active ∧ (ctx t c).stopCause = 0 ∧ (ctx t c).fetched = (ctx s c).fetched ∧
          get t F.HIF_CTX_CMD_STATUS_RESULT = 0
      else get t F.HIF_CTX_CMD_STATUS_RESULT = 2 ∧ t.ctxs = s.ctxs) ∧
  (∀ (c : Fin 256) (s : State), (ctx s c).st = .draining → (ctx s c).fetched = [] →
    Completes (.ctxDrainDone c) s fun t => (ctx t c).st = .disabled ∧
      (s.hifCmd = some c.val → t.hifCmd = none ∧ flag t F.HIF_CTX_CMD_STATUS_BUSY = false ∧
        get t F.HIF_CTX_CMD_STATUS_RESULT = 0))

/-- A doorbell to an ACTIVE or STOPPED host context with a value below its ring's length records the new tail or head
(a 64-bit one both) and changes nothing else; to a context in another state, or with a larger value, it is discarded
with DOORBELL_REJECT and the access recorded with kind 3 or 4; on page 0 it is a world fault with kind 5. Bits 31:12
of the word never matter. (R39, R45, R46) -/
def Obligations.Doorbells : Prop :=
  (∀ (c : Fin 256) (v : Word) (s : State), c.val ≠ 0 → ((ctx s c).st = .active ∨ (ctx s c).st = .stopped) →
    v.toNat % 4096 < ringN s c →
    (Completes (.sqTailDoorbell c v none) s fun t => ctx t c = { ctx s c with sqTail := v.toNat % 4096 } ∧
      (∀ k : Fin 256, k ≠ c → ctx t k = ctx s k) ∧ t.regs = s.regs) ∧
    (Completes (.cqHeadDoorbell c v) s fun t => ctx t c = { ctx s c with cqHead := v.toNat % 4096 } ∧
      (∀ k : Fin 256, k ≠ c → ctx t k = ctx s k) ∧ t.regs = s.regs) ∧
    ∀ h : Word, h.toNat % 4096 < ringN s c → Completes (.sqTailDoorbell c v (some h)) s fun t =>
      ctx t c = { ctx s c with sqTail := v.toNat % 4096, cqHead := h.toNat % 4096 }) ∧
  (∀ (c : Fin 256) (v : Word) (s : State) (i : Instr) (off : Nat), c.val ≠ 0 →
    (i, off) ∈ [(.sqTailDoorbell c v none, 0), (.cqHeadDoorbell c v, 4)] →
    ((ctx s c).st = .disabled ∨ (ctx s c).st = .draining ∨ ringN s c ≤ v.toNat % 4096) →
    Completes i s fun t => t.ctxs = s.ctxs ∧ flag t F.HIF_ERR_STATUS_DOORBELL_REJECT = true ∧
      rdN t R.HIF_ACCESS_ERR = 256 * c.val + off +
        2 ^ 24 * (if (ctx s c).st = .disabled ∨ (ctx s c).st = .draining then 3 else 4) + 2 ^ 28) ∧
  (∀ (v : Word) (s : State) (i : Instr) (off : Nat), (i, off) ∈ [(.sqTailDoorbell 0 v none, 0), (.cqHeadDoorbell 0 v, 4)] →
    Completes i s fun t => t.ctxs = s.ctxs ∧ flag t F.TCK_FLAGS_WORLD_FAULT = true ∧
      flag t F.HIF_ERR_STATUS_ACCESS_ERROR = true ∧ rdN t R.HIF_ACCESS_ERR = off + 5 * 2 ^ 24 + 2 ^ 28)

/-- Where a context is scheduled, a burst of at most its length appends one fetched descriptor for each that was read
and moves SQ_HEAD on around the ring; a SEQ newer than LAST_SEQ is accepted, becomes LAST_SEQ and enters the history,
and any other one is fetched as a duplicate that leaves LAST_SEQ; a failed read short of the burst's length leaves
SQ_HEAD at the failed descriptor and the context STOPPED with cause 2. Where no context is scheduled nothing happens.
(R49, R51, R52, R59, R61, R62) -/
def Obligations.FetchBurst : Prop :=
  (∀ (descs : List RawDesc) (e : Option Nat) (s : State), fetchPick s = none → exec (.descriptorFetch descs e) s = .next s) ∧
  (∀ (descs : List RawDesc) (c : Fin 256) (cls : Nat) (s : State), fetchPick s = some (c, cls) → descs.length ≤ burstLen c s →
    Completes (.descriptorFetch descs none) s fun t =>
      (ctx t c).sqHead = ((ctx s c).sqHead + descs.length) % ringN s c ∧
      (ctx t c).fetched.length = (ctx s c).fetched.length + descs.length ∧ (ctx t c).st = (ctx s c).st) ∧
  (∀ (r : RawDesc) (c : Fin 256) (cls : Nat) (s : State) (d : Desc), fetchPick s = some (c, cls) → 1 ≤ burstLen c s →
    d = ⟨r, false, false, false, 0, none⟩ →
    Completes (.descriptorFetch [r] none) s fun t =>
      if seqNewer (rdN s (R.HIF_CTX_LAST_SEQ c)) d.seq then rdN t (R.HIF_CTX_LAST_SEQ c) = d.seq ∧
        (ctx t c).hist.head?.map HistEnt.seq = some d.seq
      else rdN t (R.HIF_CTX_LAST_SEQ c) = rdN s (R.HIF_CTX_LAST_SEQ c) ∧ (ctx t c).hist = (ctx s c).hist ∧
        (ctx t c).fetched.getLast?.map Desc.dup = some true) ∧
  (∀ (descs : List RawDesc) (kind : Nat) (c : Fin 256) (cls : Nat) (s : State), fetchPick s = some (c, cls) →
    descs.length < burstLen c s →
    Completes (.descriptorFetch descs (some kind)) s fun t => (ctx t c).st = .stopped ∧ (ctx t c).stopCause = 2 ∧
      (ctx t c).sqHead = ((ctx s c).sqHead + descs.length) % ringN s c ∧ flag t F.HIF_ERR_STATUS_DMA_ERROR = true)

/-- The decided completion of the oldest fetched descriptor of a context that posts it (not one that is DISABLED, nor for a
descriptor that has not started one that ERR_STOP has stopped) is written to the slot at CQ_TAIL when the ring has a free
slot: the record is the next thing sent, the descriptor is retired, CQ_TAIL moves on and the phase inverts at the wrap;
ERR_STOP stops an ACTIVE context on a status other than OK. Into a full ring, or where the context does not post it, nothing
is posted. A duplicate's record goes the same way and counts in DUP_COUNT. (R43, R47, R50, R52, R54, R64) -/
def Obligations.CompletionRing : Prop :=
  (∀ (c : Fin 256) (d : Desc) (rest : List Desc) (k : Compl) (s : State) (i : Instr),
    i = .completionPost c ∨ (i = .duplicateCompletion c ∧ d.dup = true) →
    (ctx s c).fetched = d :: rest → d.compl = some k → mayPost (ctx s c) d = true → cqFull c s = false →
    Completes i s fun t => (ctx t c).fetched = rest ∧
      s.out ++ [.hostWrite (rd64 s (R.HIF_CTX_CQ_BASE c) + 32 * (ctx s c).cqTail) (complRecord (ctx s c).phase d k)] <+: t.out ∧
      (ctx t c).cqTail = ((ctx s c).cqTail + 1) % ringN s c ∧
      (ctx t c).phase = (if ((ctx s c).cqTail + 1) % ringN s c = 0 then !(ctx s c).phase else (ctx s c).phase) ∧
      (ctx t c).st = (if d.errStop = true ∧ d.dup = false ∧ k.status ≠ stOK ∧ (ctx s c).st = .active then .stopped
        else (ctx s c).st) ∧
      (d.dup = true → rdN t (R.HIF_CTX_DUP_COUNT c) = (rdN s (R.HIF_CTX_DUP_COUNT c) + 1) % 2 ^ 32)) ∧
  (∀ (c : Fin 256) (d : Desc) (rest : List Desc) (s : State), (ctx s c).fetched = d :: rest →
    mayPost (ctx s c) d = false → exec (.completionPost c) s = .next s) ∧
  (∀ (c : Fin 256) (s : State), cqFull c s = true → exec (.completionPost c) s = .next s ∧
    exec (.duplicateCompletion c) s = .next s ∧ bit (bpNow c s) 4 = true)

/-- A failed payload read completes the running descriptor with MEMORY_ERROR and the address in RESULT_B and records
the failure; the ageing of an unsignalled completion past TIME resets the count and signals the vector; a continuous
wait beyond the threshold is reported once. (R58, R60, R63) -/
def Obligations.HostWaitsAndErrors : Prop :=
  (∀ (c : Fin 256) (a kind : Nat) (d : Desc) (s : State), runningDesc (ctx s c) (fun _ => true) = some d →
    Completes (.payloadReadError c a kind) s fun t => (∃ x k, (ctx t c).hist =
        settleHist d.seq ⟨stMEMORY_ERROR, x, a, s.now, k⟩ (ctx s c).hist) ∧
      flag t F.HIF_ERR_STATUS_DMA_ERROR = true ∧ rd64 t R.HIF_DMA_ERR_ADDR = a % 2 ^ 64 ∧
      rdN t R.HIF_DMA_ERR_INFO = (c.val + 2 ^ 8 * kind) % 2 ^ 32) ∧
  (∀ (c : Fin 256) (s : State), 0 < (ctx s c).irqN → get s (F.HIF_CTX_IRQ_TIME c) ≠ 0 →
    get s (F.HIF_CTX_IRQ_TIME c) ≤ (s.beam - (ctx s c).irqSince) / 1000 →
    Completes (.irqAgeExpiry c) s fun t => (ctx t c).irqN = 0 ∧
      (flag s (F.HIF_MSIX_CTRL_MASK (get s (F.HIF_CTX_CFG_VECTOR c))) = false →
        t.out = s.out ++ [msixOut (get s (F.HIF_CTX_CFG_VECTOR c)) s])) ∧
  (∀ (c : Fin 256) (s : State), rdN s R.HIF_BP_THRESHOLD % 2 ^ 20 ≠ 0 → (ctx s c).bpTold = false →
    rdN s R.HIF_BP_THRESHOLD % 2 ^ 20 * 1000 < (ctx s c).bpWait →
    Completes (.hifBackpressure c) s fun t => (ctx t c).bpTold = true ∧ flag t (pendBit 55) = true)

/-- A write of VERSION_OFFER while every host context is DISABLED stores OFFER and agrees 1 for an offer of at least 1
and 0 for 0; while AGREED is 0 no context can be enabled; while a host context is not DISABLED the write is refused:
the register keeps its value, VERSION_REFUSED is set and event 57 is pending. (R65) -/
def Obligations.VersionOffer : Prop :=
  (∀ (sec : Bool) (v : Word) (s : State), accessOk sec R.HIF_VERSION_OFFER s = true →
    (∀ c : Fin 256, c.val ≠ 0 → (ctx s c).st = .disabled) →
    Completes (.versionOfferWrite sec v) s fun t => get t F.HIF_VERSION_OFFER_OFFER = v.toNat % 16 ∧
      get t F.HIF_VERSION_AGREED_AGREED = (if 1 ≤ v.toNat % 16 then min (v.toNat % 16) 1 else 0)) ∧
  (∀ (sec : Bool) (v : Word) (s : State), accessOk sec R.HIF_VERSION_OFFER s = true →
    (∃ c : Fin 256, c.val ≠ 0 ∧ (ctx s c).st ≠ .disabled) →
    Completes (.versionOfferWrite sec v) s fun t => rdN t R.HIF_VERSION_OFFER = rdN s R.HIF_VERSION_OFFER ∧
      get t F.HIF_VERSION_AGREED_AGREED = get s F.HIF_VERSION_AGREED_AGREED ∧
      flag t F.HIF_ERR_STATUS_VERSION_REFUSED = true ∧ flag t (pendBit 57) = true) ∧
  (∀ (sec : Bool) (c : Fin 256) (s : State), get s F.HIF_VERSION_AGREED_AGREED = 0 → accessOk sec R.HIF_CTX_CMD s = true →
    Completes (.ctxEnable sec c) s fun t => t.ctxs = s.ctxs)

/-- LAST_SEQ of a DISABLED context takes the written value and its history empties, else nothing changes; a POST to an
idle mailbox sets BUSY, clears DONE and takes the token, and meets BUSY with an overrun; a response that is ready
clears BUSY, sets DONE and writes its 16 words; the data link comes up at a speed and width, changes them while up,
and L1 changes only IN_L1. (R51, R66, R67, R68) -/
def Obligations.HostSettings : Prop :=
  (∀ (sec : Bool) (c : Fin 256) (v : Word) (s : State), accessOk sec (R.HIF_CTX_LAST_SEQ c) s = true →
    ((ctx s c).st = .disabled → Completes (.lastSeqWrite sec c v) s fun t => rd t (R.HIF_CTX_LAST_SEQ c) = v ∧
      (ctx t c).hist = [] ∧ ∀ o, o ≠ R.HIF_CTX_LAST_SEQ c → rd t o = rd s o) ∧
    ((ctx s c).st ≠ .disabled → exec (.lastSeqWrite sec c v) s = .next s)) ∧
  (∀ (v : Word) (s : State), v.toNat % 2 = 1 →
    (flag s F.HIF_MBOX_STATUS_BUSY = false → Completes (.mailboxPost v) s fun t => flag t F.HIF_MBOX_STATUS_BUSY = true ∧
      flag t F.HIF_MBOX_STATUS_DONE = false ∧
      get t F.HIF_MBOX_STATUS_TOKEN = rdN s (R.HIF_MBOX_REQ 0) / 2 ^ 16 ∧ t.mboxReply = none) ∧
    (flag s F.HIF_MBOX_STATUS_BUSY = true → Completes (.mailboxPost v) s fun t => flag t F.HIF_MBOX_STATUS_OVERRUN = true ∧
      flag t F.HIF_ERR_STATUS_MBOX_OVERRUN = true ∧ flag t F.HIF_MBOX_STATUS_BUSY = true)) ∧
  (∀ (ws : List Nat) (s : State), flag s F.HIF_MBOX_STATUS_BUSY = true → tackBusy s = false → s.mboxDrop = false →
    mboxHeaderReply s = none → s.mboxReply = some ws → ws.length = 16 →
    Completes .mailboxResponse s fun t => flag t F.HIF_MBOX_STATUS_BUSY = false ∧ flag t F.HIF_MBOX_STATUS_DONE = true ∧
      t.mboxReply = none ∧ flag t (pendBit 56) = true ∧
      ∀ i, i < 16 → rdN t (R.HIF_MBOX_RSP i) = ws.getD i 0 % 2 ^ 32) ∧
  (∀ (speed width : Nat) (s : State), speed < 8 → width < 8 →
    (Completes (.dataLinkUp speed width) s fun t => flag t F.HIF_STATUS_LINK_UP = true ∧
      get t F.HIF_STATUS_LINK_SPEED = speed ∧ get t F.HIF_STATUS_LINK_WIDTH = width ∧ flag t (pendBit 49) = true) ∧
    (flag s F.HIF_STATUS_LINK_UP = true → Completes (.linkSpeedWidthChange speed width) s fun t =>
      flag t F.HIF_STATUS_LINK_UP = true ∧ get t F.HIF_STATUS_LINK_SPEED = speed ∧
      get t F.HIF_STATUS_LINK_WIDTH = width)) ∧
  (∀ (b : Bool) (s : State), Completes (.l1Change b) s fun t => flag t F.HIF_STATUS_IN_L1 = b ∧
    ∀ o, o ≠ R.HIF_STATUS → rdN t o = rdN s o)

/-- NOP with ADDR and LEN 0 completes OK at once with bytes 20-27 and 28-35 as its results; with one of them not 0 it
completes FORMAT. WAIT_UNTIL completes OK with T and the yard time once T has come, and otherwise waits, started and
undecided. (R49, R57) -/
def Obligations.HostDescriptors : Prop :=
  ∀ (c : Fin 256) (d : Desc) (s : State),
    (Starts c 0x00 d s → d.addr = 0 → d.len = 0 →
      Completes (.nop c) s fun t => DecidedWith c d.seq stOK (d.at 20 8) (d.at 28 8) s t ∧ t.regs = s.regs) ∧
    (Starts c 0x00 d s → (d.addr ≠ 0 ∨ d.len ≠ 0) → Completes (.nop c) s fun t => Decided c d.seq stFORMAT s t) ∧
    (Starts c 0x01 d s → d.addr = 0 → d.len = 0 → d.at 28 36 = 0 → d.at 20 8 ≤ s.now →
      Completes (.waitUntil c) s fun t => DecidedWith c d.seq stOK (d.at 20 8) s.now s t) ∧
    (Starts c 0x01 d s → d.addr = 0 → d.len = 0 → d.at 28 36 = 0 → s.now < d.at 20 8 →
      Completes (.waitUntil c) s fun t => (ctx t c).hist = (ctx s c).hist ∧
        (ctx t c).fetched = startDescs d.seq 0 (ctx s c).fetched ∧ t.regs = s.regs) ∧
    (Starts c 0x01 d s → (d.addr ≠ 0 ∨ d.len ≠ 0 ∨ d.at 28 36 ≠ 0) →
      Completes (.waitUntil c) s fun t => Decided c d.seq stFORMAT s t) ∧
    (runningDesc (ctx s c) (fun e => e.op == 0x01) = some d → d.at 20 8 ≤ s.now →
      Completes (.waitUntilDone c) s fun t => DecidedWith c d.seq stOK (d.at 20 8) s.now s t)

/-- Each of these events leaves every host context DISABLED with nothing fetched, keeps each LAST_SEQ, sets
VERSION_OFFER and the agreed version to 0, marks a pending mailbox response to be dropped, sets FLR_SEEN and shows the
heartbeat as lost; hot reset, loss of the link and PERST_N also take the link down, and a function-level reset and
D3hot leave it. (R68, R69, R530) -/
def Obligations.HostResets : Prop :=
  ∀ (s : State) (i : Instr) (down : Bool), (i, down) ∈ [(.functionLevelReset, false), (.d3hotEntry, false), (.hotReset, true),
      (.dataLinkDown, true), (.perstAssert, true)] →
    Completes i s fun t =>
      (∀ c : Fin 256, c.val ≠ 0 → (ctx t c).st = .disabled ∧ (ctx t c).fetched = []) ∧
      (∀ c : Fin 256, rdN t (R.HIF_CTX_LAST_SEQ c) = rdN s (R.HIF_CTX_LAST_SEQ c)) ∧
      get t F.HIF_VERSION_OFFER_OFFER = 0 ∧ get t F.HIF_VERSION_AGREED_AGREED = 0 ∧
      flag t F.HIF_ERR_STATUS_FLR_SEEN = true ∧
      (flag s F.HIF_MBOX_STATUS_BUSY = true → t.mboxDrop = true) ∧
      (down = true → flag t F.HIF_STATUS_LINK_UP = false) ∧
      (down = false → flag t F.HIF_STATUS_LINK_UP = flag s F.HIF_STATUS_LINK_UP)

/-- RESET_N, a reset of a rail and a reboot from recovery set every stall, axis, transaction and context as
State.reset gives it and keep keys, rollback minima, images and the queue, and send out no more than what pins change; a
power-on reset, or one of the always-on rail, does so too and loses the lifetime counters of the island, which a device
reset keeps, with one more assertion of the inhibit source RESET counted. A start-up with
RECOVERY_N low enters recovery mode, and a reboot outside recovery mode is refused. (R10, R411, R413, R414, R512,
R513, R515, R530) -/
def Obligations.DeviceResets : Prop :=
  (∀ (s : State) (i : Instr) (island : Bool), (i = .deviceReset ∧ island = true) ∨
      (∃ r : Fin 5, i = .railReset r ∧ island = decide (r ≠ 2)) ∨ (i = .powerOnReset ∧ island = false) ∨
      (∃ sec, i = .recoveryReboot sec ∧ island = true ∧ accessOk sec R.BOOT_RCV_CMD s = true ∧
        get s F.BOOT_STATUS_PHASE = 5) →
    Completes i s fun t => t.stalls = State.reset.stalls ∧ t.axes = State.reset.axes ∧ t.txns = State.reset.txns ∧
      t.ctxs = State.reset.ctxs ∧ t.lofts = State.reset.lofts ∧ t.keys = s.keys ∧ t.rollMin = s.rollMin ∧ t.imgs = s.imgs ∧
      t.pending = s.pending ∧ s.out <+: t.out ∧
      (island = true → t.life = (lifeAdd s (lifeNo 5 5 srcRESET) 1).life ∧ t.recStaged = s.recStaged) ∧
      (island = false → t.life = [] ∧ t.recStaged = [])) ∧
  (∀ (sec : Bool) (s : State), accessOk sec R.BOOT_RCV_CMD s = true → get s F.BOOT_STATUS_PHASE ≠ 5 →
    Completes (.recoveryReboot sec) s fun t => t.stalls = s.stalls ∧ get t F.BOOT_STATUS_PHASE = get s F.BOOT_STATUS_PHASE) ∧
  (∀ (b : Boot) (s : State), get s F.BOOT_STATUS_PHASE = 0 → b.recoveryLow = true →
    Completes (.startUp b) s fun t => get t F.BOOT_STATUS_PHASE = 5 ∧ t.imgs = s.imgs)

/-- When the stall's sequencer may parse and read the visible command, that command has the row's opcode, is not skipped
as part of a seam section and has no program error, the command completes: one item with the fields of the command, its power and
speed clamped to the stall's limits, is appended, PARSE moves on by 16 bytes in the region, and no other stall
changes. (R74, R80, R83, R84, R85, R86, R87, R88, R90, R91, R93) -/
def Obligations.ScanCommandParsed : Prop :=
  ∀ (g : Fin 48) (s : State) (i : Instr) (op : Nat) (k : ItemK) (r : Raw),
    r = rawAt g (rdN s (R.STALL_PROG_PARSE g)) s →
    (i, op, k) ∈ [
      (.scanNop g, 0x00, .nop),
      (.jump g, 0x01, .jump (sext 16 r.h) (sext 32 r.w1) (sext 32 r.w2)),
      (.markLine g, 0x02, .line (r.fl == 1) (sext 16 r.h) (sext 32 r.w1) (sext 32 r.w2) r.w3),
      (.markArc g, 0x03, .arc (r.fl == 1) (sext 16 r.h) (sext 32 r.w1) (sext 32 r.w2) (sext 32 r.w3)),
      (.powerRamp g, 0x04, .ramp (min r.h (limPower g s)) r.w1),
      (.wobble g, 0x05, .wobble r.fl r.h (r.w1 % 2 ^ 16) (r.w1 / 2 ^ 16)),
      (.speedPower g, 0x06, .speed (if r.h = 0xFFFF then none else some (min r.h (limPower g s)))
        (if limSpeed g s = 0 then r.w1 else min r.w1 (limSpeed g s)) r.w2),
      (.delaySet g, 0x07, .delay r.h (sext 32 r.w1) (sext 32 r.w2)),
      (.compareArm g, 0x08, .compare r.fl r.h (r.w1 % 2 ^ 16)),
      (.islandBegin g, 0x09, .islBegin r.w1 r.w2),
      (.islandEnd g, 0x0A, .islEnd r.w1),
      (.layerEnd g, 0x0B, .layerEnd r.w1),
      (.syncBarrier g, 0x0C, .sync r.h (r.w1 + 2 ^ 32 * (r.w2 % 2 ^ 16)) (r.w2 / 2 ^ 16 % 256)),
      (.programEnd g, 0x0E, .progEnd)] →
    canParse g s = true → seqReads g (rdN s (R.STALL_PROG_PARSE g)) s = true → r.op = op →
    ((stall s g).seq.seamLeft = 0 ∨ (stall s g).seq.skip = false) →
    progError g s.mvP (stall s g).seq r = 0 → 0 < progSize g s → progSize g s ≤ 0x300000 →
    Completes i s fun t =>
      rdN t (R.STALL_PROG_PARSE g) = (rdN s (R.STALL_PROG_PARSE g) + 16) % progSize g s ∧
      (∃ it : Item, (stall t g).items = (stall s g).items ++ [it] ∧ it.k = k ∧ it.skip = false ∧
        it.off = rdN s (R.STALL_PROG_PARSE g)) ∧
      ∀ h : Fin 48, h ≠ g → stall t h = stall s h

/-- When the stall may parse and read the visible command, a SEAM_HANDOVER without a program error outside a skipped
section, no RESUME asked to pass over it, fewer than four registrations of the stall are open, the SEAM_ID is in no entry
and an entry is free that no paused stall waits for, the command completes: the lowest free entry becomes OPEN with the
command's COUNT and the stall as owner where it is the default owner (else as the other stall), and the stall's section has
COUNT commands to go, skipped by the stall that does not own it. After a RESUME of a SEAM hold the section is passed over,
once: it is skipped and nothing registers. (R92, R180, R181, R182, R186) -/
def Obligations.SeamSectionRegistered : Prop :=
  (∀ (g : Fin 48) (s : State) (r : Raw),
    r = rawAt g (rdN s (R.STALL_PROG_PARSE g)) s → canParse g s = true →
    seqReads g (rdN s (R.STALL_PROG_PARSE g)) s = true → r.op = 0x0D →
    ((stall s g).seq.seamLeft = 0 ∨ (stall s g).seq.skip = false) → (stall s g).seq.passBy = true → progError g s.mvP (stall s g).seq r = 0 →
    Completes (.seamHandover g) s fun t => (stall t g).seq.seamLeft = r.h ∧ (stall t g).seq.skip = true ∧
      (stall t g).seq.passBy = false ∧ t.seams = s.seams) ∧
  (∀ (g : Fin 48) (s : State) (r : Raw) (i : Fin 192),
    r = rawAt g (rdN s (R.STALL_PROG_PARSE g)) s → canParse g s = true →
    seqReads g (rdN s (R.STALL_PROG_PARSE g)) s = true → r.op = 0x0D → (stall s g).seq.passBy = false → ((stall s g).seq.seamLeft = 0 ∨ (stall s g).seq.skip = false) →
    progError g s.mvP (stall s g).seq r = 0 → seamRegs g s < 4 → seamIdx r.w1 s = none →
    (pausedFull s).length < seamsFree s → seamFree s = some i →
    Completes (.seamHandover g) s fun t =>
      seam t i = (if r.fl = 1 then ⟨r.w1, 1, g, r.w2 % 256, true, false, 0, r.h⟩
        else ⟨r.w1, 1, r.w2 % 256, g, false, true, 0, r.h⟩) ∧
      (stall t g).seq.seamLeft = r.h ∧ (stall t g).seq.seamId = some r.w1 ∧ (stall t g).seq.skip = decide (r.fl ≠ 1) ∧
      ∀ j : Fin 192, j ≠ i → seam t j = seam s j)

/-- A scan command of the row's opcode that has a program error (unknown opcode, reserved bits, range, stroke, island
or seam structure) completes by stopping its stall's sequencer with the error's code and the command's opcode and
offset: no item is added and PARSE stays; where the stall may not parse or the visible command has another opcode,
nothing changes. A command in a part of the region that the sequencer may not read stops it too and asks for the fault of
an unreadable command, which is the model's choice (notes/assumptions/30). (R80, R81, R84, R87, R92, R103, R449) -/
def Obligations.ScanCommandRefused : Prop :=
  ∀ (g : Fin 48) (s : State) (i : Instr) (op : Nat) (r : Raw),
    r = rawAt g (rdN s (R.STALL_PROG_PARSE g)) s →
    (i, op) ∈ [(.scanNop g, 0x00), (.jump g, 0x01), (.markLine g, 0x02), (.markArc g, 0x03), (.powerRamp g, 0x04),
      (.wobble g, 0x05), (.speedPower g, 0x06), (.delaySet g, 0x07), (.compareArm g, 0x08), (.islandBegin g, 0x09),
      (.islandEnd g, 0x0A), (.layerEnd g, 0x0B), (.syncBarrier g, 0x0C), (.seamHandover g, 0x0D),
      (.programEnd g, 0x0E)] →
    (¬ (canParse g s = true ∧ r.op = op) → exec i s = .next s) ∧
    (canParse g s = true → r.op = op → seqReads g (rdN s (R.STALL_PROG_PARSE g)) s = false →
      Completes i s fun t =>
        (stall t g).seq.stop = 11 ∧ (stall t g).faultNew = (if (stall s g).faultNew = 0 then 8 else (stall s g).faultNew) ∧
        (stall t g).items = (stall s g).items ∧ (∀ o, rdN t o = rdN s o) ∧ ∀ h : Fin 48, h ≠ g → stall t h = stall s h) ∧
    (canParse g s = true → r.op = op → seqReads g (rdN s (R.STALL_PROG_PARSE g)) s = true →
      ((stall s g).seq.seamLeft = 0 ∨ (stall s g).seq.skip = false) →
      progError g s.mvP (stall s g).seq r ≠ 0 →
      Completes i s fun t =>
        (stall t g).seq.stop = progError g s.mvP (stall s g).seq r ∧ (stall t g).seq.errOp = op ∧
        (stall t g).seq.errOff = rdN s (R.STALL_PROG_PARSE g) ∧ (stall t g).items = (stall s g).items ∧
        (∀ o, rdN t o = rdN s o) ∧ ∀ h : Fin 48, h ≠ g → stall t h = stall s h)

/-- Where its condition holds, each of MV_UNDERRUN, PROGRAM_ERROR, SYNC_MISMATCH, STROKE_TIMEOUT (with STROKE_TIMEOUT_FAULT
set) and TRAJECTORY_FAULT completes with the stall in FAULT with the cause 1, 3, 9, 2 or 6 (7 with detail 3 where the plan
failed on an unreadable compare table), no hold pending and no hold cause; PROGRAM_ERROR also records the error's code,
opcode and offset. STROKE_TIMEOUT without that bit only sets FLAGS.STROKE_LATE. (R21, R88, R90, R95, R103, R128, R139, R153)
-/
def Obligations.StallEntersFault : Prop :=
  (∀ (g : Fin 48) (s : State), emptyFor g 0 s = true →
    Completes (.mvUnderrun g) s fun t => stSt g t = ssFAULT ∧ get t (F.STALL_STATE_FAULT_CAUSE g) = 1 ∧
      get t (F.STALL_STATE_HOLD_CAUSE g) = 0 ∧ flag t (F.STALL_STATE_HOLD_PENDING g) = false) ∧
  (∀ (g : Fin 48) (s : State), emptyFor g 2 s = true → (stall s g).seq.errOp < 256 → (stall s g).seq.errOff < 2 ^ 32 →
    Completes (.programError g) s fun t => stSt g t = ssFAULT ∧ get t (F.STALL_STATE_FAULT_CAUSE g) = 3 ∧
      rdN t (R.STALL_PROG_ERR g) = (stall s g).seq.stop + 2 ^ 8 * (stall s g).seq.errOp ∧
      rdN t (R.STALL_PROG_ERR_OFFSET g) = (stall s g).seq.errOff) ∧
  (∀ (g : Fin 48) (s : State), stSt g s = ssSYNC → (stall s g).syncBad = true →
    Completes (.syncMismatch g) s fun t => stSt g t = ssFAULT ∧ get t (F.STALL_STATE_FAULT_CAUSE g) = 9) ∧
  (∀ (g : Fin 48) (s : State), stSt g s = ssRUN → (stall s g).strokeTold = false →
    strokeLimit g s < rdN s (R.STALL_STROKE_ELAPSED g) →
    Completes (.strokeTimeout g) s fun t =>
      if flag s (F.STALL_CTRL_STROKE_TIMEOUT_FAULT g) then stSt g t = ssFAULT ∧ get t (F.STALL_STATE_FAULT_CAUSE g) = 2
      else stSt g t = ssRUN ∧ flag t (F.STALL_FLAGS_STROKE_LATE g) = true) ∧
  (∀ (g : Fin 48) (s : State) (d k : Nat), emptyFor g 5 s = true →
    k = (if (stall s g).engFault ≠ 0 then (stall s g).engFault else (stall s g).plan.fault) →
    Completes (.trajectoryFault g d) s fun t => stSt g t = ssFAULT ∧
      if (stall s g).engFault = 0 ∧ k = 0x83 then get t (F.STALL_STATE_FAULT_CAUSE g) = 7 ∧ rdN t (R.STALL_OUT_FAULT g) = 3
      else get t (F.STALL_STATE_FAULT_CAUSE g) = 6 ∧ rdN t (R.STALL_TRJ_FAULT g) = k % 2 ^ 32)

/-- Where its condition holds, each of PROGRAM_EMPTY, SEAM_HOLD, STARVED_HOLD and SYNC_TIMEOUT completes with the
stall in HOLD, its cause bit (3, 6, 2, 5) added to the causes it had, the return state RUN (SYNC_WAIT for the
timeout), and no hold pending; STARVED_HOLD also counts. HOLD_TAKES_EFFECT in a barrier wait holds with the requested
causes, and with STARVED where that hold is due too, and the wait as return state. A stall that is being stopped takes no
STARVED hold. (R86, R90, R94, R96, R97, R131, R186) -/
def Obligations.StallEntersHold : Prop :=
  (∀ (g : Fin 48) (s : State), emptyFor g 4 s = true →
    Completes (.programEmpty g) s fun t => stSt g t = ssHOLD ∧ get t (F.STALL_STATE_RETURN_STATE g) = ssRUN ∧
      get t (F.STALL_STATE_HOLD_CAUSE g) = get s (F.STALL_STATE_HOLD_CAUSE g) ||| hcPROGRAM_EMPTY ∧
      flag t (F.STALL_STATE_HOLD_PENDING g) = false) ∧
  (∀ (g : Fin 48) (s : State), emptyFor g 3 s = true →
    Completes (.seamHold g) s fun t => stSt g t = ssHOLD ∧ get t (F.STALL_STATE_RETURN_STATE g) = ssRUN ∧
      get t (F.STALL_STATE_HOLD_CAUSE g) = get s (F.STALL_STATE_HOLD_CAUSE g) ||| hcSEAM) ∧
  (∀ (g : Fin 48) (s : State), stSt g s = ssRUN → (stall s g).starveDue = true → (stall s g).stops = false →
    Completes (.starvedHold g) s fun t => stSt g t = ssHOLD ∧ get t (F.STALL_STATE_RETURN_STATE g) = ssRUN ∧
      get t (F.STALL_STATE_HOLD_CAUSE g) = get s (F.STALL_STATE_HOLD_CAUSE g) ||| hcSTARVED ∧
      rdN t (R.STALL_TRJ_STARVED_HOLDS g) = min (rdN s (R.STALL_TRJ_STARVED_HOLDS g) + 1) 0xFFFFFFFF) ∧
  (∀ (g : Fin 48) (s : State) (m id tmo : Nat), (stall s g).sync = some (m, id, tmo) → stSt g s = ssSYNC → tmo ≠ 0 →
    tmo * 1000000 < s.beam - (stall s g).syncSince →
    Completes (.syncTimeout g) s fun t => stSt g t = ssHOLD ∧ get t (F.STALL_STATE_RETURN_STATE g) = ssSYNC ∧
      get t (F.STALL_STATE_HOLD_CAUSE g) = get s (F.STALL_STATE_HOLD_CAUSE g) ||| hcSYNC) ∧
  (∀ (g : Fin 48) (s : State), holdDueNow g s = true → stSt g s ≠ ssRUN → (stall s g).holdReq < 256 →
    Completes (.holdTakesEffect g) s fun t => stSt g t = ssHOLD ∧
      get t (F.STALL_STATE_RETURN_STATE g) = stSt g s ∧
      get t (F.STALL_STATE_HOLD_CAUSE g) = get s (F.STALL_STATE_HOLD_CAUSE g) |||
        ((stall s g).holdReq ||| (if (stall s g).starveDue then hcSTARVED else 0)))

/-- Where its condition holds, each event completes with the state the rules give: PROGRAM_EMPTY_CLEARED and
STARVED_CLEARED clear their cause bit and leave the stall in HOLD; LAYER_END_REACHED waits for the layer with
LAYER_MARK; SYNC_BARRIER_REACHED waits with BARRIER_ID; PROGRAM_END_REACHED goes to IDLE with no hold pending;
SYNC_BARRIER_RELEASE puts every stall of the barrier into RUN and HOLD_RETURN goes to the return state, both while no
inhibit is asserted; ISLAND_DEADLINE
sets ISLAND_LATE, and with ISLAND_LATE_HOLD in RUN makes a hold pending; SEAM_PAUSE_END ends a pause for
registrations in a stall whose sequencer works. (R86, R89, R90, R91, R93, R98, R131, R159, R181) -/
def Obligations.StallTransitions : Prop :=
  (∀ (g : Fin 48) (s : State), stSt g s = ssHOLD → bit (get s (F.STALL_STATE_HOLD_CAUSE g)) 3 = true → visibleAgain g s = true →
    Completes (.programEmptyCleared g) s fun t => stSt g t = ssHOLD ∧
      get t (F.STALL_STATE_HOLD_CAUSE g) = get s (F.STALL_STATE_HOLD_CAUSE g) - hcPROGRAM_EMPTY) ∧
  (∀ (g : Fin 48) (s : State), stSt g s = ssHOLD → bit (get s (F.STALL_STATE_HOLD_CAUSE g)) 2 = true → strokeReady g s = true →
    Completes (.starvedCleared g) s fun t => stSt g t = ssHOLD ∧
      get t (F.STALL_STATE_HOLD_CAUSE g) = get s (F.STALL_STATE_HOLD_CAUSE g) - hcSTARVED) ∧
  (∀ (g : Fin 48) (s : State) (n : Nat), reached g s = some (.layerEnd n) →
    Completes (.layerEndReached g) s fun t => stSt g t = ssLAYER ∧ rdN t (R.STALL_LAYER_MARK g) = n % 2 ^ 32) ∧
  (∀ (g : Fin 48) (s : State) (tmo mask id : Nat), reached g s = some (.sync tmo mask id) →
    Completes (.syncBarrierReached g) s fun t => stSt g t = ssSYNC ∧ (stall t g).sync = some (mask, id, tmo) ∧
      (stall t g).syncSince = s.beam ∧ get t (F.STALL_SYNC_BARRIER_ID g) = id % 256) ∧
  (∀ (g : Fin 48) (s : State), reached g s = some .progEnd →
    Completes (.programEndReached g) s fun t => stSt g t = ssIDLE ∧ flag t (F.STALL_STATE_HOLD_PENDING g) = false ∧
      (stall t g).holdReq = 0) ∧
  (∀ (g : Fin 48) (s : State) (m id tmo : Nat), (stall s g).sync = some (m, id, tmo) → (stall s g).syncRel = true →
    barrierMet g s = true → inhibited s = false →
    Completes (.syncBarrierRelease g) s fun t => ∀ h : Fin 48, bit m h = true → stSt h t = ssRUN ∧ (stall t h).sync = none) ∧
  (∀ (g : Fin 48) (s : State), stSt g s = ssHOLD → (stall s g).retDue = true → get s (F.STALL_STATE_HOLD_CAUSE g) = 0 →
    inhibited s = false →
    Completes (.holdReturn g) s fun t => stSt g t = get s (F.STALL_STATE_RETURN_STATE g) ∧ (stall t g).retDue = false) ∧
  (∀ (g : Fin 48) (s : State), flag s (F.STALL_STATE_IN_ISLAND g) = true → (stall s g).islD ≠ 0 → (stall s g).islTold = false →
    (stall s g).islD * 1000 ≤ s.beam - (stall s g).islStart →
    Completes (.islandDeadline g) s fun t => flag t (F.STALL_FLAGS_ISLAND_LATE g) = true ∧ (stall t g).islTold = true ∧
      (flag s (F.STALL_CTRL_ISLAND_LATE_HOLD g) = true → stSt g s = ssRUN →
        flag t (F.STALL_STATE_HOLD_PENDING g) = true ∧ stSt g t = ssRUN)) ∧
  (∀ (g : Fin 48) (s : State), (stall s g).seq.stop = 8 → seqWorks g s = true → seamRegs g s < 4 →
    Completes (.seamPauseEnd g) s fun t => (stall t g).seq.stop = 0 ∧ (stall t g).items = (stall s g).items)

/-- A HOLD written to STALL.CMD by a requester that may reach it adds HOST to a held stall, makes a hold pending in
RUN, is remembered by a stall that waits at a barrier or for a layer, and is refused elsewhere with CMD_REFUSED; a
RESUME of a held stall, with no heartbeat lost, no inhibit and its servo ready, leaves only the causes STARVED and
PROGRAM_EMPTY, else is refused. HOLD_ALL acts so on every stall. (R78, R97, R98, R100) -/
def Obligations.StallHoldAndResume : Prop :=
  (∀ (sec : Bool) (g : Fin 48) (s : State), accessOk sec (R.STALL_CMD g) s = true →
    Completes (.cmdHold sec g) s fun t =>
      (stSt g s = ssHOLD → stSt g t = ssHOLD ∧
        get t (F.STALL_STATE_HOLD_CAUSE g) = get s (F.STALL_STATE_HOLD_CAUSE g) ||| hcHOST) ∧
      (stSt g s = ssRUN → stSt g t = ssRUN ∧ flag t (F.STALL_STATE_HOLD_PENDING g) = true ∧
        (stall t g).holdReq = (stall s g).holdReq ||| hcHOST) ∧
      (stSt g s = ssSYNC ∨ stSt g s = ssLAYER → stSt g t = stSt g s ∧
        (stall t g).holdReq = (stall s g).holdReq ||| hcHOST) ∧
      (holdOk g s = false → flag t (F.STALL_FLAGS_CMD_REFUSED g) = true ∧ stSt g t = stSt g s ∧ t.stalls = s.stalls)) ∧
  (∀ (sec : Bool) (g : Fin 48) (s : State), accessOk sec (R.STALL_CMD g) s = true →
    Completes (.cmdResume sec g) s fun t =>
      if resumeOk g s then stSt g t = ssHOLD ∧
        get t (F.STALL_STATE_HOLD_CAUSE g) = get s (F.STALL_STATE_HOLD_CAUSE g) &&& (hcSTARVED ||| hcPROGRAM_EMPTY)
      else flag t (F.STALL_FLAGS_CMD_REFUSED g) = true ∧ t.stalls = s.stalls) ∧
  (∀ (sec : Bool) (s : State), accessOk sec R.YRD_HOLD_ALL s = true →
    Completes (.holdAllHold sec) s fun t => ∀ g : Fin 48,
      (stSt g s = ssHOLD → get t (F.STALL_STATE_HOLD_CAUSE g) = get s (F.STALL_STATE_HOLD_CAUSE g) ||| hcHOST) ∧
      (stSt g s = ssRUN → flag t (F.STALL_STATE_HOLD_PENDING g) = true ∧
        (stall t g).holdReq = (stall s g).holdReq ||| hcHOST) ∧
      (holdOk g s = false → flag t (F.STALL_FLAGS_CMD_REFUSED g) = true)) ∧
  (∀ (sec : Bool) (s : State), accessOk sec R.YRD_HOLD_ALL s = true →
    Completes (.holdAllResume sec) s fun t => ∀ g : Fin 48,
      if resumeOk g s then
        get t (F.STALL_STATE_HOLD_CAUSE g) = get s (F.STALL_STATE_HOLD_CAUSE g) &&& (hcSTARVED ||| hcPROGRAM_EMPTY)
      else flag t (F.STALL_FLAGS_CMD_REFUSED g) = true)

/-- When such a descriptor of a stall context starts with all its zero fields 0, RELEASE of an IDLE stall that may run is
taken for the next tick and RELEASE in another state completes INTERLOCK; HOLD of a held stall adds HOST and completes OK,
and in RUN makes a hold pending; RESUME of a stall that may resume clears the causes it clears; ABORT in RUN, and in HOLD
while committed entries are left, latches a squash with cause ABORT and elsewhere asks for the abort at the next tick; a
descriptor with a field that must be 0 completes FORMAT. (R77, R78, R94, R97, R98, R99) -/
def Obligations.StallOrders : Prop :=
  ∀ (c : Fin 256) (d : Desc) (g : Fin 48) (s : State), ctxStall c s = some g → d.txnV = false →
    (ctxSecure c = true ∨ blockSecure (32 + g.val / 8) s = false) →
    (Starts c 0x18 d s → orderPlain d = true → stSt g s = ssIDLE → hbLost s = false → inhibited s = false → servoOk g s = true →
      Completes (.release c) s fun t => (stall t g).relNew = true ∧ stSt g t = ssIDLE) ∧
    (Starts c 0x18 d s → orderPlain d = true → stSt g s ≠ ssIDLE →
      Completes (.release c) s fun t => Decided c d.seq stINTERLOCK s t ∧ t.stalls = s.stalls) ∧
    (Starts c 0x19 d s → orderPlain d = true → stSt g s = ssHOLD →
      Completes (.hold c) s fun t => Decided c d.seq stOK s t ∧ stSt g t = ssHOLD ∧
        get t (F.STALL_STATE_HOLD_CAUSE g) = get s (F.STALL_STATE_HOLD_CAUSE g) ||| hcHOST) ∧
    (Starts c 0x19 d s → orderPlain d = true → stSt g s = ssRUN →
      Completes (.hold c) s fun t => flag t (F.STALL_STATE_HOLD_PENDING g) = true ∧
        (stall t g).holdReq = (stall s g).holdReq ||| hcHOST ∧ (ctx t c).hist = (ctx s c).hist) ∧
    (Starts c 0x1A d s → orderPlain d = true → resumeOk g s = true →
      Completes (.resume c) s fun t =>
        get t (F.STALL_STATE_HOLD_CAUSE g) = get s (F.STALL_STATE_HOLD_CAUSE g) &&& (hcSTARVED ||| hcPROGRAM_EMPTY)) ∧
    (Starts c 0x1B d s → orderPlain d = true → flag s (F.STALL_STATE_ABORTING g) = false →
      Completes (.abort c) s fun t => if stSt g s = ssRUN ∨ (stSt g s = ssHOLD ∧ 0 < (stall s g).hzn) then (stall t g).squashNew = (stall s g).squashNew ||| 2 ^ 5
        else (stall t g).abortNew = true) ∧
    (Starts c 0x19 d s → orderPlain d = false → Completes (.hold c) s fun t => Decided c d.seq stFORMAT s t)

/-- ABORT by register in RUN, and in HOLD while committed entries are left, latches a squash with cause ABORT, elsewhere
asks for the abort at the next tick; ABORT_COMPLETE leaves the stall IDLE, or OFFLINE where it is to be, with all three
program pointers 0, nothing parsed and no fault or hold cause; STALL_ENABLE and STALL_DISABLE write CTRL with EN as named;
STALL_ONLINE takes an enabled OFFLINE stall with its stable and link to IDLE; PROG_REGION_WRITE of an acceptable region sets
the region and zeroes the pointers, and of another one sets REGION_REFUSED and leaves the region. (R76, R94, R99) -/
def Obligations.StallAbortAndEnable : Prop :=
  (∀ (sec : Bool) (g : Fin 48) (s : State), accessOk sec (R.STALL_CMD g) s = true → flag s (F.STALL_STATE_ABORTING g) = false →
    Completes (.cmdAbort sec g) s fun t => if stSt g s = ssRUN ∨ (stSt g s = ssHOLD ∧ 0 < (stall s g).hzn) then (stall t g).squashNew = (stall s g).squashNew ||| 2 ^ 5
      else (stall t g).abortNew = true) ∧
  (∀ (g : Fin 48) (s : State), abortOver g s = true → ¬ (stSt g s = ssIDLE ∧ (stall s g).disable = true) →
    Completes (.abortComplete g) s fun t => stSt g t = abortTarget g s ∧ rdN t (R.STALL_PROG_WP g) = 0 ∧
      rdN t (R.STALL_PROG_RP g) = 0 ∧ rdN t (R.STALL_PROG_PARSE g) = 0 ∧ (stall t g).items = [] ∧
      get t (F.STALL_STATE_FAULT_CAUSE g) = 0 ∧ get t (F.STALL_STATE_HOLD_CAUSE g) = 0) ∧
  (∀ (sec : Bool) (g : Fin 48) (v : Word) (s : State), accessOk sec (R.STALL_CTRL g) s = true →
    Completes (.stallEnable sec g v) s fun t => rdN t (R.STALL_CTRL g) = v.toNat % 8 / 2 * 2 + 1 ∧ stSt g t = stSt g s ∧
      flag t (F.STALL_STATE_EN_WAIT g) = (stSt g s == ssOFFLINE && !canOnline g s)) ∧
  (∀ (g : Fin 48) (s : State), stSt g s = ssOFFLINE → flag s (F.STALL_CTRL_EN g) = true → canOnline g s = true →
    Completes (.stallOnline g) s fun t => stSt g t = ssIDLE ∧ flag t (F.STALL_STATE_EN_WAIT g) = false) ∧
  (∀ (sec : Bool) (g : Fin 48) (v : Word) (s : State), accessOk sec (R.STALL_CTRL g) s = true →
    Completes (.stallDisable sec g v) s fun t => rdN t (R.STALL_CTRL g) = v.toNat % 8 / 2 * 2 ∧ stSt g t = stSt g s ∧
      (stSt g s ≠ ssOFFLINE → (stall t g).disable = true)) ∧
  (∀ (sec : Bool) (g : Fin 48) (v : BitVec 64) (s : State), accessOk sec (R.STALL_PROG_REGION g) s = true →
    Completes (.progRegionWrite sec g (.both v)) s fun t =>
      if regionOk g (v.toNat % 2 ^ 32) (v.toNat / 2 ^ 32) s then
        rdN t (R.STALL_PROG_REGION g) = v.toNat % 2 ^ 32 ∧ rdN t (R.STALL_PROG_REGION g + 4) = v.toNat / 2 ^ 32 ∧
          rdN t (R.STALL_PROG_WP g) = 0 ∧ rdN t (R.STALL_PROG_RP g) = 0 ∧ rdN t (R.STALL_PROG_PARSE g) = 0
      else flag t (F.STALL_FLAGS_REGION_REFUSED g) = true ∧
        rdN t (R.STALL_PROG_REGION g) = rdN s (R.STALL_PROG_REGION g) ∧
        rdN t (R.STALL_PROG_REGION g + 4) = rdN s (R.STALL_PROG_REGION g + 4))

/-- A HEARTBEAT write of a period up to 60 s that is not 0 while a stall could be held stores it, restarts the timer
and clears LOST everywhere; another one is refused with REFUSED and leaves the period; a kick restarts and clears
LOST; an expiry that is due sets LOST and EXPIRED, and every stall shows HB_LOST; the layer deadline, once its limit
has passed since the layer's start, sets LATE. (R100, R101, R102) -/
def Obligations.HeartbeatAndDeadline : Prop :=
  (∀ (sec : Bool) (v : Word) (s : State), accessOk sec R.YRD_HEARTBEAT s = true →
    Completes (.heartbeatPeriodWrite sec v) s fun t =>
      if 60 < v.toNat % 256 ∨ (v.toNat % 256 = 0 ∧ ∃ g : Fin 48, holdOk g s = true) then
        flag t F.YRD_HEARTBEAT_STATUS_REFUSED = true ∧ rdN t R.YRD_HEARTBEAT = rdN s R.YRD_HEARTBEAT
      else rdN t R.YRD_HEARTBEAT = v.toNat % 256 ∧ t.hbSince = s.beam ∧ hbLost t = false ∧
        ∀ g : Fin 48, flag t (F.STALL_STATE_HB_LOST g) = false) ∧
  (∀ (sec : Bool) (s : State), accessOk sec R.YRD_HEARTBEAT_KICK s = true →
    Completes (.heartbeatKick sec) s fun t => t.hbSince = s.beam ∧ hbLost t = false ∧
      ∀ g : Fin 48, flag t (F.STALL_STATE_HB_LOST g) = false) ∧
  (∀ s : State, s.ldSince.isSome = true → get s F.YRD_LAYER_DEADLINE_LIMIT ≠ 0 → s.ldTold = false →
    get s F.YRD_LAYER_DEADLINE_LIMIT * 1000000 ≤ s.beam - s.ldSince.getD 0 →
    Completes .layerDeadlinePassed s fun t => flag t F.YRD_LAYER_DEADLINE_STATUS_LATE = true ∧ t.ldTold = true) ∧
  (∀ s : State, heartbeatDue s = true →
    Completes .heartbeatExpired s fun t => hbLost t = true ∧ flag t F.YRD_HEARTBEAT_STATUS_EXPIRED = true ∧ t.hbTold = true ∧
      ∀ g : Fin 48, flag t (F.STALL_STATE_HB_LOST g) = true)

/-- A load of `n` bytes into the region of stall `g` passes the checks of R78 and has room (R79). -/
def LoadStarts (c : Fin 256) (op : Nat) (d : Desc) (g : Fin 48) (n : Nat) (s : State) : Prop :=
  runningDesc (ctx s c) Desc.loadWaits = none ∧ Starts c op d s ∧ ctxStall c s = some g ∧ d.txnV = false ∧
  (ctxSecure c = true ∨ blockSecure (32 + g.val / 8) s = false) ∧ loadPlain d = true ∧ d.loadBytes = n ∧ n ≠ 0 ∧
  n % 16 = 0 ∧ n + 16 ≤ progSize g s ∧ stSt g s ≠ ssOFFLINE ∧ stSt g s ≠ ssFAULT ∧ n + bytesComing c s ≤ progFree g s ∧
  (if op = 0x12 then anyOpen (progAddr g s) (progSize g s) s else anySecure (progAddr g s) (progSize g s) s) = false

/-- A load whose length fits, in a stall that may take it, with room in its region, keeps a plain payload ready, hands
a packed one to a decompression engine, and opens a sealed one or completes DATA_CHECK with the failed authentication
counted; a failed payload read completes MEMORY_ERROR; none of them moves WP. A load ready to become visible stores
its bytes in the ring region from WP on, moves WP and completes OK with the new WP and the length. (R63, R75, R77,
R78, R79, R454) -/
def Obligations.ProgramLoads : Prop :=
  (∀ (c : Fin 256) (d : Desc) (g : Fin 48) (n : Nat) (bs : List Byte) (s : State), LoadStarts c 0x10 d g n s →
    Completes (.progLoad c (.ok bs)) s fun t => t.regs = s.regs ∧ ∃ j, t.cmpDone = s.cmpDone ++ [j] ∧ j.ctx = c.val ∧
      j.seq = d.seq ∧ j.out = fitBytes d.len bs ∧ j.done = some (stOK, 0)) ∧
  (∀ (c : Fin 256) (d : Desc) (g : Fin 48) (n a kind op : Nat) (i : Instr) (s : State),
    (i, op) ∈ [(.progLoad c (.fail a kind), 0x10), (.progLoadPacked c (.fail a kind), 0x11),
      (.progLoadSealed c (.fail a kind) none, 0x12)] → LoadStarts c op d g n s →
    Completes i s fun t => Decided c d.seq stMEMORY_ERROR s t ∧ flag t F.HIF_ERR_STATUS_DMA_ERROR = true ∧
      rdN t (R.STALL_PROG_WP g) = rdN s (R.STALL_PROG_WP g)) ∧
  (∀ (c : Fin 256) (d : Desc) (g : Fin 48) (n : Nat) (bs : List Byte) (s : State), LoadStarts c 0x11 d g n s →
    Completes (.progLoadPacked c (.ok bs)) s fun t => rdN t (R.STALL_PROG_WP g) = rdN s (R.STALL_PROG_WP g) ∧
      ∃ j ∈ t.cmpWait ++ t.cmpJobs[0] ++ t.cmpJobs[1], j.ctx = c.val ∧ j.seq = d.seq ∧ j.dec = true ∧ j.input = bs.take d.len ∧ j.done = none) ∧
  (∀ (c : Fin 256) (d : Desc) (g : Fin 48) (n : Nat) (bs : List Byte) (p : Option (List Byte)) (s : State),
    LoadStarts c 0x12 d g n s →
    Completes (.progLoadSealed c (.ok bs) p) s fun t => rdN t (R.STALL_PROG_WP g) = rdN s (R.STALL_PROG_WP g) ∧
      (sealedDetail d (bs.take d.len) p s ≠ 0 → Decided c d.seq stDATA_CHECK s t ∧ flag t F.TCK_FLAGS_AUTH_FAIL = true ∧
        t.cmpDone = s.cmpDone) ∧
      (sealedDetail d (bs.take d.len) p s = 0 → d.fbit 14 = false →
        ∃ j, t.cmpDone = s.cmpDone ++ [j] ∧ j.ctx = c.val ∧ j.seq = d.seq ∧ j.out = p.getD [] ∧ j.done = some (stOK, 0))) ∧
  (∀ (c : Fin 256) (d : Desc) (l : List Desc) (g : Fin 48) (j : Job) (s : State), loadsRunning c s = d :: l →
    auxStall d.aux = g.val → d.op ≠ 0x12 → s.cmpDone.find? (fun j => j.ctx == c.val && j.seq == d.seq) = some j →
    j.done = some (stOK, 0) → j.out.length ≤ progFree g s →
    Completes (.loadVisible c) s fun t =>
      rdN t (R.STALL_PROG_WP g) = (rdN s (R.STALL_PROG_WP g) + j.out.length) % progSize g s % 2 ^ 32 ∧
      loft t (g.val / 8) =
        loft (ringWrite (stableOf g) (progBase g s) (progSize g s) (rdN s (R.STALL_PROG_WP g)) j.out s) (g.val / 8) ∧
      DecidedWith c d.seq stOK (rdN t (R.STALL_PROG_WP g)) j.out.length s t) ∧
  (∀ (c : Fin 256) (d : Desc) (l : List Desc) (g : Fin 48) (j : Job) (x : Nat) (s : State), loadsRunning c s = d :: l →
    auxStall d.aux = g.val → s.cmpDone.find? (fun j => j.ctx == c.val && j.seq == d.seq) = some j →
    j.done = some (stDATA_CHECK, x) →
    Completes (.loadVisible c) s fun t => Decided c d.seq stDATA_CHECK s t ∧ t.lofts = s.lofts ∧
      rdN t (R.STALL_PROG_WP g) = rdN s (R.STALL_PROG_WP g))

/-- SEQUENCER_FAULT raises stable event 34 and puts every named stall of the stable that is neither OFFLINE nor in
FAULT into FAULT with cause 5; stalls of other stables keep their state. (R95) -/
def Obligations.SequencerFaults : Prop :=
  ∀ (x : Fin 6) (l : List (Fin 48)) (s : State), Completes (.sequencerFault x l) s fun t =>
    flag t (pendBit (stableEv x 2)) = true ∧
    (∀ g ∈ l, g.val / 8 = x.val → stSt g s ≠ ssOFFLINE → stSt g s ≠ ssFAULT →
      stSt g t = ssFAULT ∧ get t (F.STALL_STATE_FAULT_CAUSE g) = 5) ∧
    ∀ g : Fin 48, g.val / 8 ≠ x.val → stSt g t = stSt g s

/-- A trajectory register of a stall that is OFFLINE or IDLE takes a value in range, and another write leaves it and
sets CFG_REFUSED; a GRID_SEL write at rest begins the verification of the slots in use; a verification ends with
GRID_STATE 2 where every slot's CRC matches and else with 3 and stable event 35; a window write of a slot that is not
locked stores its word in the loft, and of a locked one only sets REFUSED. (R129, R140) -/
def Obligations.GridsAndPlanner : Prop :=
  (∀ (sec : Bool) (g : Fin 48) (o : Nat) (v : Word) (s : State), stallBase g + 0x100 + 4 * (o % 16) ≠ R.STALL_GRID_SEL g →
    accessOk sec (stallBase g + 0x100 + 4 * (o % 16)) s = true →
    Completes (.trjConfigWrite sec g o v) s fun t =>
      if trjOk g (stallBase g + 0x100 + 4 * (o % 16)) (merged (stallBase g + 0x100 + 4 * (o % 16)) v s) s then
        Takes (stallBase g + 0x100 + 4 * (o % 16)) v s t ∧ stSt g t = stSt g s
      else flag t (F.STALL_TRJ_FLAGS_CFG_REFUSED g) = true ∧ t.stalls = s.stalls ∧
        ∀ p, p ≠ R.STALL_TRJ_FLAGS g → rd t p = rd s p) ∧
  (∀ (sec : Bool) (g : Fin 48) (v : Word) (s : State), accessOk sec (R.STALL_GRID_SEL g) s = true →
    Completes (.gridSelWrite sec g v) s fun t =>
      if stSt g s ≤ ssIDLE then Takes (R.STALL_GRID_SEL g) v s t ∧ get t (F.STALL_TRJ_STATUS_GRID_STATE g) = 1 ∧
        ∀ n, n ∈ (stall t g).verify ↔ n ∈ slotsInUse (merged (R.STALL_GRID_SEL g) v s) (rdN s (R.STALL_TRJ_CTRL g))
      else flag t (F.STALL_TRJ_FLAGS_CFG_REFUSED g) = true ∧ t.stalls = s.stalls ∧
        rd t (R.STALL_GRID_SEL g) = rd s (R.STALL_GRID_SEL g)) ∧
  (∀ (g : Fin 48) (s : State), get s (F.STALL_TRJ_STATUS_GRID_STATE g) = 1 →
    Completes (.gridVerification g) s fun t => (stall t g).verify = [] ∧
      if (stall s g).verify.all (fun n => gridGood (stableOf g) n s) then get t (F.STALL_TRJ_STATUS_GRID_STATE g) = 2
      else get t (F.STALL_TRJ_STATUS_GRID_STATE g) = 3 ∧ flag t (pendBit (stableEv (g.val / 8) 3)) = true) ∧
  (∀ (sec : Bool) (st : Fin 6) (w : Nat) (v : Word) (s : State), w < 0xD000 → w % 4 = 0 →
    accessOk sec (0x290000 + 0x100000 * st.val + w) s = true → get s (F.STB_GRID_WIN_SEL_TARGET st) < 16 →
    (slotLocked st (get s (F.STB_GRID_WIN_SEL_TARGET st)) s = true →
      Completes (.gridWindowWrite sec st w v) s fun t => flag t (F.STB_GRID_WIN_STATUS_REFUSED st) = true ∧ t.lofts = s.lofts) ∧
    (slotLocked st (get s (F.STB_GRID_WIN_SEL_TARGET st)) s = false →
      rangeOk sec (loftAddr st (0xD000 * get s (F.STB_GRID_WIN_SEL_TARGET st) + w)) 4 s = true →
      Completes (.gridWindowWrite sec st w v) s fun t => t.regs = s.regs ∧
        memLe (loft t st) (0xD000 * get s (F.STB_GRID_WIN_SEL_TARGET st) + w) 4 = v.toNat))

/-- GATE_CFG takes a value only while the stall is OFFLINE, PWR_GAIN, PWR_CODE and PWR_ADVANCE only in OFFLINE and
IDLE, else OUT_FLAGS.CFG_REFUSED is set and the register stays; GATE_TRIM always takes it, and it is applied, shown in
IN_USE, once no edge can be moved by it. (R146, R147, R151) -/
def Obligations.GateSettings : Prop :=
  (∀ (sec : Bool) (g : Fin 48) (v : Word) (s : State), accessOk sec (R.STALL_GATE_CFG g) s = true →
    Completes (.gateCfgWrite sec g v) s fun t => if stSt g s = ssOFFLINE then Takes (R.STALL_GATE_CFG g) v s t
      else rd t (R.STALL_GATE_CFG g) = rd s (R.STALL_GATE_CFG g) ∧ flag t (F.STALL_OUT_FLAGS_CFG_REFUSED g) = true) ∧
  (∀ (sec : Bool) (g : Fin 48) (r : Fin 3) (v : Word) (s : State), accessOk sec (R.STALL_PWR_GAIN g + 4 * r.val) s = true →
    Completes (.outputConfigWrite sec g r v) s fun t =>
      if stSt g s ≤ ssIDLE then Takes (R.STALL_PWR_GAIN g + 4 * r.val) v s t
      else rd t (R.STALL_PWR_GAIN g + 4 * r.val) = rd s (R.STALL_PWR_GAIN g + 4 * r.val) ∧
        flag t (F.STALL_OUT_FLAGS_CFG_REFUSED g) = true) ∧
  (∀ (sec : Bool) (g : Fin 48) (v : Word) (s : State), accessOk sec (R.STALL_GATE_TRIM g) s = true →
    Completes (.gateTrimWrite sec g v) s fun t => Takes (R.STALL_GATE_TRIM g) v s t ∧ (far (stallUnit g) t).own = false ∧
      ∀ p, p ≠ R.STALL_GATE_TRIM g → rd t p = rd s p) ∧
  (∀ (g : Fin 48) (s : State), (stSt g s ≠ ssRUN ∨ trimFree g s = true) →
    Completes (.trimApplied g) s fun t => get t (F.STALL_GATE_TRIM_IN_USE g) = get s (F.STALL_GATE_TRIM_TRIM g) ∧
      get t (F.STALL_GATE_TRIM_TRIM g) = get s (F.STALL_GATE_TRIM_TRIM g)) ∧
  (∀ (g : Fin 48) (s : State), stSt g s = ssRUN → trimFree g s = false → exec (.trimApplied g) s = .next s)

/-- Source `i` of R157 is active, the gates are forced off and LSAFE_OK is low (R158). -/
def Inhibits (i : Nat) (t : State) : Prop :=
  bit (get t F.YRD_LSAFE_STATUS_SOURCES) i = true ∧ t.forced = true ∧ flag t F.YRD_LSAFE_STATUS_OK = false ∧
  flag t F.YRD_LSAFE_STATUS_RELEASE_WAIT = false ∧ t.relSince = none

/-- No source is left: the release wait runs, the forcing holds (R161). -/
def ReleaseWaits (s t : State) : Prop :=
  get t F.YRD_LSAFE_STATUS_SOURCES = 0 ∧ flag t F.YRD_LSAFE_STATUS_RELEASE_WAIT = true ∧ t.relSince = some s.beam ∧
  t.forced = s.forced

/-- An input that goes low, a set bit of LSAFE_SW or LSAFE_SEC, a discrepancy of more than 1 ms and a gate read back on
while commanded off in the microvector each make their source active: the forcing is on and LSAFE_OK is low at once. The end
of the last source starts the release wait and leaves the forcing. A latch is cleared only where its condition holds; else
CLEAR_IGNORED is set and the sources stay. (R149, R157, R158, R160, R161) -/
def Obligations.InhibitSources : Prop :=
  (∀ (b : Bool) (s : State), bit (get s F.YRD_LSAFE_STATUS_SOURCES) 0 = false →
    Completes (.lsafeInputLow b) s fun t => Inhibits 0 t ∧ flag t (lsafeIn b) = false ∧
      flag t (lsafeIn (!b)) = flag s (lsafeIn (!b))) ∧
  (∀ (sec : Bool) (v : Word) (s : State) (i : Instr) (k o : Nat),
    (i, k, o) ∈ [(.lsafeSwWrite sec v, 6, R.YRD_LSAFE_SW), (.lsafeSecWrite sec v, 7, R.YRD_LSAFE_SEC)] →
    accessOk sec o s = true →
    (v.toNat % 2 = 1 → bit (get s F.YRD_LSAFE_STATUS_SOURCES) k = false →
      Completes i s fun t => Inhibits k t ∧ rdN t o = 1) ∧
    (v.toNat % 2 = 0 → get s F.YRD_LSAFE_STATUS_SOURCES = 2 ^ k → Completes i s fun t => ReleaseWaits s t ∧ rdN t o = 0)) ∧
  (∀ (b : Bool) (s : State), flag s (lsafeIn (!b)) = true → get s F.YRD_LSAFE_STATUS_SOURCES = 1 →
    Completes (.lsafeInputHigh b) s fun t => ReleaseWaits s t ∧ flag t (lsafeIn b) = true ∧ t.lsDiff = none) ∧
  (∀ (x : Nat) (s : State), s.lsDiff = some x → 1000000 < s.beam - x → bit (get s F.YRD_LSAFE_STATUS_SOURCES) 1 = false →
    Completes .lsafeDiscrepancy s fun t => Inhibits 1 t ∧ flag t F.YRD_LSAFE_FLAGS_DISCREPANCY_SEEN = true ∧
      flag t (pendBit 42) = true) ∧
  (∀ (g : Fin 48) (on : Bool) (s : State), ballDiffers g on s = false → exec (.readbackMismatch g on) s = .next s) ∧
  (∀ (g : Fin 48) (on : Bool) (s : State), flag s (F.STALL_GATE_CFG_DRIVE g) = true → ballDiffers g on s = true →
    bit (get s F.YRD_LSAFE_STATUS_SOURCES) 5 = false →
    Completes (.readbackMismatch g on) s fun t => flag t (F.STALL_OUT_FLAGS_READBACK_MISMATCH g) = true ∧
      rdN t (R.STALL_READBACK_COUNT g) = min (rdN s (R.STALL_READBACK_COUNT g) + 1) 0xFFFFFFFF ∧
      flag t (pendBit (stableEv (g.val / 8) 6)) = true ∧
      ((stall s g).faultNew = 0 → (stall t g).faultNew = 7 + 256 * (if on then 1 else 2)) ∧ (on = true → Inhibits 5 t)) ∧
  (∀ (sec bad : Bool) (s : State), accessOk sec R.YRD_LSAFE_CLEAR s = true →
    (Completes (.clearDiscrepancy sec) s fun t =>
      if flag s F.YRD_LSAFE_STATUS_IN_A = false ∧ flag s F.YRD_LSAFE_STATUS_IN_B = false then
        bit (get t F.YRD_LSAFE_STATUS_SOURCES) 1 = false
      else flag t F.YRD_LSAFE_FLAGS_CLEAR_IGNORED = true ∧
        get t F.YRD_LSAFE_STATUS_SOURCES = get s F.YRD_LSAFE_STATUS_SOURCES) ∧
    (Completes (.clearReadback sec bad) s fun t =>
      if bad = false then bit (get t F.YRD_LSAFE_STATUS_SOURCES) 5 = false ∧ ∀ g : Fin 48, (stall t g).pinBad = false
      else flag t F.YRD_LSAFE_FLAGS_CLEAR_IGNORED = true ∧ t.stalls = s.stalls ∧
        get t F.YRD_LSAFE_STATUS_SOURCES = get s F.YRD_LSAFE_STATUS_SOURCES))

/-- When the inhibit is due at a tick, INHIBIT and ASSERTED are set, LSAFE_TIME takes the tick's yard time, event 40
is raised and every stall in RUN that is not aborting latches a squash with cause INHIBIT, the others nothing. A stall
whose stop path has ended enters FAULT with cause 11. When the release wait is over with both inputs high, the forcing
stops, LSAFE_OK is high and event 41 is raised. (R159, R161) -/
def Obligations.InhibitSequence : Prop :=
  (∀ s : State, s.inhDue = true → Completes .laserInhibitAsserted s fun t => flag t F.YRD_LSAFE_STATUS_INHIBIT = true ∧
    flag t F.YRD_LSAFE_FLAGS_ASSERTED = true ∧ rd64 t R.YRD_LSAFE_TIME = s.now % 2 ^ 64 ∧ flag t (pendBit 40) = true ∧
    t.inhDue = false ∧ ∀ g : Fin 48, stall t g = if stSt g s = ssRUN ∧ flag s (F.STALL_STATE_ABORTING g) = false then
      { stall s g with squashNew := (stall s g).squashNew ||| 2 ^ 4 } else stall s g) ∧
  (∀ (g : Fin 48) (s : State), (stall s g).stopping = 2 → (stall s g).noEntry = true → (stall s g).buf = [] →
    Completes (.inhibitStopComplete g) s fun t => stSt g t = ssFAULT ∧ get t (F.STALL_STATE_FAULT_CAUSE g) = 0x0B) ∧
  (∀ (x : Nat) (s : State), s.relSince = some x →
    clampN 1 1000 (rdN s R.YRD_LSAFE_RELEASE % 1024) * 1000000 ≤ s.beam - x → flag s F.YRD_LSAFE_STATUS_IN_A = true →
    flag s F.YRD_LSAFE_STATUS_IN_B = true →
    Completes .laserInhibitReleased s fun t => t.forced = false ∧ flag t F.YRD_LSAFE_STATUS_OK = true ∧
      flag t F.YRD_LSAFE_STATUS_RELEASE_WAIT = false ∧ t.relSince = none ∧ t.relTick = true ∧ flag t (pendBit 41) = true)

/-- A marshal register takes a value in range while every stall is OFFLINE or IDLE, and else stays with CFG_REFUSED
and event 74; a host request of a seam move waits for the next tick with result 1; the decided move of one section
makes the other stall its owner, counts it and raises event 74. (R179, R185) -/
def Obligations.MarshalSettings : Prop :=
  (∀ (sec : Bool) (r : Fin 6) (v : Word) (s : State), accessOk sec (R.YRD_MSH_CTRL + 4 * r.val) s = true →
    Completes (.marshalConfigWrite sec r v) s fun t =>
      if allQuiet s = true ∧ marshalRange (R.YRD_MSH_CTRL + 4 * r.val) (merged (R.YRD_MSH_CTRL + 4 * r.val) v s) s = true then
        Takes (R.YRD_MSH_CTRL + 4 * r.val) v s t
      else rd t (R.YRD_MSH_CTRL + 4 * r.val) = rd s (R.YRD_MSH_CTRL + 4 * r.val) ∧
        flag t F.YRD_MSH_FLAGS_CFG_REFUSED = true ∧ flag t (pendBit 74) = true) ∧
  (∀ (sec : Bool) (v : BitVec 64) (s : State), accessOk sec R.YRD_MSH_SEAM_MOVE s = true →
    Completes (.seamMoveWrite sec (.both v)) s fun t =>
      t.seamReqs = s.seamReqs ++ [⟨1, v.toNat % 2 ^ 32, v.toNat / 2 ^ 32 % 64, true⟩] ∧ t.seams = s.seams ∧
      rdN t R.YRD_MSH_SEAM_RESULT = 1 + 2 ^ 4 + 2 ^ 8 * ((seamIdx (v.toNat % 2 ^ 32) s).map Fin.val).getD 0) ∧
  (∀ (r : SeamReq) (i : Fin 192) (s : State), s.seamMoves = [r] → seamIdx r.id s = some i →
    Completes .seamMove s fun t => (seam t i).owner = (seam s i).other ∧ (seam t i).other = (seam s i).owner ∧
      (seam t i).moves = min ((seam s i).moves + 1) 255 ∧ t.seamMoves = [] ∧ flag t (pendBit 74) = true)

/-- A due bin of a running loop that is of gate-on class and complete leaves y and e of the law, in the bank that a swap
due at this tick makes active, in ENG_Y and ENG_E and its loop state as the new one; an incomplete one counts as missing
and invalid; an uncorrectable bank read opens the loop with detail 4 and event 36. A feature is kept with its tags and its
time. A bank selection of the other bank is pending, refused while a CLE_LOAD writes that bank (R220), and the swap makes
it active. An energy register takes a value that may be written for the next tick, and
another write only sets CFG_REFUSED. (R199, R202, R206, R207, R209, R210, R211, R220) -/
def Obligations.EnergyLoop : Prop :=
  (∀ (g : Fin 48) (b : Bin) (o : EnergyOut) (s u : State), dueBin g s = some b → get s (F.ENG_STATUS_LOOP g) = 1 →
    b.cls = true → b.complete = true → u = deliverPend g (bankSwap g s) → bankReads g u = true →
    o = energyLaw (coefAt (loft u (g.val / 8)) (bankOff g (get u (F.ENG_BANK_ACTIVE g)))) (eng u g) b.values b.power
      (if featValid g u then some (rdI u (R.ENG_FEAT g)) else none) (energyRegs g u) (get u (F.ENG_OUT_KP g)) →
    Completes (.energyEvaluation g 0) s fun t => rdI t (R.ENG_Y g) = o.y ∧ rdI t (R.ENG_E g) = o.e ∧
      (eng t g).e1 = o.e ∧ (eng t g).e2 = (eng u g).e1 ∧ (eng t g).u1 = o.u ∧ (eng t g).u2 = (eng u g).u1 ∧
      (eng t g).i = o.i ∧ (eng t g).v = o.v ∧ (eng t g).bins = (eng s g).bins.drop 1) ∧
  (∀ (g : Fin 48) (b : Bin) (s : State), dueBin g s = some b → get s (F.ENG_STATUS_LOOP g) = 1 → b.cls = true →
    (b.complete = false → Completes (.energyEvaluation g 0) s fun t => (eng t g).missing = (eng s g).missing + 1 ∧
      rdN t (R.ENG_INVALID g) = (rdN s (R.ENG_INVALID g) + 1) % 2 ^ 32) ∧
    (b.complete = true → Completes (.energyEvaluation g 4) s fun t => get t (F.ENG_STATUS_LOOP g) = 2 ∧
      get t (F.ENG_STATUS_FAULT_DETAIL g) = 4 ∧ flag t (pendBit (stableEv (g.val / 8) 4)) = true ∧
      flag t (pendBit (stableEv (g.val / 8) 1)) = true)) ∧
  (∀ (g : Fin 48) (v : Word) (q n : Nat) (s : State), Completes (.featureDelivery g v q n) s fun t => rd t (R.ENG_FEAT g) = v ∧
    get t (F.ENG_FEAT_TAG_SEQ g) = q % 2 ^ 24 ∧ get t (F.ENG_FEAT_TAG_GEN g) = n % 2 ^ 8 ∧ (eng t g).feat = some s.now ∧
    (eng t g).i = (eng s g).i) ∧
  (∀ (sec : Bool) (g : Fin 48) (v : Word) (s : State), accessOk sec (R.ENG_BANK g) s = true →
    (v.toNat % 2 = get s (F.ENG_BANK_ACTIVE g) → exec (.bankSelect sec g v) s = .next s) ∧
    (v.toNat % 2 ≠ get s (F.ENG_BANK_ACTIVE g) → bankLoading g (v.toNat % 2) s = false →
      Completes (.bankSelect sec g v) s fun t =>
        flag t (F.ENG_BANK_PENDING g) = true ∧ get t (F.ENG_BANK_SEL g) = v.toNat % 2 ∧ (eng t g).swapNew = true ∧
        get t (F.ENG_BANK_ACTIVE g) = get s (F.ENG_BANK_ACTIVE g)) ∧
    (v.toNat % 2 ≠ get s (F.ENG_BANK_ACTIVE g) → bankLoading g (v.toNat % 2) s = true →
      Completes (.bankSelect sec g v) s fun t => flag t (F.CLE_FLAGS_CFG_REFUSED (g.val / 8)) = true ∧
        rdN t (R.ENG_BANK g) = rdN s (R.ENG_BANK g) ∧ t.engs = s.engs)) ∧
  (∀ (g : Fin 48) (s : State), (eng s g).swapDue = true → Completes (.bankSwap g) s fun t =>
    get t (F.ENG_BANK_ACTIVE g) = get s (F.ENG_BANK_SEL g) ∧ flag t (F.ENG_BANK_PENDING g) = false ∧ (eng t g).swapDue = false ∧
    (flag s (F.ENG_CFG_SWAP_RESET g) = true → (eng t g).i = 0 ∧ (eng t g).v = 0)) ∧
  (∀ (sec : Bool) (g : Fin 48) (r : Fin 7) (v : Word) (o : Nat) (s : State), o = R.ENG_CFG g + engRegOff r →
    accessOk sec o s = true →
    Completes (.energyConfigWrite sec g r v) s fun t =>
      if engOk g (engRegOff r) (rdN s o) (merged o v s) s then Takes o v s t ∧ rdEff o t = rdEff o s
      else flag t (F.CLE_FLAGS_CFG_REFUSED (g.val / 8)) = true ∧ rd t o = rd s o)

/-- A CLOSE or OPEN that is accepted is pending with RESULT 1: CLOSE waits for the next boundary and clears the fault
fields, OPEN makes the state OPENING; a refused one shows its result, sets SERVO_CMD_REFUSED and changes no servo. A
CLOSING loop settled for 64 boundaries is CLOSED; one that is not after 25,000 is a CLOSE_TIMEOUT of all axes and
opens; an OPENING loop whose three currents are 0 is OPEN. (R212, R216, R218) -/
def Obligations.ServoCommands : Prop :=
  (∀ (sec : Bool) (st : Fin 6) (u : Fin 8) (s : State) (i : Instr) (cmd : Nat), accessOk sec (R.CLE_SERVO_CMD st) s = true →
    (i, cmd) ∈ [(.servoClose sec st u, 1), (.servoOpen sec st u, 2)] →
    Completes i s fun t =>
      get t (F.CLE_SERVO_CMD_STATUS_STALL st) = u.val ∧ get t (F.CLE_SERVO_CMD_STATUS_CMD st) = cmd ∧
      if servoRefusal st (stallOf st u) cmd s = 0 then
        get t (F.CLE_SERVO_CMD_STATUS_RESULT st) = 1 ∧ t.srvCmd[st.val] = some (u.val, cmd) ∧
        (cmd = 1 → (srv t (stallOf st u)).closeReq = true ∧ get t (F.SRV_STATE_FAULT_DETAIL (stallOf st u)) = 0 ∧
          get t (F.SRV_STATE_FAULT_AXIS (stallOf st u)) = 7) ∧
        (cmd = 2 → srvSt (stallOf st u) t = 4)
      else get t (F.CLE_SERVO_CMD_STATUS_RESULT st) = servoRefusal st (stallOf st u) cmd s ∧
        flag t (F.CLE_FLAGS_SERVO_CMD_REFUSED st) = true ∧ t.srvs = s.srvs) ∧
  (∀ (g : Fin 48) (s : State), srvSt g s = 2 → 64 ≤ (srv s g).settle →
    Completes (.servoClosed g) s fun t => srvSt g t = 3 ∧
      rdN t (R.SRV_CLOSES g) = (rdN s (R.SRV_CLOSES g) + 1) % 2 ^ 32) ∧
  (∀ (g : Fin 48) (s : State), srvSt g s = 2 → 25000 ≤ (srv s g).since → (srv s g).settle < 64 →
    Completes (.closeTimeout g) s fun t => srvSt g t = 4 ∧ get t (F.SRV_STATE_FAULT_DETAIL g) = 4 ∧
      get t (F.SRV_STATE_FAULT_AXIS g) = 3 ∧ flag t (pendBit (stableEv (g.val / 8) 5)) = true) ∧
  (∀ (g : Fin 48) (s : State), srvSt g s = 4 → (srv s g).axes.toList.all (fun x => x.c1 == 0) = true →
    Completes (.servoOpened g) s fun t => srvSt g t = 1 ∧ t.srvs = s.srvs)

/-- A position record of a slot whose head class it names, in a valid frame before B_k + 3 us, keeps the samples of its
valid axes for the evaluation. An evaluation at a new boundary, in the microvector that B_k + 3 us lies in or later, gives
every closing or closed loop that is past its first evaluation and meets no error the current of the law of R214, and moves
the current of every opening loop towards 0 by CUR_SLEW; at the same boundary, or earlier, nothing happens. Servo registers
and coefficients change only where they may. A CLE_LOAD that passes its checks runs; what runs ends at the next tick, which
is the model's choice (notes/assumptions/193): its bytes are written and it completes OK with LEN. (R195, R210, R213, R214,
R216, R219, R220, R361) -/
def Obligations.ServoLoop : Prop :=
  (∀ (b : Fin 12) (broken : Bool) (blocks : List (BitVec 64)) (f : UpFrame) (k : Fin 4) (b0 b1 : Nat) (g : Fin 48) (s : State),
    frameRead 0xA (some 2) broken blocks = some f → f.records 2 = [(k, [b0, b1])] → bayActive b s = true →
    superTime f.super s / 4000 = s.now / 4000 → s.boundary ≤ s.now / 4000 → s.now % 4000 < 3000 →
    slotStall b k s = some g.val → bit b1 8 = flag s (F.SRV_STATE_HEAD_BARE g) →
    Completes (.positionFrame b broken blocks) s fun t => t.regs = s.regs ∧
      (srv t g).axes[0].sample = (if bit b1 9 then some (sext 24 (bits b0 0 24)) else (srv s g).axes[0].sample) ∧
      (srv t g).axes[1].sample = (if bit b1 10 then some (sext 24 (bits b0 24 24)) else (srv s g).axes[1].sample) ∧
      (srv t g).axes[2].sample = (if bit b1 11 then some (sext 24 (bits b0 48 16 + 2 ^ 16 * bits b1 0 8))
        else (srv s g).axes[2].sample)) ∧
  (∀ (errs : List (Fin 48 × Fin 3 × Nat)) (s : State),
    (s.now / 4000 < s.boundary ∨ s.now % 4000 + s.mvP ≤ 3000 → exec (.servoEvaluation errs) s = .next s) ∧
    (s.boundary ≤ s.now / 4000 → 3000 < s.now % 4000 + s.mvP → Completes (.servoEvaluation errs) s fun t =>
      t.boundary = s.now / 4000 + 1 ∧
      ∀ (g : Fin 48) (a : Fin 3),
        ((srvSt g s = 2 ∨ srvSt g s = 3) → (∀ e ∈ errs, e.1 ≠ g) → (srv s g).first = false → setRefused g s = none →
          (srv t g).axes[a].c1 = (servoLaw (coefAt (loft s (g.val / 8)) (servoOff g a)) (srv s g).axes[a]
            (spAxis ((srv s g).sps.headD (0, 0, 0)) a) (get s (F.SRV_CUR_LIM_CUR_LIM g))
            (get s (F.SRV_CUR_LIM_CUR_SLEW g))).ax.c1) ∧
        (srvSt g s = 4 → (srv t g).axes[a].c1 = (srv s g).axes[a].c1 +
          min (get s (F.SRV_CUR_LIM_CUR_SLEW g) : Int)
            (max (-(get s (F.SRV_CUR_LIM_CUR_SLEW g) : Int)) (-(srv s g).axes[a].c1))))) ∧
  (∀ (sec : Bool) (g : Fin 48) (r : Fin 4) (v : Word) (o : Nat) (s : State), o = R.SRV_CUR_LIM g + 4 * r.val →
    accessOk sec o s = true →
    Completes (.servoConfigWrite sec g r v) s fun t =>
      if srvRange r (merged o v s) = true ∧ (r = 1 ∨ srvSt g s ≤ 1) then Takes o v s t
      else flag t (F.CLE_FLAGS_CFG_REFUSED (g.val / 8)) = true ∧ rd t o = rd s o) ∧
  (∀ (sec : Bool) (st : Fin 6) (w : Nat) (v : Word) (s : State), w < 0x8000 → w % 4 = 0 →
    accessOk sec (cleBase st + 0x4000 + w) s = true →
    (coefOpen st w s = true → rangeOk sec (loftAddr st (0xE0000 + w)) 4 s = true →
      Completes (.coefficientWindowWrite sec st w v) s fun t => memLe (loft t st) (0xE0000 + w) 4 = v.toNat ∧ t.regs = s.regs) ∧
    (coefOpen st w s = false → rangeOk sec (loftAddr st (0xE0000 + w)) 4 s = true →
      Completes (.coefficientWindowWrite sec st w v) s fun t =>
        flag t (F.CLE_FLAGS_COEF_REFUSED st) = true ∧ t.lofts = s.lofts) ∧
    (rangeOk sec (loftAddr st (0xE0000 + w)) 4 s = false → Completes (.coefficientWindowWrite sec st w v) s fun t =>
      flag t F.TCK_FLAGS_WORLD_FAULT = true ∧ t.lofts = s.lofts)) ∧
  (∀ (c : Fin 256) (d : Desc) (bs : List Byte) (st : Fin 6) (base size : Nat) (s : State), Starts c 0x78 d s →
    d.at 20 1 = st.val → cleTarget (d.at 21 1) = some (base, size) →
    (ctxSecure c = true ∨ blockSecure (32 + st.val) s = false) → d.len ≠ 0 → d.len % 8 = 0 → d.at 22 2 % 8 = 0 →
    d.at 22 2 + d.len ≤ size → d.at 24 40 = 0 → stableEn st s = true →
    rangeOk (ctxSecure c) (loftAddr st (base + d.at 22 2)) d.len s = true →
    (coefOpen st (base - 0xE0000) s = true → Completes (.cleLoad c (.ok bs)) s fun t =>
      t.cleLoads = s.cleLoads ++
        [⟨c.val, d.seq, st.val, base, base + d.at 22 2, (bs ++ List.replicate d.len 0#8).take d.len⟩] ∧ t.lofts = s.lofts) ∧
    (coefOpen st (base - 0xE0000) s = false → Completes (.cleLoad c (.ok bs)) s fun t =>
      Decided c d.seq stBUSY s t ∧ t.lofts = s.lofts)) ∧
  (∀ (errs : List (Fin 48 × Nat)) (s : State), Completes (.microvectorTick errs) s fun t => t.cleLoads = []) ∧
  (∀ (c : Fin 256) (st : Fin 6) (q base a : Nat) (bs : List Byte) (s : State),
    s.cleLoads = [⟨c.val, q, st.val, base, a, bs⟩] →
    loft (cleLoadsEnd s) st = memWrite (loft s st) a bs ∧ DecidedWith c q stOK bs.length 0 s (cleLoadsEnd s))

/-! ## Rules stated whole -/

/-- A register keeps its value and a flag that reports a refused write is set. -/
def Refused (o : Nat) (f : Fld) (s t : State) : Prop := rdN t o = rdN s o ∧ flag t f = true

/-- No register at an offset from `lo` to below `hi` can be staged: a TXN_WRITE into an OPEN transaction whose list has an
entry for such an offset completes FORMAT, and no transaction gains an action (R230). -/
def NotStaged (lo hi : Nat) : Prop :=
  ∀ (c : Fin 256) (d : Desc) (bs : List Byte) (k : Nat) (s : State), Starts c 0x61 d s → d.txnV = true → d.at 20 44 = 0 →
    (txn s d.txnId).st = 1 → (txn s d.txnId).doom = 0 → k < 64 → 16 * k + 16 ≤ d.len → 16 * k + 16 ≤ bs.length →
    lo ≤ leAt bs (16 * k) 4 → leAt bs (16 * k) 4 < hi →
    Completes (.txnWrite c (.ok bs)) s fun t => Decided c d.seq stFORMAT s t ∧
      ∀ i : Fin 64, (txn t i).acts = (txn s i).acts

/-- A read of YRD.STALL_SUMMARY[s] that may reach it answers one word with the state of stall t of the stable in bits
4t + 3 to 4t, for all eight stalls, all as they are at the tick of the read; a 64-bit read answers two stables' words so.
The read changes no register and no stall. (R23) -/
def Obligations.StallSummaryRead : Prop :=
  (∀ (sec : Bool) (x : Fin 6) (s : State), accessOk sec (R.YRD_STALL_SUMMARY x) s = true →
    Completes (.readClear sec (R.YRD_STALL_SUMMARY x) false) s fun t => (∀ o, rdN t o = rdN s o) ∧ t.stalls = s.stalls ∧
      ∃ w, t.out = s.out ++ [.readReply (R.YRD_STALL_SUMMARY x) w false] ∧ w < 2 ^ 32 ∧
        ∀ i : Fin 8, bits w (4 * i.val) 4 = stSt (8 * x.val + i.val) s) ∧
  (∀ (sec : Bool) (y : Fin 3) (s : State), accessOk sec (R.YRD_STALL_SUMMARY (2 * y.val)) s = true →
    Completes (.readClear sec (R.YRD_STALL_SUMMARY (2 * y.val)) true) s fun t => (∀ o, rdN t o = rdN s o) ∧
      t.stalls = s.stalls ∧ ∃ w, t.out = s.out ++ [.readReply (R.YRD_STALL_SUMMARY (2 * y.val)) w true] ∧ w < 2 ^ 64 ∧
        ∀ i : Fin 16, bits w (4 * i.val) 4 = stSt (16 * y.val + i.val) s)

/-- After a device reset every register of the marshal's chapter, YRD + 0x800 to 0x9BF, shows its reset value, the seam
table is empty with no request and no move waiting, and no stall has a stroke record or a cleared stroke. A function-level
reset leaves what each of these registers shows, the seam table, its requests and every stroke record as they were.
(R188) -/
def Obligations.MarshalReset : Prop :=
  ∀ s : State,
    (Completes .deviceReset s fun t =>
      (∀ o, R.YRD_MSH_CTRL ≤ o → o < R.YRD_MSH_STALL 48 → shown o t = (resetWord o).toNat ∧ rdN t o = (resetWord o).toNat) ∧
      (∀ i : Fin 192, (seam t i).st = 0) ∧ t.seamReqs = [] ∧ t.seamMoves = [] ∧ t.latePairs = [] ∧ t.mshOld = [] ∧
      ∀ g : Fin 48, (stall t g).recs = [] ∧ (stall t g).cleared = false) ∧
    (Completes .functionLevelReset s fun t =>
      (∀ o, R.YRD_MSH_CTRL ≤ o → o < R.YRD_MSH_STALL 48 → shown o t = shown o s ∧ rdN t o = rdN s o) ∧
      t.seams = s.seams ∧ t.seamReqs = s.seamReqs ∧ t.seamMoves = s.seamMoves ∧ t.latePairs = s.latePairs ∧
      t.mshOld = s.mshOld ∧
      ∀ g : Fin 48, (stall t g).recs = (stall s g).recs ∧ (stall t g).cleared = (stall s g).cleared)

/-- The rejections counted in one interval of 1 ms of yard time that reach EDGE_LIMIT, where it is not 0 and the interval
was not told, are a port fault with detail EDGE_RATE: FAULT is set, FAULT_INFO names 0x1, and the interval is told. With an
EDGE_LIMIT of 0 nothing happens. A quadrature edge within MIN_EDGE of the last accepted one is rejected and counted at
every EDGE_LIMIT, in EDGE_FAULTS and in its interval. (R260) -/
def Obligations.FeedbackEdgeRate : Prop :=
  (∀ (p : Fin 8) (s : State), 0 < rdN s (R.FBKP_FILTER p) / 2 ^ 24 → rdN s (R.FBKP_FILTER p) / 2 ^ 24 ≤ (port s p).rejN →
    (port s p).rejTold = false →
    Completes (.edgeRate p) s fun t => flag t (F.FBKP_STATUS_FAULT p) = true ∧ get t (F.FBKP_FAULT_INFO_DETAIL p) = 1 ∧
      (port t p).rejTold = true ∧ (flag s (F.FBKP_STATUS_FAULT p) = false → get t (F.FBKP_STATUS_FAULT_DETAIL p) = 1)) ∧
  (∀ (p : Fin 8) (s : State), rdN s (R.FBKP_FILTER p) / 2 ^ 24 = 0 → exec (.edgeRate p) s = .next s) ∧
  (∀ (p : Fin 8) (a b : Bool) (dt u : Nat) (s : State), flag s (F.FBKP_STATUS_ENABLED p) = true → fbkMode p s = 0 →
    (port s p).reread = false → (port s p).acc = some u → s.beam + 5 * dt < u + minEdge p s →
    ¬ (a = (port s p).a ∧ b = (port s p).b) →
    Completes (.quadratureEdge p a b dt) s fun t =>
      rdN t (R.FBKP_EDGE_FAULTS p) = min (rdN s (R.FBKP_EDGE_FAULTS p) + 1) 0xFFFFFFFF ∧
      (port t p).rejMs = stampAt dt s / 1000000 ∧
      (port t p).rejN = (if (port s p).rejMs = stampAt dt s / 1000000 then (port s p).rejN + 1 else 1) ∧
      rdN t (R.FBKP_POS p) = rdN s (R.FBKP_POS p))

/-- A bay's register is left as it is, CFG_REFUSED of the bay is set, and no bay and no stall changes. -/
def LinkRefuses (i : Instr) (b : Fin 12) (o : Nat) (s : State) : Prop :=
  Completes i s fun t => Refused o (F.LNK_FLAGS_CFG_REFUSED b) s t ∧ t.bays = s.bays ∧ t.stalls = s.stalls

/-- While a stall in a valid slot of a bay is in RUN, SYNC_WAIT, LAYER_WAIT or HOLD, or its servo is CLOSING, CLOSED or
OPENING, a write that clears CTRL.EN is refused; while one is not OFFLINE, a write that changes VER_MAX or sets
TRAIN_CTL.TEST is refused. A refused write leaves the register, sets FLAGS.CFG_REFUSED and changes no bay and no stall. No
LNK register can be staged. (R375) -/
def Obligations.LinkWriteRefusals : Prop :=
  (∀ (sec : Bool) (b : Fin 12) (v : Word) (g : Fin 48) (s : State), accessOk sec (R.LNK_CTRL b) s = true → g ∈ bayStalls b s →
    (stSt g s ∈ [ssRUN, ssSYNC, ssLAYER, ssHOLD] ∨ srvSt g s ∈ [2, 3, 4]) → flag s (F.LNK_CTRL_EN b) = true →
    (v.toNat % 2 = 0 → LinkRefuses (.linkConfigWrite sec b 0 v) b (R.LNK_CTRL b) s) ∧
    LinkRefuses (.bayDisable sec b) b (R.LNK_CTRL b) s) ∧
  (∀ (sec : Bool) (b : Fin 12) (v : Word) (g : Fin 48) (s : State), accessOk sec (R.LNK_CTRL b) s = true → g ∈ bayStalls b s →
    stSt g s ≠ ssOFFLINE → bits v.toNat 4 2 ≠ get s (F.LNK_CTRL_VER_MAX b) →
    LinkRefuses (.linkConfigWrite sec b 0 v) b (R.LNK_CTRL b) s) ∧
  (∀ (sec : Bool) (b : Fin 12) (v : Word) (g : Fin 48) (s : State), accessOk sec (R.LNK_TRAIN_CTL b) s = true →
    g ∈ bayStalls b s → stSt g s ≠ ssOFFLINE → flag s (F.LNK_TRAIN_CTL_TEST b) = false →
    (bit v.toNat 3 = true → LinkRefuses (.linkConfigWrite sec b 1 v) b (R.LNK_TRAIN_CTL b) s) ∧
    LinkRefuses (.testEnter sec b) b (R.LNK_TRAIN_CTL b) s) ∧
  NotStaged 0x800000 0x8C0000

/-- A write of DMC.CFG with AGE_LIMIT 0, the one value of a field of DMC.CFG or DMC.SCRUB that is out of range, leaves every
register but DMC.FLAGS as it is and sets DMC.FLAGS.CFG_REFUSED; every other write of the two takes effect at once in its
register and in no other. No DMC register can be staged. (R396) -/
def Obligations.MemoryConfigWrites : Prop :=
  (∀ (sec scrub : Bool) (v : Word) (o : Nat) (s : State), o = (if scrub then R.DMC_SCRUB else R.DMC_CFG) →
    accessOk sec o s = true →
    Completes (.dmcConfigWrite sec scrub v) s fun t =>
      if scrub = false ∧ bits v.toNat 8 8 = 0 then
        Refused o F.DMC_FLAGS_CFG_REFUSED s t ∧ ∀ p, p ≠ R.DMC_FLAGS → rdN t p = rdN s p
      else Takes o v s t ∧ ∀ p, p ≠ o → rdN t p = rdN s p) ∧
  NotStaged 0xA0000 0xB0000

/-- The value `n` has a field out of range for the lamp-driver register at `o`, by the table of LMP registers. -/
def LampFieldOut (o n : Nat) : Prop :=
  (o = R.LMP_CFG ∧ ¬ (8 ≤ bits n 0 5 ∧ bits n 0 5 ≤ 16)) ∨
  (o = R.LMP_MATRIX_CFG ∧
    ¬ (50 ≤ bits n 0 10 ∧ bits n 0 10 ≤ 1000 ∧ 2 ≤ bits n 16 6 ∧ bits n 24 8 ≤ 240)) ∨
  (o = R.LMP_DETECT ∧ ¬ (1 ≤ bits n 0 8 ∧ 10 ≤ bits n 16 16 ∧ bits n 16 16 ≤ 60000)) ∨
  (∃ k : Fin 4, o = R.LMP_PAT_CTRL k ∧ ¬ (bits n 1 2 ≠ 3 ∧ 10 ≤ bits n 8 16 ∧ bits n 8 16 ≤ 60000)) ∨
  (∃ k : Fin 4, o = R.LMP_PAT_CHASE k ∧ ¬ (1 ≤ bits n 0 16 ∧ bits n 0 16 ≤ 60000 ∧ 1 ≤ bits n 16 8)) ∨
  (∃ i : Fin 24, o = R.LMP_SINK_CUR i ∧ 240 < bits n 0 8) ∨
  (∃ i : Fin 160, o = R.LMP_LAMP i ∧ lampThere i = true ∧
    (4 < bits n 16 3 ∨ (8 ≤ bits n 20 4 ∧ bits n 20 4 ≠ 15)))

/-- A write of a lamp-driver register that would leave a field out of range is refused: the register stays, CFG_REFUSED is
set, and no lamp changes. (R483) -/
def Obligations.LampWriteRanges : Prop :=
  ∀ (sec : Bool) (o : Nat) (v : Word) (s : State), accessOk sec o s = true → LampFieldOut o (merged o v s) →
    Completes (.lampConfigWrite sec o v) s fun t => Refused o F.LMP_FLAGS_CFG_REFUSED s t ∧ t.lamps = s.lamps

/-- A recognised fault of a monitored lamp that is checked (it conducts for at least 2 us, or shows 0) latches its bit,
writes LAST_FAULT with the lamp and the kind and LAST_FAULT_TIME with yard time, sets LAMP_FAULT, raises event 209 and
forces the lamp off; where the lamp belongs to a group that is not FAILED, the group becomes FAILED, all its lamps are off,
GROUP_FAILED is set and event 208 raised. A write of a lamp of a FAILED group that is in range and touches no field kept for
the secure world is stored; the lamp stays off while it is of that group, and the group stays FAILED. (R478) -/
def Obligations.LampFaults : Prop :=
  (∀ (i : Fin 160) (short : Bool) (s : State), lampThere i = true → lampChecked i s = true →
    flag s (lampBit i) = false →
    Completes (.lampFault i short) s fun t => flag t (lampBit i) = true ∧ get t F.LMP_LAST_FAULT_LAMP = i.val ∧
      get t F.LMP_LAST_FAULT_KIND = (if short then 1 else 0) ∧ rd64 t R.LMP_LAST_FAULT_TIME = s.now % 2 ^ 64 ∧
      flag t F.LMP_FLAGS_LAMP_FAULT = true ∧ flag t (pendBit 209) = true ∧ lampShown i t = 0 ∧
      ∀ k : Fin 8, get s (F.LMP_LAMP_GROUP i) = k.val → groupFailed k s = false →
        groupFailed k t = true ∧ flag t F.LMP_FLAGS_GROUP_FAILED = true ∧ flag t (pendBit 208) = true ∧
        ∀ j : Fin 160, get s (F.LMP_LAMP_GROUP j) = k.val → lampShown j t = 0) ∧
  (∀ (sec : Bool) (i : Fin 160) (k : Fin 8) (v : Word) (s : State), lampThere i = true → accessOk sec (R.LMP_LAMP i) s = true →
    get s (F.LMP_LAMP_GROUP i) = k.val → groupFailed k s = true → ¬ LampFieldOut (R.LMP_LAMP i) (merged (R.LMP_LAMP i) v s) →
    (sec = true ∨ lampGuarded (rdN s (R.LMP_LAMP i)) (merged (R.LMP_LAMP i) v s) s = false) →
    Completes (.lampConfigWrite sec (R.LMP_LAMP i) v) s fun t => Takes (R.LMP_LAMP i) v s t ∧ groupFailed k t = true ∧
      (get t (F.LMP_LAMP_GROUP i) = k.val → lampShown i t = 0))

/-- A write of BOOT.TRIAL_CFG with TRIES outside 1 to 7 or READY_TIMEOUT outside 500 to 10,000 ms leaves the register as it
is and sets CFG_REFUSED; one in range takes effect. No BOOT register can be staged. (R522) -/
def Obligations.BootConfigRanges : Prop :=
  (∀ (sec : Bool) (w : Wr64) (n : Nat) (s : State), accessOk sec R.BOOT_TRIAL_CFG s = true →
    n = merged R.BOOT_TRIAL_CFG (wrWord w) s →
    Completes (.bootConfigWrite sec 0 w) s fun t =>
      if 1 ≤ bits n 0 4 ∧ bits n 0 4 ≤ 7 ∧ 500 ≤ bits n 16 16 ∧ bits n 16 16 ≤ 10000 then Takes R.BOOT_TRIAL_CFG (wrWord w) s t
      else Refused R.BOOT_TRIAL_CFG F.BOOT_FLAGS_CFG_REFUSED s t ∧ t.imgs = s.imgs) ∧
  NotStaged 0x120000 0x130000

/-- A write of an axis's VMAX with which two step pulses would take more than 1 s leaves the register and sets CFG_REFUSED,
and an AXIS_MOVE with such a VMAX completes FORMAT and queues nothing. A move in range to a position in range, on an axis
with room that is neither DISABLED nor in FAULT, joins the queue behind the others. (R283, R284, R285, R291) -/
def Obligations.AxisStepRateLimit : Prop :=
  (∀ (sec : Bool) (a : Fin 8) (v : Word) (s : State), accessOk sec (R.AXIS_VMAX a) s = true →
    1000000000 < merged (R.AXIS_VMAX a) v s * 2 * get s (F.AXIS_STEP_TIMING_STEP_WIDTH a) * 5 →
    Completes (.axisConfigWrite sec a 2 v) s fun t => Refused (R.AXIS_VMAX a) (F.AXIS_FLAGS_CFG_REFUSED a) s t ∧
      t.axes = s.axes) ∧
  (∀ (c : Fin 256) (d : Desc) (a : Fin 8) (s : State), Starts c 0x30 d s → d.txnV = false → get s (F.HIF_CTX_CFG_BIND c) = a.val →
    (ctxSecure c = true ∨ blockSecure 13 s = false) → (axis s a).queue.length < 32 →
    (1000000000 < d.at 24 4 * 2 * get s (F.AXIS_STEP_TIMING_STEP_WIDTH a) * 5 →
      Completes (.axisMove c) s fun t => Decided c d.seq stFORMAT s t ∧ t.axes = s.axes) ∧
    (d.addr = 0 → d.len = 0 → d.at 36 28 = 0 → moveRange a d s = false → axSt a s ≠ asDISABLED → axSt a s ≠ asFAULT →
      targetBad a (moveTarget a d s) s = false →
      Completes (.axisMove c) s fun t => (axis t a).queue = (axis s a).queue ++ [moveEnt c d (moveTarget a d s) false] ∧
        ∀ x : Fin 8, x ≠ a → axis t x = axis s x))
end

