-- ==== Sys2Proof/Laws/Cells.lean ====
section
/-!
SUPPORT. The laws of sorted cells and of byte memories: a read after a write, and the canonical form, which every memory
operation keeps.
-/
namespace Sys2Proof
namespace Machine

variable {α : Type}

/-! ## Reads after writes -/

theorem cellGet_cellPut (l : List (Nat × α)) (k k' : Nat) (v : α) :
    cellGet (cellPut l k v) k' = if k = k' then some v else cellGet l k' := by
  induction l with
  | nil => simp [cellPut, cellGet]
  | cons c t ih =>
    obtain ⟨a, b⟩ := c
    simp only [cellPut]
    split
    · simp [cellGet]
    · split
      · rename_i h; subst h; by_cases hk : k = k' <;> simp [cellGet, hk]
      · rename_i h1 h2
        by_cases hk : k = k'
        · subst hk; simp [cellGet, ih, Ne.symm h2]
        · simp only [cellGet, ih, hk, if_false]

theorem cellGet_cellDel (l : List (Nat × α)) (k k' : Nat) :
    cellGet (cellDel l k) k' = if k = k' then none else cellGet l k' := by
  induction l with
  | nil => simp [cellDel, cellGet]
  | cons c t ih =>
    obtain ⟨a, b⟩ := c
    by_cases ha : a = k
    · subst ha
      by_cases hk : a = k'
      · subst hk; simpa [cellDel] using ih
      · simpa [cellDel, cellGet, hk] using ih
    · by_cases hk : k = k'
      · subst hk; simp [cellDel, cellGet, ha, ih]
      · simp [cellDel, cellGet, ha, ih, hk]

theorem cellGet_cellSet [DecidableEq α] (l : List (Nat × α)) (k k' : Nat) (v d : α) :
    (cellGet (cellSet l k v d) k').getD d = if k = k' then v else (cellGet l k').getD d := by
  unfold cellSet
  split
  · rename_i h; rw [cellGet_cellDel]; by_cases hk : k = k' <;> simp [hk, h]
  · rw [cellGet_cellPut]; by_cases hk : k = k' <;> simp [hk]

/-! ## The canonical form -/

/-- Every key of the list lies above `k`. -/
def cellsAbove (k : Nat) (l : List (Nat × α)) : Prop := ∀ c ∈ l, k < c.1

theorem cellsRising_cons (a : Nat) (b : α) (t : List (Nat × α)) :
    cellsRising ((a, b) :: t) = true ↔ cellsAbove a t ∧ cellsRising t = true := by
  induction t generalizing a b with
  | nil => simp [cellsRising, cellsAbove]
  | cons c t ih =>
    obtain ⟨a', b'⟩ := c
    simp only [cellsRising, Bool.and_eq_true, decide_eq_true_eq, ih, cellsAbove, List.mem_cons, forall_eq_or_imp]
    constructor
    · rintro ⟨h1, h2, h3⟩
      exact ⟨⟨h1, fun c hc => Nat.lt_trans h1 (h2 c hc)⟩, h2, h3⟩
    · rintro ⟨⟨h1, _⟩, h2, h3⟩
      exact ⟨h1, h2, h3⟩

theorem mem_cellPut {l : List (Nat × α)} {k : Nat} {v : α} {c : Nat × α} (h : c ∈ cellPut l k v) :
    c = (k, v) ∨ c ∈ l := by
  induction l with
  | nil => simpa [cellPut] using h
  | cons d t ih =>
    obtain ⟨a, b⟩ := d
    simp only [cellPut] at h
    split at h
    · simpa using h
    · split at h
      · rcases List.mem_cons.1 h with h | h <;> simp [h]
      · rcases List.mem_cons.1 h with h | h
        · simp [h]
        · rcases ih h with h | h <;> simp [h]

theorem mem_cellDel {l : List (Nat × α)} {k : Nat} {c : Nat × α} (h : c ∈ cellDel l k) : c ∈ l := by
  induction l with
  | nil => simp [cellDel] at h
  | cons d t ih =>
    obtain ⟨a, b⟩ := d
    simp only [cellDel] at h
    split at h
    · exact List.mem_cons_of_mem _ (ih h)
    · rcases List.mem_cons.1 h with h | h
      · simp [h]
      · exact List.mem_cons_of_mem _ (ih h)

theorem cellPut_rising {l : List (Nat × α)} (k : Nat) (v : α) (h : cellsRising l = true) :
    cellsRising (cellPut l k v) = true := by
  induction l with
  | nil => rfl
  | cons d t ih =>
    obtain ⟨a, b⟩ := d
    obtain ⟨h1, h2⟩ := (cellsRising_cons a b t).1 h
    simp only [cellPut]
    split
    · rename_i hk
      refine (cellsRising_cons _ _ _).2 ⟨fun c hc => ?_, h⟩
      rcases List.mem_cons.1 hc with hc | hc
      · simpa [hc] using hk
      · exact Nat.lt_trans hk (h1 c hc)
    · split
      · rename_i hk; subst hk; exact (cellsRising_cons _ _ _).2 ⟨h1, h2⟩
      · rename_i hk hk'
        refine (cellsRising_cons _ _ _).2 ⟨fun c hc => ?_, ih h2⟩
        rcases mem_cellPut hc with hc | hc
        · subst hc; show a < k; omega
        · exact h1 c hc

theorem cellDel_rising {l : List (Nat × α)} (k : Nat) (h : cellsRising l = true) : cellsRising (cellDel l k) = true := by
  induction l with
  | nil => rfl
  | cons d t ih =>
    obtain ⟨a, b⟩ := d
    obtain ⟨h1, h2⟩ := (cellsRising_cons a b t).1 h
    simp only [cellDel]
    split
    · exact ih h2
    · exact (cellsRising_cons _ _ _).2 ⟨fun c hc => h1 c (mem_cellDel hc), ih h2⟩

theorem filter_rising {l : List (Nat × α)} (p : Nat × α → Bool) (h : cellsRising l = true) :
    cellsRising (l.filter p) = true := by
  induction l with
  | nil => rfl
  | cons d t ih =>
    obtain ⟨a, b⟩ := d
    obtain ⟨h1, h2⟩ := (cellsRising_cons a b t).1 h
    rw [List.filter_cons]
    split
    · exact (cellsRising_cons _ _ _).2 ⟨fun c hc => h1 c (List.mem_filter.1 hc).1, ih h2⟩
    · exact ih h2

/-! ## Byte memories -/

theorem memGet_memSet (m : Mem) (a a' : Nat) (v : Byte) :
    memGet (memSet m a v) a' = if a = a' then v else memGet m a' := cellGet_cellSet m a a' v 0#8

/-- Every memory operation keeps the canonical form: one byte. -/
theorem memSet_wf {m : Mem} (a : Nat) (v : Byte) (h : m.wf = true) : (memSet m a v).wf = true := by
  simp only [Mem.wf, Bool.and_eq_true, List.all_eq_true, bne_iff_ne] at h ⊢
  unfold memSet cellSet
  split
  · exact ⟨cellDel_rising a h.1, fun c hc => h.2 c (mem_cellDel hc)⟩
  · rename_i hv
    refine ⟨cellPut_rising a v h.1, fun c hc => ?_⟩
    rcases mem_cellPut hc with hc | hc
    · subst hc; exact hv
    · exact h.2 c hc

/-- Every memory operation keeps the canonical form: a run of bytes. -/
theorem memWrite_wf {m : Mem} (a : Nat) (bs : List Byte) (h : m.wf = true) : (memWrite m a bs).wf = true := by
  induction bs generalizing m a with
  | nil => exact h
  | cons b bs ih => exact ih (a + 1) (memSet_wf a b h)

/-- A run of bytes leaves every address outside it alone. -/
theorem memGet_memWrite_outside (m : Mem) (a : Nat) (bs : List Byte) (x : Nat) (h : x < a ∨ a + bs.length ≤ x) :
    memGet (memWrite m a bs) x = memGet m x := by
  induction bs generalizing m a with
  | nil => rfl
  | cons b bs ih =>
    simp only [memWrite, List.length_cons] at h ⊢
    rw [ih _ _ (by omega), memGet_memSet, if_neg (by omega)]

/-- A run of bytes reads back. -/
theorem memGet_memWrite_inside (m : Mem) (a : Nat) (bs : List Byte) (i : Nat) (h : i < bs.length) :
    memGet (memWrite m a bs) (a + i) = bs[i] := by
  induction bs generalizing m a i with
  | nil => simp at h
  | cons b bs ih =>
    cases i with
    | zero =>
      simp only [memWrite]
      rw [memGet_memWrite_outside _ _ _ _ (by omega), memGet_memSet]
      simp
    | succ i =>
      simp only [List.length_cons] at h
      have := ih (memSet m a b) (a + 1) i (by omega)
      simp only [memWrite]
      rw [show a + (i + 1) = a + 1 + i by omega, this]
      rfl

end Machine
end Sys2Proof
end

