-- ==== Sys2Proof/Laws/Regs.lean ====
section
/-!
SUPPORT. The laws of the register file: what a register or a field reads after a write, for words, fields, 64-bit
registers and counters.
-/
namespace Sys2Proof
namespace Machine

/-! ## Bit fields -/

theorem bits_lt (v lo w : Nat) : bits v lo w < 2 ^ w := Nat.mod_lt _ (Nat.two_pow_pos w)

theorem bits_mod (v lo w n : Nat) (h : lo + w ≤ n) : bits (v % 2 ^ n) lo w = bits v lo w := by
  unfold bits
  obtain ⟨d, rfl⟩ := Nat.exists_eq_add_of_le h
  rw [Nat.add_assoc, Nat.pow_add 2 lo, Nat.mod_mul_right_div_self, Nat.pow_add 2 w,
    Nat.mod_mul_right_mod]

theorem setBits_low (v lo w x : Nat) : setBits v lo w x % 2 ^ lo = v % 2 ^ lo := by
  unfold setBits
  rw [Nat.pow_add, Nat.mul_assoc, Nat.add_assoc, ← Nat.mul_add, Nat.add_mul_mod_self_left,
    Nat.mod_mod]

theorem setBits_div (v lo w x : Nat) :
    setBits v lo w x / 2 ^ lo = x % 2 ^ w + 2 ^ w * (v / 2 ^ (lo + w)) := by
  unfold setBits
  rw [Nat.pow_add, Nat.mul_assoc, Nat.add_assoc, ← Nat.mul_add,
    Nat.add_mul_div_left _ _ (Nat.two_pow_pos lo), Nat.div_eq_of_lt (Nat.mod_lt _ (Nat.two_pow_pos lo)), Nat.zero_add]

theorem bits_setBits_same (v lo w x : Nat) : bits (setBits v lo w x) lo w = x % 2 ^ w := by
  unfold bits
  rw [setBits_div, Nat.add_mul_mod_self_left, Nat.mod_mod]

theorem bits_setBits_below (v lo w x lo' w' : Nat) (h : lo' + w' ≤ lo) :
    bits (setBits v lo w x) lo' w' = bits v lo' w' := by
  rw [← bits_mod _ lo' w' lo h, setBits_low, bits_mod _ lo' w' lo h]

theorem bits_setBits_above (v lo w x lo' w' : Nat) (h : lo + w ≤ lo') :
    bits (setBits v lo w x) lo' w' = bits v lo' w' := by
  obtain ⟨d, rfl⟩ := Nat.exists_eq_add_of_le h
  unfold bits
  rw [Nat.add_assoc, Nat.pow_add 2 lo, ← Nat.div_div_eq_div_mul, setBits_div, Nat.pow_add 2 w,
    ← Nat.div_div_eq_div_mul, Nat.add_mul_div_left _ _ (Nat.two_pow_pos w),
    Nat.div_eq_of_lt (Nat.mod_lt _ (Nat.two_pow_pos w)), Nat.zero_add, Nat.div_div_eq_div_mul, ← Nat.pow_add,
    ← Nat.pow_add, ← Nat.pow_add, Nat.add_assoc]

theorem setBits_lt (v lo w x n : Nat) (hv : v < 2 ^ n) (h : lo + w ≤ n) : setBits v lo w x < 2 ^ n := by
  obtain ⟨d, rfl⟩ := Nat.exists_eq_add_of_le h
  have h3 : v / 2 ^ (lo + w) < 2 ^ d := by
    rw [Nat.div_lt_iff_lt_mul (Nat.two_pow_pos _), ← Nat.pow_add, Nat.add_comm]; exact hv
  have hd := setBits_div v lo w x
  have h2 : x % 2 ^ w + 2 ^ w * (v / 2 ^ (lo + w)) < 2 ^ (w + d) := by
    have : x % 2 ^ w < 2 ^ w := Nat.mod_lt _ (Nat.two_pow_pos w)
    calc x % 2 ^ w + 2 ^ w * (v / 2 ^ (lo + w)) < 2 ^ w + 2 ^ w * (v / 2 ^ (lo + w)) := by omega
      _ = 2 ^ w * (v / 2 ^ (lo + w) + 1) := by ring
      _ ≤ 2 ^ w * 2 ^ d := Nat.mul_le_mul_left _ h3
      _ = 2 ^ (w + d) := (Nat.pow_add 2 w d).symm
  rw [← hd] at h2
  rw [Nat.add_assoc, Nat.pow_add]
  exact (Nat.div_lt_iff_lt_mul (Nat.two_pow_pos lo)).1 h2 |>.trans_eq (Nat.mul_comm _ _)

/-! ## Words -/

theorem rd_wr (s : State) (o o' : Nat) (v : Word) : rd (wr s o v) o' = if o = o' then v else rd s o' := by
  by_cases h : o = o'
  · subst h
    have := cellGet_cellSet s.regs o o v (resetWord o)
    rw [if_pos rfl] at this ⊢
    exact this
  · simp only [h, if_false]
    unfold rd wr
    unfold cellSet
    split
    · rw [cellGet_cellDel, if_neg h]
    · rw [cellGet_cellPut, if_neg h]

@[simp] theorem rd_wr_same (s : State) (o : Nat) (v : Word) : rd (wr s o v) o = v := by simp [rd_wr]

theorem rd_wr_other (s : State) {o o' : Nat} (v : Word) (h : o ≠ o') : rd (wr s o v) o' = rd s o' := by simp [rd_wr, h]

theorem rdN_lt (s : State) (o : Nat) : rdN s o < 2 ^ 32 := (rd s o).isLt

theorem rdN_wrN (s : State) (o o' v : Nat) : rdN (wrN s o v) o' = if o = o' then v % 2 ^ 32 else rdN s o' := by
  unfold rdN wrN
  rw [rd_wr]
  split
  · exact BitVec.toNat_ofNat v 32
  · rfl

@[simp] theorem rdN_wrN_same (s : State) (o v : Nat) : rdN (wrN s o v) o = v % 2 ^ 32 := by simp [rdN_wrN]

theorem rdN_wrN_other (s : State) {o o' : Nat} (v : Nat) (h : o ≠ o') : rdN (wrN s o v) o' = rdN s o' := by
  simp [rdN_wrN, h]

theorem rd_eq_of_rdN {s t : State} {o : Nat} (h : rdN t o = rdN s o) : rd t o = rd s o := BitVec.eq_of_toNat_eq h

/-! ## Fields -/

theorem rdN_put (s : State) (f : Fld) (v o : Nat) (hw : f.lo + f.w ≤ 32) :
    rdN (put s f v) o = if f.off = o then setBits (rdN s f.off) f.lo f.w v else rdN s o := by
  unfold put
  rw [rdN_wrN]
  split
  · exact Nat.mod_eq_of_lt (setBits_lt _ _ _ _ _ (rdN_lt s f.off) hw)
  · rfl

theorem rdN_put_other (s : State) (f : Fld) (v : Nat) {o : Nat} (h : f.off ≠ o) : rdN (put s f v) o = rdN s o :=
  rdN_wrN_other s _ h

theorem get_put_same (s : State) (f : Fld) (v : Nat) (hw : f.lo + f.w ≤ 32) : get (put s f v) f = v % 2 ^ f.w := by
  unfold Machine.get
  rw [rdN_put s f v _ hw, if_pos rfl, bits_setBits_same]

theorem get_put_other (s : State) (f f' : Fld) (v : Nat) (h : f.off ≠ f'.off) : get (put s f v) f' = get s f' := by
  unfold Machine.get
  rw [rdN_put_other s f v h]

theorem get_put_disjoint (s : State) (f f' : Fld) (v : Nat) (hw : f.lo + f.w ≤ 32)
    (h : f.lo + f.w ≤ f'.lo ∨ f'.lo + f'.w ≤ f.lo) : get (put s f v) f' = get s f' := by
  by_cases ho : f.off = f'.off
  · unfold Machine.get
    rw [rdN_put s f v _ hw, if_pos ho]
    rcases h with h | h
    · rw [bits_setBits_above _ _ _ _ _ _ h, ho]
    · rw [bits_setBits_below _ _ _ _ _ _ h, ho]
  · exact get_put_other s f f' v ho

theorem get_wrN_same (s : State) (f : Fld) (v : Nat) (hw : f.lo + f.w ≤ 32) :
    get (wrN s f.off v) f = bits v f.lo f.w := by
  unfold Machine.get
  rw [rdN_wrN_same, bits_mod _ _ _ _ hw]

theorem get_wrN_other (s : State) {o : Nat} (f : Fld) (v : Nat) (h : o ≠ f.off) : get (wrN s o v) f = get s f := by
  unfold Machine.get
  rw [rdN_wrN_other s v h]

theorem get_lt (s : State) (f : Fld) : get s f < 2 ^ f.w := bits_lt _ _ _

theorem flag_setF_same (s : State) (f : Fld) (hw : f.lo + f.w ≤ 32) (h1 : f.w = 1) : flag (setF s f) f = true := by
  unfold flag setF
  rw [get_put_same s f 1 hw, h1]; rfl

theorem flag_clrF_same (s : State) (f : Fld) (hw : f.lo + f.w ≤ 32) : flag (clrF s f) f = false := by
  unfold flag clrF
  rw [get_put_same s f 0 hw, Nat.zero_mod]; rfl

/-! ## Fields of state records leave the registers alone -/

@[simp] theorem rd_emit (o : Out) (s : State) (x : Nat) : rd (emit o s) x = rd s x := rfl
@[simp] theorem rdN_emit (o : Out) (s : State) (x : Nat) : rdN (emit o s) x = rdN s x := rfl
@[simp] theorem get_emit (o : Out) (s : State) (f : Fld) : get (emit o s) f = get s f := rfl
@[simp] theorem rd_lifeSet (s : State) (k v x : Nat) : rd (lifeSet s k v) x = rd s x := rfl
@[simp] theorem rdN_lifeSet (s : State) (k v x : Nat) : rdN (lifeSet s k v) x = rdN s x := rfl
@[simp] theorem get_lifeSet (s : State) (k v : Nat) (f : Fld) : get (lifeSet s k v) f = get s f := rfl
@[simp] theorem rd_lifeAdd (s : State) (k n x : Nat) : rd (lifeAdd s k n) x = rd s x := rfl
@[simp] theorem rdN_lifeAdd (s : State) (k n x : Nat) : rdN (lifeAdd s k n) x = rdN s x := rfl
@[simp] theorem get_lifeAdd (s : State) (k n : Nat) (f : Fld) : get (lifeAdd s k n) f = get s f := rfl

end Machine
end Sys2Proof
end

