-- ==== Sys2Proof/Laws/Events.lean ====
section
/-!
SUPPORT. The laws of raising an event source (R487-R489) and of completing a descriptor: the registers and fields they leave
alone, and what a raise shows.
-/
namespace Sys2Proof
namespace Machine

/-- The registers that a raise may change: the pending bits of masked vectors, EVC.PEND, INFO and STAMP, DGN.FLAGS and
MISSED, and ERW.HEAD. -/
def eventReg (o : Nat) : Bool :=
  decide ((0x19000 ≤ o ∧ o < 0x19008) ∨ (0x70010 ≤ o ∧ o < 0x71000) ∨ (0x72000 ≤ o ∧ o < 0x80000) ∨ o = 0x80008 ∨
    o = 0x8001C ∨ o = 0x90008)

/-- Two states that differ in what a raise may change only. -/
def RaiseLike (s t : State) : Prop :=
  (∀ o, eventReg o = false → rdN t o = rdN s o) ∧
    ∃ r u l p q x y, t = { s with regs := r, out := u, life := l, recStaged := p, recLost := q, snapTrig := x, cycleVecs := y }

theorem RaiseLike.refl (s : State) : RaiseLike s s := ⟨fun _ _ => rfl, _, _, _, _, _, _, _, rfl⟩

theorem RaiseLike.trans {a b c : State} (h : RaiseLike a b) (k : RaiseLike b c) : RaiseLike a c := by
  obtain ⟨h1, r, u, l, p, q, x, y, rfl⟩ := h
  obtain ⟨k1, r', u', l', p', q', x', y', rfl⟩ := k
  exact ⟨fun o ho => (k1 o ho).trans (h1 o ho), r', u', l', p', q', x', y', rfl⟩

theorem RaiseLike.wrN {s t : State} (h : RaiseLike s t) {o : Nat} (v : Nat) (ho : eventReg o = true) :
    RaiseLike s (wrN t o v) := by
  refine h.trans ⟨fun x hx => rdN_wrN_other t v ?_, _, _, _, _, _, _, _, rfl⟩
  rintro rfl; simp [ho] at hx

theorem RaiseLike.put {s t : State} (h : RaiseLike s t) {f : Fld} (v : Nat) (ho : eventReg f.off = true) :
    RaiseLike s (put t f v) := h.wrN _ ho

theorem RaiseLike.ite {s a b : State} {c : Prop} [Decidable c] (ha : RaiseLike s a) (hb : RaiseLike s b) :
    RaiseLike s (if c then a else b) := by split <;> assumption

theorem signalOut_like (s : State) {v : Nat} (hv : v < 64) : RaiseLike s (signalOut v s) := by
  unfold signalOut
  refine RaiseLike.ite (RaiseLike.put (RaiseLike.refl s) _ ?_) ⟨fun _ _ => rfl, _, _, _, _, _, _, _, rfl⟩
  show eventReg (0x19000 + 4 * (v / 32)) = true
  unfold eventReg; rw [decide_eq_true_eq]
  omega

theorem signalVector_like (s : State) {v : Nat} (hv : v < 64) : RaiseLike s (signalVector v s) :=
  RaiseLike.ite (RaiseLike.refl s)
    (RaiseLike.trans ⟨fun _ _ => rfl, _, _, _, _, _, _, _, rfl⟩ (signalOut_like _ hv))

theorem RaiseLike.addW {s t : State} (h : RaiseLike s t) {o : Nat} (v : Nat) (ho : eventReg o = true) :
    RaiseLike s (addW t o v) := h.wrN _ ho

theorem recNew_like (k n : Nat) (d : List Nat) (s : State) : RaiseLike s (recNew k n d s) := by
  unfold recNew
  refine RaiseLike.ite ⟨fun _ _ => rfl, _, _, _, _, _, _, _, rfl⟩ ?_
  refine RaiseLike.addW (o := R.ERW_HEAD) ?_ 1 (by decide)
  exact ⟨fun _ _ => rfl, _, _, _, _, _, _, _, rfl⟩

theorem recRaise_like (n : Nat) (s : State) : RaiseLike s (recRaise n s) := by
  unfold recRaise
  split
  · split
    · exact RaiseLike.ite ⟨fun _ _ => rfl, _, _, _, _, _, _, _, rfl⟩ (recNew_like _ _ _ s)
    · exact recNew_like _ _ _ s
  · exact recNew_like _ _ _ s

theorem snapMiss_like (s : State) :
    RaiseLike s (lifeAdd (setF (addW s R.DGN_MISSED 1) F.DGN_FLAGS_MISSED) (lifeNo 20 1 0) 1) := by
  have h1 : RaiseLike s (addW s R.DGN_MISSED 1) := (RaiseLike.refl s).addW 1 (by decide)
  have h2 : RaiseLike s (setF (addW s R.DGN_MISSED 1) F.DGN_FLAGS_MISSED) := h1.put 1 (by decide)
  exact h2.trans ⟨fun _ _ => rfl, _, _, _, _, _, _, _, rfl⟩

theorem snapTrigger_like (t : SnapTrig) (s : State) : RaiseLike s (snapTrigger t s) := by
  unfold snapTrigger
  refine RaiseLike.ite (snapMiss_like s) ?_
  split
  · exact ⟨fun _ _ => rfl, _, _, _, _, _, _, _, rfl⟩
  · refine RaiseLike.ite (RaiseLike.trans ?_ (snapMiss_like _)) (snapMiss_like s)
    exact ⟨fun _ _ => rfl, _, _, _, _, _, _, _, rfl⟩

theorem evcInfo_event {n : Nat} (hn : n < 512) : eventReg (R.EVC_INFO n) = true := by
  unfold eventReg R.EVC_INFO; rw [decide_eq_true_eq]; omega

theorem evcPend_event {n : Nat} (hn : n < 512) : eventReg (R.EVC_PEND (n / 32)) = true := by
  unfold eventReg R.EVC_PEND; rw [decide_eq_true_eq]; omega

theorem evcStamp_event {n : Nat} (hn : n < 512) : eventReg (R.EVC_STAMP n) = true := by
  unfold eventReg R.EVC_STAMP; rw [decide_eq_true_eq]; omega

theorem evcStampHigh_event {n : Nat} (hn : n < 512) : eventReg (R.EVC_STAMP n + 4) = true := by
  unfold eventReg R.EVC_STAMP; rw [decide_eq_true_eq]; omega

/-- A raise changes the event registers, the outputs, the recorder, the lifetime counters and the snapshot trigger only. -/
theorem raise_like {n : Nat} (hn : n < 512) (s : State) : RaiseLike s (raise n s) := by
  unfold raise
  have h1 : RaiseLike s (addSatF s (F.EVC_INFO_RAISES n) 1) := RaiseLike.put (RaiseLike.refl s) _ (evcInfo_event hn)
  have h2 : ∀ u, RaiseLike s u → RaiseLike s
      (if flag s (pendBit n) then u
       else if get (wr64 (setF u (pendBit n)) (R.EVC_STAMP n) s.now) (F.EVC_SRC_ROUTE n) = 1 then
         signalVector (get (wr64 (setF u (pendBit n)) (R.EVC_STAMP n) s.now) (F.EVC_SRC_VECTOR n))
           (wr64 (setF u (pendBit n)) (R.EVC_STAMP n) s.now)
       else wr64 (setF u (pendBit n)) (R.EVC_STAMP n) s.now) := by
    intro u hu
    have hw := RaiseLike.wrN (RaiseLike.wrN (RaiseLike.put hu (f := pendBit n) 1 (evcPend_event hn)) s.now
      (evcStamp_event hn)) (s.now / 2 ^ 32) (evcStampHigh_event hn)
    exact RaiseLike.ite hu (RaiseLike.ite (hw.trans (signalVector_like _ (get_lt _ _))) hw)
  have h3 := h2 _ h1
  exact RaiseLike.ite ((RaiseLike.ite (h3.trans (snapTrigger_like _ _)) h3).trans (recRaise_like _ _))
    (RaiseLike.ite (h3.trans (snapTrigger_like _ _)) h3)

theorem rdN_raise {n : Nat} (hn : n < 512) (s : State) {o : Nat} (ho : eventReg o = false) :
    rdN (raise n s) o = rdN s o := (raise_like hn s).1 o ho

theorem get_raise {n : Nat} (hn : n < 512) (s : State) {f : Fld} (ho : eventReg f.off = false) :
    get (raise n s) f = get s f := by
  unfold Machine.get
  rw [rdN_raise hn s ho]

/-- Two states that differ in the seven fields a raise may change. -/
def Shaped (s t : State) : Prop :=
  ∃ r u l p q x y, t = { s with regs := r, out := u, life := l, recStaged := p, recLost := q, snapTrig := x, cycleVecs := y }

theorem Shaped.trans {a b c : State} (h : Shaped a b) (k : Shaped b c) : Shaped a c := by
  obtain ⟨r, u, l, p, q, x, y, rfl⟩ := h
  obtain ⟨r', u', l', p', q', x', y', rfl⟩ := k
  exact ⟨r', u', l', p', q', x', y', rfl⟩

theorem Shaped.ite {s a b : State} {c : Prop} [Decidable c] (ha : Shaped s a) (hb : Shaped s b) :
    Shaped s (if c then a else b) := by split <;> assumption

theorem Shaped.wrN {s t : State} (h : Shaped s t) (o v : Nat) : Shaped s (wrN t o v) :=
  h.trans ⟨_, _, _, _, _, _, _, rfl⟩

theorem signalVector_shaped (v : Nat) (s : State) : Shaped s (signalVector v s) := by
  unfold signalVector signalOut
  split
  · exact ⟨_, _, _, _, _, _, _, rfl⟩
  · split <;> exact ⟨_, _, _, _, _, _, _, rfl⟩

/-- A raise changes seven fields of the state only. -/
theorem raise_shaped (n : Nat) (s : State) : Shaped s (raise n s) := by
  have h2 : ∀ u, Shaped s u → Shaped s
      (if flag s (pendBit n) then u
       else if get (wr64 (setF u (pendBit n)) (R.EVC_STAMP n) s.now) (F.EVC_SRC_ROUTE n) = 1 then
         signalVector (get (wr64 (setF u (pendBit n)) (R.EVC_STAMP n) s.now) (F.EVC_SRC_VECTOR n))
           (wr64 (setF u (pendBit n)) (R.EVC_STAMP n) s.now)
       else wr64 (setF u (pendBit n)) (R.EVC_STAMP n) s.now) := by
    intro u hu
    have hw : Shaped s (wr64 (setF u (pendBit n)) (R.EVC_STAMP n) s.now) := ((hu.wrN _ _).wrN _ _).wrN _ _
    exact Shaped.ite hu (Shaped.ite (hw.trans (signalVector_shaped _ _)) hw)
  have h0 : Shaped s s := ⟨_, _, _, _, _, _, _, rfl⟩
  have h3 := h2 (addSatF s (F.EVC_INFO_RAISES n) 1) (h0.wrN _ _)
  unfold raise
  exact Shaped.ite ((Shaped.ite (h3.trans (snapTrigger_like _ _).2) h3).trans (recRaise_like _ _).2)
    (Shaped.ite (h3.trans (snapTrigger_like _ _).2) h3)

theorem raise_shape (n : Nat) (s : State) :
    ∃ r u l p q x y, raise n s = { s with regs := r, out := u, life := l, recStaged := p, recLost := q, snapTrig := x, cycleVecs := y } :=
  raise_shaped n s

@[simp] theorem raise_pending (n : Nat) (s : State) : (raise n s).pending = s.pending := by
  obtain ⟨_, _, _, _, _, _, _, h⟩ := raise_shape n s; rw [h]
@[simp] theorem raise_lowHeld (n : Nat) (s : State) : (raise n s).lowHeld = s.lowHeld := by
  obtain ⟨_, _, _, _, _, _, _, h⟩ := raise_shape n s; rw [h]
@[simp] theorem raise_hiLatch (n : Nat) (s : State) : (raise n s).hiLatch = s.hiLatch := by
  obtain ⟨_, _, _, _, _, _, _, h⟩ := raise_shape n s; rw [h]
@[simp] theorem raise_now (n : Nat) (s : State) : (raise n s).now = s.now := by
  obtain ⟨_, _, _, _, _, _, _, h⟩ := raise_shape n s; rw [h]
@[simp] theorem raise_beam (n : Nat) (s : State) : (raise n s).beam = s.beam := by
  obtain ⟨_, _, _, _, _, _, _, h⟩ := raise_shape n s; rw [h]
@[simp] theorem raise_fresh (n : Nat) (s : State) : (raise n s).fresh = s.fresh := by
  obtain ⟨_, _, _, _, _, _, _, h⟩ := raise_shape n s; rw [h]
@[simp] theorem raise_lifeRem (n : Nat) (s : State) : (raise n s).lifeRem = s.lifeRem := by
  obtain ⟨_, _, _, _, _, _, _, h⟩ := raise_shape n s; rw [h]
@[simp] theorem raise_ctxs (n : Nat) (s : State) : (raise n s).ctxs = s.ctxs := by
  obtain ⟨_, _, _, _, _, _, _, h⟩ := raise_shape n s; rw [h]
@[simp] theorem raise_hifCmd (n : Nat) (s : State) : (raise n s).hifCmd = s.hifCmd := by
  obtain ⟨_, _, _, _, _, _, _, h⟩ := raise_shape n s; rw [h]
@[simp] theorem raise_rrLast0 (n : Nat) (s : State) : (raise n s).rrLast0 = s.rrLast0 := by
  obtain ⟨_, _, _, _, _, _, _, h⟩ := raise_shape n s; rw [h]
@[simp] theorem raise_rrLast1 (n : Nat) (s : State) : (raise n s).rrLast1 = s.rrLast1 := by
  obtain ⟨_, _, _, _, _, _, _, h⟩ := raise_shape n s; rw [h]
@[simp] theorem raise_bursts (n : Nat) (s : State) : (raise n s).bursts = s.bursts := by
  obtain ⟨_, _, _, _, _, _, _, h⟩ := raise_shape n s; rw [h]
@[simp] theorem raise_mboxReply (n : Nat) (s : State) : (raise n s).mboxReply = s.mboxReply := by
  obtain ⟨_, _, _, _, _, _, _, h⟩ := raise_shape n s; rw [h]
@[simp] theorem raise_mboxDrop (n : Nat) (s : State) : (raise n s).mboxDrop = s.mboxDrop := by
  obtain ⟨_, _, _, _, _, _, _, h⟩ := raise_shape n s; rw [h]
@[simp] theorem raise_subIds (n : Nat) (s : State) : (raise n s).subIds = s.subIds := by
  obtain ⟨_, _, _, _, _, _, _, h⟩ := raise_shape n s; rw [h]
@[simp] theorem raise_mvP (n : Nat) (s : State) : (raise n s).mvP = s.mvP := by
  obtain ⟨_, _, _, _, _, _, _, h⟩ := raise_shape n s; rw [h]
@[simp] theorem raise_periodNext (n : Nat) (s : State) : (raise n s).periodNext = s.periodNext := by
  obtain ⟨_, _, _, _, _, _, _, h⟩ := raise_shape n s; rw [h]
@[simp] theorem raise_layerSet (n : Nat) (s : State) : (raise n s).layerSet = s.layerSet := by
  obtain ⟨_, _, _, _, _, _, _, h⟩ := raise_shape n s; rw [h]
@[simp] theorem raise_layerMv (n : Nat) (s : State) : (raise n s).layerMv = s.layerMv := by
  obtain ⟨_, _, _, _, _, _, _, h⟩ := raise_shape n s; rw [h]
@[simp] theorem raise_hbSince (n : Nat) (s : State) : (raise n s).hbSince = s.hbSince := by
  obtain ⟨_, _, _, _, _, _, _, h⟩ := raise_shape n s; rw [h]
@[simp] theorem raise_ldSince (n : Nat) (s : State) : (raise n s).ldSince = s.ldSince := by
  obtain ⟨_, _, _, _, _, _, _, h⟩ := raise_shape n s; rw [h]
@[simp] theorem raise_ldTold (n : Nat) (s : State) : (raise n s).ldTold = s.ldTold := by
  obtain ⟨_, _, _, _, _, _, _, h⟩ := raise_shape n s; rw [h]
@[simp] theorem raise_stalls (n : Nat) (s : State) : (raise n s).stalls = s.stalls := by
  obtain ⟨_, _, _, _, _, _, _, h⟩ := raise_shape n s; rw [h]
@[simp] theorem raise_lofts (n : Nat) (s : State) : (raise n s).lofts = s.lofts := by
  obtain ⟨_, _, _, _, _, _, _, h⟩ := raise_shape n s; rw [h]
@[simp] theorem raise_forced (n : Nat) (s : State) : (raise n s).forced = s.forced := by
  obtain ⟨_, _, _, _, _, _, _, h⟩ := raise_shape n s; rw [h]
@[simp] theorem raise_inhNew (n : Nat) (s : State) : (raise n s).inhNew = s.inhNew := by
  obtain ⟨_, _, _, _, _, _, _, h⟩ := raise_shape n s; rw [h]
@[simp] theorem raise_inhSince (n : Nat) (s : State) : (raise n s).inhSince = s.inhSince := by
  obtain ⟨_, _, _, _, _, _, _, h⟩ := raise_shape n s; rw [h]
@[simp] theorem raise_relSince (n : Nat) (s : State) : (raise n s).relSince = s.relSince := by
  obtain ⟨_, _, _, _, _, _, _, h⟩ := raise_shape n s; rw [h]
@[simp] theorem raise_relTick (n : Nat) (s : State) : (raise n s).relTick = s.relTick := by
  obtain ⟨_, _, _, _, _, _, _, h⟩ := raise_shape n s; rw [h]
@[simp] theorem raise_hbTold (n : Nat) (s : State) : (raise n s).hbTold = s.hbTold := by
  obtain ⟨_, _, _, _, _, _, _, h⟩ := raise_shape n s; rw [h]
@[simp] theorem raise_barrierDue (n : Nat) (s : State) : (raise n s).barrierDue = s.barrierDue := by
  obtain ⟨_, _, _, _, _, _, _, h⟩ := raise_shape n s; rw [h]
@[simp] theorem raise_inhDue (n : Nat) (s : State) : (raise n s).inhDue = s.inhDue := by
  obtain ⟨_, _, _, _, _, _, _, h⟩ := raise_shape n s; rw [h]
@[simp] theorem raise_lsDiff (n : Nat) (s : State) : (raise n s).lsDiff = s.lsDiff := by
  obtain ⟨_, _, _, _, _, _, _, h⟩ := raise_shape n s; rw [h]
@[simp] theorem raise_seams (n : Nat) (s : State) : (raise n s).seams = s.seams := by
  obtain ⟨_, _, _, _, _, _, _, h⟩ := raise_shape n s; rw [h]
@[simp] theorem raise_seamReqs (n : Nat) (s : State) : (raise n s).seamReqs = s.seamReqs := by
  obtain ⟨_, _, _, _, _, _, _, h⟩ := raise_shape n s; rw [h]
@[simp] theorem raise_seamMoves (n : Nat) (s : State) : (raise n s).seamMoves = s.seamMoves := by
  obtain ⟨_, _, _, _, _, _, _, h⟩ := raise_shape n s; rw [h]
@[simp] theorem raise_latePairs (n : Nat) (s : State) : (raise n s).latePairs = s.latePairs := by
  obtain ⟨_, _, _, _, _, _, _, h⟩ := raise_shape n s; rw [h]
@[simp] theorem raise_mshOld (n : Nat) (s : State) : (raise n s).mshOld = s.mshOld := by
  obtain ⟨_, _, _, _, _, _, _, h⟩ := raise_shape n s; rw [h]
@[simp] theorem raise_engs (n : Nat) (s : State) : (raise n s).engs = s.engs := by
  obtain ⟨_, _, _, _, _, _, _, h⟩ := raise_shape n s; rw [h]
@[simp] theorem raise_srvs (n : Nat) (s : State) : (raise n s).srvs = s.srvs := by
  obtain ⟨_, _, _, _, _, _, _, h⟩ := raise_shape n s; rw [h]
@[simp] theorem raise_boundary (n : Nat) (s : State) : (raise n s).boundary = s.boundary := by
  obtain ⟨_, _, _, _, _, _, _, h⟩ := raise_shape n s; rw [h]
@[simp] theorem raise_srvCmd (n : Nat) (s : State) : (raise n s).srvCmd = s.srvCmd := by
  obtain ⟨_, _, _, _, _, _, _, h⟩ := raise_shape n s; rw [h]
@[simp] theorem raise_txns (n : Nat) (s : State) : (raise n s).txns = s.txns := by
  obtain ⟨_, _, _, _, _, _, _, h⟩ := raise_shape n s; rw [h]
@[simp] theorem raise_gteOrder (n : Nat) (s : State) : (raise n s).gteOrder = s.gteOrder := by
  obtain ⟨_, _, _, _, _, _, _, h⟩ := raise_shape n s; rw [h]
@[simp] theorem raise_ports (n : Nat) (s : State) : (raise n s).ports = s.ports := by
  obtain ⟨_, _, _, _, _, _, _, h⟩ := raise_shape n s; rw [h]
@[simp] theorem raise_axes (n : Nat) (s : State) : (raise n s).axes = s.axes := by
  obtain ⟨_, _, _, _, _, _, _, h⟩ := raise_shape n s; rw [h]
@[simp] theorem raise_sens (n : Nat) (s : State) : (raise n s).sens = s.sens := by
  obtain ⟨_, _, _, _, _, _, _, h⟩ := raise_shape n s; rw [h]
@[simp] theorem raise_cci (n : Nat) (s : State) : (raise n s).cci = s.cci := by
  obtain ⟨_, _, _, _, _, _, _, h⟩ := raise_shape n s; rw [h]
@[simp] theorem raise_cciRun (n : Nat) (s : State) : (raise n s).cciRun = s.cciRun := by
  obtain ⟨_, _, _, _, _, _, _, h⟩ := raise_shape n s; rw [h]
@[simp] theorem raise_pipeCur (n : Nat) (s : State) : (raise n s).pipeCur = s.pipeCur := by
  obtain ⟨_, _, _, _, _, _, _, h⟩ := raise_shape n s; rw [h]
@[simp] theorem raise_pipeBusy (n : Nat) (s : State) : (raise n s).pipeBusy = s.pipeBusy := by
  obtain ⟨_, _, _, _, _, _, _, h⟩ := raise_shape n s; rw [h]
@[simp] theorem raise_cmpJobs (n : Nat) (s : State) : (raise n s).cmpJobs = s.cmpJobs := by
  obtain ⟨_, _, _, _, _, _, _, h⟩ := raise_shape n s; rw [h]
@[simp] theorem raise_cmpWait (n : Nat) (s : State) : (raise n s).cmpWait = s.cmpWait := by
  obtain ⟨_, _, _, _, _, _, _, h⟩ := raise_shape n s; rw [h]
@[simp] theorem raise_cmpRecent (n : Nat) (s : State) : (raise n s).cmpRecent = s.cmpRecent := by
  obtain ⟨_, _, _, _, _, _, _, h⟩ := raise_shape n s; rw [h]
@[simp] theorem raise_cmpDone (n : Nat) (s : State) : (raise n s).cmpDone = s.cmpDone := by
  obtain ⟨_, _, _, _, _, _, _, h⟩ := raise_shape n s; rw [h]
@[simp] theorem raise_bays (n : Nat) (s : State) : (raise n s).bays = s.bays := by
  obtain ⟨_, _, _, _, _, _, _, h⟩ := raise_shape n s; rw [h]
@[simp] theorem raise_superDue (n : Nat) (s : State) : (raise n s).superDue = s.superDue := by
  obtain ⟨_, _, _, _, _, _, _, h⟩ := raise_shape n s; rw [h]
@[simp] theorem raise_elog (n : Nat) (s : State) : (raise n s).elog = s.elog := by
  obtain ⟨_, _, _, _, _, _, _, h⟩ := raise_shape n s; rw [h]
@[simp] theorem raise_hayloft (n : Nat) (s : State) : (raise n s).hayloft = s.hayloft := by
  obtain ⟨_, _, _, _, _, _, _, h⟩ := raise_shape n s; rw [h]
@[simp] theorem raise_lp5 (n : Nat) (s : State) : (raise n s).lp5 = s.lp5 := by
  obtain ⟨_, _, _, _, _, _, _, h⟩ := raise_shape n s; rw [h]
@[simp] theorem raise_poison (n : Nat) (s : State) : (raise n s).poison = s.poison := by
  obtain ⟨_, _, _, _, _, _, _, h⟩ := raise_shape n s; rw [h]
@[simp] theorem raise_lpLast (n : Nat) (s : State) : (raise n s).lpLast = s.lpLast := by
  obtain ⟨_, _, _, _, _, _, _, h⟩ := raise_shape n s; rw [h]
@[simp] theorem raise_refSince (n : Nat) (s : State) : (raise n s).refSince = s.refSince := by
  obtain ⟨_, _, _, _, _, _, _, h⟩ := raise_shape n s; rw [h]
@[simp] theorem raise_refQualAt (n : Nat) (s : State) : (raise n s).refQualAt = s.refQualAt := by
  obtain ⟨_, _, _, _, _, _, _, h⟩ := raise_shape n s; rw [h]
@[simp] theorem raise_safeEvt (n : Nat) (s : State) : (raise n s).safeEvt = s.safeEvt := by
  obtain ⟨_, _, _, _, _, _, _, h⟩ := raise_shape n s; rw [h]
@[simp] theorem raise_safeOn (n : Nat) (s : State) : (raise n s).safeOn = s.safeOn := by
  obtain ⟨_, _, _, _, _, _, _, h⟩ := raise_shape n s; rw [h]
@[simp] theorem raise_thmConv (n : Nat) (s : State) : (raise n s).thmConv = s.thmConv := by
  obtain ⟨_, _, _, _, _, _, _, h⟩ := raise_shape n s; rw [h]
@[simp] theorem raise_thmDev (n : Nat) (s : State) : (raise n s).thmDev = s.thmDev := by
  obtain ⟨_, _, _, _, _, _, _, h⟩ := raise_shape n s; rw [h]
@[simp] theorem raise_thmHist (n : Nat) (s : State) : (raise n s).thmHist = s.thmHist := by
  obtain ⟨_, _, _, _, _, _, _, h⟩ := raise_shape n s; rw [h]
@[simp] theorem raise_thmRateAt (n : Nat) (s : State) : (raise n s).thmRateAt = s.thmRateAt := by
  obtain ⟨_, _, _, _, _, _, _, h⟩ := raise_shape n s; rw [h]
@[simp] theorem raise_sdAt (n : Nat) (s : State) : (raise n s).sdAt = s.sdAt := by
  obtain ⟨_, _, _, _, _, _, _, h⟩ := raise_shape n s; rw [h]
@[simp] theorem raise_sdGated (n : Nat) (s : State) : (raise n s).sdGated = s.sdGated := by
  obtain ⟨_, _, _, _, _, _, _, h⟩ := raise_shape n s; rw [h]
@[simp] theorem raise_xoPpb (n : Nat) (s : State) : (raise n s).xoPpb = s.xoPpb := by
  obtain ⟨_, _, _, _, _, _, _, h⟩ := raise_shape n s; rw [h]
@[simp] theorem raise_tports (n : Nat) (s : State) : (raise n s).tports = s.tports := by
  obtain ⟨_, _, _, _, _, _, _, h⟩ := raise_shape n s; rw [h]
@[simp] theorem raise_tmsI (n : Nat) (s : State) : (raise n s).tmsI = s.tmsI := by
  obtain ⟨_, _, _, _, _, _, _, h⟩ := raise_shape n s; rw [h]
@[simp] theorem raise_lockRun (n : Nat) (s : State) : (raise n s).lockRun = s.lockRun := by
  obtain ⟨_, _, _, _, _, _, _, h⟩ := raise_shape n s; rw [h]
@[simp] theorem raise_tmsSet (n : Nat) (s : State) : (raise n s).tmsSet = s.tmsSet := by
  obtain ⟨_, _, _, _, _, _, _, h⟩ := raise_shape n s; rw [h]
@[simp] theorem raise_tmsAcc (n : Nat) (s : State) : (raise n s).tmsAcc = s.tmsAcc := by
  obtain ⟨_, _, _, _, _, _, _, h⟩ := raise_shape n s; rw [h]
@[simp] theorem raise_slewVal (n : Nat) (s : State) : (raise n s).slewVal = s.slewVal := by
  obtain ⟨_, _, _, _, _, _, _, h⟩ := raise_shape n s; rw [h]
@[simp] theorem raise_slewMoved (n : Nat) (s : State) : (raise n s).slewMoved = s.slewMoved := by
  obtain ⟨_, _, _, _, _, _, _, h⟩ := raise_shape n s; rw [h]
@[simp] theorem raise_slewWho (n : Nat) (s : State) : (raise n s).slewWho = s.slewWho := by
  obtain ⟨_, _, _, _, _, _, _, h⟩ := raise_shape n s; rw [h]
@[simp] theorem raise_slewAcc (n : Nat) (s : State) : (raise n s).slewAcc = s.slewAcc := by
  obtain ⟨_, _, _, _, _, _, _, h⟩ := raise_shape n s; rw [h]
@[simp] theorem raise_holdAt (n : Nat) (s : State) : (raise n s).holdAt = s.holdAt := by
  obtain ⟨_, _, _, _, _, _, _, h⟩ := raise_shape n s; rw [h]
@[simp] theorem raise_holdTold (n : Nat) (s : State) : (raise n s).holdTold = s.holdTold := by
  obtain ⟨_, _, _, _, _, _, _, h⟩ := raise_shape n s; rw [h]
@[simp] theorem raise_rtab (n : Nat) (s : State) : (raise n s).rtab = s.rtab := by
  obtain ⟨_, _, _, _, _, _, _, h⟩ := raise_shape n s; rw [h]
@[simp] theorem raise_oldRegs (n : Nat) (s : State) : (raise n s).oldRegs = s.oldRegs := by
  obtain ⟨_, _, _, _, _, _, _, h⟩ := raise_shape n s; rw [h]
@[simp] theorem raise_keys (n : Nat) (s : State) : (raise n s).keys = s.keys := by
  obtain ⟨_, _, _, _, _, _, _, h⟩ := raise_shape n s; rw [h]
@[simp] theorem raise_serials (n : Nat) (s : State) : (raise n s).serials = s.serials := by
  obtain ⟨_, _, _, _, _, _, _, h⟩ := raise_shape n s; rw [h]
@[simp] theorem raise_builderHash (n : Nat) (s : State) : (raise n s).builderHash = s.builderHash := by
  obtain ⟨_, _, _, _, _, _, _, h⟩ := raise_shape n s; rw [h]
@[simp] theorem raise_signKey (n : Nat) (s : State) : (raise n s).signKey = s.signKey := by
  obtain ⟨_, _, _, _, _, _, _, h⟩ := raise_shape n s; rw [h]
@[simp] theorem raise_secSet (n : Nat) (s : State) : (raise n s).secSet = s.secSet := by
  obtain ⟨_, _, _, _, _, _, _, h⟩ := raise_shape n s; rw [h]
@[simp] theorem raise_worldNext (n : Nat) (s : State) : (raise n s).worldNext = s.worldNext := by
  obtain ⟨_, _, _, _, _, _, _, h⟩ := raise_shape n s; rw [h]
@[simp] theorem raise_sealedAt (n : Nat) (s : State) : (raise n s).sealedAt = s.sealedAt := by
  obtain ⟨_, _, _, _, _, _, _, h⟩ := raise_shape n s; rw [h]
@[simp] theorem raise_fars (n : Nat) (s : State) : (raise n s).fars = s.fars := by
  obtain ⟨_, _, _, _, _, _, _, h⟩ := raise_shape n s; rw [h]
@[simp] theorem raise_farReqs (n : Nat) (s : State) : (raise n s).farReqs = s.farReqs := by
  obtain ⟨_, _, _, _, _, _, _, h⟩ := raise_shape n s; rw [h]
@[simp] theorem raise_lamps (n : Nat) (s : State) : (raise n s).lamps = s.lamps := by
  obtain ⟨_, _, _, _, _, _, _, h⟩ := raise_shape n s; rw [h]
@[simp] theorem raise_lmpClear (n : Nat) (s : State) : (raise n s).lmpClear = s.lmpClear := by
  obtain ⟨_, _, _, _, _, _, _, h⟩ := raise_shape n s; rw [h]
@[simp] theorem raise_recNor (n : Nat) (s : State) : (raise n s).recNor = s.recNor := by
  obtain ⟨_, _, _, _, _, _, _, h⟩ := raise_shape n s; rw [h]
@[simp] theorem raise_recChain (n : Nat) (s : State) : (raise n s).recChain = s.recChain := by
  obtain ⟨_, _, _, _, _, _, _, h⟩ := raise_shape n s; rw [h]
@[simp] theorem raise_recFetch (n : Nat) (s : State) : (raise n s).recFetch = s.recFetch := by
  obtain ⟨_, _, _, _, _, _, _, h⟩ := raise_shape n s; rw [h]
@[simp] theorem raise_snap (n : Nat) (s : State) : (raise n s).snap = s.snap := by
  obtain ⟨_, _, _, _, _, _, _, h⟩ := raise_shape n s; rw [h]
@[simp] theorem raise_traces (n : Nat) (s : State) : (raise n s).traces = s.traces := by
  obtain ⟨_, _, _, _, _, _, _, h⟩ := raise_shape n s; rw [h]
@[simp] theorem raise_lifeNor (n : Nat) (s : State) : (raise n s).lifeNor = s.lifeNor := by
  obtain ⟨_, _, _, _, _, _, _, h⟩ := raise_shape n s; rw [h]
@[simp] theorem raise_lifeSaves (n : Nat) (s : State) : (raise n s).lifeSaves = s.lifeSaves := by
  obtain ⟨_, _, _, _, _, _, _, h⟩ := raise_shape n s; rw [h]
@[simp] theorem raise_saveLast (n : Nat) (s : State) : (raise n s).saveLast = s.saveLast := by
  obtain ⟨_, _, _, _, _, _, _, h⟩ := raise_shape n s; rw [h]
@[simp] theorem raise_pfailSaved (n : Nat) (s : State) : (raise n s).pfailSaved = s.pfailSaved := by
  obtain ⟨_, _, _, _, _, _, _, h⟩ := raise_shape n s; rw [h]
@[simp] theorem raise_coldStart (n : Nat) (s : State) : (raise n s).coldStart = s.coldStart := by
  obtain ⟨_, _, _, _, _, _, _, h⟩ := raise_shape n s; rw [h]
@[simp] theorem raise_imgs (n : Nat) (s : State) : (raise n s).imgs = s.imgs := by
  obtain ⟨_, _, _, _, _, _, _, h⟩ := raise_shape n s; rw [h]
@[simp] theorem raise_rollMin (n : Nat) (s : State) : (raise n s).rollMin = s.rollMin := by
  obtain ⟨_, _, _, _, _, _, _, h⟩ := raise_shape n s; rw [h]
@[simp] theorem raise_imgCopy (n : Nat) (s : State) : (raise n s).imgCopy = s.imgCopy := by
  obtain ⟨_, _, _, _, _, _, _, h⟩ := raise_shape n s; rw [h]
@[simp] theorem raise_imgAct (n : Nat) (s : State) : (raise n s).imgAct = s.imgAct := by
  obtain ⟨_, _, _, _, _, _, _, h⟩ := raise_shape n s; rw [h]
@[simp] theorem raise_imgDue (n : Nat) (s : State) : (raise n s).imgDue = s.imgDue := by
  obtain ⟨_, _, _, _, _, _, _, h⟩ := raise_shape n s; rw [h]
@[simp] theorem raise_mgmtDown (n : Nat) (s : State) : (raise n s).mgmtDown = s.mgmtDown := by
  obtain ⟨_, _, _, _, _, _, _, h⟩ := raise_shape n s; rw [h]
@[simp] theorem raise_uart (n : Nat) (s : State) : (raise n s).uart = s.uart := by
  obtain ⟨_, _, _, _, _, _, _, h⟩ := raise_shape n s; rw [h]
@[simp] theorem raise_uartType (n : Nat) (s : State) : (raise n s).uartType = s.uartType := by
  obtain ⟨_, _, _, _, _, _, _, h⟩ := raise_shape n s; rw [h]
@[simp] theorem raise_boardNew (n : Nat) (s : State) : (raise n s).boardNew = s.boardNew := by
  obtain ⟨_, _, _, _, _, _, _, h⟩ := raise_shape n s; rw [h]
@[simp] theorem raise_mboxVer (n : Nat) (s : State) : (raise n s).mboxVer = s.mboxVer := by
  obtain ⟨_, _, _, _, _, _, _, h⟩ := raise_shape n s; rw [h]
@[simp] theorem raise_bars (n : Nat) (s : State) : (raise n s).bars = s.bars := by
  obtain ⟨_, _, _, _, _, _, _, h⟩ := raise_shape n s; rw [h]
@[simp] theorem raise_periodAt (n : Nat) (s : State) : (raise n s).periodAt = s.periodAt := by
  obtain ⟨_, _, _, _, _, _, _, h⟩ := raise_shape n s; rw [h]
@[simp] theorem raise_thmDue (n : Nat) (s : State) : (raise n s).thmDue = s.thmDue := by
  obtain ⟨_, _, _, _, _, _, _, h⟩ := raise_shape n s; rw [h]
@[simp] theorem raise_sramBad (n : Nat) (s : State) : (raise n s).sramBad = s.sramBad := by
  obtain ⟨_, _, _, _, _, _, _, h⟩ := raise_shape n s; rw [h]
@[simp] theorem raise_lpCmd (n : Nat) (s : State) : (raise n s).lpCmd = s.lpCmd := by
  obtain ⟨_, _, _, _, _, _, _, h⟩ := raise_shape n s; rw [h]
@[simp] theorem raise_ppsUp (n : Nat) (s : State) : (raise n s).ppsUp = s.ppsUp := by
  obtain ⟨_, _, _, _, _, _, _, h⟩ := raise_shape n s; rw [h]
@[simp] theorem raise_rclkSrc (n : Nat) (s : State) : (raise n s).rclkSrc = s.rclkSrc := by
  obtain ⟨_, _, _, _, _, _, _, h⟩ := raise_shape n s; rw [h]
@[simp] theorem raise_cleLoads (n : Nat) (s : State) : (raise n s).cleLoads = s.cleLoads := by
  obtain ⟨_, _, _, _, _, _, _, h⟩ := raise_shape n s; rw [h]
@[simp] theorem raise_lpQueue (n : Nat) (s : State) : (raise n s).lpQueue = s.lpQueue := by
  obtain ⟨_, _, _, _, _, _, _, h⟩ := raise_shape n s; rw [h]
@[simp] theorem raise_thmFew (n : Nat) (s : State) : (raise n s).thmFew = s.thmFew := by
  obtain ⟨_, _, _, _, _, _, _, h⟩ := raise_shape n s; rw [h]
@[simp] theorem raise_idleFrom (n : Nat) (s : State) : (raise n s).idleFrom = s.idleFrom := by
  obtain ⟨_, _, _, _, _, _, _, h⟩ := raise_shape n s; rw [h]
@[simp] theorem raise_aoTime (n : Nat) (s : State) : (raise n s).aoTime = s.aoTime := by
  obtain ⟨_, _, _, _, _, _, _, h⟩ := raise_shape n s; rw [h]
@[simp] theorem raise_steer (n : Nat) (s : State) : (raise n s).steer = s.steer := by
  obtain ⟨_, _, _, _, _, _, _, h⟩ := raise_shape n s; rw [h]

/-! ## Completing a descriptor -/

/-- A completion changes the contexts and the counter of free values only. -/
theorem complete_shape (c : Fin 256) (q st : Nat) (a b : Option Nat) (staged : Bool) (s : State) :
    ∃ k : Compl, ∃ n : Nat, k.status = st ∧ complete c q st a b staged s =
      { s with
        fresh := n
        ctxs := vmod s.ctxs c fun x => { x with
          fetched := settleDescs q k x.fetched
          orphans := x.orphans.filter (fun d => d.seq != q)
          hist := settleHist q k x.hist } } := by
  unfold complete openValue
  cases a <;> cases b <;> exact ⟨_, _, rfl, rfl⟩

@[simp] theorem complete_pending (c : Fin 256) (q st : Nat) (a b : Option Nat) (g : Bool) (s : State) :
    (complete c q st a b g s).pending = s.pending := by
  obtain ⟨_, _, _, h⟩ := complete_shape c q st a b g s; rw [h]
@[simp] theorem complete_regs (c : Fin 256) (q st : Nat) (a b : Option Nat) (g : Bool) (s : State) :
    (complete c q st a b g s).regs = s.regs := by
  obtain ⟨_, _, _, h⟩ := complete_shape c q st a b g s; rw [h]
@[simp] theorem complete_lowHeld (c : Fin 256) (q st : Nat) (a b : Option Nat) (g : Bool) (s : State) :
    (complete c q st a b g s).lowHeld = s.lowHeld := by
  obtain ⟨_, _, _, h⟩ := complete_shape c q st a b g s; rw [h]
@[simp] theorem complete_hiLatch (c : Fin 256) (q st : Nat) (a b : Option Nat) (g : Bool) (s : State) :
    (complete c q st a b g s).hiLatch = s.hiLatch := by
  obtain ⟨_, _, _, h⟩ := complete_shape c q st a b g s; rw [h]
@[simp] theorem complete_now (c : Fin 256) (q st : Nat) (a b : Option Nat) (g : Bool) (s : State) :
    (complete c q st a b g s).now = s.now := by
  obtain ⟨_, _, _, h⟩ := complete_shape c q st a b g s; rw [h]
@[simp] theorem complete_beam (c : Fin 256) (q st : Nat) (a b : Option Nat) (g : Bool) (s : State) :
    (complete c q st a b g s).beam = s.beam := by
  obtain ⟨_, _, _, h⟩ := complete_shape c q st a b g s; rw [h]
@[simp] theorem complete_out (c : Fin 256) (q st : Nat) (a b : Option Nat) (g : Bool) (s : State) :
    (complete c q st a b g s).out = s.out := by
  obtain ⟨_, _, _, h⟩ := complete_shape c q st a b g s; rw [h]
@[simp] theorem complete_life (c : Fin 256) (q st : Nat) (a b : Option Nat) (g : Bool) (s : State) :
    (complete c q st a b g s).life = s.life := by
  obtain ⟨_, _, _, h⟩ := complete_shape c q st a b g s; rw [h]
@[simp] theorem complete_lifeRem (c : Fin 256) (q st : Nat) (a b : Option Nat) (g : Bool) (s : State) :
    (complete c q st a b g s).lifeRem = s.lifeRem := by
  obtain ⟨_, _, _, h⟩ := complete_shape c q st a b g s; rw [h]
@[simp] theorem complete_hifCmd (c : Fin 256) (q st : Nat) (a b : Option Nat) (g : Bool) (s : State) :
    (complete c q st a b g s).hifCmd = s.hifCmd := by
  obtain ⟨_, _, _, h⟩ := complete_shape c q st a b g s; rw [h]
@[simp] theorem complete_rrLast0 (c : Fin 256) (q st : Nat) (a b : Option Nat) (g : Bool) (s : State) :
    (complete c q st a b g s).rrLast0 = s.rrLast0 := by
  obtain ⟨_, _, _, h⟩ := complete_shape c q st a b g s; rw [h]
@[simp] theorem complete_rrLast1 (c : Fin 256) (q st : Nat) (a b : Option Nat) (g : Bool) (s : State) :
    (complete c q st a b g s).rrLast1 = s.rrLast1 := by
  obtain ⟨_, _, _, h⟩ := complete_shape c q st a b g s; rw [h]
@[simp] theorem complete_bursts (c : Fin 256) (q st : Nat) (a b : Option Nat) (g : Bool) (s : State) :
    (complete c q st a b g s).bursts = s.bursts := by
  obtain ⟨_, _, _, h⟩ := complete_shape c q st a b g s; rw [h]
@[simp] theorem complete_mboxReply (c : Fin 256) (q st : Nat) (a b : Option Nat) (g : Bool) (s : State) :
    (complete c q st a b g s).mboxReply = s.mboxReply := by
  obtain ⟨_, _, _, h⟩ := complete_shape c q st a b g s; rw [h]
@[simp] theorem complete_mboxDrop (c : Fin 256) (q st : Nat) (a b : Option Nat) (g : Bool) (s : State) :
    (complete c q st a b g s).mboxDrop = s.mboxDrop := by
  obtain ⟨_, _, _, h⟩ := complete_shape c q st a b g s; rw [h]
@[simp] theorem complete_subIds (c : Fin 256) (q st : Nat) (a b : Option Nat) (g : Bool) (s : State) :
    (complete c q st a b g s).subIds = s.subIds := by
  obtain ⟨_, _, _, h⟩ := complete_shape c q st a b g s; rw [h]
@[simp] theorem complete_mvP (c : Fin 256) (q st : Nat) (a b : Option Nat) (g : Bool) (s : State) :
    (complete c q st a b g s).mvP = s.mvP := by
  obtain ⟨_, _, _, h⟩ := complete_shape c q st a b g s; rw [h]
@[simp] theorem complete_periodNext (c : Fin 256) (q st : Nat) (a b : Option Nat) (g : Bool) (s : State) :
    (complete c q st a b g s).periodNext = s.periodNext := by
  obtain ⟨_, _, _, h⟩ := complete_shape c q st a b g s; rw [h]
@[simp] theorem complete_layerSet (c : Fin 256) (q st : Nat) (a b : Option Nat) (g : Bool) (s : State) :
    (complete c q st a b g s).layerSet = s.layerSet := by
  obtain ⟨_, _, _, h⟩ := complete_shape c q st a b g s; rw [h]
@[simp] theorem complete_layerMv (c : Fin 256) (q st : Nat) (a b : Option Nat) (g : Bool) (s : State) :
    (complete c q st a b g s).layerMv = s.layerMv := by
  obtain ⟨_, _, _, h⟩ := complete_shape c q st a b g s; rw [h]
@[simp] theorem complete_hbSince (c : Fin 256) (q st : Nat) (a b : Option Nat) (g : Bool) (s : State) :
    (complete c q st a b g s).hbSince = s.hbSince := by
  obtain ⟨_, _, _, h⟩ := complete_shape c q st a b g s; rw [h]
@[simp] theorem complete_ldSince (c : Fin 256) (q st : Nat) (a b : Option Nat) (g : Bool) (s : State) :
    (complete c q st a b g s).ldSince = s.ldSince := by
  obtain ⟨_, _, _, h⟩ := complete_shape c q st a b g s; rw [h]
@[simp] theorem complete_ldTold (c : Fin 256) (q st : Nat) (a b : Option Nat) (g : Bool) (s : State) :
    (complete c q st a b g s).ldTold = s.ldTold := by
  obtain ⟨_, _, _, h⟩ := complete_shape c q st a b g s; rw [h]
@[simp] theorem complete_stalls (c : Fin 256) (q st : Nat) (a b : Option Nat) (g : Bool) (s : State) :
    (complete c q st a b g s).stalls = s.stalls := by
  obtain ⟨_, _, _, h⟩ := complete_shape c q st a b g s; rw [h]
@[simp] theorem complete_lofts (c : Fin 256) (q st : Nat) (a b : Option Nat) (g : Bool) (s : State) :
    (complete c q st a b g s).lofts = s.lofts := by
  obtain ⟨_, _, _, h⟩ := complete_shape c q st a b g s; rw [h]
@[simp] theorem complete_forced (c : Fin 256) (q st : Nat) (a b : Option Nat) (g : Bool) (s : State) :
    (complete c q st a b g s).forced = s.forced := by
  obtain ⟨_, _, _, h⟩ := complete_shape c q st a b g s; rw [h]
@[simp] theorem complete_inhNew (c : Fin 256) (q st : Nat) (a b : Option Nat) (g : Bool) (s : State) :
    (complete c q st a b g s).inhNew = s.inhNew := by
  obtain ⟨_, _, _, h⟩ := complete_shape c q st a b g s; rw [h]
@[simp] theorem complete_inhSince (c : Fin 256) (q st : Nat) (a b : Option Nat) (g : Bool) (s : State) :
    (complete c q st a b g s).inhSince = s.inhSince := by
  obtain ⟨_, _, _, h⟩ := complete_shape c q st a b g s; rw [h]
@[simp] theorem complete_relSince (c : Fin 256) (q st : Nat) (a b : Option Nat) (g : Bool) (s : State) :
    (complete c q st a b g s).relSince = s.relSince := by
  obtain ⟨_, _, _, h⟩ := complete_shape c q st a b g s; rw [h]
@[simp] theorem complete_relTick (c : Fin 256) (q st : Nat) (a b : Option Nat) (g : Bool) (s : State) :
    (complete c q st a b g s).relTick = s.relTick := by
  obtain ⟨_, _, _, h⟩ := complete_shape c q st a b g s; rw [h]
@[simp] theorem complete_hbTold (c : Fin 256) (q st : Nat) (a b : Option Nat) (g : Bool) (s : State) :
    (complete c q st a b g s).hbTold = s.hbTold := by
  obtain ⟨_, _, _, h⟩ := complete_shape c q st a b g s; rw [h]
@[simp] theorem complete_barrierDue (c : Fin 256) (q st : Nat) (a b : Option Nat) (g : Bool) (s : State) :
    (complete c q st a b g s).barrierDue = s.barrierDue := by
  obtain ⟨_, _, _, h⟩ := complete_shape c q st a b g s; rw [h]
@[simp] theorem complete_inhDue (c : Fin 256) (q st : Nat) (a b : Option Nat) (g : Bool) (s : State) :
    (complete c q st a b g s).inhDue = s.inhDue := by
  obtain ⟨_, _, _, h⟩ := complete_shape c q st a b g s; rw [h]
@[simp] theorem complete_lsDiff (c : Fin 256) (q st : Nat) (a b : Option Nat) (g : Bool) (s : State) :
    (complete c q st a b g s).lsDiff = s.lsDiff := by
  obtain ⟨_, _, _, h⟩ := complete_shape c q st a b g s; rw [h]
@[simp] theorem complete_seams (c : Fin 256) (q st : Nat) (a b : Option Nat) (g : Bool) (s : State) :
    (complete c q st a b g s).seams = s.seams := by
  obtain ⟨_, _, _, h⟩ := complete_shape c q st a b g s; rw [h]
@[simp] theorem complete_seamReqs (c : Fin 256) (q st : Nat) (a b : Option Nat) (g : Bool) (s : State) :
    (complete c q st a b g s).seamReqs = s.seamReqs := by
  obtain ⟨_, _, _, h⟩ := complete_shape c q st a b g s; rw [h]
@[simp] theorem complete_seamMoves (c : Fin 256) (q st : Nat) (a b : Option Nat) (g : Bool) (s : State) :
    (complete c q st a b g s).seamMoves = s.seamMoves := by
  obtain ⟨_, _, _, h⟩ := complete_shape c q st a b g s; rw [h]
@[simp] theorem complete_latePairs (c : Fin 256) (q st : Nat) (a b : Option Nat) (g : Bool) (s : State) :
    (complete c q st a b g s).latePairs = s.latePairs := by
  obtain ⟨_, _, _, h⟩ := complete_shape c q st a b g s; rw [h]
@[simp] theorem complete_mshOld (c : Fin 256) (q st : Nat) (a b : Option Nat) (g : Bool) (s : State) :
    (complete c q st a b g s).mshOld = s.mshOld := by
  obtain ⟨_, _, _, h⟩ := complete_shape c q st a b g s; rw [h]
@[simp] theorem complete_engs (c : Fin 256) (q st : Nat) (a b : Option Nat) (g : Bool) (s : State) :
    (complete c q st a b g s).engs = s.engs := by
  obtain ⟨_, _, _, h⟩ := complete_shape c q st a b g s; rw [h]
@[simp] theorem complete_srvs (c : Fin 256) (q st : Nat) (a b : Option Nat) (g : Bool) (s : State) :
    (complete c q st a b g s).srvs = s.srvs := by
  obtain ⟨_, _, _, h⟩ := complete_shape c q st a b g s; rw [h]
@[simp] theorem complete_boundary (c : Fin 256) (q st : Nat) (a b : Option Nat) (g : Bool) (s : State) :
    (complete c q st a b g s).boundary = s.boundary := by
  obtain ⟨_, _, _, h⟩ := complete_shape c q st a b g s; rw [h]
@[simp] theorem complete_srvCmd (c : Fin 256) (q st : Nat) (a b : Option Nat) (g : Bool) (s : State) :
    (complete c q st a b g s).srvCmd = s.srvCmd := by
  obtain ⟨_, _, _, h⟩ := complete_shape c q st a b g s; rw [h]
@[simp] theorem complete_txns (c : Fin 256) (q st : Nat) (a b : Option Nat) (g : Bool) (s : State) :
    (complete c q st a b g s).txns = s.txns := by
  obtain ⟨_, _, _, h⟩ := complete_shape c q st a b g s; rw [h]
@[simp] theorem complete_gteOrder (c : Fin 256) (q st : Nat) (a b : Option Nat) (g : Bool) (s : State) :
    (complete c q st a b g s).gteOrder = s.gteOrder := by
  obtain ⟨_, _, _, h⟩ := complete_shape c q st a b g s; rw [h]
@[simp] theorem complete_ports (c : Fin 256) (q st : Nat) (a b : Option Nat) (g : Bool) (s : State) :
    (complete c q st a b g s).ports = s.ports := by
  obtain ⟨_, _, _, h⟩ := complete_shape c q st a b g s; rw [h]
@[simp] theorem complete_axes (c : Fin 256) (q st : Nat) (a b : Option Nat) (g : Bool) (s : State) :
    (complete c q st a b g s).axes = s.axes := by
  obtain ⟨_, _, _, h⟩ := complete_shape c q st a b g s; rw [h]
@[simp] theorem complete_sens (c : Fin 256) (q st : Nat) (a b : Option Nat) (g : Bool) (s : State) :
    (complete c q st a b g s).sens = s.sens := by
  obtain ⟨_, _, _, h⟩ := complete_shape c q st a b g s; rw [h]
@[simp] theorem complete_cci (c : Fin 256) (q st : Nat) (a b : Option Nat) (g : Bool) (s : State) :
    (complete c q st a b g s).cci = s.cci := by
  obtain ⟨_, _, _, h⟩ := complete_shape c q st a b g s; rw [h]
@[simp] theorem complete_cciRun (c : Fin 256) (q st : Nat) (a b : Option Nat) (g : Bool) (s : State) :
    (complete c q st a b g s).cciRun = s.cciRun := by
  obtain ⟨_, _, _, h⟩ := complete_shape c q st a b g s; rw [h]
@[simp] theorem complete_pipeCur (c : Fin 256) (q st : Nat) (a b : Option Nat) (g : Bool) (s : State) :
    (complete c q st a b g s).pipeCur = s.pipeCur := by
  obtain ⟨_, _, _, h⟩ := complete_shape c q st a b g s; rw [h]
@[simp] theorem complete_pipeBusy (c : Fin 256) (q st : Nat) (a b : Option Nat) (g : Bool) (s : State) :
    (complete c q st a b g s).pipeBusy = s.pipeBusy := by
  obtain ⟨_, _, _, h⟩ := complete_shape c q st a b g s; rw [h]
@[simp] theorem complete_cmpJobs (c : Fin 256) (q st : Nat) (a b : Option Nat) (g : Bool) (s : State) :
    (complete c q st a b g s).cmpJobs = s.cmpJobs := by
  obtain ⟨_, _, _, h⟩ := complete_shape c q st a b g s; rw [h]
@[simp] theorem complete_cmpWait (c : Fin 256) (q st : Nat) (a b : Option Nat) (g : Bool) (s : State) :
    (complete c q st a b g s).cmpWait = s.cmpWait := by
  obtain ⟨_, _, _, h⟩ := complete_shape c q st a b g s; rw [h]
@[simp] theorem complete_cmpRecent (c : Fin 256) (q st : Nat) (a b : Option Nat) (g : Bool) (s : State) :
    (complete c q st a b g s).cmpRecent = s.cmpRecent := by
  obtain ⟨_, _, _, h⟩ := complete_shape c q st a b g s; rw [h]
@[simp] theorem complete_cmpDone (c : Fin 256) (q st : Nat) (a b : Option Nat) (g : Bool) (s : State) :
    (complete c q st a b g s).cmpDone = s.cmpDone := by
  obtain ⟨_, _, _, h⟩ := complete_shape c q st a b g s; rw [h]
@[simp] theorem complete_bays (c : Fin 256) (q st : Nat) (a b : Option Nat) (g : Bool) (s : State) :
    (complete c q st a b g s).bays = s.bays := by
  obtain ⟨_, _, _, h⟩ := complete_shape c q st a b g s; rw [h]
@[simp] theorem complete_superDue (c : Fin 256) (q st : Nat) (a b : Option Nat) (g : Bool) (s : State) :
    (complete c q st a b g s).superDue = s.superDue := by
  obtain ⟨_, _, _, h⟩ := complete_shape c q st a b g s; rw [h]
@[simp] theorem complete_elog (c : Fin 256) (q st : Nat) (a b : Option Nat) (g : Bool) (s : State) :
    (complete c q st a b g s).elog = s.elog := by
  obtain ⟨_, _, _, h⟩ := complete_shape c q st a b g s; rw [h]
@[simp] theorem complete_hayloft (c : Fin 256) (q st : Nat) (a b : Option Nat) (g : Bool) (s : State) :
    (complete c q st a b g s).hayloft = s.hayloft := by
  obtain ⟨_, _, _, h⟩ := complete_shape c q st a b g s; rw [h]
@[simp] theorem complete_lp5 (c : Fin 256) (q st : Nat) (a b : Option Nat) (g : Bool) (s : State) :
    (complete c q st a b g s).lp5 = s.lp5 := by
  obtain ⟨_, _, _, h⟩ := complete_shape c q st a b g s; rw [h]
@[simp] theorem complete_poison (c : Fin 256) (q st : Nat) (a b : Option Nat) (g : Bool) (s : State) :
    (complete c q st a b g s).poison = s.poison := by
  obtain ⟨_, _, _, h⟩ := complete_shape c q st a b g s; rw [h]
@[simp] theorem complete_lpLast (c : Fin 256) (q st : Nat) (a b : Option Nat) (g : Bool) (s : State) :
    (complete c q st a b g s).lpLast = s.lpLast := by
  obtain ⟨_, _, _, h⟩ := complete_shape c q st a b g s; rw [h]
@[simp] theorem complete_refSince (c : Fin 256) (q st : Nat) (a b : Option Nat) (g : Bool) (s : State) :
    (complete c q st a b g s).refSince = s.refSince := by
  obtain ⟨_, _, _, h⟩ := complete_shape c q st a b g s; rw [h]
@[simp] theorem complete_refQualAt (c : Fin 256) (q st : Nat) (a b : Option Nat) (g : Bool) (s : State) :
    (complete c q st a b g s).refQualAt = s.refQualAt := by
  obtain ⟨_, _, _, h⟩ := complete_shape c q st a b g s; rw [h]
@[simp] theorem complete_safeEvt (c : Fin 256) (q st : Nat) (a b : Option Nat) (g : Bool) (s : State) :
    (complete c q st a b g s).safeEvt = s.safeEvt := by
  obtain ⟨_, _, _, h⟩ := complete_shape c q st a b g s; rw [h]
@[simp] theorem complete_safeOn (c : Fin 256) (q st : Nat) (a b : Option Nat) (g : Bool) (s : State) :
    (complete c q st a b g s).safeOn = s.safeOn := by
  obtain ⟨_, _, _, h⟩ := complete_shape c q st a b g s; rw [h]
@[simp] theorem complete_thmConv (c : Fin 256) (q st : Nat) (a b : Option Nat) (g : Bool) (s : State) :
    (complete c q st a b g s).thmConv = s.thmConv := by
  obtain ⟨_, _, _, h⟩ := complete_shape c q st a b g s; rw [h]
@[simp] theorem complete_thmDev (c : Fin 256) (q st : Nat) (a b : Option Nat) (g : Bool) (s : State) :
    (complete c q st a b g s).thmDev = s.thmDev := by
  obtain ⟨_, _, _, h⟩ := complete_shape c q st a b g s; rw [h]
@[simp] theorem complete_thmHist (c : Fin 256) (q st : Nat) (a b : Option Nat) (g : Bool) (s : State) :
    (complete c q st a b g s).thmHist = s.thmHist := by
  obtain ⟨_, _, _, h⟩ := complete_shape c q st a b g s; rw [h]
@[simp] theorem complete_thmRateAt (c : Fin 256) (q st : Nat) (a b : Option Nat) (g : Bool) (s : State) :
    (complete c q st a b g s).thmRateAt = s.thmRateAt := by
  obtain ⟨_, _, _, h⟩ := complete_shape c q st a b g s; rw [h]
@[simp] theorem complete_sdAt (c : Fin 256) (q st : Nat) (a b : Option Nat) (g : Bool) (s : State) :
    (complete c q st a b g s).sdAt = s.sdAt := by
  obtain ⟨_, _, _, h⟩ := complete_shape c q st a b g s; rw [h]
@[simp] theorem complete_sdGated (c : Fin 256) (q st : Nat) (a b : Option Nat) (g : Bool) (s : State) :
    (complete c q st a b g s).sdGated = s.sdGated := by
  obtain ⟨_, _, _, h⟩ := complete_shape c q st a b g s; rw [h]
@[simp] theorem complete_xoPpb (c : Fin 256) (q st : Nat) (a b : Option Nat) (g : Bool) (s : State) :
    (complete c q st a b g s).xoPpb = s.xoPpb := by
  obtain ⟨_, _, _, h⟩ := complete_shape c q st a b g s; rw [h]
@[simp] theorem complete_tports (c : Fin 256) (q st : Nat) (a b : Option Nat) (g : Bool) (s : State) :
    (complete c q st a b g s).tports = s.tports := by
  obtain ⟨_, _, _, h⟩ := complete_shape c q st a b g s; rw [h]
@[simp] theorem complete_tmsI (c : Fin 256) (q st : Nat) (a b : Option Nat) (g : Bool) (s : State) :
    (complete c q st a b g s).tmsI = s.tmsI := by
  obtain ⟨_, _, _, h⟩ := complete_shape c q st a b g s; rw [h]
@[simp] theorem complete_lockRun (c : Fin 256) (q st : Nat) (a b : Option Nat) (g : Bool) (s : State) :
    (complete c q st a b g s).lockRun = s.lockRun := by
  obtain ⟨_, _, _, h⟩ := complete_shape c q st a b g s; rw [h]
@[simp] theorem complete_tmsSet (c : Fin 256) (q st : Nat) (a b : Option Nat) (g : Bool) (s : State) :
    (complete c q st a b g s).tmsSet = s.tmsSet := by
  obtain ⟨_, _, _, h⟩ := complete_shape c q st a b g s; rw [h]
@[simp] theorem complete_tmsAcc (c : Fin 256) (q st : Nat) (a b : Option Nat) (g : Bool) (s : State) :
    (complete c q st a b g s).tmsAcc = s.tmsAcc := by
  obtain ⟨_, _, _, h⟩ := complete_shape c q st a b g s; rw [h]
@[simp] theorem complete_slewVal (c : Fin 256) (q st : Nat) (a b : Option Nat) (g : Bool) (s : State) :
    (complete c q st a b g s).slewVal = s.slewVal := by
  obtain ⟨_, _, _, h⟩ := complete_shape c q st a b g s; rw [h]
@[simp] theorem complete_slewMoved (c : Fin 256) (q st : Nat) (a b : Option Nat) (g : Bool) (s : State) :
    (complete c q st a b g s).slewMoved = s.slewMoved := by
  obtain ⟨_, _, _, h⟩ := complete_shape c q st a b g s; rw [h]
@[simp] theorem complete_slewWho (c : Fin 256) (q st : Nat) (a b : Option Nat) (g : Bool) (s : State) :
    (complete c q st a b g s).slewWho = s.slewWho := by
  obtain ⟨_, _, _, h⟩ := complete_shape c q st a b g s; rw [h]
@[simp] theorem complete_slewAcc (c : Fin 256) (q st : Nat) (a b : Option Nat) (g : Bool) (s : State) :
    (complete c q st a b g s).slewAcc = s.slewAcc := by
  obtain ⟨_, _, _, h⟩ := complete_shape c q st a b g s; rw [h]
@[simp] theorem complete_holdAt (c : Fin 256) (q st : Nat) (a b : Option Nat) (g : Bool) (s : State) :
    (complete c q st a b g s).holdAt = s.holdAt := by
  obtain ⟨_, _, _, h⟩ := complete_shape c q st a b g s; rw [h]
@[simp] theorem complete_holdTold (c : Fin 256) (q st : Nat) (a b : Option Nat) (g : Bool) (s : State) :
    (complete c q st a b g s).holdTold = s.holdTold := by
  obtain ⟨_, _, _, h⟩ := complete_shape c q st a b g s; rw [h]
@[simp] theorem complete_rtab (c : Fin 256) (q st : Nat) (a b : Option Nat) (g : Bool) (s : State) :
    (complete c q st a b g s).rtab = s.rtab := by
  obtain ⟨_, _, _, h⟩ := complete_shape c q st a b g s; rw [h]
@[simp] theorem complete_oldRegs (c : Fin 256) (q st : Nat) (a b : Option Nat) (g : Bool) (s : State) :
    (complete c q st a b g s).oldRegs = s.oldRegs := by
  obtain ⟨_, _, _, h⟩ := complete_shape c q st a b g s; rw [h]
@[simp] theorem complete_keys (c : Fin 256) (q st : Nat) (a b : Option Nat) (g : Bool) (s : State) :
    (complete c q st a b g s).keys = s.keys := by
  obtain ⟨_, _, _, h⟩ := complete_shape c q st a b g s; rw [h]
@[simp] theorem complete_serials (c : Fin 256) (q st : Nat) (a b : Option Nat) (g : Bool) (s : State) :
    (complete c q st a b g s).serials = s.serials := by
  obtain ⟨_, _, _, h⟩ := complete_shape c q st a b g s; rw [h]
@[simp] theorem complete_builderHash (c : Fin 256) (q st : Nat) (a b : Option Nat) (g : Bool) (s : State) :
    (complete c q st a b g s).builderHash = s.builderHash := by
  obtain ⟨_, _, _, h⟩ := complete_shape c q st a b g s; rw [h]
@[simp] theorem complete_signKey (c : Fin 256) (q st : Nat) (a b : Option Nat) (g : Bool) (s : State) :
    (complete c q st a b g s).signKey = s.signKey := by
  obtain ⟨_, _, _, h⟩ := complete_shape c q st a b g s; rw [h]
@[simp] theorem complete_secSet (c : Fin 256) (q st : Nat) (a b : Option Nat) (g : Bool) (s : State) :
    (complete c q st a b g s).secSet = s.secSet := by
  obtain ⟨_, _, _, h⟩ := complete_shape c q st a b g s; rw [h]
@[simp] theorem complete_worldNext (c : Fin 256) (q st : Nat) (a b : Option Nat) (g : Bool) (s : State) :
    (complete c q st a b g s).worldNext = s.worldNext := by
  obtain ⟨_, _, _, h⟩ := complete_shape c q st a b g s; rw [h]
@[simp] theorem complete_sealedAt (c : Fin 256) (q st : Nat) (a b : Option Nat) (g : Bool) (s : State) :
    (complete c q st a b g s).sealedAt = s.sealedAt := by
  obtain ⟨_, _, _, h⟩ := complete_shape c q st a b g s; rw [h]
@[simp] theorem complete_fars (c : Fin 256) (q st : Nat) (a b : Option Nat) (g : Bool) (s : State) :
    (complete c q st a b g s).fars = s.fars := by
  obtain ⟨_, _, _, h⟩ := complete_shape c q st a b g s; rw [h]
@[simp] theorem complete_farReqs (c : Fin 256) (q st : Nat) (a b : Option Nat) (g : Bool) (s : State) :
    (complete c q st a b g s).farReqs = s.farReqs := by
  obtain ⟨_, _, _, h⟩ := complete_shape c q st a b g s; rw [h]
@[simp] theorem complete_lamps (c : Fin 256) (q st : Nat) (a b : Option Nat) (g : Bool) (s : State) :
    (complete c q st a b g s).lamps = s.lamps := by
  obtain ⟨_, _, _, h⟩ := complete_shape c q st a b g s; rw [h]
@[simp] theorem complete_lmpClear (c : Fin 256) (q st : Nat) (a b : Option Nat) (g : Bool) (s : State) :
    (complete c q st a b g s).lmpClear = s.lmpClear := by
  obtain ⟨_, _, _, h⟩ := complete_shape c q st a b g s; rw [h]
@[simp] theorem complete_recStaged (c : Fin 256) (q st : Nat) (a b : Option Nat) (g : Bool) (s : State) :
    (complete c q st a b g s).recStaged = s.recStaged := by
  obtain ⟨_, _, _, h⟩ := complete_shape c q st a b g s; rw [h]
@[simp] theorem complete_recNor (c : Fin 256) (q st : Nat) (a b : Option Nat) (g : Bool) (s : State) :
    (complete c q st a b g s).recNor = s.recNor := by
  obtain ⟨_, _, _, h⟩ := complete_shape c q st a b g s; rw [h]
@[simp] theorem complete_recLost (c : Fin 256) (q st : Nat) (a b : Option Nat) (g : Bool) (s : State) :
    (complete c q st a b g s).recLost = s.recLost := by
  obtain ⟨_, _, _, h⟩ := complete_shape c q st a b g s; rw [h]
@[simp] theorem complete_recChain (c : Fin 256) (q st : Nat) (a b : Option Nat) (g : Bool) (s : State) :
    (complete c q st a b g s).recChain = s.recChain := by
  obtain ⟨_, _, _, h⟩ := complete_shape c q st a b g s; rw [h]
@[simp] theorem complete_recFetch (c : Fin 256) (q st : Nat) (a b : Option Nat) (g : Bool) (s : State) :
    (complete c q st a b g s).recFetch = s.recFetch := by
  obtain ⟨_, _, _, h⟩ := complete_shape c q st a b g s; rw [h]
@[simp] theorem complete_snapTrig (c : Fin 256) (q st : Nat) (a b : Option Nat) (g : Bool) (s : State) :
    (complete c q st a b g s).snapTrig = s.snapTrig := by
  obtain ⟨_, _, _, h⟩ := complete_shape c q st a b g s; rw [h]
@[simp] theorem complete_snap (c : Fin 256) (q st : Nat) (a b : Option Nat) (g : Bool) (s : State) :
    (complete c q st a b g s).snap = s.snap := by
  obtain ⟨_, _, _, h⟩ := complete_shape c q st a b g s; rw [h]
@[simp] theorem complete_traces (c : Fin 256) (q st : Nat) (a b : Option Nat) (g : Bool) (s : State) :
    (complete c q st a b g s).traces = s.traces := by
  obtain ⟨_, _, _, h⟩ := complete_shape c q st a b g s; rw [h]
@[simp] theorem complete_lifeNor (c : Fin 256) (q st : Nat) (a b : Option Nat) (g : Bool) (s : State) :
    (complete c q st a b g s).lifeNor = s.lifeNor := by
  obtain ⟨_, _, _, h⟩ := complete_shape c q st a b g s; rw [h]
@[simp] theorem complete_lifeSaves (c : Fin 256) (q st : Nat) (a b : Option Nat) (g : Bool) (s : State) :
    (complete c q st a b g s).lifeSaves = s.lifeSaves := by
  obtain ⟨_, _, _, h⟩ := complete_shape c q st a b g s; rw [h]
@[simp] theorem complete_saveLast (c : Fin 256) (q st : Nat) (a b : Option Nat) (g : Bool) (s : State) :
    (complete c q st a b g s).saveLast = s.saveLast := by
  obtain ⟨_, _, _, h⟩ := complete_shape c q st a b g s; rw [h]
@[simp] theorem complete_pfailSaved (c : Fin 256) (q st : Nat) (a b : Option Nat) (g : Bool) (s : State) :
    (complete c q st a b g s).pfailSaved = s.pfailSaved := by
  obtain ⟨_, _, _, h⟩ := complete_shape c q st a b g s; rw [h]
@[simp] theorem complete_coldStart (c : Fin 256) (q st : Nat) (a b : Option Nat) (g : Bool) (s : State) :
    (complete c q st a b g s).coldStart = s.coldStart := by
  obtain ⟨_, _, _, h⟩ := complete_shape c q st a b g s; rw [h]
@[simp] theorem complete_imgs (c : Fin 256) (q st : Nat) (a b : Option Nat) (g : Bool) (s : State) :
    (complete c q st a b g s).imgs = s.imgs := by
  obtain ⟨_, _, _, h⟩ := complete_shape c q st a b g s; rw [h]
@[simp] theorem complete_rollMin (c : Fin 256) (q st : Nat) (a b : Option Nat) (g : Bool) (s : State) :
    (complete c q st a b g s).rollMin = s.rollMin := by
  obtain ⟨_, _, _, h⟩ := complete_shape c q st a b g s; rw [h]
@[simp] theorem complete_imgCopy (c : Fin 256) (q st : Nat) (a b : Option Nat) (g : Bool) (s : State) :
    (complete c q st a b g s).imgCopy = s.imgCopy := by
  obtain ⟨_, _, _, h⟩ := complete_shape c q st a b g s; rw [h]
@[simp] theorem complete_imgAct (c : Fin 256) (q st : Nat) (a b : Option Nat) (g : Bool) (s : State) :
    (complete c q st a b g s).imgAct = s.imgAct := by
  obtain ⟨_, _, _, h⟩ := complete_shape c q st a b g s; rw [h]
@[simp] theorem complete_imgDue (c : Fin 256) (q st : Nat) (a b : Option Nat) (g : Bool) (s : State) :
    (complete c q st a b g s).imgDue = s.imgDue := by
  obtain ⟨_, _, _, h⟩ := complete_shape c q st a b g s; rw [h]
@[simp] theorem complete_mgmtDown (c : Fin 256) (q st : Nat) (a b : Option Nat) (g : Bool) (s : State) :
    (complete c q st a b g s).mgmtDown = s.mgmtDown := by
  obtain ⟨_, _, _, h⟩ := complete_shape c q st a b g s; rw [h]
@[simp] theorem complete_uart (c : Fin 256) (q st : Nat) (a b : Option Nat) (g : Bool) (s : State) :
    (complete c q st a b g s).uart = s.uart := by
  obtain ⟨_, _, _, h⟩ := complete_shape c q st a b g s; rw [h]
@[simp] theorem complete_uartType (c : Fin 256) (q st : Nat) (a b : Option Nat) (g : Bool) (s : State) :
    (complete c q st a b g s).uartType = s.uartType := by
  obtain ⟨_, _, _, h⟩ := complete_shape c q st a b g s; rw [h]
@[simp] theorem complete_boardNew (c : Fin 256) (q st : Nat) (a b : Option Nat) (g : Bool) (s : State) :
    (complete c q st a b g s).boardNew = s.boardNew := by
  obtain ⟨_, _, _, h⟩ := complete_shape c q st a b g s; rw [h]
@[simp] theorem complete_cycleVecs (c : Fin 256) (q st : Nat) (a b : Option Nat) (g : Bool) (s : State) :
    (complete c q st a b g s).cycleVecs = s.cycleVecs := by
  obtain ⟨_, _, _, h⟩ := complete_shape c q st a b g s; rw [h]
@[simp] theorem complete_mboxVer (c : Fin 256) (q st : Nat) (a b : Option Nat) (g : Bool) (s : State) :
    (complete c q st a b g s).mboxVer = s.mboxVer := by
  obtain ⟨_, _, _, h⟩ := complete_shape c q st a b g s; rw [h]
@[simp] theorem complete_bars (c : Fin 256) (q st : Nat) (a b : Option Nat) (g : Bool) (s : State) :
    (complete c q st a b g s).bars = s.bars := by
  obtain ⟨_, _, _, h⟩ := complete_shape c q st a b g s; rw [h]
@[simp] theorem complete_periodAt (c : Fin 256) (q st : Nat) (a b : Option Nat) (g : Bool) (s : State) :
    (complete c q st a b g s).periodAt = s.periodAt := by
  obtain ⟨_, _, _, h⟩ := complete_shape c q st a b g s; rw [h]
@[simp] theorem complete_thmDue (c : Fin 256) (q st : Nat) (a b : Option Nat) (g : Bool) (s : State) :
    (complete c q st a b g s).thmDue = s.thmDue := by
  obtain ⟨_, _, _, h⟩ := complete_shape c q st a b g s; rw [h]
@[simp] theorem complete_sramBad (c : Fin 256) (q st : Nat) (a b : Option Nat) (g : Bool) (s : State) :
    (complete c q st a b g s).sramBad = s.sramBad := by
  obtain ⟨_, _, _, h⟩ := complete_shape c q st a b g s; rw [h]
@[simp] theorem complete_lpCmd (c : Fin 256) (q st : Nat) (a b : Option Nat) (g : Bool) (s : State) :
    (complete c q st a b g s).lpCmd = s.lpCmd := by
  obtain ⟨_, _, _, h⟩ := complete_shape c q st a b g s; rw [h]
@[simp] theorem complete_ppsUp (c : Fin 256) (q st : Nat) (a b : Option Nat) (g : Bool) (s : State) :
    (complete c q st a b g s).ppsUp = s.ppsUp := by
  obtain ⟨_, _, _, h⟩ := complete_shape c q st a b g s; rw [h]
@[simp] theorem complete_rclkSrc (c : Fin 256) (q st : Nat) (a b : Option Nat) (g : Bool) (s : State) :
    (complete c q st a b g s).rclkSrc = s.rclkSrc := by
  obtain ⟨_, _, _, h⟩ := complete_shape c q st a b g s; rw [h]
@[simp] theorem complete_cleLoads (c : Fin 256) (q st : Nat) (a b : Option Nat) (g : Bool) (s : State) :
    (complete c q st a b g s).cleLoads = s.cleLoads := by
  obtain ⟨_, _, _, h⟩ := complete_shape c q st a b g s; rw [h]
@[simp] theorem complete_lpQueue (c : Fin 256) (q st : Nat) (a b : Option Nat) (g : Bool) (s : State) :
    (complete c q st a b g s).lpQueue = s.lpQueue := by
  obtain ⟨_, _, _, h⟩ := complete_shape c q st a b g s; rw [h]
@[simp] theorem complete_thmFew (c : Fin 256) (q st : Nat) (a b : Option Nat) (g : Bool) (s : State) :
    (complete c q st a b g s).thmFew = s.thmFew := by
  obtain ⟨_, _, _, h⟩ := complete_shape c q st a b g s; rw [h]
@[simp] theorem complete_idleFrom (c : Fin 256) (q st : Nat) (a b : Option Nat) (g : Bool) (s : State) :
    (complete c q st a b g s).idleFrom = s.idleFrom := by
  obtain ⟨_, _, _, h⟩ := complete_shape c q st a b g s; rw [h]
@[simp] theorem complete_aoTime (c : Fin 256) (q st : Nat) (a b : Option Nat) (g : Bool) (s : State) :
    (complete c q st a b g s).aoTime = s.aoTime := by
  obtain ⟨_, _, _, h⟩ := complete_shape c q st a b g s; rw [h]
@[simp] theorem complete_steer (c : Fin 256) (q st : Nat) (a b : Option Nat) (g : Bool) (s : State) :
    (complete c q st a b g s).steer = s.steer := by
  obtain ⟨_, _, _, h⟩ := complete_shape c q st a b g s; rw [h]

@[simp] theorem rdN_complete (c : Fin 256) (q st : Nat) (a b : Option Nat) (g : Bool) (s : State) (o : Nat) :
    rdN (complete c q st a b g s) o = rdN s o := by
  obtain ⟨_, _, _, h⟩ := complete_shape c q st a b g s
  rw [h]; rfl

@[simp] theorem get_complete (c : Fin 256) (q st : Nat) (a b : Option Nat) (g : Bool) (s : State) (f : Fld) :
    get (complete c q st a b g s) f = get s f := by
  unfold Machine.get
  rw [rdN_complete]

end Machine
end Sys2Proof
end

