-- ==== Sys2Proof/Laws/Evolves.lean ====
section
/-!
SUPPORT. What a step can do to the queue, the register file, the outputs, the free values, the memories, the time, the key
store, the Region Table and the units, said once: a state evolves from another by single register writes, single outputs,
drawn values, and by the changes that a permission allows. Every operation of the machine is shown to be such an evolution
(Laws/EvolvesOps.lean and on), and what follows from one is proved here.
-/
namespace Sys2Proof
namespace Machine

/-- The part of the state that an evolution speaks of. -/
structure Store where
  pending : List Instr
  regs : List (Nat × Word)
  out : List Out
  fresh : Nat
  rollMin : Vector Nat 7
  now : Nat
  beam : Nat
  mvP : Nat
  tmsSet : Option (Nat × Nat × Option (Nat × Nat))
  tmsAcc : List (Bool × Int × Option (Nat × Nat))
  periodNext : Option Nat
  lofts : Vector Mem 6
  hayloft : Mem
  lp5 : Mem
  keys : Vector Nat 16
  signKey : Option Nat
  builderHash : Option Nat
  rtab : Vector (Nat × Nat × Nat) 128
  stalls : Vector Stall 48
  engs : Vector Eng 48
  srvs : Vector Srv 48
  seams : Vector Seam 192
  ports : Vector Port 8
  axes : Vector Axis 8
  sens : Vector Sens 16
  bays : Vector Bay 12
  txns : Vector Txn 64
  lamps : Vector Lamp 160
  fars : Vector FarUnit 60
  ctxs : Vector Ctx 256
  imgs : Vector (Vector Img 2) 7
  tports : Vector TPort 2
  traces : Vector Trace 64
  cmpJobs : Vector (List Job) 2
  cci : Vector (List CciList) 4

/-- The store of a state. -/
def State.store (s : State) : Store :=
  ⟨s.pending, s.regs, s.out, s.fresh, s.rollMin, s.now, s.beam, s.mvP, s.tmsSet, s.tmsAcc, s.periodNext,
   s.lofts, s.hayloft, s.lp5, s.keys, s.signKey, s.builderHash, s.rtab, s.stalls, s.engs, s.srvs, s.seams,
   s.ports, s.axes, s.sens, s.bays, s.txns, s.lamps, s.fars, s.ctxs, s.imgs, s.tports, s.traces, s.cmpJobs,
   s.cci⟩

/-- What one step can make of a store: register writes, registers that return to their reset value, outputs, drawn
values, rollback minima that rise; and of the parts that `pm` allows: the time, the microvector period, what was asked of
them, memories changed by operations that keep the canonical form, keys, the Region Table, the units of each kind, and a
reset of all of these but the keys and the images. -/
inductive Evolves (pm : Part → Bool) (a : Store) : Store → Prop
  | refl : Evolves pm a a
  | wr (o : Nat) (v : Word) {b : Store} (h : Evolves pm a b) :
      Evolves pm a { b with regs := cellSet b.regs o v (resetWord o) }
  | drop (q : Nat × Word → Bool) {b : Store} (h : Evolves pm a b) : Evolves pm a { b with regs := b.regs.filter q }
  | emit (o : Out) {b : Store} (h : Evolves pm a b) : Evolves pm a { b with out := b.out ++ [o] }
  | draw {b : Store} (h : Evolves pm a b) : Evolves pm a { b with fresh := b.fresh + 1 }
  | roll (i : Fin 7) (n : Nat) {b : Store} (h : Evolves pm a b) :
      Evolves pm a { b with rollMin := vmod b.rollMin i (max n) }
  | time (hp : pm .time = true) (t u : Nat) {b : Store} (h : Evolves pm a b) : Evolves pm a { b with now := t, beam := u }
  | period (hp : pm .period = true) (n : Nat) {b : Store} (h : Evolves pm a b) : Evolves pm a { b with mvP := n }
  | ask (hp : pm .ask = true) (x : Option (Nat × Nat × Option (Nat × Nat)))
      (l : List (Bool × Int × Option (Nat × Nat))) (n : Option Nat) {b : Store} (h : Evolves pm a b) :
      Evolves pm a { b with tmsSet := x, tmsAcc := l, periodNext := n }
  | loft (hp : pm .mem = true) (i : Fin 6) (f : Mem → Mem) (hf : ∀ m : Mem, m.wf = true → (f m).wf = true) {b : Store}
      (h : Evolves pm a b) : Evolves pm a { b with lofts := vmod b.lofts i f }
  | mem (hp : pm .mem = true) (f g : Mem → Mem) (hf : ∀ m : Mem, m.wf = true → (f m).wf = true)
      (hg : ∀ m : Mem, m.wf = true → (g m).wf = true) {b : Store} (h : Evolves pm a b) :
      Evolves pm a { b with hayloft := f b.hayloft, lp5 := g b.lp5 }
  | keys (hp : pm .keys = true) (k : Vector Nat 16) (g d : Option Nat) {b : Store} (h : Evolves pm a b) :
      Evolves pm a { b with keys := k, signKey := g, builderHash := d }
  | world (hp : pm .world = true) (r : Vector (Nat × Nat × Nat) 128) {b : Store} (h : Evolves pm a b) :
      Evolves pm a { b with rtab := r }
  | stalls (hp : pm .stalls = true) (v : Vector Stall 48) {b : Store} (h : Evolves pm a b) :
      Evolves pm a { b with stalls := v }
  | engs (hp : pm .engs = true) (v : Vector Eng 48) {b : Store} (h : Evolves pm a b) :
      Evolves pm a { b with engs := v }
  | srvs (hp : pm .srvs = true) (v : Vector Srv 48) {b : Store} (h : Evolves pm a b) :
      Evolves pm a { b with srvs := v }
  | seams (hp : pm .seams = true) (v : Vector Seam 192) {b : Store} (h : Evolves pm a b) :
      Evolves pm a { b with seams := v }
  | ports (hp : pm .ports = true) (v : Vector Port 8) {b : Store} (h : Evolves pm a b) :
      Evolves pm a { b with ports := v }
  | axes (hp : pm .axes = true) (v : Vector Axis 8) {b : Store} (h : Evolves pm a b) :
      Evolves pm a { b with axes := v }
  | sens (hp : pm .sens = true) (v : Vector Sens 16) {b : Store} (h : Evolves pm a b) :
      Evolves pm a { b with sens := v }
  | bays (hp : pm .bays = true) (v : Vector Bay 12) {b : Store} (h : Evolves pm a b) :
      Evolves pm a { b with bays := v }
  | txns (hp : pm .txns = true) (v : Vector Txn 64) {b : Store} (h : Evolves pm a b) :
      Evolves pm a { b with txns := v }
  | lamps (hp : pm .lamps = true) (v : Vector Lamp 160) {b : Store} (h : Evolves pm a b) :
      Evolves pm a { b with lamps := v }
  | fars (hp : pm .fars = true) (v : Vector FarUnit 60) {b : Store} (h : Evolves pm a b) :
      Evolves pm a { b with fars := v }
  | ctxs (hp : pm .ctxs = true) (v : Vector Ctx 256) {b : Store} (h : Evolves pm a b) :
      Evolves pm a { b with ctxs := v }
  | imgs (hp : pm .imgs = true) (v : Vector (Vector Img 2) 7) {b : Store} (h : Evolves pm a b) :
      Evolves pm a { b with imgs := v }
  | tports (hp : pm .tports = true) (v : Vector TPort 2) {b : Store} (h : Evolves pm a b) :
      Evolves pm a { b with tports := v }
  | traces (hp : pm .traces = true) (v : Vector Trace 64) {b : Store} (h : Evolves pm a b) :
      Evolves pm a { b with traces := v }
  | cmpJobs (hp : pm .cmpJobs = true) (v : Vector (List Job) 2) {b : Store} (h : Evolves pm a b) :
      Evolves pm a { b with cmpJobs := v }
  | cci (hp : pm .cci = true) (v : Vector (List CciList) 4) {b : Store} (h : Evolves pm a b) :
      Evolves pm a { b with cci := v }
  | reset (hp : pm .reset = true) (t : Store) (hc : t.regs = [] ∧ (∀ i : Fin 6, Mem.wf t.lofts[i] = true) ∧
        Mem.wf t.hayloft = true ∧ Mem.wf t.lp5 = true) {b : Store} (h : Evolves pm a b) :
      Evolves pm a
        { t with
          pending := b.pending, out := b.out, fresh := b.fresh, rollMin := b.rollMin
          keys := b.keys, signKey := b.signKey, builderHash := b.builderHash, imgs := b.imgs }

/-! ## What an evolution keeps -/

theorem Evolves.pending_eq {pm : Part → Bool} {a b : Store} (h : Evolves pm a b) : b.pending = a.pending := by
  induction h <;> simp_all

theorem Evolves.out_prefix {pm : Part → Bool} {a b : Store} (h : Evolves pm a b) : a.out <+: b.out := by
  induction h with
  | refl => exact List.prefix_refl _
  | emit o _ ih => exact List.IsPrefix.trans ih (List.prefix_append _ _)
  | _ => assumption

theorem Evolves.fresh_le {pm : Part → Bool} {a b : Store} (h : Evolves pm a b) : a.fresh ≤ b.fresh := by
  induction h with
  | refl => exact Nat.le_refl _
  | draw _ ih => exact Nat.le_succ_of_le ih
  | _ => assumption

theorem Evolves.rollMin_le {pm : Part → Bool} {a b : Store} (h : Evolves pm a b) (i : Fin 7) : a.rollMin[i] ≤ b.rollMin[i] := by
  induction h with
  | refl => exact Nat.le_refl _
  | roll j n _ ih =>
    refine Nat.le_trans ih ?_
    rcases eq_or_ne j i with h | h
    · subst h; simp [vmod]
    · simp [vmod, Fin.val_ne_of_ne h]
  | _ => assumption

theorem Evolves.now_eq {pm : Part → Bool} {a b : Store} (h : Evolves pm a b) (ht : pm .time = false) (hr : pm .reset = false) :
    b.now = a.now ∧ b.beam = a.beam := by
  induction h <;> simp_all

theorem Evolves.period_eq {pm : Part → Bool} {a b : Store} (h : Evolves pm a b) (ht : pm .period = false) (hr : pm .reset = false) :
    b.mvP = a.mvP := by
  induction h <;> simp_all

theorem Evolves.ask_eq {pm : Part → Bool} {a b : Store} (h : Evolves pm a b) (ht : pm .ask = false) (hr : pm .reset = false) :
    b.tmsSet = a.tmsSet ∧ b.tmsAcc = a.tmsAcc ∧ b.periodNext = a.periodNext := by
  induction h <;> simp_all

theorem Evolves.mem_eq {pm : Part → Bool} {a b : Store} (h : Evolves pm a b) (ht : pm .mem = false) (hr : pm .reset = false) :
    b.lofts = a.lofts ∧ b.hayloft = a.hayloft ∧ b.lp5 = a.lp5 := by
  induction h <;> simp_all

theorem Evolves.keys_eq {pm : Part → Bool} {a b : Store} (h : Evolves pm a b) (ht : pm .keys = false) :
    b.keys = a.keys ∧ b.signKey = a.signKey ∧ b.builderHash = a.builderHash := by
  induction h <;> simp_all

theorem Evolves.rtab_eq {pm : Part → Bool} {a b : Store} (h : Evolves pm a b) (ht : pm .world = false) (hr : pm .reset = false) :
    b.rtab = a.rtab := by
  induction h <;> simp_all

theorem Evolves.stalls_eq {pm : Part → Bool} {a b : Store} (h : Evolves pm a b) (ht : pm .stalls = false) (hr : pm .reset = false) :
    b.stalls = a.stalls := by
  induction h <;> simp_all

theorem Evolves.engs_eq {pm : Part → Bool} {a b : Store} (h : Evolves pm a b) (ht : pm .engs = false) (hr : pm .reset = false) :
    b.engs = a.engs := by
  induction h <;> simp_all

theorem Evolves.srvs_eq {pm : Part → Bool} {a b : Store} (h : Evolves pm a b) (ht : pm .srvs = false) (hr : pm .reset = false) :
    b.srvs = a.srvs := by
  induction h <;> simp_all

theorem Evolves.seams_eq {pm : Part → Bool} {a b : Store} (h : Evolves pm a b) (ht : pm .seams = false) (hr : pm .reset = false) :
    b.seams = a.seams := by
  induction h <;> simp_all

theorem Evolves.ports_eq {pm : Part → Bool} {a b : Store} (h : Evolves pm a b) (ht : pm .ports = false) (hr : pm .reset = false) :
    b.ports = a.ports := by
  induction h <;> simp_all

theorem Evolves.axes_eq {pm : Part → Bool} {a b : Store} (h : Evolves pm a b) (ht : pm .axes = false) (hr : pm .reset = false) :
    b.axes = a.axes := by
  induction h <;> simp_all

theorem Evolves.sens_eq {pm : Part → Bool} {a b : Store} (h : Evolves pm a b) (ht : pm .sens = false) (hr : pm .reset = false) :
    b.sens = a.sens := by
  induction h <;> simp_all

theorem Evolves.bays_eq {pm : Part → Bool} {a b : Store} (h : Evolves pm a b) (ht : pm .bays = false) (hr : pm .reset = false) :
    b.bays = a.bays := by
  induction h <;> simp_all

theorem Evolves.txns_eq {pm : Part → Bool} {a b : Store} (h : Evolves pm a b) (ht : pm .txns = false) (hr : pm .reset = false) :
    b.txns = a.txns := by
  induction h <;> simp_all

theorem Evolves.lamps_eq {pm : Part → Bool} {a b : Store} (h : Evolves pm a b) (ht : pm .lamps = false) (hr : pm .reset = false) :
    b.lamps = a.lamps := by
  induction h <;> simp_all

theorem Evolves.fars_eq {pm : Part → Bool} {a b : Store} (h : Evolves pm a b) (ht : pm .fars = false) (hr : pm .reset = false) :
    b.fars = a.fars := by
  induction h <;> simp_all

theorem Evolves.ctxs_eq {pm : Part → Bool} {a b : Store} (h : Evolves pm a b) (ht : pm .ctxs = false) (hr : pm .reset = false) :
    b.ctxs = a.ctxs := by
  induction h <;> simp_all

theorem Evolves.imgs_eq {pm : Part → Bool} {a b : Store} (h : Evolves pm a b) (ht : pm .imgs = false) :
    b.imgs = a.imgs := by
  induction h <;> simp_all

theorem Evolves.tports_eq {pm : Part → Bool} {a b : Store} (h : Evolves pm a b) (ht : pm .tports = false) (hr : pm .reset = false) :
    b.tports = a.tports := by
  induction h <;> simp_all

theorem Evolves.traces_eq {pm : Part → Bool} {a b : Store} (h : Evolves pm a b) (ht : pm .traces = false) (hr : pm .reset = false) :
    b.traces = a.traces := by
  induction h <;> simp_all

theorem Evolves.cmpJobs_eq {pm : Part → Bool} {a b : Store} (h : Evolves pm a b) (ht : pm .cmpJobs = false) (hr : pm .reset = false) :
    b.cmpJobs = a.cmpJobs := by
  induction h <;> simp_all

theorem Evolves.cci_eq {pm : Part → Bool} {a b : Store} (h : Evolves pm a b) (ht : pm .cci = false) (hr : pm .reset = false) :
    b.cci = a.cci := by
  induction h <;> simp_all

theorem wf_filter {m : Mem} (p : Nat × Byte → Bool) (h : m.wf = true) : Mem.wf (m.filter p) = true := by
  simp only [Mem.wf, Bool.and_eq_true, List.all_eq_true] at h ⊢
  exact ⟨filter_rising p h.1, fun c hc => h.2 c (List.mem_filter.1 hc).1⟩

theorem regsOk_cellSet {l : List (Nat × Word)} (o : Nat) (v : Word) (h : regsOk l = true) :
    regsOk (cellSet l o v (resetWord o)) = true := by
  simp only [regsOk, Bool.and_eq_true, List.all_eq_true, bne_iff_ne] at h ⊢
  unfold cellSet
  split
  · exact ⟨cellDel_rising o h.1, fun c hc => h.2 c (mem_cellDel hc)⟩
  · rename_i hv
    refine ⟨cellPut_rising o v h.1, fun c hc => ?_⟩
    rcases mem_cellPut hc with hc | hc
    · subst hc; exact hv
    · exact h.2 c hc

theorem regsOk_filter {l : List (Nat × Word)} (p : Nat × Word → Bool) (h : regsOk l = true) :
    regsOk (l.filter p) = true := by
  simp only [regsOk, Bool.and_eq_true, List.all_eq_true] at h ⊢
  exact ⟨filter_rising p h.1, fun c hc => h.2 c (List.mem_filter.1 hc).1⟩

/-- The canonical form of a store. -/
def Store.ok (a : Store) : Prop :=
  regsOk a.regs = true ∧ (∀ i : Fin 6, Mem.wf a.lofts[i] = true) ∧ Mem.wf a.hayloft = true ∧ Mem.wf a.lp5 = true

theorem Evolves.ok {pm : Part → Bool} {a b : Store} (h : Evolves pm a b) (ha : a.ok) : b.ok := by
  induction h with
  | refl => exact ha
  | wr o v _ ih => exact ⟨regsOk_cellSet o v ih.1, ih.2⟩
  | drop q _ ih => exact ⟨regsOk_filter q ih.1, ih.2⟩
  | loft _ i f hf _ ih =>
    refine ⟨ih.1, fun j => ?_, ih.2.2⟩
    rcases eq_or_ne i j with h | h
    · subst h; simpa [vmod] using hf _ (ih.2.1 i)
    · simpa [vmod, Vector.getElem_set, Fin.val_ne_of_ne h] using ih.2.1 j
  | mem _ f g hf hg _ ih => exact ⟨ih.1, ih.2.1, hf _ ih.2.2.1, hg _ ih.2.2.2⟩
  | reset _ t hc _ _ => exact ⟨by simp only [hc.1]; rfl, hc.2⟩
  | _ => assumption

/-- An evolution keeps the canonical form. -/
theorem Evolves.canonical {pm : Part → Bool} {s t : State} (h : Evolves pm s.store t.store) (hs : s.canonical) : t.canonical :=
  h.ok hs

/-! ## The shape of record updates -/

theorem store_mk
    {x_pending} {x_regs} {x_lowHeld} {x_hiLatch} {x_now} {x_beam} {x_fresh} {x_out} {x_life} {x_lifeRem}
    {x_ctxs} {x_hifCmd} {x_rrLast0} {x_rrLast1} {x_bursts} {x_cycleVecs} {x_mboxReply} {x_mboxDrop} {x_mboxVer}
    {x_subIds} {x_bars} {x_mvP} {x_periodNext} {x_periodAt} {x_layerSet} {x_layerMv} {x_hbSince} {x_ldSince}
    {x_ldTold} {x_stalls} {x_lofts} {x_forced} {x_inhNew} {x_inhSince} {x_relSince} {x_relTick} {x_hbTold}
    {x_barrierDue} {x_inhDue} {x_lsDiff} {x_seams} {x_seamReqs} {x_seamMoves} {x_latePairs} {x_mshOld} {x_engs}
    {x_srvs} {x_boundary} {x_srvCmd} {x_cleLoads} {x_txns} {x_gteOrder} {x_ports} {x_axes} {x_sens} {x_cci}
    {x_cciRun} {x_pipeCur} {x_pipeBusy} {x_cmpJobs} {x_cmpWait} {x_cmpRecent} {x_cmpDone} {x_bays} {x_superDue}
    {x_thmDue} {x_elog} {x_hayloft} {x_lp5} {x_poison} {x_sramBad} {x_lpLast} {x_lpQueue} {x_lpCmd} {x_refSince}
    {x_refQualAt} {x_safeEvt} {x_safeOn} {x_thmConv} {x_thmDev} {x_thmHist} {x_thmRateAt} {x_sdAt} {x_sdGated}
    {x_thmFew} {x_idleFrom} {x_aoTime} {x_xoPpb} {x_steer} {x_tports} {x_tmsI} {x_lockRun} {x_tmsSet} {x_tmsAcc}
    {x_slewVal} {x_slewMoved} {x_slewWho} {x_slewAcc} {x_holdAt} {x_holdTold} {x_ppsUp} {x_rclkSrc} {x_rtab}
    {x_oldRegs} {x_keys} {x_serials} {x_builderHash} {x_signKey} {x_secSet} {x_worldNext} {x_sealedAt} {x_fars}
    {x_farReqs} {x_lamps} {x_lmpClear} {x_recStaged} {x_recNor} {x_recLost} {x_recChain} {x_recFetch}
    {x_snapTrig} {x_snap} {x_traces} {x_lifeNor} {x_lifeSaves} {x_saveLast} {x_pfailSaved} {x_coldStart}
    {x_imgs} {x_rollMin} {x_imgCopy} {x_imgAct} {x_imgDue} {x_mgmtDown} {x_uart} {x_uartType} {x_boardNew} :
    (State.mk
      x_pending x_regs x_lowHeld x_hiLatch x_now x_beam x_fresh x_out x_life x_lifeRem x_ctxs x_hifCmd
      x_rrLast0 x_rrLast1 x_bursts x_cycleVecs x_mboxReply x_mboxDrop x_mboxVer x_subIds x_bars x_mvP
      x_periodNext x_periodAt x_layerSet x_layerMv x_hbSince x_ldSince x_ldTold x_stalls x_lofts x_forced
      x_inhNew x_inhSince x_relSince x_relTick x_hbTold x_barrierDue x_inhDue x_lsDiff x_seams x_seamReqs
      x_seamMoves x_latePairs x_mshOld x_engs x_srvs x_boundary x_srvCmd x_cleLoads x_txns x_gteOrder
      x_ports x_axes x_sens x_cci x_cciRun x_pipeCur x_pipeBusy x_cmpJobs x_cmpWait x_cmpRecent x_cmpDone
      x_bays x_superDue x_thmDue x_elog x_hayloft x_lp5 x_poison x_sramBad x_lpLast x_lpQueue x_lpCmd
      x_refSince x_refQualAt x_safeEvt x_safeOn x_thmConv x_thmDev x_thmHist x_thmRateAt x_sdAt x_sdGated
      x_thmFew x_idleFrom x_aoTime x_xoPpb x_steer x_tports x_tmsI x_lockRun x_tmsSet x_tmsAcc x_slewVal
      x_slewMoved x_slewWho x_slewAcc x_holdAt x_holdTold x_ppsUp x_rclkSrc x_rtab x_oldRegs x_keys
      x_serials x_builderHash x_signKey x_secSet x_worldNext x_sealedAt x_fars x_farReqs x_lamps x_lmpClear
      x_recStaged x_recNor x_recLost x_recChain x_recFetch x_snapTrig x_snap x_traces x_lifeNor x_lifeSaves
      x_saveLast x_pfailSaved x_coldStart x_imgs x_rollMin x_imgCopy x_imgAct x_imgDue x_mgmtDown x_uart
      x_uartType x_boardNew).store =
    Store.mk x_pending x_regs x_out x_fresh x_rollMin x_now x_beam x_mvP x_tmsSet x_tmsAcc x_periodNext x_lofts x_hayloft x_lp5 x_keys x_signKey x_builderHash x_rtab x_stalls x_engs x_srvs x_seams x_ports x_axes x_sens x_bays x_txns x_lamps x_fars x_ctxs x_imgs x_tports x_traces x_cmpJobs x_cci := rfl

theorem store_eta (s : State) : Store.mk s.pending s.regs s.out s.fresh s.rollMin s.now s.beam s.mvP s.tmsSet s.tmsAcc s.periodNext
    s.lofts s.hayloft s.lp5 s.keys s.signKey s.builderHash s.rtab s.stalls s.engs s.srvs s.seams s.ports s.axes s.sens s.bays s.txns s.lamps s.fars s.ctxs s.imgs s.tports s.traces s.cmpJobs s.cci = s.store := rfl

theorem ite_evolves {pm : Part → Bool} {a : Store} {c : Prop} [Decidable c] {s t : State} (hs : Evolves pm a s.store) (ht : Evolves pm a t.store) :
    Evolves pm a (if c then s else t).store := by split <;> assumption

theorem foldl_evolves {β : Type} {pm : Part → Bool} {a : Store} (f : State → β → State) (l : List β) {s : State}
    (hf : ∀ s b, Evolves pm a s.store → Evolves pm a (f s b).store) (h : Evolves pm a s.store) : Evolves pm a (l.foldl f s).store := by
  induction l generalizing s with
  | nil => exact h
  | cons b t ih => exact ih (hf s b h)

theorem forAll_evolves {n : Nat} {pm : Part → Bool} {a : Store} (f : Fin n → State → State) {s : State}
    (hf : ∀ i s, Evolves pm a s.store → Evolves pm a (f i s).store) (h : Evolves pm a s.store) : Evolves pm a (forAll n f s).store :=
  foldl_evolves _ _ (fun s i hs => hf i s hs) h

theorem wr_evolves {pm : Part → Bool} {a : Store} {s : State} (h : Evolves pm a s.store) (o : Nat) (v : Word) : Evolves pm a (wr s o v).store :=
  Evolves.wr o v h

theorem emit_evolves {pm : Part → Bool} {a : Store} {s : State} (h : Evolves pm a s.store) (o : Out) : Evolves pm a (Machine.emit o s).store :=
  Evolves.emit o h

theorem draw_evolves {pm : Part → Bool} {a : Store} {s : State} (h : Evolves pm a s.store) (tag : Nat) :
    Evolves pm a (Machine.draw tag s).2.store := Evolves.draw h

theorem draw_evolves' {pm : Part → Bool} {a : Store} {s v : State} {tag x : Nat} (e : Machine.draw tag s = (x, v))
    (h : Evolves pm a s.store) : Evolves pm a v.store := by
  have := draw_evolves h tag
  rw [e] at this; exact this

end Machine
end Sys2Proof
end

