-- ==== Sys2Proof/Laws/EvolvesOps.lean ====
section
/-!
SUPPORT. Every operation of Ops.lean is an evolution (Laws/Evolves.lean).
-/
namespace Sys2Proof
namespace Machine

variable {pm : Part → Bool} {a : Store} {s : State}

theorem wrN_evolves (h : Evolves pm a s.store) (o : Nat) (v : Nat) : Evolves pm a (wrN s o v).store := by
  unfold wrN
  repeat' first | with_reducible assumption | (with_reducible first | apply wr_evolves)

theorem put_evolves (h : Evolves pm a s.store) (f : Fld) (v : Nat) : Evolves pm a (put s f v).store := by
  unfold put
  repeat' first | with_reducible assumption | (with_reducible first | apply wrN_evolves)

theorem setF_evolves (h : Evolves pm a s.store) (f : Fld) : Evolves pm a (setF s f).store := by
  unfold setF
  repeat' first | with_reducible assumption | (with_reducible first | apply put_evolves)

theorem clrF_evolves (h : Evolves pm a s.store) (f : Fld) : Evolves pm a (clrF s f).store := by
  unfold clrF
  repeat' first | with_reducible assumption | (with_reducible first | apply put_evolves)

theorem wr64_evolves (h : Evolves pm a s.store) (o : Nat) (v : Nat) : Evolves pm a (wr64 s o v).store := by
  unfold wr64
  repeat' first | with_reducible assumption | (with_reducible first | apply wrN_evolves)

theorem addW_evolves (h : Evolves pm a s.store) (o : Nat) (n : Nat) : Evolves pm a (addW s o n).store := by
  unfold addW
  repeat' first | with_reducible assumption | (with_reducible first | apply wrN_evolves)

theorem addSat_evolves (h : Evolves pm a s.store) (o : Nat) (n : Nat) : Evolves pm a (addSat s o n).store := by
  unfold addSat
  repeat' first | with_reducible assumption | (with_reducible first | apply wrN_evolves)

theorem addSatF_evolves (h : Evolves pm a s.store) (f : Fld) (n : Nat) : Evolves pm a (addSatF s f n).store := by
  unfold addSatF
  repeat' first | with_reducible assumption | (with_reducible first | apply put_evolves)

theorem add64_evolves (h : Evolves pm a s.store) (o : Nat) (n : Nat) : Evolves pm a (add64 s o n).store := by
  unfold add64
  repeat' first | with_reducible assumption | (with_reducible first | apply wr64_evolves)

theorem wrI_evolves (h : Evolves pm a s.store) (o : Nat) (v : Int) : Evolves pm a (wrI s o v).store := by
  unfold wrI
  repeat' first | with_reducible assumption | (with_reducible first | apply wrN_evolves)

theorem lifeSet_evolves (h : Evolves pm a s.store) (k : Nat) (v : Nat) : Evolves pm a (lifeSet s k v).store := by
  unfold lifeSet
  repeat' first | with_reducible assumption | simp only [store_mk, store_eta]

theorem lifeAdd_evolves (h : Evolves pm a s.store) (k : Nat) (n : Nat) : Evolves pm a (lifeAdd s k n).store := by
  unfold lifeAdd
  repeat' first | with_reducible assumption | (with_reducible first | apply lifeSet_evolves)

theorem lifeMax_evolves (h : Evolves pm a s.store) (k : Nat) (v : Nat) : Evolves pm a (lifeMax s k v).store := by
  unfold lifeMax
  repeat' first | with_reducible assumption | (with_reducible first | apply ite_evolves | apply lifeSet_evolves)

theorem lifeTime_evolves (h : Evolves pm a s.store) (k : Nat) (dt : Nat) : Evolves pm a (lifeTime s k dt).store := by
  unfold lifeTime; try dsimp only
  repeat' first
    | with_reducible assumption | (with_reducible first | apply lifeAdd_evolves) | simp only [store_mk, store_eta]

end Machine
end Sys2Proof
end

