-- ==== Sys2Proof/Laws/EvolvesFrames.lean ====
section
/-!
SUPPORT. Every operation of Frames.lean is an evolution (Laws/Evolves.lean).
-/
namespace Sys2Proof
namespace Machine

variable {pm : Part → Bool} {a : Store} {s : State}

theorem sendFrame_evolves (h : Evolves pm a s.store) (b : Nat) (t : Option Nat) (blocks : List Nat) :
    Evolves pm a (sendFrame b t blocks s).store := by
  unfold sendFrame; try dsimp only
  repeat' first
    | with_reducible assumption | (intro _; try beta_reduce)
    | (with_reducible first | apply emit_evolves | apply draw_evolves | apply (draw_evolves' (by with_reducible assumption)))
    | simp only [store_mk, store_eta] | split

theorem sendControl_evolves (h : Evolves pm a s.store) (b : Nat) (t : Option Nat) (blocks : List Nat) :
    Evolves pm a (sendControl b t blocks s).store := by
  unfold sendControl; try dsimp only
  repeat' first
    | with_reducible assumption | (intro _; try beta_reduce)
    | (with_reducible first | apply emit_evolves | apply draw_evolves | apply (draw_evolves' (by with_reducible assumption)))
    | simp only [store_mk, store_eta] | split

end Machine
end Sys2Proof
end

