-- ==== Sys2Proof/Laws/EvolvesFlags.lean ====
section
/-!
SUPPORT. Every operation of Flags.lean is an evolution (Laws/Evolves.lean).
-/
namespace Sys2Proof
namespace Machine

variable {pm : Part → Bool} {a : Store} {s : State}

theorem signalOut_evolves (h : Evolves pm a s.store) (v : Nat) :
    Evolves pm a (signalOut v s).store := by
  unfold signalOut; try dsimp only
  repeat' first
    | with_reducible assumption | (intro _; try beta_reduce)
    | (with_reducible first | apply ite_evolves | apply emit_evolves | apply put_evolves)
    | simp only [store_mk, store_eta] | split

theorem signalVector_evolves (h : Evolves pm a s.store) (v : Nat) :
    Evolves pm a (signalVector v s).store := by
  unfold signalVector; try dsimp only
  repeat' first
    | with_reducible assumption | (intro _; try beta_reduce)
    | (with_reducible first | apply ite_evolves | apply signalOut_evolves)
    | simp only [store_mk, store_eta] | split

theorem oneCycle_evolves (h : Evolves pm a s.store) (f : State → State)
    (hk : ∀ u, Evolves pm a u.store → Evolves pm a (f u).store) :
    Evolves pm a (oneCycle f s).store := by
  unfold oneCycle; try dsimp only
  repeat' first
    | with_reducible assumption | (intro _; try beta_reduce)
    | (with_reducible first | apply hk)
    | simp only [store_mk, store_eta] | split

theorem recNew_evolves (h : Evolves pm a s.store) (kind : Nat) (source : Nat) (detail : List Nat) :
    Evolves pm a (recNew kind source detail s).store := by
  unfold recNew; try dsimp only
  repeat' first
    | with_reducible assumption
    | (with_reducible first | apply ite_evolves | apply addW_evolves | apply lifeAdd_evolves)
    | simp only [store_mk, store_eta]

theorem recRaise_evolves (h : Evolves pm a s.store) (n : Nat) : Evolves pm a (recRaise n s).store := by
  unfold recRaise
  repeat' first
    | with_reducible assumption | (with_reducible first | apply ite_evolves | apply recNew_evolves)
    | simp only [store_mk, store_eta] | split

theorem snapTrigger_evolves (h : Evolves pm a s.store) (t : SnapTrig) : Evolves pm a (snapTrigger t s).store := by
  unfold snapTrigger; try dsimp only
  repeat' first
    | with_reducible assumption | (intro _; try beta_reduce)
    | (with_reducible first | apply ite_evolves | apply addW_evolves | apply lifeAdd_evolves | apply setF_evolves)
    | simp only [store_mk, store_eta] | split

theorem raise_evolves (h : Evolves pm a s.store) (n : Nat) : Evolves pm a (raise n s).store := by
  unfold raise; try dsimp only
  repeat' first
    | with_reducible assumption
    | (with_reducible first | apply ite_evolves | apply addSatF_evolves | apply recRaise_evolves | apply setF_evolves | apply signalVector_evolves)
    | (with_reducible first | apply snapTrigger_evolves | apply wr64_evolves)

theorem raiseOnSet_evolves (h : Evolves pm a s.store) (f : Fld) (n : Nat) :
    Evolves pm a (raiseOnSet f n s).store := by
  unfold raiseOnSet
  repeat' first
    | with_reducible assumption
    | (with_reducible first | apply ite_evolves | apply raise_evolves | apply setF_evolves)

theorem worldFault_evolves (h : Evolves pm a s.store) (req : Nat) (ctx : Nat) (write : Bool) (bwt : Nat)
    (addr : Nat) :
    Evolves pm a (worldFault req ctx write bwt addr s).store := by
  unfold worldFault; try dsimp only
  repeat' first
    | with_reducible assumption
    | (with_reducible first | apply addW_evolves | apply lifeAdd_evolves | apply raise_evolves | apply setF_evolves | apply wr64_evolves)
    | (with_reducible first | apply wrN_evolves)

theorem accessErr_evolves (h : Evolves pm a s.store) (off : Nat) (kind : Nat) (window : Nat) :
    Evolves pm a (accessErr off kind window s).store := by
  unfold accessErr
  repeat' first | with_reducible assumption | (with_reducible first | apply wrN_evolves)

theorem regWorldFault_evolves (h : Evolves pm a s.store) (off : Nat) (write : Bool) :
    Evolves pm a (regWorldFault off write s).store := by
  unfold regWorldFault
  repeat' first
    | with_reducible assumption
    | (with_reducible first | apply accessErr_evolves | apply setF_evolves | apply worldFault_evolves)

end Machine
end Sys2Proof
end

