-- ==== Sys2Proof/Laws/EvolvesOperands.lean ====
section
/-!
SUPPORT. Every operation of Operands.lean is an evolution (Laws/Evolves.lean).
-/
namespace Sys2Proof
namespace Machine

variable {pm : Part → Bool} {a : Store} {s : State}

theorem hostWrite_evolves (h : Evolves pm a s.store) (sec : Bool) (o : Nat) (k : State → State)
    (hk : ∀ u, Evolves pm a u.store → Evolves pm a (k u).store) :
    Evolves pm a (hostWrite sec o k s).store := by
  unfold hostWrite
  repeat' first
    | with_reducible assumption
    | (with_reducible first | apply ite_evolves | apply regWorldFault_evolves | apply hk)

theorem secureWrite_evolves (h : Evolves pm a s.store) (sec : Bool) (o : Nat) (k : State → State)
    (hk : ∀ u, Evolves pm a u.store → Evolves pm a (k u).store) :
    Evolves pm a (secureWrite sec o k s).store := by
  unfold secureWrite
  repeat' first
    | with_reducible assumption
    | (with_reducible first | apply ite_evolves | apply regWorldFault_evolves | apply hk)

theorem wide_evolves (h : Evolves pm a s.store) (o : Nat) (wo : Bool) (w : Wr64) :
    Evolves pm a (wide o wo w s).1.store := by
  unfold wide
  repeat' first
    | with_reducible assumption | (with_reducible first | apply ite_evolves) | simp only [store_mk, store_eta]
    | split

theorem wide_evolves' {pm : Part → Bool} {a : Store} {sv : State} {xo : Option Nat} {s : State}  {o : Nat} {wo : Bool} {w : Wr64} (e : wide o wo w s = (sv, xo)) (h : Evolves pm a s.store) : Evolves pm a sv.store := by
  have := wide_evolves  h o wo w
  rw [e] at this; exact this

theorem withWide_evolves (h : Evolves pm a s.store) (o : Nat) (wo : Bool) (w : Wr64) (k : Nat → State → State)
    (hk : ∀ x0 u, Evolves pm a u.store → Evolves pm a (k x0 u).store) :
    Evolves pm a (withWide o wo w k s).store := by
  unfold withWide
  repeat' first
    | with_reducible assumption
    | (with_reducible first | apply wide_evolves | apply (wide_evolves' (by with_reducible assumption)) | apply hk)
    | simp only [store_mk, store_eta] | split

theorem setCtx_evolves (hp : pm .ctxs = true) (h : Evolves pm a s.store) (g : Fin 256) (f : Ctx → Ctx) :
    Evolves pm a (setCtx g f s).store := Evolves.ctxs hp _ h

theorem openValue_evolves (h : Evolves pm a s.store) (v : Option Nat) : Evolves pm a (openValue v s).2.store := by
  unfold openValue; try dsimp only
  repeat' first
    | with_reducible assumption
    | (with_reducible first | apply draw_evolves | apply (draw_evolves' (by with_reducible assumption)))
    | simp only [store_mk, store_eta] | split

theorem openValue_evolves' {pm : Part → Bool} {a : Store} {sv : State} {xo : Nat} {s : State}  {v : Option Nat} (e : openValue v s = (xo, sv)) (h : Evolves pm a s.store) : Evolves pm a sv.store := by
  have := openValue_evolves  h v
  rw [e] at this; exact this

theorem complete_evolves (h_ctxs : pm .ctxs = true) (h : Evolves pm a s.store) (c : Fin 256) (q : Nat) (st : Nat)
    (aa : Option Nat) (b : Option Nat) (staged : Bool) :
    Evolves pm a (complete c q st aa b staged s).store := by
  unfold complete; try dsimp only
  repeat' first
    | with_reducible assumption | (intro _; try beta_reduce)
    | (with_reducible first | apply openValue_evolves | apply setCtx_evolves | apply (openValue_evolves' (by with_reducible assumption)))
    | simp only [store_mk, store_eta] | split

theorem startDesc_evolves (h_ctxs : pm .ctxs = true) (h : Evolves pm a s.store) (c : Fin 256) (q : Nat) (aux : Nat) :
    Evolves pm a (startDesc c q aux s).store := by
  unfold startDesc
  repeat' first
    | with_reducible assumption | (intro _; try beta_reduce) | (with_reducible first | apply setCtx_evolves)
    | simp only [store_mk, store_eta]

theorem withDesc_evolves (h_ctxs : pm .ctxs = true) (h : Evolves pm a s.store) (c : Fin 256) (op : Nat)
    (k : Desc → State → State) (hk : ∀ x0 u, Evolves pm a u.store → Evolves pm a (k x0 u).store) :
    Evolves pm a (withDesc c op k s).store := by
  unfold withDesc
  repeat' first
    | with_reducible assumption | (with_reducible first | apply ite_evolves | apply startDesc_evolves | apply hk)
    | simp only [store_mk, store_eta] | split

theorem formatZero_evolves (h_ctxs : pm .ctxs = true) (h : Evolves pm a s.store) (c : Fin 256) (q : Nat) :
    Evolves pm a (formatZero c q s).store := by
  unfold formatZero
  repeat' first | with_reducible assumption | (with_reducible first | apply complete_evolves)

theorem blockCheck_evolves (h_ctxs : pm .ctxs = true) (h : Evolves pm a s.store) (c : Fin 256) (q : Nat) (b : Nat)
    (off : Nat) (k : State → State) (hk : ∀ u, Evolves pm a u.store → Evolves pm a (k u).store) :
    Evolves pm a (blockCheck c q b off k s).store := by
  unfold blockCheck
  repeat' first
    | with_reducible assumption
    | (with_reducible first | apply ite_evolves | apply complete_evolves | apply worldFault_evolves | apply hk)

theorem payloadFailAt_evolves (h_ctxs : pm .ctxs = true) (h : Evolves pm a s.store) (c : Fin 256) (q : Nat)
    (aa : Nat) (kind : Nat) (ra : Option Nat) :
    Evolves pm a (payloadFailAt c q aa kind ra s).store := by
  unfold payloadFailAt; try dsimp only
  repeat' first
    | with_reducible assumption | (intro _; try beta_reduce)
    | (with_reducible first | apply complete_evolves | apply lifeAdd_evolves | apply raise_evolves | apply setF_evolves | apply wr64_evolves | apply wrN_evolves)
    | simp only [store_mk, store_eta] | split

theorem payloadFail_evolves (h_ctxs : pm .ctxs = true) (h : Evolves pm a s.store) (c : Fin 256) (q : Nat) (aa : Nat)
    (kind : Nat) :
    Evolves pm a (payloadFail c q aa kind s).store := by
  unfold payloadFail; try dsimp only
  repeat' first
    | with_reducible assumption | (intro _; try beta_reduce)
    | (with_reducible first | apply payloadFailAt_evolves)
    | simp only [store_mk, store_eta] | split

theorem withPayload_evolves (h_ctxs : pm .ctxs = true) (h : Evolves pm a s.store) (c : Fin 256) (q : Nat)
    (r : DmaIn) (k : List Byte → State → State) (hk : ∀ x0 u, Evolves pm a u.store → Evolves pm a (k x0 u).store) :
    Evolves pm a (withPayload c q r k s).store := by
  unfold withPayload
  repeat' first
    | with_reducible assumption | (with_reducible first | apply payloadFail_evolves | apply hk)
    | simp only [store_mk, store_eta] | split

end Machine
end Sys2Proof
end

