-- ==== Sys2Proof/Laws/EvolvesHost.lean ====
section
/-!
SUPPORT. Every operation of Host.lean is an evolution (Laws/Evolves.lean).
-/
namespace Sys2Proof
namespace Machine

variable {pm : Part → Bool} {a : Store} {s : State}

theorem cmdStatus_evolves (h : Evolves pm a s.store) (c : Nat) (cmd : Nat) (result : Nat) :
    Evolves pm a (cmdStatus c cmd result s).store := by
  unfold cmdStatus
  repeat' first | with_reducible assumption | (with_reducible first | apply put_evolves)

theorem ctxCommand_evolves (h : Evolves pm a s.store) (sec : Bool) (c : Fin 256) (cmd : Nat) (k : State → State)
    (hk : ∀ u, Evolves pm a u.store → Evolves pm a (k u).store) :
    Evolves pm a (ctxCommand sec c cmd k s).store := by
  unfold ctxCommand
  repeat' first
    | with_reducible assumption | (intro _; try beta_reduce)
    | (with_reducible first | apply cmdStatus_evolves | apply hostWrite_evolves | apply hk)
    | simp only [store_mk, store_eta] | split

theorem ctxEnable_evolves (h_ctxs : pm .ctxs = true) (h : Evolves pm a s.store) (c : Fin 256) :
    Evolves pm a (ctxEnable c s).store := by
  unfold ctxEnable; try dsimp only
  repeat' first
    | with_reducible assumption | (intro _; try beta_reduce)
    | (with_reducible first | apply ite_evolves | apply cmdStatus_evolves | apply setCtx_evolves | apply wr64_evolves)
    | simp only [store_mk, store_eta]

theorem ctxDisable_evolves (h_ctxs : pm .ctxs = true) (h : Evolves pm a s.store) (c : Fin 256) :
    Evolves pm a (ctxDisable c s).store := by
  unfold ctxDisable; try dsimp only
  repeat' first
    | with_reducible assumption | (intro _; try beta_reduce)
    | (with_reducible first | apply ite_evolves | apply foldl_evolves | apply cmdStatus_evolves | apply complete_evolves | apply setCtx_evolves)
    | (with_reducible first | apply setF_evolves) | simp only [store_mk, store_eta]

theorem ctxResume_evolves (h_ctxs : pm .ctxs = true) (h : Evolves pm a s.store) (c : Fin 256) :
    Evolves pm a (ctxResume c s).store := by
  unfold ctxResume
  repeat' first
    | with_reducible assumption | (intro _; try beta_reduce)
    | (with_reducible first | apply ite_evolves | apply cmdStatus_evolves | apply setCtx_evolves)
    | simp only [store_mk, store_eta]

theorem execCtxEnable_evolves (h_ctxs : pm .ctxs = true) (h : Evolves pm a s.store) (sec : Bool) (c : Fin 256)
    {sx : State} (he : execCtxEnable sec c s = .next sx) :
    Evolves pm a sx.store := by
  unfold execCtxEnable at he; rw [← Host.Outcome.next.inj he]
  repeat' first
    | with_reducible assumption | (intro _; try beta_reduce)
    | (with_reducible first | apply ctxCommand_evolves | apply ctxEnable_evolves)

theorem execCtxDisable_evolves (h_ctxs : pm .ctxs = true) (h : Evolves pm a s.store) (sec : Bool) (c : Fin 256)
    {sx : State} (he : execCtxDisable sec c s = .next sx) :
    Evolves pm a sx.store := by
  unfold execCtxDisable at he; rw [← Host.Outcome.next.inj he]
  repeat' first
    | with_reducible assumption | (intro _; try beta_reduce)
    | (with_reducible first | apply ctxCommand_evolves | apply ctxDisable_evolves)

theorem execCtxResume_evolves (h_ctxs : pm .ctxs = true) (h : Evolves pm a s.store) (sec : Bool) (c : Fin 256)
    {sx : State} (he : execCtxResume sec c s = .next sx) :
    Evolves pm a sx.store := by
  unfold execCtxResume at he; rw [← Host.Outcome.next.inj he]
  repeat' first
    | with_reducible assumption | (intro _; try beta_reduce)
    | (with_reducible first | apply ctxCommand_evolves | apply ctxResume_evolves)

theorem ctxDrainDone_evolves (h_ctxs : pm .ctxs = true) (h : Evolves pm a s.store) (c : Fin 256) :
    Evolves pm a (ctxDrainDone c s).store := by
  unfold ctxDrainDone; try dsimp only
  repeat' first
    | with_reducible assumption | (intro _; try beta_reduce)
    | (with_reducible first | apply ite_evolves | apply clrF_evolves | apply cmdStatus_evolves | apply setCtx_evolves)
    | simp only [store_mk, store_eta]

theorem execCtxDrainDone_evolves (h_ctxs : pm .ctxs = true) (h : Evolves pm a s.store) (c : Fin 256) {sx : State}
    (he : execCtxDrainDone c s = .next sx) :
    Evolves pm a sx.store := by
  unfold execCtxDrainDone at he; rw [← Host.Outcome.next.inj he]
  repeat' first | with_reducible assumption | (with_reducible first | apply ctxDrainDone_evolves)

theorem execAtomicOpRequest_evolves (h : Evolves pm a s.store) (off : Nat) {sx : State} (he :
    execAtomicOpRequest off s = .next sx) :
    Evolves pm a sx.store := by
  unfold execAtomicOpRequest at he; rw [← Host.Outcome.next.inj he]
  repeat' first
    | with_reducible assumption | (intro _; try beta_reduce)
    | (with_reducible first | apply emit_evolves)
    | simp only [store_mk, store_eta] | split

theorem doorbellReject_evolves (h : Evolves pm a s.store) (off : Nat) (kind : Nat) :
    Evolves pm a (doorbellReject off kind s).store := by
  unfold doorbellReject
  repeat' first
    | with_reducible assumption
    | (with_reducible first | apply accessErr_evolves | apply raise_evolves | apply setF_evolves)

theorem doorbell_evolves (h_ctxs : pm .ctxs = true) (h : Evolves pm a s.store) (c : Fin 256) (off : Nat) (v : Nat)
    (f : Nat → Ctx → Ctx) :
    Evolves pm a (doorbell c off v f s).store := by
  unfold doorbell
  repeat' first
    | with_reducible assumption
    | (with_reducible first | apply ite_evolves | apply doorbellReject_evolves | apply setCtx_evolves)

theorem doorbellPage0_evolves (h : Evolves pm a s.store) (off : Nat) : Evolves pm a (doorbellPage0 off s).store := by
  unfold doorbellPage0
  repeat' first
    | with_reducible assumption
    | (with_reducible first | apply accessErr_evolves | apply setF_evolves | apply worldFault_evolves)

theorem sqTailDoorbell_evolves (h_ctxs : pm .ctxs = true) (h : Evolves pm a s.store) (c : Fin 256) (v : Word)
    (hi : Option Word) :
    Evolves pm a (sqTailDoorbell c v hi s).store := by
  unfold sqTailDoorbell; try dsimp only
  repeat' first
    | with_reducible assumption | (intro _; try beta_reduce)
    | (with_reducible first | apply ite_evolves | apply doorbellPage0_evolves | apply doorbell_evolves)
    | simp only [store_mk, store_eta] | split

theorem execSqTailDoorbell_evolves (h_ctxs : pm .ctxs = true) (h : Evolves pm a s.store) (c : Fin 256) (v : Word)
    (hi : Option Word) {sx : State} (he : execSqTailDoorbell c v hi s = .next sx) :
    Evolves pm a sx.store := by
  unfold execSqTailDoorbell at he; rw [← Host.Outcome.next.inj he]
  repeat' first | with_reducible assumption | (with_reducible first | apply sqTailDoorbell_evolves)

theorem cqHeadDoorbell_evolves (h_ctxs : pm .ctxs = true) (h : Evolves pm a s.store) (c : Fin 256) (v : Word) :
    Evolves pm a (cqHeadDoorbell c v s).store := by
  unfold cqHeadDoorbell
  repeat' first
    | with_reducible assumption | (intro _; try beta_reduce)
    | (with_reducible first | apply ite_evolves | apply doorbellPage0_evolves | apply doorbell_evolves)
    | simp only [store_mk, store_eta]

theorem execCqHeadDoorbell_evolves (h_ctxs : pm .ctxs = true) (h : Evolves pm a s.store) (c : Fin 256) (v : Word)
    {sx : State} (he : execCqHeadDoorbell c v s = .next sx) :
    Evolves pm a sx.store := by
  unfold execCqHeadDoorbell at he; rw [← Host.Outcome.next.inj he]
  repeat' first | with_reducible assumption | (with_reducible first | apply cqHeadDoorbell_evolves)

theorem doorbellRefused_evolves (h : Evolves pm a s.store) (off : Nat) (size : Nat) (write : Bool) :
    Evolves pm a (doorbellRefused off size write s).store := by
  unfold doorbellRefused; try dsimp only
  repeat' first
    | with_reducible assumption | (intro _; try beta_reduce)
    | (with_reducible first | apply ite_evolves | apply emit_evolves | apply accessErr_evolves | apply raise_evolves | apply setF_evolves)
    | simp only [store_mk, store_eta] | split

theorem doorbellAccessError_evolves (h : Evolves pm a s.store) (off : Nat) (size : Nat) (write : Bool) :
    Evolves pm a (doorbellAccessError off size write s).store := by
  unfold doorbellAccessError; try dsimp only
  repeat' first
    | with_reducible assumption | (intro _; try beta_reduce)
    | (with_reducible first | apply ite_evolves | apply emit_evolves | apply doorbellPage0_evolves | apply doorbellRefused_evolves)
    | simp only [store_mk, store_eta] | split

theorem execDoorbellAccessError_evolves (h : Evolves pm a s.store) (off : Nat) (acc : Nat × Bool) {sx :
    State} (he : execDoorbellAccessError off acc s = .next sx) :
    Evolves pm a sx.store := by
  unfold execDoorbellAccessError at he; rw [← Host.Outcome.next.inj he]
  repeat' first
    | with_reducible assumption | (intro _; try beta_reduce)
    | (with_reducible first | apply doorbellAccessError_evolves)
    | simp only [store_mk, store_eta] | split

theorem noteBurst_evolves (h : Evolves pm a s.store) (c : Fin 256) (cls : Nat) :
    Evolves pm a (noteBurst c cls s).store := by
  unfold noteBurst
  repeat' first
    | with_reducible assumption | (with_reducible first | apply ite_evolves) | simp only [store_mk, store_eta]

theorem takeDesc_evolves (h_ctxs : pm .ctxs = true) (h : Evolves pm a s.store) (c : Fin 256) (r : RawDesc) :
    Evolves pm a (takeDesc c r s).store := by
  unfold takeDesc; try dsimp only
  repeat' first
    | with_reducible assumption | (intro _; try beta_reduce)
    | (with_reducible first | apply ite_evolves | apply complete_evolves | apply setCtx_evolves | apply wrN_evolves)
    | simp only [store_mk, store_eta] | split

theorem fetchError_evolves (h_ctxs : pm .ctxs = true) (h : Evolves pm a s.store) (c : Fin 256) (kind : Nat) :
    Evolves pm a (fetchError c kind s).store := by
  unfold fetchError; try dsimp only
  repeat' first
    | with_reducible assumption | (intro _; try beta_reduce)
    | (with_reducible first | apply lifeAdd_evolves | apply raise_evolves | apply setCtx_evolves | apply setF_evolves | apply wr64_evolves)
    | (with_reducible first | apply wrN_evolves) | simp only [store_mk, store_eta]

theorem descriptorFetch_evolves (h_ctxs : pm .ctxs = true) (h : Evolves pm a s.store) (descs : List RawDesc)
    (err : Option Nat) :
    Evolves pm a (descriptorFetch descs err s).store := by
  unfold descriptorFetch; try dsimp only
  repeat' first
    | with_reducible assumption | (intro _; try beta_reduce)
    | (with_reducible first | apply ite_evolves | apply foldl_evolves | apply fetchError_evolves | apply noteBurst_evolves | apply setCtx_evolves)
    | (with_reducible first | apply takeDesc_evolves) | simp only [store_mk, store_eta] | split

theorem execDescriptorFetch_evolves (h_ctxs : pm .ctxs = true) (h : Evolves pm a s.store) (descs : List RawDesc)
    (err : Option Nat) {sx : State} (he : execDescriptorFetch descs err s = .next sx) :
    Evolves pm a sx.store := by
  unfold execDescriptorFetch at he; rw [← Host.Outcome.next.inj he]
  repeat' first | with_reducible assumption | (with_reducible first | apply descriptorFetch_evolves)

theorem irqRule_evolves (h_ctxs : pm .ctxs = true) (h : Evolves pm a s.store) (c : Fin 256) (bad : Bool)
    (irq : Bool) :
    Evolves pm a (irqRule c bad irq s).store := by
  unfold irqRule; try dsimp only
  repeat' first
    | with_reducible assumption | (intro _; try beta_reduce)
    | (with_reducible first | apply ite_evolves | apply setCtx_evolves | apply signalVector_evolves)
    | simp only [store_mk, store_eta]

theorem complReport_evolves (h : Evolves pm a s.store) (c : Fin 256) (dup : Bool) (st : Nat) :
    Evolves pm a (complReport c dup st s).store := by
  unfold complReport
  repeat' first
    | with_reducible assumption
    | (with_reducible first | apply ite_evolves | apply addW_evolves | apply lifeAdd_evolves | apply raise_evolves)

theorem errStopRule_evolves (h_ctxs : pm .ctxs = true) (h : Evolves pm a s.store) (c : Fin 256) (d : Desc)
    (st : Nat) :
    Evolves pm a (errStopRule c d st s).store := by
  unfold errStopRule
  repeat' first
    | with_reducible assumption | (intro _; try beta_reduce)
    | (with_reducible first | apply ite_evolves | apply raise_evolves | apply setCtx_evolves)
    | simp only [store_mk, store_eta]

theorem postRecord_evolves (h_ctxs : pm .ctxs = true) (h : Evolves pm a s.store) (c : Fin 256) (d : Desc)
    (rest : List Desc) (k : Compl) :
    Evolves pm a (postRecord c d rest k s).store := by
  unfold postRecord; try dsimp only
  repeat' first
    | with_reducible assumption | (intro _; try beta_reduce)
    | (with_reducible first | apply ite_evolves | apply emit_evolves | apply complReport_evolves | apply errStopRule_evolves | apply hostWrite_evolves | apply irqRule_evolves)
    | (with_reducible first | apply setCtx_evolves)
    | simp only [store_mk, store_eta] | split

theorem completionPost_evolves (h_ctxs : pm .ctxs = true) (h : Evolves pm a s.store) (c : Fin 256) :
    Evolves pm a (completionPost c s).store := by
  unfold completionPost; try dsimp only
  repeat' first
    | with_reducible assumption | (intro _; try beta_reduce)
    | (with_reducible first | apply ite_evolves | apply oneCycle_evolves | apply postRecord_evolves)
    | simp only [store_mk, store_eta] | split

theorem execCompletionPost_evolves (h_ctxs : pm .ctxs = true) (h : Evolves pm a s.store) (c : Fin 256) {sx : State}
    (he : execCompletionPost c s = .next sx) :
    Evolves pm a sx.store := by
  unfold execCompletionPost at he; rw [← Host.Outcome.next.inj he]
  repeat' first | with_reducible assumption | (with_reducible first | apply completionPost_evolves)

theorem duplicateCompletion_evolves (h_ctxs : pm .ctxs = true) (h : Evolves pm a s.store) (c : Fin 256) :
    Evolves pm a (duplicateCompletion c s).store := by
  unfold duplicateCompletion
  repeat' first
    | with_reducible assumption | (with_reducible first | apply ite_evolves | apply completionPost_evolves)
    | simp only [store_mk, store_eta] | split

theorem execDuplicateCompletion_evolves (h_ctxs : pm .ctxs = true) (h : Evolves pm a s.store) (c : Fin 256)
    {sx : State} (he : execDuplicateCompletion c s = .next sx) :
    Evolves pm a sx.store := by
  unfold execDuplicateCompletion at he; rw [← Host.Outcome.next.inj he]
  repeat' first | with_reducible assumption | (with_reducible first | apply duplicateCompletion_evolves)

theorem payloadReadError_evolves (h_ctxs : pm .ctxs = true) (h : Evolves pm a s.store) (c : Fin 256) (aa : Nat)
    (kind : Nat) :
    Evolves pm a (payloadReadError c aa kind s).store := by
  unfold payloadReadError
  repeat' first
    | with_reducible assumption | (intro _; try beta_reduce) | (with_reducible first | apply payloadFail_evolves)
    | simp only [store_mk, store_eta] | split

theorem execPayloadReadError_evolves (h_ctxs : pm .ctxs = true) (h : Evolves pm a s.store) (c : Fin 256) (aa : Nat)
    (kind : Nat) {sx : State} (he : execPayloadReadError c aa kind s = .next sx) :
    Evolves pm a sx.store := by
  unfold execPayloadReadError at he; rw [← Host.Outcome.next.inj he]
  repeat' first | with_reducible assumption | (with_reducible first | apply payloadReadError_evolves)

theorem irqAgeExpiry_evolves (h_ctxs : pm .ctxs = true) (h : Evolves pm a s.store) (c : Fin 256) :
    Evolves pm a (irqAgeExpiry c s).store := by
  unfold irqAgeExpiry; try dsimp only
  repeat' first
    | with_reducible assumption | (intro _; try beta_reduce)
    | (with_reducible first | apply ite_evolves | apply setCtx_evolves | apply signalVector_evolves)
    | simp only [store_mk, store_eta]

theorem execIrqAgeExpiry_evolves (h_ctxs : pm .ctxs = true) (h : Evolves pm a s.store) (c : Fin 256) {sx : State}
    (he : execIrqAgeExpiry c s = .next sx) :
    Evolves pm a sx.store := by
  unfold execIrqAgeExpiry at he; rw [← Host.Outcome.next.inj he]
  repeat' first | with_reducible assumption | (intro _ _) | (with_reducible first | apply oneCycle_evolves | apply irqAgeExpiry_evolves)

theorem bpTick_evolves (h_ctxs : pm .ctxs = true) (h : Evolves pm a s.store) (dt : Nat) :
    Evolves pm a (bpTick dt s).store := by
  unfold bpTick
  repeat' first
    | with_reducible assumption | (intro _; try beta_reduce)
    | (with_reducible first | apply ite_evolves | apply forAll_evolves | apply add64_evolves | apply lifeTime_evolves | apply setCtx_evolves)
    | simp only [store_mk, store_eta]

theorem hifBackpressure_evolves (h_ctxs : pm .ctxs = true) (h : Evolves pm a s.store) (c : Fin 256) :
    Evolves pm a (hifBackpressure c s).store := by
  unfold hifBackpressure; try dsimp only
  repeat' first
    | with_reducible assumption | (intro _; try beta_reduce)
    | (with_reducible first | apply ite_evolves | apply raise_evolves | apply setCtx_evolves)
    | simp only [store_mk, store_eta]

theorem execHifBackpressure_evolves (h_ctxs : pm .ctxs = true) (h : Evolves pm a s.store) (c : Fin 256) {sx : State}
    (he : execHifBackpressure c s = .next sx) :
    Evolves pm a sx.store := by
  unfold execHifBackpressure at he; rw [← Host.Outcome.next.inj he]
  repeat' first | with_reducible assumption | (with_reducible first | apply hifBackpressure_evolves)

theorem versionOfferWrite_evolves (h : Evolves pm a s.store) (v : Word) :
    Evolves pm a (versionOfferWrite v s).store := by
  unfold versionOfferWrite; try dsimp only
  repeat' first
    | with_reducible assumption | (intro _; try beta_reduce)
    | (with_reducible first | apply ite_evolves | apply put_evolves | apply raise_evolves | apply setF_evolves)

theorem execVersionOfferWrite_evolves (h : Evolves pm a s.store) (sec : Bool) (v : Word) {sx : State}
    (he : execVersionOfferWrite sec v s = .next sx) :
    Evolves pm a sx.store := by
  unfold execVersionOfferWrite at he; rw [← Host.Outcome.next.inj he]
  repeat' first
    | with_reducible assumption | (intro _; try beta_reduce)
    | (with_reducible first | apply hostWrite_evolves | apply versionOfferWrite_evolves)

theorem lastSeqWrite_evolves (h_ctxs : pm .ctxs = true) (h : Evolves pm a s.store) (c : Fin 256) (v : Word) :
    Evolves pm a (lastSeqWrite c v s).store := by
  unfold lastSeqWrite
  repeat' first
    | with_reducible assumption | (intro _; try beta_reduce)
    | (with_reducible first | apply ite_evolves | apply setCtx_evolves | apply wr_evolves)
    | simp only [store_mk, store_eta]

theorem execLastSeqWrite_evolves (h_ctxs : pm .ctxs = true) (h : Evolves pm a s.store) (sec : Bool) (c : Fin 256)
    (v : Word) {sx : State} (he : execLastSeqWrite sec c v s = .next sx) :
    Evolves pm a sx.store := by
  unfold execLastSeqWrite at he; rw [← Host.Outcome.next.inj he]
  repeat' first
    | with_reducible assumption | (intro _; try beta_reduce)
    | (with_reducible first | apply hostWrite_evolves | apply lastSeqWrite_evolves)

theorem mboxOverrun_evolves (h : Evolves pm a s.store) : Evolves pm a (mboxOverrun s).store := by
  unfold mboxOverrun
  repeat' first | with_reducible assumption | (with_reducible first | apply setF_evolves)

theorem mailboxPost_evolves (h : Evolves pm a s.store) (v : Word) : Evolves pm a (mailboxPost v s).store := by
  unfold mailboxPost
  repeat' first
    | with_reducible assumption
    | (with_reducible first | apply ite_evolves | apply clrF_evolves | apply mboxOverrun_evolves | apply put_evolves | apply setF_evolves)
    | simp only [store_mk, store_eta]

theorem execMailboxPost_evolves (h : Evolves pm a s.store) (v : Word) {sx : State}
    (he : execMailboxPost v s = .next sx) :
    Evolves pm a sx.store := by
  unfold execMailboxPost at he; rw [← Host.Outcome.next.inj he]
  repeat' first | with_reducible assumption | (with_reducible first | apply mailboxPost_evolves)

theorem mboxWrite_evolves (h : Evolves pm a s.store) (ws : List Nat) : Evolves pm a (mboxWrite ws s).store := by
  unfold mboxWrite
  repeat' first
    | with_reducible assumption | (intro _; try beta_reduce)
    | (with_reducible first | apply foldl_evolves | apply wrN_evolves)

theorem mailboxResponse_evolves (h : Evolves pm a s.store) : Evolves pm a (mailboxResponse s).store := by
  unfold mailboxResponse; try dsimp only
  repeat' first
    | with_reducible assumption
    | (with_reducible first | apply ite_evolves | apply clrF_evolves | apply mboxWrite_evolves | apply raise_evolves | apply setF_evolves)
    | simp only [store_mk, store_eta] | split

theorem execMailboxResponse_evolves (h : Evolves pm a s.store) {sx : State} (he : execMailboxResponse s = .next sx) :
    Evolves pm a sx.store := by
  unfold execMailboxResponse at he; rw [← Host.Outcome.next.inj he]
  repeat' first | with_reducible assumption | (with_reducible first | apply mailboxResponse_evolves)

theorem dataLinkUp_evolves (h : Evolves pm a s.store) (speed : Nat) (width : Nat) :
    Evolves pm a (dataLinkUp speed width s).store := by
  unfold dataLinkUp
  repeat' first
    | with_reducible assumption
    | (with_reducible first | apply put_evolves | apply raise_evolves | apply setF_evolves)

theorem execDataLinkUp_evolves (h : Evolves pm a s.store) (speed : Nat) (width : Nat) {sx : State}
    (he : execDataLinkUp speed width s = .next sx) :
    Evolves pm a sx.store := by
  unfold execDataLinkUp at he; rw [← Host.Outcome.next.inj he]
  repeat' first | with_reducible assumption | (with_reducible first | apply dataLinkUp_evolves)

theorem linkSpeedWidthChange_evolves (h : Evolves pm a s.store) (speed : Nat) (width : Nat) :
    Evolves pm a (linkSpeedWidthChange speed width s).store := by
  unfold linkSpeedWidthChange; try dsimp only
  repeat' first
    | with_reducible assumption
    | (with_reducible first | apply ite_evolves | apply lifeAdd_evolves | apply put_evolves | apply raise_evolves)

theorem execLinkSpeedWidthChange_evolves (h : Evolves pm a s.store) (speed : Nat) (width : Nat) {sx : State}
    (he : execLinkSpeedWidthChange speed width s = .next sx) :
    Evolves pm a sx.store := by
  unfold execLinkSpeedWidthChange at he; rw [← Host.Outcome.next.inj he]
  repeat' first | with_reducible assumption | (with_reducible first | apply linkSpeedWidthChange_evolves)

theorem execL1Change_evolves (h : Evolves pm a s.store) (inL1 : Bool) {sx : State}
    (he : execL1Change inL1 s = .next sx) :
    Evolves pm a sx.store := by
  unfold execL1Change at he; rw [← Host.Outcome.next.inj he]
  repeat' first | with_reducible assumption | (with_reducible first | apply put_evolves)

theorem opNop_evolves (h_ctxs : pm .ctxs = true) (h : Evolves pm a s.store) (c : Fin 256) (d : Desc) :
    Evolves pm a (opNop c d s).store := by
  unfold opNop
  repeat' first
    | with_reducible assumption
    | (with_reducible first | apply ite_evolves | apply complete_evolves | apply formatZero_evolves)

theorem execNop_evolves (h_ctxs : pm .ctxs = true) (h : Evolves pm a s.store) (c : Fin 256) {sx : State}
    (he : execNop c s = .next sx) :
    Evolves pm a sx.store := by
  unfold execNop at he; rw [← Host.Outcome.next.inj he]
  repeat' first
    | with_reducible assumption | (intro _; try beta_reduce)
    | (with_reducible first | apply opNop_evolves | apply withDesc_evolves)

theorem opWaitUntil_evolves (h_ctxs : pm .ctxs = true) (h : Evolves pm a s.store) (c : Fin 256) (d : Desc) :
    Evolves pm a (opWaitUntil c d s).store := by
  unfold opWaitUntil
  repeat' first
    | with_reducible assumption
    | (with_reducible first | apply ite_evolves | apply complete_evolves | apply formatZero_evolves)

theorem execWaitUntil_evolves (h_ctxs : pm .ctxs = true) (h : Evolves pm a s.store) (c : Fin 256) {sx : State}
    (he : execWaitUntil c s = .next sx) :
    Evolves pm a sx.store := by
  unfold execWaitUntil at he; rw [← Host.Outcome.next.inj he]
  repeat' first
    | with_reducible assumption | (intro _; try beta_reduce)
    | (with_reducible first | apply opWaitUntil_evolves | apply withDesc_evolves)

theorem waitUntilDone_evolves (h_ctxs : pm .ctxs = true) (h : Evolves pm a s.store) (c : Fin 256) :
    Evolves pm a (waitUntilDone c s).store := by
  unfold waitUntilDone
  repeat' first
    | with_reducible assumption | (intro _; try beta_reduce)
    | (with_reducible first | apply ite_evolves | apply complete_evolves) | simp only [store_mk, store_eta] | split

theorem execWaitUntilDone_evolves (h_ctxs : pm .ctxs = true) (h : Evolves pm a s.store) (c : Fin 256) {sx : State}
    (he : execWaitUntilDone c s = .next sx) :
    Evolves pm a sx.store := by
  unfold execWaitUntilDone at he; rw [← Host.Outcome.next.inj he]
  repeat' first | with_reducible assumption | (with_reducible first | apply waitUntilDone_evolves)

end Machine
end Sys2Proof
end

