-- ==== Sys2Proof/Laws/EvolvesRegions.lean ====
section
/-!
SUPPORT. Every operation of Regions.lean is an evolution (Laws/Evolves.lean).
-/
namespace Sys2Proof
namespace Machine

variable {pm : Part → Bool} {a : Store} {s : State}

theorem setLoft_evolves (hm : pm .mem = true) (h : Evolves pm a s.store) (st : Fin 6) (f : Mem → Mem)
    (hf : ∀ m : Mem, m.wf = true → (f m).wf = true) : Evolves pm a (setLoft st f s).store := Evolves.loft hm st f hf h

theorem heal_evolves (h : Evolves pm a s.store) (aa : Nat) (n : Nat) :
    Evolves pm a (heal aa n s).store := by
  unfold heal; try dsimp only
  repeat' first
    | with_reducible assumption | (intro _; try beta_reduce)
    | simp only [store_mk, store_eta] | split

theorem loftWrite_evolves (h_mem : pm .mem = true) (h : Evolves pm a s.store) (st : Fin 6) (off : Nat)
    (bs : List Byte) : Evolves pm a (loftWrite st off bs s).store :=
  heal_evolves (setLoft_evolves h_mem h st _ fun _ hm => memWrite_wf off bs hm) _ _

theorem wrLater_evolves (h : Evolves pm a s.store) (o : Nat) (v : Word) : Evolves pm a (wrLater o v s).store := by
  unfold wrLater; try dsimp only
  repeat' first
    | with_reducible assumption | (with_reducible first | apply wr_evolves) | simp only [store_mk, store_eta]
    | split

end Machine
end Sys2Proof
end

