-- ==== Sys2Proof/Laws/EvolvesStalls.lean ====
section
/-!
SUPPORT. Every operation of Stalls.lean is an evolution (Laws/Evolves.lean).
-/
namespace Sys2Proof
namespace Machine

variable {pm : Part → Bool} {a : Store} {s : State}

theorem setStall_evolves (hp : pm .stalls = true) (h : Evolves pm a s.store) (g : Fin 48) (f : Stall → Stall) :
    Evolves pm a (setStall g f s).store := Evolves.stalls hp _ h

theorem enterState_evolves (h : Evolves pm a s.store) (g : Nat) (c : Nat) :
    Evolves pm a (enterState g c s).store := by
  unfold enterState
  repeat' first | with_reducible assumption | (with_reducible first | apply put_evolves)

theorem tellStall_evolves (h_ctxs : pm .ctxs = true) (h : Evolves pm a s.store) (g : Nat) (ops : List Nat)
    (st : Nat) (aa : Option Nat) (b : Option Nat) :
    Evolves pm a (tellStall g ops st aa b s).store := by
  unfold tellStall
  repeat' first
    | with_reducible assumption | (intro _; try beta_reduce)
    | (with_reducible first | apply foldl_evolves | apply complete_evolves)

theorem showFree_evolves (h : Evolves pm a s.store) (g : Nat) : Evolves pm a (showFree g s).store := by
  unfold showFree
  repeat' first | with_reducible assumption | (with_reducible first | apply wrN_evolves)

theorem zeroPtrs_evolves (h : Evolves pm a s.store) (g : Nat) : Evolves pm a (zeroPtrs g s).store := by
  unfold zeroPtrs
  repeat' first | with_reducible assumption | (with_reducible first | apply showFree_evolves | apply wrN_evolves)

theorem replanFromRest_evolves (h_stalls : pm .stalls = true) (h : Evolves pm a s.store) (g : Fin 48) :
    Evolves pm a (replanFromRest g s).store := by
  unfold replanFromRest; try dsimp only
  repeat' first
    | with_reducible assumption | (intro _; try beta_reduce) | (with_reducible first | apply setStall_evolves)
    | simp only [store_mk, store_eta] | split

theorem showWindow_evolves (h : Evolves pm a s.store) (g : Fin 48) : Evolves pm a (showWindow g s).store := by
  unfold showWindow; try dsimp only
  repeat' first | with_reducible assumption | (intro _; try beta_reduce) | (with_reducible first | apply put_evolves)

theorem setSeam_evolves (hp : pm .seams = true) (h : Evolves pm a s.store) (g : Fin 192) (f : Seam → Seam) :
    Evolves pm a (setSeam g f s).store := Evolves.seams hp _ h

theorem showSeams_evolves (h : Evolves pm a s.store) : Evolves pm a (showSeams s).store := by
  unfold showSeams
  repeat' first | with_reducible assumption | (intro _; try beta_reduce) | (with_reducible first | apply put_evolves)

theorem freeSeam_evolves (h_seams : pm .seams = true) (h : Evolves pm a s.store) (i : Fin 192) :
    Evolves pm a (freeSeam i s).store := by
  unfold freeSeam
  repeat' first
    | with_reducible assumption | (intro _; try beta_reduce)
    | (with_reducible first | apply setSeam_evolves | apply showSeams_evolves)

theorem orphanSeam_evolves (h_seams : pm .seams = true) (h : Evolves pm a s.store) (i : Fin 192) :
    Evolves pm a (orphanSeam i s).store := by
  unfold orphanSeam
  repeat' first
    | with_reducible assumption | (intro _; try beta_reduce)
    | (with_reducible first | apply lifeAdd_evolves | apply raise_evolves | apply setF_evolves | apply setSeam_evolves | apply showSeams_evolves)
    | simp only [store_mk, store_eta]

theorem seamLoss_evolves (h_seams : pm .seams = true) (h : Evolves pm a s.store) (g : Nat) (abort : Bool) :
    Evolves pm a (seamLoss g abort s).store := by
  unfold seamLoss; try dsimp only
  repeat' first
    | with_reducible assumption | (intro _; try beta_reduce)
    | (with_reducible first | apply ite_evolves | apply forAll_evolves | apply orphanSeam_evolves | apply setSeam_evolves)
    | simp only [store_mk, store_eta] | dsimp only [id]

theorem outFlag_evolves (h : Evolves pm a s.store) (f : Fld) (g : Nat) : Evolves pm a (outFlag f g s).store := by
  unfold outFlag
  repeat' first | with_reducible assumption | (with_reducible first | apply raiseOnSet_evolves)

theorem writeArm_evolves (h : Evolves pm a s.store) (g : Nat) (aa : Arm) : Evolves pm a (writeArm g aa s).store := by
  unfold writeArm; try dsimp only
  repeat' first
    | with_reducible assumption
    | (with_reducible first | apply ite_evolves | apply add64_evolves | apply lifeAdd_evolves | apply outFlag_evolves | apply wrN_evolves)

theorem writeCutArm_evolves (h_stalls : pm .stalls = true) (h : Evolves pm a s.store) (g : Fin 48) :
    Evolves pm a (writeCutArm g s).store := by
  unfold writeCutArm
  repeat' first
    | with_reducible assumption | (intro _; try beta_reduce)
    | (with_reducible first | apply setStall_evolves | apply writeArm_evolves) | simp only [store_mk, store_eta]
    | split

theorem gateCut_evolves (h_stalls : pm .stalls = true) (h : Evolves pm a s.store) (g : Fin 48) :
    Evolves pm a (gateCut g s).store := by
  unfold gateCut; try dsimp only
  repeat' first
    | with_reducible assumption | (intro _; try beta_reduce)
    | (with_reducible first | apply ite_evolves | apply setStall_evolves)
    | simp only [store_mk, store_eta] | split

theorem setEng_evolves (hp : pm .engs = true) (h : Evolves pm a s.store) (g : Fin 48) (f : Eng → Eng) :
    Evolves pm a (setEng g f s).store := Evolves.engs hp _ h

theorem engIdle_evolves (h_engs : pm .engs = true) (h : Evolves pm a s.store) (g : Fin 48) :
    Evolves pm a (engIdle g s).store := by
  unfold engIdle
  repeat' first
    | with_reducible assumption | (intro _; try beta_reduce)
    | (with_reducible first | apply put_evolves | apply setEng_evolves) | simp only [store_mk, store_eta]

theorem enterIdle_evolves (h_engs : pm .engs = true) (h : Evolves pm a s.store) (g : Fin 48) :
    Evolves pm a (enterIdle g s).store := by
  unfold enterIdle
  repeat' first
    | with_reducible assumption | (with_reducible first | apply engIdle_evolves | apply enterState_evolves)

theorem countHold_evolves (h : Evolves pm a s.store) (g : Nat) (causes : Nat) :
    Evolves pm a (countHold g causes s).store := by
  unfold countHold
  repeat' first
    | with_reducible assumption | (intro _; try beta_reduce)
    | (with_reducible first | apply ite_evolves | apply foldl_evolves | apply lifeAdd_evolves)

theorem enterHold_evolves (h_ctxs : pm .ctxs = true) (h_stalls : pm .stalls = true) (h : Evolves pm a s.store)
    (g : Fin 48) (causes : Nat) (ret : Nat) :
    Evolves pm a (enterHold g causes ret s).store := by
  unfold enterHold; try dsimp only
  repeat' first
    | with_reducible assumption | (intro _; try beta_reduce)
    | (with_reducible first | apply clrF_evolves | apply countHold_evolves | apply put_evolves | apply raise_evolves | apply setStall_evolves)
    | (with_reducible first | apply tellStall_evolves) | simp only [store_mk, store_eta]

theorem addHold_evolves (h : Evolves pm a s.store) (g : Nat) (causes : Nat) :
    Evolves pm a (addHold g causes s).store := by
  unfold addHold
  repeat' first | with_reducible assumption | (with_reducible first | apply put_evolves)

theorem enterFault_evolves (h_ctxs : pm .ctxs = true) (h_seams : pm .seams = true) (h_stalls : pm .stalls = true)
    (h : Evolves pm a s.store) (g : Fin 48) (cause : Nat) :
    Evolves pm a (enterFault g cause s).store := by
  unfold enterFault; try dsimp only
  repeat' first
    | with_reducible assumption | (intro _; try beta_reduce)
    | (with_reducible first | apply clrF_evolves | apply enterState_evolves | apply gateCut_evolves | apply put_evolves | apply raise_evolves | apply seamLoss_evolves)
    | (with_reducible first | apply setStall_evolves | apply showWindow_evolves | apply tellStall_evolves | apply writeCutArm_evolves)
    | simp only [store_mk, store_eta] | split

theorem abortEnd_evolves (h_ctxs : pm .ctxs = true) (h_engs : pm .engs = true) (h_seams : pm .seams = true)
    (h_stalls : pm .stalls = true) (h : Evolves pm a s.store) (g : Fin 48) (code : Nat) :
    Evolves pm a (abortEnd g code s).store := by
  unfold abortEnd; try dsimp only
  repeat' first
    | with_reducible assumption | (intro _; try beta_reduce)
    | (with_reducible first | apply ite_evolves | apply clrF_evolves | apply enterIdle_evolves | apply enterState_evolves | apply seamLoss_evolves)
    | (with_reducible first | apply setStall_evolves | apply showWindow_evolves | apply tellStall_evolves | apply wrN_evolves | apply writeCutArm_evolves)
    | (with_reducible first | apply zeroPtrs_evolves) | simp only [store_mk, store_eta] | split

theorem enterRun_evolves (h_stalls : pm .stalls = true) (h : Evolves pm a s.store) (g : Fin 48) :
    Evolves pm a (enterRun g s).store := by
  unfold enterRun; try dsimp only
  repeat' first
    | with_reducible assumption | (intro _; try beta_reduce)
    | (with_reducible first | apply ite_evolves | apply enterState_evolves | apply setStall_evolves)
    | simp only [store_mk, store_eta]

theorem faultNext_evolves (h_stalls : pm .stalls = true) (h : Evolves pm a s.store) (g : Fin 48) (c : Nat) :
    Evolves pm a (faultNext g c s).store := by
  unfold faultNext; try dsimp only
  repeat' first
    | with_reducible assumption | (intro _; try beta_reduce)
    | (with_reducible first | apply ite_evolves | apply setStall_evolves)
    | simp only [store_mk, store_eta] | split

theorem ungate_evolves (h : Evolves pm a s.store) (u : Nat) :
    Evolves pm a (ungate u s).store := by
  unfold ungate; try dsimp only
  repeat' first
    | with_reducible assumption | (intro _; try beta_reduce)
    | (with_reducible first | apply ite_evolves | apply clrF_evolves)
    | simp only [store_mk, store_eta] | split

end Machine
end Sys2Proof
end

