-- ==== Sys2Proof/Laws/EvolvesBays.lean ====
section
/-!
SUPPORT. Every operation of Bays.lean is an evolution (Laws/Evolves.lean).
-/
namespace Sys2Proof
namespace Machine

variable {pm : Part → Bool} {a : Store} {s : State}

theorem showWait_evolves (h : Evolves pm a s.store) (g : Nat) : Evolves pm a (showWait g s).store := by
  unfold showWait
  repeat' first | with_reducible assumption | (with_reducible first | apply put_evolves)

end Machine
end Sys2Proof
end

