-- ==== Sys2Proof/Laws/EvolvesSequencer.lean ====
section
/-!
SUPPORT. Every operation of Sequencer.lean is an evolution (Laws/Evolves.lean).
-/
namespace Sys2Proof
namespace Machine

variable {pm : Part → Bool} {a : Store} {s : State}

theorem limitClamp_evolves (h : Evolves pm a s.store) (g : Nat) : Evolves pm a (limitClamp g s).store := by
  unfold limitClamp
  repeat' first
    | with_reducible assumption
    | (with_reducible first | apply addSat_evolves | apply lifeAdd_evolves | apply raiseOnSet_evolves)

theorem clampPower_evolves (h : Evolves pm a s.store) (g : Nat) (v : Nat) :
    Evolves pm a (clampPower g v s).2.store := by
  unfold clampPower
  repeat' first
    | with_reducible assumption | (with_reducible first | apply ite_evolves | apply limitClamp_evolves) | split

theorem clampPower_evolves' {pm : Part → Bool} {a : Store} {sv : State} {xo : Nat} {s : State}  {g : Nat} {v : Nat} (e : clampPower g v s = (xo, sv)) (h : Evolves pm a s.store) : Evolves pm a sv.store := by
  have := clampPower_evolves  h g v
  rw [e] at this; exact this

theorem clampSpeed_evolves (h : Evolves pm a s.store) (g : Nat) (v : Nat) :
    Evolves pm a (clampSpeed g v s).2.store := by
  unfold clampSpeed
  repeat' first
    | with_reducible assumption | (with_reducible first | apply ite_evolves | apply limitClamp_evolves) | split

theorem clampSpeed_evolves' {pm : Part → Bool} {a : Store} {sv : State} {xo : Nat} {s : State}  {g : Nat} {v : Nat} (e : clampSpeed g v s = (xo, sv)) (h : Evolves pm a s.store) : Evolves pm a sv.store := by
  have := clampSpeed_evolves  h g v
  rw [e] at this; exact this

theorem itemOf_evolves (h : Evolves pm a s.store) (g : Nat) (r : Raw) : Evolves pm a (itemOf g r s).2.store := by
  unfold itemOf; try dsimp only
  repeat' first
    | with_reducible assumption
    | (with_reducible first | apply ite_evolves | apply clampPower_evolves | apply clampSpeed_evolves | apply (clampPower_evolves' (by with_reducible assumption)) | apply (clampSpeed_evolves' (by with_reducible assumption)))
    | simp only [store_mk, store_eta] | split

theorem itemOf_evolves' {pm : Part → Bool} {a : Store} {sv : State} {xo : ItemK} {s : State}  {g : Nat} {r : Raw} (e : itemOf g r s = (xo, sv)) (h : Evolves pm a s.store) : Evolves pm a sv.store := by
  have := itemOf_evolves  h g r
  rw [e] at this; exact this

theorem pushItem_evolves (h_stalls : pm .stalls = true) (h : Evolves pm a s.store) (g : Fin 48) (off : Nat)
    (k : ItemK) (skip : Bool) (q' : Seq) :
    Evolves pm a (pushItem g off k skip q' s).store := by
  unfold pushItem; try dsimp only
  repeat' first
    | with_reducible assumption | (intro _; try beta_reduce)
    | (with_reducible first | apply ite_evolves | apply setStall_evolves | apply wrN_evolves)
    | simp only [store_mk, store_eta] | split

theorem seqStop_evolves (h_stalls : pm .stalls = true) (h : Evolves pm a s.store) (g : Fin 48) (why : Nat) :
    Evolves pm a (seqStop g why s).store := by
  unfold seqStop
  repeat' first
    | with_reducible assumption | (intro _; try beta_reduce) | (with_reducible first | apply setStall_evolves)
    | simp only [store_mk, store_eta]

theorem enterSection_evolves (h_stalls : pm .stalls = true) (h : Evolves pm a s.store) (g : Fin 48) (off : Nat)
    (id : Nat) (count : Nat) (own : Bool) :
    Evolves pm a (enterSection g off id count own s).store := by
  unfold enterSection
  repeat' first
    | with_reducible assumption | (intro _; try beta_reduce) | (with_reducible first | apply pushItem_evolves)
    | simp only [store_mk, store_eta] | dsimp only [id]

theorem registerSeam_evolves (h_seams : pm .seams = true) (h_stalls : pm .stalls = true) (h : Evolves pm a s.store)
    (first : Bool) (g : Fin 48) (off : Nat) (r : Raw) :
    Evolves pm a (registerSeam first g off r s).store := by
  unfold registerSeam; try dsimp only
  repeat' first
    | with_reducible assumption | (intro _; try beta_reduce)
    | (with_reducible first | apply ite_evolves | apply enterSection_evolves | apply lifeAdd_evolves | apply raise_evolves | apply raiseOnSet_evolves | apply seqStop_evolves)
    | (with_reducible first | apply setF_evolves | apply setSeam_evolves | apply showSeams_evolves)
    | simp only [store_mk, store_eta] | split

theorem skipOne_evolves (h_stalls : pm .stalls = true) (h : Evolves pm a s.store) (g : Fin 48) (off : Nat) :
    Evolves pm a (skipOne g off s).store := by
  unfold skipOne
  repeat' first | with_reducible assumption | (with_reducible first | apply pushItem_evolves)

theorem passSection_evolves (h_stalls : pm .stalls = true) (h : Evolves pm a s.store) (g : Fin 48) (off : Nat)
    (count : Nat) :
    Evolves pm a (passSection g off count s).store := by
  unfold passSection; try dsimp only
  repeat' first
    | with_reducible assumption | (intro _; try beta_reduce)
    | (with_reducible first | apply pushItem_evolves)
    | simp only [store_mk, store_eta] | split

theorem parseOne_evolves (h_seams : pm .seams = true) (h_stalls : pm .stalls = true) (h : Evolves pm a s.store)
    (g : Fin 48) :
    Evolves pm a (parseOne g s).store := by
  unfold parseOne; try dsimp only
  repeat' first
    | with_reducible assumption | (intro _; try beta_reduce)
    | (with_reducible first | apply ite_evolves | apply faultNext_evolves | apply itemOf_evolves | apply (itemOf_evolves' (by with_reducible assumption)) | apply passSection_evolves | apply pushItem_evolves)
    | (with_reducible first | apply registerSeam_evolves | apply setStall_evolves | apply skipOne_evolves)
    | simp only [store_mk, store_eta] | split

theorem parseCode_evolves (h_seams : pm .seams = true) (h_stalls : pm .stalls = true) (h : Evolves pm a s.store)
    (op : Nat) (g : Fin 48) :
    Evolves pm a (parseCode op g s).store := by
  unfold parseCode
  repeat' first | with_reducible assumption | (with_reducible first | apply ite_evolves | apply parseOne_evolves)

theorem parseAll_evolves {pm : Part → Bool} {a : Store} {s : State} (h_seams : pm .seams = true)
    (h_stalls : pm .stalls = true) (h : Evolves pm a s.store) (g : Fin 48) (n : Nat) :
    Evolves pm a (parseAll g n s).store := by
  induction n generalizing s with
  | zero => exact h
  | succ n ih => exact ite_evolves (ih (parseOne_evolves h_seams h_stalls h g)) h

theorem execScanNop_evolves (h_seams : pm .seams = true) (h_stalls : pm .stalls = true) (h : Evolves pm a s.store)
    (g : Fin 48) {sx : State} (he : execScanNop g s = .next sx) :
    Evolves pm a sx.store := by
  unfold execScanNop at he; rw [← Host.Outcome.next.inj he]
  repeat' first | with_reducible assumption | (with_reducible first | apply parseCode_evolves)

theorem execJump_evolves (h_seams : pm .seams = true) (h_stalls : pm .stalls = true) (h : Evolves pm a s.store)
    (g : Fin 48) {sx : State} (he : execJump g s = .next sx) :
    Evolves pm a sx.store := by
  unfold execJump at he; rw [← Host.Outcome.next.inj he]
  repeat' first | with_reducible assumption | (with_reducible first | apply parseCode_evolves)

theorem execMarkLine_evolves (h_seams : pm .seams = true) (h_stalls : pm .stalls = true) (h : Evolves pm a s.store)
    (g : Fin 48) {sx : State} (he : execMarkLine g s = .next sx) :
    Evolves pm a sx.store := by
  unfold execMarkLine at he; rw [← Host.Outcome.next.inj he]
  repeat' first | with_reducible assumption | (with_reducible first | apply parseCode_evolves)

theorem execMarkArc_evolves (h_seams : pm .seams = true) (h_stalls : pm .stalls = true) (h : Evolves pm a s.store)
    (g : Fin 48) {sx : State} (he : execMarkArc g s = .next sx) :
    Evolves pm a sx.store := by
  unfold execMarkArc at he; rw [← Host.Outcome.next.inj he]
  repeat' first | with_reducible assumption | (with_reducible first | apply parseCode_evolves)

theorem execPowerRamp_evolves (h_seams : pm .seams = true) (h_stalls : pm .stalls = true) (h : Evolves pm a s.store)
    (g : Fin 48) {sx : State} (he : execPowerRamp g s = .next sx) :
    Evolves pm a sx.store := by
  unfold execPowerRamp at he; rw [← Host.Outcome.next.inj he]
  repeat' first | with_reducible assumption | (with_reducible first | apply parseCode_evolves)

theorem execWobble_evolves (h_seams : pm .seams = true) (h_stalls : pm .stalls = true) (h : Evolves pm a s.store)
    (g : Fin 48) {sx : State} (he : execWobble g s = .next sx) :
    Evolves pm a sx.store := by
  unfold execWobble at he; rw [← Host.Outcome.next.inj he]
  repeat' first | with_reducible assumption | (with_reducible first | apply parseCode_evolves)

theorem execSpeedPower_evolves (h_seams : pm .seams = true) (h_stalls : pm .stalls = true)
    (h : Evolves pm a s.store) (g : Fin 48) {sx : State} (he : execSpeedPower g s = .next sx) :
    Evolves pm a sx.store := by
  unfold execSpeedPower at he; rw [← Host.Outcome.next.inj he]
  repeat' first | with_reducible assumption | (with_reducible first | apply parseCode_evolves)

theorem execDelaySet_evolves (h_seams : pm .seams = true) (h_stalls : pm .stalls = true) (h : Evolves pm a s.store)
    (g : Fin 48) {sx : State} (he : execDelaySet g s = .next sx) :
    Evolves pm a sx.store := by
  unfold execDelaySet at he; rw [← Host.Outcome.next.inj he]
  repeat' first | with_reducible assumption | (with_reducible first | apply parseCode_evolves)

theorem execCompareArm_evolves (h_seams : pm .seams = true) (h_stalls : pm .stalls = true)
    (h : Evolves pm a s.store) (g : Fin 48) {sx : State} (he : execCompareArm g s = .next sx) :
    Evolves pm a sx.store := by
  unfold execCompareArm at he; rw [← Host.Outcome.next.inj he]
  repeat' first | with_reducible assumption | (with_reducible first | apply parseCode_evolves)

theorem execIslandBegin_evolves (h_seams : pm .seams = true) (h_stalls : pm .stalls = true)
    (h : Evolves pm a s.store) (g : Fin 48) {sx : State} (he : execIslandBegin g s = .next sx) :
    Evolves pm a sx.store := by
  unfold execIslandBegin at he; rw [← Host.Outcome.next.inj he]
  repeat' first | with_reducible assumption | (with_reducible first | apply parseCode_evolves)

theorem execIslandEnd_evolves (h_seams : pm .seams = true) (h_stalls : pm .stalls = true) (h : Evolves pm a s.store)
    (g : Fin 48) {sx : State} (he : execIslandEnd g s = .next sx) :
    Evolves pm a sx.store := by
  unfold execIslandEnd at he; rw [← Host.Outcome.next.inj he]
  repeat' first | with_reducible assumption | (with_reducible first | apply parseCode_evolves)

theorem execLayerEnd_evolves (h_seams : pm .seams = true) (h_stalls : pm .stalls = true) (h : Evolves pm a s.store)
    (g : Fin 48) {sx : State} (he : execLayerEnd g s = .next sx) :
    Evolves pm a sx.store := by
  unfold execLayerEnd at he; rw [← Host.Outcome.next.inj he]
  repeat' first | with_reducible assumption | (with_reducible first | apply parseCode_evolves)

theorem execSyncBarrier_evolves (h_seams : pm .seams = true) (h_stalls : pm .stalls = true)
    (h : Evolves pm a s.store) (g : Fin 48) {sx : State} (he : execSyncBarrier g s = .next sx) :
    Evolves pm a sx.store := by
  unfold execSyncBarrier at he; rw [← Host.Outcome.next.inj he]
  repeat' first | with_reducible assumption | (with_reducible first | apply parseCode_evolves)

theorem execSeamHandover_evolves (h_seams : pm .seams = true) (h_stalls : pm .stalls = true)
    (h : Evolves pm a s.store) (g : Fin 48) {sx : State} (he : execSeamHandover g s = .next sx) :
    Evolves pm a sx.store := by
  unfold execSeamHandover at he; rw [← Host.Outcome.next.inj he]
  repeat' first | with_reducible assumption | (with_reducible first | apply parseCode_evolves)

theorem execProgramEnd_evolves (h_seams : pm .seams = true) (h_stalls : pm .stalls = true)
    (h : Evolves pm a s.store) (g : Fin 48) {sx : State} (he : execProgramEnd g s = .next sx) :
    Evolves pm a sx.store := by
  unfold execProgramEnd at he; rw [← Host.Outcome.next.inj he]
  repeat' first | with_reducible assumption | (with_reducible first | apply parseCode_evolves)

theorem seamPauseEnd_evolves (h_seams : pm .seams = true) (h_stalls : pm .stalls = true) (h : Evolves pm a s.store)
    (g : Fin 48) :
    Evolves pm a (seamPauseEnd g s).store := by
  unfold seamPauseEnd; try dsimp only
  repeat' first
    | with_reducible assumption | (intro _; try beta_reduce)
    | (with_reducible first | apply ite_evolves | apply registerSeam_evolves | apply seqStop_evolves | apply setStall_evolves)
    | simp only [store_mk, store_eta] | split

theorem execSeamPauseEnd_evolves (h_seams : pm .seams = true) (h_stalls : pm .stalls = true)
    (h : Evolves pm a s.store) (g : Fin 48) {sx : State} (he : execSeamPauseEnd g s = .next sx) :
    Evolves pm a sx.store := by
  unfold execSeamPauseEnd at he; rw [← Host.Outcome.next.inj he]
  repeat' first | with_reducible assumption | (with_reducible first | apply seamPauseEnd_evolves)

theorem unparse_evolves (h_stalls : pm .stalls = true) (h : Evolves pm a s.store) (g : Fin 48) (k : Nat) :
    Evolves pm a (unparse g k s).store := by
  unfold unparse; try dsimp only
  repeat' first
    | with_reducible assumption | (intro _; try beta_reduce)
    | (with_reducible first | apply setStall_evolves | apply wrN_evolves) | simp only [store_mk, store_eta] | split

end Machine
end Sys2Proof
end

