-- ==== Sys2Proof/Laws/EvolvesRunAhead.lean ====
section
/-!
SUPPORT. Every operation of RunAhead.lean is an evolution (Laws/Evolves.lean).
-/
namespace Sys2Proof
namespace Machine

variable {pm : Part → Bool} {a : Store} {s : State}

theorem trjFlag_evolves (h : Evolves pm a s.store) (i : Nat) (g : Nat) : Evolves pm a (trjFlag i g s).store := by
  unfold trjFlag
  repeat' first | with_reducible assumption | (with_reducible first | apply raiseOnSet_evolves)

theorem entryReports_evolves (h : Evolves pm a s.store) (g : Nat) (e : Entry) :
    Evolves pm a (entryReports g e s).store := by
  unfold entryReports; try dsimp only
  repeat' first
    | with_reducible assumption | (intro _; try beta_reduce)
    | (with_reducible first | apply ite_evolves | apply foldl_evolves | apply addSat_evolves | apply lifeAdd_evolves | apply trjFlag_evolves)

theorem storeEntry_evolves (h_stalls : pm .stalls = true) (h : Evolves pm a s.store) (g : Fin 48) (e : Entry) :
    Evolves pm a (storeEntry g e s).store := by
  unfold storeEntry
  repeat' first
    | with_reducible assumption | (intro _; try beta_reduce)
    | (with_reducible first | apply ite_evolves | apply entryReports_evolves | apply setStall_evolves)
    | simp only [store_mk, store_eta]

theorem gridRefused_evolves (h_stalls : pm .stalls = true) (h : Evolves pm a s.store) (g : Fin 48) :
    Evolves pm a (gridRefused g s).store := by
  unfold gridRefused; try dsimp only
  repeat' first
    | with_reducible assumption | (intro _; try beta_reduce)
    | (with_reducible first | apply ite_evolves | apply setStall_evolves)
    | simp only [store_mk, store_eta] | split

theorem reserveOne_evolves {pm : Part → Bool} {a : Store} {r : State × List (Fin 48 × Nat) × Nat}
    (h_stalls : pm .stalls = true) (h : Evolves pm a r.1.store) (g : Fin 48) :
    Evolves pm a (reserveOne r g).1.store := by
  unfold reserveOne
  dsimp only
  split
  · split
    · exact storeEntry_evolves h_stalls h g _
    · exact setStall_evolves h_stalls h g _
  · exact h

theorem reserve_evolves {pm : Part → Bool} {a : Store} {s : State} (h_stalls : pm .stalls = true)
    (h : Evolves pm a s.store) (st : Fin 6) :
    Evolves pm a (reserve st s).1.store := by
  unfold reserve
  suffices H : ∀ (l : List (Fin 48)) (r : State × List (Fin 48 × Nat) × Nat), Evolves pm a r.1.store →
      Evolves pm a (l.foldl reserveOne r).1.store from H _ _ h
  intro l
  induction l with
  | nil => exact fun r hr => hr
  | cons g t ih => exact fun r hr => ih _ (reserveOne_evolves h_stalls hr g)

theorem reserve_evolves' {pm : Part → Bool} {a : Store} {s sv : State} {st : Fin 6} {xo : List (Fin 48 × Nat) × Nat}
    (e : reserve st s = (sv, xo)) (h_stalls : pm .stalls = true) (h : Evolves pm a s.store) : Evolves pm a sv.store := by
  have := reserve_evolves h_stalls h st
  rw [e] at this; exact this

theorem refill_evolves {pm : Part → Bool} {a : Store} {s : State} (h_stalls : pm .stalls = true)
    (h : Evolves pm a s.store) (cap n : Nat) (l : List (Fin 48 × Nat)) (used : Nat) :
    Evolves pm a (refill cap n l used s).1.store := by
  induction n generalizing s l used with
  | zero => exact h
  | succ n ih =>
    unfold refill
    split
    · exact h
    · dsimp only
      split
      · split
        · exact h
        · exact ih (storeEntry_evolves h_stalls h _ _) _ _
      · exact ih (setStall_evolves h_stalls h _ _) _ _

theorem refill_evolves' {pm : Part → Bool} {a : Store} {s sv : State} {cap n : Nat} {l : List (Fin 48 × Nat)} {used xo : Nat} (e : refill cap n l used s = (sv, xo)) (h_stalls : pm .stalls = true) (h : Evolves pm a s.store) : Evolves pm a sv.store := by
  have := refill_evolves h_stalls h cap n l used
  rw [e] at this; exact this

theorem engineUsed_evolves (h : Evolves pm a s.store) (st : Fin 6) (cap : Nat) (used : Nat) :
    Evolves pm a (engineUsed st cap used s).store := by
  unfold engineUsed; try dsimp only
  repeat' first
    | with_reducible assumption
    | (with_reducible first | apply ite_evolves | apply lifeAdd_evolves | apply put_evolves)

theorem engineStep_evolves {pm : Part → Bool} {a : Store} {s : State} (h_stalls : pm .stalls = true)
    (h : Evolves pm a s.store) (st : Fin 6) :
    Evolves pm a (engineStep st s).store :=
  engineUsed_evolves (refill_evolves h_stalls (reserve_evolves h_stalls h st) _ _ _ _) st _ _

theorem holdTrim_evolves (h_stalls : pm .stalls = true) (h : Evolves pm a s.store) (g : Fin 48) :
    Evolves pm a (holdTrim g s).store := by
  unfold holdTrim; try dsimp only
  repeat' first
    | with_reducible assumption | (intro _; try beta_reduce)
    | (with_reducible first | apply ite_evolves | apply setStall_evolves)
    | simp only [store_mk, store_eta] | split

theorem bindSeam_evolves (h_seams : pm .seams = true) (h : Evolves pm a s.store) (g : Fin 48) (e : Entry) :
    Evolves pm a (bindSeam g e s).store := by
  unfold bindSeam; try dsimp only
  repeat' first
    | with_reducible assumption | (intro _; try beta_reduce)
    | (with_reducible first | apply ite_evolves | apply foldl_evolves | apply setSeam_evolves | apply showSeams_evolves)
    | simp only [store_mk, store_eta] | split

theorem commitOne_evolves (h_seams : pm .seams = true) (h_stalls : pm .stalls = true) (h : Evolves pm a s.store)
    (g : Fin 48) (e : Entry) :
    Evolves pm a (commitOne g e s).store := by
  unfold commitOne; try dsimp only
  repeat' first
    | with_reducible assumption | (intro _; try beta_reduce)
    | (with_reducible first | apply ite_evolves | apply bindSeam_evolves | apply setStall_evolves)
    | simp only [store_mk, store_eta] | split

theorem horizonLoop_evolves {pm : Part → Bool} {a : Store} {s : State} (h_seams : pm .seams = true)
    (h_stalls : pm .stalls = true) (h : Evolves pm a s.store) (g : Fin 48) (n : Nat) :
    Evolves pm a (horizonLoop g n s).store := by
  induction n generalizing s with
  | zero => exact h
  | succ n ih =>
    unfold horizonLoop
    dsimp only
    split
    · exact h
    · split
      · exact h
      · exact ite_evolves (ih (commitOne_evolves h_seams h_stalls h g _)) h

theorem horizonStep_evolves (h_seams : pm .seams = true) (h_stalls : pm .stalls = true) (h : Evolves pm a s.store)
    (g : Fin 48) :
    Evolves pm a (horizonStep g s).store := by
  unfold horizonStep; try dsimp only
  repeat' first
    | with_reducible assumption | (intro _; try beta_reduce)
    | (with_reducible first | apply ite_evolves | apply horizonLoop_evolves | apply setStall_evolves | apply showWindow_evolves)
    | simp only [store_mk, store_eta] | split

theorem countSquash_evolves (h : Evolves pm a s.store) (g : Nat) (mask : Nat) (n : Nat) :
    Evolves pm a (countSquash g mask n s).store := by
  unfold countSquash
  repeat' first
    | with_reducible assumption | (intro _; try beta_reduce)
    | (with_reducible first | apply ite_evolves | apply foldl_evolves | apply lifeAdd_evolves)

theorem discard_evolves (h_stalls : pm .stalls = true) (h : Evolves pm a s.store) (g : Fin 48) :
    Evolves pm a (discard g s).store := by
  unfold discard
  repeat' first
    | with_reducible assumption | (intro _; try beta_reduce) | (with_reducible first | apply setStall_evolves)
    | simp only [store_mk, store_eta]

theorem squash_evolves (h_stalls : pm .stalls = true) (h : Evolves pm a s.store) (g : Fin 48) (mask : Nat) :
    Evolves pm a (squash g mask s).store := by
  unfold squash; try dsimp only
  repeat' first
    | with_reducible assumption | (intro _; try beta_reduce)
    | (with_reducible first | apply ite_evolves | apply add64_evolves | apply addSat_evolves | apply countSquash_evolves | apply discard_evolves)
    | (with_reducible first | apply setF_evolves | apply setStall_evolves | apply showWindow_evolves | apply wr64_evolves | apply wrN_evolves)
    | simp only [store_mk, store_eta]

theorem squashDueStep_evolves (h_stalls : pm .stalls = true) (h : Evolves pm a s.store) (g : Fin 48) :
    Evolves pm a (squashDueStep g s).store := by
  unfold squashDueStep
  repeat' first | with_reducible assumption | (with_reducible first | apply ite_evolves | apply squash_evolves)

theorem execSquash_evolves (h_stalls : pm .stalls = true) (h : Evolves pm a s.store) (g : Fin 48) {sx : State}
    (he : execSquash g s = .next sx) :
    Evolves pm a sx.store := by
  unfold execSquash at he; rw [← Host.Outcome.next.inj he]
  repeat' first | with_reducible assumption | (with_reducible first | apply squashDueStep_evolves)

theorem latchSquash_evolves (h_stalls : pm .stalls = true) (h : Evolves pm a s.store) (g : Fin 48) (i : Nat) :
    Evolves pm a (latchSquash g i s).store := by
  unfold latchSquash
  repeat' first
    | with_reducible assumption | (intro _; try beta_reduce) | (with_reducible first | apply setStall_evolves)
    | simp only [store_mk, store_eta]

theorem releaseTo_evolves (h_stalls : pm .stalls = true) (h : Evolves pm a s.store) (g : Fin 48) (k : Nat) :
    Evolves pm a (releaseTo g k s).store := by
  unfold releaseTo; try dsimp only
  repeat' first
    | with_reducible assumption | (intro _; try beta_reduce)
    | (with_reducible first | apply ite_evolves | apply setStall_evolves | apply showFree_evolves | apply wrN_evolves)
    | simp only [store_mk, store_eta] | split

end Machine
end Sys2Proof
end

