-- ==== Sys2Proof/Laws/EvolvesErrors.lean ====
section
/-!
SUPPORT. Every operation of Errors.lean is an evolution (Laws/Evolves.lean).
-/
namespace Sys2Proof
namespace Machine

variable {pm : Part → Bool} {a : Store} {s : State}

theorem logError_evolves (h : Evolves pm a s.store) (kind : Nat) (synd : Nat) (ctx : Nat) (aa : Nat) :
    Evolves pm a (logError kind synd ctx aa s).store := by
  unfold logError; try dsimp only
  repeat' first
    | with_reducible assumption | (intro _; try beta_reduce)
    | (with_reducible first | apply ite_evolves | apply addSatF_evolves | apply put_evolves)
    | simp only [store_mk, store_eta] | split

theorem commandsLost_evolves (h_stalls : pm .stalls = true) (h : Evolves pm a s.store) (st : Fin 6) (o : Nat) :
    Evolves pm a (commandsLost st o s).store := by
  unfold commandsLost; try dsimp only
  repeat' first
    | with_reducible assumption | (intro _; try beta_reduce)
    | (with_reducible first | apply ite_evolves | apply foldl_evolves | apply faultNext_evolves)
    | simp only [store_mk, store_eta] | split

theorem noteBad_evolves (h : Evolves pm a s.store) (aa : Nat) :
    Evolves pm a (noteBad aa s).store := by
  unfold noteBad; try dsimp only
  repeat' first
    | with_reducible assumption | (intro _; try beta_reduce)
    | (with_reducible first | apply ite_evolves)
    | simp only [store_mk, store_eta] | split

theorem memError_evolves (h_stalls : pm .stalls = true) (h : Evolves pm a s.store) (kind : Nat) (synd : Nat)
    (ctx : Nat) (aa : Nat) :
    Evolves pm a (memError kind synd ctx aa s).store := by
  unfold memError; try dsimp only
  repeat' first
    | with_reducible assumption | (intro _; try beta_reduce)
    | (with_reducible first | apply ite_evolves | apply addSat_evolves | apply commandsLost_evolves | apply lifeAdd_evolves | apply logError_evolves | apply noteBad_evolves)
    | (with_reducible first | apply raise_evolves | apply raiseOnSet_evolves)
    | simp only [store_mk, store_eta] | split

theorem loftError_evolves (h_stalls : pm .stalls = true) (h : Evolves pm a s.store) (st : Fin 6) (base : Nat)
    (size : Nat) (kind : Nat) :
    Evolves pm a (loftError st base size kind s).store := by
  unfold loftError; try dsimp only
  repeat' first
    | with_reducible assumption | (intro _; try beta_reduce)
    | (with_reducible first | apply draw_evolves | apply (draw_evolves' (by with_reducible assumption)) | apply memError_evolves)
    | simp only [store_mk, store_eta] | split

theorem gridError_evolves (h_stalls : pm .stalls = true) (h : Evolves pm a s.store) (g : Fin 48) (kind : Nat) :
    Evolves pm a (gridError g kind s).store := by
  unfold gridError; try dsimp only
  repeat' first
    | with_reducible assumption | (intro _; try beta_reduce)
    | (with_reducible first | apply loftError_evolves | apply (loftError_evolves' (by with_reducible assumption)))
    | simp only [store_mk, store_eta] | split

theorem tableError_evolves (h_stalls : pm .stalls = true) (h : Evolves pm a s.store) (g : Fin 48) (kind : Nat) :
    Evolves pm a (tableError g kind s).store := by
  unfold tableError; try dsimp only
  repeat' first
    | with_reducible assumption | (intro _; try beta_reduce)
    | (with_reducible first | apply loftError_evolves | apply (loftError_evolves' (by with_reducible assumption)))
    | simp only [store_mk, store_eta] | split

theorem wordRead_evolves (h_stalls : pm .stalls = true) (h : Evolves pm a s.store) (aa : Nat) :
    Evolves pm a (wordRead aa s).store := by
  unfold wordRead; try dsimp only
  repeat' first
    | with_reducible assumption | (intro _; try beta_reduce)
    | (with_reducible first | apply ite_evolves | apply draw_evolves | apply (draw_evolves' (by with_reducible assumption)) | apply memError_evolves)
    | simp only [store_mk, store_eta] | split

end Machine
end Sys2Proof
end

