-- ==== Sys2Proof/Laws/EvolvesOutput.lean ====
section
/-!
SUPPORT. Every operation of Output.lean is an evolution (Laws/Evolves.lean).
-/
namespace Sys2Proof
namespace Machine

variable {pm : Part → Bool} {a : Store} {s : State}

theorem countPwrClamps_evolves (h : Evolves pm a s.store) (g : Nat) (n : Nat) :
    Evolves pm a (countPwrClamps g n s).store := by
  unfold countPwrClamps
  repeat' first
    | with_reducible assumption
    | (with_reducible first | apply ite_evolves | apply addSat_evolves | apply lifeAdd_evolves | apply outFlag_evolves)

theorem strokeStart_evolves (h_engs : pm .engs = true) (h_stalls : pm .stalls = true) (h : Evolves pm a s.store)
    (g : Fin 48) (st : Stroke) :
    Evolves pm a (strokeStart g st s).store := by
  unfold strokeStart; try dsimp only
  repeat' first
    | with_reducible assumption | (intro _; try beta_reduce)
    | (with_reducible first | apply ite_evolves | apply put_evolves | apply setEng_evolves | apply setStall_evolves | apply wrN_evolves)
    | simp only [store_mk, store_eta]

theorem strokeEnd_evolves (h : Evolves pm a s.store) (g : Fin 48) (st : Stroke) :
    Evolves pm a (strokeEnd g st s).store := by
  unfold strokeEnd; try dsimp only
  repeat' first
    | with_reducible assumption
    | (with_reducible first | apply add64_evolves | apply lifeAdd_evolves | apply writeArm_evolves)
    | simp only [store_mk, store_eta] | split

theorem islandDone_evolves (h : Evolves pm a s.store) (g : Fin 48) : Evolves pm a (islandDone g s).store := by
  unfold islandDone
  repeat' first
    | with_reducible assumption
    | (with_reducible first | apply ite_evolves | apply addW_evolves | apply clrF_evolves | apply wrN_evolves)

theorem islandStep_evolves (h_stalls : pm .stalls = true) (h : Evolves pm a s.store) (g : Fin 48) (item : Nat) :
    Evolves pm a (islandStep g item s).store := by
  unfold islandStep; try dsimp only
  repeat' first
    | with_reducible assumption | (intro _; try beta_reduce)
    | (with_reducible first | apply ite_evolves | apply islandDone_evolves | apply setF_evolves | apply setStall_evolves | apply wrN_evolves)
    | simp only [store_mk, store_eta] | split

theorem islandRest_evolves (h_stalls : pm .stalls = true) (h : Evolves pm a s.store) (g : Fin 48) :
    Evolves pm a (islandRest g s).store := by
  unfold islandRest; try dsimp only
  repeat' first
    | with_reducible assumption | (intro _; try beta_reduce)
    | (with_reducible first | apply ite_evolves | apply islandDone_evolves | apply setStall_evolves)
    | simp only [store_mk, store_eta] | split

theorem applyPower_evolves (h_stalls : pm .stalls = true) (h : Evolves pm a s.store) (g : Fin 48) :
    Evolves pm a (applyPower g s).store := by
  unfold applyPower
  repeat' first
    | with_reducible assumption | (intro _; try beta_reduce)
    | (with_reducible first | apply ite_evolves | apply setStall_evolves) | simp only [store_mk, store_eta] | split

theorem ballTick_evolves (h_stalls : pm .stalls = true) (h : Evolves pm a s.store) (g : Fin 48) :
    Evolves pm a (ballTick g s).store := by
  unfold ballTick; try dsimp only
  repeat' first
    | with_reducible assumption | (intro _; try beta_reduce)
    | (with_reducible first | apply ite_evolves | apply foldl_evolves | apply emit_evolves | apply setStall_evolves)
    | simp only [store_mk, store_eta] | split

theorem sendEdges_evolves (h_stalls : pm .stalls = true) (h : Evolves pm a s.store) (g : Fin 48) (gate : Bool)
    (edges : List (Bool × Nat)) :
    Evolves pm a (sendEdges g gate edges s).store := by
  unfold sendEdges; try dsimp only
  repeat' first
    | with_reducible assumption | (intro _; try beta_reduce)
    | (with_reducible first | apply ite_evolves | apply setStall_evolves)
    | simp only [store_mk, store_eta] | split

theorem showEntry_evolves (h : Evolves pm a s.store) (g : Fin 48) (e : Entry) :
    Evolves pm a (showEntry g e s).store := by
  unfold showEntry; try dsimp only
  repeat' first
    | with_reducible assumption | (with_reducible first | apply put_evolves | apply wrI_evolves | apply wrN_evolves)

theorem openBin_evolves (h_engs : pm .engs = true) (h : Evolves pm a s.store) (g : Fin 48) (e : Entry) :
    Evolves pm a (openBin g e s).store := by
  unfold openBin; try dsimp only
  repeat' first
    | with_reducible assumption | (intro _; try beta_reduce) | (with_reducible first | apply setEng_evolves)
    | simp only [store_mk, store_eta]

theorem outputEntry_evolves (h_engs : pm .engs = true) (h_stalls : pm .stalls = true) (h : Evolves pm a s.store)
    (g : Fin 48) (e : Entry) (rest : List Entry) :
    Evolves pm a (outputEntry g e rest s).store := by
  unfold outputEntry; try dsimp only
  repeat' first
    | with_reducible assumption | (intro _; try beta_reduce)
    | (with_reducible first | apply ite_evolves | apply foldl_evolves | apply add64_evolves | apply addSat_evolves | apply applyPower_evolves | apply islandStep_evolves)
    | (with_reducible first | apply lifeTime_evolves | apply openBin_evolves | apply put_evolves | apply releaseTo_evolves | apply sendEdges_evolves | apply setStall_evolves)
    | (with_reducible first | apply showEntry_evolves | apply strokeEnd_evolves | apply strokeStart_evolves)
    | simp only [store_mk, store_eta] | split

theorem outputNone_evolves (h_stalls : pm .stalls = true) (h : Evolves pm a s.store) (g : Fin 48) :
    Evolves pm a (outputNone g s).store := by
  unfold outputNone; try dsimp only
  repeat' first
    | with_reducible assumption | (intro _; try beta_reduce)
    | (with_reducible first | apply ite_evolves | apply islandRest_evolves | apply put_evolves | apply releaseTo_evolves | apply sendEdges_evolves | apply setStall_evolves)
    | (with_reducible first | apply wrN_evolves)
    | simp only [store_mk, store_eta] | split

theorem outputStep_evolves (h_engs : pm .engs = true) (h_stalls : pm .stalls = true) (h : Evolves pm a s.store)
    (g : Fin 48) :
    Evolves pm a (outputStep g s).store := by
  unfold outputStep; try dsimp only
  repeat' first
    | with_reducible assumption | (intro _; try beta_reduce)
    | (with_reducible first | apply ite_evolves | apply ballTick_evolves | apply outputEntry_evolves | apply outputNone_evolves | apply showWindow_evolves)
    | simp only [store_mk, store_eta] | split

theorem countSamples_evolves (h : Evolves pm a s.store) (g : Fin 48) :
    Evolves pm a (countSamples g s).store := by
  unfold countSamples; try dsimp only
  repeat' first
    | with_reducible assumption | (intro _; try beta_reduce)
    | (with_reducible first | apply countPwrClamps_evolves)
    | simp only [store_mk, store_eta] | split

theorem setpointFrame_evolves (h : Evolves pm a s.store) (b : Nat) :
    Evolves pm a (setpointFrame b s).store := by
  unfold setpointFrame; try dsimp only
  repeat' first
    | with_reducible assumption | (intro _; try beta_reduce)
    | (with_reducible first | apply ite_evolves | apply sendFrame_evolves)
    | simp only [store_mk, store_eta] | split

end Machine
end Sys2Proof
end

