-- ==== Sys2Proof/Laws/EvolvesScan.lean ====
section
/-!
SUPPORT. Every operation of Scan.lean is an evolution (Laws/Evolves.lean).
-/
namespace Sys2Proof
namespace Machine

variable {pm : Part → Bool} {a : Store} {s : State}

theorem mvUnderrun_evolves (h_ctxs : pm .ctxs = true) (h_seams : pm .seams = true) (h_stalls : pm .stalls = true)
    (h : Evolves pm a s.store) (g : Fin 48) :
    Evolves pm a (mvUnderrun g s).store := by
  unfold mvUnderrun
  repeat' first
    | with_reducible assumption
    | (with_reducible first | apply ite_evolves | apply enterFault_evolves | apply lifeAdd_evolves)

theorem execMvUnderrun_evolves (h_ctxs : pm .ctxs = true) (h_seams : pm .seams = true)
    (h_stalls : pm .stalls = true) (h : Evolves pm a s.store) (g : Fin 48) {sx : State}
    (he : execMvUnderrun g s = .next sx) :
    Evolves pm a sx.store := by
  unfold execMvUnderrun at he; rw [← Host.Outcome.next.inj he]
  repeat' first | with_reducible assumption | (with_reducible first | apply mvUnderrun_evolves)

theorem programError_evolves (h_ctxs : pm .ctxs = true) (h_seams : pm .seams = true) (h_stalls : pm .stalls = true)
    (h : Evolves pm a s.store) (g : Fin 48) :
    Evolves pm a (programError g s).store := by
  unfold programError; try dsimp only
  repeat' first
    | with_reducible assumption
    | (with_reducible first | apply ite_evolves | apply enterFault_evolves | apply lifeAdd_evolves | apply raise_evolves | apply wrN_evolves)

theorem execProgramError_evolves (h_ctxs : pm .ctxs = true) (h_seams : pm .seams = true)
    (h_stalls : pm .stalls = true) (h : Evolves pm a s.store) (g : Fin 48) {sx : State}
    (he : execProgramError g s = .next sx) :
    Evolves pm a sx.store := by
  unfold execProgramError at he; rw [← Host.Outcome.next.inj he]
  repeat' first | with_reducible assumption | (with_reducible first | apply programError_evolves)

theorem seamHold_evolves (h_ctxs : pm .ctxs = true) (h_stalls : pm .stalls = true) (h : Evolves pm a s.store)
    (g : Fin 48) :
    Evolves pm a (seamHold g s).store := by
  unfold seamHold
  repeat' first | with_reducible assumption | (with_reducible first | apply ite_evolves | apply enterHold_evolves)

theorem execSeamHold_evolves (h_ctxs : pm .ctxs = true) (h_stalls : pm .stalls = true) (h : Evolves pm a s.store)
    (g : Fin 48) {sx : State} (he : execSeamHold g s = .next sx) :
    Evolves pm a sx.store := by
  unfold execSeamHold at he; rw [← Host.Outcome.next.inj he]
  repeat' first | with_reducible assumption | (with_reducible first | apply seamHold_evolves)

theorem programEmpty_evolves (h_ctxs : pm .ctxs = true) (h_stalls : pm .stalls = true) (h : Evolves pm a s.store)
    (g : Fin 48) :
    Evolves pm a (programEmpty g s).store := by
  unfold programEmpty
  repeat' first | with_reducible assumption | (with_reducible first | apply ite_evolves | apply enterHold_evolves)

theorem execProgramEmpty_evolves (h_ctxs : pm .ctxs = true) (h_stalls : pm .stalls = true)
    (h : Evolves pm a s.store) (g : Fin 48) {sx : State} (he : execProgramEmpty g s = .next sx) :
    Evolves pm a sx.store := by
  unfold execProgramEmpty at he; rw [← Host.Outcome.next.inj he]
  repeat' first | with_reducible assumption | (with_reducible first | apply programEmpty_evolves)

theorem programEmptyCleared_evolves (h_stalls : pm .stalls = true) (h : Evolves pm a s.store) (g : Fin 48) :
    Evolves pm a (programEmptyCleared g s).store := by
  unfold programEmptyCleared; try dsimp only
  repeat' first
    | with_reducible assumption | (intro _; try beta_reduce)
    | (with_reducible first | apply ite_evolves | apply put_evolves | apply setStall_evolves)
    | simp only [store_mk, store_eta]

theorem execProgramEmptyCleared_evolves (h_stalls : pm .stalls = true) (h : Evolves pm a s.store) (g : Fin 48)
    {sx : State} (he : execProgramEmptyCleared g s = .next sx) :
    Evolves pm a sx.store := by
  unfold execProgramEmptyCleared at he; rw [← Host.Outcome.next.inj he]
  repeat' first | with_reducible assumption | (with_reducible first | apply programEmptyCleared_evolves)

theorem noteStarved_evolves (h : Evolves pm a s.store) (g : Fin 48) :
    Evolves pm a (noteStarved g s).store := by
  unfold noteStarved; try dsimp only
  repeat' first
    | with_reducible assumption | (intro _; try beta_reduce)
    | (with_reducible first | apply addSat_evolves | apply lifeAdd_evolves)
    | simp only [store_mk, store_eta] | split

theorem starvedHold_evolves (h_ctxs : pm .ctxs = true) (h_stalls : pm .stalls = true) (h : Evolves pm a s.store)
    (g : Fin 48) :
    Evolves pm a (starvedHold g s).store := by
  unfold starvedHold; try dsimp only
  repeat' first
    | with_reducible assumption | (intro _; try beta_reduce)
    | (with_reducible first | apply ite_evolves | apply enterHold_evolves | apply noteStarved_evolves)
    | simp only [store_mk, store_eta] | split

theorem execStarvedHold_evolves (h_ctxs : pm .ctxs = true) (h_stalls : pm .stalls = true) (h : Evolves pm a s.store)
    (g : Fin 48) {sx : State} (he : execStarvedHold g s = .next sx) :
    Evolves pm a sx.store := by
  unfold execStarvedHold at he; rw [← Host.Outcome.next.inj he]
  repeat' first | with_reducible assumption | (with_reducible first | apply starvedHold_evolves)

theorem starvedCleared_evolves (h : Evolves pm a s.store) (g : Fin 48) :
    Evolves pm a (starvedCleared g s).store := by
  unfold starvedCleared; try dsimp only
  repeat' first | with_reducible assumption | (with_reducible first | apply ite_evolves | apply put_evolves)

theorem execStarvedCleared_evolves (h : Evolves pm a s.store) (g : Fin 48) {sx : State}
    (he : execStarvedCleared g s = .next sx) :
    Evolves pm a sx.store := by
  unfold execStarvedCleared at he; rw [← Host.Outcome.next.inj he]
  repeat' first | with_reducible assumption | (with_reducible first | apply starvedCleared_evolves)

theorem passMarker_evolves (h_stalls : pm .stalls = true) (h : Evolves pm a s.store) (g : Fin 48) :
    Evolves pm a (passMarker g s).store := by
  unfold passMarker; try dsimp only
  repeat' first
    | with_reducible assumption | (intro _; try beta_reduce)
    | (with_reducible first | apply releaseTo_evolves | apply setStall_evolves) | simp only [store_mk, store_eta]
    | split

theorem layerEndReached_evolves (h_stalls : pm .stalls = true) (h : Evolves pm a s.store) (g : Fin 48) :
    Evolves pm a (layerEndReached g s).store := by
  unfold layerEndReached
  repeat' first
    | with_reducible assumption
    | (with_reducible first | apply enterState_evolves | apply passMarker_evolves | apply wrN_evolves)
    | simp only [store_mk, store_eta] | split

theorem execLayerEndReached_evolves (h_stalls : pm .stalls = true) (h : Evolves pm a s.store) (g : Fin 48)
    {sx : State} (he : execLayerEndReached g s = .next sx) :
    Evolves pm a sx.store := by
  unfold execLayerEndReached at he; rw [← Host.Outcome.next.inj he]
  repeat' first | with_reducible assumption | (with_reducible first | apply layerEndReached_evolves)

theorem beginSync_evolves (h_stalls : pm .stalls = true) (h : Evolves pm a s.store) (g : Fin 48) (mask : Nat)
    (id : Nat) (tmo : Nat) :
    Evolves pm a (beginSync g mask id tmo s).store := by
  unfold beginSync
  repeat' first
    | with_reducible assumption | (intro _; try beta_reduce)
    | (with_reducible first | apply put_evolves | apply setStall_evolves) | simp only [store_mk, store_eta]
    | dsimp only [id]

theorem syncBarrierReached_evolves (h_stalls : pm .stalls = true) (h : Evolves pm a s.store) (g : Fin 48) :
    Evolves pm a (syncBarrierReached g s).store := by
  unfold syncBarrierReached
  repeat' first
    | with_reducible assumption | (intro _; try beta_reduce)
    | (with_reducible first | apply beginSync_evolves | apply enterState_evolves | apply passMarker_evolves)
    | simp only [store_mk, store_eta] | split | dsimp only [id]

theorem execSyncBarrierReached_evolves (h_stalls : pm .stalls = true) (h : Evolves pm a s.store) (g : Fin 48)
    {sx : State} (he : execSyncBarrierReached g s = .next sx) :
    Evolves pm a sx.store := by
  unfold execSyncBarrierReached at he; rw [← Host.Outcome.next.inj he]
  repeat' first | with_reducible assumption | (with_reducible first | apply syncBarrierReached_evolves)

theorem restIdle_evolves (h_stalls : pm .stalls = true) (h : Evolves pm a s.store) (g : Fin 48) :
    Evolves pm a (restIdle g s).store := by
  unfold restIdle; try dsimp only
  repeat' first
    | with_reducible assumption | (intro _; try beta_reduce)
    | (with_reducible first | apply ite_evolves | apply replanFromRest_evolves | apply setStall_evolves)
    | simp only [store_mk, store_eta] | split

theorem programEndReached_evolves (h_ctxs : pm .ctxs = true) (h_engs : pm .engs = true)
    (h_stalls : pm .stalls = true) (h : Evolves pm a s.store) (g : Fin 48) :
    Evolves pm a (programEndReached g s).store := by
  unfold programEndReached; try dsimp only
  repeat' first
    | with_reducible assumption | (intro _; try beta_reduce)
    | (with_reducible first | apply clrF_evolves | apply enterIdle_evolves | apply passMarker_evolves | apply restIdle_evolves | apply setStall_evolves)
    | (with_reducible first | apply tellStall_evolves) | simp only [store_mk, store_eta] | split

theorem execProgramEndReached_evolves (h_ctxs : pm .ctxs = true) (h_engs : pm .engs = true)
    (h_stalls : pm .stalls = true) (h : Evolves pm a s.store) (g : Fin 48) {sx : State}
    (he : execProgramEndReached g s = .next sx) :
    Evolves pm a sx.store := by
  unfold execProgramEndReached at he; rw [← Host.Outcome.next.inj he]
  repeat' first | with_reducible assumption | (with_reducible first | apply programEndReached_evolves)

theorem judgeBarriers_evolves (h_stalls : pm .stalls = true) (h : Evolves pm a s.store) :
    Evolves pm a (judgeBarriers s).store := by
  unfold judgeBarriers
  repeat' first
    | with_reducible assumption | (intro _; try beta_reduce)
    | (with_reducible first | apply ite_evolves | apply forAll_evolves | apply setStall_evolves)
    | simp only [store_mk, store_eta]

theorem layerTimer_evolves (h : Evolves pm a s.store) (g : Nat) : Evolves pm a (layerTimer g s).store := by
  unfold layerTimer
  repeat' first
    | with_reducible assumption | (with_reducible first | apply ite_evolves | apply setF_evolves)
    | simp only [store_mk, store_eta]

theorem goRun_evolves (h_stalls : pm .stalls = true) (h : Evolves pm a s.store) (g : Fin 48) :
    Evolves pm a (goRun g s).store := by
  unfold goRun
  repeat' first
    | with_reducible assumption | (with_reducible first | apply enterRun_evolves | apply layerTimer_evolves)

theorem syncBarrierRelease_evolves (h_stalls : pm .stalls = true) (h : Evolves pm a s.store) (g : Fin 48) :
    Evolves pm a (syncBarrierRelease g s).store := by
  unfold syncBarrierRelease
  repeat' first
    | with_reducible assumption | (intro _; try beta_reduce)
    | (with_reducible first | apply ite_evolves | apply foldl_evolves | apply goRun_evolves | apply setStall_evolves)
    | simp only [store_mk, store_eta] | split

theorem execSyncBarrierRelease_evolves (h_stalls : pm .stalls = true) (h : Evolves pm a s.store) (g : Fin 48)
    {sx : State} (he : execSyncBarrierRelease g s = .next sx) :
    Evolves pm a sx.store := by
  unfold execSyncBarrierRelease at he; rw [← Host.Outcome.next.inj he]
  repeat' first | with_reducible assumption | (with_reducible first | apply syncBarrierRelease_evolves)

theorem syncMismatch_evolves (h_ctxs : pm .ctxs = true) (h_seams : pm .seams = true) (h_stalls : pm .stalls = true)
    (h : Evolves pm a s.store) (g : Fin 48) :
    Evolves pm a (syncMismatch g s).store := by
  unfold syncMismatch
  repeat' first
    | with_reducible assumption | (with_reducible first | apply ite_evolves | apply enterFault_evolves) | split

theorem execSyncMismatch_evolves (h_ctxs : pm .ctxs = true) (h_seams : pm .seams = true)
    (h_stalls : pm .stalls = true) (h : Evolves pm a s.store) (g : Fin 48) {sx : State}
    (he : execSyncMismatch g s = .next sx) :
    Evolves pm a sx.store := by
  unfold execSyncMismatch at he; rw [← Host.Outcome.next.inj he]
  repeat' first | with_reducible assumption | (with_reducible first | apply syncMismatch_evolves) | split

theorem syncTimeout_evolves (h_ctxs : pm .ctxs = true) (h_stalls : pm .stalls = true) (h : Evolves pm a s.store)
    (g : Fin 48) :
    Evolves pm a (syncTimeout g s).store := by
  unfold syncTimeout
  repeat' first
    | with_reducible assumption | (with_reducible first | apply ite_evolves | apply enterHold_evolves)
    | simp only [store_mk, store_eta] | split

theorem execSyncTimeout_evolves (h_ctxs : pm .ctxs = true) (h_stalls : pm .stalls = true) (h : Evolves pm a s.store)
    (g : Fin 48) {sx : State} (he : execSyncTimeout g s = .next sx) :
    Evolves pm a sx.store := by
  unfold execSyncTimeout at he; rw [← Host.Outcome.next.inj he]
  repeat' first | with_reducible assumption | (with_reducible first | apply syncTimeout_evolves)

theorem strokeTimeout_evolves (h_ctxs : pm .ctxs = true) (h_seams : pm .seams = true) (h_stalls : pm .stalls = true)
    (h : Evolves pm a s.store) (g : Fin 48) :
    Evolves pm a (strokeTimeout g s).store := by
  unfold strokeTimeout; try dsimp only
  repeat' first
    | with_reducible assumption | (intro _; try beta_reduce)
    | (with_reducible first | apply ite_evolves | apply enterFault_evolves | apply lifeAdd_evolves | apply raise_evolves | apply setF_evolves)
    | (with_reducible first | apply setStall_evolves) | simp only [store_mk, store_eta]

theorem execStrokeTimeout_evolves (h_ctxs : pm .ctxs = true) (h_seams : pm .seams = true)
    (h_stalls : pm .stalls = true) (h : Evolves pm a s.store) (g : Fin 48) {sx : State}
    (he : execStrokeTimeout g s = .next sx) :
    Evolves pm a sx.store := by
  unfold execStrokeTimeout at he; rw [← Host.Outcome.next.inj he]
  repeat' first | with_reducible assumption | (with_reducible first | apply strokeTimeout_evolves)

theorem requestHold_evolves (h_stalls : pm .stalls = true) (h : Evolves pm a s.store) (g : Fin 48) (c : Nat) :
    Evolves pm a (requestHold g c s).store := by
  unfold requestHold; try dsimp only
  repeat' first
    | with_reducible assumption | (intro _; try beta_reduce)
    | (with_reducible first | apply ite_evolves | apply addHold_evolves | apply setF_evolves | apply setStall_evolves)
    | simp only [store_mk, store_eta]

theorem islandDeadline_evolves (h_stalls : pm .stalls = true) (h : Evolves pm a s.store) (g : Fin 48) :
    Evolves pm a (islandDeadline g s).store := by
  unfold islandDeadline; try dsimp only
  repeat' first
    | with_reducible assumption | (intro _; try beta_reduce)
    | (with_reducible first | apply ite_evolves | apply lifeAdd_evolves | apply raise_evolves | apply requestHold_evolves | apply setF_evolves)
    | (with_reducible first | apply setStall_evolves) | simp only [store_mk, store_eta]

theorem execIslandDeadline_evolves (h_stalls : pm .stalls = true) (h : Evolves pm a s.store) (g : Fin 48)
    {sx : State} (he : execIslandDeadline g s = .next sx) :
    Evolves pm a sx.store := by
  unfold execIslandDeadline at he; rw [← Host.Outcome.next.inj he]
  repeat' first | with_reducible assumption | (with_reducible first | apply islandDeadline_evolves)

theorem holdTakesEffect_evolves (h_ctxs : pm .ctxs = true) (h_stalls : pm .stalls = true) (h : Evolves pm a s.store)
    (g : Fin 48) :
    Evolves pm a (holdTakesEffect g s).store := by
  unfold holdTakesEffect; try dsimp only
  repeat' first
    | with_reducible assumption | (intro _; try beta_reduce)
    | (with_reducible first | apply ite_evolves | apply beginSync_evolves | apply discard_evolves | apply enterHold_evolves | apply noteStarved_evolves | apply passMarker_evolves)
    | (with_reducible first | apply wrN_evolves)
    | simp only [store_mk, store_eta] | split

theorem execHoldTakesEffect_evolves (h_ctxs : pm .ctxs = true) (h_stalls : pm .stalls = true)
    (h : Evolves pm a s.store) (g : Fin 48) {sx : State} (he : execHoldTakesEffect g s = .next sx) :
    Evolves pm a sx.store := by
  unfold execHoldTakesEffect at he; rw [← Host.Outcome.next.inj he]
  repeat' first | with_reducible assumption | (with_reducible first | apply holdTakesEffect_evolves)

theorem holdReturn_evolves (h_ctxs : pm .ctxs = true) (h_stalls : pm .stalls = true) (h : Evolves pm a s.store)
    (g : Fin 48) :
    Evolves pm a (holdReturn g s).store := by
  unfold holdReturn; try dsimp only
  repeat' first
    | with_reducible assumption | (intro _; try beta_reduce)
    | (with_reducible first | apply ite_evolves | apply enterState_evolves | apply goRun_evolves | apply setStall_evolves | apply tellStall_evolves)
    | simp only [store_mk, store_eta]

theorem execHoldReturn_evolves (h_ctxs : pm .ctxs = true) (h_stalls : pm .stalls = true) (h : Evolves pm a s.store)
    (g : Fin 48) {sx : State} (he : execHoldReturn g s = .next sx) :
    Evolves pm a sx.store := by
  unfold execHoldReturn at he; rw [← Host.Outcome.next.inj he]
  repeat' first | with_reducible assumption | (with_reducible first | apply holdReturn_evolves)

theorem resumeNow_evolves (h_stalls : pm .stalls = true) (h : Evolves pm a s.store) (g : Fin 48) :
    Evolves pm a (resumeNow g s).store := by
  unfold resumeNow; try dsimp only
  repeat' first
    | with_reducible assumption | (intro _; try beta_reduce)
    | (with_reducible first | apply ite_evolves | apply put_evolves | apply setStall_evolves)
    | simp only [store_mk, store_eta]

theorem interlock_evolves (h_ctxs : pm .ctxs = true) (h : Evolves pm a s.store) (c : Fin 256) (q : Nat) (g : Nat) :
    Evolves pm a (interlock c q g s).store := by
  unfold interlock
  repeat' first | with_reducible assumption | (with_reducible first | apply complete_evolves)

theorem withStall_evolves (h_ctxs : pm .ctxs = true) (h : Evolves pm a s.store) (c : Fin 256) (op : Nat)
    (k : Desc → Fin 48 → State → State) (hk : ∀ x0 x1 u, Evolves pm a u.store → Evolves pm a (k x0 x1 u).store) :
    Evolves pm a (withStall c op k s).store := by
  unfold withStall
  repeat' first
    | with_reducible assumption | (intro _; try beta_reduce)
    | (with_reducible first | apply ite_evolves | apply blockCheck_evolves | apply withDesc_evolves | apply hk)
    | simp only [store_mk, store_eta] | split

theorem opHold_evolves (h_ctxs : pm .ctxs = true) (h_stalls : pm .stalls = true) (h : Evolves pm a s.store)
    (c : Fin 256) (d : Desc) (g : Fin 48) :
    Evolves pm a (opHold c d g s).store := by
  unfold opHold; try dsimp only
  repeat' first
    | with_reducible assumption
    | (with_reducible first | apply ite_evolves | apply complete_evolves | apply formatZero_evolves | apply interlock_evolves | apply requestHold_evolves)

theorem execHold_evolves (h_ctxs : pm .ctxs = true) (h_stalls : pm .stalls = true) (h : Evolves pm a s.store)
    (c : Fin 256) {sx : State} (he : execHold c s = .next sx) :
    Evolves pm a sx.store := by
  unfold execHold at he; rw [← Host.Outcome.next.inj he]
  repeat' first
    | with_reducible assumption | (intro _; try beta_reduce)
    | (with_reducible first | apply opHold_evolves | apply withStall_evolves)

theorem cmdRefuse_evolves (h : Evolves pm a s.store) (g : Nat) : Evolves pm a (cmdRefuse g s).store := by
  unfold cmdRefuse
  repeat' first | with_reducible assumption | (with_reducible first | apply setF_evolves)

theorem regHold_evolves (h_stalls : pm .stalls = true) (h : Evolves pm a s.store) (g : Fin 48) :
    Evolves pm a (regHold g s).store := by
  unfold regHold
  repeat' first
    | with_reducible assumption
    | (with_reducible first | apply ite_evolves | apply cmdRefuse_evolves | apply requestHold_evolves) | split

theorem regResume_evolves (h_stalls : pm .stalls = true) (h : Evolves pm a s.store) (g : Fin 48) :
    Evolves pm a (regResume g s).store := by
  unfold regResume
  repeat' first
    | with_reducible assumption
    | (with_reducible first | apply ite_evolves | apply cmdRefuse_evolves | apply resumeNow_evolves)

theorem execCmdHold_evolves (h_stalls : pm .stalls = true) (h : Evolves pm a s.store) (sec : Bool) (g : Fin 48)
    {sx : State} (he : execCmdHold sec g s = .next sx) :
    Evolves pm a sx.store := by
  unfold execCmdHold at he; rw [← Host.Outcome.next.inj he]
  repeat' first
    | with_reducible assumption | (intro _; try beta_reduce)
    | (with_reducible first | apply hostWrite_evolves | apply regHold_evolves)

theorem execCmdResume_evolves (h_stalls : pm .stalls = true) (h : Evolves pm a s.store) (sec : Bool) (g : Fin 48)
    {sx : State} (he : execCmdResume sec g s = .next sx) :
    Evolves pm a sx.store := by
  unfold execCmdResume at he; rw [← Host.Outcome.next.inj he]
  repeat' first
    | with_reducible assumption | (intro _; try beta_reduce)
    | (with_reducible first | apply hostWrite_evolves | apply regResume_evolves)

theorem execHoldAllHold_evolves (h_stalls : pm .stalls = true) (h : Evolves pm a s.store) (sec : Bool) {sx : State}
    (he : execHoldAllHold sec s = .next sx) :
    Evolves pm a sx.store := by
  unfold execHoldAllHold at he; rw [← Host.Outcome.next.inj he]
  repeat' first
    | with_reducible assumption | (intro _; try beta_reduce)
    | (with_reducible first | apply forAll_evolves | apply hostWrite_evolves | apply regHold_evolves)

theorem execHoldAllResume_evolves (h_stalls : pm .stalls = true) (h : Evolves pm a s.store) (sec : Bool)
    {sx : State} (he : execHoldAllResume sec s = .next sx) :
    Evolves pm a sx.store := by
  unfold execHoldAllResume at he; rw [← Host.Outcome.next.inj he]
  repeat' first
    | with_reducible assumption | (intro _; try beta_reduce)
    | (with_reducible first | apply forAll_evolves | apply hostWrite_evolves | apply regResume_evolves)

theorem requestAbort_evolves (h_seams : pm .seams = true) (h_stalls : pm .stalls = true) (h : Evolves pm a s.store)
    (g : Fin 48) :
    Evolves pm a (requestAbort g s).store := by
  unfold requestAbort; try dsimp only
  repeat' first
    | with_reducible assumption | (intro _; try beta_reduce)
    | (with_reducible first | apply ite_evolves | apply latchSquash_evolves | apply seamLoss_evolves | apply setStall_evolves)
    | simp only [store_mk, store_eta]

theorem opAbort_evolves (h_ctxs : pm .ctxs = true) (h_seams : pm .seams = true) (h_stalls : pm .stalls = true)
    (h : Evolves pm a s.store) (c : Fin 256) (d : Desc) (g : Fin 48) :
    Evolves pm a (opAbort c d g s).store := by
  unfold opAbort
  repeat' first
    | with_reducible assumption
    | (with_reducible first | apply ite_evolves | apply formatZero_evolves | apply requestAbort_evolves)

theorem execAbort_evolves (h_ctxs : pm .ctxs = true) (h_seams : pm .seams = true) (h_stalls : pm .stalls = true)
    (h : Evolves pm a s.store) (c : Fin 256) {sx : State} (he : execAbort c s = .next sx) :
    Evolves pm a sx.store := by
  unfold execAbort at he; rw [← Host.Outcome.next.inj he]
  repeat' first
    | with_reducible assumption | (intro _; try beta_reduce)
    | (with_reducible first | apply opAbort_evolves | apply withStall_evolves)

theorem regAbort_evolves (h_ctxs : pm .ctxs = true) (h_seams : pm .seams = true) (h_stalls : pm .stalls = true)
    (h : Evolves pm a s.store) (g : Fin 48) :
    Evolves pm a (regAbort g s).store := by
  unfold regAbort
  repeat' first
    | with_reducible assumption | (with_reducible first | apply requestAbort_evolves | apply tellStall_evolves)

theorem execCmdAbort_evolves (h_ctxs : pm .ctxs = true) (h_seams : pm .seams = true) (h_stalls : pm .stalls = true)
    (h : Evolves pm a s.store) (sec : Bool) (g : Fin 48) {sx : State} (he : execCmdAbort sec g s = .next sx) :
    Evolves pm a sx.store := by
  unfold execCmdAbort at he; rw [← Host.Outcome.next.inj he]
  repeat' first
    | with_reducible assumption | (intro _; try beta_reduce)
    | (with_reducible first | apply hostWrite_evolves | apply regAbort_evolves)

theorem abortComplete_evolves (h_ctxs : pm .ctxs = true) (h_engs : pm .engs = true) (h_seams : pm .seams = true)
    (h_stalls : pm .stalls = true) (h : Evolves pm a s.store) (g : Fin 48) :
    Evolves pm a (abortComplete g s).store := by
  unfold abortComplete; try dsimp only
  repeat' first
    | with_reducible assumption | (intro _; try beta_reduce)
    | (with_reducible first | apply ite_evolves | apply abortEnd_evolves | apply enterState_evolves | apply restIdle_evolves | apply setStall_evolves)
    | (with_reducible first | apply showWait_evolves | apply tellStall_evolves) | simp only [store_mk, store_eta]

theorem execAbortComplete_evolves (h_ctxs : pm .ctxs = true) (h_engs : pm .engs = true) (h_seams : pm .seams = true)
    (h_stalls : pm .stalls = true) (h : Evolves pm a s.store) (g : Fin 48) {sx : State}
    (he : execAbortComplete g s = .next sx) :
    Evolves pm a sx.store := by
  unfold execAbortComplete at he; rw [← Host.Outcome.next.inj he]
  repeat' first | with_reducible assumption | (with_reducible first | apply abortComplete_evolves)

theorem stallEnable_evolves (h : Evolves pm a s.store) (g : Fin 48) (v : Word) :
    Evolves pm a (stallEnable g v s).store := by
  unfold stallEnable
  repeat' first | with_reducible assumption | (with_reducible first | apply showWait_evolves | apply wrN_evolves)

theorem execStallEnable_evolves (h : Evolves pm a s.store) (sec : Bool) (g : Fin 48) (v : Word) {sx : State}
    (he : execStallEnable sec g v s = .next sx) :
    Evolves pm a sx.store := by
  unfold execStallEnable at he; rw [← Host.Outcome.next.inj he]
  repeat' first
    | with_reducible assumption | (intro _; try beta_reduce)
    | (with_reducible first | apply hostWrite_evolves | apply stallEnable_evolves)

theorem stallOnline_evolves (h_engs : pm .engs = true) (h_stalls : pm .stalls = true) (h : Evolves pm a s.store)
    (g : Fin 48) :
    Evolves pm a (stallOnline g s).store := by
  unfold stallOnline; try dsimp only
  repeat' first
    | with_reducible assumption | (intro _; try beta_reduce)
    | (with_reducible first | apply ite_evolves | apply clrF_evolves | apply enterIdle_evolves | apply restIdle_evolves | apply ungate_evolves)
    | simp only [store_mk, store_eta] | split

theorem execStallOnline_evolves (h_engs : pm .engs = true) (h_stalls : pm .stalls = true) (h : Evolves pm a s.store)
    (g : Fin 48) {sx : State} (he : execStallOnline g s = .next sx) :
    Evolves pm a sx.store := by
  unfold execStallOnline at he; rw [← Host.Outcome.next.inj he]
  repeat' first | with_reducible assumption | (with_reducible first | apply stallOnline_evolves)

theorem stallDisable_evolves (h_seams : pm .seams = true) (h_stalls : pm .stalls = true) (h : Evolves pm a s.store)
    (g : Fin 48) (v : Word) :
    Evolves pm a (stallDisable g v s).store := by
  unfold stallDisable; try dsimp only
  repeat' first
    | with_reducible assumption | (intro _; try beta_reduce)
    | (with_reducible first | apply ite_evolves | apply requestAbort_evolves | apply setStall_evolves | apply showWait_evolves | apply wrN_evolves)
    | simp only [store_mk, store_eta]

theorem execStallDisable_evolves (h_seams : pm .seams = true) (h_stalls : pm .stalls = true)
    (h : Evolves pm a s.store) (sec : Bool) (g : Fin 48) (v : Word) {sx : State}
    (he : execStallDisable sec g v s = .next sx) :
    Evolves pm a sx.store := by
  unfold execStallDisable at he; rw [← Host.Outcome.next.inj he]
  repeat' first
    | with_reducible assumption | (intro _; try beta_reduce)
    | (with_reducible first | apply hostWrite_evolves | apply stallDisable_evolves)

theorem progRegionWrite_evolves (h_stalls : pm .stalls = true) (h : Evolves pm a s.store) (g : Fin 48) (v : Nat) :
    Evolves pm a (progRegionWrite g v s).store := by
  unfold progRegionWrite; try dsimp only
  repeat' first
    | with_reducible assumption | (intro _; try beta_reduce)
    | (with_reducible first | apply ite_evolves | apply setF_evolves | apply setStall_evolves | apply wr64_evolves | apply zeroPtrs_evolves)
    | simp only [store_mk, store_eta] | split

theorem execProgRegionWrite_evolves (h_stalls : pm .stalls = true) (h : Evolves pm a s.store) (sec : Bool)
    (g : Fin 48) (w : Wr64) {sx : State} (he : execProgRegionWrite sec g w s = .next sx) :
    Evolves pm a sx.store := by
  unfold execProgRegionWrite at he; rw [← Host.Outcome.next.inj he]
  repeat' first
    | with_reducible assumption | (intro _; try beta_reduce)
    | (with_reducible first | apply hostWrite_evolves | apply progRegionWrite_evolves | apply withWide_evolves)

theorem hbRestart_evolves (h : Evolves pm a s.store) : Evolves pm a (hbRestart s).store := by
  unfold hbRestart
  repeat' first
    | with_reducible assumption | (intro _; try beta_reduce)
    | (with_reducible first | apply forAll_evolves | apply clrF_evolves) | simp only [store_mk, store_eta]

theorem heartbeatPeriodWrite_evolves (h : Evolves pm a s.store) (v : Word) :
    Evolves pm a (heartbeatPeriodWrite v s).store := by
  unfold heartbeatPeriodWrite; try dsimp only
  repeat' first
    | with_reducible assumption | (intro _; try beta_reduce)
    | (with_reducible first | apply ite_evolves | apply hbRestart_evolves | apply setF_evolves | apply wrN_evolves)

theorem execHeartbeatPeriodWrite_evolves (h : Evolves pm a s.store) (sec : Bool) (v : Word) {sx : State}
    (he : execHeartbeatPeriodWrite sec v s = .next sx) :
    Evolves pm a sx.store := by
  unfold execHeartbeatPeriodWrite at he; rw [← Host.Outcome.next.inj he]
  repeat' first
    | with_reducible assumption | (intro _; try beta_reduce)
    | (with_reducible first | apply heartbeatPeriodWrite_evolves | apply hostWrite_evolves)

theorem execHeartbeatKick_evolves (h : Evolves pm a s.store) (sec : Bool) {sx : State}
    (he : execHeartbeatKick sec s = .next sx) :
    Evolves pm a sx.store := by
  unfold execHeartbeatKick at he; rw [← Host.Outcome.next.inj he]
  repeat' first
    | with_reducible assumption | (intro _; try beta_reduce)
    | (with_reducible first | apply hbRestart_evolves | apply hostWrite_evolves)

theorem heartbeatStall_evolves (h_ctxs : pm .ctxs = true) (h_stalls : pm .stalls = true) (h : Evolves pm a s.store)
    (g : Fin 48) :
    Evolves pm a (heartbeatStall g s).store := by
  unfold heartbeatStall; try dsimp only
  repeat' first
    | with_reducible assumption
    | (with_reducible first | apply ite_evolves | apply enterHold_evolves | apply requestHold_evolves | apply setF_evolves)

theorem heartbeatExpire_evolves (h_ctxs : pm .ctxs = true) (h_stalls : pm .stalls = true) (h : Evolves pm a s.store) :
    Evolves pm a (heartbeatExpire s).store := by
  unfold heartbeatExpire; try dsimp only
  repeat' first
    | with_reducible assumption | (intro _; try beta_reduce)
    | (with_reducible first | apply forAll_evolves | apply heartbeatStall_evolves | apply lifeAdd_evolves | apply raise_evolves | apply setF_evolves)
    | simp only [store_mk, store_eta]

theorem layerDeadlinePassed_evolves (h : Evolves pm a s.store) : Evolves pm a (layerDeadlinePassed s).store := by
  unfold layerDeadlinePassed; try dsimp only
  repeat' first
    | with_reducible assumption
    | (with_reducible first | apply ite_evolves | apply lifeAdd_evolves | apply raise_evolves | apply setF_evolves)
    | simp only [store_mk, store_eta] | split

theorem execLayerDeadlinePassed_evolves (h : Evolves pm a s.store) {sx : State}
    (he : execLayerDeadlinePassed s = .next sx) :
    Evolves pm a sx.store := by
  unfold execLayerDeadlinePassed at he; rw [← Host.Outcome.next.inj he]
  repeat' first | with_reducible assumption | (with_reducible first | apply layerDeadlinePassed_evolves)

theorem trajFault_evolves (h_ctxs : pm .ctxs = true) (h_seams : pm .seams = true) (h_stalls : pm .stalls = true)
    (h : Evolves pm a s.store) (g : Fin 48) (d : Nat) :
    Evolves pm a (trajFault g d s).store := by
  unfold trajFault
  repeat' first
    | with_reducible assumption
    | (with_reducible first | apply enterFault_evolves | apply lifeAdd_evolves | apply raise_evolves | apply wrN_evolves)

theorem trajectoryFault_evolves (h_ctxs : pm .ctxs = true) (h_seams : pm .seams = true)
    (h_stalls : pm .stalls = true) (h : Evolves pm a s.store) (g : Fin 48) (d : Nat) :
    Evolves pm a (trajectoryFault g d s).store := by
  unfold trajectoryFault; try dsimp only
  repeat' first
    | with_reducible assumption | (intro _; try beta_reduce)
    | (with_reducible first | apply ite_evolves | apply enterFault_evolves | apply gridError_evolves | apply raise_evolves | apply setStall_evolves | apply trajFault_evolves)
    | (with_reducible first | apply wrN_evolves)
    | simp only [store_mk, store_eta] | split

theorem execTrajectoryFault_evolves (h_ctxs : pm .ctxs = true) (h_seams : pm .seams = true)
    (h_stalls : pm .stalls = true) (h : Evolves pm a s.store) (g : Fin 48) (d : Nat) {sx : State}
    (he : execTrajectoryFault g d s = .next sx) :
    Evolves pm a sx.store := by
  unfold execTrajectoryFault at he; rw [← Host.Outcome.next.inj he]
  repeat' first | with_reducible assumption | (with_reducible first | apply trajectoryFault_evolves)

theorem faultStep_evolves (h_ctxs : pm .ctxs = true) (h_seams : pm .seams = true) (h_stalls : pm .stalls = true)
    (h : Evolves pm a s.store) (g : Fin 48) :
    Evolves pm a (faultStep g s).store := by
  unfold faultStep; try dsimp only
  repeat' first
    | with_reducible assumption | (intro _; try beta_reduce)
    | (with_reducible first | apply ite_evolves | apply enterFault_evolves | apply setStall_evolves | apply wrN_evolves)
    | simp only [store_mk, store_eta]

theorem releaseNow_evolves (h_ctxs : pm .ctxs = true) (h_stalls : pm .stalls = true) (h : Evolves pm a s.store)
    (g : Fin 48) :
    Evolves pm a (releaseNow g s).store := by
  unfold releaseNow; try dsimp only
  repeat' first
    | with_reducible assumption | (intro _; try beta_reduce)
    | (with_reducible first | apply goRun_evolves | apply setStall_evolves | apply tellStall_evolves)
    | simp only [store_mk, store_eta]

end Machine
end Sys2Proof
end

