-- ==== Sys2Proof/Laws/EvolvesStaged.lean ====
section
/-!
SUPPORT. Every operation of Staged.lean is an evolution (Laws/Evolves.lean).
-/
namespace Sys2Proof
namespace Machine

variable {pm : Part → Bool} {a : Store} {s : State}

theorem cfgWrite_evolves (h : Evolves pm a s.store) (sec : Bool) (o : Nat) (v : Word) (ok : Nat → State → Bool)
    (refuse : State → State) (hrefuse : ∀ u, Evolves pm a u.store → Evolves pm a (refuse u).store)
    (apply : Nat → State → State) (happly : ∀ x0 u, Evolves pm a u.store → Evolves pm a (apply x0 u).store) :
    Evolves pm a (cfgWrite sec o v ok refuse apply s).store := by
  unfold cfgWrite; try dsimp only
  repeat' first
    | with_reducible assumption | (intro _; try beta_reduce)
    | (with_reducible first | apply ite_evolves | apply hostWrite_evolves | apply hrefuse | apply happly)

theorem setTxn_evolves (hp : pm .txns = true) (h : Evolves pm a s.store) (g : Fin 64) (f : Txn → Txn) :
    Evolves pm a (setTxn g f s).store := Evolves.txns hp _ h

theorem windowFault_evolves (h : Evolves pm a s.store) (o : Nat) (addr : Nat) :
    Evolves pm a (windowFault o addr s).store := by
  unfold windowFault
  repeat' first
    | with_reducible assumption
    | (with_reducible first | apply accessErr_evolves | apply setF_evolves | apply worldFault_evolves)

theorem windowWrite_evolves (h_mem : pm .mem = true) (h : Evolves pm a s.store) (sec : Bool) (o : Nat) (st : Fin 6)
    (off : Nat) (v : Word) :
    Evolves pm a (windowWrite sec o st off v s).store := by
  unfold windowWrite; try dsimp only
  repeat' first
    | with_reducible assumption | (intro _; try beta_reduce)
    | (with_reducible first | apply ite_evolves | apply loftWrite_evolves | apply windowFault_evolves)
    | simp only [store_mk, store_eta] | split

end Machine
end Sys2Proof
end

