-- ==== Sys2Proof/Laws/EvolvesBeam.lean ====
section
/-!
SUPPORT. Every operation of Beam.lean is an evolution (Laws/Evolves.lean).
-/
namespace Sys2Proof
namespace Machine

variable {pm : Part → Bool} {a : Store} {s : State}

theorem startVerify_evolves (h_stalls : pm .stalls = true) (h : Evolves pm a s.store) (g : Fin 48) (l : List Nat) :
    Evolves pm a (startVerify g l s).store := by
  unfold startVerify
  repeat' first
    | with_reducible assumption | (intro _; try beta_reduce)
    | (with_reducible first | apply put_evolves | apply setStall_evolves) | simp only [store_mk, store_eta]

theorem replanIdle_evolves (h_stalls : pm .stalls = true) (h : Evolves pm a s.store) (g : Fin 48) :
    Evolves pm a (replanIdle g s).store := by
  unfold replanIdle
  repeat' first | with_reducible assumption | (with_reducible first | apply ite_evolves | apply restIdle_evolves)

theorem trjRefused_evolves (h : Evolves pm a s.store) (g : Nat) : Evolves pm a (trjRefused g s).store := by
  unfold trjRefused
  repeat' first | with_reducible assumption | (with_reducible first | apply setF_evolves)

theorem trjConfigWrite_evolves (h_stalls : pm .stalls = true) (h : Evolves pm a s.store) (sec : Bool) (g : Fin 48)
    (o : Nat) (v : Word) :
    Evolves pm a (trjConfigWrite sec g o v s).store := by
  unfold trjConfigWrite; try dsimp only
  repeat' first
    | with_reducible assumption | (intro _; try beta_reduce)
    | (with_reducible first | apply ite_evolves | apply cfgWrite_evolves | apply replanIdle_evolves | apply startVerify_evolves | apply trjRefused_evolves)
    | (with_reducible first | apply wrN_evolves)

theorem execTrjConfigWrite_evolves (h_stalls : pm .stalls = true) (h : Evolves pm a s.store) (sec : Bool)
    (g : Fin 48) (o : Nat) (v : Word) {sx : State} (he : execTrjConfigWrite sec g o v s = .next sx) :
    Evolves pm a sx.store := by
  unfold execTrjConfigWrite at he; rw [← Host.Outcome.next.inj he]
  repeat' first | with_reducible assumption | (with_reducible first | apply trjConfigWrite_evolves)

theorem gridSelWrite_evolves (h_stalls : pm .stalls = true) (h : Evolves pm a s.store) (sec : Bool) (g : Fin 48)
    (v : Word) :
    Evolves pm a (gridSelWrite sec g v s).store := by
  unfold gridSelWrite
  repeat' first
    | with_reducible assumption | (intro _; try beta_reduce)
    | (with_reducible first | apply cfgWrite_evolves | apply replanIdle_evolves | apply startVerify_evolves | apply trjRefused_evolves | apply wrN_evolves)

theorem execGridSelWrite_evolves (h_stalls : pm .stalls = true) (h : Evolves pm a s.store) (sec : Bool) (g : Fin 48)
    (v : Word) {sx : State} (he : execGridSelWrite sec g v s = .next sx) :
    Evolves pm a sx.store := by
  unfold execGridSelWrite at he; rw [← Host.Outcome.next.inj he]
  repeat' first | with_reducible assumption | (with_reducible first | apply gridSelWrite_evolves)

theorem gridVerification_evolves (h_stalls : pm .stalls = true) (h : Evolves pm a s.store) (g : Fin 48) :
    Evolves pm a (gridVerification g s).store := by
  unfold gridVerification; try dsimp only
  repeat' first
    | with_reducible assumption | (intro _; try beta_reduce)
    | (with_reducible first | apply ite_evolves | apply put_evolves | apply raise_evolves | apply replanIdle_evolves | apply setStall_evolves)
    | simp only [store_mk, store_eta]

theorem execGridVerification_evolves (h_stalls : pm .stalls = true) (h : Evolves pm a s.store) (g : Fin 48)
    {sx : State} (he : execGridVerification g s = .next sx) :
    Evolves pm a sx.store := by
  unfold execGridVerification at he; rw [← Host.Outcome.next.inj he]
  repeat' first | with_reducible assumption | (with_reducible first | apply gridVerification_evolves)

theorem gridWindowWrite_evolves (hm : pm .mem = true) (h : Evolves pm a s.store) (sec : Bool) (st : Fin 6) (o : Nat)
    (v : Word) :
    Evolves pm a (gridWindowWrite sec st o v s).store := by
  unfold gridWindowWrite; try dsimp only
  repeat' first
    | with_reducible assumption | (intro _; try beta_reduce)
    | (with_reducible first | apply ite_evolves | apply hostWrite_evolves | apply setF_evolves | apply windowWrite_evolves)

theorem execGridWindowWrite_evolves (hm : pm .mem = true) (h : Evolves pm a s.store) (sec : Bool) (st : Fin 6)
    (o : Nat) (v : Word) {sx : State} (he : execGridWindowWrite sec st o v s = .next sx) :
    Evolves pm a sx.store := by
  unfold execGridWindowWrite at he; rw [← Host.Outcome.next.inj he]
  repeat' first | with_reducible assumption | (with_reducible first | apply gridWindowWrite_evolves)

theorem outRefused_evolves (h : Evolves pm a s.store) (g : Nat) : Evolves pm a (outRefused g s).store := by
  unfold outRefused
  repeat' first | with_reducible assumption | (with_reducible first | apply outFlag_evolves)

theorem setFar_evolves (hp : pm .fars = true) (h : Evolves pm a s.store) (g : Fin 60) (f : FarUnit → FarUnit) :
    Evolves pm a (setFar g f s).store := Evolves.fars hp _ h

theorem hostTrim_evolves (h_fars : pm .fars = true) (h : Evolves pm a s.store) (g : Fin 48) (n : Nat) :
    Evolves pm a (hostTrim g n s).store := by
  unfold hostTrim
  repeat' first
    | with_reducible assumption | (intro _; try beta_reduce)
    | (with_reducible first | apply setFar_evolves | apply wrN_evolves) | simp only [store_mk, store_eta]

theorem farEmpty_evolves (h_fars : pm .fars = true) (h : Evolves pm a s.store) (g : Fin 48) :
    Evolves pm a (farEmpty g s).store := by
  unfold farEmpty
  repeat' first
    | with_reducible assumption | (intro _; try beta_reduce)
    | (with_reducible first | apply put_evolves | apply setFar_evolves) | simp only [store_mk, store_eta]

theorem execGateTrimWrite_evolves (h_fars : pm .fars = true) (h : Evolves pm a s.store) (sec : Bool) (g : Fin 48)
    (v : Word) {sx : State} (he : execGateTrimWrite sec g v s = .next sx) :
    Evolves pm a sx.store := by
  unfold execGateTrimWrite at he; rw [← Host.Outcome.next.inj he]
  repeat' first
    | with_reducible assumption | (intro _; try beta_reduce)
    | (with_reducible first | apply cfgWrite_evolves | apply hostTrim_evolves) | dsimp only [id]

theorem trimApplied_evolves (h_fars : pm .fars = true) (h : Evolves pm a s.store) (g : Fin 48) :
    Evolves pm a (trimApplied g s).store := by
  unfold trimApplied; try dsimp only
  repeat' first
    | with_reducible assumption
    | (with_reducible first | apply ite_evolves | apply farEmpty_evolves | apply put_evolves)

theorem execTrimApplied_evolves (h_fars : pm .fars = true) (h : Evolves pm a s.store) (g : Fin 48) {sx : State}
    (he : execTrimApplied g s = .next sx) :
    Evolves pm a sx.store := by
  unfold execTrimApplied at he; rw [← Host.Outcome.next.inj he]
  repeat' first | with_reducible assumption | (with_reducible first | apply trimApplied_evolves)

theorem tellPairs_evolves (h : Evolves pm a s.store) (old : State) :
    Evolves pm a (tellPairs old s).store := by
  unfold tellPairs; try dsimp only
  repeat' first
    | with_reducible assumption | (intro _; try beta_reduce)
    | (with_reducible first | apply ite_evolves | apply forAll_evolves | apply emit_evolves)
    | simp only [store_mk, store_eta] | split

theorem execGateCfgWrite_evolves (h : Evolves pm a s.store) (sec : Bool) (g : Fin 48) (v : Word) {sx : State}
    (he : execGateCfgWrite sec g v s = .next sx) :
    Evolves pm a sx.store := by
  unfold execGateCfgWrite at he; rw [← Host.Outcome.next.inj he]
  repeat' first
    | with_reducible assumption | (intro _; try beta_reduce)
    | (with_reducible first | apply cfgWrite_evolves | apply outRefused_evolves | apply tellPairs_evolves | apply wrN_evolves)
    | simp only [store_mk, store_eta] | split

theorem execOutputConfigWrite_evolves (h : Evolves pm a s.store) (sec : Bool) (g : Fin 48) (r : Fin 3) (v : Word)
    {sx : State} (he : execOutputConfigWrite sec g r v s = .next sx) :
    Evolves pm a sx.store := by
  unfold execOutputConfigWrite at he; rw [← Host.Outcome.next.inj he]
  repeat' first
    | with_reducible assumption | (intro _; try beta_reduce)
    | (with_reducible first | apply cfgWrite_evolves | apply outRefused_evolves | apply wrN_evolves)

theorem idleSamples_evolves (h_stalls : pm .stalls = true) (h : Evolves pm a s.store) (g : Fin 48) :
    Evolves pm a (idleSamples g s).store := by
  unfold idleSamples; try dsimp only
  repeat' first
    | with_reducible assumption | (intro _; try beta_reduce)
    | (with_reducible first | apply put_evolves | apply setStall_evolves)
    | simp only [store_mk, store_eta] | split

theorem noteForced_evolves (h_stalls : pm .stalls = true) (h : Evolves pm a s.store) (g : Fin 48) :
    Evolves pm a (noteForced g s).store := by
  unfold noteForced; try dsimp only
  repeat' first
    | with_reducible assumption | (intro _; try beta_reduce)
    | (with_reducible first | apply setStall_evolves)
    | simp only [store_mk, store_eta] | split

theorem inhibitOn_evolves (h_stalls : pm .stalls = true) (h : Evolves pm a s.store) (i : Nat) :
    Evolves pm a (inhibitOn i s).store := by
  unfold inhibitOn; try dsimp only
  repeat' first
    | with_reducible assumption | (intro _; try beta_reduce)
    | (with_reducible first | apply ite_evolves | apply forAll_evolves | apply clrF_evolves | apply idleSamples_evolves | apply lifeAdd_evolves | apply noteForced_evolves)
    | (with_reducible first | apply put_evolves | apply tellPairs_evolves)
    | simp only [store_mk, store_eta] | split

theorem inhibitOff_evolves (h : Evolves pm a s.store) (i : Nat) : Evolves pm a (inhibitOff i s).store := by
  unfold inhibitOff; try dsimp only
  repeat' first
    | with_reducible assumption
    | (with_reducible first | apply ite_evolves | apply put_evolves | apply setF_evolves)
    | simp only [store_mk, store_eta]

theorem noteDiff_evolves (h : Evolves pm a s.store) (was : Bool) :
    Evolves pm a (noteDiff was s).store := by
  unfold noteDiff; try dsimp only
  repeat' first
    | with_reducible assumption | (intro _; try beta_reduce)
    | (with_reducible first | apply ite_evolves)
    | simp only [store_mk, store_eta] | split

theorem lsafeInputLow_evolves (h_stalls : pm .stalls = true) (h : Evolves pm a s.store) (b : Bool) :
    Evolves pm a (lsafeInputLow b s).store := by
  unfold lsafeInputLow; try dsimp only
  repeat' first
    | with_reducible assumption | (intro _; try beta_reduce)
    | (with_reducible first | apply clrF_evolves | apply inhibitOn_evolves | apply noteDiff_evolves)
    | simp only [store_mk, store_eta] | split

theorem execLsafeInputLow_evolves (h_stalls : pm .stalls = true) (h : Evolves pm a s.store) (b : Bool) {sx :
    State} (he : execLsafeInputLow b s = .next sx) :
    Evolves pm a sx.store := by
  unfold execLsafeInputLow at he; rw [← Host.Outcome.next.inj he]
  repeat' first
    | with_reducible assumption | (intro _; try beta_reduce)
    | (with_reducible first | apply lsafeInputLow_evolves)
    | simp only [store_mk, store_eta] | split

theorem lsafeInputHigh_evolves (h : Evolves pm a s.store) (b : Bool) :
    Evolves pm a (lsafeInputHigh b s).store := by
  unfold lsafeInputHigh; try dsimp only
  repeat' first
    | with_reducible assumption | (intro _; try beta_reduce)
    | (with_reducible first | apply ite_evolves | apply inhibitOff_evolves | apply noteDiff_evolves | apply setF_evolves)
    | simp only [store_mk, store_eta] | split

theorem execLsafeInputHigh_evolves (h : Evolves pm a s.store) (b : Bool) {sx : State}
    (he : execLsafeInputHigh b s = .next sx) :
    Evolves pm a sx.store := by
  unfold execLsafeInputHigh at he; rw [← Host.Outcome.next.inj he]
  repeat' first | with_reducible assumption | (with_reducible first | apply lsafeInputHigh_evolves)

theorem readbackMismatch_evolves (h_stalls : pm .stalls = true) (h : Evolves pm a s.store) (g : Fin 48) (on : Bool) :
    Evolves pm a (readbackMismatch g on s).store := by
  unfold readbackMismatch; try dsimp only
  repeat' first
    | with_reducible assumption | (intro _; try beta_reduce)
    | (with_reducible first | apply ite_evolves | apply addSat_evolves | apply faultNext_evolves | apply inhibitOn_evolves | apply lifeAdd_evolves)
    | (with_reducible first | apply outFlag_evolves | apply raise_evolves | apply setStall_evolves)
    | simp only [store_mk, store_eta] | split

theorem execReadbackMismatch_evolves (h_stalls : pm .stalls = true) (h : Evolves pm a s.store) (g : Fin 48)
    (on : Bool) {sx : State} (he : execReadbackMismatch g on s = .next sx) :
    Evolves pm a sx.store := by
  unfold execReadbackMismatch at he; rw [← Host.Outcome.next.inj he]
  repeat' first | with_reducible assumption | (with_reducible first | apply readbackMismatch_evolves) | split

theorem laserInhibitAsserted_evolves (h_stalls : pm .stalls = true) (h : Evolves pm a s.store) :
    Evolves pm a (laserInhibitAsserted s).store := by
  unfold laserInhibitAsserted; try dsimp only
  repeat' first
    | with_reducible assumption | (intro _; try beta_reduce)
    | (with_reducible first | apply ite_evolves | apply forAll_evolves | apply addSat_evolves | apply latchSquash_evolves | apply raise_evolves)
    | (with_reducible first | apply setF_evolves | apply wr64_evolves) | simp only [store_mk, store_eta]

theorem execLaserInhibitAsserted_evolves (h_stalls : pm .stalls = true) (h : Evolves pm a s.store) {sx : State}
    (he : execLaserInhibitAsserted s = .next sx) :
    Evolves pm a sx.store := by
  unfold execLaserInhibitAsserted at he; rw [← Host.Outcome.next.inj he]
  repeat' first | with_reducible assumption | (with_reducible first | apply laserInhibitAsserted_evolves)

theorem inhibitStopComplete_evolves (h_ctxs : pm .ctxs = true) (h_seams : pm .seams = true)
    (h_stalls : pm .stalls = true) (h : Evolves pm a s.store) (g : Fin 48) :
    Evolves pm a (inhibitStopComplete g s).store := by
  unfold inhibitStopComplete; try dsimp only
  repeat' first
    | with_reducible assumption
    | (with_reducible first | apply ite_evolves | apply enterFault_evolves | apply lifeAdd_evolves)

theorem execInhibitStopComplete_evolves (h_ctxs : pm .ctxs = true) (h_seams : pm .seams = true)
    (h_stalls : pm .stalls = true) (h : Evolves pm a s.store) (g : Fin 48) {sx : State}
    (he : execInhibitStopComplete g s = .next sx) :
    Evolves pm a sx.store := by
  unfold execInhibitStopComplete at he; rw [← Host.Outcome.next.inj he]
  repeat' first | with_reducible assumption | (with_reducible first | apply inhibitStopComplete_evolves)

theorem lsafeDiscrepancy_evolves (h_stalls : pm .stalls = true) (h : Evolves pm a s.store) :
    Evolves pm a (lsafeDiscrepancy s).store := by
  unfold lsafeDiscrepancy; try dsimp only
  repeat' first
    | with_reducible assumption | (intro _; try beta_reduce)
    | (with_reducible first | apply ite_evolves | apply inhibitOn_evolves | apply lifeAdd_evolves | apply raise_evolves | apply setF_evolves)
    | simp only [store_mk, store_eta] | split

theorem execLsafeDiscrepancy_evolves (h_stalls : pm .stalls = true) (h : Evolves pm a s.store) {sx : State}
    (he : execLsafeDiscrepancy s = .next sx) :
    Evolves pm a sx.store := by
  unfold execLsafeDiscrepancy at he; rw [← Host.Outcome.next.inj he]
  repeat' first
    | with_reducible assumption | (intro _; try beta_reduce)
    | (with_reducible first | apply lsafeDiscrepancy_evolves)
    | simp only [store_mk, store_eta] | split

theorem latchClear_evolves (h : Evolves pm a s.store) (sec : Bool) (i : Nat) (ok : State → Bool) :
    Evolves pm a (latchClear sec i ok s).store := by
  unfold latchClear
  repeat' first
    | with_reducible assumption | (intro _; try beta_reduce)
    | (with_reducible first | apply ite_evolves | apply hostWrite_evolves | apply inhibitOff_evolves | apply setF_evolves)

theorem execClearDiscrepancy_evolves (h : Evolves pm a s.store) (sec : Bool) {sx : State}
    (he : execClearDiscrepancy sec s = .next sx) :
    Evolves pm a sx.store := by
  unfold execClearDiscrepancy at he; rw [← Host.Outcome.next.inj he]
  repeat' first
    | with_reducible assumption | (intro _; try beta_reduce) | (with_reducible first | apply latchClear_evolves)

theorem clearReadback_evolves (h_stalls : pm .stalls = true) (h : Evolves pm a s.store) (sec : Bool) (bad : Bool) :
    Evolves pm a (clearReadback sec bad s).store := by
  unfold clearReadback
  repeat' first
    | with_reducible assumption | (intro _; try beta_reduce)
    | (with_reducible first | apply ite_evolves | apply forAll_evolves | apply latchClear_evolves | apply setStall_evolves)
    | simp only [store_mk, store_eta]

theorem execClearReadback_evolves (h_stalls : pm .stalls = true) (h : Evolves pm a s.store) (sec : Bool)
    (bad : Bool) {sx : State} (he : execClearReadback sec bad s = .next sx) :
    Evolves pm a sx.store := by
  unfold execClearReadback at he; rw [← Host.Outcome.next.inj he]
  repeat' first | with_reducible assumption | (with_reducible first | apply clearReadback_evolves)

theorem inhibitBit_evolves (h_stalls : pm .stalls = true) (h : Evolves pm a s.store) (o : Nat) (i : Nat) (v :
    Word) :
    Evolves pm a (inhibitBit o i v s).store := by
  unfold inhibitBit; try dsimp only
  repeat' first
    | with_reducible assumption | (intro _; try beta_reduce)
    | (with_reducible first | apply ite_evolves | apply inhibitOff_evolves | apply inhibitOn_evolves | apply wrN_evolves)
    | simp only [store_mk, store_eta] | split

theorem execLsafeSwWrite_evolves (h_stalls : pm .stalls = true) (h : Evolves pm a s.store) (sec : Bool) (v :
    Word) {sx : State} (he : execLsafeSwWrite sec v s = .next sx) :
    Evolves pm a sx.store := by
  unfold execLsafeSwWrite at he; rw [← Host.Outcome.next.inj he]
  repeat' first
    | with_reducible assumption | (intro _; try beta_reduce)
    | (with_reducible first | apply hostWrite_evolves | apply inhibitBit_evolves)
    | simp only [store_mk, store_eta] | split

theorem execLsafeSecWrite_evolves (h_stalls : pm .stalls = true) (h : Evolves pm a s.store) (sec : Bool) (v :
    Word) {sx : State} (he : execLsafeSecWrite sec v s = .next sx) :
    Evolves pm a sx.store := by
  unfold execLsafeSecWrite at he; rw [← Host.Outcome.next.inj he]
  repeat' first
    | with_reducible assumption | (intro _; try beta_reduce)
    | (with_reducible first | apply hostWrite_evolves | apply inhibitBit_evolves)
    | simp only [store_mk, store_eta] | split

theorem laserInhibitReleased_evolves (h : Evolves pm a s.store) :
    Evolves pm a (laserInhibitReleased s).store := by
  unfold laserInhibitReleased; try dsimp only
  repeat' first
    | with_reducible assumption | (intro _; try beta_reduce)
    | (with_reducible first | apply ite_evolves | apply clrF_evolves | apply lifeMax_evolves | apply raise_evolves | apply setF_evolves | apply tellPairs_evolves)
    | simp only [store_mk, store_eta] | split

theorem execLaserInhibitReleased_evolves (h : Evolves pm a s.store) {sx : State}
    (he : execLaserInhibitReleased s = .next sx) :
    Evolves pm a sx.store := by
  unfold execLaserInhibitReleased at he; rw [← Host.Outcome.next.inj he]
  repeat' first | with_reducible assumption | (with_reducible first | apply laserInhibitReleased_evolves)

end Machine
end Sys2Proof
end

