-- ==== Sys2Proof/Laws/EvolvesMarshal.lean ====
section
/-!
SUPPORT. Every operation of Marshal.lean is an evolution (Laws/Evolves.lean).
-/
namespace Sys2Proof
namespace Machine

variable {pm : Part → Bool} {a : Store} {s : State}

theorem noteStrokes_evolves (h_stalls : pm .stalls = true) (h : Evolves pm a s.store) (g : Fin 48) :
    Evolves pm a (noteStrokes g s).store := by
  unfold noteStrokes; try dsimp only
  repeat' first
    | with_reducible assumption | (intro _; try beta_reduce) | (with_reducible first | apply setStall_evolves)
    | simp only [store_mk, store_eta]

theorem writeConflict_evolves (h : Evolves pm a s.store) (loser : Nat) (winner : Nat) (c : Conflict) (late : Bool)
    (eldest : Bool) :
    Evolves pm a (writeConflict loser winner c late eldest s).store := by
  unfold writeConflict
  repeat' first | with_reducible assumption | (with_reducible first | apply wr64_evolves | apply wrN_evolves)

theorem lateConflict_evolves (h : Evolves pm a s.store) (c : Conflict) : Evolves pm a (lateConflict s c).store := by
  unfold lateConflict; try dsimp only
  repeat' first
    | with_reducible assumption
    | (with_reducible first | apply ite_evolves | apply addSat_evolves | apply lifeAdd_evolves | apply raise_evolves | apply setF_evolves)
    | (with_reducible first | apply writeConflict_evolves) | simp only [store_mk, store_eta]

theorem seamResult_evolves (h : Evolves pm a s.store) (id : Nat) (result : Nat) (kind : Nat) :
    Evolves pm a (seamResult id result kind s).store := by
  unfold seamResult
  repeat' first
    | with_reducible assumption | (intro _; try beta_reduce) | (with_reducible first | apply wrN_evolves)
    | dsimp only [id]

theorem deferStroke_evolves (h_stalls : pm .stalls = true) (h : Evolves pm a s.store) (g : Fin 48) (key : Nat)
    (w : Fin 48) (c : Conflict) (eldest : Bool) :
    Evolves pm a (deferStroke g key w c eldest s).store := by
  unfold deferStroke; try dsimp only
  repeat' first
    | with_reducible assumption | (intro _; try beta_reduce)
    | (with_reducible first | apply ite_evolves | apply add64_evolves | apply latchSquash_evolves | apply lifeAdd_evolves | apply raise_evolves)
    | (with_reducible first | apply setStall_evolves | apply writeConflict_evolves)
    | simp only [store_mk, store_eta]

theorem verdict_evolves (h_stalls : pm .stalls = true) (h : Evolves pm a s.store)
    (l : List (Fin 48 × Nat × Fin 48 × Bool × Conflict)) (g : Fin 48) :
    Evolves pm a (verdict l g s).store := by
  unfold verdict; try dsimp only
  repeat' first
    | with_reducible assumption | (intro _; try beta_reduce)
    | (with_reducible first | apply ite_evolves | apply deferStroke_evolves) | simp only [store_mk, store_eta]
    | split | dsimp only [id]

theorem clearHead_evolves (h_stalls : pm .stalls = true) (h : Evolves pm a s.store)
    (l : List (Fin 48 × Nat × Fin 48 × Bool × Conflict)) (g : Fin 48) :
    Evolves pm a (clearHead l g s).store := by
  unfold clearHead
  repeat' first
    | with_reducible assumption | (intro _; try beta_reduce)
    | (with_reducible first | apply ite_evolves | apply setStall_evolves) | simp only [store_mk, store_eta] | split

theorem showMarshal_evolves (h : Evolves pm a s.store) (g : Fin 48) : Evolves pm a (showMarshal g s).store := by
  unfold showMarshal; try dsimp only
  repeat' first
    | with_reducible assumption | (with_reducible first | apply wrN_evolves) | simp only [store_mk, store_eta]
    | split

theorem refuseMove_evolves (h_seams : pm .seams = true) (h : Evolves pm a s.store) (r : SeamReq) (code : Nat) :
    Evolves pm a (refuseMove r code s).store := by
  unfold refuseMove; try dsimp only
  repeat' first
    | with_reducible assumption | (intro _; try beta_reduce)
    | (with_reducible first | apply ite_evolves | apply lifeAdd_evolves | apply orphanSeam_evolves | apply raise_evolves | apply seamResult_evolves)
    | (with_reducible first | apply setF_evolves) | simp only [store_mk, store_eta] | split | dsimp only [id]

theorem decideMove_evolves (h_seams : pm .seams = true) (h : Evolves pm a s.store) (r : SeamReq) :
    Evolves pm a (decideMove s r).store := by
  unfold decideMove; try dsimp only
  repeat' first
    | with_reducible assumption | (intro _; try beta_reduce)
    | (with_reducible first | apply ite_evolves | apply refuseMove_evolves) | simp only [store_mk, store_eta]
    | dsimp only [id]

theorem loseRescue_evolves (h_seams : pm .seams = true) (h : Evolves pm a s.store) (r : SeamReq) :
    Evolves pm a (loseRescue s r).store := by
  unfold loseRescue; try dsimp only
  repeat' first
    | with_reducible assumption | (intro _; try beta_reduce)
    | (with_reducible first | apply ite_evolves | apply orphanSeam_evolves)
    | simp only [store_mk, store_eta] | split

theorem decideMoves_evolves (h_seams : pm .seams = true) (h : Evolves pm a s.store) :
    Evolves pm a (decideMoves s).store := by
  unfold decideMoves; try dsimp only
  repeat' first
    | with_reducible assumption | (intro _; try beta_reduce)
    | (with_reducible first | apply foldl_evolves | apply decideMove_evolves | apply loseRescue_evolves)
    | simp only [store_mk, store_eta] | split

theorem withdraw_evolves (h_seams : pm .seams = true) (h : Evolves pm a s.store) (g : Fin 48) (l : List Item) :
    Evolves pm a (withdraw g l s).store := by
  unfold withdraw
  repeat' first
    | with_reducible assumption | (intro _; try beta_reduce)
    | (with_reducible first | apply ite_evolves | apply foldl_evolves | apply setSeam_evolves)
    | simp only [store_mk, store_eta] | split | dsimp only [id]

theorem followMove_evolves (h_seams : pm .seams = true) (h_stalls : pm .stalls = true) (h : Evolves pm a s.store)
    (g : Fin 48) (id : Nat) (count : Nat) (own : Bool) :
    Evolves pm a (followMove g id count own s).store := by
  unfold followMove; try dsimp only
  repeat' first
    | with_reducible assumption | (intro _; try beta_reduce)
    | (with_reducible first | apply ite_evolves | apply setStall_evolves | apply unparse_evolves | apply withdraw_evolves)
    | simp only [store_mk, store_eta] | split

theorem carryMove_evolves (h_seams : pm .seams = true) (h_stalls : pm .stalls = true) (h : Evolves pm a s.store)
    (r : SeamReq) :
    Evolves pm a (carryMove s r).store := by
  unfold carryMove; try dsimp only
  repeat' first
    | with_reducible assumption | (intro _; try beta_reduce)
    | (with_reducible first | apply ite_evolves | apply addSat_evolves | apply lifeAdd_evolves | apply raise_evolves | apply seamResult_evolves | apply setSeam_evolves)
    | (with_reducible first | apply setStall_evolves)
    | simp only [store_mk, store_eta] | split

theorem seamMove_evolves (h_seams : pm .seams = true) (h_stalls : pm .stalls = true) (h : Evolves pm a s.store) :
    Evolves pm a (seamMove s).store := by
  unfold seamMove; try dsimp only
  repeat' first
    | with_reducible assumption | (intro _; try beta_reduce)
    | (with_reducible first | apply foldl_evolves | apply carryMove_evolves | apply followMove_evolves | apply squashDueStep_evolves)
    | simp only [store_mk, store_eta] | split

theorem execSeamMove_evolves (h_seams : pm .seams = true) (h_stalls : pm .stalls = true) (h : Evolves pm a s.store)
    {sx : State} (he : execSeamMove s = .next sx) :
    Evolves pm a sx.store := by
  unfold execSeamMove at he; rw [← Host.Outcome.next.inj he]
  repeat' first | with_reducible assumption | (with_reducible first | apply seamMove_evolves)

theorem seamMoveWrite_evolves (h : Evolves pm a s.store) (v : Nat) : Evolves pm a (seamMoveWrite v s).store := by
  unfold seamMoveWrite; try dsimp only
  repeat' first
    | with_reducible assumption | (intro _; try beta_reduce) | (with_reducible first | apply seamResult_evolves)
    | simp only [store_mk, store_eta] | dsimp only [id]

theorem execSeamMoveWrite_evolves (h : Evolves pm a s.store) (sec : Bool) (w : Wr64) {sx : State}
    (he : execSeamMoveWrite sec w s = .next sx) :
    Evolves pm a sx.store := by
  unfold execSeamMoveWrite at he; rw [← Host.Outcome.next.inj he]
  repeat' first
    | with_reducible assumption | (intro _; try beta_reduce)
    | (with_reducible first | apply hostWrite_evolves | apply seamMoveWrite_evolves | apply withWide_evolves)

theorem sweepSeams_evolves (h_seams : pm .seams = true) (h : Evolves pm a s.store) :
    Evolves pm a (sweepSeams s).store := by
  unfold sweepSeams; try dsimp only
  repeat' first
    | with_reducible assumption | (intro _; try beta_reduce)
    | (with_reducible first | apply ite_evolves | apply forAll_evolves | apply freeSeam_evolves) | dsimp only [id]

theorem flushSeams_evolves (h_seams : pm .seams = true) (h : Evolves pm a s.store) :
    Evolves pm a (flushSeams s).store := by
  unfold flushSeams; try dsimp only
  repeat' first
    | with_reducible assumption | (intro _; try beta_reduce)
    | (with_reducible first | apply ite_evolves | apply forAll_evolves | apply freeSeam_evolves | apply lifeAdd_evolves | apply raise_evolves)
    | (with_reducible first | apply setF_evolves)

theorem prunePairs_evolves (h : Evolves pm a s.store) : Evolves pm a (prunePairs s).store := by
  unfold prunePairs
  repeat' first | with_reducible assumption | (intro _; try beta_reduce) | simp only [store_mk, store_eta]

theorem marshalStep_evolves (h_seams : pm .seams = true) (h_stalls : pm .stalls = true) (h : Evolves pm a s.store) :
    Evolves pm a (marshalStep s).store := by
  unfold marshalStep; try dsimp only
  repeat' first
    | with_reducible assumption | (intro _; try beta_reduce)
    | (with_reducible first | apply ite_evolves | apply foldl_evolves | apply forAll_evolves | apply clearHead_evolves | apply decideMoves_evolves)
    | (with_reducible first | apply lateConflict_evolves | apply noteStrokes_evolves | apply prunePairs_evolves | apply put_evolves | apply showMarshal_evolves)
    | (with_reducible first | apply verdict_evolves) | split

theorem keepParams_evolves (h : Evolves pm a s.store) : Evolves pm a (keepParams s).store := by
  unfold keepParams; try dsimp only
  repeat' first
    | with_reducible assumption | (with_reducible first | apply ite_evolves) | simp only [store_mk, store_eta]

theorem execMarshalConfigWrite_evolves (h : Evolves pm a s.store) (sec : Bool) (r : Fin 6) (v : Word) {sx : State}
    (he : execMarshalConfigWrite sec r v s = .next sx) :
    Evolves pm a sx.store := by
  unfold execMarshalConfigWrite at he; rw [← Host.Outcome.next.inj he]; try dsimp only
  repeat' first
    | with_reducible assumption | (intro _; try beta_reduce)
    | (with_reducible first | apply cfgWrite_evolves | apply raise_evolves | apply setF_evolves | apply wrN_evolves)

end Machine
end Sys2Proof
end

