-- ==== Sys2Proof/Laws/EvolvesCle.lean ====
section
/-!
SUPPORT. Every operation of Cle.lean is an evolution (Laws/Evolves.lean).
-/
namespace Sys2Proof
namespace Machine

variable {pm : Part → Bool} {a : Store} {s : State}

theorem countClips_evolves (h : Evolves pm a s.store) (st : Nat) (n : Nat) :
    Evolves pm a (countClips st n s).store := by
  unfold countClips
  repeat' first
    | with_reducible assumption
    | (with_reducible first | apply ite_evolves | apply addW_evolves | apply lifeAdd_evolves | apply setF_evolves)

theorem deliverKs_evolves (h_engs : pm .engs = true) (h_stalls : pm .stalls = true) (h : Evolves pm a s.store)
    (g : Fin 48) (v : Nat) :
    Evolves pm a (deliverKs g v s).store := by
  unfold deliverKs; try dsimp only
  repeat' first
    | with_reducible assumption | (intro _; try beta_reduce)
    | (with_reducible first | apply ite_evolves | apply addW_evolves | apply latchSquash_evolves | apply lifeAdd_evolves | apply put_evolves | apply setEng_evolves)
    | (with_reducible first | apply setStall_evolves)
    | simp only [store_mk, store_eta] | split

theorem deliverPend_evolves (h_engs : pm .engs = true) (h_stalls : pm .stalls = true) (h : Evolves pm a s.store)
    (g : Fin 48) :
    Evolves pm a (deliverPend g s).store := by
  unfold deliverPend
  repeat' first
    | with_reducible assumption | (with_reducible first | apply ite_evolves | apply deliverKs_evolves)
    | simp only [store_mk, store_eta] | split

theorem deliverSpeed_evolves (h_engs : pm .engs = true) (h_stalls : pm .stalls = true) (h : Evolves pm a s.store)
    (g : Fin 48) (raw : Int) :
    Evolves pm a (deliverSpeed g raw s).store := by
  unfold deliverSpeed; try dsimp only
  repeat' first
    | with_reducible assumption | (with_reducible first | apply ite_evolves | apply deliverKs_evolves)
    | simp only [store_mk, store_eta] | split

theorem energyFault_evolves (h_engs : pm .engs = true) (h_stalls : pm .stalls = true) (h : Evolves pm a s.store)
    (g : Fin 48) (d : Nat) :
    Evolves pm a (energyFault g d s).store := by
  unfold energyFault; try dsimp only
  repeat' first
    | with_reducible assumption | (intro _; try beta_reduce)
    | (with_reducible first | apply ite_evolves | apply faultNext_evolves | apply lifeAdd_evolves | apply put_evolves | apply raise_evolves)
    | (with_reducible first | apply setEng_evolves) | simp only [store_mk, store_eta]

theorem energyCheck_evolves (h_engs : pm .engs = true) (h_stalls : pm .stalls = true) (h : Evolves pm a s.store)
    (g : Fin 48) :
    Evolves pm a (energyCheck g s).store := by
  unfold energyCheck; try dsimp only
  repeat' first | with_reducible assumption | (with_reducible first | apply ite_evolves | apply energyFault_evolves)

theorem showLimit_evolves (h : Evolves pm a s.store) (g : Fin 48) :
    Evolves pm a (showLimit g s).store := by
  unfold showLimit; try dsimp only
  repeat' first
    | with_reducible assumption | (intro _; try beta_reduce)
    | (with_reducible first | apply put_evolves)
    | simp only [store_mk, store_eta] | split

theorem activeBin_evolves (h_engs : pm .engs = true) (h_stalls : pm .stalls = true) (h : Evolves pm a s.store)
    (g : Fin 48) (b : Bin) :
    Evolves pm a (activeBin g b s).store := by
  unfold activeBin; try dsimp only
  repeat' first
    | with_reducible assumption | (intro _; try beta_reduce)
    | (with_reducible first | apply ite_evolves | apply countClips_evolves | apply deliverSpeed_evolves | apply energyCheck_evolves | apply lifeAdd_evolves | apply put_evolves)
    | (with_reducible first | apply setEng_evolves | apply showLimit_evolves | apply wrI_evolves)
    | simp only [store_mk, store_eta] | split

theorem energyEngineFault_evolves (h_engs : pm .engs = true) (h_stalls : pm .stalls = true)
    (h : Evolves pm a s.store) (st : Fin 6) :
    Evolves pm a (energyEngineFault st s).store := by
  unfold energyEngineFault
  repeat' first
    | with_reducible assumption | (intro _; try beta_reduce)
    | (with_reducible first | apply ite_evolves | apply foldl_evolves | apply energyFault_evolves)

theorem swapBank_evolves (h_engs : pm .engs = true) (h : Evolves pm a s.store) (g : Fin 48) :
    Evolves pm a (swapBank g s).store := by
  unfold swapBank; try dsimp only
  repeat' first
    | with_reducible assumption | (intro _; try beta_reduce)
    | (with_reducible first | apply ite_evolves | apply addW_evolves | apply clrF_evolves | apply lifeAdd_evolves | apply put_evolves)
    | (with_reducible first | apply setEng_evolves) | simp only [store_mk, store_eta]

theorem bankSwap_evolves (h_engs : pm .engs = true) (h : Evolves pm a s.store) (g : Fin 48) :
    Evolves pm a (bankSwap g s).store := by
  unfold bankSwap
  repeat' first | with_reducible assumption | (with_reducible first | apply ite_evolves | apply swapBank_evolves)

theorem bankError_evolves (h_stalls : pm .stalls = true) (h : Evolves pm a s.store) (g : Fin 48) (kind : Nat) :
    Evolves pm a (bankError g kind s).store := by
  unfold bankError; try dsimp only
  repeat' first
    | with_reducible assumption | (intro _; try beta_reduce)
    | (with_reducible first | apply loftError_evolves)
    | simp only [store_mk, store_eta] | split

theorem energyEvaluation_evolves (h_engs : pm .engs = true) (h_stalls : pm .stalls = true)
    (h : Evolves pm a s.store) (g : Fin 48) (err : Nat) :
    Evolves pm a (energyEvaluation g err s).store := by
  unfold energyEvaluation; try dsimp only
  repeat' first
    | with_reducible assumption | (intro _; try beta_reduce)
    | (with_reducible first | apply ite_evolves | apply activeBin_evolves | apply addW_evolves | apply bankError_evolves | apply bankSwap_evolves | apply deliverPend_evolves)
    | (with_reducible first | apply energyCheck_evolves | apply energyEngineFault_evolves | apply energyFault_evolves | apply lifeAdd_evolves | apply put_evolves | apply setEng_evolves)
    | simp only [store_mk, store_eta] | split

theorem execEnergyEvaluation_evolves (h_engs : pm .engs = true) (h_stalls : pm .stalls = true)
    (h : Evolves pm a s.store) (g : Fin 48) (err : Nat) {sx : State} (he : execEnergyEvaluation g err s = .next sx)
    :
    Evolves pm a sx.store := by
  unfold execEnergyEvaluation at he; rw [← Host.Outcome.next.inj he]
  repeat' first | with_reducible assumption | (with_reducible first | apply energyEvaluation_evolves)

theorem pdSample_evolves (h_engs : pm .engs = true) (h : Evolves pm a s.store) (g : Fin 48) (t : Nat) (c : Nat)
    (v : Nat) :
    Evolves pm a (pdSample g t c v s).store := by
  unfold pdSample; try dsimp only
  repeat' first
    | with_reducible assumption | (intro _; try beta_reduce)
    | (with_reducible first | apply ite_evolves | apply addW_evolves | apply lifeAdd_evolves | apply setEng_evolves)
    | simp only [store_mk, store_eta]

theorem pdRecord_evolves (h_engs : pm .engs = true) (h : Evolves pm a s.store) (g : Fin 48) (t : Nat) (status : Nat)
    (samples : List (List Nat)) :
    Evolves pm a (pdRecord g t status samples s).store := by
  unfold pdRecord
  repeat' first
    | with_reducible assumption | (intro _; try beta_reduce)
    | (with_reducible first | apply ite_evolves | apply foldl_evolves | apply pdSample_evolves)

theorem featureDelivery_evolves (h_engs : pm .engs = true) (h : Evolves pm a s.store) (g : Fin 48) (v : Word)
    (seq : Nat) (gen : Nat) :
    Evolves pm a (featureDelivery g v seq gen s).store := by
  unfold featureDelivery; try dsimp only
  repeat' first
    | with_reducible assumption | (intro _; try beta_reduce)
    | (with_reducible first | apply put_evolves | apply setEng_evolves | apply wr_evolves)
    | simp only [store_mk, store_eta]

theorem execFeatureDelivery_evolves (h_engs : pm .engs = true) (h : Evolves pm a s.store) (g : Fin 48) (v : Word)
    (seq : Nat) (gen : Nat) {sx : State} (he : execFeatureDelivery g v seq gen s = .next sx) :
    Evolves pm a sx.store := by
  unfold execFeatureDelivery at he; rw [← Host.Outcome.next.inj he]
  repeat' first | with_reducible assumption | (with_reducible first | apply featureDelivery_evolves)

theorem bankSelect_evolves (h_engs : pm .engs = true) (h : Evolves pm a s.store) (g : Fin 48) (v : Word) :
    Evolves pm a (bankSelect g v s).store := by
  unfold bankSelect
  repeat' first
    | with_reducible assumption | (intro _; try beta_reduce)
    | (with_reducible first | apply ite_evolves | apply put_evolves | apply setEng_evolves | apply setF_evolves)
    | simp only [store_mk, store_eta]

theorem execBankSelect_evolves (h_engs : pm .engs = true) (h : Evolves pm a s.store) (sec : Bool) (g : Fin 48)
    (v : Word) {sx : State} (he : execBankSelect sec g v s = .next sx) :
    Evolves pm a sx.store := by
  unfold execBankSelect at he; rw [← Host.Outcome.next.inj he]
  repeat' first
    | with_reducible assumption | (intro _; try beta_reduce)
    | (with_reducible first | apply bankSelect_evolves | apply hostWrite_evolves)

theorem execBankSwap_evolves (h_engs : pm .engs = true) (h : Evolves pm a s.store) (g : Fin 48) {sx : State}
    (he : execBankSwap g s = .next sx) :
    Evolves pm a sx.store := by
  unfold execBankSwap at he; rw [← Host.Outcome.next.inj he]
  repeat' first | with_reducible assumption | (with_reducible first | apply bankSwap_evolves)

theorem cleRefused_evolves (h : Evolves pm a s.store) (st : Nat) :
    Evolves pm a (cleRefused st s).store := by
  unfold cleRefused; try dsimp only
  repeat' first
    | with_reducible assumption | (intro _; try beta_reduce)
    | (with_reducible first | apply setF_evolves)
    | simp only [store_mk, store_eta] | split

theorem energyConfigWrite_evolves (h_engs : pm .engs = true) (h : Evolves pm a s.store) (sec : Bool) (g : Fin 48)
    (r : Fin 7) (v : Word) :
    Evolves pm a (energyConfigWrite sec g r v s).store := by
  unfold energyConfigWrite; try dsimp only
  repeat' first
    | with_reducible assumption | (intro _; try beta_reduce)
    | (with_reducible first | apply ite_evolves | apply cfgWrite_evolves | apply cleRefused_evolves | apply setEng_evolves | apply wrLater_evolves)
    | simp only [store_mk, store_eta] | split

theorem execEnergyConfigWrite_evolves (h_engs : pm .engs = true) (h : Evolves pm a s.store) (sec : Bool) (g :
    Fin 48) (r : Fin 7) (v : Word) {sx : State} (he : execEnergyConfigWrite sec g r v s = .next sx) :
    Evolves pm a sx.store := by
  unfold execEnergyConfigWrite at he; rw [← Host.Outcome.next.inj he]
  repeat' first
    | with_reducible assumption | (intro _; try beta_reduce)
    | (with_reducible first | apply energyConfigWrite_evolves)
    | simp only [store_mk, store_eta] | split

theorem engEnable_evolves (h_engs : pm .engs = true) (h : Evolves pm a s.store) (g : Fin 48) (old : Nat) (n : Nat) :
    Evolves pm a (engEnable g old n s).store := by
  unfold engEnable
  repeat' first
    | with_reducible assumption | (intro _; try beta_reduce)
    | (with_reducible first | apply ite_evolves | apply put_evolves | apply setEng_evolves)
    | simp only [store_mk, store_eta]

theorem engClampKp_evolves (h : Evolves pm a s.store) (g : Nat) (n : Nat) :
    Evolves pm a (engClampKp g n s).store := by
  unfold engClampKp
  repeat' first | with_reducible assumption | (with_reducible first | apply put_evolves)

theorem engClampKs_evolves (h_engs : pm .engs = true) (h : Evolves pm a s.store) (g : Fin 48) (n : Nat) :
    Evolves pm a (engClampKs g n s).store := by
  unfold engClampKs; try dsimp only
  repeat' first
    | with_reducible assumption | (intro _; try beta_reduce)
    | (with_reducible first | apply ite_evolves | apply setEng_evolves) | simp only [store_mk, store_eta]

theorem engTick_evolves (h_engs : pm .engs = true) (h : Evolves pm a s.store) (g : Fin 48) :
    Evolves pm a (engTick g s).store := by
  unfold engTick; try dsimp only
  repeat' first
    | with_reducible assumption | (intro _; try beta_reduce)
    | (with_reducible first | apply engClampKp_evolves | apply engClampKs_evolves | apply engEnable_evolves | apply setEng_evolves)
    | simp only [store_mk, store_eta] | split

theorem kpSlew_evolves (h : Evolves pm a s.store) (g : Fin 48) : Evolves pm a (kpSlew g s).store := by
  unfold kpSlew; try dsimp only
  repeat' first | with_reducible assumption | (with_reducible first | apply ite_evolves | apply put_evolves)

theorem cleStep_evolves (h_engs : pm .engs = true) (h_stalls : pm .stalls = true) (h : Evolves pm a s.store)
    (g : Fin 48) :
    Evolves pm a (cleStep g s).store := by
  unfold cleStep; try dsimp only
  repeat' first
    | with_reducible assumption | (intro _; try beta_reduce)
    | (with_reducible first | apply bankSwap_evolves | apply deliverPend_evolves | apply energyEvaluation_evolves | apply kpSlew_evolves | apply showLimit_evolves)
    | simp only [store_mk, store_eta] | split

theorem setSrv_evolves (hp : pm .srvs = true) (h : Evolves pm a s.store) (g : Fin 48) (f : Srv → Srv) :
    Evolves pm a (setSrv g f s).store := Evolves.srvs hp _ h

theorem srvCmdDone_evolves (h : Evolves pm a s.store) (g : Fin 48) : Evolves pm a (srvCmdDone g s).store := by
  unfold srvCmdDone; try dsimp only
  repeat' first
    | with_reducible assumption | (with_reducible first | apply ite_evolves | apply put_evolves)
    | simp only [store_mk, store_eta] | split

theorem countServo_evolves (h : Evolves pm a s.store) (g : Fin 48) (d : Nat) (aa : Nat) :
    Evolves pm a (countServo g d aa s).store := by
  unfold countServo; try dsimp only
  repeat' first
    | with_reducible assumption | (intro _; try beta_reduce)
    | (with_reducible first | apply ite_evolves | apply foldl_evolves | apply lifeAdd_evolves)
    | simp only [store_mk, store_eta] | split

theorem servoFault_evolves (h_srvs : pm .srvs = true) (h_stalls : pm .stalls = true) (h : Evolves pm a s.store)
    (g : Fin 48) (d : Nat) (aa : Nat) :
    Evolves pm a (servoFault g d aa s).store := by
  unfold servoFault; try dsimp only
  repeat' first
    | with_reducible assumption | (intro _; try beta_reduce)
    | (with_reducible first | apply ite_evolves | apply countServo_evolves | apply faultNext_evolves | apply put_evolves | apply raise_evolves | apply setSrv_evolves)
    | (with_reducible first | apply srvCmdDone_evolves)
    | simp only [store_mk, store_eta] | split

theorem servoAxis_evolves (h_srvs : pm .srvs = true) (h : Evolves pm a s.store) (g : Fin 48) (first : Bool)
    (sp : Int × Int × Int) (aa : Fin 3) :
    Evolves pm a (servoAxis g first sp aa s).store := by
  unfold servoAxis; try dsimp only
  repeat' first
    | with_reducible assumption | (intro _; try beta_reduce)
    | (with_reducible first | apply ite_evolves | apply addW_evolves | apply countClips_evolves | apply put_evolves | apply setF_evolves)
    | (with_reducible first | apply setSrv_evolves) | simp only [store_mk, store_eta]

theorem followAxis_evolves (h_srvs : pm .srvs = true) (h : Evolves pm a s.store) (g : Fin 48) (aa : Fin 3) :
    Evolves pm a (followAxis g aa s).store := by
  unfold followAxis; try dsimp only
  repeat' first
    | with_reducible assumption | (intro _; try beta_reduce)
    | (with_reducible first | apply ite_evolves | apply lifeMax_evolves | apply setSrv_evolves | apply wrI_evolves | apply wrN_evolves)
    | simp only [store_mk, store_eta]

theorem settleCount_evolves (h_srvs : pm .srvs = true) (h : Evolves pm a s.store) (g : Fin 48)
    (sp : Int × Int × Int) :
    Evolves pm a (settleCount g sp s).store := by
  unfold settleCount; try dsimp only
  repeat' first
    | with_reducible assumption | (intro _; try beta_reduce)
    | (with_reducible first | apply ite_evolves | apply setSrv_evolves) | simp only [store_mk, store_eta]

theorem servoClosedLoop_evolves (h_srvs : pm .srvs = true) (h_stalls : pm .stalls = true) (h : Evolves pm a s.store)
    (g : Fin 48) :
    Evolves pm a (servoClosedLoop g s).store := by
  unfold servoClosedLoop; try dsimp only
  repeat' first
    | with_reducible assumption | (intro _; try beta_reduce)
    | (with_reducible first | apply ite_evolves | apply forAll_evolves | apply followAxis_evolves | apply lifeTime_evolves | apply servoAxis_evolves)
    | (with_reducible first | apply servoFault_evolves | apply settleCount_evolves)
    | simp only [store_mk, store_eta] | split

theorem servoOpening_evolves (h_srvs : pm .srvs = true) (h : Evolves pm a s.store) (g : Fin 48) :
    Evolves pm a (servoOpening g s).store := by
  unfold servoOpening; try dsimp only
  repeat' first
    | with_reducible assumption | (intro _; try beta_reduce)
    | (with_reducible first | apply forAll_evolves | apply put_evolves | apply setSrv_evolves)
    | simp only [store_mk, store_eta]

theorem clearFerr_evolves (h_srvs : pm .srvs = true) (h : Evolves pm a s.store) (g : Fin 48) :
    Evolves pm a (clearFerr g s).store := by
  unfold clearFerr; try dsimp only
  repeat' first
    | with_reducible assumption | (intro _; try beta_reduce)
    | (with_reducible first | apply setSrv_evolves)
    | simp only [store_mk, store_eta] | split

theorem servoSmart_evolves (h_srvs : pm .srvs = true) (h_stalls : pm .stalls = true) (h : Evolves pm a s.store)
    (g : Fin 48) :
    Evolves pm a (servoSmart g s).store := by
  unfold servoSmart; try dsimp only
  repeat' first
    | with_reducible assumption | (intro _; try beta_reduce)
    | (with_reducible first | apply ite_evolves | apply forAll_evolves | apply clearFerr_evolves | apply followAxis_evolves | apply servoFault_evolves | apply setSrv_evolves)
    | simp only [store_mk, store_eta] | split

theorem servoSetError_evolves (h_stalls : pm .stalls = true) (h : Evolves pm a s.store) (g : Fin 48) (aa : Fin 3)
    (kind : Nat) :
    Evolves pm a (servoSetError g aa kind s).store := by
  unfold servoSetError; try dsimp only
  repeat' first
    | with_reducible assumption | (intro _; try beta_reduce)
    | (with_reducible first | apply loftError_evolves)
    | simp only [store_mk, store_eta] | split

theorem servoStall_evolves (h_srvs : pm .srvs = true) (h_stalls : pm .stalls = true) (h : Evolves pm a s.store)
    (errs : List (Fin 48 × Fin 3 × Nat)) (g : Fin 48) :
    Evolves pm a (servoStall errs g s).store := by
  unfold servoStall; try dsimp only
  repeat' first
    | with_reducible assumption | (intro _; try beta_reduce)
    | (with_reducible first | apply ite_evolves | apply servoClosedLoop_evolves | apply servoFault_evolves | apply servoOpening_evolves | apply servoSetError_evolves | apply servoSmart_evolves)
    | (with_reducible first | apply setSrv_evolves)
    | simp only [store_mk, store_eta] | split

theorem servoEvaluation_evolves (h_srvs : pm .srvs = true) (h_stalls : pm .stalls = true) (h : Evolves pm a s.store)
    (errs : List (Fin 48 × Fin 3 × Nat)) :
    Evolves pm a (servoEvaluation errs s).store := by
  unfold servoEvaluation; try dsimp only
  repeat' first
    | with_reducible assumption | (intro _; try beta_reduce)
    | (with_reducible first | apply ite_evolves | apply forAll_evolves | apply servoStall_evolves)
    | simp only [store_mk, store_eta]

theorem execServoEvaluation_evolves (h_srvs : pm .srvs = true) (h_stalls : pm .stalls = true)
    (h : Evolves pm a s.store) (errs : List (Fin 48 × Fin 3 × Nat)) {sx : State}
    (he : execServoEvaluation errs s = .next sx) :
    Evolves pm a sx.store := by
  unfold execServoEvaluation at he; rw [← Host.Outcome.next.inj he]
  repeat' first | with_reducible assumption | (with_reducible first | apply servoEvaluation_evolves)

theorem servoClosed_evolves (h : Evolves pm a s.store) (g : Fin 48) : Evolves pm a (servoClosed g s).store := by
  unfold servoClosed
  repeat' first
    | with_reducible assumption
    | (with_reducible first | apply ite_evolves | apply addW_evolves | apply lifeAdd_evolves | apply put_evolves | apply srvCmdDone_evolves)

theorem execServoClosed_evolves (h : Evolves pm a s.store) (g : Fin 48) {sx : State}
    (he : execServoClosed g s = .next sx) :
    Evolves pm a sx.store := by
  unfold execServoClosed at he; rw [← Host.Outcome.next.inj he]
  repeat' first | with_reducible assumption | (with_reducible first | apply servoClosed_evolves)

theorem closeTimeout_evolves (h_srvs : pm .srvs = true) (h_stalls : pm .stalls = true) (h : Evolves pm a s.store)
    (g : Fin 48) :
    Evolves pm a (closeTimeout g s).store := by
  unfold closeTimeout
  repeat' first | with_reducible assumption | (with_reducible first | apply ite_evolves | apply servoFault_evolves)

theorem execCloseTimeout_evolves (h_srvs : pm .srvs = true) (h_stalls : pm .stalls = true)
    (h : Evolves pm a s.store) (g : Fin 48) {sx : State} (he : execCloseTimeout g s = .next sx) :
    Evolves pm a sx.store := by
  unfold execCloseTimeout at he; rw [← Host.Outcome.next.inj he]
  repeat' first | with_reducible assumption | (with_reducible first | apply closeTimeout_evolves)

theorem servoOpened_evolves (h : Evolves pm a s.store) (g : Fin 48) : Evolves pm a (servoOpened g s).store := by
  unfold servoOpened
  repeat' first
    | with_reducible assumption | (intro _; try beta_reduce)
    | (with_reducible first | apply ite_evolves | apply put_evolves | apply srvCmdDone_evolves)

theorem execServoOpened_evolves (h : Evolves pm a s.store) (g : Fin 48) {sx : State}
    (he : execServoOpened g s = .next sx) :
    Evolves pm a sx.store := by
  unfold execServoOpened at he; rw [← Host.Outcome.next.inj he]
  repeat' first | with_reducible assumption | (with_reducible first | apply servoOpened_evolves)

theorem servoBoundary_evolves (h_srvs : pm .srvs = true) (h : Evolves pm a s.store) (g : Fin 48) :
    Evolves pm a (servoBoundary g s).store := by
  unfold servoBoundary; try dsimp only
  repeat' first
    | with_reducible assumption | (intro _; try beta_reduce)
    | (with_reducible first | apply ite_evolves | apply put_evolves | apply setSrv_evolves)
    | simp only [store_mk, store_eta]

theorem coilFrame_evolves (h : Evolves pm a s.store) (b : Nat) :
    Evolves pm a (coilFrame b s).store := by
  unfold coilFrame; try dsimp only
  repeat' first
    | with_reducible assumption | (intro _; try beta_reduce)
    | (with_reducible first | apply ite_evolves | apply sendFrame_evolves)
    | simp only [store_mk, store_eta] | split

theorem servoShow_evolves (h : Evolves pm a s.store) (st : Nat) (t : Nat) (cmd : Nat) (r : Nat) :
    Evolves pm a (servoShow st t cmd r s).store := by
  unfold servoShow
  repeat' first | with_reducible assumption | (with_reducible first | apply put_evolves)

theorem servoCommand_evolves (h_srvs : pm .srvs = true) (h : Evolves pm a s.store) (st : Fin 6) (t : Fin 8)
    (cmd : Nat) :
    Evolves pm a (servoCommand st t cmd s).store := by
  unfold servoCommand; try dsimp only
  repeat' first
    | with_reducible assumption | (intro _; try beta_reduce)
    | (with_reducible first | apply ite_evolves | apply clrF_evolves | apply put_evolves | apply servoShow_evolves | apply setF_evolves)
    | (with_reducible first | apply setSrv_evolves) | simp only [store_mk, store_eta]

theorem execServoClose_evolves (h_srvs : pm .srvs = true) (h : Evolves pm a s.store) (sec : Bool) (st : Fin 6)
    (t : Fin 8) {sx : State} (he : execServoClose sec st t s = .next sx) :
    Evolves pm a sx.store := by
  unfold execServoClose at he; rw [← Host.Outcome.next.inj he]
  repeat' first
    | with_reducible assumption | (intro _; try beta_reduce)
    | (with_reducible first | apply hostWrite_evolves | apply servoCommand_evolves)

theorem execServoOpen_evolves (h_srvs : pm .srvs = true) (h : Evolves pm a s.store) (sec : Bool) (st : Fin 6)
    (t : Fin 8) {sx : State} (he : execServoOpen sec st t s = .next sx) :
    Evolves pm a sx.store := by
  unfold execServoOpen at he; rw [← Host.Outcome.next.inj he]
  repeat' first
    | with_reducible assumption | (intro _; try beta_reduce)
    | (with_reducible first | apply hostWrite_evolves | apply servoCommand_evolves)

theorem openLoops_evolves (h_srvs : pm .srvs = true) (h : Evolves pm a s.store) (st : Fin 6) :
    Evolves pm a (openLoops st s).store := by
  unfold openLoops; try dsimp only
  repeat' first
    | with_reducible assumption | (intro _; try beta_reduce)
    | (with_reducible first | apply ite_evolves | apply foldl_evolves | apply put_evolves | apply setSrv_evolves | apply srvCmdDone_evolves)
    | simp only [store_mk, store_eta]

theorem servoConfigWrite_evolves (h : Evolves pm a s.store) (sec : Bool) (g : Fin 48) (r : Fin 4) (v : Word) :
    Evolves pm a (servoConfigWrite sec g r v s).store := by
  unfold servoConfigWrite; try dsimp only
  repeat' first
    | with_reducible assumption | (intro _; try beta_reduce)
    | (with_reducible first | apply ite_evolves | apply cfgWrite_evolves | apply cleRefused_evolves | apply wrLater_evolves | apply wrN_evolves)

theorem execServoConfigWrite_evolves (h : Evolves pm a s.store) (sec : Bool) (g : Fin 48) (r : Fin 4) (v : Word)
    {sx : State} (he : execServoConfigWrite sec g r v s = .next sx) :
    Evolves pm a sx.store := by
  unfold execServoConfigWrite at he; rw [← Host.Outcome.next.inj he]
  repeat' first | with_reducible assumption | (with_reducible first | apply servoConfigWrite_evolves)

theorem coefficientWindowWrite_evolves (hm : pm .mem = true) (h : Evolves pm a s.store) (sec : Bool) (st : Fin 6)
    (o : Nat) (v : Word) :
    Evolves pm a (coefficientWindowWrite sec st o v s).store := by
  unfold coefficientWindowWrite; try dsimp only
  repeat' first
    | with_reducible assumption | (intro _; try beta_reduce)
    | (with_reducible first | apply ite_evolves | apply hostWrite_evolves | apply setF_evolves | apply windowWrite_evolves)

theorem execCoefficientWindowWrite_evolves (hm : pm .mem = true) (h : Evolves pm a s.store) (sec : Bool)
    (st : Fin 6) (o : Nat) (v : Word) {sx : State} (he : execCoefficientWindowWrite sec st o v s = .next sx) :
    Evolves pm a sx.store := by
  unfold execCoefficientWindowWrite at he; rw [← Host.Outcome.next.inj he]
  repeat' first | with_reducible assumption | (with_reducible first | apply coefficientWindowWrite_evolves)

theorem opCleLoad_evolves (h_ctxs : pm .ctxs = true) (h_mem : pm .mem = true) (h : Evolves pm a s.store) (c :
    Fin 256) (r : DmaIn) (d : Desc) :
    Evolves pm a (opCleLoad c r d s).store := by
  unfold opCleLoad; try dsimp only
  repeat' first
    | with_reducible assumption | (intro _; try beta_reduce)
    | (with_reducible first | apply ite_evolves | apply blockCheck_evolves | apply complete_evolves | apply formatZero_evolves | apply loftWrite_evolves | apply withPayload_evolves)
    | (with_reducible first | apply worldFault_evolves)
    | simp only [store_mk, store_eta] | split

theorem execCleLoad_evolves (h_ctxs : pm .ctxs = true) (hm : pm .mem = true) (h : Evolves pm a s.store)
    (c : Fin 256) (r : DmaIn) {sx : State} (he : execCleLoad c r s = .next sx) :
    Evolves pm a sx.store := by
  unfold execCleLoad at he; rw [← Host.Outcome.next.inj he]
  repeat' first
    | with_reducible assumption | (intro _; try beta_reduce)
    | (with_reducible first | apply opCleLoad_evolves | apply withDesc_evolves)

theorem cleLoadEnd_evolves (h_ctxs : pm .ctxs = true) (h_mem : pm .mem = true) (h : Evolves pm a s.store)
    (l : CleLoad) :
    Evolves pm a (cleLoadEnd s l).store := by
  unfold cleLoadEnd; try dsimp only
  repeat' first
    | with_reducible assumption | (intro _; try beta_reduce)
    | (with_reducible first | apply ite_evolves | apply complete_evolves | apply loftWrite_evolves)
    | simp only [store_mk, store_eta] | split

theorem cleLoadsEnd_evolves (h_ctxs : pm .ctxs = true) (h_mem : pm .mem = true) (h : Evolves pm a s.store) :
    Evolves pm a (cleLoadsEnd s).store := by
  unfold cleLoadsEnd; try dsimp only
  repeat' first
    | with_reducible assumption | (intro _; try beta_reduce)
    | (with_reducible first | apply foldl_evolves | apply cleLoadEnd_evolves)
    | simp only [store_mk, store_eta] | split

end Machine
end Sys2Proof
end

