-- ==== Sys2Proof/Laws/EvolvesLamps.lean ====
section
/-!
SUPPORT. Every operation of Lamps.lean is an evolution (Laws/Evolves.lean).
-/
namespace Sys2Proof
namespace Machine

variable {pm : Part → Bool} {a : Store} {s : State}

theorem setLamp_evolves (hp : pm .lamps = true) (h : Evolves pm a s.store) (g : Fin 160) (f : Lamp → Lamp) :
    Evolves pm a (setLamp g f s).store := Evolves.lamps hp _ h

theorem fadeFrom_evolves (h_lamps : pm .lamps = true) (h : Evolves pm a s.store) (i : Fin 160) (v : Nat) :
    Evolves pm a (fadeFrom i v s).store := by
  unfold fadeFrom; try dsimp only
  repeat' first
    | with_reducible assumption | (intro _; try beta_reduce)
    | (with_reducible first | apply ite_evolves | apply setLamp_evolves) | simp only [store_mk, store_eta]

theorem fadeLamp_evolves (h_lamps : pm .lamps = true) (h : Evolves pm a s.store) (i : Fin 160) :
    Evolves pm a (fadeLamp i s).store := by
  unfold fadeLamp; try dsimp only
  repeat' first
    | with_reducible assumption | (intro _; try beta_reduce)
    | (with_reducible first | apply ite_evolves | apply draw_evolves | apply setLamp_evolves | apply (draw_evolves' (by with_reducible assumption)))
    | simp only [store_mk, store_eta] | split

theorem execFadeStep_evolves (h_lamps : pm .lamps = true) (h : Evolves pm a s.store) {sx : State}
    (he : execFadeStep s = .next sx) :
    Evolves pm a sx.store := by
  unfold execFadeStep at he; rw [← Host.Outcome.next.inj he]
  repeat' first
    | with_reducible assumption | (intro _; try beta_reduce)
    | (with_reducible first | apply forAll_evolves | apply fadeLamp_evolves)

theorem beaconEval_evolves (h_stalls : pm .stalls = true) (h : Evolves pm a s.store) :
    Evolves pm a (beaconEval s).store := by
  unfold beaconEval; try dsimp only
  repeat' first
    | with_reducible assumption | (intro _; try beta_reduce)
    | (with_reducible first | apply ite_evolves | apply inhibitOff_evolves | apply inhibitOn_evolves | apply put_evolves)
    | simp only [store_mk, store_eta] | split

theorem failGroup_evolves (h : Evolves pm a s.store) (k : Nat) : Evolves pm a (failGroup k s).store := by
  unfold failGroup; try dsimp only
  repeat' first
    | with_reducible assumption
    | (with_reducible first | apply ite_evolves | apply lifeAdd_evolves | apply put_evolves | apply raise_evolves | apply setF_evolves)

theorem lampFault_evolves (h_stalls : pm .stalls = true) (h : Evolves pm a s.store) (i : Fin 160) (short : Bool) :
    Evolves pm a (lampFault i short s).store := by
  unfold lampFault; try dsimp only
  repeat' first
    | with_reducible assumption | (intro _; try beta_reduce)
    | (with_reducible first | apply ite_evolves | apply beaconEval_evolves | apply failGroup_evolves | apply lifeAdd_evolves | apply raise_evolves | apply setF_evolves)
    | (with_reducible first | apply wr64_evolves | apply wrN_evolves)
    | simp only [store_mk, store_eta] | split

theorem execLampFault_evolves (h_stalls : pm .stalls = true) (h : Evolves pm a s.store) (i : Fin 160) (short :
    Bool) {sx : State} (he : execLampFault i short s = .next sx) :
    Evolves pm a sx.store := by
  unfold execLampFault at he; rw [← Host.Outcome.next.inj he]
  repeat' first
    | with_reducible assumption | (intro _; try beta_reduce)
    | (with_reducible first | apply lampFault_evolves)
    | simp only [store_mk, store_eta] | split

theorem testBurst_evolves (h_lamps : pm .lamps = true) (h : Evolves pm a s.store) (i : Fin 160) :
    Evolves pm a (testBurst i s).store := by
  unfold testBurst
  repeat' first
    | with_reducible assumption | (intro _; try beta_reduce)
    | (with_reducible first | apply ite_evolves | apply setLamp_evolves) | simp only [store_mk, store_eta]

theorem execTestBurst_evolves (h_lamps : pm .lamps = true) (h : Evolves pm a s.store) (i : Fin 160) {sx : State}
    (he : execTestBurst i s = .next sx) :
    Evolves pm a sx.store := by
  unfold execTestBurst at he; rw [← Host.Outcome.next.inj he]
  repeat' first | with_reducible assumption | (with_reducible first | apply testBurst_evolves)

theorem lmpReport_evolves (h : Evolves pm a s.store) (f : Fld) : Evolves pm a (lmpReport f s).store := by
  unfold lmpReport
  repeat' first | with_reducible assumption | (with_reducible first | apply raiseOnSet_evolves)

theorem groupClear_evolves (h : Evolves pm a s.store) (k : Fin 8) : Evolves pm a (groupClear k s).store := by
  unfold groupClear
  repeat' first
    | with_reducible assumption | (with_reducible first | apply ite_evolves) | simp only [store_mk, store_eta]

theorem execGroupClear_evolves (h : Evolves pm a s.store) (sec : Bool) (k : Fin 8) {sx : State}
    (he : execGroupClear sec k s = .next sx) :
    Evolves pm a sx.store := by
  unfold execGroupClear at he; rw [← Host.Outcome.next.inj he]
  repeat' first
    | with_reducible assumption | (intro _; try beta_reduce)
    | (with_reducible first | apply groupClear_evolves | apply hostWrite_evolves)

theorem lampHealed_evolves (h_lamps : pm .lamps = true) (h : Evolves pm a s.store) (i : Fin 160) :
    Evolves pm a (lampHealed i s).store := by
  unfold lampHealed
  repeat' first | with_reducible assumption | (with_reducible first | apply clrF_evolves | apply fadeFrom_evolves)

theorem groupClearDone_evolves (h_lamps : pm .lamps = true) (h_stalls : pm .stalls = true)
    (h : Evolves pm a s.store) (k : Fin 8) (bad : List (Fin 160)) :
    Evolves pm a (groupClearDone k bad s).store := by
  unfold groupClearDone; try dsimp only
  repeat' first
    | with_reducible assumption | (intro _; try beta_reduce)
    | (with_reducible first | apply ite_evolves | apply foldl_evolves | apply beaconEval_evolves | apply lampHealed_evolves | apply lmpReport_evolves | apply put_evolves)
    | simp only [store_mk, store_eta] | split

theorem execGroupClearDone_evolves (h_lamps : pm .lamps = true) (h_stalls : pm .stalls = true)
    (h : Evolves pm a s.store) (k : Fin 8) (bad : List (Fin 160)) {sx : State}
    (he : execGroupClearDone k bad s = .next sx) :
    Evolves pm a sx.store := by
  unfold execGroupClearDone at he; rw [← Host.Outcome.next.inj he]
  repeat' first
    | with_reducible assumption | (intro _; try beta_reduce)
    | (with_reducible first | apply groupClearDone_evolves)
    | simp only [store_mk, store_eta] | split

theorem lampClear_evolves (h_lamps : pm .lamps = true) (h : Evolves pm a s.store) (i : Fin 160) (pass : Bool) :
    Evolves pm a (lampClear i pass s).store := by
  unfold lampClear
  repeat' first
    | with_reducible assumption
    | (with_reducible first | apply ite_evolves | apply lampHealed_evolves | apply lmpReport_evolves)

theorem execLampClear_evolves (h_lamps : pm .lamps = true) (h : Evolves pm a s.store) (sec : Bool) (i : Fin 160)
    (pass : Bool) {sx : State} (he : execLampClear sec i pass s = .next sx) :
    Evolves pm a sx.store := by
  unfold execLampClear at he; rw [← Host.Outcome.next.inj he]
  repeat' first
    | with_reducible assumption | (intro _; try beta_reduce)
    | (with_reducible first | apply hostWrite_evolves | apply lampClear_evolves)

theorem fallBack_evolves {s' : State} (h_lamps : pm .lamps = true) (h : Evolves pm a s'.store) (k : Nat) (s : State) :
    Evolves pm a (fallBack k s s').store := by
  unfold fallBack
  repeat' first
    | with_reducible assumption | (intro _; try beta_reduce)
    | (with_reducible first | apply ite_evolves | apply foldl_evolves | apply fadeFrom_evolves)

theorem lmpPatternFault_evolves (h_lamps : pm .lamps = true) (h : Evolves pm a s.store) (k : Fin 4) :
    Evolves pm a (lmpPatternFault k s).store := by
  unfold lmpPatternFault; try dsimp only
  repeat' first
    | with_reducible assumption
    | (with_reducible first | apply ite_evolves | apply fallBack_evolves | apply put_evolves | apply raise_evolves | apply setF_evolves)

theorem execLmpPatternFault_evolves (h_lamps : pm .lamps = true) (h : Evolves pm a s.store) (k : Fin 4) {sx : State}
    (he : execLmpPatternFault k s = .next sx) :
    Evolves pm a sx.store := by
  unfold execLmpPatternFault at he; rw [← Host.Outcome.next.inj he]
  repeat' first | with_reducible assumption | (with_reducible first | apply lmpPatternFault_evolves)

theorem driveNow_evolves (h_lamps : pm .lamps = true) (h : Evolves pm a s.store) (k : Nat) :
    Evolves pm a (driveNow k s).store := by
  unfold driveNow; try dsimp only
  repeat' first
    | with_reducible assumption | (intro _; try beta_reduce)
    | (with_reducible first | apply ite_evolves | apply forAll_evolves | apply setLamp_evolves)
    | simp only [store_mk, store_eta] | split

theorem patClear_evolves (h_lamps : pm .lamps = true) (h : Evolves pm a s.store) (k : Fin 4) :
    Evolves pm a (patClear k s).store := by
  unfold patClear; try dsimp only
  repeat' first
    | with_reducible assumption | (intro _; try beta_reduce)
    | (with_reducible first | apply ite_evolves | apply driveNow_evolves | apply put_evolves)
    | simp only [store_mk, store_eta] | split

theorem execPatClear_evolves (h_lamps : pm .lamps = true) (h : Evolves pm a s.store) (sec : Bool) (k : Fin 4)
    {sx : State} (he : execPatClear sec k s = .next sx) :
    Evolves pm a sx.store := by
  unfold execPatClear at he; rw [← Host.Outcome.next.inj he]
  repeat' first
    | with_reducible assumption | (intro _; try beta_reduce)
    | (with_reducible first | apply hostWrite_evolves | apply patClear_evolves)

theorem beaconBindWrite_evolves (h_stalls : pm .stalls = true) (h : Evolves pm a s.store) (v : Word) :
    Evolves pm a (beaconBindWrite v s).store := by
  unfold beaconBindWrite; try dsimp only
  repeat' first
    | with_reducible assumption | (intro _; try beta_reduce)
    | (with_reducible first | apply ite_evolves | apply beaconEval_evolves | apply lmpReport_evolves | apply put_evolves)
    | simp only [store_mk, store_eta] | split

theorem execBeaconBindWrite_evolves (h_stalls : pm .stalls = true) (h : Evolves pm a s.store) (sec : Bool) (v :
    Word) {sx : State} (he : execBeaconBindWrite sec v s = .next sx) :
    Evolves pm a sx.store := by
  unfold execBeaconBindWrite at he; rw [← Host.Outcome.next.inj he]
  repeat' first
    | with_reducible assumption | (intro _; try beta_reduce)
    | (with_reducible first | apply beaconBindWrite_evolves | apply secureWrite_evolves)
    | simp only [store_mk, store_eta] | split

theorem lmpApply_evolves (h_lamps : pm .lamps = true) (h_stalls : pm .stalls = true) (h : Evolves pm a s.store)
    (o : Nat) (n : Nat) :
    Evolves pm a (lmpApply o n s).store := by
  unfold lmpApply; try dsimp only
  repeat' first
    | with_reducible assumption | (intro _; try beta_reduce)
    | (with_reducible first | apply ite_evolves | apply beaconEval_evolves | apply driveNow_evolves | apply fadeFrom_evolves | apply failGroup_evolves | apply fallBack_evolves)
    | (with_reducible first | apply wrN_evolves)
    | simp only [store_mk, store_eta] | split

theorem lmpTake_evolves (h_lamps : pm .lamps = true) (h_stalls : pm .stalls = true) (h : Evolves pm a s.store)
    (o : Nat) (n : Nat) :
    Evolves pm a (lmpTake o n s).store := by
  unfold lmpTake
  exact ite_evolves (lmpApply_evolves h_lamps h_stalls h o n) (lmpReport_evolves h _)

theorem lampConfigWrite_evolves (h_lamps : pm .lamps = true) (h_stalls : pm .stalls = true)
    (h : Evolves pm a s.store) (sec : Bool) (o : Nat) (v : Word) :
    Evolves pm a (lampConfigWrite sec o v s).store := by
  unfold lampConfigWrite; try dsimp only
  repeat' first
    | with_reducible assumption | (intro _; try beta_reduce)
    | (with_reducible first | apply ite_evolves | apply hostWrite_evolves | apply regWorldFault_evolves | apply lmpTake_evolves)
    | simp only [store_mk, store_eta] | split

theorem execLampConfigWrite_evolves (h_lamps : pm .lamps = true) (h_stalls : pm .stalls = true)
    (h : Evolves pm a s.store) (sec : Bool) (o : Nat) (v : Word) {sx : State}
    (he : execLampConfigWrite sec o v s = .next sx) :
    Evolves pm a sx.store := by
  unfold execLampConfigWrite at he; rw [← Host.Outcome.next.inj he]
  repeat' first
    | with_reducible assumption | (intro _; try beta_reduce)
    | (with_reducible first | apply lampConfigWrite_evolves)
    | simp only [store_mk, store_eta] | split

end Machine
end Sys2Proof
end

