-- ==== Sys2Proof/Laws/EvolvesStage.lean ====
section
/-!
SUPPORT. Every operation of Stage.lean is an evolution (Laws/Evolves.lean).
-/
namespace Sys2Proof
namespace Machine

variable {pm : Part → Bool} {a : Store} {s : State}

theorem doom_evolves (h_txns : pm .txns = true) (h : Evolves pm a s.store) (i : Fin 64) (why : Nat) :
    Evolves pm a (doom i why s).store := by
  unfold doom; try dsimp only
  repeat' first
    | with_reducible assumption | (intro _; try beta_reduce)
    | (with_reducible first | apply ite_evolves | apply raise_evolves | apply setF_evolves | apply setTxn_evolves)
    | simp only [store_mk, store_eta]

theorem stagedGridsFail_evolves (h : Evolves pm a s.store) (l : List Act) (bad : List Nat) :
    Evolves pm a (stagedGridsFail l bad s).store := by
  unfold stagedGridsFail
  repeat' first
    | with_reducible assumption | (intro _; try beta_reduce)
    | (with_reducible first | apply foldl_evolves | apply raise_evolves)

theorem storeActs_evolves (h_txns : pm .txns = true) (h : Evolves pm a s.store) (c : Nat) (i : Fin 64)
    (l : List Act) :
    Evolves pm a (storeActs c i l s).store := by
  unfold storeActs; try dsimp only
  repeat' first
    | with_reducible assumption | (intro _; try beta_reduce)
    | (with_reducible first | apply ite_evolves | apply lifeMax_evolves | apply raise_evolves | apply setF_evolves | apply setTxn_evolves)
    | (with_reducible first | apply stagedGridsFail_evolves) | simp only [store_mk, store_eta]

theorem stageActs_evolves (h_ctxs : pm .ctxs = true) (h_txns : pm .txns = true) (h : Evolves pm a s.store)
    (c : Fin 256) (q : Nat) (i : Fin 64) (l : List Act) (ra : State → Option Nat × Option Nat) (k : State → State)
    (hk : ∀ u, Evolves pm a u.store → Evolves pm a (k u).store) :
    Evolves pm a (stageActs c q i l ra k s).store := by
  unfold stageActs; try dsimp only
  repeat' first
    | with_reducible assumption | (intro _; try beta_reduce)
    | (with_reducible first | apply ite_evolves | apply complete_evolves | apply doom_evolves | apply storeActs_evolves | apply worldFault_evolves)
    | (with_reducible first | apply hk) | simp only [store_mk, store_eta] | split

theorem stageOpen_evolves (h_ctxs : pm .ctxs = true) (h : Evolves pm a s.store) (c : Fin 256) (q : Nat) (i : Fin 64)
    (k : State → State) (hk : ∀ u, Evolves pm a u.store → Evolves pm a (k u).store) :
    Evolves pm a (stageOpen c q i k s).store := by
  unfold stageOpen
  repeat' first
    | with_reducible assumption | (with_reducible first | apply ite_evolves | apply complete_evolves | apply hk)

theorem stageFormat_evolves (h_ctxs : pm .ctxs = true) (h_txns : pm .txns = true) (h : Evolves pm a s.store)
    (c : Fin 256) (q : Nat) (n : Nat) (i : Fin 64) :
    Evolves pm a (stageFormat c q n i s).store := by
  unfold stageFormat
  repeat' first | with_reducible assumption | (with_reducible first | apply complete_evolves | apply doom_evolves)

theorem stageOne_evolves (h_ctxs : pm .ctxs = true) (h_txns : pm .txns = true) (h : Evolves pm a s.store)
    (c : Fin 256) (d : Desc) (ok : Bool) (aa : Act) (k : State → State)
    (hk : ∀ u, Evolves pm a u.store → Evolves pm a (k u).store) :
    Evolves pm a (stageOne c d ok aa k s).store := by
  unfold stageOne
  repeat' first
    | with_reducible assumption | (intro _; try beta_reduce)
    | (with_reducible first | apply ite_evolves | apply stageActs_evolves | apply stageFormat_evolves | apply stageOpen_evolves | apply hk)

end Machine
end Sys2Proof
end

