-- ==== Sys2Proof/Laws/EvolvesAxes.lean ====
section
/-!
SUPPORT. Every operation of Axes.lean is an evolution (Laws/Evolves.lean).
-/
namespace Sys2Proof
namespace Machine

variable {pm : Part → Bool} {a : Store} {s : State}

theorem setAxis_evolves (hp : pm .axes = true) (h : Evolves pm a s.store) (g : Fin 8) (f : Axis → Axis) :
    Evolves pm a (setAxis g f s).store := Evolves.axes hp _ h

theorem axEnter_evolves (h : Evolves pm a s.store) (aa : Fin 8) (c : Nat) : Evolves pm a (axEnter aa c s).store := by
  unfold axEnter; try dsimp only
  repeat' first | with_reducible assumption | (with_reducible first | apply put_evolves)

theorem axShow_evolves (h : Evolves pm a s.store) (aa : Fin 8) : Evolves pm a (axShow aa s).store := by
  unfold axShow
  repeat' first | with_reducible assumption | (with_reducible first | apply put_evolves)

theorem axReport_evolves (h : Evolves pm a s.store) (f : Fld) (aa : Nat) : Evolves pm a (axReport f aa s).store := by
  unfold axReport
  repeat' first | with_reducible assumption | (with_reducible first | apply raiseOnSet_evolves)

theorem tellAxisPins_evolves (h : Evolves pm a s.store) (aa : Fin 8) (t : Nat) (old : State) :
    Evolves pm a (tellAxisPins aa t old s).store := by
  unfold tellAxisPins; try dsimp only
  repeat' first
    | with_reducible assumption | (intro _; try beta_reduce)
    | (with_reducible first | apply ite_evolves | apply emit_evolves)
    | simp only [store_mk, store_eta] | split

theorem stepPulses_evolves (h : Evolves pm a s.store) (aa : Fin 8) (r : AxRun) (p : Int) (q : Int) (lo : Nat) :
    Evolves pm a (stepPulses aa r p q lo s).store := by
  unfold stepPulses; try dsimp only
  repeat' first
    | with_reducible assumption | (intro _; try beta_reduce)
    | (with_reducible first | apply ite_evolves | apply foldl_evolves | apply emit_evolves)
    | simp only [store_mk, store_eta] | split

theorem turnDir_evolves (h_axes : pm .axes = true) (h : Evolves pm a s.store) (aa : Fin 8) (dir : Int) (at_ :
    Nat) :
    Evolves pm a (turnDir aa dir at_ s).store := by
  unfold turnDir; try dsimp only
  repeat' first
    | with_reducible assumption | (intro _; try beta_reduce)
    | (with_reducible first | apply ite_evolves | apply put_evolves | apply setAxis_evolves | apply tellAxisPins_evolves)
    | simp only [store_mk, store_eta] | split

theorem startEntry_evolves (h_axes : pm .axes = true) (h : Evolves pm a s.store) (aa : Fin 8) (e : AxEnt) (t0 : Nat)
    (p : Int) (v : Int) :
    Evolves pm a (startEntry aa e t0 p v s).store := by
  unfold startEntry; try dsimp only
  repeat' first
    | with_reducible assumption | (intro _; try beta_reduce)
    | (with_reducible first | apply ite_evolves | apply axEnter_evolves | apply put_evolves | apply setAxis_evolves | apply turnDir_evolves)
    | (with_reducible first | apply wrI_evolves) | simp only [store_mk, store_eta] | split

theorem axComplete_evolves (h_ctxs : pm .ctxs = true) (h : Evolves pm a s.store) (e : AxEnt) (st : Nat)
    (ra : Option Nat) (rb : Option Nat) :
    Evolves pm a (axComplete e st ra rb s).store := by
  unfold axComplete
  repeat' first
    | with_reducible assumption | (with_reducible first | apply ite_evolves | apply complete_evolves) | split

theorem dropQueue_evolves (h_axes : pm .axes = true) (h_ctxs : pm .ctxs = true) (h : Evolves pm a s.store)
    (aa : Fin 8) (ra : Option Nat) :
    Evolves pm a (dropQueue aa ra s).store := by
  unfold dropQueue; try dsimp only
  repeat' first
    | with_reducible assumption | (intro _; try beta_reduce)
    | (with_reducible first | apply foldl_evolves | apply axComplete_evolves | apply axShow_evolves | apply setAxis_evolves)
    | simp only [store_mk, store_eta] | split

theorem freshDrops_evolves (h_axes : pm .axes = true) (h : Evolves pm a s.store) (aa : Fin 8) :
    Evolves pm a (freshDrops aa s).store := by
  unfold freshDrops; try dsimp only
  repeat' first
    | with_reducible assumption | (intro _; try beta_reduce)
    | (with_reducible first | apply setAxis_evolves)
    | simp only [store_mk, store_eta] | split

theorem takeEntry_evolves (h_axes : pm .axes = true) (h : Evolves pm a s.store) (aa : Fin 8) :
    Evolves pm a (takeEntry aa s).store := by
  unfold takeEntry; try dsimp only
  repeat' first
    | with_reducible assumption | (intro _; try beta_reduce)
    | (with_reducible first | apply setAxis_evolves)
    | simp only [store_mk, store_eta] | split

theorem queuedMoveStart_evolves (h_axes : pm .axes = true) (h : Evolves pm a s.store) (aa : Fin 8) :
    Evolves pm a (queuedMoveStart aa s).store := by
  unfold queuedMoveStart; try dsimp only
  repeat' first
    | with_reducible assumption | (intro _; try beta_reduce)
    | (with_reducible first | apply ite_evolves | apply axShow_evolves | apply startEntry_evolves | apply takeEntry_evolves)
    | simp only [store_mk, store_eta] | split

theorem execQueuedMoveStart_evolves (h_axes : pm .axes = true) (h : Evolves pm a s.store) (aa : Fin 8) {sx : State}
    (he : execQueuedMoveStart aa s = .next sx) :
    Evolves pm a sx.store := by
  unfold execQueuedMoveStart at he; rw [← Host.Outcome.next.inj he]
  repeat' first | with_reducible assumption | (with_reducible first | apply queuedMoveStart_evolves)

theorem countSteps_evolves (h : Evolves pm a s.store) (aa : Nat) (p : Int) (q : Int) :
    Evolves pm a (countSteps aa p q s).store := by
  unfold countSteps
  repeat' first | with_reducible assumption | (with_reducible first | apply ite_evolves | apply lifeAdd_evolves)

theorem setPos_evolves (h : Evolves pm a s.store) (aa : Nat) (q : Int) : Evolves pm a (setPos aa q s).store := by
  unfold setPos
  repeat' first | with_reducible assumption | (with_reducible first | apply countSteps_evolves | apply wrI_evolves)

theorem tellEntry_evolves (h_ctxs : pm .ctxs = true) (h : Evolves pm a s.store) (aa : Fin 8) (e : AxEnt)
    (start : Nat) :
    Evolves pm a (tellEntry aa e start s).store := by
  unfold tellEntry; try dsimp only
  repeat' first
    | with_reducible assumption
    | (with_reducible first | apply ite_evolves | apply add64_evolves | apply axComplete_evolves | apply axReport_evolves | apply lifeAdd_evolves)

theorem entryRest_evolves (h_axes : pm .axes = true) (h : Evolves pm a s.store) (aa : Fin 8) (r : AxRun) :
    Evolves pm a (entryRest aa r s).store := by
  unfold entryRest; try dsimp only
  repeat' first
    | with_reducible assumption | (intro _; try beta_reduce)
    | (with_reducible first | apply ite_evolves | apply axEnter_evolves | apply queuedMoveStart_evolves | apply setAxis_evolves | apply turnDir_evolves)
    | simp only [store_mk, store_eta] | split

theorem moveEnd_evolves (h_axes : pm .axes = true) (h_ctxs : pm .ctxs = true) (h : Evolves pm a s.store) (aa :
    Fin 8) :
    Evolves pm a (moveEnd aa s).store := by
  unfold moveEnd; try dsimp only
  repeat' first
    | with_reducible assumption | (intro _; try beta_reduce)
    | (with_reducible first | apply ite_evolves | apply axShow_evolves | apply entryRest_evolves | apply setPos_evolves | apply startEntry_evolves | apply stepPulses_evolves)
    | (with_reducible first | apply takeEntry_evolves | apply tellEntry_evolves)
    | simp only [store_mk, store_eta] | split

theorem execMoveEnd_evolves (h_axes : pm .axes = true) (h_ctxs : pm .ctxs = true) (h : Evolves pm a s.store)
    (aa : Fin 8) {sx : State} (he : execMoveEnd aa s = .next sx) :
    Evolves pm a sx.store := by
  unfold execMoveEnd at he; rw [← Host.Outcome.next.inj he]
  repeat' first | with_reducible assumption | (with_reducible first | apply moveEnd_evolves)

theorem moveEnds_evolves {pm : Part → Bool} {a : Store} {s : State} (h_axes : pm .axes = true)
    (h_ctxs : pm .ctxs = true) (h : Evolves pm a s.store) (x : Fin 8) (n : Nat) :
    Evolves pm a (moveEnds x n s).store := by
  induction n generalizing s with
  | zero => exact h
  | succ n ih =>
    unfold moveEnds
    split
    · exact ite_evolves (ih (moveEnd_evolves h_axes h_ctxs h x)) h
    · exact h

theorem brake_evolves (h_axes : pm .axes = true) (h : Evolves pm a s.store) (aa : Fin 8) (mode : Nat) (A : Nat)
    (J : Nat) :
    Evolves pm a (brake aa mode A J s).store := by
  unfold brake; try dsimp only
  repeat' first
    | with_reducible assumption | (intro _; try beta_reduce)
    | (with_reducible first | apply ite_evolves | apply axEnter_evolves | apply setAxis_evolves)
    | simp only [store_mk, store_eta] | split

theorem beginStop_evolves (h_axes : pm .axes = true) (h_ctxs : pm .ctxs = true) (h : Evolves pm a s.store)
    (aa : Fin 8) :
    Evolves pm a (beginStop aa s).store := by
  unfold beginStop; try dsimp only
  repeat' first
    | with_reducible assumption | (intro _; try beta_reduce)
    | (with_reducible first | apply brake_evolves | apply dropQueue_evolves | apply freshDrops_evolves)
    | simp only [store_mk, store_eta] | split

theorem tellAxis_evolves (h_ctxs : pm .ctxs = true) (h : Evolves pm a s.store) (aa : Nat) (ops : List Nat)
    (st : Nat) (ra : Option Nat) (rb : Option Nat) :
    Evolves pm a (tellAxis aa ops st ra rb s).store := by
  unfold tellAxis
  repeat' first
    | with_reducible assumption | (intro _; try beta_reduce)
    | (with_reducible first | apply foldl_evolves | apply complete_evolves)

theorem stopQueue_evolves (h_axes : pm .axes = true) (h_ctxs : pm .ctxs = true) (h : Evolves pm a s.store)
    (aa : Fin 8) :
    Evolves pm a (stopQueue aa s).store := by
  unfold stopQueue; try dsimp only
  repeat' first
    | with_reducible assumption | (intro _; try beta_reduce)
    | (with_reducible first | apply ite_evolves | apply dropQueue_evolves)
    | simp only [store_mk, store_eta] | split

theorem stopStep_evolves (h_axes : pm .axes = true) (h_ctxs : pm .ctxs = true) (h : Evolves pm a s.store)
    (aa : Fin 8) :
    Evolves pm a (stopStep aa s).store := by
  unfold stopStep; try dsimp only
  repeat' first
    | with_reducible assumption | (intro _; try beta_reduce)
    | (with_reducible first | apply ite_evolves | apply beginStop_evolves | apply dropQueue_evolves | apply freshDrops_evolves | apply stopQueue_evolves | apply tellAxis_evolves)
    | simp only [store_mk, store_eta] | split

theorem stopRest_evolves (h_axes : pm .axes = true) (h_ctxs : pm .ctxs = true) (h : Evolves pm a s.store)
    (aa : Fin 8) (r : AxRun) :
    Evolves pm a (stopRest aa r s).store := by
  unfold stopRest; try dsimp only
  repeat' first
    | with_reducible assumption | (intro _; try beta_reduce)
    | (with_reducible first | apply ite_evolves | apply axComplete_evolves | apply setAxis_evolves | apply setPos_evolves)
    | simp only [store_mk, store_eta]

theorem controlledStopComplete_evolves (h_axes : pm .axes = true) (h_ctxs : pm .ctxs = true)
    (h : Evolves pm a s.store) (aa : Fin 8) :
    Evolves pm a (controlledStopComplete aa s).store := by
  unfold controlledStopComplete; try dsimp only
  repeat' first
    | with_reducible assumption
    | (with_reducible first | apply ite_evolves | apply axEnter_evolves | apply stopRest_evolves | apply tellAxis_evolves)
    | simp only [store_mk, store_eta] | split

theorem execControlledStopComplete_evolves (h_axes : pm .axes = true) (h_ctxs : pm .ctxs = true)
    (h : Evolves pm a s.store) (aa : Fin 8) {sx : State} (he : execControlledStopComplete aa s = .next sx) :
    Evolves pm a sx.store := by
  unfold execControlledStopComplete at he; rw [← Host.Outcome.next.inj he]
  repeat' first | with_reducible assumption | (with_reducible first | apply controlledStopComplete_evolves)

theorem axisFault_evolves (h_axes : pm .axes = true) (h : Evolves pm a s.store) (aa : Fin 8) (d : Nat) :
    Evolves pm a (axisFault aa d s).store := by
  unfold axisFault; try dsimp only
  repeat' first
    | with_reducible assumption | (intro _; try beta_reduce)
    | (with_reducible first | apply ite_evolves | apply axEnter_evolves | apply brake_evolves | apply clrF_evolves | apply freshDrops_evolves | apply lifeAdd_evolves)
    | (with_reducible first | apply put_evolves | apply raise_evolves | apply setAxis_evolves | apply wrN_evolves)
    | simp only [store_mk, store_eta] | split

theorem faultStopEnd_evolves (h_axes : pm .axes = true) (h_ctxs : pm .ctxs = true) (h : Evolves pm a s.store)
    (aa : Fin 8) :
    Evolves pm a (faultStopEnd aa s).store := by
  unfold faultStopEnd; try dsimp only
  repeat' first
    | with_reducible assumption | (intro _; try beta_reduce)
    | (with_reducible first | apply ite_evolves | apply axEnter_evolves | apply dropQueue_evolves | apply setAxis_evolves | apply stopRest_evolves | apply tellAxis_evolves)
    | (with_reducible first | apply tellAxisPins_evolves)
    | simp only [store_mk, store_eta] | split

theorem execFaultStopEnd_evolves (h_axes : pm .axes = true) (h_ctxs : pm .ctxs = true) (h : Evolves pm a s.store)
    (aa : Fin 8) {sx : State} (he : execFaultStopEnd aa s = .next sx) :
    Evolves pm a sx.store := by
  unfold execFaultStopEnd at he; rw [← Host.Outcome.next.inj he]
  repeat' first | with_reducible assumption | (with_reducible first | apply faultStopEnd_evolves)

theorem enableStep_evolves (h_axes : pm .axes = true) (h_ctxs : pm .ctxs = true) (h : Evolves pm a s.store)
    (aa : Fin 8) :
    Evolves pm a (enableStep aa s).store := by
  unfold enableStep; try dsimp only
  repeat' first
    | with_reducible assumption | (intro _; try beta_reduce)
    | (with_reducible first | apply ite_evolves | apply axEnter_evolves | apply beginStop_evolves | apply clrF_evolves | apply dropQueue_evolves | apply freshDrops_evolves)
    | (with_reducible first | apply put_evolves | apply setAxis_evolves | apply tellAxis_evolves | apply wrN_evolves)
    | simp only [store_mk, store_eta] | split

theorem axisHeartbeat_evolves (h_axes : pm .axes = true) (h : Evolves pm a s.store) (aa : Fin 8) :
    Evolves pm a (axisHeartbeat aa s).store := by
  unfold axisHeartbeat; try dsimp only
  repeat' first
    | with_reducible assumption | (intro _; try beta_reduce)
    | (with_reducible first | apply ite_evolves | apply axEnter_evolves | apply setAxis_evolves)
    | simp only [store_mk, store_eta]

theorem replanRun_evolves (h_axes : pm .axes = true) (h : Evolves pm a s.store) (aa : Fin 8) (l : Nat × Nat × Nat) :
    Evolves pm a (replanRun aa l s).store := by
  unfold replanRun; try dsimp only
  repeat' first
    | with_reducible assumption | (intro _; try beta_reduce) | (with_reducible first | apply setAxis_evolves)
    | simp only [store_mk, store_eta] | split

theorem axisLimitChange_evolves (h_axes : pm .axes = true) (h : Evolves pm a s.store) (aa : Fin 8) :
    Evolves pm a (axisLimitChange aa s).store := by
  unfold axisLimitChange; try dsimp only
  repeat' first
    | with_reducible assumption | (intro _; try beta_reduce)
    | (with_reducible first | apply ite_evolves | apply axReport_evolves | apply lifeAdd_evolves | apply replanRun_evolves | apply setAxis_evolves)
    | simp only [store_mk, store_eta] | split

theorem execAxisLimitChange_evolves (h_axes : pm .axes = true) (h : Evolves pm a s.store) (aa : Fin 8) {sx : State}
    (he : execAxisLimitChange aa s = .next sx) :
    Evolves pm a sx.store := by
  unfold execAxisLimitChange at he; rw [← Host.Outcome.next.inj he]
  repeat' first | with_reducible assumption | (with_reducible first | apply axisLimitChange_evolves)

theorem restPast_evolves (h_axes : pm .axes = true) (h : Evolves pm a s.store) (aa : Fin 8) :
    Evolves pm a (restPast aa s).store := by
  unfold restPast; try dsimp only
  repeat' first
    | with_reducible assumption | (intro _; try beta_reduce)
    | (with_reducible first | apply setAxis_evolves)
    | simp only [store_mk, store_eta] | split

theorem blendStep_evolves (h_axes : pm .axes = true) (h : Evolves pm a s.store) (aa : Fin 8) :
    Evolves pm a (blendStep aa s).store := by
  unfold blendStep; try dsimp only
  repeat' first
    | with_reducible assumption | (intro _; try beta_reduce)
    | (with_reducible first | apply ite_evolves | apply replanRun_evolves | apply restPast_evolves | apply setAxis_evolves)
    | simp only [store_mk, store_eta] | split

theorem axisEarly_evolves (h_axes : pm .axes = true) (h_ctxs : pm .ctxs = true) (h : Evolves pm a s.store) (aa :
    Fin 8) :
    Evolves pm a (axisEarly aa s).store := by
  unfold axisEarly; try dsimp only
  repeat' first
    | with_reducible assumption | (intro _; try beta_reduce)
    | (with_reducible first | apply ite_evolves | apply foldl_evolves | apply axisFault_evolves | apply axisHeartbeat_evolves | apply axisLimitChange_evolves | apply blendStep_evolves)
    | (with_reducible first | apply controlledStopComplete_evolves | apply enableStep_evolves | apply faultStopEnd_evolves | apply moveEnds_evolves | apply stopStep_evolves | apply tellAxisPins_evolves)
    | simp only [store_mk, store_eta] | split

theorem axisLate_evolves (h_axes : pm .axes = true) (h_ctxs : pm .ctxs = true) (h : Evolves pm a s.store) (aa :
    Fin 8) :
    Evolves pm a (axisLate aa s).store := by
  unfold axisLate; try dsimp only
  repeat' first
    | with_reducible assumption | (intro _; try beta_reduce)
    | (with_reducible first | apply ite_evolves | apply axEnter_evolves | apply put_evolves | apply queuedMoveStart_evolves | apply setAxis_evolves | apply tellAxis_evolves)
    | (with_reducible first | apply tellAxisPins_evolves)
    | simp only [store_mk, store_eta] | split

theorem dirDelay_evolves (h_axes : pm .axes = true) (h : Evolves pm a s.store) (aa : Fin 8) :
    Evolves pm a (dirDelay aa s).store := by
  unfold dirDelay; try dsimp only
  repeat' first
    | with_reducible assumption | (intro _; try beta_reduce)
    | (with_reducible first | apply ite_evolves | apply axReport_evolves | apply setAxis_evolves)
    | simp only [store_mk, store_eta] | split

theorem showEstimate_evolves (h : Evolves pm a s.store) (aa : Fin 8) :
    Evolves pm a (showEstimate aa s).store := by
  unfold showEstimate; try dsimp only
  repeat' first
    | with_reducible assumption | (intro _; try beta_reduce)
    | (with_reducible first | apply ite_evolves | apply clrF_evolves)
    | simp only [store_mk, store_eta] | split

theorem axisTick_evolves (h_axes : pm .axes = true) (h : Evolves pm a s.store) (aa : Fin 8) :
    Evolves pm a (axisTick aa s).store := by
  unfold axisTick; try dsimp only
  repeat' first
    | with_reducible assumption | (intro _; try beta_reduce)
    | (with_reducible first | apply ite_evolves | apply dirDelay_evolves | apply lifeTime_evolves | apply setAxis_evolves | apply setPos_evolves | apply showEstimate_evolves)
    | (with_reducible first | apply stepPulses_evolves | apply wrI_evolves)
    | simp only [store_mk, store_eta] | split

theorem axAsk_evolves (h_axes : pm .axes = true) (h : Evolves pm a s.store) (aa : Fin 8) (f : AxReq → AxReq) :
    Evolves pm a (axAsk aa f s).store := by
  unfold axAsk
  repeat' first
    | with_reducible assumption | (intro _; try beta_reduce) | (with_reducible first | apply setAxis_evolves)
    | simp only [store_mk, store_eta]

theorem withAxis_evolves (h_ctxs : pm .ctxs = true) (h : Evolves pm a s.store) (c : Fin 256) (op : Nat)
    (k : Desc → Fin 8 → State → State) (hk : ∀ x0 x1 u, Evolves pm a u.store → Evolves pm a (k x0 x1 u).store) :
    Evolves pm a (withAxis c op k s).store := by
  unfold withAxis; try dsimp only
  repeat' first
    | with_reducible assumption | (intro _; try beta_reduce)
    | (with_reducible first | apply ite_evolves | apply blockCheck_evolves | apply withDesc_evolves | apply hk)
    | split

theorem axInterlock_evolves (h_ctxs : pm .ctxs = true) (h : Evolves pm a s.store) (c : Fin 256) (q : Nat) (aa : Nat) :
    Evolves pm a (axInterlock c q aa s).store := by
  unfold axInterlock
  repeat' first | with_reducible assumption | (with_reducible first | apply complete_evolves)

theorem enqueue_evolves (h_axes : pm .axes = true) (h : Evolves pm a s.store) (aa : Fin 8) (e : AxEnt) :
    Evolves pm a (enqueue aa e s).store := by
  unfold enqueue
  repeat' first
    | with_reducible assumption | (intro _; try beta_reduce)
    | (with_reducible first | apply axShow_evolves | apply setAxis_evolves) | simp only [store_mk, store_eta]

theorem opAxisMove_evolves (h_axes : pm .axes = true) (h_ctxs : pm .ctxs = true) (h_txns : pm .txns = true)
    (h : Evolves pm a s.store) (c : Fin 256) (d : Desc) (aa : Fin 8) :
    Evolves pm a (opAxisMove c d aa s).store := by
  unfold opAxisMove; try dsimp only
  repeat' first
    | with_reducible assumption | (intro _; try beta_reduce)
    | (with_reducible first | apply ite_evolves | apply axInterlock_evolves | apply axShow_evolves | apply complete_evolves | apply enqueue_evolves)
    | (with_reducible first | apply formatZero_evolves | apply setAxis_evolves | apply stageOne_evolves)
    | simp only [store_mk, store_eta]

theorem withRoom_evolves (h_ctxs : pm .ctxs = true) (h : Evolves pm a s.store) (c : Fin 256) (op : Nat)
    (k : Desc → Fin 8 → State → State) (hk : ∀ x0 x1 u, Evolves pm a u.store → Evolves pm a (k x0 x1 u).store) :
    Evolves pm a (withRoom c op k s).store := by
  unfold withRoom
  repeat' first
    | with_reducible assumption | (intro _; try beta_reduce)
    | (with_reducible first | apply ite_evolves | apply withAxis_evolves | apply hk)
    | simp only [store_mk, store_eta] | split

theorem execAxisMove_evolves (h_axes : pm .axes = true) (h_ctxs : pm .ctxs = true) (h_txns : pm .txns = true)
    (h : Evolves pm a s.store) (c : Fin 256) {sx : State} (he : execAxisMove c s = .next sx) :
    Evolves pm a sx.store := by
  unfold execAxisMove at he; rw [← Host.Outcome.next.inj he]
  repeat' first
    | with_reducible assumption | (intro _; try beta_reduce)
    | (with_reducible first | apply opAxisMove_evolves | apply withRoom_evolves)

theorem opAxisDwell_evolves (h_axes : pm .axes = true) (h_ctxs : pm .ctxs = true) (h : Evolves pm a s.store)
    (c : Fin 256) (d : Desc) (aa : Fin 8) :
    Evolves pm a (opAxisDwell c d aa s).store := by
  unfold opAxisDwell; try dsimp only
  repeat' first
    | with_reducible assumption
    | (with_reducible first | apply ite_evolves | apply axInterlock_evolves | apply enqueue_evolves | apply formatZero_evolves)

theorem execAxisDwell_evolves (h_axes : pm .axes = true) (h_ctxs : pm .ctxs = true) (h : Evolves pm a s.store)
    (c : Fin 256) {sx : State} (he : execAxisDwell c s = .next sx) :
    Evolves pm a sx.store := by
  unfold execAxisDwell at he; rw [← Host.Outcome.next.inj he]
  repeat' first
    | with_reducible assumption | (intro _; try beta_reduce)
    | (with_reducible first | apply opAxisDwell_evolves | apply withRoom_evolves)

theorem opAxisStop_evolves (h_axes : pm .axes = true) (h_ctxs : pm .ctxs = true) (h : Evolves pm a s.store)
    (c : Fin 256) (d : Desc) (aa : Fin 8) :
    Evolves pm a (opAxisStop c d aa s).store := by
  unfold opAxisStop; try dsimp only
  repeat' first
    | with_reducible assumption | (intro _; try beta_reduce)
    | (with_reducible first | apply ite_evolves | apply axAsk_evolves | apply axInterlock_evolves | apply complete_evolves | apply formatZero_evolves | apply stopQueue_evolves)
    | simp only [store_mk, store_eta] | split

theorem execAxisStop_evolves (h_axes : pm .axes = true) (h_ctxs : pm .ctxs = true) (h : Evolves pm a s.store)
    (c : Fin 256) {sx : State} (he : execAxisStop c s = .next sx) :
    Evolves pm a sx.store := by
  unfold execAxisStop at he; rw [← Host.Outcome.next.inj he]
  repeat' first
    | with_reducible assumption | (intro _; try beta_reduce)
    | (with_reducible first | apply opAxisStop_evolves | apply withAxis_evolves)

theorem devLatch_evolves (h_axes : pm .axes = true) (h : Evolves pm a s.store) (aa : Fin 8) (p : Fin 8) :
    Evolves pm a (devLatch aa p s).store := by
  unfold devLatch
  repeat' first
    | with_reducible assumption | (intro _; try beta_reduce) | (with_reducible first | apply setAxis_evolves)
    | simp only [store_mk, store_eta]

theorem devSync_evolves (h_axes : pm .axes = true) (h : Evolves pm a s.store) (aa : Fin 8) :
    Evolves pm a (devSync aa s).store := by
  unfold devSync; try dsimp only
  repeat' first
    | with_reducible assumption | (intro _; try beta_reduce)
    | (with_reducible first | apply ite_evolves | apply setAxis_evolves)
    | simp only [store_mk, store_eta] | split

theorem opAxisSetPos_evolves (h_axes : pm .axes = true) (h_ctxs : pm .ctxs = true) (h : Evolves pm a s.store)
    (c : Fin 256) (d : Desc) (aa : Fin 8) :
    Evolves pm a (opAxisSetPos c d aa s).store := by
  unfold opAxisSetPos; try dsimp only
  repeat' first
    | with_reducible assumption
    | (with_reducible first | apply ite_evolves | apply axInterlock_evolves | apply complete_evolves | apply devLatch_evolves | apply formatZero_evolves)
    | (with_reducible first | apply setF_evolves | apply wrN_evolves) | simp only [store_mk, store_eta] | split

theorem execAxisSetPos_evolves (h_axes : pm .axes = true) (h_ctxs : pm .ctxs = true) (h : Evolves pm a s.store)
    (c : Fin 256) {sx : State} (he : execAxisSetPos c s = .next sx) :
    Evolves pm a sx.store := by
  unfold execAxisSetPos at he; rw [← Host.Outcome.next.inj he]
  repeat' first
    | with_reducible assumption | (intro _; try beta_reduce)
    | (with_reducible first | apply opAxisSetPos_evolves | apply withAxis_evolves)

theorem opAxisResume_evolves (h_axes : pm .axes = true) (h_ctxs : pm .ctxs = true) (h : Evolves pm a s.store)
    (c : Fin 256) (d : Desc) (aa : Fin 8) :
    Evolves pm a (opAxisResume c d aa s).store := by
  unfold opAxisResume
  repeat' first
    | with_reducible assumption | (intro _; try beta_reduce)
    | (with_reducible first | apply ite_evolves | apply axAsk_evolves | apply axInterlock_evolves | apply formatZero_evolves)
    | simp only [store_mk, store_eta]

theorem execAxisResume_evolves (h_axes : pm .axes = true) (h_ctxs : pm .ctxs = true) (h : Evolves pm a s.store)
    (c : Fin 256) {sx : State} (he : execAxisResume c s = .next sx) :
    Evolves pm a sx.store := by
  unfold execAxisResume at he; rw [← Host.Outcome.next.inj he]
  repeat' first
    | with_reducible assumption | (intro _; try beta_reduce)
    | (with_reducible first | apply opAxisResume_evolves | apply withAxis_evolves)

theorem execAxisCmdStop_evolves (h_axes : pm .axes = true) (h : Evolves pm a s.store) (sec : Bool) (aa : Fin 8)
    {sx : State} (he : execAxisCmdStop sec aa s = .next sx) :
    Evolves pm a sx.store := by
  unfold execAxisCmdStop at he; rw [← Host.Outcome.next.inj he]
  repeat' first
    | with_reducible assumption | (intro _; try beta_reduce)
    | (with_reducible first | apply axAsk_evolves | apply hostWrite_evolves) | simp only [store_mk, store_eta]

theorem execStopAll_evolves (h_axes : pm .axes = true) (h : Evolves pm a s.store) (sec : Bool) {sx : State}
    (he : execStopAll sec s = .next sx) :
    Evolves pm a sx.store := by
  unfold execStopAll at he; rw [← Host.Outcome.next.inj he]
  repeat' first
    | with_reducible assumption | (intro _; try beta_reduce)
    | (with_reducible first | apply forAll_evolves | apply axAsk_evolves | apply hostWrite_evolves)
    | simp only [store_mk, store_eta]

theorem execAxisCmdResume_evolves (h_axes : pm .axes = true) (h : Evolves pm a s.store) (sec : Bool) (aa : Fin 8)
    {sx : State} (he : execAxisCmdResume sec aa s = .next sx) :
    Evolves pm a sx.store := by
  unfold execAxisCmdResume at he; rw [← Host.Outcome.next.inj he]
  repeat' first
    | with_reducible assumption | (intro _; try beta_reduce)
    | (with_reducible first | apply ite_evolves | apply axAsk_evolves | apply hostWrite_evolves)
    | simp only [store_mk, store_eta]

theorem axisFaultClear_evolves (h_axes : pm .axes = true) (h : Evolves pm a s.store) (aa : Fin 8) :
    Evolves pm a (axisFaultClear aa s).store := by
  unfold axisFaultClear; try dsimp only
  repeat' first
    | with_reducible assumption | (intro _; try beta_reduce)
    | (with_reducible first | apply ite_evolves | apply axAsk_evolves | apply setF_evolves)
    | simp only [store_mk, store_eta]

theorem execAxisFaultClear_evolves (h_axes : pm .axes = true) (h : Evolves pm a s.store) (sec : Bool) (aa : Fin 8)
    {sx : State} (he : execAxisFaultClear sec aa s = .next sx) :
    Evolves pm a sx.store := by
  unfold execAxisFaultClear at he; rw [← Host.Outcome.next.inj he]
  repeat' first
    | with_reducible assumption | (intro _; try beta_reduce)
    | (with_reducible first | apply axisFaultClear_evolves | apply hostWrite_evolves)

theorem deviationStep_evolves (h_axes : pm .axes = true) (h : Evolves pm a s.store) (aa : Fin 8) :
    Evolves pm a (deviationStep aa s).store := by
  unfold deviationStep; try dsimp only
  repeat' first
    | with_reducible assumption | (intro _; try beta_reduce)
    | (with_reducible first | apply ite_evolves | apply axAsk_evolves | apply devLatch_evolves | apply setAxis_evolves)
    | simp only [store_mk, store_eta] | split

theorem angleNear_evolves (h : Evolves pm a s.store) (y : Int) (x : Int) :
    Evolves pm a (angleNear y x s).2.store := by
  unfold angleNear; try dsimp only
  repeat' first
    | with_reducible assumption | (intro _; try beta_reduce)
    | (with_reducible first | apply ite_evolves | apply draw_evolves | apply (draw_evolves' (by with_reducible assumption)))
    | simp only [store_mk, store_eta] | split

theorem angleNear_evolves' {pm : Part → Bool} {a : Store} {sv : State} {xo : Int} {s : State}  {y : Int} {x : Int} (e : angleNear y x s = (xo, sv)) (h : Evolves pm a s.store) : Evolves pm a sv.store := by
  have := angleNear_evolves  h y x
  rw [e] at this; exact this

theorem loadAngleSet_evolves (h_axes : pm .axes = true) (h : Evolves pm a s.store) (aa : Fin 8) (va : Nat)
    (vb : Nat) (ia : Nat) (ib : Nat) :
    Evolves pm a (loadAngleSet aa va vb ia ib s).store := by
  unfold loadAngleSet; try dsimp only
  repeat' first
    | with_reducible assumption | (intro _; try beta_reduce)
    | (with_reducible first | apply ite_evolves | apply addSat_evolves | apply angleNear_evolves | apply (angleNear_evolves' (by with_reducible assumption)) | apply axAsk_evolves | apply axReport_evolves)
    | (with_reducible first | apply deviationStep_evolves | apply lifeAdd_evolves | apply lifeMax_evolves | apply put_evolves | apply raise_evolves | apply setAxis_evolves)
    | (with_reducible first | apply setF_evolves | apply showEstimate_evolves | apply wrN_evolves)
    | simp only [store_mk, store_eta] | split

theorem execLoadAngleSet_evolves (h_axes : pm .axes = true) (h : Evolves pm a s.store) (aa : Fin 8) (va : Fin 4096)
    (vb : Fin 4096) (ia : Fin 4096) (ib : Fin 4096) {sx : State} (he : execLoadAngleSet aa va vb ia ib s = .next sx)
    :
    Evolves pm a sx.store := by
  unfold execLoadAngleSet at he; rw [← Host.Outcome.next.inj he]
  repeat' first | with_reducible assumption | (with_reducible first | apply loadAngleSet_evolves)

theorem axisWrite_evolves (h_axes : pm .axes = true) (h : Evolves pm a s.store) (sec : Bool) (aa : Fin 8) (o :
    Nat) (v : Word) :
    Evolves pm a (axisWrite sec aa o v s).store := by
  unfold axisWrite; try dsimp only
  repeat' first
    | with_reducible assumption | (intro _; try beta_reduce)
    | (with_reducible first | apply ite_evolves | apply cfgWrite_evolves | apply devSync_evolves | apply setF_evolves | apply tellAxisPins_evolves | apply wrN_evolves)
    | simp only [store_mk, store_eta] | split

theorem execAxisEnable_evolves (h_axes : pm .axes = true) (h : Evolves pm a s.store) (sec : Bool) (aa : Fin 8)
    (v : Word) {sx : State} (he : execAxisEnable sec aa v s = .next sx) :
    Evolves pm a sx.store := by
  unfold execAxisEnable at he; rw [← Host.Outcome.next.inj he]
  repeat' first
    | with_reducible assumption | (intro _; try beta_reduce)
    | (with_reducible first | apply ite_evolves | apply axisWrite_evolves)
    | simp only [store_mk, store_eta] | split

theorem execAxisDisable_evolves (h_axes : pm .axes = true) (h : Evolves pm a s.store) (sec : Bool) (aa : Fin 8)
    (v : Word) {sx : State} (he : execAxisDisable sec aa v s = .next sx) :
    Evolves pm a sx.store := by
  unfold execAxisDisable at he; rw [← Host.Outcome.next.inj he]
  repeat' first
    | with_reducible assumption | (intro _; try beta_reduce)
    | (with_reducible first | apply ite_evolves | apply axisWrite_evolves)
    | simp only [store_mk, store_eta] | split

theorem execAxisConfigWrite_evolves (h_axes : pm .axes = true) (h : Evolves pm a s.store) (sec : Bool) (aa : Fin 8)
    (o : Fin 24) (v : Word) {sx : State} (he : execAxisConfigWrite sec aa o v s = .next sx) :
    Evolves pm a sx.store := by
  unfold execAxisConfigWrite at he; rw [← Host.Outcome.next.inj he]
  repeat' first
    | with_reducible assumption | (intro _; try beta_reduce)
    | (with_reducible first | apply ite_evolves | apply axisWrite_evolves)
    | simp only [store_mk, store_eta] | split

theorem startStaged_evolves (h_axes : pm .axes = true) (h : Evolves pm a s.store) (aa : Fin 8) (c : Nat) (d : Desc) :
    Evolves pm a (startStaged aa c d s).store := by
  unfold startStaged
  repeat' first | with_reducible assumption | (with_reducible first | apply startEntry_evolves)

theorem endReserve_evolves (h_axes : pm .axes = true) (h_ctxs : pm .ctxs = true) (h : Evolves pm a s.store)
    (aa : Fin 8) (aborted : Bool) :
    Evolves pm a (endReserve aa aborted s).store := by
  unfold endReserve; try dsimp only
  repeat' first
    | with_reducible assumption | (intro _; try beta_reduce)
    | (with_reducible first | apply ite_evolves | apply foldl_evolves | apply axComplete_evolves | apply axShow_evolves | apply setAxis_evolves)
    | simp only [store_mk, store_eta]

end Machine
end Sys2Proof
end

