-- ==== Sys2Proof/Laws/EvolvesFeedback.lean ====
section
/-!
SUPPORT. Every operation of Feedback.lean is an evolution (Laws/Evolves.lean).
-/
namespace Sys2Proof
namespace Machine

variable {pm : Part → Bool} {a : Store} {s : State}

theorem setPort_evolves (hp : pm .ports = true) (h : Evolves pm a s.store) (g : Fin 8) (f : Port → Port) :
    Evolves pm a (setPort g f s).store := Evolves.ports hp _ h

theorem fbkReport_evolves (h : Evolves pm a s.store) (f : Fld) (p : Nat) :
    Evolves pm a (fbkReport f p s).store := by
  unfold fbkReport; try dsimp only
  repeat' first
    | with_reducible assumption | (intro _; try beta_reduce)
    | (with_reducible first | apply raiseOnSet_evolves)
    | simp only [store_mk, store_eta] | split

theorem portFault_evolves (h_axes : pm .axes = true) (h_ports : pm .ports = true) (h : Evolves pm a s.store)
    (p : Fin 8) (d : Nat) (pair : Nat) :
    Evolves pm a (portFault p d pair s).store := by
  unfold portFault; try dsimp only
  repeat' first
    | with_reducible assumption | (intro _; try beta_reduce)
    | (with_reducible first | apply ite_evolves | apply forAll_evolves | apply axAsk_evolves | apply clrF_evolves | apply devSync_evolves | apply lifeAdd_evolves)
    | (with_reducible first | apply put_evolves | apply raise_evolves | apply setF_evolves | apply setPort_evolves | apply wrN_evolves)
    | simp only [store_mk, store_eta] | split

theorem faultGone_evolves (h_ports : pm .ports = true) (h : Evolves pm a s.store) (p : Fin 8) :
    Evolves pm a (faultGone p s).store := by
  unfold faultGone; try dsimp only
  repeat' first
    | with_reducible assumption | (intro _; try beta_reduce)
    | (with_reducible first | apply clrF_evolves | apply put_evolves | apply setPort_evolves)
    | simp only [store_mk, store_eta] | split

theorem feedbackFaultClear_evolves (h_ports : pm .ports = true) (h : Evolves pm a s.store) (p : Fin 8) :
    Evolves pm a (feedbackFaultClear p s).store := by
  unfold feedbackFaultClear; try dsimp only
  repeat' first
    | with_reducible assumption | (intro _; try beta_reduce)
    | (with_reducible first | apply ite_evolves | apply faultGone_evolves | apply setF_evolves)
    | simp only [store_mk, store_eta] | split

theorem execFeedbackFaultClear_evolves (h_ports : pm .ports = true) (h : Evolves pm a s.store) (sec : Bool) (p :
    Fin 8) {sx : State} (he : execFeedbackFaultClear sec p s = .next sx) :
    Evolves pm a sx.store := by
  unfold execFeedbackFaultClear at he; rw [← Host.Outcome.next.inj he]
  repeat' first
    | with_reducible assumption | (intro _; try beta_reduce)
    | (with_reducible first | apply feedbackFaultClear_evolves | apply hostWrite_evolves)
    | simp only [store_mk, store_eta] | split

theorem reref_evolves (h_ports : pm .ports = true) (h : Evolves pm a s.store) (p : Fin 8) :
    Evolves pm a (reref p s).store := by
  unfold reref
  repeat' first
    | with_reducible assumption | (intro _; try beta_reduce) | (with_reducible first | apply setPort_evolves)
    | simp only [store_mk, store_eta]

theorem execReref_evolves (h_ports : pm .ports = true) (h : Evolves pm a s.store) (sec : Bool) (p : Fin 8)
    {sx : State} (he : execReref sec p s = .next sx) :
    Evolves pm a sx.store := by
  unfold execReref at he; rw [← Host.Outcome.next.inj he]
  repeat' first
    | with_reducible assumption | (intro _; try beta_reduce)
    | (with_reducible first | apply hostWrite_evolves | apply reref_evolves)

theorem latchIndex_evolves (h_axes : pm .axes = true) (h_ports : pm .ports = true) (h : Evolves pm a s.store)
    (p : Fin 8) (t : Nat) :
    Evolves pm a (latchIndex p t s).store := by
  unfold latchIndex; try dsimp only
  repeat' first
    | with_reducible assumption | (intro _; try beta_reduce)
    | (with_reducible first | apply ite_evolves | apply addSat_evolves | apply clrF_evolves | apply fbkReport_evolves | apply lifeAdd_evolves)
    | (with_reducible first | apply lifeMax_evolves | apply portFault_evolves | apply setF_evolves | apply setPort_evolves | apply wr64_evolves)
    | (with_reducible first | apply wrI_evolves | apply wrN_evolves | apply wr_evolves)
    | simp only [store_mk, store_eta]

theorem gateIndex_evolves (h_axes : pm .axes = true) (h_ports : pm .ports = true) (h : Evolves pm a s.store)
    (p : Fin 8) (t : Nat) :
    Evolves pm a (gateIndex p t s).store := by
  unfold gateIndex; try dsimp only
  repeat' first
    | with_reducible assumption | (intro _; try beta_reduce)
    | (with_reducible first | apply ite_evolves | apply latchIndex_evolves | apply setPort_evolves)
    | simp only [store_mk, store_eta]

theorem speedOf_evolves (h : Evolves pm a s.store) (k : Int) (dt : Nat) : Evolves pm a (speedOf k dt s).2.store := by
  unfold speedOf; try dsimp only
  repeat' first
    | with_reducible assumption
    | (with_reducible first | apply ite_evolves | apply draw_evolves | apply (draw_evolves' (by with_reducible assumption)))
    | split

theorem speedOf_evolves' {pm : Part → Bool} {a : Store} {sv : State} {xo : Int} {s : State}  {k : Int} {dt : Nat} (e : speedOf k dt s = (xo, sv)) (h : Evolves pm a s.store) : Evolves pm a sv.store := by
  have := speedOf_evolves  h k dt
  rw [e] at this; exact this

theorem frameSpeed_evolves (h : Evolves pm a s.store) (k : Int) (dt : Int) :
    Evolves pm a (frameSpeed k dt s).2.store := by
  unfold frameSpeed; try dsimp only
  repeat' first
    | with_reducible assumption | (intro _; try beta_reduce)
    | (with_reducible first | apply ite_evolves | apply draw_evolves | apply (draw_evolves' (by with_reducible assumption)) | apply speedOf_evolves | apply (speedOf_evolves' (by with_reducible assumption)))
    | simp only [store_mk, store_eta] | split

theorem frameSpeed_evolves' {pm : Part → Bool} {a : Store} {sv : State} {xo : Int} {s : State}  {k : Int} {dt : Int} (e : frameSpeed k dt s = (xo, sv)) (h : Evolves pm a s.store) : Evolves pm a sv.store := by
  have := frameSpeed_evolves  h k dt
  rw [e] at this; exact this

theorem edgeSpeed_evolves (h : Evolves pm a s.store) (p : Fin 8) (dir : Int) :
    Evolves pm a (edgeSpeed p dir s).store := by
  unfold edgeSpeed; try dsimp only
  repeat' first
    | with_reducible assumption
    | (with_reducible first | apply speedOf_evolves | apply wrI_evolves | apply (speedOf_evolves' (by with_reducible assumption)))
    | simp only [store_mk, store_eta] | split

theorem edgeCounted_evolves (h_ports : pm .ports = true) (h : Evolves pm a s.store) (p : Fin 8) (dir : Int)
    (n : Nat) (t : Nat) :
    Evolves pm a (edgeCounted p dir n t s).store := by
  unfold edgeCounted; try dsimp only
  repeat' first
    | with_reducible assumption | (intro _; try beta_reduce)
    | (with_reducible first | apply ite_evolves | apply clrF_evolves | apply edgeSpeed_evolves | apply put_evolves | apply setF_evolves)
    | (with_reducible first | apply setPort_evolves | apply wr64_evolves | apply wrN_evolves)
    | simp only [store_mk, store_eta]

theorem countMove_evolves (h_axes : pm .axes = true) (h_ports : pm .ports = true) (h : Evolves pm a s.store)
    (p : Fin 8) (dir0 : Int) (n : Nat) (t : Nat) :
    Evolves pm a (countMove p dir0 n t s).store := by
  unfold countMove; try dsimp only
  repeat' first
    | with_reducible assumption | (intro _; try beta_reduce)
    | (with_reducible first | apply ite_evolves | apply edgeCounted_evolves | apply portFault_evolves | apply setPort_evolves | apply wrI_evolves)
    | (with_reducible first | apply wrN_evolves) | simp only [store_mk, store_eta]

theorem rejectEdge_evolves (h_ports : pm .ports = true) (h : Evolves pm a s.store) (p : Fin 8) (t : Nat) :
    Evolves pm a (rejectEdge p t s).store := by
  unfold rejectEdge; try dsimp only
  repeat' first
    | with_reducible assumption | (intro _; try beta_reduce)
    | (with_reducible first | apply ite_evolves | apply addSat_evolves | apply lifeAdd_evolves | apply setF_evolves | apply setPort_evolves)
    | simp only [store_mk, store_eta]

theorem edgeRate_evolves (h_axes : pm .axes = true) (h_ports : pm .ports = true) (h : Evolves pm a s.store)
    (p : Fin 8) :
    Evolves pm a (edgeRate p s).store := by
  unfold edgeRate; try dsimp only
  repeat' first
    | with_reducible assumption | (intro _; try beta_reduce)
    | (with_reducible first | apply ite_evolves | apply portFault_evolves | apply setPort_evolves)
    | simp only [store_mk, store_eta]

theorem execEdgeRate_evolves (h_axes : pm .axes = true) (h_ports : pm .ports = true) (h : Evolves pm a s.store)
    (p : Fin 8) {sx : State} (he : execEdgeRate p s = .next sx) :
    Evolves pm a sx.store := by
  unfold execEdgeRate at he; rw [← Host.Outcome.next.inj he]
  repeat' first | with_reducible assumption | (with_reducible first | apply edgeRate_evolves)

theorem quadStep_evolves (h_axes : pm .axes = true) (h_ports : pm .ports = true) (h : Evolves pm a s.store) (p :
    Fin 8) (ofA : Bool) (aa : Bool) (b : Bool) (t : Nat) :
    Evolves pm a (quadStep p ofA aa b t s).store := by
  unfold quadStep; try dsimp only
  repeat' first
    | with_reducible assumption | (intro _; try beta_reduce)
    | (with_reducible first | apply ite_evolves | apply countMove_evolves | apply gateIndex_evolves | apply setPort_evolves)
    | simp only [store_mk, store_eta] | split

theorem toothCount_evolves (h_axes : pm .axes = true) (h_ports : pm .ports = true) (h : Evolves pm a s.store)
    (p : Fin 8) (b : Bool) (t : Nat) :
    Evolves pm a (toothCount p b t s).store := by
  unfold toothCount; try dsimp only
  repeat' first
    | with_reducible assumption | (intro _; try beta_reduce)
    | (with_reducible first | apply ite_evolves | apply countMove_evolves | apply latchIndex_evolves | apply setPort_evolves)
    | simp only [store_mk, store_eta] | split

theorem rereadLevels_evolves (h_axes : pm .axes = true) (h_ports : pm .ports = true) (h : Evolves pm a s.store)
    (p : Fin 8) :
    Evolves pm a (rereadLevels p s).store := by
  unfold rereadLevels; try dsimp only
  repeat' first
    | with_reducible assumption | (intro _; try beta_reduce)
    | (with_reducible first | apply ite_evolves | apply gateIndex_evolves | apply quadStep_evolves | apply rejectEdge_evolves | apply setF_evolves | apply setPort_evolves)
    | (with_reducible first | apply toothCount_evolves)
    | simp only [store_mk, store_eta] | split

theorem showDisagree_evolves (h : Evolves pm a s.store) (p : Fin 8) :
    Evolves pm a (showDisagree p s).store := by
  unfold showDisagree; try dsimp only
  repeat' first
    | with_reducible assumption | (intro _; try beta_reduce)
    | (with_reducible first | apply put_evolves)
    | simp only [store_mk, store_eta] | split

theorem cableCheck_evolves (h_axes : pm .axes = true) (h_ports : pm .ports = true) (h : Evolves pm a s.store)
    (p : Fin 8) (t : Nat) (i : Fin 3) :
    Evolves pm a (cableCheck p t i s).store := by
  unfold cableCheck; try dsimp only
  repeat' first
    | with_reducible assumption | (intro _; try beta_reduce)
    | (with_reducible first | apply ite_evolves | apply portFault_evolves | apply setPort_evolves)
    | simp only [store_mk, store_eta] | split

theorem cableFault_evolves (h_axes : pm .axes = true) (h_ports : pm .ports = true) (h : Evolves pm a s.store)
    (p : Fin 8) (i : Fin 3) (d : Bool) (t : Nat) :
    Evolves pm a (cableFault p i d t s).store := by
  unfold cableFault; try dsimp only
  repeat' first
    | with_reducible assumption | (intro _; try beta_reduce)
    | (with_reducible first | apply ite_evolves | apply cableCheck_evolves | apply setPort_evolves | apply showDisagree_evolves)
    | simp only [store_mk, store_eta] | split

theorem execCableFault_evolves (h_axes : pm .axes = true) (h_ports : pm .ports = true) (h : Evolves pm a s.store)
    (p : Fin 8) (i : Fin 3) (d : Bool × Nat) {sx : State} (he : execCableFault p i d s = .next sx) :
    Evolves pm a sx.store := by
  unfold execCableFault at he; rw [← Host.Outcome.next.inj he]
  repeat' first
    | with_reducible assumption | (intro _; try beta_reduce)
    | (with_reducible first | apply cableFault_evolves)
    | simp only [store_mk, store_eta] | split

theorem windowSpeed_evolves (h : Evolves pm a s.store) (p : Fin 8) (d : Int) (t : Nat) :
    Evolves pm a (windowSpeed p d t s).store := by
  unfold windowSpeed; try dsimp only
  repeat' first
    | with_reducible assumption
    | (with_reducible first | apply ite_evolves | apply clrF_evolves | apply edgeSpeed_evolves | apply setF_evolves | apply speedOf_evolves)
    | (with_reducible first | apply wrI_evolves | apply (speedOf_evolves' (by with_reducible assumption)))
    | simp only [store_mk, store_eta] | split

theorem windowStep_evolves (h_ports : pm .ports = true) (h : Evolves pm a s.store) (p : Fin 8) :
    Evolves pm a (windowStep p s).store := by
  unfold windowStep; try dsimp only
  repeat' first
    | with_reducible assumption | (intro _; try beta_reduce)
    | (with_reducible first | apply setPort_evolves | apply windowSpeed_evolves)
    | simp only [store_mk, store_eta] | split

theorem standstillNow_evolves (h_ports : pm .ports = true) (h : Evolves pm a s.store) (p : Fin 8) :
    Evolves pm a (standstillNow p s).store := by
  unfold standstillNow; try dsimp only
  repeat' first
    | with_reducible assumption | (intro _; try beta_reduce)
    | (with_reducible first | apply ite_evolves | apply clrF_evolves | apply setF_evolves | apply setPort_evolves | apply wrN_evolves)
    | simp only [store_mk, store_eta] | split

theorem standstill_evolves (h_ports : pm .ports = true) (h : Evolves pm a s.store) (p : Fin 8) :
    Evolves pm a (standstill p s).store := by
  unfold standstill; try dsimp only
  repeat' first
    | with_reducible assumption | (intro _; try beta_reduce)
    | (with_reducible first | apply ite_evolves | apply standstillNow_evolves)
    | simp only [store_mk, store_eta] | split

theorem execStandstill_evolves (h_ports : pm .ports = true) (h : Evolves pm a s.store) (p : Fin 8) {sx : State}
    (he : execStandstill p s = .next sx) :
    Evolves pm a sx.store := by
  unfold execStandstill at he; rw [← Host.Outcome.next.inj he]
  repeat' first | with_reducible assumption | (with_reducible first | apply standstill_evolves)

theorem badFrame_evolves (h_axes : pm .axes = true) (h_ports : pm .ports = true) (h : Evolves pm a s.store) (p :
    Fin 8) (err : Bool) :
    Evolves pm a (badFrame p err s).store := by
  unfold badFrame; try dsimp only
  repeat' first
    | with_reducible assumption | (intro _; try beta_reduce)
    | (with_reducible first | apply ite_evolves | apply addSat_evolves | apply clrF_evolves | apply fbkReport_evolves | apply lifeAdd_evolves | apply portFault_evolves)
    | (with_reducible first | apply setPort_evolves)
    | simp only [store_mk, store_eta] | split

theorem goodFrame_evolves (h_ports : pm .ports = true) (h : Evolves pm a s.store) (p : Fin 8) (pos : Nat) (t : Nat)
    (b : Nat) (w : Nat) :
    Evolves pm a (goodFrame p pos t b w s).store := by
  unfold goodFrame; try dsimp only
  repeat' first
    | with_reducible assumption | (intro _; try beta_reduce)
    | (with_reducible first | apply ite_evolves | apply clrF_evolves | apply frameSpeed_evolves | apply (frameSpeed_evolves' (by with_reducible assumption)) | apply setF_evolves | apply setPort_evolves)
    | (with_reducible first | apply wr64_evolves | apply wrI_evolves | apply wrN_evolves)
    | simp only [store_mk, store_eta] | split

theorem absFrameResult_evolves (h_axes : pm .axes = true) (h_ports : pm .ports = true) (h : Evolves pm a s.store)
    (p : Fin 8) (t : Nat) (b : Nat) (r : FrameIn) :
    Evolves pm a (absFrameResult p t b r s).store := by
  unfold absFrameResult; try dsimp only
  repeat' first
    | with_reducible assumption | (intro _; try beta_reduce)
    | (with_reducible first | apply ite_evolves | apply badFrame_evolves | apply fbkReport_evolves | apply goodFrame_evolves)
    | simp only [store_mk, store_eta] | split

theorem absFrameEnd_evolves (h_axes : pm .axes = true) (h_ports : pm .ports = true) (h : Evolves pm a s.store)
    (p : Fin 8) :
    Evolves pm a (absFrameEnd p s).store := by
  unfold absFrameEnd; try dsimp only
  repeat' first
    | with_reducible assumption | (intro _; try beta_reduce)
    | (with_reducible first | apply ite_evolves | apply absFrameResult_evolves | apply setPort_evolves)
    | simp only [store_mk, store_eta] | split

theorem absFrameOver_evolves (h_axes : pm .axes = true) (h_ports : pm .ports = true) (h : Evolves pm a s.store)
    (p : Fin 8) :
    Evolves pm a (absFrameOver p s).store := by
  unfold absFrameOver; try dsimp only
  repeat' first
    | with_reducible assumption | (intro _; try beta_reduce)
    | (with_reducible first | apply ite_evolves | apply badFrame_evolves | apply fbkReport_evolves | apply setPort_evolves)
    | simp only [store_mk, store_eta] | split

theorem portEvent_evolves (h_axes : pm .axes = true) (h_ports : pm .ports = true) (h : Evolves pm a s.store)
    (p : Fin 8) (k : Nat) :
    Evolves pm a (portEvent p k s).store := by
  unfold portEvent; try dsimp only
  repeat' first
    | with_reducible assumption | (intro _; try beta_reduce)
    | (with_reducible first | apply absFrameEnd_evolves | apply absFrameOver_evolves | apply rereadLevels_evolves | apply standstillNow_evolves | apply windowStep_evolves)
    | simp only [store_mk, store_eta] | split

theorem portUntil_evolves {pm : Part → Bool} {a : Store} {s : State} (h_axes : pm .axes = true)
    (h_ports : pm .ports = true) (h : Evolves pm a s.store) (p : Fin 8) (d : Int) (y0 : Nat) :
    Evolves pm a (portUntil p d y0 s).store := by
  induction y0 generalizing s with
  | zero => unfold portUntil; assumption
  | succ n ih =>
    unfold portUntil; try dsimp only
    repeat' first
      | with_reducible assumption | (intro _; try beta_reduce)
      | (with_reducible first | apply portEvent_evolves)
      | (with_reducible apply ih) | simp only [store_mk, store_eta] | split

theorem portRun_evolves (h_axes : pm .axes = true) (h_ports : pm .ports = true) (h : Evolves pm a s.store) (p :
    Fin 8) (t : Nat) :
    Evolves pm a (portRun p t s).store := by
  unfold portRun; try dsimp only
  repeat' first
    | with_reducible assumption | (intro _; try beta_reduce)
    | (with_reducible first | apply ite_evolves | apply portUntil_evolves)
    | simp only [store_mk, store_eta] | split

theorem speedWindow_evolves (h_axes : pm .axes = true) (h_ports : pm .ports = true) (h : Evolves pm a s.store)
    (p : Fin 8) :
    Evolves pm a (speedWindow p s).store := by
  unfold speedWindow; try dsimp only
  repeat' first
    | with_reducible assumption | (intro _; try beta_reduce)
    | (with_reducible first | apply ite_evolves | apply portRun_evolves)
    | simp only [store_mk, store_eta] | split

theorem execSpeedWindow_evolves (h_axes : pm .axes = true) (h_ports : pm .ports = true) (h : Evolves pm a s.store)
    (p : Fin 8) {sx : State} (he : execSpeedWindow p s = .next sx) :
    Evolves pm a sx.store := by
  unfold execSpeedWindow at he; rw [← Host.Outcome.next.inj he]
  repeat' first
    | with_reducible assumption | (intro _; try beta_reduce)
    | (with_reducible first | apply speedWindow_evolves)
    | simp only [store_mk, store_eta] | split

theorem quadratureEdge_evolves (h_axes : pm .axes = true) (h_ports : pm .ports = true) (h : Evolves pm a s.store)
    (p : Fin 8) (aa : Bool) (b : Bool) (t : Nat) :
    Evolves pm a (quadratureEdge p aa b t s).store := by
  unfold quadratureEdge; try dsimp only
  repeat' first
    | with_reducible assumption | (intro _; try beta_reduce)
    | (with_reducible first | apply ite_evolves | apply portRun_evolves | apply quadStep_evolves | apply rejectEdge_evolves | apply setPort_evolves)
    | simp only [store_mk, store_eta] | split

theorem execQuadratureEdge_evolves (h_axes : pm .axes = true) (h_ports : pm .ports = true)
    (h : Evolves pm a s.store) (p : Fin 8) (aa : Bool) (b : Bool) (dt : Nat) {sx : State}
    (he : execQuadratureEdge p aa b dt s = .next sx) :
    Evolves pm a sx.store := by
  unfold execQuadratureEdge at he; rw [← Host.Outcome.next.inj he]
  repeat' first | with_reducible assumption | (with_reducible first | apply quadratureEdge_evolves)

theorem indexLevel_evolves (h_axes : pm .axes = true) (h_ports : pm .ports = true) (h : Evolves pm a s.store)
    (p : Fin 8) (z : Bool) (t : Nat) :
    Evolves pm a (indexLevel p z t s).store := by
  unfold indexLevel; try dsimp only
  repeat' first
    | with_reducible assumption | (intro _; try beta_reduce)
    | (with_reducible first | apply ite_evolves | apply gateIndex_evolves | apply portRun_evolves | apply setPort_evolves)
    | simp only [store_mk, store_eta] | split

theorem execIndexLatch_evolves (h_axes : pm .axes = true) (h_ports : pm .ports = true) (h : Evolves pm a s.store)
    (p : Fin 8) (z : Bool) (dt : Nat) {sx : State} (he : execIndexLatch p z dt s = .next sx) :
    Evolves pm a sx.store := by
  unfold execIndexLatch at he; rw [← Host.Outcome.next.inj he]
  repeat' first
    | with_reducible assumption | (intro _; try beta_reduce)
    | (with_reducible first | apply indexLevel_evolves)
    | simp only [store_mk, store_eta] | split

theorem toothEdge_evolves (h_axes : pm .axes = true) (h_ports : pm .ports = true) (h : Evolves pm a s.store)
    (p : Fin 8) (rise : Bool) (b : Bool) (t : Nat) :
    Evolves pm a (toothEdge p rise b t s).store := by
  unfold toothEdge; try dsimp only
  repeat' first
    | with_reducible assumption | (intro _; try beta_reduce)
    | (with_reducible first | apply ite_evolves | apply portRun_evolves | apply rejectEdge_evolves | apply setPort_evolves | apply toothCount_evolves)
    | simp only [store_mk, store_eta] | split

theorem execTooth_evolves (h_axes : pm .axes = true) (h_ports : pm .ports = true) (h : Evolves pm a s.store)
    (p : Fin 8) (rise : Bool) (b : Bool) (dt : Nat) {sx : State} (he : execTooth p rise b dt s = .next sx) :
    Evolves pm a sx.store := by
  unfold execTooth at he; rw [← Host.Outcome.next.inj he]
  repeat' first | with_reducible assumption | (with_reducible first | apply toothEdge_evolves)

theorem absoluteFrame_evolves (h_axes : pm .axes = true) (h_ports : pm .ports = true) (h : Evolves pm a s.store)
    (p : Fin 8) (t : Nat) (r : FrameIn) :
    Evolves pm a (absoluteFrame p t r s).store := by
  unfold absoluteFrame; try dsimp only
  repeat' first
    | with_reducible assumption | (intro _; try beta_reduce)
    | (with_reducible first | apply ite_evolves | apply emit_evolves | apply portRun_evolves | apply setPort_evolves)
    | simp only [store_mk, store_eta] | split

theorem execAbsoluteFrame_evolves (h_axes : pm .axes = true) (h_ports : pm .ports = true) (h : Evolves pm a s.store)
    (p : Fin 8) (dt : Nat) (r : FrameIn) {sx : State} (he : execAbsoluteFrame p dt r s = .next sx) :
    Evolves pm a sx.store := by
  unfold execAbsoluteFrame at he; rw [← Host.Outcome.next.inj he]
  repeat' first | with_reducible assumption | (with_reducible first | apply absoluteFrame_evolves)

theorem portEnable_evolves (h_ports : pm .ports = true) (h : Evolves pm a s.store) (p : Fin 8) :
    Evolves pm a (portEnable p s).store := by
  unfold portEnable; try dsimp only
  repeat' first
    | with_reducible assumption | (intro _; try beta_reduce)
    | (with_reducible first | apply faultGone_evolves | apply put_evolves | apply setPort_evolves | apply wrN_evolves)
    | simp only [store_mk, store_eta]

theorem portDisable_evolves (h_ports : pm .ports = true) (h : Evolves pm a s.store) (p : Fin 8) :
    Evolves pm a (portDisable p s).store := by
  unfold portDisable; try dsimp only
  repeat' first
    | with_reducible assumption | (intro _; try beta_reduce)
    | (with_reducible first | apply emit_evolves | apply clrF_evolves | apply faultGone_evolves | apply put_evolves | apply setPort_evolves)
    | simp only [store_mk, store_eta] | split

theorem fbkWrite_evolves (h_axes : pm .axes = true) (h_ports : pm .ports = true) (h : Evolves pm a s.store)
    (sec : Bool) (p : Fin 8) (o : Nat) (v : Word) :
    Evolves pm a (fbkWrite sec p o v s).store := by
  unfold fbkWrite; try dsimp only
  repeat' first
    | with_reducible assumption | (intro _; try beta_reduce)
    | (with_reducible first | apply ite_evolves | apply forAll_evolves | apply cfgWrite_evolves | apply devSync_evolves | apply portDisable_evolves | apply portEnable_evolves)
    | (with_reducible first | apply setF_evolves | apply showDisagree_evolves | apply wrN_evolves)
    | simp only [store_mk, store_eta] | split

theorem execPortEnable_evolves (h_axes : pm .axes = true) (h_ports : pm .ports = true) (h : Evolves pm a s.store)
    (sec : Bool) (p : Fin 8) (v : Word) {sx : State} (he : execPortEnable sec p v s = .next sx) :
    Evolves pm a sx.store := by
  unfold execPortEnable at he; rw [← Host.Outcome.next.inj he]
  repeat' first
    | with_reducible assumption | (intro _; try beta_reduce)
    | (with_reducible first | apply ite_evolves | apply fbkWrite_evolves)
    | simp only [store_mk, store_eta] | split

theorem execPortDisable_evolves (h_axes : pm .axes = true) (h_ports : pm .ports = true) (h : Evolves pm a s.store)
    (sec : Bool) (p : Fin 8) (v : Word) {sx : State} (he : execPortDisable sec p v s = .next sx) :
    Evolves pm a sx.store := by
  unfold execPortDisable at he; rw [← Host.Outcome.next.inj he]
  repeat' first
    | with_reducible assumption | (intro _; try beta_reduce)
    | (with_reducible first | apply ite_evolves | apply fbkWrite_evolves)
    | simp only [store_mk, store_eta] | split

theorem execFeedbackConfigWrite_evolves (h_axes : pm .axes = true) (h_ports : pm .ports = true)
    (h : Evolves pm a s.store) (sec : Bool) (p : Fin 8) (o : Fin 12) (v : Word) {sx : State}
    (he : execFeedbackConfigWrite sec p o v s = .next sx) :
    Evolves pm a sx.store := by
  unfold execFeedbackConfigWrite at he; rw [← Host.Outcome.next.inj he]
  repeat' first
    | with_reducible assumption | (intro _; try beta_reduce)
    | (with_reducible first | apply ite_evolves | apply fbkWrite_evolves)
    | simp only [store_mk, store_eta] | split

theorem posRead_evolves (h_ports : pm .ports = true) (h : Evolves pm a s.store) (p : Fin 8) :
    Evolves pm a (posRead p s).store := by
  unfold posRead
  repeat' first
    | with_reducible assumption | (intro _; try beta_reduce) | (with_reducible first | apply setPort_evolves)
    | simp only [store_mk, store_eta]

theorem execPosRead_evolves (h_ports : pm .ports = true) (h : Evolves pm a s.store) (sec : Bool) (p : Fin 8) {sx
    : State} (he : execPosRead sec p s = .next sx) :
    Evolves pm a sx.store := by
  unfold execPosRead at he; rw [← Host.Outcome.next.inj he]
  repeat' first
    | with_reducible assumption | (intro _; try beta_reduce)
    | (with_reducible first | apply ite_evolves | apply emit_evolves | apply posRead_evolves | apply regWorldFault_evolves)
    | simp only [store_mk, store_eta] | split

theorem latchPos_evolves (h_ports : pm .ports = true) (h : Evolves pm a s.store) (o : Nat) :
    Evolves pm a (latchPos o s).store := by
  unfold latchPos; try dsimp only
  repeat' first
    | with_reducible assumption | (intro _; try beta_reduce)
    | (with_reducible first | apply posRead_evolves)
    | simp only [store_mk, store_eta] | split

theorem clockHigh_evolves (h_ports : pm .ports = true) (h : Evolves pm a s.store) (p : Fin 8) :
    Evolves pm a (clockHigh p s).store := by
  unfold clockHigh; try dsimp only
  repeat' first
    | with_reducible assumption | (intro _; try beta_reduce)
    | (with_reducible first | apply ite_evolves | apply setPort_evolves)
    | simp only [store_mk, store_eta] | split

theorem alignPort_evolves (h_ports : pm .ports = true) (h : Evolves pm a s.store) (p : Fin 8) :
    Evolves pm a (alignPort p s).store := by
  unfold alignPort; try dsimp only
  repeat' first
    | with_reducible assumption | (intro _; try beta_reduce)
    | (with_reducible first | apply setPort_evolves)
    | simp only [store_mk, store_eta] | split

theorem portTick_evolves (h_axes : pm .axes = true) (h_ports : pm .ports = true) (h : Evolves pm a s.store) (p :
    Fin 8) :
    Evolves pm a (portTick p s).store := by
  unfold portTick; try dsimp only
  repeat' first
    | with_reducible assumption | (intro _; try beta_reduce)
    | (with_reducible first | apply ite_evolves | apply forAll_evolves | apply alignWindow_evolves | apply cableCheck_evolves | apply clockHigh_evolves | apply edgeRate_evolves)
    | (with_reducible first | apply lifeTime_evolves | apply portRun_evolves)
    | simp only [store_mk, store_eta] | split

end Machine
end Sys2Proof
end

