-- ==== Sys2Proof/Laws/EvolvesMemory.lean ====
section
/-!
SUPPORT. Every operation of Memory.lean is an evolution (Laws/Evolves.lean).
-/
namespace Sys2Proof
namespace Machine

variable {pm : Part → Bool} {a : Store} {s : State}

theorem passErrors_evolves (h_stalls : pm .stalls = true) (h : Evolves pm a s.store) (whole : Bool)
    (mine : Nat → Bool) (errs : List (Nat × Nat × Nat)) :
    Evolves pm a (passErrors whole mine errs s).store := by
  unfold passErrors; try dsimp only
  repeat' first
    | with_reducible assumption | (intro _; try beta_reduce)
    | (with_reducible first | apply foldl_evolves | apply memError_evolves | apply wordRead_evolves)
    | simp only [store_mk, store_eta] | split

theorem execSramScrubPass_evolves (h_stalls : pm .stalls = true) (h : Evolves pm a s.store) (late : Bool)
    (errs : List (Nat × Nat × Nat)) {sx : State} (he : execSramScrubPass late errs s = .next sx) :
    Evolves pm a sx.store := by
  unfold execSramScrubPass at he; rw [← Host.Outcome.next.inj he]
  repeat' first
    | with_reducible assumption | (intro _; try beta_reduce)
    | (with_reducible first | apply ite_evolves | apply lifeAdd_evolves | apply passErrors_evolves | apply raise_evolves | apply setF_evolves)
    | simp only [store_mk, store_eta] | split

theorem execPatrolScrub_evolves (h_stalls : pm .stalls = true) (h : Evolves pm a s.store) (busy : Bool)
    (errs : List (Nat × Nat × Nat)) {sx : State} (he : execPatrolScrub busy errs s = .next sx) :
    Evolves pm a sx.store := by
  unfold execPatrolScrub at he; rw [← Host.Outcome.next.inj he]
  repeat' first
    | with_reducible assumption | (intro _; try beta_reduce)
    | (with_reducible first | apply ite_evolves | apply passErrors_evolves | apply put_evolves)
    | simp only [store_mk, store_eta] | split

theorem execMr4Poll_evolves (h : Evolves pm a s.store) (hot : Bool) {sx : State} (he : execMr4Poll hot s = .next sx) :
    Evolves pm a sx.store := by
  unfold execMr4Poll at he; rw [← Host.Outcome.next.inj he]
  repeat' first
    | with_reducible assumption
    | (with_reducible first | apply ite_evolves | apply raise_evolves | apply setF_evolves) | split

theorem execDqsOscillatorCheck_evolves (h : Evolves pm a s.store) {sx : State}
    (he : execDqsOscillatorCheck s = .next sx) :
    Evolves pm a sx.store := by
  unfold execDqsOscillatorCheck at he; rw [← Host.Outcome.next.inj he]
  with_reducible assumption

theorem showSr_evolves (h : Evolves pm a s.store) (ch : Nat) (on : Bool) : Evolves pm a (showSr ch on s).store := by
  unfold showSr; try dsimp only
  repeat' first | with_reducible assumption | (with_reducible first | apply ite_evolves | apply put_evolves)

theorem lpIssued_evolves (h : Evolves pm a s.store) :
    Evolves pm a (lpIssued s).store := by
  unfold lpIssued; try dsimp only
  repeat' first
    | with_reducible assumption | (intro _; try beta_reduce)
    | simp only [store_mk, store_eta] | split

theorem selfRefreshEntry_evolves (h : Evolves pm a s.store) (ch : Fin 2) :
    Evolves pm a (selfRefreshEntry ch s).store := by
  unfold selfRefreshEntry; try dsimp only
  repeat' first
    | with_reducible assumption | (intro _; try beta_reduce)
    | (with_reducible first | apply ite_evolves | apply addSat_evolves | apply lifeAdd_evolves | apply showSr_evolves)
    | simp only [store_mk, store_eta] | split

theorem execSelfRefreshEntry_evolves (h : Evolves pm a s.store) (ch : Fin 2) {sx : State}
    (he : execSelfRefreshEntry ch s = .next sx) :
    Evolves pm a sx.store := by
  unfold execSelfRefreshEntry at he; rw [← Host.Outcome.next.inj he]
  repeat' first | with_reducible assumption | (with_reducible first | apply selfRefreshEntry_evolves)

theorem lpRequest_evolves (h : Evolves pm a s.store) (ch : Fin 2) : Evolves pm a (lpRequest ch s).store := by
  unfold lpRequest
  repeat' first
    | with_reducible assumption | (with_reducible first | apply showSr_evolves) | simp only [store_mk, store_eta]

theorem execSelfRefreshExit_evolves (h : Evolves pm a s.store) (ch : Fin 2) {sx : State}
    (he : execSelfRefreshExit ch s = .next sx) :
    Evolves pm a sx.store := by
  unfold execSelfRefreshExit at he; rw [← Host.Outcome.next.inj he]
  repeat' first | with_reducible assumption | (with_reducible first | apply ite_evolves | apply lpRequest_evolves)

theorem lpTouch_evolves (h : Evolves pm a s.store) (aa : Nat) (n : Nat) : Evolves pm a (lpTouch aa n s).store := by
  unfold lpTouch; try dsimp only
  repeat' first
    | with_reducible assumption | (intro _; try beta_reduce)
    | (with_reducible first | apply ite_evolves | apply lpRequest_evolves)

theorem lpWrites_evolves (h : Evolves pm a s.store) (aa : Nat) (n : Nat) :
    Evolves pm a (lpWrites aa n s).store := by
  unfold lpWrites; try dsimp only
  repeat' first
    | with_reducible assumption | (intro _; try beta_reduce)
    | simp only [store_mk, store_eta] | split

theorem rawWaits_evolves (h : Evolves pm a s.store) (aa : Nat) (n : Nat) :
    Evolves pm a (rawWaits aa n s).store := by
  unfold rawWaits; try dsimp only
  repeat' first
    | with_reducible assumption | (intro _; try beta_reduce)
    | (with_reducible first | apply draw_evolves | apply (draw_evolves' (by with_reducible assumption)) | apply addSat_evolves)
    | simp only [store_mk, store_eta] | split

theorem dmcResult_evolves (h : Evolves pm a s.store) (cmd : Nat) (r : Nat) :
    Evolves pm a (dmcResult cmd r s).store := by
  unfold dmcResult
  repeat' first | with_reducible assumption | (with_reducible first | apply wrN_evolves)

theorem runCmd_evolves (h : Evolves pm a s.store) (cmd : Nat) :
    Evolves pm a (runCmd cmd s).store := by
  unfold runCmd; try dsimp only
  repeat' first
    | with_reducible assumption | (intro _; try beta_reduce)
    | simp only [store_mk, store_eta] | split

theorem freqChange_evolves (h : Evolves pm a s.store) :
    Evolves pm a (freqChange s).store := by
  unfold freqChange; try dsimp only
  repeat' first
    | with_reducible assumption | (intro _; try beta_reduce)
    | (with_reducible first | apply ite_evolves | apply forAll_evolves | apply dmcResult_evolves | apply lpIssued_evolves | apply put_evolves | apply runCmd_evolves)
    | simp only [store_mk, store_eta] | split

theorem execFreqChange_evolves (h : Evolves pm a s.store) (sec : Bool) {sx : State}
    (he : execFreqChange sec s = .next sx) :
    Evolves pm a sx.store := by
  unfold execFreqChange at he; rw [← Host.Outcome.next.inj he]
  repeat' first
    | with_reducible assumption | (intro _; try beta_reduce)
    | (with_reducible first | apply freqChange_evolves | apply hostWrite_evolves)

theorem freqChangeDone_evolves (h : Evolves pm a s.store) :
    Evolves pm a (freqChangeDone s).store := by
  unfold freqChangeDone; try dsimp only
  repeat' first
    | with_reducible assumption | (intro _; try beta_reduce)
    | (with_reducible first | apply ite_evolves | apply forAll_evolves | apply dmcResult_evolves | apply lifeAdd_evolves | apply lpRequest_evolves | apply put_evolves)
    | (with_reducible first | apply raise_evolves | apply runCmd_evolves)
    | simp only [store_mk, store_eta] | split

theorem execFreqChangeDone_evolves (h : Evolves pm a s.store) {sx : State} (he : execFreqChangeDone s = .next sx) :
    Evolves pm a sx.store := by
  unfold execFreqChangeDone at he; rw [← Host.Outcome.next.inj he]
  repeat' first | with_reducible assumption | (with_reducible first | apply freqChangeDone_evolves)

theorem beginTraining_evolves (h : Evolves pm a s.store) :
    Evolves pm a (beginTraining s).store := by
  unfold beginTraining; try dsimp only
  repeat' first
    | with_reducible assumption | (intro _; try beta_reduce)
    | (with_reducible first | apply forAll_evolves | apply lpIssued_evolves | apply put_evolves | apply showSr_evolves)
    | simp only [store_mk, store_eta] | split

theorem retrain_evolves (h : Evolves pm a s.store) :
    Evolves pm a (retrain s).store := by
  unfold retrain; try dsimp only
  repeat' first
    | with_reducible assumption | (intro _; try beta_reduce)
    | (with_reducible first | apply ite_evolves | apply beginTraining_evolves | apply dmcResult_evolves | apply runCmd_evolves)
    | simp only [store_mk, store_eta] | split

theorem execRetrain_evolves (h : Evolves pm a s.store) (sec : Bool) {sx : State} (he : execRetrain sec s = .next sx) :
    Evolves pm a sx.store := by
  unfold execRetrain at he; rw [← Host.Outcome.next.inj he]
  repeat' first
    | with_reducible assumption | (intro _; try beta_reduce)
    | (with_reducible first | apply hostWrite_evolves | apply retrain_evolves)

theorem trainingDone_evolves (h : Evolves pm a s.store) (ok : Bool) (res : List (Nat × Nat × Nat)) :
    Evolves pm a (trainingDone ok res s).store := by
  unfold trainingDone; try dsimp only
  repeat' first
    | with_reducible assumption | (intro _; try beta_reduce)
    | (with_reducible first | apply ite_evolves | apply forAll_evolves | apply dmcResult_evolves | apply lifeAdd_evolves | apply lpRequest_evolves | apply put_evolves)
    | (with_reducible first | apply raise_evolves | apply runCmd_evolves | apply wrN_evolves)
    | simp only [store_mk, store_eta] | split

theorem execTrainingDone_evolves (h : Evolves pm a s.store) (ok : Bool) (res : List (Nat × Nat × Nat)) {sx : State}
    (he : execTrainingDone ok res s = .next sx) :
    Evolves pm a sx.store := by
  unfold execTrainingDone at he; rw [← Host.Outcome.next.inj he]
  repeat' first | with_reducible assumption | (with_reducible first | apply trainingDone_evolves)

theorem memChecks_evolves (h_ctxs : pm .ctxs = true) (h : Evolves pm a s.store) (c : Fin 256) (d : Desc)
    (write : Bool) (k : State → State) (hk : ∀ u, Evolves pm a u.store → Evolves pm a (k u).store) :
    Evolves pm a (memChecks c d write k s).store := by
  unfold memChecks; try dsimp only
  repeat' first
    | with_reducible assumption
    | (with_reducible first | apply ite_evolves | apply complete_evolves | apply formatZero_evolves | apply worldFault_evolves | apply hk)

theorem corrected_evolves (h_stalls : pm .stalls = true) (h : Evolves pm a s.store) (c : Fin 256) (aa : Nat)
    (n : Nat) (errs : List (Nat × Nat × Nat)) :
    Evolves pm a (corrected c aa n errs s).store := by
  unfold corrected; try dsimp only
  repeat' first
    | with_reducible assumption | (intro _; try beta_reduce)
    | (with_reducible first | apply foldl_evolves | apply memError_evolves)
    | simp only [store_mk, store_eta] | split

theorem memReadCopy_evolves (h_ctxs : pm .ctxs = true) (h_stalls : pm .stalls = true) (h : Evolves pm a s.store)
    (c : Fin 256) (errs : List (Nat × Nat × Nat)) (d : Desc) :
    Evolves pm a (memReadCopy c errs d s).store := by
  unfold memReadCopy; try dsimp only
  repeat' first
    | with_reducible assumption | (intro _; try beta_reduce)
    | (with_reducible first | apply ite_evolves | apply emit_evolves | apply draw_evolves | apply (draw_evolves' (by with_reducible assumption)) | apply complete_evolves | apply corrected_evolves)
    | (with_reducible first | apply hostWrite_evolves | apply lpTouch_evolves | apply memError_evolves | apply rawWaits_evolves)
    | simp only [store_mk, store_eta] | split

theorem memRun_evolves (h_ctxs : pm .ctxs = true) (h : Evolves pm a s.store) (c : Fin 256) (d : Desc)
    (copy : Desc → State → State) (hk : ∀ x0 u, Evolves pm a u.store → Evolves pm a (copy x0 u).store) :
    Evolves pm a (memRun c d copy s).store := by
  unfold memRun; try dsimp only
  repeat' first
    | with_reducible assumption | (intro _; try beta_reduce)
    | (with_reducible first | apply ite_evolves | apply complete_evolves | apply hk)
    | simp only [store_mk, store_eta] | split

theorem memDesc_evolves (h_ctxs : pm .ctxs = true) (h : Evolves pm a s.store) (c : Fin 256) (op : Nat)
    (copy : Desc → State → State) (hk : ∀ x0 u, Evolves pm a u.store → Evolves pm a (copy x0 u).store) :
    Evolves pm a (memDesc c op copy s).store := by
  unfold memDesc; try dsimp only
  repeat' first
    | with_reducible assumption | (intro _; try beta_reduce)
    | (with_reducible first | apply ite_evolves | apply memChecks_evolves | apply memRun_evolves | apply withDesc_evolves | apply hk)
    | simp only [store_mk, store_eta] | split

theorem execMemRead_evolves (h_ctxs : pm .ctxs = true) (h_stalls : pm .stalls = true) (h : Evolves pm a s.store)
    (c : Fin 256) (errs : List (Nat × Nat × Nat)) {sx : State} (he : execMemRead c errs s = .next sx) :
    Evolves pm a sx.store := by
  unfold execMemRead at he; rw [← Host.Outcome.next.inj he]
  repeat' first
    | with_reducible assumption | (intro _; try beta_reduce)
    | (with_reducible first | apply memDesc_evolves | apply memReadCopy_evolves | apply (memReadCopy_evolves' (by with_reducible assumption)))
    | simp only [store_mk, store_eta] | split

theorem evolves_lp5Write (hm : pm .mem = true) (h : Evolves pm a s.store) (x : Nat) (bs : List Byte) :
    Evolves pm a ({ s with lp5 := memWrite s.lp5 x bs } : State).store :=
  Evolves.mem hm id (fun m => memWrite m x bs) (fun _ h => h) (fun _ h => memWrite_wf x bs h) h

theorem memWriteCopy_evolves (h_ctxs : pm .ctxs = true) (h_mem : pm .mem = true) (h_stalls : pm .stalls = true)
    (h : Evolves pm a s.store) (c : Fin 256) (errs : List (Nat × Nat × Nat)) (d : Desc) (bs : List Byte) :
    Evolves pm a (memWriteCopy c errs d bs s).store := by
  unfold memWriteCopy; dsimp only
  refine complete_evolves h_ctxs ?_ _ _ _ _ _ _
  simp only [store_mk, store_eta]
  exact heal_evolves (evolves_lp5Write h_mem
    (foldl_evolves _ _ (fun s e hs => memError_evolves h_stalls hs _ _ _ _)
      (lpWrites_evolves (lpTouch_evolves h _ _) _ _)) _ _) _ _

theorem memWriteRun_evolves (h_ctxs : pm .ctxs = true) (h_mem : pm .mem = true) (h_stalls : pm .stalls = true)
    (h : Evolves pm a s.store) (c : Fin 256) (r : DmaIn) (errs : List (Nat × Nat × Nat)) (d : Desc) :
    Evolves pm a (memWriteRun c r errs d s).store := by
  unfold memWriteRun; try dsimp only
  repeat' first
    | with_reducible assumption | (intro _; try beta_reduce)
    | (with_reducible first | apply memWriteCopy_evolves | apply payloadFailAt_evolves)
    | simp only [store_mk, store_eta] | split

theorem execMemWrite_evolves (h_ctxs : pm .ctxs = true) (h_mem : pm .mem = true) (h_stalls : pm .stalls = true)
    (h : Evolves pm a s.store) (c : Fin 256) (r : DmaIn) (errs : List (Nat × Nat × Nat)) {sx : State}
    (he : execMemWrite c r errs s = .next sx) :
    Evolves pm a sx.store := by
  unfold execMemWrite at he; rw [← Host.Outcome.next.inj he]
  repeat' first
    | with_reducible assumption | (intro _; try beta_reduce)
    | (with_reducible first | apply memDesc_evolves | apply memWriteRun_evolves)
    | simp only [store_mk, store_eta] | split

theorem dmcConfigWrite_evolves (h : Evolves pm a s.store) (sec : Bool) (scrub : Bool) (v : Word) :
    Evolves pm a (dmcConfigWrite sec scrub v s).store := by
  unfold dmcConfigWrite; try dsimp only
  repeat' first
    | with_reducible assumption | (intro _; try beta_reduce)
    | (with_reducible first | apply ite_evolves | apply cfgWrite_evolves | apply setF_evolves | apply wrN_evolves)

theorem execDmcConfigWrite_evolves (h : Evolves pm a s.store) (sec : Bool) (scrub : Bool) (v : Word) {sx : State}
    (he : execDmcConfigWrite sec scrub v s = .next sx) :
    Evolves pm a sx.store := by
  unfold execDmcConfigWrite at he; rw [← Host.Outcome.next.inj he]
  repeat' first | with_reducible assumption | (with_reducible first | apply dmcConfigWrite_evolves)

theorem tsetWrite_evolves (h : Evolves pm a s.store) (sec : Bool) (o : Nat) (v : Word) :
    Evolves pm a (tsetWrite sec o v s).store := by
  unfold tsetWrite
  repeat' first
    | with_reducible assumption | (intro _; try beta_reduce)
    | (with_reducible first | apply cfgWrite_evolves | apply wrN_evolves) | dsimp only [id]

theorem dmcTick_evolves (h : Evolves pm a s.store) (dt : Nat) :
    Evolves pm a (dmcTick dt s).store := by
  unfold dmcTick; try dsimp only
  repeat' first
    | with_reducible assumption | (intro _; try beta_reduce)
    | (with_reducible first | apply ite_evolves | apply add64_evolves | apply lifeTime_evolves)
    | simp only [store_mk, store_eta] | split

end Machine
end Sys2Proof
end

