-- ==== Sys2Proof/Laws/EvolvesCompress.lean ====
section
/-!
SUPPORT. Every operation of Compress.lean is an evolution (Laws/Evolves.lean).
-/
namespace Sys2Proof
namespace Machine

variable {pm : Part → Bool} {a : Store} {s : State}

theorem setJobs_evolves (h_cmpJobs : pm .cmpJobs = true) (h : Evolves pm a s.store) (e : Fin 2) (f : List Job → List Job) :
    Evolves pm a (setJobs e f s).store := by
  have h1 : Evolves pm a ({ s with cmpJobs := vmod s.cmpJobs e f } : State).store := Evolves.cmpJobs h_cmpJobs _ h
  unfold setJobs; dsimp only
  exact ite_evolves (ite_evolves h1 h1) (ungate_evolves h1 _)

theorem showJobs_evolves (h : Evolves pm a s.store) : Evolves pm a (showJobs s).store := by
  unfold showJobs; try dsimp only
  repeat' first
    | with_reducible assumption | (intro _; try beta_reduce)
    | (with_reducible first | apply ite_evolves | apply forAll_evolves | apply put_evolves | apply wrN_evolves)

theorem placeJob_evolves (h_cmpJobs : pm .cmpJobs = true) (h : Evolves pm a s.store) (j : Job) :
    Evolves pm a (placeJob s j).store := by
  unfold placeJob
  repeat' first
    | with_reducible assumption | (with_reducible first | apply setJobs_evolves) | simp only [store_mk, store_eta]
    | split

theorem feedEngines_evolves (h_cmpJobs : pm .cmpJobs = true) (h : Evolves pm a s.store) :
    Evolves pm a (feedEngines s).store := by
  unfold feedEngines
  repeat' first
    | with_reducible assumption | (intro _; try beta_reduce)
    | (with_reducible first | apply foldl_evolves | apply placeJob_evolves | apply showJobs_evolves)
    | simp only [store_mk, store_eta]

theorem submitJob_evolves (h_cmpJobs : pm .cmpJobs = true) (h : Evolves pm a s.store) (j : Job) :
    Evolves pm a (submitJob j s).store := by
  unfold submitJob
  repeat' first | with_reducible assumption | (with_reducible first | apply placeJob_evolves | apply showJobs_evolves)

theorem stagingError_evolves (h_stalls : pm .stalls = true) (h : Evolves pm a s.store) (base : Nat) (size : Nat) :
    Evolves pm a (stagingError base size s).store := by
  unfold stagingError; try dsimp only
  repeat' first
    | with_reducible assumption | (intro _; try beta_reduce)
    | (with_reducible first | apply draw_evolves | apply (draw_evolves' (by with_reducible assumption)) | apply memError_evolves)
    | simp only [store_mk, store_eta] | split

theorem blockStart_evolves (h_cmpJobs : pm .cmpJobs = true) (h_stalls : pm .stalls = true)
    (h : Evolves pm a s.store) (e : Fin 2) (ecc : Bool) :
    Evolves pm a (blockStart e ecc s).store := by
  unfold blockStart; try dsimp only
  repeat' first
    | with_reducible assumption | (intro _; try beta_reduce)
    | (with_reducible first | apply ite_evolves | apply add64_evolves | apply addW_evolves | apply lifeAdd_evolves | apply raise_evolves | apply setF_evolves)
    | (with_reducible first | apply setJobs_evolves | apply showJobs_evolves | apply stagingError_evolves | apply wrN_evolves)
    | simp only [store_mk, store_eta] | split

theorem execBlockStart_evolves (h_cmpJobs : pm .cmpJobs = true) (h_stalls : pm .stalls = true)
    (h : Evolves pm a s.store) (e : Fin 2) (ecc : Bool) {sx : State} (he : execBlockStart e ecc s = .next sx) :
    Evolves pm a sx.store := by
  unfold execBlockStart at he; rw [← Host.Outcome.next.inj he]
  repeat' first
    | with_reducible assumption | (intro _; try beta_reduce)
    | (with_reducible first | apply blockStart_evolves)
    | simp only [store_mk, store_eta] | split

theorem putRecord_evolves (h : Evolves pm a s.store) (aa : Nat) (c : Codec) :
    Evolves pm a (putRecord aa c s).store := by
  unfold putRecord; try dsimp only
  repeat' first
    | with_reducible assumption | (intro _; try beta_reduce)
    | (with_reducible first | apply ite_evolves | apply emit_evolves | apply hostWrite_evolves)
    | simp only [store_mk, store_eta] | split

theorem writeRecord_evolves (h : Evolves pm a s.store) (j : Job) (st : Nat) :
    Evolves pm a (writeRecord j st s).store := by
  unfold writeRecord; try dsimp only
  repeat' first
    | with_reducible assumption | (intro _; try beta_reduce)
    | (with_reducible first | apply ite_evolves | apply putRecord_evolves)
    | simp only [store_mk, store_eta] | split

theorem finishHost_evolves (h_ctxs : pm .ctxs = true) (h : Evolves pm a s.store) (j : Job) (st : Nat) (cause : Nat) :
    Evolves pm a (finishHost j st cause s).store := by
  unfold finishHost; try dsimp only
  repeat' first
    | with_reducible assumption
    | (with_reducible first | apply ite_evolves | apply complete_evolves | apply emit_evolves | apply writeRecord_evolves)
    | split

theorem finishFrame_evolves (h_ctxs : pm .ctxs = true) (h : Evolves pm a s.store) (j : Job) (st : Nat) :
    Evolves pm a (finishFrame j st s).store := by
  unfold finishFrame; try dsimp only
  repeat' first
    | with_reducible assumption
    | (with_reducible first | apply ite_evolves | apply complete_evolves | apply emit_evolves) | split

theorem setTrace_evolves (h_traces : pm .traces = true) (h : Evolves pm a s.store) (c : Fin 64) (f : Trace → Trace) :
    Evolves pm a (setTrace c f s).store := Evolves.traces h_traces _ h

theorem traceCoded_evolves (h_traces : pm .traces = true) (h : Evolves pm a s.store) (j : Job) (st : Nat) :
    Evolves pm a (traceCoded j st s).store := by
  unfold traceCoded; try dsimp only
  repeat' first
    | with_reducible assumption | (intro _; try beta_reduce)
    | (with_reducible first | apply ite_evolves | apply setTrace_evolves)
    | simp only [store_mk, store_eta] | split

theorem finishJob_evolves (h_ctxs : pm .ctxs = true) (h_traces : pm .traces = true) (h : Evolves pm a s.store)
    (e : Fin 2) (j : Job) (st : Nat) (cause : Nat) :
    Evolves pm a (finishJob e j st cause s).store := by
  unfold finishJob; try dsimp only
  repeat' first
    | with_reducible assumption | (intro _; try beta_reduce)
    | (with_reducible first | apply ite_evolves | apply addW_evolves | apply finishFrame_evolves | apply finishHost_evolves | apply lifeAdd_evolves | apply raise_evolves)
    | (with_reducible first | apply setF_evolves | apply traceCoded_evolves)
    | simp only [store_mk, store_eta] | split

theorem jobComplete_evolves (h_cmpJobs : pm .cmpJobs = true) (h_ctxs : pm .ctxs = true)
    (h_traces : pm .traces = true) (h : Evolves pm a s.store) (e : Fin 2) :
    Evolves pm a (jobComplete e s).store := by
  unfold jobComplete; try dsimp only
  repeat' first
    | with_reducible assumption | (intro _; try beta_reduce)
    | (with_reducible first | apply feedEngines_evolves | apply finishJob_evolves | apply setJobs_evolves)
    | simp only [store_mk, store_eta] | split

theorem startJob_evolves (h_cmpJobs : pm .cmpJobs = true) (h_ctxs : pm .ctxs = true) (h : Evolves pm a s.store)
    (c : Fin 256) (d : Desc) (dec : Bool) (codec : Codec) (r : DmaIn) :
    Evolves pm a (startJob c d dec codec r s).store := by
  unfold startJob; try dsimp only
  repeat' first
    | with_reducible assumption | (intro _; try beta_reduce)
    | (with_reducible first | apply ite_evolves | apply complete_evolves | apply putRecord_evolves | apply submitJob_evolves | apply withPayload_evolves)
    | simp only [store_mk, store_eta] | split

theorem opJob_evolves (h_cmpJobs : pm .cmpJobs = true) (h_ctxs : pm .ctxs = true) (h : Evolves pm a s.store)
    (c : Fin 256) (dec : Bool) (r : DmaIn) (st : StateIn) (d : Desc) :
    Evolves pm a (opJob c dec r st d s).store := by
  unfold opJob
  repeat' first
    | with_reducible assumption | (intro _; try beta_reduce)
    | (with_reducible first | apply ite_evolves | apply blockCheck_evolves | apply complete_evolves | apply formatZero_evolves | apply payloadFail_evolves)
    | (with_reducible first | apply startJob_evolves) | simp only [store_mk, store_eta] | split

theorem execCmpEncode_evolves (h_cmpJobs : pm .cmpJobs = true) (h_ctxs : pm .ctxs = true) (h : Evolves pm a s.store)
    (c : Fin 256) (r : DmaIn) (st : StateIn) {sx : State} (he : execCmpEncode c r st s = .next sx) :
    Evolves pm a sx.store := by
  unfold execCmpEncode at he; rw [← Host.Outcome.next.inj he]
  repeat' first
    | with_reducible assumption | (intro _; try beta_reduce)
    | (with_reducible first | apply opJob_evolves | apply withDesc_evolves)

theorem execCmpDecode_evolves (h_cmpJobs : pm .cmpJobs = true) (h_ctxs : pm .ctxs = true) (h : Evolves pm a s.store)
    (c : Fin 256) (r : DmaIn) (st : StateIn) {sx : State} (he : execCmpDecode c r st s = .next sx) :
    Evolves pm a sx.store := by
  unfold execCmpDecode at he; rw [← Host.Outcome.next.inj he]
  repeat' first
    | with_reducible assumption | (intro _; try beta_reduce)
    | (with_reducible first | apply opJob_evolves | apply withDesc_evolves)

theorem cmpEngineFault_evolves (h_cmpJobs : pm .cmpJobs = true) (h_ctxs : pm .ctxs = true)
    (h_traces : pm .traces = true) (h : Evolves pm a s.store) (e : Fin 2) :
    Evolves pm a (cmpEngineFault e s).store := by
  unfold cmpEngineFault; try dsimp only
  repeat' first
    | with_reducible assumption | (intro _; try beta_reduce)
    | (with_reducible first | apply ite_evolves | apply foldl_evolves | apply feedEngines_evolves | apply finishJob_evolves | apply lifeAdd_evolves | apply put_evolves)
    | (with_reducible first | apply raise_evolves | apply setJobs_evolves)
    | simp only [store_mk, store_eta] | split

theorem execCmpEngineFault_evolves (h_cmpJobs : pm .cmpJobs = true) (h_ctxs : pm .ctxs = true)
    (h_traces : pm .traces = true) (h : Evolves pm a s.store) (e : Fin 2) {sx : State}
    (he : execCmpEngineFault e s = .next sx) :
    Evolves pm a sx.store := by
  unfold execCmpEngineFault at he; rw [← Host.Outcome.next.inj he]
  repeat' first
    | with_reducible assumption | (intro _; try beta_reduce)
    | (with_reducible first | apply cmpEngineFault_evolves)
    | simp only [store_mk, store_eta] | split

theorem execEngineClearFault_evolves (h_cmpJobs : pm .cmpJobs = true) (h : Evolves pm a s.store) (sec : Bool)
    (e : Fin 2) {sx : State} (he : execEngineClearFault sec e s = .next sx) :
    Evolves pm a sx.store := by
  unfold execEngineClearFault at he; rw [← Host.Outcome.next.inj he]
  repeat' first
    | with_reducible assumption | (intro _; try beta_reduce)
    | (with_reducible first | apply feedEngines_evolves | apply hostWrite_evolves | apply put_evolves)

theorem cmpConfigWrite_evolves (h_cmpJobs : pm .cmpJobs = true) (h : Evolves pm a s.store) (sec : Bool) (v : Word) :
    Evolves pm a (cmpConfigWrite sec v s).store := by
  unfold cmpConfigWrite
  repeat' first
    | with_reducible assumption | (intro _; try beta_reduce)
    | (with_reducible first | apply ite_evolves | apply cfgWrite_evolves | apply feedEngines_evolves | apply setF_evolves | apply wrN_evolves)

theorem execCmpConfigWrite_evolves (h_cmpJobs : pm .cmpJobs = true) (h : Evolves pm a s.store) (sec : Bool)
    (v : Word) {sx : State} (he : execCmpConfigWrite sec v s = .next sx) :
    Evolves pm a sx.store := by
  unfold execCmpConfigWrite at he; rw [← Host.Outcome.next.inj he]
  repeat' first | with_reducible assumption | (with_reducible first | apply cmpConfigWrite_evolves)

theorem cmpLoad_evolves (h : Evolves pm a s.store) : Evolves pm a (cmpLoad s).store := by
  unfold cmpLoad; try dsimp only
  repeat' first
    | with_reducible assumption | (intro _; try beta_reduce)
    | (with_reducible first | apply ite_evolves | apply forAll_evolves | apply draw_evolves | apply wrN_evolves | apply (draw_evolves' (by with_reducible assumption)))
    | split

end Machine
end Sys2Proof
end

