-- ==== Sys2Proof/Laws/EvolvesImaging.lean ====
section
/-!
SUPPORT. Every operation of Imaging.lean is an evolution (Laws/Evolves.lean).
-/
namespace Sys2Proof
namespace Machine

variable {pm : Part → Bool} {a : Store} {s : State}

theorem setSn_evolves (hp : pm .sens = true) (h : Evolves pm a s.store) (g : Fin 16) (f : Sens → Sens) :
    Evolves pm a (setSn g f s).store := Evolves.sens hp _ h

theorem sensEnter_evolves (h : Evolves pm a s.store) (n : Nat) (st : Nat) :
    Evolves pm a (sensEnter n st s).store := by
  unfold sensEnter
  repeat' first | with_reducible assumption | (with_reducible first | apply put_evolves)

theorem sensReport_evolves (h : Evolves pm a s.store) (f : Fld) (n : Nat) :
    Evolves pm a (sensReport f n s).store := by
  unfold sensReport
  repeat' first | with_reducible assumption | (with_reducible first | apply raiseOnSet_evolves)

theorem showPipe_evolves (h : Evolves pm a s.store) (x : Fin 2) : Evolves pm a (showPipe x s).store := by
  unfold showPipe; try dsimp only
  repeat' first
    | with_reducible assumption
    | (with_reducible first | apply lifeMax_evolves | apply put_evolves | apply wrN_evolves)

theorem pipeTurn_evolves (h : Evolves pm a s.store) (x : Fin 2) : Evolves pm a (pipeTurn x s).store := by
  unfold pipeTurn; try dsimp only
  repeat' first
    | with_reducible assumption | (intro _; try beta_reduce)
    | (with_reducible first | apply ite_evolves | apply showPipe_evolves) | simp only [store_mk, store_eta]

theorem completeN_evolves (h_ctxs : pm .ctxs = true) (h : Evolves pm a s.store) (c : Nat) (q : Nat) (st : Nat)
    (aa : Option Nat) (b : Option Nat) :
    Evolves pm a (completeN c q st aa b s).store := by
  unfold completeN
  repeat' first
    | with_reducible assumption | (with_reducible first | apply ite_evolves | apply complete_evolves) | split

theorem abortBufs_evolves (h_ctxs : pm .ctxs = true) (h : Evolves pm a s.store) (n : Nat) (f : Frame) :
    Evolves pm a (abortBufs n f s).store := by
  unfold abortBufs; try dsimp only
  repeat' first
    | with_reducible assumption | (with_reducible first | apply completeN_evolves) | simp only [store_mk, store_eta]
    | split

theorem takeBuf_evolves (h_sens : pm .sens = true) (h : Evolves pm a s.store) (stats : Bool) (n : Fin 16) :
    Evolves pm a (takeBuf stats n s).2.store := by
  unfold takeBuf; try dsimp only
  repeat' first
    | with_reducible assumption | (intro _; try beta_reduce) | (with_reducible first | apply setSn_evolves)
    | simp only [store_mk, store_eta] | split

theorem takeBuf_evolves' {pm : Part → Bool} {a : Store} {sv : State} {xo : Option (Nat × Nat × Nat × Nat × Bool)} {s : State} {h_sens : pm .sens = true}  {stats : Bool} {n : Fin 16} (e : takeBuf stats n s = (xo, sv)) (h : Evolves pm a s.store) : Evolves pm a sv.store := by
  have := takeBuf_evolves h_sens h stats n
  rw [e] at this; exact this

theorem removeFrame_evolves (h_ctxs : pm .ctxs = true) (h_sens : pm .sens = true) (h : Evolves pm a s.store)
    (n : Fin 16) (i : Nat) :
    Evolves pm a (removeFrame n i s).store := by
  unfold removeFrame; try dsimp only
  repeat' first
    | with_reducible assumption | (intro _; try beta_reduce)
    | (with_reducible first | apply ite_evolves | apply abortBufs_evolves | apply pipeTurn_evolves | apply setSn_evolves | apply showPipe_evolves)
    | simp only [store_mk, store_eta] | split

theorem dropFrame_evolves (h_ctxs : pm .ctxs = true) (h_sens : pm .sens = true) (h : Evolves pm a s.store)
    (n : Fin 16) (i : Nat) :
    Evolves pm a (dropFrame n i s).store := by
  unfold dropFrame; try dsimp only
  repeat' first
    | with_reducible assumption
    | (with_reducible first | apply addSat_evolves | apply lifeAdd_evolves | apply raise_evolves | apply removeFrame_evolves | apply sensReport_evolves)

theorem makeRoom_evolves {pm : Part → Bool} {a : Store} {s : State} (h_ctxs : pm .ctxs = true)
    (h_sens : pm .sens = true) (h : Evolves pm a s.store) (k : Nat) (x : Fin 2) (n : Fin 16) :
    Evolves pm a (makeRoom k x n s).store := by
  induction k generalizing s with
  | zero => exact h
  | succ k ih =>
    unfold makeRoom
    split
    · exact h
    · split
      · exact h
      · exact ih (dropFrame_evolves h_ctxs h_sens h _ _)

theorem portDiscard_evolves (h : Evolves pm a s.store) (p : Fin 4) : Evolves pm a (portDiscard p s).store := by
  unfold portDiscard
  repeat' first
    | with_reducible assumption
    | (with_reducible first | apply addSatF_evolves | apply lifeAdd_evolves | apply raiseOnSet_evolves)

theorem setFrame_evolves (h_sens : pm .sens = true) (h : Evolves pm a s.store) (n : Fin 16) (i : Nat)
    (f : Frame → Frame) :
    Evolves pm a (setFrame n i f s).store := by
  unfold setFrame
  repeat' first
    | with_reducible assumption | (intro _; try beta_reduce) | (with_reducible first | apply setSn_evolves)
    | simp only [store_mk, store_eta]

theorem endFrame_evolves (h_sens : pm .sens = true) (h : Evolves pm a s.store) (n : Fin 16) (fe : Nat) (dam : Bool) :
    Evolves pm a (endFrame n fe dam s).store := by
  unfold endFrame; try dsimp only
  repeat' first
    | with_reducible assumption | (intro _; try beta_reduce)
    | (with_reducible first | apply ite_evolves | apply pipeTurn_evolves | apply setFrame_evolves)
    | simp only [store_mk, store_eta] | split

theorem settingsLate_evolves (h : Evolves pm a s.store) (n : Fin 16) : Evolves pm a (settingsLate n s).store := by
  unfold settingsLate; try dsimp only
  repeat' first
    | with_reducible assumption | (intro _; try beta_reduce)
    | (with_reducible first | apply ite_evolves | apply sensReport_evolves)

theorem newFrame_evolves (h_sens : pm .sens = true) (h : Evolves pm a s.store) (n : Fin 16) (t : Nat) :
    Evolves pm a (newFrame n t s).store := by
  unfold newFrame; try dsimp only
  repeat' first
    | with_reducible assumption | (intro _; try beta_reduce)
    | (with_reducible first | apply ite_evolves | apply addSat_evolves | apply lifeAdd_evolves | apply put_evolves | apply sensReport_evolves | apply setF_evolves)
    | (with_reducible first | apply setSn_evolves | apply takeBuf_evolves | apply (takeBuf_evolves' (by with_reducible assumption)) | apply ungate_evolves | apply wr64_evolves | apply wrN_evolves)
    | simp only [store_mk, store_eta] | split

theorem frameStart_evolves (h_ctxs : pm .ctxs = true) (h_sens : pm .sens = true) (h : Evolves pm a s.store)
    (p : Fin 4) (vc : Nat) (t : Nat) :
    Evolves pm a (frameStart p vc t s).store := by
  unfold frameStart; try dsimp only
  repeat' first
    | with_reducible assumption
    | (with_reducible first | apply ite_evolves | apply add64_evolves | apply draw_evolves | apply dropFrame_evolves | apply endFrame_evolves)
    | (with_reducible first | apply newFrame_evolves | apply portDiscard_evolves | apply sensEnter_evolves | apply settingsLate_evolves | apply (draw_evolves' (by with_reducible assumption)))
    | simp only [store_mk, store_eta] | split

theorem execFrameStart_evolves (h_ctxs : pm .ctxs = true) (h_sens : pm .sens = true) (h : Evolves pm a s.store)
    (p : Fin 4) (vc : Nat) (dt : Nat) {sx : State} (he : execFrameStart p vc dt s = .next sx) :
    Evolves pm a sx.store := by
  unfold execFrameStart at he; rw [← Host.Outcome.next.inj he]
  repeat' first | with_reducible assumption | (with_reducible first | apply frameStart_evolves)

theorem showSettings_evolves (h : Evolves pm a s.store) (n : Fin 16) : Evolves pm a (showSettings n s).store := by
  unfold showSettings
  repeat' first | with_reducible assumption | (intro _; try beta_reduce) | (with_reducible first | apply put_evolves)

theorem setCci_evolves (hp : pm .cci = true) (h : Evolves pm a s.store) (g : Fin 4) (f : List CciList → List CciList) :
    Evolves pm a (setCci g f s).store := Evolves.cci hp _ h

theorem readyLists_evolves (h_cci : pm .cci = true) (h : Evolves pm a s.store) (n : Fin 16) :
    Evolves pm a (readyLists n s).store := by
  unfold readyLists; try dsimp only
  repeat' first
    | with_reducible assumption | (intro _; try beta_reduce) | (with_reducible first | apply setCci_evolves)
    | simp only [store_mk, store_eta]

theorem frameEnd_evolves (h_cci : pm .cci = true) (h_sens : pm .sens = true) (h : Evolves pm a s.store) (p : Fin 4)
    (vc : Nat) (t : Nat) :
    Evolves pm a (frameEnd p vc t s).store := by
  unfold frameEnd; try dsimp only
  repeat' first
    | with_reducible assumption | (intro _; try beta_reduce)
    | (with_reducible first | apply ite_evolves | apply add64_evolves | apply clrF_evolves | apply endFrame_evolves | apply portDiscard_evolves)
    | (with_reducible first | apply readyLists_evolves | apply setSn_evolves | apply wr64_evolves)
    | simp only [store_mk, store_eta] | split

theorem execFrameEnd_evolves (h_cci : pm .cci = true) (h_sens : pm .sens = true) (h : Evolves pm a s.store)
    (p : Fin 4) (vc : Nat) (dt : Nat) {sx : State} (he : execFrameEnd p vc dt s = .next sx) :
    Evolves pm a sx.store := by
  unfold execFrameEnd at he; rw [← Host.Outcome.next.inj he]
  repeat' first | with_reducible assumption | (with_reducible first | apply frameEnd_evolves)

theorem takeLine_evolves (h_ctxs : pm .ctxs = true) (h_sens : pm .sens = true) (h : Evolves pm a s.store)
    (n : Fin 16) (pix : List Nat) (good : Bool) :
    Evolves pm a (takeLine n pix good s).store := by
  unfold takeLine; try dsimp only
  repeat' first
    | with_reducible assumption | (intro _; try beta_reduce)
    | (with_reducible first | apply ite_evolves | apply makeRoom_evolves | apply pipeTurn_evolves | apply setFrame_evolves | apply showPipe_evolves)
    | simp only [store_mk, store_eta] | split

theorem linePacket_evolves (h_ctxs : pm .ctxs = true) (h_sens : pm .sens = true) (h : Evolves pm a s.store)
    (p : Fin 4) (vc : Nat) (dt : Nat) (hdr : Fin 3) (crcOk : Bool) (pix : List Nat) :
    Evolves pm a (linePacket p vc dt hdr crcOk pix s).store := by
  unfold linePacket; try dsimp only
  repeat' first
    | with_reducible assumption | (intro _; try beta_reduce)
    | (with_reducible first | apply ite_evolves | apply addSatF_evolves | apply lifeAdd_evolves | apply portDiscard_evolves | apply raiseOnSet_evolves)
    | (with_reducible first | apply setFrame_evolves | apply takeLine_evolves) | simp only [store_mk, store_eta]
    | split

theorem execLinePacket_evolves (h_ctxs : pm .ctxs = true) (h_sens : pm .sens = true) (h : Evolves pm a s.store)
    (p : Fin 4) (vc : Nat) (dt : Nat) (hdr : Fin 3) (crcOk : Bool) (pix : List Nat) {sx : State}
    (he : execLinePacket p vc dt hdr crcOk pix s = .next sx) :
    Evolves pm a sx.store := by
  unfold execLinePacket at he; rw [← Host.Outcome.next.inj he]
  repeat' first | with_reducible assumption | (with_reducible first | apply linePacket_evolves)

theorem lineProcessed_evolves (h_sens : pm .sens = true) (h_stalls : pm .stalls = true) (h : Evolves pm a s.store)
    (x : Fin 2) (ecc : Bool) :
    Evolves pm a (lineProcessed x ecc s).store := by
  unfold lineProcessed; try dsimp only
  repeat' first
    | with_reducible assumption | (intro _; try beta_reduce)
    | (with_reducible first | apply ite_evolves | apply pipeTurn_evolves | apply setFrame_evolves | apply showPipe_evolves | apply stagingError_evolves)
    | simp only [store_mk, store_eta] | split

theorem execLineProcessed_evolves (h_sens : pm .sens = true) (h_stalls : pm .stalls = true)
    (h : Evolves pm a s.store) (x : Fin 2) (ecc : Bool) {sx : State} (he : execLineProcessed x ecc s = .next sx) :
    Evolves pm a sx.store := by
  unfold execLineProcessed at he; rw [← Host.Outcome.next.inj he]
  repeat' first
    | with_reducible assumption | (intro _; try beta_reduce)
    | (with_reducible first | apply lineProcessed_evolves)
    | simp only [store_mk, store_eta] | split

theorem writeTap_evolves (h_cmpJobs : pm .cmpJobs = true) (h_ctxs : pm .ctxs = true) (h : Evolves pm a s.store)
    (n : Nat) (c : PixCfg) (f : Frame) (lines : List (List Nat)) :
    Evolves pm a (writeTap n c f lines s).store := by
  unfold writeTap; try dsimp only
  repeat' first
    | with_reducible assumption
    | (with_reducible first | apply ite_evolves | apply completeN_evolves | apply emit_evolves | apply submitJob_evolves)
    | simp only [store_mk, store_eta] | split

theorem writeStats_evolves (h_ctxs : pm .ctxs = true) (h : Evolves pm a s.store) (c : PixCfg) (f : Frame)
    (sent : Bool) (lines : List (List Nat)) :
    Evolves pm a (writeStats c f sent lines s).store := by
  unfold writeStats; try dsimp only
  repeat' first
    | with_reducible assumption
    | (with_reducible first | apply ite_evolves | apply completeN_evolves | apply emit_evolves)
    | simp only [store_mk, store_eta] | split

theorem sendFeature_evolves (h_engs : pm .engs = true) (h : Evolves pm a s.store) (n : Nat) (f : Frame) (v : Int) :
    Evolves pm a (sendFeature n f v s).2.store := by
  unfold sendFeature; try dsimp only
  repeat' first
    | with_reducible assumption
    | (with_reducible first | apply ite_evolves | apply featureDelivery_evolves | apply sensReport_evolves) | split

theorem sendFeature_evolves' {pm : Part → Bool} {a : Store} {sv : State} {xo : Bool} {s : State} {h_engs : pm .engs = true}  {n : Nat} {f : Frame} {v : Int} (e : sendFeature n f v s = (xo, sv)) (h : Evolves pm a s.store) : Evolves pm a sv.store := by
  have := sendFeature_evolves h_engs h n f v
  rw [e] at this; exact this

theorem countDamage_evolves (h_sens : pm .sens = true) (h : Evolves pm a s.store) (n : Fin 16) (dam : Bool) :
    Evolves pm a (countDamage n dam s).store := by
  unfold countDamage; try dsimp only
  repeat' first
    | with_reducible assumption | (intro _; try beta_reduce)
    | (with_reducible first | apply ite_evolves | apply addSat_evolves | apply lifeAdd_evolves | apply raise_evolves | apply sensEnter_evolves)
    | (with_reducible first | apply sensReport_evolves | apply setSn_evolves) | simp only [store_mk, store_eta]

theorem frameFinished_evolves (h_cmpJobs : pm .cmpJobs = true) (h_ctxs : pm .ctxs = true) (h_engs : pm .engs = true)
    (h_sens : pm .sens = true) (h : Evolves pm a s.store) (n : Fin 16) :
    Evolves pm a (frameFinished n s).store := by
  unfold frameFinished; try dsimp only
  repeat' first
    | with_reducible assumption | (intro _; try beta_reduce)
    | (with_reducible first | apply ite_evolves | apply countDamage_evolves | apply sendFeature_evolves | apply setSn_evolves | apply wrI_evolves)
    | (with_reducible first | apply writeStats_evolves | apply writeTap_evolves | apply (sendFeature_evolves' (by with_reducible assumption)))
    | simp only [store_mk, store_eta] | split

theorem execFrameFinished_evolves (h_cmpJobs : pm .cmpJobs = true) (h_ctxs : pm .ctxs = true)
    (h_engs : pm .engs = true) (h_sens : pm .sens = true) (h : Evolves pm a s.store) (n : Fin 16) {sx : State}
    (he : execFrameFinished n s = .next sx) :
    Evolves pm a sx.store := by
  unfold execFrameFinished at he; rw [← Host.Outcome.next.inj he]
  repeat' first | with_reducible assumption | (with_reducible first | apply frameFinished_evolves)

theorem frameTimeout_evolves (h_cci : pm .cci = true) (h : Evolves pm a s.store) (n : Fin 16) :
    Evolves pm a (frameTimeout n s).store := by
  unfold frameTimeout; try dsimp only
  repeat' first
    | with_reducible assumption
    | (with_reducible first | apply ite_evolves | apply readyLists_evolves | apply sensEnter_evolves | apply sensReport_evolves)
    | simp only [store_mk, store_eta] | split

theorem execFrameTimeout_evolves (h_cci : pm .cci = true) (h : Evolves pm a s.store) (n : Fin 16) {sx : State}
    (he : execFrameTimeout n s = .next sx) :
    Evolves pm a sx.store := by
  unfold execFrameTimeout at he; rw [← Host.Outcome.next.inj he]
  repeat' first | with_reducible assumption | (with_reducible first | apply frameTimeout_evolves)

theorem dropDead_evolves (h_cci : pm .cci = true) (h : Evolves pm a s.store) (p : Fin 4) :
    Evolves pm a (dropDead p s).store := by
  unfold dropDead
  repeat' first
    | with_reducible assumption | (intro _; try beta_reduce) | (with_reducible first | apply setCci_evolves)

theorem settingsWriteStart_evolves (h_cci : pm .cci = true) (h : Evolves pm a s.store) (p : Fin 4) :
    Evolves pm a (settingsWriteStart p s).store := by
  unfold settingsWriteStart; try dsimp only
  repeat' first
    | with_reducible assumption | (intro _; try beta_reduce)
    | (with_reducible first | apply ite_evolves | apply dropDead_evolves | apply put_evolves | apply setCci_evolves | apply setF_evolves)
    | simp only [store_mk, store_eta] | split

theorem execSettingsWriteStart_evolves (h_cci : pm .cci = true) (h : Evolves pm a s.store) (p : Fin 4) {sx : State}
    (he : execSettingsWriteStart p s = .next sx) :
    Evolves pm a sx.store := by
  unfold execSettingsWriteStart at he; rw [← Host.Outcome.next.inj he]
  repeat' first | with_reducible assumption | (with_reducible first | apply settingsWriteStart_evolves)

theorem cciStop_evolves (h : Evolves pm a s.store) (p : Nat) (l : CciList) :
    Evolves pm a (cciStop p l s).2.store := by
  unfold cciStop; try dsimp only
  repeat' first
    | with_reducible assumption | (intro _; try beta_reduce)
    | (with_reducible first | apply draw_evolves | apply (draw_evolves' (by with_reducible assumption)))
    | simp only [store_mk, store_eta] | split

theorem cciStop_evolves' {pm : Part → Bool} {a : Store} {sv : State} {xo : Nat} {s : State}  {p : Nat} {l : CciList} (e : cciStop p l s = (xo, sv)) (h : Evolves pm a s.store) : Evolves pm a sv.store := by
  have := cciStop_evolves  h p l
  rw [e] at this; exact this

theorem sendEntries_evolves (h : Evolves pm a s.store) (p : Fin 4) (l : CciList) (n : Nat) (early : Bool) :
    Evolves pm a (sendEntries p l n early s).store := by
  unfold sendEntries; try dsimp only
  repeat' first
    | with_reducible assumption | (intro _; try beta_reduce)
    | (with_reducible first | apply ite_evolves | apply foldl_evolves | apply emit_evolves | apply draw_evolves | apply (draw_evolves' (by with_reducible assumption)))
    | simp only [store_mk, store_eta] | split

theorem foldl_pair_evolves {α β : Type} (f : α × State → β → α × State) (l : List β) {r : α × State}
    (hf : ∀ r b, Evolves pm a r.2.store → Evolves pm a (f r b).2.store) (h : Evolves pm a r.2.store) :
    Evolves pm a (l.foldl f r).2.store := by
  induction l generalizing r with
  | nil => exact h
  | cons b t ih => exact ih (hf r b h)

theorem writeBack_evolves (h : Evolves pm a s.store) (l : CciList) (n : Nat) (reads : List Word) :
    Evolves pm a (writeBack l n reads s).store := by
  unfold writeBack
  refine foldl_pair_evolves _ _ (fun r b hr => ?_) h
  dsimp only
  split
  · exact emit_evolves hr _
  · exact hr

theorem settingsDone_evolves (h_ctxs : pm .ctxs = true) (h_sens : pm .sens = true) (h : Evolves pm a s.store)
    (n : Fin 16) (l : CciList) :
    Evolves pm a (settingsDone n l s).store := by
  unfold settingsDone; try dsimp only
  repeat' first
    | with_reducible assumption | (intro _; try beta_reduce)
    | (with_reducible first | apply ite_evolves | apply clrF_evolves | apply completeN_evolves | apply put_evolves | apply setSn_evolves)
    | simp only [store_mk, store_eta] | split

theorem settingsFailed_evolves (h_ctxs : pm .ctxs = true) (h : Evolves pm a s.store) (n : Fin 16) (l : CciList)
    (i : Nat) :
    Evolves pm a (settingsFailed n l i s).store := by
  unfold settingsFailed; try dsimp only
  repeat' first
    | with_reducible assumption
    | (with_reducible first | apply completeN_evolves | apply draw_evolves | apply lifeAdd_evolves | apply sensReport_evolves | apply setF_evolves)
    | (with_reducible first | apply (draw_evolves' (by with_reducible assumption))) | split

theorem listResult_evolves (h_ctxs : pm .ctxs = true) (h_sens : pm .sens = true) (h : Evolves pm a s.store)
    (n : Fin 16) (l : CciList) (fail : Option Nat) :
    Evolves pm a (listResult n l fail s).store := by
  unfold listResult
  repeat' first
    | with_reducible assumption
    | (with_reducible first | apply ite_evolves | apply completeN_evolves | apply settingsDone_evolves | apply settingsFailed_evolves)
    | simp only [store_mk, store_eta] | split

theorem cciListDone_evolves (h_cci : pm .cci = true) (h_ctxs : pm .ctxs = true) (h_sens : pm .sens = true)
    (h : Evolves pm a s.store) (p : Fin 4) (fail : Option (Nat × Bool)) (reads : List Word) :
    Evolves pm a (cciListDone p fail reads s).store := by
  unfold cciListDone; try dsimp only
  repeat' first
    | with_reducible assumption | (intro _; try beta_reduce)
    | (with_reducible first | apply ite_evolves | apply clrF_evolves | apply lifeAdd_evolves | apply listResult_evolves | apply raiseOnSet_evolves | apply sendEntries_evolves)
    | (with_reducible first | apply (sendEntries_evolves' (by with_reducible assumption)) | apply setCci_evolves | apply showSettings_evolves | apply writeBack_evolves)
    | simp only [store_mk, store_eta] | split

theorem execCciListDone_evolves (h_cci : pm .cci = true) (h_ctxs : pm .ctxs = true) (h_sens : pm .sens = true)
    (h : Evolves pm a s.store) (p : Fin 4) (fail : Option (Nat × Bool)) (reads : List Word) {sx : State}
    (he : execCciListDone p fail reads s = .next sx) :
    Evolves pm a sx.store := by
  unfold execCciListDone at he; rw [← Host.Outcome.next.inj he]
  repeat' first | with_reducible assumption | (with_reducible first | apply cciListDone_evolves)

theorem hostCheck_evolves (h_ctxs : pm .ctxs = true) (h : Evolves pm a s.store) (c : Fin 256) (write : Bool)
    (d : Desc) (k : State → State) (hk : ∀ u, Evolves pm a u.store → Evolves pm a (k u).store) :
    Evolves pm a (hostCheck c write d k s).store := by
  unfold hostCheck; try dsimp only
  repeat' first
    | with_reducible assumption | (intro _; try beta_reduce)
    | (with_reducible first | apply ite_evolves | apply complete_evolves | apply worldFault_evolves | apply hk)
    | simp only [store_mk, store_eta] | split

theorem opCamBuf_evolves (h_ctxs : pm .ctxs = true) (h_sens : pm .sens = true) (h : Evolves pm a s.store)
    (stats : Bool) (c : Fin 256) (d : Desc) :
    Evolves pm a (opCamBuf stats c d s).store := by
  unfold opCamBuf; try dsimp only
  repeat' first
    | with_reducible assumption | (intro _; try beta_reduce)
    | (with_reducible first | apply ite_evolves | apply blockCheck_evolves | apply complete_evolves | apply formatZero_evolves | apply hostCheck_evolves | apply setSn_evolves)
    | simp only [store_mk, store_eta] | split

theorem execCamFrameBuf_evolves (h_ctxs : pm .ctxs = true) (h_sens : pm .sens = true) (h : Evolves pm a s.store)
    (c : Fin 256) {sx : State} (he : execCamFrameBuf c s = .next sx) :
    Evolves pm a sx.store := by
  unfold execCamFrameBuf at he; rw [← Host.Outcome.next.inj he]
  repeat' first
    | with_reducible assumption | (intro _; try beta_reduce)
    | (with_reducible first | apply opCamBuf_evolves | apply withDesc_evolves)

theorem execCamStatsBuf_evolves (h_ctxs : pm .ctxs = true) (h_sens : pm .sens = true) (h : Evolves pm a s.store)
    (c : Fin 256) {sx : State} (he : execCamStatsBuf c s = .next sx) :
    Evolves pm a sx.store := by
  unfold execCamStatsBuf at he; rw [← Host.Outcome.next.inj he]
  repeat' first
    | with_reducible assumption | (intro _; try beta_reduce)
    | (with_reducible first | apply opCamBuf_evolves | apply withDesc_evolves)

theorem queueList_evolves (h_cci : pm .cci = true) (h : Evolves pm a s.store) (n : Fin 16) (l : CciList) :
    Evolves pm a (queueList n l s).store := by
  unfold queueList
  repeat' first
    | with_reducible assumption | (intro _; try beta_reduce)
    | (with_reducible first | apply ite_evolves | apply setCci_evolves)

theorem opCciList_evolves (h_cci : pm .cci = true) (h_ctxs : pm .ctxs = true) (h : Evolves pm a s.store)
    (settings : Bool) (c : Fin 256) (r : DmaIn) (d : Desc) :
    Evolves pm a (opCciList settings c r d s).store := by
  unfold opCciList; try dsimp only
  repeat' first
    | with_reducible assumption | (intro _; try beta_reduce)
    | (with_reducible first | apply ite_evolves | apply blockCheck_evolves | apply complete_evolves | apply formatZero_evolves | apply hostCheck_evolves | apply put_evolves)
    | (with_reducible first | apply queueList_evolves | apply showSettings_evolves | apply withPayload_evolves)
    | simp only [store_mk, store_eta] | split

theorem execCamSettings_evolves (h_cci : pm .cci = true) (h_ctxs : pm .ctxs = true) (h : Evolves pm a s.store)
    (c : Fin 256) (r : DmaIn) {sx : State} (he : execCamSettings c r s = .next sx) :
    Evolves pm a sx.store := by
  unfold execCamSettings at he; rw [← Host.Outcome.next.inj he]
  repeat' first
    | with_reducible assumption | (intro _; try beta_reduce)
    | (with_reducible first | apply opCciList_evolves | apply withDesc_evolves)

theorem execCciXfer_evolves (h_cci : pm .cci = true) (h_ctxs : pm .ctxs = true) (h : Evolves pm a s.store)
    (c : Fin 256) (r : DmaIn) {sx : State} (he : execCciXfer c r s = .next sx) :
    Evolves pm a sx.store := by
  unfold execCciXfer at he; rw [← Host.Outcome.next.inj he]
  repeat' first
    | with_reducible assumption | (intro _; try beta_reduce)
    | (with_reducible first | apply opCciList_evolves | apply withDesc_evolves)

theorem dropAll_evolves (h_ctxs : pm .ctxs = true) (h_sens : pm .sens = true) (h : Evolves pm a s.store) (x : Nat) :
    Evolves pm a (dropAll x s).store := by
  unfold dropAll
  repeat' first
    | with_reducible assumption | (intro _; try beta_reduce)
    | (with_reducible first | apply foldl_evolves | apply dropFrame_evolves)

theorem pipelineFault_evolves (h_ctxs : pm .ctxs = true) (h_sens : pm .sens = true) (h : Evolves pm a s.store)
    (x : Fin 2) :
    Evolves pm a (pipelineFault x s).store := by
  unfold pipelineFault; try dsimp only
  repeat' first
    | with_reducible assumption
    | (with_reducible first | apply ite_evolves | apply dropAll_evolves | apply lifeAdd_evolves | apply put_evolves | apply raise_evolves)

theorem execPipelineFault_evolves (h_ctxs : pm .ctxs = true) (h_sens : pm .sens = true) (h : Evolves pm a s.store)
    (x : Fin 2) {sx : State} (he : execPipelineFault x s = .next sx) :
    Evolves pm a sx.store := by
  unfold execPipelineFault at he; rw [← Host.Outcome.next.inj he]
  repeat' first | with_reducible assumption | (with_reducible first | apply pipelineFault_evolves)

theorem execPipelineClearFault_evolves (h : Evolves pm a s.store) (sec : Bool) (x : Fin 2) {sx : State}
    (he : execPipelineClearFault sec x s = .next sx) :
    Evolves pm a sx.store := by
  unfold execPipelineClearFault at he; rw [← Host.Outcome.next.inj he]
  repeat' first
    | with_reducible assumption | (intro _; try beta_reduce)
    | (with_reducible first | apply hostWrite_evolves | apply put_evolves)

theorem sensRefuse_evolves (h : Evolves pm a s.store) (n : Nat) : Evolves pm a (sensRefuse n s).store := by
  unfold sensRefuse
  repeat' first | with_reducible assumption | (with_reducible first | apply setF_evolves)

theorem sensArm_evolves (h_sens : pm .sens = true) (h : Evolves pm a s.store) (n : Fin 16) :
    Evolves pm a (sensArm n s).store := by
  unfold sensArm; try dsimp only
  repeat' first
    | with_reducible assumption | (intro _; try beta_reduce)
    | (with_reducible first | apply clrF_evolves | apply put_evolves | apply sensEnter_evolves | apply setSn_evolves | apply wrN_evolves)
    | simp only [store_mk, store_eta]

theorem sensStop_evolves (h_cci : pm .cci = true) (h_ctxs : pm .ctxs = true) (h_sens : pm .sens = true)
    (h : Evolves pm a s.store) (n : Fin 16) :
    Evolves pm a (sensStop n s).store := by
  unfold sensStop; try dsimp only
  repeat' first
    | with_reducible assumption | (intro _; try beta_reduce)
    | (with_reducible first | apply ite_evolves | apply foldl_evolves | apply cciStop_evolves | apply (cciStop_evolves' (by with_reducible assumption)) | apply clrF_evolves | apply completeN_evolves)
    | (with_reducible first | apply removeFrame_evolves | apply sensEnter_evolves | apply setCci_evolves | apply setSn_evolves | apply showSettings_evolves)
    | simp only [store_mk, store_eta] | split

theorem sensCfgWrite_evolves (h_cci : pm .cci = true) (h_ctxs : pm .ctxs = true) (h_sens : pm .sens = true)
    (h : Evolves pm a s.store) (sec : Bool) (n : Fin 16) (v : Word) :
    Evolves pm a (sensCfgWrite sec n v s).store := by
  unfold sensCfgWrite; try dsimp only
  repeat' first
    | with_reducible assumption | (intro _; try beta_reduce)
    | (with_reducible first | apply ite_evolves | apply cfgWrite_evolves | apply sensArm_evolves | apply sensRefuse_evolves | apply sensStop_evolves)
    | (with_reducible first | apply wrN_evolves)

theorem execSensorEnable_evolves (h_cci : pm .cci = true) (h_ctxs : pm .ctxs = true) (h_sens : pm .sens = true)
    (h : Evolves pm a s.store) (sec : Bool) (n : Fin 16) (v : Word) {sx : State}
    (he : execSensorEnable sec n v s = .next sx) :
    Evolves pm a sx.store := by
  unfold execSensorEnable at he; rw [← Host.Outcome.next.inj he]
  repeat' first | with_reducible assumption | (with_reducible first | apply sensCfgWrite_evolves)

theorem execSensorDisable_evolves (h_cci : pm .cci = true) (h_ctxs : pm .ctxs = true) (h_sens : pm .sens = true)
    (h : Evolves pm a s.store) (sec : Bool) (n : Fin 16) (v : Word) {sx : State}
    (he : execSensorDisable sec n v s = .next sx) :
    Evolves pm a sx.store := by
  unfold execSensorDisable at he; rw [← Host.Outcome.next.inj he]
  repeat' first | with_reducible assumption | (with_reducible first | apply sensCfgWrite_evolves)

theorem sensorConfigWrite_evolves (h_cci : pm .cci = true) (h_ctxs : pm .ctxs = true) (h_sens : pm .sens = true)
    (h : Evolves pm a s.store) (sec : Bool) (n : Fin 16) (o : Fin 12) (v : Word) :
    Evolves pm a (sensorConfigWrite sec n o v s).store := by
  unfold sensorConfigWrite
  repeat' first
    | with_reducible assumption | (intro _; try beta_reduce)
    | (with_reducible first | apply ite_evolves | apply cfgWrite_evolves | apply sensCfgWrite_evolves | apply sensRefuse_evolves | apply wrN_evolves)

theorem execSensorConfigWrite_evolves (h_cci : pm .cci = true) (h_ctxs : pm .ctxs = true) (h_sens : pm .sens = true)
    (h : Evolves pm a s.store) (sec : Bool) (n : Fin 16) (o : Fin 12) (v : Word) {sx : State}
    (he : execSensorConfigWrite sec n o v s = .next sx) :
    Evolves pm a sx.store := by
  unfold execSensorConfigWrite at he; rw [← Host.Outcome.next.inj he]
  repeat' first | with_reducible assumption | (with_reducible first | apply sensorConfigWrite_evolves)

theorem phyCfgWrite_evolves (h : Evolves pm a s.store) (sec : Bool) (p : Fin 4) (v : Word) :
    Evolves pm a (phyCfgWrite sec p v s).store := by
  unfold phyCfgWrite; try dsimp only
  repeat' first
    | with_reducible assumption | (intro _; try beta_reduce)
    | (with_reducible first | apply ite_evolves | apply cfgWrite_evolves | apply put_evolves | apply wrN_evolves)
    | dsimp only [id]

theorem cciCfgWrite_evolves (h : Evolves pm a s.store) (sec : Bool) (p : Fin 4) (v : Word) :
    Evolves pm a (cciCfgWrite sec p v s).store := by
  unfold cciCfgWrite
  repeat' first
    | with_reducible assumption | (intro _; try beta_reduce)
    | (with_reducible first | apply cfgWrite_evolves | apply wrN_evolves) | dsimp only [id]

theorem pipeCfgWrite_evolves (h : Evolves pm a s.store) (sec : Bool) (x : Fin 2) (v : Word) :
    Evolves pm a (pipeCfgWrite sec x v s).store := by
  unfold pipeCfgWrite
  repeat' first
    | with_reducible assumption | (intro _; try beta_reduce)
    | (with_reducible first | apply cfgWrite_evolves | apply wrN_evolves) | dsimp only [id]

theorem deskewSequence_evolves (h : Evolves pm a s.store) (p : Fin 4) (ok : Bool) :
    Evolves pm a (deskewSequence p ok s).store := by
  unfold deskewSequence
  repeat' first
    | with_reducible assumption
    | (with_reducible first | apply ite_evolves | apply raiseOnSet_evolves | apply setF_evolves)

theorem execDeskewSequence_evolves (h : Evolves pm a s.store) (p : Fin 4) (ok : Bool) {sx : State}
    (he : execDeskewSequence p ok s = .next sx) :
    Evolves pm a sx.store := by
  unfold execDeskewSequence at he; rw [← Host.Outcome.next.inj he]
  repeat' first | with_reducible assumption | (with_reducible first | apply deskewSequence_evolves)

theorem imgTick_evolves (h : Evolves pm a s.store) (dt : Nat) : Evolves pm a (imgTick dt s).store := by
  unfold imgTick
  repeat' first
    | with_reducible assumption | (intro _; try beta_reduce)
    | (with_reducible first | apply ite_evolves | apply forAll_evolves | apply lifeTime_evolves)

theorem pipeLoad_evolves (h : Evolves pm a s.store) : Evolves pm a (pipeLoad s).store := by
  unfold pipeLoad
  repeat' first
    | with_reducible assumption | (intro _; try beta_reduce)
    | (with_reducible first | apply forAll_evolves | apply wrN_evolves) | simp only [store_mk, store_eta]

end Machine
end Sys2Proof
end

