-- ==== Sys2Proof/Laws/EvolvesYard.lean ====
section
/-!
SUPPORT. Every operation of Yard.lean is an evolution (Laws/Evolves.lean).
-/
namespace Sys2Proof
namespace Machine

variable {pm : Part → Bool} {a : Store} {s : State}

theorem yardRefused_evolves (h : Evolves pm a s.store) (f : Fld) (target : Nat) :
    Evolves pm a (yardRefused f target s).store := by
  unfold yardRefused
  repeat' first
    | with_reducible assumption
    | (with_reducible first | apply put_evolves | apply raise_evolves | apply setF_evolves)

theorem showHead_evolves (h_srvs : pm .srvs = true) (h : Evolves pm a s.store) (g : Fin 48) :
    Evolves pm a (showHead g s).store := by
  unfold showHead; try dsimp only
  repeat' first
    | with_reducible assumption | (intro _; try beta_reduce)
    | (with_reducible first | apply ite_evolves | apply put_evolves | apply setSrv_evolves)
    | simp only [store_mk, store_eta]

theorem showHeads_evolves (h_srvs : pm .srvs = true) (h : Evolves pm a s.store) :
    Evolves pm a (showHeads s).store := by
  unfold showHeads
  repeat' first
    | with_reducible assumption | (intro _; try beta_reduce)
    | (with_reducible first | apply forAll_evolves | apply showHead_evolves | apply showWait_evolves)

theorem bayMapWrite_evolves (h_srvs : pm .srvs = true) (h : Evolves pm a s.store) (sec : Bool) (b : Fin 12)
    (v : Word) :
    Evolves pm a (bayMapWrite sec b v s).store := by
  unfold bayMapWrite
  repeat' first
    | with_reducible assumption | (intro _; try beta_reduce)
    | (with_reducible first | apply cfgWrite_evolves | apply showHeads_evolves | apply wrN_evolves | apply yardRefused_evolves)

theorem execBayMapWrite_evolves (h_srvs : pm .srvs = true) (h : Evolves pm a s.store) (sec : Bool) (b : Fin 12)
    (v : Word) {sx : State} (he : execBayMapWrite sec b v s = .next sx) :
    Evolves pm a sx.store := by
  unfold execBayMapWrite at he; rw [← Host.Outcome.next.inj he]
  repeat' first | with_reducible assumption | (with_reducible first | apply bayMapWrite_evolves)

theorem disableStable_evolves (h_srvs : pm .srvs = true) (h_stalls : pm .stalls = true) (h : Evolves pm a s.store)
    (st : Fin 6) :
    Evolves pm a (disableStable st s).store := by
  unfold disableStable
  repeat' first
    | with_reducible assumption | (intro _; try beta_reduce)
    | (with_reducible first | apply ite_evolves | apply foldl_evolves | apply openLoops_evolves | apply setStall_evolves)
    | simp only [store_mk, store_eta]

theorem stableEnableWrite_evolves (h_srvs : pm .srvs = true) (h_stalls : pm .stalls = true)
    (h : Evolves pm a s.store) (sec : Bool) (v : Word) :
    Evolves pm a (stableEnableWrite sec v s).store := by
  unfold stableEnableWrite; try dsimp only
  repeat' first
    | with_reducible assumption | (intro _; try beta_reduce)
    | (with_reducible first | apply ite_evolves | apply forAll_evolves | apply foldl_evolves | apply disableStable_evolves | apply hostWrite_evolves | apply put_evolves)
    | (with_reducible first | apply showWait_evolves | apply ungate_evolves | apply yardRefused_evolves)
    | simp only [store_mk, store_eta] | split

theorem execStableEnableWrite_evolves (h_srvs : pm .srvs = true) (h_stalls : pm .stalls = true)
    (h : Evolves pm a s.store) (sec : Bool) (v : Word) {sx : State} (he : execStableEnableWrite sec v s = .next sx)
    :
    Evolves pm a sx.store := by
  unfold execStableEnableWrite at he; rw [← Host.Outcome.next.inj he]
  repeat' first | with_reducible assumption | (with_reducible first | apply stableEnableWrite_evolves)

theorem execLayerSetWrite_evolves (h : Evolves pm a s.store) (sec : Bool) (w : Wr64) {sx : State}
    (he : execLayerSetWrite sec w s = .next sx) :
    Evolves pm a sx.store := by
  unfold execLayerSetWrite at he; rw [← Host.Outcome.next.inj he]
  repeat' first
    | with_reducible assumption | (intro _; try beta_reduce)
    | (with_reducible first | apply hostWrite_evolves | apply withWide_evolves | apply wr64_evolves)

theorem layerTimerStop_evolves (h : Evolves pm a s.store) : Evolves pm a (layerTimerStop s).store := by
  unfold layerTimerStop; try dsimp only
  repeat' first
    | with_reducible assumption | (intro _; try beta_reduce)
    | (with_reducible first | apply clrF_evolves | apply put_evolves) | simp only [store_mk, store_eta]

theorem barrierMarks_evolves (hp : pm .txns = true) (h : Evolves pm a s.store) :
    Evolves pm a (barrierMarks s).store := Evolves.txns hp _ h

theorem layerBarrierReached_evolves (h_seams : pm .seams = true) (h_txns : pm .txns = true)
    (h : Evolves pm a s.store) :
    Evolves pm a (layerBarrierReached s).store := by
  unfold layerBarrierReached; try dsimp only
  repeat' first
    | with_reducible assumption
    | (with_reducible first | apply ite_evolves | apply barrierMarks_evolves | apply flushSeams_evolves | apply layerTimerStop_evolves | apply lifeAdd_evolves)
    | (with_reducible first | apply put_evolves | apply raise_evolves | apply setF_evolves)
    | simp only [store_mk, store_eta]

theorem execLayerBarrierReached_evolves (h_seams : pm .seams = true) (h_txns : pm .txns = true)
    (h : Evolves pm a s.store) {sx : State} (he : execLayerBarrierReached s = .next sx) :
    Evolves pm a sx.store := by
  unfold execLayerBarrierReached at he; rw [← Host.Outcome.next.inj he]
  repeat' first | with_reducible assumption | (with_reducible first | apply layerBarrierReached_evolves)

theorem layerReleased_evolves (h : Evolves pm a s.store) (gs : List Nat) :
    Evolves pm a (layerReleased gs s).store := by
  unfold layerReleased
  repeat' first
    | with_reducible assumption | (intro _; try beta_reduce)
    | (with_reducible first | apply ite_evolves | apply clrF_evolves | apply raise_evolves)

end Machine
end Sys2Proof
end

