-- ==== Sys2Proof/Laws/EvolvesLink.lean ====
section
/-!
SUPPORT. Every operation of Link.lean is an evolution (Laws/Evolves.lean).
-/
namespace Sys2Proof
namespace Machine

variable {pm : Part → Bool} {a : Store} {s : State}

theorem setBay_evolves (hp : pm .bays = true) (h : Evolves pm a s.store) (g : Fin 12) (f : Bay → Bay) :
    Evolves pm a (setBay g f s).store := Evolves.bays hp _ h

theorem bayEvent_evolves (h : Evolves pm a s.store) (b : Nat) (k : Nat) : Evolves pm a (bayEvent b k s).store := by
  unfold bayEvent
  repeat' first | with_reducible assumption | (with_reducible first | apply raise_evolves)

theorem bayFlag_evolves (h : Evolves pm a s.store) (f : Nat → Fld) (k : Nat) (b : Nat) :
    Evolves pm a (bayFlag f k b s).store := by
  unfold bayFlag
  repeat' first | with_reducible assumption | (with_reducible first | apply raiseOnSet_evolves)

theorem sendMgmt_evolves (h_bays : pm .bays = true) (h : Evolves pm a s.store) (b : Fin 12) (words : List Nat) :
    Evolves pm a (sendMgmt b words s).store := by
  unfold sendMgmt; try dsimp only
  repeat' first
    | with_reducible assumption | (intro _; try beta_reduce)
    | (with_reducible first | apply ite_evolves | apply sendFrame_evolves | apply setBay_evolves)
    | simp only [store_mk, store_eta] | split

theorem takeTag_evolves (h_bays : pm .bays = true) (h : Evolves pm a s.store) (b : Fin 12) :
    Evolves pm a (takeTag b s).2.store := by
  unfold takeTag
  repeat' first
    | with_reducible assumption | (intro _; try beta_reduce) | (with_reducible first | apply setBay_evolves)
    | simp only [store_mk, store_eta] | split

theorem takeTag_evolves' {pm : Part → Bool} {a : Store} {sv : State} {xo : Nat} {s : State} {h_bays : pm .bays = true}  {b : Fin 12} (e : takeTag b s = (xo, sv)) (h : Evolves pm a s.store) : Evolves pm a sv.store := by
  have := takeTag_evolves h_bays h b
  rw [e] at this; exact this

theorem sendMsg_evolves (h_bays : pm .bays = true) (h : Evolves pm a s.store) (b : Fin 12) (slots : Nat) (mop : Nat)
    (payload : List Nat) :
    Evolves pm a (sendMsg b slots mop payload s).store := by
  unfold sendMsg; try dsimp only
  repeat' first
    | with_reducible assumption
    | (with_reducible first | apply sendMgmt_evolves | apply takeTag_evolves | apply (takeTag_evolves' (by with_reducible assumption)))
    | split

theorem sendConfirm_evolves (h_bays : pm .bays = true) (h : Evolves pm a s.store) (b : Fin 12) (version : Nat) :
    Evolves pm a (sendConfirm b version s).store := by
  unfold sendConfirm
  repeat' first | with_reducible assumption | (with_reducible first | apply sendMsg_evolves)

theorem sendOffer_evolves (h_bays : pm .bays = true) (h : Evolves pm a s.store) (b : Fin 12) :
    Evolves pm a (sendOffer b s).store := by
  unfold sendOffer; try dsimp only
  repeat' first | with_reducible assumption | (with_reducible first | apply sendMsg_evolves)

theorem showStage_evolves (h : Evolves pm a s.store) (b : Fin 12) (st : Nat) :
    Evolves pm a (showStage b st s).store := by
  unfold showStage; try dsimp only
  repeat' first
    | with_reducible assumption | (intro _; try beta_reduce)
    | (with_reducible first | apply ite_evolves | apply emit_evolves | apply put_evolves | apply ungate_evolves)
    | simp only [store_mk, store_eta] | split

theorem sendProbes_evolves (h_bays : pm .bays = true) (h : Evolves pm a s.store) (b : Fin 12) :
    Evolves pm a (sendProbes b s).store := by
  unfold sendProbes; try dsimp only
  repeat' first
    | with_reducible assumption | (intro _; try beta_reduce)
    | (with_reducible first | apply sendControl_evolves | apply setBay_evolves)
    | simp only [store_mk, store_eta] | split

theorem latchTrain_evolves (h_bays : pm .bays = true) (h : Evolves pm a s.store) (b : Fin 12) :
    Evolves pm a (latchTrain b s).store := by
  unfold latchTrain; try dsimp only
  repeat' first
    | with_reducible assumption | (intro _; try beta_reduce)
    | (with_reducible first | apply setBay_evolves)
    | simp only [store_mk, store_eta] | split

theorem enterStage_evolves (h_bays : pm .bays = true) (h : Evolves pm a s.store) (b : Fin 12) (st : Nat) :
    Evolves pm a (enterStage b st s).store := by
  unfold enterStage; try dsimp only
  repeat' first
    | with_reducible assumption | (intro _; try beta_reduce)
    | (with_reducible first | apply ite_evolves | apply clrF_evolves | apply latchTrain_evolves | apply put_evolves | apply sendProbes_evolves | apply setBay_evolves)
    | (with_reducible first | apply showStage_evolves)
    | simp only [store_mk, store_eta] | split

theorem linkHalt_evolves (h_bays : pm .bays = true) (h : Evolves pm a s.store) (b : Fin 12) (d : Nat) :
    Evolves pm a (linkHalt b d s).store := by
  unfold linkHalt; try dsimp only
  repeat' first
    | with_reducible assumption
    | (with_reducible first | apply bayEvent_evolves | apply bayFlag_evolves | apply enterStage_evolves | apply lifeAdd_evolves | apply put_evolves)

theorem countRetry_evolves (h : Evolves pm a s.store) (b : Fin 12) : Evolves pm a (countRetry b s).store := by
  unfold countRetry
  repeat' first | with_reducible assumption | (with_reducible first | apply addSatF_evolves)

theorem linkFail_evolves (h_bays : pm .bays = true) (h : Evolves pm a s.store) (b : Fin 12) (d : Nat) (stage : Nat) :
    Evolves pm a (linkFail b d stage s).store := by
  unfold linkFail; try dsimp only
  repeat' first
    | with_reducible assumption
    | (with_reducible first | apply ite_evolves | apply countRetry_evolves | apply enterStage_evolves | apply linkHalt_evolves | apply put_evolves)

theorem stallLinkLost_evolves (h_srvs : pm .srvs = true) (h_stalls : pm .stalls = true) (h : Evolves pm a s.store)
    (g : Fin 48) :
    Evolves pm a (stallLinkLost s g).store := by
  unfold stallLinkLost; try dsimp only
  repeat' first
    | with_reducible assumption | (intro _; try beta_reduce)
    | (with_reducible first | apply ite_evolves | apply faultNext_evolves | apply servoFault_evolves | apply setStall_evolves)
    | simp only [store_mk, store_eta]

theorem leaveActive_evolves (h_bays : pm .bays = true) (h_srvs : pm .srvs = true) (h_stalls : pm .stalls = true)
    (h : Evolves pm a s.store) (b : Fin 12) (d : Nat) :
    Evolves pm a (leaveActive b d s).store := by
  unfold leaveActive; try dsimp only
  repeat' first
    | with_reducible assumption | (intro _; try beta_reduce)
    | (with_reducible first | apply ite_evolves | apply foldl_evolves | apply addW_evolves | apply lifeAdd_evolves | apply put_evolves)
    | (with_reducible first | apply setBay_evolves | apply stallLinkLost_evolves) | simp only [store_mk, store_eta]

theorem exitActive_evolves (h_bays : pm .bays = true) (h_srvs : pm .srvs = true) (h_stalls : pm .stalls = true)
    (h : Evolves pm a s.store) (b : Fin 12) (d : Nat) (stage : Nat) :
    Evolves pm a (exitActive b d stage s).store := by
  unfold exitActive; try dsimp only
  repeat' first
    | with_reducible assumption
    | (with_reducible first | apply ite_evolves | apply enterStage_evolves | apply leaveActive_evolves | apply linkFail_evolves | apply showHeads_evolves)

theorem haltNow_evolves (h_bays : pm .bays = true) (h_srvs : pm .srvs = true) (h_stalls : pm .stalls = true)
    (h : Evolves pm a s.store) (b : Fin 12) (d : Nat) :
    Evolves pm a (haltNow b d s).store := by
  unfold haltNow
  repeat' first
    | with_reducible assumption
    | (with_reducible first | apply ite_evolves | apply countRetry_evolves | apply leaveActive_evolves | apply linkHalt_evolves | apply showHeads_evolves)

theorem hostStage_evolves (h_bays : pm .bays = true) (h_srvs : pm .srvs = true) (h_stalls : pm .stalls = true)
    (h : Evolves pm a s.store) (b : Fin 12) (stage : Nat) :
    Evolves pm a (hostStage b stage s).store := by
  unfold hostStage
  repeat' first
    | with_reducible assumption
    | (with_reducible first | apply ite_evolves | apply enterStage_evolves | apply exitActive_evolves)

theorem toCapability_evolves (h_bays : pm .bays = true) (h : Evolves pm a s.store) (b : Fin 12) :
    Evolves pm a (toCapability b s).store := by
  unfold toCapability; try dsimp only
  repeat' first
    | with_reducible assumption | (intro _; try beta_reduce)
    | (with_reducible first | apply sendOffer_evolves | apply setBay_evolves | apply showStage_evolves)
    | simp only [store_mk, store_eta] | split

theorem receiverDetect_evolves (h_bays : pm .bays = true) (h : Evolves pm a s.store) (b : Fin 12) (term : Bool)
    (clk : Bool) :
    Evolves pm a (receiverDetect b term clk s).store := by
  unfold receiverDetect; try dsimp only
  repeat' first
    | with_reducible assumption
    | (with_reducible first | apply ite_evolves | apply enterStage_evolves | apply put_evolves)

theorem execReceiverDetect_evolves (h_bays : pm .bays = true) (h : Evolves pm a s.store) (b : Fin 12) (term : Bool)
    (clk : Bool) {sx : State} (he : execReceiverDetect b term clk s = .next sx) :
    Evolves pm a sx.store := by
  unfold execReceiverDetect at he; rw [← Host.Outcome.next.inj he]
  repeat' first | with_reducible assumption | (with_reducible first | apply receiverDetect_evolves)

theorem showDfe_evolves (h : Evolves pm a s.store) (b : Fin 12) (dfe : List Nat) :
    Evolves pm a (showDfe b dfe s).store := by
  unfold showDfe; try dsimp only
  repeat' first
    | with_reducible assumption | (intro _; try beta_reduce)
    | (with_reducible first | apply foldl_evolves | apply put_evolves)
    | simp only [store_mk, store_eta] | split

theorem eyeSearchDone_evolves (h_bays : pm .bays = true) (h : Evolves pm a s.store) (b : Fin 12) (width : Nat)
    (centre : Nat) (dfe : List Nat) :
    Evolves pm a (eyeSearchDone b width centre dfe s).store := by
  unfold eyeSearchDone; try dsimp only
  repeat' first
    | with_reducible assumption | (intro _; try beta_reduce)
    | (with_reducible first | apply ite_evolves | apply put_evolves | apply setBay_evolves | apply setF_evolves | apply showDfe_evolves | apply showStage_evolves)
    | simp only [store_mk, store_eta] | split

theorem execEyeSearchDone_evolves (h_bays : pm .bays = true) (h : Evolves pm a s.store) (b : Fin 12) (width :
    Nat) (centre : Nat) (dfe : List Nat) {sx : State} (he : execEyeSearchDone b width centre dfe s = .next sx) :
    Evolves pm a sx.store := by
  unfold execEyeSearchDone at he; rw [← Host.Outcome.next.inj he]
  repeat' first
    | with_reducible assumption | (intro _; try beta_reduce)
    | (with_reducible first | apply eyeSearchDone_evolves)
    | simp only [store_mk, store_eta] | split

theorem moveSlip_evolves (h : Evolves pm a s.store) (b : Fin 12) (n : Nat) :
    Evolves pm a (moveSlip b n s).store := by
  unfold moveSlip
  repeat' first | with_reducible assumption | (with_reducible first | apply put_evolves)

theorem slipOnce_evolves (h_bays : pm .bays = true) (h : Evolves pm a s.store) (b : Fin 12) :
    Evolves pm a (slipOnce b s).store := by
  unfold slipOnce; try dsimp only
  repeat' first
    | with_reducible assumption | (intro _; try beta_reduce)
    | (with_reducible first | apply ite_evolves | apply linkFail_evolves | apply moveSlip_evolves | apply setBay_evolves)
    | simp only [store_mk, store_eta] | split

theorem badWindows_evolves {pm : Part → Bool} {a : Store} {s : State} (h_bays : pm .bays = true) (h : Evolves pm a s.store) (b : Fin 12) (y0 : Nat) :
    Evolves pm a (badWindows b y0 s).store := by
  induction y0 generalizing s with
  | zero => unfold badWindows; assumption
  | succ n ih =>
    unfold badWindows; try dsimp only
    repeat' first
      | with_reducible assumption | (intro _; try beta_reduce)
      | (with_reducible first | apply ite_evolves | apply slipOnce_evolves)
      | (with_reducible apply ih) | simp only [store_mk, store_eta] | split

theorem settleDelay_evolves (h_bays : pm .bays = true) (h : Evolves pm a s.store) (b : Fin 12) :
    Evolves pm a (settleDelay b s).store := by
  unfold settleDelay
  repeat' first | with_reducible assumption | (with_reducible first | apply ite_evolves | apply toCapability_evolves)

theorem wordLock_evolves (h_bays : pm .bays = true) (h : Evolves pm a s.store) (b : Fin 12) (slips : Nat)
    (partner : Bool) :
    Evolves pm a (wordLock b slips partner s).store := by
  unfold wordLock; try dsimp only
  repeat' first
    | with_reducible assumption | (intro _; try beta_reduce)
    | (with_reducible first | apply ite_evolves | apply badWindows_evolves | apply sendProbes_evolves | apply setF_evolves | apply settleDelay_evolves | apply showStage_evolves)
    | simp only [store_mk, store_eta] | split

theorem execWordLock_evolves (h_bays : pm .bays = true) (h : Evolves pm a s.store) (b : Fin 12) (slips : Nat)
    (partner : Bool) {sx : State} (he : execWordLock b slips partner s = .next sx) :
    Evolves pm a sx.store := by
  unfold execWordLock at he; rw [← Host.Outcome.next.inj he]
  repeat' first | with_reducible assumption | (with_reducible first | apply wordLock_evolves)

theorem probeDelay_evolves (h : Evolves pm a s.store) (l : List Nat) : Evolves pm a (probeDelay l s).2.store := by
  unfold probeDelay; try dsimp only
  repeat' first
    | with_reducible assumption
    | (with_reducible first | apply ite_evolves | apply draw_evolves | apply (draw_evolves' (by with_reducible assumption)))
    | split

theorem probeDelay_evolves' {pm : Part → Bool} {a : Store} {sv : State} {xo : Nat} {s : State}  {l : List Nat} (e : probeDelay l s = (xo, sv)) (h : Evolves pm a s.store) : Evolves pm a sv.store := by
  have := probeDelay_evolves  h l
  rw [e] at this; exact this

theorem probeEcho_evolves (h_bays : pm .bays = true) (h_srvs : pm .srvs = true) (h_stalls : pm .stalls = true)
    (h : Evolves pm a s.store) (b : Fin 12) (trip : Nat) (turn : Nat) :
    Evolves pm a (probeEcho b trip turn s).store := by
  unfold probeEcho; try dsimp only
  repeat' first
    | with_reducible assumption | (intro _; try beta_reduce)
    | (with_reducible first | apply ite_evolves | apply haltNow_evolves | apply probeDelay_evolves | apply put_evolves | apply setBay_evolves)
    | (with_reducible first | apply settleDelay_evolves | apply (probeDelay_evolves' (by with_reducible assumption)))
    | simp only [store_mk, store_eta] | split

theorem execProbeEcho_evolves (h_bays : pm .bays = true) (h_srvs : pm .srvs = true) (h_stalls : pm .stalls = true)
    (h : Evolves pm a s.store) (b : Fin 12) (trip : Nat) (turn : Nat) {sx : State}
    (he : execProbeEcho b trip turn s = .next sx) :
    Evolves pm a sx.store := by
  unfold execProbeEcho at he; rw [← Host.Outcome.next.inj he]
  repeat' first | with_reducible assumption | (with_reducible first | apply probeEcho_evolves)

theorem probeTimeout_evolves (h_bays : pm .bays = true) (h : Evolves pm a s.store) (b : Fin 12) :
    Evolves pm a (probeTimeout b s).store := by
  unfold probeTimeout; try dsimp only
  repeat' first
    | with_reducible assumption | (intro _; try beta_reduce)
    | (with_reducible first | apply ite_evolves | apply sendProbes_evolves)
    | simp only [store_mk, store_eta] | split

theorem execProbeTimeout_evolves (h_bays : pm .bays = true) (h : Evolves pm a s.store) (b : Fin 12) {sx : State}
    (he : execProbeTimeout b s = .next sx) :
    Evolves pm a sx.store := by
  unfold execProbeTimeout at he; rw [← Host.Outcome.next.inj he]
  repeat' first | with_reducible assumption | (with_reducible first | apply probeTimeout_evolves)

theorem capReply_evolves (h_bays : pm .bays = true) (h_srvs : pm .srvs = true) (h_stalls : pm .stalls = true)
    (h : Evolves pm a s.store) (b : Fin 12) (vmin : Nat) (vmax : Nat) (vendor : Nat) (model : Nat) (fw : Nat)
    (slots : Word) :
    Evolves pm a (capReply b vmin vmax vendor model fw slots s).store := by
  unfold capReply; try dsimp only
  repeat' first
    | with_reducible assumption | (intro _; try beta_reduce)
    | (with_reducible first | apply ite_evolves | apply haltNow_evolves | apply sendConfirm_evolves | apply setBay_evolves)
    | simp only [store_mk, store_eta]

theorem execCapReply_evolves (h_bays : pm .bays = true) (h_srvs : pm .srvs = true) (h_stalls : pm .stalls = true)
    (h : Evolves pm a s.store) (b : Fin 12) (vmin : Nat) (vmax : Nat) (vendor : Nat) (model : Nat) (fw : Nat)
    (slots : Word) {sx : State} (he : execCapReply b vmin vmax vendor model fw slots s = .next sx) :
    Evolves pm a sx.store := by
  unfold execCapReply at he; rw [← Host.Outcome.next.inj he]
  repeat' first | with_reducible assumption | (with_reducible first | apply capReply_evolves)

theorem capAck_evolves (h_bays : pm .bays = true) (h : Evolves pm a s.store) (b : Fin 12) (version : Nat) :
    Evolves pm a (capAck b version s).store := by
  unfold capAck
  repeat' first
    | with_reducible assumption | (intro _; try beta_reduce)
    | (with_reducible first | apply ite_evolves | apply setBay_evolves) | simp only [store_mk, store_eta]

theorem execCapAck_evolves (h_bays : pm .bays = true) (h : Evolves pm a s.store) (b : Fin 12) (version : Nat)
    {sx : State} (he : execCapAck b version s = .next sx) :
    Evolves pm a sx.store := by
  unfold execCapAck at he; rw [← Host.Outcome.next.inj he]
  repeat' first | with_reducible assumption | (with_reducible first | apply capAck_evolves)

theorem linkUp_evolves (h_bays : pm .bays = true) (h_srvs : pm .srvs = true) (h : Evolves pm a s.store) (b : Fin 12) :
    Evolves pm a (linkUp b s).store := by
  unfold linkUp; try dsimp only
  repeat' first
    | with_reducible assumption | (intro _; try beta_reduce)
    | (with_reducible first | apply ite_evolves | apply bayEvent_evolves | apply clrF_evolves | apply enterStage_evolves | apply put_evolves)
    | (with_reducible first | apply setBay_evolves | apply showHeads_evolves | apply wr64_evolves | apply wrN_evolves)
    | simp only [store_mk, store_eta] | split | dsimp only [id]

theorem superframeBay_evolves (h_bays : pm .bays = true) (h_srvs : pm .srvs = true) (h : Evolves pm a s.store)
    (b : Fin 12) :
    Evolves pm a (superframeBay b s).store := by
  unfold superframeBay; try dsimp only
  repeat' first
    | with_reducible assumption | (intro _; try beta_reduce)
    | (with_reducible first | apply ite_evolves | apply coilFrame_evolves | apply linkUp_evolves | apply sendControl_evolves)
    | simp only [store_mk, store_eta] | split

theorem superframe_evolves (h_bays : pm .bays = true) (h_srvs : pm .srvs = true) (h : Evolves pm a s.store) :
    Evolves pm a (superframe s).store := by
  unfold superframe
  repeat' first
    | with_reducible assumption | (intro _; try beta_reduce)
    | (with_reducible first | apply ite_evolves | apply forAll_evolves | apply superframeBay_evolves)
    | simp only [store_mk, store_eta]

theorem execSuperframe_evolves (h_bays : pm .bays = true) (h_srvs : pm .srvs = true) (h : Evolves pm a s.store)
    {sx : State} (he : execSuperframe s = .next sx) :
    Evolves pm a sx.store := by
  unfold execSuperframe at he; rw [← Host.Outcome.next.inj he]
  repeat' first | with_reducible assumption | (with_reducible first | apply superframe_evolves)

theorem upstreamSuperframe_evolves (h_bays : pm .bays = true) (h : Evolves pm a s.store) (b : Fin 12) (skew : Int) :
    Evolves pm a (upstreamSuperframe b skew s).store := by
  unfold upstreamSuperframe; try dsimp only
  repeat' first
    | with_reducible assumption | (intro _; try beta_reduce)
    | (with_reducible first | apply ite_evolves | apply bayFlag_evolves | apply lifeMax_evolves | apply put_evolves | apply setBay_evolves)
    | simp only [store_mk, store_eta]

theorem execUpstreamSuperframe_evolves (h_bays : pm .bays = true) (h : Evolves pm a s.store) (b : Fin 12)
    (skew : Int) {sx : State} (he : execUpstreamSuperframe b skew s = .next sx) :
    Evolves pm a sx.store := by
  unfold execUpstreamSuperframe at he; rw [← Host.Outcome.next.inj he]
  repeat' first | with_reducible assumption | (with_reducible first | apply upstreamSuperframe_evolves)

theorem bringupTimeout_evolves (h_bays : pm .bays = true) (h : Evolves pm a s.store) (b : Fin 12) (search : Bool) :
    Evolves pm a (bringupTimeout b search s).store := by
  unfold bringupTimeout; try dsimp only
  repeat' first
    | with_reducible assumption | (intro _; try beta_reduce)
    | (with_reducible first | apply ite_evolves | apply badWindows_evolves | apply linkFail_evolves)
    | simp only [store_mk, store_eta] | split

theorem execBringupTimeout_evolves (h_bays : pm .bays = true) (h : Evolves pm a s.store) (b : Fin 12)
    (search : Bool) {sx : State} (he : execBringupTimeout b search s = .next sx) :
    Evolves pm a sx.store := by
  unfold execBringupTimeout at he; rw [← Host.Outcome.next.inj he]
  repeat' first | with_reducible assumption | (with_reducible first | apply bringupTimeout_evolves)

theorem linkClockLoss_evolves (h_bays : pm .bays = true) (h_srvs : pm .srvs = true) (h_stalls : pm .stalls = true)
    (h : Evolves pm a s.store) (b : Fin 12) :
    Evolves pm a (linkClockLoss b s).store := by
  unfold linkClockLoss
  repeat' first | with_reducible assumption | (with_reducible first | apply clrF_evolves | apply exitActive_evolves)

theorem execLinkClockLoss_evolves (h_bays : pm .bays = true) (h_srvs : pm .srvs = true)
    (h_stalls : pm .stalls = true) (h : Evolves pm a s.store) (b : Fin 12) {sx : State}
    (he : execLinkClockLoss b s = .next sx) :
    Evolves pm a sx.store := by
  unfold execLinkClockLoss at he; rw [← Host.Outcome.next.inj he]
  repeat' first | with_reducible assumption | (with_reducible first | apply linkClockLoss_evolves)

theorem wordLockLoss_evolves (h_bays : pm .bays = true) (h_srvs : pm .srvs = true) (h_stalls : pm .stalls = true)
    (h : Evolves pm a s.store) (b : Fin 12) (ws : List (Nat × Nat)) :
    Evolves pm a (wordLockLoss b ws s).store := by
  unfold wordLockLoss; try dsimp only
  repeat' first
    | with_reducible assumption | (intro _; try beta_reduce)
    | (with_reducible first | apply ite_evolves | apply addW_evolves | apply badWindows_evolves | apply bayFlag_evolves | apply exitActive_evolves | apply lifeAdd_evolves)
    | simp only [store_mk, store_eta] | split

theorem execWordLockLoss_evolves (h_bays : pm .bays = true) (h_srvs : pm .srvs = true)
    (h_stalls : pm .stalls = true) (h : Evolves pm a s.store) (b : Fin 12) (ws : List (Nat × Nat)) {sx : State}
    (he : execWordLockLoss b ws s = .next sx) :
    Evolves pm a sx.store := by
  unfold execWordLockLoss at he; rw [← Host.Outcome.next.inj he]
  repeat' first
    | with_reducible assumption | (intro _; try beta_reduce)
    | (with_reducible first | apply wordLockLoss_evolves)
    | simp only [store_mk, store_eta] | split

theorem errorRate_evolves (h_bays : pm .bays = true) (h_srvs : pm .srvs = true) (h_stalls : pm .stalls = true)
    (h : Evolves pm a s.store) (b : Fin 12) (n : Nat) :
    Evolves pm a (errorRate b n s).store := by
  unfold errorRate; try dsimp only
  repeat' first
    | with_reducible assumption | (intro _; try beta_reduce)
    | (with_reducible first | apply ite_evolves | apply addW_evolves | apply bayFlag_evolves | apply exitActive_evolves | apply lifeAdd_evolves)
    | (with_reducible first | apply setBay_evolves) | simp only [store_mk, store_eta]

theorem execErrorRate_evolves (h_bays : pm .bays = true) (h_srvs : pm .srvs = true) (h_stalls : pm .stalls = true)
    (h : Evolves pm a s.store) (b : Fin 12) (n : Nat) {sx : State} (he : execErrorRate b n s = .next sx) :
    Evolves pm a sx.store := by
  unfold execErrorRate at he; rw [← Host.Outcome.next.inj he]
  repeat' first | with_reducible assumption | (with_reducible first | apply errorRate_evolves)

theorem markerLoss_evolves (h_bays : pm .bays = true) (h_srvs : pm .srvs = true) (h_stalls : pm .stalls = true)
    (h : Evolves pm a s.store) (b : Fin 12) :
    Evolves pm a (markerLoss b s).store := by
  unfold markerLoss; try dsimp only
  repeat' first
    | with_reducible assumption | (intro _; try beta_reduce)
    | (with_reducible first | apply ite_evolves | apply exitActive_evolves | apply setBay_evolves)
    | simp only [store_mk, store_eta]

theorem execMarkerLoss_evolves (h_bays : pm .bays = true) (h_srvs : pm .srvs = true) (h_stalls : pm .stalls = true)
    (h : Evolves pm a s.store) (b : Fin 12) {sx : State} (he : execMarkerLoss b s = .next sx) :
    Evolves pm a sx.store := by
  unfold execMarkerLoss at he; rw [← Host.Outcome.next.inj he]
  repeat' first | with_reducible assumption | (with_reducible first | apply markerLoss_evolves)

theorem skewExceeded_evolves (h_bays : pm .bays = true) (h_srvs : pm .srvs = true) (h_stalls : pm .stalls = true)
    (h : Evolves pm a s.store) (b : Fin 12) :
    Evolves pm a (skewExceeded b s).store := by
  unfold skewExceeded
  repeat' first | with_reducible assumption | (with_reducible first | apply ite_evolves | apply exitActive_evolves)

theorem execSkewExceeded_evolves (h_bays : pm .bays = true) (h_srvs : pm .srvs = true)
    (h_stalls : pm .stalls = true) (h : Evolves pm a s.store) (b : Fin 12) {sx : State}
    (he : execSkewExceeded b s = .next sx) :
    Evolves pm a sx.store := by
  unfold execSkewExceeded at he; rw [← Host.Outcome.next.inj he]
  repeat' first | with_reducible assumption | (with_reducible first | apply skewExceeded_evolves)

theorem downSleep_evolves (h : Evolves pm a s.store) (b : Fin 12) :
    Evolves pm a (downSleep b s).store := by
  unfold downSleep; try dsimp only
  repeat' first
    | with_reducible assumption | (intro _; try beta_reduce)
    | (with_reducible first | apply ite_evolves | apply put_evolves | apply sendControl_evolves)
    | simp only [store_mk, store_eta] | split

theorem execDownSleep_evolves (h : Evolves pm a s.store) (b : Fin 12) {sx : State}
    (he : execDownSleep b s = .next sx) :
    Evolves pm a sx.store := by
  unfold execDownSleep at he; rw [← Host.Outcome.next.inj he]
  repeat' first | with_reducible assumption | (with_reducible first | apply downSleep_evolves)

theorem wakeBurst_evolves (h : Evolves pm a s.store) (b : Fin 12) :
    Evolves pm a (wakeBurst b s).store := by
  unfold wakeBurst; try dsimp only
  repeat' first
    | with_reducible assumption | (intro _; try beta_reduce)
    | (with_reducible first | apply draw_evolves | apply (draw_evolves' (by with_reducible assumption)) | apply sendControl_evolves)
    | simp only [store_mk, store_eta] | split

theorem downWake_evolves (h : Evolves pm a s.store) (b : Fin 12) :
    Evolves pm a (downWake b s).store := by
  unfold downWake; try dsimp only
  repeat' first
    | with_reducible assumption | (intro _; try beta_reduce)
    | (with_reducible first | apply ite_evolves | apply put_evolves | apply wakeBurst_evolves | apply (wakeBurst_evolves' (by with_reducible assumption)))
    | simp only [store_mk, store_eta] | split

theorem execDownWake_evolves (h : Evolves pm a s.store) (b : Fin 12) {sx : State} (he : execDownWake b s = .next sx) :
    Evolves pm a sx.store := by
  unfold execDownWake at he; rw [← Host.Outcome.next.inj he]
  repeat' first | with_reducible assumption | (with_reducible first | apply downWake_evolves)

theorem sleepUp_evolves (h_bays : pm .bays = true) (h : Evolves pm a s.store) (b : Fin 12) :
    Evolves pm a (sleepUp b s).store := by
  unfold sleepUp
  repeat' first
    | with_reducible assumption
    | (with_reducible first | apply ite_evolves | apply put_evolves | apply sendMsg_evolves)

theorem execSleepUp_evolves (h_bays : pm .bays = true) (h : Evolves pm a s.store) (b : Fin 12) {sx : State}
    (he : execSleepUp b s = .next sx) :
    Evolves pm a sx.store := by
  unfold execSleepUp at he; rw [← Host.Outcome.next.inj he]
  repeat' first | with_reducible assumption | (with_reducible first | apply sleepUp_evolves)

theorem upstreamWake_evolves (h : Evolves pm a s.store) (b : Fin 12) : Evolves pm a (upstreamWake b s).store := by
  unfold upstreamWake
  repeat' first | with_reducible assumption | (with_reducible first | apply ite_evolves | apply put_evolves)

theorem execUpstreamWake_evolves (h : Evolves pm a s.store) (b : Fin 12) {sx : State}
    (he : execUpstreamWake b s = .next sx) :
    Evolves pm a sx.store := by
  unfold execUpstreamWake at he; rw [← Host.Outcome.next.inj he]
  repeat' first | with_reducible assumption | (with_reducible first | apply upstreamWake_evolves)

theorem prbsCount_evolves (h : Evolves pm a s.store) (b : Fin 12) (n : Nat) (errs : Nat) :
    Evolves pm a (prbsCount b n errs s).store := by
  unfold prbsCount; try dsimp only
  repeat' first
    | with_reducible assumption
    | (with_reducible first | apply ite_evolves | apply add64_evolves | apply addSat_evolves | apply bayFlag_evolves)

theorem laneTracking_evolves (h : Evolves pm a s.store) (b : Fin 12) (centre : Nat) (dfe : List Nat)
    (prbs : Nat × Nat) :
    Evolves pm a (laneTracking b centre dfe prbs s).store := by
  unfold laneTracking; try dsimp only
  repeat' first
    | with_reducible assumption | (intro _; try beta_reduce)
    | (with_reducible first | apply ite_evolves | apply prbsCount_evolves | apply put_evolves | apply showDfe_evolves)
    | simp only [store_mk, store_eta] | split

theorem execLaneTracking_evolves (h : Evolves pm a s.store) (b : Fin 12) (rx : Nat × List Nat × Nat × Nat)
    {sx : State} (he : execLaneTracking b rx s = .next sx) :
    Evolves pm a sx.store := by
  unfold execLaneTracking at he; rw [← Host.Outcome.next.inj he]
  repeat' first
    | with_reducible assumption | (intro _; try beta_reduce)
    | (with_reducible first | apply laneTracking_evolves)
    | simp only [store_mk, store_eta] | split

theorem delaySteps_evolves (h_bays : pm .bays = true) (h : Evolves pm a s.store) (b : Fin 12) :
    Evolves pm a (delaySteps b s).store := by
  unfold delaySteps; try dsimp only
  repeat' first
    | with_reducible assumption | (intro _; try beta_reduce)
    | (with_reducible first | apply ite_evolves | apply put_evolves | apply setBay_evolves)
    | simp only [store_mk, store_eta] | split

theorem bayTick_evolves (h_bays : pm .bays = true) (h_srvs : pm .srvs = true) (h_stalls : pm .stalls = true)
    (h : Evolves pm a s.store) (dt : Nat) (b : Fin 12) :
    Evolves pm a (bayTick dt b s).store := by
  unfold bayTick; try dsimp only
  repeat' first
    | with_reducible assumption | (intro _; try beta_reduce)
    | (with_reducible first | apply ite_evolves | apply foldl_evolves | apply add64_evolves | apply bayEvent_evolves | apply clrF_evolves | apply delaySteps_evolves)
    | (with_reducible first | apply downWake_evolves | apply exitActive_evolves | apply lifeTime_evolves | apply sendFrame_evolves | apply setBay_evolves)
    | simp only [store_mk, store_eta] | split

theorem lnkRefused_evolves (h : Evolves pm a s.store) (b : Nat) : Evolves pm a (lnkRefused b s).store := by
  unfold lnkRefused
  repeat' first | with_reducible assumption | (with_reducible first | apply bayFlag_evolves)

theorem lnkCtrlWrite_evolves (h_bays : pm .bays = true) (h_srvs : pm .srvs = true) (h_stalls : pm .stalls = true)
    (h : Evolves pm a s.store) (sec : Bool) (b : Fin 12) (v : Word) :
    Evolves pm a (lnkCtrlWrite sec b v s).store := by
  unfold lnkCtrlWrite; try dsimp only
  repeat' first
    | with_reducible assumption | (intro _; try beta_reduce)
    | (with_reducible first | apply ite_evolves | apply cfgWrite_evolves | apply enterStage_evolves | apply hostStage_evolves | apply lnkRefused_evolves)
    | (with_reducible first | apply wrN_evolves)

theorem execBayEnable_evolves (h_bays : pm .bays = true) (h_srvs : pm .srvs = true) (h_stalls : pm .stalls = true)
    (h : Evolves pm a s.store) (sec : Bool) (b : Fin 12) {sx : State} (he : execBayEnable sec b s = .next sx) :
    Evolves pm a sx.store := by
  unfold execBayEnable at he; rw [← Host.Outcome.next.inj he]
  repeat' first | with_reducible assumption | (with_reducible first | apply lnkCtrlWrite_evolves)

theorem execBayDisable_evolves (h_bays : pm .bays = true) (h_srvs : pm .srvs = true) (h_stalls : pm .stalls = true)
    (h : Evolves pm a s.store) (sec : Bool) (b : Fin 12) {sx : State} (he : execBayDisable sec b s = .next sx) :
    Evolves pm a sx.store := by
  unfold execBayDisable at he; rw [← Host.Outcome.next.inj he]
  repeat' first | with_reducible assumption | (with_reducible first | apply lnkCtrlWrite_evolves)

theorem enterTest_evolves (h_bays : pm .bays = true) (h_srvs : pm .srvs = true) (h_stalls : pm .stalls = true)
    (h : Evolves pm a s.store) (b : Fin 12) :
    Evolves pm a (enterTest b s).store := by
  unfold enterTest
  repeat' first
    | with_reducible assumption
    | (with_reducible first | apply ite_evolves | apply hostStage_evolves | apply sendMsg_evolves)

theorem trainCtlWrite_evolves (h_bays : pm .bays = true) (h_srvs : pm .srvs = true) (h_stalls : pm .stalls = true)
    (h : Evolves pm a s.store) (sec : Bool) (b : Fin 12) (v : Word) :
    Evolves pm a (trainCtlWrite sec b v s).store := by
  unfold trainCtlWrite; try dsimp only
  repeat' first
    | with_reducible assumption | (intro _; try beta_reduce)
    | (with_reducible first | apply ite_evolves | apply cfgWrite_evolves | apply enterStage_evolves | apply enterTest_evolves | apply hostStage_evolves | apply lnkRefused_evolves)
    | (with_reducible first | apply slipOnce_evolves | apply wrN_evolves)
    | simp only [store_mk, store_eta] | split

theorem execTestEnter_evolves (h_bays : pm .bays = true) (h_srvs : pm .srvs = true) (h_stalls : pm .stalls = true)
    (h : Evolves pm a s.store) (sec : Bool) (b : Fin 12) {sx : State} (he : execTestEnter sec b s = .next sx) :
    Evolves pm a sx.store := by
  unfold execTestEnter at he; rw [← Host.Outcome.next.inj he]
  repeat' first | with_reducible assumption | (with_reducible first | apply trainCtlWrite_evolves)

theorem execTestExit_evolves (h_bays : pm .bays = true) (h_srvs : pm .srvs = true) (h_stalls : pm .stalls = true)
    (h : Evolves pm a s.store) (sec : Bool) (b : Fin 12) (n : Nat) (errs : Nat) {sx : State}
    (he : execTestExit sec b n errs s = .next sx) :
    Evolves pm a sx.store := by
  unfold execTestExit at he; rw [← Host.Outcome.next.inj he]
  repeat' first
    | with_reducible assumption | (with_reducible first | apply prbsCount_evolves | apply trainCtlWrite_evolves)

theorem execSlip_evolves (h_bays : pm .bays = true) (h_srvs : pm .srvs = true) (h_stalls : pm .stalls = true)
    (h : Evolves pm a s.store) (sec : Bool) (b : Fin 12) {sx : State} (he : execSlip sec b s = .next sx) :
    Evolves pm a sx.store := by
  unfold execSlip at he; rw [← Host.Outcome.next.inj he]
  repeat' first | with_reducible assumption | (with_reducible first | apply trainCtlWrite_evolves)

theorem execRestart_evolves (h_bays : pm .bays = true) (h_srvs : pm .srvs = true) (h_stalls : pm .stalls = true)
    (h : Evolves pm a s.store) (sec : Bool) (b : Fin 12) {sx : State} (he : execRestart sec b s = .next sx) :
    Evolves pm a sx.store := by
  unfold execRestart at he; rw [← Host.Outcome.next.inj he]
  repeat' first | with_reducible assumption | (with_reducible first | apply trainCtlWrite_evolves)

theorem prbsCtlWrite_evolves (h : Evolves pm a s.store) (sec : Bool) (b : Fin 12) (v : Word) :
    Evolves pm a (prbsCtlWrite sec b v s).store := by
  unfold prbsCtlWrite; try dsimp only
  repeat' first
    | with_reducible assumption | (intro _; try beta_reduce)
    | (with_reducible first | apply ite_evolves | apply cfgWrite_evolves | apply emit_evolves | apply lnkRefused_evolves | apply wr64_evolves)
    | (with_reducible first | apply wrN_evolves)

theorem prbsInject_evolves (h : Evolves pm a s.store) (sec : Bool) (b : Fin 12) :
    Evolves pm a (prbsInject sec b s).store := by
  unfold prbsInject
  repeat' first
    | with_reducible assumption | (intro _; try beta_reduce)
    | (with_reducible first | apply ite_evolves | apply emit_evolves | apply hostWrite_evolves)

theorem execPrbsInject_evolves (h : Evolves pm a s.store) (sec : Bool) (b : Fin 12) {sx : State}
    (he : execPrbsInject sec b s = .next sx) :
    Evolves pm a sx.store := by
  unfold execPrbsInject at he; rw [← Host.Outcome.next.inj he]
  repeat' first | with_reducible assumption | (with_reducible first | apply prbsInject_evolves)

theorem laneDlySet_evolves (h_bays : pm .bays = true) (h : Evolves pm a s.store) (b : Fin 12) (d : Nat) :
    Evolves pm a (laneDlySet b d s).store := by
  unfold laneDlySet
  repeat' first
    | with_reducible assumption | (intro _; try beta_reduce)
    | (with_reducible first | apply put_evolves | apply setBay_evolves) | simp only [store_mk, store_eta]

theorem linkConfigWrite_evolves (h_bays : pm .bays = true) (h_fars : pm .fars = true) (h_srvs : pm .srvs = true)
    (h_stalls : pm .stalls = true) (h : Evolves pm a s.store) (sec : Bool) (b : Fin 12) (o : Fin 10) (v : Word) :
    Evolves pm a (linkConfigWrite sec b o v s).store := by
  unfold linkConfigWrite
  repeat' first
    | with_reducible assumption | (intro _; try beta_reduce)
    | (with_reducible first | apply cfgWrite_evolves | apply laneDlySet_evolves | apply lnkCtrlWrite_evolves | apply lnkRefused_evolves | apply prbsCtlWrite_evolves)
    | (with_reducible first | apply setFar_evolves | apply trainCtlWrite_evolves | apply wrN_evolves)
    | simp only [store_mk, store_eta] | split | dsimp only [id]

theorem execLinkConfigWrite_evolves (h_bays : pm .bays = true) (h_fars : pm .fars = true) (h_srvs : pm .srvs = true)
    (h_stalls : pm .stalls = true) (h : Evolves pm a s.store) (sec : Bool) (b : Fin 12) (o : Fin 10) (v : Word)
    {sx : State} (he : execLinkConfigWrite sec b o v s = .next sx) :
    Evolves pm a sx.store := by
  unfold execLinkConfigWrite at he; rw [← Host.Outcome.next.inj he]
  repeat' first | with_reducible assumption | (with_reducible first | apply linkConfigWrite_evolves)

theorem periodBay_evolves (h_bays : pm .bays = true) (h_srvs : pm .srvs = true) (h_stalls : pm .stalls = true)
    (h : Evolves pm a s.store) (sel : Nat) (b : Fin 12) :
    Evolves pm a (periodBay sel b s).store := by
  unfold periodBay; try dsimp only
  repeat' first
    | with_reducible assumption
    | (with_reducible first | apply ite_evolves | apply haltNow_evolves | apply sendConfirm_evolves)

theorem setPeriodNext_evolves (hq : pm .ask = true) (h : Evolves pm a s.store) (x : Option Nat) :
    Evolves pm a (setPeriodNext x s).store := Evolves.ask hq _ _ _ h

theorem mvPeriodWrite_evolves (hq : pm .ask = true) (h_bays : pm .bays = true) (h_srvs : pm .srvs = true)
    (h_stalls : pm .stalls = true) (h : Evolves pm a s.store) (sec : Bool) (v : Word) :
    Evolves pm a (mvPeriodWrite sec v s).store := by
  unfold mvPeriodWrite; try dsimp only
  repeat' first
    | with_reducible assumption | (intro _; try beta_reduce)
    | (with_reducible first | apply ite_evolves | apply forAll_evolves | apply hostWrite_evolves | apply periodBay_evolves | apply put_evolves)
    | (with_reducible first | apply raise_evolves | apply setF_evolves | apply setPeriodNext_evolves)

theorem execMvPeriodWrite_evolves (hq : pm .ask = true) (h_bays : pm .bays = true) (h_srvs : pm .srvs = true)
    (h_stalls : pm .stalls = true) (h : Evolves pm a s.store) (sec : Bool) (v : Word) {sx : State}
    (he : execMvPeriodWrite sec v s = .next sx) :
    Evolves pm a sx.store := by
  unfold execMvPeriodWrite at he; rw [← Host.Outcome.next.inj he]
  repeat' first | with_reducible assumption | (with_reducible first | apply mvPeriodWrite_evolves)

theorem setPeriod_evolves (hd : pm .period = true) (h : Evolves pm a s.store) (n : Nat) :
    Evolves pm a (setPeriod n s).store := Evolves.period hd _ h

theorem mvPeriodChange_evolves (hq : pm .ask = true) (hd : pm .period = true) (h_stalls : pm .stalls = true)
    (h : Evolves pm a s.store) :
    Evolves pm a (mvPeriodChange s).store := by
  unfold mvPeriodChange
  repeat' first
    | with_reducible assumption | (intro _; try beta_reduce)
    | (with_reducible first | apply ite_evolves | apply forAll_evolves | apply replanFromRest_evolves | apply setPeriodNext_evolves | apply setPeriod_evolves)
    | simp only [store_mk, store_eta] | split

theorem execMvPeriodChange_evolves (hq : pm .ask = true) (hd : pm .period = true) (h_stalls : pm .stalls = true)
    (h : Evolves pm a s.store) {sx : State} (he : execMvPeriodChange s = .next sx) :
    Evolves pm a sx.store := by
  unfold execMvPeriodChange at he; rw [← Host.Outcome.next.inj he]
  repeat' first | with_reducible assumption | (with_reducible first | apply mvPeriodChange_evolves)

theorem sendHost_evolves (h_bays : pm .bays = true) (h : Evolves pm a s.store) (c : Fin 256) (d : Desc) (b : Fin 12)
    (bs : List Byte) :
    Evolves pm a (sendHost c d b bs s).store := by
  unfold sendHost; try dsimp only
  repeat' first
    | with_reducible assumption | (intro _; try beta_reduce)
    | (with_reducible first | apply ite_evolves | apply sendMgmt_evolves | apply setBay_evolves | apply takeTag_evolves | apply (takeTag_evolves' (by with_reducible assumption)))
    | simp only [store_mk, store_eta] | split

theorem opLinkMgmt_evolves (h_bays : pm .bays = true) (h_ctxs : pm .ctxs = true) (h : Evolves pm a s.store)
    (c : Fin 256) (r : DmaIn) (d : Desc) :
    Evolves pm a (opLinkMgmt c r d s).store := by
  unfold opLinkMgmt; try dsimp only
  repeat' first
    | with_reducible assumption | (intro _; try beta_reduce)
    | (with_reducible first | apply ite_evolves | apply blockCheck_evolves | apply complete_evolves | apply formatZero_evolves | apply sendHost_evolves)
    | (with_reducible first | apply withPayload_evolves) | split

theorem execLinkMgmt_evolves (h_bays : pm .bays = true) (h_ctxs : pm .ctxs = true) (h : Evolves pm a s.store)
    (c : Fin 256) (r : DmaIn) {sx : State} (he : execLinkMgmt c r s = .next sx) :
    Evolves pm a sx.store := by
  unfold execLinkMgmt at he; rw [← Host.Outcome.next.inj he]
  repeat' first
    | with_reducible assumption | (intro _; try beta_reduce)
    | (with_reducible first | apply ite_evolves | apply opLinkMgmt_evolves | apply withDesc_evolves)

theorem mgmtReply_evolves (h_bays : pm .bays = true) (h_ctxs : pm .ctxs = true) (h : Evolves pm a s.store)
    (b : Fin 12) (msg : List Byte) :
    Evolves pm a (mgmtReply b msg s).store := by
  unfold mgmtReply; try dsimp only
  repeat' first
    | with_reducible assumption | (intro _; try beta_reduce)
    | (with_reducible first | apply ite_evolves | apply complete_evolves | apply emit_evolves | apply setBay_evolves)
    | simp only [store_mk, store_eta] | split

theorem linkMgmtTimeout_evolves (h_bays : pm .bays = true) (h_ctxs : pm .ctxs = true) (h : Evolves pm a s.store)
    (b : Fin 12) :
    Evolves pm a (linkMgmtTimeout b s).store := by
  unfold linkMgmtTimeout; try dsimp only
  repeat' first
    | with_reducible assumption | (intro _; try beta_reduce)
    | (with_reducible first | apply ite_evolves | apply foldl_evolves | apply complete_evolves | apply setBay_evolves)
    | simp only [store_mk, store_eta] | split

theorem execLinkMgmtTimeout_evolves (h_bays : pm .bays = true) (h_ctxs : pm .ctxs = true) (h : Evolves pm a s.store)
    (b : Fin 12) {sx : State} (he : execLinkMgmtTimeout b s = .next sx) :
    Evolves pm a sx.store := by
  unfold execLinkMgmtTimeout at he; rw [← Host.Outcome.next.inj he]
  repeat' first | with_reducible assumption | (with_reducible first | apply linkMgmtTimeout_evolves)

end Machine
end Sys2Proof
end

