-- ==== Sys2Proof/Laws/EvolvesFarrier.lean ====
section
/-!
SUPPORT. Every operation of Farrier.lean is an evolution (Laws/Evolves.lean).
-/
namespace Sys2Proof
namespace Machine

variable {pm : Part → Bool} {a : Store} {s : State}

theorem showFar_evolves (h : Evolves pm a s.store) : Evolves pm a (showFar s).store := by
  unfold showFar; try dsimp only
  repeat' first
    | with_reducible assumption | (intro _; try beta_reduce)
    | (with_reducible first | apply ite_evolves | apply put_evolves)

theorem reqDone_evolves (h_ctxs : pm .ctxs = true) (h : Evolves pm a s.store) (r : FarReq) :
    Evolves pm a (reqDone r s).store := by
  unfold reqDone; try dsimp only
  repeat' first
    | with_reducible assumption
    | (with_reducible first | apply ite_evolves | apply complete_evolves | apply raise_evolves)
    | simp only [store_mk, store_eta] | split

theorem reqsEnd_evolves (h_ctxs : pm .ctxs = true) (h : Evolves pm a s.store) (u : Fin 60) (k : Nat) (bad : Bool)
    (errs : Nat) :
    Evolves pm a (reqsEnd u k bad errs s).store := by
  unfold reqsEnd; try dsimp only
  repeat' first
    | with_reducible assumption | (intro _; try beta_reduce)
    | (with_reducible first | apply ite_evolves | apply foldl_evolves | apply reqDone_evolves)
    | simp only [store_mk, store_eta]

theorem farEnd_evolves (h_ctxs : pm .ctxs = true) (h_fars : pm .fars = true) (h : Evolves pm a s.store) (u : Fin 60)
    (k : Nat) (res : Nat) (errs : Nat) :
    Evolves pm a (farEnd u k res errs s).store := by
  unfold farEnd; try dsimp only
  repeat' first
    | with_reducible assumption | (intro _; try beta_reduce)
    | (with_reducible first | apply ite_evolves | apply addW_evolves | apply lifeAdd_evolves | apply put_evolves | apply raise_evolves)
    | (with_reducible first | apply reqsEnd_evolves | apply setF_evolves | apply setFar_evolves | apply showFar_evolves | apply wr64_evolves)
    | (with_reducible first | apply wrN_evolves) | simp only [store_mk, store_eta] | split

theorem farSkip_evolves (h_ctxs : pm .ctxs = true) (h_fars : pm .fars = true) (h : Evolves pm a s.store)
    (u : Fin 60) (k : Nat) (res : Nat) :
    Evolves pm a (farSkip u k res s).store := by
  unfold farSkip
  repeat' first
    | with_reducible assumption
    | (with_reducible first | apply farEnd_evolves | apply raise_evolves | apply setF_evolves)

theorem farStart_evolves (h_ctxs : pm .ctxs = true) (h_fars : pm .fars = true) (h : Evolves pm a s.store)
    (u : Fin 60) (k : Nat) (go : State → State) (hgo : ∀ u, Evolves pm a u.store → Evolves pm a (go u).store) :
    Evolves pm a (farStart u k go s).store := by
  unfold farStart; try dsimp only
  repeat' first
    | with_reducible assumption | (intro _; try beta_reduce)
    | (with_reducible first | apply ite_evolves | apply farSkip_evolves | apply hgo)

theorem farRun_evolves (h_fars : pm .fars = true) (h : Evolves pm a s.store) (u : Fin 60) (k : Nat) :
    Evolves pm a (farRun u k s).store := by
  unfold farRun
  repeat' first
    | with_reducible assumption | (intro _; try beta_reduce)
    | (with_reducible first | apply setFar_evolves | apply showFar_evolves) | simp only [store_mk, store_eta]

theorem laneRun_evolves (h_bays : pm .bays = true) (h_ctxs : pm .ctxs = true) (h_fars : pm .fars = true)
    (h : Evolves pm a s.store) (b : Fin 12) (centre : Nat) :
    Evolves pm a (laneRun b centre s).store := by
  unfold laneRun; try dsimp only
  repeat' first
    | with_reducible assumption | (intro _; try beta_reduce)
    | (with_reducible first | apply ite_evolves | apply farEnd_evolves | apply farStart_evolves | apply laneDlySet_evolves | apply put_evolves)

theorem execLane_evolves (h_bays : pm .bays = true) (h_ctxs : pm .ctxs = true) (h_fars : pm .fars = true)
    (h : Evolves pm a s.store) (b : Fin 12) (centre : Nat) {sx : State} (he : execLane b centre s = .next sx) :
    Evolves pm a sx.store := by
  unfold execLane at he; rw [← Host.Outcome.next.inj he]
  repeat' first | with_reducible assumption | (with_reducible first | apply laneRun_evolves)

theorem setOffset_evolves (h : Evolves pm a s.store) (b : Nat) (i : Nat) (v : Int) :
    Evolves pm a (setOffset b i v s).store := by
  unfold setOffset
  repeat' first | with_reducible assumption | (with_reducible first | apply put_evolves)

theorem dfeFinish_evolves (h_ctxs : pm .ctxs = true) (h_fars : pm .fars = true) (h : Evolves pm a s.store)
    (b : Fin 12) :
    Evolves pm a (dfeFinish b s).store := by
  unfold dfeFinish; try dsimp only
  repeat' first
    | with_reducible assumption | (intro _; try beta_reduce)
    | (with_reducible first | apply ite_evolves | apply foldl_evolves | apply farEnd_evolves | apply setOffset_evolves)

theorem dfeTap_evolves (h_ctxs : pm .ctxs = true) (h_fars : pm .fars = true) (h : Evolves pm a s.store) (b : Fin 12)
    (i : Nat) :
    Evolves pm a (dfeTap b i s).store := by
  unfold dfeTap; try dsimp only
  repeat' first
    | with_reducible assumption | (intro _; try beta_reduce)
    | (with_reducible first | apply ite_evolves | apply dfeFinish_evolves | apply setFar_evolves | apply setOffset_evolves)
    | simp only [store_mk, store_eta]

theorem dfeRun_evolves (h_ctxs : pm .ctxs = true) (h_fars : pm .fars = true) (h : Evolves pm a s.store) (b : Fin 12) :
    Evolves pm a (dfeRun b s).store := by
  unfold dfeRun; try dsimp only
  repeat' first
    | with_reducible assumption | (intro _; try beta_reduce)
    | (with_reducible first | apply ite_evolves | apply dfeTap_evolves | apply farRun_evolves | apply farStart_evolves | apply setFar_evolves)
    | simp only [store_mk, store_eta]

theorem execDfe_evolves (h_ctxs : pm .ctxs = true) (h_fars : pm .fars = true) (h : Evolves pm a s.store)
    (b : Fin 12) {sx : State} (he : execDfe b s = .next sx) :
    Evolves pm a sx.store := by
  unfold execDfe at he; rw [← Host.Outcome.next.inj he]
  repeat' first | with_reducible assumption | (with_reducible first | apply dfeRun_evolves)

theorem dfeJudge_evolves (h_ctxs : pm .ctxs = true) (h_fars : pm .fars = true) (h : Evolves pm a s.store)
    (b : Fin 12) (width : Nat) :
    Evolves pm a (dfeJudge b width s).store := by
  unfold dfeJudge; try dsimp only
  repeat' first
    | with_reducible assumption | (intro _; try beta_reduce)
    | (with_reducible first | apply ite_evolves | apply dfeTap_evolves | apply setFar_evolves | apply setOffset_evolves)
    | simp only [store_mk, store_eta]

theorem dfeStep_evolves (h_ctxs : pm .ctxs = true) (h_fars : pm .fars = true) (h : Evolves pm a s.store)
    (b : Fin 12) (width : Nat) :
    Evolves pm a (dfeStep b width s).store := by
  unfold dfeStep; try dsimp only
  repeat' first
    | with_reducible assumption
    | (with_reducible first | apply ite_evolves | apply dfeJudge_evolves | apply put_evolves)

theorem execDfeStep_evolves (h_ctxs : pm .ctxs = true) (h_fars : pm .fars = true) (h : Evolves pm a s.store)
    (b : Fin 12) (width : Nat) {sx : State} (he : execDfeStep b width s = .next sx) :
    Evolves pm a sx.store := by
  unfold execDfeStep at he; rw [← Host.Outcome.next.inj he]
  repeat' first | with_reducible assumption | (with_reducible first | apply dfeStep_evolves)

theorem linkTest_evolves (h_bays : pm .bays = true) (h_ctxs : pm .ctxs = true) (h_fars : pm .fars = true)
    (h_srvs : pm .srvs = true) (h_stalls : pm .stalls = true) (h : Evolves pm a s.store) (b : Fin 12) :
    Evolves pm a (linkTest b s).store := by
  unfold linkTest; try dsimp only
  repeat' first
    | with_reducible assumption | (intro _; try beta_reduce)
    | (with_reducible first | apply ite_evolves | apply enterTest_evolves | apply farRun_evolves | apply farStart_evolves | apply put_evolves)
    | (with_reducible first | apply setF_evolves | apply wr64_evolves | apply wrN_evolves)

theorem execLinkTest_evolves (h_bays : pm .bays = true) (h_ctxs : pm .ctxs = true) (h_fars : pm .fars = true)
    (h_srvs : pm .srvs = true) (h_stalls : pm .stalls = true) (h : Evolves pm a s.store) (b : Fin 12) {sx : State}
    (he : execLinkTest b s = .next sx) :
    Evolves pm a sx.store := by
  unfold execLinkTest at he; rw [← Host.Outcome.next.inj he]
  repeat' first | with_reducible assumption | (with_reducible first | apply linkTest_evolves)

theorem linkTestEnd_evolves (h_bays : pm .bays = true) (h_ctxs : pm .ctxs = true) (h_fars : pm .fars = true)
    (h : Evolves pm a s.store) (b : Fin 12) (n : Nat) (errs : Nat) :
    Evolves pm a (linkTestEnd b n errs s).store := by
  unfold linkTestEnd; try dsimp only
  repeat' first
    | with_reducible assumption
    | (with_reducible first | apply ite_evolves | apply clrF_evolves | apply enterStage_evolves | apply farEnd_evolves | apply lifeAdd_evolves)
    | (with_reducible first | apply prbsCount_evolves | apply wrN_evolves)

theorem execLinkTestEnd_evolves (h_bays : pm .bays = true) (h_ctxs : pm .ctxs = true) (h_fars : pm .fars = true)
    (h : Evolves pm a s.store) (b : Fin 12) (bits : Nat) (errs : Nat) {sx : State}
    (he : execLinkTestEnd b bits errs s = .next sx) :
    Evolves pm a sx.store := by
  unfold execLinkTestEnd at he; rw [← Host.Outcome.next.inj he]
  repeat' first | with_reducible assumption | (with_reducible first | apply linkTestEnd_evolves)

theorem spreadOf_evolves (h : Evolves pm a s.store) (l : List Int) : Evolves pm a (spreadOf l s).2.store := by
  unfold spreadOf; try dsimp only
  repeat' first
    | with_reducible assumption
    | (with_reducible first | apply draw_evolves | apply (draw_evolves' (by with_reducible assumption))) | split

theorem spreadOf_evolves' {pm : Part → Bool} {a : Store} {sv : State} {xo : Nat} {s : State}  {l : List Int} (e : spreadOf l s = (xo, sv)) (h : Evolves pm a s.store) : Evolves pm a sv.store := by
  have := spreadOf_evolves  h l
  rw [e] at this; exact this

theorem gateRun_evolves (h_ctxs : pm .ctxs = true) (h_fars : pm .fars = true) (h : Evolves pm a s.store)
    (g : Fin 48) :
    Evolves pm a (gateRun g s).store := by
  unfold gateRun; try dsimp only
  repeat' first
    | with_reducible assumption | (intro _; try beta_reduce)
    | (with_reducible first | apply ite_evolves | apply farEnd_evolves | apply farRun_evolves | apply farStart_evolves | apply lifeMax_evolves)
    | (with_reducible first | apply put_evolves | apply setFar_evolves | apply spreadOf_evolves | apply wrN_evolves | apply (spreadOf_evolves' (by with_reducible assumption)))
    | simp only [store_mk, store_eta] | split

theorem execGate_evolves (h_ctxs : pm .ctxs = true) (h_fars : pm .fars = true) (h : Evolves pm a s.store)
    (g : Fin 48) {sx : State} (he : execGate g s = .next sx) :
    Evolves pm a sx.store := by
  unfold execGate at he; rw [← Host.Outcome.next.inj he]
  repeat' first | with_reducible assumption | (with_reducible first | apply gateRun_evolves)

theorem thresholdRun_evolves (h_ctxs : pm .ctxs = true) (h_fars : pm .fars = true) (h : Evolves pm a s.store)
    (g : Fin 48) :
    Evolves pm a (thresholdRun g s).store := by
  unfold thresholdRun; try dsimp only
  repeat' first
    | with_reducible assumption | (intro _; try beta_reduce)
    | (with_reducible first | apply ite_evolves | apply farEnd_evolves | apply farRun_evolves | apply farStart_evolves | apply setFar_evolves)
    | simp only [store_mk, store_eta]

theorem execThreshold_evolves (h_ctxs : pm .ctxs = true) (h_fars : pm .fars = true) (h : Evolves pm a s.store)
    (g : Fin 48) {sx : State} (he : execThreshold g s = .next sx) :
    Evolves pm a sx.store := by
  unfold execThreshold at he; rw [← Host.Outcome.next.inj he]
  repeat' first | with_reducible assumption | (with_reducible first | apply thresholdRun_evolves)

theorem stepTrim_evolves (h_ctxs : pm .ctxs = true) (h_fars : pm .fars = true) (h : Evolves pm a s.store)
    (g : Fin 48) :
    Evolves pm a (stepTrim g s).store := by
  unfold stepTrim; try dsimp only
  repeat' first
    | with_reducible assumption | (intro _; try beta_reduce)
    | (with_reducible first | apply ite_evolves | apply farEnd_evolves | apply lifeMax_evolves | apply put_evolves | apply setFar_evolves)
    | simp only [store_mk, store_eta] | split

theorem stepThr_evolves (h_ctxs : pm .ctxs = true) (h_fars : pm .fars = true) (h : Evolves pm a s.store)
    (g : Fin 48) :
    Evolves pm a (stepThr g s).store := by
  unfold stepThr; try dsimp only
  repeat' first
    | with_reducible assumption
    | (with_reducible first | apply ite_evolves | apply farEmpty_evolves | apply farEnd_evolves | apply wrN_evolves)

theorem watchDfe_evolves (h_ctxs : pm .ctxs = true) (h_fars : pm .fars = true) (h : Evolves pm a s.store)
    (b : Fin 12) :
    Evolves pm a (watchDfe b s).store := by
  unfold watchDfe; try dsimp only
  repeat' first
    | with_reducible assumption | (intro _; try beta_reduce)
    | (with_reducible first | apply ite_evolves | apply dfeFinish_evolves | apply farEnd_evolves | apply setOffset_evolves)

theorem farTick_evolves (h_ctxs : pm .ctxs = true) (h_fars : pm .fars = true) (h : Evolves pm a s.store) :
    Evolves pm a (farTick s).store := by
  unfold farTick; try dsimp only
  repeat' first
    | with_reducible assumption | (intro _; try beta_reduce)
    | (with_reducible first | apply ite_evolves | apply forAll_evolves | apply farEnd_evolves | apply stepThr_evolves | apply stepTrim_evolves)
    | (with_reducible first | apply watchDfe_evolves) | simp only [store_mk, store_eta] | split

theorem farPend_evolves (h_fars : pm .fars = true) (h : Evolves pm a s.store) (u : Fin 60) (kinds : Nat) :
    Evolves pm a (farPend u kinds s).store := by
  unfold farPend; try dsimp only
  repeat' first
    | with_reducible assumption | (intro _; try beta_reduce)
    | (with_reducible first | apply ite_evolves | apply lifeAdd_evolves | apply setFar_evolves)
    | simp only [store_mk, store_eta]

theorem autoRuns_evolves (h : Evolves pm a s.store) (l : List (Nat × Nat)) : Evolves pm a (autoRuns l s).store := by
  unfold autoRuns
  repeat' first
    | with_reducible assumption | (intro _; try beta_reduce) | (with_reducible first | apply ite_evolves)
    | simp only [store_mk, store_eta]

theorem farThermal_evolves (h_fars : pm .fars = true) (h : Evolves pm a s.store) :
    Evolves pm a (farThermal s).store := by
  unfold farThermal; try dsimp only
  repeat' first
    | with_reducible assumption | (intro _; try beta_reduce)
    | (with_reducible first | apply ite_evolves | apply foldl_evolves | apply autoRuns_evolves | apply farPend_evolves | apply showFar_evolves)

theorem opFarRun_evolves (h_ctxs : pm .ctxs = true) (h_fars : pm .fars = true) (h : Evolves pm a s.store)
    (c : Fin 256) (d : Desc) :
    Evolves pm a (opFarRun c d s).store := by
  unfold opFarRun; try dsimp only
  repeat' first
    | with_reducible assumption | (intro _; try beta_reduce)
    | (with_reducible first | apply ite_evolves | apply foldl_evolves | apply complete_evolves | apply farPend_evolves | apply formatZero_evolves)
    | (with_reducible first | apply lifeAdd_evolves | apply reqDone_evolves | apply showFar_evolves | apply worldFault_evolves)
    | simp only [store_mk, store_eta] | split

theorem execFarRun_evolves (h_ctxs : pm .ctxs = true) (h_fars : pm .fars = true) (h : Evolves pm a s.store)
    (c : Fin 256) {sx : State} (he : execFarRun c s = .next sx) :
    Evolves pm a sx.store := by
  unfold execFarRun at he; rw [← Host.Outcome.next.inj he]
  repeat' first
    | with_reducible assumption | (intro _; try beta_reduce)
    | (with_reducible first | apply opFarRun_evolves | apply withDesc_evolves)

theorem farRefused_evolves (h : Evolves pm a s.store) : Evolves pm a (farRefused s).store := by
  unfold farRefused
  repeat' first | with_reducible assumption | (with_reducible first | apply setF_evolves)

theorem farEnabled_evolves (h_ctxs : pm .ctxs = true) (h_fars : pm .fars = true) (h : Evolves pm a s.store) :
    Evolves pm a (farEnabled s).store := by
  unfold farEnabled; try dsimp only
  repeat' first
    | with_reducible assumption | (intro _; try beta_reduce)
    | (with_reducible first | apply foldl_evolves | apply reqsEnd_evolves | apply setFar_evolves | apply showFar_evolves)
    | simp only [store_mk, store_eta]

theorem farConfigWrite_evolves (h_ctxs : pm .ctxs = true) (h_fars : pm .fars = true) (h : Evolves pm a s.store)
    (sec : Bool) (r : Fin 8) (g : Fin 48) (v : Word) :
    Evolves pm a (farConfigWrite sec r g v s).store := by
  unfold farConfigWrite; try dsimp only
  repeat' first
    | with_reducible assumption | (intro _; try beta_reduce)
    | (with_reducible first | apply ite_evolves | apply forAll_evolves | apply cfgWrite_evolves | apply farEmpty_evolves | apply farEnabled_evolves)
    | (with_reducible first | apply farRefused_evolves | apply put_evolves | apply setFar_evolves | apply wrN_evolves)
    | simp only [store_mk, store_eta] | split | dsimp only [id]

theorem execFarConfigWrite_evolves (h_ctxs : pm .ctxs = true) (h_fars : pm .fars = true) (h : Evolves pm a s.store)
    (sec : Bool) (r : Fin 8) (g : Fin 48) (v : Word) {sx : State} (he : execFarConfigWrite sec r g v s = .next sx) :
    Evolves pm a sx.store := by
  unfold execFarConfigWrite at he; rw [← Host.Outcome.next.inj he]
  repeat' first | with_reducible assumption | (with_reducible first | apply farConfigWrite_evolves)

theorem farNote_evolves (h_fars : pm .fars = true) (h : Evolves pm a s.store) (g : Fin 48) :
    Evolves pm a (farNote g s).store := by
  unfold farNote; try dsimp only
  repeat' first
    | with_reducible assumption | (intro _; try beta_reduce)
    | (with_reducible first | apply ite_evolves | apply foldl_evolves | apply setFar_evolves)
    | simp only [store_mk, store_eta] | split

theorem farRecord_evolves (h_fars : pm .fars = true) (h : Evolves pm a s.store) (g : Fin 48) (t : Nat)
    (status : Nat) (samples : List (List Nat)) :
    Evolves pm a (farRecord g t status samples s).store := by
  unfold farRecord; try dsimp only
  repeat' first
    | with_reducible assumption | (intro _; try beta_reduce)
    | (with_reducible first | apply ite_evolves | apply foldl_evolves | apply put_evolves | apply setFar_evolves)

theorem headAlarm_evolves (h : Evolves pm a s.store) (b : Fin 12) (k : Nat) (status : Nat) :
    Evolves pm a (headAlarm b k status s).store := by
  unfold headAlarm; try dsimp only
  repeat' first
    | with_reducible assumption
    | (with_reducible first | apply ite_evolves | apply bayFlag_evolves | apply put_evolves)

theorem photoRecord_evolves (h_engs : pm .engs = true) (h_fars : pm .fars = true) (h : Evolves pm a s.store)
    (b : Fin 12) (t : Nat) (r : Fin 4 × Nat × List (List Nat)) :
    Evolves pm a (photoRecord b t s r).store := by
  unfold photoRecord; try dsimp only
  repeat' first
    | with_reducible assumption
    | (with_reducible first | apply ite_evolves | apply farRecord_evolves | apply headAlarm_evolves | apply pdRecord_evolves)
    | simp only [store_mk, store_eta] | split

theorem photodiodeFrame_evolves (h_engs : pm .engs = true) (h_fars : pm .fars = true) (h : Evolves pm a s.store)
    (b : Fin 12) (super : Nat) (cell : Nat) (recs : List (Fin 4 × Nat × List (List Nat))) :
    Evolves pm a (photodiodeFrame b super cell recs s).store := by
  unfold photodiodeFrame
  repeat' first
    | with_reducible assumption | (intro _; try beta_reduce)
    | (with_reducible first | apply ite_evolves | apply foldl_evolves | apply photoRecord_evolves)

theorem photodiodeUp_evolves (h_bays : pm .bays = true) (h_engs : pm .engs = true) (h_fars : pm .fars = true)
    (h_srvs : pm .srvs = true) (h_stalls : pm .stalls = true) (h : Evolves pm a s.store) (b : Fin 12)
    (broken : Bool) (blocks : List (BitVec 64)) :
    Evolves pm a (photodiodeUp b broken blocks s).store := by
  unfold photodiodeUp; try dsimp only
  repeat' first
    | with_reducible assumption | (intro _; try beta_reduce)
    | (with_reducible first | apply errorRate_evolves | apply photodiodeFrame_evolves)
    | simp only [store_mk, store_eta] | split

theorem execPhotodiodeFrame_evolves (h_bays : pm .bays = true) (h_engs : pm .engs = true) (h_fars : pm .fars = true)
    (h_srvs : pm .srvs = true) (h_stalls : pm .stalls = true) (h : Evolves pm a s.store) (b : Fin 12)
    (broken : Bool) (head : BitVec 64) (data : List (BitVec 64)) {sx : State}
    (he : execPhotodiodeFrame b broken head data s = .next sx) :
    Evolves pm a sx.store := by
  unfold execPhotodiodeFrame at he; rw [← Host.Outcome.next.inj he]
  repeat' first
    | with_reducible assumption | (intro _; try beta_reduce)
    | (with_reducible first | apply photodiodeUp_evolves)
    | simp only [store_mk, store_eta] | split

theorem posRecord_evolves (h_srvs : pm .srvs = true) (h : Evolves pm a s.store) (g : Fin 48) (b0 : Nat) (b1 : Nat) :
    Evolves pm a (posRecord g b0 b1 s).store := by
  unfold posRecord; try dsimp only
  repeat' first
    | with_reducible assumption | (intro _; try beta_reduce)
    | (with_reducible first | apply ite_evolves | apply forAll_evolves | apply setSrv_evolves)
    | simp only [store_mk, store_eta] | split

theorem positionFrame_evolves (h_srvs : pm .srvs = true) (h : Evolves pm a s.store) (b : Fin 12) (super : Nat)
    (recs : List (Fin 4 × Nat × Nat)) :
    Evolves pm a (positionFrame b super recs s).store := by
  unfold positionFrame; try dsimp only
  repeat' first
    | with_reducible assumption | (intro _; try beta_reduce)
    | (with_reducible first | apply ite_evolves | apply foldl_evolves | apply posRecord_evolves)
    | simp only [store_mk, store_eta] | split

theorem positionUp_evolves (h_bays : pm .bays = true) (h_srvs : pm .srvs = true) (h_stalls : pm .stalls = true)
    (h : Evolves pm a s.store) (b : Fin 12) (broken : Bool) (blocks : List (BitVec 64)) :
    Evolves pm a (positionUp b broken blocks s).store := by
  unfold positionUp; try dsimp only
  repeat' first
    | with_reducible assumption | (intro _; try beta_reduce)
    | (with_reducible first | apply errorRate_evolves | apply positionFrame_evolves)
    | simp only [store_mk, store_eta] | split

theorem execPositionFrame_evolves (h_bays : pm .bays = true) (h_srvs : pm .srvs = true)
    (h_stalls : pm .stalls = true) (h : Evolves pm a s.store) (b : Fin 12) (broken : Bool)
    (blocks : List (BitVec 64)) {sx : State} (he : execPositionFrame b broken blocks s = .next sx) :
    Evolves pm a sx.store := by
  unfold execPositionFrame at he; rw [← Host.Outcome.next.inj he]
  repeat' first
    | with_reducible assumption | (intro _; try beta_reduce)
    | (with_reducible first | apply positionUp_evolves)
    | simp only [store_mk, store_eta] | split

end Machine
end Sys2Proof
end

