-- ==== Sys2Proof/Laws/EvolvesImages.lean ====
section
/-!
SUPPORT. Every operation of Images.lean is an evolution (Laws/Evolves.lean).
-/
namespace Sys2Proof
namespace Machine

variable {pm : Part → Bool} {a : Store} {s : State}

theorem setImg_evolves (hp : pm .imgs = true) (h : Evolves pm a s.store) (i : Fin 7) (k : Fin 2) (f : Img → Img) :
    Evolves pm a (setImg i k f s).store := Evolves.imgs hp _ h

theorem authFail_evolves (h : Evolves pm a s.store) (i : Nat) : Evolves pm a (authFail i s).store := by
  unfold authFail
  repeat' first
    | with_reducible assumption
    | (with_reducible first | apply addSat_evolves | apply lifeAdd_evolves | apply raise_evolves | apply setF_evolves)

theorem raiseMin_evolves (h : Evolves pm a s.store) (i : Fin 7) (n : Nat) : Evolves pm a (raiseMin i n s).store :=
  Evolves.roll i n h

theorem evalUpdate_evolves (h : Evolves pm a s.store) : Evolves pm a (evalUpdate s).store := by
  unfold evalUpdate; try dsimp only
  repeat' first
    | with_reducible assumption
    | (with_reducible first | apply ite_evolves | apply clrF_evolves | apply lifeAdd_evolves | apply raise_evolves | apply setF_evolves)

theorem eraseSlot_evolves (h_imgs : pm .imgs = true) (h : Evolves pm a s.store) (i : Fin 7) :
    Evolves pm a (eraseSlot i s).store := by
  unfold eraseSlot; try dsimp only
  repeat' first
    | with_reducible assumption | (intro _; try beta_reduce)
    | (with_reducible first | apply ite_evolves | apply setImg_evolves) | simp only [store_mk, store_eta]

theorem imgLast_evolves (h_ctxs : pm .ctxs = true) (h_imgs : pm .imgs = true) (h : Evolves pm a s.store)
    (c : Fin 256) (q : Nat) (type : Nat) (i : Fin 7) (sig : Bool) (hash : Bool) :
    Evolves pm a (imgLast c q type i sig hash s).store := by
  unfold imgLast; try dsimp only
  repeat' first
    | with_reducible assumption | (intro _; try beta_reduce)
    | (with_reducible first | apply ite_evolves | apply authFail_evolves | apply complete_evolves | apply setImg_evolves)
    | simp only [store_mk, store_eta]

theorem imgChunk_evolves (h_ctxs : pm .ctxs = true) (h_imgs : pm .imgs = true) (h : Evolves pm a s.store)
    (c : Fin 256) (d : Desc) (type : Nat) (i : Fin 7) (bs : List Byte) (sig : Bool) (hash : Bool) :
    Evolves pm a (imgChunk c d type i bs sig hash s).store := by
  unfold imgChunk; try dsimp only
  repeat' first
    | with_reducible assumption | (intro _; try beta_reduce)
    | (with_reducible first | apply ite_evolves | apply complete_evolves | apply eraseSlot_evolves | apply imgLast_evolves | apply setImg_evolves)
    | simp only [store_mk, store_eta]

theorem opImgWrite_evolves (h_ctxs : pm .ctxs = true) (h_imgs : pm .imgs = true) (h : Evolves pm a s.store)
    (c : Fin 256) (r : DmaIn) (sig : Bool) (hash : Bool) (d : Desc) :
    Evolves pm a (opImgWrite c r sig hash d s).store := by
  unfold opImgWrite; try dsimp only
  repeat' first
    | with_reducible assumption | (intro _; try beta_reduce)
    | (with_reducible first | apply ite_evolves | apply blockCheck_evolves | apply complete_evolves | apply formatZero_evolves | apply imgChunk_evolves)
    | (with_reducible first | apply withPayload_evolves) | simp only [store_mk, store_eta] | split

theorem execImgWrite_evolves (h_ctxs : pm .ctxs = true) (h_imgs : pm .imgs = true) (h : Evolves pm a s.store)
    (c : Fin 256) (r : DmaIn) (sigOk : Bool) (hashOk : Bool) {sx : State}
    (he : execImgWrite c r sigOk hashOk s = .next sx) :
    Evolves pm a sx.store := by
  unfold execImgWrite at he; rw [← Host.Outcome.next.inj he]
  repeat' first
    | with_reducible assumption | (intro _; try beta_reduce)
    | (with_reducible first | apply opImgWrite_evolves | apply withDesc_evolves)

theorem swapSlots_evolves (h_imgs : pm .imgs = true) (h : Evolves pm a s.store) (i : Fin 7) :
    Evolves pm a (swapSlots i s).store := by
  unfold swapSlots; try dsimp only
  repeat' first
    | with_reducible assumption | (intro _; try beta_reduce)
    | (with_reducible first | apply ite_evolves | apply setImg_evolves) | simp only [store_mk, store_eta]

theorem mgmtRestart_evolves (h : Evolves pm a s.store) : Evolves pm a (mgmtRestart s).store := by
  unfold mgmtRestart; try dsimp only
  repeat' first
    | with_reducible assumption
    | (with_reducible first | apply ite_evolves | apply clrF_evolves | apply lifeAdd_evolves)
    | simp only [store_mk, store_eta]

theorem sendSwitch_evolves (h_bays : pm .bays = true) (h : Evolves pm a s.store) (n : Nat) (type : Nat) (b : Fin 12) :
    Evolves pm a (sendSwitch n type b s).store := by
  unfold sendSwitch; try dsimp only
  repeat' first
    | with_reducible assumption | (intro _; try beta_reduce)
    | (with_reducible first | apply ite_evolves | apply sendMsg_evolves | apply setBay_evolves)
    | simp only [store_mk, store_eta]

theorem dropPushes_evolves (hp : pm .bays = true) (h : Evolves pm a s.store) (type : Nat) :
    Evolves pm a (dropPushes type s).store := Evolves.bays hp _ h

theorem imgApply_evolves (h_bays : pm .bays = true) (h_imgs : pm .imgs = true) (h : Evolves pm a s.store)
    (i : Fin 7) (type : Nat) :
    Evolves pm a (imgApply i type s).store := by
  unfold imgApply; try dsimp only
  repeat' first
    | with_reducible assumption | (intro _; try beta_reduce)
    | (with_reducible first | apply ite_evolves | apply forAll_evolves | apply dropPushes_evolves | apply evalUpdate_evolves | apply lifeAdd_evolves)
    | (with_reducible first | apply mgmtRestart_evolves | apply put_evolves | apply raiseMin_evolves | apply sendSwitch_evolves | apply setImg_evolves)
    | (with_reducible first | apply swapSlots_evolves) | simp only [store_mk, store_eta]

theorem pushSend_evolves (h_bays : pm .bays = true) (h : Evolves pm a s.store) (b : Fin 12) (p : Push)
    (l : List Byte) :
    Evolves pm a (pushSend b p l s).store := by
  unfold pushSend; try dsimp only
  repeat' first
    | with_reducible assumption | (intro _; try beta_reduce)
    | (with_reducible first | apply ite_evolves | apply sendMsg_evolves | apply setBay_evolves)
    | simp only [store_mk, store_eta]

theorem pushStart_evolves (h_bays : pm .bays = true) (h : Evolves pm a s.store) (t : Nat) (i : Fin 7) (type : Nat) :
    Evolves pm a (pushStart t i type s).store := by
  unfold pushStart
  repeat' first
    | with_reducible assumption | (intro _; try beta_reduce)
    | (with_reducible first | apply foldl_evolves | apply pushSend_evolves)

theorem activateReady_evolves (h_ctxs : pm .ctxs = true) (h_txns : pm .txns = true) (h : Evolves pm a s.store)
    (c : Fin 256) (d : Desc) :
    Evolves pm a (activateReady c d s).store := by
  unfold activateReady
  repeat' first
    | with_reducible assumption | (intro _; try beta_reduce)
    | (with_reducible first | apply ite_evolves | apply stageActs_evolves | apply stageOpen_evolves)
    | simp only [store_mk, store_eta] | dsimp only [id]

theorem pushOver_evolves (h_bays : pm .bays = true) (h_ctxs : pm .ctxs = true) (h_txns : pm .txns = true)
    (h : Evolves pm a s.store) (t : Nat) (type : Nat) (ok : Bool) :
    Evolves pm a (pushOver t type ok s).store := by
  unfold pushOver; try dsimp only
  repeat' first
    | with_reducible assumption
    | (with_reducible first | apply ite_evolves | apply activateReady_evolves | apply complete_evolves | apply dropPushes_evolves | apply stageFormat_evolves)
    | simp only [store_mk, store_eta] | split

theorem pushReply_evolves (h_bays : pm .bays = true) (h_ctxs : pm .ctxs = true) (h_txns : pm .txns = true)
    (h : Evolves pm a s.store) (b : Fin 12) (msg : List Byte) (ok : Bool) :
    Evolves pm a (pushReply b msg ok s).store := by
  unfold pushReply; try dsimp only
  repeat' first
    | with_reducible assumption | (intro _; try beta_reduce)
    | (with_reducible first | apply ite_evolves | apply pushOver_evolves | apply pushSend_evolves | apply setBay_evolves)
    | simp only [store_mk, store_eta] | split

theorem mgmtFrameUp_evolves (h_bays : pm .bays = true) (h_ctxs : pm .ctxs = true) (h_txns : pm .txns = true)
    (h : Evolves pm a s.store) (b : Fin 12) (msg : List Byte) (ok : Bool) :
    Evolves pm a (mgmtFrameUp b msg ok s).store := by
  unfold mgmtFrameUp; try dsimp only
  repeat' first
    | with_reducible assumption
    | (with_reducible first | apply ite_evolves | apply mgmtReply_evolves | apply pushReply_evolves)

theorem mgmtUp_evolves (h_bays : pm .bays = true) (h_ctxs : pm .ctxs = true) (h_srvs : pm .srvs = true)
    (h_stalls : pm .stalls = true) (h_txns : pm .txns = true) (h : Evolves pm a s.store) (b : Fin 12)
    (broken : Bool) (blocks : List (BitVec 64)) (ok : Bool) :
    Evolves pm a (mgmtUp b broken blocks ok s).store := by
  unfold mgmtUp; try dsimp only
  repeat' first
    | with_reducible assumption | (intro _; try beta_reduce)
    | (with_reducible first | apply errorRate_evolves | apply mgmtFrameUp_evolves)
    | simp only [store_mk, store_eta] | split

theorem execMgmtFrameUp_evolves (h_bays : pm .bays = true) (h_ctxs : pm .ctxs = true) (h_srvs : pm .srvs = true)
    (h_stalls : pm .stalls = true) (h_txns : pm .txns = true) (h : Evolves pm a s.store) (b : Fin 12)
    (blocks : Option (List (BitVec 64))) (ok : Bool) {sx : State}
    (he : execMgmtFrameUp b blocks ok s = .next sx) :
    Evolves pm a sx.store := by
  unfold execMgmtFrameUp at he; rw [← Host.Outcome.next.inj he]
  repeat' first
    | with_reducible assumption | (intro _; try beta_reduce)
    | (with_reducible first | apply mgmtUp_evolves)
    | simp only [store_mk, store_eta] | split

theorem imgReplyTimeout_evolves (h_bays : pm .bays = true) (h_ctxs : pm .ctxs = true) (h_txns : pm .txns = true)
    (h : Evolves pm a s.store) (b : Fin 12) :
    Evolves pm a (imgReplyTimeout b s).store := by
  unfold imgReplyTimeout
  repeat' first
    | with_reducible assumption | (intro _; try beta_reduce) | (with_reducible first | apply pushOver_evolves)
    | simp only [store_mk, store_eta] | split

theorem execImgReplyTimeout_evolves (h_bays : pm .bays = true) (h_ctxs : pm .ctxs = true) (h_txns : pm .txns = true)
    (h : Evolves pm a s.store) (b : Fin 12) {sx : State} (he : execImgReplyTimeout b s = .next sx) :
    Evolves pm a sx.store := by
  unfold execImgReplyTimeout at he; rw [← Host.Outcome.next.inj he]
  repeat' first | with_reducible assumption | (with_reducible first | apply imgReplyTimeout_evolves)

theorem opImgActivate_evolves (h_bays : pm .bays = true) (h_ctxs : pm .ctxs = true) (h_txns : pm .txns = true)
    (h : Evolves pm a s.store) (c : Fin 256) (d : Desc) :
    Evolves pm a (opImgActivate c d s).store := by
  unfold opImgActivate; try dsimp only
  repeat' first
    | with_reducible assumption | (intro _; try beta_reduce)
    | (with_reducible first | apply ite_evolves | apply activateReady_evolves | apply blockCheck_evolves | apply formatZero_evolves | apply pushStart_evolves)
    | (with_reducible first | apply stageFormat_evolves | apply stageOpen_evolves) | simp only [store_mk, store_eta]
    | split

theorem execImgActivate_evolves (h_bays : pm .bays = true) (h_ctxs : pm .ctxs = true) (h_txns : pm .txns = true)
    (h : Evolves pm a s.store) (c : Fin 256) {sx : State} (he : execImgActivate c s = .next sx) :
    Evolves pm a sx.store := by
  unfold execImgActivate at he; rw [← Host.Outcome.next.inj he]
  repeat' first
    | with_reducible assumption | (intro _; try beta_reduce)
    | (with_reducible first | apply opImgActivate_evolves | apply withDesc_evolves)

theorem activateStep_evolves (h_bays : pm .bays = true) (h_ctxs : pm .ctxs = true) (h_imgs : pm .imgs = true)
    (h : Evolves pm a s.store) :
    Evolves pm a (activateStep s).store := by
  unfold activateStep; try dsimp only
  repeat' first
    | with_reducible assumption | (intro _; try beta_reduce)
    | (with_reducible first | apply ite_evolves | apply foldl_evolves | apply complete_evolves | apply dropPushes_evolves | apply imgApply_evolves)
    | simp only [store_mk, store_eta] | split

theorem enterRecovery_evolves (h_stalls : pm .stalls = true) (h : Evolves pm a s.store) (cause : Nat) :
    Evolves pm a (enterRecovery cause s).store := by
  unfold enterRecovery; try dsimp only
  repeat' first
    | with_reducible assumption | (intro _; try beta_reduce)
    | (with_reducible first | apply clrF_evolves | apply inhibitOn_evolves | apply lifeAdd_evolves | apply put_evolves)
    | simp only [store_mk, store_eta] | split

theorem trialPassed_evolves (h_imgs : pm .imgs = true) (h : Evolves pm a s.store) :
    Evolves pm a (trialPassed s).store := by
  unfold trialPassed; try dsimp only
  repeat' first
    | with_reducible assumption | (intro _; try beta_reduce)
    | (with_reducible first | apply ite_evolves | apply raiseMin_evolves | apply setImg_evolves)
    | simp only [store_mk, store_eta] | split

theorem mgmtReady_evolves (h_imgs : pm .imgs = true) (h : Evolves pm a s.store) :
    Evolves pm a (mgmtReady s).store := by
  unfold mgmtReady; try dsimp only
  repeat' first
    | with_reducible assumption
    | (with_reducible first | apply ite_evolves | apply clrF_evolves | apply put_evolves | apply setF_evolves | apply trialPassed_evolves)
    | simp only [store_mk, store_eta]

theorem execMgmtReady_evolves (h_imgs : pm .imgs = true) (h : Evolves pm a s.store) {sx : State}
    (he : execMgmtReady s = .next sx) :
    Evolves pm a sx.store := by
  unfold execMgmtReady at he; rw [← Host.Outcome.next.inj he]
  repeat' first | with_reducible assumption | (with_reducible first | apply mgmtReady_evolves)

theorem fallBackTo_evolves (h_imgs : pm .imgs = true) (h_stalls : pm .stalls = true) (h : Evolves pm a s.store)
    (k : Fin 2) :
    Evolves pm a (fallBackTo k s).store := by
  unfold fallBackTo; try dsimp only
  repeat' first
    | with_reducible assumption | (intro _; try beta_reduce)
    | (with_reducible first | apply ite_evolves | apply enterRecovery_evolves | apply lifeAdd_evolves | apply mgmtRestart_evolves | apply setF_evolves | apply setImg_evolves)
    | simp only [store_mk, store_eta] | split

theorem readyTimeout_evolves (h_imgs : pm .imgs = true) (h_stalls : pm .stalls = true) (h : Evolves pm a s.store) :
    Evolves pm a (readyTimeout s).store := by
  unfold readyTimeout; try dsimp only
  repeat' first
    | with_reducible assumption | (intro _; try beta_reduce)
    | (with_reducible first | apply ite_evolves | apply addSatF_evolves | apply fallBackTo_evolves | apply mgmtRestart_evolves)
    | simp only [store_mk, store_eta] | split

theorem execReadyTimeout_evolves (h_imgs : pm .imgs = true) (h_stalls : pm .stalls = true)
    (h : Evolves pm a s.store) {sx : State} (he : execReadyTimeout s = .next sx) :
    Evolves pm a sx.store := by
  unfold execReadyTimeout at he; rw [← Host.Outcome.next.inj he]
  repeat' first
    | with_reducible assumption | (intro _; try beta_reduce)
    | (with_reducible first | apply readyTimeout_evolves)
    | simp only [store_mk, store_eta] | split

theorem recoveryInstall_evolves (h_imgs : pm .imgs = true) (h : Evolves pm a s.store) (type : Nat) (l : List Byte) :
    Evolves pm a (recoveryInstall type l s).store := by
  unfold recoveryInstall; try dsimp only
  repeat' first
    | with_reducible assumption | (intro _; try beta_reduce)
    | (with_reducible first | apply ite_evolves | apply eraseSlot_evolves | apply setImg_evolves)
    | simp only [store_mk, store_eta] | split

theorem recoveryImage_evolves (h_imgs : pm .imgs = true) (h : Evolves pm a s.store) (type : Nat) (l : List Byte)
    (sig : Bool) (hash : Bool) :
    Evolves pm a (recoveryImage type l sig hash s).2.store := by
  unfold recoveryImage; try dsimp only
  repeat' first
    | with_reducible assumption
    | (with_reducible first | apply ite_evolves | apply authFail_evolves | apply recoveryInstall_evolves) | split

theorem recoveryImage_evolves' {pm : Part → Bool} {a : Store} {sv : State} {xo : Nat} {s : State} {h_imgs : pm .imgs = true}  {type : Nat} {l : List Byte} {sig : Bool} {hash : Bool} (e : recoveryImage type l sig hash s = (xo, sv)) (h : Evolves pm a s.store) : Evolves pm a sv.store := by
  have := recoveryImage_evolves h_imgs h type l sig hash
  rw [e] at this; exact this

theorem bootRefused_evolves (h : Evolves pm a s.store) : Evolves pm a (bootRefused s).store := by
  unfold bootRefused
  repeat' first | with_reducible assumption | (with_reducible first | apply setF_evolves)

theorem recoveryLoad_evolves (h_imgs : pm .imgs = true) (h : Evolves pm a s.store) (r : DmaIn) (sig : Bool)
    (hash : Bool) :
    Evolves pm a (recoveryLoad r sig hash s).store := by
  unfold recoveryLoad; try dsimp only
  repeat' first
    | with_reducible assumption
    | (with_reducible first | apply ite_evolves | apply bootRefused_evolves | apply recoveryImage_evolves | apply wrN_evolves | apply (recoveryImage_evolves' (by with_reducible assumption)))
    | simp only [store_mk, store_eta] | split

theorem execRecoveryLoad_evolves (h_imgs : pm .imgs = true) (h : Evolves pm a s.store) (sec : Bool) (r : DmaIn)
    (sigOk : Bool) (hashOk : Bool) {sx : State} (he : execRecoveryLoad sec r sigOk hashOk s = .next sx) :
    Evolves pm a sx.store := by
  unfold execRecoveryLoad at he; rw [← Host.Outcome.next.inj he]
  repeat' first
    | with_reducible assumption | (intro _; try beta_reduce)
    | (with_reducible first | apply hostWrite_evolves | apply recoveryLoad_evolves)

theorem uartSay_evolves (h : Evolves pm a s.store) (b : Nat) : Evolves pm a (uartSay b s).store := by
  unfold uartSay
  repeat' first | with_reducible assumption | (with_reducible first | apply emit_evolves)

theorem uartFrame_evolves (h_imgs : pm .imgs = true) (h : Evolves pm a s.store) (f : List Byte) (sig : Bool)
    (hash : Bool) :
    Evolves pm a (uartFrame f sig hash s).store := by
  unfold uartFrame; try dsimp only
  repeat' first
    | with_reducible assumption | (intro _; try beta_reduce)
    | (with_reducible first | apply ite_evolves | apply recoveryImage_evolves | apply uartSay_evolves | apply (recoveryImage_evolves' (by with_reducible assumption)))
    | simp only [store_mk, store_eta] | split

theorem execUartFrame_evolves (h_imgs : pm .imgs = true) (h : Evolves pm a s.store) (frame : List Byte)
    (sigOk : Bool) (hashOk : Bool) {sx : State} (he : execUartFrame frame sigOk hashOk s = .next sx) :
    Evolves pm a sx.store := by
  unfold execUartFrame at he; rw [← Host.Outcome.next.inj he]
  repeat' first | with_reducible assumption | (with_reducible first | apply uartFrame_evolves)

theorem bootConfigWrite_evolves (h : Evolves pm a s.store) (sec : Bool) (r : Fin 4) (w : Wr64) :
    Evolves pm a (bootConfigWrite sec r w s).store := by
  unfold bootConfigWrite; try dsimp only
  repeat' first
    | with_reducible assumption | (intro _; try beta_reduce)
    | (with_reducible first | apply ite_evolves | apply bootRefused_evolves | apply cfgWrite_evolves | apply hostWrite_evolves | apply withWide_evolves)
    | (with_reducible first | apply wr64_evolves | apply wrN_evolves) | simp only [store_mk, store_eta] | split

theorem execBootConfigWrite_evolves (h : Evolves pm a s.store) (sec : Bool) (r : Fin 4) (w : Wr64) {sx : State}
    (he : execBootConfigWrite sec r w s = .next sx) :
    Evolves pm a sx.store := by
  unfold execBootConfigWrite at he; rw [← Host.Outcome.next.inj he]
  repeat' first | with_reducible assumption | (with_reducible first | apply bootConfigWrite_evolves)

end Machine
end Sys2Proof
end

