-- ==== Sys2Proof/Laws/EvolvesRecords.lean ====
section
/-!
SUPPORT. Every operation of Records.lean is an evolution (Laws/Evolves.lean).
-/
namespace Sys2Proof
namespace Machine

variable {pm : Part → Bool} {a : Store} {s : State}

theorem recStore_evolves (h : Evolves pm a s.store) (r : EvRec) : Evolves pm a (recStore s r).store := by
  unfold recStore; try dsimp only
  repeat' first
    | with_reducible assumption
    | (with_reducible first | apply ite_evolves | apply addSat_evolves | apply addW_evolves | apply lifeAdd_evolves)
    | simp only [store_mk, store_eta]

theorem recFlush_evolves (h : Evolves pm a s.store) : Evolves pm a (recFlush s).store := by
  unfold recFlush; try dsimp only
  repeat' first
    | with_reducible assumption | (intro _; try beta_reduce)
    | (with_reducible first | apply ite_evolves | apply foldl_evolves | apply raise_evolves | apply recStore_evolves)
    | simp only [store_mk, store_eta]

theorem recorderFlush_evolves (h : Evolves pm a s.store) :
    Evolves pm a (recorderFlush s).store := by
  unfold recorderFlush; try dsimp only
  repeat' first
    | with_reducible assumption | (intro _; try beta_reduce)
    | (with_reducible first | apply ite_evolves | apply recFlush_evolves)
    | simp only [store_mk, store_eta] | split

theorem execRecorderFlush_evolves (h : Evolves pm a s.store) {sx : State} (he : execRecorderFlush s = .next sx) :
    Evolves pm a sx.store := by
  unfold execRecorderFlush at he; rw [← Host.Outcome.next.inj he]
  repeat' first
    | with_reducible assumption | (intro _; try beta_reduce)
    | (with_reducible first | apply recorderFlush_evolves)
    | simp only [store_mk, store_eta] | split

theorem lifeSave_evolves (h : Evolves pm a s.store) (ok : Bool) : Evolves pm a (lifeSave ok s).store := by
  unfold lifeSave; try dsimp only
  repeat' first
    | with_reducible assumption
    | (with_reducible first | apply ite_evolves | apply clrF_evolves | apply lifeAdd_evolves | apply raise_evolves | apply recFlush_evolves)
    | (with_reducible first | apply setF_evolves | apply wrN_evolves) | simp only [store_mk, store_eta]

theorem lifeAsk_evolves (h : Evolves pm a s.store) (ok : Bool) : Evolves pm a (lifeAsk ok s).store := by
  unfold lifeAsk
  repeat' first
    | with_reducible assumption
    | (with_reducible first | apply ite_evolves | apply lifeSave_evolves | apply setF_evolves)

theorem execLifetimeSave_evolves (h : Evolves pm a s.store) (sec : Bool) (ok : Bool) {sx : State}
    (he : execLifetimeSave sec ok s = .next sx) :
    Evolves pm a sx.store := by
  unfold execLifetimeSave at he; rw [← Host.Outcome.next.inj he]
  repeat' first
    | with_reducible assumption | (intro _; try beta_reduce)
    | (with_reducible first | apply hostWrite_evolves | apply lifeAsk_evolves)

theorem execPeriodicSave_evolves (h : Evolves pm a s.store) (ok : Bool) {sx : State}
    (he : execPeriodicSave ok s = .next sx) :
    Evolves pm a sx.store := by
  unfold execPeriodicSave at he; rw [← Host.Outcome.next.inj he]
  repeat' first | with_reducible assumption | (with_reducible first | apply ite_evolves | apply lifeAsk_evolves)

theorem execOperatingSecond_evolves (h : Evolves pm a s.store) {sx : State} (he : execOperatingSecond s = .next sx) :
    Evolves pm a sx.store := by
  unfold execOperatingSecond at he; rw [← Host.Outcome.next.inj he]
  repeat' first | with_reducible assumption | (with_reducible first | apply addW_evolves)

theorem powerFailWarning_evolves (h : Evolves pm a s.store) (ok : Bool) :
    Evolves pm a (powerFailWarning ok s).store := by
  unfold powerFailWarning; try dsimp only
  repeat' first
    | with_reducible assumption
    | (with_reducible first | apply clrF_evolves | apply lifeAdd_evolves | apply lifeSave_evolves | apply raise_evolves | apply recNew_evolves)
    | (with_reducible first | apply setF_evolves) | simp only [store_mk, store_eta]

theorem execPowerFailWarning_evolves (h : Evolves pm a s.store) (ok : Bool) {sx : State}
    (he : execPowerFailWarning ok s = .next sx) :
    Evolves pm a sx.store := by
  unfold execPowerFailWarning at he; rw [← Host.Outcome.next.inj he]
  repeat' first | with_reducible assumption | (with_reducible first | apply powerFailWarning_evolves)

theorem inPlaceCopyDone_evolves (h_imgs : pm .imgs = true) (h : Evolves pm a s.store) :
    Evolves pm a (inPlaceCopyDone s).store := by
  unfold inPlaceCopyDone; try dsimp only
  repeat' first
    | with_reducible assumption | (intro _; try beta_reduce)
    | (with_reducible first | apply ite_evolves | apply evalUpdate_evolves | apply lifeSave_evolves | apply setImg_evolves)
    | simp only [store_mk, store_eta] | split

theorem execInPlaceCopyDone_evolves (h_imgs : pm .imgs = true) (h : Evolves pm a s.store) {sx : State}
    (he : execInPlaceCopyDone s = .next sx) :
    Evolves pm a sx.store := by
  unfold execInPlaceCopyDone at he; rw [← Host.Outcome.next.inj he]
  repeat' first | with_reducible assumption | (with_reducible first | apply inPlaceCopyDone_evolves)

end Machine
end Sys2Proof
end

