-- ==== Sys2Proof/Laws/EvolvesGate.lean ====
section
/-!
SUPPORT. Every operation of Gate.lean is an evolution (Laws/Evolves.lean).
-/
namespace Sys2Proof
namespace Machine

variable {pm : Part → Bool} {a : Store} {s : State}

theorem tellCommit_evolves (h_ctxs : pm .ctxs = true) (h : Evolves pm a s.store) (t : Txn) (o : Nat)
    (w : Nat × Nat × Bool) :
    Evolves pm a (tellCommit t o s w).store := by
  unfold tellCommit
  repeat' first
    | with_reducible assumption | (with_reducible first | apply ite_evolves | apply complete_evolves) | split

theorem tellAbort_evolves (h_ctxs : pm .ctxs = true) (h : Evolves pm a s.store) (o : Nat) (w : Nat × Nat) :
    Evolves pm a (tellAbort o s w).store := by
  unfold tellAbort
  repeat' first
    | with_reducible assumption | (with_reducible first | apply ite_evolves | apply complete_evolves) | split

theorem endReserves_evolves (h_axes : pm .axes = true) (h_bays : pm .bays = true) (h_ctxs : pm .ctxs = true)
    (h : Evolves pm a s.store) (aborted : Bool) (t : Txn) :
    Evolves pm a (endReserves aborted t s).store := by
  unfold endReserves
  repeat' first
    | with_reducible assumption | (intro _; try beta_reduce)
    | (with_reducible first | apply ite_evolves | apply foldl_evolves | apply dropPushes_evolves | apply endReserve_evolves)
    | simp only [store_mk, store_eta] | split

theorem txnDone_evolves (h_axes : pm .axes = true) (h_bays : pm .bays = true) (h_ctxs : pm .ctxs = true)
    (h_txns : pm .txns = true) (h : Evolves pm a s.store) (i : Fin 64) (o : Nat) :
    Evolves pm a (txnDone i o s).store := by
  unfold txnDone; try dsimp only
  repeat' first
    | with_reducible assumption | (intro _; try beta_reduce)
    | (with_reducible first | apply foldl_evolves | apply endReserves_evolves | apply setTxn_evolves | apply tellAbort_evolves | apply tellCommit_evolves)
    | simp only [store_mk, store_eta]

theorem noteAbort_evolves (h : Evolves pm a s.store) (i : Fin 64) (o : Nat) :
    Evolves pm a (noteAbort i o s).store := by
  unfold noteAbort; try dsimp only
  repeat' first
    | with_reducible assumption
    | (with_reducible first | apply addW_evolves | apply lifeAdd_evolves | apply raise_evolves | apply setF_evolves | apply wr64_evolves)

theorem txnAbort_evolves (h_axes : pm .axes = true) (h_bays : pm .bays = true) (h_ctxs : pm .ctxs = true)
    (h_txns : pm .txns = true) (h : Evolves pm a s.store) (i : Fin 64) (o : Nat) :
    Evolves pm a (txnAbort i o s).store := by
  unfold txnAbort
  repeat' first | with_reducible assumption | (with_reducible first | apply noteAbort_evolves | apply txnDone_evolves)

theorem seamAhead_evolves (h_seams : pm .seams = true) (h_stalls : pm .stalls = true) (h : Evolves pm a s.store) :
    Evolves pm a (seamAhead s).store := by
  unfold seamAhead; try dsimp only
  repeat' first
    | with_reducible assumption | (intro _; try beta_reduce)
    | (with_reducible first | apply ite_evolves | apply forAll_evolves | apply foldl_evolves | apply carryMove_evolves | apply setF_evolves)
    | simp only [store_mk, store_eta] | split

theorem openDetail_evolves (h : Evolves pm a s.store) (d : Nat) : Evolves pm a (openDetail d s).2.store := by
  unfold openDetail; try dsimp only
  repeat' first
    | with_reducible assumption
    | (with_reducible first | apply ite_evolves | apply draw_evolves | apply (draw_evolves' (by with_reducible assumption)))
    | split

theorem openDetail_evolves' {pm : Part → Bool} {a : Store} {sv : State} {xo : Nat} {s : State}  {d : Nat} (e : openDetail d s = (xo, sv)) (h : Evolves pm a s.store) : Evolves pm a sv.store := by
  have := openDetail_evolves  h d
  rw [e] at this; exact this

theorem gridsApplied_evolves (h : Evolves pm a s.store) (undo : Bool) (two : Bool) (g : Fin 48) (o : Nat) :
    Evolves pm a (gridsApplied undo two g o s).store := by
  unfold gridsApplied; try dsimp only
  repeat' first
    | with_reducible assumption | (intro _; try beta_reduce)
    | (with_reducible first | apply ite_evolves | apply put_evolves | apply raise_evolves)
    | simp only [store_mk, store_eta] | split

theorem stallApply_evolves (h_fars : pm .fars = true) (h_stalls : pm .stalls = true) (h : Evolves pm a s.store)
    (undo : Bool) (g : Fin 48) (o : Nat) (r : Nat) (n : Nat) :
    Evolves pm a (stallApply undo g o r n s).store := by
  unfold stallApply; try dsimp only
  repeat' first
    | with_reducible assumption | (intro _; try beta_reduce)
    | (with_reducible first | apply ite_evolves | apply gridsApplied_evolves | apply hostTrim_evolves | apply latchSquash_evolves | apply replanIdle_evolves | apply setStall_evolves)
    | (with_reducible first | apply wrN_evolves)
    | simp only [store_mk, store_eta] | split

theorem cleTake_evolves (h : Evolves pm a s.store) (o : Nat) (n : Nat) :
    Evolves pm a (cleTake o n s).store := by
  unfold cleTake; try dsimp only
  repeat' first
    | with_reducible assumption | (intro _; try beta_reduce)
    | (with_reducible first | apply wrN_evolves)
    | simp only [store_mk, store_eta] | split

theorem bankApply_evolves (h_engs : pm .engs = true) (h : Evolves pm a s.store) (g : Fin 48) (n : Nat) :
    Evolves pm a (bankApply g n s).store := by
  unfold bankApply; try dsimp only
  repeat' first
    | with_reducible assumption | (intro _; try beta_reduce)
    | (with_reducible first | apply ite_evolves | apply clrF_evolves | apply put_evolves | apply setEng_evolves | apply setF_evolves | apply swapBank_evolves)
    | simp only [store_mk, store_eta] | split

theorem cleApply_evolves (h_engs : pm .engs = true) (h : Evolves pm a s.store) (g : Fin 48) (o : Nat) (r : Nat)
    (n : Nat) :
    Evolves pm a (cleApply g o r n s).store := by
  unfold cleApply; try dsimp only
  repeat' first
    | with_reducible assumption | (intro _; try beta_reduce)
    | (with_reducible first | apply ite_evolves | apply bankApply_evolves | apply cleTake_evolves | apply engClampKp_evolves | apply engClampKs_evolves | apply engEnable_evolves)
    | (with_reducible first | apply setEng_evolves | apply wrLater_evolves | apply wrN_evolves)
    | simp only [store_mk, store_eta] | split

theorem applyWrite_evolves (h_engs : pm .engs = true) (h_fars : pm .fars = true) (h_lamps : pm .lamps = true)
    (h_stalls : pm .stalls = true) (h : Evolves pm a s.store) (undo : Bool) (o : Nat) (n : Nat) (wide : Bool) :
    Evolves pm a (applyWrite undo o n wide s).store := by
  unfold applyWrite; try dsimp only
  repeat' first
    | with_reducible assumption | (intro _; try beta_reduce)
    | (with_reducible first | apply ite_evolves | apply cleApply_evolves | apply keepParams_evolves | apply lmpApply_evolves | apply seamResult_evolves | apply stallApply_evolves)
    | (with_reducible first | apply wide_evolves | apply (wide_evolves' (by with_reducible assumption)) | apply wr64_evolves | apply wrN_evolves)
    | simp only [store_mk, store_eta] | split

theorem acceptAct_evolves {pm : Part → Bool} {a : Store} {r : State × List Staged} (h_axes : pm .axes = true)
    (h_bays : pm .bays = true) (h_ctxs : pm .ctxs = true) (h_engs : pm .engs = true) (h_fars : pm .fars = true)
    (h_imgs : pm .imgs = true) (h_lamps : pm .lamps = true) (h_stalls : pm .stalls = true)
    (h : Evolves pm a r.1.store) (x : Staged) :
    Evolves pm a (acceptAct r x).1.store := by
  unfold acceptAct
  dsimp only
  split
  · exact applyWrite_evolves h_engs h_fars h_lamps h_stalls h _ _ _ _
  · dsimp only; split
    · exact releaseNow_evolves h_ctxs h_stalls h _
    · exact h
  · dsimp only; split
    · exact resumeNow_evolves h_stalls h _
    · exact h
  · dsimp only; split
    · exact startStaged_evolves h_axes h _ _ _
    · exact h
  · dsimp only; split
    · exact imgApply_evolves h_bays h_imgs h _ _
    · exact h

theorem acceptAll_evolves {pm : Part → Bool} {a : Store} {l : List Staged} {r : State × List Staged}
    (h_axes : pm .axes = true) (h_bays : pm .bays = true) (h_ctxs : pm .ctxs = true) (h_engs : pm .engs = true)
    (h_fars : pm .fars = true) (h_imgs : pm .imgs = true) (h_lamps : pm .lamps = true)
    (h_stalls : pm .stalls = true) (h : Evolves pm a r.1.store) :
    Evolves pm a (l.foldl acceptAct r).1.store := by
  induction l generalizing r with
  | nil => exact h
  | cons x t ih => exact ih (acceptAct_evolves h_axes h_bays h_ctxs h_engs h_fars h_imgs h_lamps h_stalls h x)

theorem txnCommitted_evolves (h_axes : pm .axes = true) (h_bays : pm .bays = true) (h_ctxs : pm .ctxs = true)
    (h_txns : pm .txns = true) (h : Evolves pm a s.store) (i : Fin 64) :
    Evolves pm a (txnCommitted i s).store := by
  unfold txnCommitted; try dsimp only
  repeat' first
    | with_reducible assumption
    | (with_reducible first | apply ite_evolves | apply addW_evolves | apply lifeAdd_evolves | apply lifeMax_evolves | apply raise_evolves)
    | (with_reducible first | apply txnDone_evolves | apply wrN_evolves)

theorem txnAccept_evolves {pm : Part → Bool} {a : Store} {s : State} (h_axes : pm .axes = true)
    (h_bays : pm .bays = true) (h_ctxs : pm .ctxs = true) (h_engs : pm .engs = true) (h_fars : pm .fars = true)
    (h_imgs : pm .imgs = true) (h_lamps : pm .lamps = true) (h_stalls : pm .stalls = true)
    (h_txns : pm .txns = true) (h : Evolves pm a s.store) (i : Fin 64) :
    Evolves pm a (txnAccept i s).store := by
  have h1 : Evolves pm a ((txn s i).acts.foldl acceptAct (s, [])).1.store := acceptAll_evolves h_axes h_bays h_ctxs h_engs h_fars h_imgs h_lamps h_stalls h
  unfold txnAccept
  dsimp only
  repeat' first | with_reducible assumption |
    (with_reducible first | apply ite_evolves | apply txnCommitted_evolves h_axes h_bays h_ctxs h_txns | apply layerReleased_evolves | apply setTxn_evolves h_txns)

theorem tellSeam_evolves (h_seams : pm .seams = true) (h : Evolves pm a s.store) (aa : Act) (r : Nat) :
    Evolves pm a (tellSeam aa r s).store := by
  unfold tellSeam; try dsimp only
  repeat' first
    | with_reducible assumption | (intro _; try beta_reduce)
    | (with_reducible first | apply ite_evolves | apply refuseMove_evolves)
    | simp only [store_mk, store_eta] | split

theorem presentOne_evolves (h_axes : pm .axes = true) (h_bays : pm .bays = true) (h_ctxs : pm .ctxs = true)
    (h_engs : pm .engs = true) (h_fars : pm .fars = true) (h_imgs : pm .imgs = true) (h_lamps : pm .lamps = true)
    (h_seams : pm .seams = true) (h_stalls : pm .stalls = true) (h_txns : pm .txns = true)
    (h : Evolves pm a s.store) (i : Fin 64) :
    Evolves pm a (presentOne s i).store := by
  unfold presentOne; try dsimp only
  repeat' first
    | with_reducible assumption | (intro _; try beta_reduce)
    | (with_reducible first | apply ite_evolves | apply openDetail_evolves | apply (openDetail_evolves' (by with_reducible assumption)) | apply setTxn_evolves | apply tellSeam_evolves | apply txnAbort_evolves)
    | (with_reducible first | apply txnAccept_evolves)
    | simp only [store_mk, store_eta] | split

theorem presentAll_evolves (h_axes : pm .axes = true) (h_bays : pm .bays = true) (h_ctxs : pm .ctxs = true)
    (h_engs : pm .engs = true) (h_fars : pm .fars = true) (h_imgs : pm .imgs = true) (h_lamps : pm .lamps = true)
    (h_seams : pm .seams = true) (h_stalls : pm .stalls = true) (h_txns : pm .txns = true)
    (h : Evolves pm a s.store) :
    Evolves pm a (presentAll s).store := by
  unfold presentAll; try dsimp only
  repeat' first
    | with_reducible assumption | (intro _; try beta_reduce)
    | (with_reducible first | apply foldl_evolves | apply presentOne_evolves)
    | simp only [store_mk, store_eta] | split

theorem execTxnPresent_evolves (h_axes : pm .axes = true) (h_bays : pm .bays = true) (h_ctxs : pm .ctxs = true)
    (h_engs : pm .engs = true) (h_fars : pm .fars = true) (h_imgs : pm .imgs = true) (h_lamps : pm .lamps = true)
    (h_seams : pm .seams = true) (h_stalls : pm .stalls = true) (h_txns : pm .txns = true)
    (h : Evolves pm a s.store) {sx : State} (he : execTxnPresent s = .next sx) :
    Evolves pm a sx.store := by
  unfold execTxnPresent at he; rw [← Host.Outcome.next.inj he]
  repeat' first
    | with_reducible assumption | (intro _; try beta_reduce)
    | (with_reducible first | apply presentAll_evolves)
    | simp only [store_mk, store_eta] | split

theorem settleOne_evolves (h_axes : pm .axes = true) (h_bays : pm .bays = true) (h_ctxs : pm .ctxs = true)
    (h_txns : pm .txns = true) (h : Evolves pm a s.store) (i : Fin 64) :
    Evolves pm a (settleOne i s).store := by
  unfold settleOne; try dsimp only
  repeat' first
    | with_reducible assumption | (intro _; try beta_reduce)
    | (with_reducible first | apply ite_evolves | apply setTxn_evolves | apply txnCommitted_evolves)
    | simp only [store_mk, store_eta]

theorem settleAll_evolves (h_axes : pm .axes = true) (h_bays : pm .bays = true) (h_ctxs : pm .ctxs = true)
    (h_txns : pm .txns = true) (h : Evolves pm a s.store) :
    Evolves pm a (settleAll s).store := by
  unfold settleAll
  repeat' first
    | with_reducible assumption | (intro _; try beta_reduce)
    | (with_reducible first | apply forAll_evolves | apply settleOne_evolves)

theorem execParticipantSettle_evolves (h_axes : pm .axes = true) (h_bays : pm .bays = true)
    (h_ctxs : pm .ctxs = true) (h_txns : pm .txns = true) (h : Evolves pm a s.store) {sx : State}
    (he : execParticipantSettle s = .next sx) :
    Evolves pm a sx.store := by
  unfold execParticipantSettle at he; rw [← Host.Outcome.next.inj he]
  repeat' first | with_reducible assumption | (with_reducible first | apply settleAll_evolves)

theorem undoActs_evolves {pm : Part → Bool} {a : Store} {s : State} (h_engs : pm .engs = true) (h_fars : pm .fars = true) (h_lamps : pm .lamps = true)
    (h_stalls : pm .stalls = true) (h : Evolves pm a s.store) (all : List Staged) (y0 : List Staged) :
    Evolves pm a (undoActs all y0 s).store := by
  induction y0 generalizing s with
  | nil => unfold undoActs; assumption
  | cons b l ih =>
    unfold undoActs; try dsimp only
    repeat' first
      | with_reducible assumption | (intro _; try beta_reduce)
      | (with_reducible first | apply ite_evolves | apply addW_evolves | apply applyWrite_evolves | apply lifeAdd_evolves | apply wide_evolves | apply (wide_evolves' (by with_reducible assumption)))
      | (with_reducible apply ih) | simp only [store_mk, store_eta] | split

theorem txnUndo_evolves (h_axes : pm .axes = true) (h_bays : pm .bays = true) (h_ctxs : pm .ctxs = true)
    (h_engs : pm .engs = true) (h_fars : pm .fars = true) (h_lamps : pm .lamps = true)
    (h_stalls : pm .stalls = true) (h_txns : pm .txns = true) (h : Evolves pm a s.store) (i : Fin 64) (o : Nat) :
    Evolves pm a (txnUndo i o s).store := by
  unfold txnUndo; try dsimp only
  repeat' first
    | with_reducible assumption
    | (with_reducible first | apply addW_evolves | apply lifeAdd_evolves | apply raise_evolves | apply setF_evolves | apply txnAbort_evolves)
    | (with_reducible first | apply undoActs_evolves)

theorem undoAsked_evolves (h_axes : pm .axes = true) (h_bays : pm .bays = true) (h_ctxs : pm .ctxs = true)
    (h_engs : pm .engs = true) (h_fars : pm .fars = true) (h_lamps : pm .lamps = true)
    (h_stalls : pm .stalls = true) (h_txns : pm .txns = true) (h : Evolves pm a s.store) (i : Fin 64) :
    Evolves pm a (undoAsked i s).store := by
  unfold undoAsked; try dsimp only
  repeat' first
    | with_reducible assumption | (intro _; try beta_reduce)
    | (with_reducible first | apply ite_evolves | apply setTxn_evolves | apply txnUndo_evolves)
    | simp only [store_mk, store_eta] | split

theorem undoLate_evolves (h_axes : pm .axes = true) (h_bays : pm .bays = true) (h_ctxs : pm .ctxs = true)
    (h_engs : pm .engs = true) (h_fars : pm .fars = true) (h_lamps : pm .lamps = true)
    (h_stalls : pm .stalls = true) (h_txns : pm .txns = true) (h : Evolves pm a s.store) (i : Fin 64) :
    Evolves pm a (undoLate i s).store := by
  unfold undoLate; try dsimp only
  repeat' first | with_reducible assumption | (with_reducible first | apply ite_evolves | apply txnUndo_evolves)

theorem execCommitTimeout_evolves (h_axes : pm .axes = true) (h_bays : pm .bays = true) (h_ctxs : pm .ctxs = true)
    (h_engs : pm .engs = true) (h_fars : pm .fars = true) (h_lamps : pm .lamps = true)
    (h_stalls : pm .stalls = true) (h_txns : pm .txns = true) (h : Evolves pm a s.store) {sx : State}
    (he : execCommitTimeout s = .next sx) :
    Evolves pm a sx.store := by
  unfold execCommitTimeout at he; rw [← Host.Outcome.next.inj he]
  repeat' first
    | with_reducible assumption | (intro _; try beta_reduce)
    | (with_reducible first | apply forAll_evolves | apply undoLate_evolves)

theorem expireOne_evolves (h_axes : pm .axes = true) (h_bays : pm .bays = true) (h_ctxs : pm .ctxs = true)
    (h_txns : pm .txns = true) (h : Evolves pm a s.store) (i : Fin 64) :
    Evolves pm a (expireOne i s).store := by
  unfold expireOne; try dsimp only
  repeat' first | with_reducible assumption | (with_reducible first | apply ite_evolves | apply txnAbort_evolves)

theorem expireAll_evolves (h_axes : pm .axes = true) (h_bays : pm .bays = true) (h_ctxs : pm .ctxs = true)
    (h_txns : pm .txns = true) (h : Evolves pm a s.store) :
    Evolves pm a (expireAll s).store := by
  unfold expireAll
  repeat' first
    | with_reducible assumption | (intro _; try beta_reduce)
    | (with_reducible first | apply forAll_evolves | apply expireOne_evolves)

theorem execTxnExpire_evolves (h_axes : pm .axes = true) (h_bays : pm .bays = true) (h_ctxs : pm .ctxs = true)
    (h_txns : pm .txns = true) (h : Evolves pm a s.store) {sx : State} (he : execTxnExpire s = .next sx) :
    Evolves pm a sx.store := by
  unfold execTxnExpire at he; rw [← Host.Outcome.next.inj he]
  repeat' first | with_reducible assumption | (with_reducible first | apply expireAll_evolves)

theorem gateStep_evolves (h_axes : pm .axes = true) (h_bays : pm .bays = true) (h_ctxs : pm .ctxs = true)
    (h_engs : pm .engs = true) (h_fars : pm .fars = true) (h_imgs : pm .imgs = true) (h_lamps : pm .lamps = true)
    (h_seams : pm .seams = true) (h_stalls : pm .stalls = true) (h_txns : pm .txns = true)
    (h : Evolves pm a s.store) :
    Evolves pm a (gateStep s).store := by
  unfold gateStep; try dsimp only
  repeat' first
    | with_reducible assumption | (intro _; try beta_reduce)
    | (with_reducible first | apply forAll_evolves | apply activateStep_evolves | apply expireAll_evolves | apply presentAll_evolves | apply settleAll_evolves | apply undoAsked_evolves)
    | (with_reducible first | apply undoLate_evolves)
    | simp only [store_mk, store_eta] | split

theorem withGate_evolves (h_ctxs : pm .ctxs = true) (h : Evolves pm a s.store) (c : Fin 256) (op : Nat)
    (k : Desc → State → State) (hk : ∀ x0 u, Evolves pm a u.store → Evolves pm a (k x0 u).store) :
    Evolves pm a (withGate c op k s).store := by
  unfold withGate
  repeat' first
    | with_reducible assumption | (intro _; try beta_reduce)
    | (with_reducible first | apply blockCheck_evolves | apply withDesc_evolves | apply hk)

theorem openId_evolves (h_ctxs : pm .ctxs = true) (h_txns : pm .txns = true) (h : Evolves pm a s.store)
    (c : Fin 256) (d : Desc) :
    Evolves pm a (openId c d s).store := by
  unfold openId; try dsimp only
  repeat' first
    | with_reducible assumption | (intro _; try beta_reduce)
    | (with_reducible first | apply ite_evolves | apply complete_evolves | apply setTxn_evolves)
    | simp only [store_mk, store_eta]

theorem opTxnOpen_evolves (h_ctxs : pm .ctxs = true) (h_txns : pm .txns = true) (h : Evolves pm a s.store)
    (c : Fin 256) (d : Desc) :
    Evolves pm a (opTxnOpen c d s).store := by
  unfold opTxnOpen
  repeat' first
    | with_reducible assumption
    | (with_reducible first | apply ite_evolves | apply formatZero_evolves | apply openId_evolves)

theorem execTxnOpen_evolves (h_ctxs : pm .ctxs = true) (h_txns : pm .txns = true) (h : Evolves pm a s.store)
    (c : Fin 256) {sx : State} (he : execTxnOpen c s = .next sx) :
    Evolves pm a sx.store := by
  unfold execTxnOpen at he; rw [← Host.Outcome.next.inj he]
  repeat' first
    | with_reducible assumption | (intro _; try beta_reduce)
    | (with_reducible first | apply ite_evolves | apply opTxnOpen_evolves | apply openId_evolves | apply withGate_evolves)
    | simp only [store_mk, store_eta] | split

theorem opTxnWrite_evolves (h_ctxs : pm .ctxs = true) (h_txns : pm .txns = true) (h : Evolves pm a s.store)
    (c : Fin 256) (r : DmaIn) (d : Desc) :
    Evolves pm a (opTxnWrite c r d s).store := by
  unfold opTxnWrite; try dsimp only
  repeat' first
    | with_reducible assumption | (intro _; try beta_reduce)
    | (with_reducible first | apply ite_evolves | apply complete_evolves | apply doom_evolves | apply formatZero_evolves | apply payloadFail_evolves)
    | (with_reducible first | apply stageActs_evolves | apply stageFormat_evolves | apply stageOpen_evolves)
    | simp only [store_mk, store_eta] | split | dsimp only [id]

theorem execTxnWrite_evolves (h_ctxs : pm .ctxs = true) (h_txns : pm .txns = true) (h : Evolves pm a s.store)
    (c : Fin 256) (r : DmaIn) {sx : State} (he : execTxnWrite c r s = .next sx) :
    Evolves pm a sx.store := by
  unfold execTxnWrite at he; rw [← Host.Outcome.next.inj he]
  repeat' first
    | with_reducible assumption | (intro _; try beta_reduce)
    | (with_reducible first | apply opTxnWrite_evolves | apply withDesc_evolves)

theorem commitOpen_evolves (h_axes : pm .axes = true) (h_bays : pm .bays = true) (h_ctxs : pm .ctxs = true)
    (h_txns : pm .txns = true) (h : Evolves pm a s.store) (c : Fin 256) (d : Desc) (i : Fin 64) :
    Evolves pm a (commitOpen c d i s).store := by
  unfold commitOpen; try dsimp only
  repeat' first
    | with_reducible assumption | (intro _; try beta_reduce)
    | (with_reducible first | apply ite_evolves | apply setTxn_evolves | apply txnAbort_evolves)
    | simp only [store_mk, store_eta]

theorem opTxnCommit_evolves (h_axes : pm .axes = true) (h_bays : pm .bays = true) (h_ctxs : pm .ctxs = true)
    (h_txns : pm .txns = true) (h : Evolves pm a s.store) (c : Fin 256) (d : Desc) :
    Evolves pm a (opTxnCommit c d s).store := by
  unfold opTxnCommit; try dsimp only
  repeat' first
    | with_reducible assumption | (intro _; try beta_reduce)
    | (with_reducible first | apply ite_evolves | apply commitOpen_evolves | apply complete_evolves | apply formatZero_evolves | apply setTxn_evolves)
    | (with_reducible first | apply tellCommit_evolves) | simp only [store_mk, store_eta] | split

theorem execTxnCommit_evolves (h_axes : pm .axes = true) (h_bays : pm .bays = true) (h_ctxs : pm .ctxs = true)
    (h_txns : pm .txns = true) (h : Evolves pm a s.store) (c : Fin 256) {sx : State}
    (he : execTxnCommit c s = .next sx) :
    Evolves pm a sx.store := by
  unfold execTxnCommit at he; rw [← Host.Outcome.next.inj he]
  repeat' first
    | with_reducible assumption | (intro _; try beta_reduce)
    | (with_reducible first | apply opTxnCommit_evolves | apply withGate_evolves)

theorem opTxnAbort_evolves (h_axes : pm .axes = true) (h_bays : pm .bays = true) (h_ctxs : pm .ctxs = true)
    (h_txns : pm .txns = true) (h : Evolves pm a s.store) (c : Fin 256) (d : Desc) :
    Evolves pm a (opTxnAbort c d s).store := by
  unfold opTxnAbort; try dsimp only
  repeat' first
    | with_reducible assumption | (intro _; try beta_reduce)
    | (with_reducible first | apply ite_evolves | apply complete_evolves | apply formatZero_evolves | apply setTxn_evolves | apply txnAbort_evolves)
    | simp only [store_mk, store_eta] | split

theorem execTxnAbort_evolves (h_axes : pm .axes = true) (h_bays : pm .bays = true) (h_ctxs : pm .ctxs = true)
    (h_txns : pm .txns = true) (h : Evolves pm a s.store) (c : Fin 256) {sx : State}
    (he : execTxnAbort c s = .next sx) :
    Evolves pm a sx.store := by
  unfold execTxnAbort at he; rw [← Host.Outcome.next.inj he]
  repeat' first
    | with_reducible assumption | (intro _; try beta_reduce)
    | (with_reducible first | apply opTxnAbort_evolves | apply withGate_evolves)

theorem opTxnQuery_evolves (h_ctxs : pm .ctxs = true) (h : Evolves pm a s.store) (c : Fin 256) (d : Desc) :
    Evolves pm a (opTxnQuery c d s).store := by
  unfold opTxnQuery
  repeat' first
    | with_reducible assumption
    | (with_reducible first | apply ite_evolves | apply complete_evolves | apply formatZero_evolves)

theorem execTxnQuery_evolves (h_ctxs : pm .ctxs = true) (h : Evolves pm a s.store) (c : Fin 256) {sx : State}
    (he : execTxnQuery c s = .next sx) :
    Evolves pm a sx.store := by
  unfold execTxnQuery at he; rw [← Host.Outcome.next.inj he]
  repeat' first
    | with_reducible assumption | (intro _; try beta_reduce)
    | (with_reducible first | apply opTxnQuery_evolves | apply withGate_evolves)

theorem gteConfigWrite_evolves (h : Evolves pm a s.store) (sec : Bool) (high : Bool) (v : Word) :
    Evolves pm a (gteConfigWrite sec high v s).store := by
  unfold gteConfigWrite; try dsimp only
  repeat' first
    | with_reducible assumption | (intro _; try beta_reduce)
    | (with_reducible first | apply ite_evolves | apply cfgWrite_evolves | apply setF_evolves | apply wrN_evolves)
    | split

theorem execGteConfigWrite_evolves (h : Evolves pm a s.store) (sec : Bool) (high : Bool) (v : Word) {sx : State}
    (he : execGteConfigWrite sec high v s = .next sx) :
    Evolves pm a sx.store := by
  unfold execGteConfigWrite at he; rw [← Host.Outcome.next.inj he]
  repeat' first | with_reducible assumption | (with_reducible first | apply gteConfigWrite_evolves)

end Machine
end Sys2Proof
end

