-- ==== Sys2Proof/Laws/EvolvesClocks.lean ====
section
/-!
SUPPORT. Every operation of Clocks.lean is an evolution (Laws/Evolves.lean).
-/
namespace Sys2Proof
namespace Machine

variable {pm : Part → Bool} {a : Store} {s : State}

theorem moveRoot_evolves (h : Evolves pm a s.store) (r : Nat) : Evolves pm a (moveRoot r s).store := by
  unfold moveRoot; try dsimp only
  repeat' first
    | with_reducible assumption
    | (with_reducible first | apply lifeAdd_evolves | apply put_evolves | apply raise_evolves | apply setF_evolves)

theorem safeFallback_evolves (h_stalls : pm .stalls = true) (h : Evolves pm a s.store) :
    Evolves pm a (safeFallback s).store := by
  unfold safeFallback; try dsimp only
  repeat' first
    | with_reducible assumption | (intro _; try beta_reduce)
    | (with_reducible first | apply inhibitOn_evolves | apply lifeAdd_evolves | apply put_evolves)
    | simp only [store_mk, store_eta] | split

theorem pullBack_evolves (h : Evolves pm a s.store) :
    Evolves pm a (pullBack s).store := by
  unfold pullBack; try dsimp only
  repeat' first
    | with_reducible assumption | (intro _; try beta_reduce)
    | (with_reducible first | apply put_evolves)
    | simp only [store_mk, store_eta] | split

theorem leaveRef_evolves (h_stalls : pm .stalls = true) (h : Evolves pm a s.store) :
    Evolves pm a (leaveRef s).store := by
  unfold leaveRef; try dsimp only
  repeat' first
    | with_reducible assumption | (intro _; try beta_reduce)
    | (with_reducible first | apply ite_evolves | apply moveRoot_evolves | apply pullBack_evolves | apply safeFallback_evolves)
    | simp only [store_mk, store_eta] | split

theorem refLost_evolves (h : Evolves pm a s.store) (r : Fin 4) : Evolves pm a (refLost r s).store := by
  unfold refLost; try dsimp only
  repeat' first
    | with_reducible assumption
    | (with_reducible first | apply ite_evolves | apply put_evolves | apply setF_evolves)
    | simp only [store_mk, store_eta]

theorem monitorTrip_evolves (h_stalls : pm .stalls = true) (h : Evolves pm a s.store) (r : Fin 4) (dev : Option Int) :
    Evolves pm a (monitorTrip r dev s).store := by
  unfold monitorTrip; try dsimp only
  repeat' first
    | with_reducible assumption | (intro _; try beta_reduce)
    | (with_reducible first | apply leaveRef_evolves | apply lifeAdd_evolves | apply raise_evolves | apply refLost_evolves | apply setF_evolves | apply wrN_evolves)
    | simp only [store_mk, store_eta] | split

theorem execReferenceMonitorTrip_evolves (h_stalls : pm .stalls = true) (h : Evolves pm a s.store) (r : Fin 4)
    (dev : Option Int) {sx : State} (he : execReferenceMonitorTrip r dev s = .next sx) :
    Evolves pm a sx.store := by
  unfold execReferenceMonitorTrip at he; rw [← Host.Outcome.next.inj he]
  repeat' first
    | with_reducible assumption | (intro _; try beta_reduce)
    | (with_reducible first | apply monitorTrip_evolves)
    | simp only [store_mk, store_eta] | split

theorem revertRoot_evolves (h : Evolves pm a s.store) :
    Evolves pm a (revertRoot s).store := by
  unfold revertRoot; try dsimp only
  repeat' first
    | with_reducible assumption | (intro _; try beta_reduce)
    | (with_reducible first | apply ite_evolves | apply moveRoot_evolves)
    | simp only [store_mk, store_eta] | split

theorem refQualified_evolves (h : Evolves pm a s.store) (r : Fin 4) :
    Evolves pm a (refQualified r s).store := by
  unfold refQualified; try dsimp only
  repeat' first
    | with_reducible assumption | (intro _; try beta_reduce)
    | (with_reducible first | apply ite_evolves | apply clrF_evolves | apply put_evolves | apply revertRoot_evolves)
    | simp only [store_mk, store_eta] | split

theorem execReferenceQualified_evolves (h : Evolves pm a s.store) (r : Fin 4) {sx : State}
    (he : execReferenceQualified r s = .next sx) :
    Evolves pm a sx.store := by
  unfold execReferenceQualified at he; rw [← Host.Outcome.next.inj he]
  repeat' first | with_reducible assumption | (with_reducible first | apply refQualified_evolves)

theorem switchRoot_evolves (h : Evolves pm a s.store) : Evolves pm a (switchRoot s).store := by
  unfold switchRoot
  repeat' first
    | with_reducible assumption
    | (with_reducible first | apply ite_evolves | apply moveRoot_evolves | apply setF_evolves)

theorem execSwitch_evolves (h : Evolves pm a s.store) (sec : Bool) {sx : State} (he : execSwitch sec s = .next sx) :
    Evolves pm a sx.store := by
  unfold execSwitch at he; rw [← Host.Outcome.next.inj he]
  repeat' first
    | with_reducible assumption | (intro _; try beta_reduce)
    | (with_reducible first | apply hostWrite_evolves | apply switchRoot_evolves)

theorem safeEnd_evolves (h : Evolves pm a s.store) :
    Evolves pm a (safeEnd s).store := by
  unfold safeEnd; try dsimp only
  repeat' first
    | with_reducible assumption | (intro _; try beta_reduce)
    | (with_reducible first | apply inhibitOff_evolves | apply lifeAdd_evolves | apply put_evolves | apply raise_evolves)
    | simp only [store_mk, store_eta] | split

theorem pullComplete_evolves (h : Evolves pm a s.store) :
    Evolves pm a (pullComplete s).store := by
  unfold pullComplete; try dsimp only
  repeat' first
    | with_reducible assumption | (intro _; try beta_reduce)
    | (with_reducible first | apply ite_evolves | apply inhibitOff_evolves | apply put_evolves | apply revertRoot_evolves | apply safeEnd_evolves)
    | simp only [store_mk, store_eta] | split

theorem execPullComplete_evolves (h : Evolves pm a s.store) {sx : State} (he : execPullComplete s = .next sx) :
    Evolves pm a sx.store := by
  unfold execPullComplete at he; rw [← Host.Outcome.next.inj he]
  repeat' first | with_reducible assumption | (with_reducible first | apply pullComplete_evolves)

theorem pllUnlock_evolves (h_stalls : pm .stalls = true) (h : Evolves pm a s.store) :
    Evolves pm a (pllUnlock s).store := by
  unfold pllUnlock; try dsimp only
  repeat' first
    | with_reducible assumption | (intro _; try beta_reduce)
    | (with_reducible first | apply ite_evolves | apply lifeAdd_evolves | apply raise_evolves | apply safeFallback_evolves | apply setF_evolves)
    | simp only [store_mk, store_eta] | split

theorem execPllUnlock_evolves (h_stalls : pm .stalls = true) (h : Evolves pm a s.store) {sx : State}
    (he : execPllUnlock s = .next sx) :
    Evolves pm a sx.store := by
  unfold execPllUnlock at he; rw [← Host.Outcome.next.inj he]
  repeat' first
    | with_reducible assumption | (intro _; try beta_reduce)
    | (with_reducible first | apply pllUnlock_evolves)
    | simp only [store_mk, store_eta] | split

theorem safeLeave_evolves (h : Evolves pm a s.store) :
    Evolves pm a (safeLeave s).store := by
  unfold safeLeave; try dsimp only
  repeat' first
    | with_reducible assumption | (intro _; try beta_reduce)
    | (with_reducible first | apply ite_evolves | apply pullBack_evolves)
    | simp only [store_mk, store_eta] | split

theorem safeExit_evolves (h : Evolves pm a s.store) :
    Evolves pm a (safeExit s).store := by
  unfold safeExit; try dsimp only
  repeat' first
    | with_reducible assumption | (intro _; try beta_reduce)
    | (with_reducible first | apply ite_evolves | apply safeEnd_evolves | apply safeLeave_evolves)
    | simp only [store_mk, store_eta] | split

theorem execSafeExit_evolves (h : Evolves pm a s.store) {sx : State} (he : execSafeExit s = .next sx) :
    Evolves pm a sx.store := by
  unfold execSafeExit at he; rw [← Host.Outcome.next.inj he]
  repeat' first | with_reducible assumption | (with_reducible first | apply safeExit_evolves)

theorem startTick_evolves (h_stalls : pm .stalls = true) (h : Evolves pm a s.store) (dt : Nat) :
    Evolves pm a (startTick dt s).store := by
  unfold startTick; try dsimp only
  repeat' first
    | with_reducible assumption | (intro _; try beta_reduce)
    | (with_reducible first | apply ite_evolves | apply inhibitOn_evolves | apply raise_evolves | apply setF_evolves)
    | simp only [store_mk, store_eta] | split

theorem clockTick_evolves (h_stalls : pm .stalls = true) (h : Evolves pm a s.store) (dt : Nat) :
    Evolves pm a (clockTick dt s).store := by
  unfold clockTick; try dsimp only
  repeat' first
    | with_reducible assumption | (intro _; try beta_reduce)
    | (with_reducible first | apply ite_evolves | apply add64_evolves | apply lifeTime_evolves | apply raise_evolves | apply safeLeave_evolves | apply setF_evolves)
    | (with_reducible first | apply startTick_evolves)
    | simp only [store_mk, store_eta] | split

theorem clockGate_evolves (h : Evolves pm a s.store) (u : Nat) (close : Bool) :
    Evolves pm a (clockGate u close s).store := by
  unfold clockGate; try dsimp only
  repeat' first
    | with_reducible assumption | (intro _; try beta_reduce)
    | (with_reducible first | apply ite_evolves | apply setF_evolves | apply ungate_evolves)
    | simp only [store_mk, store_eta] | split

theorem execClockGate_evolves (h : Evolves pm a s.store) (unit : Nat) (gate : Bool) {sx : State}
    (he : execClockGate unit gate s = .next sx) :
    Evolves pm a sx.store := by
  unfold execClockGate at he; rw [← Host.Outcome.next.inj he]
  repeat' first | with_reducible assumption | (with_reducible first | apply clockGate_evolves)

theorem ungateBusy_evolves (h : Evolves pm a s.store) :
    Evolves pm a (ungateBusy s).store := by
  unfold ungateBusy; try dsimp only
  repeat' first
    | with_reducible assumption | (intro _; try beta_reduce)
    | (with_reducible first | apply ite_evolves | apply foldl_evolves | apply ungate_evolves)
    | simp only [store_mk, store_eta] | split

theorem gateDenied_evolves (h : Evolves pm a s.store) (u : Nat) :
    Evolves pm a (gateDenied u s).store := by
  unfold gateDenied; try dsimp only
  repeat' first
    | with_reducible assumption | (intro _; try beta_reduce)
    | (with_reducible first | apply ite_evolves | apply addW_evolves | apply lifeAdd_evolves | apply put_evolves | apply raiseOnSet_evolves)
    | simp only [store_mk, store_eta] | split

theorem execGateDenied_evolves (h : Evolves pm a s.store) (unit : Nat) {sx : State}
    (he : execGateDenied unit s = .next sx) :
    Evolves pm a sx.store := by
  unfold execGateDenied at he; rw [← Host.Outcome.next.inj he]
  repeat' first | with_reducible assumption | (with_reducible first | apply gateDenied_evolves)

theorem aoCrystalChange_evolves (h : Evolves pm a s.store) :
    Evolves pm a (aoCrystalChange s).store := by
  unfold aoCrystalChange; try dsimp only
  repeat' first
    | with_reducible assumption | (intro _; try beta_reduce)
    | (with_reducible first | apply ite_evolves | apply setF_evolves)
    | simp only [store_mk, store_eta] | split

theorem execAoCrystalChange_evolves (h : Evolves pm a s.store) {sx : State} (he : execAoCrystalChange s = .next sx) :
    Evolves pm a sx.store := by
  unfold execAoCrystalChange at he; rw [← Host.Outcome.next.inj he]
  repeat' first
    | with_reducible assumption | (intro _; try beta_reduce)
    | (with_reducible first | apply aoCrystalChange_evolves)
    | simp only [store_mk, store_eta] | split

theorem railWarning_evolves (h : Evolves pm a s.store) (r : Fin 5) : Evolves pm a (railWarning r s).store := by
  unfold railWarning
  repeat' first
    | with_reducible assumption
    | (with_reducible first | apply clrF_evolves | apply lifeAdd_evolves | apply raise_evolves | apply setF_evolves)

theorem execRailWarning_evolves (h : Evolves pm a s.store) (rail : Fin 5) {sx : State}
    (he : execRailWarning rail s = .next sx) :
    Evolves pm a sx.store := by
  unfold execRailWarning at he; rw [← Host.Outcome.next.inj he]
  repeat' first | with_reducible assumption | (with_reducible first | apply railWarning_evolves)

theorem execRailWarningCleared_evolves (h : Evolves pm a s.store) (rail : Fin 5) {sx : State}
    (he : execRailWarningCleared rail s = .next sx) :
    Evolves pm a sx.store := by
  unfold execRailWarningCleared at he; rw [← Host.Outcome.next.inj he]
  repeat' first | with_reducible assumption | (with_reducible first | apply setF_evolves)

theorem temperatureConversion_evolves (h : Evolves pm a s.store) (vals : List Int) :
    Evolves pm a (temperatureConversion vals s).store := by
  unfold temperatureConversion; try dsimp only
  repeat' first
    | with_reducible assumption | (intro _; try beta_reduce)
    | (with_reducible first | apply forAll_evolves | apply lifeMax_evolves | apply put_evolves)
    | simp only [store_mk, store_eta]

theorem execTemperatureConversion_evolves (h : Evolves pm a s.store) (vals : List Int) {sx : State}
    (he : execTemperatureConversion vals s = .next sx) :
    Evolves pm a sx.store := by
  unfold execTemperatureConversion at he; rw [← Host.Outcome.next.inj he]
  repeat' first | with_reducible assumption | (with_reducible first | apply temperatureConversion_evolves)

theorem crossCheck_evolves (h : Evolves pm a s.store) (was : List Bool) (i : Fin 7) :
    Evolves pm a (crossCheck was i s).store := by
  unfold crossCheck; try dsimp only
  repeat' first
    | with_reducible assumption | (intro _; try beta_reduce)
    | (with_reducible first | apply ite_evolves | apply lifeAdd_evolves | apply raise_evolves | apply setF_evolves)
    | simp only [store_mk, store_eta]

theorem thermalShutdown_evolves (h_axes : pm .axes = true) (h_stalls : pm .stalls = true) (h : Evolves pm a s.store)
    (cause : Nat) :
    Evolves pm a (thermalShutdown cause s).store := by
  unfold thermalShutdown; try dsimp only
  repeat' first
    | with_reducible assumption | (intro _; try beta_reduce)
    | (with_reducible first | apply ite_evolves | apply forAll_evolves | apply emit_evolves | apply axAsk_evolves | apply inhibitOn_evolves | apply lifeAdd_evolves)
    | (with_reducible first | apply put_evolves | apply raise_evolves)
    | simp only [store_mk, store_eta] | split

theorem execHardLimit_evolves (h_axes : pm .axes = true) (h_stalls : pm .stalls = true) (h : Evolves pm a s.store)
    {sx : State} (he : execHardLimit s = .next sx) :
    Evolves pm a sx.store := by
  unfold execHardLimit at he; rw [← Host.Outcome.next.inj he]
  repeat' first
    | with_reducible assumption | (intro _; try beta_reduce)
    | (with_reducible first | apply thermalShutdown_evolves)
    | simp only [store_mk, store_eta] | split

theorem disableEngine_evolves (h_cmpJobs : pm .cmpJobs = true) (h_ctxs : pm .ctxs = true)
    (h_traces : pm .traces = true) (h : Evolves pm a s.store) (e : Fin 2) :
    Evolves pm a (disableEngine e s).store := by
  unfold disableEngine; try dsimp only
  repeat' first
    | with_reducible assumption | (intro _; try beta_reduce)
    | (with_reducible first | apply foldl_evolves | apply finishJob_evolves | apply put_evolves | apply setJobs_evolves | apply showJobs_evolves)
    | simp only [store_mk, store_eta] | split

theorem disableBay_evolves (h_bays : pm .bays = true) (h_srvs : pm .srvs = true) (h_stalls : pm .stalls = true)
    (h : Evolves pm a s.store) (b : Fin 12) :
    Evolves pm a (disableBay b s).store := by
  unfold disableBay
  repeat' first
    | with_reducible assumption
    | (with_reducible first | apply ite_evolves | apply clrF_evolves | apply hostStage_evolves)

theorem disableSensor_evolves (h_cci : pm .cci = true) (h_ctxs : pm .ctxs = true) (h_sens : pm .sens = true)
    (h : Evolves pm a s.store) (n : Fin 16) :
    Evolves pm a (disableSensor n s).store := by
  unfold disableSensor
  repeat' first
    | with_reducible assumption
    | (with_reducible first | apply ite_evolves | apply clrF_evolves | apply sensStop_evolves)

theorem gateAll_evolves (h : Evolves pm a s.store) : Evolves pm a (gateAll s).store := by
  have e : (gateAll s).store = (wr64 (put (wrN s R.CPM_GATED_UNITS 0x0FFF0F00) ⟨R.CPM_GATED_UNITS, 0, 6⟩ (openStables s))
    R.CPM_GATED_STALLS (2 ^ 48 - 1)).store := by
    unfold gateAll
    exact store_mk
  rw [e]
  exact wr64_evolves (put_evolves (wrN_evolves h _ _) _ _) _ _

theorem shutdownGating_evolves (h_bays : pm .bays = true) (h_cci : pm .cci = true) (h_cmpJobs : pm .cmpJobs = true)
    (h_ctxs : pm .ctxs = true) (h_sens : pm .sens = true) (h_srvs : pm .srvs = true) (h_stalls : pm .stalls = true)
    (h_traces : pm .traces = true) (h : Evolves pm a s.store) :
    Evolves pm a (shutdownGating s).store := by
  unfold shutdownGating; try dsimp only
  repeat' first
    | with_reducible assumption | (intro _; try beta_reduce)
    | (with_reducible first | apply ite_evolves | apply forAll_evolves | apply foldl_evolves | apply disableBay_evolves | apply disableEngine_evolves | apply disableSensor_evolves)
    | (with_reducible first | apply disableStable_evolves | apply gateAll_evolves | apply put_evolves | apply showSr_evolves | apply showWait_evolves)
    | simp only [store_mk, store_eta] | split

theorem execShutdownGating_evolves (h_bays : pm .bays = true) (h_cci : pm .cci = true)
    (h_cmpJobs : pm .cmpJobs = true) (h_ctxs : pm .ctxs = true) (h_sens : pm .sens = true)
    (h_srvs : pm .srvs = true) (h_stalls : pm .stalls = true) (h_traces : pm .traces = true)
    (h : Evolves pm a s.store) {sx : State} (he : execShutdownGating s = .next sx) :
    Evolves pm a sx.store := by
  unfold execShutdownGating at he; rw [← Host.Outcome.next.inj he]
  repeat' first
    | with_reducible assumption | (intro _; try beta_reduce)
    | (with_reducible first | apply shutdownGating_evolves)
    | simp only [store_mk, store_eta] | split

theorem thermalState_evolves (h : Evolves pm a s.store) (t : Int) : Evolves pm a (thermalState t s).store := by
  unfold thermalState; try dsimp only
  repeat' first
    | with_reducible assumption
    | (with_reducible first | apply ite_evolves | apply put_evolves | apply raise_evolves | apply setF_evolves)
    | simp only [store_mk, store_eta] | split

theorem keepTemps_evolves (h : Evolves pm a s.store) : Evolves pm a (keepTemps s).store := by
  unfold keepTemps
  repeat' first
    | with_reducible assumption | (intro _; try beta_reduce) | (with_reducible first | apply ite_evolves)
    | simp only [store_mk, store_eta]

theorem rateTest_evolves (h_axes : pm .axes = true) (h_stalls : pm .stalls = true) (h : Evolves pm a s.store) :
    Evolves pm a (rateTest s).1.store := by
  unfold rateTest; try dsimp only
  repeat' first
    | with_reducible assumption | (intro _; try beta_reduce)
    | (with_reducible first | apply ite_evolves | apply lifeAdd_evolves | apply raise_evolves | apply setF_evolves | apply thermalShutdown_evolves)
    | simp only [store_mk, store_eta] | split

theorem rateTest_evolves' {pm : Part → Bool} {a : Store} {sv : State} {xo : Bool} {s : State} {h_axes : pm .axes = true} {h_stalls : pm .stalls = true}  (e : rateTest s = (sv, xo)) (h : Evolves pm a s.store) : Evolves pm a sv.store := by
  have := rateTest_evolves h_axes h_stalls h 
  rw [e] at this; exact this

theorem xoStep_evolves (h : Evolves pm a s.store) : Evolves pm a (xoStep s).store := by
  unfold xoStep; try dsimp only
  repeat' first
    | with_reducible assumption | (with_reducible first | apply ite_evolves) | simp only [store_mk, store_eta]

theorem tempLife_evolves (h : Evolves pm a s.store) : Evolves pm a (tempLife s).store := by
  unfold tempLife; try dsimp only
  repeat' first
    | with_reducible assumption | (intro _; try beta_reduce)
    | (with_reducible first | apply ite_evolves | apply forAll_evolves | apply add64_evolves | apply lifeTime_evolves)

theorem sensorsLow_evolves (h : Evolves pm a s.store) (n : Nat) :
    Evolves pm a (sensorsLow n s).store := by
  unfold sensorsLow; try dsimp only
  repeat' first
    | with_reducible assumption | (intro _; try beta_reduce)
    | (with_reducible first | apply ite_evolves | apply raise_evolves | apply setF_evolves)
    | simp only [store_mk, store_eta] | split

theorem thermalEvaluation_evolves (h_axes : pm .axes = true) (h_stalls : pm .stalls = true)
    (h : Evolves pm a s.store) :
    Evolves pm a (thermalEvaluation s).store := by
  unfold thermalEvaluation; try dsimp only
  repeat' first
    | with_reducible assumption | (intro _; try beta_reduce)
    | (with_reducible first | apply ite_evolves | apply forAll_evolves | apply crossCheck_evolves | apply keepTemps_evolves | apply put_evolves | apply rateTest_evolves)
    | (with_reducible first | apply (rateTest_evolves' (by with_reducible assumption)) | apply sensorsLow_evolves | apply tempLife_evolves | apply thermalShutdown_evolves | apply thermalState_evolves | apply wrN_evolves)
    | (with_reducible first | apply xoStep_evolves)
    | simp only [store_mk, store_eta] | split

theorem thermalStep_evolves (h_axes : pm .axes = true) (h_fars : pm .fars = true) (h_stalls : pm .stalls = true)
    (h : Evolves pm a s.store) :
    Evolves pm a (thermalStep s).store := by
  unfold thermalStep; try dsimp only
  repeat' first
    | with_reducible assumption | (intro _; try beta_reduce)
    | (with_reducible first | apply ite_evolves | apply farThermal_evolves | apply thermalEvaluation_evolves)
    | simp only [store_mk, store_eta] | split

theorem execThermalEvaluation_evolves (h_axes : pm .axes = true) (h_fars : pm .fars = true)
    (h_stalls : pm .stalls = true) (h : Evolves pm a s.store) {sx : State} (he : execThermalEvaluation s = .next sx) :
    Evolves pm a sx.store := by
  unfold execThermalEvaluation at he; rw [← Host.Outcome.next.inj he]
  repeat' first
    | with_reducible assumption | (intro _; try beta_reduce)
    | (with_reducible first | apply thermalStep_evolves)
    | simp only [store_mk, store_eta] | split

theorem sensorReset_evolves (h : Evolves pm a s.store) (v : Word) : Evolves pm a (sensorReset v s).store := by
  unfold sensorReset
  repeat' first
    | with_reducible assumption | (intro _; try beta_reduce)
    | (with_reducible first | apply ite_evolves | apply forAll_evolves | apply clrF_evolves)
    | simp only [store_mk, store_eta]

theorem execSensorReset_evolves (h : Evolves pm a s.store) (sec : Bool) (v : Word) {sx : State}
    (he : execSensorReset sec v s = .next sx) :
    Evolves pm a sx.store := by
  unfold execSensorReset at he; rw [← Host.Outcome.next.inj he]
  repeat' first
    | with_reducible assumption | (intro _; try beta_reduce)
    | (with_reducible first | apply hostWrite_evolves | apply sensorReset_evolves)

theorem thermalConfigWrite_evolves (h : Evolves pm a s.store) (sec : Bool) (r : Fin 11) (v : Word) :
    Evolves pm a (thermalConfigWrite sec r v s).store := by
  unfold thermalConfigWrite; try dsimp only
  repeat' first
    | with_reducible assumption | (intro _; try beta_reduce)
    | (with_reducible first | apply ite_evolves | apply cfgWrite_evolves | apply revertRoot_evolves | apply secureWrite_evolves | apply setF_evolves | apply wrN_evolves)
    | simp only [store_mk, store_eta] | split

theorem execThermalConfigWrite_evolves (h : Evolves pm a s.store) (sec : Bool) (r : Fin 11) (v : Word) {sx : State}
    (he : execThermalConfigWrite sec r v s = .next sx) :
    Evolves pm a sx.store := by
  unfold execThermalConfigWrite at he; rw [← Host.Outcome.next.inj he]
  repeat' first | with_reducible assumption | (with_reducible first | apply thermalConfigWrite_evolves)

end Machine
end Sys2Proof
end

