-- ==== Sys2Proof/Laws/EvolvesPtp.lean ====
section
/-!
SUPPORT. Every operation of Ptp.lean is an evolution (Laws/Evolves.lean).
-/
namespace Sys2Proof
namespace Machine

variable {pm : Part → Bool} {a : Store} {s : State}

theorem setTport_evolves (h_tports : pm .tports = true) (h : Evolves pm a s.store) (p : Fin 2) (f : TPort → TPort) :
    Evolves pm a (setTport p f s).store := Evolves.tports h_tports _ h

theorem hear_evolves (h_tports : pm .tports = true) (h : Evolves pm a s.store) (p : Fin 2) (clock : Nat)
    (port : Nat) (aa : Ann) :
    Evolves pm a (hear p clock port aa s).store := by
  unfold hear; try dsimp only
  repeat' first
    | with_reducible assumption | (intro _; try beta_reduce)
    | (with_reducible first | apply setTport_evolves)
    | simp only [store_mk, store_eta] | split

theorem sendPtp_evolves (h : Evolves pm a s.store) (p : Fin 2) (type : Nat) (writes : List (Nat × List Byte)) :
    Evolves pm a (sendPtp p type writes s).store := emit_evolves (s := { s with fresh := s.fresh + 1 }) (Evolves.draw h) _

end Machine
end Sys2Proof
end

