-- ==== Sys2Proof/Laws/EvolvesTime.lean ====
section
/-!
SUPPORT. Every operation of Time.lean is an evolution (Laws/Evolves.lean).
-/
namespace Sys2Proof
namespace Machine

variable {pm : Part → Bool} {a : Store} {s : State}

theorem setPps_evolves (h : Evolves pm a s.store) (t : Nat) (up : Bool) :
    Evolves pm a (setPps t up s).store := by
  unfold setPps; try dsimp only
  repeat' first
    | with_reducible assumption | (intro _; try beta_reduce)
    | (with_reducible first | apply ite_evolves | apply emit_evolves)
    | simp only [store_mk, store_eta] | split

theorem timeOutputs_evolves (h : Evolves pm a s.store) :
    Evolves pm a (timeOutputs s).store := by
  unfold timeOutputs; try dsimp only
  repeat' first
    | with_reducible assumption | (intro _; try beta_reduce)
    | (with_reducible first | apply ite_evolves | apply emit_evolves | apply setPps_evolves)
    | simp only [store_mk, store_eta] | split

theorem timePins_evolves (h : Evolves pm a s.store) :
    Evolves pm a (timePins s).store := by
  unfold timePins; try dsimp only
  repeat' first
    | with_reducible assumption | (intro _; try beta_reduce)
    | (with_reducible first | apply ite_evolves | apply setPps_evolves | apply timeOutputs_evolves)
    | simp only [store_mk, store_eta] | split

theorem tmsEnter_evolves (h : Evolves pm a s.store) (n : Nat) :
    Evolves pm a (tmsEnter n s).store := by
  unfold tmsEnter; try dsimp only
  repeat' first
    | with_reducible assumption | (intro _; try beta_reduce)
    | (with_reducible first | apply ite_evolves | apply lifeMax_evolves | apply put_evolves | apply raise_evolves | apply timeOutputs_evolves)
    | simp only [store_mk, store_eta] | split

theorem tellSlew_evolves (h_ctxs : pm .ctxs = true) (h : Evolves pm a s.store) (st : Nat) :
    Evolves pm a (tellSlew st s).store := by
  unfold tellSlew
  repeat' first
    | with_reducible assumption | (intro _; try beta_reduce)
    | (with_reducible first | apply ite_evolves | apply foldl_evolves | apply complete_evolves)
    | simp only [store_mk, store_eta] | split

theorem endSlew_evolves (h_ctxs : pm .ctxs = true) (h : Evolves pm a s.store) : Evolves pm a (endSlew s).store := by
  unfold endSlew
  repeat' first | with_reducible assumption | (with_reducible first | apply ite_evolves | apply tellSlew_evolves)

theorem beginSlew_evolves (h : Evolves pm a s.store) (v : Int) : Evolves pm a (beginSlew v s).store := by
  unfold beginSlew
  repeat' first
    | with_reducible assumption | (with_reducible first | apply tmsEnter_evolves) | simp only [store_mk, store_eta]

theorem slewComplete_evolves (h_ctxs : pm .ctxs = true) (h : Evolves pm a s.store) :
    Evolves pm a (slewComplete s).store := by
  unfold slewComplete
  repeat' first
    | with_reducible assumption
    | (with_reducible first | apply ite_evolves | apply tellSlew_evolves | apply tmsEnter_evolves)
    | simp only [store_mk, store_eta]

theorem execSlewComplete_evolves (h_ctxs : pm .ctxs = true) (h : Evolves pm a s.store) {sx : State}
    (he : execSlewComplete s = .next sx) :
    Evolves pm a sx.store := by
  unfold execSlewComplete at he; rw [← Host.Outcome.next.inj he]
  repeat' first | with_reducible assumption | (with_reducible first | apply slewComplete_evolves)

theorem enterHoldover_evolves (h_ctxs : pm .ctxs = true) (h : Evolves pm a s.store) :
    Evolves pm a (enterHoldover s).store := by
  unfold enterHoldover
  repeat' first
    | with_reducible assumption
    | (with_reducible first | apply ite_evolves | apply endSlew_evolves | apply tmsEnter_evolves)
    | simp only [store_mk, store_eta]

theorem setTmsAcc_evolves (hq : pm .ask = true) (h : Evolves pm a s.store)
    (l : List (Bool × Int × Option (Nat × Nat))) : Evolves pm a (setTmsAcc l s).store := Evolves.ask hq _ _ _ h

theorem setTmsSet_evolves (hq : pm .ask = true) (h : Evolves pm a s.store)
    (x : Option (Nat × Nat × Option (Nat × Nat))) : Evolves pm a (setTmsSet x s).store := Evolves.ask hq _ _ _ h

theorem setNow_evolves (h_ports : pm .ports = true) (h_time : pm .time = true) (h : Evolves pm a s.store) (v : Nat) :
    Evolves pm a (setNow v s).store :=
  forAll_evolves _ (fun _ _ hs => alignPort_evolves h_ports hs _) (Evolves.time h_time _ _ h)

theorem noteStep_evolves (h : Evolves pm a s.store) : Evolves pm a (noteStep s).store := by
  unfold noteStep
  repeat' first
    | with_reducible assumption
    | (with_reducible first | apply lifeAdd_evolves | apply raise_evolves | apply setF_evolves)

theorem stepBy_evolves (h_ports : pm .ports = true) (h_time : pm .time = true) (h : Evolves pm a s.store) (v : Int) :
    Evolves pm a (stepBy v s).store := by
  unfold stepBy; try dsimp only
  repeat' first
    | with_reducible assumption | (intro _; try beta_reduce)
    | (with_reducible first | apply ite_evolves | apply beginSlew_evolves | apply noteStep_evolves | apply setNow_evolves | apply tmsEnter_evolves)
    | simp only [store_mk, store_eta] | split

theorem acceptNow_evolves (h_ctxs : pm .ctxs = true) (h_ports : pm .ports = true) (h_time : pm .time = true)
    (h : Evolves pm a s.store) (aa : Bool × Int × Option (Nat × Nat)) :
    Evolves pm a (acceptNow s aa).store := by
  unfold acceptNow; try dsimp only
  repeat' first
    | with_reducible assumption | (intro _; try beta_reduce)
    | (with_reducible first | apply ite_evolves | apply beginSlew_evolves | apply complete_evolves | apply lifeAdd_evolves | apply put_evolves | apply stepBy_evolves)
    | simp only [store_mk, store_eta] | split

theorem acceptStep_evolves (h_ask : pm .ask = true) (h_ctxs : pm .ctxs = true) (h_ports : pm .ports = true)
    (h_time : pm .time = true) (h : Evolves pm a s.store) :
    Evolves pm a (acceptStep s).store := by
  unfold acceptStep; try dsimp only
  repeat' first
    | with_reducible assumption | (intro _; try beta_reduce)
    | (with_reducible first | apply foldl_evolves | apply acceptNow_evolves | apply setTmsAcc_evolves)
    | simp only [store_mk, store_eta] | split

theorem setApplied_evolves (h_ask : pm .ask = true) (h_ctxs : pm .ctxs = true) (h_ports : pm .ports = true)
    (h_time : pm .time = true) (h : Evolves pm a s.store) :
    Evolves pm a (setApplied s).store := by
  unfold setApplied; try dsimp only
  repeat' first
    | with_reducible assumption | (intro _; try beta_reduce)
    | (with_reducible first | apply ite_evolves | apply complete_evolves | apply noteStep_evolves | apply put_evolves | apply setNow_evolves | apply setTmsSet_evolves)
    | simp only [store_mk, store_eta] | split

theorem execSetApplied_evolves (h_ask : pm .ask = true) (h_ctxs : pm .ctxs = true) (h_ports : pm .ports = true)
    (h_time : pm .time = true) (h : Evolves pm a s.store) {sx : State} (he : execSetApplied s = .next sx) :
    Evolves pm a sx.store := by
  unfold execSetApplied at he; rw [← Host.Outcome.next.inj he]
  repeat' first
    | with_reducible assumption | (intro _; try beta_reduce)
    | (with_reducible first | apply setApplied_evolves)
    | simp only [store_mk, store_eta] | split

theorem piLaw_evolves (h : Evolves pm a s.store) (o : Int) : Evolves pm a (piLaw o s).store := by
  unfold piLaw; try dsimp only
  repeat' first
    | with_reducible assumption | (with_reducible first | apply wrN_evolves) | simp only [store_mk, store_eta]

theorem lockStep_evolves (h : Evolves pm a s.store) (o : Int) : Evolves pm a (lockStep o s).store := by
  unfold lockStep; try dsimp only
  repeat' first
    | with_reducible assumption
    | (with_reducible first | apply ite_evolves | apply lifeMax_evolves | apply tmsEnter_evolves)
    | simp only [store_mk, store_eta]

theorem refuseJump_evolves (h_ctxs : pm .ctxs = true) (h : Evolves pm a s.store) (o : Int) :
    Evolves pm a (refuseJump o s).store := by
  unfold refuseJump; try dsimp only
  repeat' first
    | with_reducible assumption
    | (with_reducible first | apply ite_evolves | apply endSlew_evolves | apply lifeAdd_evolves | apply raise_evolves | apply setF_evolves)
    | (with_reducible first | apply tmsEnter_evolves | apply wr64_evolves) | simp only [store_mk, store_eta]

theorem measured_evolves (hq : pm .ask = true) (h_ctxs : pm .ctxs = true) (h : Evolves pm a s.store) (o : Int) :
    Evolves pm a (measured o s).store := by
  unfold measured; try dsimp only
  repeat' first
    | with_reducible assumption
    | (with_reducible first | apply ite_evolves | apply lockStep_evolves | apply piLaw_evolves | apply refuseJump_evolves | apply setTmsAcc_evolves)
    | (with_reducible first | apply wr64_evolves) | simp only [store_mk, store_eta]

theorem received_evolves (h : Evolves pm a s.store) (p : Fin 2) (hdr : PtpHdr) (k : State → State)
    (hk : ∀ u, Evolves pm a u.store → Evolves pm a (k u).store) :
    Evolves pm a (received p hdr k s).store := by
  unfold received; try dsimp only
  repeat' first
    | with_reducible assumption | (intro _; try beta_reduce)
    | (with_reducible first | apply ite_evolves | apply addW_evolves | apply hk)
    | simp only [store_mk, store_eta] | split

theorem countRx_evolves (h : Evolves pm a s.store) (p : Nat) : Evolves pm a (countRx p s).store := by
  unfold countRx
  repeat' first | with_reducible assumption | (with_reducible first | apply addW_evolves)

theorem countTx_evolves (h : Evolves pm a s.store) (p : Nat) : Evolves pm a (countTx p s).store := by
  unfold countTx
  repeat' first | with_reducible assumption | (with_reducible first | apply addW_evolves)

theorem syncDone_evolves (hq : pm .ask = true) (h_ctxs : pm .ctxs = true) (h_tports : pm .tports = true)
    (h : Evolves pm a s.store) (p : Fin 2) (t1 : Int) (t2 : Int) :
    Evolves pm a (syncDone p t1 t2 s).store := by
  unfold syncDone; try dsimp only
  repeat' first
    | with_reducible assumption | (intro _; try beta_reduce)
    | (with_reducible first | apply ite_evolves | apply measured_evolves | apply setTport_evolves)
    | simp only [store_mk, store_eta]

theorem ptpSync_evolves (hq : pm .ask = true) (h_ctxs : pm .ctxs = true) (h_tports : pm .tports = true)
    (h : Evolves pm a s.store) (p : Fin 2) (twoStep : Bool) (ident : Nat) (rx : Int) (origin : Int) (corr : Int) :
    Evolves pm a (ptpSync p twoStep ident rx origin corr s).store := by
  unfold ptpSync; try dsimp only
  repeat' first
    | with_reducible assumption | (intro _; try beta_reduce)
    | (with_reducible first | apply ite_evolves | apply countRx_evolves | apply setTport_evolves | apply syncDone_evolves)
    | simp only [store_mk, store_eta]

theorem execPtpSync_evolves (h_ask : pm .ask = true) (h_ctxs : pm .ctxs = true) (h_tports : pm .tports = true)
    (h : Evolves pm a s.store) (p : Fin 2) (hdr : PtpHdr) (twoStep : Bool) (ident : Nat) (rx : Int) (origin : Int)
    (corr : Int) {sx : State} (he : execPtpSync p hdr twoStep ident rx origin corr s = .next sx) :
    Evolves pm a sx.store := by
  unfold execPtpSync at he; rw [← Host.Outcome.next.inj he]
  repeat' first
    | with_reducible assumption | (intro _; try beta_reduce)
    | (with_reducible first | apply ptpSync_evolves | apply received_evolves)
    | simp only [store_mk, store_eta] | split

theorem followUp_evolves (hq : pm .ask = true) (h_ctxs : pm .ctxs = true) (h_tports : pm .tports = true)
    (h : Evolves pm a s.store) (p : Fin 2) (ident : Nat) (origin : Int) (corr : Int) :
    Evolves pm a (followUp p ident origin corr s).store := by
  unfold followUp
  repeat' first
    | with_reducible assumption | (with_reducible first | apply ite_evolves | apply syncDone_evolves)
    | simp only [store_mk, store_eta] | split

theorem execFollowUp_evolves (h_ask : pm .ask = true) (h_ctxs : pm .ctxs = true) (h_tports : pm .tports = true)
    (h : Evolves pm a s.store) (p : Fin 2) (hdr : PtpHdr) (ident : Nat) (origin : Int) (corr : Int) {sx : State}
    (he : execFollowUp p hdr ident origin corr s = .next sx) :
    Evolves pm a sx.store := by
  unfold execFollowUp at he; rw [← Host.Outcome.next.inj he]
  repeat' first
    | with_reducible assumption | (intro _; try beta_reduce)
    | (with_reducible first | apply followUp_evolves | apply received_evolves)
    | simp only [store_mk, store_eta] | split

theorem setDelay_evolves (h_tports : pm .tports = true) (h : Evolves pm a s.store) (p : Fin 2) (d : Int) :
    Evolves pm a (setDelay p d s).store := by
  unfold setDelay
  repeat' first
    | with_reducible assumption | (intro _; try beta_reduce)
    | (with_reducible first | apply setTport_evolves | apply wrN_evolves) | simp only [store_mk, store_eta]

theorem delayResp_evolves (h_tports : pm .tports = true) (h : Evolves pm a s.store) (p : Fin 2) (rx : Int)
    (t4 : Int) (corr : Int) :
    Evolves pm a (delayResp p rx t4 corr s).store := by
  unfold delayResp; try dsimp only
  repeat' first
    | with_reducible assumption
    | (with_reducible first | apply ite_evolves | apply countRx_evolves | apply setDelay_evolves)
    | simp only [store_mk, store_eta] | split

theorem execDelayResp_evolves (h_tports : pm .tports = true) (h : Evolves pm a s.store) (p : Fin 2) (hdr : PtpHdr)
    (rx : Int) (t4 : Int) (corr : Int) {sx : State} (he : execDelayResp p hdr rx t4 corr s = .next sx) :
    Evolves pm a sx.store := by
  unfold execDelayResp at he; rw [← Host.Outcome.next.inj he]
  repeat' first
    | with_reducible assumption | (intro _; try beta_reduce)
    | (with_reducible first | apply delayResp_evolves | apply received_evolves)
    | simp only [store_mk, store_eta] | split

theorem delayReqSend_evolves (h_tports : pm .tports = true) (h : Evolves pm a s.store) (p : Fin 2) (tx : Int) :
    Evolves pm a (delayReqSend p tx s).store := by
  unfold delayReqSend; try dsimp only
  repeat' first
    | with_reducible assumption | (intro _; try beta_reduce)
    | (with_reducible first | apply ite_evolves | apply countTx_evolves | apply sendPtp_evolves | apply setTport_evolves)
    | simp only [store_mk, store_eta] | split

theorem execDelayReqSend_evolves (h_tports : pm .tports = true) (h : Evolves pm a s.store) (p : Fin 2) (tx : Int)
    {sx : State} (he : execDelayReqSend p tx s = .next sx) :
    Evolves pm a sx.store := by
  unfold execDelayReqSend at he; rw [← Host.Outcome.next.inj he]
  repeat' first | with_reducible assumption | (with_reducible first | apply delayReqSend_evolves)

theorem pdelayReq_evolves (h : Evolves pm a s.store) (p : Fin 2) (rx : Int) (tx : Int) :
    Evolves pm a (pdelayReq p rx tx s).store := by
  unfold pdelayReq; try dsimp only
  repeat' first
    | with_reducible assumption | (intro _; try beta_reduce)
    | (with_reducible first | apply ite_evolves | apply countRx_evolves | apply countTx_evolves | apply sendPtp_evolves)
    | simp only [store_mk, store_eta] | split

theorem execPdelayReq_evolves (h : Evolves pm a s.store) (p : Fin 2) (hdr : PtpHdr) (rx : Int) (tx : Int)
    {sx : State} (he : execPdelayReq p hdr rx tx s = .next sx) :
    Evolves pm a sx.store := by
  unfold execPdelayReq at he; rw [← Host.Outcome.next.inj he]
  repeat' first
    | with_reducible assumption | (intro _; try beta_reduce)
    | (with_reducible first | apply pdelayReq_evolves | apply received_evolves)
    | simp only [store_mk, store_eta] | split

theorem delayReq_evolves (h : Evolves pm a s.store) (p : Fin 2) (rx : Int) :
    Evolves pm a (delayReq p rx s).store := by
  unfold delayReq; try dsimp only
  repeat' first
    | with_reducible assumption | (intro _; try beta_reduce)
    | (with_reducible first | apply ite_evolves | apply countRx_evolves | apply sendPtp_evolves)
    | simp only [store_mk, store_eta] | split

theorem execDelayReq_evolves (h : Evolves pm a s.store) (p : Fin 2) (hdr : PtpHdr) (rx : Int) {sx : State}
    (he : execDelayReq p hdr rx s = .next sx) :
    Evolves pm a sx.store := by
  unfold execDelayReq at he; rw [← Host.Outcome.next.inj he]
  repeat' first
    | with_reducible assumption | (intro _; try beta_reduce)
    | (with_reducible first | apply delayReq_evolves | apply received_evolves)
    | simp only [store_mk, store_eta] | split

theorem syncSend_evolves (h : Evolves pm a s.store) (p : Fin 2) (tx : Int) :
    Evolves pm a (syncSend p tx s).store := by
  unfold syncSend; try dsimp only
  repeat' first
    | with_reducible assumption | (intro _; try beta_reduce)
    | (with_reducible first | apply ite_evolves | apply countTx_evolves | apply sendPtp_evolves)
    | simp only [store_mk, store_eta] | split

theorem execSyncSend_evolves (h : Evolves pm a s.store) (p : Fin 2) (tx : Int) {sx : State}
    (he : execSyncSend p tx s = .next sx) :
    Evolves pm a sx.store := by
  unfold execSyncSend at he; rw [← Host.Outcome.next.inj he]
  repeat' first | with_reducible assumption | (with_reducible first | apply syncSend_evolves)

theorem announceSend_evolves (h : Evolves pm a s.store) (p : Fin 2) :
    Evolves pm a (announceSend p s).store := by
  unfold announceSend; try dsimp only
  repeat' first
    | with_reducible assumption | (intro _; try beta_reduce)
    | (with_reducible first | apply ite_evolves | apply sendPtp_evolves)
    | simp only [store_mk, store_eta] | split

theorem execAnnounceSend_evolves (h : Evolves pm a s.store) (p : Fin 2) {sx : State}
    (he : execAnnounceSend p s = .next sx) :
    Evolves pm a sx.store := by
  unfold execAnnounceSend at he; rw [← Host.Outcome.next.inj he]
  repeat' first | with_reducible assumption | (with_reducible first | apply announceSend_evolves)

theorem showSlave_evolves (h : Evolves pm a s.store) : Evolves pm a (showSlave s).store := by
  unfold showSlave
  repeat' first | with_reducible assumption | (with_reducible first | apply ite_evolves | apply put_evolves)

theorem portEnter_evolves (h_ctxs : pm .ctxs = true) (h : Evolves pm a s.store) (p : Fin 2) (n : Nat) :
    Evolves pm a (portEnter p n s).store := by
  unfold portEnter; try dsimp only
  repeat' first
    | with_reducible assumption
    | (with_reducible first | apply ite_evolves | apply enterHoldover_evolves | apply put_evolves | apply raise_evolves | apply showSlave_evolves)

theorem newGm_evolves (h : Evolves pm a s.store) (gm : Nat) : Evolves pm a (newGm gm s).store := by
  unfold newGm
  repeat' first
    | with_reducible assumption
    | (with_reducible first | apply ite_evolves | apply lifeAdd_evolves | apply raise_evolves | apply setF_evolves | apply wr64_evolves)

theorem takeState_evolves (h_ctxs : pm .ctxs = true) (h_tports : pm .tports = true) (h : Evolves pm a s.store)
    (p : Fin 2) :
    Evolves pm a (takeState p s).store := by
  unfold takeState; try dsimp only
  repeat' first
    | with_reducible assumption | (intro _; try beta_reduce)
    | (with_reducible first | apply ite_evolves | apply portEnter_evolves | apply setTport_evolves)
    | simp only [store_mk, store_eta] | split

theorem takeGm_evolves (h : Evolves pm a s.store) :
    Evolves pm a (takeGm s).store := by
  unfold takeGm; try dsimp only
  repeat' first
    | with_reducible assumption | (intro _; try beta_reduce)
    | (with_reducible first | apply ite_evolves | apply newGm_evolves)
    | simp only [store_mk, store_eta] | split

theorem decideStates_evolves (h_ctxs : pm .ctxs = true) (h_tports : pm .tports = true) (h : Evolves pm a s.store) :
    Evolves pm a (decideStates s).store := by
  unfold decideStates; try dsimp only
  repeat' first
    | with_reducible assumption | (intro _; try beta_reduce)
    | (with_reducible first | apply forAll_evolves | apply takeGm_evolves | apply takeState_evolves)
    | simp only [store_mk, store_eta] | split

theorem announce_evolves (h_ctxs : pm .ctxs = true) (h_tports : pm .tports = true) (h : Evolves pm a s.store)
    (p : Fin 2) (clock : Nat) (port : Nat) (aa : Ann) :
    Evolves pm a (announce p clock port aa s).store := by
  unfold announce; try dsimp only
  repeat' first
    | with_reducible assumption | (intro _; try beta_reduce)
    | (with_reducible first | apply decideStates_evolves | apply hear_evolves)
    | simp only [store_mk, store_eta] | split

theorem execAnnounce_evolves (h_ctxs : pm .ctxs = true) (h_tports : pm .tports = true) (h : Evolves pm a s.store)
    (p : Fin 2) (hdr : PtpHdr) (clock : Nat) (port : Nat) (ann : Ann) {sx : State}
    (he : execAnnounce p hdr clock port ann s = .next sx) :
    Evolves pm a sx.store := by
  unfold execAnnounce at he; rw [← Host.Outcome.next.inj he]
  repeat' first
    | with_reducible assumption | (intro _; try beta_reduce)
    | (with_reducible first | apply announce_evolves | apply received_evolves)
    | simp only [store_mk, store_eta] | split

theorem receiptTimeout_evolves (h_ctxs : pm .ctxs = true) (h_tports : pm .tports = true) (h : Evolves pm a s.store)
    (p : Fin 2) :
    Evolves pm a (receiptTimeout p s).store := by
  unfold receiptTimeout; try dsimp only
  repeat' first
    | with_reducible assumption | (intro _; try beta_reduce)
    | (with_reducible first | apply ite_evolves | apply decideStates_evolves | apply portEnter_evolves | apply setTport_evolves)
    | simp only [store_mk, store_eta] | split

theorem execAnnounceReceiptTimeout_evolves (h_ctxs : pm .ctxs = true) (h_tports : pm .tports = true)
    (h : Evolves pm a s.store) (p : Fin 2) {sx : State} (he : execAnnounceReceiptTimeout p s = .next sx) :
    Evolves pm a sx.store := by
  unfold execAnnounceReceiptTimeout at he; rw [← Host.Outcome.next.inj he]
  repeat' first
    | with_reducible assumption | (intro _; try beta_reduce)
    | (with_reducible first | apply receiptTimeout_evolves)
    | simp only [store_mk, store_eta] | split

theorem preMasterEnd_evolves (h_ctxs : pm .ctxs = true) (h_tports : pm .tports = true) (h : Evolves pm a s.store)
    (p : Fin 2) :
    Evolves pm a (preMasterEnd p s).store := by
  unfold preMasterEnd; try dsimp only
  repeat' first
    | with_reducible assumption | (intro _; try beta_reduce)
    | (with_reducible first | apply ite_evolves | apply portEnter_evolves | apply setTport_evolves)
    | simp only [store_mk, store_eta] | split

theorem holdoverLong_evolves (h : Evolves pm a s.store) : Evolves pm a (holdoverLong s).store := by
  unfold holdoverLong
  repeat' first
    | with_reducible assumption
    | (with_reducible first | apply ite_evolves | apply raise_evolves | apply setF_evolves)
    | simp only [store_mk, store_eta] | split

theorem execTimeHoldoverLong_evolves (h : Evolves pm a s.store) {sx : State}
    (he : execTimeHoldoverLong s = .next sx) :
    Evolves pm a sx.store := by
  unfold execTimeHoldoverLong at he; rw [← Host.Outcome.next.inj he]
  repeat' first | with_reducible assumption | (with_reducible first | apply holdoverLong_evolves)

theorem ethLinkDown_evolves (h_ctxs : pm .ctxs = true) (h_stalls : pm .stalls = true) (h_tports : pm .tports = true)
    (h : Evolves pm a s.store) (p : Fin 2) (frags : Nat) :
    Evolves pm a (ethLinkDown p frags s).store := by
  unfold ethLinkDown; try dsimp only
  repeat' first
    | with_reducible assumption | (intro _; try beta_reduce)
    | (with_reducible first | apply ite_evolves | apply addW_evolves | apply clrF_evolves | apply decideStates_evolves | apply leaveRef_evolves | apply portEnter_evolves)
    | (with_reducible first | apply refLost_evolves | apply setTport_evolves | apply timeOutputs_evolves)
    | simp only [store_mk, store_eta] | split

theorem execEthernetLinkDown_evolves (h_ctxs : pm .ctxs = true) (h_stalls : pm .stalls = true)
    (h_tports : pm .tports = true) (h : Evolves pm a s.store) (p : Fin 2) (frags : Nat) {sx : State}
    (he : execEthernetLinkDown p frags s = .next sx) :
    Evolves pm a sx.store := by
  unfold execEthernetLinkDown at he; rw [← Host.Outcome.next.inj he]
  repeat' first
    | with_reducible assumption | (intro _; try beta_reduce)
    | (with_reducible first | apply ethLinkDown_evolves)
    | simp only [store_mk, store_eta] | split

theorem portListen_evolves (h_ctxs : pm .ctxs = true) (h_tports : pm .tports = true) (h : Evolves pm a s.store)
    (p : Fin 2) :
    Evolves pm a (portListen p s).store := by
  unfold portListen; try dsimp only
  repeat' first
    | with_reducible assumption | (intro _; try beta_reduce)
    | (with_reducible first | apply portEnter_evolves | apply setTport_evolves)
    | simp only [store_mk, store_eta] | split

theorem ethLinkUp_evolves (h_ctxs : pm .ctxs = true) (h_tports : pm .tports = true) (h : Evolves pm a s.store)
    (p : Fin 2) (mbps : Nat) :
    Evolves pm a (ethLinkUp p mbps s).store := by
  unfold ethLinkUp; try dsimp only
  repeat' first
    | with_reducible assumption | (intro _; try beta_reduce)
    | (with_reducible first | apply ite_evolves | apply portListen_evolves | apply setF_evolves | apply timeOutputs_evolves)
    | simp only [store_mk, store_eta] | split

theorem execEthernetLinkUp_evolves (h_ctxs : pm .ctxs = true) (h_tports : pm .tports = true)
    (h : Evolves pm a s.store) (p : Fin 2) (mbps : Nat) {sx : State} (he : execEthernetLinkUp p mbps s = .next sx) :
    Evolves pm a sx.store := by
  unfold execEthernetLinkUp at he; rw [← Host.Outcome.next.inj he]
  repeat' first
    | with_reducible assumption | (intro _; try beta_reduce)
    | (with_reducible first | apply ethLinkUp_evolves)
    | simp only [store_mk, store_eta] | split

theorem tmsResult_evolves (h : Evolves pm a s.store) (r : Nat) : Evolves pm a (tmsResult r s).store := by
  unfold tmsResult
  repeat' first | with_reducible assumption | (with_reducible first | apply put_evolves)

theorem acceptCmd_evolves (hq : pm .ask = true) (h : Evolves pm a s.store) (step : Bool) :
    Evolves pm a (acceptCmd step s).store := by
  unfold acceptCmd; try dsimp only
  repeat' first
    | with_reducible assumption
    | (with_reducible first | apply ite_evolves | apply setTmsAcc_evolves | apply tmsResult_evolves)

theorem execAcceptStep_evolves (hq : pm .ask = true) (h : Evolves pm a s.store) (sec : Bool) {sx : State}
    (he : execAcceptStep sec s = .next sx) :
    Evolves pm a sx.store := by
  unfold execAcceptStep at he; rw [← Host.Outcome.next.inj he]
  repeat' first
    | with_reducible assumption | (intro _; try beta_reduce)
    | (with_reducible first | apply acceptCmd_evolves | apply hostWrite_evolves)

theorem execAcceptSlew_evolves (hq : pm .ask = true) (h : Evolves pm a s.store) (sec : Bool) {sx : State}
    (he : execAcceptSlew sec s = .next sx) :
    Evolves pm a sx.store := by
  unfold execAcceptSlew at he; rw [← Host.Outcome.next.inj he]
  repeat' first
    | with_reducible assumption | (intro _; try beta_reduce)
    | (with_reducible first | apply acceptCmd_evolves | apply hostWrite_evolves)

theorem setCmd_evolves (hq : pm .ask = true) (h : Evolves pm a s.store) : Evolves pm a (setCmd s).store := by
  unfold setCmd; try dsimp only
  repeat' first
    | with_reducible assumption
    | (with_reducible first | apply ite_evolves | apply setTmsSet_evolves | apply tmsResult_evolves)

theorem execSet_evolves (hq : pm .ask = true) (h : Evolves pm a s.store) (sec : Bool) {sx : State}
    (he : execSet sec s = .next sx) :
    Evolves pm a sx.store := by
  unfold execSet at he; rw [← Host.Outcome.next.inj he]
  repeat' first
    | with_reducible assumption | (intro _; try beta_reduce)
    | (with_reducible first | apply hostWrite_evolves | apply setCmd_evolves)

theorem opTimeAccept_evolves (h_ask : pm .ask = true) (h_ctxs : pm .ctxs = true) (h : Evolves pm a s.store)
    (c : Fin 256) (d : Desc) :
    Evolves pm a (opTimeAccept c d s).store := by
  unfold opTimeAccept; try dsimp only
  repeat' first
    | with_reducible assumption | (intro _; try beta_reduce)
    | (with_reducible first | apply ite_evolves | apply complete_evolves | apply formatZero_evolves | apply setTmsAcc_evolves | apply tmsResult_evolves)
    | simp only [store_mk, store_eta] | split

theorem withTime_evolves (h_ctxs : pm .ctxs = true) (h : Evolves pm a s.store) (c : Fin 256) (op : Nat)
    (k : Desc → State → State) (hk : ∀ x0 u, Evolves pm a u.store → Evolves pm a (k x0 u).store) :
    Evolves pm a (withTime c op k s).store := by
  unfold withTime
  repeat' first
    | with_reducible assumption | (intro _; try beta_reduce)
    | (with_reducible first | apply blockCheck_evolves | apply withDesc_evolves | apply hk)

theorem execTimeAccept_evolves (hq : pm .ask = true) (h_ctxs : pm .ctxs = true) (h : Evolves pm a s.store)
    (c : Fin 256) {sx : State} (he : execTimeAccept c s = .next sx) :
    Evolves pm a sx.store := by
  unfold execTimeAccept at he; rw [← Host.Outcome.next.inj he]
  repeat' first
    | with_reducible assumption | (intro _; try beta_reduce)
    | (with_reducible first | apply opTimeAccept_evolves | apply withTime_evolves)

theorem opTimeSet_evolves (h_ask : pm .ask = true) (h_ctxs : pm .ctxs = true) (h : Evolves pm a s.store)
    (c : Fin 256) (d : Desc) :
    Evolves pm a (opTimeSet c d s).store := by
  unfold opTimeSet; try dsimp only
  repeat' first
    | with_reducible assumption | (intro _; try beta_reduce)
    | (with_reducible first | apply ite_evolves | apply complete_evolves | apply formatZero_evolves | apply setTmsSet_evolves | apply tmsResult_evolves)
    | simp only [store_mk, store_eta] | split

theorem execTimeSet_evolves (hq : pm .ask = true) (h_ctxs : pm .ctxs = true) (h : Evolves pm a s.store)
    (c : Fin 256) {sx : State} (he : execTimeSet c s = .next sx) :
    Evolves pm a sx.store := by
  unfold execTimeSet at he; rw [← Host.Outcome.next.inj he]
  repeat' first
    | with_reducible assumption | (intro _; try beta_reduce)
    | (with_reducible first | apply opTimeSet_evolves | apply withTime_evolves)

theorem opTimeRead_evolves (h_ctxs : pm .ctxs = true) (h : Evolves pm a s.store) (c : Fin 256) (d : Desc) :
    Evolves pm a (opTimeRead c d s).store := by
  unfold opTimeRead
  repeat' first
    | with_reducible assumption
    | (with_reducible first | apply ite_evolves | apply complete_evolves | apply formatZero_evolves)

theorem execTimeRead_evolves (h_ctxs : pm .ctxs = true) (h : Evolves pm a s.store) (c : Fin 256) {sx : State}
    (he : execTimeRead c s = .next sx) :
    Evolves pm a sx.store := by
  unfold execTimeRead at he; rw [← Host.Outcome.next.inj he]
  repeat' first
    | with_reducible assumption | (intro _; try beta_reduce)
    | (with_reducible first | apply opTimeRead_evolves | apply withTime_evolves)

theorem steerTick_evolves (h : Evolves pm a s.store) (dt : Nat) :
    Evolves pm a (steerTick dt s).store := by
  unfold steerTick; try dsimp only
  repeat' first
    | with_reducible assumption | (intro _; try beta_reduce)
    | simp only [store_mk, store_eta] | split

theorem slewTick_evolves (h : Evolves pm a s.store) (dt : Nat) :
    Evolves pm a (slewTick dt s).store := by
  unfold slewTick; try dsimp only
  repeat' first
    | with_reducible assumption | (intro _; try beta_reduce)
    | (with_reducible first | apply ite_evolves)
    | simp only [store_mk, store_eta] | split

theorem timeTick_evolves (h_ask : pm .ask = true) (h_ctxs : pm .ctxs = true) (h_ports : pm .ports = true)
    (h_time : pm .time = true) (h_tports : pm .tports = true) (h : Evolves pm a s.store) (dt : Nat) :
    Evolves pm a (timeTick dt s).store := by
  unfold timeTick; try dsimp only
  repeat' first
    | with_reducible assumption | (intro _; try beta_reduce)
    | (with_reducible first | apply ite_evolves | apply forAll_evolves | apply acceptStep_evolves | apply lifeTime_evolves | apply preMasterEnd_evolves | apply slewComplete_evolves)
    | (with_reducible first | apply slewTick_evolves | apply steerTick_evolves | apply timePins_evolves)
    | simp only [store_mk, store_eta] | split

theorem portSwitch_evolves (h_ctxs : pm .ctxs = true) (h_tports : pm .tports = true) (h : Evolves pm a s.store)
    (p : Fin 2) :
    Evolves pm a (portSwitch p s).store := by
  unfold portSwitch; try dsimp only
  repeat' first
    | with_reducible assumption | (intro _; try beta_reduce)
    | (with_reducible first | apply ite_evolves | apply decideStates_evolves | apply portEnter_evolves | apply portListen_evolves | apply setTport_evolves)
    | simp only [store_mk, store_eta] | split

theorem timeConfigWrite_evolves (h_ctxs : pm .ctxs = true) (h_tports : pm .tports = true) (h : Evolves pm a s.store)
    (sec : Bool) (r : Fin 15) (w : Wr64) :
    Evolves pm a (timeConfigWrite sec r w s).store := by
  unfold timeConfigWrite; try dsimp only
  repeat' first
    | with_reducible assumption | (intro _; try beta_reduce)
    | (with_reducible first | apply ite_evolves | apply cfgWrite_evolves | apply hostWrite_evolves | apply portSwitch_evolves | apply setF_evolves | apply timeOutputs_evolves)
    | (with_reducible first | apply withWide_evolves | apply wr64_evolves | apply wrN_evolves)
    | simp only [store_mk, store_eta] | split

theorem execTimeConfigWrite_evolves (h_ctxs : pm .ctxs = true) (h_tports : pm .tports = true)
    (h : Evolves pm a s.store) (sec : Bool) (r : Fin 15) (w : Wr64) {sx : State}
    (he : execTimeConfigWrite sec r w s = .next sx) :
    Evolves pm a sx.store := by
  unfold execTimeConfigWrite at he; rw [← Host.Outcome.next.inj he]
  repeat' first | with_reducible assumption | (with_reducible first | apply timeConfigWrite_evolves)

end Machine
end Sys2Proof
end

