-- ==== Sys2Proof/Laws/EvolvesTraces.lean ====
section
/-!
SUPPORT. Every operation of Traces.lean is an evolution (Laws/Evolves.lean).
-/
namespace Sys2Proof
namespace Machine

variable {pm : Part → Bool} {a : Store} {s : State}

theorem traceAsk_evolves (h_cmpJobs : pm .cmpJobs = true) (h_traces : pm .traces = true) (h : Evolves pm a s.store)
    (c : Fin 64) :
    Evolves pm a (traceAsk c s).store := by
  unfold traceAsk; try dsimp only
  repeat' first
    | with_reducible assumption | (intro _; try beta_reduce)
    | (with_reducible first | apply ite_evolves | apply setTrace_evolves | apply submitJob_evolves)
    | simp only [store_mk, store_eta] | split

theorem bufDone_evolves (h_ctxs : pm .ctxs = true) (h_traces : pm .traces = true) (h : Evolves pm a s.store)
    (c : Fin 64) (b : Nat × Nat × Nat) (ended : Bool) :
    Evolves pm a (bufDone c b ended s).store := by
  unfold bufDone; try dsimp only
  repeat' first
    | with_reducible assumption | (intro _; try beta_reduce)
    | (with_reducible first | apply completeN_evolves | apply setTrace_evolves) | simp only [store_mk, store_eta]

theorem traceMove_evolves {pm : Part → Bool} {a : Store} {s : State} (h_ctxs : pm .ctxs = true)
    (h_traces : pm .traces = true) (h : Evolves pm a s.store) (c : Fin 64) {sx : State}
    (ht : traceMove c s = some sx) :
    Evolves pm a sx.store := by
  unfold traceMove at ht
  dsimp only at ht
  repeat' split at ht
  all_goals first
    | (cases ht; done)
    | (obtain ⟨r, _, rfl⟩ := Option.map_eq_some_iff.1 ht; exact setTrace_evolves h_traces h _ _)
    | (obtain rfl := Option.some.inj ht
       repeat' first | with_reducible assumption |
         (with_reducible first | apply ite_evolves | apply bufDone_evolves h_ctxs h_traces | apply setTrace_evolves h_traces | apply emit_evolves))

theorem traceRun_evolves {pm : Part → Bool} {a : Store} {s : State} (h_ctxs : pm .ctxs = true)
    (h_traces : pm .traces = true) (h : Evolves pm a s.store) (c : Fin 64) (n : Nat) :
    Evolves pm a (traceRun c n s).store := by
  induction n generalizing s with
  | zero => exact h
  | succ n ih =>
    unfold traceRun
    split
    · exact ih (traceMove_evolves h_ctxs h_traces h c ‹_›)
    · exact h

theorem traceFeed_evolves (h_cmpJobs : pm .cmpJobs = true) (h_ctxs : pm .ctxs = true) (h_traces : pm .traces = true)
    (h : Evolves pm a s.store) (c : Fin 64) :
    Evolves pm a (traceFeed c s).store := by
  unfold traceFeed; try dsimp only
  repeat' first
    | with_reducible assumption | (intro _; try beta_reduce)
    | (with_reducible first | apply traceAsk_evolves | apply traceRun_evolves)
    | simp only [store_mk, store_eta] | split

theorem jobDone_evolves (h_cmpJobs : pm .cmpJobs = true) (h_ctxs : pm .ctxs = true) (h_traces : pm .traces = true)
    (h : Evolves pm a s.store) (e : Fin 2) :
    Evolves pm a (jobDone e s).store := by
  unfold jobDone; try dsimp only
  repeat' first
    | with_reducible assumption | (intro _; try beta_reduce)
    | (with_reducible first | apply ite_evolves | apply jobComplete_evolves | apply traceFeed_evolves)
    | simp only [store_mk, store_eta] | split

theorem execJobComplete_evolves (h_cmpJobs : pm .cmpJobs = true) (h_ctxs : pm .ctxs = true)
    (h_traces : pm .traces = true) (h : Evolves pm a s.store) (e : Fin 2) {sx : State}
    (he : execJobComplete e s = .next sx) :
    Evolves pm a sx.store := by
  unfold execJobComplete at he; rw [← Host.Outcome.next.inj he]
  repeat' first
    | with_reducible assumption | (intro _; try beta_reduce)
    | (with_reducible first | apply jobDone_evolves)
    | simp only [store_mk, store_eta] | split

theorem traceEnd_evolves (h_traces : pm .traces = true) (h : Evolves pm a s.store) (c : Fin 64) :
    Evolves pm a (traceEnd c s).store := by
  unfold traceEnd
  repeat' first
    | with_reducible assumption | (intro _; try beta_reduce)
    | (with_reducible first | apply ite_evolves | apply setTrace_evolves) | simp only [store_mk, store_eta]

theorem traceStore_evolves (h_mem : pm .mem = true) (h_traces : pm .traces = true) (h : Evolves pm a s.store)
    (c : Fin 64) (r : List Nat) : Evolves pm a (traceStore c r s).store := by
  unfold traceStore; dsimp only
  exact setTrace_evolves h_traces (heal_evolves (Evolves.mem h_mem (fun m => memWrite m _ _) id
    (fun _ h => memWrite_wf _ _ h) (fun _ h => h) h) _ _) _ _

theorem tracePut_evolves (h_cmpJobs : pm .cmpJobs = true) (h_ctxs : pm .ctxs = true) (h_mem : pm .mem = true)
    (h_traces : pm .traces = true) (h : Evolves pm a s.store) (c : Fin 64) (r : List Nat) :
    Evolves pm a (tracePut c r s).store := by
  unfold tracePut; try dsimp only
  repeat' first
    | with_reducible assumption | (intro _; try beta_reduce)
    | (with_reducible first | apply ite_evolves | apply addSat_evolves | apply lifeAdd_evolves | apply raise_evolves | apply setF_evolves | apply setTrace_evolves)
    | (with_reducible first | apply traceEnd_evolves | apply traceFeed_evolves | apply traceStore_evolves)
    | simp only [store_mk, store_eta] | split

theorem traceItem_evolves (h_cmpJobs : pm .cmpJobs = true) (h_ctxs : pm .ctxs = true) (h_mem : pm .mem = true)
    (h_traces : pm .traces = true) (h : Evolves pm a s.store) (c : Fin 64) (r : State → List Nat) :
    Evolves pm a (traceItem c r s).store := by
  unfold traceItem; try dsimp only
  repeat' first
    | with_reducible assumption | (intro _; try beta_reduce)
    | (with_reducible first | apply ite_evolves | apply setTrace_evolves | apply tracePut_evolves)
    | simp only [store_mk, store_eta] | split

theorem traceStall_evolves (h_cmpJobs : pm .cmpJobs = true) (h_ctxs : pm .ctxs = true) (h_mem : pm .mem = true)
    (h_traces : pm .traces = true) (h : Evolves pm a s.store) (g : Fin 48) :
    Evolves pm a (traceStall g s).store := by
  unfold traceStall; try dsimp only
  repeat' first
    | with_reducible assumption | (intro _; try beta_reduce)
    | (with_reducible first | apply ite_evolves | apply traceItem_evolves)
    | simp only [store_mk, store_eta] | split

theorem traceSlow_evolves (h_cmpJobs : pm .cmpJobs = true) (h_ctxs : pm .ctxs = true) (h_mem : pm .mem = true)
    (h_traces : pm .traces = true) (h : Evolves pm a s.store) :
    Evolves pm a (traceSlow s).store := by
  unfold traceSlow; try dsimp only
  repeat' first
    | with_reducible assumption | (intro _; try beta_reduce)
    | (with_reducible first | apply forAll_evolves | apply traceItem_evolves)
    | simp only [store_mk, store_eta] | split

theorem traceFlush_evolves (h_cmpJobs : pm .cmpJobs = true) (h_ctxs : pm .ctxs = true)
    (h_traces : pm .traces = true) (h : Evolves pm a s.store) (c : Fin 64) :
    Evolves pm a (traceFlush c s).store := by
  unfold traceFlush; try dsimp only
  repeat' first
    | with_reducible assumption | (intro _; try beta_reduce)
    | (with_reducible first | apply ite_evolves | apply setTrace_evolves | apply traceFeed_evolves)
    | simp only [store_mk, store_eta] | split

theorem traceTick_evolves (h_cmpJobs : pm .cmpJobs = true) (h_ctxs : pm .ctxs = true) (h_traces : pm .traces = true)
    (h : Evolves pm a s.store) (c : Fin 64) :
    Evolves pm a (traceTick c s).store := by
  unfold traceTick; try dsimp only
  repeat' first
    | with_reducible assumption | (intro _; try beta_reduce)
    | (with_reducible first | apply traceFeed_evolves | apply traceFlush_evolves)
    | simp only [store_mk, store_eta] | split

theorem execTraceFlush_evolves (h_cmpJobs : pm .cmpJobs = true) (h_ctxs : pm .ctxs = true)
    (h_traces : pm .traces = true) (h : Evolves pm a s.store) (c : Fin 64) {sx : State}
    (he : execTraceFlush c s = .next sx) :
    Evolves pm a sx.store := by
  unfold execTraceFlush at he; rw [← Host.Outcome.next.inj he]
  repeat' first
    | with_reducible assumption | (intro _; try beta_reduce)
    | (with_reducible first | apply traceFlush_evolves)
    | simp only [store_mk, store_eta] | split

theorem traceConfigWrite_evolves (h_cmpJobs : pm .cmpJobs = true) (h_ctxs : pm .ctxs = true)
    (h_traces : pm .traces = true) (h : Evolves pm a s.store) (c : Fin 64) (v : Word) :
    Evolves pm a (traceConfigWrite c v s).store := by
  unfold traceConfigWrite traceConfigWrite.clrBits; try dsimp only
  repeat' first
    | with_reducible assumption | (intro _; try beta_reduce)
    | (with_reducible first | apply ite_evolves | apply setF_evolves | apply setTrace_evolves | apply traceEnd_evolves)
    | (with_reducible first | apply traceFeed_evolves | apply wrN_evolves | apply put_evolves)

theorem execTraceConfigWrite_evolves (h_cmpJobs : pm .cmpJobs = true) (h_ctxs : pm .ctxs = true)
    (h_traces : pm .traces = true) (h : Evolves pm a s.store) (sec : Bool) (c : Fin 64) (v : Word) {sx : State}
    (he : execTraceConfigWrite sec c v s = .next sx) :
    Evolves pm a sx.store := by
  unfold execTraceConfigWrite at he; rw [← Host.Outcome.next.inj he]
  repeat' first
    | with_reducible assumption | (intro _; try beta_reduce)
    | (with_reducible first | apply hostWrite_evolves | apply traceConfigWrite_evolves)
    | simp only [store_mk, store_eta] | split

theorem opTraceBuf_evolves (h_cmpJobs : pm .cmpJobs = true) (h_ctxs : pm .ctxs = true)
    (h_traces : pm .traces = true) (h : Evolves pm a s.store) (c : Fin 256) (d : Desc) :
    Evolves pm a (opTraceBuf c d s).store := by
  unfold opTraceBuf; try dsimp only
  repeat' first
    | with_reducible assumption | (intro _; try beta_reduce)
    | (with_reducible first | apply ite_evolves | apply complete_evolves | apply formatZero_evolves | apply setTrace_evolves | apply traceFeed_evolves)
    | simp only [store_mk, store_eta] | split

end Machine
end Sys2Proof
end

