-- ==== Sys2Proof/Laws/EvolvesSnaps.lean ====
section
/-!
SUPPORT. Every operation of Snaps.lean is an evolution (Laws/Evolves.lean).
-/
namespace Sys2Proof
namespace Machine

variable {pm : Part → Bool} {a : Store} {s : State}

theorem snapshotCapture_evolves (h_ctxs : pm .ctxs = true) (h : Evolves pm a s.store) :
    Evolves pm a (snapshotCapture s).store := by
  unfold snapshotCapture; try dsimp only
  repeat' first
    | with_reducible assumption | (intro _; try beta_reduce)
    | (with_reducible first | apply ite_evolves | apply foldl_evolves | apply complete_evolves | apply lifeAdd_evolves | apply raise_evolves)
    | (with_reducible first | apply recNew_evolves | apply wr64_evolves | apply wrN_evolves)
    | simp only [store_mk, store_eta] | split

theorem snapshotRelease_evolves (h : Evolves pm a s.store) : Evolves pm a (snapshotRelease s).store := by
  unfold snapshotRelease; try dsimp only
  repeat' first
    | with_reducible assumption | (with_reducible first | apply wr64_evolves | apply wrN_evolves)
    | simp only [store_mk, store_eta]

end Machine
end Sys2Proof
end

