-- ==== Sys2Proof/Laws/EvolvesLoads.lean ====
section
/-!
SUPPORT. Every operation of Loads.lean is an evolution (Laws/Evolves.lean).
-/
namespace Sys2Proof
namespace Machine

variable {pm : Part → Bool} {a : Store} {s : State}

theorem loadWorld_evolves (h_ctxs : pm .ctxs = true) (h : Evolves pm a s.store) (c : Fin 256) (d : Desc)
    (g : Fin 48) :
    Evolves pm a (loadWorld c d g s).store := by
  unfold loadWorld
  repeat' first
    | with_reducible assumption | (with_reducible first | apply complete_evolves | apply worldFault_evolves)

theorem loadStart_evolves (h_ctxs : pm .ctxs = true) (h : Evolves pm a s.store) (c : Fin 256)
    (k : Desc → Fin 48 → State → State) (hk : ∀ x0 x1 u, Evolves pm a u.store → Evolves pm a (k x0 x1 u).store)
    (d : Desc) (g : Fin 48) :
    Evolves pm a (loadStart c k d g s).store := by
  unfold loadStart; try dsimp only
  repeat' first
    | with_reducible assumption
    | (with_reducible first | apply ite_evolves | apply complete_evolves | apply formatZero_evolves | apply interlock_evolves | apply loadWorld_evolves)
    | (with_reducible first | apply hk)

theorem withLoad_evolves (h_ctxs : pm .ctxs = true) (h : Evolves pm a s.store) (c : Fin 256) (op : Nat)
    (k : Desc → Fin 48 → State → State) (hk : ∀ x0 x1 u, Evolves pm a u.store → Evolves pm a (k x0 x1 u).store) :
    Evolves pm a (withLoad c op k s).store := by
  unfold withLoad
  repeat' first
    | with_reducible assumption | (intro _; try beta_reduce)
    | (with_reducible first | apply ite_evolves | apply withStall_evolves | apply hk)
    | simp only [store_mk, store_eta] | split

theorem loadReady_evolves (h_ctxs : pm .ctxs = true) (h : Evolves pm a s.store) (c : Fin 256) (d : Desc)
    (g : Fin 48) (slot : Nat) (bs : List Byte) :
    Evolves pm a (loadReady c d g slot bs s).store := by
  unfold loadReady
  repeat' first
    | with_reducible assumption | (with_reducible first | apply startDesc_evolves) | simp only [store_mk, store_eta]

theorem loadDecode_evolves (h_cmpJobs : pm .cmpJobs = true) (h_ctxs : pm .ctxs = true) (h : Evolves pm a s.store)
    (c : Fin 256) (d : Desc) (g : Fin 48) (slot : Nat) (bs : List Byte) :
    Evolves pm a (loadDecode c d g slot bs s).store := by
  unfold loadDecode
  repeat' first
    | with_reducible assumption | (with_reducible first | apply startDesc_evolves | apply submitJob_evolves)

theorem opProgLoad_evolves (h_ctxs : pm .ctxs = true) (h : Evolves pm a s.store) (c : Fin 256) (r : DmaIn)
    (y2 : Desc) (y3 : Fin 48) :
    Evolves pm a (opProgLoad c r y2 y3 s).store := by
  unfold opProgLoad
  repeat' first
    | with_reducible assumption | (intro _; try beta_reduce)
    | (with_reducible first | apply loadReady_evolves | apply loadStart_evolves | apply withPayload_evolves)

theorem execProgLoad_evolves (h_ctxs : pm .ctxs = true) (h : Evolves pm a s.store) (c : Fin 256) (r : DmaIn)
    {sx : State} (he : execProgLoad c r s = .next sx) :
    Evolves pm a sx.store := by
  unfold execProgLoad at he; rw [← Host.Outcome.next.inj he]
  repeat' first
    | with_reducible assumption | (intro _; try beta_reduce)
    | (with_reducible first | apply opProgLoad_evolves | apply withLoad_evolves)

theorem opProgLoadPacked_evolves (h_cmpJobs : pm .cmpJobs = true) (h_ctxs : pm .ctxs = true)
    (h : Evolves pm a s.store) (c : Fin 256) (r : DmaIn) (y2 : Desc) (y3 : Fin 48) :
    Evolves pm a (opProgLoadPacked c r y2 y3 s).store := by
  unfold opProgLoadPacked
  repeat' first
    | with_reducible assumption | (intro _; try beta_reduce)
    | (with_reducible first | apply loadDecode_evolves | apply loadStart_evolves | apply withPayload_evolves)

theorem execProgLoadPacked_evolves (h_cmpJobs : pm .cmpJobs = true) (h_ctxs : pm .ctxs = true)
    (h : Evolves pm a s.store) (c : Fin 256) (r : DmaIn) {sx : State} (he : execProgLoadPacked c r s = .next sx) :
    Evolves pm a sx.store := by
  unfold execProgLoadPacked at he; rw [← Host.Outcome.next.inj he]
  repeat' first
    | with_reducible assumption | (intro _; try beta_reduce)
    | (with_reducible first | apply opProgLoadPacked_evolves | apply withLoad_evolves)

theorem tackFail_evolves (h : Evolves pm a s.store) (detail : Nat) : Evolves pm a (tackFail detail s).store := by
  unfold tackFail
  repeat' first
    | with_reducible assumption
    | (with_reducible first | apply addSat_evolves | apply lifeAdd_evolves | apply raise_evolves | apply setF_evolves)

theorem sealedOpen_evolves (h_cmpJobs : pm .cmpJobs = true) (h_ctxs : pm .ctxs = true) (h : Evolves pm a s.store)
    (c : Fin 256) (plain : Option (List Byte)) (d : Desc) (g : Fin 48) (l : List Byte) :
    Evolves pm a (sealedOpen c plain d g l s).store := by
  unfold sealedOpen; try dsimp only
  repeat' first
    | with_reducible assumption
    | (with_reducible first | apply ite_evolves | apply complete_evolves | apply loadDecode_evolves | apply loadReady_evolves | apply tackFail_evolves)

theorem opProgLoadSealed_evolves (h_cmpJobs : pm .cmpJobs = true) (h_ctxs : pm .ctxs = true)
    (h : Evolves pm a s.store) (c : Fin 256) (r : DmaIn) (plain : Option (List Byte)) (y3 : Desc) (y4 : Fin 48) :
    Evolves pm a (opProgLoadSealed c r plain y3 y4 s).store := by
  unfold opProgLoadSealed
  repeat' first
    | with_reducible assumption | (intro _; try beta_reduce)
    | (with_reducible first | apply loadStart_evolves | apply sealedOpen_evolves | apply withPayload_evolves)

theorem execProgLoadSealed_evolves (h_cmpJobs : pm .cmpJobs = true) (h_ctxs : pm .ctxs = true)
    (h : Evolves pm a s.store) (c : Fin 256) (r : DmaIn) (plain : Option (List Byte)) {sx : State}
    (he : execProgLoadSealed c r plain s = .next sx) :
    Evolves pm a sx.store := by
  unfold execProgLoadSealed at he; rw [← Host.Outcome.next.inj he]
  repeat' first
    | with_reducible assumption | (intro _; try beta_reduce)
    | (with_reducible first | apply opProgLoadSealed_evolves | apply withLoad_evolves)

theorem ringWrite_evolves (h_mem : pm .mem = true) (h : Evolves pm a s.store) (st : Fin 6) (base : Nat) (size : Nat)
    (w : Nat) (bs : List Byte) :
    Evolves pm a (ringWrite st base size w bs s).store := by
  unfold ringWrite; try dsimp only
  repeat' first
    | with_reducible assumption | (intro _; try beta_reduce)
    | (with_reducible first | apply loftWrite_evolves)
    | simp only [store_mk, store_eta] | split

theorem showLoad_evolves (h_mem : pm .mem = true) (h_stalls : pm .stalls = true) (h : Evolves pm a s.store)
    (g : Fin 48) (bs : List Byte) :
    Evolves pm a (showLoad g bs s).store := by
  unfold showLoad; try dsimp only
  repeat' first
    | with_reducible assumption | (intro _; try beta_reduce)
    | (with_reducible first | apply ringWrite_evolves | apply setStall_evolves | apply showFree_evolves | apply wrN_evolves)
    | simp only [store_mk, store_eta] | split

theorem noteSealed_evolves (h : Evolves pm a s.store) (g : Fin 48) : Evolves pm a (noteSealed g s).store := by
  unfold noteSealed; try dsimp only
  repeat' first
    | with_reducible assumption
    | (with_reducible first | apply ite_evolves | apply evalUpdate_evolves | apply lifeAdd_evolves)
    | simp only [store_mk, store_eta]

theorem loadEnd_evolves (h_ctxs : pm .ctxs = true) (hm : pm .mem = true) (h_stalls : pm .stalls = true)
    (h : Evolves pm a s.store) (c : Fin 256) (d : Desc) (g : Fin 48) (j : Job) :
    Evolves pm a (loadEnd c d g j s).store := by
  unfold loadEnd; try dsimp only
  repeat' first
    | with_reducible assumption
    | (with_reducible first | apply ite_evolves | apply complete_evolves | apply noteSealed_evolves | apply showLoad_evolves | apply tackFail_evolves)
    | simp only [store_mk, store_eta] | split

theorem loadVisible_evolves (h_ctxs : pm .ctxs = true) (hm : pm .mem = true) (h_stalls : pm .stalls = true)
    (h : Evolves pm a s.store) (c : Fin 256) :
    Evolves pm a (loadVisible c s).store := by
  unfold loadVisible
  repeat' first
    | with_reducible assumption | (intro _; try beta_reduce)
    | (with_reducible first | apply ite_evolves | apply loadEnd_evolves) | simp only [store_mk, store_eta] | split

theorem execLoadVisible_evolves (h_ctxs : pm .ctxs = true) (hm : pm .mem = true) (h_stalls : pm .stalls = true)
    (h : Evolves pm a s.store) (c : Fin 256) {sx : State} (he : execLoadVisible c s = .next sx) :
    Evolves pm a sx.store := by
  unfold execLoadVisible at he; rw [← Host.Outcome.next.inj he]
  repeat' first | with_reducible assumption | (with_reducible first | apply loadVisible_evolves)

theorem opRelease_evolves (h_ctxs : pm .ctxs = true) (h_stalls : pm .stalls = true) (h_txns : pm .txns = true)
    (h : Evolves pm a s.store) (c : Fin 256) (d : Desc) (g : Fin 48) :
    Evolves pm a (opRelease c d g s).store := by
  unfold opRelease
  repeat' first
    | with_reducible assumption | (intro _; try beta_reduce)
    | (with_reducible first | apply ite_evolves | apply formatZero_evolves | apply interlock_evolves | apply setStall_evolves | apply stageOne_evolves)
    | simp only [store_mk, store_eta] | dsimp only [id]

theorem execRelease_evolves (h_ctxs : pm .ctxs = true) (h_stalls : pm .stalls = true) (h_txns : pm .txns = true)
    (h : Evolves pm a s.store) (c : Fin 256) {sx : State} (he : execRelease c s = .next sx) :
    Evolves pm a sx.store := by
  unfold execRelease at he; rw [← Host.Outcome.next.inj he]
  repeat' first
    | with_reducible assumption | (intro _; try beta_reduce)
    | (with_reducible first | apply opRelease_evolves | apply withStall_evolves)

theorem opResume_evolves (h_ctxs : pm .ctxs = true) (h_stalls : pm .stalls = true) (h_txns : pm .txns = true)
    (h : Evolves pm a s.store) (c : Fin 256) (d : Desc) (g : Fin 48) :
    Evolves pm a (opResume c d g s).store := by
  unfold opResume
  repeat' first
    | with_reducible assumption | (intro _; try beta_reduce)
    | (with_reducible first | apply ite_evolves | apply formatZero_evolves | apply interlock_evolves | apply resumeNow_evolves | apply stageOne_evolves)
    | dsimp only [id]

theorem execResume_evolves (h_ctxs : pm .ctxs = true) (h_stalls : pm .stalls = true) (h_txns : pm .txns = true)
    (h : Evolves pm a s.store) (c : Fin 256) {sx : State} (he : execResume c s = .next sx) :
    Evolves pm a sx.store := by
  unfold execResume at he; rw [← Host.Outcome.next.inj he]
  repeat' first
    | with_reducible assumption | (intro _; try beta_reduce)
    | (with_reducible first | apply opResume_evolves | apply withStall_evolves)

theorem sequencerFault_evolves (h_ctxs : pm .ctxs = true) (h_seams : pm .seams = true)
    (h_stalls : pm .stalls = true) (h : Evolves pm a s.store) (t : Fin 6) (stalls : List (Fin 48)) :
    Evolves pm a (sequencerFault t stalls s).store := by
  unfold sequencerFault
  repeat' first
    | with_reducible assumption | (intro _; try beta_reduce)
    | (with_reducible first | apply ite_evolves | apply foldl_evolves | apply enterFault_evolves | apply raise_evolves)

theorem execSequencerFault_evolves (h_ctxs : pm .ctxs = true) (h_seams : pm .seams = true)
    (h_stalls : pm .stalls = true) (h : Evolves pm a s.store) (t : Fin 6) (stalls : List (Fin 48)) {sx : State}
    (he : execSequencerFault t stalls s = .next sx) :
    Evolves pm a sx.store := by
  unfold execSequencerFault at he; rw [← Host.Outcome.next.inj he]
  repeat' first | with_reducible assumption | (with_reducible first | apply sequencerFault_evolves)

end Machine
end Sys2Proof
end

