-- ==== Sys2Proof/Laws/EvolvesTack.lean ====
section
/-!
SUPPORT. Every operation of Tack.lean is an evolution (Laws/Evolves.lean).
-/
namespace Sys2Proof
namespace Machine

variable {pm : Part → Bool} {a : Store} {s : State}

theorem mboxService_evolves (h : Evolves pm a s.store) (svc : Nat) (k : State → State)
    (hk : ∀ u, Evolves pm a u.store → Evolves pm a (k u).store) :
    Evolves pm a (mboxService svc k s).store := by
  unfold mboxService
  repeat' first | with_reducible assumption | (with_reducible first | apply ite_evolves | apply hk)

theorem answer_evolves (h : Evolves pm a s.store) (st : Nat) (payload : List Nat) :
    Evolves pm a (answer st payload s).store := by
  unfold answer
  repeat' first | with_reducible assumption | simp only [store_mk, store_eta]

theorem bulkCheck_evolves (h : Evolves pm a s.store) (write : Bool) (k : State → State)
    (hk : ∀ u, Evolves pm a u.store → Evolves pm a (k u).store) :
    Evolves pm a (bulkCheck write k s).store := by
  unfold bulkCheck; try dsimp only
  repeat' first
    | with_reducible assumption | (intro _; try beta_reduce)
    | (with_reducible first | apply ite_evolves | apply answer_evolves | apply worldFault_evolves | apply hk)
    | simp only [store_mk, store_eta] | split

theorem withBulk_evolves (h : Evolves pm a s.store) (r : DmaIn) (k : List Byte → State → State)
    (hk : ∀ x0 u, Evolves pm a u.store → Evolves pm a (k x0 u).store) :
    Evolves pm a (withBulk r k s).store := by
  unfold withBulk; try dsimp only
  repeat' first
    | with_reducible assumption | (intro _; try beta_reduce)
    | (with_reducible first | apply answer_evolves | apply bulkCheck_evolves | apply lifeAdd_evolves | apply raise_evolves | apply setF_evolves | apply wr64_evolves)
    | (with_reducible first | apply wrN_evolves | apply hk)
    | simp only [store_mk, store_eta] | split

theorem keepSerial_evolves (h : Evolves pm a s.store) (kind : Fin 5) (l : List Byte) :
    Evolves pm a (keepSerial kind l s).store := by
  unfold keepSerial
  repeat' first | with_reducible assumption | simp only [store_mk, store_eta]

theorem withObject_evolves (h : Evolves pm a s.store) (kind : Nat) (r : DmaIn) (sigOk : Bool)
    (k : List Byte → State → State) (hk : ∀ x0 u, Evolves pm a u.store → Evolves pm a (k x0 u).store) :
    Evolves pm a (withObject kind r sigOk k s).store := by
  unfold withObject
  repeat' first
    | with_reducible assumption | (intro _; try beta_reduce)
    | (with_reducible first | apply ite_evolves | apply answer_evolves | apply tackFail_evolves | apply withBulk_evolves | apply hk)

theorem svcInfo_evolves (h : Evolves pm a s.store) :
    Evolves pm a (svcInfo s).store := by
  unfold svcInfo; try dsimp only
  repeat' first
    | with_reducible assumption | (intro _; try beta_reduce)
    | (with_reducible first | apply ite_evolves | apply emit_evolves | apply answer_evolves | apply bulkCheck_evolves | apply hostWrite_evolves)
    | simp only [store_mk, store_eta] | split

theorem execInfo_evolves (h : Evolves pm a s.store) {sx : State} (he : execInfo s = .next sx) :
    Evolves pm a sx.store := by
  unfold execInfo at he; rw [← Host.Outcome.next.inj he]
  repeat' first
    | with_reducible assumption | (intro _; try beta_reduce)
    | (with_reducible first | apply mboxService_evolves | apply svcInfo_evolves)

theorem storeKey_evolves (hk : pm .keys = true) (h : Evolves pm a s.store) (k : Fin 16) (key : Nat) :
    Evolves pm a (storeKey k key s).store := Evolves.keys hk _ _ _ h

theorem setKey_evolves (hk : pm .keys = true) (h : Evolves pm a s.store) (k : Fin 16) (key : Nat) (usage : Nat) :
    Evolves pm a (setKey k key usage s).store := by
  unfold setKey
  repeat' first | with_reducible assumption | (with_reducible first | apply storeKey_evolves | apply wrN_evolves)

theorem keyImport_evolves (hk : pm .keys = true) (h : Evolves pm a s.store) (key : Option Nat) (l : List Byte) :
    Evolves pm a (keyImport key l s).store := by
  unfold keyImport; try dsimp only
  repeat' first
    | with_reducible assumption
    | (with_reducible first | apply ite_evolves | apply answer_evolves | apply keepSerial_evolves | apply lifeAdd_evolves | apply raise_evolves)
    | (with_reducible first | apply setKey_evolves | apply tackFail_evolves) | simp only [store_mk, store_eta]
    | split

theorem execKeyImport_evolves (hk : pm .keys = true) (h : Evolves pm a s.store) (r : DmaIn) (sigOk : Bool)
    (key : Option Nat) {sx : State} (he : execKeyImport r sigOk key s = .next sx) :
    Evolves pm a sx.store := by
  unfold execKeyImport at he; rw [← Host.Outcome.next.inj he]
  repeat' first
    | with_reducible assumption | (intro _; try beta_reduce)
    | (with_reducible first | apply keyImport_evolves | apply mboxService_evolves | apply withObject_evolves)

theorem eraseKey_evolves (hk : pm .keys = true) (h : Evolves pm a s.store) (k : Fin 16) :
    Evolves pm a (eraseKey k s).store := by
  unfold eraseKey
  repeat' first | with_reducible assumption | (with_reducible first | apply lifeAdd_evolves | apply setKey_evolves)

theorem svcKeyErase_evolves (hk : pm .keys = true) (h : Evolves pm a s.store) :
    Evolves pm a (svcKeyErase s).store := by
  unfold svcKeyErase
  repeat' first
    | with_reducible assumption
    | (with_reducible first | apply ite_evolves | apply answer_evolves | apply eraseKey_evolves | apply raise_evolves)
    | simp only [store_mk, store_eta] | split

theorem execKeyErase_evolves (hk : pm .keys = true) (h : Evolves pm a s.store) {sx : State}
    (he : execKeyErase s = .next sx) :
    Evolves pm a sx.store := by
  unfold execKeyErase at he; rw [← Host.Outcome.next.inj he]
  repeat' first
    | with_reducible assumption | (intro _; try beta_reduce)
    | (with_reducible first | apply mboxService_evolves | apply svcKeyErase_evolves)

theorem svcRandom_evolves (h : Evolves pm a s.store) (bytes : List Byte) :
    Evolves pm a (svcRandom bytes s).store := by
  unfold svcRandom; try dsimp only
  repeat' first | with_reducible assumption | (with_reducible first | apply ite_evolves | apply answer_evolves)

theorem execRandom_evolves (h : Evolves pm a s.store) (bytes : List Byte) {sx : State}
    (he : execRandom bytes s = .next sx) :
    Evolves pm a sx.store := by
  unfold execRandom at he; rw [← Host.Outcome.next.inj he]
  repeat' first
    | with_reducible assumption | (intro _; try beta_reduce)
    | (with_reducible first | apply mboxService_evolves | apply svcRandom_evolves)

theorem limitWrite_evolves (h : Evolves pm a s.store) (g : Fin 48) (k : Fin 3) (v : Word) :
    Evolves pm a (limitWrite g k v s).store := by
  unfold limitWrite
  repeat' first
    | with_reducible assumption
    | (with_reducible first | apply ite_evolves | apply raise_evolves | apply wrLater_evolves)
    | simp only [store_mk, store_eta] | split

theorem execLimitWrite_evolves (h : Evolves pm a s.store) (sec : Bool) (g : Fin 48) (k : Fin 3) (v : Word)
    {sx : State} (he : execLimitWrite sec g k v s = .next sx) :
    Evolves pm a sx.store := by
  unfold execLimitWrite at he; rw [← Host.Outcome.next.inj he]
  repeat' first
    | with_reducible assumption | (intro _; try beta_reduce)
    | (with_reducible first | apply limitWrite_evolves | apply secureWrite_evolves)

theorem freeLimits_evolves (h : Evolves pm a s.store) : Evolves pm a (freeLimits s).store := by
  unfold freeLimits
  repeat' first
    | with_reducible assumption | (intro _; try beta_reduce)
    | (with_reducible first | apply forAll_evolves | apply wrLater_evolves)

theorem loadLimits_evolves (h : Evolves pm a s.store) (l : List (Nat × Nat × Nat)) :
    Evolves pm a (loadLimits l s).store := by
  unfold loadLimits; try dsimp only
  repeat' first
    | with_reducible assumption | (intro _; try beta_reduce)
    | (with_reducible first | apply forAll_evolves | apply wrN_evolves) | split

theorem setRegion_evolves (hw : pm .world = true) (h : Evolves pm a s.store) (e : Nat × Nat × Nat × Nat) :
    Evolves pm a (setRegion e s).store := by
  unfold setRegion
  split
  · exact Evolves.world hw _ h
  · exact h

theorem setRegions_evolves (hw : pm .world = true) (h : Evolves pm a s.store) (l : List (Nat × Nat × Nat × Nat)) :
    Evolves pm a (setRegions l s).store := by
  unfold setRegions
  repeat' first
    | with_reducible assumption | (intro _; try beta_reduce)
    | (with_reducible first | apply foldl_evolves | apply setRegion_evolves)

theorem worldAfter_evolves (hw : pm .world = true) (h : Evolves pm a s.store) (l : List WorldNext) :
    Evolves pm a (worldAfter l s).store := by
  unfold worldAfter
  repeat' first
    | with_reducible assumption | (intro _; try beta_reduce)
    | (with_reducible first | apply foldl_evolves | apply setRegions_evolves)

theorem zeroOpened_evolves {x : Store} (hm : pm .mem = true) (h : Evolves pm x s.store) (a b : State) :
    Evolves pm x (zeroOpened a b s).store := by
  unfold zeroOpened
  exact forAll_evolves _ (fun i s hs => setLoft_evolves hm hs _ _ fun m hm => wf_filter _ hm)
    (Evolves.mem hm _ _ (fun m hm => wf_filter _ hm) (fun m hm => wf_filter _ hm) h)

theorem worldAccept_evolves (h : Evolves pm a s.store) (bwt : Option Nat) (rs : List (Nat × Nat × Nat × Nat))
    (st : Option SecSet) :
    Evolves pm a (worldAccept bwt rs st s).store := by
  unfold worldAccept; try dsimp only
  repeat' first
    | with_reducible assumption | (with_reducible first | apply setRegions_evolves | apply worldAfter_evolves)
    | simp only [store_mk, store_eta]

theorem worldRefuse_evolves (h : Evolves pm a s.store) : Evolves pm a (worldRefuse s).store := by
  unfold worldRefuse
  repeat' first | with_reducible assumption | (with_reducible first | apply setF_evolves)

theorem bwtWrite_evolves (h : Evolves pm a s.store) (n : Nat) : Evolves pm a (bwtWrite n s).store := by
  unfold bwtWrite
  repeat' first
    | with_reducible assumption
    | (with_reducible first | apply ite_evolves | apply worldAccept_evolves | apply worldRefuse_evolves)

theorem execBwtWrite_evolves (h : Evolves pm a s.store) (sec : Bool) (w : Wr64) {sx : State}
    (he : execBwtWrite sec w s = .next sx) :
    Evolves pm a sx.store := by
  unfold execBwtWrite at he; rw [← Host.Outcome.next.inj he]
  repeat' first
    | with_reducible assumption | (intro _; try beta_reduce)
    | (with_reducible first | apply bwtWrite_evolves | apply hostWrite_evolves | apply withWide_evolves)

theorem regionWrite_evolves (hw : pm .world = true) (h : Evolves pm a s.store) (r : Nat) (n : Nat) :
    Evolves pm a (regionWrite r n s).store := by
  unfold regionWrite; try dsimp only
  repeat' first
    | with_reducible assumption
    | (with_reducible first | apply ite_evolves | apply put_evolves | apply setRegions_evolves | apply worldAccept_evolves | apply worldRefuse_evolves)

theorem execRegionTableWrite_evolves (hw : pm .world = true) (h : Evolves pm a s.store) (sec : Bool) (r : Fin 4)
    (v : Word) {sx : State} (he : execRegionTableWrite sec r v s = .next sx) :
    Evolves pm a sx.store := by
  unfold execRegionTableWrite at he; rw [← Host.Outcome.next.inj he]
  repeat' first
    | with_reducible assumption | (intro _; try beta_reduce)
    | (with_reducible first | apply hostWrite_evolves | apply regionWrite_evolves)

theorem regionZeroingDone_evolves (hm : pm .mem = true) (h : Evolves pm a s.store) :
    Evolves pm a (regionZeroingDone s).store := by
  unfold regionZeroingDone; try dsimp only
  repeat' first
    | with_reducible assumption
    | (with_reducible first | apply setRegions_evolves | apply worldAfter_evolves | apply zeroOpened_evolves)
    | simp only [store_mk, store_eta] | split

theorem execRegionZeroingDone_evolves (hm : pm .mem = true) (h : Evolves pm a s.store) {sx : State}
    (he : execRegionZeroingDone s = .next sx) :
    Evolves pm a sx.store := by
  unfold execRegionZeroingDone at he; rw [← Host.Outcome.next.inj he]
  repeat' first | with_reducible assumption | (with_reducible first | apply regionZeroingDone_evolves)

theorem setSeal_evolves (h : Evolves pm a s.store) (b : Bool) : Evolves pm a (setSeal b s).store := by
  unfold setSeal; try dsimp only
  repeat' first
    | with_reducible assumption | (with_reducible first | apply ite_evolves | apply put_evolves)
    | simp only [store_mk, store_eta]

theorem settingsAct_evolves (h : Evolves pm a s.store) (x : SecSet) : Evolves pm a (settingsAct x s).store := by
  unfold settingsAct; try dsimp only
  repeat' first
    | with_reducible assumption
    | (with_reducible first | apply ite_evolves | apply loadLimits_evolves | apply setF_evolves | apply setSeal_evolves)
    | simp only [store_mk, store_eta]

theorem worldAct_evolves (hw : pm .world = true) (h : Evolves pm a s.store) (w : WorldNext) :
    Evolves pm a (worldAct s w).store := by
  unfold worldAct; try dsimp only
  repeat' first
    | with_reducible assumption
    | (with_reducible first | apply answer_evolves | apply evalUpdate_evolves | apply lifeAdd_evolves | apply raise_evolves | apply setRegions_evolves)
    | (with_reducible first | apply settingsAct_evolves | apply wr64_evolves) | simp only [store_mk, store_eta]
    | split

theorem worldTick_evolves (hw : pm .world = true) (h : Evolves pm a s.store) : Evolves pm a (worldTick s).store := by
  unfold worldTick; try dsimp only
  repeat' first
    | with_reducible assumption | (intro _; try beta_reduce)
    | (with_reducible first | apply foldl_evolves | apply worldAct_evolves) | simp only [store_mk, store_eta]

theorem settingsApply_evolves (h : Evolves pm a s.store) (body : Option SecSet) (l : List Byte) :
    Evolves pm a (settingsApply body l s).store := by
  unfold settingsApply; try dsimp only
  repeat' first
    | with_reducible assumption | (intro _; try beta_reduce)
    | (with_reducible first | apply ite_evolves | apply answer_evolves | apply keepSerial_evolves | apply tackFail_evolves | apply worldAccept_evolves | apply worldRefuse_evolves)
    | simp only [store_mk, store_eta] | split

theorem execSettingsApply_evolves (h : Evolves pm a s.store) (r : DmaIn) (sigOk : Bool) (body : Option SecSet)
    {sx : State} (he : execSettingsApply r sigOk body s = .next sx) :
    Evolves pm a sx.store := by
  unfold execSettingsApply at he; rw [← Host.Outcome.next.inj he]
  repeat' first
    | with_reducible assumption | (intro _; try beta_reduce)
    | (with_reducible first | apply ite_evolves | apply mboxService_evolves | apply settingsApply_evolves | apply withObject_evolves)

theorem recorderAttest_evolves (h : Evolves pm a s.store) (sig : List Byte) :
    Evolves pm a (recorderAttest sig s).store := by
  unfold recorderAttest; try dsimp only
  repeat' first
    | with_reducible assumption | (intro _; try beta_reduce)
    | (with_reducible first | apply ite_evolves | apply emit_evolves | apply answer_evolves | apply bulkCheck_evolves | apply hostWrite_evolves | apply recFlush_evolves)
    | simp only [store_mk, store_eta] | split

theorem execRecorderAttest_evolves (h : Evolves pm a s.store) (sig : List Byte) {sx : State}
    (he : execRecorderAttest sig s = .next sx) :
    Evolves pm a sx.store := by
  unfold execRecorderAttest at he; rw [← Host.Outcome.next.inj he]
  repeat' first
    | with_reducible assumption | (intro _; try beta_reduce)
    | (with_reducible first | apply mboxService_evolves | apply recorderAttest_evolves)

theorem recClear_evolves (h : Evolves pm a s.store) : Evolves pm a (recClear s).store := by
  unfold recClear; try dsimp only
  repeat' first
    | with_reducible assumption
    | (with_reducible first | apply ite_evolves | apply addW_evolves | apply lifeAdd_evolves | apply wrN_evolves)
    | simp only [store_mk, store_eta]

theorem recorderClear_evolves (h : Evolves pm a s.store) (l : List Byte) :
    Evolves pm a (recorderClear l s).store := by
  unfold recorderClear
  repeat' first
    | with_reducible assumption
    | (with_reducible first | apply answer_evolves | apply keepSerial_evolves | apply recClear_evolves)

theorem execRecorderClear_evolves (h : Evolves pm a s.store) (r : DmaIn) (sigOk : Bool) {sx : State}
    (he : execRecorderClear r sigOk s = .next sx) :
    Evolves pm a sx.store := by
  unfold execRecorderClear at he; rw [← Host.Outcome.next.inj he]
  repeat' first
    | with_reducible assumption | (intro _; try beta_reduce)
    | (with_reducible first | apply mboxService_evolves | apply recorderClear_evolves | apply withObject_evolves)

theorem enterLifecycle_evolves (h : Evolves pm a s.store) (n : Nat) : Evolves pm a (enterLifecycle n s).store := by
  unfold enterLifecycle; try dsimp only
  repeat' first
    | with_reducible assumption
    | (with_reducible first | apply evalUpdate_evolves | apply lifeAdd_evolves | apply put_evolves | apply raise_evolves)

theorem setSignKey_evolves (hk : pm .keys = true) (h : Evolves pm a s.store) (k : Option Nat) :
    Evolves pm a (setSignKey k s).store := Evolves.keys hk _ _ _ h

theorem setBuilder_evolves (hk : pm .keys = true) (h : Evolves pm a s.store) (n : Nat) :
    Evolves pm a (setBuilder n s).store := Evolves.keys hk _ _ _ h

theorem eraseKeys_evolves (hk : pm .keys = true) (h : Evolves pm a s.store) : Evolves pm a (eraseKeys s).store := by
  unfold eraseKeys
  repeat' first
    | with_reducible assumption | (intro _; try beta_reduce)
    | (with_reducible first | apply ite_evolves | apply forAll_evolves | apply eraseKey_evolves | apply raise_evolves | apply setSignKey_evolves)

theorem lifeFirst_evolves (hk : pm .keys = true) (h : Evolves pm a s.store) (newKey : Nat) (l : List Byte) :
    Evolves pm a (lifeFirst newKey l s).store := by
  unfold lifeFirst
  repeat' first
    | with_reducible assumption
    | (with_reducible first | apply ite_evolves | apply answer_evolves | apply enterLifecycle_evolves | apply setBuilder_evolves | apply setSignKey_evolves)

theorem lifeToken_evolves (hk : pm .keys = true) (h : Evolves pm a s.store) (l : List Byte) :
    Evolves pm a (lifeToken l s).store := by
  unfold lifeToken; try dsimp only
  repeat' first
    | with_reducible assumption
    | (with_reducible first | apply ite_evolves | apply answer_evolves | apply enterLifecycle_evolves | apply eraseKeys_evolves | apply freeLimits_evolves)
    | (with_reducible first | apply keepSerial_evolves)

theorem svcLifecycle_evolves (hk : pm .keys = true) (h : Evolves pm a s.store) (r : DmaIn) (sigOk : Bool)
    (newKey : Nat) :
    Evolves pm a (svcLifecycle r sigOk newKey s).store := by
  unfold svcLifecycle
  repeat' first
    | with_reducible assumption | (intro _; try beta_reduce)
    | (with_reducible first | apply ite_evolves | apply answer_evolves | apply lifeFirst_evolves | apply lifeToken_evolves | apply withBulk_evolves)
    | (with_reducible first | apply withObject_evolves)

theorem execLifecycleAdvance_evolves (hk : pm .keys = true) (h : Evolves pm a s.store) (r : DmaIn) (sigOk : Bool)
    (newKey : Nat) {sx : State} (he : execLifecycleAdvance r sigOk newKey s = .next sx) :
    Evolves pm a sx.store := by
  unfold execLifecycleAdvance at he; rw [← Host.Outcome.next.inj he]
  repeat' first
    | with_reducible assumption | (intro _; try beta_reduce)
    | (with_reducible first | apply mboxService_evolves | apply svcLifecycle_evolves)

theorem tckFault_evolves (h : Evolves pm a s.store) (health : Bool) : Evolves pm a (tckFault health s).store := by
  unfold tckFault
  repeat' first
    | with_reducible assumption
    | (with_reducible first | apply ite_evolves | apply clrF_evolves | apply lifeAdd_evolves | apply raise_evolves | apply setF_evolves)
    | split

theorem execTckFault_evolves (h : Evolves pm a s.store) (health : Bool) {sx : State}
    (he : execTckFault health s = .next sx) :
    Evolves pm a sx.store := by
  unfold execTckFault at he; rw [← Host.Outcome.next.inj he]
  repeat' first | with_reducible assumption | (with_reducible first | apply tckFault_evolves)

theorem tackStart_evolves (hw : pm .world = true) (h : Evolves pm a s.store) : Evolves pm a (tackStart s).store := by
  unfold tackStart; try dsimp only
  repeat' first
    | with_reducible assumption
    | (with_reducible first | apply ite_evolves | apply evalUpdate_evolves | apply loadLimits_evolves | apply setF_evolves | apply setRegions_evolves)
    | (with_reducible first | apply setSeal_evolves | apply wr64_evolves) | simp only [store_mk, store_eta] | split

end Machine
end Sys2Proof
end

