-- ==== Sys2Proof/Laws/EvolvesDiag.lean ====
section
/-!
SUPPORT. Every operation of Diag.lean is an evolution (Laws/Evolves.lean).
-/
namespace Sys2Proof
namespace Machine

variable {pm : Part → Bool} {a : Store} {s : State}

theorem pendClear_evolves (h : Evolves pm a s.store) (w : Fin 16) (v : Word) :
    Evolves pm a (pendClear w v s).store := by
  unfold pendClear; try dsimp only
  repeat' first
    | with_reducible assumption | (intro _; try beta_reduce)
    | (with_reducible first | apply ite_evolves | apply foldl_evolves | apply clrF_evolves | apply signalVector_evolves)

theorem execPendClear_evolves (h : Evolves pm a s.store) (sec : Bool) (w : Fin 16) (v : Word) {sx : State}
    (he : execPendClear sec w v s = .next sx) :
    Evolves pm a sx.store := by
  unfold execPendClear at he; rw [← Host.Outcome.next.inj he]
  repeat' first
    | with_reducible assumption | (intro _; try beta_reduce)
    | (with_reducible first | apply hostWrite_evolves | apply pendClear_evolves)

theorem cfgField_evolves (h : Evolves pm a s.store) (f : Fld) (v : Nat) (ok : Bool) :
    Evolves pm a (cfgField f v ok s).store := by
  unfold cfgField
  repeat' first
    | with_reducible assumption
    | (with_reducible first | apply ite_evolves | apply put_evolves | apply setF_evolves)

theorem srcWrite_evolves (h : Evolves pm a s.store) (n : Nat) (v : Nat) : Evolves pm a (srcWrite n v s).store := by
  unfold srcWrite; try dsimp only
  repeat' first | with_reducible assumption | (with_reducible first | apply cfgField_evolves | apply put_evolves)

theorem dgnCfgWrite_evolves (h : Evolves pm a s.store) (v : Nat) : Evolves pm a (dgnCfgWrite v s).store := by
  unfold dgnCfgWrite
  repeat' first | with_reducible assumption | (with_reducible first | apply cfgField_evolves | apply put_evolves)

theorem execEventConfigWrite_evolves (h : Evolves pm a s.store) (sec : Bool) (n : Fin 513) (v : Word) {sx : State}
    (he : execEventConfigWrite sec n v s = .next sx) :
    Evolves pm a sx.store := by
  unfold execEventConfigWrite at he; rw [← Host.Outcome.next.inj he]
  repeat' first
    | with_reducible assumption | (intro _; try beta_reduce)
    | (with_reducible first | apply ite_evolves | apply dgnCfgWrite_evolves | apply hostWrite_evolves | apply srcWrite_evolves)

theorem startFetch_evolves (h : Evolves pm a s.store) : Evolves pm a (startFetch s).store := by
  unfold startFetch; try dsimp only
  repeat' first
    | with_reducible assumption | (intro _; try beta_reduce)
    | (with_reducible first | apply foldl_evolves | apply clrF_evolves | apply wrN_evolves)
    | simp only [store_mk, store_eta]

theorem cursorWrite_evolves (h : Evolves pm a s.store) (v : Word) : Evolves pm a (cursorWrite v s).store := by
  unfold cursorWrite
  repeat' first | with_reducible assumption | (with_reducible first | apply startFetch_evolves | apply wr_evolves)

theorem execCursorWrite_evolves (h : Evolves pm a s.store) (sec : Bool) (v : Word) {sx : State}
    (he : execCursorWrite sec v s = .next sx) :
    Evolves pm a sx.store := by
  unfold execCursorWrite at he; rw [← Host.Outcome.next.inj he]
  repeat' first
    | with_reducible assumption | (intro _; try beta_reduce)
    | (with_reducible first | apply cursorWrite_evolves | apply hostWrite_evolves)

theorem recordFetchDone_evolves (h : Evolves pm a s.store) : Evolves pm a (recordFetchDone s).store := by
  unfold recordFetchDone; try dsimp only
  repeat' first
    | with_reducible assumption | (intro _; try beta_reduce)
    | (with_reducible first | apply ite_evolves | apply foldl_evolves | apply setF_evolves | apply wrN_evolves)
    | simp only [store_mk, store_eta] | split

theorem execRecordFetchDone_evolves (h : Evolves pm a s.store) {sx : State} (he : execRecordFetchDone s = .next sx) :
    Evolves pm a sx.store := by
  unfold execRecordFetchDone at he; rw [← Host.Outcome.next.inj he]
  repeat' first | with_reducible assumption | (with_reducible first | apply recordFetchDone_evolves)

theorem recordReadAdvance_evolves (h : Evolves pm a s.store) : Evolves pm a (recordReadAdvance s).store := by
  unfold recordReadAdvance
  repeat' first
    | with_reducible assumption
    | (with_reducible first | apply ite_evolves | apply addW_evolves | apply startFetch_evolves)

theorem execRecordReadAdvance_evolves (h : Evolves pm a s.store) (sec : Bool) {sx : State}
    (he : execRecordReadAdvance sec s = .next sx) :
    Evolves pm a sx.store := by
  unfold execRecordReadAdvance at he; rw [← Host.Outcome.next.inj he]
  repeat' first
    | with_reducible assumption
    | (with_reducible first | apply ite_evolves | apply recordReadAdvance_evolves | apply regWorldFault_evolves)

theorem execFreeze_evolves (h : Evolves pm a s.store) (sec : Bool) {sx : State} (he : execFreeze sec s = .next sx) :
    Evolves pm a sx.store := by
  unfold execFreeze at he; rw [← Host.Outcome.next.inj he]
  repeat' first
    | with_reducible assumption | (intro _; try beta_reduce)
    | (with_reducible first | apply hostWrite_evolves | apply snapTrigger_evolves)

theorem snapIn_evolves (h : Evolves pm a s.store) (rising : Bool) : Evolves pm a (snapIn rising s).store := by
  unfold snapIn
  repeat' first | with_reducible assumption | (with_reducible first | apply ite_evolves | apply snapTrigger_evolves)

theorem execSnapIn_evolves (h : Evolves pm a s.store) (rising : Bool) {sx : State}
    (he : execSnapIn rising s = .next sx) :
    Evolves pm a sx.store := by
  unfold execSnapIn at he; rw [← Host.Outcome.next.inj he]
  repeat' first | with_reducible assumption | (with_reducible first | apply snapIn_evolves)

theorem execSnapshotCapture_evolves (h_ctxs : pm .ctxs = true) (h : Evolves pm a s.store) {sx : State}
    (he : execSnapshotCapture s = .next sx) :
    Evolves pm a sx.store := by
  unfold execSnapshotCapture at he; rw [← Host.Outcome.next.inj he]
  repeat' first | with_reducible assumption | (with_reducible first | apply snapshotCapture_evolves)

theorem execSnapshotRelease_evolves (h : Evolves pm a s.store) (sec : Bool) {sx : State}
    (he : execSnapshotRelease sec s = .next sx) :
    Evolves pm a sx.store := by
  unfold execSnapshotRelease at he; rw [← Host.Outcome.next.inj he]
  repeat' first
    | with_reducible assumption | (intro _; try beta_reduce)
    | (with_reducible first | apply hostWrite_evolves | apply snapshotRelease_evolves)

theorem withDiag_evolves (h_ctxs : pm .ctxs = true) (h : Evolves pm a s.store) (c : Fin 256) (op : Nat)
    (k : Desc → State → State) (hk : ∀ x0 u, Evolves pm a u.store → Evolves pm a (k x0 u).store) :
    Evolves pm a (withDiag c op k s).store := by
  unfold withDiag
  repeat' first
    | with_reducible assumption | (intro _; try beta_reduce)
    | (with_reducible first | apply blockCheck_evolves | apply withDesc_evolves | apply hk)

theorem opSnapRead_evolves (h_ctxs : pm .ctxs = true) (h : Evolves pm a s.store) (c : Fin 256) (d : Desc) :
    Evolves pm a (opSnapRead c d s).store := by
  unfold opSnapRead; try dsimp only
  repeat' first
    | with_reducible assumption
    | (with_reducible first | apply ite_evolves | apply complete_evolves | apply emit_evolves | apply formatZero_evolves | apply snapshotRelease_evolves)
    | simp only [store_mk, store_eta] | split

theorem execDgnSnapRead_evolves (h_ctxs : pm .ctxs = true) (h : Evolves pm a s.store) (c : Fin 256) {sx : State}
    (he : execDgnSnapRead c s = .next sx) :
    Evolves pm a sx.store := by
  unfold execDgnSnapRead at he; rw [← Host.Outcome.next.inj he]
  repeat' first
    | with_reducible assumption | (intro _; try beta_reduce)
    | (with_reducible first | apply opSnapRead_evolves | apply withDiag_evolves)

theorem opLifetimeRead_evolves (h_ctxs : pm .ctxs = true) (h : Evolves pm a s.store) (c : Fin 256) (d : Desc) :
    Evolves pm a (opLifetimeRead c d s).store := by
  unfold opLifetimeRead; try dsimp only
  repeat' first
    | with_reducible assumption
    | (with_reducible first | apply ite_evolves | apply complete_evolves | apply emit_evolves | apply formatZero_evolves)

theorem execDgnLifetimeRead_evolves (h_ctxs : pm .ctxs = true) (h : Evolves pm a s.store) (c : Fin 256) {sx : State}
    (he : execDgnLifetimeRead c s = .next sx) :
    Evolves pm a sx.store := by
  unfold execDgnLifetimeRead at he; rw [← Host.Outcome.next.inj he]
  repeat' first
    | with_reducible assumption | (intro _; try beta_reduce)
    | (with_reducible first | apply opLifetimeRead_evolves | apply withDiag_evolves)

theorem opRecorderRead_evolves (h_ctxs : pm .ctxs = true) (h : Evolves pm a s.store) (c : Fin 256) (d : Desc) :
    Evolves pm a (opRecorderRead c d s).store := by
  unfold opRecorderRead; try dsimp only
  repeat' first
    | with_reducible assumption | (intro _; try beta_reduce)
    | (with_reducible first | apply ite_evolves | apply complete_evolves | apply emit_evolves | apply formatZero_evolves)
    | split

theorem execDgnRecorderRead_evolves (h_ctxs : pm .ctxs = true) (h : Evolves pm a s.store) (c : Fin 256) {sx : State}
    (he : execDgnRecorderRead c s = .next sx) :
    Evolves pm a sx.store := by
  unfold execDgnRecorderRead at he; rw [← Host.Outcome.next.inj he]
  repeat' first
    | with_reducible assumption | (intro _; try beta_reduce)
    | (with_reducible first | apply opRecorderRead_evolves | apply withDiag_evolves)

theorem execDgnTraceBuf_evolves (h_cmpJobs : pm .cmpJobs = true) (h_ctxs : pm .ctxs = true)
    (h_traces : pm .traces = true) (h : Evolves pm a s.store) (c : Fin 256) {sx : State}
    (he : execDgnTraceBuf c s = .next sx) :
    Evolves pm a sx.store := by
  unfold execDgnTraceBuf at he; rw [← Host.Outcome.next.inj he]
  repeat' first
    | with_reducible assumption | (intro _; try beta_reduce)
    | (with_reducible first | apply opTraceBuf_evolves | apply withDiag_evolves)
    | simp only [store_mk, store_eta] | split

theorem opFreeze_evolves (h_ctxs : pm .ctxs = true) (h : Evolves pm a s.store) (c : Fin 256) (d : Desc) :
    Evolves pm a (opFreeze c d s).store := by
  unfold opFreeze; try dsimp only
  repeat' first
    | with_reducible assumption
    | (with_reducible first | apply ite_evolves | apply complete_evolves | apply formatZero_evolves | apply snapTrigger_evolves)

theorem execDgnFreeze_evolves (h_ctxs : pm .ctxs = true) (h : Evolves pm a s.store) (c : Fin 256) {sx : State}
    (he : execDgnFreeze c s = .next sx) :
    Evolves pm a sx.store := by
  unfold execDgnFreeze at he; rw [← Host.Outcome.next.inj he]
  repeat' first
    | with_reducible assumption | (intro _; try beta_reduce)
    | (with_reducible first | apply opFreeze_evolves | apply withDiag_evolves)

end Machine
end Sys2Proof
end

