-- ==== Sys2Proof/Laws/EvolvesReset.lean ====
section
/-!
SUPPORT. Every operation of Reset.lean is an evolution (Laws/Evolves.lean).
-/
namespace Sys2Proof
namespace Machine

variable {pm : Part → Bool} {a : Store} {s : State}

theorem heartbeatLost_evolves (h_axes : pm .axes = true) (h_ctxs : pm .ctxs = true) (h_stalls : pm .stalls = true)
    (h : Evolves pm a s.store) :
    Evolves pm a (heartbeatLost s).store := by
  unfold heartbeatLost
  repeat' first
    | with_reducible assumption | (intro _; try beta_reduce)
    | (with_reducible first | apply forAll_evolves | apply axAsk_evolves | apply heartbeatExpire_evolves)
    | simp only [store_mk, store_eta]

theorem heartbeatExpired_evolves (h_axes : pm .axes = true) (h_ctxs : pm .ctxs = true)
    (h_stalls : pm .stalls = true) (h : Evolves pm a s.store) :
    Evolves pm a (heartbeatExpired s).store := by
  unfold heartbeatExpired
  repeat' first
    | with_reducible assumption | (intro _; try beta_reduce)
    | (with_reducible first | apply ite_evolves | apply forAll_evolves | apply heartbeatExpire_evolves | apply setAxis_evolves)
    | simp only [store_mk, store_eta] | split

theorem execHeartbeatExpired_evolves (h_axes : pm .axes = true) (h_ctxs : pm .ctxs = true)
    (h_stalls : pm .stalls = true) (h : Evolves pm a s.store) {sx : State} (he : execHeartbeatExpired s = .next sx)
    :
    Evolves pm a sx.store := by
  unfold execHeartbeatExpired at he; rw [← Host.Outcome.next.inj he]
  repeat' first | with_reducible assumption | (with_reducible first | apply heartbeatExpired_evolves)

theorem cutContexts_evolves (h_ctxs : pm .ctxs = true) (h : Evolves pm a s.store) :
    Evolves pm a (cutContexts s).store := by
  unfold cutContexts
  repeat' first
    | with_reducible assumption | (intro _; try beta_reduce)
    | (with_reducible first | apply ite_evolves | apply forAll_evolves | apply setCtx_evolves)

theorem cutCommand_evolves (h : Evolves pm a s.store) : Evolves pm a (cutCommand s).store := by
  unfold cutCommand
  repeat' first
    | with_reducible assumption
    | (with_reducible first | apply ite_evolves | apply clrF_evolves | apply cmdStatus_evolves)
    | simp only [store_mk, store_eta] | split

theorem msixReset_evolves {pm : Part → Bool} {a : Store} {s : State} (h : Evolves pm a s.store) :
    Evolves pm a (msixReset s).store :=
  Evolves.drop _ h

theorem hostReset_evolves (h_axes : pm .axes = true) (h_ctxs : pm .ctxs = true) (h_stalls : pm .stalls = true)
    (h : Evolves pm a s.store) :
    Evolves pm a (hostReset s).store := by
  unfold hostReset; try dsimp only
  repeat' first
    | with_reducible assumption
    | (with_reducible first | apply ite_evolves | apply cutCommand_evolves | apply cutContexts_evolves | apply heartbeatLost_evolves | apply lifeAdd_evolves)
    | (with_reducible first | apply msixReset_evolves | apply put_evolves | apply raise_evolves | apply setF_evolves | apply wrN_evolves)
    | simp only [store_mk, store_eta]

theorem linkDown_evolves (h : Evolves pm a s.store) : Evolves pm a (linkDown s).store := by
  unfold linkDown; try dsimp only
  repeat' first
    | with_reducible assumption
    | (with_reducible first | apply ite_evolves | apply clrF_evolves | apply lifeAdd_evolves | apply put_evolves | apply raise_evolves)

theorem execFunctionLevelReset_evolves (h_axes : pm .axes = true) (h_ctxs : pm .ctxs = true)
    (h_stalls : pm .stalls = true) (h : Evolves pm a s.store) {sx : State}
    (he : execFunctionLevelReset s = .next sx) :
    Evolves pm a sx.store := by
  unfold execFunctionLevelReset at he; rw [← Host.Outcome.next.inj he]
  repeat' first | with_reducible assumption | (with_reducible first | apply hostReset_evolves)

theorem d3hotEntry_evolves (h_axes : pm .axes = true) (h_ctxs : pm .ctxs = true) (h_stalls : pm .stalls = true)
    (h : Evolves pm a s.store) :
    Evolves pm a (d3hotEntry s).store := by
  unfold d3hotEntry
  repeat' first | with_reducible assumption | (with_reducible first | apply hostReset_evolves)

theorem execD3hotEntry_evolves (h_axes : pm .axes = true) (h_ctxs : pm .ctxs = true) (h_stalls : pm .stalls = true)
    (h : Evolves pm a s.store) {sx : State} (he : execD3hotEntry s = .next sx) :
    Evolves pm a sx.store := by
  unfold execD3hotEntry at he; rw [← Host.Outcome.next.inj he]
  repeat' first | with_reducible assumption | (with_reducible first | apply d3hotEntry_evolves)

theorem hotReset_evolves (h_axes : pm .axes = true) (h_ctxs : pm .ctxs = true) (h_stalls : pm .stalls = true)
    (h : Evolves pm a s.store) :
    Evolves pm a (hotReset s).store := by
  unfold hotReset
  repeat' first
    | with_reducible assumption | (with_reducible first | apply hostReset_evolves | apply linkDown_evolves)

theorem execHotReset_evolves (h_axes : pm .axes = true) (h_ctxs : pm .ctxs = true) (h_stalls : pm .stalls = true)
    (h : Evolves pm a s.store) {sx : State} (he : execHotReset s = .next sx) :
    Evolves pm a sx.store := by
  unfold execHotReset at he; rw [← Host.Outcome.next.inj he]
  repeat' first | with_reducible assumption | (with_reducible first | apply hotReset_evolves)

theorem dataLinkDown_evolves (h_axes : pm .axes = true) (h_ctxs : pm .ctxs = true) (h_stalls : pm .stalls = true)
    (h : Evolves pm a s.store) :
    Evolves pm a (dataLinkDown s).store := by
  unfold dataLinkDown
  repeat' first
    | with_reducible assumption | (with_reducible first | apply hostReset_evolves | apply linkDown_evolves)

theorem execDataLinkDown_evolves (h_axes : pm .axes = true) (h_ctxs : pm .ctxs = true)
    (h_stalls : pm .stalls = true) (h : Evolves pm a s.store) {sx : State} (he : execDataLinkDown s = .next sx) :
    Evolves pm a sx.store := by
  unfold execDataLinkDown at he; rw [← Host.Outcome.next.inj he]
  repeat' first | with_reducible assumption | (with_reducible first | apply dataLinkDown_evolves)

theorem perstAssert_evolves (h_axes : pm .axes = true) (h_ctxs : pm .ctxs = true) (h_stalls : pm .stalls = true)
    (h : Evolves pm a s.store) :
    Evolves pm a (perstAssert s).store := by
  unfold perstAssert
  repeat' first
    | with_reducible assumption | (with_reducible first | apply hostReset_evolves | apply linkDown_evolves)

theorem execPerstAssert_evolves (h_axes : pm .axes = true) (h_ctxs : pm .ctxs = true) (h_stalls : pm .stalls = true)
    (h : Evolves pm a s.store) {sx : State} (he : execPerstAssert s = .next sx) :
    Evolves pm a sx.store := by
  unfold execPerstAssert at he; rw [← Host.Outcome.next.inj he]
  repeat' first | with_reducible assumption | (with_reducible first | apply perstAssert_evolves)

theorem keepReg_evolves (h : Evolves pm a s.store) (old : State) (o : Nat) :
    Evolves pm a (keepReg old o s).store := by
  unfold keepReg
  repeat' first | with_reducible assumption | (with_reducible first | apply wrN_evolves)

theorem keepField_evolves (h : Evolves pm a s.store) (old : State) (f : Fld) :
    Evolves pm a (keepField old f s).store := by
  unfold keepField
  repeat' first | with_reducible assumption | (with_reducible first | apply put_evolves)

theorem keptState_evolves (hr : pm .reset = true) (h : Evolves pm a s.store) : Evolves pm a (keptState s).store :=
  Evolves.reset hr State.reset.store ⟨rfl, fun i => by simp [State.store, State.reset, Mem.wf, cellsRising], rfl, rfl⟩ h

theorem keptFuses_evolves (h : Evolves pm a s.store) (old : State) : Evolves pm a (keptFuses old s).store := by
  unfold keptFuses
  repeat' first
    | with_reducible assumption | (intro _; try beta_reduce)
    | (with_reducible first | apply foldl_evolves | apply keepField_evolves | apply keepReg_evolves)

theorem keptTries_evolves (h : Evolves pm a s.store) (old : State) : Evolves pm a (keptTries old s).store := by
  unfold keptTries
  repeat' first | with_reducible assumption | (with_reducible first | apply ite_evolves | apply keepField_evolves)

theorem keptThermal_evolves (h : Evolves pm a s.store) (old : State) : Evolves pm a (keptThermal old s).store := by
  unfold keptThermal; try dsimp only
  repeat' first
    | with_reducible assumption | (intro _; try beta_reduce)
    | (with_reducible first | apply ite_evolves | apply foldl_evolves | apply keepField_evolves | apply keepReg_evolves | apply put_evolves)
    | simp only [store_mk, store_eta]

theorem keptCrystal_evolves (h : Evolves pm a s.store) (old : State) : Evolves pm a (keptCrystal old s).store := by
  unfold keptCrystal; try dsimp only
  repeat' first
    | with_reducible assumption
    | (with_reducible first | apply ite_evolves | apply clrF_evolves | apply keepField_evolves | apply put_evolves)

theorem freshBays_evolves (hp : pm .bays = true) (h : Evolves pm a s.store) (old : State) :
    Evolves pm a (freshBays old s).store := Evolves.bays hp _ h

theorem keptIsland_evolves (h_bays : pm .bays = true) (h : Evolves pm a s.store) (old : State) :
    Evolves pm a (keptIsland old s).store := by
  unfold keptIsland
  repeat' first
    | with_reducible assumption | (intro _; try beta_reduce)
    | (with_reducible first | apply foldl_evolves | apply freshBays_evolves | apply keepReg_evolves)
    | simp only [store_mk, store_eta]

theorem keptTsets_evolves (h : Evolves pm a s.store) (old : State) : Evolves pm a (keptTsets old s).store := by
  unfold keptTsets
  repeat' first
    | with_reducible assumption | (intro _; try beta_reduce)
    | (with_reducible first | apply foldl_evolves | apply keepReg_evolves)

theorem countReset_evolves (h : Evolves pm a s.store) :
    Evolves pm a (countReset s).store := by
  unfold countReset; try dsimp only
  repeat' first
    | with_reducible assumption | (intro _; try beta_reduce)
    | (with_reducible first | apply lifeAdd_evolves)
    | simp only [store_mk, store_eta] | split

theorem resetAxisPins_evolves (h : Evolves pm a s.store) (old : State) (aa : Fin 8) :
    Evolves pm a (resetAxisPins old aa s).store := by
  unfold resetAxisPins; try dsimp only
  repeat' first
    | with_reducible assumption | (intro _; try beta_reduce)
    | (with_reducible first | apply ite_evolves | apply emit_evolves | apply tellAxisPins_evolves)
    | simp only [store_mk, store_eta] | split

theorem resetPortPins_evolves (h : Evolves pm a s.store) (old : State) (p : Fin 8) :
    Evolves pm a (resetPortPins old p s).store := by
  unfold resetPortPins; try dsimp only
  repeat' first
    | with_reducible assumption | (intro _; try beta_reduce)
    | (with_reducible first | apply ite_evolves | apply emit_evolves)
    | simp only [store_mk, store_eta] | split

theorem resetBayPins_evolves (h : Evolves pm a s.store) (old : State) (b : Fin 12) :
    Evolves pm a (resetBayPins old b s).store := by
  unfold resetBayPins; try dsimp only
  repeat' first
    | with_reducible assumption | (intro _; try beta_reduce)
    | (with_reducible first | apply ite_evolves | apply showStage_evolves)
    | simp only [store_mk, store_eta] | split

theorem resetSinglePins_evolves (h : Evolves pm a s.store) (old : State) :
    Evolves pm a (resetSinglePins old s).store := by
  unfold resetSinglePins; try dsimp only
  repeat' first
    | with_reducible assumption | (intro _; try beta_reduce)
    | (with_reducible first | apply ite_evolves | apply emit_evolves)
    | simp only [store_mk, store_eta] | split

theorem resetPins_evolves (h : Evolves pm a s.store) (old : State) :
    Evolves pm a (resetPins old s).store := by
  unfold resetPins; try dsimp only
  repeat' first
    | with_reducible assumption | (intro _; try beta_reduce)
    | (with_reducible first | apply forAll_evolves | apply resetAxisPins_evolves | apply resetBayPins_evolves | apply resetPortPins_evolves | apply resetSinglePins_evolves | apply tellPairs_evolves)
    | simp only [store_mk, store_eta] | split

theorem deviceReset_evolves (h_bays : pm .bays = true) (h_reset : pm .reset = true) (h : Evolves pm a s.store) :
    Evolves pm a (deviceReset s).store := by
  unfold deviceReset; try dsimp only
  repeat' first
    | with_reducible assumption | (intro _; try beta_reduce)
    | (with_reducible first | apply countReset_evolves | apply keptCrystal_evolves | apply keptFuses_evolves | apply keptIsland_evolves | apply keptState_evolves | apply keptThermal_evolves)
    | (with_reducible first | apply keptTries_evolves | apply keptTsets_evolves | apply resetPins_evolves)
    | simp only [store_mk, store_eta] | split

theorem execDeviceReset_evolves (h_bays : pm .bays = true) (hr : pm .reset = true) (h : Evolves pm a s.store)
    {sx : State} (he : execDeviceReset s = .next sx) :
    Evolves pm a sx.store := by
  unfold execDeviceReset at he; rw [← Host.Outcome.next.inj he]
  repeat' first | with_reducible assumption | (with_reducible first | apply deviceReset_evolves)

theorem recRecover_evolves (h : Evolves pm a s.store) : Evolves pm a (recRecover s).store := by
  unfold recRecover
  repeat' first
    | with_reducible assumption | (with_reducible first | apply wrN_evolves) | simp only [store_mk, store_eta]
    | split

theorem powerOnReset_evolves (h_reset : pm .reset = true) (h : Evolves pm a s.store) :
    Evolves pm a (powerOnReset s).store := by
  unfold powerOnReset; try dsimp only
  repeat' first
    | with_reducible assumption | (intro _; try beta_reduce)
    | (with_reducible first | apply keptFuses_evolves | apply keptState_evolves | apply keptTries_evolves | apply recRecover_evolves | apply resetPins_evolves)
    | simp only [store_mk, store_eta] | split

theorem execPowerOnReset_evolves (hr : pm .reset = true) (h : Evolves pm a s.store) {sx : State}
    (he : execPowerOnReset s = .next sx) :
    Evolves pm a sx.store := by
  unfold execPowerOnReset at he; rw [← Host.Outcome.next.inj he]
  repeat' first | with_reducible assumption | (with_reducible first | apply powerOnReset_evolves)

theorem railReset_evolves (h_bays : pm .bays = true) (hr : pm .reset = true) (h : Evolves pm a s.store)
    (rail : Fin 5) :
    Evolves pm a (railReset rail s).store := by
  unfold railReset
  repeat' first
    | with_reducible assumption
    | (with_reducible first | apply ite_evolves | apply deviceReset_evolves | apply powerOnReset_evolves)

theorem execRailReset_evolves (h_bays : pm .bays = true) (hr : pm .reset = true) (h : Evolves pm a s.store)
    (rail : Fin 5) {sx : State} (he : execRailReset rail s = .next sx) :
    Evolves pm a sx.store := by
  unfold execRailReset at he; rw [← Host.Outcome.next.inj he]
  repeat' first | with_reducible assumption | (with_reducible first | apply railReset_evolves)

theorem recoveryReboot_evolves (h_bays : pm .bays = true) (hr : pm .reset = true) (h : Evolves pm a s.store) :
    Evolves pm a (recoveryReboot s).store := by
  unfold recoveryReboot
  repeat' first
    | with_reducible assumption
    | (with_reducible first | apply ite_evolves | apply bootRefused_evolves | apply deviceReset_evolves)

theorem execRecoveryReboot_evolves (h_bays : pm .bays = true) (hr : pm .reset = true) (h : Evolves pm a s.store)
    (sec : Bool) {sx : State} (he : execRecoveryReboot sec s = .next sx) :
    Evolves pm a sx.store := by
  unfold execRecoveryReboot at he; rw [← Host.Outcome.next.inj he]
  repeat' first
    | with_reducible assumption | (intro _; try beta_reduce)
    | (with_reducible first | apply hostWrite_evolves | apply recoveryReboot_evolves)

theorem bootCopy_evolves (h_imgs : pm .imgs = true) (h : Evolves pm a s.store) :
    Evolves pm a (bootCopy s).store := by
  unfold bootCopy
  repeat' first
    | with_reducible assumption
    | (with_reducible first | apply ite_evolves | apply inPlaceCopyDone_evolves | apply lifeAdd_evolves | apply setF_evolves)

theorem mgmtPick_evolves {pm : Part → Bool} {a : Store} {s : State} (h_imgs : pm .imgs = true)
    (h : Evolves pm a s.store) (b : Boot) (fuel : Nat) :
    Evolves pm a (mgmtPick b fuel s).2.store := by
  induction fuel generalizing s with
  | zero => exact h
  | succ n ih =>
    unfold mgmtPick
    split
    · exact h
    · split
      · exact h
      · exact ih (authFail_evolves (setImg_evolves h_imgs h _ _ _) _)

theorem mgmtPick_evolves' {pm : Part → Bool} {a : Store} {sv : State} {xo : Option (Fin 2)} {s : State} {b : Boot} {fuel : Nat} (e : mgmtPick b fuel s = (xo, sv)) (h_imgs : pm .imgs = true) (h : Evolves pm a s.store) : Evolves pm a sv.store := by
  have := mgmtPick_evolves h_imgs h b fuel
  rw [e] at this; exact this

theorem trialAttempt_evolves (h_imgs : pm .imgs = true) (h : Evolves pm a s.store) :
    Evolves pm a (trialAttempt s).store := by
  unfold trialAttempt; try dsimp only
  repeat' first
    | with_reducible assumption | (intro _; try beta_reduce)
    | (with_reducible first | apply ite_evolves | apply addSatF_evolves | apply setImg_evolves)
    | simp only [store_mk, store_eta] | split

theorem mgmtFallback_evolves (h_imgs : pm .imgs = true) (h : Evolves pm a s.store) (k : Fin 2) (hadTrial : Bool) :
    Evolves pm a (mgmtFallback k hadTrial s).store := by
  unfold mgmtFallback
  repeat' first
    | with_reducible assumption | (intro _; try beta_reduce)
    | (with_reducible first | apply ite_evolves | apply lifeAdd_evolves | apply setF_evolves | apply setImg_evolves)
    | simp only [store_mk, store_eta]

theorem boardTake_evolves (h_imgs : pm .imgs = true) (h : Evolves pm a s.store) :
    Evolves pm a (boardTake s).store := by
  unfold boardTake
  repeat' first
    | with_reducible assumption | (with_reducible first | apply ite_evolves | apply swapSlots_evolves)
    | simp only [store_mk, store_eta]

theorem boardLoad_evolves (h : Evolves pm a s.store) (b : Boot) : Evolves pm a (boardLoad b s).store := by
  unfold boardLoad; try dsimp only
  repeat' first
    | with_reducible assumption | (intro _; try beta_reduce)
    | (with_reducible first | apply ite_evolves | apply foldl_evolves | apply wrN_evolves)
    | simp only [store_mk, store_eta] | split

theorem settingsShow_evolves (h : Evolves pm a s.store) (k : Fin 2) : Evolves pm a (settingsShow k s).store := by
  unfold settingsShow; try dsimp only
  repeat' first | with_reducible assumption | (with_reducible first | apply put_evolves)

theorem settingsMigrate_evolves (h_imgs : pm .imgs = true) (h : Evolves pm a s.store) (ok : Bool) :
    Evolves pm a (settingsMigrate ok s).store := by
  unfold settingsMigrate; try dsimp only
  repeat' first
    | with_reducible assumption | (intro _; try beta_reduce)
    | (with_reducible first | apply ite_evolves | apply lifeAdd_evolves | apply put_evolves | apply setF_evolves | apply setImg_evolves)
    | (with_reducible first | apply swapSlots_evolves) | simp only [store_mk, store_eta] | split

theorem lifeRestore_evolves (h_bays : pm .bays = true) (h : Evolves pm a s.store) (copy : Nat) :
    Evolves pm a (lifeRestore copy s).store := by
  unfold lifeRestore; dsimp only
  refine ite_evolves ?_ (recNew_evolves (raise_evolves (setF_evolves ?_ _) _) _ _ _)
  all_goals
    refine wrN_evolves (wrN_evolves (wrN_evolves ?_ _ _) _ _) _ _
    simp only [store_mk]
    exact Evolves.bays h_bays _ h

theorem coldBoot_evolves (h_bays : pm .bays = true) (h : Evolves pm a s.store) (b : Boot) :
    Evolves pm a (coldBoot b s).store := by
  unfold coldBoot; try dsimp only
  repeat' first
    | with_reducible assumption | (intro _; try beta_reduce)
    | (with_reducible first | apply ite_evolves | apply addW_evolves | apply countReset_evolves | apply lifeRestore_evolves | apply recNew_evolves)
    | simp only [store_mk, store_eta] | split

theorem bootTrain_evolves (h : Evolves pm a s.store) (b : Boot) :
    Evolves pm a (bootTrain b s).store := by
  unfold bootTrain; try dsimp only
  repeat' first
    | with_reducible assumption | (intro _; try beta_reduce)
    | (with_reducible first | apply ite_evolves | apply beginTraining_evolves | apply trainingDone_evolves)
    | simp only [store_mk, store_eta] | split

theorem bootRest_evolves (h_bays : pm .bays = true) (h_imgs : pm .imgs = true) (h_stalls : pm .stalls = true)
    (h : Evolves pm a s.store) (b : Boot) (k : Fin 2) :
    Evolves pm a (bootRest b k s).store := by
  unfold bootRest; try dsimp only
  repeat' first
    | with_reducible assumption | (intro _; try beta_reduce)
    | (with_reducible first | apply ite_evolves | apply authFail_evolves | apply boardLoad_evolves | apply boardTake_evolves | apply bootTrain_evolves | apply coldBoot_evolves)
    | (with_reducible first | apply enterRecovery_evolves | apply evalUpdate_evolves | apply inhibitOff_evolves | apply put_evolves | apply revertRoot_evolves | apply setF_evolves)
    | (with_reducible first | apply settingsMigrate_evolves | apply settingsShow_evolves | apply trialPassed_evolves)
    | simp only [store_mk, store_eta] | split

theorem bootMgmt_evolves (h_bays : pm .bays = true) (h_imgs : pm .imgs = true) (h_stalls : pm .stalls = true)
    (h : Evolves pm a s.store) (b : Boot) (hadTrial : Bool) (counts : Bool) :
    Evolves pm a (bootMgmt b hadTrial counts s).store := by
  unfold bootMgmt; try dsimp only
  repeat' first
    | with_reducible assumption | (intro _; try beta_reduce)
    | (with_reducible first | apply ite_evolves | apply bootRest_evolves | apply enterRecovery_evolves | apply lifeAdd_evolves | apply mgmtFallback_evolves | apply mgmtPick_evolves)
    | (with_reducible first | apply (mgmtPick_evolves' (by with_reducible assumption)) | apply put_evolves)
    | simp only [store_mk, store_eta] | split

theorem bootFirst_evolves (h_bays : pm .bays = true) (h_imgs : pm .imgs = true) (h_stalls : pm .stalls = true)
    (h_world : pm .world = true) (h : Evolves pm a s.store) (b : Boot) :
    Evolves pm a (bootFirst b s).store := by
  unfold bootFirst; try dsimp only
  repeat' first
    | with_reducible assumption | (intro _; try beta_reduce)
    | (with_reducible first | apply ite_evolves | apply authFail_evolves | apply bootCopy_evolves | apply bootMgmt_evolves | apply enterRecovery_evolves | apply put_evolves)
    | (with_reducible first | apply tackStart_evolves | apply trialAttempt_evolves)
    | simp only [store_mk, store_eta] | split

theorem startUp_evolves (h_bays : pm .bays = true) (h_imgs : pm .imgs = true) (h_stalls : pm .stalls = true)
    (h_world : pm .world = true) (h : Evolves pm a s.store) (b : Boot) :
    Evolves pm a (startUp b s).store := by
  unfold startUp; try dsimp only
  repeat' first
    | with_reducible assumption | (intro _; try beta_reduce)
    | (with_reducible first | apply ite_evolves | apply bootFirst_evolves | apply bootMgmt_evolves)
    | simp only [store_mk, store_eta] | split

theorem execStartUp_evolves (h_bays : pm .bays = true) (h_imgs : pm .imgs = true) (h_stalls : pm .stalls = true)
    (h_world : pm .world = true) (h : Evolves pm a s.store) (b : Boot) {sx : State}
    (he : execStartUp b s = .next sx) :
    Evolves pm a sx.store := by
  unfold execStartUp at he; rw [← Host.Outcome.next.inj he]
  repeat' first
    | with_reducible assumption | (intro _; try beta_reduce)
    | (with_reducible first | apply startUp_evolves)
    | simp only [store_mk, store_eta] | split

end Machine
end Sys2Proof
end

