-- ==== Sys2Proof/Laws/EvolvesBus.lean ====
section
/-!
SUPPORT. Every operation of Bus.lean is an evolution (Laws/Evolves.lean).
-/
namespace Sys2Proof
namespace Machine

variable {pm : Part → Bool} {a : Store} {s : State}

theorem accessRefused_evolves (h : Evolves pm a s.store) (o : Nat) : Evolves pm a (accessRefused o s).store := by
  unfold accessRefused
  repeat' first
    | with_reducible assumption
    | (with_reducible first | apply accessErr_evolves | apply raise_evolves | apply setF_evolves)

theorem readRefused_evolves (h : Evolves pm a s.store) (o : Nat) (wide : Bool) :
    Evolves pm a (readRefused o wide s).store := by
  unfold readRefused
  repeat' first
    | with_reducible assumption
    | (with_reducible first | apply ite_evolves | apply accessRefused_evolves | apply emit_evolves)

theorem unsupportedAccess_evolves (h : Evolves pm a s.store) (o : Nat) (write : Bool) :
    Evolves pm a (unsupportedAccess o write s).store := by
  unfold unsupportedAccess
  repeat' first
    | with_reducible assumption
    | (with_reducible first | apply ite_evolves | apply accessRefused_evolves | apply readRefused_evolves)

theorem execUnsupportedAccess_evolves (h : Evolves pm a s.store) (o : Nat) (write : Bool) {sx : State}
    (he : execUnsupportedAccess o write s = .next sx) :
    Evolves pm a sx.store := by
  unfold execUnsupportedAccess at he; rw [← Host.Outcome.next.inj he]
  repeat' first | with_reducible assumption | (with_reducible first | apply unsupportedAccess_evolves)

theorem storeWord_evolves (h : Evolves pm a s.store) (o : Nat) (v : Nat) : Evolves pm a (storeWord o v s).store := by
  unfold storeWord; try dsimp only
  repeat' first
    | with_reducible assumption
    | (with_reducible first | apply ite_evolves | apply clrF_evolves | apply emit_evolves | apply wrN_evolves)

theorem imagingWrite_evolves' {sec : Bool} {o : Nat} {v : Word} {t : State} (e : imagingWrite sec o v s = some t)
    (h : Evolves pm a s.store) : Evolves pm a t.store := by
  unfold imagingWrite at e
  split at e
  · cases e; exact phyCfgWrite_evolves h _ _ _
  split at e
  · cases e; exact cciCfgWrite_evolves h _ _ _
  split at e
  · cases e; exact pipeCfgWrite_evolves h _ _ _
  split at e
  · cases e; exact pipeCfgWrite_evolves h _ _ _
  · cases e

theorem writeRegister_evolves (h : Evolves pm a s.store) (sec : Bool) (o : Nat) (v : Word) :
    Evolves pm a (writeRegister sec o v s).store := by
  unfold writeRegister; try dsimp only
  repeat' first
    | with_reducible assumption | (intro _; try beta_reduce)
    | (with_reducible first | apply ite_evolves | apply wr_evolves | apply evalUpdate_evolves | apply hostWrite_evolves | apply mboxOverrun_evolves | apply secureWrite_evolves)
    | (with_reducible first | apply setSeal_evolves | apply storeWord_evolves | apply tsetWrite_evolves | apply wrN_evolves)
    | exact imagingWrite_evolves' (by with_reducible assumption) h
    | simp only [store_mk, store_eta] | split

theorem writeWide_evolves (h : Evolves pm a s.store) (sec : Bool) (o : Nat) (w : Wr64) :
    Evolves pm a (writeWide sec o w s).store := by
  unfold writeWide
  repeat' first
    | with_reducible assumption | (intro _; try beta_reduce)
    | (with_reducible first | apply hostWrite_evolves | apply storeWord_evolves | apply withWide_evolves)

theorem write32_evolves (h : Evolves pm a s.store) (sec : Bool) (o : Nat) (v : Word) :
    Evolves pm a (write32 sec o v s).store := by
  unfold write32
  repeat' first
    | with_reducible assumption | (intro _; try beta_reduce)
    | (with_reducible first | apply ite_evolves | apply hostWrite_evolves | apply writeRegister_evolves | apply writeWide_evolves)
    | simp only [store_mk, store_eta] | split | dsimp only [id]

theorem write64_evolves (h : Evolves pm a s.store) (sec : Bool) (o : Nat) (v : BitVec 64) :
    Evolves pm a (write64 sec o v s).store := by
  unfold write64
  repeat' first
    | with_reducible assumption
    | (with_reducible first | apply ite_evolves | apply write32_evolves | apply writeWide_evolves)
    | simp only [store_mk, store_eta] | split

theorem registerWrite_evolves (h : Evolves pm a s.store) (sec : Bool) (o : Nat) (w : Wr64) :
    Evolves pm a (registerWrite sec o w s).store := by
  unfold registerWrite
  repeat' first
    | with_reducible assumption
    | (with_reducible first | apply ite_evolves | apply accessRefused_evolves | apply write32_evolves | apply write64_evolves)
    | simp only [store_mk, store_eta] | split

theorem execRegisterWrite_evolves (h : Evolves pm a s.store) (sec : Bool) (o : Nat) (w : Wr64) {sx : State}
    (he : execRegisterWrite sec o w s = .next sx) :
    Evolves pm a sx.store := by
  unfold execRegisterWrite at he; rw [← Host.Outcome.next.inj he]
  repeat' first | with_reducible assumption | (with_reducible first | apply registerWrite_evolves)

theorem windowRead_evolves (h_stalls : pm .stalls = true) (h : Evolves pm a s.store) (sec : Bool) (o : Nat)
    (st : Fin 6) (off : Nat) :
    Evolves pm a (windowRead sec o st off s).2.store := by
  unfold windowRead; try dsimp only
  repeat' first
    | with_reducible assumption | (intro _; try beta_reduce)
    | (with_reducible first | apply ite_evolves | apply accessErr_evolves | apply setF_evolves | apply wordRead_evolves | apply worldFault_evolves)
    | simp only [store_mk, store_eta] | split

theorem windowRead_evolves' {pm : Part → Bool} {a : Store} {sv : State} {xo : Nat} {s : State} {h_stalls : pm .stalls = true} {sec : Bool} {o : Nat} {st : Fin 6} {off : Nat} (e : windowRead sec o st off s = (xo, sv)) (h : Evolves pm a s.store) : Evolves pm a sv.store := by
  have := windowRead_evolves h_stalls h sec o st off
  rw [e] at this; exact this

theorem readWord32_evolves (h_ports : pm .ports = true) (h_stalls : pm .stalls = true) (h : Evolves pm a s.store)
    (sec : Bool) (o : Nat) :
    Evolves pm a (readWord32 sec o s).2.store := by
  unfold readWord32; try dsimp only
  repeat' first
    | with_reducible assumption | (intro _; try beta_reduce)
    | (with_reducible first | apply ite_evolves | apply latchPos_evolves | apply windowRead_evolves | apply (windowRead_evolves' (by with_reducible assumption)) | apply wrN_evolves)
    | simp only [store_mk, store_eta] | split

theorem readWord32_evolves' {pm : Part → Bool} {a : Store} {sv : State} {xo : Nat} {s : State} {h_ports : pm .ports = true} {h_stalls : pm .stalls = true} {sec : Bool} {o : Nat} (e : readWord32 sec o s = (xo, sv)) (h : Evolves pm a s.store) : Evolves pm a sv.store := by
  have := readWord32_evolves h_ports h_stalls h sec o
  rw [e] at this; exact this

theorem readWord64_evolves (h_ports : pm .ports = true) (h_stalls : pm .stalls = true) (h : Evolves pm a s.store)
    (sec : Bool) (o : Nat) :
    Evolves pm a (readWord64 sec o s).2.store := by
  unfold readWord64; try dsimp only
  repeat' first
    | with_reducible assumption | (intro _; try beta_reduce)
    | (with_reducible first | apply ite_evolves | apply readWord32_evolves | apply (readWord32_evolves' (by with_reducible assumption)))
    | simp only [store_mk, store_eta] | split

theorem readWord64_evolves' {pm : Part → Bool} {a : Store} {sv : State} {xo : Nat} {s : State} {h_ports : pm .ports = true} {h_stalls : pm .stalls = true} {sec : Bool} {o : Nat} (e : readWord64 sec o s = (xo, sv)) (h : Evolves pm a s.store) : Evolves pm a sv.store := by
  have := readWord64_evolves h_ports h_stalls h sec o
  rw [e] at this; exact this

theorem readClear_evolves (h_ports : pm .ports = true) (h_stalls : pm .stalls = true) (h : Evolves pm a s.store)
    (sec : Bool) (o : Nat) (wide : Bool) :
    Evolves pm a (readClear sec o wide s).store := by
  unfold readClear; try dsimp only
  repeat' first
    | with_reducible assumption | (intro _; try beta_reduce)
    | (with_reducible first | apply ite_evolves | apply emit_evolves | apply readRefused_evolves | apply readWord32_evolves | apply (readWord32_evolves' (by with_reducible assumption)) | apply readWord64_evolves)
    | (with_reducible first | apply (readWord64_evolves' (by with_reducible assumption)) | apply regWorldFault_evolves | apply wide_evolves | apply (wide_evolves' (by with_reducible assumption)))
    | simp only [store_mk, store_eta] | split

theorem execReadClear_evolves (h_ports : pm .ports = true) (h_stalls : pm .stalls = true) (h : Evolves pm a s.store)
    (sec : Bool) (o : Nat) (wide : Bool) {sx : State} (he : execReadClear sec o wide s = .next sx) :
    Evolves pm a sx.store := by
  unfold execReadClear at he; rw [← Host.Outcome.next.inj he]
  repeat' first
    | with_reducible assumption | (intro _; try beta_reduce)
    | (with_reducible first | apply readClear_evolves | apply wide_evolves | apply (wide_evolves' (by with_reducible assumption)))
    | simp only [store_mk, store_eta] | split

end Machine
end Sys2Proof
end

