-- ==== Sys2Proof/Laws/EvolvesTick.lean ====
section
/-!
SUPPORT. Every operation of Tick.lean is an evolution (Laws/Evolves.lean).
-/
namespace Sys2Proof
namespace Machine

variable {pm : Part → Bool} {a : Store} {s : State}

theorem stallFaults_evolves {pm : Part → Bool} {a : Store} {s : State} (h_ctxs : pm .ctxs = true)
    (h_seams : pm .seams = true) (h_stalls : pm .stalls = true) (h : Evolves pm a s.store) (g : Fin 48) :
    Evolves pm a (stallFaults g s).store := by
  unfold stallFaults
  exact strokeTimeout_evolves h_ctxs h_seams h_stalls (syncMismatch_evolves h_ctxs h_seams h_stalls (trajectoryFault_evolves h_ctxs h_seams h_stalls (programError_evolves h_ctxs h_seams h_stalls
    (inhibitStopComplete_evolves h_ctxs h_seams h_stalls (mvUnderrun_evolves h_ctxs h_seams h_stalls h g) g) g) g 0) g) g

theorem stallHolds_evolves (h_ctxs : pm .ctxs = true) (h_stalls : pm .stalls = true) (h : Evolves pm a s.store)
    (g : Fin 48) :
    Evolves pm a (stallHolds g s).store := by
  unfold stallHolds
  repeat' first
    | with_reducible assumption
    | (with_reducible first | apply holdTakesEffect_evolves | apply islandDeadline_evolves | apply programEmpty_evolves | apply seamHold_evolves | apply starvedHold_evolves)
    | (with_reducible first | apply syncTimeout_evolves)

theorem stallArrivals_evolves (h_ctxs : pm .ctxs = true) (h_engs : pm .engs = true) (h_stalls : pm .stalls = true)
    (h : Evolves pm a s.store) (g : Fin 48) :
    Evolves pm a (stallArrivals g s).store := by
  unfold stallArrivals
  repeat' first
    | with_reducible assumption
    | (with_reducible first | apply layerEndReached_evolves | apply programEndReached_evolves | apply syncBarrierReached_evolves)

theorem stallReturns_evolves (h_ctxs : pm .ctxs = true) (h_engs : pm .engs = true) (h_stalls : pm .stalls = true)
    (h : Evolves pm a s.store) (g : Fin 48) :
    Evolves pm a (stallReturns g s).store := by
  unfold stallReturns
  repeat' first
    | with_reducible assumption
    | (with_reducible first | apply holdReturn_evolves | apply stallOnline_evolves | apply syncBarrierRelease_evolves)

theorem sendSetpoints_evolves (h : Evolves pm a s.store) :
    Evolves pm a (sendSetpoints s).store := by
  unfold sendSetpoints; try dsimp only
  repeat' first
    | with_reducible assumption | (intro _; try beta_reduce)
    | (with_reducible first | apply ite_evolves | apply forAll_evolves | apply countSamples_evolves | apply setpointFrame_evolves)
    | simp only [store_mk, store_eta] | split

theorem settleStates_evolves (h_axes : pm .axes = true) (h_ctxs : pm .ctxs = true) (h_engs : pm .engs = true)
    (h_seams : pm .seams = true) (h_stalls : pm .stalls = true) (h_txns : pm .txns = true)
    (h : Evolves pm a s.store) :
    Evolves pm a (settleStates s).store := by
  unfold settleStates; try dsimp only
  repeat' first
    | with_reducible assumption | (intro _; try beta_reduce)
    | (with_reducible first | apply forAll_evolves | apply abortComplete_evolves | apply heartbeatExpired_evolves | apply laserInhibitAsserted_evolves | apply layerBarrierReached_evolves)
    | (with_reducible first | apply programEmptyCleared_evolves | apply stallArrivals_evolves | apply stallFaults_evolves | apply stallHolds_evolves | apply stallReturns_evolves)
    | (with_reducible first | apply starvedCleared_evolves)

theorem planError_evolves (h_ctxs : pm .ctxs = true) (h_seams : pm .seams = true) (h_stalls : pm .stalls = true)
    (h : Evolves pm a s.store) (g : Fin 48) (e : Nat) :
    Evolves pm a (planError g e s).store := by
  unfold planError; try dsimp only
  repeat' first
    | with_reducible assumption | (intro _; try beta_reduce)
    | (with_reducible first | apply ite_evolves | apply gridError_evolves | apply setStall_evolves | apply tableError_evolves | apply trajectoryFault_evolves)
    | simp only [store_mk, store_eta] | split

theorem tableStep_evolves (h_stalls : pm .stalls = true) (h : Evolves pm a s.store) (errs : List (Fin 48 × Nat))
    (old : State) :
    Evolves pm a (tableStep errs old s).store := by
  unfold tableStep; try dsimp only
  repeat' first
    | with_reducible assumption | (intro _; try beta_reduce)
    | (with_reducible first | apply ite_evolves | apply foldl_evolves | apply setStall_evolves | apply tableError_evolves)
    | simp only [store_mk, store_eta] | split

theorem parseStall_evolves (h_seams : pm .seams = true) (h_stalls : pm .stalls = true) (h : Evolves pm a s.store)
    (g : Fin 48) :
    Evolves pm a (parseStall g s).store := by
  unfold parseStall; try dsimp only
  repeat' first
    | with_reducible assumption | (intro _; try beta_reduce)
    | (with_reducible first | apply ite_evolves | apply parseAll_evolves | apply setStall_evolves)
    | simp only [store_mk, store_eta]

theorem microvectorRest_evolves (h_axes : pm .axes = true) (h_bays : pm .bays = true) (h_ctxs : pm .ctxs = true)
    (h_engs : pm .engs = true) (h_fars : pm .fars = true) (h_imgs : pm .imgs = true) (h_lamps : pm .lamps = true)
    (h_seams : pm .seams = true) (h_stalls : pm .stalls = true) (h_txns : pm .txns = true)
    (h : Evolves pm a s.store) (errs : List (Fin 48 × Nat)) :
    Evolves pm a (microvectorRest errs s).store := by
  unfold microvectorRest; try dsimp only
  repeat' first
    | with_reducible assumption | (intro _; try beta_reduce)
    | (with_reducible first | apply forAll_evolves | apply foldl_evolves | apply axisEarly_evolves | apply axisLate_evolves | apply cleStep_evolves | apply engineStep_evolves)
    | (with_reducible first | apply gateStep_evolves | apply gridRefused_evolves | apply holdTrim_evolves | apply horizonStep_evolves | apply judgeBarriers_evolves | apply marshalStep_evolves)
    | (with_reducible first | apply parseStall_evolves | apply planError_evolves | apply seamMove_evolves | apply seamPauseEnd_evolves | apply squashDueStep_evolves | apply tableStep_evolves)
    | simp only [store_mk, store_eta] | split

theorem moveTime_evolves (ht : pm .time = true) (h : Evolves pm a s.store) (t dt : Nat) :
    Evolves pm a (moveTime t dt s).store := Evolves.time ht _ _ h

theorem advance_evolves (h_ask : pm .ask = true) (h_ctxs : pm .ctxs = true) (h_period : pm .period = true)
    (h_ports : pm .ports = true) (h_stalls : pm .stalls = true) (h_time : pm .time = true)
    (h_tports : pm .tports = true) (h : Evolves pm a s.store) :
    Evolves pm a (advance s).store := by
  unfold advance; try dsimp only
  repeat' first
    | with_reducible assumption | (intro _; try beta_reduce)
    | (with_reducible first | apply clockTick_evolves | apply moveTime_evolves | apply mvPeriodChange_evolves | apply setApplied_evolves | apply timeTick_evolves)
    | simp only [store_mk, store_eta] | split

theorem stallDue_evolves (h_stalls : pm .stalls = true) (h : Evolves pm a s.store) (g : Fin 48) :
    Evolves pm a (stallDue g s).store := by
  unfold stallDue
  repeat' first
    | with_reducible assumption | (intro _; try beta_reduce) | (with_reducible first | apply setStall_evolves)
    | simp only [store_mk, store_eta]

theorem takeRegisters_evolves (h_engs : pm .engs = true) (h : Evolves pm a s.store) :
    Evolves pm a (takeRegisters s).store := by
  unfold takeRegisters; try dsimp only
  repeat' first
    | with_reducible assumption | (intro _; try beta_reduce)
    | (with_reducible first | apply ite_evolves | apply forAll_evolves | apply engTick_evolves | apply keepParams_evolves)
    | simp only [store_mk, store_eta] | split

theorem takeRequests_evolves (h_engs : pm .engs = true) (h_stalls : pm .stalls = true) (hw : pm .world = true)
    (h : Evolves pm a s.store) :
    Evolves pm a (takeRequests s).store := by
  unfold takeRequests; try dsimp only
  repeat' first
    | with_reducible assumption | (intro _; try beta_reduce)
    | (with_reducible first | apply ite_evolves | apply forAll_evolves | apply clrF_evolves | apply showWait_evolves | apply stallDue_evolves)
    | (with_reducible first | apply takeRegisters_evolves | apply worldTick_evolves)
    | simp only [store_mk, store_eta]

theorem takeRelease_evolves (h_ctxs : pm .ctxs = true) (h_stalls : pm .stalls = true) (h : Evolves pm a s.store)
    (g : Fin 48) :
    Evolves pm a (takeRelease g s).store := by
  unfold takeRelease; try dsimp only
  repeat' first
    | with_reducible assumption | (intro _; try beta_reduce)
    | (with_reducible first | apply ite_evolves | apply releaseNow_evolves | apply setStall_evolves | apply tellStall_evolves)
    | simp only [store_mk, store_eta] | split

theorem takeFault_evolves (h_ctxs : pm .ctxs = true) (h_engs : pm .engs = true) (h_seams : pm .seams = true)
    (h_stalls : pm .stalls = true) (h : Evolves pm a s.store) (g : Fin 48) :
    Evolves pm a (takeFault g s).store := by
  unfold takeFault; try dsimp only
  repeat' first
    | with_reducible assumption | (intro _; try beta_reduce)
    | (with_reducible first | apply ite_evolves | apply abortComplete_evolves | apply faultStep_evolves | apply takeRelease_evolves)
    | simp only [store_mk, store_eta] | split

theorem sinkTime_evolves (h : Evolves pm a s.store) (dt : Nat) : Evolves pm a (sinkTime dt s).store := by
  unfold sinkTime
  repeat' first
    | with_reducible assumption | (intro _; try beta_reduce)
    | (with_reducible first | apply ite_evolves | apply foldl_evolves | apply lifeTime_evolves)

theorem timesUp_evolves (h_bays : pm .bays = true) (h_cci : pm .cci = true) (h_cmpJobs : pm .cmpJobs = true)
    (h_ctxs : pm .ctxs = true) (h_imgs : pm .imgs = true) (h_lamps : pm .lamps = true) (h_mem : pm .mem = true)
    (h_sens : pm .sens = true) (h_srvs : pm .srvs = true) (h_stalls : pm .stalls = true)
    (h_tports : pm .tports = true) (h_traces : pm .traces = true) (h_txns : pm .txns = true)
    (h : Evolves pm a s.store) :
    Evolves pm a (timesUp s).store := by
  unfold timesUp; try dsimp only
  repeat' first
    | with_reducible assumption | (intro _; try beta_reduce)
    | (with_reducible first | apply forAll_evolves | apply bringupTimeout_evolves | apply cleLoadsEnd_evolves | apply downSleep_evolves | apply frameTimeout_evolves | apply hifBackpressure_evolves)
    | (with_reducible first | apply holdoverLong_evolves | apply imgReplyTimeout_evolves | apply irqAgeExpiry_evolves | apply layerDeadlinePassed_evolves | apply linkMgmtTimeout_evolves | apply readyTimeout_evolves)
    | (with_reducible first | apply receiptTimeout_evolves | apply recorderFlush_evolves | apply shutdownGating_evolves | apply skewExceeded_evolves | apply testBurst_evolves | apply waitUntilDone_evolves)
    | simp only [store_mk, store_eta] | split

theorem unitsTick_evolves (h_axes : pm .axes = true) (h_bays : pm .bays = true) (h_cci : pm .cci = true)
    (h_cmpJobs : pm .cmpJobs = true) (h_ctxs : pm .ctxs = true) (h_fars : pm .fars = true)
    (h_imgs : pm .imgs = true) (h_lamps : pm .lamps = true) (h_mem : pm .mem = true) (h_ports : pm .ports = true)
    (h_sens : pm .sens = true) (h_srvs : pm .srvs = true) (h_stalls : pm .stalls = true)
    (h_tports : pm .tports = true) (h_traces : pm .traces = true) (h_txns : pm .txns = true)
    (h : Evolves pm a s.store) (dt : Nat) :
    Evolves pm a (unitsTick dt s).store := by
  unfold unitsTick; try dsimp only
  repeat' first
    | with_reducible assumption | (intro _; try beta_reduce)
    | (with_reducible first | apply ite_evolves | apply forAll_evolves | apply axisTick_evolves | apply bayTick_evolves | apply bpTick_evolves | apply cmpLoad_evolves)
    | (with_reducible first | apply dmcTick_evolves | apply farTick_evolves | apply imgTick_evolves | apply pipeLoad_evolves | apply portTick_evolves | apply sinkTime_evolves)
    | (with_reducible first | apply timesUp_evolves | apply ungateBusy_evolves)
    | simp only [store_mk, store_eta] | split

theorem outputAll_evolves (h_cmpJobs : pm .cmpJobs = true) (h_ctxs : pm .ctxs = true) (h_engs : pm .engs = true)
    (h_fars : pm .fars = true) (h_mem : pm .mem = true) (h_stalls : pm .stalls = true)
    (h_traces : pm .traces = true) (h : Evolves pm a s.store) :
    Evolves pm a (outputAll s).store := by
  unfold outputAll; try dsimp only
  repeat' first
    | with_reducible assumption | (intro _; try beta_reduce)
    | (with_reducible first | apply forAll_evolves | apply farNote_evolves | apply outputStep_evolves | apply traceStall_evolves)
    | simp only [store_mk, store_eta] | split

theorem boundaryBegin_evolves (h_cmpJobs : pm .cmpJobs = true) (h_ctxs : pm .ctxs = true) (h_mem : pm .mem = true)
    (h_srvs : pm .srvs = true) (h_traces : pm .traces = true) (h : Evolves pm a s.store) :
    Evolves pm a (boundaryBegin s).store := by
  unfold boundaryBegin; try dsimp only
  repeat' first
    | with_reducible assumption | (intro _; try beta_reduce)
    | (with_reducible first | apply ite_evolves | apply forAll_evolves | apply servoBoundary_evolves | apply traceSlow_evolves)
    | simp only [store_mk, store_eta] | split

theorem microvectorBegin_evolves (h_axes : pm .axes = true) (h_bays : pm .bays = true) (h_cci : pm .cci = true)
    (h_cmpJobs : pm .cmpJobs = true) (h_ctxs : pm .ctxs = true) (h_engs : pm .engs = true)
    (h_fars : pm .fars = true) (h_imgs : pm .imgs = true) (h_lamps : pm .lamps = true) (h_mem : pm .mem = true)
    (h_ports : pm .ports = true) (h_seams : pm .seams = true) (h_sens : pm .sens = true) (h_srvs : pm .srvs = true)
    (h_stalls : pm .stalls = true) (h_tports : pm .tports = true) (h_traces : pm .traces = true)
    (h_txns : pm .txns = true) (h_world : pm .world = true) (h : Evolves pm a s.store) (dt : Nat) :
    Evolves pm a (microvectorBegin dt s).store := by
  unfold microvectorBegin; try dsimp only
  repeat' first
    | with_reducible assumption | (intro _; try beta_reduce)
    | (with_reducible first | apply forAll_evolves | apply boundaryBegin_evolves | apply outputAll_evolves | apply snapshotCapture_evolves | apply sweepSeams_evolves | apply takeFault_evolves)
    | (with_reducible first | apply takeRequests_evolves | apply traceTick_evolves | apply unitsTick_evolves)
    | simp only [store_mk, store_eta] | split

theorem servoBefore_evolves (h_srvs : pm .srvs = true) (h_stalls : pm .stalls = true) (h : Evolves pm a s.store) :
    Evolves pm a (servoBefore s).store := by
  unfold servoBefore
  repeat' first
    | with_reducible assumption | (with_reducible first | apply ite_evolves | apply servoEvaluation_evolves)

theorem microvectorTick_evolves (h_ask : pm .ask = true) (h_axes : pm .axes = true) (h_bays : pm .bays = true)
    (h_cci : pm .cci = true) (h_cmpJobs : pm .cmpJobs = true) (h_ctxs : pm .ctxs = true) (h_engs : pm .engs = true)
    (h_fars : pm .fars = true) (h_imgs : pm .imgs = true) (h_lamps : pm .lamps = true) (h_mem : pm .mem = true)
    (h_period : pm .period = true) (h_ports : pm .ports = true) (h_seams : pm .seams = true)
    (h_sens : pm .sens = true) (h_srvs : pm .srvs = true) (h_stalls : pm .stalls = true) (h_time : pm .time = true)
    (h_tports : pm .tports = true) (h_traces : pm .traces = true) (h_txns : pm .txns = true)
    (h_world : pm .world = true) (h : Evolves pm a s.store) (errs : List (Fin 48 × Nat)) :
    Evolves pm a (microvectorTick errs s).store := by
  unfold microvectorTick; try dsimp only
  repeat' first
    | with_reducible assumption | (intro _; try beta_reduce)
    | (with_reducible first | apply forAll_evolves | apply advance_evolves | apply microvectorBegin_evolves | apply microvectorRest_evolves | apply portRun_evolves | apply sendSetpoints_evolves)
    | (with_reducible first | apply servoBefore_evolves | apply settleStates_evolves | apply superframe_evolves | apply thermalStep_evolves)
    | simp only [store_mk, store_eta] | split

theorem execMicrovectorTick_evolves (h_ask : pm .ask = true) (h_axes : pm .axes = true) (h_bays : pm .bays = true)
    (h_cci : pm .cci = true) (h_cmpJobs : pm .cmpJobs = true) (h_ctxs : pm .ctxs = true) (h_engs : pm .engs = true)
    (h_fars : pm .fars = true) (h_imgs : pm .imgs = true) (h_lamps : pm .lamps = true) (h_mem : pm .mem = true)
    (h_period : pm .period = true) (h_ports : pm .ports = true) (h_seams : pm .seams = true)
    (h_sens : pm .sens = true) (h_srvs : pm .srvs = true) (h_stalls : pm .stalls = true) (h_time : pm .time = true)
    (h_tports : pm .tports = true) (h_traces : pm .traces = true) (h_txns : pm .txns = true)
    (h_world : pm .world = true) (h : Evolves pm a s.store) (errs : List (Fin 48 × Nat)) {sx : State}
    (he : execMicrovectorTick errs s = .next sx) :
    Evolves pm a sx.store := by
  unfold execMicrovectorTick at he; rw [← Host.Outcome.next.inj he]
  repeat' first
    | with_reducible assumption | (intro _; try beta_reduce)
    | (with_reducible first | apply microvectorTick_evolves)
    | simp only [store_mk, store_eta] | split

end Machine
end Sys2Proof
end

