-- ==== Sys2Proof/WellFormed.lean ====
section
/-!
DEFINITION. What an operand of a command can be: the ranges of the numbers that the outside supplies, where their type
does not already say them. The machine gives a command outside these ranges a next state too.
-/
namespace Sys2Proof

/-- An offset of the set-up window (R3). -/
def inWindow (o : Nat) : Bool := decide (o < 0x1000000)

/-- A word offset of a 64 KiB page. -/
def inPage (o : Nat) : Bool := decide (o < 0x10000) && o % 4 == 0

/-- A kind of failed read (R62). -/
def isKind (k : Nat) : Bool := decide (1 ≤ k) && decide (k ≤ 5)

/-- A code of LINK_SPEED. -/
def isSpeed (n : Nat) : Bool := decide (1 ≤ n) && decide (n ≤ 4)

/-- A code of LINK_WIDTH. -/
def isWidth (n : Nat) : Bool := n == 1 || n == 2 || n == 4

/-- A 16-bit number. -/
def isWord16 (n : Nat) : Bool := decide (n < 0x10000)

/-- An ECC error (address or offset, KIND, syndrome): KIND 1 corrected, 2 uncorrectable (R391). -/
def isEcc (e : Nat × Nat × Nat) : Bool := [1, 2, 5, 6].contains e.2.1 && decide (e.2.2 < 256)

/-- A unit of the clock gates (R408). -/
def isUnit (u : Nat) : Bool := decide (u < 0x4C)

/-- A received frame: a FRAME block that names the type, unless it arrived broken, and at most 32 data blocks. -/
def isFrame (ftype : Nat) (broken : Bool) (blocks : List (BitVec 64)) : Bool :=
  match blocks with
  | [] => broken
  | h :: data => decide (data.length ≤ 32) && (broken || (h.toNat % 256 == 0x2D && h.toNat / 256 % 16 == ftype))

/-- The fields of an Announce message. -/
def isAnn (a : Ann) : Bool :=
  [a.prio1, a.cls, a.acc, a.prio2].all (fun n => decide (n < 256)) && isWord16 a.var && isWord16 a.steps && decide (a.gm < 2 ^ 64)

/-- A read of host memory: a failure has a kind and an address of 64 bits. -/
def isIn : DmaIn → Bool
  | .ok _ => true
  | .fail a k => decide (a < 2 ^ 64) && isKind k

/-- A read of a state record. -/
def isState : StateIn → Bool
  | .none => true
  | .ok _ => true
  | .fail a k => decide (a < 2 ^ 64) && isKind k

/-- A start-up: image types and slots, channels and lifetime copies that exist. -/
def isBoot (b : Boot) : Bool :=
  (b.good.all fun g => decide (g.1 < 7) && decide (g.2 < 2)) &&
    decide (b.training.length ≤ 2) && decide (b.lifeCopy < 3)

/-- A command whose operands are in range. -/
def Instr.wf (i : Instr) : Bool :=
  match i with
  | .microvectorTick errs => errs.all fun e => 1 ≤ e.2 && e.2 ≤ 2
  | .registerWrite _ o _ => inWindow o
  | .readClear _ o _ => inWindow o
  | .unsupportedAccess o _ => inWindow o
  | .atomicOpRequest off => inWindow off
  | .doorbellAccessError off acc => decide (off < 0x10000) && decide (1 ≤ acc.1) && decide (acc.1 ≤ 8)
  | .descriptorFetch descs err => decide (descs.length ≤ 8) && err.all isKind
  | .payloadReadError _ _ kind => isKind kind
  | .dataLinkUp speed width => isSpeed speed && isWidth width
  | .progLoad _ r => isIn r
  | .progLoadPacked _ r => isIn r
  | .progLoadSealed _ r _ => isIn r
  | .trajectoryFault _ d => decide (d = 0) || decide (d = 4) || decide (d = 5)
  | .gridWindowWrite _ _ o _ => inPage o
  | .trjConfigWrite _ _ o _ => decide (o < 16)
  | .photodiodeFrame _ broken head data => isFrame 9 broken (head :: data)
  | .positionFrame _ broken blocks => isFrame 0xA broken blocks
  | .energyEvaluation _ err => [0, 1, 4, 5].contains err
  | .servoEvaluation errs => errs.all fun e => [1, 6, 7].contains e.2.2
  | .coefficientWindowWrite _ _ o _ => inPage o
  | .cleLoad _ r => isIn r
  | .txnWrite _ r => isIn r
  | .frameStart _ vc _ => decide (vc < 16)
  | .frameEnd _ vc _ => decide (vc < 16)
  | .linePacket _ vc dtype _ _ _ => decide (vc < 16) && decide (dtype < 64)
  | .camSettings _ r => isIn r
  | .cciXfer _ r => isIn r
  | .cmpEncode _ r st => isIn r && isState st
  | .cmpDecode _ r st => isIn r && isState st
  | .capReply _ vmin vmax vendor model fw _ => decide (vmin < 256) && decide (vmax < 256) && isWord16 vendor && isWord16 model && isWord16 fw
  | .capAck _ version => decide (version < 256)
  | .wordLockLoss _ ws => decide (ws.length ≤ 64) && ws.all fun w => decide (w.1 < 4) && decide (w.2 < 256)
  | .errorRate _ n => decide (n < 2 ^ 32)
  | .linkMgmt _ r => isIn r
  | .mgmtFrameUp _ blocks _ => isFrame 0xB blocks.isNone (blocks.getD [])
  | .sramScrubPass _ errs => errs.all isEcc
  | .patrolScrub _ errs => errs.all isEcc
  | .trainingDone _ res => decide (res.length ≤ 2)
  | .memRead _ errs => errs.all isEcc
  | .memWrite _ r errs => isIn r && (errs.all isEcc)
  | .referenceMonitorTrip _ dev => dev.all fun d => decide (d.natAbs < 2 ^ 31)
  | .clockGate unit _ => isUnit unit
  | .gateDenied unit => isUnit unit
  | .announce _ _ clock port ann => decide (clock < 2 ^ 64) && isWord16 port && isAnn ann
  | .keyImport r _ _ => isIn r
  | .settingsApply r _ _ => isIn r
  | .recorderClear r _ => isIn r
  | .lifecycleAdvance r _ newKey => isIn r && decide (newKey < 2 ^ 256)
  | .lampConfigWrite _ o _ => inWindow o
  | .startUp b => isBoot b
  | .recoveryLoad _ r _ _ => isIn r
  | .imgWrite _ r _ _ => isIn r
  | .linkSpeedWidthChange speed width => isSpeed speed && isWidth width
  | .ethernetLinkDown _ frags => isWord16 frags
  | .ethernetLinkUp _ mbps => [10, 100, 1000, 2500].contains mbps
  | .temperatureConversion vals => decide (vals.length = 7)
  | .squash .. | .mvUnderrun .. | .mvPeriodWrite .. | .mvPeriodChange | .bayMapWrite .. | .stableEnableWrite ..
  | .layerSetWrite .. | .layerBarrierReached | .ctxEnable .. | .ctxDisable .. | .ctxResume ..
  | .ctxDrainDone .. | .sqTailDoorbell .. | .cqHeadDoorbell .. | .duplicateCompletion .. | .completionPost ..
  | .irqAgeExpiry .. | .hifBackpressure .. | .versionOfferWrite .. | .lastSeqWrite .. | .mailboxPost ..
  | .mailboxResponse | .functionLevelReset | .hotReset | .dataLinkDown | .d3hotEntry | .l1Change ..
  | .perstAssert | .nop .. | .waitUntil .. | .waitUntilDone .. | .loadVisible .. | .release .. | .hold ..
  | .resume .. | .abort .. | .cmdHold .. | .cmdResume .. | .cmdAbort .. | .holdAllHold .. | .holdAllResume ..
  | .progRegionWrite .. | .stallEnable .. | .stallOnline .. | .stallDisable .. | .scanNop .. | .jump ..
  | .markLine .. | .markArc .. | .powerRamp .. | .wobble .. | .speedPower .. | .delaySet .. | .compareArm ..
  | .islandBegin .. | .islandEnd .. | .layerEnd .. | .syncBarrier .. | .seamHandover .. | .programEnd ..
  | .programError .. | .layerEndReached .. | .syncBarrierReached .. | .programEndReached ..
  | .syncBarrierRelease .. | .syncMismatch .. | .syncTimeout .. | .programEmpty .. | .programEmptyCleared ..
  | .strokeTimeout .. | .islandDeadline .. | .holdTakesEffect .. | .holdReturn .. | .abortComplete ..
  | .heartbeatPeriodWrite .. | .heartbeatKick .. | .heartbeatExpired | .layerDeadlinePassed | .starvedHold ..
  | .starvedCleared .. | .gridSelWrite .. | .gridVerification .. | .gateCfgWrite .. | .gateTrimWrite ..
  | .trimApplied .. | .readbackMismatch .. | .outputConfigWrite .. | .lsafeInputLow .. | .lsafeInputHigh ..
  | .laserInhibitAsserted | .inhibitStopComplete .. | .lsafeDiscrepancy | .clearDiscrepancy ..
  | .clearReadback .. | .lsafeSwWrite .. | .lsafeSecWrite .. | .laserInhibitReleased | .marshalConfigWrite ..
  | .seamMoveWrite .. | .seamMove | .seamPauseEnd .. | .seamHold .. | .featureDelivery .. | .servoClose ..
  | .servoOpen .. | .servoClosed .. | .closeTimeout .. | .servoOpened .. | .bankSelect .. | .bankSwap ..
  | .energyConfigWrite .. | .servoConfigWrite .. | .txnOpen .. | .txnCommit .. | .txnAbort .. | .txnQuery ..
  | .txnPresent | .txnExpire | .participantSettle | .commitTimeout | .gteConfigWrite .. | .quadratureEdge ..
  | .edgeRate .. | .indexLatch .. | .tooth .. | .absoluteFrame .. | .cableFault .. | .speedWindow ..
  | .standstill .. | .feedbackFaultClear .. | .reref .. | .portEnable .. | .portDisable ..
  | .feedbackConfigWrite .. | .posRead .. | .axisMove .. | .axisDwell .. | .axisStop .. | .axisSetPos ..
  | .axisResume .. | .queuedMoveStart .. | .moveEnd .. | .axisLimitChange .. | .axisCmdStop .. | .stopAll ..
  | .axisCmdResume .. | .axisFaultClear .. | .loadAngleSet .. | .faultStopEnd .. | .axisEnable ..
  | .axisDisable .. | .axisConfigWrite .. | .lineProcessed .. | .frameFinished .. | .frameTimeout ..
  | .sensorEnable .. | .sensorDisable .. | .sensorConfigWrite .. | .camFrameBuf .. | .camStatsBuf ..
  | .settingsWriteStart .. | .cciListDone .. | .pipelineFault .. | .pipelineClearFault .. | .blockStart ..
  | .jobComplete .. | .cmpEngineFault .. | .engineClearFault .. | .cmpConfigWrite .. | .superframe
  | .upstreamSuperframe .. | .receiverDetect .. | .eyeSearchDone .. | .wordLock .. | .slip .. | .probeEcho ..
  | .bringupTimeout .. | .linkClockLoss .. | .markerLoss .. | .skewExceeded .. | .downSleep .. | .downWake ..
  | .sleepUp .. | .testEnter .. | .testExit .. | .prbsInject .. | .restart .. | .bayEnable .. | .bayDisable ..
  | .linkConfigWrite .. | .linkMgmtTimeout .. | .mr4Poll .. | .dqsOscillatorCheck | .selfRefreshEntry ..
  | .selfRefreshExit .. | .freqChange .. | .freqChangeDone | .retrain .. | .dmcConfigWrite ..
  | .referenceQualified .. | .switch .. | .pullComplete | .pllUnlock | .safeExit | .aoCrystalChange
  | .railWarning .. | .railReset .. | .powerFailWarning .. | .thermalEvaluation | .hardLimit | .shutdownGating
  | .sensorReset .. | .thermalConfigWrite .. | .ptpSync .. | .followUp .. | .delayResp .. | .pdelayReq ..
  | .syncSend .. | .announceReceiptTimeout .. | .timeHoldoverLong | .acceptStep .. | .acceptSlew .. | .set ..
  | .setApplied | .slewComplete | .timeAccept .. | .timeSet .. | .timeRead .. | .timeConfigWrite .. | .info
  | .keyErase | .recorderAttest .. | .random .. | .bwtWrite .. | .regionTableWrite .. | .regionZeroingDone
  | .limitWrite .. | .tckFault .. | .farRun .. | .lane .. | .dfe .. | .dfeStep .. | .gate .. | .threshold ..
  | .linkTest .. | .linkTestEnd .. | .farConfigWrite .. | .lampFault .. | .testBurst .. | .fadeStep
  | .lmpPatternFault .. | .groupClear .. | .groupClearDone .. | .lampClear .. | .patClear ..
  | .beaconBindWrite .. | .pendClear .. | .eventConfigWrite .. | .recorderFlush | .cursorWrite ..
  | .recordFetchDone | .recordReadAdvance .. | .freeze .. | .snapIn .. | .snapshotCapture | .snapshotRelease ..
  | .lifetimeSave .. | .periodicSave .. | .operatingSecond | .traceFlush .. | .dgnSnapRead ..
  | .dgnLifetimeRead .. | .dgnRecorderRead .. | .dgnTraceBuf .. | .dgnFreeze .. | .traceConfigWrite ..
  | .powerOnReset | .deviceReset | .readyTimeout | .recoveryReboot .. | .uartFrame .. | .imgActivate ..
  | .inPlaceCopyDone | .bootConfigWrite .. | .sequencerFault .. | .controlledStopComplete ..
  | .deskewSequence .. | .upstreamWake .. | .laneTracking .. | .probeTimeout .. | .delayReqSend ..
  | .announceSend .. | .delayReq .. | .imgReplyTimeout .. | .mgmtReady | .railWarningCleared .. => true

end Sys2Proof
end

