-- ==== Sys2Proof/Tests/Slice0.lean ====
section
/-!
SUPPORT. Tests: an ill-formed operand of each check is refused, single steps against the spec's numbers, and states and
operands that meet the hypotheses of the statements.
-/
namespace Sys2Proof
namespace Machine

/- The proofs of this file are elaborated one after another. Each `decide` waits until the kernel has checked everything
before it; elaborated side by side, the many tests would each hold a waiting thread with a stack of its own. -/
set_option Elab.async false

/-! ## Ill-formed commands -/

theorem test_wf_microvectorTick :
    Instr.wf (.microvectorTick [(0, 0)]) = false ∧
    Instr.wf (.microvectorTick [(0, 3)]) = false := by decide
theorem test_wf_registerWrite :
    Instr.wf (.registerWrite true 0x1000000 (.lo 0)) = false := by decide
theorem test_wf_readClear :
    Instr.wf (.readClear true 0x1000000 false) = false := by decide
theorem test_wf_unsupportedAccess :
    Instr.wf (.unsupportedAccess 0x1000000 true) = false := by decide
theorem test_wf_atomicOpRequest :
    Instr.wf (.atomicOpRequest 0x1000000) = false := by decide
theorem test_wf_doorbellAccessError :
    Instr.wf (.doorbellAccessError 0x10000 (4, true)) = false ∧
    Instr.wf (.doorbellAccessError 0 (0, true)) = false ∧
    Instr.wf (.doorbellAccessError 0 (9, true)) = false := by decide
theorem test_wf_descriptorFetch :
    Instr.wf (.descriptorFetch (List.replicate 9 0) none) = false ∧
    Instr.wf (.descriptorFetch [] (some 0)) = false ∧
    Instr.wf (.descriptorFetch [] (some 6)) = false := by decide
theorem test_wf_payloadReadError :
    Instr.wf (.payloadReadError 0 0 0) = false ∧
    Instr.wf (.payloadReadError 0 0 6) = false := by decide
theorem test_wf_dataLinkUp :
    Instr.wf (.dataLinkUp 0 1) = false ∧
    Instr.wf (.dataLinkUp 5 1) = false ∧
    Instr.wf (.dataLinkUp 1 3) = false := by decide
theorem test_wf_progLoad :
    Instr.wf (.progLoad 0 (.fail (2 ^ 64) 1)) = false ∧
    Instr.wf (.progLoad 0 (.fail 0 0)) = false := by decide
theorem test_wf_progLoadPacked :
    Instr.wf (.progLoadPacked 0 (.fail 0 6)) = false := by decide
theorem test_wf_progLoadSealed :
    Instr.wf (.progLoadSealed 0 (.fail 0 6) none) = false := by decide
theorem test_wf_trajectoryFault :
    Instr.wf (.trajectoryFault 0 3) = false := by decide
theorem test_wf_gridWindowWrite :
    Instr.wf (.gridWindowWrite true 0 0x10000 0) = false ∧
    Instr.wf (.gridWindowWrite true 0 2 0) = false := by decide
theorem test_wf_trjConfigWrite :
    Instr.wf (.trjConfigWrite true 0 16 0) = false := by decide
theorem test_wf_photodiodeFrame :
    Instr.wf (.photodiodeFrame 0 false 0xA2D []) = false ∧
    Instr.wf (.photodiodeFrame 0 true 0 (List.replicate 33 0)) = false := by decide
theorem test_wf_positionFrame :
    Instr.wf (.positionFrame 0 false [0x92D]) = false ∧ Instr.wf (.positionFrame 0 false [0xA2D]) = true := by decide
theorem test_wf_energyEvaluation :
    Instr.wf (.energyEvaluation 0 2) = false := by decide
theorem test_wf_servoEvaluation :
    Instr.wf (.servoEvaluation [(0, 0, 5)]) = false := by decide
theorem test_wf_coefficientWindowWrite :
    Instr.wf (.coefficientWindowWrite true 0 0x10000 0) = false ∧
    Instr.wf (.coefficientWindowWrite true 0 1 0) = false := by decide
theorem test_wf_cleLoad :
    Instr.wf (.cleLoad 0 (.fail 0 6)) = false := by decide
theorem test_wf_txnWrite :
    Instr.wf (.txnWrite 0 (.fail 0 6)) = false := by decide
theorem test_wf_frameStart :
    Instr.wf (.frameStart 0 16 0) = false := by decide
theorem test_wf_frameEnd :
    Instr.wf (.frameEnd 0 16 0) = false := by decide
theorem test_wf_linePacket :
    Instr.wf (.linePacket 0 16 0 0 true []) = false ∧
    Instr.wf (.linePacket 0 0 64 0 true []) = false := by decide
theorem test_wf_camSettings :
    Instr.wf (.camSettings 0 (.fail 0 6)) = false := by decide
theorem test_wf_cciXfer :
    Instr.wf (.cciXfer 0 (.fail 0 6)) = false := by decide
theorem test_wf_cmpEncode :
    Instr.wf (.cmpEncode 0 (.fail 0 6) .none) = false ∧
    Instr.wf (.cmpEncode 0 (.ok []) (.fail 0 6)) = false ∧
    Instr.wf (.cmpEncode 0 (.ok []) (.fail (2 ^ 64) 1)) = false := by decide
theorem test_wf_cmpDecode :
    Instr.wf (.cmpDecode 0 (.fail 0 6) .none) = false ∧
    Instr.wf (.cmpDecode 0 (.ok []) (.fail 0 6)) = false := by decide
theorem test_wf_capReply :
    Instr.wf (.capReply 0 256 0 0 0 0 0) = false ∧
    Instr.wf (.capReply 0 0 256 0 0 0 0) = false ∧
    Instr.wf (.capReply 0 0 0 0x10000 0 0 0) = false ∧
    Instr.wf (.capReply 0 0 0 0 0x10000 0 0) = false ∧
    Instr.wf (.capReply 0 0 0 0 0 0x10000 0) = false := by decide
theorem test_wf_capAck :
    Instr.wf (.capAck 0 256) = false := by decide
theorem test_wf_wordLockLoss :
    Instr.wf (.wordLockLoss 0 [(4, 0)]) = false := by decide
theorem test_wf_errorRate :
    Instr.wf (.errorRate 0 (2 ^ 32)) = false := by decide
theorem test_wf_linkMgmt :
    Instr.wf (.linkMgmt 0 (.fail 0 6)) = false := by decide
theorem test_wf_mgmtFrameUp :
    Instr.wf (.mgmtFrameUp 0 (some [0xA2D]) true) = false := by decide
theorem test_wf_sramScrubPass :
    Instr.wf (.sramScrubPass false [(0, 0, 0)]) = false ∧
    Instr.wf (.sramScrubPass false [(0, 1, 256)]) = false := by decide
theorem test_wf_patrolScrub :
    Instr.wf (.patrolScrub false [(0, 3, 0)]) = false := by decide
theorem test_wf_trainingDone :
    Instr.wf (.trainingDone true [(0, 0, 0), (0, 0, 0), (0, 0, 0)]) = false := by decide
theorem test_wf_memRead :
    Instr.wf (.memRead 0 [(0, 0, 0)]) = false := by decide
theorem test_wf_memWrite :
    Instr.wf (.memWrite 0 (.fail 0 6) []) = false ∧
    Instr.wf (.memWrite 0 (.ok []) [(0, 0, 0)]) = false := by decide
theorem test_wf_referenceMonitorTrip :
    Instr.wf (.referenceMonitorTrip 0 (some (2 ^ 31))) = false := by decide
theorem test_wf_clockGate :
    Instr.wf (.clockGate 0x4C true) = false := by decide
theorem test_wf_gateDenied :
    Instr.wf (.gateDenied 0x4C) = false := by decide
theorem test_wf_announce :
    Instr.wf (.announce 0 ⟨0, false⟩ (2 ^ 64) 1 ⟨0, 0, 0, 0, 0, 0, 0⟩) = false ∧
    Instr.wf (.announce 0 ⟨0, false⟩ 0 0x10000 ⟨0, 0, 0, 0, 0, 0, 0⟩) = false ∧
    Instr.wf (.announce 0 ⟨0, false⟩ 0 1 ⟨256, 0, 0, 0, 0, 0, 0⟩) = false ∧
    Instr.wf (.announce 0 ⟨0, false⟩ 0 1 ⟨0, 0, 0, 0x10000, 0, 0, 0⟩) = false ∧
    Instr.wf (.announce 0 ⟨0, false⟩ 0 1 ⟨0, 0, 0, 0, 0, 2 ^ 64, 0⟩) = false := by decide +kernel
theorem test_wf_keyImport :
    Instr.wf (.keyImport (.fail 0 6) true none) = false := by decide
theorem test_wf_settingsApply :
    Instr.wf (.settingsApply (.fail 0 6) true none) = false := by decide
theorem test_wf_recorderClear :
    Instr.wf (.recorderClear (.fail 0 6) true) = false := by decide
theorem test_wf_lifecycleAdvance :
    Instr.wf (.lifecycleAdvance (.fail 0 6) true 0) = false ∧
    Instr.wf (.lifecycleAdvance (.ok []) true (2 ^ 256)) = false := by decide +kernel
theorem test_wf_lampConfigWrite :
    Instr.wf (.lampConfigWrite true 0x1000000 0) = false := by decide
theorem test_wf_startUp :
    Instr.wf (.startUp ⟨false, [(7, 0)], none, true, true, [], 0, true⟩) = false ∧
    Instr.wf (.startUp ⟨false, [(0, 2)], none, true, true, [], 0, true⟩) = false ∧
    Instr.wf (.startUp ⟨false, [], none, true, true, [(0, 0, 0), (0, 0, 0), (0, 0, 0)], 0, true⟩) = false ∧
    Instr.wf (.startUp ⟨false, [], none, true, true, [], 3, true⟩) = false := by decide
theorem test_wf_recoveryLoad :
    Instr.wf (.recoveryLoad true (.fail 0 6) true true) = false := by decide
theorem test_wf_imgWrite :
    Instr.wf (.imgWrite 0 (.fail 0 6) true true) = false := by decide
theorem test_wf_linkSpeedWidthChange :
    Instr.wf (.linkSpeedWidthChange 0 1) = false ∧
    Instr.wf (.linkSpeedWidthChange 1 3) = false := by decide
theorem test_wf_ethernetLinkDown :
    Instr.wf (.ethernetLinkDown 0 0x10000) = false := by decide
theorem test_wf_ethernetLinkUp :
    Instr.wf (.ethernetLinkUp 0 16) = false ∧ Instr.wf (.ethernetLinkUp 0 2500) = true := by decide
theorem test_wf_temperatureConversion :
    Instr.wf (.temperatureConversion []) = false := by decide

theorem test_wf_ok : Instr.wf (.dataLinkUp 4 4) = true ∧ Instr.wf (.trajectoryFault 0 4) = true ∧ Instr.wf (.clockGate 0x4B true) = true := by decide

/-! ## Helpers of the witnesses: a state with a register, a context or a descriptor set -/

/-- A descriptor's 64 bytes by opcode, format version 1, SEQ and the number in bytes 8 on. -/
def rawOf (op seq : Nat) (x : Nat) : RawDesc := BitVec.ofNat 512 (op + 2 ^ 8 + 2 ^ 32 * seq + 2 ^ 64 * x)

/-- A fetched descriptor that has not started. -/
def descOf (op seq x : Nat) : Desc := ⟨rawOf op seq x, false, false, false, 0, none⟩

/-- A context with a type, a binding and rings of 16 entries, changed by `f`. -/
def withCtx (c : Fin 256) (type bind : Nat) (f : Ctx → Ctx) (s : State) : State :=
  setCtx c f (put (put (put s (F.HIF_CTX_CFG_TYPE c) type) (F.HIF_CTX_CFG_BIND c) bind) (F.HIF_CTX_CFG_SIZE_LOG2 c) 4)

/-- A context that is ACTIVE with one fetched descriptor, its entry in the history. -/
def oneDesc (c : Fin 256) (type bind : Nat) (d : Desc) (s : State) : State :=
  withCtx c type bind (fun x => { x with st := .active, fetched := [d], hist := [⟨d.seq, d.op, none⟩] }) s

/-- A context that is ACTIVE with one descriptor that has started. -/
def runDesc (c : Fin 256) (type bind : Nat) (d : Desc) (s : State) : State :=
  oneDesc c type bind { d with started := true } s

/-! ## Witnesses: the yard -/

/-- An entry at rest, for buffers of the witnesses. -/
def restEntry : Entry :=
  ⟨2, 0, 0, 0, 0, 0, 0, 0, 0, 0, false, [], 0, 0, 0, 0, none, false, [], [], false, 0, false, 1, 0, Stall.init.plan⟩

/-- A state with a stall's STATE code and its unit set. -/
def withStallAt (g : Fin 48) (st : Nat) (f : Stall → Stall) (s : State) : State :=
  setStall g f (put s (F.STALL_STATE_STATE g) st)

theorem witness_MicrovectorTick :
    (State.reset.periodNext = none ∧ State.reset.tmsSet = none ∧ State.reset.tmsAcc = []) ∧
    (let s := withStallAt 47 2 (fun x => { x with buf := [restEntry, restEntry], hzn := 1, squashDue := 2 }) State.reset
     (stall s 47).squashDue ≠ 0 ∧ flag s (F.STALL_STATE_ABORTING 47) = false ∧
      flag (setF s (F.STALL_STATE_ABORTING 47)) (F.STALL_STATE_ABORTING 47) = true) := by decide +kernel

theorem witness_PeriodAndYard :
    accessOk true R.YRD_MV_PERIOD State.reset = true ∧ allQuiet State.reset = true ∧
    allQuiet (put State.reset (F.STALL_STATE_STATE 47) 2) = false ∧
    (let s := { State.reset with periodNext := some 2000, now := 4000 }
     s.now % 2000 = 0 ∧ s.now ≠ s.periodAt ∧ ({ s with now := 500 } : State).now % 2000 ≠ 0) ∧
    accessOk true (R.YRD_BAY_MAP 11) State.reset = true ∧
    mapOk 11 (merged (R.YRD_BAY_MAP 11) 0x80000000 State.reset) State.reset = false ∧
    mapOk 11 (merged (R.YRD_BAY_MAP 11) 0 State.reset) State.reset = true ∧
    accessOk true R.YRD_CTRL State.reset = true ∧ get State.reset F.BOOT_STATUS_PHASE ≠ 5 ∧ State.reset.sdGated = false ∧
    wrongClears 63 State.reset = [] ∧
    wrongClears 0 (put (put State.reset F.YRD_CTRL_STABLE_EN 63) (F.STALL_STATE_STATE 40) 1) = [5] := by decide +kernel

theorem witness_LayerBarrier :
    accessOk true R.YRD_LAYER_SET State.reset = true ∧
    (let s := { State.reset with barrierDue := true }
     s.barrierDue = true ∧ barrierComplete s = false) ∧
    (let s := { withStallAt 47 4 id State.reset with barrierDue := true, layerSet := 2 ^ 47 }
     s.barrierDue = true ∧ barrierComplete s = true) := by decide +kernel

/-! ## Witnesses: the host interface -/

theorem witness_RegisterAccess :
    (OrdinaryReg R.HIF_BP_THRESHOLD ∧ accessOk true R.HIF_BP_THRESHOLD State.reset = true) ∧
    (((rowAt R.YRD_LAYER_SET).map fun p => (p.1.wide, p.2)) = some (true, 0) ∧
      accessOk true R.YRD_LAYER_SET State.reset = true ∧ windowAt R.YRD_LAYER_SET State.reset = none) ∧
    (((rowAt R.HIF_STATUS).map fun p => (p.1.wide, p.2)) = some (false, 0) ∧ windowAt R.HIF_STATUS State.reset = none) ∧
    (R.TCK_BWT % 4 = 0 ∧ (blockAt R.TCK_BWT).isSome = true ∧ accessOk false R.TCK_BWT State.reset = false) ∧
    (doorbellSize 4 8 = false ∧ doorbellSize 0xFC 4 = true ∧ doorbellSize 0x100 8 = true ∧ doorbellSize 0xFFFC 4 = true) :=
  ⟨⟨⟨⟨_, rfl, rfl⟩, by decide⟩, by decide⟩, by decide, by decide, by decide, by decide⟩

/-- A state whose host context 5 may be enabled. -/
def enState : State :=
  withCtx 5 6 0 id (put (setF State.reset F.HIF_STATUS_READY) F.HIF_VERSION_AGREED_AGREED 1)

theorem witness_ContextCommands :
    (accessOk true R.HIF_CTX_CMD enState = true ∧ cmdRefused true 5 enState = none ∧ enableResult 5 enState = 0 ∧
      enableResult 6 enState ≠ 0 ∧ cmdRefused false 0 enState = some 7 ∧
      cmdRefused true 5 (setF enState F.HIF_CTX_CMD_STATUS_BUSY) = some 2) ∧
    (let s := oneDesc 5 6 0 (descOf 0 1 0) enState
     (ctx s 5).st = .active ∧ abortable (ctx s 5) = [1] ∧ cmdRefused true 5 s = none) ∧
    (let s := setCtx 5 (fun x => { x with st := .draining }) { enState with hifCmd := some 5 }
     (ctx s 5).st = .draining ∧ (ctx s 5).fetched = [] ∧ s.hifCmd = some 5) ∧
    (ctx (setCtx 5 (fun x => { x with st := .stopped }) enState) 5).st = .stopped := by decide +kernel

theorem witness_Doorbells :
    (let s := setCtx 5 (fun x => { x with st := .active }) enState
     (ctx s 5).st = .active ∧ (15#32).toNat % 4096 < ringN s 5 ∧ ringN s 5 ≤ (16#32).toNat % 4096) ∧
    (ctx enState 5).st = .disabled ∧ (5 : Fin 256).val ≠ 0 := by decide +kernel

/-- A state whose context 5 is scheduled with two descriptors outstanding. -/
def fetchState : State := setCtx 5 (fun x => { x with st := .active, sqTail := 2 }) enState

theorem witness_FetchBurst :
    fetchPick fetchState = some (5, 1) ∧ burstLen 5 fetchState = 2 ∧ fetchPick enState = none ∧
    seqNewer (rdN fetchState (R.HIF_CTX_LAST_SEQ 5)) (descOf 0 0 0).seq = true ∧
    seqNewer (rdN fetchState (R.HIF_CTX_LAST_SEQ 5)) (descOf 0 0xFFFFFFFF 0).seq = false := by decide +kernel

/-- A state whose context 5 has a decided completion at the last slot. -/
def postState (dup : Bool) : State :=
  setCtx 5 (fun x => { x with
    st := .active, cqTail := 15, cqHead := 3
    fetched := [{ descOf 0 1 0 with dup := dup, compl := some ⟨4, 4, 0, 0, false⟩ }] }) enState

theorem witness_CompletionRing :
    (ctx (postState true) 5).fetched ≠ [] ∧ cqFull 5 (postState false) = false ∧ cqFull 5 (postState true) = false ∧
    ((ctx (postState true) 5).fetched.all (mayPost (ctx (postState true) 5)) = true ∧
      mayPost { ctx (postState false) 5 with st := .stopped, stopCause := 1 } (descOf 0 1 0) = false) ∧
    cqFull 5 (setCtx 5 (fun x => { x with cqHead := 0 }) (postState false)) = true := by decide +kernel

theorem witness_HostWaitsAndErrors :
    runningDesc (ctx (runDesc 5 6 0 (descOf 0x80 1 0) enState) 5) (fun _ => true) =
      some { descOf 0x80 1 0 with started := true } ∧
    (let s := setCtx 5 (fun x => { x with irqN := 1 }) (put { enState with beam := 1000 } (F.HIF_CTX_IRQ_TIME 5) 1)
     0 < (ctx s 5).irqN ∧ get s (F.HIF_CTX_IRQ_TIME 5) ≠ 0 ∧
      get s (F.HIF_CTX_IRQ_TIME 5) ≤ (s.beam - (ctx s 5).irqSince) / 1000 ∧
      flag s (F.HIF_MSIX_CTRL_MASK (get s (F.HIF_CTX_CFG_VECTOR 5))) = true) ∧
    (let s := setCtx 5 (fun x => { x with bpWait := 1001 }) (wrN enState R.HIF_BP_THRESHOLD 1)
     rdN s R.HIF_BP_THRESHOLD % 2 ^ 20 = 1 ∧ (ctx s 5).bpTold = false ∧
      rdN s R.HIF_BP_THRESHOLD % 2 ^ 20 * 1000 < (ctx s 5).bpWait) := by decide +kernel

theorem witness_VersionOffer :
    accessOk true R.HIF_VERSION_OFFER enState = true ∧ accessOk true R.HIF_CTX_CMD State.reset = true ∧
    ((List.finRange 256).all fun c => (ctx enState c).st == .disabled) = true ∧
    (ctx fetchState 5).st ≠ .disabled ∧ get State.reset F.HIF_VERSION_AGREED_AGREED = 0 := by decide +kernel

/-- A mailbox with a request of service 1 that the tack room has answered. -/
def mboxState : State :=
  { setF (wrN enState (R.HIF_MBOX_REQ 0) 0x101) F.HIF_MBOX_STATUS_BUSY with mboxReply := some (List.range 16), mboxVer := 1 }

theorem witness_HostSettings :
    accessOk true (R.HIF_CTX_LAST_SEQ 5) enState = true ∧ (ctx enState 5).st = .disabled ∧ (ctx fetchState 5).st ≠ .disabled ∧
    flag enState F.HIF_MBOX_STATUS_BUSY = false ∧ flag mboxState F.HIF_MBOX_STATUS_BUSY = true ∧
    (tackBusy mboxState = false ∧ mboxState.mboxDrop = false ∧ mboxHeaderReply mboxState = none ∧
      mboxState.mboxReply = some (List.range 16) ∧ (List.range 16).length = 16) ∧
    flag (setF enState F.HIF_STATUS_LINK_UP) F.HIF_STATUS_LINK_UP = true := by decide +kernel

theorem witness_HostDescriptors :
    Starts 5 0x00 (descOf 0x00 1 0) (oneDesc 5 6 0 (descOf 0x00 1 0) enState) ∧ (descOf 0x00 1 0).addr = 0 ∧
    (descOf 0x00 1 0).len = 0 ∧ (descOf 0x00 1 1).addr = 1 ∧
    Starts 5 0x00 (descOf 0x00 1 1) (oneDesc 5 6 0 (descOf 0x00 1 1) enState) ∧
    Starts 5 0x01 (descOf 0x01 1 (2 ^ 96 * 7)) (oneDesc 5 6 0 (descOf 0x01 1 (2 ^ 96 * 7)) enState) ∧
    (descOf 0x01 1 (2 ^ 96 * 7)).at 20 8 = 7 ∧ (descOf 0x01 1 (2 ^ 96 * 7)).at 28 36 = 0 ∧ enState.now < 7 ∧
    Starts 5 0x01 (descOf 0x01 1 0) (oneDesc 5 6 0 (descOf 0x01 1 0) enState) ∧ (descOf 0x01 1 0).at 20 8 ≤ enState.now ∧
    Starts 5 0x01 (descOf 0x01 1 1) (oneDesc 5 6 0 (descOf 0x01 1 1) enState) ∧ (descOf 0x01 1 1).addr ≠ 0 ∧
    runningDesc (ctx (runDesc 5 6 0 (descOf 0x01 1 0) enState) 5) (fun e => e.op == 0x01) =
      some { descOf 0x01 1 0 with started := true } := by
  unfold Starts
  decide +kernel

theorem witness_DeviceResets :
    accessOk true R.BOOT_RCV_CMD State.reset = true ∧ get State.reset F.BOOT_STATUS_PHASE = 0 ∧
    get (put State.reset F.BOOT_STATUS_PHASE 5) F.BOOT_STATUS_PHASE = 5 ∧
    (⟨true, [], none, true, true, [], 0, true⟩ : Boot).recoveryLow = true := by decide +kernel

/-! ## Witnesses: scan programs -/

/-- A stall in IDLE of an enabled yard whose program region holds one command of 16 bytes. -/
def scanState (g : Fin 48) (bs : List Byte) (q : Seq) : State :=
  withStallAt g 1 (fun x => { x with seq := q })
    (setLoft (stableOf g) (fun m => memWrite m (progBase g State.reset) bs) (wrN State.reset (R.STALL_PROG_WP g) 16))

/-- The sequencer at rest, and inside an island. -/
def seqRest : Seq := Seq.init 0 0
def seqIsland : Seq := { seqRest with isl := some (1, 2), islNo := 1 }

/-- A command's visible words: it may be parsed, has the opcode and no program error. -/
def parses (g : Fin 48) (op : Nat) (s : State) : Bool :=
  canParse g s && seqReads g (rdN s (R.STALL_PROG_PARSE g)) s && (rawAt g (rdN s (R.STALL_PROG_PARSE g)) s).op == op &&
    (progError g s.mvP (stall s g).seq (rawAt g (rdN s (R.STALL_PROG_PARSE g)) s) == 0) && (stall s g).seq.seamLeft == 0 &&
    decide (0 < progSize g s) && decide (progSize g s ≤ 0x300000)

theorem witness_ScanCommandParsed :
    parses 47 0x00 (scanState 47 [0, 0, 0, 0] seqRest) = true ∧ parses 0 0x01 (scanState 0 [1, 0, 0, 0, 5] seqRest) = true ∧
    parses 0 0x02 (scanState 0 [2, 1, 0, 0, 0, 1] seqRest) = true ∧
    parses 0 0x03 (scanState 0 [3, 0, 0, 0, 0, 16, 0, 0, 0, 0, 0, 0, 0, 16] seqRest) = true ∧
    parses 0 0x04 (scanState 0 [4, 0, 100, 0, 16] { seqRest with stroke := 1 }) = true ∧
    parses 0 0x05 (scanState 0 [5] seqRest) = true ∧
    parses 0 0x06 (scanState 0 [6, 0, 100] seqRest) = true ∧ parses 0 0x07 (scanState 0 [7] seqRest) = true ∧
    parses 0 0x08 (scanState 0 [8, 0, 0, 0, 1] seqRest) = true ∧ parses 0 0x09 (scanState 0 [9] seqRest) = true ∧
    parses 0 0x0A (scanState 0 [10, 0, 0, 0, 1] seqIsland) = true ∧ parses 0 0x0B (scanState 0 [11] seqRest) = true ∧
    parses 0 0x0C (scanState 0 [12, 0, 0, 0, 1] seqRest) = true ∧
    parses 0 0x0E (scanState 0 [14] seqRest) = true := by decide +kernel

theorem witness_SeamSectionRegistered :
    (let s := scanState 47 [13, 1, 4, 0, 9, 0, 0, 0, 46] seqRest
     parses 47 0x0D s = true ∧ (stall s 47).seq.passBy = false ∧ seamRegs 47 s < 4 ∧ seamIdx 9 s = none ∧
      (pausedFull s).length < seamsFree s ∧ seamFree s = some 0) ∧
    (let s := scanState 47 [13, 1, 4, 0, 9, 0, 0, 0, 46] { seqRest with passBy := true }
     parses 47 0x0D s = true ∧ (stall s 47).seq.passBy = true) := by decide +kernel

theorem witness_ScanCommandRefused :
    (let s := scanState 47 [11, 1] seqRest
     canParse 47 s = true ∧ seqReads 47 (rdN s (R.STALL_PROG_PARSE 47)) s = true ∧ (rawAt 47 0 s).op = 0x0B ∧
      (stall s 47).seq.seamLeft = 0 ∧
      progError 47 s.mvP (stall s 47).seq (rawAt 47 0 s) = 2) ∧
    (let s := { scanState 47 [11] seqRest with rtab := vset State.reset.rtab 0 (0x1400, 0x17FF, 3) }
     canParse 47 s = true ∧ (rawAt 47 0 s).op = 0x0B ∧ seqReads 47 (rdN s (R.STALL_PROG_PARSE 47)) s = false) ∧
    canParse 47 State.reset = false := by decide +kernel

theorem witness_StallEntersFault :
    emptyFor 47 0 (withStallAt 47 2 (fun x => { x with noEntry := true, buf := [restEntry] }) State.reset) = true ∧
    emptyFor 47 2 (withStallAt 47 2 (fun x => { x with noEntry := true, seq := { seqRest with stop := 6, errOp := 13 } })
      State.reset) = true ∧
    (let s := withStallAt 47 3 (fun x => { x with syncBad := true }) State.reset
     stSt 47 s = ssSYNC ∧ (stall s 47).syncBad = true) ∧
    (let s := wrN (withStallAt 47 2 id State.reset) (R.STALL_STROKE_ELAPSED 47) 0xFFFFFFFF
     stSt 47 s = ssRUN ∧ (stall s 47).strokeTold = false ∧ strokeLimit 47 s < rdN s (R.STALL_STROKE_ELAPSED 47) ∧
      flag (setF s (F.STALL_CTRL_STROKE_TIMEOUT_FAULT 47)) (F.STALL_CTRL_STROKE_TIMEOUT_FAULT 47) = true) ∧
    (let s := withStallAt 47 2 (fun x => { x with noEntry := true, plan := { x.plan with fault := 0x82 } }) State.reset
     emptyFor 47 5 s = true ∧ (stall s 47).engFault = 0 ∧ (stall s 47).plan.fault ≠ 0x83) ∧
    (let s := withStallAt 47 2 (fun x => { x with noEntry := true, plan := { x.plan with fault := 0x83 } }) State.reset
     emptyFor 47 5 s = true ∧ (stall s 47).engFault = 0 ∧ (stall s 47).plan.fault = 0x83) ∧
    emptyFor 47 5 (withStallAt 47 2 (fun x => { x with noEntry := true, engFault := 4 }) State.reset) = true := by
  decide +kernel

theorem witness_StallEntersHold :
    emptyFor 47 4 (withStallAt 47 2 (fun x => { x with noEntry := true }) State.reset) = true ∧
    emptyFor 47 3 (withStallAt 47 2 (fun x => { x with noEntry := true, seq := { seqRest with stop := 7 } }) State.reset)
      = true ∧
    (let s := withStallAt 47 2 (fun x => { x with starveDue := true }) State.reset
     stSt 47 s = ssRUN ∧ (stall s 47).starveDue = true ∧ (stall s 47).stops = false) ∧
    (let s := withStallAt 47 3 (fun x => { x with sync := some (2 ^ 47, 5, 1) }) { State.reset with beam := 1000001 }
     (stall s 47).sync = some (2 ^ 47, 5, 1) ∧ stSt 47 s = ssSYNC ∧ 1 * 1000000 < s.beam - (stall s 47).syncSince) ∧
    (let s := withStallAt 47 4 (fun x => { x with holdDue := true, holdReq := 255 }) State.reset
     holdDueNow 47 s = true ∧ stSt 47 s ≠ ssRUN ∧ (stall s 47).holdReq < 256) := by decide +kernel

/-- A parsed item without an island or a section. -/
def plainItem (k : ItemK) : Item := ⟨0, 0, 0xFFFFFFFF, 0, [], false, seqRest, k⟩

/-- A stall in RUN that has come to a stopping marker. -/
def atMark (k : ItemK) : State :=
  withStallAt 47 2 (fun x => { x with noEntry := true, items := [plainItem k] }) State.reset

theorem witness_StallTransitions :
    (let s := put (withStallAt 47 5 (fun x => { x with loaded := true }) State.reset) (F.STALL_STATE_HOLD_CAUSE 47) 8
     stSt 47 s = ssHOLD ∧ bit (get s (F.STALL_STATE_HOLD_CAUSE 47)) 3 = true ∧ visibleAgain 47 s = true) ∧
    (let s := put (withStallAt 47 5 (fun x => { x with buf := [restEntry] }) State.reset) (F.STALL_STATE_HOLD_CAUSE 47) 4
     stSt 47 s = ssHOLD ∧ bit (get s (F.STALL_STATE_HOLD_CAUSE 47)) 2 = true ∧ strokeReady 47 s = true) ∧
    reached 47 (atMark (.layerEnd 7)) = some (.layerEnd 7) ∧
    reached 47 (atMark (.sync 0 (2 ^ 47) 5)) = some (.sync 0 (2 ^ 47) 5) ∧ reached 47 (atMark .progEnd) = some .progEnd ∧
    (let s := put (withStallAt 47 3 (fun x => { x with sync := some (2 ^ 47, 5, 0), syncRel := true })
       { State.reset with forced := false }) F.YRD_LSAFE_STATUS_SOURCES 0
     (stall s 47).sync = some (2 ^ 47, 5, 0) ∧ (stall s 47).syncRel = true ∧ barrierMet 47 s = true ∧ inhibited s = false) ∧
    (let s := put (withStallAt 47 5 (fun x => { x with retDue := true }) { State.reset with forced := false })
       F.YRD_LSAFE_STATUS_SOURCES 0
     stSt 47 s = ssHOLD ∧ (stall s 47).retDue = true ∧ get s (F.STALL_STATE_HOLD_CAUSE 47) = 0 ∧ inhibited s = false) ∧
    (let s := setF (setF (withStallAt 47 2 (fun x => { x with islD := 1 }) { State.reset with beam := 1000 })
       (F.STALL_STATE_IN_ISLAND 47)) (F.STALL_CTRL_ISLAND_LATE_HOLD 47)
     flag s (F.STALL_STATE_IN_ISLAND 47) = true ∧ (stall s 47).islD ≠ 0 ∧ (stall s 47).islTold = false ∧
      (stall s 47).islD * 1000 ≤ s.beam - (stall s 47).islStart ∧ flag s (F.STALL_CTRL_ISLAND_LATE_HOLD 47) = true ∧
      stSt 47 s = ssRUN) ∧
    (let s := withStallAt 47 2 (fun x => { x with seq := { seqRest with stop := 8 } }) State.reset
     (stall s 47).seq.stop = 8 ∧ seqWorks 47 s = true ∧ seamRegs 47 s < 4) := by decide +kernel

theorem witness_StallHoldAndResume :
    accessOk true (R.STALL_CMD 47) State.reset = true ∧ accessOk true R.YRD_HOLD_ALL State.reset = true ∧
    stSt 47 (withStallAt 47 5 id State.reset) = ssHOLD ∧ stSt 47 (withStallAt 47 2 id State.reset) = ssRUN ∧
    stSt 47 (withStallAt 47 4 id State.reset) = ssLAYER ∧ holdOk 47 State.reset = false ∧
    resumeOk 47 (put (withStallAt 47 5 id { State.reset with forced := false }) F.YRD_LSAFE_STATUS_SOURCES 0) = true := by
  decide +kernel

/-- A state without an inhibit whose context 5 has a descriptor of stall 47. -/
def orderState (op st : Nat) : State :=
  oneDesc 5 1 47 (descOf op 1 0) (put (withStallAt 47 st id { enState with forced := false }) F.YRD_LSAFE_STATUS_SOURCES 0)

theorem witness_StallOrders :
    (∀ op : Fin 4, Starts 5 (0x18 + op) (descOf (0x18 + op) 1 0) (orderState (0x18 + op) (if op = 0 then 1 else 5)) ∧
      ctxStall 5 (orderState (0x18 + op) (if op = 0 then 1 else 5)) = some 47) ∧
    (descOf 0x18 1 0).txnV = false ∧ blockSecure (32 + 47 / 8) (orderState 0x18 1) = false ∧
    orderPlain (descOf 0x18 1 0) = true ∧ stSt 47 (orderState 0x18 1) = ssIDLE ∧ hbLost (orderState 0x18 1) = false ∧
    inhibited (orderState 0x18 1) = false ∧ servoOk 47 (orderState 0x18 1) = true ∧ stSt 47 (orderState 0x19 5) = ssHOLD ∧
    stSt 47 (orderState 0x19 2) = ssRUN ∧ resumeOk 47 (orderState 0x1A 5) = true ∧
    flag (orderState 0x1B 2) (F.STALL_STATE_ABORTING 47) = false ∧ orderPlain (descOf 0x19 1 1) = false := by
  unfold Starts
  decide +kernel

theorem witness_StallAbortAndEnable :
    (accessOk true (R.STALL_CMD 47) State.reset = true ∧ flag State.reset (F.STALL_STATE_ABORTING 47) = false) ∧
    (let s := withStallAt 47 5 (fun x => { x with abortDue := true }) State.reset
     abortOver 47 s = true ∧ stSt 47 s ≠ ssIDLE) ∧
    (let s := setF (put (put State.reset F.YRD_CTRL_STABLE_EN 63) (F.LNK_STATE_STAGE 11) 6) (F.STALL_CTRL_EN 47)
     stSt 47 s = ssOFFLINE ∧ flag s (F.STALL_CTRL_EN 47) = true) ∧
    accessOk true (R.STALL_CTRL 47) State.reset = true ∧ accessOk true (R.STALL_PROG_REGION 47) State.reset = true ∧
    regionOk 47 0x2A0 0x60 State.reset = true ∧ regionOk 47 0x2A0 0x61 State.reset = false := by decide +kernel

theorem witness_HeartbeatAndDeadline :
    accessOk true R.YRD_HEARTBEAT State.reset = true ∧ accessOk true R.YRD_HEARTBEAT_KICK State.reset = true ∧
    (let s := put { State.reset with ldSince := some 0, beam := 1000000 } F.YRD_LAYER_DEADLINE_LIMIT 1
     s.ldSince.isSome = true ∧ get s F.YRD_LAYER_DEADLINE_LIMIT ≠ 0 ∧ s.ldTold = false ∧
      get s F.YRD_LAYER_DEADLINE_LIMIT * 1000000 ≤ s.beam - s.ldSince.getD 0) ∧
    heartbeatDue (put { State.reset with beam := 60000000000 } F.YRD_HEARTBEAT_PERIOD 60) = true := by decide +kernel

/-! ## Witnesses: program loads -/

/-- A load of 16 bytes of opcode `op` into the region of stall 47. -/
def loadDesc (op : Nat) : Desc :=
  ⟨BitVec.ofNat 512 (op + 2 ^ 8 + 2 ^ 32 * 1 + 2 ^ 128 * 16 + 2 ^ 160 * (if op = 0x10 then 0 else 16)), false, false, false, 0,
    none⟩

def loadState (op : Nat) : State := oneDesc 5 1 47 (loadDesc op) (withStallAt 47 1 id enState)

/-- A load whose bytes are ready. -/
def readyState : State :=
  let d := { loadDesc 0x10 with started := true, aux := loadAux 47 16 0 }
  { oneDesc 5 1 47 d (withStallAt 47 1 id enState) with
    cmpDone := [loadJob 5 1 false [] (List.replicate 16 7) 16 (some (stOK, 0))] }

theorem witness_ProgramLoads :
    LoadStarts 5 0x10 (loadDesc 0x10) 47 16 (loadState 0x10) ∧ LoadStarts 5 0x11 (loadDesc 0x11) 47 16 (loadState 0x11) ∧
    LoadStarts 5 0x12 (loadDesc 0x12) 47 16
      { loadState 0x12 with rtab := vset State.reset.rtab 0 (0x1400, 0x17FF, 3) } ∧
    ((loadsRunning 5 readyState).map Desc.op = [0x10] ∧ (loadsRunning 5 readyState).map (fun d => auxStall d.aux) = [47] ∧
      (readyState.cmpDone.find? (fun j => j.ctx == 5 && j.seq == 1)).isSome = true ∧ 16 ≤ progFree 47 readyState) := by
  unfold LoadStarts Starts
  decide +kernel

theorem witness_SequencerFaults :
    (47 : Fin 48) ∈ [(47 : Fin 48)] ∧ (47 : Fin 48).val / 8 = (5 : Fin 6).val ∧
    stSt 47 (withStallAt 47 1 id State.reset) ≠ ssOFFLINE ∧ stSt 47 (withStallAt 47 1 id State.reset) ≠ ssFAULT ∧
    (0 : Fin 48).val / 8 ≠ (5 : Fin 6).val := by decide +kernel

/-! ## Witnesses: beam outputs and the marshal -/

theorem witness_GridsAndPlanner :
    (stallBase 47 + 0x100 + 4 * (4 % 16) ≠ R.STALL_GRID_SEL 47 ∧
      accessOk true (stallBase 47 + 0x100 + 4 * (4 % 16)) State.reset = true ∧
      trjOk 47 (stallBase 47 + 0x110) (merged (stallBase 47 + 0x110) 100 State.reset) State.reset = true ∧
      trjOk 47 (stallBase 47 + 0x110) (merged (stallBase 47 + 0x110) 99 State.reset) State.reset = false) ∧
    (accessOk true (R.STALL_GRID_SEL 47) State.reset = true ∧ stSt 47 State.reset ≤ ssIDLE ∧
      ¬ stSt 47 (withStallAt 47 2 id State.reset) ≤ ssIDLE) ∧
    get (put State.reset (F.STALL_TRJ_STATUS_GRID_STATE 47) 1) (F.STALL_TRJ_STATUS_GRID_STATE 47) = 1 ∧
    (accessOk true (0x290000 + 0x100000 * (5 : Fin 6).val + 0xCFFC) State.reset = true ∧
      get State.reset (F.STB_GRID_WIN_SEL_TARGET 5) < 16 ∧ slotLocked 5 0 State.reset = false ∧
      slotLocked 5 0 (withStallAt 40 1 id (wrN State.reset (R.STALL_GRID_SEL 40) 0)) = true ∧
      rangeOk true (loftAddr (5 : Fin 6) (0xD000 * 0 + 0xCFFC)) 4 State.reset = true) := by decide +kernel

theorem witness_GateSettings :
    accessOk true (R.STALL_GATE_CFG 47) State.reset = true ∧ accessOk true (R.STALL_PWR_GAIN 47 + 4 * 2) State.reset = true ∧
    accessOk true (R.STALL_GATE_TRIM 47) State.reset = true ∧ stSt 47 State.reset = ssOFFLINE ∧
    (let s := withStallAt 47 2 (fun x => { x with cur := some { restEntry with gate := true } }) State.reset
     stSt 47 s = ssRUN ∧ trimFree 47 s = false) := by decide +kernel

/-- A state without an inhibit. -/
def calmState : State := put { State.reset with forced := false } F.YRD_LSAFE_STATUS_SOURCES 0

theorem witness_InhibitSources :
    bit (get calmState F.YRD_LSAFE_STATUS_SOURCES) 0 = false ∧ bit (get calmState F.YRD_LSAFE_STATUS_SOURCES) 7 = false ∧
    accessOk true R.YRD_LSAFE_SW calmState = true ∧ accessOk true R.YRD_LSAFE_SEC calmState = true ∧
    get (put calmState F.YRD_LSAFE_STATUS_SOURCES 128) F.YRD_LSAFE_STATUS_SOURCES = 2 ^ 7 ∧
    (let s := setF (put calmState F.YRD_LSAFE_STATUS_SOURCES 1) F.YRD_LSAFE_STATUS_IN_A
     flag s (lsafeIn (!true)) = true ∧ get s F.YRD_LSAFE_STATUS_SOURCES = 1) ∧
    (let s := { calmState with lsDiff := some 0, beam := 1000001 }
     s.lsDiff = some 0 ∧ 1000000 < s.beam - 0 ∧ bit (get s F.YRD_LSAFE_STATUS_SOURCES) 1 = false) ∧
    (let s := setF calmState (F.STALL_GATE_CFG_DRIVE 47)
     flag s (F.STALL_GATE_CFG_DRIVE 47) = true ∧ ballDiffers 47 true s = true ∧ ballDiffers 47 false s = false ∧
      bit (get s F.YRD_LSAFE_STATUS_SOURCES) 5 = false ∧ (stall s 47).faultNew = 0) ∧
    accessOk true R.YRD_LSAFE_CLEAR calmState = true := by decide +kernel

theorem witness_InhibitSequence :
    ({ State.reset with inhDue := true } : State).inhDue = true ∧
    (let s := withStallAt 47 2 (fun x => { x with stopping := 2, noEntry := true }) State.reset
     (stall s 47).stopping = 2 ∧ (stall s 47).noEntry = true ∧ (stall s 47).buf = []) ∧
    (let s := setF (setF { State.reset with relSince := some 0, beam := 1000000000 } F.YRD_LSAFE_STATUS_IN_A)
       F.YRD_LSAFE_STATUS_IN_B
     s.relSince = some 0 ∧ clampN 1 1000 (rdN s R.YRD_LSAFE_RELEASE % 1024) * 1000000 ≤ s.beam - 0 ∧
      flag s F.YRD_LSAFE_STATUS_IN_A = true ∧ flag s F.YRD_LSAFE_STATUS_IN_B = true) := by decide +kernel

theorem witness_MarshalSettings :
    accessOk true (R.YRD_MSH_CTRL + 4 * 5) State.reset = true ∧ allQuiet State.reset = true ∧
    marshalRange (R.YRD_MSH_DMIN) 1000 State.reset = true ∧ marshalRange (R.YRD_MSH_DMIN) 999 State.reset = false ∧
    accessOk true R.YRD_MSH_SEAM_MOVE State.reset = true ∧
    (let s := setSeam 191 (fun _ => ⟨9, 1, 46, 47, false, false, 255, 4⟩) { State.reset with seamMoves := [⟨1, 9, 47, false⟩] }
     s.seamMoves = [⟨1, 9, 47, false⟩] ∧ seamIdx 9 s = some 191) := by decide +kernel

/-! ## Witnesses: the control loops -/

/-- A stall whose running energy loop has a due bin. -/
def binState (got : Nat) : State :=
  put (setEng 47 (fun x => { x with bins := [⟨0, true, 100, 10, 1, 0, [50, 0, 0, 0], [got, 0, 0, 0]⟩], swapDue := true })
    { State.reset with now := 10000 }) (F.ENG_STATUS_LOOP 47) 1

theorem witness_EnergyLoop :
    bankReads 47 (deliverPend 47 (bankSwap 47 (binState 10))) = true ∧
    (bankLoading 47 1 State.reset = false ∧
      bankLoading 47 1 { State.reset with cleLoads := [⟨5, 1, 5, bankOff 47 1, bankOff 47 1, []⟩] } = true) ∧
    ((dueBin 47 (binState 10)).map Bin.complete = some true ∧ (dueBin 47 (binState 9)).map Bin.complete = some false ∧
      (dueBin 47 (binState 10)).map Bin.cls = some true ∧ get (binState 10) (F.ENG_STATUS_LOOP 47) = 1) ∧
    (accessOk true (R.ENG_BANK 47) State.reset = true ∧ (1#32).toNat % 2 ≠ get State.reset (F.ENG_BANK_ACTIVE 47) ∧
      (0#32).toNat % 2 = get State.reset (F.ENG_BANK_ACTIVE 47)) ∧
    (eng (binState 10) 47).swapDue = true ∧
    accessOk true (R.ENG_CFG 47 + engRegOff 6) State.reset = true ∧
    engOk 47 8 0 (merged (R.ENG_CFG 47 + 8) 0x40004000 State.reset) State.reset = true ∧
    engOk 47 8 0 (merged (R.ENG_CFG 47 + 8) 0x40004001 State.reset) State.reset = false := by decide +kernel

/-- A state with a stall's servo state set. -/
def servoState (v : Nat) (f : Srv → Srv) : State := setSrv 47 f (put State.reset (F.SRV_STATE_STATE 47) v)

theorem witness_ServoCommands :
    accessOk true (R.CLE_SERVO_CMD 5) State.reset = true ∧ stallOf 5 7 = 47 ∧
    servoRefusal 5 47 1 (put (servoState 1 id) (F.STALL_STATE_STATE 47) 1) = 0 ∧ servoRefusal 5 47 2 (servoState 3 id) = 0 ∧
    servoRefusal 5 47 1 State.reset = 4 ∧ servoRefusal 5 47 2 State.reset = 4 ∧
    (let s := servoState 2 (fun v => { v with settle := 64 })
     srvSt 47 s = 2 ∧ 64 ≤ (srv s 47).settle) ∧
    (let s := servoState 2 (fun v => { v with settle := 63, since := 25000 })
     srvSt 47 s = 2 ∧ 25000 ≤ (srv s 47).since ∧ (srv s 47).settle < 64) ∧
    (let s := servoState 4 id
     srvSt 47 s = 4 ∧ (srv s 47).axes.toList.all (fun x => x.c1 == 0) = true) := by decide +kernel

/-- A CLE_LOAD of 8 bytes into energy bank 0 of stable 5. -/
def cleDesc : Desc := ⟨BitVec.ofNat 512 (0x78 + 2 ^ 8 + 2 ^ 32 * 1 + 2 ^ 128 * 8 + 2 ^ 160 * 5), false, false, false, 0, none⟩

theorem witness_ServoLoop :
    (let s := put { State.reset with now := 4000, boundary := 0 } (F.LNK_STATE_STAGE 11) 6
     bayActive 11 s = true ∧ superTime 1 s / 4000 = s.now / 4000 ∧ s.boundary ≤ s.now / 4000 ∧
      s.now % 4000 < 3000 ∧ slotStall 11 3 s = some (47 : Fin 48).val ∧ bit 0 8 = flag s (F.SRV_STATE_HEAD_BARE 47)) ∧
    (let s := { servoState 3 (fun v => { v with first := false }) with now := 4000 }
     s.boundary ≤ s.now / 4000 ∧ srvSt 47 s = 3 ∧ 3000 < ({ s with now := 6500 } : State).now % 4000 + s.mvP ∧
      (srv s 47).first = false ∧ setRefused 47 s = none ∧ s.now / 4000 < ({ s with boundary := 2 } : State).boundary) ∧
    srvSt 47 (servoState 4 (fun v => v.axis 2 fun x => { x with c1 := 5 })) = 4 ∧
    accessOk true (R.SRV_CUR_LIM 47 + 4 * 3) State.reset = true ∧
    srvRange 3 (merged (R.SRV_CUR_LIM 47 + 4 * 3) 1 State.reset) = true ∧ srvSt 47 State.reset ≤ 1 ∧
    (accessOk true (cleBase (5 : Fin 6) + 0x4000 + 0x37FC) State.reset = true ∧ coefOpen 5 0x37FC State.reset = true ∧
      rangeOk true (loftAddr (5 : Fin 6) (0xE0000 + 0x37FC)) 4 State.reset = true ∧ coefOpen 5 0x7FFC State.reset = false) ∧
    (let s := oneDesc 5 6 0 cleDesc (put (put enState F.YRD_CTRL_STABLE_EN 63) (F.ENG_BANK_ACTIVE 40) 1)
     Starts 5 0x78 cleDesc s ∧ cleDesc.at 20 1 = (5 : Fin 6).val ∧ cleTarget (cleDesc.at 21 1) = some (0xE0000, 0x200) ∧
      blockSecure (32 + (5 : Fin 6).val) s = false ∧ cleDesc.len = 8 ∧ cleDesc.at 22 2 = 0 ∧ cleDesc.at 24 40 = 0 ∧
      stableEn (5 : Fin 6) s = true ∧ rangeOk (ctxSecure 5) (loftAddr (5 : Fin 6) (0xE0000 + cleDesc.at 22 2)) cleDesc.len s = true ∧
      coefOpen 5 (0xE0000 - 0xE0000) s = true ∧ coefOpen 5 0 (put s (F.ENG_BANK_ACTIVE 40) 0) = false) ∧
    rangeOk false (loftAddr (5 : Fin 6) (0xE0000 + 0x37FC)) 4
      { State.reset with rtab := vset State.reset.rtab 0 (0x14E0, 0x14E3, 3) } = false ∧
    ({ State.reset with cleLoads := [⟨(255 : Fin 256).val, 1, (5 : Fin 6).val, 0xE0000, 0xE0008, [1]⟩] } : State).cleLoads =
      [⟨255, 1, 5, 0xE0000, 0xE0008, [1]⟩] := by
  unfold Starts
  decide +kernel

/-! ## Witnesses: rules stated whole -/

/-- A TXN_WRITE of one entry into transaction 9. -/
def stageDesc : Desc :=
  ⟨BitVec.ofNat 512 (0x61 + 2 ^ 8 + 2 ^ 24 * 9 + 2 ^ 30 + 2 ^ 32 * 1 + 2 ^ 128 * 16), false, false, false, 0, none⟩

/-- A state whose context 5 has that descriptor next, with transaction 9 OPEN. -/
def stageState : State := setTxn 9 (fun x => { x with st := 1 }) (oneDesc 5 6 0 stageDesc enState)

/-- An entry that writes 1 under mask 1 at an offset. -/
def entryOf (o : Nat) : List Byte := leBytes 4 o ++ leBytes 4 1 ++ leBytes 4 1 ++ leBytes 4 0

theorem witness_NotStaged :
    Starts 5 0x61 stageDesc stageState ∧ stageDesc.txnV = true ∧ stageDesc.at 20 44 = 0 ∧ stageDesc.txnId = 9 ∧
    (txn stageState 9).st = 1 ∧ (txn stageState 9).doom = 0 ∧ 16 ≤ stageDesc.len ∧
    [0x800000, 0x8BFFFC, 0xA0000, 0xAFFFC, 0x120000, 0x12FFFC].all (fun o => (entryOf o).length == 16 && leAt (entryOf o) 0 4 == o) = true := by
  unfold Starts
  decide +kernel

theorem witness_StallSummaryRead :
    accessOk true (R.YRD_STALL_SUMMARY 5) State.reset = true ∧ accessOk false (R.YRD_STALL_SUMMARY (2 * 2)) State.reset = true := by
  decide +kernel

/-- The marshal's registers end at the word of stall 47, which a held stroke's deferrals reach. -/
theorem witness_MarshalReset :
    R.YRD_MSH_CTRL ≤ R.YRD_MSH_STALL 47 ∧ R.YRD_MSH_STALL 47 < R.YRD_MSH_STALL 48 ∧
    shown (R.YRD_MSH_STALL 47) (wrN State.reset (R.YRD_MSH_STALL 47) 5) = 5 ∧
    shown R.YRD_MSH_SEAM_INFO (setSeam 0 (fun _ => ⟨9, 1, 46, 47, false, false, 0, 0⟩) State.reset) = 9 := by decide +kernel

/-- A port with EDGE_LIMIT `lim`, MIN_EDGE 50 ns, two rejections in its interval, and its last accepted edge at the beam time 0. -/
def edgeState (lim : Nat) : State :=
  setPort 7 (fun x => { x with rejN := 2, acc := some 0 })
    (setF (wrN State.reset (R.FBKP_FILTER 7) (10 + 2 ^ 24 * lim)) (F.FBKP_STATUS_ENABLED 7))

theorem witness_FeedbackEdgeRate :
    (0 < rdN (edgeState 2) (R.FBKP_FILTER 7) / 2 ^ 24 ∧ rdN (edgeState 2) (R.FBKP_FILTER 7) / 2 ^ 24 ≤ (port (edgeState 2) 7).rejN ∧
      (port (edgeState 2) 7).rejTold = false ∧ flag (edgeState 2) (F.FBKP_STATUS_FAULT 7) = false) ∧
    rdN (edgeState 0) (R.FBKP_FILTER 7) / 2 ^ 24 = 0 ∧
    (flag (edgeState 0) (F.FBKP_STATUS_ENABLED 7) = true ∧ fbkMode 7 (edgeState 0) = 0 ∧ (port (edgeState 0) 7).reread = false ∧
      (port (edgeState 0) 7).acc = some 0 ∧ (edgeState 0).beam + 5 * 9 < 0 + minEdge 7 (edgeState 0) ∧
      (port (edgeState 0) 7).a = false) := by decide +kernel

/-- A state whose bay 11 is enabled and whose stall 47, in one of its slots, has a STATE code. -/
def bayState (st : Nat) : State := setF (withStallAt 47 st id State.reset) (F.LNK_CTRL_EN 11)

theorem witness_LinkWriteRefusals :
    (accessOk true (R.LNK_CTRL 11) (bayState 2) = true ∧ 47 ∈ bayStalls 11 (bayState 2) ∧ stSt 47 (bayState 2) = ssRUN ∧
      flag (bayState 2) (F.LNK_CTRL_EN 11) = true ∧ stSt 47 (bayState 5) = ssHOLD ∧
      srvSt 47 (put (bayState 1) (F.SRV_STATE_STATE 47) 4) = 4) ∧
    (stSt 47 (bayState 1) ≠ ssOFFLINE ∧ bits (0#32).toNat 4 2 ≠ get (bayState 1) (F.LNK_CTRL_VER_MAX 11)) ∧
    (accessOk true (R.LNK_TRAIN_CTL 11) (bayState 1) = true ∧ flag (bayState 1) (F.LNK_TRAIN_CTL_TEST 11) = false ∧
      bit (8#32).toNat 3 = true) := by decide +kernel

theorem witness_MemoryConfigWrites :
    accessOk true R.DMC_CFG State.reset = true ∧ accessOk true R.DMC_SCRUB State.reset = true ∧
    bits (0xFFFF00FF#32).toNat 8 8 = 0 ∧ bits (0x100#32).toNat 8 8 = 1 := by decide +kernel

theorem witness_LampWriteRanges :
    (accessOk true R.LMP_CFG State.reset = true ∧ accessOk true (R.LMP_LAMP 159) State.reset = true) ∧
    LampFieldOut R.LMP_CFG (merged R.LMP_CFG 17 State.reset) ∧
    LampFieldOut R.LMP_MATRIX_CFG (merged R.LMP_MATRIX_CFG 0x28020031 State.reset) ∧
    LampFieldOut R.LMP_DETECT (merged R.LMP_DETECT 0x000A0000 State.reset) ∧
    LampFieldOut (R.LMP_PAT_CTRL 3) (merged (R.LMP_PAT_CTRL 3) 0xA06 State.reset) ∧
    LampFieldOut (R.LMP_PAT_CHASE 3) (merged (R.LMP_PAT_CHASE 3) 0x10000 State.reset) ∧
    LampFieldOut (R.LMP_SINK_CUR 23) (merged (R.LMP_SINK_CUR 23) 241 State.reset) ∧
    LampFieldOut (R.LMP_LAMP 159) (merged (R.LMP_LAMP 159) 0x00850000 State.reset) ∧
    ¬ LampFieldOut (R.LMP_LAMP 159) (merged (R.LMP_LAMP 159) 0x01F40000 State.reset) := by
  refine ⟨by decide +kernel, ?_, ?_, ?_, ?_, ?_, ?_, ?_, ?_⟩ <;> (unfold LampFieldOut; decide +kernel)

/-- A state whose lamp 159 is monitored in group 7 and shows 0. -/
def lampState : State := setF (put State.reset (F.LMP_LAMP_GROUP 159) 7) (F.LMP_LAMP_MONITOR 159)

theorem witness_LampFaults :
    (lampThere 159 = true ∧ lampChecked 159 lampState = true ∧ flag lampState (lampBit 159) = false ∧
      get lampState (F.LMP_LAMP_GROUP 159) = 7 ∧ groupFailed 7 lampState = false) ∧
    (let s := put lampState F.LMP_GROUP_STATUS_FAILED 0x80
     accessOk true (R.LMP_LAMP 159) s = true ∧ get s (F.LMP_LAMP_GROUP 159) = 7 ∧ groupFailed 7 s = true ∧
      ¬ LampFieldOut (R.LMP_LAMP 159) (merged (R.LMP_LAMP 159) 0x0070FFFF s) ∧
      lampGuarded (rdN s (R.LMP_LAMP 159)) (merged (R.LMP_LAMP 159) 0x0070FFFF s) s = false) := by
  unfold LampFieldOut
  decide +kernel

theorem witness_BootConfigRanges :
    accessOk true R.BOOT_TRIAL_CFG State.reset = true ∧
    (let n := merged R.BOOT_TRIAL_CFG (wrWord (.lo 0x01F40001)) State.reset
     bits n 0 4 = 1 ∧ bits n 16 16 = 500) ∧
    (let n := merged R.BOOT_TRIAL_CFG (wrWord (.lo 0x27110008)) State.reset
     bits n 0 4 = 8 ∧ bits n 16 16 = 10001) := by decide +kernel

/-- An AXIS_MOVE to 0 with VMAX `v`. -/
def moveDesc (v : Nat) : Desc :=
  ⟨BitVec.ofNat 512 (0x30 + 2 ^ 8 + 2 ^ 32 * 1 + 2 ^ 192 * v + 2 ^ 224 * 1000), false, false, false, 0, none⟩

/-- A state whose axis 7 is IDLE and whose context 5, bound to it, has a move next. -/
def moveState (v : Nat) : State :=
  oneDesc 5 2 7 (moveDesc v) (put (put enState (F.AXIS_STATUS_STATE 7) asIDLE) (F.AXIS_STEP_TIMING_STEP_WIDTH 7) 1000)

theorem witness_AxisStepRateLimit :
    (accessOk true (R.AXIS_VMAX 7) (moveState 0) = true ∧ get (moveState 0) (F.AXIS_STEP_TIMING_STEP_WIDTH 7) = 1000 ∧
      1000000000 < merged (R.AXIS_VMAX 7) 100001 (moveState 0) * 2 * 1000 * 5) ∧
    (Starts 5 0x30 (moveDesc 100001) (moveState 100001) ∧ (moveDesc 100001).txnV = false ∧
      get (moveState 100001) (F.HIF_CTX_CFG_BIND 5) = (7 : Fin 8).val ∧ blockSecure 13 (moveState 100001) = false ∧
      (axis (moveState 100001) 7).queue.length < 32 ∧ (moveDesc 100001).at 24 4 = 100001) ∧
    (Starts 5 0x30 (moveDesc 100000) (moveState 100000) ∧ (moveDesc 100000).addr = 0 ∧ (moveDesc 100000).len = 0 ∧
      (moveDesc 100000).at 36 28 = 0 ∧ moveRange 7 (moveDesc 100000) (moveState 100000) = false ∧
      axSt 7 (moveState 100000) = asIDLE ∧
      targetBad 7 (moveTarget 7 (moveDesc 100000) (moveState 100000)) (moveState 100000) = false) := by
  unfold Starts
  decide +kernel

end Machine
end Sys2Proof
end

/-!
The statements of chapter 00: the canonical form along a step, the accesses of the set-up window and the doorbell window, and
the resets of the device.
-/
namespace Sys2Proof

/-! ## Bits of masked words -/

theorem bit_eq_testBit (v i : Nat) : bit v i = v.testBit i := by
  rw [bit, Nat.testBit_eq_decide_div_mod_eq, Bool.beq_eq_decide_eq]

/-- Numbers without a common bit add without a carry. -/
theorem add_eq_or_of_and_eq_zero {x y : Nat} (h : x &&& y = 0) : x + y = x ||| y := by
  have hw : x + y < 2 ^ (x + y) := Nat.lt_two_pow_self
  have hx : x < 2 ^ (x + y) := by omega
  have hy : y < 2 ^ (x + y) := by omega
  have hv : BitVec.ofNat (x + y) x &&& BitVec.ofNat (x + y) y = 0#(x + y) :=
    BitVec.eq_of_toNat_eq (by simp [Nat.mod_eq_of_lt hx, Nat.mod_eq_of_lt hy, h])
  have := congrArg BitVec.toNat (BitVec.add_eq_or_of_and_eq_zero _ _ hv)
  simpa [Nat.mod_eq_of_lt hx, Nat.mod_eq_of_lt hy, Nat.mod_eq_of_lt hw] using this

/-- Taking the bits under a mask away from a number leaves the bits outside it. -/
theorem sub_and_eq_ldiff (x m : Nat) : x - (x &&& m) = Nat.ldiff x m := by
  have hd : Nat.ldiff x m &&& (x &&& m) = 0 :=
    Nat.eq_of_testBit_eq fun i => by
      cases hx : x.testBit i <;> cases hm : m.testBit i <;> simp [Nat.testBit_ldiff, hx, hm]
  have hs : Nat.ldiff x m + (x &&& m) = x := by
    rw [add_eq_or_of_and_eq_zero hd]
    refine Nat.eq_of_testBit_eq fun i => ?_
    cases hx : x.testBit i <;> cases hm : m.testBit i <;> simp [Nat.testBit_ldiff, hx, hm]
  omega

theorem bit_sub_and (x m i : Nat) : bit (x - (x &&& m)) i = (bit x i && !bit m i) := by
  simp only [bit_eq_testBit, sub_and_eq_ldiff, Nat.testBit_ldiff]

@[simp] theorem bit_and (x y i : Nat) : bit (x &&& y) i = (bit x i && bit y i) := by
  simp only [bit_eq_testBit, Nat.testBit_and]

theorem bit_mod (x : Nat) {n i : Nat} (h : i < n) : bit (x % 2 ^ n) i = bit x i := by
  simp [bit_eq_testBit, Nat.testBit_mod_two_pow, h]

namespace Machine

theorem bit_mix (old v mask i : Nat) : bit (mix old v mask) i = if bit mask i then bit v i else bit old i := by
  have hd : Nat.ldiff old mask &&& (v &&& mask) = 0 :=
    Nat.eq_of_testBit_eq fun j => by cases hm : mask.testBit j <;> simp [Nat.testBit_ldiff, hm]
  rw [mix, sub_and_eq_ldiff, add_eq_or_of_and_eq_zero hd]
  cases hm : mask.testBit i <;> simp [bit_eq_testBit, Nat.testBit_ldiff, hm]

/-! ## The rows of the register map -/

theorem mem_of_findRow {rel : Nat} {l : List RegRow} {p : RegRow × Nat} (h : findRow rel l = some p) : p.1 ∈ l := by
  induction l with
  | nil => cases h
  | cons w t ih =>
    simp only [findRow] at h
    split at h
    · cases h; exact List.mem_cons_self
    · exact List.mem_cons_of_mem _ (ih h)

/-- The rows of every block of the set-up window, and of the ranges without registers (R27, R28). -/
def blockMap : List (List RegRow) :=
  [[], glbRows, hifRows, yrdRows, gteRows, cpmRows, thmRows, tmsRows, evcRows, dgnRows, erwRows, dmcRows, cmpRows, imgRows,
   axsRows, fbkRows, lmpRows, farRows, tckRows, bootRows, stallRows, cleRows, stbRows, lnkRows]

theorem blockAt_mem_blockMap {o : Nat} {b : List RegRow × Nat} (h : blockAt o = some b) : b.1 ∈ blockMap := by
  unfold blockAt at h
  dsimp only at h
  split_ifs at h
  · split at h <;> cases h <;> simp [blockMap]
  all_goals cases h; simp [blockMap]

/-- No bit of a register is both RW and W1C (R5). -/
theorem blockMap_rw_w1c : ∀ l ∈ blockMap, ∀ w ∈ l, w.rw &&& w.w1c = 0 := by decide +kernel

theorem blockAt_of_rowAt {o : Nat} {p : RegRow × Nat} (h : rowAt o = some p) : ∃ b, blockAt o = some b ∧ p.1 ∈ b.1 := by
  unfold rowAt at h
  split at h
  · cases h
  next rows rel hb => exact ⟨_, hb, mem_of_findRow h⟩

theorem rwMask_and_w1cMask (o : Nat) : rwMask o &&& w1cMask o = 0 := by
  unfold rwMask w1cMask
  cases h : rowAt o with
  | none => rfl
  | some p =>
    obtain ⟨b, hb, hp⟩ := blockAt_of_rowAt h
    have hd := blockMap_rw_w1c _ (blockAt_mem_blockMap hb) _ hp
    dsimp only
    split
    · rw [← Nat.and_mod_two_pow, hd, Nat.zero_mod]
    · rw [← Nat.and_div_two_pow, hd, Nat.zero_div]

/-! ## The canonical form along a step -/

/-- Every command changes its state by an evolution that touches only the parts its table allows. -/
theorem exec_evolves {i : Instr} {s t : State} (he : exec i s = .next t) :
    Evolves (mayTouch i) s.store t.store := by
  cases i with
  | microvectorTick errs => exact execMicrovectorTick_evolves rfl rfl rfl rfl rfl rfl rfl rfl rfl rfl rfl rfl rfl rfl rfl rfl rfl rfl rfl rfl rfl rfl .refl errs he
  | squash g => exact execSquash_evolves rfl .refl g he
  | mvUnderrun g => exact execMvUnderrun_evolves rfl rfl rfl .refl g he
  | mvPeriodWrite sec v => exact execMvPeriodWrite_evolves rfl rfl rfl rfl .refl sec v he
  | mvPeriodChange => exact execMvPeriodChange_evolves rfl rfl rfl .refl he
  | bayMapWrite sec b v => exact execBayMapWrite_evolves rfl .refl sec b v he
  | stableEnableWrite sec v => exact execStableEnableWrite_evolves rfl rfl .refl sec v he
  | layerSetWrite sec w => exact execLayerSetWrite_evolves .refl sec w he
  | layerBarrierReached => exact execLayerBarrierReached_evolves rfl rfl .refl he
  | registerWrite sec o w => exact execRegisterWrite_evolves .refl sec o w he
  | readClear sec o wide => exact execReadClear_evolves rfl rfl .refl sec o wide he
  | unsupportedAccess o write => exact execUnsupportedAccess_evolves .refl o write he
  | atomicOpRequest off => exact execAtomicOpRequest_evolves .refl off he
  | ctxEnable sec c => exact execCtxEnable_evolves rfl .refl sec c he
  | ctxDisable sec c => exact execCtxDisable_evolves rfl .refl sec c he
  | ctxResume sec c => exact execCtxResume_evolves rfl .refl sec c he
  | ctxDrainDone c => exact execCtxDrainDone_evolves rfl .refl c he
  | sqTailDoorbell c v hi => exact execSqTailDoorbell_evolves rfl .refl c v hi he
  | cqHeadDoorbell c v => exact execCqHeadDoorbell_evolves rfl .refl c v he
  | doorbellAccessError off acc => exact execDoorbellAccessError_evolves .refl off acc he
  | descriptorFetch descs err => exact execDescriptorFetch_evolves rfl .refl descs err he
  | duplicateCompletion c => exact execDuplicateCompletion_evolves rfl .refl c he
  | payloadReadError c a kind => exact execPayloadReadError_evolves rfl .refl c a kind he
  | completionPost c => exact execCompletionPost_evolves rfl .refl c he
  | irqAgeExpiry c => exact execIrqAgeExpiry_evolves rfl .refl c he
  | hifBackpressure c => exact execHifBackpressure_evolves rfl .refl c he
  | versionOfferWrite sec v => exact execVersionOfferWrite_evolves .refl sec v he
  | lastSeqWrite sec c v => exact execLastSeqWrite_evolves rfl .refl sec c v he
  | mailboxPost v => exact execMailboxPost_evolves .refl v he
  | mailboxResponse => exact execMailboxResponse_evolves .refl he
  | functionLevelReset => exact execFunctionLevelReset_evolves rfl rfl rfl .refl he
  | hotReset => exact execHotReset_evolves rfl rfl rfl .refl he
  | dataLinkDown => exact execDataLinkDown_evolves rfl rfl rfl .refl he
  | dataLinkUp speed width => exact execDataLinkUp_evolves .refl speed width he
  | d3hotEntry => exact execD3hotEntry_evolves rfl rfl rfl .refl he
  | l1Change inL1 => exact execL1Change_evolves .refl inL1 he
  | perstAssert => exact execPerstAssert_evolves rfl rfl rfl .refl he
  | nop c => exact execNop_evolves rfl .refl c he
  | waitUntil c => exact execWaitUntil_evolves rfl .refl c he
  | waitUntilDone c => exact execWaitUntilDone_evolves rfl .refl c he
  | progLoad c r => exact execProgLoad_evolves rfl .refl c r he
  | progLoadPacked c r => exact execProgLoadPacked_evolves rfl rfl .refl c r he
  | progLoadSealed c r plain => exact execProgLoadSealed_evolves rfl rfl .refl c r plain he
  | loadVisible c => exact execLoadVisible_evolves rfl rfl rfl .refl c he
  | release c => exact execRelease_evolves rfl rfl rfl .refl c he
  | hold c => exact execHold_evolves rfl rfl .refl c he
  | resume c => exact execResume_evolves rfl rfl rfl .refl c he
  | abort c => exact execAbort_evolves rfl rfl rfl .refl c he
  | cmdHold sec g => exact execCmdHold_evolves rfl .refl sec g he
  | cmdResume sec g => exact execCmdResume_evolves rfl .refl sec g he
  | cmdAbort sec g => exact execCmdAbort_evolves rfl rfl rfl .refl sec g he
  | holdAllHold sec => exact execHoldAllHold_evolves rfl .refl sec he
  | holdAllResume sec => exact execHoldAllResume_evolves rfl .refl sec he
  | progRegionWrite sec g w => exact execProgRegionWrite_evolves rfl .refl sec g w he
  | stallEnable sec g v => exact execStallEnable_evolves .refl sec g v he
  | stallOnline g => exact execStallOnline_evolves rfl rfl .refl g he
  | stallDisable sec g v => exact execStallDisable_evolves rfl rfl .refl sec g v he
  | scanNop g => exact execScanNop_evolves rfl rfl .refl g he
  | jump g => exact execJump_evolves rfl rfl .refl g he
  | markLine g => exact execMarkLine_evolves rfl rfl .refl g he
  | markArc g => exact execMarkArc_evolves rfl rfl .refl g he
  | powerRamp g => exact execPowerRamp_evolves rfl rfl .refl g he
  | wobble g => exact execWobble_evolves rfl rfl .refl g he
  | speedPower g => exact execSpeedPower_evolves rfl rfl .refl g he
  | delaySet g => exact execDelaySet_evolves rfl rfl .refl g he
  | compareArm g => exact execCompareArm_evolves rfl rfl .refl g he
  | islandBegin g => exact execIslandBegin_evolves rfl rfl .refl g he
  | islandEnd g => exact execIslandEnd_evolves rfl rfl .refl g he
  | layerEnd g => exact execLayerEnd_evolves rfl rfl .refl g he
  | syncBarrier g => exact execSyncBarrier_evolves rfl rfl .refl g he
  | seamHandover g => exact execSeamHandover_evolves rfl rfl .refl g he
  | programEnd g => exact execProgramEnd_evolves rfl rfl .refl g he
  | programError g => exact execProgramError_evolves rfl rfl rfl .refl g he
  | layerEndReached g => exact execLayerEndReached_evolves rfl .refl g he
  | syncBarrierReached g => exact execSyncBarrierReached_evolves rfl .refl g he
  | programEndReached g => exact execProgramEndReached_evolves rfl rfl rfl .refl g he
  | syncBarrierRelease g => exact execSyncBarrierRelease_evolves rfl .refl g he
  | syncMismatch g => exact execSyncMismatch_evolves rfl rfl rfl .refl g he
  | syncTimeout g => exact execSyncTimeout_evolves rfl rfl .refl g he
  | programEmpty g => exact execProgramEmpty_evolves rfl rfl .refl g he
  | programEmptyCleared g => exact execProgramEmptyCleared_evolves rfl .refl g he
  | strokeTimeout g => exact execStrokeTimeout_evolves rfl rfl rfl .refl g he
  | islandDeadline g => exact execIslandDeadline_evolves rfl .refl g he
  | holdTakesEffect g => exact execHoldTakesEffect_evolves rfl rfl .refl g he
  | holdReturn g => exact execHoldReturn_evolves rfl rfl .refl g he
  | abortComplete g => exact execAbortComplete_evolves rfl rfl rfl rfl .refl g he
  | heartbeatPeriodWrite sec v => exact execHeartbeatPeriodWrite_evolves .refl sec v he
  | heartbeatKick sec => exact execHeartbeatKick_evolves .refl sec he
  | heartbeatExpired => exact execHeartbeatExpired_evolves rfl rfl rfl .refl he
  | layerDeadlinePassed => exact execLayerDeadlinePassed_evolves .refl he
  | starvedHold g => exact execStarvedHold_evolves rfl rfl .refl g he
  | starvedCleared g => exact execStarvedCleared_evolves .refl g he
  | trajectoryFault g d => exact execTrajectoryFault_evolves rfl rfl rfl .refl g d he
  | gridSelWrite sec g v => exact execGridSelWrite_evolves rfl .refl sec g v he
  | gridVerification g => exact execGridVerification_evolves rfl .refl g he
  | gridWindowWrite sec st o v => exact execGridWindowWrite_evolves rfl .refl sec st o v he
  | trjConfigWrite sec g o v => exact execTrjConfigWrite_evolves rfl .refl sec g o v he
  | gateCfgWrite sec g v => exact execGateCfgWrite_evolves .refl sec g v he
  | gateTrimWrite sec g v => exact execGateTrimWrite_evolves rfl .refl sec g v he
  | trimApplied g => exact execTrimApplied_evolves rfl .refl g he
  | readbackMismatch g on => exact execReadbackMismatch_evolves rfl .refl g on he
  | outputConfigWrite sec g r v => exact execOutputConfigWrite_evolves .refl sec g r v he
  | lsafeInputLow b => exact execLsafeInputLow_evolves rfl .refl b he
  | lsafeInputHigh b => exact execLsafeInputHigh_evolves .refl b he
  | laserInhibitAsserted => exact execLaserInhibitAsserted_evolves rfl .refl he
  | inhibitStopComplete g => exact execInhibitStopComplete_evolves rfl rfl rfl .refl g he
  | lsafeDiscrepancy => exact execLsafeDiscrepancy_evolves rfl .refl he
  | clearDiscrepancy sec => exact execClearDiscrepancy_evolves .refl sec he
  | clearReadback sec bad => exact execClearReadback_evolves rfl .refl sec bad he
  | lsafeSwWrite sec v => exact execLsafeSwWrite_evolves rfl .refl sec v he
  | lsafeSecWrite sec v => exact execLsafeSecWrite_evolves rfl .refl sec v he
  | laserInhibitReleased => exact execLaserInhibitReleased_evolves .refl he
  | marshalConfigWrite sec r v => exact execMarshalConfigWrite_evolves .refl sec r v he
  | seamMoveWrite sec w => exact execSeamMoveWrite_evolves .refl sec w he
  | seamMove => exact execSeamMove_evolves rfl rfl .refl he
  | seamPauseEnd g => exact execSeamPauseEnd_evolves rfl rfl .refl g he
  | seamHold g => exact execSeamHold_evolves rfl rfl .refl g he
  | photodiodeFrame b broken head data => exact execPhotodiodeFrame_evolves rfl rfl rfl rfl rfl .refl b broken head data he
  | positionFrame b broken blocks => exact execPositionFrame_evolves rfl rfl rfl .refl b broken blocks he
  | energyEvaluation g err => exact execEnergyEvaluation_evolves rfl rfl .refl g err he
  | featureDelivery g v seq gen => exact execFeatureDelivery_evolves rfl .refl g v seq gen he
  | servoEvaluation errs => exact execServoEvaluation_evolves rfl rfl .refl errs he
  | servoClose sec st t => exact execServoClose_evolves rfl .refl sec st t he
  | servoOpen sec st t => exact execServoOpen_evolves rfl .refl sec st t he
  | servoClosed g => exact execServoClosed_evolves .refl g he
  | closeTimeout g => exact execCloseTimeout_evolves rfl rfl .refl g he
  | servoOpened g => exact execServoOpened_evolves .refl g he
  | bankSelect sec g v => exact execBankSelect_evolves rfl .refl sec g v he
  | bankSwap g => exact execBankSwap_evolves rfl .refl g he
  | energyConfigWrite sec g r v => exact execEnergyConfigWrite_evolves rfl .refl sec g r v he
  | servoConfigWrite sec g r v => exact execServoConfigWrite_evolves .refl sec g r v he
  | coefficientWindowWrite sec st o v => exact execCoefficientWindowWrite_evolves rfl .refl sec st o v he
  | cleLoad c r => exact execCleLoad_evolves rfl rfl .refl c r he
  | txnOpen c => exact execTxnOpen_evolves rfl rfl .refl c he
  | txnWrite c r => exact execTxnWrite_evolves rfl rfl .refl c r he
  | txnCommit c => exact execTxnCommit_evolves rfl rfl rfl rfl .refl c he
  | txnAbort c => exact execTxnAbort_evolves rfl rfl rfl rfl .refl c he
  | txnQuery c => exact execTxnQuery_evolves rfl .refl c he
  | txnPresent => exact execTxnPresent_evolves rfl rfl rfl rfl rfl rfl rfl rfl rfl rfl .refl he
  | txnExpire => exact execTxnExpire_evolves rfl rfl rfl rfl .refl he
  | participantSettle => exact execParticipantSettle_evolves rfl rfl rfl rfl .refl he
  | commitTimeout => exact execCommitTimeout_evolves rfl rfl rfl rfl rfl rfl rfl rfl .refl he
  | gteConfigWrite sec high v => exact execGteConfigWrite_evolves .refl sec high v he
  | quadratureEdge p a b dt => exact execQuadratureEdge_evolves rfl rfl .refl p a b dt he
  | edgeRate p => exact execEdgeRate_evolves rfl rfl .refl p he
  | indexLatch p z dt => exact execIndexLatch_evolves rfl rfl .refl p z dt he
  | tooth p rise b dt => exact execTooth_evolves rfl rfl .refl p rise b dt he
  | absoluteFrame p dt r => exact execAbsoluteFrame_evolves rfl rfl .refl p dt r he
  | cableFault p pair dis => exact execCableFault_evolves rfl rfl .refl p pair dis he
  | speedWindow p => exact execSpeedWindow_evolves rfl rfl .refl p he
  | standstill p => exact execStandstill_evolves rfl .refl p he
  | feedbackFaultClear sec p => exact execFeedbackFaultClear_evolves rfl .refl sec p he
  | reref sec p => exact execReref_evolves rfl .refl sec p he
  | portEnable sec p v => exact execPortEnable_evolves rfl rfl .refl sec p v he
  | portDisable sec p v => exact execPortDisable_evolves rfl rfl .refl sec p v he
  | feedbackConfigWrite sec p o v => exact execFeedbackConfigWrite_evolves rfl rfl .refl sec p o v he
  | posRead sec p => exact execPosRead_evolves rfl .refl sec p he
  | axisMove c => exact execAxisMove_evolves rfl rfl rfl .refl c he
  | axisDwell c => exact execAxisDwell_evolves rfl rfl .refl c he
  | axisStop c => exact execAxisStop_evolves rfl rfl .refl c he
  | axisSetPos c => exact execAxisSetPos_evolves rfl rfl .refl c he
  | axisResume c => exact execAxisResume_evolves rfl rfl .refl c he
  | queuedMoveStart a => exact execQueuedMoveStart_evolves rfl .refl a he
  | moveEnd a => exact execMoveEnd_evolves rfl rfl .refl a he
  | axisLimitChange a => exact execAxisLimitChange_evolves rfl .refl a he
  | axisCmdStop sec a => exact execAxisCmdStop_evolves rfl .refl sec a he
  | stopAll sec => exact execStopAll_evolves rfl .refl sec he
  | axisCmdResume sec a => exact execAxisCmdResume_evolves rfl .refl sec a he
  | axisFaultClear sec a => exact execAxisFaultClear_evolves rfl .refl sec a he
  | loadAngleSet a va vb ia ib => exact execLoadAngleSet_evolves rfl .refl a va vb ia ib he
  | faultStopEnd a => exact execFaultStopEnd_evolves rfl rfl .refl a he
  | axisEnable sec a v => exact execAxisEnable_evolves rfl .refl sec a v he
  | axisDisable sec a v => exact execAxisDisable_evolves rfl .refl sec a v he
  | axisConfigWrite sec a o v => exact execAxisConfigWrite_evolves rfl .refl sec a o v he
  | frameStart p vc dt => exact execFrameStart_evolves rfl rfl .refl p vc dt he
  | frameEnd p vc dt => exact execFrameEnd_evolves rfl rfl .refl p vc dt he
  | linePacket p vc dtype hdr crcOk pix => exact execLinePacket_evolves rfl rfl .refl p vc dtype hdr crcOk pix he
  | lineProcessed x ecc => exact execLineProcessed_evolves rfl rfl .refl x ecc he
  | frameFinished n => exact execFrameFinished_evolves rfl rfl rfl rfl .refl n he
  | frameTimeout n => exact execFrameTimeout_evolves rfl .refl n he
  | sensorEnable sec n v => exact execSensorEnable_evolves rfl rfl rfl .refl sec n v he
  | sensorDisable sec n v => exact execSensorDisable_evolves rfl rfl rfl .refl sec n v he
  | sensorConfigWrite sec n o v => exact execSensorConfigWrite_evolves rfl rfl rfl .refl sec n o v he
  | camFrameBuf c => exact execCamFrameBuf_evolves rfl rfl .refl c he
  | camStatsBuf c => exact execCamStatsBuf_evolves rfl rfl .refl c he
  | camSettings c r => exact execCamSettings_evolves rfl rfl .refl c r he
  | cciXfer c r => exact execCciXfer_evolves rfl rfl .refl c r he
  | settingsWriteStart p => exact execSettingsWriteStart_evolves rfl .refl p he
  | cciListDone p fail reads => exact execCciListDone_evolves rfl rfl rfl .refl p fail reads he
  | pipelineFault x => exact execPipelineFault_evolves rfl rfl .refl x he
  | pipelineClearFault sec x => exact execPipelineClearFault_evolves .refl sec x he
  | cmpEncode c r st => exact execCmpEncode_evolves rfl rfl .refl c r st he
  | cmpDecode c r st => exact execCmpDecode_evolves rfl rfl .refl c r st he
  | blockStart e ecc => exact execBlockStart_evolves rfl rfl .refl e ecc he
  | jobComplete e => exact execJobComplete_evolves rfl rfl rfl .refl e he
  | cmpEngineFault e => exact execCmpEngineFault_evolves rfl rfl rfl .refl e he
  | engineClearFault sec e => exact execEngineClearFault_evolves rfl .refl sec e he
  | cmpConfigWrite sec v => exact execCmpConfigWrite_evolves rfl .refl sec v he
  | superframe => exact execSuperframe_evolves rfl rfl .refl he
  | upstreamSuperframe b skew => exact execUpstreamSuperframe_evolves rfl .refl b skew he
  | receiverDetect b term clk => exact execReceiverDetect_evolves rfl .refl b term clk he
  | eyeSearchDone b width centre dfe => exact execEyeSearchDone_evolves rfl .refl b width centre dfe he
  | wordLock b slips partner => exact execWordLock_evolves rfl .refl b slips partner he
  | slip sec b => exact execSlip_evolves rfl rfl rfl .refl sec b he
  | probeEcho b trip turn => exact execProbeEcho_evolves rfl rfl rfl .refl b trip turn he
  | capReply b vmin vmax vendor model fw slots => exact execCapReply_evolves rfl rfl rfl .refl b vmin vmax vendor model fw slots he
  | capAck b version => exact execCapAck_evolves rfl .refl b version he
  | bringupTimeout b search => exact execBringupTimeout_evolves rfl .refl b search he
  | linkClockLoss b => exact execLinkClockLoss_evolves rfl rfl rfl .refl b he
  | wordLockLoss b bad => exact execWordLockLoss_evolves rfl rfl rfl .refl b bad he
  | errorRate b n => exact execErrorRate_evolves rfl rfl rfl .refl b n he
  | markerLoss b => exact execMarkerLoss_evolves rfl rfl rfl .refl b he
  | skewExceeded b => exact execSkewExceeded_evolves rfl rfl rfl .refl b he
  | downSleep b => exact execDownSleep_evolves .refl b he
  | downWake b => exact execDownWake_evolves .refl b he
  | sleepUp b => exact execSleepUp_evolves rfl .refl b he
  | testEnter sec b => exact execTestEnter_evolves rfl rfl rfl .refl sec b he
  | testExit sec b n errs => exact execTestExit_evolves rfl rfl rfl .refl sec b n errs he
  | prbsInject sec b => exact execPrbsInject_evolves .refl sec b he
  | restart sec b => exact execRestart_evolves rfl rfl rfl .refl sec b he
  | bayEnable sec b => exact execBayEnable_evolves rfl rfl rfl .refl sec b he
  | bayDisable sec b => exact execBayDisable_evolves rfl rfl rfl .refl sec b he
  | linkConfigWrite sec b o v => exact execLinkConfigWrite_evolves rfl rfl rfl rfl .refl sec b o v he
  | linkMgmt c r => exact execLinkMgmt_evolves rfl rfl .refl c r he
  | mgmtFrameUp b blocks ok => exact execMgmtFrameUp_evolves rfl rfl rfl rfl rfl .refl b blocks ok he
  | linkMgmtTimeout b => exact execLinkMgmtTimeout_evolves rfl rfl .refl b he
  | sramScrubPass late errs => exact execSramScrubPass_evolves rfl .refl late errs he
  | patrolScrub busy errs => exact execPatrolScrub_evolves rfl .refl busy errs he
  | mr4Poll hot => exact execMr4Poll_evolves .refl hot he
  | dqsOscillatorCheck => exact execDqsOscillatorCheck_evolves .refl he
  | selfRefreshEntry ch => exact execSelfRefreshEntry_evolves .refl ch he
  | selfRefreshExit ch => exact execSelfRefreshExit_evolves .refl ch he
  | freqChange sec => exact execFreqChange_evolves .refl sec he
  | freqChangeDone => exact execFreqChangeDone_evolves .refl he
  | retrain sec => exact execRetrain_evolves .refl sec he
  | trainingDone ok res => exact execTrainingDone_evolves .refl ok res he
  | memRead c errs => exact execMemRead_evolves rfl rfl .refl c errs he
  | memWrite c r errs => exact execMemWrite_evolves rfl rfl rfl .refl c r errs he
  | dmcConfigWrite sec scrub v => exact execDmcConfigWrite_evolves .refl sec scrub v he
  | referenceMonitorTrip r dev => exact execReferenceMonitorTrip_evolves rfl .refl r dev he
  | referenceQualified r => exact execReferenceQualified_evolves .refl r he
  | switch sec => exact execSwitch_evolves .refl sec he
  | pullComplete => exact execPullComplete_evolves .refl he
  | pllUnlock => exact execPllUnlock_evolves rfl .refl he
  | safeExit => exact execSafeExit_evolves .refl he
  | clockGate unit gate => exact execClockGate_evolves .refl unit gate he
  | gateDenied unit => exact execGateDenied_evolves .refl unit he
  | aoCrystalChange => exact execAoCrystalChange_evolves .refl he
  | railWarning rail => exact execRailWarning_evolves .refl rail he
  | railReset rail => exact execRailReset_evolves rfl rfl .refl rail he
  | powerFailWarning ok => exact execPowerFailWarning_evolves .refl ok he
  | thermalEvaluation => exact execThermalEvaluation_evolves rfl rfl rfl .refl he
  | hardLimit => exact execHardLimit_evolves rfl rfl .refl he
  | shutdownGating => exact execShutdownGating_evolves rfl rfl rfl rfl rfl rfl rfl rfl .refl he
  | sensorReset sec v => exact execSensorReset_evolves .refl sec v he
  | thermalConfigWrite sec r v => exact execThermalConfigWrite_evolves .refl sec r v he
  | ptpSync p hdr twoStep ident rx origin corr => exact execPtpSync_evolves rfl rfl rfl .refl p hdr twoStep ident rx origin corr he
  | followUp p hdr ident origin corr => exact execFollowUp_evolves rfl rfl rfl .refl p hdr ident origin corr he
  | announce p hdr clock port ann => exact execAnnounce_evolves rfl rfl .refl p hdr clock port ann he
  | delayResp p hdr rx t4 corr => exact execDelayResp_evolves rfl .refl p hdr rx t4 corr he
  | pdelayReq p hdr rx tx => exact execPdelayReq_evolves .refl p hdr rx tx he
  | syncSend p tx => exact execSyncSend_evolves .refl p tx he
  | announceReceiptTimeout p => exact execAnnounceReceiptTimeout_evolves rfl rfl .refl p he
  | timeHoldoverLong => exact execTimeHoldoverLong_evolves .refl he
  | acceptStep sec => exact execAcceptStep_evolves rfl .refl sec he
  | acceptSlew sec => exact execAcceptSlew_evolves rfl .refl sec he
  | set sec => exact execSet_evolves rfl .refl sec he
  | setApplied => exact execSetApplied_evolves rfl rfl rfl rfl .refl he
  | slewComplete => exact execSlewComplete_evolves rfl .refl he
  | timeAccept c => exact execTimeAccept_evolves rfl rfl .refl c he
  | timeSet c => exact execTimeSet_evolves rfl rfl .refl c he
  | timeRead c => exact execTimeRead_evolves rfl .refl c he
  | timeConfigWrite sec r w => exact execTimeConfigWrite_evolves rfl rfl .refl sec r w he
  | info => exact execInfo_evolves .refl he
  | keyImport r sigOk key => exact execKeyImport_evolves rfl .refl r sigOk key he
  | keyErase => exact execKeyErase_evolves rfl .refl he
  | settingsApply r sigOk body => exact execSettingsApply_evolves .refl r sigOk body he
  | recorderAttest sig => exact execRecorderAttest_evolves .refl sig he
  | recorderClear r sigOk => exact execRecorderClear_evolves .refl r sigOk he
  | lifecycleAdvance r sigOk newKey => exact execLifecycleAdvance_evolves rfl .refl r sigOk newKey he
  | random bytes => exact execRandom_evolves .refl bytes he
  | bwtWrite sec w => exact execBwtWrite_evolves .refl sec w he
  | regionTableWrite sec r v => exact execRegionTableWrite_evolves rfl .refl sec r v he
  | regionZeroingDone => exact execRegionZeroingDone_evolves rfl .refl he
  | limitWrite sec g k v => exact execLimitWrite_evolves .refl sec g k v he
  | tckFault health => exact execTckFault_evolves .refl health he
  | farRun c => exact execFarRun_evolves rfl rfl .refl c he
  | lane b centre => exact execLane_evolves rfl rfl rfl .refl b centre he
  | dfe b => exact execDfe_evolves rfl rfl .refl b he
  | dfeStep b width => exact execDfeStep_evolves rfl rfl .refl b width he
  | gate g => exact execGate_evolves rfl rfl .refl g he
  | threshold g => exact execThreshold_evolves rfl rfl .refl g he
  | linkTest b => exact execLinkTest_evolves rfl rfl rfl rfl rfl .refl b he
  | linkTestEnd b bits errs => exact execLinkTestEnd_evolves rfl rfl rfl .refl b bits errs he
  | farConfigWrite sec r g v => exact execFarConfigWrite_evolves rfl rfl .refl sec r g v he
  | lampFault k short => exact execLampFault_evolves rfl .refl k short he
  | testBurst k => exact execTestBurst_evolves rfl .refl k he
  | fadeStep => exact execFadeStep_evolves rfl .refl he
  | lmpPatternFault k => exact execLmpPatternFault_evolves rfl .refl k he
  | groupClear sec k => exact execGroupClear_evolves .refl sec k he
  | groupClearDone k bad => exact execGroupClearDone_evolves rfl rfl .refl k bad he
  | lampClear sec k pass => exact execLampClear_evolves rfl .refl sec k pass he
  | patClear sec k => exact execPatClear_evolves rfl .refl sec k he
  | beaconBindWrite sec v => exact execBeaconBindWrite_evolves rfl .refl sec v he
  | lampConfigWrite sec o v => exact execLampConfigWrite_evolves rfl rfl .refl sec o v he
  | pendClear sec w v => exact execPendClear_evolves .refl sec w v he
  | eventConfigWrite sec n v => exact execEventConfigWrite_evolves .refl sec n v he
  | recorderFlush => exact execRecorderFlush_evolves .refl he
  | cursorWrite sec v => exact execCursorWrite_evolves .refl sec v he
  | recordFetchDone => exact execRecordFetchDone_evolves .refl he
  | recordReadAdvance sec => exact execRecordReadAdvance_evolves .refl sec he
  | freeze sec => exact execFreeze_evolves .refl sec he
  | snapIn rising => exact execSnapIn_evolves .refl rising he
  | snapshotCapture => exact execSnapshotCapture_evolves rfl .refl he
  | snapshotRelease sec => exact execSnapshotRelease_evolves .refl sec he
  | lifetimeSave sec ok => exact execLifetimeSave_evolves .refl sec ok he
  | periodicSave ok => exact execPeriodicSave_evolves .refl ok he
  | operatingSecond => exact execOperatingSecond_evolves .refl he
  | traceFlush c => exact execTraceFlush_evolves rfl rfl rfl .refl c he
  | dgnSnapRead c => exact execDgnSnapRead_evolves rfl .refl c he
  | dgnLifetimeRead c => exact execDgnLifetimeRead_evolves rfl .refl c he
  | dgnRecorderRead c => exact execDgnRecorderRead_evolves rfl .refl c he
  | dgnTraceBuf c => exact execDgnTraceBuf_evolves rfl rfl rfl .refl c he
  | dgnFreeze c => exact execDgnFreeze_evolves rfl .refl c he
  | traceConfigWrite sec c v => exact execTraceConfigWrite_evolves rfl rfl rfl .refl sec c v he
  | powerOnReset => exact execPowerOnReset_evolves rfl .refl he
  | deviceReset => exact execDeviceReset_evolves rfl rfl .refl he
  | startUp b => exact execStartUp_evolves rfl rfl rfl rfl .refl b he
  | readyTimeout => exact execReadyTimeout_evolves rfl rfl .refl he
  | recoveryLoad sec r sigOk hashOk => exact execRecoveryLoad_evolves rfl .refl sec r sigOk hashOk he
  | recoveryReboot sec => exact execRecoveryReboot_evolves rfl rfl .refl sec he
  | uartFrame frame sigOk hashOk => exact execUartFrame_evolves rfl .refl frame sigOk hashOk he
  | imgWrite c r sigOk hashOk => exact execImgWrite_evolves rfl rfl .refl c r sigOk hashOk he
  | imgActivate c => exact execImgActivate_evolves rfl rfl rfl .refl c he
  | inPlaceCopyDone => exact execInPlaceCopyDone_evolves rfl .refl he
  | bootConfigWrite sec r w => exact execBootConfigWrite_evolves .refl sec r w he
  | linkSpeedWidthChange speed width => exact execLinkSpeedWidthChange_evolves .refl speed width he
  | sequencerFault t stalls => exact execSequencerFault_evolves rfl rfl rfl .refl t stalls he
  | controlledStopComplete a => exact execControlledStopComplete_evolves rfl rfl .refl a he
  | deskewSequence p ok => exact execDeskewSequence_evolves .refl p ok he
  | upstreamWake b => exact execUpstreamWake_evolves .refl b he
  | laneTracking b centre => exact execLaneTracking_evolves .refl b centre he
  | probeTimeout b => exact execProbeTimeout_evolves rfl .refl b he
  | ethernetLinkDown p frags => exact execEthernetLinkDown_evolves rfl rfl rfl .refl p frags he
  | ethernetLinkUp p mbps => exact execEthernetLinkUp_evolves rfl rfl .refl p mbps he
  | delayReqSend p tx => exact execDelayReqSend_evolves rfl .refl p tx he
  | announceSend p => exact execAnnounceSend_evolves .refl p he
  | delayReq p hdr rx => exact execDelayReq_evolves .refl p hdr rx he
  | imgReplyTimeout b => exact execImgReplyTimeout_evolves rfl rfl rfl .refl b he
  | mgmtReady => exact execMgmtReady_evolves rfl .refl he
  | railWarningCleared rail => exact execRailWarningCleared_evolves .refl rail he
  | temperatureConversion vals => exact execTemperatureConversion_evolves .refl vals he

/-- A step idles on an empty queue and otherwise runs the front command. -/
theorem step_cases {s t : State} (h : step s = .next t) :
    s.pending = [] ∧ t = s ∨ ∃ c rest, s.pending = c :: rest ∧ exec c { s with pending := rest } = .next t := by
  unfold step at h
  split at h
  next hp => exact .inl ⟨hp, (Host.Outcome.next.inj h).symm⟩
  next c rest hp => exact .inr ⟨c, rest, hp, h⟩

theorem exec_canonical {i : Instr} {s t : State} (hs : s.canonical) (he : exec i s = .next t) : t.canonical :=
  (exec_evolves he).canonical hs

/-- Settles O3: a command's evolution keeps the canonical form, and the queue has no part in it. -/
theorem stepKeepsCanonical : Obligations.StepKeepsCanonical := by
  intro s t hs h
  obtain ⟨-, rfl⟩ | ⟨c, rest, -, he⟩ := step_cases h
  · exact hs
  · exact exec_canonical (s := { s with pending := rest }) hs he

theorem reset_lofts (i : Fin 6) : State.reset.lofts[i] = [] := Vector.getElem_replicate _

/-- Settles O4: after reset no register and no byte is listed. -/
theorem resetCanonical : Obligations.ResetCanonical :=
  ⟨⟨rfl, fun i => by rw [reset_lofts]; rfl, rfl, rfl⟩, rfl, rfl⟩

/-! ## Reported accesses -/

/-- A rejected access as `HIF.ACCESS_ERR` and `HIF.ERR_STATUS` report it (R4, R37). -/
def accessReported (off kind window : Nat) (s : State) : State :=
  setF (accessErr off kind window s) F.HIF_ERR_STATUS_ACCESS_ERROR

theorem flag_accessReported (off kind window : Nat) (s : State) :
    flag (accessReported off kind window s) F.HIF_ERR_STATUS_ACCESS_ERROR = true :=
  flag_setF_same _ _ (by decide) rfl

theorem rdN_accessReported (off kind window : Nat) (s : State) :
    rdN (accessReported off kind window s) R.HIF_ACCESS_ERR =
      (off % 2 ^ 24 + 2 ^ 24 * kind + 2 ^ 28 * window) % 2 ^ 32 := by
  unfold accessReported setF accessErr
  rw [rdN_put_other _ _ _ (by decide), rdN_wrN_same]

@[simp] theorem wrN_ctxs (s : State) (o v : Nat) : (wrN s o v).ctxs = s.ctxs := rfl

@[simp] theorem lifeAdd_ctxs (s : State) (k n : Nat) : (lifeAdd s k n).ctxs = s.ctxs := rfl

@[simp] theorem accessReported_ctxs (off kind window : Nat) (s : State) :
    (accessReported off kind window s).ctxs = s.ctxs := by
  unfold accessReported setF put accessErr
  rw [wrN_ctxs, wrN_ctxs]

theorem flag_eq_of_rdN {s t : State} {f : Fld} (h : rdN t f.off = rdN s f.off) : flag t f = flag s f := by
  unfold flag Machine.get
  rw [h]

/-- A world fault writes registers of the tack room and those of a raise only. -/
theorem rdN_worldFault_below (req c : Nat) (write : Bool) (bwt addr : Nat) (s : State) {o : Nat} (ho : o < 0x19000) :
    rdN (worldFault req c write bwt addr s) o = rdN s o := by
  have he : eventReg o = false := by unfold eventReg; rw [decide_eq_false_iff_not]; omega
  have below : ∀ {p : Nat}, 0x19000 ≤ p → p ≠ o := fun h e => by omega
  unfold worldFault setF addW wr64
  rw [rdN_raise (by decide) _ he, rdN_lifeAdd, rdN_put_other _ _ _ (below (by decide)), rdN_wrN_other _ _ (below (by decide)),
    rdN_wrN_other _ _ (below (by decide)), rdN_wrN_other _ _ (below (by decide)), rdN_wrN_other _ _ (below (by decide)),
    rdN_wrN_other _ _ (below (by decide)), rdN_wrN_other _ _ (below (by decide))]

theorem flag_worldFault (req c : Nat) (write : Bool) (bwt addr : Nat) (s : State) :
    flag (worldFault req c write bwt addr s) F.TCK_FLAGS_WORLD_FAULT = true := by
  unfold worldFault
  rw [flag_eq_of_rdN (rdN_raise (by decide) _ (by decide)), flag_eq_of_rdN (rdN_lifeAdd _ _ _ _)]
  exact flag_setF_same _ _ (by decide) rfl

@[simp] theorem worldFault_ctxs (req c : Nat) (write : Bool) (bwt addr : Nat) (s : State) :
    (worldFault req c write bwt addr s).ctxs = s.ctxs := by
  unfold worldFault setF put addW wr64
  rw [raise_ctxs, lifeAdd_ctxs]
  simp only [wrN_ctxs]

/-- What a world fault that reports an access shows in the host interface. -/
theorem worldFault_accessReported (req c : Nat) (write : Bool) (bwt addr off kind window : Nat) (s : State) :
    flag (worldFault req c write bwt addr (accessReported off kind window s)) F.HIF_ERR_STATUS_ACCESS_ERROR = true ∧
    rdN (worldFault req c write bwt addr (accessReported off kind window s)) R.HIF_ACCESS_ERR =
      (off % 2 ^ 24 + 2 ^ 24 * kind + 2 ^ 28 * window) % 2 ^ 32 := by
  rw [flag_eq_of_rdN (rdN_worldFault_below _ _ _ _ _ _ (by decide)), rdN_worldFault_below _ _ _ _ _ _ (by decide)]
  exact ⟨flag_accessReported off kind window s, rdN_accessReported off kind window s⟩

/-- What an event that is raised for a reported access shows in the host interface. -/
theorem raise_accessReported {n : Nat} (hn : n < 512) (off kind window : Nat) (s : State) :
    flag (raise n (accessReported off kind window s)) F.HIF_ERR_STATUS_ACCESS_ERROR = true ∧
    rdN (raise n (accessReported off kind window s)) R.HIF_ACCESS_ERR =
      (off % 2 ^ 24 + 2 ^ 24 * kind + 2 ^ 28 * window) % 2 ^ 32 := by
  rw [flag_eq_of_rdN (rdN_raise hn _ (by decide)), rdN_raise hn _ (by decide)]
  exact ⟨flag_accessReported off kind window s, rdN_accessReported off kind window s⟩

/-! ## Writes -/

theorem registerWrite_lo {sec : Bool} {o : Nat} {w : RegRow} (hr : rowAt o = some (w, 0)) (ho : o % 4 = 0) (v : Word)
    (s : State) :
    registerWrite sec o (.lo v) s = if w.wide then writeWide sec o (.lo v) s else writeRegister sec o v s := by
  obtain ⟨b, hb, -⟩ := blockAt_of_rowAt hr
  simp [registerWrite, write32, ho, hb, hr]

theorem imagingWrite_ordinary {o : Nat} (h : OrdinaryReg o) (sec : Bool) (v : Word) (s : State) :
    imagingWrite sec o v s = none := by
  obtain ⟨-, -, -, -, -, -, -, -, -, hport, hpipe⟩ := h
  have hphy : ¬ (0xC0100 ≤ o ∧ o < 0xC0200 ∧ o % 0x40 = 0) := fun hr =>
    (hport ⟨(o - 0xC0100) / 0x40, by omega⟩).1 (by simp only [R.PORT_PHY_CFG]; omega)
  have hcci : ¬ (0xC0100 ≤ o ∧ o < 0xC0200 ∧ o % 0x40 = 0x10) := fun hr =>
    (hport ⟨(o - 0xC0100) / 0x40, by omega⟩).2 (by simp only [R.PORT_CCI_CFG]; omega)
  have h0 : o ≠ R.PIPE_CFG 0 := hpipe 0
  have h1 : o ≠ R.PIPE_CFG 1 := hpipe 1
  rw [imagingWrite, if_neg hphy, if_neg hcci, if_neg h0, if_neg h1]

/-- Outside the MSI-X table a stored word is all that a write leaves (R58). -/
theorem storeWord_outside_msix {o : Nat} (ho : ¬ (0x18000 ≤ o ∧ o < 0x18400)) (v : Nat) (s : State) :
    storeWord o v s = wrN s o (stored o v s) := by
  unfold storeWord
  exact if_neg fun ⟨hlo, hhi, _⟩ => ho ⟨hlo, hhi⟩

/-- A write of an ordinary register stores what `stored` leaves of it (R5). -/
theorem writeRegister_ordinary {sec : Bool} {o : Nat} {s : State} (h : OrdinaryReg o) (hs : accessOk sec o s = true)
    (v : Word) : writeRegister sec o v s = wrN s o (stored o v.toNat s) := by
  have hi := imagingWrite_ordinary h sec v s
  obtain ⟨-, -, hmbox, hrel, hfil, htset, htck, hmsix, -⟩ := h
  rw [writeRegister, hi]
  dsimp only
  rw [if_neg hmbox, if_neg (not_or.2 ⟨hrel, hfil⟩), if_neg htset, if_neg htck, hostWrite, if_pos hs,
    storeWord_outside_msix hmsix]

/-- What a written value leaves of a word, bit by bit (R5): no bit is both RW and W1C, so a W1C bit is never replaced. -/
theorem bit_stored {o : Nat} (ho : ¬ (R.EVC_PEND 0 ≤ o ∧ o < R.EVC_PEND 16)) (v : Nat) (s : State) (i : Nat) :
    bit (stored o v s) i = if bit (w1cMask o) i then bit (rdN s o) i && !bit v i
      else if plainWrite o s && bit (rwMask o) i then bit v i else bit (rdN s o) i := by
  have hd : (bit (rwMask o) i && bit (w1cMask o) i) = false := by
    rw [← bit_and, rwMask_and_w1cMask]; simp [bit]
  have hrw : bit (if plainWrite o s then mix (rdN s o) v (rwMask o) else rdN s o) i =
      if plainWrite o s && bit (rwMask o) i then bit v i else bit (rdN s o) i := by
    cases plainWrite o s <;> simp [bit_mix]
  rw [stored, if_neg ho, Nat.and_assoc, bit_sub_and, bit_and, hrw]
  cases hw : bit (w1cMask o) i with
  | true =>
    have hr : bit (rwMask o) i = false := by simpa [hw] using hd
    simp [hr]
  | false => simp

/-! ## Reads -/

theorem readClear_ok {sec : Bool} {o : Nat} {s : State} (ho : o % 4 = 0) (hb : (blockAt o).isSome = true)
    (hs : accessOk sec o s = true) :
    readClear sec o false s = emit (.readReply o (readWord32 sec o s).1 false) (readWord32 sec o s).2 := by
  have hn : (blockAt o).isNone = false := by cases h : blockAt o <;> simp_all
  simp [readClear, ho, hn, hs]

theorem readClear_closed {o : Nat} {s : State} (ho : o % 4 = 0) (hb : (blockAt o).isSome = true)
    (hs : accessOk false o s = false) :
    readClear false o false s = emit (.readReply o 0 false) (regWorldFault o false s) := by
  have hn : (blockAt o).isNone = false := by cases h : blockAt o <;> simp_all
  simp [readClear, ho, hn, hs]

/-- A read of a 32-bit register answers the value shown and clears the RC bits (R5, R6). -/
theorem readWord32_narrow {sec : Bool} {o : Nat} {w : RegRow} {s : State} (hr : rowAt o = some (w, 0))
    (hw : w.wide = false) (hn : windowAt o s = none) :
    readWord32 sec o s = (shownTo sec o s, latchPos o (wrN s o (rdN s o - (rdN s o &&& rcMask o)))) := by
  rw [readWord32, hn]
  simp only [hr]
  rw [hw, if_neg Bool.false_ne_true]

/-- A read of the low word of a 64-bit register latches the high word too (R8). -/
theorem readWord32_wide {sec : Bool} {o : Nat} {w : RegRow} {s : State} (hr : rowAt o = some (w, 0))
    (hw : w.wide = true) (hn : windowAt o s = none) :
    readWord32 sec o s = (shownTo sec o s,
      let s1 := latchPos o (wrN s o (rdN s o - (rdN s o &&& rcMask o)))
      { s1 with hiLatch := cellPut s1.hiLatch o (BitVec.ofNat 32 (shownTo sec (o + 4) s)) }) := by
  rw [readWord32, hn]
  simp only [hr]
  rw [hw, if_pos rfl]

/-- A read of POS fills holding registers of its port only. -/
theorem latchPos_shape (o : Nat) (s : State) : ∃ v, latchPos o s = { s with ports := v } := by
  unfold latchPos
  split
  · exact ⟨_, rfl⟩
  · exact ⟨_, rfl⟩

@[simp] theorem latchPos_out (o : Nat) (s : State) : (latchPos o s).out = s.out := by
  obtain ⟨v, h⟩ := latchPos_shape o s; rw [h]

@[simp] theorem rdN_latchPos (o : Nat) (s : State) (p : Nat) : rdN (latchPos o s) p = rdN s p := by
  obtain ⟨v, h⟩ := latchPos_shape o s; rw [h]; rfl

@[simp] theorem wrN_out (s : State) (o v : Nat) : (wrN s o v).out = s.out := rfl

@[simp] theorem emit_out (x : Out) (s : State) : (emit x s).out = s.out ++ [x] := rfl

@[simp] theorem emit_ctxs (x : Out) (s : State) : (emit x s).ctxs = s.ctxs := rfl

@[simp] theorem emit_hiLatch (x : Out) (s : State) : (emit x s).hiLatch = s.hiLatch := rfl

@[simp] theorem flag_emit (x : Out) (s : State) (f : Fld) : flag (emit x s) f = flag s f := rfl

theorem accessRefused_eq (o : Nat) (s : State) : accessRefused o s = raise 48 (accessReported o 1 0 s) := rfl

theorem regWorldFault_eq (o : Nat) (write : Bool) (s : State) :
    regWorldFault o write s = worldFault 1 0 write ((bwtBit o).getD 0xFF) o (accessReported o 2 0 s) := rfl

theorem doorbellPage0_eq (off : Nat) (s : State) :
    doorbellPage0 off s = worldFault 3 0 true 1 off (accessReported off 5 1 s) := rfl

theorem doorbellRefused_eq (off size : Nat) (write : Bool) (s : State) :
    doorbellRefused off size write s =
      if write then raise 48 (accessReported off 1 1 s)
      else emit (.doorbellReply off (2 ^ (8 * size) - 1) size) (raise 48 (accessReported off 1 1 s)) := rfl

/-! ## The clauses of the set-up window and the doorbell window -/

theorem registerWrite_ordinary {sec : Bool} {o : Nat} {s : State} (h : OrdinaryReg o) (hs : accessOk sec o s = true)
    (v : Word) : registerWrite sec o (.lo v) s = wrN s o (stored o v.toNat s) := by
  obtain ⟨w, hr, hw⟩ := h.1
  rw [registerWrite_lo hr h.2.1, hw, if_neg Bool.false_ne_true, writeRegister_ordinary h hs]

theorem completes_ordinaryWrite {sec : Bool} {o : Nat} {s : State} (h : OrdinaryReg o) (hs : accessOk sec o s = true)
    (v : Word) :
    Completes (.registerWrite sec o (.lo v)) s fun t =>
      (∀ i < 32, bit (rdN t o) i = if bit (w1cMask o) i then bit (rdN s o) i && !bit v.toNat i
        else if plainWrite o s && bit (rwMask o) i then bit v.toNat i else bit (rdN s o) i) ∧
      ∀ p, p ≠ o → rdN t p = rdN s p := by
  have hpend : ¬ (R.EVC_PEND 0 ≤ o ∧ o < R.EVC_PEND 16) := by
    obtain ⟨-, -, -, -, -, -, -, -, hpend, -⟩ := h
    exact hpend
  refine ⟨_, congrArg Host.Outcome.next (registerWrite_ordinary h hs v), fun i hi => ?_, fun p hp => ?_⟩
  · rw [rdN_wrN_same, bit_mod _ hi, bit_stored hpend]
  · exact rdN_wrN_other _ _ hp.symm

theorem completes_lowWordWrite {sec : Bool} {o : Nat} {w : RegRow} {s : State} (hr : rowAt o = some (w, 0))
    (hw : w.wide = true) (ho : o % 4 = 0) (hs : accessOk sec o s = true) (v : Word) :
    Completes (.registerWrite sec o (.lo v)) s fun t =>
      cellGet t.lowHeld o = some v ∧ ∀ p, rdN t p = rdN s p := by
  have he : registerWrite sec o (.lo v) s = { s with lowHeld := cellPut s.lowHeld o v } := by
    rw [registerWrite_lo hr ho, if_pos hw, writeWide, hostWrite, if_pos hs]
    rfl
  exact ⟨_, congrArg Host.Outcome.next he, by simp [cellGet_cellPut], fun p => rfl⟩

theorem completes_wordRead {sec : Bool} {o : Nat} {w : RegRow} {s : State} (hr : rowAt o = some (w, 0))
    (hw : w.wide = false) (ho : o % 4 = 0) (hn : windowAt o s = none) (hs : accessOk sec o s = true) :
    Completes (.readClear sec o false) s fun t => t.out = s.out ++ [.readReply o (shownTo sec o s) false] ∧
      rdN t o = rdN s o - (rdN s o &&& rcMask o) ∧ ∀ p, p ≠ o → rdN t p = rdN s p := by
  obtain ⟨b, hb, -⟩ := blockAt_of_rowAt hr
  have hlt : rdN s o - (rdN s o &&& rcMask o) < 2 ^ 32 := Nat.lt_of_le_of_lt (Nat.sub_le _ _) (rdN_lt s o)
  refine ⟨_, congrArg Host.Outcome.next (readClear_ok ho (by rw [hb]; rfl) hs), ?_⟩
  rw [readWord32_narrow hr hw hn]
  refine ⟨?_, ?_, fun p hp => ?_⟩
  · rw [emit_out, latchPos_out, wrN_out]
  · rw [rdN_emit, rdN_latchPos, rdN_wrN_same, Nat.mod_eq_of_lt hlt]
  · rw [rdN_emit, rdN_latchPos, rdN_wrN_other _ _ hp.symm]

theorem completes_lowWordRead {sec : Bool} {o : Nat} {w : RegRow} {s : State} (hr : rowAt o = some (w, 0))
    (hw : w.wide = true) (ho : o % 4 = 0) (hn : windowAt o s = none) (hs : accessOk sec o s = true) :
    Completes (.readClear sec o false) s fun t => t.out = s.out ++ [.readReply o (shownTo sec o s) false] ∧
      cellGet t.hiLatch o = some (BitVec.ofNat 32 (shownTo sec (o + 4) s)) := by
  obtain ⟨b, hb, -⟩ := blockAt_of_rowAt hr
  refine ⟨_, congrArg Host.Outcome.next (readClear_ok ho (by rw [hb]; rfl) hs), ?_⟩
  rw [readWord32_wide hr hw hn]
  dsimp only
  rw [emit_out, emit_hiLatch, latchPos_out, wrN_out, cellGet_cellPut, if_pos rfl]
  exact ⟨rfl, rfl⟩

theorem completes_closedRead {o : Nat} {s : State} (ho : o % 4 = 0) (hb : (blockAt o).isSome = true)
    (hs : accessOk false o s = false) :
    Completes (.readClear false o false) s fun t => (∃ l, t.out = l ++ [.readReply o 0 false]) ∧
      flag t F.TCK_FLAGS_WORLD_FAULT = true ∧ flag t F.HIF_ERR_STATUS_ACCESS_ERROR = true := by
  refine ⟨_, congrArg Host.Outcome.next (readClear_closed ho hb hs), ⟨_, emit_out _ _⟩, ?_⟩
  rw [flag_emit, flag_emit, regWorldFault_eq]
  exact ⟨flag_worldFault _ _ _ _ _ _, (worldFault_accessReported _ _ _ _ _ _ _ _ _).1⟩

theorem completes_unsupportedAccess (o : Nat) (write : Bool) (s : State) :
    Completes (.unsupportedAccess o write) s fun t => flag t F.HIF_ERR_STATUS_ACCESS_ERROR = true ∧
      rdN t R.HIF_ACCESS_ERR = o % 2 ^ 24 + 2 ^ 24 ∧
      (write = false → ∃ l, t.out = l ++ [.readReply o 0xFFFFFFFF false]) := by
  obtain ⟨hflag, herr⟩ := raise_accessReported (n := 48) (by decide) o 1 0 s
  have hcode : (o % 2 ^ 24 + 2 ^ 24 * 1 + 2 ^ 28 * 0) % 2 ^ 32 = o % 2 ^ 24 + 2 ^ 24 := by omega
  rw [hcode] at herr
  cases write with
  | true =>
    refine ⟨accessRefused o s, congrArg Host.Outcome.next (if_pos rfl), ?_⟩
    rw [accessRefused_eq]
    exact ⟨hflag, herr, nofun⟩
  | false =>
    refine ⟨readRefused o false s, congrArg Host.Outcome.next (if_neg Bool.false_ne_true), ?_⟩
    rw [readRefused, if_neg Bool.false_ne_true]
    beta_reduce
    rw [flag_emit, rdN_emit, accessRefused_eq]
    exact ⟨hflag, herr, fun _ => ⟨_, emit_out _ _⟩⟩

theorem barSize_two : barSize 2 = 0x10000 := rfl

theorem completes_doorbellRefused {off size : Nat} (write : Bool) (s : State) (hoff : off < 0x10000)
    (hsize : doorbellSize off size = false) :
    Completes (.doorbellAccessError off (size, write)) s fun t => flag t F.HIF_ERR_STATUS_ACCESS_ERROR = true ∧
      rdN t R.HIF_ACCESS_ERR = off % 2 ^ 24 + 2 ^ 24 + 2 ^ 28 ∧ t.ctxs = s.ctxs ∧
      (write = false → ∃ l, t.out = l ++ [.doorbellReply off (2 ^ (8 * size) - 1) size]) := by
  obtain ⟨hflag, herr⟩ := raise_accessReported (n := 48) (by decide) off 1 1 s
  have hcode : (off % 2 ^ 24 + 2 ^ 24 * 1 + 2 ^ 28 * 1) % 2 ^ 32 = off % 2 ^ 24 + 2 ^ 24 + 2 ^ 28 := by omega
  rw [hcode] at herr
  have hctxs : (raise 48 (accessReported off 1 1 s)).ctxs = s.ctxs := by
    rw [raise_ctxs, accessReported_ctxs]
  have he : doorbellAccessError off size write s = doorbellRefused off size write s := by
    rw [doorbellAccessError, if_neg (by rw [barSize_two]; omega), if_pos (by rw [hsize]; exact Bool.false_ne_true)]
  refine ⟨_, congrArg Host.Outcome.next he, ?_⟩
  rw [doorbellRefused_eq]
  cases write with
  | true =>
    rw [if_pos rfl]
    exact ⟨hflag, herr, hctxs, nofun⟩
  | false =>
    rw [if_neg Bool.false_ne_true]
    rw [flag_emit, rdN_emit, emit_ctxs]
    exact ⟨hflag, herr, hctxs, fun _ => ⟨_, emit_out _ _⟩⟩

theorem doorbellAccessError_supported {off size : Nat} (write : Bool) (s : State) (hoff : off < 0x10000)
    (hsize : doorbellSize off size = true) :
    doorbellAccessError off size write s =
      if write then (if off < 256 then doorbellPage0 off s else s) else emit (.doorbellReply off 0 size) s := by
  rw [doorbellAccessError, if_neg (by rw [barSize_two]; omega), if_neg (not_not.2 hsize)]

theorem completes_doorbellPage0 {off size : Nat} (s : State) (hoff : off < 256) (hsize : doorbellSize off size = true) :
    Completes (.doorbellAccessError off (size, true)) s fun t => t.ctxs = s.ctxs ∧
      flag t F.TCK_FLAGS_WORLD_FAULT = true ∧ flag t F.HIF_ERR_STATUS_ACCESS_ERROR = true ∧
      rdN t R.HIF_ACCESS_ERR = off + 5 * 2 ^ 24 + 2 ^ 28 := by
  have he : doorbellAccessError off size true s = doorbellPage0 off s := by
    rw [doorbellAccessError_supported true s (by omega) hsize, if_pos rfl, if_pos hoff]
  obtain ⟨hflag, herr⟩ := worldFault_accessReported 3 0 true 1 off off 5 1 s
  have hcode : (off % 2 ^ 24 + 2 ^ 24 * 5 + 2 ^ 28 * 1) % 2 ^ 32 = off + 5 * 2 ^ 24 + 2 ^ 28 := by omega
  refine ⟨_, congrArg Host.Outcome.next he, ?_⟩
  rw [doorbellPage0_eq]
  exact ⟨by rw [worldFault_ctxs, accessReported_ctxs], flag_worldFault _ _ _ _ _ _, hflag, herr.trans hcode⟩

theorem exec_doorbellAccessError_beyond {off : Nat} (acc : Nat × Bool) (s : State) (hoff : 0x10000 ≤ off) :
    exec (.doorbellAccessError off acc) s = .next s :=
  congrArg Host.Outcome.next (if_pos (by rw [barSize_two]; exact hoff))

/-- Settles O11: each clause is the lemma that says what its access does. -/
theorem registerAccess : Obligations.RegisterAccess := by
  refine ⟨fun sec o v s h hs => completes_ordinaryWrite h hs v,
    fun sec o v w s hr hw ho hs => completes_lowWordWrite hr hw ho hs v,
    fun sec o w s hr hw ho hn hs => completes_wordRead hr hw ho hn hs,
    fun sec o w s hr hw ho hn hs => completes_lowWordRead hr hw ho hn hs,
    fun o s ho hb hs => completes_closedRead ho hb hs,
    completes_unsupportedAccess,
    fun off size write s hoff hsize => completes_doorbellRefused write s hoff hsize,
    fun off size s hoff hsize => ⟨?_, fun h256 => ?_, fun h256 => completes_doorbellPage0 s h256 hsize⟩,
    fun off acc s hoff => exec_doorbellAccessError_beyond acc s hoff,
    fun off s => rfl⟩
  · exact congrArg Host.Outcome.next ((doorbellAccessError_supported false s hoff hsize).trans (if_neg nofun))
  · exact congrArg Host.Outcome.next
      ((doorbellAccessError_supported true s hoff hsize).trans ((if_pos rfl).trans (if_neg (Nat.not_lt.2 h256))))

/-- What holds at the start and is kept for every index holds after a bounded run. -/
theorem forAll_keeps {α : Type} {n : Nat} (P : α → Prop) (f : Fin n → α → α) {x : α} (h : P x)
    (hf : ∀ i y, P y → P (f i y)) : P (forAll n f x) :=
  List.foldlRecOn _ _ h fun y hy i _ => hf i y hy

/-! ## The records that a reset leaves alone after it has set the rest -/

/-- The rollback minima, the lifetime counters and the staged recorder records are the same. -/
def SameRecords (s t : State) : Prop := t.rollMin = s.rollMin ∧ t.life = s.life ∧ t.recStaged = s.recStaged

namespace SameRecords

variable {s t u : State}

theorem refl (s : State) : SameRecords s s := ⟨rfl, rfl, rfl⟩

theorem trans (h : SameRecords s t) (k : SameRecords t u) : SameRecords s u :=
  ⟨k.1.trans h.1, k.2.1.trans h.2.1, k.2.2.trans h.2.2⟩

theorem ite {c : Prop} [Decidable c] (h : SameRecords s t) (k : SameRecords s u) : SameRecords s (if c then t else u) := by
  split <;> assumption

theorem wrN (h : SameRecords s t) (o v : Nat) : SameRecords s (wrN t o v) := h.trans ⟨rfl, rfl, rfl⟩

theorem put (h : SameRecords s t) (f : Fld) (v : Nat) : SameRecords s (put t f v) := h.wrN _ _

theorem emit (h : SameRecords s t) (x : Out) : SameRecords s (emit x t) := h.trans ⟨rfl, rfl, rfl⟩

theorem keepReg (h : SameRecords s t) (old : State) (o : Nat) : SameRecords s (keepReg old o t) := h.wrN _ _

theorem keepField (h : SameRecords s t) (old : State) (f : Fld) : SameRecords s (keepField old f t) := h.put _ _

theorem foldl_keepReg (h : SameRecords s t) (old : State) (l : List Nat) :
    SameRecords s (l.foldl (fun s o => Machine.keepReg old o s) t) :=
  List.foldlRecOn _ _ h fun _ hb o _ => hb.keepReg old o

theorem keptFuses (h : SameRecords s t) (old : State) : SameRecords s (keptFuses old t) :=
  List.foldlRecOn _ _ (h.foldl_keepReg old _) fun _ hb f _ => hb.keepField old f

theorem keptTries (h : SameRecords s t) (old : State) : SameRecords s (keptTries old t) :=
  ite (h.keepField _ _) h

theorem recRecover (h : SameRecords s t) : SameRecords s (recRecover t) := by
  unfold Machine.recRecover
  split
  · exact (h.wrN _ _).wrN _ _
  · exact h

theorem keptThermal (h : SameRecords s t) (old : State) : SameRecords s (keptThermal old t) := by
  unfold Machine.keptThermal
  extract_lets s1 s2
  have h1 : SameRecords s s1 := h.keepField _ _
  have h2 : SameRecords s s2 := (h1.put _ _).put _ _
  exact ite (h2.trans ⟨rfl, rfl, rfl⟩) h1

theorem keptCrystal (h : SameRecords s t) (old : State) : SameRecords s (keptCrystal old t) :=
  ite (((h.keepField _ _).put _ _).put _ _) (h.keepField _ _)

theorem keptTsets (h : SameRecords s t) (old : State) : SameRecords s (keptTsets old t) :=
  List.foldlRecOn _ _ h fun _ hb _ _ => hb.keepReg _ _

theorem tellPairs (h : SameRecords s t) (old : State) : SameRecords s (tellPairs old t) :=
  forAll_keeps (SameRecords s) _ h fun _ _ hy => ite hy (hy.emit _)

theorem tellAxisPins (h : SameRecords s t) (a : Fin 8) (n : Nat) (old : State) :
    SameRecords s (tellAxisPins a n old t) := by
  unfold Machine.tellAxisPins
  extract_lets s0 s1
  have h0 : SameRecords s s0 := ite h (h.emit _)
  have h1 : SameRecords s s1 := ite h0 (h0.emit _)
  exact ite h1 (h1.emit _)

theorem resetAxisPins (h : SameRecords s t) (old : State) (a : Fin 8) : SameRecords s (resetAxisPins old a t) :=
  ite ((h.tellAxisPins a _ old).emit _) (h.tellAxisPins a _ old)

theorem resetPortPins (h : SameRecords s t) (old : State) (p : Fin 8) : SameRecords s (resetPortPins old p t) :=
  ite (h.emit _) h

theorem ungate (h : SameRecords s t) (k : Nat) : SameRecords s (ungate k t) := by
  unfold Machine.ungate
  split
  · exact ite (h.put _ _) h
  · exact h

theorem resetBayPins (h : SameRecords s t) (old : State) (b : Fin 12) : SameRecords s (resetBayPins old b t) :=
  ite h (((ite h (h.ungate _)).put _ _).emit _)

theorem resetSinglePins (h : SameRecords s t) (old : State) : SameRecords s (resetSinglePins old t) := by
  unfold Machine.resetSinglePins
  extract_lets s1 s2
  have h1 : SameRecords s s1 := ite (h.emit _) h
  have h2 : SameRecords s s2 := ite h1 (h1.emit _)
  exact ite (h2.emit _) h2

theorem resetPins (h : SameRecords s t) (old : State) : SameRecords s (resetPins old t) :=
  resetSinglePins (forAll_keeps (SameRecords s) _ (forAll_keeps (SameRecords s) _ (forAll_keeps (SameRecords s) _
    (h.tellPairs old) fun a _ hy => hy.resetAxisPins old a) fun p _ hy => hy.resetPortPins old p)
    fun b _ hy => hy.resetBayPins old b) old

end SameRecords

/-! ## Resets of the device -/

/-- What a reset may still change after `keptState`: the bays. -/
def onlyBays (p : Part) : Bool := p == .bays

theorem deviceReset_evolves_keptState (s : State) : Evolves onlyBays (keptState s).store (deviceReset s).store :=
  resetPins_evolves (countReset_evolves (keptTsets_evolves (keptIsland_evolves rfl (keptCrystal_evolves
    (keptThermal_evolves (keptTries_evolves (keptFuses_evolves .refl s) s) s) s) s) s)) s

theorem powerOnReset_evolves_keptState (s : State) : Evolves onlyBays (keptState s).store (powerOnReset s).store :=
  resetPins_evolves (recRecover_evolves (keptTries_evolves (keptFuses_evolves .refl s) s)) s

/-- An evolution of the bays alone leaves the units as the reset gives them, and what no reset reaches as it was (R10). -/
theorem units_of_evolves_keptState {s t : State} (h : Evolves onlyBays (keptState s).store t.store) :
    t.stalls = State.reset.stalls ∧ t.axes = State.reset.axes ∧ t.txns = State.reset.txns ∧
      t.ctxs = State.reset.ctxs ∧ t.lofts = State.reset.lofts ∧ t.keys = s.keys ∧ t.imgs = s.imgs ∧
      t.pending = s.pending ∧ s.out <+: t.out :=
  ⟨h.stalls_eq rfl rfl, h.axes_eq rfl rfl, h.txns_eq rfl rfl, h.ctxs_eq rfl rfl, (h.mem_eq rfl rfl).1, (h.keys_eq rfl).1,
    h.imgs_eq rfl, h.pending_eq, h.out_prefix⟩

theorem keptIsland_records (old s : State) :
    (keptIsland old s).rollMin = s.rollMin ∧ (keptIsland old s).life = old.life ∧
      (keptIsland old s).recStaged = old.recStaged :=
  (SameRecords.refl _).foldl_keepReg old _

theorem lifeAdd_life_congr {s t : State} (h : t.life = s.life) (k n : Nat) : (lifeAdd t k n).life = (lifeAdd s k n).life := by
  simp only [lifeAdd, lifeSet, life, h]

@[simp] theorem countReset_rollMin (s : State) : (countReset s).rollMin = s.rollMin := rfl

@[simp] theorem countReset_recStaged (s : State) : (countReset s).recStaged = s.recStaged := rfl

theorem countReset_life {s t : State} (h : t.life = s.life) :
    (countReset t).life = (lifeAdd s (lifeNo 5 5 srcRESET) 1).life := by
  unfold countReset
  exact lifeAdd_life_congr h _ _

/-- A device reset keeps the island's records, with one more assertion of the source RESET (R411, R413). -/
theorem deviceReset_records (s : State) :
    (deviceReset s).rollMin = s.rollMin ∧ (deviceReset s).life = (lifeAdd s (lifeNo 5 5 srcRESET) 1).life ∧
      (deviceReset s).recStaged = s.recStaged := by
  have hfresh := ((((SameRecords.refl (keptState s)).keptFuses s).keptTries s).keptThermal s).keptCrystal s
  unfold deviceReset
  generalize keptCrystal s _ = fresh at hfresh ⊢
  obtain ⟨iroll, ilife, irec⟩ := keptIsland_records s fresh
  obtain ⟨troll, tlife, trec⟩ := (SameRecords.refl (keptIsland s fresh)).keptTsets s
  obtain ⟨proll, plife, prec⟩ := (SameRecords.refl (countReset (keptTsets s (keptIsland s fresh)))).resetPins s
  refine ⟨?_, plife.trans (countReset_life (tlife.trans ilife)), ?_⟩
  · rw [proll, countReset_rollMin, troll, iroll, hfresh.1]
    rfl
  · rw [prec, countReset_recStaged, trec, irec]

/-- A power-on reset loses the island's records (R10, R530). -/
theorem powerOnReset_records (s : State) :
    (powerOnReset s).rollMin = s.rollMin ∧ (powerOnReset s).life = [] ∧ (powerOnReset s).recStaged = [] :=
  ((((SameRecords.refl (keptState s)).keptFuses s).keptTries s).recRecover).resetPins s

/-- A reset command is a device reset where the island keeps its records, and a power-on reset where it does not. -/
theorem exec_reset {s : State} {i : Instr} {island : Bool}
    (h : (i = .deviceReset ∧ island = true) ∨ (∃ r : Fin 5, i = .railReset r ∧ island = decide (r ≠ 2)) ∨
      (i = .powerOnReset ∧ island = false) ∨
      (∃ sec, i = .recoveryReboot sec ∧ island = true ∧ accessOk sec R.BOOT_RCV_CMD s = true ∧
        get s F.BOOT_STATUS_PHASE = 5)) :
    exec i s = .next (if island then deviceReset s else powerOnReset s) := by
  obtain ⟨rfl, rfl⟩ | ⟨r, rfl, rfl⟩ | ⟨rfl, rfl⟩ | ⟨sec, rfl, rfl, hs, hp⟩ := h
  · rfl
  · refine congrArg Host.Outcome.next ?_
    by_cases hr : r = 2 <;> simp [railReset, hr]
  · rfl
  · exact congrArg Host.Outcome.next ((if_pos hs).trans (if_pos hp))

theorem completes_refusedReboot {sec : Bool} {s : State} (hs : accessOk sec R.BOOT_RCV_CMD s = true)
    (hp : get s F.BOOT_STATUS_PHASE ≠ 5) :
    Completes (.recoveryReboot sec) s fun t =>
      t.stalls = s.stalls ∧ get t F.BOOT_STATUS_PHASE = get s F.BOOT_STATUS_PHASE :=
  ⟨bootRefused s, congrArg Host.Outcome.next ((if_pos hs).trans (if_neg hp)), rfl, get_put_other _ _ _ _ (by decide)⟩

/-! ## Entering recovery -/

/-- A source of inhibit that becomes active writes LSAFE_STATUS and registers of the stalls only. -/
theorem rdN_inhibitOn (i : Nat) (s : State) {o : Nat} (ho : R.YRD_LSAFE_STATUS ≠ o) (hb : o < 0x200000) :
    rdN (inhibitOn i s) o = rdN s o := by
  have hcode : ∀ g : Fin 48, (F.STALL_OUT_STATUS_LAST_CODE g).off ≠ o := fun g h => by
    have : 0x200000 ≤ (F.STALL_OUT_STATUS_LAST_CODE g).off := by
      simp only [F.STALL_OUT_STATUS_LAST_CODE, R.STALL_OUT_STATUS, stallBase]; omega
    omega
  unfold inhibitOn
  extract_lets s1 s2 s3
  have h3 : rdN s3 o = rdN s o := by
    rw [rdN_lifeAdd]
    exact (rdN_put_other _ _ _ ho).trans ((rdN_put_other _ _ _ ho).trans (rdN_put_other s _ _ ho))
  split_ifs
  · rfl
  · exact h3
  · refine forAll_keeps (fun x => rdN x o = rdN s o) _ (forAll_keeps (fun x => rdN x o = rdN s o) _
      (forAll_keeps (fun x => rdN x o = rdN s o) _ h3 fun g y hy => hy) fun g y hy => ?_) fun g y hy => ?_
    · exact (rdN_put_other _ _ _ (hcode g)).trans hy
    · split_ifs
      · exact hy
      · exact hy

theorem get_inhibitOn (i : Nat) (s : State) {f : Fld} (ho : R.YRD_LSAFE_STATUS ≠ f.off) (hb : f.off < 0x200000) :
    get (inhibitOn i s) f = get s f := by
  unfold Machine.get
  rw [rdN_inhibitOn i s ho hb]

theorem enterRecovery_phase (cause : Nat) (s : State) : get (enterRecovery cause s) F.BOOT_STATUS_PHASE = 5 := by
  unfold enterRecovery clrF
  rw [get_inhibitOn _ _ (by decide) (by decide), get_lifeAdd, get_put_other _ _ _ _ (by decide),
    get_put_disjoint _ _ _ _ (by decide) (by decide), get_put_same _ _ _ (by decide)]
  rfl

theorem enterRecovery_imgs (cause : Nat) (s : State) : (enterRecovery cause s).imgs = s.imgs :=
  (enterRecovery_evolves (pm := fun p => p == .stalls) rfl .refl cause).imgs_eq rfl

theorem completes_recoveryStart {b : Boot} {s : State} (hp : get s F.BOOT_STATUS_PHASE = 0) (hb : b.recoveryLow = true) :
    Completes (.startUp b) s fun t => get t F.BOOT_STATUS_PHASE = 5 ∧ t.imgs = s.imgs :=
  ⟨enterRecovery 1 s, congrArg Host.Outcome.next ((if_pos hp).trans (if_pos hb)), enterRecovery_phase 1 s,
    enterRecovery_imgs 1 s⟩

/-- Settles O21: a reset is `keptState` followed by an evolution of the bays alone. -/
theorem deviceResets : Obligations.DeviceResets := by
  refine ⟨fun s i island h => ⟨_, exec_reset h, ?_⟩, fun sec s hs hp => completes_refusedReboot hs hp,
    fun b s hp hb => completes_recoveryStart hp hb⟩
  cases island with
  | true =>
    obtain ⟨hst, hax, htx, hcx, hlo, hke, him, hpe, hou⟩ := units_of_evolves_keptState (deviceReset_evolves_keptState s)
    obtain ⟨hro, hli, hre⟩ := deviceReset_records s
    exact ⟨hst, hax, htx, hcx, hlo, hke, hro, him, hpe, hou, fun _ => ⟨hli, hre⟩, nofun⟩
  | false =>
    obtain ⟨hst, hax, htx, hcx, hlo, hke, him, hpe, hou⟩ := units_of_evolves_keptState (powerOnReset_evolves_keptState s)
    obtain ⟨hro, hli, hre⟩ := powerOnReset_records s
    exact ⟨hst, hax, htx, hcx, hlo, hke, hro, him, hpe, hou, nofun, fun _ => ⟨hli, hre⟩⟩

end Machine
end Sys2Proof

/-!
The statements of chapter 01: the tick and its squashes, the period, the bay map and the stable enables, the layer barrier, the
states of the stalls in one word, and the ways into FAULT.
-/
namespace Sys2Proof
namespace Machine

/-! ## The clock along a tick (R18) -/

/-- The parts that a tick changes besides the clock, which is yard time, the period and what was asked of them. -/
def besidesClock (p : Part) : Bool :=
  !([Part.time, .period, .ask, .keys, .reset].contains p)

/-- Two states with the same clock. -/
def SameClock (s t : State) : Prop :=
  t.now = s.now ∧ t.beam = s.beam ∧ t.mvP = s.mvP ∧ t.tmsSet = s.tmsSet ∧ t.tmsAcc = s.tmsAcc ∧ t.periodNext = s.periodNext

theorem Evolves.sameClock {s t : State} (h : Evolves besidesClock s.store t.store) : SameClock s t :=
  ⟨(h.now_eq rfl rfl).1, (h.now_eq rfl rfl).2, h.period_eq rfl rfl, h.ask_eq rfl rfl⟩

/-- The microvector that began at the present tick is complete. -/
def tickEnd (errs : List (Fin 48 × Nat)) (s : State) : State :=
  let s1 := servoBefore (microvectorRest errs (sendSetpoints (thermalStep (superframe (settleStates s)))))
  forAll 8 (fun p s => portRun p (nextTick s) s) s1

theorem microvectorTick_eq (errs : List (Fin 48 × Nat)) (s : State) :
    microvectorTick errs s =
      microvectorBegin (nextTick (tickEnd errs s) - (tickEnd errs s).now) (advance (tickEnd errs s)) := rfl

theorem tickEnd_evolves (errs : List (Fin 48 × Nat)) (s : State) :
    Evolves besidesClock s.store (tickEnd errs s).store :=
  forAll_evolves _ (fun p _ hs => portRun_evolves rfl rfl hs p _)
    (servoBefore_evolves rfl rfl
      (microvectorRest_evolves rfl rfl rfl rfl rfl rfl rfl rfl rfl rfl
        (sendSetpoints_evolves
          (thermalStep_evolves rfl rfl rfl (superframe_evolves rfl rfl (settleStates_evolves rfl rfl rfl rfl rfl rfl .refl))))
        errs))

theorem acceptStep_eq_self {s : State} (h : s.tmsAcc = []) : acceptStep s = s := by
  unfold acceptStep setTmsAcc
  rw [h, List.foldl_nil, ← h]

theorem timeTick_evolves_of_noAcceptance {s : State} (h : s.tmsAcc = []) (dt : Nat) :
    Evolves besidesClock s.store (timeTick dt s).store := by
  unfold timeTick
  extract_lets s1
  have h1 : Evolves besidesClock s.store s1.store :=
    slewTick_evolves (steerTick_evolves (ite_evolves (lifeTime_evolves .refl _ _) .refl) dt) dt
  have hacc : acceptStep s1 = s1 := acceptStep_eq_self (h1.sameClock.2.2.2.2.1.trans h)
  rw [hacc]
  exact timePins_evolves (forAll_evolves _ (fun p _ hs => preMasterEnd_evolves rfl rfl hs p) (slewComplete_evolves rfl h1))

/-- With nothing asked of the clock, time moves to the next multiple of the period. -/
theorem sameClock_advance {s : State} (hp : s.periodNext = none) (hset : s.tmsSet = none) (hacc : s.tmsAcc = []) :
    SameClock (moveTime (nextMultiple s.now s.mvP) (nextMultiple s.now s.mvP - s.now) s) (advance s) := by
  have hnext : nextTick s = nextMultiple s.now s.mvP := by unfold nextTick; rw [hp]
  unfold advance
  extract_lets t dt
  have hperiod : mvPeriodChange (moveTime t dt s) = moveTime t dt s := by
    unfold mvPeriodChange
    rw [show (moveTime t dt s).periodNext = none from hp]
  have happlied : setApplied (moveTime t dt s) = moveTime t dt s := by
    unfold setApplied
    rw [show (moveTime t dt s).tmsSet = none from hset]
  rw [hperiod, happlied, ← hnext]
  exact (clockTick_evolves rfl (timeTick_evolves_of_noAcceptance (s := moveTime t dt s) hacc dt) dt).sameClock

theorem completes_tick (errs : List (Fin 48 × Nat)) {s : State} (hp : s.periodNext = none) (hset : s.tmsSet = none)
    (hacc : s.tmsAcc = []) :
    Completes (.microvectorTick errs) s fun t => t.now = (s.now / s.mvP + 1) * s.mvP % 2 ^ 64 ∧
      t.beam = s.beam + ((s.now / s.mvP + 1) * s.mvP - s.now) ∧ t.mvP = s.mvP := by
  refine ⟨microvectorTick errs s, rfl, ?_⟩
  obtain ⟨hnow, hbeam, hmv, hset', hacc', hp'⟩ := (tickEnd_evolves errs s).sameClock
  obtain ⟨hnow1, hbeam1, hmv1, -⟩ := sameClock_advance (hp'.trans hp) (hset'.trans hset) (hacc'.trans hacc)
  rw [microvectorTick_eq]
  obtain ⟨hnow2, hbeam2, hmv2, -⟩ := (microvectorBegin_evolves rfl rfl rfl rfl rfl rfl rfl rfl rfl rfl rfl rfl rfl rfl rfl rfl
    rfl rfl rfl .refl (nextTick (tickEnd errs s) - (tickEnd errs s).now)).sameClock (s := advance (tickEnd errs s))
  rw [hnow2, hbeam2, hmv2, hnow1, hbeam1, hmv1]
  simp only [moveTime, nextMultiple, hnow, hbeam, hmv, and_self]

/-! ## Stalls and registers -/

@[simp] theorem stall_setStall_same (g : Fin 48) (f : Stall → Stall) (s : State) :
    stall (setStall g f s) g = f (stall s g) := Vector.getElem_set_self _

theorem stall_setStall_other {g h : Fin 48} (f : Stall → Stall) (s : State) (hg : h ≠ g) :
    stall (setStall g f s) h = stall s h := Vector.getElem_set_ne g.isLt h.isLt (fun e => hg (Fin.ext e.symm))

@[simp] theorem rdN_setStall (g : Fin 48) (f : Stall → Stall) (s : State) (o : Nat) :
    rdN (setStall g f s) o = rdN s o := rfl

@[simp] theorem get_setStall (g : Fin 48) (f : Stall → Stall) (s : State) (x : Fld) :
    get (setStall g f s) x = get s x := rfl

@[simp] theorem stall_wrN (s : State) (o v : Nat) (g : Fin 48) : stall (wrN s o v) g = stall s g := rfl

@[simp] theorem stall_put (s : State) (f : Fld) (v : Nat) (g : Fin 48) : stall (put s f v) g = stall s g := rfl

@[simp] theorem stall_wr64 (s : State) (o v : Nat) (g : Fin 48) : stall (wr64 s o v) g = stall s g := by
  rw [wr64, stall_wrN, stall_wrN]

@[simp] theorem stall_addSat (s : State) (o n : Nat) (g : Fin 48) : stall (addSat s o n) g = stall s g := stall_wrN _ _ _ _

@[simp] theorem stall_add64 (s : State) (o n : Nat) (g : Fin 48) : stall (add64 s o n) g = stall s g := stall_wr64 _ _ _ _

/-- Two registers of one stall. -/
theorem stallReg_ne {a b : Nat} (g : Nat) (h : a ≠ b) : stallBase g + a ≠ stallBase g + b := by omega

theorem satN_eq_min (hi x : Nat) : satN hi x = min x hi := by unfold satN; split <;> omega

theorem rdN_addSat_same (s : State) (o n : Nat) : rdN (addSat s o n) o = min (rdN s o + n) 0xFFFFFFFF := by
  rw [addSat, rdN_wrN_same, satN_eq_min, Nat.mod_eq_of_lt (by omega)]

theorem rdN_wr64_other (s : State) {o o' : Nat} (v : Nat) (h : o ≠ o') (h4 : o + 4 ≠ o') :
    rdN (wr64 s o v) o' = rdN s o' := by
  rw [wr64, rdN_wrN_other _ _ h4, rdN_wrN_other _ _ h]

theorem rd64_wr64_same (s : State) (o v : Nat) : rd64 (wr64 s o v) o = v % 2 ^ 64 := by
  rw [rd64, wr64, rdN_wrN_same, rdN_wrN_other _ _ (by omega), rdN_wrN_same]
  omega

theorem rdN_addSat_other (s : State) {o o' : Nat} (n : Nat) (h : o ≠ o') : rdN (addSat s o n) o' = rdN s o' :=
  rdN_wrN_other _ _ h

theorem rdN_add64_other (s : State) {o o' : Nat} (n : Nat) (h : o ≠ o') (h4 : o + 4 ≠ o') :
    rdN (add64 s o n) o' = rdN s o' := rdN_wr64_other _ _ h h4

theorem rd64_add64_same (s : State) (o n : Nat) : rd64 (add64 s o n) o = (rd64 s o + n) % 2 ^ 64 := rd64_wr64_same _ _ _

theorem rd64_eq_of_rdN {s t : State} {o : Nat} (h : rdN t o = rdN s o) (h4 : rdN t (o + 4) = rdN s (o + 4)) :
    rd64 t o = rd64 s o := by
  rw [rd64, rd64, h, h4]

/-! ## Squashes (R19, R136) -/

theorem rdN_showWindow (g : Fin 48) (s : State) {o : Nat} (ho : R.STALL_TRJ_STATUS g ≠ o) :
    rdN (showWindow g s) o = rdN s o := by
  unfold showWindow
  extract_lets x
  rw [rdN_put_other _ _ _ ho, rdN_put_other _ _ _ ho, rdN_put_other _ _ _ ho, rdN_put_other _ _ _ ho]

@[simp] theorem stall_showWindow (g h : Fin 48) (s : State) : stall (showWindow g s) h = stall s h := by
  simp only [showWindow, stall_put]

/-- The squash count and record of a stall whose speculative entries are discarded. -/
def squashReport (g : Fin 48) (mask : Nat) (s : State) : State :=
  let n := (stall s g).buf.length - (stall s g).hzn
  let s1 := wrN (discard g s) (R.STALL_TRJ_SQUASH_LAST g) (mask + 2 ^ 16 * (n % 2 ^ 12))
  let s2 := wr64 s1 (R.STALL_TRJ_SQUASH_TIME g) s.now
  setStall g (fun x => { x with squashDue := 0 })
    (countSquash g mask n (add64 (addSat s2 (R.STALL_TRJ_SQUASHES g) 1) (R.STALL_TRJ_SQUASHED_MV g) n))

/-- A stop begins where the horizon stands (R138). -/
def stallStop (g : Fin 48) (why : Nat) (s : State) : State :=
  setStall g (fun x =>
    let p := planStop (planIn g s) x.hplan
    { x with stopping := why, plan := p, hplan := p, recs := [], armEnd := cutArm x.hplan }) s

/-- What the causes ABORT and INHIBIT add to a squash (R99, R138, R159). -/
def squashStop (g : Fin 48) (mask : Nat) (s : State) : State :=
  if bit mask 5 then setF (stallStop g 1 s) (F.STALL_STATE_ABORTING g) else if bit mask 4 then stallStop g 2 s else s

theorem squash_of_aborting {g : Fin 48} {s : State} (h : flag s (F.STALL_STATE_ABORTING g) = true) (mask : Nat) :
    squash g mask s = setStall g (fun x => { x with squashDue := 0 }) s := if_pos (.inl h)

theorem squash_of_not_aborting {g : Fin 48} {s : State} {mask : Nat} (h : flag s (F.STALL_STATE_ABORTING g) = false)
    (hm : mask ≠ 0) : squash g mask s = showWindow g (squashStop g mask (squashReport g mask s)) :=
  if_neg (by simp [h, hm])

theorem rdN_squashStop {g : Fin 48} {mask : Nat} {s : State} {o : Nat} (ho : R.STALL_STATE g ≠ o) :
    rdN (squashStop g mask s) o = rdN s o := by
  unfold squashStop
  split_ifs
  · exact rdN_put_other _ _ _ ho
  · rfl
  · rfl

theorem stall_squashStop_buf (g : Fin 48) (mask : Nat) (s : State) :
    (stall (squashStop g mask s) g).buf = (stall s g).buf ∧
      (stall (squashStop g mask s) g).squashDue = (stall s g).squashDue := by
  have hstop (why : Nat) : (stall (stallStop g why s) g).buf = (stall s g).buf ∧
      (stall (stallStop g why s) g).squashDue = (stall s g).squashDue := by
    unfold stallStop
    rw [stall_setStall_same]
    dsimp only
    exact ⟨rfl, rfl⟩
  unfold squashStop setF
  split_ifs
  · rw [stall_put]; exact hstop 1
  · exact hstop 2
  · exact ⟨rfl, rfl⟩

theorem stall_squashStop_other {g h : Fin 48} (mask : Nat) (s : State) (hg : h ≠ g) :
    stall (squashStop g mask s) h = stall s h := by
  unfold squashStop stallStop setF
  split_ifs
  · rw [stall_put, stall_setStall_other _ _ hg]
  · exact stall_setStall_other _ _ hg
  · rfl

/-- Counting a squash changes lifetime counters only (R144). -/
theorem countSquash_shape (g mask n : Nat) (s : State) : ∃ l, countSquash g mask n s = { s with life := l } := by
  unfold countSquash
  refine List.foldlRecOn (motive := fun t : State => ∃ l, t = { s with life := l }) _ _ ⟨_, rfl⟩ fun t ht i _ => ?_
  obtain ⟨l, rfl⟩ := ht
  split
  · exact ⟨_, rfl⟩
  · exact ⟨_, rfl⟩

@[simp] theorem rdN_countSquash (g mask n : Nat) (s : State) (o : Nat) : rdN (countSquash g mask n s) o = rdN s o := by
  obtain ⟨l, h⟩ := countSquash_shape g mask n s; rw [h]; rfl

@[simp] theorem stall_countSquash (g mask n : Nat) (s : State) (h : Fin 48) :
    stall (countSquash g mask n s) h = stall s h := by
  obtain ⟨l, e⟩ := countSquash_shape g mask n s; rw [e]; rfl

theorem stall_squashReport_same (g : Fin 48) (mask : Nat) (s : State) :
    stall (squashReport g mask s) g = { stall (discard g s) g with squashDue := 0 } := by
  simp [squashReport]

theorem stall_squashReport_other {g h : Fin 48} (mask : Nat) (s : State) (hg : h ≠ g) :
    stall (squashReport g mask s) h = stall s h := by
  unfold squashReport
  rw [stall_setStall_other _ _ hg, stall_countSquash, stall_add64, stall_addSat, stall_wr64, stall_wrN, discard,
    stall_setStall_other _ _ hg]

/-- The registers of a squash report, by their offsets in the stall's block (R136). -/
theorem squashReport_regs (g : Fin 48) (mask : Nat) (s : State) :
    rdN (squashReport g mask s) (R.STALL_TRJ_SQUASHES g) = min (rdN s (R.STALL_TRJ_SQUASHES g) + 1) 0xFFFFFFFF ∧
    rd64 (squashReport g mask s) (R.STALL_TRJ_SQUASHED_MV g) =
      (rd64 s (R.STALL_TRJ_SQUASHED_MV g) + ((stall s g).buf.length - (stall s g).hzn)) % 2 ^ 64 ∧
    rdN (squashReport g mask s) (R.STALL_TRJ_SQUASH_LAST g) =
      (mask + 2 ^ 16 * (((stall s g).buf.length - (stall s g).hzn) % 2 ^ 12)) % 2 ^ 32 := by
  dsimp only [squashReport, R.STALL_TRJ_SQUASHES, R.STALL_TRJ_SQUASHED_MV, R.STALL_TRJ_SQUASH_LAST, R.STALL_TRJ_SQUASH_TIME]
  refine ⟨?_, ?_, ?_⟩
  · rw [rdN_setStall, rdN_countSquash, rdN_add64_other _ _ (by omega) (by omega), rdN_addSat_same,
      rdN_wr64_other _ _ (by omega) (by omega), rdN_wrN_other _ _ (by omega)]
    rfl
  · rw [rd64_eq_of_rdN (rdN_setStall _ _ _ _) (rdN_setStall _ _ _ _), rd64_eq_of_rdN (rdN_countSquash _ _ _ _ _)
      (rdN_countSquash _ _ _ _ _), rd64_add64_same]
    simp (disch := omega) only [rd64, rdN_addSat_other, rdN_wr64_other, rdN_wrN_other]
    rfl
  · rw [rdN_setStall, rdN_countSquash, rdN_add64_other _ _ (by omega) (by omega), rdN_addSat_other _ _ (by omega),
      rdN_wr64_other _ _ (by omega) (by omega), rdN_wrN_same]

/-- A squash that is due while the stall does not abort. -/
theorem completes_squash {g : Fin 48} {s : State} (hdue : (stall s g).squashDue ≠ 0)
    (ha : flag s (F.STALL_STATE_ABORTING g) = false) :
    Completes (.squash g) s fun t => (stall t g).buf = (stall s g).buf.take (stall s g).hzn ∧ (stall t g).squashDue = 0 ∧
      rdN t (R.STALL_TRJ_SQUASHES g) = min (rdN s (R.STALL_TRJ_SQUASHES g) + 1) 0xFFFFFFFF ∧
      rd64 t (R.STALL_TRJ_SQUASHED_MV g) =
        (rd64 s (R.STALL_TRJ_SQUASHED_MV g) + ((stall s g).buf.length - (stall s g).hzn)) % 2 ^ 64 ∧
      rdN t (R.STALL_TRJ_SQUASH_LAST g) =
        ((stall s g).squashDue + 2 ^ 16 * (((stall s g).buf.length - (stall s g).hzn) % 2 ^ 12)) % 2 ^ 32 ∧
      ∀ h : Fin 48, h ≠ g → stall t h = stall s h := by
  generalize hmask : (stall s g).squashDue = mask at hdue
  refine ⟨showWindow g (squashStop g mask (squashReport g mask s)), congrArg Host.Outcome.next ?_, ?_⟩
  · rw [squashDueStep, hmask, if_neg hdue, squash_of_not_aborting ha hdue]
  have hreg (k : Nat) (hw : 0x140 ≠ k) (hs : 0x8 ≠ k) :
      rdN (showWindow g (squashStop g mask (squashReport g mask s))) (stallBase g + k) =
        rdN (squashReport g mask s) (stallBase g + k) :=
    (rdN_showWindow g _ (stallReg_ne g hw)).trans (rdN_squashStop (stallReg_ne g hs))
  obtain ⟨hbuf, hdue0⟩ := stall_squashStop_buf g mask (squashReport g mask s)
  obtain ⟨hcount, hmv, hlast⟩ := squashReport_regs g mask s
  refine ⟨?_, ?_, (hreg 0x158 (by decide) (by decide)).trans hcount,
    (rd64_eq_of_rdN (hreg 0x160 (by decide) (by decide)) (hreg 0x164 (by decide) (by decide))).trans hmv,
    (hreg 0x14C (by decide) (by decide)).trans hlast, fun h hg => ?_⟩
  · rw [stall_showWindow, hbuf, stall_squashReport_same, discard, stall_setStall_same]
  · rw [stall_showWindow, hdue0, stall_squashReport_same]
  · rw [stall_showWindow, stall_squashStop_other mask _ hg, stall_squashReport_other mask s hg]

theorem completes_squash_aborting {g : Fin 48} {s : State} (hdue : (stall s g).squashDue ≠ 0)
    (ha : flag s (F.STALL_STATE_ABORTING g) = true) :
    Completes (.squash g) s fun t => (stall t g).squashDue = 0 ∧ (stall t g).buf = (stall s g).buf ∧ t.regs = s.regs := by
  refine ⟨setStall g (fun x => { x with squashDue := 0 }) s, congrArg Host.Outcome.next ?_, ?_⟩
  · rw [squashDueStep, if_neg hdue, squash_of_aborting ha]
  · beta_reduce
    rw [stall_setStall_same]
    exact ⟨rfl, rfl, rfl⟩

end Machine

open Machine in
/-- Settles O8: a tick moves nothing of the clock but by `advance`, and a squash is its report with a stop behind it. -/
theorem microvectorTick : Obligations.MicrovectorTick :=
  ⟨fun errs _ hp hset hacc => completes_tick errs hp hset hacc, fun _ _ hdue ha => completes_squash hdue ha,
    fun _ _ hdue ha => completes_squash_aborting hdue ha⟩

end Sys2Proof

namespace Sys2Proof
namespace Machine

/-! ## The states of the stalls in one word (R23) -/

/-- Of a sum of fields of `w` bits, one above the other, each reads back. -/
theorem bits_sum_fields {w : Nat} (f : Nat → Nat) (hf : ∀ i, f i < 2 ^ w) (n : Nat) :
    (((List.range n).map fun i => 2 ^ (w * i) * f i).sum < 2 ^ (w * n)) ∧
      ∀ i < n, bits ((List.range n).map fun i => 2 ^ (w * i) * f i).sum (w * i) w = f i := by
  induction n with
  | zero => simp
  | succ n ih =>
    obtain ⟨hlt, hbits⟩ := ih
    rw [List.range_succ, List.map_append, List.sum_append, List.map_singleton, List.sum_singleton]
    generalize ((List.range n).map fun i => 2 ^ (w * i) * f i).sum = x at hlt hbits
    have hpow : 2 ^ (w * (n + 1)) = 2 ^ (w * n) * 2 ^ w := by rw [Nat.mul_succ, Nat.pow_add]
    refine ⟨?_, fun i hi => ?_⟩
    · rw [hpow]
      calc x + 2 ^ (w * n) * f n < 2 ^ (w * n) + 2 ^ (w * n) * f n := by omega
        _ = 2 ^ (w * n) * (f n + 1) := by ring
        _ ≤ 2 ^ (w * n) * 2 ^ w := Nat.mul_le_mul_left _ (hf n)
    · obtain hi | rfl := Nat.lt_succ_iff_lt_or_eq.1 hi
      · rw [← hbits i hi, ← bits_mod _ _ _ (w * n) (by nlinarith), Nat.add_mul_mod_self_left, Nat.mod_eq_of_lt hlt]
      · rw [bits, Nat.add_mul_div_left _ _ (Nat.two_pow_pos _), Nat.div_eq_of_lt hlt, Nat.zero_add, Nat.mod_eq_of_lt (hf i)]

theorem stSt_lt (g : Nat) (s : State) : stSt g s < 2 ^ 4 := get_lt _ _

theorem stallSummary_lt (x : Nat) (s : State) : stallSummary x s < 2 ^ 32 :=
  (bits_sum_fields (w := 4) (fun i => stSt (8 * x + i) s) (fun _ => stSt_lt _ s) 8).1

theorem bits_stallSummary (x : Nat) (s : State) {i : Nat} (hi : i < 8) :
    bits (stallSummary x s) (4 * i) 4 = stSt (8 * x + i) s :=
  (bits_sum_fields (w := 4) (fun i => stSt (8 * x + i) s) (fun _ => stSt_lt _ s) 8).2 i hi

/-- The words of two neighbouring stables, one above the other, hold sixteen fields. -/
theorem stallSummary_pair (y : Nat) (s : State) :
    stallSummary (2 * y) s + 2 ^ 32 * stallSummary (2 * y + 1) s =
      ((List.range 16).map fun i => 2 ^ (4 * i) * stSt (16 * y + i) s).sum := by
  rw [show 16 = 8 + 8 from rfl, List.range_add, List.map_append, List.sum_append, List.map_map]
  unfold stallSummary
  rw [← List.sum_map_mul_left]
  congr 2
  · simp only [show 8 * (2 * y) = (8 + 8) * y by omega]
  · refine List.map_congr_left fun i _ => ?_
    rw [Function.comp_apply, ← Nat.mul_assoc, ← Nat.pow_add, show 32 + 4 * i = 4 * (8 + i) by omega,
      show 8 * (2 * y + 1) + i = (8 + 8) * y + (8 + i) by omega]

/-- A summary register is one narrow word of the yard without bits that a read clears. -/
theorem rowAt_stallSummary (x : Fin 6) :
    ∃ w, rowAt (R.YRD_STALL_SUMMARY x) = some (w, 0) ∧ w.wide = false ∧ rcMask (R.YRD_STALL_SUMMARY x) = 0 := by
  have h : ∀ x : Fin 6, ((rowAt (R.YRD_STALL_SUMMARY x)).any fun p => p.2 == 0 && !p.1.wide) = true ∧
      rcMask (R.YRD_STALL_SUMMARY x) = 0 := by decide +kernel
  obtain ⟨hrow, hrc⟩ := h x
  cases hw : rowAt (R.YRD_STALL_SUMMARY x) with
  | none => rw [hw] at hrow; cases hrow
  | some p =>
    rw [hw, Option.any_some, Bool.and_eq_true, beq_iff_eq, Bool.not_eq_true'] at hrow
    exact ⟨p.1, congrArg some (Prod.ext rfl hrow.1), hrow.2, hrc⟩

/-- Below the stables' blocks no word is hidden and no word is a window. -/
theorem hiddenWord_yard {o : Nat} (ho : o < 0x200000) (s : State) : hiddenWord o s = false := by
  have hne : ∀ g : Fin 48, o ≠ R.STALL_PROG_ERR g ∧ o ≠ R.STALL_PROG_ERR_OFFSET g := fun g => by
    simp only [R.STALL_PROG_ERR, R.STALL_PROG_ERR_OFFSET, stallBase]; omega
  unfold hiddenWord
  simp [hne]

theorem windowAt_yard {o : Nat} (ho : o < 0x200000) (s : State) : windowAt o s = none :=
  if_neg fun h => absurd h.1 (Nat.not_le.2 ho)

theorem shown_stallSummary (x : Fin 6) (s : State) : shown (R.YRD_STALL_SUMMARY x) s = stallSummary x s := by
  have hbelow : ¬ (0x200000 ≤ R.YRD_STALL_SUMMARY x ∧ R.YRD_STALL_SUMMARY x < 0x800000) := by
    simp only [R.YRD_STALL_SUMMARY]; omega
  have hdeadline : R.YRD_STALL_SUMMARY x ≠ R.YRD_LAYER_DEADLINE_STATUS := by
    simp only [R.YRD_STALL_SUMMARY, R.YRD_LAYER_DEADLINE_STATUS]; omega
  have hrange : R.YRD_STALL_SUMMARY 0 ≤ R.YRD_STALL_SUMMARY x ∧ R.YRD_STALL_SUMMARY x < R.YRD_STALL_SUMMARY 6 := by
    simp only [R.YRD_STALL_SUMMARY]; omega
  have hindex : (R.YRD_STALL_SUMMARY x - R.YRD_STALL_SUMMARY 0) / 4 = x := by simp only [R.YRD_STALL_SUMMARY]; omega
  rw [shown, if_neg hbelow, shownSingle, if_neg hdeadline, if_pos hrange, hindex]
  exact Nat.mod_eq_of_lt (stallSummary_lt x s)

theorem shownTo_stallSummary (sec : Bool) (x : Fin 6) (s : State) :
    shownTo sec (R.YRD_STALL_SUMMARY x) s = stallSummary x s := by
  have hyard : R.YRD_STALL_SUMMARY x < 0x200000 := by simp only [R.YRD_STALL_SUMMARY]; omega
  have hheld : heldWord (R.YRD_STALL_SUMMARY x) s = none :=
    if_neg (by simp only [R.YRD_STALL_SUMMARY]; omega)
  rw [shownTo, if_pos (.inr (by rw [hiddenWord_yard hyard]; exact Bool.false_ne_true)), hheld]
  exact shown_stallSummary x s

/-- A read of a summary answers its word and leaves registers, stalls and outputs. -/
theorem readWord32_stallSummary (sec : Bool) (x : Fin 6) (s : State) :
    ∃ t, readWord32 sec (R.YRD_STALL_SUMMARY x) s = (stallSummary x s, t) ∧ (∀ o, rdN t o = rdN s o) ∧
      t.stalls = s.stalls ∧ t.out = s.out := by
  obtain ⟨w, hrow, hwide, hrc⟩ := rowAt_stallSummary x
  have hyard : R.YRD_STALL_SUMMARY x < 0x200000 := by simp only [R.YRD_STALL_SUMMARY]; omega
  refine ⟨_, (readWord32_narrow hrow hwide (windowAt_yard hyard s)).trans
    (congrArg (·, _) (shownTo_stallSummary sec x s)), fun o => ?_, ?_, ?_⟩
  · rw [rdN_latchPos, hrc, Nat.and_zero, Nat.sub_zero, rdN_wrN, Nat.mod_eq_of_lt (rdN_lt _ _)]
    split
    next h => rw [h]
    · rfl
  · obtain ⟨v, h⟩ := latchPos_shape (R.YRD_STALL_SUMMARY x)
      (wrN s (R.YRD_STALL_SUMMARY x)
        (rdN s (R.YRD_STALL_SUMMARY x) - (rdN s (R.YRD_STALL_SUMMARY x) &&& rcMask (R.YRD_STALL_SUMMARY x))))
    rw [h]; rfl
  · rw [latchPos_out, wrN_out]

theorem blockAt_stallSummary (x : Fin 6) : (blockAt (R.YRD_STALL_SUMMARY x)).isNone = false := by
  obtain ⟨w, hrow, -⟩ := rowAt_stallSummary x
  obtain ⟨b, hb, -⟩ := blockAt_of_rowAt hrow
  rw [hb]; rfl

theorem completes_summaryRead {sec : Bool} {x : Fin 6} {s : State} (hs : accessOk sec (R.YRD_STALL_SUMMARY x) s = true) :
    Completes (.readClear sec (R.YRD_STALL_SUMMARY x) false) s fun t => (∀ o, rdN t o = rdN s o) ∧ t.stalls = s.stalls ∧
      ∃ w, t.out = s.out ++ [.readReply (R.YRD_STALL_SUMMARY x) w false] ∧ w < 2 ^ 32 ∧
        ∀ i : Fin 8, bits w (4 * i.val) 4 = stSt (8 * x.val + i.val) s := by
  obtain ⟨t, ht, hregs, hstalls, hout⟩ := readWord32_stallSummary sec x s
  have halign : R.YRD_STALL_SUMMARY x % 4 = 0 := by simp only [R.YRD_STALL_SUMMARY]; omega
  have hblock : (blockAt (R.YRD_STALL_SUMMARY x)).isSome = true := by
    rw [← Option.not_isNone, blockAt_stallSummary]; rfl
  refine ⟨_, congrArg Host.Outcome.next (readClear_ok halign hblock hs), ?_⟩
  rw [ht]
  exact ⟨hregs, hstalls, _, by rw [emit_out, hout], stallSummary_lt x s, fun i => bits_stallSummary x s i.isLt⟩

theorem stallSummary_congr {s t : State} (h : ∀ o, rdN t o = rdN s o) (x : Nat) : stallSummary x t = stallSummary x s := by
  simp only [stallSummary, stSt, Machine.get, h]

/-- A 64-bit read at a narrow register reads it and the word behind it (R8). -/
theorem readWord64_narrow {sec : Bool} {o : Nat} {w : RegRow} {s : State} (hr : rowAt o = some (w, 0))
    (hw : w.wide = false) : readWord64 sec o s =
      ((readWord32 sec o s).1 + 2 ^ 32 * (readWord32 sec (o + 4) (readWord32 sec o s).2).1,
        (readWord32 sec (o + 4) (readWord32 sec o s).2).2) := by
  simp [readWord64, hr, hw]

theorem completes_summaryPairRead {sec : Bool} {y : Fin 3} {s : State}
    (hs : accessOk sec (R.YRD_STALL_SUMMARY (2 * y.val)) s = true) :
    Completes (.readClear sec (R.YRD_STALL_SUMMARY (2 * y.val)) true) s fun t => (∀ o, rdN t o = rdN s o) ∧
      t.stalls = s.stalls ∧ ∃ w, t.out = s.out ++ [.readReply (R.YRD_STALL_SUMMARY (2 * y.val)) w true] ∧ w < 2 ^ 64 ∧
        ∀ i : Fin 16, bits w (4 * i.val) 4 = stSt (16 * y.val + i.val) s := by
  let lo : Fin 6 := ⟨2 * y.val, by omega⟩
  let hi : Fin 6 := ⟨2 * y.val + 1, by omega⟩
  obtain ⟨w, hrow, hwide, -⟩ := rowAt_stallSummary lo
  obtain ⟨t, ht, hregs, hstalls, hout⟩ := readWord32_stallSummary sec lo s
  obtain ⟨u, hu, huregs, hustalls, huout⟩ := readWord32_stallSummary sec hi t
  have hnext : R.YRD_STALL_SUMMARY (2 * y.val) + 4 = R.YRD_STALL_SUMMARY hi := by
    simp only [R.YRD_STALL_SUMMARY, hi]; omega
  have hread : readWord64 sec (R.YRD_STALL_SUMMARY (2 * y.val)) s =
      (stallSummary (2 * y.val) s + 2 ^ 32 * stallSummary (2 * y.val + 1) s, u) := by
    have ht' : readWord32 sec (R.YRD_STALL_SUMMARY (2 * y.val)) s = (stallSummary (2 * y.val) s, t) := ht
    rw [readWord64_narrow hrow hwide, ht', hnext, hu, stallSummary_congr hregs]
  have halign : ¬ (R.YRD_STALL_SUMMARY (2 * y.val) % 8 ≠ 0 ∨ (blockAt (R.YRD_STALL_SUMMARY (2 * y.val))).isNone = true) := by
    rw [blockAt_stallSummary lo, or_iff_left Bool.false_ne_true]
    simp only [R.YRD_STALL_SUMMARY]; omega
  have hclear : readClear sec (R.YRD_STALL_SUMMARY (2 * y.val)) true s =
      emit (.readReply (R.YRD_STALL_SUMMARY (2 * y.val))
        (stallSummary (2 * y.val) s + 2 ^ 32 * stallSummary (2 * y.val + 1) s) true) u := by
    rw [readClear, if_pos rfl, if_neg halign, if_pos hs, if_pos rfl, hread]
  have hfields := bits_sum_fields (w := 4) (fun i => stSt (16 * y.val + i) s) (fun _ => stSt_lt _ s) 16
  rw [← stallSummary_pair] at hfields
  refine ⟨_, congrArg Host.Outcome.next hclear, fun o => (huregs o).trans (hregs o), hustalls.trans hstalls, _, ?_,
    hfields.1, fun i => hfields.2 i i.isLt⟩
  rw [emit_out, huout, hout]

/-- Settles O42: a summary is the sum of its stalls' states, four bits apart, and a read changes nothing. -/
theorem stallSummaryRead : Obligations.StallSummaryRead :=
  ⟨fun _ _ _ hs => completes_summaryRead hs, fun _ _ _ hs => completes_summaryPairRead hs⟩

end Machine
end Sys2Proof

namespace Sys2Proof
namespace Machine

/-! ## The registers that an operation may write -/

/-- Of the registers only those of `W` may differ. -/
def OnlyWrites (W : Nat → Bool) (s t : State) : Prop := ∀ o, W o = false → rdN t o = rdN s o

namespace OnlyWrites

variable {W : Nat → Bool} {s t u : State}

theorem refl (s : State) : OnlyWrites W s s := fun _ _ => rfl

theorem trans (h : OnlyWrites W s t) (k : OnlyWrites W t u) : OnlyWrites W s u := fun o ho => (k o ho).trans (h o ho)

/-- What leaves the register file alone writes nothing. -/
theorem regs (h : OnlyWrites W s t) (hr : u.regs = t.regs) : OnlyWrites W s u :=
  h.trans fun o _ => by unfold rdN rd; rw [hr]

theorem wrN (h : OnlyWrites W s t) {o : Nat} (v : Nat) (ho : W o = true) : OnlyWrites W s (wrN t o v) :=
  h.trans fun o' ho' => rdN_wrN_other t v fun e => by rw [e, ho'] at ho; cases ho

theorem put (h : OnlyWrites W s t) {f : Fld} (v : Nat) (ho : W f.off = true) : OnlyWrites W s (put t f v) := h.wrN _ ho

theorem ite {c : Prop} [Decidable c] (h : OnlyWrites W s t) (k : OnlyWrites W s u) : OnlyWrites W s (if c then t else u) := by
  split <;> assumption

theorem foldl {β : Type} {f : State → β → State} (h : OnlyWrites W s t) (l : List β) (hf : ∀ u b, OnlyWrites W u (f u b)) :
    OnlyWrites W s (l.foldl f t) :=
  List.foldlRecOn _ _ h fun u hu b _ => hu.trans (hf u b)

theorem forAll {n : Nat} {f : Fin n → State → State} (h : OnlyWrites W s t) (hf : ∀ i u, OnlyWrites W u (f i u)) :
    OnlyWrites W s (forAll n f t) := h.foldl _ fun u i => hf i u

theorem raise (h : OnlyWrites W s t) {n : Nat} (hn : n < 512) (hW : ∀ o, eventReg o = true → W o = true) :
    OnlyWrites W s (raise n t) :=
  h.trans fun o ho => rdN_raise hn t (by
    cases he : eventReg o with
    | false => rfl
    | true => rw [hW o he] at ho; cases ho)

theorem raiseOnSet (h : OnlyWrites W s t) {f : Fld} {n : Nat} (hn : n < 512) (hf : W f.off = true)
    (hW : ∀ o, eventReg o = true → W o = true) : OnlyWrites W s (raiseOnSet f n t) :=
  ite h ((h.put 1 hf).raise hn hW)

theorem get_eq (h : OnlyWrites W s t) {f : Fld} (hf : W f.off = false) : get t f = get s f := by
  unfold Machine.get; rw [h _ hf]

theorem flag_eq (h : OnlyWrites W s t) {f : Fld} (hf : W f.off = false) : flag t f = flag s f := flag_eq_of_rdN (h _ hf)

end OnlyWrites

/-! ## Pending bits (R487) -/

/-- The registers that a raise may write behind the pending bit. -/
def behindPend (o : Nat) : Bool := eventReg o && !(decide (0x70010 ≤ o) && decide (o < 0x70050))

/-- A raise up to its pending bit. -/
def raisePend (n : Nat) (s : State) : State :=
  if flag s (pendBit n) then addSatF s (F.EVC_INFO_RAISES n) 1 else setF (addSatF s (F.EVC_INFO_RAISES n) 1) (pendBit n)

theorem behindPend_of_lt {o : Nat} (h : 0x19000 ≤ o ∧ o < 0x19008) : behindPend o = true := by
  unfold behindPend eventReg; simp; omega

theorem signalOut_behindPend (s : State) {v : Nat} (hv : v < 64) : OnlyWrites behindPend s (signalOut v s) :=
  .ite (.put (.refl s) 1 (behindPend_of_lt (by
    show 0x19000 ≤ 0x19000 + 4 * (v / 32) ∧ 0x19000 + 4 * (v / 32) < 0x19008
    omega))) (.regs (.refl s) rfl)

theorem signalVector_behindPend (s : State) {v : Nat} (hv : v < 64) : OnlyWrites behindPend s (signalVector v s) :=
  .ite (.refl s) (.trans (.regs (.refl s) rfl) (signalOut_behindPend _ hv))

theorem snapMiss_behindPend (s : State) :
    OnlyWrites behindPend s (lifeAdd (setF (addW s R.DGN_MISSED 1) F.DGN_FLAGS_MISSED) (lifeNo 20 1 0) 1) :=
  .regs (.put (.wrN (.refl s) _ (by decide)) 1 (by decide)) rfl

theorem snapTrigger_behindPend (x : SnapTrig) (s : State) : OnlyWrites behindPend s (snapTrigger x s) := by
  unfold snapTrigger
  refine .ite (snapMiss_behindPend s) ?_
  split
  · exact .regs (.refl s) rfl
  · exact .ite (.trans (.regs (.refl s) rfl) (snapMiss_behindPend _)) (snapMiss_behindPend s)

theorem recNew_behindPend (k n : Nat) (d : List Nat) (s : State) : OnlyWrites behindPend s (recNew k n d s) :=
  .ite (.regs (.refl s) rfl) (.wrN (.regs (.refl s) rfl) _ (by decide))

theorem recRaise_behindPend (n : Nat) (s : State) : OnlyWrites behindPend s (recRaise n s) := by
  unfold recRaise
  split
  · split
    · exact .ite (.regs (.refl s) rfl) (recNew_behindPend _ _ _ s)
    · exact recNew_behindPend _ _ _ s
  · exact recNew_behindPend _ _ _ s

theorem raise_behindPend {n : Nat} (hn : n < 512) (s : State) : OnlyWrites behindPend (raisePend n s) (raise n s) := by
  have hstamp : ∀ k, k = R.EVC_STAMP n ∨ k = R.EVC_STAMP n + 4 → behindPend k = true := fun k hk => by
    unfold behindPend eventReg; simp only [R.EVC_STAMP] at hk; simp; omega
  unfold raise
  extract_lets was s1 t s2 s3
  have h2 : OnlyWrites behindPend (raisePend n s) s2 := by
    unfold raisePend
    by_cases hw : was = true
    · rw [if_pos hw, show s2 = s1 from if_pos hw]
      exact .refl _
    · have ht : OnlyWrites behindPend (setF s1 (pendBit n)) t :=
        .wrN (.wrN (.refl _) s.now (hstamp _ (.inl rfl))) (s.now / 2 ^ 32) (hstamp _ (.inr rfl))
      rw [if_neg hw, show s2 = _ from if_neg hw]
      exact .ite (ht.trans (signalVector_behindPend _ (get_lt _ _))) ht
  have h3 : OnlyWrites behindPend (raisePend n s) s3 := .ite (h2.trans (snapTrigger_behindPend _ _)) h2
  exact .ite (h3.trans (recRaise_behindPend n _)) h3

theorem pendBit_kept {n : Nat} (hn : n < 512) : behindPend (pendBit n).off = false := by
  have hlo : 0x70010 ≤ (pendBit n).off := Nat.le_add_right _ _
  have hhi : (pendBit n).off < 0x70050 := by simp only [pendBit, R.EVC_PEND]; omega
  simp [behindPend, hlo, hhi]

theorem evcInfo_ne_pendBit (n : Nat) {m : Nat} (hm : m < 512) : (F.EVC_INFO_RAISES n).off ≠ (pendBit m).off := by
  simp only [F.EVC_INFO_RAISES, pendBit, R.EVC_INFO, R.EVC_PEND]; omega

theorem pendBit_fits (n : Nat) : (pendBit n).lo + (pendBit n).w ≤ 32 := Nat.mod_lt n (by decide)

theorem flag_addSatF_info (n k : Nat) {m : Nat} (hm : m < 512) (s : State) :
    flag (addSatF s (F.EVC_INFO_RAISES n) k) (pendBit m) = flag s (pendBit m) := by
  rw [flag, flag, addSatF, get_put_other _ _ _ _ (evcInfo_ne_pendBit n hm)]

/-- A raise leaves its source pending. -/
theorem flag_raise_same {n : Nat} (hn : n < 512) (s : State) : flag (raise n s) (pendBit n) = true := by
  rw [(raise_behindPend hn s).flag_eq (pendBit_kept hn)]
  unfold raisePend
  split
  next h => rw [flag_addSatF_info n 1 hn, h]
  · exact flag_setF_same _ _ (pendBit_fits n) rfl

/-- A raise leaves every pending source pending. -/
theorem flag_raise_of_flag {n m : Nat} (hn : n < 512) (hm : m < 512) {s : State} (h : flag s (pendBit m) = true) :
    flag (raise n s) (pendBit m) = true := by
  obtain rfl | hne := eq_or_ne n m
  · exact flag_raise_same hn s
  rw [(raise_behindPend hn s).flag_eq (pendBit_kept hm)]
  unfold raisePend
  split
  · rw [flag_addSatF_info n 1 hm, h]
  · have hother : get (setF (addSatF s (F.EVC_INFO_RAISES n) 1) (pendBit n)) (pendBit m) =
        get (addSatF s (F.EVC_INFO_RAISES n) 1) (pendBit m) := by
      by_cases hoff : (pendBit n).off = (pendBit m).off
      · refine get_put_disjoint _ _ _ _ (pendBit_fits n) ?_
        simp only [pendBit, R.EVC_PEND] at hoff ⊢
        omega
      · exact get_put_other _ _ _ _ hoff
    rw [flag, hother]
    exact (flag_addSatF_info n 1 hm s).trans h

end Machine
end Sys2Proof

namespace Sys2Proof
namespace Machine

namespace OnlyWrites

variable {W : Nat → Bool} {s t : State}

theorem lifeAdd (h : OnlyWrites W s t) (k n : Nat) : OnlyWrites W s (lifeAdd t k n) := h.regs rfl

theorem setStall (h : OnlyWrites W s t) (g : Fin 48) (f : Stall → Stall) : OnlyWrites W s (setStall g f t) := h.regs rfl

theorem setSeam (h : OnlyWrites W s t) (i : Fin 192) (f : Seam → Seam) : OnlyWrites W s (setSeam i f t) := h.regs rfl

end OnlyWrites

theorem stallBase_ge (g : Nat) : 0x200000 ≤ stallBase g := by unfold stallBase; omega

theorem eventReg_of_ge {o : Nat} (h : 0x100000 ≤ o) : eventReg o = false := by
  rw [eventReg, decide_eq_false_iff_not]; omega

/-! ## Entry to FAULT (R95) -/

/-- The registers that entry to FAULT may write once the STATE word stands: what the cut stroke counted, the run-ahead window, the
seams it leaves, and what a raise writes. -/
def faultEndReg (g o : Nat) : Bool :=
  eventReg o || [R.YRD_MSH_STATUS, R.YRD_MSH_FLAGS, R.STALL_TRJ_STATUS g, R.STALL_OUT_FLAGS g, R.STALL_CMP_LAST_A g,
    R.STALL_CMP_LAST_B g, R.STALL_CMP_FIRED g, R.STALL_CMP_FIRED g + 4].contains o

theorem gateCut_writes (W : Nat → Bool) (g : Fin 48) (s : State) : OnlyWrites W s (gateCut g s) := .setStall (.refl s) g _

theorem faultEndReg_of_event {g o : Nat} (h : eventReg o = true) : faultEndReg g o = true := by
  rw [faultEndReg, h, Bool.true_or]

theorem faultEndReg_of_mem {g o : Nat} (h : o ∈ [R.YRD_MSH_STATUS, R.YRD_MSH_FLAGS, R.STALL_TRJ_STATUS g, R.STALL_OUT_FLAGS g,
    R.STALL_CMP_LAST_A g, R.STALL_CMP_LAST_B g, R.STALL_CMP_FIRED g, R.STALL_CMP_FIRED g + 4]) : faultEndReg g o = true := by
  rw [faultEndReg, List.contains_iff_mem.2 h, Bool.or_true]

/-- Another register of the stall is none of them. -/
theorem faultEndReg_stall (g : Nat) {k : Nat} (h : k ∉ [0x140, 0x218, 0x220, 0x224, 0x230, 0x234]) :
    faultEndReg g (stallBase g + k) = false := by
  have hb := stallBase_ge g
  simp only [List.mem_cons, List.not_mem_nil, or_false, not_or] at h
  rw [faultEndReg, eventReg_of_ge (by omega), Bool.false_or, List.contains_eq_mem, decide_eq_false_iff_not]
  simp only [List.mem_cons, List.not_mem_nil, or_false, R.YRD_MSH_STATUS, R.YRD_MSH_FLAGS, R.STALL_TRJ_STATUS,
    R.STALL_OUT_FLAGS, R.STALL_CMP_LAST_A, R.STALL_CMP_LAST_B, R.STALL_CMP_FIRED]
  omega

theorem stallEv_lt (g : Fin 48) {k : Nat} (hk : k < 4) : stallEv g k < 512 := by unfold stallEv; omega

theorem stableEv_lt (g : Fin 48) {k : Nat} (hk : k < 8) : stableEv (g / 8) k < 512 := by unfold stableEv; omega

theorem outFlag_faultEnd (g : Fin 48) {f : Fld} (hf : f.off = R.STALL_OUT_FLAGS g) (s : State) :
    OnlyWrites (faultEndReg g) s (outFlag f g s) :=
  .raiseOnSet (.refl s) (stallEv_lt g (by decide)) (by rw [hf]; exact faultEndReg_of_mem (by simp)) fun _ => faultEndReg_of_event

theorem writeArm_faultEnd (g : Fin 48) (a : Arm) (s : State) : OnlyWrites (faultEndReg g) s (writeArm g a s) := by
  have hflag : ∀ (c : Prop) [Decidable c] {f : Fld} {t : State}, f.off = R.STALL_OUT_FLAGS g → OnlyWrites (faultEndReg g) s t →
      OnlyWrites (faultEndReg g) s (if c then outFlag f g t else t) :=
    fun c _ f t hf ht => .ite (ht.trans (outFlag_faultEnd g hf t)) ht
  unfold writeArm
  extract_lets s1 s2 s3 s4 s5 s6
  have h1 : OnlyWrites (faultEndReg g) s s1 := .wrN (.refl s) _ (faultEndReg_of_mem (by simp))
  have h2 : OnlyWrites (faultEndReg g) s s2 := h1.wrN _ (faultEndReg_of_mem (by simp))
  have h3 : OnlyWrites (faultEndReg g) s s3 :=
    .lifeAdd (.wrN (.wrN h2 _ (faultEndReg_of_mem (by simp))) _ (faultEndReg_of_mem (by simp))) _ _
  exact hflag _ rfl (hflag _ rfl (hflag _ rfl (hflag _ rfl h3)))

theorem writeCutArm_faultEnd (g : Fin 48) (s : State) : OnlyWrites (faultEndReg g) s (writeCutArm g s) := by
  unfold writeCutArm
  extract_lets x cut s1
  have h1 : OnlyWrites (faultEndReg g) s s1 := .setStall (.refl s) g _
  clear_value cut s1
  cases cut with
  | some a => exact h1.trans (writeArm_faultEnd g _ s1)
  | none => exact h1

theorem showWindow_faultEnd (g : Fin 48) (s : State) : OnlyWrites (faultEndReg g) s (showWindow g s) :=
  fun _ ho => rdN_showWindow g s fun e => by rw [← e, faultEndReg_of_mem (by simp)] at ho; cases ho

theorem orphanSeam_faultEnd (g : Nat) (i : Fin 192) (s : State) : OnlyWrites (faultEndReg g) s (orphanSeam i s) :=
  .raise (.put (.lifeAdd (.put (.setSeam (.refl s) i _) _ (faultEndReg_of_mem (by simp [F.YRD_MSH_STATUS_SEAMS_OPEN]))) _ _) 1
    (faultEndReg_of_mem (by simp [F.YRD_MSH_FLAGS_SEAM_ORPHANED]))) (by decide) fun _ => faultEndReg_of_event

theorem seamLoss_faultEnd (g : Nat) (abort : Bool) (s : State) : OnlyWrites (faultEndReg g) s (seamLoss g abort s) :=
  .forAll (.refl s) fun i u => .ite (.ite (.refl u) (.ite (.regs (.refl u) rfl) (orphanSeam_faultEnd g i u)))
    (.ite (.setSeam (.refl u) i _) (.refl u))

@[simp] theorem rdN_tellStall (g : Nat) (ops : List Nat) (st : Nat) (a b : Option Nat) (s : State) (o : Nat) :
    rdN (tellStall g ops st a b s) o = rdN s o :=
  List.foldlRecOn (motive := fun t => rdN t o = rdN s o) _ _ rfl fun t ht c _ =>
    List.foldlRecOn (motive := fun t => rdN t o = rdN s o) _ _ ht fun u hu q _ => by rw [rdN_complete, hu]

/-- The STATE word of a stall that has entered FAULT. -/
def faultState (g cause : Nat) (s : State) : State :=
  clrF (clrF (clrF (clrF (put (enterState g ssFAULT s) (F.STALL_STATE_FAULT_CAUSE g) cause) (F.STALL_STATE_HOLD_CAUSE g))
    (F.STALL_STATE_HOLD_PENDING g)) (F.STALL_STATE_ABORTING g)) (F.STALL_STATE_IN_STROKE g)

theorem enterFault_faultEnd (g : Fin 48) (cause : Nat) (s : State) :
    OnlyWrites (faultEndReg g) (faultState g cause s) (enterFault g cause s) := by
  unfold enterFault
  dsimp only
  refine .trans ?_ fun o _ => rdN_tellStall _ _ _ _ _ _ o
  refine .trans (.raise ?_ (stallEv_lt g (by decide)) fun _ => faultEndReg_of_event) (seamLoss_faultEnd g false _)
  exact .trans (.trans (.trans (.setStall (.refl _) g _) (gateCut_writes _ g _)) (writeCutArm_faultEnd g _))
    (showWindow_faultEnd g _)

theorem faultState_fields (g cause : Nat) (s : State) :
    stSt g (faultState g cause s) = ssFAULT ∧ get (faultState g cause s) (F.STALL_STATE_FAULT_CAUSE g) = cause % 2 ^ 8 ∧
      get (faultState g cause s) (F.STALL_STATE_HOLD_CAUSE g) = 0 ∧
      get (faultState g cause s) (F.STALL_STATE_HOLD_PENDING g) = 0 := by
  simp [faultState, enterState, stSt, ssFAULT, clrF, F.STALL_STATE_STATE, F.STALL_STATE_RETURN_STATE, F.STALL_STATE_FAULT_CAUSE,
    F.STALL_STATE_HOLD_CAUSE, F.STALL_STATE_HOLD_PENDING, F.STALL_STATE_ABORTING, F.STALL_STATE_IN_STROKE, get_put_same,
    get_put_disjoint]

/-- A stall that has entered FAULT shows the cause, no hold cause and no hold pending. -/
theorem enterFault_fields (g : Fin 48) {cause : Nat} (hc : cause < 2 ^ 8) (s : State) :
    stSt g (enterFault g cause s) = ssFAULT ∧ get (enterFault g cause s) (F.STALL_STATE_FAULT_CAUSE g) = cause ∧
      get (enterFault g cause s) (F.STALL_STATE_HOLD_CAUSE g) = 0 ∧
      flag (enterFault g cause s) (F.STALL_STATE_HOLD_PENDING g) = false := by
  have hkept : faultEndReg g (R.STALL_STATE g) = false := faultEndReg_stall g (by decide)
  have h := enterFault_faultEnd g cause s
  obtain ⟨hst, hcause, hhold, hpend⟩ := faultState_fields g cause s
  refine ⟨(h.get_eq hkept).trans hst, ((h.get_eq hkept).trans hcause).trans (Nat.mod_eq_of_lt hc),
    (h.get_eq hkept).trans hhold, ?_⟩
  rw [h.flag_eq hkept, flag, hpend]
  rfl

/-- Entry to FAULT keeps the stall's other registers. -/
theorem rdN_enterFault (g : Fin 48) (cause : Nat) (s : State) {k : Nat}
    (hk : k ∉ [0x140, 0x218, 0x220, 0x224, 0x230, 0x234]) (h8 : 0x8 ≠ k) :
    rdN (enterFault g cause s) (stallBase g + k) = rdN s (stallBase g + k) := by
  have hstate : ∀ {f : Fld} (u : State) (v : Nat), f.off = R.STALL_STATE g →
      rdN (put u f v) (stallBase g + k) = rdN u (stallBase g + k) :=
    fun u v hf => rdN_put_other _ _ _ (by rw [hf]; exact stallReg_ne g h8)
  rw [enterFault_faultEnd g cause s _ (faultEndReg_stall g hk), faultState, clrF, hstate _ _ rfl, clrF, hstate _ _ rfl, clrF,
    hstate _ _ rfl, clrF, hstate _ _ rfl, hstate _ _ rfl, enterState, hstate _ _ rfl, hstate _ _ rfl]

/-! ## The events that put a stall into FAULT -/

theorem emptyFor_program {g : Fin 48} {s : State} (h : emptyFor g 2 s = true) :
    1 ≤ (stall s g).seq.stop ∧ (stall s g).seq.stop ≤ 6 := by
  have hwhy : emptyWhy g s = 2 := by
    simp only [emptyFor, Bool.and_eq_true, beq_iff_eq] at h
    exact h.2
  by_contra hstop
  unfold emptyWhy at hwhy
  dsimp only at hwhy
  rw [if_neg hstop] at hwhy
  split_ifs at hwhy
  all_goals exact absurd hwhy (by decide)

theorem completes_mvUnderrun {g : Fin 48} {s : State} (h : emptyFor g 0 s = true) :
    Completes (.mvUnderrun g) s fun t => stSt g t = ssFAULT ∧ get t (F.STALL_STATE_FAULT_CAUSE g) = 1 ∧
      get t (F.STALL_STATE_HOLD_CAUSE g) = 0 ∧ flag t (F.STALL_STATE_HOLD_PENDING g) = false :=
  ⟨_, congrArg Host.Outcome.next (if_pos h), enterFault_fields g (by decide) s⟩

theorem completes_programError {g : Fin 48} {s : State} (h : emptyFor g 2 s = true) (hop : (stall s g).seq.errOp < 256)
    (hoff : (stall s g).seq.errOff < 2 ^ 32) :
    Completes (.programError g) s fun t => stSt g t = ssFAULT ∧ get t (F.STALL_STATE_FAULT_CAUSE g) = 3 ∧
      rdN t (R.STALL_PROG_ERR g) = (stall s g).seq.stop + 2 ^ 8 * (stall s g).seq.errOp ∧
      rdN t (R.STALL_PROG_ERR_OFFSET g) = (stall s g).seq.errOff := by
  have hstop := emptyFor_program h
  refine ⟨_, congrArg Host.Outcome.next (if_pos h), ?_⟩
  extract_lets q s1
  have hev (k : Nat) : eventReg (stallBase g + k) = false := eventReg_of_ge (by have := stallBase_ge g; omega)
  have hraise (k : Nat) (u : State) : rdN (raise (stallEv g 2) u) (stallBase g + k) = rdN u (stallBase g + k) :=
    rdN_raise (stallEv_lt g (by decide)) u (hev k)
  generalize hu : lifeAdd s1 (lifeNo 3 3 (16 * g + q.stop)) 1 = u
  obtain ⟨hst, hcause, -⟩ := enterFault_fields g (cause := 3) (by decide) u
  refine ⟨(get_raise (stallEv_lt g (by decide)) _ (hev 0x8)).trans hst,
    (get_raise (stallEv_lt g (by decide)) _ (hev 0x8)).trans hcause, ?_, ?_⟩
  · refine (hraise 0x28 _).trans ((rdN_enterFault g 3 u (by decide) (by decide)).trans ?_)
    rw [← hu, rdN_lifeAdd]
    exact (rdN_wrN_other _ _ (stallReg_ne g (by decide))).trans
      ((rdN_wrN_same _ _ _).trans (Nat.mod_eq_of_lt (by simp only [q]; omega)))
  · refine (hraise 0x2C _).trans ((rdN_enterFault g 3 u (by decide) (by decide)).trans ?_)
    rw [← hu, rdN_lifeAdd]
    exact (rdN_wrN_same _ _ _).trans (Nat.mod_eq_of_lt hoff)

theorem completes_syncMismatch {g : Fin 48} {s : State} (hst : stSt g s = ssSYNC) (hbad : (stall s g).syncBad = true) :
    Completes (.syncMismatch g) s fun t => stSt g t = ssFAULT ∧ get t (F.STALL_STATE_FAULT_CAUSE g) = 9 := by
  obtain ⟨hfault, hcause, -⟩ := enterFault_fields g (cause := 9) (by decide) s
  exact ⟨_, congrArg Host.Outcome.next (if_pos ⟨hst, hbad⟩), hfault, hcause⟩

theorem completes_strokeTimeout {g : Fin 48} {s : State} (hst : stSt g s = ssRUN) (htold : (stall s g).strokeTold = false)
    (hlate : strokeLimit g s < rdN s (R.STALL_STROKE_ELAPSED g)) :
    Completes (.strokeTimeout g) s fun t =>
      if flag s (F.STALL_CTRL_STROKE_TIMEOUT_FAULT g) then stSt g t = ssFAULT ∧ get t (F.STALL_STATE_FAULT_CAUSE g) = 2
      else stSt g t = ssRUN ∧ flag t (F.STALL_FLAGS_STROKE_LATE g) = true := by
  refine ⟨_, congrArg Host.Outcome.next (if_pos ⟨hst, by rw [htold]; exact Bool.false_ne_true, hlate⟩), ?_⟩
  extract_lets s1
  by_cases hf : flag s (F.STALL_CTRL_STROKE_TIMEOUT_FAULT g) = true
  · obtain ⟨hfault, hcause, -⟩ := enterFault_fields g (cause := 2) (by decide) s1
    rw [if_pos hf, if_pos hf]
    exact ⟨hfault, hcause⟩
  · have hev : eventReg (R.STALL_STATE g) = false := eventReg_of_ge (by have := stallBase_ge g; simp only [R.STALL_STATE]; omega)
    beta_reduce
    rw [if_neg hf, if_neg hf]
    refine ⟨?_, flag_setF_same _ _ (Nat.le_of_ble_eq_true rfl) rfl⟩
    exact (get_put_other _ _ _ _ (stallReg_ne g (by decide))).trans ((get_raise (stallEv_lt g (by decide)) _ hev).trans hst)

/-- A TRAJECTORY fault shows its detail (R139). -/
theorem trajFault_fields (g : Fin 48) (d : Nat) (s : State) :
    stSt g (trajFault g d s) = ssFAULT ∧ get (trajFault g d s) (F.STALL_STATE_FAULT_CAUSE g) = 6 ∧
      rdN (trajFault g d s) (R.STALL_TRJ_FAULT g) = d % 2 ^ 32 := by
  have hev (k : Nat) : eventReg (stallBase g + k) = false := eventReg_of_ge (by have := stallBase_ge g; omega)
  unfold trajFault
  generalize hu : lifeAdd (wrN s (R.STALL_TRJ_FAULT g) d) (lifeNo 4 3 (16 * g + d)) 1 = u
  obtain ⟨hst, hcause, -⟩ := enterFault_fields g (cause := 6) (by decide) u
  refine ⟨(get_raise (stableEv_lt g (by decide)) _ (hev 0x8)).trans hst,
    (get_raise (stableEv_lt g (by decide)) _ (hev 0x8)).trans hcause,
    (rdN_raise (stableEv_lt g (by decide)) _ (hev 0x144)).trans ((rdN_enterFault g 6 u (by decide) (by decide)).trans ?_)⟩
  rw [← hu, rdN_lifeAdd]
  exact rdN_wrN_same _ _ _

/-- A plan that failed on an unreadable compare table is an OUTPUT fault with its detail (R153). -/
theorem tableFault_fields (g : Fin 48) (s : State) :
    stSt g (raise (stableEv (g / 8) 6) (enterFault g 7 (wrN s (R.STALL_OUT_FAULT g) 3))) = ssFAULT ∧
      get (raise (stableEv (g / 8) 6) (enterFault g 7 (wrN s (R.STALL_OUT_FAULT g) 3))) (F.STALL_STATE_FAULT_CAUSE g) = 7 ∧
      rdN (raise (stableEv (g / 8) 6) (enterFault g 7 (wrN s (R.STALL_OUT_FAULT g) 3))) (R.STALL_OUT_FAULT g) = 3 := by
  have hev (k : Nat) : eventReg (stallBase g + k) = false := eventReg_of_ge (by have := stallBase_ge g; omega)
  obtain ⟨hst, hcause, -⟩ := enterFault_fields g (cause := 7) (by decide) (wrN s (R.STALL_OUT_FAULT g) 3)
  exact ⟨(get_raise (stableEv_lt g (by decide)) _ (hev 0x8)).trans hst,
    (get_raise (stableEv_lt g (by decide)) _ (hev 0x8)).trans hcause,
    (rdN_raise (stableEv_lt g (by decide)) _ (hev 0x21C)).trans
      ((rdN_enterFault g 7 _ (by decide) (by decide)).trans (rdN_wrN_same _ _ _))⟩

theorem completes_trajectoryFault {g : Fin 48} {s : State} (d : Nat) {k : Nat} (h : emptyFor g 5 s = true)
    (hk : k = if (stall s g).engFault ≠ 0 then (stall s g).engFault else (stall s g).plan.fault) :
    Completes (.trajectoryFault g d) s fun t => stSt g t = ssFAULT ∧
      if (stall s g).engFault = 0 ∧ k = 0x83 then get t (F.STALL_STATE_FAULT_CAUSE g) = 7 ∧ rdN t (R.STALL_OUT_FAULT g) = 3
      else get t (F.STALL_STATE_FAULT_CAUSE g) = 6 ∧ rdN t (R.STALL_TRJ_FAULT g) = k % 2 ^ 32 := by
  refine ⟨_, congrArg Host.Outcome.next (if_pos h), ?_⟩
  by_cases he : (stall s g).engFault = 0
  · rw [if_neg (not_not.2 he)] at hk ⊢
    by_cases hp : (stall s g).plan.fault = 0x83
    · rw [if_pos hp, if_pos ⟨he, hk.trans hp⟩]
      exact tableFault_fields g s
    · rw [if_neg hp, if_neg fun hc => hp (hk.symm.trans hc.2), hk]
      exact trajFault_fields g _ s
  · rw [if_pos he] at hk ⊢
    rw [if_neg fun hc => he hc.1, hk]
    exact trajFault_fields g _ s

/-- Settles O25: each event is an entry to FAULT, whose fields `enterFault_fields` gives. -/
theorem stallEntersFault : Obligations.StallEntersFault :=
  ⟨fun _ _ h => completes_mvUnderrun h, fun _ _ h hop hoff => completes_programError h hop hoff,
    fun _ _ hst hbad => completes_syncMismatch hst hbad, fun _ _ hst htold hlate => completes_strokeTimeout hst htold hlate,
    fun _ _ d _ h hk => completes_trajectoryFault d h hk⟩

end Machine
end Sys2Proof

namespace Sys2Proof
namespace Machine

/-! ## The layer barrier (R24, R187) -/

/-- What a run over all indices does at an index and keeps at every other one holds of every index at its end. -/
theorem forAll_reaches {α : Type} {n : Nat} (P : Fin n → α → Prop) {f : Fin n → α → α} (hdo : ∀ i y, P i (f i y))
    (hkeep : ∀ i j y, P j y → P j (f i y)) (x : α) (j : Fin n) : P j (forAll n f x) := by
  obtain ⟨before, after, h⟩ := List.append_of_mem (List.mem_finRange j)
  rw [forAll, fins, h, List.foldl_append, List.foldl_cons]
  exact List.foldlRecOn after _ (hdo j _) fun y hy i _ => hkeep i j y hy

/-- The visit of one seam entry by the layer barrier. -/
def flushSeam (i : Fin 192) (s : State) : State :=
  if (seam s i).st = 0 then s
  else if (seam s i).xReg ∧ ¬ (seam s i).oReg then
    raise 74 (lifeAdd (setF (freeSeam i s) F.YRD_MSH_FLAGS_SEAM_UNPAIRED) (lifeNo 6 8 0) 1)
  else freeSeam i s

theorem flushSeams_eq (s : State) : flushSeams s = forAll 192 flushSeam s := rfl

theorem seam_freeSeam (i j : Fin 192) (s : State) :
    seam (freeSeam i s) j = if i = j then ⟨0, 0, 0, 0, false, false, 0, 0⟩ else seam s j := by
  show (vmod s.seams i _)[j.val] = _
  rw [vmod, Vector.getElem_set]
  simp only [Fin.val_inj]
  rfl

/-- A visit frees the entry or leaves it free, and keeps every other one. -/
theorem seam_flushSeam (i : Fin 192) (s : State) :
    (seam (flushSeam i s) i).st = 0 ∧ ∀ j, i ≠ j → seam (flushSeam i s) j = seam s j := by
  have hfree : (seam (freeSeam i s) i).st = 0 ∧ ∀ j, i ≠ j → seam (freeSeam i s) j = seam s j :=
    ⟨by rw [seam_freeSeam, if_pos rfl], fun j hj => by rw [seam_freeSeam, if_neg hj]⟩
  unfold flushSeam
  split_ifs with h0 hx
  · exact ⟨h0, fun _ _ => rfl⟩
  · simp only [seam, raise_seams]
    exact hfree
  · exact hfree

/-- The layer barrier leaves no entry of the seam table in use. -/
theorem seam_flushSeams (s : State) (j : Fin 192) : (seam (flushSeams s) j).st = 0 :=
  forAll_reaches (fun j t => (seam t j).st = 0) (fun i t => (seam_flushSeam i t).1)
    (fun i j t ht => by
      obtain rfl | hj := eq_or_ne i j
      · exact (seam_flushSeam i t).1
      · rw [(seam_flushSeam i t).2 j hj, ht]) s j

/-- The registers that freeing the seam table may write. -/
def flushReg (o : Nat) : Bool := eventReg o || o == R.YRD_MSH_STATUS || o == R.YRD_MSH_FLAGS

theorem flushSeam_writes (i : Fin 192) (s : State) : OnlyWrites flushReg s (flushSeam i s) := by
  have hfree : OnlyWrites flushReg s (freeSeam i s) := .put (.setSeam (.refl s) i _) _ (by decide)
  have hevent : ∀ o, eventReg o = true → flushReg o = true := fun o ho => by rw [flushReg, ho]; rfl
  exact .ite (.refl s) (.ite (.raise (.lifeAdd (.put hfree 1 (by decide)) _ _) (by decide) hevent) hfree)

theorem flushSeams_writes (s : State) : OnlyWrites flushReg s (flushSeams s) := .forAll (.refl s) flushSeam_writes

/-- A field of the yard's registers shares no word with a pending bit. -/
theorem flag_pendBit_put {f : Fld} (hf : f.off < 0x70000) (m v : Nat) (s : State) :
    flag (put s f v) (pendBit m) = flag s (pendBit m) := by
  rw [flag, flag, get_put_other _ _ _ _ (by simp only [pendBit, R.EVC_PEND]; omega)]

theorem flag_pendBit_freeSeam (i : Fin 192) (m : Nat) (s : State) :
    flag (freeSeam i s) (pendBit m) = flag s (pendBit m) := flag_pendBit_put (by decide) m _ _

/-- Freeing the seam table leaves every pending source pending. -/
theorem flag_flushSeams {m : Nat} (hm : m < 512) {s : State} (h : flag s (pendBit m) = true) :
    flag (flushSeams s) (pendBit m) = true := by
  refine forAll_keeps (fun t => flag t (pendBit m) = true) flushSeam h fun i t ht => ?_
  have hfree : flag (freeSeam i t) (pendBit m) = true := (flag_pendBit_freeSeam i m t).trans ht
  unfold flushSeam
  split_ifs
  · exact ht
  · refine flag_raise_of_flag (by decide) hm ?_
    rw [flag, get_lifeAdd]
    exact (flag_pendBit_put (f := F.YRD_MSH_FLAGS_SEAM_UNPAIRED) (by decide) m 1 _).trans hfree
  · exact hfree

/-- The layer counted and BARRIER set, with the layer deadline timer stopped. -/
def barrierShown (s : State) : State :=
  let s1 := { layerTimerStop s with barrierDue := false, layerMv := 0 }
  setF (put s1 F.YRD_LAYER_STATUS_LAYER (get s1 F.YRD_LAYER_STATUS_LAYER + 1)) F.YRD_LAYER_STATUS_BARRIER

theorem layerBarrierReached_of_complete {s : State} (hdue : s.barrierDue = true) (hall : barrierComplete s = true) :
    layerBarrierReached s = barrierMarks (flushSeams (raise 78 (lifeAdd (barrierShown s) (lifeNo 1 0 0) 1))) :=
  if_neg (by simp [hdue, hall])

theorem layerTimerStop_writes (s : State) : OnlyWrites (· == R.YRD_LAYER_DEADLINE_STATUS) s (layerTimerStop s) := by
  unfold layerTimerStop
  extract_lets ms
  have helapsed := (OnlyWrites.refl (W := (· == R.YRD_LAYER_DEADLINE_STATUS)) s).put
    (f := F.YRD_LAYER_DEADLINE_STATUS_ELAPSED_MS) (satN 0xFFFFFF ms) rfl
  exact (helapsed.put (f := F.YRD_LAYER_DEADLINE_STATUS_RUNNING) 0 rfl).regs rfl

theorem barrierShown_fields (s : State) :
    get (barrierShown s) F.YRD_LAYER_STATUS_LAYER = (get s F.YRD_LAYER_STATUS_LAYER + 1) % 2 ^ 24 ∧
      flag (barrierShown s) F.YRD_LAYER_STATUS_BARRIER = true := by
  unfold barrierShown
  extract_lets _ s1
  have hlayer : get s1 F.YRD_LAYER_STATUS_LAYER = get s F.YRD_LAYER_STATUS_LAYER :=
    ((layerTimerStop_writes s).regs rfl).get_eq (by decide)
  refine ⟨?_, flag_setF_same _ _ (by decide) rfl⟩
  rw [setF, get_put_disjoint _ _ _ _ (by decide) (by decide), get_put_same _ _ _ (by decide), hlayer]
  rfl

theorem lifeAdd_barrierDue (s : State) (k n : Nat) : (lifeAdd s k n).barrierDue = s.barrierDue := rfl

theorem barrierShown_barrierDue (s : State) : (barrierShown s).barrierDue = false := rfl

theorem barrierMarks_barrierDue (s : State) : (barrierMarks s).barrierDue = s.barrierDue := rfl

theorem seam_barrierMarks (s : State) (i : Fin 192) : seam (barrierMarks s) i = seam s i := rfl

theorem rdN_barrierMarks (s : State) (o : Nat) : rdN (barrierMarks s) o = rdN s o := rfl

theorem flushSeams_barrierDue (s : State) : (flushSeams s).barrierDue = s.barrierDue := by
  refine forAll_keeps (fun t : State => t.barrierDue = s.barrierDue) flushSeam rfl fun i t ht => ?_
  have hfree : (freeSeam i t).barrierDue = s.barrierDue := ht
  unfold flushSeam
  split_ifs
  · exact ht
  · rw [raise_barrierDue, lifeAdd_barrierDue]; exact hfree
  · exact hfree

/-- A complete barrier counts the layer, sets BARRIER and frees the seam table. -/
theorem completes_barrier {s : State} (hdue : s.barrierDue = true) (hall : barrierComplete s = true) :
    Completes .layerBarrierReached s fun t => get t F.YRD_LAYER_STATUS_LAYER = (get s F.YRD_LAYER_STATUS_LAYER + 1) % 2 ^ 24 ∧
      flag t F.YRD_LAYER_STATUS_BARRIER = true ∧ flag t (pendBit 78) = true ∧ t.barrierDue = false ∧
      (∀ i : Fin 192, (seam t i).st = 0) ∧ t.stalls = s.stalls := by
  refine ⟨_, congrArg Host.Outcome.next (layerBarrierReached_of_complete hdue hall), ?_⟩
  have hstalls : (layerBarrierReached s).stalls = s.stalls :=
    (layerBarrierReached_evolves (pm := fun p => p == .seams || p == .txns) rfl rfl .refl).stalls_eq rfl rfl
  rw [layerBarrierReached_of_complete hdue hall] at hstalls
  obtain ⟨hlayer, hbarrier⟩ := barrierShown_fields s
  generalize hu : raise 78 (lifeAdd (barrierShown s) (lifeNo 1 0 0) 1) = u at hstalls ⊢
  have hwrites : OnlyWrites flushReg (barrierShown s) (flushSeams u) := by
    rw [← hu]
    exact .trans (.raise (.lifeAdd (.refl _) _ _) (by decide) fun o ho => by rw [flushReg, ho]; rfl) (flushSeams_writes _)
  have hpend : flag (flushSeams u) (pendBit 78) = true :=
    flag_flushSeams (by decide) (by rw [← hu]; exact flag_raise_same (by decide) _)
  have hdue : (flushSeams u).barrierDue = false := by
    rw [flushSeams_barrierDue, ← hu, raise_barrierDue, lifeAdd_barrierDue]
    exact barrierShown_barrierDue s
  have hseams := seam_flushSeams u
  generalize flushSeams u = t at hwrites hpend hdue hseams hstalls ⊢
  have hmarks : OnlyWrites flushReg (barrierShown s) (barrierMarks t) := hwrites.trans fun o _ => rdN_barrierMarks t o
  exact ⟨(hmarks.get_eq (f := F.YRD_LAYER_STATUS_LAYER) rfl).trans hlayer,
    (hmarks.flag_eq (f := F.YRD_LAYER_STATUS_BARRIER) rfl).trans hbarrier,
    (flag_eq_of_rdN (rdN_barrierMarks t _)).trans hpend, (barrierMarks_barrierDue t).trans hdue,
    fun i => by rw [seam_barrierMarks, hseams], hstalls⟩

theorem completes_layerSetWrite {sec : Bool} {s : State} (v : BitVec 64) (h : accessOk sec R.YRD_LAYER_SET s = true) :
    Completes (.layerSetWrite sec (.both v)) s fun t => rd64 t R.YRD_LAYER_SET = v.toNat % 2 ^ 48 ∧ t.layerSet = s.layerSet :=
  ⟨_, congrArg Host.Outcome.next (if_pos h),
    (rd64_wr64_same _ _ _).trans (Nat.mod_eq_of_lt (Nat.lt_trans (Nat.mod_lt _ (by decide)) (by decide))), rfl⟩

/-- Settles O10: the seam table is freed entry by entry, and what is written before it stands. -/
theorem layerBarrier : Obligations.LayerBarrier :=
  ⟨fun _ v _ h => completes_layerSetWrite v h,
    fun _ _ hall => congrArg Host.Outcome.next (if_pos (.inr (by rw [hall]; exact Bool.false_ne_true))),
    fun _ hdue hall => completes_barrier hdue hall⟩

end Machine
end Sys2Proof

namespace Sys2Proof
namespace Machine

/-! ## What follows a change of the yard's configuration leaves the yard's registers

A new period, map or enable mask reaches the links, the servo loops, the stalls and the clock gates. Their registers lie above the
yard's. -/

/-- The registers outside the yard's 128 KiB. -/
def besideYard (o : Nat) : Bool := !(decide (0x20000 ≤ o) && decide (o < 0x40000))

theorem besideYard_of_ge {o : Nat} (h : 0x40000 ≤ o) : besideYard o = true := by simp [besideYard, h]

theorem besideYard_of_event (o : Nat) (h : eventReg o = true) : besideYard o = true := by
  simp only [eventReg, decide_eq_true_eq] at h
  simp [besideYard]
  omega

theorem besideYard_yard {o : Nat} (h : 0x20000 ≤ o) (h' : o < 0x40000) : besideYard o = false := by simp [besideYard, h, h']

theorem besideYard_stall (g k : Nat) : besideYard (stallBase g + k) = true :=
  besideYard_of_ge (by have := stallBase_ge g; omega)

theorem besideYard_cle (st a b : Nat) : besideYard (cleBase st + a + b) = true :=
  besideYard_of_ge (by unfold cleBase; omega)

theorem besideYard_lnk (b k : Nat) : besideYard (lnkBase b + k) = true := besideYard_of_ge (by unfold lnkBase; omega)

namespace OnlyWrites

variable {W : Nat → Bool} {s t : State}

theorem setSrv (h : OnlyWrites W s t) (g : Fin 48) (f : Srv → Srv) : OnlyWrites W s (setSrv g f t) := h.regs rfl

theorem setBay (h : OnlyWrites W s t) (b : Fin 12) (f : Bay → Bay) : OnlyWrites W s (setBay b f t) := h.regs rfl

theorem emit (h : OnlyWrites W s t) (x : Out) : OnlyWrites W s (emit x t) := h.regs rfl

theorem draw (h : OnlyWrites W s t) (tag : Nat) : OnlyWrites W s (draw tag t).2 := h.regs rfl

theorem faultNext (h : OnlyWrites W s t) (g : Fin 48) (c : Nat) : OnlyWrites W s (faultNext g c t) := h.setStall g _

end OnlyWrites

theorem showWait_besideYard (g : Nat) (s : State) : OnlyWrites besideYard s (showWait g s) :=
  .put (.refl s) _ (besideYard_stall g 8)

theorem showHead_besideYard (g : Fin 48) (s : State) : OnlyWrites besideYard s (showHead g s) := by
  have hput : ∀ {f : Fld} (u : State) (v : Nat), f.off = R.SRV_STATE g → OnlyWrites besideYard u (put u f v) :=
    fun u v hf => .put (.refl u) v (by rw [hf]; exact besideYard_cle _ _ _)
  unfold showHead
  extract_lets bare s1 s2
  have h1 : OnlyWrites besideYard s s1 := hput s _ rfl
  have h2 : OnlyWrites besideYard s s2 := .ite (.ite (h1.trans (hput s1 1 rfl)) h1) (h1.trans (hput s1 0 rfl))
  exact .ite (h2.setSrv g _) h2

theorem showHeads_besideYard (s : State) : OnlyWrites besideYard s (showHeads s) :=
  .forAll (.refl s) fun g u => (showHead_besideYard g u).trans (showWait_besideYard g _)

/-! ### Servo loops (R216, R218) -/

theorem srvCmdDone_besideYard (g : Fin 48) (s : State) : OnlyWrites besideYard s (srvCmdDone g s) := by
  unfold srvCmdDone
  extract_lets st s1
  have h1 : OnlyWrites besideYard s s1 := .regs (.refl s) rfl
  clear_value s1
  split
  · exact .ite (.ite (h1.put 0 (besideYard_of_ge (by
      simp only [F.CLE_SERVO_CMD_STATUS_RESULT, R.CLE_SERVO_CMD_STATUS, cleBase]; omega))) h1) (.refl s)
  · exact .refl s

theorem countServo_besideYard (g : Fin 48) (d a : Nat) (s : State) : OnlyWrites besideYard s (countServo g d a s) :=
  .foldl (.refl s) _ fun u _ => .lifeAdd (.refl u) _ _

theorem servoFault_besideYard (g : Fin 48) (d a : Nat) (s : State) : OnlyWrites besideYard s (servoFault g d a s) := by
  have hreg : besideYard (R.SRV_STATE g) = true := besideYard_cle _ _ _
  unfold servoFault
  extract_lets s1 s2 s3
  have h1 : OnlyWrites besideYard s s1 := .put (.put (.refl s) d hreg) a hreg
  have h2 : OnlyWrites besideYard s s2 :=
    .raise (h1.trans (countServo_besideYard g d a s1)) (stableEv_lt g (by decide)) besideYard_of_event
  have h3 : OnlyWrites besideYard s s3 :=
    .ite h2 (.trans (.setSrv (.ite (h2.put 0 hreg) (.ite (h2.put 4 hreg) h2)) g _) (srvCmdDone_besideYard g _))
  exact .ite h3 (h3.faultNext g _)

theorem openLoops_besideYard (st : Fin 6) (s : State) : OnlyWrites besideYard s (openLoops st s) := by
  refine .foldl (.refl s) _ fun u g => ?_
  have h1 : OnlyWrites besideYard u
      (if (srv u g).closeReq then srvCmdDone g (setSrv g (fun v => { v with closeReq := false }) u) else u) :=
    .ite (.trans (.setSrv (.refl u) g _) (srvCmdDone_besideYard g _)) (.refl u)
  exact .ite (.trans (h1.put 4 (besideYard_cle _ _ _)) (srvCmdDone_besideYard g _)) h1

theorem disableStable_besideYard (st : Fin 6) (s : State) : OnlyWrites besideYard s (disableStable st s) :=
  .foldl (openLoops_besideYard st s) _ fun u g => .ite (.setStall (.refl u) g _) (.refl u)

/-! ### Clock gates (R408) -/

theorem gateBit_ge {u : Nat} {f : Fld} (h : gateBit u = some f) : 0x40000 ≤ f.off := by
  unfold gateBit at h
  split_ifs at h
  all_goals
    obtain rfl := Option.some.inj h
    simp [R.CPM_GATED_STALLS, R.CPM_GATED_UNITS]

theorem ungate_besideYard (u : Nat) (s : State) : OnlyWrites besideYard s (ungate u s) := by
  unfold ungate
  split
  next f hf => exact .ite (.put (.refl s) 0 (besideYard_of_ge (gateBit_ge hf))) (.refl s)
  · exact .refl s

/-! ### Links (R364-R368, R373) -/

theorem sendFrame_besideYard (b : Nat) (t : Option Nat) (blocks : List Nat) (s : State) :
    OnlyWrites besideYard s (sendFrame b t blocks s) := .emit (.emit (.draw (.refl s) 28) _) _

theorem sendMgmt_besideYard (b : Fin 12) (words : List Nat) (s : State) : OnlyWrites besideYard s (sendMgmt b words s) :=
  .ite (sendFrame_besideYard _ _ _ s) (.setBay (.refl s) b _)

theorem sendConfirm_besideYard (b : Fin 12) (version : Nat) (s : State) : OnlyWrites besideYard s (sendConfirm b version s) :=
  .trans (.setBay (.refl s) b _) (sendMgmt_besideYard b _ _)

theorem showStage_besideYard (b : Fin 12) (st : Nat) (s : State) : OnlyWrites besideYard s (showStage b st s) :=
  .emit (.put (.ite (.refl s) (ungate_besideYard _ s)) st (besideYard_lnk b 8)) _

theorem sendProbes_besideYard (b : Fin 12) (s : State) : OnlyWrites besideYard s (sendProbes b s) :=
  .emit (.emit (.draw (.setBay (.refl s) b _) 28) _) _

theorem enterStage_besideYard (b : Fin 12) (st : Nat) (s : State) : OnlyWrites besideYard s (enterStage b st s) := by
  have hstate : besideYard (R.LNK_STATE b) = true := besideYard_lnk b 8
  have hrx : besideYard (R.LNK_RX_STATUS b) = true := besideYard_lnk b 0xC
  unfold enterStage
  extract_lets s1 s2 s3
  have h1 : OnlyWrites besideYard s s1 := .setBay (showStage_besideYard b st s) b _
  have h2 : OnlyWrites besideYard s s2 := .put (.put (.put h1 0 hstate) 0 hstate) 0 hstate
  have h3 : OnlyWrites besideYard s s3 := .ite (h2.put 0 hrx) (.ite (h2.put 0 hrx) (.ite (h2.put 1 hrx) h2))
  exact .ite (h3.trans (sendProbes_besideYard b s3)) (.ite (h3.setBay b _) h3)

theorem linkHalt_besideYard (b : Fin 12) (d : Nat) (s : State) : OnlyWrites besideYard s (linkHalt b d s) := by
  unfold linkHalt
  extract_lets s1
  have h1 : OnlyWrites besideYard s s1 :=
    .raise (.lifeAdd (.trans (.put (.refl s) d (besideYard_lnk b 8)) (enterStage_besideYard b 8 _)) _ _) (by omega)
      besideYard_of_event
  exact .raiseOnSet h1 (by omega) (besideYard_lnk b 0x24) besideYard_of_event

theorem stallLinkLost_besideYard (s : State) (g : Fin 48) : OnlyWrites besideYard s (stallLinkLost s g) := by
  unfold stallLinkLost
  extract_lets st s1
  have h1 : OnlyWrites besideYard s s1 := .ite (servoFault_besideYard g 5 3 s) (.refl s)
  exact .ite (h1.setStall g _) (.ite (h1.faultNext g 4) h1)

theorem leaveActive_besideYard (b : Fin 12) (d : Nat) (s : State) : OnlyWrites besideYard s (leaveActive b d s) := by
  unfold leaveActive
  extract_lets s1 s2
  have h1 : OnlyWrites besideYard s s1 := .foldl (.refl s) _ stallLinkLost_besideYard
  have h2 : OnlyWrites besideYard s s2 := .setBay (h1.put d (besideYard_lnk b 8)) b _
  exact .ite h2 (.lifeAdd (h2.wrN _ (besideYard_of_ge (by simp only [R.LNK_RETRAINS, lnkBase]; omega))) _ _)

theorem haltNow_besideYard (b : Fin 12) (d : Nat) (s : State) : OnlyWrites besideYard s (haltNow b d s) := by
  have hleft : OnlyWrites besideYard s (if lnkStage b s = 6 then leaveActive b d s else s) :=
    .ite (leaveActive_besideYard b d s) (.refl s)
  exact .trans (.trans (hleft.put _ (besideYard_lnk b 8)) (linkHalt_besideYard b d _)) (showHeads_besideYard _)

theorem periodBay_besideYard (sel : Nat) (b : Fin 12) (s : State) : OnlyWrites besideYard s (periodBay sel b s) := by
  have hconfirm := sendConfirm_besideYard b (get s (F.LNK_STATE_VERSION b)) s
  exact .ite (.refl s) (.ite (hconfirm.trans (haltNow_besideYard b 8 _)) hconfirm)

end Machine
end Sys2Proof

namespace Sys2Proof
namespace Machine

/-! ## A refused configuration write of the yard (R13, R18, R29) -/

/-- The registers that a refusal may write. -/
def refusalReg (o : Nat) : Bool := eventReg o || o == R.YRD_CFG_STATUS

theorem refusalReg_of_event (o : Nat) (h : eventReg o = true) : refusalReg o = true := by rw [refusalReg, h, Bool.true_or]

/-- A refusal keeps the other registers of the yard. -/
theorem refusalReg_yard {o : Nat} (h : 0x20000 ≤ o) (h' : o < 0x40000) (hne : o ≠ R.YRD_CFG_STATUS) : refusalReg o = false := by
  have hevent : eventReg o = false := by
    cases he : eventReg o with
    | false => rfl
    | true => rw [← besideYard_of_event o he, besideYard_yard h h']
  rw [refusalReg, hevent, Bool.false_or, beq_eq_false_iff_ne]
  exact hne

theorem yardRefused_writes {f : Fld} (hf : f.off = R.YRD_CFG_STATUS) (target : Nat) (s : State) :
    OnlyWrites refusalReg s (yardRefused f target s) :=
  .raise (.put (.put (.refl s) 1 (by rw [hf]; rfl)) target rfl) (by decide) refusalReg_of_event

/-- A refused write sets its bit, names its target, raises event 77 and keeps every stall. -/
theorem yardRefused_fields {f : Fld} (hf : f.off = R.YRD_CFG_STATUS) (hlo : f.lo + f.w ≤ 8) (hw : f.w = 1) {target : Nat}
    (ht : target < 2 ^ 4) (s : State) :
    flag (yardRefused f target s) f = true ∧ get (yardRefused f target s) F.YRD_CFG_STATUS_LAST_TARGET = target ∧
      flag (yardRefused f target s) (pendBit 77) = true ∧ (yardRefused f target s).stalls = s.stalls := by
  unfold yardRefused
  refine ⟨?_, ?_, flag_raise_same (by decide) _, raise_stalls 77 _⟩
  · rw [flag, get_raise (by decide) _ (by rw [hf]; decide), get_put_disjoint _ _ _ _ (by decide) (.inr hlo)]
    exact flag_setF_same s f (by omega) hw
  · rw [get_raise (by decide) _ (by decide), get_put_same _ _ _ (by decide)]
    exact Nat.mod_eq_of_lt ht

/-! ## The microvector period (R18) -/

/-- A refused period leaves the period register and the period that waits. -/
theorem periodRefused_fields (s : State) :
    (raise 77 (setF s F.YRD_CFG_STATUS_PERIOD_REFUSED)).periodNext = s.periodNext ∧
      rd (raise 77 (setF s F.YRD_CFG_STATUS_PERIOD_REFUSED)) R.YRD_MV_PERIOD = rd s R.YRD_MV_PERIOD ∧
      flag (raise 77 (setF s F.YRD_CFG_STATUS_PERIOD_REFUSED)) F.YRD_CFG_STATUS_PERIOD_REFUSED = true ∧
      flag (raise 77 (setF s F.YRD_CFG_STATUS_PERIOD_REFUSED)) (pendBit 77) = true := by
  have hset : OnlyWrites refusalReg s (setF s F.YRD_CFG_STATUS_PERIOD_REFUSED) := .put (.refl s) 1 rfl
  refine ⟨raise_periodNext 77 _, rd_eq_of_rdN ?_, ?_, flag_raise_same (by decide) _⟩
  · exact (hset.raise (by decide) refusalReg_of_event) _ (refusalReg_yard (by decide) (by decide) (by decide))
  · rw [flag, get_raise (by decide) _ (by decide)]
    exact flag_setF_same s _ (by decide) rfl

/-- The state in which an accepted period waits, before the bays hear of it. -/
def periodShown (sel : Nat) (s : State) : State := put (setPeriodNext (some (periodOf sel)) s) F.YRD_MV_PERIOD_SEL sel

/-- The parts of a state that an accepted period may change beside the period itself. -/
def periodParts (p : Part) : Bool := p == .stalls || p == .srvs || p == .bays

/-- The bays hear of an accepted period: the period that waits, SEL and the period in effect stand. -/
theorem periodHeard_fields {sel : Nat} (hsel : sel < 4) (s : State) :
    (forAll 12 (periodBay sel) (periodShown sel s)).periodNext = some (periodOf sel) ∧
      get (forAll 12 (periodBay sel) (periodShown sel s)) F.YRD_MV_PERIOD_SEL = sel ∧
      (forAll 12 (periodBay sel) (periodShown sel s)).mvP = s.mvP := by
  have hparts : Evolves periodParts (periodShown sel s).store (forAll 12 (periodBay sel) (periodShown sel s)).store :=
    forAll_evolves _ (fun b _ h => periodBay_evolves rfl rfl rfl h sel b) .refl
  have hregs : OnlyWrites besideYard (periodShown sel s) (forAll 12 (periodBay sel) (periodShown sel s)) :=
    .forAll (.refl _) (periodBay_besideYard sel)
  obtain ⟨-, -, hnext⟩ := hparts.ask_eq rfl rfl
  refine ⟨hnext, ?_, hparts.period_eq rfl rfl⟩
  rw [hregs.get_eq (besideYard_yard (by decide) (by decide)), periodShown, get_put_same _ _ _ (by decide)]
  exact Nat.mod_eq_of_lt hsel

theorem completes_mvPeriodWrite {sec : Bool} {s : State} (v : Word) (h : accessOk sec R.YRD_MV_PERIOD s = true) :
    Completes (.mvPeriodWrite sec v) s fun t =>
      if v.toNat % 4 = 3 ∨ allQuiet s = false then t.periodNext = s.periodNext ∧ rd t R.YRD_MV_PERIOD = rd s R.YRD_MV_PERIOD ∧
        flag t F.YRD_CFG_STATUS_PERIOD_REFUSED = true ∧ flag t (pendBit 77) = true
      else t.periodNext = some (if v.toNat % 4 = 0 then 500 else if v.toNat % 4 = 1 then 1000 else 2000) ∧
        get t F.YRD_MV_PERIOD_SEL = v.toNat % 4 ∧ t.mvP = s.mvP := by
  refine ⟨_, congrArg Host.Outcome.next (if_pos h), ?_⟩
  beta_reduce
  simp only [Bool.not_eq_true]
  by_cases hbad : v.toNat % 4 = 3 ∨ allQuiet s = false
  · rw [if_pos hbad, if_pos hbad]
    exact periodRefused_fields s
  · rw [if_neg hbad, if_neg hbad]
    exact periodHeard_fields (Nat.mod_lt _ (by decide)) s

/-- Plans made again are the stalls' own. -/
theorem replanned_fields (s : State) :
    let t := forAll 48 (fun g s => if stSt g s = ssIDLE then replanFromRest g s else s) s
    t.mvP = s.mvP ∧ t.periodNext = s.periodNext ∧ t.regs = s.regs :=
  forAll_keeps (fun t : State => t.mvP = s.mvP ∧ t.periodNext = s.periodNext ∧ t.regs = s.regs) _ ⟨rfl, rfl, rfl⟩
    fun g t ht => by
      split
      · exact ht
      · exact ht

theorem completes_mvPeriodChange {p : Nat} {s : State} (hp : s.periodNext = some p) (hmul : s.now % p = 0)
    (hat : s.now ≠ s.periodAt) :
    Completes .mvPeriodChange s fun t => t.mvP = p ∧ t.periodNext = none ∧ t.regs = s.regs := by
  refine ⟨mvPeriodChange s, rfl, ?_⟩
  unfold mvPeriodChange
  rw [hp]
  dsimp only
  rw [if_pos ⟨hmul, hat⟩]
  exact replanned_fields (setPeriod p (setPeriodNext none s))

theorem mvPeriodChange_of_not {p : Nat} {s : State} (hp : s.periodNext = some p) (h : s.now % p ≠ 0 ∨ s.now = s.periodAt) :
    exec .mvPeriodChange s = .next s := by
  refine congrArg Host.Outcome.next ?_
  unfold mvPeriodChange
  rw [hp]
  exact if_neg fun ⟨hmul, hat⟩ => h.elim (· hmul) hat

/-! ## The bay map (R13, R14) -/

theorem completes_bayMapWrite {sec : Bool} {b : Fin 12} {s : State} (v : Word) (h : accessOk sec (R.YRD_BAY_MAP b) s = true) :
    Completes (.bayMapWrite sec b v) s fun t =>
      if mapOk b (merged (R.YRD_BAY_MAP b) v s) s then Takes (R.YRD_BAY_MAP b) v s t
      else rd t (R.YRD_BAY_MAP b) = rd s (R.YRD_BAY_MAP b) ∧ flag t F.YRD_CFG_STATUS_MAP_REFUSED = true ∧
        get t F.YRD_CFG_STATUS_LAST_TARGET = b.val ∧ flag t (pendBit 77) = true ∧ t.stalls = s.stalls := by
  have hlo : 0x20000 ≤ R.YRD_BAY_MAP b := by simp only [R.YRD_BAY_MAP]; omega
  have hhi : R.YRD_BAY_MAP b < 0x40000 := by simp only [R.YRD_BAY_MAP]; omega
  have hne : R.YRD_BAY_MAP b ≠ R.YRD_CFG_STATUS := by simp only [R.YRD_BAY_MAP, R.YRD_CFG_STATUS]; omega
  refine ⟨_, congrArg Host.Outcome.next (if_pos h), ?_⟩
  beta_reduce
  by_cases hok : mapOk b (merged (R.YRD_BAY_MAP b) v s) s = true
  · rw [if_pos hok, if_pos hok]
    exact (rd_eq_of_rdN ((showHeads_besideYard _) _ (besideYard_yard hlo hhi))).trans (rd_wr_same _ _ _)
  · rw [if_neg hok, if_neg hok]
    obtain ⟨hflag, htarget, hpend, hstalls⟩ := yardRefused_fields (f := F.YRD_CFG_STATUS_MAP_REFUSED) rfl (by decide) rfl
      (target := b) (by omega) s
    exact ⟨rd_eq_of_rdN (yardRefused_writes rfl _ s _ (refusalReg_yard hlo hhi hne)), hflag, htarget, hpend, hstalls⟩

/-! ## Stable enables (R29) -/

/-- What an accepted write of the stable enables does. -/
def enablesTaken (n : Nat) (s : State) : State :=
  let gone := (fins 6).filter fun (st : Fin 6) => stableEn st s && !bit n st
  forAll 48 (fun g s => showWait g s) (gone.foldl (fun s st => disableStable st s)
    ((fins 6).foldl (fun s (st : Fin 6) => if bit n st then ungate (0x30 + st.val) s else s) (put s F.YRD_CTRL_STABLE_EN n)))

theorem enablesTaken_besideYard (n : Nat) (s : State) :
    OnlyWrites besideYard (put s F.YRD_CTRL_STABLE_EN n) (enablesTaken n s) :=
  .forAll (.foldl (.foldl (.refl _) _ fun u _ => .ite (ungate_besideYard _ u) (.refl u)) _ fun u st => disableStable_besideYard st u)
    fun g u => showWait_besideYard g u

theorem get_enablesTaken {n : Nat} (hn : n < 2 ^ 6) (s : State) : get (enablesTaken n s) F.YRD_CTRL_STABLE_EN = n := by
  rw [(enablesTaken_besideYard n s).get_eq (besideYard_yard (by decide) (by decide)), get_put_same _ _ _ (by decide)]
  exact Nat.mod_eq_of_lt hn

theorem completes_stableEnableWrite {sec : Bool} {s : State} (v : Word) (h : accessOk sec R.YRD_CTRL s = true)
    (hphase : get s F.BOOT_STATUS_PHASE ≠ 5) (hgate : s.sdGated = false) :
    Completes (.stableEnableWrite sec v) s fun t =>
      (wrongClears (v.toNat % 64) s = [] → get t F.YRD_CTRL_STABLE_EN = v.toNat % 64) ∧
      ∀ (st : Fin 6) (l : List (Fin 6)), wrongClears (v.toNat % 64) s = st :: l → rd t R.YRD_CTRL = rd s R.YRD_CTRL ∧
        flag t F.YRD_CFG_STATUS_ENABLE_REFUSED = true ∧ get t F.YRD_CFG_STATUS_LAST_TARGET = st.val ∧
        flag t (pendBit 77) = true ∧ t.stalls = s.stalls := by
  refine ⟨_, congrArg Host.Outcome.next ((if_pos h).trans (if_neg ?_)), ?_⟩
  · rw [hgate]
    exact fun hc => hc.elim hphase fun hc => Bool.false_ne_true hc.1
  cases hclear : wrongClears (v.toNat % 64) s with
  | nil =>
    exact ⟨fun _ => get_enablesTaken (Nat.mod_lt _ (by decide)) s, fun _ _ hc => nomatch hc⟩
  | cons st l =>
    refine ⟨fun hc => (nomatch hc), fun st' l' hc => ?_⟩
    obtain ⟨rfl, rfl⟩ := List.cons.inj hc
    obtain ⟨hflag, htarget, hpend, hstalls⟩ := yardRefused_fields (f := F.YRD_CFG_STATUS_ENABLE_REFUSED) rfl (by decide) rfl
      (target := st) (by omega) s
    exact ⟨rd_eq_of_rdN (yardRefused_writes rfl _ s _ (refusalReg_yard (by decide) (by decide) (by decide))), hflag, htarget,
      hpend, hstalls⟩

/-- Settles O9: what follows an accepted write leaves the yard's registers, and a refusal writes CFG_STATUS and the event only. -/
theorem periodAndYard : Obligations.PeriodAndYard :=
  ⟨fun _ v _ h => completes_mvPeriodWrite v h, fun _ _ hp hmul hat => completes_mvPeriodChange hp hmul hat,
    fun _ _ hp h => mvPeriodChange_of_not hp h, fun _ _ v _ h => completes_bayMapWrite v h,
    fun _ v _ h hphase hgate => completes_stableEnableWrite v h hphase hgate⟩

end Machine
end Sys2Proof

/-!
The rules of a ring context's state, of its completions and of the registers of the host interface, which the statements of chapter
02 rest on.
-/
namespace Sys2Proof
namespace Machine

/-! ## Ring contexts -/

theorem ctx_congr {s t : State} (h : t.ctxs = s.ctxs) (c : Fin 256) : ctx t c = ctx s c := by unfold ctx; rw [h]

@[simp] theorem ctx_setCtx_same (c : Fin 256) (f : Ctx → Ctx) (s : State) : ctx (setCtx c f s) c = f (ctx s c) :=
  Vector.getElem_set_self _

theorem ctx_setCtx_other {c k : Fin 256} (f : Ctx → Ctx) (s : State) (h : k ≠ c) : ctx (setCtx c f s) k = ctx s k :=
  Vector.getElem_set_ne c.isLt k.isLt fun e => h (Fin.ext e.symm)

@[simp] theorem setCtx_out (c : Fin 256) (f : Ctx → Ctx) (s : State) : (setCtx c f s).out = s.out := rfl

@[simp] theorem rdN_setCtx (c : Fin 256) (f : Ctx → Ctx) (s : State) (o : Nat) : rdN (setCtx c f s) o = rdN s o := rfl

@[simp] theorem ctx_wrN (s : State) (o v : Nat) (c : Fin 256) : ctx (wrN s o v) c = ctx s c := rfl

@[simp] theorem ctx_wr64 (s : State) (o v : Nat) (c : Fin 256) : ctx (wr64 s o v) c = ctx s c := rfl

@[simp] theorem ctx_put (s : State) (f : Fld) (v : Nat) (c : Fin 256) : ctx (put s f v) c = ctx s c := rfl

@[simp] theorem setF_ctxs (s : State) (f : Fld) : (setF s f).ctxs = s.ctxs := rfl

@[simp] theorem ctx_emit (x : Out) (s : State) (c : Fin 256) : ctx (emit x s) c = ctx s c := rfl

@[simp] theorem ctx_lifeAdd (s : State) (k n : Nat) (c : Fin 256) : ctx (lifeAdd s k n) c = ctx s c := rfl

@[simp] theorem ctx_raise (n : Nat) (s : State) (c : Fin 256) : ctx (raise n s) c = ctx s c := ctx_congr (raise_ctxs n s) c

theorem signalVector_ctxs (v : Nat) (s : State) : (signalVector v s).ctxs = s.ctxs := by
  obtain ⟨_, _, _, _, _, _, _, h⟩ := signalVector_shaped v s; rw [h]

@[simp] theorem ctx_signalVector (v : Nat) (s : State) (c : Fin 256) : ctx (signalVector v s) c = ctx s c :=
  ctx_congr (signalVector_ctxs v s) c

/-! ## Registers -/

namespace OnlyWrites

variable {W V : Nat → Bool} {s t : State}

theorem setCtx (h : OnlyWrites W s t) (c : Fin 256) (f : Ctx → Ctx) : OnlyWrites W s (setCtx c f t) := h.regs rfl

theorem complete (h : OnlyWrites W s t) (c : Fin 256) (q st : Nat) (a b : Option Nat) (g : Bool) :
    OnlyWrites W s (complete c q st a b g t) := h.regs (complete_regs c q st a b g t)

theorem mono (h : OnlyWrites V s t) (hV : ∀ o, V o = true → W o = true) : OnlyWrites W s t :=
  fun o ho => h o (by
    cases hv : V o with
    | false => rfl
    | true => rw [hV o hv] at ho; cases ho)

end OnlyWrites

theorem flag_raise {n : Nat} (hn : n < 512) (s : State) {f : Fld} (ho : eventReg f.off = false) :
    flag (raise n s) f = flag s f := flag_eq_of_rdN (rdN_raise hn s ho)

theorem flag_put_other (s : State) (f f' : Fld) (v : Nat) (h : f.off ≠ f'.off) : flag (put s f v) f' = flag s f' := by
  rw [flag, flag, get_put_other s f f' v h]

theorem flag_put_disjoint (s : State) (f f' : Fld) (v : Nat) (hw : f.lo + f.w ≤ 32)
    (h : f.lo + f.w ≤ f'.lo ∨ f'.lo + f'.w ≤ f.lo) : flag (put s f v) f' = flag s f' := by
  rw [flag, flag, get_put_disjoint s f f' v hw h]

/-! ## Completing a descriptor (R50, R52) -/

/-- A context whose descriptors with a SEQ have their completion decided. -/
def Ctx.settle (q : Nat) (k : Compl) (x : Ctx) : Ctx :=
  { x with
    fetched := settleDescs q k x.fetched
    orphans := x.orphans.filter (fun d => d.seq != q)
    hist := settleHist q k x.hist }

/-- A completion settles its SEQ with the results it was given. -/
theorem complete_eq_settle (c : Fin 256) (q st : Nat) (a b : Option Nat) (g : Bool) (s : State) :
    ∃ av bv n, complete c q st a b g s = setCtx c (Ctx.settle q ⟨st, av, bv, s.now, g⟩) { s with fresh := n } ∧
      (∀ v ∈ a, av = v) ∧ ∀ v ∈ b, bv = v := by
  unfold complete openValue
  cases a <;> cases b
  · exact ⟨_, _, _, rfl, nofun, nofun⟩
  · exact ⟨_, _, _, rfl, nofun, fun _ h => Option.some.inj h⟩
  · exact ⟨_, _, _, rfl, fun _ h => Option.some.inj h, nofun⟩
  · exact ⟨_, _, s.fresh, rfl, fun _ h => Option.some.inj h, fun _ h => Option.some.inj h⟩

theorem ctx_complete_same (c : Fin 256) (q st : Nat) (a b : Option Nat) (g : Bool) (s : State) :
    ∃ av bv, ctx (complete c q st a b g s) c = (ctx s c).settle q ⟨st, av, bv, s.now, g⟩ ∧
      (∀ v ∈ a, av = v) ∧ ∀ v ∈ b, bv = v := by
  obtain ⟨av, bv, n, h, ha, hb⟩ := complete_eq_settle c q st a b g s
  exact ⟨av, bv, by rw [h, ctx_setCtx_same]; rfl, ha, hb⟩

theorem ctx_complete_other {c k : Fin 256} (q st : Nat) (a b : Option Nat) (g : Bool) (s : State) (h : k ≠ c) :
    ctx (complete c q st a b g s) k = ctx s k := by
  obtain ⟨av, bv, n, he, -⟩ := complete_eq_settle c q st a b g s
  rw [he, ctx_setCtx_other _ _ h]
  rfl

/-- A completion leaves the context's state. -/
theorem complete_st (c : Fin 256) (q st : Nat) (a b : Option Nat) (g : Bool) (s : State) (k : Fin 256) :
    (ctx (complete c q st a b g s) k).st = (ctx s k).st := by
  obtain rfl | h := eq_or_ne k c
  · obtain ⟨av, bv, h, -⟩ := ctx_complete_same k q st a b g s
    rw [h]
    rfl
  · rw [ctx_complete_other _ _ _ _ _ _ h]

/-- A completion on a state with the same history and time decides its SEQ. -/
theorem decided_complete {c : Fin 256} {s u : State} (q st : Nat) (a b : Option Nat) (g : Bool)
    (hh : (ctx u c).hist = (ctx s c).hist) (hn : u.now = s.now) : Decided c q st s (complete c q st a b g u) := by
  obtain ⟨av, bv, h, -⟩ := ctx_complete_same c q st a b g u
  exact ⟨av, bv, g, by rw [h, ← hh, ← hn]; rfl⟩

/-- The same, with the results that were given. -/
theorem decidedWith_complete {c : Fin 256} {s u : State} (q st a b : Nat) (g : Bool) (hh : (ctx u c).hist = (ctx s c).hist)
    (hn : u.now = s.now) : DecidedWith c q st a b s (complete c q st (some a) (some b) g u) := by
  obtain ⟨av, bv, h, ha, hb⟩ := ctx_complete_same c q st (some a) (some b) g u
  obtain rfl := ha a rfl
  obtain rfl := hb b rfl
  exact ⟨g, by rw [h, ← hh, ← hn]; rfl⟩

/-! ## Starting a descriptor (R54, R55) -/

@[simp] theorem startDesc_regs (c : Fin 256) (q aux : Nat) (s : State) : (startDesc c q aux s).regs = s.regs := rfl

theorem ctx_startDesc_same (c : Fin 256) (q aux : Nat) (s : State) :
    ctx (startDesc c q aux s) c = { ctx s c with fetched := startDescs q aux (ctx s c).fetched } := ctx_setCtx_same _ _ _

theorem hist_startDesc (c : Fin 256) (q aux : Nat) (s : State) :
    (ctx (startDesc c q aux s) c).hist = (ctx s c).hist := by rw [ctx_startDesc_same]

theorem fetched_startDesc (c : Fin 256) (q aux : Nat) (s : State) :
    (ctx (startDesc c q aux s) c).fetched = startDescs q aux (ctx s c).fetched := by rw [ctx_startDesc_same]

/-- A descriptor that may start runs its operation on the state in which it has started. -/
theorem withDesc_of_starts {c : Fin 256} {op : Nat} {d : Desc} {s : State} (h : Starts c op d s) (k : Desc → State → State) :
    withDesc c op k s = k d (startDesc c d.seq 0 s) := by
  obtain ⟨hd, hop, hheld⟩ := h
  rw [withDesc, hd]
  exact if_pos ⟨hop, by rw [hheld]; exact Bool.false_ne_true⟩

/-! ## NOP and WAIT_UNTIL (R57) -/

theorem completes_nop {c : Fin 256} {d : Desc} {s : State} (h : Starts c 0x00 d s) (ha : d.addr = 0) (hl : d.len = 0) :
    Completes (.nop c) s fun t => DecidedWith c d.seq stOK (d.at 20 8) (d.at 28 8) s t ∧ t.regs = s.regs := by
  refine ⟨_, congrArg Host.Outcome.next ((withDesc_of_starts h _).trans (if_neg (by simp [ha, hl]))), ?_, ?_⟩
  · exact decidedWith_complete _ _ _ _ _ (hist_startDesc ..) rfl
  · rw [complete_regs, startDesc_regs]

theorem completes_nop_format {c : Fin 256} {d : Desc} {s : State} (h : Starts c 0x00 d s) (hz : d.addr ≠ 0 ∨ d.len ≠ 0) :
    Completes (.nop c) s fun t => Decided c d.seq stFORMAT s t :=
  ⟨_, congrArg Host.Outcome.next ((withDesc_of_starts h _).trans (if_pos hz)),
    decided_complete _ _ _ _ _ (hist_startDesc ..) rfl⟩

/-- A well-formed WAIT_UNTIL completes where its time has come, and else only starts. -/
theorem waitUntil_of_starts {c : Fin 256} {d : Desc} {s : State} (h : Starts c 0x01 d s) (ha : d.addr = 0) (hl : d.len = 0)
    (hz : d.at 28 36 = 0) : withDesc c 0x01 (opWaitUntil c) s =
      if d.at 20 8 ≤ s.now then complete c d.seq stOK (some (d.at 20 8)) (some s.now) false (startDesc c d.seq 0 s)
      else startDesc c d.seq 0 s :=
  (withDesc_of_starts h _).trans (if_neg (by simp [ha, hl, hz]))

theorem completes_waitUntil_now {c : Fin 256} {d : Desc} {s : State} (h : Starts c 0x01 d s) (ha : d.addr = 0) (hl : d.len = 0)
    (hz : d.at 28 36 = 0) (ht : d.at 20 8 ≤ s.now) :
    Completes (.waitUntil c) s fun t => DecidedWith c d.seq stOK (d.at 20 8) s.now s t :=
  ⟨_, congrArg Host.Outcome.next ((waitUntil_of_starts h ha hl hz).trans (if_pos ht)),
    decidedWith_complete _ _ _ _ _ (hist_startDesc ..) rfl⟩

theorem completes_waitUntil_later {c : Fin 256} {d : Desc} {s : State} (h : Starts c 0x01 d s) (ha : d.addr = 0)
    (hl : d.len = 0) (hz : d.at 28 36 = 0) (ht : s.now < d.at 20 8) :
    Completes (.waitUntil c) s fun t => (ctx t c).hist = (ctx s c).hist ∧
      (ctx t c).fetched = startDescs d.seq 0 (ctx s c).fetched ∧ t.regs = s.regs :=
  ⟨_, congrArg Host.Outcome.next ((waitUntil_of_starts h ha hl hz).trans (if_neg (Nat.not_le.2 ht))),
    hist_startDesc .., fetched_startDesc .., rfl⟩

theorem completes_waitUntil_format {c : Fin 256} {d : Desc} {s : State} (h : Starts c 0x01 d s)
    (hz : d.addr ≠ 0 ∨ d.len ≠ 0 ∨ d.at 28 36 ≠ 0) :
    Completes (.waitUntil c) s fun t => Decided c d.seq stFORMAT s t :=
  ⟨_, congrArg Host.Outcome.next ((withDesc_of_starts h _).trans (if_pos hz)),
    decided_complete _ _ _ _ _ (hist_startDesc ..) rfl⟩

theorem completes_waitUntilDone {c : Fin 256} {d : Desc} {s : State}
    (hd : runningDesc (ctx s c) (fun e => e.op == 0x01) = some d) (ht : d.at 20 8 ≤ s.now) :
    Completes (.waitUntilDone c) s fun t => DecidedWith c d.seq stOK (d.at 20 8) s.now s t := by
  have he : waitUntilDone c s = complete c d.seq stOK (some (d.at 20 8)) (some s.now) false s := by
    rw [waitUntilDone, hd]
    exact if_pos ht
  exact ⟨_, congrArg Host.Outcome.next he, decidedWith_complete _ _ _ _ _ rfl rfl⟩

/-- Settles O19: each clause is the lemma of its descriptor and outcome. -/
theorem hostDescriptors : Obligations.HostDescriptors := fun _ _ _ =>
  ⟨completes_nop, completes_nop_format, completes_waitUntil_now, completes_waitUntil_later, completes_waitUntil_format,
    completes_waitUntilDone⟩

end Machine
end Sys2Proof

namespace Sys2Proof
namespace Machine

/-! ## Version negotiation (R65) -/

theorem hostWrite_ok {sec : Bool} {o : Nat} {s : State} (h : accessOk sec o s = true) (k : State → State) :
    hostWrite sec o k s = k s := if_pos h

/-- Some host context is not DISABLED. -/
theorem anyEnabled_iff (s : State) :
    ((fins 256).any fun c => c.val != 0 && (ctx s c).st != .disabled) = true ↔
      ∃ c : Fin 256, c.val ≠ 0 ∧ (ctx s c).st ≠ .disabled := by
  simp [fins]

theorem completes_versionOffer {sec : Bool} (v : Word) {s : State} (h : accessOk sec R.HIF_VERSION_OFFER s = true)
    (hd : ∀ c : Fin 256, c.val ≠ 0 → (ctx s c).st = .disabled) :
    Completes (.versionOfferWrite sec v) s fun t => get t F.HIF_VERSION_OFFER_OFFER = v.toNat % 16 ∧
      get t F.HIF_VERSION_AGREED_AGREED = (if 1 ≤ v.toNat % 16 then min (v.toNat % 16) 1 else 0) := by
  have hnone : ¬ ((fins 256).any fun c => c.val != 0 && (ctx s c).st != .disabled) = true := by
    rw [anyEnabled_iff]
    exact fun ⟨c, hc, hst⟩ => hst (hd c hc)
  refine ⟨_, congrArg Host.Outcome.next ((hostWrite_ok h _).trans (if_neg hnone)), ?_, ?_⟩
  · rw [get_put_other _ _ _ _ (by decide), get_put_same _ _ _ (by decide)]
    exact Nat.mod_mod_of_dvd _ (by decide)
  · rw [get_put_same _ _ _ (by decide)]
    refine Nat.mod_eq_of_lt ?_
    show agreedVersion (v.toNat % 16) < 16
    unfold agreedVersion
    split <;> omega

theorem completes_versionRefused {sec : Bool} (v : Word) {s : State} (h : accessOk sec R.HIF_VERSION_OFFER s = true)
    (hd : ∃ c : Fin 256, c.val ≠ 0 ∧ (ctx s c).st ≠ .disabled) :
    Completes (.versionOfferWrite sec v) s fun t => rdN t R.HIF_VERSION_OFFER = rdN s R.HIF_VERSION_OFFER ∧
      get t F.HIF_VERSION_AGREED_AGREED = get s F.HIF_VERSION_AGREED_AGREED ∧
      flag t F.HIF_ERR_STATUS_VERSION_REFUSED = true ∧ flag t (pendBit 57) = true := by
  refine ⟨_, congrArg Host.Outcome.next ((hostWrite_ok h _).trans (if_pos ((anyEnabled_iff s).2 hd))), ?_, ?_, ?_, ?_⟩
  · rw [rdN_raise (by decide) _ (by decide), setF, rdN_put_other _ _ _ (by decide)]
  · rw [get_raise (by decide) _ (by decide), setF, get_put_other _ _ _ _ (by decide)]
  · rw [flag_raise (by decide) _ (by decide)]
    exact flag_setF_same _ _ (by decide) rfl
  · exact flag_raise_same (by decide) _

/-! ## Context commands (R41) -/

@[simp] theorem ctx_cmdStatus (c cmd r : Nat) (s : State) (k : Fin 256) : ctx (cmdStatus c cmd r s) k = ctx s k := rfl

theorem cmdStatus_writes (c cmd r : Nat) (s : State) : OnlyWrites (· == R.HIF_CTX_CMD_STATUS) s (cmdStatus c cmd r s) :=
  .put (.put (.put (.refl s) _ rfl) _ rfl) _ rfl

/-- CTX_CMD_STATUS shows the context, the command and its result, and keeps BUSY. -/
theorem cmdStatus_fields {c cmd r : Nat} (hc : c < 2 ^ 8) (hcmd : cmd < 2 ^ 3) (hr : r < 2 ^ 4) (s : State) :
    get (cmdStatus c cmd r s) F.HIF_CTX_CMD_STATUS_RESULT = r ∧ get (cmdStatus c cmd r s) F.HIF_CTX_CMD_STATUS_CTX = c ∧
      get (cmdStatus c cmd r s) F.HIF_CTX_CMD_STATUS_CMD = cmd ∧
      flag (cmdStatus c cmd r s) F.HIF_CTX_CMD_STATUS_BUSY = flag s F.HIF_CTX_CMD_STATUS_BUSY := by
  unfold cmdStatus
  refine ⟨?_, ?_, ?_, ?_⟩
  · rw [get_put_same _ _ _ (by decide)]
    exact Nat.mod_eq_of_lt hr
  · rw [get_put_disjoint _ _ _ _ (by decide) (by decide), get_put_disjoint _ _ _ _ (by decide) (by decide),
      get_put_same _ _ _ (by decide)]
    exact Nat.mod_eq_of_lt hc
  · rw [get_put_disjoint _ _ _ _ (by decide) (by decide), get_put_same _ _ _ (by decide)]
    exact Nat.mod_eq_of_lt hcmd
  · rw [flag_put_disjoint _ _ _ _ (by decide) (by decide), flag_put_disjoint _ _ _ _ (by decide) (by decide),
      flag_put_disjoint _ _ _ _ (by decide) (by decide)]

theorem ctxCommand_refused {sec : Bool} {c : Fin 256} {s : State} {r : Nat} (h : accessOk sec R.HIF_CTX_CMD s = true)
    (hr : cmdRefused sec c s = some r) (cmd : Nat) (k : State → State) :
    ctxCommand sec c cmd k s = cmdStatus c cmd r s := by
  rw [ctxCommand, hostWrite_ok h, hr]

theorem ctxCommand_taken {sec : Bool} {c : Fin 256} {s : State} (h : accessOk sec R.HIF_CTX_CMD s = true)
    (hr : cmdRefused sec c s = none) (cmd : Nat) (k : State → State) : ctxCommand sec c cmd k s = k s := by
  rw [ctxCommand, hostWrite_ok h, hr]

theorem ctxEnable_failed {c : Fin 256} {s : State} (h : enableResult c s ≠ 0) :
    ctxEnable c s = cmdStatus c 1 (enableResult c s) s := if_neg h

/-- Without an agreed version an ENABLE fails (R65). -/
theorem enableResult_of_unagreed {s : State} (h : get s F.HIF_VERSION_AGREED_AGREED = 0) (c : Fin 256) :
    enableResult c s ≠ 0 := by
  unfold enableResult
  extract_lets type size
  rw [if_pos h]
  split_ifs <;> decide

theorem completes_unagreedEnable {sec : Bool} {c : Fin 256} {s : State} (hv : get s F.HIF_VERSION_AGREED_AGREED = 0)
    (h : accessOk sec R.HIF_CTX_CMD s = true) : Completes (.ctxEnable sec c) s fun t => t.ctxs = s.ctxs := by
  cases hr : cmdRefused sec c s with
  | some r => exact ⟨_, congrArg Host.Outcome.next (ctxCommand_refused h hr _ _), rfl⟩
  | none =>
    exact ⟨_, congrArg Host.Outcome.next ((ctxCommand_taken h hr _ _).trans
      (ctxEnable_failed (enableResult_of_unagreed hv c))), rfl⟩

/-- Settles O17: an offer is taken or refused as a whole, and without an agreed version each ENABLE fails. -/
theorem versionOffer : Obligations.VersionOffer :=
  ⟨fun _ v _ h hd => completes_versionOffer v h hd, fun _ v _ h hd => completes_versionRefused v h hd,
    fun _ _ _ hv h => completes_unagreedEnable hv h⟩

/-! ### ENABLE -/

theorem enableResult_lt (c : Fin 256) (s : State) : enableResult c s < 2 ^ 4 := by
  unfold enableResult
  extract_lets type size
  split_ifs <;> decide

/-- A context as a taken ENABLE leaves it. -/
def Ctx.enabled (x : Ctx) : Ctx :=
  { x with
    st := .active, stopCause := 0, sqHead := 0, sqTail := 0, cqTail := 0, cqHead := 0, phase := true, bpWait := 0
    bpTold := false }

theorem ctxEnable_ok {c : Fin 256} {s : State} (h : enableResult c s = 0) :
    ctxEnable c s = cmdStatus c 1 0 (wr64 (setCtx c Ctx.enabled s) (R.HIF_CTX_BP_TIME c) 0) := if_pos h

theorem completes_ctxEnable {sec : Bool} {c : Fin 256} {s : State} (h : accessOk sec R.HIF_CTX_CMD s = true)
    (hr : cmdRefused sec c s = none) :
    Completes (.ctxEnable sec c) s fun t => get t F.HIF_CTX_CMD_STATUS_RESULT = enableResult c s ∧
      (enableResult c s ≠ 0 → t.ctxs = s.ctxs) ∧
      (enableResult c s = 0 → (ctx t c).st = .active ∧ (ctx t c).stopCause = 0 ∧ (ctx t c).sqHead = 0 ∧
        (ctx t c).sqTail = 0 ∧ (ctx t c).cqTail = 0 ∧ (ctx t c).cqHead = 0 ∧ (ctx t c).phase = true ∧
        rd64 t (R.HIF_CTX_BP_TIME c) = 0 ∧ (ctx t c).hist = (ctx s c).hist ∧ ∀ k : Fin 256, k ≠ c → ctx t k = ctx s k) := by
  refine ⟨_, congrArg Host.Outcome.next (ctxCommand_taken h hr _ _), ?_⟩
  beta_reduce
  by_cases h0 : enableResult c s = 0
  · generalize hu : wr64 (setCtx c Ctx.enabled s) (R.HIF_CTX_BP_TIME c) 0 = u
    have hctx : ctx u c = (ctx s c).enabled := by rw [← hu]; exact ctx_setCtx_same _ _ _
    have hw := cmdStatus_writes c 1 0 u
    have hbp : rd64 (cmdStatus c 1 0 u) (R.HIF_CTX_BP_TIME c) = 0 := by
      rw [rd64_eq_of_rdN (hw _ (by simp [R.HIF_CTX_BP_TIME, R.HIF_CTX_CMD_STATUS]; omega))
        (hw _ (by simp [R.HIF_CTX_BP_TIME, R.HIF_CTX_CMD_STATUS]; omega)), ← hu, rd64_wr64_same, Nat.zero_mod]
    rw [ctxEnable_ok h0, hu, h0, ctx_cmdStatus, hctx]
    exact ⟨(cmdStatus_fields c.isLt (by decide) (by decide) u).1, fun hne => absurd rfl hne,
      fun _ => ⟨rfl, rfl, rfl, rfl, rfl, rfl, rfl, hbp, rfl, fun k hk => by
        rw [ctx_cmdStatus, ← hu]; exact ctx_setCtx_other _ _ hk⟩⟩
  · rw [ctxEnable_failed h0]
    exact ⟨(cmdStatus_fields c.isLt (by decide) (enableResult_lt c s) s).1, fun _ => rfl, fun hz => absurd hz h0⟩

/-! ### DISABLE -/

/-- Every original with a SEQ has its completion decided. -/
def OriginalsDecided (q : Nat) (l : List Desc) : Prop := ∀ d ∈ l, d.seq = q → d.dup = false → d.compl.isSome = true

theorem originalsDecided_settleDescs (q : Nat) (k : Compl) (l : List Desc) : OriginalsDecided q (settleDescs q k l) := by
  intro d hd
  obtain ⟨e, -, rfl⟩ := List.mem_map.1 hd
  split
  · exact fun _ _ => rfl
  next hno =>
    intro hq hdup
    rw [← Option.not_isNone, Bool.not_eq_true', ← Bool.not_eq_true]
    exact fun hnone => hno ⟨hq, hnone, by simp [hdup]⟩

theorem OriginalsDecided.settle {q : Nat} {l : List Desc} (h : OriginalsDecided q l) (q' : Nat) (k : Compl) :
    OriginalsDecided q (settleDescs q' k l) := by
  intro d hd
  obtain ⟨e, he, rfl⟩ := List.mem_map.1 hd
  split
  · exact fun _ _ => rfl
  · exact h e he

/-- DISABLE completes a list of SEQs with ABORTED (R41). -/
def abortAll (c : Fin 256) (l : List Nat) (s : State) : State :=
  l.foldl (fun s q => complete c q stABORTED none none false s) s

theorem OriginalsDecided.complete {c : Fin 256} {q : Nat} {s : State} (h : OriginalsDecided q (ctx s c).fetched) (q' st : Nat)
    (a b : Option Nat) (g : Bool) : OriginalsDecided q (ctx (complete c q' st a b g s) c).fetched := by
  obtain ⟨av, bv, he, -⟩ := ctx_complete_same c q' st a b g s
  rw [he]
  exact h.settle _ _

/-- What DISABLE aborts is decided when it has gone through its list. -/
theorem originalsDecided_abortAll (c : Fin 256) (l : List Nat) (s : State) :
    ∀ q ∈ l, OriginalsDecided q (ctx (abortAll c l s) c).fetched := by
  intro q hq
  obtain ⟨before, after, rfl⟩ := List.append_of_mem hq
  unfold abortAll
  rw [List.foldl_append, List.foldl_cons]
  generalize before.foldl _ s = u
  refine List.foldlRecOn (motive := fun t => OriginalsDecided q (ctx t c).fetched) after _ ?_
    fun t ht q' _ => ht.complete q' _ _ _ _
  obtain ⟨av, bv, he, -⟩ := ctx_complete_same c q stABORTED none none false u
  rw [he]
  exact originalsDecided_settleDescs q _ _

/-- A context that drains; its count of unsignalled completions starts anew. -/
def Ctx.drain (x : Ctx) : Ctx := { x with st := .draining, irqN := 0 }

theorem ctxDisable_ok {c : Fin 256} {s : State} (h : (ctx s c).st = .active ∨ (ctx s c).st = .stopped) :
    ctxDisable c s = setF (cmdStatus c 2 1 { setCtx c Ctx.drain (abortAll c (abortable (ctx s c)) s) with hifCmd := some c.val })
      F.HIF_CTX_CMD_STATUS_BUSY := if_pos h

theorem ctxDisable_other {c : Fin 256} {s : State} (h : ¬ ((ctx s c).st = .active ∨ (ctx s c).st = .stopped)) :
    ctxDisable c s = cmdStatus c 2 2 s := if_neg h

theorem completes_ctxDisable {sec : Bool} {c : Fin 256} {s : State} (h : accessOk sec R.HIF_CTX_CMD s = true)
    (hr : cmdRefused sec c s = none) :
    Completes (.ctxDisable sec c) s fun t =>
      if (ctx s c).st = .active ∨ (ctx s c).st = .stopped then
        (ctx t c).st = .draining ∧ (ctx t c).irqN = 0 ∧ flag t F.HIF_CTX_CMD_STATUS_BUSY = true ∧
          get t F.HIF_CTX_CMD_STATUS_RESULT = 1 ∧
          ∀ d ∈ (ctx t c).fetched, d.seq ∈ abortable (ctx s c) → d.dup = false → d.compl.isSome = true
      else get t F.HIF_CTX_CMD_STATUS_RESULT = 2 ∧ t.ctxs = s.ctxs := by
  refine ⟨_, congrArg Host.Outcome.next (ctxCommand_taken h hr _ _), ?_⟩
  beta_reduce
  by_cases hst : (ctx s c).st = .active ∨ (ctx s c).st = .stopped
  · have hdecided := originalsDecided_abortAll c (abortable (ctx s c)) s
    rw [if_pos hst, ctxDisable_ok hst]
    generalize abortAll c (abortable (ctx s c)) s = u at hdecided ⊢
    generalize hv : ({ setCtx c Ctx.drain u with hifCmd := some c.val } : State) = v
    have hctx : ctx v c = (ctx u c).drain := by rw [← hv]; exact ctx_setCtx_same _ _ _
    have hresult := (cmdStatus_fields c.isLt (cmd := 2) (r := 1) (by decide) (by decide) v).1
    rw [setF, ctx_put, ctx_cmdStatus, hctx, get_put_disjoint _ _ _ _ (by decide) (by decide)]
    exact ⟨rfl, rfl, flag_setF_same _ _ (by decide) rfl, hresult, fun d hd hq hdup => hdecided d.seq hq d hd rfl hdup⟩
  · rw [if_neg hst, ctxDisable_other hst]
    exact ⟨(cmdStatus_fields c.isLt (by decide) (by decide) s).1, rfl⟩

/-! ### RESUME and the end of draining -/

theorem completes_ctxResume {sec : Bool} {c : Fin 256} {s : State} (h : accessOk sec R.HIF_CTX_CMD s = true)
    (hr : cmdRefused sec c s = none) :
    Completes (.ctxResume sec c) s fun t =>
      if (ctx s c).st = .stopped then
        (ctx t c).st = .active ∧ (ctx t c).stopCause = 0 ∧ (ctx t c).fetched = (ctx s c).fetched ∧
          get t F.HIF_CTX_CMD_STATUS_RESULT = 0
      else get t F.HIF_CTX_CMD_STATUS_RESULT = 2 ∧ t.ctxs = s.ctxs := by
  refine ⟨_, congrArg Host.Outcome.next (ctxCommand_taken h hr _ _), ?_⟩
  beta_reduce
  unfold ctxResume
  by_cases hst : (ctx s c).st = .stopped
  · rw [if_pos hst, if_pos hst, ctx_cmdStatus, ctx_setCtx_same]
    exact ⟨rfl, rfl, rfl, (cmdStatus_fields c.isLt (by decide) (by decide) _).1⟩
  · rw [if_neg hst, if_neg hst]
    exact ⟨(cmdStatus_fields c.isLt (by decide) (by decide) s).1, rfl⟩

theorem completes_ctxDrainDone {c : Fin 256} {s : State} (hst : (ctx s c).st = .draining) (hf : (ctx s c).fetched = []) :
    Completes (.ctxDrainDone c) s fun t => (ctx t c).st = .disabled ∧
      (s.hifCmd = some c.val → t.hifCmd = none ∧ flag t F.HIF_CTX_CMD_STATUS_BUSY = false ∧
        get t F.HIF_CTX_CMD_STATUS_RESULT = 0) := by
  refine ⟨_, congrArg Host.Outcome.next (if_pos ⟨hst, hf⟩), ?_⟩
  extract_lets s1
  have hctx : (ctx s1 c).st = .disabled := by rw [ctx_setCtx_same]
  by_cases hc : s.hifCmd = some c.val
  · rw [if_pos hc]
    generalize hu : ({ s1 with hifCmd := none } : State) = u
    refine ⟨by rw [clrF, ctx_put, ctx_cmdStatus, ← hu]; exact hctx, fun _ => ⟨by rw [← hu]; rfl, ?_, ?_⟩⟩
    · exact flag_clrF_same _ _ (by decide)
    · rw [clrF, get_put_disjoint _ _ _ _ (by decide) (by decide)]
      exact (cmdStatus_fields c.isLt (by decide) (by decide) u).1
  · rw [if_neg hc]
    exact ⟨hctx, fun h => absurd h hc⟩

/-- Each of the three commands runs under the checks that refuse it at once. -/
theorem exec_ctxCommand {sec : Bool} {c : Fin 256} {cmd : Nat} {i : Instr}
    (hi : (i, cmd) ∈ [(Instr.ctxEnable sec c, 1), (.ctxDisable sec c, 2), (.ctxResume sec c, 3)]) (s : State) :
    ∃ k, exec i s = .next (ctxCommand sec c cmd k s) := by
  simp only [List.mem_cons, Prod.mk.injEq, List.not_mem_nil, or_false] at hi
  obtain ⟨rfl, rfl⟩ | ⟨rfl, rfl⟩ | ⟨rfl, rfl⟩ := hi
  · exact ⟨_, rfl⟩
  · exact ⟨_, rfl⟩
  · exact ⟨_, rfl⟩

theorem cmdRefused_lt {sec : Bool} {c : Fin 256} {s : State} {r : Nat} (h : cmdRefused sec c s = some r) : r < 2 ^ 4 := by
  unfold cmdRefused at h
  split_ifs at h <;> cases h <;> decide

theorem completes_refusedCommand {sec : Bool} {c : Fin 256} {s : State} {r cmd : Nat} {i : Instr}
    (h : accessOk sec R.HIF_CTX_CMD s = true)
    (hi : (i, cmd) ∈ [(Instr.ctxEnable sec c, 1), (.ctxDisable sec c, 2), (.ctxResume sec c, 3)])
    (hr : cmdRefused sec c s = some r) :
    Completes i s fun t => get t F.HIF_CTX_CMD_STATUS_RESULT = r ∧ get t F.HIF_CTX_CMD_STATUS_CTX = c.val ∧
      get t F.HIF_CTX_CMD_STATUS_CMD = cmd ∧ flag t F.HIF_CTX_CMD_STATUS_BUSY = flag s F.HIF_CTX_CMD_STATUS_BUSY ∧
      t.ctxs = s.ctxs := by
  obtain ⟨k, hk⟩ := exec_ctxCommand hi s
  have hcmd : cmd < 2 ^ 3 := by
    simp only [List.mem_cons, Prod.mk.injEq, List.not_mem_nil, or_false] at hi
    omega
  rw [ctxCommand_refused h hr cmd k] at hk
  obtain ⟨hresult, hctx, hshown, hbusy⟩ := cmdStatus_fields c.isLt hcmd (cmdRefused_lt hr) s
  exact ⟨_, hk, hresult, hctx, hshown, hbusy, rfl⟩

/-- Settles O12: each command shows its result in CTX_CMD_STATUS, behind what it does to its context. -/
theorem contextCommands : Obligations.ContextCommands :=
  ⟨fun _ _ _ _ _ _ h hi hr => completes_refusedCommand h hi hr, fun _ _ _ h hr => completes_ctxEnable h hr,
    fun _ _ _ h hr => completes_ctxDisable h hr, fun _ _ _ h hr => completes_ctxResume h hr,
    fun _ _ hst hf => completes_ctxDrainDone hst hf⟩

end Machine
end Sys2Proof

namespace Sys2Proof
namespace Machine

/-! ## Doorbells (R39, R45, R46) -/

theorem ringN_setCtx (c k : Fin 256) (f : Ctx → Ctx) (s : State) : ringN (setCtx c f s) k = ringN s k := rfl

/-- A doorbell that may ring is recorded by `f` (R45). -/
theorem doorbell_recorded {c : Fin 256} {s : State} (h : (ctx s c).st = .active ∨ (ctx s c).st = .stopped) (off : Nat)
    {v : Nat} (hv : v % 4096 < ringN s c) (f : Nat → Ctx → Ctx) :
    doorbell c off v f s = setCtx c (f (v % 4096)) s := by
  have hst : ¬ ((ctx s c).st = .disabled ∨ (ctx s c).st = .draining) := by
    obtain h | h := h <;> simp [h]
  rw [doorbell, if_neg hst, if_neg (Nat.not_le.2 hv)]

/-- Any other doorbell is discarded, with the kind of its fault (R46). -/
theorem doorbell_discarded {c : Fin 256} {s : State} {v : Nat}
    (h : (ctx s c).st = .disabled ∨ (ctx s c).st = .draining ∨ ringN s c ≤ v % 4096) (off : Nat) (f : Nat → Ctx → Ctx) :
    doorbell c off v f s =
      doorbellReject (256 * c + off) (if (ctx s c).st = .disabled ∨ (ctx s c).st = .draining then 3 else 4) s := by
  unfold doorbell
  by_cases hst : (ctx s c).st = .disabled ∨ (ctx s c).st = .draining
  · rw [if_pos hst, if_pos hst]
  · rw [if_neg hst, if_neg hst, if_pos ((or_assoc.2 h).resolve_left hst)]

/-- A discarded doorbell shows in ERR_STATUS and ACCESS_ERR and leaves the contexts. -/
theorem doorbellReject_fields {off kind : Nat} (hoff : off < 2 ^ 24) (hkind : kind < 2 ^ 4) (s : State) :
    (doorbellReject off kind s).ctxs = s.ctxs ∧
      flag (doorbellReject off kind s) F.HIF_ERR_STATUS_DOORBELL_REJECT = true ∧
      rdN (doorbellReject off kind s) R.HIF_ACCESS_ERR = off + 2 ^ 24 * kind + 2 ^ 28 := by
  unfold doorbellReject
  refine ⟨by rw [raise_ctxs, setF_ctxs, accessErr, wrN_ctxs], ?_, ?_⟩
  · rw [flag_raise (by decide) _ (by decide)]
    exact flag_setF_same _ _ (by decide) rfl
  · rw [rdN_raise (by decide) _ (by decide), setF, rdN_put_other _ _ _ (by decide), accessErr, rdN_wrN_same]
    omega

theorem sqTailDoorbell_host {c : Fin 256} (hc : c.val ≠ 0) (v : Word) (s : State) :
    sqTailDoorbell c v none s = doorbell c 0 v.toNat (fun t x => { x with sqTail := t }) s := if_neg hc

theorem sqTailDoorbell_host_both {c : Fin 256} (hc : c.val ≠ 0) (v h : Word) (s : State) :
    sqTailDoorbell c v (some h) s = doorbell c 4 h.toNat (fun t x => { x with cqHead := t })
      (doorbell c 0 v.toNat (fun t x => { x with sqTail := t }) s) := if_neg hc

theorem cqHeadDoorbell_host {c : Fin 256} (hc : c.val ≠ 0) (v : Word) (s : State) :
    cqHeadDoorbell c v s = doorbell c 4 v.toNat (fun t x => { x with cqHead := t }) s := if_neg hc

theorem completes_sqTailDoorbell {c : Fin 256} {v : Word} {s : State} (hc : c.val ≠ 0)
    (hst : (ctx s c).st = .active ∨ (ctx s c).st = .stopped) (hv : v.toNat % 4096 < ringN s c) :
    Completes (.sqTailDoorbell c v none) s fun t => ctx t c = { ctx s c with sqTail := v.toNat % 4096 } ∧
      (∀ k : Fin 256, k ≠ c → ctx t k = ctx s k) ∧ t.regs = s.regs :=
  ⟨_, congrArg Host.Outcome.next ((sqTailDoorbell_host hc v s).trans (doorbell_recorded hst 0 hv _)),
    ctx_setCtx_same _ _ _, fun _ hk => ctx_setCtx_other _ _ hk, rfl⟩

theorem completes_cqHeadDoorbell {c : Fin 256} {v : Word} {s : State} (hc : c.val ≠ 0)
    (hst : (ctx s c).st = .active ∨ (ctx s c).st = .stopped) (hv : v.toNat % 4096 < ringN s c) :
    Completes (.cqHeadDoorbell c v) s fun t => ctx t c = { ctx s c with cqHead := v.toNat % 4096 } ∧
      (∀ k : Fin 256, k ≠ c → ctx t k = ctx s k) ∧ t.regs = s.regs :=
  ⟨_, congrArg Host.Outcome.next ((cqHeadDoorbell_host hc v s).trans (doorbell_recorded hst 4 hv _)),
    ctx_setCtx_same _ _ _, fun _ hk => ctx_setCtx_other _ _ hk, rfl⟩

theorem completes_bothDoorbells {c : Fin 256} {v h : Word} {s : State} (hc : c.val ≠ 0)
    (hst : (ctx s c).st = .active ∨ (ctx s c).st = .stopped) (hv : v.toNat % 4096 < ringN s c)
    (hh : h.toNat % 4096 < ringN s c) :
    Completes (.sqTailDoorbell c v (some h)) s fun t =>
      ctx t c = { ctx s c with sqTail := v.toNat % 4096, cqHead := h.toNat % 4096 } := by
  have hlow := doorbell_recorded hst 0 hv fun t x => { x with sqTail := t }
  have hst' : (ctx (setCtx c (fun x => { x with sqTail := v.toNat % 4096 }) s) c).st = .active ∨
      (ctx (setCtx c (fun x => { x with sqTail := v.toNat % 4096 }) s) c).st = .stopped := by
    rw [ctx_setCtx_same]; exact hst
  have he := sqTailDoorbell_host_both hc v h s
  rw [hlow, doorbell_recorded hst' 4 (by rw [ringN_setCtx]; exact hh)] at he
  refine ⟨_, congrArg Host.Outcome.next he, ?_⟩
  beta_reduce
  rw [ctx_setCtx_same, ctx_setCtx_same]

/-- The two doorbells of a host context, by their offsets in its page. -/
theorem exec_hostDoorbell {c : Fin 256} {v : Word} {i : Instr} {off : Nat} (hc : c.val ≠ 0)
    (hi : (i, off) ∈ [(Instr.sqTailDoorbell c v none, 0), (.cqHeadDoorbell c v, 4)]) (s : State) :
    off ≤ 4 ∧ ∃ f, exec i s = .next (doorbell c off v.toNat f s) := by
  simp only [List.mem_cons, Prod.mk.injEq, List.not_mem_nil, or_false] at hi
  obtain ⟨rfl, rfl⟩ | ⟨rfl, rfl⟩ := hi
  · exact ⟨by decide, _, congrArg Host.Outcome.next (sqTailDoorbell_host hc v s)⟩
  · exact ⟨le_rfl, _, congrArg Host.Outcome.next (cqHeadDoorbell_host hc v s)⟩

theorem completes_discardedDoorbell {c : Fin 256} {v : Word} {s : State} {i : Instr} {off : Nat} (hc : c.val ≠ 0)
    (hi : (i, off) ∈ [(Instr.sqTailDoorbell c v none, 0), (.cqHeadDoorbell c v, 4)])
    (h : (ctx s c).st = .disabled ∨ (ctx s c).st = .draining ∨ ringN s c ≤ v.toNat % 4096) :
    Completes i s fun t => t.ctxs = s.ctxs ∧ flag t F.HIF_ERR_STATUS_DOORBELL_REJECT = true ∧
      rdN t R.HIF_ACCESS_ERR = 256 * c.val + off +
        2 ^ 24 * (if (ctx s c).st = .disabled ∨ (ctx s c).st = .draining then 3 else 4) + 2 ^ 28 := by
  obtain ⟨hoff, f, hrun⟩ := exec_hostDoorbell hc hi s
  rw [doorbell_discarded h] at hrun
  exact ⟨_, hrun, doorbellReject_fields (by omega) (by split_ifs <;> decide) s⟩

theorem completes_page0Doorbell {v : Word} {s : State} {i : Instr} {off : Nat}
    (hi : (i, off) ∈ [(Instr.sqTailDoorbell 0 v none, 0), (.cqHeadDoorbell 0 v, 4)]) :
    Completes i s fun t => t.ctxs = s.ctxs ∧ flag t F.TCK_FLAGS_WORLD_FAULT = true ∧
      flag t F.HIF_ERR_STATUS_ACCESS_ERROR = true ∧ rdN t R.HIF_ACCESS_ERR = off + 5 * 2 ^ 24 + 2 ^ 28 := by
  have hrun : off ≤ 4 ∧ exec i s = .next (doorbellPage0 off s) := by
    simp only [List.mem_cons, Prod.mk.injEq, List.not_mem_nil, or_false] at hi
    obtain ⟨rfl, rfl⟩ | ⟨rfl, rfl⟩ := hi
    · exact ⟨by decide, rfl⟩
    · exact ⟨le_rfl, rfl⟩
  obtain ⟨hoff, hrun⟩ := hrun
  obtain ⟨hflag, herr⟩ := worldFault_accessReported 3 0 true 1 off off 5 1 s
  refine ⟨_, hrun, ?_⟩
  rw [doorbellPage0_eq]
  exact ⟨by rw [worldFault_ctxs, accessReported_ctxs], flag_worldFault _ _ _ _ _ _, hflag, herr.trans (by omega)⟩

/-- Settles O13: a doorbell is recorded in its context, discarded with a report, or a world fault on page 0. -/
theorem doorbells : Obligations.Doorbells :=
  ⟨fun _ _ _ hc hst hv => ⟨completes_sqTailDoorbell hc hst hv, completes_cqHeadDoorbell hc hst hv,
      fun _ hh => completes_bothDoorbells hc hst hv hh⟩,
    fun _ _ _ _ _ hc hi h => completes_discardedDoorbell hc hi h, fun _ _ _ _ hi => completes_page0Doorbell hi⟩

/-! ## Failed payload reads (R63) -/

/-- The registers of a failed read: its address, context and kind, and the error bit. -/
def dmaErrorReg (o : Nat) : Bool :=
  eventReg o || [R.HIF_DMA_ERR_ADDR, R.HIF_DMA_ERR_ADDR + 4, R.HIF_DMA_ERR_INFO, R.HIF_ERR_STATUS].contains o

/-- A failed read as the host interface shows it. -/
def dmaErrorShown (a info kind : Nat) (s : State) : State :=
  raise 53 (lifeAdd (setF (wrN (wr64 s R.HIF_DMA_ERR_ADDR a) R.HIF_DMA_ERR_INFO info) F.HIF_ERR_STATUS_DMA_ERROR)
    (lifeNo 2 3 kind) 1)

theorem payloadFailAt_eq (c : Fin 256) (q a kind : Nat) (ra : Option Nat) (s : State) :
    payloadFailAt c q a kind ra s =
      complete c q stMEMORY_ERROR ra (some a) false (dmaErrorShown a (c.val + 2 ^ 8 * kind) kind s) := rfl

theorem dmaErrorShown_fields (a info kind : Nat) (s : State) :
    flag (dmaErrorShown a info kind s) F.HIF_ERR_STATUS_DMA_ERROR = true ∧
      rd64 (dmaErrorShown a info kind s) R.HIF_DMA_ERR_ADDR = a % 2 ^ 64 ∧
      rdN (dmaErrorShown a info kind s) R.HIF_DMA_ERR_INFO = info % 2 ^ 32 := by
  unfold dmaErrorShown
  refine ⟨?_, ?_, ?_⟩
  · rw [flag_raise (by decide) _ (by decide), flag_eq_of_rdN (rdN_lifeAdd _ _ _ _)]
    exact flag_setF_same _ _ (by decide) rfl
  · have hkept : ∀ o, eventReg o = false → F.HIF_ERR_STATUS_DMA_ERROR.off ≠ o → R.HIF_DMA_ERR_INFO ≠ o →
        rdN (dmaErrorShown a info kind s) o = rdN (wr64 s R.HIF_DMA_ERR_ADDR a) o := fun o he hf hi => by
      rw [dmaErrorShown, rdN_raise (by decide) _ he, rdN_lifeAdd, setF, rdN_put_other _ _ _ hf, rdN_wrN_other _ _ hi]
    exact (rd64_eq_of_rdN (hkept _ (by decide) (by decide) (by decide)) (hkept _ (by decide) (by decide) (by decide))).trans
      (rd64_wr64_same _ _ _)
  · rw [rdN_raise (by decide) _ (by decide), rdN_lifeAdd, setF, rdN_put_other _ _ _ (by decide), rdN_wrN_same]

theorem dmaErrorShown_writes (a info kind : Nat) (s : State) : OnlyWrites dmaErrorReg s (dmaErrorShown a info kind s) :=
  .raise (.lifeAdd (.put (.wrN (.wrN (.wrN (.refl s) _ (by decide)) _ (by decide)) _ (by decide)) 1 (by decide)) _ _)
    (by decide) fun o ho => by rw [dmaErrorReg, ho, Bool.true_or]

@[simp] theorem dmaErrorShown_ctxs (a info kind : Nat) (s : State) : (dmaErrorShown a info kind s).ctxs = s.ctxs := by
  rw [dmaErrorShown, raise_ctxs]; rfl

@[simp] theorem dmaErrorShown_now (a info kind : Nat) (s : State) : (dmaErrorShown a info kind s).now = s.now := by
  rw [dmaErrorShown, raise_now]; rfl

/-- A failed payload read decides its descriptor with MEMORY_ERROR and the address (R63). -/
theorem ctx_payloadFail (c : Fin 256) (q a kind : Nat) (s : State) :
    ∃ av, ctx (payloadFail c q a kind s) c = (ctx s c).settle q ⟨stMEMORY_ERROR, av, a, s.now, false⟩ := by
  obtain ⟨av, bv, h, -, hb⟩ :=
    ctx_complete_same c q stMEMORY_ERROR none (some a) false (dmaErrorShown a (c.val + 2 ^ 8 * kind) kind s)
  obtain rfl := hb a rfl
  rw [dmaErrorShown_now, ctx_congr (dmaErrorShown_ctxs ..)] at h
  exact ⟨av, h⟩

theorem rdN_payloadFail (c : Fin 256) (q a kind : Nat) (s : State) (o : Nat) :
    rdN (payloadFail c q a kind s) o = rdN (dmaErrorShown a (c.val + 2 ^ 8 * kind) kind s) o := rdN_complete ..

theorem completes_payloadReadError {c : Fin 256} {d : Desc} {s : State} (a kind : Nat)
    (hd : runningDesc (ctx s c) (fun _ => true) = some d) :
    Completes (.payloadReadError c a kind) s fun t => (∃ x k, (ctx t c).hist =
        settleHist d.seq ⟨stMEMORY_ERROR, x, a, s.now, k⟩ (ctx s c).hist) ∧
      flag t F.HIF_ERR_STATUS_DMA_ERROR = true ∧ rd64 t R.HIF_DMA_ERR_ADDR = a % 2 ^ 64 ∧
      rdN t R.HIF_DMA_ERR_INFO = (c.val + 2 ^ 8 * kind) % 2 ^ 32 := by
  have he : payloadReadError c a kind s = payloadFail c d.seq a kind s := by rw [payloadReadError, hd]
  obtain ⟨x, hctx⟩ := ctx_payloadFail c d.seq a kind s
  obtain ⟨hflag, haddr, hinfo⟩ := dmaErrorShown_fields a (c.val + 2 ^ 8 * kind) kind s
  have hreg := rdN_payloadFail c d.seq a kind s
  exact ⟨_, congrArg Host.Outcome.next he, ⟨x, false, by rw [hctx]; rfl⟩, (flag_eq_of_rdN (hreg _)).trans hflag,
    (rd64_eq_of_rdN (hreg _) (hreg _)).trans haddr, (hreg _).trans hinfo⟩

/-! ## Interrupt ageing and back-pressure (R58, R60) -/

/-- The state in which one cycle of the fabric clock begins. -/
def cycleStart (s : State) : State := { s with cycleVecs := some [] }

@[simp] theorem ctx_cycleStart (s : State) (c : Fin 256) : ctx (cycleStart s) c = ctx s c := rfl

@[simp] theorem ctx_oneCycle (f : State → State) (s : State) (c : Fin 256) : ctx (oneCycle f s) c = ctx (f (cycleStart s)) c := rfl

@[simp] theorem oneCycle_out (f : State → State) (s : State) : (oneCycle f s).out = (f (cycleStart s)).out := rfl

/-- The first signal of an unmasked vector in a cycle goes out (R58). -/
theorem signalVector_first {v : Nat} {s : State} (hc : s.cycleVecs = some []) (hm : flag s (F.HIF_MSIX_CTRL_MASK v) = false) :
    (signalVector v s).out = s.out ++ [msixOut v s] := by
  have hnew : ¬ (s.cycleVecs.getD []).contains v = true := by rw [hc]; exact Bool.false_ne_true
  have hmask : ¬ flag { s with cycleVecs := s.cycleVecs.map (v :: ·) } (F.HIF_MSIX_CTRL_MASK v) = true := by
    rw [show flag { s with cycleVecs := s.cycleVecs.map (v :: ·) } (F.HIF_MSIX_CTRL_MASK v) = _ from hm]
    exact Bool.false_ne_true
  rw [signalVector, if_neg hnew, signalOut, if_neg hmask]
  rfl

theorem irqAgeExpiry_due {c : Fin 256} {s : State} (hn : 0 < (ctx s c).irqN) (ht : get s (F.HIF_CTX_IRQ_TIME c) ≠ 0)
    (hage : get s (F.HIF_CTX_IRQ_TIME c) ≤ (s.beam - (ctx s c).irqSince) / 1000) :
    irqAgeExpiry c s =
      setCtx c (fun x => { x with irqN := 0 }) (signalVector (get s (F.HIF_CTX_CFG_VECTOR c)) s) := if_pos ⟨hn, ht, hage⟩

theorem completes_irqAgeExpiry {c : Fin 256} {s : State} (hn : 0 < (ctx s c).irqN) (ht : get s (F.HIF_CTX_IRQ_TIME c) ≠ 0)
    (hage : get s (F.HIF_CTX_IRQ_TIME c) ≤ (s.beam - (ctx s c).irqSince) / 1000) :
    Completes (.irqAgeExpiry c) s fun t => (ctx t c).irqN = 0 ∧
      (flag s (F.HIF_MSIX_CTRL_MASK (get s (F.HIF_CTX_CFG_VECTOR c))) = false →
        t.out = s.out ++ [msixOut (get s (F.HIF_CTX_CFG_VECTOR c)) s]) := by
  refine ⟨oneCycle (irqAgeExpiry c) s, rfl, ?_, fun hm => ?_⟩
  · rw [ctx_oneCycle, irqAgeExpiry_due (s := cycleStart s) hn ht hage, ctx_setCtx_same]
  · rw [oneCycle_out, irqAgeExpiry_due (s := cycleStart s) hn ht hage, setCtx_out]
    exact signalVector_first rfl hm

theorem completes_hifBackpressure {c : Fin 256} {s : State} (ht : rdN s R.HIF_BP_THRESHOLD % 2 ^ 20 ≠ 0)
    (htold : (ctx s c).bpTold = false) (hwait : rdN s R.HIF_BP_THRESHOLD % 2 ^ 20 * 1000 < (ctx s c).bpWait) :
    Completes (.hifBackpressure c) s fun t => (ctx t c).bpTold = true ∧ flag t (pendBit 55) = true := by
  have hdue : ¬ (ctx s c).bpTold = true := by rw [htold]; exact Bool.false_ne_true
  refine ⟨_, congrArg Host.Outcome.next (if_pos ⟨ht, hwait, hdue⟩), ?_, flag_raise_same (by decide) _⟩
  rw [ctx_raise, ctx_setCtx_same]

/-- Settles O16: each wait or error has its lemma. -/
theorem hostWaitsAndErrors : Obligations.HostWaitsAndErrors :=
  ⟨fun _ a kind _ _ hd => completes_payloadReadError a kind hd, fun _ _ hn ht hage => completes_irqAgeExpiry hn ht hage,
    fun _ _ ht htold hwait => completes_hifBackpressure ht htold hwait⟩

end Machine
end Sys2Proof

namespace Sys2Proof
namespace Machine

/-! ## LAST_SEQ (R51) -/

theorem lastSeqWrite_disabled {c : Fin 256} {s : State} (h : (ctx s c).st = .disabled) (v : Word) :
    lastSeqWrite c v s = setCtx c (fun x => { x with hist := [] }) (wr s (R.HIF_CTX_LAST_SEQ c) v) := if_pos h

theorem completes_lastSeqWrite {sec : Bool} {c : Fin 256} (v : Word) {s : State}
    (h : accessOk sec (R.HIF_CTX_LAST_SEQ c) s = true) (hst : (ctx s c).st = .disabled) :
    Completes (.lastSeqWrite sec c v) s fun t => rd t (R.HIF_CTX_LAST_SEQ c) = v ∧ (ctx t c).hist = [] ∧
      ∀ o, o ≠ R.HIF_CTX_LAST_SEQ c → rd t o = rd s o := by
  refine ⟨_, congrArg Host.Outcome.next ((hostWrite_ok h _).trans (lastSeqWrite_disabled hst v)), rd_wr_same _ _ _, ?_,
    fun o ho => rd_wr_other s v ho.symm⟩
  rw [ctx_setCtx_same]

theorem exec_lastSeqWrite_enabled {sec : Bool} {c : Fin 256} (v : Word) {s : State}
    (h : accessOk sec (R.HIF_CTX_LAST_SEQ c) s = true) (hst : (ctx s c).st ≠ .disabled) :
    exec (.lastSeqWrite sec c v) s = .next s := congrArg Host.Outcome.next ((hostWrite_ok h _).trans (if_neg hst))

/-! ## The mailbox (R66, R67) -/

/-- The state in which a request is taken: no response is there, and none is to be dropped. -/
def mboxTaken (s : State) : State :=
  { s with mboxReply := none, mboxDrop := false, mboxVer := get s F.HIF_VERSION_AGREED_AGREED }

theorem mailboxPost_idle {v : Word} {s : State} (hv : v.toNat % 2 = 1) (hb : flag s F.HIF_MBOX_STATUS_BUSY = false) :
    mailboxPost v s =
      put (clrF (setF (mboxTaken s) F.HIF_MBOX_STATUS_BUSY) F.HIF_MBOX_STATUS_DONE) F.HIF_MBOX_STATUS_TOKEN
        (rdN s (R.HIF_MBOX_REQ 0) / 2 ^ 16) := by
  rw [mailboxPost, if_neg (by omega), if_neg (by rw [hb]; exact Bool.false_ne_true)]
  rfl

theorem completes_mailboxPost {v : Word} {s : State} (hv : v.toNat % 2 = 1) (hb : flag s F.HIF_MBOX_STATUS_BUSY = false) :
    Completes (.mailboxPost v) s fun t => flag t F.HIF_MBOX_STATUS_BUSY = true ∧ flag t F.HIF_MBOX_STATUS_DONE = false ∧
      get t F.HIF_MBOX_STATUS_TOKEN = rdN s (R.HIF_MBOX_REQ 0) / 2 ^ 16 ∧ t.mboxReply = none := by
  refine ⟨_, congrArg Host.Outcome.next (mailboxPost_idle hv hb), ?_, ?_, ?_, rfl⟩
  · rw [flag_put_disjoint _ _ _ _ (by decide) (by decide), clrF, flag_put_disjoint _ _ _ _ (by decide) (by decide)]
    exact flag_setF_same _ _ (by decide) rfl
  · rw [flag_put_disjoint _ _ _ _ (by decide) (by decide)]
    exact flag_clrF_same _ _ (by decide)
  · rw [get_put_same _ _ _ (by decide)]
    refine Nat.mod_eq_of_lt ?_
    have := rdN_lt s (R.HIF_MBOX_REQ 0)
    show _ < 2 ^ 16
    omega

theorem completes_mailboxOverrun {v : Word} {s : State} (hv : v.toNat % 2 = 1) (hb : flag s F.HIF_MBOX_STATUS_BUSY = true) :
    Completes (.mailboxPost v) s fun t => flag t F.HIF_MBOX_STATUS_OVERRUN = true ∧
      flag t F.HIF_ERR_STATUS_MBOX_OVERRUN = true ∧ flag t F.HIF_MBOX_STATUS_BUSY = true := by
  refine ⟨mboxOverrun s, congrArg Host.Outcome.next ((if_neg (by omega)).trans (if_pos hb)), ?_, ?_, ?_⟩
  · rw [mboxOverrun, setF, flag_put_other _ _ _ _ (by decide)]
    exact flag_setF_same _ _ (by decide) rfl
  · exact flag_setF_same _ _ (by decide) rfl
  · rw [mboxOverrun, setF, flag_put_other _ _ _ _ (by decide), setF, flag_put_disjoint _ _ _ _ (by decide) (by decide), hb]

/-- The words of a response from the `n`-th on. -/
def mboxWriteFrom (n : Nat) (ws : List Nat) (s : State) : State :=
  (ws.zipIdx n).foldl (fun s p => wrN s (R.HIF_MBOX_RSP p.2) p.1) s

theorem mboxWriteFrom_cons (n w : Nat) (ws : List Nat) (s : State) :
    mboxWriteFrom n (w :: ws) s = mboxWriteFrom (n + 1) ws (wrN s (R.HIF_MBOX_RSP n) w) := rfl

theorem rdN_mboxWriteFrom_outside (ws : List Nat) {n o : Nat} (s : State)
    (h : o < R.HIF_MBOX_RSP n ∨ R.HIF_MBOX_RSP (n + ws.length) ≤ o) : rdN (mboxWriteFrom n ws s) o = rdN s o := by
  simp only [R.HIF_MBOX_RSP] at h
  induction ws generalizing n s with
  | nil => rfl
  | cons w ws ih =>
    rw [List.length_cons] at h
    rw [mboxWriteFrom_cons, ih _ (by omega), rdN_wrN_other _ _ (by simp only [R.HIF_MBOX_RSP]; omega)]

theorem rdN_mboxWriteFrom (ws : List Nat) (n : Nat) (s : State) {i : Nat} (h : i < ws.length) :
    rdN (mboxWriteFrom n ws s) (R.HIF_MBOX_RSP (n + i)) = ws.getD i 0 % 2 ^ 32 := by
  induction ws generalizing n s i with
  | nil => cases h
  | cons w ws ih =>
    rw [mboxWriteFrom_cons]
    cases i with
    | zero =>
      rw [rdN_mboxWriteFrom_outside _ _ (.inl (by simp only [R.HIF_MBOX_RSP]; omega)), Nat.add_zero, rdN_wrN_same]
      rfl
    | succ i =>
      rw [← Nat.add_assoc, Nat.add_right_comm, ih (n + 1) _ (by simpa using h)]
      rfl

/-- The state in which a response is given up to the host: none waits any more. -/
def mboxAnswered (s : State) : State := clrF { s with mboxReply := none, mboxDrop := false } F.HIF_MBOX_STATUS_BUSY

theorem mailboxResponse_ready {ws : List Nat} {s : State} (hb : flag s F.HIF_MBOX_STATUS_BUSY = true)
    (htack : tackBusy s = false) (hdrop : s.mboxDrop = false) (hhead : mboxHeaderReply s = none) (hr : s.mboxReply = some ws) :
    mailboxResponse s = raise 56 (setF (mboxWriteFrom 0 ws (mboxAnswered s)) F.HIF_MBOX_STATUS_DONE) := by
  rw [mailboxResponse, if_neg (by simp [hb, htack]), hhead, hr]
  exact if_neg (by rw [hdrop]; exact Bool.false_ne_true)

theorem mboxWriteFrom_mboxReply (n : Nat) (ws : List Nat) (s : State) : (mboxWriteFrom n ws s).mboxReply = s.mboxReply := by
  induction ws generalizing n s with
  | nil => rfl
  | cons w ws ih => rw [mboxWriteFrom_cons, ih]; rfl

theorem completes_mailboxResponse {ws : List Nat} {s : State} (hb : flag s F.HIF_MBOX_STATUS_BUSY = true)
    (htack : tackBusy s = false) (hdrop : s.mboxDrop = false) (hhead : mboxHeaderReply s = none) (hr : s.mboxReply = some ws)
    (hlen : ws.length = 16) :
    Completes .mailboxResponse s fun t => flag t F.HIF_MBOX_STATUS_BUSY = false ∧ flag t F.HIF_MBOX_STATUS_DONE = true ∧
      t.mboxReply = none ∧ flag t (pendBit 56) = true ∧ ∀ i, i < 16 → rdN t (R.HIF_MBOX_RSP i) = ws.getD i 0 % 2 ^ 32 := by
  refine ⟨_, congrArg Host.Outcome.next (mailboxResponse_ready hb htack hdrop hhead hr), ?_, ?_, ?_, ?_, fun i hi => ?_⟩
  · rw [flag_raise (by decide) _ (by decide), setF, flag_put_disjoint _ _ _ _ (by decide) (by decide),
      flag_eq_of_rdN (rdN_mboxWriteFrom_outside ws _ (.inr (by rw [hlen]; decide)))]
    exact flag_clrF_same _ _ (by decide)
  · rw [flag_raise (by decide) _ (by decide)]
    exact flag_setF_same _ _ (by decide) rfl
  · rw [raise_mboxReply]
    exact mboxWriteFrom_mboxReply 0 ws _
  · exact flag_raise_same (by decide) _
  · have hrsp : eventReg (R.HIF_MBOX_RSP i) = false := by
      rw [eventReg, decide_eq_false_iff_not]; simp only [R.HIF_MBOX_RSP]; omega
    have hfield : F.HIF_MBOX_STATUS_DONE.off ≠ R.HIF_MBOX_RSP i := by
      simp only [F.HIF_MBOX_STATUS_DONE, R.HIF_MBOX_STATUS, R.HIF_MBOX_RSP]; omega
    rw [rdN_raise (by decide) _ hrsp, setF, rdN_put_other _ _ _ hfield]
    have hword := rdN_mboxWriteFrom ws 0 (mboxAnswered s) (hi.trans_eq hlen.symm)
    rwa [Nat.zero_add] at hword

/-! ## The data link (R68, R71) -/

/-- STATUS with a speed and a width put. -/
def linkShown (speed width : Nat) (s : State) : State :=
  put (put s F.HIF_STATUS_LINK_SPEED speed) F.HIF_STATUS_LINK_WIDTH width

theorem linkShown_fields {speed width : Nat} (hs : speed < 8) (hw : width < 8) (s : State) :
    flag (linkShown speed width s) F.HIF_STATUS_LINK_UP = flag s F.HIF_STATUS_LINK_UP ∧
      get (linkShown speed width s) F.HIF_STATUS_LINK_SPEED = speed ∧
      get (linkShown speed width s) F.HIF_STATUS_LINK_WIDTH = width := by
  unfold linkShown
  refine ⟨?_, ?_, ?_⟩
  · rw [flag_put_disjoint _ _ _ _ (by decide) (by decide), flag_put_disjoint _ _ _ _ (by decide) (by decide)]
  · rw [get_put_disjoint _ _ _ _ (by decide) (by decide), get_put_same _ _ _ (by decide)]
    exact Nat.mod_eq_of_lt hs
  · rw [get_put_same _ _ _ (by decide)]
    exact Nat.mod_eq_of_lt hw

theorem completes_dataLinkUp {speed width : Nat} (hs : speed < 8) (hw : width < 8) (s : State) :
    Completes (.dataLinkUp speed width) s fun t => flag t F.HIF_STATUS_LINK_UP = true ∧
      get t F.HIF_STATUS_LINK_SPEED = speed ∧ get t F.HIF_STATUS_LINK_WIDTH = width ∧ flag t (pendBit 49) = true := by
  refine ⟨raise 49 (linkShown speed width (setF s F.HIF_STATUS_LINK_UP)), rfl, ?_⟩
  obtain ⟨hup, hspeed, hwidth⟩ := linkShown_fields hs hw (setF s F.HIF_STATUS_LINK_UP)
  rw [flag_raise (by decide) _ (by decide), get_raise (by decide) _ (by decide), get_raise (by decide) _ (by decide), hup]
  exact ⟨flag_setF_same _ _ (by decide) rfl, hspeed, hwidth, flag_raise_same (by decide) _⟩

theorem completes_linkSpeedWidthChange {speed width : Nat} (hs : speed < 8) (hw : width < 8) {s : State}
    (hup : flag s F.HIF_STATUS_LINK_UP = true) :
    Completes (.linkSpeedWidthChange speed width) s fun t => flag t F.HIF_STATUS_LINK_UP = true ∧
      get t F.HIF_STATUS_LINK_SPEED = speed ∧ get t F.HIF_STATUS_LINK_WIDTH = width := by
  refine ⟨_, congrArg Host.Outcome.next (if_pos hup), ?_⟩
  extract_lets s1
  have hcount : (if speed < 4 ∨ width < 4 then lifeAdd s1 (lifeNo 2 1 0) 1 else s1).regs = s1.regs := by
    split <;> rfl
  have hkept : OnlyWrites eventReg s1 (raise 49 (if speed < 4 ∨ width < 4 then lifeAdd s1 (lifeNo 2 1 0) 1 else s1)) :=
    .raise (.regs (.refl s1) hcount) (by decide) fun _ ho => ho
  obtain ⟨hkeep, hspeed, hwidth⟩ := linkShown_fields hs hw s
  exact ⟨(hkept.flag_eq (f := F.HIF_STATUS_LINK_UP) (by decide)).trans (hkeep.trans hup),
    (hkept.get_eq (f := F.HIF_STATUS_LINK_SPEED) (by decide)).trans hspeed,
    (hkept.get_eq (f := F.HIF_STATUS_LINK_WIDTH) (by decide)).trans hwidth⟩

theorem completes_l1Change (b : Bool) (s : State) :
    Completes (.l1Change b) s fun t => flag t F.HIF_STATUS_IN_L1 = b ∧ ∀ o, o ≠ R.HIF_STATUS → rdN t o = rdN s o := by
  refine ⟨_, rfl, ?_, fun o ho => rdN_put_other _ _ _ ho.symm⟩
  rw [flag, get_put_same _ _ _ (by decide)]
  cases b <;> rfl

/-- Settles O18: each register of the host interface keeps to the fields that its command writes. -/
theorem hostSettings : Obligations.HostSettings :=
  ⟨fun _ _ v _ h => ⟨completes_lastSeqWrite v h, exec_lastSeqWrite_enabled v h⟩,
    fun _ _ hv => ⟨completes_mailboxPost hv, completes_mailboxOverrun hv⟩,
    fun _ _ hb htack hdrop hhead hr hlen => completes_mailboxResponse hb htack hdrop hhead hr hlen,
    fun _ _ s hs hw => ⟨completes_dataLinkUp hs hw s, completes_linkSpeedWidthChange hs hw⟩, completes_l1Change⟩

end Machine
end Sys2Proof

namespace Sys2Proof
namespace Machine

/-! ## Taking one fetched descriptor (R49, R51, R52) -/

/-- A descriptor as a burst reads it. -/
def Desc.read (r : RawDesc) : Desc := ⟨r, false, false, false, 0, none⟩

theorem Desc.seq_lt (d : Desc) : d.seq < 2 ^ 32 := bits_lt _ _ _

/-- A descriptor that check 1 accepts: LAST_SEQ moves and the history has it (R51). -/
def descAccepted (c : Fin 256) (d : Desc) (s : State) : State :=
  setCtx c (fun x => { x with fetched := x.fetched ++ [d], hist := (⟨d.seq, d.op, none⟩ :: x.hist).take 64 })
    (wrN s (R.HIF_CTX_LAST_SEQ c) d.seq)

theorem ctx_descAccepted (c : Fin 256) (d : Desc) (s : State) :
    ctx (descAccepted c d s) c =
      { ctx s c with fetched := (ctx s c).fetched ++ [d], hist := (⟨d.seq, d.op, none⟩ :: (ctx s c).hist).take 64 } :=
  ctx_setCtx_same _ _ _

/-- A newer SEQ is accepted, and a failed header check completes it (R49, R51). -/
theorem takeDesc_newer {c : Fin 256} {r : RawDesc} {s : State}
    (h : seqNewer (rdN s (R.HIF_CTX_LAST_SEQ c)) (Desc.read r).seq = true) :
    takeDesc c r s = descAccepted c (.read r) s ∨
      ∃ st a, takeDesc c r s = complete c (Desc.read r).seq st (some a) none false (descAccepted c (.read r) s) := by
  have he : takeDesc c r s =
      match headerCheck (get s (F.HIF_CTX_CFG_TYPE c)) (get s F.HIF_VERSION_AGREED_AGREED) (Desc.read r) with
      | some (st, a) => complete c (Desc.read r).seq st (some a) none false (descAccepted c (.read r) s)
      | none => descAccepted c (.read r) s := if_pos h
  rw [he]
  cases headerCheck (get s (F.HIF_CTX_CFG_TYPE c)) (get s F.HIF_VERSION_AGREED_AGREED) (Desc.read r) with
  | some p => exact .inr ⟨p.1, p.2, rfl⟩
  | none => exact .inl rfl

/-- Any other SEQ is fetched as a DUPLICATE (R52). -/
theorem takeDesc_duplicate {c : Fin 256} {r : RawDesc} {s : State}
    (h : ¬ seqNewer (rdN s (R.HIF_CTX_LAST_SEQ c)) (Desc.read r).seq = true) :
    ∃ e : Desc, e.dup = true ∧ takeDesc c r s = setCtx c (fun x => { x with fetched := x.fetched ++ [e] }) s := by
  refine ⟨_, ?_, if_neg h⟩
  split <;> rfl

theorem length_settleDescs (q : Nat) (k : Compl) (l : List Desc) : (settleDescs q k l).length = l.length :=
  List.length_map _

/-- A taken descriptor is one more fetched, and the ring's head and the context's state wait for the burst's end. -/
theorem takeDesc_fields (c : Fin 256) (r : RawDesc) (s : State) :
    (ctx (takeDesc c r s) c).fetched.length = (ctx s c).fetched.length + 1 ∧
      (ctx (takeDesc c r s) c).sqHead = (ctx s c).sqHead ∧ (ctx (takeDesc c r s) c).st = (ctx s c).st := by
  by_cases h : seqNewer (rdN s (R.HIF_CTX_LAST_SEQ c)) (Desc.read r).seq = true
  · obtain he | ⟨st, a, he⟩ := takeDesc_newer h
    · rw [he, ctx_descAccepted]
      exact ⟨List.length_append, rfl, rfl⟩
    · obtain ⟨av, bv, hctx, -⟩ := ctx_complete_same c (Desc.read r).seq st (some a) none false (descAccepted c (.read r) s)
      rw [he, hctx, ctx_descAccepted]
      exact ⟨(length_settleDescs _ _ _).trans List.length_append, rfl, rfl⟩
  · obtain ⟨e, -, he⟩ := takeDesc_duplicate h
    rw [he, ctx_setCtx_same]
    exact ⟨List.length_append, rfl, rfl⟩

/-- What becomes of LAST_SEQ, the history and the descriptor itself. -/
theorem takeDesc_outcome (c : Fin 256) (r : RawDesc) (s : State) :
    if seqNewer (rdN s (R.HIF_CTX_LAST_SEQ c)) (Desc.read r).seq then
      rdN (takeDesc c r s) (R.HIF_CTX_LAST_SEQ c) = (Desc.read r).seq ∧
        (ctx (takeDesc c r s) c).hist.head?.map HistEnt.seq = some (Desc.read r).seq
    else rdN (takeDesc c r s) (R.HIF_CTX_LAST_SEQ c) = rdN s (R.HIF_CTX_LAST_SEQ c) ∧
      (ctx (takeDesc c r s) c).hist = (ctx s c).hist ∧ (ctx (takeDesc c r s) c).fetched.getLast?.map Desc.dup = some true := by
  by_cases h : seqNewer (rdN s (R.HIF_CTX_LAST_SEQ c)) (Desc.read r).seq = true
  · have hlast : rdN (descAccepted c (.read r) s) (R.HIF_CTX_LAST_SEQ c) = (Desc.read r).seq := by
      rw [descAccepted, rdN_setCtx, rdN_wrN_same, Nat.mod_eq_of_lt (Desc.seq_lt _)]
    rw [if_pos h]
    obtain he | ⟨st, a, he⟩ := takeDesc_newer h
    · rw [he, ctx_descAccepted]
      exact ⟨hlast, rfl⟩
    · obtain ⟨av, bv, hctx, -⟩ := ctx_complete_same c (Desc.read r).seq st (some a) none false (descAccepted c (.read r) s)
      rw [he, hctx, ctx_descAccepted, rdN_complete]
      refine ⟨hlast, ?_⟩
      simp only [Ctx.settle, settleHist, List.take_succ_cons, List.map_cons, List.head?_cons, Option.map_some]
      split <;> rfl
  · obtain ⟨e, hdup, he⟩ := takeDesc_duplicate h
    rw [if_neg h, he, ctx_setCtx_same]
    exact ⟨rfl, rfl, by simp [hdup]⟩

/-! ## A fetch burst (R59, R61, R62) -/

/-- A burst's descriptors, one after the other. -/
def takeAll (c : Fin 256) (ds : List RawDesc) (s : State) : State := ds.foldl (fun s r => takeDesc c r s) s

theorem takeAll_cons (c : Fin 256) (r : RawDesc) (ds : List RawDesc) (s : State) :
    takeAll c (r :: ds) s = takeAll c ds (takeDesc c r s) := List.foldl_cons ..

theorem takeAll_nil (c : Fin 256) (s : State) : takeAll c [] s = s := List.foldl_nil

theorem takeAll_fields (c : Fin 256) (ds : List RawDesc) (s : State) :
    (ctx (takeAll c ds s) c).fetched.length = (ctx s c).fetched.length + ds.length ∧
      (ctx (takeAll c ds s) c).sqHead = (ctx s c).sqHead ∧ (ctx (takeAll c ds s) c).st = (ctx s c).st := by
  induction ds generalizing s with
  | nil => rw [takeAll_nil]; exact ⟨rfl, rfl, rfl⟩
  | cons r ds ih =>
    obtain ⟨hlen, hhead, hst⟩ := takeDesc_fields c r s
    obtain ⟨ihlen, ihhead, ihst⟩ := ih (takeDesc c r s)
    rw [takeAll_cons]
    exact ⟨by rw [ihlen, hlen, List.length_cons, Nat.add_assoc, Nat.add_comm 1], ihhead.trans hhead, ihst.trans hst⟩

theorem noteBurst_shape (c : Fin 256) (cls : Nat) (s : State) :
    ∃ x y z, noteBurst c cls s = { s with rrLast0 := x, rrLast1 := y, bursts := z } := by
  unfold noteBurst
  split
  · exact ⟨_, _, _, rfl⟩
  · exact ⟨_, _, _, rfl⟩

@[simp] theorem ctx_noteBurst (c : Fin 256) (cls : Nat) (s : State) (k : Fin 256) : ctx (noteBurst c cls s) k = ctx s k := by
  obtain ⟨_, _, _, h⟩ := noteBurst_shape c cls s; rw [h]; rfl

@[simp] theorem rdN_noteBurst (c : Fin 256) (cls : Nat) (s : State) (o : Nat) : rdN (noteBurst c cls s) o = rdN s o := by
  obtain ⟨_, _, _, h⟩ := noteBurst_shape c cls s; rw [h]; rfl

/-- The head of a submission ring moves. -/
def Ctx.headTo (n : Nat) (x : Ctx) : Ctx := { x with sqHead := n }

@[simp] theorem Ctx.headTo_sqHead (n : Nat) (x : Ctx) : (x.headTo n).sqHead = n := rfl
@[simp] theorem Ctx.headTo_fetched (n : Nat) (x : Ctx) : (x.headTo n).fetched = x.fetched := rfl
@[simp] theorem Ctx.headTo_hist (n : Nat) (x : Ctx) : (x.headTo n).hist = x.hist := rfl
@[simp] theorem Ctx.headTo_st (n : Nat) (x : Ctx) : (x.headTo n).st = x.st := rfl

/-- The state behind a burst of at most the length that the context may take. -/
def burstTaken (c : Fin 256) (cls : Nat) (descs : List RawDesc) (s : State) : State :=
  setCtx c (fun x => x.headTo ((x.sqHead + descs.length) % ringN s c)) (takeAll c descs (noteBurst c cls s))

/-- A burst takes its descriptors; a failure short of its length stops the context behind them (R62). -/
theorem descriptorFetch_eq {descs : List RawDesc} {c : Fin 256} {cls : Nat} {s : State} (hp : fetchPick s = some (c, cls))
    (hl : descs.length ≤ burstLen c s) (err : Option Nat) :
    descriptorFetch descs err s =
      match err with
      | some kind => if descs.length < burstLen c s then fetchError c kind (burstTaken c cls descs s) else burstTaken c cls descs s
      | none => burstTaken c cls descs s := by
  rw [descriptorFetch, hp]
  dsimp only
  rw [List.take_of_length_le hl]
  rfl

theorem burstTaken_fields (c : Fin 256) (cls : Nat) (descs : List RawDesc) (s : State) :
    (ctx (burstTaken c cls descs s) c).sqHead = ((ctx s c).sqHead + descs.length) % ringN s c ∧
      (ctx (burstTaken c cls descs s) c).fetched.length = (ctx s c).fetched.length + descs.length ∧
      (ctx (burstTaken c cls descs s) c).st = (ctx s c).st := by
  obtain ⟨hlen, hhead, hst⟩ := takeAll_fields c descs (noteBurst c cls s)
  rw [ctx_noteBurst] at hlen hhead hst
  rw [burstTaken, ctx_setCtx_same, Ctx.headTo_sqHead, Ctx.headTo_fetched, Ctx.headTo_st, hhead]
  exact ⟨rfl, hlen, hst⟩

theorem completes_burst {descs : List RawDesc} {c : Fin 256} {cls : Nat} {s : State} (hp : fetchPick s = some (c, cls))
    (hl : descs.length ≤ burstLen c s) :
    Completes (.descriptorFetch descs none) s fun t => (ctx t c).sqHead = ((ctx s c).sqHead + descs.length) % ringN s c ∧
      (ctx t c).fetched.length = (ctx s c).fetched.length + descs.length ∧ (ctx t c).st = (ctx s c).st :=
  ⟨_, congrArg Host.Outcome.next (descriptorFetch_eq hp hl none), burstTaken_fields c cls descs s⟩

theorem completes_oneDescBurst {r : RawDesc} {c : Fin 256} {cls : Nat} {s : State} (hp : fetchPick s = some (c, cls))
    (hl : 1 ≤ burstLen c s) :
    Completes (.descriptorFetch [r] none) s fun t =>
      if seqNewer (rdN s (R.HIF_CTX_LAST_SEQ c)) (Desc.read r).seq then
        rdN t (R.HIF_CTX_LAST_SEQ c) = (Desc.read r).seq ∧ (ctx t c).hist.head?.map HistEnt.seq = some (Desc.read r).seq
      else rdN t (R.HIF_CTX_LAST_SEQ c) = rdN s (R.HIF_CTX_LAST_SEQ c) ∧ (ctx t c).hist = (ctx s c).hist ∧
        (ctx t c).fetched.getLast?.map Desc.dup = some true := by
  refine ⟨_, congrArg Host.Outcome.next (descriptorFetch_eq (descs := [r]) hp hl none), ?_⟩
  have h := takeDesc_outcome c r (noteBurst c cls s)
  rw [rdN_noteBurst, ctx_noteBurst] at h
  beta_reduce
  rw [burstTaken, ctx_setCtx_same, Ctx.headTo_hist, Ctx.headTo_fetched, rdN_setCtx, takeAll_cons, takeAll_nil]
  exact h

/-- A failed fetch stops the context and shows in ERR_STATUS (R62). -/
theorem fetchError_fields (c : Fin 256) (kind : Nat) (s : State) :
    ctx (fetchError c kind s) c = { ctx s c with st := .stopped, stopCause := 2 } ∧
      flag (fetchError c kind s) F.HIF_ERR_STATUS_DMA_ERROR = true := by
  unfold fetchError
  extract_lets a s1 s2
  have hctx : ctx s2 c = { ctx s c with st := .stopped, stopCause := 2 } := by
    rw [ctx_setCtx_same, ctx_wrN, ctx_wr64]
  clear_value s2
  refine ⟨by rw [ctx_raise, ctx_raise, ctx_lifeAdd, setF, ctx_put, hctx], ?_⟩
  rw [flag_raise (by decide) _ (by decide), flag_raise (by decide) _ (by decide), flag_eq_of_rdN (rdN_lifeAdd _ _ _ _)]
  exact flag_setF_same _ _ (by decide) rfl

theorem completes_failedBurst {descs : List RawDesc} {c : Fin 256} {cls : Nat} {s : State} (kind : Nat)
    (hp : fetchPick s = some (c, cls)) (hl : descs.length < burstLen c s) :
    Completes (.descriptorFetch descs (some kind)) s fun t => (ctx t c).st = .stopped ∧ (ctx t c).stopCause = 2 ∧
      (ctx t c).sqHead = ((ctx s c).sqHead + descs.length) % ringN s c ∧ flag t F.HIF_ERR_STATUS_DMA_ERROR = true := by
  obtain ⟨hhead, -⟩ := burstTaken_fields c cls descs s
  obtain ⟨hctx, hflag⟩ := fetchError_fields c kind (burstTaken c cls descs s)
  refine ⟨_, congrArg Host.Outcome.next ((descriptorFetch_eq hp (Nat.le_of_lt hl) (some kind)).trans (if_pos hl)), ?_⟩
  beta_reduce
  rw [hctx]
  exact ⟨rfl, rfl, hhead, hflag⟩

theorem exec_descriptorFetch_idle {s : State} (h : fetchPick s = none) (descs : List RawDesc) (e : Option Nat) :
    exec (.descriptorFetch descs e) s = .next s := by
  have he : descriptorFetch descs e s = s := by rw [descriptorFetch, h]
  exact congrArg Host.Outcome.next he

/-- Settles O14: by induction over the burst's descriptors, each of which `takeDesc` appends. -/
theorem fetchBurst : Obligations.FetchBurst :=
  ⟨fun descs e _ h => exec_descriptorFetch_idle h descs e, fun _ _ _ _ hp hl => completes_burst hp hl,
    fun _ _ _ _ d hp hl hd => by obtain rfl : d = .read _ := hd; exact completes_oneDescBurst hp hl,
    fun _ kind _ _ _ hp hl => completes_failedBurst kind hp hl⟩

end Machine
end Sys2Proof

namespace Sys2Proof
namespace Machine

/-! ## Posting a completion (R47, R50, R54, R58, R64) -/

/-- A context whose oldest descriptor has been retired into slot `n - 1` of its completion ring (R47, R50). -/
def Ctx.retire (n : Nat) (rest : List Desc) (x : Ctx) : Ctx :=
  { x with fetched := rest, cqTail := n, phase := if n = 0 then !x.phase else x.phase }

/-- The record is sent, and the descriptor is retired. -/
def recordSent (c : Fin 256) (d : Desc) (rest : List Desc) (k : Compl) (s : State) : State :=
  setCtx c (Ctx.retire (((ctx s c).cqTail + 1) % ringN s c) rest)
    (emit (.hostWrite (rd64 s (R.HIF_CTX_CQ_BASE c) + 32 * (ctx s c).cqTail) (complRecord (ctx s c).phase d k)) s)

theorem postRecord_eq (c : Fin 256) (d : Desc) (rest : List Desc) (k : Compl) (s : State) :
    postRecord c d rest k s = errStopRule c d k.status
      (irqRule c (!d.dup && k.status != stOK) d.irq (complReport c d.dup k.status (recordSent c d rest k s))) := rfl

theorem ctx_recordSent (c : Fin 256) (d : Desc) (rest : List Desc) (k : Compl) (s : State) :
    ctx (recordSent c d rest k s) c = (ctx s c).retire (((ctx s c).cqTail + 1) % ringN s c) rest := by
  rw [recordSent, ctx_setCtx_same, ctx_emit]

/-- The reports of a completion leave the contexts. -/
theorem complReport_ctxs (c : Fin 256) (dup : Bool) (st : Nat) (s : State) : (complReport c dup st s).ctxs = s.ctxs := by
  unfold complReport
  split_ifs
  · rw [raise_ctxs, lifeAdd_ctxs, addW, wrN_ctxs]
  · rw [raise_ctxs, lifeAdd_ctxs]
  · rfl

theorem dupCount_noEvent (c : Fin 256) : eventReg (R.HIF_CTX_DUP_COUNT c) = false := by
  rw [eventReg, decide_eq_false_iff_not]; simp only [R.HIF_CTX_DUP_COUNT]; omega

/-- A DUPLICATE counts (R52). -/
theorem complReport_dupCount (c : Fin 256) (st : Nat) (s : State) :
    rdN (complReport c true st s) (R.HIF_CTX_DUP_COUNT c) = (rdN s (R.HIF_CTX_DUP_COUNT c) + 1) % 2 ^ 32 := by
  rw [complReport, if_pos rfl, rdN_raise (by decide) _ (dupCount_noEvent c), rdN_lifeAdd, addW, rdN_wrN_same]

/-- The interrupt rule changes the count of unsignalled completions only, and writes what a signal may write. -/
theorem irqRule_effect (c : Fin 256) (bad irq : Bool) (s : State) :
    (∃ n t, ctx (irqRule c bad irq s) c = { ctx s c with irqN := n, irqSince := t }) ∧
      OnlyWrites eventReg s (irqRule c bad irq s) := by
  unfold irqRule
  extract_lets n count s1
  have hctx : ctx s1 c = { ctx s c with irqN := n, irqSince := if n = 1 then s.beam else (ctx s c).irqSince } :=
    ctx_setCtx_same _ _ _
  have hregs : OnlyWrites eventReg s s1 := .setCtx (.refl s) c _
  clear_value s1
  split_ifs
  · refine ⟨⟨0, if n = 1 then s.beam else (ctx s c).irqSince, ?_⟩, ?_⟩
    · rw [ctx_setCtx_same, ctx_signalVector, hctx]
    · exact (hregs.trans (signalVector_like s1 (get_lt _ _)).1).setCtx c _
  · exact ⟨⟨_, _, hctx⟩, hregs⟩

/-- ERR_STOP stops an ACTIVE context; the rest of the context stands (R64). -/
theorem errStopRule_effect (c : Fin 256) (d : Desc) (st : Nat) (s : State) :
    (∃ y, ctx (errStopRule c d st s) c = { ctx s c with
        st := if d.errStop = true ∧ d.dup = false ∧ st ≠ stOK ∧ (ctx s c).st = .active then .stopped else (ctx s c).st
        stopCause := y }) ∧
      OnlyWrites eventReg s (errStopRule c d st s) := by
  unfold errStopRule
  split
  next h =>
    obtain ⟨herr, hdup, hst, hwas⟩ := h
    have hdup : d.dup = false := by simpa using hdup
    refine ⟨⟨1, ?_⟩, .raise (.setCtx (.refl s) c _) (by decide) fun _ ho => ho⟩
    rw [ctx_raise, ctx_setCtx_same]
    obtain hwas | ⟨hwas, -⟩ := hwas
    · rw [if_pos ⟨herr, hdup, hst, hwas⟩]
    · rw [if_neg (by simp [hwas]), hwas]
  next h =>
    refine ⟨⟨(ctx s c).stopCause, ?_⟩, .refl s⟩
    rw [if_neg fun ⟨herr, hdup, hst, hwas⟩ => h ⟨herr, by simp [hdup], hst, .inl hwas⟩]

/-- What is sent before the reports of a completion stays sent. -/
theorem postRecord_out (c : Fin 256) (d : Desc) (rest : List Desc) (k : Compl) (s : State) :
    (recordSent c d rest k s).out <+: (postRecord c d rest k s).out := by
  rw [postRecord_eq]
  generalize recordSent c d rest k s = u
  have h := errStopRule_evolves (pm := fun p => p == .ctxs) rfl
    (irqRule_evolves rfl (complReport_evolves .refl c d.dup k.status) c (!d.dup && k.status != stOK) d.irq) c d k.status
      (a := u.store) (s := irqRule c (!d.dup && k.status != stOK) d.irq (complReport c d.dup k.status u))
  exact h.out_prefix

theorem ctx_postRecord (c : Fin 256) (d : Desc) (rest : List Desc) (k : Compl) (s : State) :
    ∃ n t y, ctx (postRecord c d rest k s) c =
      { (ctx s c).retire (((ctx s c).cqTail + 1) % ringN s c) rest with
        irqN := n, irqSince := t, stopCause := y
        st := if d.errStop = true ∧ d.dup = false ∧ k.status ≠ stOK ∧ (ctx s c).st = .active then .stopped else (ctx s c).st } := by
  rw [postRecord_eq]
  have hsent : ctx (complReport c d.dup k.status (recordSent c d rest k s)) c =
      (ctx s c).retire (((ctx s c).cqTail + 1) % ringN s c) rest :=
    (ctx_congr (complReport_ctxs ..) c).trans (ctx_recordSent ..)
  generalize complReport c d.dup k.status (recordSent c d rest k s) = u at hsent ⊢
  obtain ⟨⟨n, t, hirq⟩, -⟩ := irqRule_effect c (!d.dup && k.status != stOK) d.irq u
  generalize irqRule c (!d.dup && k.status != stOK) d.irq u = v at hirq ⊢
  obtain ⟨⟨y, hstop⟩, -⟩ := errStopRule_effect c d k.status v
  refine ⟨n, t, y, ?_⟩
  rw [hstop, hirq, hsent]
  generalize ((ctx s c).cqTail + 1) % ringN s c = m
  rfl

theorem postRecord_dupCount {c : Fin 256} {d : Desc} (hdup : d.dup = true) (rest : List Desc) (k : Compl) (s : State) :
    rdN (postRecord c d rest k s) (R.HIF_CTX_DUP_COUNT c) = (rdN s (R.HIF_CTX_DUP_COUNT c) + 1) % 2 ^ 32 := by
  rw [postRecord_eq, (errStopRule_effect ..).2 _ (dupCount_noEvent c), (irqRule_effect ..).2 _ (dupCount_noEvent c), hdup,
    complReport_dupCount]
  rfl

theorem completionPost_posts {c : Fin 256} {d : Desc} {rest : List Desc} {k : Compl} {s : State}
    (hf : (ctx s c).fetched = d :: rest) (hk : d.compl = some k) (hm : mayPost (ctx s c) d = true) (hfull : cqFull c s = false) :
    completionPost c s = oneCycle (postRecord c d rest k) s := by
  rw [completionPost, hf]
  dsimp only
  rw [hk]
  exact if_neg (by simp [hm, hfull])

theorem duplicateCompletion_eq {c : Fin 256} {d : Desc} {rest : List Desc} {s : State} (hf : (ctx s c).fetched = d :: rest)
    (hdup : d.dup = true) : duplicateCompletion c s = completionPost c s := by
  rw [duplicateCompletion, hf]
  exact if_pos hdup

theorem completes_post {c : Fin 256} {d : Desc} {rest : List Desc} {k : Compl} {s : State} {i : Instr}
    (hi : i = .completionPost c ∨ (i = .duplicateCompletion c ∧ d.dup = true)) (hf : (ctx s c).fetched = d :: rest)
    (hk : d.compl = some k) (hm : mayPost (ctx s c) d = true) (hfull : cqFull c s = false) :
    Completes i s fun t => (ctx t c).fetched = rest ∧
      s.out ++ [.hostWrite (rd64 s (R.HIF_CTX_CQ_BASE c) + 32 * (ctx s c).cqTail) (complRecord (ctx s c).phase d k)] <+: t.out ∧
      (ctx t c).cqTail = ((ctx s c).cqTail + 1) % ringN s c ∧
      (ctx t c).phase = (if ((ctx s c).cqTail + 1) % ringN s c = 0 then !(ctx s c).phase else (ctx s c).phase) ∧
      (ctx t c).st = (if d.errStop = true ∧ d.dup = false ∧ k.status ≠ stOK ∧ (ctx s c).st = .active then .stopped
        else (ctx s c).st) ∧
      (d.dup = true → rdN t (R.HIF_CTX_DUP_COUNT c) = (rdN s (R.HIF_CTX_DUP_COUNT c) + 1) % 2 ^ 32) := by
  have hpost := completionPost_posts hf hk hm hfull
  have hrun : exec i s = .next (oneCycle (postRecord c d rest k) s) := by
    obtain rfl | ⟨rfl, hdup⟩ := hi
    · exact congrArg Host.Outcome.next hpost
    · exact congrArg Host.Outcome.next ((duplicateCompletion_eq hf hdup).trans hpost)
  obtain ⟨n, t, y, hctx⟩ := ctx_postRecord c d rest k (cycleStart s)
  rw [ctx_cycleStart, ← ctx_oneCycle, show ringN (cycleStart s) c = ringN s c from rfl] at hctx
  refine ⟨_, hrun, ?_⟩
  generalize ((ctx s c).cqTail + 1) % ringN s c = m at hctx ⊢
  rw [hctx]
  exact ⟨rfl, postRecord_out c d rest k (cycleStart s), rfl, rfl, rfl, fun hdup => postRecord_dupCount hdup rest k (cycleStart s)⟩

theorem exec_completionPost_kept {c : Fin 256} {d : Desc} {rest : List Desc} {s : State} (hf : (ctx s c).fetched = d :: rest)
    (hm : mayPost (ctx s c) d = false) : exec (.completionPost c) s = .next s := by
  have he : completionPost c s = s := by
    rw [completionPost, hf]
    dsimp only
    cases d.compl with
    | none => rfl
    | some k => exact if_pos (.inl (by rw [hm]; exact Bool.false_ne_true))
  exact congrArg Host.Outcome.next he

/-- Into a full ring nothing is posted (R47). -/
theorem completionPost_full {c : Fin 256} {s : State} (h : cqFull c s = true) : completionPost c s = s := by
  unfold completionPost
  split
  · split
    · exact if_pos (.inr h)
    · rfl
  · rfl

theorem duplicateCompletion_full {c : Fin 256} {s : State} (h : cqFull c s = true) : duplicateCompletion c s = s := by
  unfold duplicateCompletion
  rw [completionPost_full h]
  split
  · exact ite_self _
  · rfl

theorem b2n_le_one (b : Bool) : b2n b ≤ 1 := by cases b <;> decide

/-- BP_NOW shows a full completion ring in its bit 4 (R59). -/
theorem bit_bpNow_full {c : Fin 256} {s : State} (h : cqFull c s = true) : bit (bpNow c s) 4 = true := by
  have h1 := b2n_le_one (64 ≤ (ctx s c).fetched.length)
  have h2 := b2n_le_one (8192 ≤ unretired s)
  have h3 := b2n_le_one (targetFull c s)
  rw [bpNow, h, bit, beq_iff_eq, show b2n true = 1 from rfl]
  omega

/-- Settles O15: `completionPost` posts one record within one cycle, and into a full ring none. -/
theorem completionRing : Obligations.CompletionRing :=
  ⟨fun _ _ _ _ _ _ hi hf hk hm hfull => completes_post hi hf hk hm hfull, fun _ _ _ _ hf hm => exec_completionPost_kept hf hm,
    fun _ _ h => ⟨congrArg Host.Outcome.next (completionPost_full h), congrArg Host.Outcome.next (duplicateCompletion_full h),
      bit_bpNow_full h⟩⟩

end Machine
end Sys2Proof

namespace Sys2Proof
namespace Machine

/-! ## What follows the loss of the heartbeat leaves the host interface

The stalls and axes that lose the heartbeat write registers above the host interface's, and complete descriptors; a context without
fetched descriptors stays without. -/

/-- The registers above those of the host interface (its MSI-X pending bits among them). -/
def aboveHost (o : Nat) : Bool := decide (0x19000 ≤ o)

theorem aboveHost_of_event (o : Nat) (h : eventReg o = true) : aboveHost o = true := by
  simp only [eventReg, decide_eq_true_eq] at h
  simp only [aboveHost, decide_eq_true_eq]
  omega

theorem aboveHost_stall (g k : Nat) : aboveHost (stallBase g + k) = true := by
  have := stallBase_ge g
  simp only [aboveHost, decide_eq_true_eq]
  omega

/-- The host interface's registers, its contexts' states and their being empty, and the mailbox's drop mark are kept. -/
structure HostKept (s t : State) : Prop where
  regs : OnlyWrites aboveHost s t
  st : ∀ c, (ctx t c).st = (ctx s c).st
  empty : ∀ c, (ctx s c).fetched = [] → (ctx t c).fetched = []
  drop : t.mboxDrop = s.mboxDrop

namespace HostKept

variable {s t u : State}

theorem refl (s : State) : HostKept s s := ⟨.refl s, fun _ => rfl, fun _ h => h, rfl⟩

theorem trans (h : HostKept s t) (k : HostKept t u) : HostKept s u :=
  ⟨h.regs.trans k.regs, fun c => (k.st c).trans (h.st c), fun c hc => k.empty c (h.empty c hc), k.drop.trans h.drop⟩

/-- What leaves the contexts and the drop mark alone is judged by its registers. -/
theorem of_regs (h : OnlyWrites aboveHost s t) (hc : t.ctxs = s.ctxs) (hd : t.mboxDrop = s.mboxDrop) : HostKept s t :=
  ⟨h, fun c => by rw [ctx_congr hc], fun c he => by rw [ctx_congr hc, he], hd⟩

theorem ite {p : Prop} [Decidable p] (h : HostKept s t) (k : HostKept s u) : HostKept s (if p then t else u) := by
  split <;> assumption

theorem put (h : HostKept s t) {f : Fld} (v : Nat) (hf : aboveHost f.off = true) : HostKept s (put t f v) :=
  h.trans (of_regs (.put (.refl t) v hf) rfl rfl)

theorem setStall (h : HostKept s t) (g : Fin 48) (f : Stall → Stall) : HostKept s (setStall g f t) :=
  h.trans (of_regs (.setStall (.refl t) g f) rfl rfl)

theorem lifeAdd (h : HostKept s t) (k n : Nat) : HostKept s (lifeAdd t k n) :=
  h.trans (of_regs (.lifeAdd (.refl t) k n) rfl rfl)

theorem raise (h : HostKept s t) {n : Nat} (hn : n < 512) : HostKept s (raise n t) :=
  h.trans (of_regs (.raise (.refl t) hn aboveHost_of_event) (raise_ctxs n t) (raise_mboxDrop n t))

theorem complete (h : HostKept s t) (c : Fin 256) (q st : Nat) (a b : Option Nat) (g : Bool) :
    HostKept s (complete c q st a b g t) := by
  refine h.trans ⟨.complete (.refl t) c q st a b g, complete_st c q st a b g t, fun k hk => ?_, complete_mboxDrop ..⟩
  obtain rfl | hne := eq_or_ne k c
  · obtain ⟨av, bv, he, -⟩ := ctx_complete_same k q st a b g t
    rw [he]
    exact (congrArg (settleDescs q _) hk).trans rfl
  · rw [ctx_complete_other _ _ _ _ _ _ hne, hk]

theorem foldl {β : Type} {f : State → β → State} (h : HostKept s t) (l : List β) (hf : ∀ u b, HostKept u (f u b)) :
    HostKept s (l.foldl f t) :=
  List.foldlRecOn _ _ h fun u hu b _ => hu.trans (hf u b)

theorem forAll {n : Nat} {f : Fin n → State → State} (h : HostKept s t) (hf : ∀ i u, HostKept u (f i u)) :
    HostKept s (forAll n f t) := h.foldl _ fun u i => hf i u

theorem tellStall (h : HostKept s t) (g : Nat) (ops : List Nat) (st : Nat) (a b : Option Nat) :
    HostKept s (tellStall g ops st a b t) :=
  h.foldl _ fun u c => (refl u).foldl _ fun v q => (refl v).complete c q st a b false

end HostKept

theorem countHold_kept (g causes : Nat) (s : State) : HostKept s (countHold g causes s) :=
  .foldl (.refl s) _ fun u _ => .ite (.lifeAdd (.refl u) _ _) (.refl u)

theorem enterHold_kept (g : Fin 48) (causes ret : Nat) (s : State) : HostKept s (enterHold g causes ret s) := by
  have hst : aboveHost (R.STALL_STATE g) = true := aboveHost_stall g 8
  unfold enterHold
  extract_lets s1 s2 s3 s4
  have h1 : HostKept s s1 := .put (.put (.refl s) _ hst) _ hst
  have h2 : HostKept s s2 := .put (.put h1 _ hst) _ hst
  have h3 : HostKept s s3 := h2.setStall g _
  have h4 : HostKept s s4 := .raise (h3.trans (countHold_kept g causes s3)) (stallEv_lt g (by decide))
  exact h4.tellStall g _ _ _ _

theorem requestHold_kept (g : Fin 48) (c : Nat) (s : State) : HostKept s (requestHold g c s) :=
  .ite (.put (.refl s) _ (aboveHost_stall g 8))
    (.ite (.put (.setStall (.refl s) g _) _ (aboveHost_stall g 8)) (.ite (.setStall (.refl s) g _) (.refl s)))

theorem heartbeatStall_kept (g : Fin 48) (s : State) : HostKept s (heartbeatStall g s) := by
  unfold heartbeatStall
  extract_lets s1 st
  have h1 : HostKept s s1 := .put (.refl s) 1 (aboveHost_stall g 8)
  exact .ite (h1.trans (enterHold_kept g _ _ s1)) (.ite (h1.trans (requestHold_kept g _ s1)) h1)

/-- An expiry of the heartbeat leaves the host interface (R69, R101). -/
theorem heartbeatLost_kept (s : State) : HostKept s (heartbeatLost s) := by
  unfold heartbeatLost heartbeatExpire
  extract_lets s1
  have hmark : HostKept s { s with hbTold := true } := .of_regs (.regs (.refl s) rfl) rfl rfl
  have h1 : HostKept s s1 := .put (.put hmark 1 (by decide)) 1 (by decide)
  have h2 := ((h1.lifeAdd (lifeNo 3 6 0) 1).raise (n := 75) (by decide)).forAll heartbeatStall_kept
  exact h2.forAll fun a u => .of_regs (.regs (.refl u) rfl) rfl rfl

/-! ## The contexts that an event of R68 cuts -/

theorem cutContexts_regs (s : State) : (cutContexts s).regs = s.regs :=
  forAll_keeps (fun t : State => t.regs = s.regs) _ rfl fun c t ht => by split <;> exact ht

theorem cutContexts_ctx (s : State) {c : Fin 256} (hc : c.val ≠ 0) :
    (ctx (cutContexts s) c).st = .disabled ∧ (ctx (cutContexts s) c).fetched = [] := by
  refine forAll_reaches (fun c t => c.val ≠ 0 → (ctx t c).st = .disabled ∧ (ctx t c).fetched = []) (fun c t hc => ?_)
    (fun c k t ht hk => ?_) s c hc
  · rw [if_neg hc, ctx_setCtx_same]
    exact ⟨rfl, rfl⟩
  · by_cases h0 : c.val = 0
    · rw [if_pos h0]
      exact ht hk
    · rw [if_neg h0]
      obtain rfl | hne := eq_or_ne k c
      · rw [ctx_setCtx_same]
        exact ⟨rfl, rfl⟩
      · rw [ctx_setCtx_other _ _ hne]
        exact ht hk

theorem cutCommand_writes (s : State) : OnlyWrites (· == R.HIF_CTX_CMD_STATUS) s (cutCommand s) := by
  unfold cutCommand
  split
  · exact .ite (.refl s) (.put (.trans (.regs (.refl s) rfl) (cmdStatus_writes _ 2 0 _)) 0 rfl)
  · exact .refl s

theorem cutCommand_ctxs (s : State) : (cutCommand s).ctxs = s.ctxs := by
  unfold cutCommand
  split
  · split <;> rfl
  · rfl

/-- What a list of cells shows of the keys that a filter keeps. -/
theorem cellGet_filter {α : Type} (p : Nat → Bool) (l : List (Nat × α)) {k : Nat} (hk : p k = true) :
    cellGet (l.filter fun c => p c.1) k = cellGet l k := by
  induction l with
  | nil => rfl
  | cons c l ih =>
    obtain ⟨a, b⟩ := c
    rw [List.filter_cons]
    by_cases ha : a = k
    · rw [if_pos (by rw [ha]; exact hk)]
      simp [cellGet, ha]
    · split <;> simp [cellGet, ha, ih]

/-- The MSI-X table and its pending bits (R58). -/
def msixReg (o : Nat) : Bool := decide (0x18000 ≤ o) && decide (o < 0x19008)

theorem msixReset_writes (s : State) : OnlyWrites msixReg s (msixReset s) := by
  intro o ho
  unfold rdN rd
  refine congrArg (fun w => (Option.getD w (resetWord o)).toNat) (cellGet_filter (fun o =>
    !(decide (0x18000 ≤ o) && decide (o < 0x18400)) && !(decide (0x19000 ≤ o) && decide (o < 0x19008))) s.regs ?_)
  simp only [msixReg, Bool.and_eq_false_iff, decide_eq_false_iff_not] at ho
  simp only [Bool.and_eq_true, Bool.not_eq_true', Bool.and_eq_false_iff, decide_eq_false_iff_not]
  omega

/-! ## The events of R68 -/

/-- The host interface as an event of R68 leaves it, before the reports. -/
def hostCut (s : State) : State := msixReset (cutCommand (cutContexts s))

/-- The registers that `hostCut` may write. -/
def cutReg (o : Nat) : Bool := msixReg o || o == R.HIF_CTX_CMD_STATUS

theorem hostCut_writes (s : State) : OnlyWrites cutReg s (hostCut s) :=
  .trans (.trans (.regs (.refl s) (cutContexts_regs s))
    ((cutCommand_writes _).mono fun o ho => by rw [cutReg, ho, Bool.or_true]))
    ((msixReset_writes _).mono fun o ho => by rw [cutReg, ho, Bool.true_or])

theorem hostCut_ctx (s : State) {c : Fin 256} (hc : c.val ≠ 0) :
    (ctx (hostCut s) c).st = .disabled ∧ (ctx (hostCut s) c).fetched = [] := by
  have h : ctx (hostCut s) c = ctx (cutContexts s) c := ctx_congr (cutCommand_ctxs _) c
  rw [h]
  exact cutContexts_ctx s hc

/-- No version is offered nor agreed. -/
def versionCleared (s : State) : State := put (wrN s R.HIF_VERSION_OFFER 0) F.HIF_VERSION_AGREED_AGREED 0

theorem versionCleared_fields (s : State) :
    get (versionCleared s) F.HIF_VERSION_OFFER_OFFER = 0 ∧ get (versionCleared s) F.HIF_VERSION_AGREED_AGREED = 0 := by
  unfold versionCleared
  constructor
  · rw [get_put_other _ _ _ _ (by decide)]
    exact get_wrN_same s F.HIF_VERSION_OFFER_OFFER 0 (by decide)
  · exact get_put_same _ _ 0 (by decide)

/-- A response that the mailbox owes is to be dropped. -/
def mboxCut (s : State) : State := if flag s F.HIF_MBOX_STATUS_BUSY then { s with mboxDrop := true } else s

theorem mboxCut_regs (s : State) : (mboxCut s).regs = s.regs := by unfold mboxCut; split <;> rfl

theorem mboxCut_ctxs (s : State) : (mboxCut s).ctxs = s.ctxs := by unfold mboxCut; split <;> rfl

theorem mboxCut_drop {s : State} (h : flag s F.HIF_MBOX_STATUS_BUSY = true) : (mboxCut s).mboxDrop = true := by
  rw [mboxCut, if_pos h]

/-- The event as ERR_STATUS reports it, with event 58. -/
def cutReported (s : State) : State := raise 58 (lifeAdd (setF s F.HIF_ERR_STATUS_FLR_SEEN) (lifeNo 2 2 0) 1)

theorem hostReset_eq (s : State) : hostReset s = heartbeatLost (cutReported (mboxCut (versionCleared (hostCut s)))) := rfl

/-- The registers of the host interface that an event of R68 may write besides the MSI-X table. -/
def resetReg (o : Nat) : Bool :=
  cutReg o || aboveHost o || [R.HIF_VERSION_OFFER, R.HIF_VERSION_AGREED, R.HIF_ERR_STATUS].contains o

theorem resetReg_of_event (o : Nat) (h : eventReg o = true) : resetReg o = true := by
  rw [resetReg, aboveHost_of_event o h, Bool.or_true, Bool.true_or]

theorem resetReg_of_cut (o : Nat) (h : cutReg o = true) : resetReg o = true := by
  rw [resetReg, h, Bool.true_or, Bool.true_or]

theorem resetReg_of_above (o : Nat) (h : aboveHost o = true) : resetReg o = true := by
  rw [resetReg, h, Bool.or_true, Bool.true_or]

theorem versionCleared_writes (s : State) : OnlyWrites resetReg s (versionCleared s) :=
  .put (.wrN (.refl s) 0 (by decide)) 0 (by decide)

theorem cutReported_writes (s : State) : OnlyWrites resetReg s (cutReported s) :=
  .raise (.lifeAdd (.put (.refl s) 1 (by decide)) _ _) (by decide) resetReg_of_event

theorem versionCleared_hostCut_writes (s : State) : OnlyWrites resetReg s (versionCleared (hostCut s)) :=
  ((hostCut_writes s).mono resetReg_of_cut).trans (versionCleared_writes _)

theorem hostReset_writes (s : State) : OnlyWrites resetReg s (hostReset s) := by
  rw [hostReset_eq]
  have hver := versionCleared_hostCut_writes s
  generalize versionCleared (hostCut s) = u at hver ⊢
  have hrep := (hver.regs (mboxCut_regs u)).trans (cutReported_writes _)
  generalize cutReported (mboxCut u) = v at hrep ⊢
  exact hrep.trans ((heartbeatLost_kept v).regs.mono resetReg_of_above)

/-- What the report keeps of the registers it does not write. -/
theorem get_cutReported (s : State) {f : Fld} (he : eventReg f.off = false) (hf : f.off ≠ R.HIF_ERR_STATUS) :
    get (cutReported s) f = get s f := by
  rw [cutReported, get_raise (by decide) _ he, get_lifeAdd, setF, get_put_other _ _ _ _ hf.symm]

theorem flag_cutReported (s : State) : flag (cutReported s) F.HIF_ERR_STATUS_FLR_SEEN = true := by
  rw [cutReported, flag_raise (by decide) _ (by decide), flag_eq_of_rdN (rdN_lifeAdd _ _ _ _)]
  exact flag_setF_same _ _ (by decide) rfl

theorem cutReported_ctxs (s : State) : (cutReported s).ctxs = s.ctxs := by
  rw [cutReported, raise_ctxs, lifeAdd_ctxs, setF_ctxs]

theorem cutReported_mboxDrop (s : State) : (cutReported s).mboxDrop = s.mboxDrop := raise_mboxDrop _ _

/-- What an event of R68 leaves of the host interface. -/
theorem hostReset_fields (s : State) :
    (∀ c : Fin 256, c.val ≠ 0 → (ctx (hostReset s) c).st = .disabled ∧ (ctx (hostReset s) c).fetched = []) ∧
      get (hostReset s) F.HIF_VERSION_OFFER_OFFER = 0 ∧ get (hostReset s) F.HIF_VERSION_AGREED_AGREED = 0 ∧
      flag (hostReset s) F.HIF_ERR_STATUS_FLR_SEEN = true ∧
      (flag s F.HIF_MBOX_STATUS_BUSY = true → (hostReset s).mboxDrop = true) := by
  rw [hostReset_eq]
  have hver := versionCleared_fields (hostCut s)
  have hbusy : flag (versionCleared (hostCut s)) F.HIF_MBOX_STATUS_BUSY = flag s F.HIF_MBOX_STATUS_BUSY :=
    (versionCleared_hostCut_writes s).flag_eq (by decide)
  have hctx (c : Fin 256) : ctx (versionCleared (hostCut s)) c = ctx (hostCut s) c := rfl
  generalize versionCleared (hostCut s) = u at hver hbusy hctx ⊢
  have hmbox (f : Fld) : get (mboxCut u) f = get u f := by unfold Machine.get rdN rd; rw [mboxCut_regs]
  have hkept := heartbeatLost_kept (cutReported (mboxCut u))
  have hrep (c : Fin 256) : ctx (cutReported (mboxCut u)) c = ctx (hostCut s) c := by
    rw [ctx_congr (cutReported_ctxs _), ctx_congr (mboxCut_ctxs _), hctx]
  refine ⟨fun c hc => ?_, ?_, ?_, ?_, fun hb => ?_⟩
  · obtain ⟨hst, hf⟩ := hostCut_ctx s hc
    exact ⟨(hkept.st c).trans (by rw [hrep, hst]), hkept.empty c (by rw [hrep, hf])⟩
  · rw [hkept.regs.get_eq (by decide), get_cutReported _ (by decide) (by decide), hmbox, hver.1]
  · rw [hkept.regs.get_eq (by decide), get_cutReported _ (by decide) (by decide), hmbox, hver.2]
  · rw [hkept.regs.flag_eq (by decide), flag_cutReported]
  · rw [hkept.drop, cutReported_mboxDrop, mboxCut_drop (hbusy.trans hb)]

/-- The registers of the ring contexts are none of them. -/
theorem resetReg_ring {o : Nat} (h : 0x11000 ≤ o) (h' : o < 0x15000) : resetReg o = false := by
  simp [resetReg, cutReg, msixReg, aboveHost, R.HIF_CTX_CMD_STATUS, R.HIF_VERSION_OFFER, R.HIF_VERSION_AGREED,
    R.HIF_ERR_STATUS]
  omega

theorem lastSeq_ring (c : Fin 256) : 0x11000 ≤ R.HIF_CTX_LAST_SEQ c ∧ R.HIF_CTX_LAST_SEQ c < 0x15000 := by
  simp only [R.HIF_CTX_LAST_SEQ]; omega

/-- The registers that the loss of the data link may write. -/
def linkReg (o : Nat) : Bool := eventReg o || o == R.HIF_STATUS

theorem linkReg_of_event (o : Nat) (h : eventReg o = true) : linkReg o = true := by rw [linkReg, h, Bool.true_or]

/-- The link goes down, with what that writes and what it keeps (R68). -/
theorem linkDown_effect (s : State) :
    flag (linkDown s) F.HIF_STATUS_LINK_UP = false ∧ OnlyWrites linkReg s (linkDown s) ∧ (linkDown s).ctxs = s.ctxs ∧
      (linkDown s).mboxDrop = s.mboxDrop := by
  unfold linkDown
  by_cases hup : flag s F.HIF_STATUS_LINK_UP = true
  · rw [if_pos hup]
    extract_lets s1
    have h1 : OnlyWrites linkReg s s1 := .put (.put (.put (.put (.refl s) 0 rfl) 0 rfl) 0 rfl) 0 rfl
    have hflag : flag s1 F.HIF_STATUS_LINK_UP = false := by
      simp only [s1]
      rw [clrF, flag_put_disjoint _ _ _ _ (by decide) (by decide), flag_put_disjoint _ _ _ _ (by decide) (by decide),
        flag_put_disjoint _ _ _ _ (by decide) (by decide)]
      exact flag_clrF_same _ _ (by decide)
    have hctxs : s1.ctxs = s.ctxs := rfl
    have hdrop : s1.mboxDrop = s.mboxDrop := rfl
    clear_value s1
    refine ⟨?_, (h1.lifeAdd _ _).raise (by decide) linkReg_of_event, by rw [raise_ctxs, lifeAdd_ctxs, hctxs],
      (raise_mboxDrop _ _).trans hdrop⟩
    rw [flag_raise (by decide) _ (by decide), flag_eq_of_rdN (rdN_lifeAdd _ _ _ _), hflag]
  · rw [if_neg hup]
    exact ⟨Bool.not_eq_true _ ▸ hup, .refl s, rfl, rfl⟩

/-- The events of R68: the effect of a function-level reset, with or without the link. -/
theorem exec_hostReset {s : State} {i : Instr} {down : Bool}
    (h : (i, down) ∈ [(Instr.functionLevelReset, false), (.d3hotEntry, false), (.hotReset, true), (.dataLinkDown, true),
      (.perstAssert, true)]) :
    exec i s = .next (if down then linkDown (hostReset s) else hostReset s) := by
  simp only [List.mem_cons, Prod.mk.injEq, List.not_mem_nil, or_false] at h
  obtain ⟨rfl, rfl⟩ | ⟨rfl, rfl⟩ | ⟨rfl, rfl⟩ | ⟨rfl, rfl⟩ | ⟨rfl, rfl⟩ := h
  · rfl
  · rfl
  · rfl
  · rfl
  · rfl

/-- What the loss of the link keeps of an event of R68, for the state with it and without it. -/
theorem linkDown_kept (down : Bool) (s : State) :
    OnlyWrites linkReg s (if down then linkDown s else s) ∧ (if down then linkDown s else s).ctxs = s.ctxs ∧
      (if down then linkDown s else s).mboxDrop = s.mboxDrop ∧
      (down = true → flag (if down then linkDown s else s) F.HIF_STATUS_LINK_UP = false) ∧
      (down = false → flag (if down then linkDown s else s) F.HIF_STATUS_LINK_UP = flag s F.HIF_STATUS_LINK_UP) := by
  obtain ⟨hup, hregs, hctxs, hdrop⟩ := linkDown_effect s
  cases down with
  | true => exact ⟨hregs, hctxs, hdrop, fun _ => hup, nofun⟩
  | false => exact ⟨.refl s, rfl, rfl, nofun, fun _ => rfl⟩

theorem linkReg_ring {o : Nat} (h : 0x11000 ≤ o) (h' : o < 0x15000) : linkReg o = false := by
  simp [linkReg, eventReg, R.HIF_STATUS]
  omega

/-- Settles O20: an event of R68 cuts the host interface, and neither the heartbeat nor the link's loss reaches what it left. -/
theorem hostResets : Obligations.HostResets := by
  intro s i down hi
  refine ⟨_, exec_hostReset hi, ?_⟩
  obtain ⟨hctx, hoffer, hagreed, hseen, hbusy⟩ := hostReset_fields s
  have hseq := hostReset_writes s
  have hlink : flag (hostReset s) F.HIF_STATUS_LINK_UP = flag s F.HIF_STATUS_LINK_UP := hseq.flag_eq (by decide)
  generalize hostReset s = u at hctx hoffer hagreed hseen hbusy hseq hlink ⊢
  obtain ⟨hregs, hctxs, hdrop, hdown, hup⟩ := linkDown_kept down u
  generalize (if down then linkDown u else u) = t at hregs hctxs hdrop hdown hup ⊢
  exact ⟨fun c hc => by rw [ctx_congr hctxs]; exact hctx c hc,
    fun c => have ⟨hlo, hhi⟩ := lastSeq_ring c
      (hregs _ (linkReg_ring hlo hhi)).trans (hseq _ (resetReg_ring hlo hhi)),
    (hregs.get_eq (f := F.HIF_VERSION_OFFER_OFFER) rfl).trans hoffer,
    (hregs.get_eq (f := F.HIF_VERSION_AGREED_AGREED) rfl).trans hagreed,
    (hregs.flag_eq (f := F.HIF_ERR_STATUS_FLR_SEEN) rfl).trans hseen, fun hb => hdrop.trans (hbusy hb), hdown,
    fun h => (hup h).trans hlink⟩

end Machine
end Sys2Proof

namespace Sys2Proof
namespace Machine

/-! ## Registers below the stalls'

What a load does before it is visible writes the host interface, the tack room, the compression engines and the event registers, all
of which lie below the stalls' registers. -/

/-- The registers below those of the stalls. -/
def belowStalls (o : Nat) : Bool := decide (o < 0x200000)

theorem belowStalls_of_event (o : Nat) (h : eventReg o = true) : belowStalls o = true := by
  simp only [eventReg, decide_eq_true_eq] at h
  simp only [belowStalls, decide_eq_true_eq]
  omega

theorem belowStalls_stall (g k : Nat) : belowStalls (stallBase g + k) = false := by
  have := stallBase_ge g
  simp only [belowStalls, decide_eq_false_iff_not]
  omega

theorem payloadFail_belowStalls (c : Fin 256) (q a kind : Nat) (s : State) :
    OnlyWrites belowStalls s (payloadFail c q a kind s) := by
  rw [payloadFail, payloadFailAt_eq]
  refine .complete (OnlyWrites.mono (dmaErrorShown_writes a _ kind s) fun o ho => ?_) c q _ _ _ _
  rw [dmaErrorReg, Bool.or_eq_true] at ho
  obtain ho | ho := ho
  · exact belowStalls_of_event o ho
  · rw [List.contains_iff_mem] at ho
    simp only [List.mem_cons, List.not_mem_nil, or_false] at ho
    obtain rfl | rfl | rfl | rfl := ho <;> decide

theorem tackFail_belowStalls (k : Nat) (s : State) : OnlyWrites belowStalls s (tackFail k s) :=
  .raise (.put (.wrN (.lifeAdd (.refl s) _ _) _ (by decide)) 1 (by decide)) (by decide) belowStalls_of_event

/-- A failed authentication leaves the contexts, the jobs and the lofts. -/
theorem tackFail_fields (k : Nat) (s : State) :
    flag (tackFail k s) F.TCK_FLAGS_AUTH_FAIL = true ∧ (tackFail k s).ctxs = s.ctxs ∧ (tackFail k s).now = s.now ∧
      (tackFail k s).cmpDone = s.cmpDone ∧ (tackFail k s).lofts = s.lofts := by
  unfold tackFail
  refine ⟨?_, raise_ctxs .., raise_now .., raise_cmpDone .., raise_lofts ..⟩
  rw [flag_raise (by decide) _ (by decide)]
  exact flag_setF_same _ _ (by decide) rfl

/-! ## Jobs for the compression engines (R333, R345) -/

/-- A job waits, or is with an engine. -/
def JobGiven (j : Job) (s : State) : Prop := j ∈ s.cmpWait ++ s.cmpJobs[0] ++ s.cmpJobs[1]

theorem gateBit_lt {u : Nat} {f : Fld} (h : gateBit u = some f) : belowStalls f.off = true := by
  unfold gateBit at h
  split_ifs at h
  all_goals
    obtain rfl := Option.some.inj h
    rfl

theorem ungate_effect (u : Nat) (s : State) : OnlyWrites belowStalls s (ungate u s) ∧ ∃ r, ungate u s = { s with regs := r } := by
  unfold ungate
  split
  next f hf =>
    refine ⟨.ite (.put (.refl s) 0 (gateBit_lt hf)) (.refl s), ?_⟩
    split
    · exact ⟨_, rfl⟩
    · exact ⟨s.regs, rfl⟩
  · exact ⟨.refl s, s.regs, rfl⟩

theorem showJobs_effect (s : State) : OnlyWrites belowStalls s (showJobs s) ∧ ∃ r, showJobs s = { s with regs := r } := by
  unfold showJobs
  extract_lets s1
  have h1 : OnlyWrites belowStalls s s1 ∧ ∃ r, s1 = { s with regs := r } :=
    ⟨.put (.put (.refl s) _ (by decide)) _ (by decide), _, rfl⟩
  refine forAll_keeps (fun t => OnlyWrites belowStalls s t ∧ ∃ r, t = { s with regs := r }) _ h1 fun e t ht => ?_
  obtain ⟨hw, r, rfl⟩ := ht
  split
  · exact ⟨hw, r, rfl⟩
  · refine ⟨hw.wrN _ ?_, _, rfl⟩
    have hlt : 0xB0128 + 0x40 * e.val < 0x200000 := by omega
    exact decide_eq_true hlt

theorem setJobs_effect (e : Fin 2) (f : List Job → List Job) (s : State) :
    OnlyWrites belowStalls s (setJobs e f s) ∧
      ∃ r m, setJobs e f s = { s with regs := r, cmpJobs := vmod s.cmpJobs e f, idleFrom := m } := by
  unfold setJobs
  extract_lets s1
  have h1 : OnlyWrites belowStalls s s1 := .regs (.refl s) rfl
  split
  · split
    · exact ⟨h1, _, _, rfl⟩
    · exact ⟨h1.regs rfl, _, _, rfl⟩
  · obtain ⟨hw, r, hr⟩ := ungate_effect (0x3A + e.val) s1
    exact ⟨h1.trans hw, r, s.idleFrom, hr⟩

/-- A placed job waits or is with an engine. -/
theorem placeJob_effect (j : Job) (s : State) : OnlyWrites belowStalls s (placeJob s j) ∧ JobGiven j (placeJob s j) := by
  unfold placeJob JobGiven
  split
  next e _ =>
    obtain ⟨hw, r, m, h⟩ := setJobs_effect e (· ++ [j]) s
    refine ⟨hw, ?_⟩
    rw [h]
    have hmem : j ∈ (vmod s.cmpJobs e (· ++ [j]))[e.val] := by simp [vmod]
    match e, hmem with
    | 0, hmem => exact List.mem_append_left _ (List.mem_append_right _ hmem)
    | 1, hmem => exact List.mem_append_right _ hmem
  · exact ⟨.regs (.refl s) rfl, List.mem_append_left _ (List.mem_append_left _ (by simp))⟩

theorem submitJob_effect (j : Job) (s : State) : OnlyWrites belowStalls s (submitJob j s) ∧ JobGiven j (submitJob j s) := by
  obtain ⟨hw, hj⟩ := placeJob_effect j s
  obtain ⟨hw', r, hr⟩ := showJobs_effect (placeJob s j)
  refine ⟨hw.trans hw', ?_⟩
  rw [submitJob, hr]
  exact hj

/-! ## Starting a load (R77-R79) -/

/-- A load under way, by what its descriptor keeps. -/
def Desc.loadRuns (d : Desc) : Bool :=
  [0x10, 0x11, 0x12].contains d.op && d.started && d.compl.isNone && !d.dup && d.aux != 0

theorem loadsRunning_eq (c : Fin 256) (s : State) :
    loadsRunning c s = ((ctx s c).orphans ++ (ctx s c).fetched).filter Desc.loadRuns := rfl

/-- A descriptor that starts and keeps 0 adds nothing to what is under way. -/
theorem foldl_startDescs_le (q : Nat) (l : List Desc) {m n : Nat} (h : m ≤ n) :
    ((startDescs q 0 l).filter Desc.loadRuns).foldl (fun n d => n + auxBytes d.aux) m ≤
      (l.filter Desc.loadRuns).foldl (fun n d => n + auxBytes d.aux) n := by
  induction l generalizing m n with
  | nil => exact h
  | cons d l ih =>
    have hgrow : n ≤ n + auxBytes d.aux := Nat.le_add_right _ _
    unfold startDescs at ih ⊢
    rw [List.map_cons]
    split
    · have hrest : (Desc.loadRuns { d with started := true, aux := 0 }) = false := by simp [Desc.loadRuns]
      rw [List.filter_cons_of_neg (by rw [hrest]; exact Bool.false_ne_true), List.filter_cons]
      split
      · exact ih (h.trans hgrow)
      · exact ih h
    · rw [List.filter_cons, List.filter_cons]
      split
      · exact ih (Nat.add_le_add_right h _)
      · exact ih h

theorem bytesComing_startDesc_le (c : Fin 256) (q : Nat) (s : State) : bytesComing c (startDesc c q 0 s) ≤ bytesComing c s := by
  unfold bytesComing
  rw [loadsRunning_eq, loadsRunning_eq, ctx_startDesc_same, List.filter_append, List.filter_append, List.foldl_append,
    List.foldl_append]
  exact foldl_startDescs_le q _ le_rfl

/-- A load whose checks pass and that has room runs its operation. -/
theorem loadStart_runs {c : Fin 256} {k : Desc → Fin 48 → State → State} {d : Desc} {g : Fin 48} {s : State}
    (hplain : loadPlain d = true) (h0 : d.loadBytes ≠ 0) (h16 : d.loadBytes % 16 = 0) (hsize : d.loadBytes + 16 ≤ progSize g s)
    (hoff : stSt g s ≠ ssOFFLINE) (hfault : stSt g s ≠ ssFAULT) (hroom : d.loadBytes + bytesComing c s ≤ progFree g s)
    (hworld : (if d.op = 0x12 then anyOpen (progAddr g s) (progSize g s) s else anySecure (progAddr g s) (progSize g s) s) = false) :
    loadStart c k d g s = k d g s := by
  have hformat : ¬ (¬ loadPlain d = true ∨ d.loadBytes = 0 ∨ d.loadBytes % 16 ≠ 0) := by simp [hplain, h0, h16]
  unfold loadStart
  extract_lets n
  rw [if_neg hformat, if_neg (Nat.not_lt.2 hsize), if_neg (by simp [hoff, hfault])]
  by_cases hop : d.op = 0x12
  · rw [if_pos hop] at hworld ⊢
    rw [if_neg (by rw [hworld]; exact Bool.false_ne_true), if_neg (Nat.not_lt.2 hroom)]
  · rw [if_neg hop] at hworld ⊢
    rw [if_neg (by rw [hworld]; exact Bool.false_ne_true), if_neg (Nat.not_lt.2 hroom)]

/-- A descriptor of a stall's context runs on the stall that the context may reach. -/
theorem withStall_of_starts {c : Fin 256} {op : Nat} {d : Desc} {g : Fin 48} {s : State} (h : Starts c op d s)
    (hg : ctxStall c s = some g) (htxn : d.txnV = false) (hw : ctxSecure c = true ∨ blockSecure (32 + g.val / 8) s = false)
    (k : Desc → Fin 48 → State → State) : withStall c op k s = k d g (startDesc c d.seq 0 s) := by
  have hopen : ¬ (¬ ctxSecure c = true ∧ blockSecure (32 + g.val / 8) (startDesc c d.seq 0 s) = true) := by
    rintro ⟨hc, hb⟩
    obtain hw | hw := hw
    · exact hc hw
    · exact Bool.false_ne_true (hw.symm.trans hb)
  rw [withStall, withDesc_of_starts h]
  rw [show ctxStall c (startDesc c d.seq 0 s) = some g from hg]
  dsimp only
  rw [if_neg (by rw [htxn]; exact Bool.false_ne_true), blockCheck, if_neg hopen]

/-- A load that starts runs its operation on the state in which it has started. -/
theorem withLoad_of_starts {c : Fin 256} {op n : Nat} {d : Desc} {g : Fin 48} {s : State} (h : LoadStarts c op d g n s)
    (k : Desc → Fin 48 → State → State) : withLoad c op (loadStart c k) s = k d g (startDesc c d.seq 0 s) := by
  obtain ⟨hnone, hstart, hg, htxn, hw, hplain, rfl, h0, h16, hsize, hoff, hfault, hroom, hworld⟩ := h
  rw [withLoad, hnone]
  refine (withStall_of_starts hstart hg htxn hw _).trans (loadStart_runs hplain h0 h16 hsize hoff hfault ?_ ?_)
  · exact (Nat.add_le_add_left (bytesComing_startDesc_le c d.seq s) _).trans hroom
  · obtain ⟨-, hop, -⟩ := hstart
    rw [hop]
    exact hworld

/-! ### The three loads -/

/-- A job that stands for bytes that are there. -/
theorem loadReady_effect (c : Fin 256) (d : Desc) (g : Fin 48) (slot : Nat) (bs : List Byte) (s : State) :
    (loadReady c d g slot bs s).regs = s.regs ∧ ∃ j, (loadReady c d g slot bs s).cmpDone = s.cmpDone ++ [j] ∧ j.ctx = c.val ∧
      j.seq = d.seq ∧ j.out = bs ∧ j.done = some (stOK, 0) :=
  ⟨rfl, _, rfl, rfl, rfl, rfl, rfl⟩

theorem loadDecode_effect (c : Fin 256) (d : Desc) (g : Fin 48) (slot : Nat) (bs : List Byte) (s : State) :
    OnlyWrites belowStalls s (loadDecode c d g slot bs s) ∧
      JobGiven (loadJob c d.seq true bs [] d.loadBytes none) (loadDecode c d g slot bs s) := by
  obtain ⟨hw, hj⟩ := submitJob_effect (loadJob c d.seq true bs [] d.loadBytes none)
    (startDesc c d.seq (loadAux g d.loadBytes slot) s)
  exact ⟨.trans (.regs (.refl s) (startDesc_regs ..)) hw, hj⟩

theorem completes_progLoad {c : Fin 256} {d : Desc} {g : Fin 48} {n : Nat} (bs : List Byte) {s : State}
    (h : LoadStarts c 0x10 d g n s) :
    Completes (.progLoad c (.ok bs)) s fun t => t.regs = s.regs ∧ ∃ j, t.cmpDone = s.cmpDone ++ [j] ∧ j.ctx = c.val ∧
      j.seq = d.seq ∧ j.out = fitBytes d.len bs ∧ j.done = some (stOK, 0) :=
  ⟨_, congrArg Host.Outcome.next (withLoad_of_starts h _), loadReady_effect c d g 0 (fitBytes d.len bs) _⟩

theorem completes_progLoadPacked {c : Fin 256} {d : Desc} {g : Fin 48} {n : Nat} (bs : List Byte) {s : State}
    (h : LoadStarts c 0x11 d g n s) :
    Completes (.progLoadPacked c (.ok bs)) s fun t => rdN t (R.STALL_PROG_WP g) = rdN s (R.STALL_PROG_WP g) ∧
      ∃ j ∈ t.cmpWait ++ t.cmpJobs[0] ++ t.cmpJobs[1], j.ctx = c.val ∧ j.seq = d.seq ∧ j.dec = true ∧
        j.input = bs.take d.len ∧ j.done = none := by
  obtain ⟨hw, hj⟩ := loadDecode_effect c d g 0 (bs.take d.len) (startDesc c d.seq 0 s)
  exact ⟨_, congrArg Host.Outcome.next (withLoad_of_starts h _), hw _ (belowStalls_stall g 0x18), _, hj, rfl, rfl, rfl, rfl, rfl⟩

/-- A load whose payload cannot be read, of any of the three opcodes. -/
theorem completes_failedLoad {c : Fin 256} {d : Desc} {g : Fin 48} {n a kind op : Nat} {i : Instr} {s : State}
    (hi : (i, op) ∈ [(Instr.progLoad c (.fail a kind), 0x10), (.progLoadPacked c (.fail a kind), 0x11),
      (.progLoadSealed c (.fail a kind) none, 0x12)]) (h : LoadStarts c op d g n s) :
    Completes i s fun t => Decided c d.seq stMEMORY_ERROR s t ∧ flag t F.HIF_ERR_STATUS_DMA_ERROR = true ∧
      rdN t (R.STALL_PROG_WP g) = rdN s (R.STALL_PROG_WP g) := by
  have hrun : exec i s = .next (payloadFail c d.seq a kind (startDesc c d.seq 0 s)) := by
    simp only [List.mem_cons, Prod.mk.injEq, List.not_mem_nil, or_false] at hi
    obtain ⟨rfl, rfl⟩ | ⟨rfl, rfl⟩ | ⟨rfl, rfl⟩ := hi
    · exact congrArg Host.Outcome.next (withLoad_of_starts h _)
    · exact congrArg Host.Outcome.next (withLoad_of_starts h _)
    · exact congrArg Host.Outcome.next (withLoad_of_starts h _)
  obtain ⟨av, hctx⟩ := ctx_payloadFail c d.seq a kind (startDesc c d.seq 0 s)
  obtain ⟨hflag, -⟩ := dmaErrorShown_fields a (c.val + 2 ^ 8 * kind) kind (startDesc c d.seq 0 s)
  refine ⟨_, hrun, ⟨av, a, false, ?_⟩, (flag_eq_of_rdN (rdN_payloadFail ..)).trans hflag,
    payloadFail_belowStalls _ _ _ _ _ _ (belowStalls_stall g 0x18)⟩
  rw [hctx, ← hist_startDesc c d.seq 0 s]
  rfl

/-- An envelope that does not hold (R454). -/
theorem sealedOpen_failed {c : Fin 256} {p : Option (List Byte)} {d : Desc} {g : Fin 48} {l : List Byte} {s : State}
    (h : sealedDetail d l p s ≠ 0) :
    sealedOpen c p d g l s =
      complete c d.seq stDATA_CHECK none (some (sealedDetail d l p s)) false (tackFail (sealedDetail d l p s) s) := if_pos h

theorem sealedOpen_belowStalls (c : Fin 256) (p : Option (List Byte)) (d : Desc) (g : Fin 48) (l : List Byte) (s : State) :
    OnlyWrites belowStalls s (sealedOpen c p d g l s) := by
  unfold sealedOpen
  extract_lets k
  exact .ite (.complete (tackFail_belowStalls k s) c _ _ _ _ _)
    (.ite (loadDecode_effect c d g _ _ s).1 (.regs (.refl s) (loadReady_effect ..).1))

theorem sealedOpen_plain {c : Fin 256} {p : Option (List Byte)} {d : Desc} {g : Fin 48} {l : List Byte} {s : State}
    (h : sealedDetail d l p s = 0) (hf : d.fbit 14 = false) :
    sealedOpen c p d g l s = loadReady c d g (leAt l 5 1) (p.getD []) s :=
  (if_neg (not_not.2 h)).trans (if_neg (by rw [hf]; exact Bool.false_ne_true))

theorem completes_progLoadSealed {c : Fin 256} {d : Desc} {g : Fin 48} {n : Nat} (bs : List Byte) (p : Option (List Byte))
    {s : State} (h : LoadStarts c 0x12 d g n s) :
    Completes (.progLoadSealed c (.ok bs) p) s fun t => rdN t (R.STALL_PROG_WP g) = rdN s (R.STALL_PROG_WP g) ∧
      (sealedDetail d (bs.take d.len) p s ≠ 0 → Decided c d.seq stDATA_CHECK s t ∧ flag t F.TCK_FLAGS_AUTH_FAIL = true ∧
        t.cmpDone = s.cmpDone) ∧
      (sealedDetail d (bs.take d.len) p s = 0 → d.fbit 14 = false →
        ∃ j, t.cmpDone = s.cmpDone ++ [j] ∧ j.ctx = c.val ∧ j.seq = d.seq ∧ j.out = p.getD [] ∧ j.done = some (stOK, 0)) := by
  refine ⟨sealedOpen c p d g (bs.take d.len) (startDesc c d.seq 0 s), congrArg Host.Outcome.next (withLoad_of_starts h _),
    sealedOpen_belowStalls _ _ _ _ _ _ _ (belowStalls_stall g 0x18), fun hk => ?_, fun hk hf => ?_⟩
  · obtain ⟨hflag, hctxs, hnow, hdone, -⟩ :=
      tackFail_fields (sealedDetail d (bs.take d.len) p (startDesc c d.seq 0 s)) (startDesc c d.seq 0 s)
    rw [sealedOpen_failed (s := startDesc c d.seq 0 s) hk]
    refine ⟨decided_complete _ _ _ _ _ ?_ hnow, (flag_eq_of_rdN (rdN_complete ..)).trans hflag,
      (complete_cmpDone ..).trans hdone⟩
    rw [ctx_congr hctxs, hist_startDesc]
  · rw [sealedOpen_plain (s := startDesc c d.seq 0 s) hk hf]
    exact (loadReady_effect ..).2

/-! ## Becoming visible (R75) -/

/-- The state in which the oldest load of a context has given up its job. -/
def jobTaken (c : Fin 256) (d : Desc) (s : State) : State :=
  { s with cmpDone := s.cmpDone.filter fun x => !(x.ctx == c.val && x.seq == d.seq) }

/-- The oldest load ends with its job's outcome, once there is room for what is good. -/
theorem loadVisible_eq {c : Fin 256} {d : Desc} {l : List Desc} {g : Fin 48} {j : Job} {s : State}
    (hl : loadsRunning c s = d :: l) (hg : auxStall d.aux = g.val)
    (hj : s.cmpDone.find? (fun j => j.ctx == c.val && j.seq == d.seq) = some j)
    (hroom : j.done.map Prod.fst = some stOK → j.out.length ≤ progFree g s) :
    loadVisible c s = loadEnd c d g j (jobTaken c d s) := by
  have hlt : auxStall d.aux < 48 := by rw [hg]; exact g.isLt
  have hstall : (⟨auxStall d.aux, hlt⟩ : Fin 48) = g := Fin.ext hg
  have hgo : ¬ ((j.done.map Prod.fst == some stOK) && decide (progFree (auxStall d.aux) s < j.out.length)) = true := by
    rw [hg, Bool.and_eq_true, beq_iff_eq, decide_eq_true_eq]
    exact fun ⟨hok, hfull⟩ => Nat.not_lt.2 (hroom hok) hfull
  rw [loadVisible, hl, List.head?_cons]
  dsimp only
  rw [dif_pos hlt, hj]
  dsimp only
  rw [if_neg hgo, hstall]
  rfl

theorem loadEnd_ok {c : Fin 256} {d : Desc} {g : Fin 48} {j : Job} {x : Nat} {s : State} (hop : d.op ≠ 0x12)
    (hd : j.done = some (stOK, x)) :
    loadEnd c d g j s =
      complete c d.seq stOK (some (rdN (showLoad g j.out s) (R.STALL_PROG_WP g))) (some j.out.length) false
        (showLoad g j.out s) := by
  rw [loadEnd, hd]
  show complete c d.seq stOK (some (rdN (if d.op = 0x12 then noteSealed g (showLoad g j.out s) else showLoad g j.out s) _)) _ _
    (if d.op = 0x12 then noteSealed g (showLoad g j.out s) else showLoad g j.out s) = _
  rw [if_neg hop]

theorem loadEnd_failed {c : Fin 256} {d : Desc} {g : Fin 48} {j : Job} {x : Nat} {s : State}
    (hd : j.done = some (stDATA_CHECK, x)) :
    loadEnd c d g j s =
      if d.op = 0x12 then complete c d.seq stDATA_CHECK none (some 5) false (tackFail 5 s)
      else complete c d.seq stDATA_CHECK none none false s := by
  rw [loadEnd, hd]
  rfl

theorem loftWrite_lofts (st : Fin 6) (off : Nat) (bs : List Byte) (s : State) :
    (loftWrite st off bs s).lofts = vmod s.lofts st fun m => memWrite m off bs := rfl

/-- Bytes written to a loft leave the registers, the contexts and the time. -/
theorem loftWrite_frame (st : Fin 6) (off : Nat) (bs : List Byte) (s : State) :
    (loftWrite st off bs s).regs = s.regs ∧ (loftWrite st off bs s).ctxs = s.ctxs ∧ (loftWrite st off bs s).now = s.now :=
  ⟨rfl, rfl, rfl⟩

theorem ringWrite_frame (st : Fin 6) (base size w : Nat) (bs : List Byte) (s : State) :
    (ringWrite st base size w bs s).regs = s.regs ∧ (ringWrite st base size w bs s).ctxs = s.ctxs ∧
      (ringWrite st base size w bs s).now = s.now := by
  obtain ⟨hr, hc, hn⟩ := loftWrite_frame st (base + w) (bs.take (size - w)) s
  obtain ⟨hr', hc', hn'⟩ :=
    loftWrite_frame st base (bs.drop (size - w)) (loftWrite st (base + w) (bs.take (size - w)) s)
  exact ⟨hr'.trans hr, hc'.trans hc, hn'.trans hn⟩

theorem ringWrite_lofts_congr (st : Fin 6) (base size w : Nat) (bs : List Byte) {s t : State} (h : t.lofts = s.lofts) :
    (ringWrite st base size w bs t).lofts = (ringWrite st base size w bs s).lofts := by
  simp only [ringWrite, loftWrite_lofts, h]

/-- A visible load moves WP around the ring; the rest of what it leaves is the ring region's bytes (R74, R75). -/
theorem showLoad_fields (g : Fin 48) (bs : List Byte) (s : State) :
    rdN (showLoad g bs s) (R.STALL_PROG_WP g) = (rdN s (R.STALL_PROG_WP g) + bs.length) % progSize g s % 2 ^ 32 ∧
      (showLoad g bs s).lofts =
        (ringWrite (stableOf g) (progBase g s) (progSize g s) (rdN s (R.STALL_PROG_WP g)) bs s).lofts ∧
      (showLoad g bs s).ctxs = s.ctxs ∧ (showLoad g bs s).now = s.now := by
  obtain ⟨-, hctxs, hnow⟩ := ringWrite_frame (stableOf g) (progBase g s) (progSize g s) (rdN s (R.STALL_PROG_WP g)) bs s
  unfold showLoad
  extract_lets w s1 s2
  refine ⟨?_, rfl, hctxs, hnow⟩
  have hne : R.STALL_PROG_FREE g ≠ R.STALL_PROG_WP g := stallReg_ne g (by decide)
  rw [rdN_setStall, showFree, rdN_wrN_other _ _ hne]
  exact rdN_wrN_same _ _ _

theorem loft_congr {s t : State} (h : t.lofts = s.lofts) (st : Nat) : loft t st = loft s st := by rw [loft, loft, h]

theorem completes_loadVisible {c : Fin 256} {d : Desc} {l : List Desc} {g : Fin 48} {j : Job} {s : State}
    (hl : loadsRunning c s = d :: l) (hg : auxStall d.aux = g.val) (hop : d.op ≠ 0x12)
    (hj : s.cmpDone.find? (fun j => j.ctx == c.val && j.seq == d.seq) = some j) (hd : j.done = some (stOK, 0))
    (hroom : j.out.length ≤ progFree g s) :
    Completes (.loadVisible c) s fun t =>
      rdN t (R.STALL_PROG_WP g) = (rdN s (R.STALL_PROG_WP g) + j.out.length) % progSize g s % 2 ^ 32 ∧
      loft t (g.val / 8) =
        loft (ringWrite (stableOf g) (progBase g s) (progSize g s) (rdN s (R.STALL_PROG_WP g)) j.out s) (g.val / 8) ∧
      DecidedWith c d.seq stOK (rdN t (R.STALL_PROG_WP g)) j.out.length s t := by
  refine ⟨_, congrArg Host.Outcome.next ((loadVisible_eq hl hg hj fun _ => hroom).trans (loadEnd_ok hop hd)), ?_⟩
  obtain ⟨hwp, hlofts, hctxs, hnow⟩ := showLoad_fields g j.out (jobTaken c d s)
  generalize showLoad g j.out (jobTaken c d s) = u at hwp hlofts hctxs hnow ⊢
  rw [rdN_complete]
  exact ⟨hwp, loft_congr (((complete_lofts ..).trans hlofts).trans (ringWrite_lofts_congr _ _ _ _ _ rfl)) _,
    decidedWith_complete _ _ _ _ _ (congrArg Ctx.hist (ctx_congr (s := jobTaken c d s) hctxs c)) hnow⟩

theorem completes_failedVisible {c : Fin 256} {d : Desc} {l : List Desc} {g : Fin 48} {j : Job} {x : Nat} {s : State}
    (hl : loadsRunning c s = d :: l) (hg : auxStall d.aux = g.val)
    (hj : s.cmpDone.find? (fun j => j.ctx == c.val && j.seq == d.seq) = some j) (hd : j.done = some (stDATA_CHECK, x)) :
    Completes (.loadVisible c) s fun t => Decided c d.seq stDATA_CHECK s t ∧ t.lofts = s.lofts ∧
      rdN t (R.STALL_PROG_WP g) = rdN s (R.STALL_PROG_WP g) := by
  have hbad : ¬ j.done.map Prod.fst = some stOK := by rw [hd]; simp [stDATA_CHECK, stOK]
  refine ⟨_, congrArg Host.Outcome.next ((loadVisible_eq hl hg hj fun hok => absurd hok hbad).trans (loadEnd_failed hd)), ?_⟩
  by_cases hop : d.op = 0x12
  · obtain ⟨-, hctxs, hnow, -, hlofts⟩ := tackFail_fields 5 (jobTaken c d s)
    have hwp := tackFail_belowStalls 5 (jobTaken c d s) _ (belowStalls_stall g 0x18)
    rw [if_pos hop]
    generalize tackFail 5 (jobTaken c d s) = u at hctxs hnow hlofts hwp ⊢
    exact ⟨decided_complete _ _ _ _ _ (congrArg Ctx.hist (ctx_congr (s := jobTaken c d s) hctxs c)) hnow,
      (complete_lofts ..).trans hlofts, (rdN_complete ..).trans hwp⟩
  · rw [if_neg hop]
    exact ⟨decided_complete (u := jobTaken c d s) _ _ _ _ _ rfl rfl, complete_lofts .., rdN_complete ..⟩

/-- Settles O32: a load that starts leaves the stalls' registers, and one that becomes visible stores, moves WP and completes. -/
theorem programLoads : Obligations.ProgramLoads :=
  ⟨fun _ _ _ _ bs _ h => completes_progLoad bs h, fun _ _ _ _ _ _ _ _ _ hi h => completes_failedLoad hi h,
    fun _ _ _ _ bs _ h => completes_progLoadPacked bs h, fun _ _ _ _ bs p _ h => completes_progLoadSealed bs p h,
    fun _ _ _ _ _ _ hl hg hop hj hd hroom => completes_loadVisible hl hg hop hj hd hroom,
    fun _ _ _ _ _ _ _ hl hg hj hd => completes_failedVisible hl hg hj hd⟩

end Machine
end Sys2Proof

namespace Sys2Proof
namespace Machine

/-! ## The registers of one stall beside those of another (R28) -/

theorem stallReg_ne_other {g h : Fin 48} (hne : h ≠ g) {a b : Nat} (ha : a < 0x10000) (hb : b < 0x10000) :
    stallBase g + a ≠ stallBase h + b := by
  have hval : h.val ≠ g.val := fun e => hne (Fin.ext e)
  unfold stallBase
  omega

theorem eventReg_stall (g k : Nat) : eventReg (stallBase g + k) = false :=
  eventReg_of_ge (by have := stallBase_ge g; omega)

theorem pendBit_ne_stall (n g k : Nat) (hn : n < 512) : stallBase g + k ≠ (pendBit n).off := by
  have := stallBase_ge g
  simp only [pendBit, R.EVC_PEND]
  omega

/-! ## What stays pending (R487) -/

/-- The event source `n` stays pending where it was. -/
def PendKept (n : Nat) (s t : State) : Prop := flag s (pendBit n) = true → flag t (pendBit n) = true

namespace PendKept

variable {n : Nat} {s t u : State}

theorem refl (s : State) : PendKept n s s := id

theorem trans (h : PendKept n s t) (k : PendKept n t u) : PendKept n s u := k ∘ h

theorem regs (h : PendKept n s t) (hr : ∀ o, rdN u o = rdN t o) : PendKept n s u :=
  fun hs => (flag_eq_of_rdN (hr _)).trans (h hs)

theorem wrN (h : PendKept n s t) {o : Nat} (v : Nat) (ho : o ≠ (pendBit n).off) : PendKept n s (wrN t o v) :=
  fun hs => (flag_eq_of_rdN (rdN_wrN_other t v ho)).trans (h hs)

theorem put (h : PendKept n s t) {f : Fld} (v : Nat) (ho : f.off ≠ (pendBit n).off) : PendKept n s (put t f v) := h.wrN _ ho

theorem ite {c : Prop} [Decidable c] (h : PendKept n s t) (k : PendKept n s u) : PendKept n s (if c then t else u) := by
  split <;> assumption

theorem raise (h : PendKept n s t) (hn : n < 512) {m : Nat} (hm : m < 512) : PendKept n s (raise m t) :=
  fun hs => flag_raise_of_flag hm hn (h hs)

end PendKept

theorem pendBit_ne_yard {n o : Nat} (ho : o < 0x70000) : o ≠ (pendBit n).off := by
  simp only [pendBit, R.EVC_PEND]
  omega

section
variable {n : Nat} (hn : n < 512)
include hn

theorem outFlag_pend (g : Fin 48) {f : Fld} (hf : f.off = R.STALL_OUT_FLAGS g) (s : State) : PendKept n s (outFlag f g s) :=
  .ite (.refl s) (.raise (.put (.refl s) 1 (by rw [hf]; exact pendBit_ne_stall n g 0x218 hn)) hn (stallEv_lt g (by decide)))

theorem writeArm_pend (g : Fin 48) (a : Arm) (s : State) : PendKept n s (writeArm g a s) := by
  have hflag : ∀ (c : Prop) [Decidable c] {f : Fld} {t : State}, f.off = R.STALL_OUT_FLAGS g → PendKept n s t →
      PendKept n s (if c then outFlag f g t else t) :=
    fun c _ f t hf ht => .ite (ht.trans (outFlag_pend hn g hf t)) ht
  have hstall (k : Nat) : stallBase g + k ≠ (pendBit n).off := pendBit_ne_stall n g k hn
  unfold writeArm
  extract_lets s1 s2 s3 s4 s5 s6
  have h2 : PendKept n s s2 := .wrN (.wrN (.refl s) _ (hstall 0x220)) _ (hstall 0x224)
  have h3 : PendKept n s s3 := .regs (.wrN (.wrN h2 _ (hstall 0x230)) _ (hstall 0x234)) (rdN_lifeAdd _ _ _)
  exact hflag _ rfl (hflag _ rfl (hflag _ rfl (hflag _ rfl h3)))

theorem writeCutArm_pend (g : Fin 48) (s : State) : PendKept n s (writeCutArm g s) := by
  unfold writeCutArm
  extract_lets x cut s1
  have h1 : PendKept n s s1 := .regs (.refl s) (rdN_setStall g _ s)
  clear_value cut s1
  cases cut with
  | some a => exact h1.trans (writeArm_pend hn g _ s1)
  | none => exact h1

theorem orphanSeam_pend (i : Fin 192) (s : State) : PendKept n s (orphanSeam i s) := by
  have hopen (f : Seam → Seam) : PendKept n s (showSeams (setSeam i f s)) :=
    .put (t := setSeam i f s) (.refl s) _ (pendBit_ne_yard (by decide))
  unfold orphanSeam
  exact .raise (.put (.regs (hopen _) (rdN_lifeAdd _ _ _)) 1 (pendBit_ne_yard (by decide))) hn (by decide)

theorem seamLoss_pend (g : Nat) (abort : Bool) (s : State) : PendKept n s (seamLoss g abort s) := by
  refine forAll_keeps (PendKept n s) _ (.refl s) fun i u hu => ?_
  exact .ite (.ite hu (.ite hu (hu.trans (orphanSeam_pend hn i u)))) (.ite hu hu)

theorem showWindow_pend (g : Fin 48) (s : State) : PendKept n s (showWindow g s) :=
  fun hs => (flag_eq_of_rdN (rdN_showWindow g s (pendBit_ne_stall n g 0x140 hn))).trans hs

/-- Entry to FAULT leaves every pending source pending. -/
theorem enterFault_pend (g : Fin 48) (cause : Nat) (s : State) : PendKept n s (enterFault g cause s) := by
  have hstate : R.STALL_STATE g ≠ (pendBit n).off := pendBit_ne_stall n g 0x8 hn
  have hword : PendKept n s (faultState g cause s) :=
    .put (.put (.put (.put (.put (.put (.put (.refl s) _ hstate) _ hstate) _ hstate) _ hstate) _ hstate) _ hstate) _ hstate
  unfold enterFault
  dsimp only
  refine .regs ?_ (rdN_tellStall _ _ _ _ _ _)
  refine .trans (.raise ?_ hn (stallEv_lt g (by decide))) (seamLoss_pend hn g false _)
  refine .trans (.trans ?_ (writeCutArm_pend hn g _)) (showWindow_pend hn g _)
  exact .regs (.regs hword (rdN_setStall g _ _)) (rdN_setStall g _ _)

end

/-! ## Entry to FAULT beside another stall (R95) -/

/-- The registers that entry to FAULT may write. -/
def faultReg (g o : Nat) : Bool := faultEndReg g o || o == R.STALL_STATE g

theorem enterFault_writes (g : Fin 48) (cause : Nat) (s : State) : OnlyWrites (faultReg g) s (enterFault g cause s) := by
  have hstate : faultReg g (R.STALL_STATE g) = true := by simp [faultReg]
  refine .trans ?_ ((enterFault_faultEnd g cause s).mono fun o ho => by rw [faultReg, ho, Bool.true_or])
  exact .put (.put (.put (.put (.put (.put (.put (.refl s) _ hstate) _ hstate) _ hstate) _ hstate) _ hstate) _ hstate) _ hstate

theorem faultReg_other {g h : Fin 48} (hne : h ≠ g) {k : Nat} (hk : k < 0x10000) : faultReg g (stallBase h + k) = false := by
  have hval : h.val ≠ g.val := fun e => hne (Fin.ext e)
  rw [faultReg, faultEndReg, eventReg_stall, Bool.false_or]
  simp only [List.contains_eq_mem, List.mem_cons, List.not_mem_nil, or_false, R.YRD_MSH_STATUS, R.YRD_MSH_FLAGS,
    R.STALL_TRJ_STATUS, R.STALL_OUT_FLAGS, R.STALL_CMP_LAST_A, R.STALL_CMP_LAST_B, R.STALL_CMP_FIRED, R.STALL_STATE,
    Bool.or_eq_false_iff, beq_eq_false_iff_ne, decide_eq_false_iff_not, stallBase]
  omega

/-! ## SEQUENCER_FAULT -/

/-- One stall of a SEQUENCER_FAULT. -/
def sequencerStall (s : State) (g : Fin 48) : State :=
  if stSt g s = ssOFFLINE ∨ stSt g s = ssFAULT then s else enterFault g 5 s

theorem sequencerFault_eq (x : Fin 6) (l : List (Fin 48)) (s : State) :
    sequencerFault x l s = (l.filter fun g => g.val / 8 == x.val).foldl sequencerStall (raise (stableEv x 2) s) := rfl

theorem sequencerStall_pend {n : Nat} (hn : n < 512) (g : Fin 48) (s : State) : PendKept n s (sequencerStall s g) :=
  .ite (.refl s) (enterFault_pend hn g 5 s)

/-- A visit of a stall keeps every field of another stall's registers. -/
theorem get_sequencerStall_other {g h : Fin 48} (hne : h ≠ g) {f : Fld} {k : Nat} (hf : f.off = stallBase h + k) (hk : k < 0x10000)
    (s : State) : get (sequencerStall s g) f = get s f :=
  OnlyWrites.get_eq (.ite (.refl s) (enterFault_writes g 5 s)) (by rw [hf]; exact faultReg_other hne hk)

/-- The stall is in FAULT with the cause of a SEQUENCER_FAULT. -/
def SequencerFaulted (g : Fin 48) (s : State) : Prop := stSt g s = ssFAULT ∧ get s (F.STALL_STATE_FAULT_CAUSE g) = 5

theorem sequencerStall_faults {g : Fin 48} {s : State} (hoff : stSt g s ≠ ssOFFLINE) (hfault : stSt g s ≠ ssFAULT) :
    SequencerFaulted g (sequencerStall s g) := by
  obtain ⟨hst, hcause, -⟩ := enterFault_fields g (cause := 5) (by decide) s
  rw [sequencerStall, if_neg (not_or.2 ⟨hoff, hfault⟩)]
  exact ⟨hst, hcause⟩

/-- A stall that the fault has reached stays as it is. -/
theorem SequencerFaulted.sequencerStall {g : Fin 48} {s : State} (h : SequencerFaulted g s) (k : Fin 48) :
    SequencerFaulted g (sequencerStall s k) := by
  obtain rfl | hne := eq_or_ne k g
  · rw [Machine.sequencerStall, if_pos (.inr h.1)]
    exact h
  · obtain ⟨hst, hcause⟩ := h
    exact ⟨(get_sequencerStall_other hne.symm rfl (by decide) s).trans hst,
      (get_sequencerStall_other hne.symm rfl (by decide) s).trans hcause⟩

/-- Every named stall that is neither OFFLINE nor in FAULT faults. -/
theorem foldl_sequencerStall_faults {l : List (Fin 48)} {g : Fin 48} (hg : g ∈ l) {s : State} (hoff : stSt g s ≠ ssOFFLINE)
    (hfault : stSt g s ≠ ssFAULT) : SequencerFaulted g (l.foldl sequencerStall s) := by
  induction l generalizing s with
  | nil => cases hg
  | cons k l ih =>
    rw [List.foldl_cons]
    obtain rfl | hne := eq_or_ne k g
    · exact List.foldlRecOn l _ (sequencerStall_faults hoff hfault) fun u hu k _ => hu.sequencerStall k
    · have hst : stSt g (sequencerStall s k) = stSt g s := get_sequencerStall_other hne.symm rfl (by decide) s
      exact ih ((List.mem_cons.1 hg).resolve_left hne.symm) (by rwa [hst]) (by rwa [hst])

theorem stSt_foldl_sequencerStall {l : List (Fin 48)} {g : Fin 48} (hg : g ∉ l) (s : State) :
    stSt g (l.foldl sequencerStall s) = stSt g s :=
  List.foldlRecOn (motive := fun t => stSt g t = stSt g s) l _ rfl fun t ht k hk =>
    (get_sequencerStall_other (by rintro rfl; exact hg hk) rfl (by decide) t).trans ht

/-- Settles O33: the named stalls of the stable fault one by one, and a stall's fault leaves the others' STATE. -/
theorem sequencerFaults : Obligations.SequencerFaults := by
  intro x l s
  have hev : stableEv x 2 < 512 := by unfold stableEv; omega
  have hraise (g : Fin 48) : stSt g (raise (stableEv x 2) s) = stSt g s := get_raise hev s (eventReg_stall g 0x8)
  refine ⟨_, congrArg Host.Outcome.next (sequencerFault_eq x l s), ?_, fun g hg hx hoff hfault => ?_, fun g hx => ?_⟩
  · exact List.foldlRecOn (motive := fun t => flag t (pendBit (stableEv x 2)) = true) _ _ (flag_raise_same hev s)
      fun t ht g _ => sequencerStall_pend hev g t ht
  · have hmem : g ∈ l.filter fun g => g.val / 8 == x.val := List.mem_filter.2 ⟨hg, beq_iff_eq.2 hx⟩
    rw [← hraise] at hoff hfault
    obtain ⟨hst, hcause⟩ := foldl_sequencerStall_faults hmem hoff hfault
    exact ⟨hst, hcause⟩
  · refine (stSt_foldl_sequencerStall (fun hg => hx ?_) _).trans (hraise g)
    exact beq_iff_eq.1 (List.mem_filter.1 hg).2

end Machine
end Sys2Proof

namespace Sys2Proof
namespace Machine

/-! ## Descriptors of a stall that are told (R77) -/

/-- What the completion of a descriptor keeps, telling a stall's descriptors keeps. -/
theorem tellStall_keeps {α : Type} {f : State → α} (hf : ∀ c q st a b s, f (complete c q st a b false s) = f s) (g : Nat)
    (ops : List Nat) (st : Nat) (a b : Option Nat) (s : State) : f (tellStall g ops st a b s) = f s :=
  List.foldlRecOn (motive := fun t => f t = f s) _ _ rfl fun _ ht c _ =>
    List.foldlRecOn (motive := fun t => f t = f s) _ _ ht fun u hu q _ => (hf c q st a b u).trans hu

theorem tellStall_stalls (g : Nat) (ops : List Nat) (st : Nat) (a b : Option Nat) (s : State) :
    (tellStall g ops st a b s).stalls = s.stalls :=
  tellStall_keeps (fun c q st a b s => complete_stalls c q st a b false s) g ops st a b s

theorem stall_congr {s t : State} (h : t.stalls = s.stalls) (g : Fin 48) : stall t g = stall s g := by rw [stall, stall, h]

@[simp] theorem stall_tellStall (g : Nat) (ops : List Nat) (st : Nat) (a b : Option Nat) (s : State) (h : Fin 48) :
    stall (tellStall g ops st a b s) h = stall s h := stall_congr (tellStall_stalls g ops st a b s) h

@[simp] theorem get_tellStall (g : Nat) (ops : List Nat) (st : Nat) (a b : Option Nat) (s : State) (f : Fld) :
    get (tellStall g ops st a b s) f = get s f := by
  rw [Machine.get, rdN_tellStall]
  rfl

@[simp] theorem stall_raise (n : Nat) (s : State) (h : Fin 48) : stall (raise n s) h = stall s h :=
  stall_congr (raise_stalls n s) h

@[simp] theorem stall_lifeAdd (s : State) (k n : Nat) (h : Fin 48) : stall (lifeAdd s k n) h = stall s h := rfl

/-! ## Entry to HOLD (R94, R97) -/

/-- Counting entries to HOLD changes the lifetime counters alone. -/
theorem countHold_shape (g causes : Nat) (s : State) : ∃ l, countHold g causes s = { s with life := l } := by
  refine List.foldlRecOn (motive := fun t : State => ∃ l, t = { s with life := l }) _ _ ⟨s.life, rfl⟩ fun t ht i _ => ?_
  obtain ⟨l, rfl⟩ := ht
  split
  · exact ⟨_, rfl⟩
  · exact ⟨l, rfl⟩

/-- The STATE word of a stall that has entered HOLD. -/
def heldState (g causes ret : Nat) (s : State) : State :=
  let s1 := put (put s (F.STALL_STATE_STATE g) ssHOLD) (F.STALL_STATE_RETURN_STATE g) ret
  clrF (put s1 (F.STALL_STATE_HOLD_CAUSE g) (get s1 (F.STALL_STATE_HOLD_CAUSE g) ||| causes)) (F.STALL_STATE_HOLD_PENDING g)

/-- A held stall's requests are done. -/
def Stall.held (x : Stall) : Stall :=
  { (if x.hzn = 0 then x.abortWaits else x) with
    holdReq := 0, holdDue := false, noEntry := false, starveDue := false, retDue := false }

theorem enterHold_eq (g : Fin 48) (causes ret : Nat) (s : State) :
    enterHold g causes ret s =
      let s4 := raise (stallEv g 0) (countHold g causes (setStall g Stall.held (heldState g causes ret s)))
      tellStall g [0x19] stOK (some (stateWord g s4)) (some 0) s4 := rfl

/-- Behind the STATE word, entry to HOLD writes what a raise writes. -/
theorem enterHold_afterState (g : Fin 48) (causes ret : Nat) (s : State) :
    OnlyWrites eventReg (heldState g causes ret s) (enterHold g causes ret s) := by
  rw [enterHold_eq]
  extract_lets s4
  refine .trans ?_ fun o _ => rdN_tellStall _ _ _ _ _ _ o
  obtain ⟨l, hl⟩ := countHold_shape g causes (setStall g Stall.held (heldState g causes ret s))
  exact .raise (by rw [hl]; exact .regs (.refl _) rfl) (stallEv_lt g (by decide)) fun _ => id

theorem heldState_writes (g causes ret : Nat) (s : State) : OnlyWrites (· == R.STALL_STATE g) s (heldState g causes ret s) := by
  have hstate : (R.STALL_STATE g == R.STALL_STATE g) = true := beq_self_eq_true _
  exact .put (.put (.put (.put (.refl s) _ hstate) _ hstate) _ hstate) 0 hstate

/-- The registers of an entry to HOLD. -/
def holdReg (g o : Nat) : Bool := eventReg o || o == R.STALL_STATE g

theorem enterHold_writes (g : Fin 48) (causes ret : Nat) (s : State) : OnlyWrites (holdReg g) s (enterHold g causes ret s) :=
  .trans ((heldState_writes g causes ret s).mono fun o ho => by rw [holdReg, ho, Bool.or_true])
    ((enterHold_afterState g causes ret s).mono fun o ho => by rw [holdReg, ho, Bool.true_or])

/-- Another register of the stall is none of them. -/
theorem holdReg_stall (g : Nat) {k : Nat} (h : 0x8 ≠ k) : holdReg g (stallBase g + k) = false := by
  rw [holdReg, eventReg_stall, Bool.false_or, beq_eq_false_iff_ne]
  exact (stallReg_ne g h).symm

theorem heldState_fields (g : Nat) {causes ret : Nat} (hc : causes < 256) (hr : ret < 16) (s : State) :
    stSt g (heldState g causes ret s) = ssHOLD ∧ get (heldState g causes ret s) (F.STALL_STATE_RETURN_STATE g) = ret ∧
      get (heldState g causes ret s) (F.STALL_STATE_HOLD_CAUSE g) = get s (F.STALL_STATE_HOLD_CAUSE g) ||| causes ∧
      flag (heldState g causes ret s) (F.STALL_STATE_HOLD_PENDING g) = false := by
  have hor : get s (F.STALL_STATE_HOLD_CAUSE g) ||| causes < 256 := Nat.or_lt_two_pow (n := 8) (get_lt _ _) hc
  refine ⟨?_, ?_, ?_, flag_clrF_same _ _ (Nat.le_of_ble_eq_true rfl)⟩
  all_goals
    simp only [heldState, stSt, clrF, F.STALL_STATE_STATE, F.STALL_STATE_RETURN_STATE, F.STALL_STATE_HOLD_CAUSE,
      F.STALL_STATE_HOLD_PENDING] at hor ⊢
    simp [get_put_same, get_put_disjoint, ssHOLD, Nat.mod_eq_of_lt, hor, hr]

/-- A stall that has entered HOLD shows its return state and its causes, and no hold pending. -/
theorem enterHold_fields (g : Fin 48) {causes ret : Nat} (hc : causes < 2 ^ 8) (hr : ret < 2 ^ 4) (s : State) :
    stSt g (enterHold g causes ret s) = ssHOLD ∧ get (enterHold g causes ret s) (F.STALL_STATE_RETURN_STATE g) = ret ∧
      get (enterHold g causes ret s) (F.STALL_STATE_HOLD_CAUSE g) = get s (F.STALL_STATE_HOLD_CAUSE g) ||| causes ∧
      flag (enterHold g causes ret s) (F.STALL_STATE_HOLD_PENDING g) = false := by
  have h := enterHold_afterState g causes ret s
  have hkept : eventReg (R.STALL_STATE g) = false := eventReg_stall g 0x8
  obtain ⟨hst, hret, hcause, hpend⟩ := heldState_fields g hc hr s
  exact ⟨(h.get_eq hkept).trans hst, (h.get_eq hkept).trans hret, (h.get_eq hkept).trans hcause, (h.flag_eq hkept).trans hpend⟩

/-! ## The events that hold a stall -/

theorem completes_programEmpty {g : Fin 48} {s : State} (h : emptyFor g 4 s = true) :
    Completes (.programEmpty g) s fun t => stSt g t = ssHOLD ∧ get t (F.STALL_STATE_RETURN_STATE g) = ssRUN ∧
      get t (F.STALL_STATE_HOLD_CAUSE g) = get s (F.STALL_STATE_HOLD_CAUSE g) ||| hcPROGRAM_EMPTY ∧
      flag t (F.STALL_STATE_HOLD_PENDING g) = false :=
  ⟨_, congrArg Host.Outcome.next (if_pos h), enterHold_fields g (by decide) (by decide) s⟩

theorem completes_seamHold {g : Fin 48} {s : State} (h : emptyFor g 3 s = true) :
    Completes (.seamHold g) s fun t => stSt g t = ssHOLD ∧ get t (F.STALL_STATE_RETURN_STATE g) = ssRUN ∧
      get t (F.STALL_STATE_HOLD_CAUSE g) = get s (F.STALL_STATE_HOLD_CAUSE g) ||| hcSEAM := by
  obtain ⟨hst, hret, hcause, -⟩ := enterHold_fields g (causes := hcSEAM) (ret := ssRUN) (by decide) (by decide) s
  exact ⟨_, congrArg Host.Outcome.next (if_pos h), hst, hret, hcause⟩

/-- Counting a starved hold writes its counter (R131). -/
theorem noteStarved_fields (g : Fin 48) (s : State) :
    rdN (noteStarved g s) (R.STALL_TRJ_STARVED_HOLDS g) = min (rdN s (R.STALL_TRJ_STARVED_HOLDS g) + 1) 0xFFFFFFFF ∧
      (∀ f : Fld, f.off = R.STALL_STATE g → get (noteStarved g s) f = get s f) ∧
      ∀ h : Fin 48, stall (noteStarved g s) h = stall s h := by
  refine ⟨?_, fun f hf => ?_, fun h => ?_⟩
  · rw [noteStarved, rdN_lifeAdd, rdN_addSat_same]
  · rw [noteStarved, get_lifeAdd]
    exact get_wrN_other s f _ (by rw [hf]; exact stallReg_ne g (by decide))
  · rw [noteStarved, stall_lifeAdd, stall_addSat]

theorem completes_starvedHold {g : Fin 48} {s : State} (hst : stSt g s = ssRUN) (hdue : (stall s g).starveDue = true)
    (hgo : (stall s g).stops = false) :
    Completes (.starvedHold g) s fun t => stSt g t = ssHOLD ∧ get t (F.STALL_STATE_RETURN_STATE g) = ssRUN ∧
      get t (F.STALL_STATE_HOLD_CAUSE g) = get s (F.STALL_STATE_HOLD_CAUSE g) ||| hcSTARVED ∧
      rdN t (R.STALL_TRJ_STARVED_HOLDS g) = min (rdN s (R.STALL_TRJ_STARVED_HOLDS g) + 1) 0xFFFFFFFF := by
  obtain ⟨hheld, hret, hcause, -⟩ := enterHold_fields g (causes := hcSTARVED) (ret := ssRUN) (by decide) (by decide) s
  have hcount := enterHold_writes g hcSTARVED ssRUN s _ (holdReg_stall g (k := 0x15C) (by decide))
  obtain ⟨hnote, hstate, -⟩ := noteStarved_fields g (enterHold g hcSTARVED ssRUN s)
  refine ⟨_, congrArg Host.Outcome.next (if_pos ⟨hst, hdue, by rw [hgo]; exact Bool.false_ne_true⟩), ?_, ?_, ?_, ?_⟩
  · exact (hstate (F.STALL_STATE_STATE g) rfl).trans hheld
  · exact (hstate (F.STALL_STATE_RETURN_STATE g) rfl).trans hret
  · exact (hstate (F.STALL_STATE_HOLD_CAUSE g) rfl).trans hcause
  · rw [hnote]
    exact congrArg (fun n => min (n + 1) 0xFFFFFFFF) hcount

theorem completes_syncTimeout {g : Fin 48} {s : State} {m id tmo : Nat} (hsync : (stall s g).sync = some (m, id, tmo))
    (hst : stSt g s = ssSYNC) (htmo : tmo ≠ 0) (hlate : tmo * 1000000 < s.beam - (stall s g).syncSince) :
    Completes (.syncTimeout g) s fun t => stSt g t = ssHOLD ∧ get t (F.STALL_STATE_RETURN_STATE g) = ssSYNC ∧
      get t (F.STALL_STATE_HOLD_CAUSE g) = get s (F.STALL_STATE_HOLD_CAUSE g) ||| hcSYNC := by
  have hrun : syncTimeout g s = enterHold g hcSYNC ssSYNC s := by
    rw [syncTimeout, hsync]
    exact if_pos ⟨hst, htmo, hlate⟩
  obtain ⟨hheld, hret, hcause, -⟩ := enterHold_fields g (causes := hcSYNC) (ret := ssSYNC) (by decide) (by decide) s
  exact ⟨_, congrArg Host.Outcome.next hrun, hheld, hret, hcause⟩

/-- The causes of a hold that takes effect. -/
def holdCauses (x : Stall) : Nat := x.holdReq ||| (if x.starveDue then hcSTARVED else 0)

/-- The stall as a hold that takes effect finds it. -/
def holdNoted (g : Fin 48) (s : State) : State := if (stall s g).starveDue then noteStarved g s else s

theorem get_holdNoted (g : Fin 48) (s : State) {f : Fld} (hf : f.off = R.STALL_STATE g) : get (holdNoted g s) f = get s f := by
  unfold holdNoted
  split
  · exact (noteStarved_fields g s).2.1 f hf
  · rfl

theorem stSt_holdNoted (g : Fin 48) (s : State) : stSt g (holdNoted g s) = stSt g s := get_holdNoted g s rfl

theorem holdTakesEffect_waiting {g : Fin 48} {s : State} (hdue : holdDueNow g s = true) (hst : stSt g s ≠ ssRUN) :
    holdTakesEffect g s = enterHold g (holdCauses (stall s g)) (stSt g s) (holdNoted g s) := by
  rw [← stSt_holdNoted g s] at hst ⊢
  exact (if_neg (not_not.2 hdue)).trans (if_pos hst)

/-- A stall that waits holds with the requested causes, and with STARVED where that hold is due too. -/
theorem completes_waitHeld {g : Fin 48} {s : State} (hdue : holdDueNow g s = true) (hst : stSt g s ≠ ssRUN)
    (hreq : (stall s g).holdReq < 256) :
    Completes (.holdTakesEffect g) s fun t => stSt g t = ssHOLD ∧ get t (F.STALL_STATE_RETURN_STATE g) = stSt g s ∧
      get t (F.STALL_STATE_HOLD_CAUSE g) = get s (F.STALL_STATE_HOLD_CAUSE g) ||| holdCauses (stall s g) := by
  have hcauses : holdCauses (stall s g) < 2 ^ 8 := Nat.or_lt_two_pow hreq (by split <;> decide)
  obtain ⟨hheld, hret, hcause, -⟩ := enterHold_fields g hcauses (stSt_lt g s) (holdNoted g s)
  exact ⟨_, congrArg Host.Outcome.next (holdTakesEffect_waiting hdue hst), hheld, hret,
    hcause.trans (by rw [get_holdNoted g s rfl])⟩

/-- Settles O26: each event is an entry to HOLD, whose fields `enterHold_fields` gives. -/
theorem stallEntersHold : Obligations.StallEntersHold :=
  ⟨fun _ _ h => completes_programEmpty h, fun _ _ h => completes_seamHold h,
    fun _ _ hst hdue hgo => completes_starvedHold hst hdue hgo,
    fun _ _ _ _ _ hsync hst htmo hlate => completes_syncTimeout hsync hst htmo hlate,
    fun _ _ hdue hst hreq => completes_waitHeld hdue hst hreq⟩

end Machine
end Sys2Proof

namespace Sys2Proof
namespace Machine

/-! ## The STATE word (R22) -/

/-- A write above the state code leaves the code. -/
theorem stSt_putHigh (g : Nat) {f : Fld} (v : Nat) (s : State) (hw : f.lo + f.w ≤ 32) (hlo : 4 ≤ f.lo) :
    stSt g (put s f v) = stSt g s := get_put_disjoint s f (F.STALL_STATE_STATE g) v hw (.inr hlo)

theorem stSt_setF_pending (g : Nat) (s : State) : stSt g (setF s (F.STALL_STATE_HOLD_PENDING g)) = stSt g s :=
  stSt_putHigh g 1 s (by decide : 24 + 1 ≤ 32) (by decide : 4 ≤ 24)

theorem flag_setF_pending (g : Nat) (s : State) :
    flag (setF s (F.STALL_STATE_HOLD_PENDING g)) (F.STALL_STATE_HOLD_PENDING g) = true :=
  flag_setF_same s _ (by decide : 24 + 1 ≤ 32) rfl

/-- The hold causes written above the state code. -/
theorem holdCause_put (g : Nat) {v : Nat} (hv : v < 2 ^ 8) (s : State) :
    stSt g (put s (F.STALL_STATE_HOLD_CAUSE g) v) = stSt g s ∧
      get (put s (F.STALL_STATE_HOLD_CAUSE g) v) (F.STALL_STATE_HOLD_CAUSE g) = v :=
  ⟨stSt_putHigh g v s (by decide : 8 + 8 ≤ 32) (by decide : 4 ≤ 8),
    (get_put_same s _ v (by decide : 8 + 8 ≤ 32)).trans (Nat.mod_eq_of_lt hv)⟩

theorem addHold_fields (g : Nat) {c : Nat} (hc : c < 2 ^ 8) (s : State) :
    stSt g (addHold g c s) = stSt g s ∧
      get (addHold g c s) (F.STALL_STATE_HOLD_CAUSE g) = get s (F.STALL_STATE_HOLD_CAUSE g) ||| c :=
  holdCause_put g (Nat.or_lt_two_pow (get_lt s (F.STALL_STATE_HOLD_CAUSE g)) hc) s

/-! ## A requested hold (R97) -/

theorem requestHold_held {g : Fin 48} {s : State} (h : stSt g s = ssHOLD) (c : Nat) : requestHold g c s = addHold g c s := if_pos h

theorem requestHold_run {g : Fin 48} {s : State} (h : stSt g s = ssRUN) (c : Nat) :
    requestHold g c s =
      setF (setStall g (fun x => { x with holdReq := x.holdReq ||| c }) s) (F.STALL_STATE_HOLD_PENDING g) :=
  (if_neg (by rw [h]; decide)).trans (if_pos h)

theorem requestHold_wait {g : Fin 48} {s : State} (h : stSt g s = ssSYNC ∨ stSt g s = ssLAYER) (c : Nat) :
    requestHold g c s = setStall g (fun x => { x with holdReq := x.holdReq ||| c }) s := by
  have hheld : stSt g s ≠ ssHOLD := by rintro e; rw [e] at h; revert h; decide
  have hrun : stSt g s ≠ ssRUN := by rintro e; rw [e] at h; revert h; decide
  exact (if_neg hheld).trans ((if_neg hrun).trans (if_pos h))

/-- What a hold requested by the causes `c` does by the stall's state. -/
structure HoldAsked (g : Fin 48) (c : Nat) (s t : State) : Prop where
  held : stSt g s = ssHOLD → stSt g t = ssHOLD ∧
    get t (F.STALL_STATE_HOLD_CAUSE g) = get s (F.STALL_STATE_HOLD_CAUSE g) ||| c
  running : stSt g s = ssRUN → stSt g t = ssRUN ∧ flag t (F.STALL_STATE_HOLD_PENDING g) = true ∧
    (stall t g).holdReq = (stall s g).holdReq ||| c
  waiting : stSt g s = ssSYNC ∨ stSt g s = ssLAYER → stSt g t = stSt g s ∧ (stall t g).holdReq = (stall s g).holdReq ||| c

theorem requestHold_asks (g : Fin 48) {c : Nat} (hc : c < 2 ^ 8) (s : State) : HoldAsked g c s (requestHold g c s) where
  held h := by
    obtain ⟨hst, hcause⟩ := addHold_fields g hc s
    rw [requestHold_held h]
    exact ⟨hst.trans h, hcause⟩
  running h := by
    rw [requestHold_run h]
    refine ⟨(stSt_setF_pending g _).trans h, flag_setF_pending g _, ?_⟩
    rw [setF, stall_put, stall_setStall_same]
  waiting h := by
    rw [requestHold_wait h, stall_setStall_same]
    exact ⟨rfl, rfl⟩

theorem holdOk_iff (g : Nat) (s : State) : holdOk g s = true ↔ ssRUN ≤ stSt g s ∧ stSt g s ≤ ssHOLD := by simp [holdOk]

/-- HOLD by register where the stall takes it. -/
theorem regHold_asks {g : Fin 48} {s : State} (h : holdOk g s = true) : HoldAsked g hcHOST s (regHold g s) := by
  rw [regHold, if_pos h]
  exact requestHold_asks g (by decide) s

/-- A refused command sets its flag, and leaves the STATE word and every unit. -/
theorem cmdRefuse_fields (g : Nat) (s : State) :
    flag (cmdRefuse g s) (F.STALL_FLAGS_CMD_REFUSED g) = true ∧ stSt g (cmdRefuse g s) = stSt g s ∧
      (cmdRefuse g s).stalls = s.stalls :=
  ⟨flag_setF_same s _ (by decide : 4 + 1 ≤ 32) rfl, get_put_other _ _ _ _ (stallReg_ne g (by decide)), rfl⟩

theorem regHold_refused {g : Fin 48} {s : State} (h : holdOk g s = false) : regHold g s = cmdRefuse g s :=
  if_neg (by rw [h]; exact Bool.false_ne_true)

/-! ## What a RESUME clears (R98) -/

theorem and_lt_of_le {x m n : Nat} (h : m < n) : x &&& m < n := Nat.lt_of_le_of_lt Nat.and_le_right h

theorem resumeNow_fields (g : Fin 48) (s : State) :
    stSt g (resumeNow g s) = stSt g s ∧
      get (resumeNow g s) (F.STALL_STATE_HOLD_CAUSE g) =
        get s (F.STALL_STATE_HOLD_CAUSE g) &&& (hcSTARVED ||| hcPROGRAM_EMPTY) := by
  have hput := holdCause_put g (v := get s (F.STALL_STATE_HOLD_CAUSE g) &&& (hcSTARVED ||| hcPROGRAM_EMPTY))
    (and_lt_of_le (by decide)) s
  unfold resumeNow
  extract_lets keep s1
  split
  · exact ⟨(get_setStall g _ s1 _).trans hput.1, (get_setStall g _ s1 _).trans hput.2⟩
  · exact hput

theorem resumeOk_held {g : Nat} {s : State} (h : resumeOk g s = true) : stSt g s = ssHOLD := by
  simp only [resumeOk, Bool.and_eq_true, beq_iff_eq] at h
  obtain ⟨⟨⟨hst, -⟩, -⟩, -⟩ := h
  exact hst

/-- What a RESUME by register does by whether the stall takes it. -/
theorem regResume_cases (g : Fin 48) (s : State) :
    if resumeOk g s then stSt g (regResume g s) = ssHOLD ∧
      get (regResume g s) (F.STALL_STATE_HOLD_CAUSE g) =
        get s (F.STALL_STATE_HOLD_CAUSE g) &&& (hcSTARVED ||| hcPROGRAM_EMPTY)
    else flag (regResume g s) (F.STALL_FLAGS_CMD_REFUSED g) = true ∧ (regResume g s).stalls = s.stalls := by
  unfold regResume
  split
  next h =>
    obtain ⟨hst, hcause⟩ := resumeNow_fields g s
    exact ⟨hst.trans (resumeOk_held h), hcause⟩
  next =>
    obtain ⟨hflag, -, hstalls⟩ := cmdRefuse_fields g s
    exact ⟨hflag, hstalls⟩

/-! ## An order to every stall (R100)

HOLD_ALL visits the stalls one by one. A visit changes nothing that the visit of another stall reads or writes. -/

/-- A register that belongs to no other stall. -/
def SeenBy (j : Fin 48) (o : Nat) : Prop := ∀ i : Fin 48, j ≠ i → ∀ k < 0x10000, stallBase i + k ≠ o

theorem seenBy_stall (j : Fin 48) {k : Nat} (hk : k < 0x10000) : SeenBy j (stallBase j + k) :=
  fun _ hne _ hk' => stallReg_ne_other hne hk' hk

theorem seenBy_yard (j : Fin 48) {o : Nat} (ho : o < 0x200000) : SeenBy j o := fun i _ k _ => by
  have := stallBase_ge i
  omega

theorem seenBy_servo (j : Fin 48) : SeenBy j (R.SRV_STATE j) := fun i _ k hk => by
  simp only [R.SRV_STATE, cleBase, stallBase]
  omega

/-- Two states look the same to a stall. -/
structure StallView (j : Fin 48) (s t : State) : Prop where
  regs : ∀ o, SeenBy j o → rdN t o = rdN s o
  unit : stall t j = stall s j
  forced : t.forced = s.forced

namespace StallView

variable {j : Fin 48} {s t u : State}

theorem refl (s : State) : StallView j s s := ⟨fun _ _ => rfl, rfl, rfl⟩

theorem trans (h : StallView j s t) (k : StallView j t u) : StallView j s u :=
  ⟨fun o ho => (k.regs o ho).trans (h.regs o ho), k.unit.trans h.unit, k.forced.trans h.forced⟩

theorem setStall (h : StallView j s t) {i : Fin 48} (hne : j ≠ i) (f : Stall → Stall) : StallView j s (setStall i f t) :=
  h.trans ⟨fun _ _ => rfl, stall_setStall_other f t hne, rfl⟩

theorem put (h : StallView j s t) {i : Fin 48} (hne : j ≠ i) {f : Fld} {k : Nat} (hf : f.off = stallBase i + k)
    (hk : k < 0x10000) (v : Nat) : StallView j s (put t f v) :=
  h.trans ⟨fun _ ho => rdN_put_other t f v (by rw [hf]; exact ho i hne k hk), rfl, rfl⟩

theorem ite {c : Prop} [Decidable c] (h : StallView j s t) (k : StallView j s u) : StallView j s (if c then t else u) := by
  split <;> assumption

theorem get_eq (h : StallView j s t) {f : Fld} (hf : SeenBy j f.off) : get t f = get s f := by
  rw [Machine.get, h.regs _ hf]
  rfl

theorem flag_eq (h : StallView j s t) {f : Fld} (hf : SeenBy j f.off) : flag t f = flag s f := flag_eq_of_rdN (h.regs _ hf)

theorem stSt_eq (h : StallView j s t) : stSt j t = stSt j s := h.get_eq (seenBy_stall j (by decide))

theorem holdOk_eq (h : StallView j s t) : holdOk j t = holdOk j s := by rw [holdOk, holdOk, h.stSt_eq]

theorem resumeOk_eq (h : StallView j s t) : resumeOk j t = resumeOk j s := by
  have hlost : hbLost t = hbLost s := h.flag_eq (seenBy_yard j (by decide))
  have hsources : get t F.YRD_LSAFE_STATUS_SOURCES = get s F.YRD_LSAFE_STATUS_SOURCES := h.get_eq (seenBy_yard j (by decide))
  have hbare : flag t (F.SRV_STATE_HEAD_BARE j) = flag s (F.SRV_STATE_HEAD_BARE j) := h.flag_eq (seenBy_servo j)
  have hservo : get t (F.SRV_STATE_STATE j) = get s (F.SRV_STATE_STATE j) := h.get_eq (seenBy_servo j)
  simp only [resumeOk, inhibited, servoOk, h.stSt_eq, hlost, hsources, hbare, hservo, h.forced]

end StallView

theorem regHold_view {i j : Fin 48} (hne : j ≠ i) (s : State) : StallView j s (regHold i s) := by
  have hreq : StallView j s (requestHold i hcHOST s) :=
    .ite (.put (.refl s) hne rfl (by decide) _)
      (.ite (.put (.setStall (.refl s) hne _) hne rfl (by decide) 1) (.ite (.setStall (.refl s) hne _) (.refl s)))
  exact .ite hreq (.put (.refl s) hne rfl (by decide) 1)

theorem regResume_view {i j : Fin 48} (hne : j ≠ i) (s : State) : StallView j s (regResume i s) := by
  have hput (v : Nat) : StallView j s (put s (F.STALL_STATE_HOLD_CAUSE i) v) := .put (.refl s) hne rfl (by decide) v
  have hresume : StallView j s (resumeNow i s) := .ite (.setStall (hput _) hne _) (hput _)
  exact .ite hresume (.put (.refl s) hne rfl (by decide) 1)

/-- An order to every stall reaches stall `j` in a state that looks to it as the first one, and leaves it so. -/
theorem forAll_visits {f : Fin 48 → State → State} (hf : ∀ i j, j ≠ i → ∀ u, StallView j u (f i u)) (s : State) (j : Fin 48) :
    ∃ u, StallView j s u ∧ StallView j (f j u) (forAll 48 f s) := by
  obtain ⟨before, after, h⟩ := List.append_of_mem (List.mem_finRange j)
  have hnd : (before ++ j :: after).Nodup := h ▸ List.nodup_finRange 48
  rw [List.nodup_append, List.nodup_cons] at hnd
  obtain ⟨-, ⟨hafter, -⟩, hbefore⟩ := hnd
  have hfold (l : List (Fin 48)) (hl : ∀ i ∈ l, j ≠ i) (u : State) : StallView j u (l.foldl (fun x i => f i x) u) :=
    List.foldlRecOn (motive := StallView j u) l _ (.refl u) fun v hv i hi => hv.trans (hf i j (hl i hi) v)
  refine ⟨before.foldl (fun x i => f i x) s, hfold before (fun i hi => (hbefore i hi j List.mem_cons_self).symm) s, ?_⟩
  rw [forAll, fins, h, List.foldl_append, List.foldl_cons]
  exact hfold after (fun i hi e => hafter (e ▸ hi)) _

/-- What a hold did to a stall, seen from states that look the same to it. -/
theorem HoldAsked.of_views {g : Fin 48} {c : Nat} {s u v t : State} (h : HoldAsked g c u v) (hs : StallView g s u)
    (ht : StallView g v t) : HoldAsked g c s t := by
  have hcause {a b : State} (k : StallView g a b) : get b (F.STALL_STATE_HOLD_CAUSE g) = get a (F.STALL_STATE_HOLD_CAUSE g) :=
    k.get_eq (seenBy_stall g (by decide))
  have hpend : flag t (F.STALL_STATE_HOLD_PENDING g) = flag v (F.STALL_STATE_HOLD_PENDING g) :=
    ht.flag_eq (seenBy_stall g (by decide))
  obtain ⟨hheld, hrun, hwait⟩ := h
  rw [hs.stSt_eq] at hheld hrun hwait
  rw [hs.unit] at hrun hwait
  rw [hcause hs] at hheld
  exact ⟨by rwa [ht.stSt_eq, hcause ht], by rwa [ht.stSt_eq, hpend, ht.unit], by rwa [ht.stSt_eq, ht.unit]⟩

/-! ## HOLD and RESUME by register -/

theorem completes_cmdHold {sec : Bool} {g : Fin 48} {s : State} (h : accessOk sec (R.STALL_CMD g) s = true) :
    Completes (.cmdHold sec g) s fun t =>
      (stSt g s = ssHOLD → stSt g t = ssHOLD ∧
        get t (F.STALL_STATE_HOLD_CAUSE g) = get s (F.STALL_STATE_HOLD_CAUSE g) ||| hcHOST) ∧
      (stSt g s = ssRUN → stSt g t = ssRUN ∧ flag t (F.STALL_STATE_HOLD_PENDING g) = true ∧
        (stall t g).holdReq = (stall s g).holdReq ||| hcHOST) ∧
      (stSt g s = ssSYNC ∨ stSt g s = ssLAYER → stSt g t = stSt g s ∧
        (stall t g).holdReq = (stall s g).holdReq ||| hcHOST) ∧
      (holdOk g s = false → flag t (F.STALL_FLAGS_CMD_REFUSED g) = true ∧ stSt g t = stSt g s ∧ t.stalls = s.stalls) := by
  have hasks (hst : ssRUN ≤ stSt g s ∧ stSt g s ≤ ssHOLD) := regHold_asks ((holdOk_iff g s).2 hst)
  refine ⟨regHold g s, congrArg Host.Outcome.next (hostWrite_ok h _), fun hst => ?_, fun hst => ?_, fun hst => ?_, fun hno => ?_⟩
  · exact (hasks (by rw [hst]; decide)).held hst
  · exact (hasks (by rw [hst]; decide)).running hst
  · exact (hasks (by obtain hst | hst := hst <;> rw [hst] <;> decide)).waiting hst
  · rw [regHold_refused hno]
    exact cmdRefuse_fields g s

theorem completes_cmdResume {sec : Bool} {g : Fin 48} {s : State} (h : accessOk sec (R.STALL_CMD g) s = true) :
    Completes (.cmdResume sec g) s fun t =>
      if resumeOk g s then stSt g t = ssHOLD ∧
        get t (F.STALL_STATE_HOLD_CAUSE g) = get s (F.STALL_STATE_HOLD_CAUSE g) &&& (hcSTARVED ||| hcPROGRAM_EMPTY)
      else flag t (F.STALL_FLAGS_CMD_REFUSED g) = true ∧ t.stalls = s.stalls :=
  ⟨regResume g s, congrArg Host.Outcome.next (hostWrite_ok h _), regResume_cases g s⟩

theorem completes_holdAllHold {sec : Bool} {s : State} (h : accessOk sec R.YRD_HOLD_ALL s = true) :
    Completes (.holdAllHold sec) s fun t => ∀ g : Fin 48,
      (stSt g s = ssHOLD → get t (F.STALL_STATE_HOLD_CAUSE g) = get s (F.STALL_STATE_HOLD_CAUSE g) ||| hcHOST) ∧
      (stSt g s = ssRUN → flag t (F.STALL_STATE_HOLD_PENDING g) = true ∧
        (stall t g).holdReq = (stall s g).holdReq ||| hcHOST) ∧
      (holdOk g s = false → flag t (F.STALL_FLAGS_CMD_REFUSED g) = true) := by
  refine ⟨forAll 48 regHold s, congrArg Host.Outcome.next (hostWrite_ok h _), fun g => ?_⟩
  obtain ⟨u, hsu, hut⟩ := forAll_visits (fun i j hne v => regHold_view hne v) s g
  have hasks (hst : ssRUN ≤ stSt g s ∧ stSt g s ≤ ssHOLD) : HoldAsked g hcHOST s (forAll 48 regHold s) :=
    (regHold_asks (by rw [holdOk_iff, hsu.stSt_eq]; exact hst)).of_views hsu hut
  refine ⟨fun hst => ((hasks (by rw [hst]; decide)).held hst).2, fun hst => ((hasks (by rw [hst]; decide)).running hst).2,
    fun hno => (hut.flag_eq (seenBy_stall g (by decide))).trans ?_⟩
  rw [regHold_refused (hsu.holdOk_eq.trans hno)]
  exact (cmdRefuse_fields g u).1

theorem completes_holdAllResume {sec : Bool} {s : State} (h : accessOk sec R.YRD_HOLD_ALL s = true) :
    Completes (.holdAllResume sec) s fun t => ∀ g : Fin 48,
      if resumeOk g s then
        get t (F.STALL_STATE_HOLD_CAUSE g) = get s (F.STALL_STATE_HOLD_CAUSE g) &&& (hcSTARVED ||| hcPROGRAM_EMPTY)
      else flag t (F.STALL_FLAGS_CMD_REFUSED g) = true := by
  refine ⟨forAll 48 regResume s, congrArg Host.Outcome.next (hostWrite_ok h _), fun g => ?_⟩
  obtain ⟨u, hsu, hut⟩ := forAll_visits (fun i j hne v => regResume_view hne v) s g
  have hcase := regResume_cases g u
  rw [hsu.resumeOk_eq, hsu.get_eq (seenBy_stall g (by decide))] at hcase
  split at hcase
  next hok =>
    rw [if_pos hok, ← hcase.2]
    exact hut.get_eq (seenBy_stall g (by decide))
  next hno =>
    rw [if_neg hno]
    exact (hut.flag_eq (seenBy_stall g (by decide))).trans hcase.1

/-- Settles O28: a hold acts by the stall's state, and HOLD_ALL reaches each stall as the others have left it. -/
theorem stallHoldAndResume : Obligations.StallHoldAndResume :=
  ⟨fun _ _ _ h => completes_cmdHold h, fun _ _ _ h => completes_cmdResume h, fun _ _ h => completes_holdAllHold h,
    fun _ _ h => completes_holdAllResume h⟩

end Machine
end Sys2Proof

namespace Sys2Proof
namespace Machine

/-! ## The request of an abort (R99) -/

theorem orphanSeam_stalls (i : Fin 192) (s : State) : (orphanSeam i s).stalls = s.stalls := raise_stalls _ _

/-- Losing its seams changes no stall. -/
theorem seamLoss_stalls (g : Nat) (abort : Bool) (s : State) : (seamLoss g abort s).stalls = s.stalls := by
  refine forAll_keeps (fun t : State => t.stalls = s.stalls) _ rfl fun i u hu => ?_
  dsimp only
  split_ifs
  · exact hu
  · exact hu
  · exact (orphanSeam_stalls i u).trans hu
  · exact hu
  · exact hu

/-- What a requested abort asks of the stall: a squash, or the abort itself at the next tick. -/
def Stall.abortAsked (squash : Prop) [Decidable squash] (x : Stall) : Stall :=
  if squash then { x with squashNew := x.squashNew ||| 2 ^ 5 } else { x with abortNew := true }

theorem requestAbort_stall {g : Fin 48} {s : State} (h : flag s (F.STALL_STATE_ABORTING g) = false) :
    stall (requestAbort g s) g = (stall s g).abortAsked (stSt g s = ssRUN ∨ (stSt g s = ssHOLD ∧ 0 < (stall s g).hzn)) := by
  have hloss : stall (seamLoss g true s) g = stall s g := stall_congr (seamLoss_stalls g true s) g
  rw [requestAbort, if_neg (by rw [h]; exact Bool.false_ne_true), Stall.abortAsked]
  split
  · rw [latchSquash, stall_setStall_same, hloss]
  · rw [stall_setStall_same, hloss]

/-- An abort that is taken latches a squash with cause ABORT in RUN and while committed entries are left in HOLD (R99). -/
theorem requestAbort_asks {g : Fin 48} {s : State} (h : flag s (F.STALL_STATE_ABORTING g) = false) :
    if stSt g s = ssRUN ∨ (stSt g s = ssHOLD ∧ 0 < (stall s g).hzn) then
      (stall (requestAbort g s) g).squashNew = (stall s g).squashNew ||| 2 ^ 5
    else (stall (requestAbort g s) g).abortNew = true := by
  rw [requestAbort_stall h, Stall.abortAsked]
  split <;> rfl

/-! ## The stall descriptors (R77, R78) -/

/-- A HOLD descriptor that the stall takes asks for the hold, and completes at once where the stall is held. -/
theorem opHold_taken {c : Fin 256} {d : Desc} {g : Fin 48} {s : State} (hplain : orderPlain d = true) (hok : holdOk g s = true) :
    opHold c d g s =
      if stSt g s = ssHOLD then
        complete c d.seq stOK (some (stateWord g (requestHold g hcHOST s))) (some 0) false (requestHold g hcHOST s)
      else requestHold g hcHOST s :=
  (if_neg (not_not.2 hplain)).trans (if_neg (not_not.2 hok))

section
variable {c : Fin 256} {d : Desc} {g : Fin 48} {s : State} (hg : ctxStall c s = some g) (htxn : d.txnV = false)
  (hw : ctxSecure c = true ∨ blockSecure (32 + g.val / 8) s = false)
include hg htxn hw

theorem completes_release (h : Starts c 0x18 d s) (hplain : orderPlain d = true)
    (hst : stSt g s = ssIDLE) (hlost : hbLost s = false) (hinh : inhibited s = false) (hservo : servoOk g s = true) :
    Completes (.release c) s fun t => (stall t g).relNew = true ∧ stSt g t = ssIDLE := by
  have hgo : ¬ (stSt g s ≠ ssIDLE ∨ hbLost s = true ∨ inhibited s = true ∨ ¬ servoOk g s = true) := by
    simp [hst, hlost, hinh, hservo]
  have hop : opRelease c d g (startDesc c d.seq 0 s) = setStall g (fun x => { x with relNew := true }) (startDesc c d.seq 0 s) := by
    rw [opRelease, if_neg (by rw [htxn]; exact Bool.false_ne_true), if_neg (not_not.2 hplain)]
    exact if_neg hgo
  refine ⟨_, congrArg Host.Outcome.next ((withStall_of_starts h hg htxn hw _).trans hop), ?_, hst⟩
  rw [stall_setStall_same]

theorem completes_releaseInterlock (h : Starts c 0x18 d s) (hplain : orderPlain d = true) (hst : stSt g s ≠ ssIDLE) :
    Completes (.release c) s fun t => Decided c d.seq stINTERLOCK s t ∧ t.stalls = s.stalls := by
  have hop : opRelease c d g (startDesc c d.seq 0 s) = interlock c d.seq g (startDesc c d.seq 0 s) := by
    rw [opRelease, if_neg (by rw [htxn]; exact Bool.false_ne_true), if_neg (not_not.2 hplain)]
    exact if_pos (.inl hst)
  exact ⟨_, congrArg Host.Outcome.next ((withStall_of_starts h hg htxn hw _).trans hop),
    decided_complete _ _ _ _ _ (hist_startDesc ..) rfl, complete_stalls ..⟩

theorem completes_holdHeld (h : Starts c 0x19 d s) (hplain : orderPlain d = true) (hst : stSt g s = ssHOLD) :
    Completes (.hold c) s fun t => Decided c d.seq stOK s t ∧ stSt g t = ssHOLD ∧
      get t (F.STALL_STATE_HOLD_CAUSE g) = get s (F.STALL_STATE_HOLD_CAUSE g) ||| hcHOST := by
  have hok : holdOk g (startDesc c d.seq 0 s) = true := (holdOk_iff g s).2 (by rw [hst]; decide)
  have hst' : stSt g (startDesc c d.seq 0 s) = ssHOLD := hst
  refine ⟨_, congrArg Host.Outcome.next
    ((withStall_of_starts h hg htxn hw _).trans ((opHold_taken hplain hok).trans (if_pos hst'))), ?_⟩
  obtain ⟨hheld, hcause⟩ := (requestHold_asks g (c := hcHOST) (by decide) (startDesc c d.seq 0 s)).held hst'
  refine ⟨decided_complete _ _ _ _ _ ?_ ?_, (get_complete ..).trans hheld, (get_complete ..).trans hcause⟩
  · rw [requestHold_held hst', addHold, ctx_put, hist_startDesc]
  · rw [requestHold_held hst']
    rfl

theorem completes_holdRun (h : Starts c 0x19 d s) (hplain : orderPlain d = true) (hst : stSt g s = ssRUN) :
    Completes (.hold c) s fun t => flag t (F.STALL_STATE_HOLD_PENDING g) = true ∧
      (stall t g).holdReq = (stall s g).holdReq ||| hcHOST ∧ (ctx t c).hist = (ctx s c).hist := by
  have hok : holdOk g (startDesc c d.seq 0 s) = true := (holdOk_iff g s).2 (by rw [hst]; decide)
  have hst' : stSt g (startDesc c d.seq 0 s) = ssRUN := hst
  have hheld : stSt g (startDesc c d.seq 0 s) ≠ ssHOLD := by rw [hst']; decide
  refine ⟨_, congrArg Host.Outcome.next
    ((withStall_of_starts h hg htxn hw _).trans ((opHold_taken hplain hok).trans (if_neg hheld))), ?_⟩
  obtain ⟨-, hpend, hreq⟩ := (requestHold_asks g (c := hcHOST) (by decide) (startDesc c d.seq 0 s)).running hst'
  refine ⟨hpend, hreq, ?_⟩
  rw [requestHold_run hst', setF, ctx_put]
  exact hist_startDesc c d.seq 0 s

theorem completes_holdFormat (h : Starts c 0x19 d s) (hplain : orderPlain d = false) :
    Completes (.hold c) s fun t => Decided c d.seq stFORMAT s t := by
  have hop : opHold c d g (startDesc c d.seq 0 s) = formatZero c d.seq (startDesc c d.seq 0 s) :=
    if_pos (by rw [hplain]; exact Bool.false_ne_true)
  exact ⟨_, congrArg Host.Outcome.next ((withStall_of_starts h hg htxn hw _).trans hop),
    decided_complete _ _ _ _ _ (hist_startDesc ..) rfl⟩

theorem completes_resume (h : Starts c 0x1A d s) (hplain : orderPlain d = true) (hok : resumeOk g s = true) :
    Completes (.resume c) s fun t =>
      get t (F.STALL_STATE_HOLD_CAUSE g) = get s (F.STALL_STATE_HOLD_CAUSE g) &&& (hcSTARVED ||| hcPROGRAM_EMPTY) := by
  have hop : opResume c d g (startDesc c d.seq 0 s) = resumeNow g (startDesc c d.seq 0 s) := by
    rw [opResume, if_neg (by rw [htxn]; exact Bool.false_ne_true), if_neg (not_not.2 hplain)]
    exact if_neg (not_not.2 hok)
  obtain ⟨-, hcause⟩ := resumeNow_fields g (startDesc c d.seq 0 s)
  exact ⟨_, congrArg Host.Outcome.next ((withStall_of_starts h hg htxn hw _).trans hop), hcause⟩

theorem completes_abort (h : Starts c 0x1B d s) (hplain : orderPlain d = true)
    (hab : flag s (F.STALL_STATE_ABORTING g) = false) :
    Completes (.abort c) s fun t => if stSt g s = ssRUN ∨ (stSt g s = ssHOLD ∧ 0 < (stall s g).hzn) then
        (stall t g).squashNew = (stall s g).squashNew ||| 2 ^ 5
      else (stall t g).abortNew = true := by
  have hop : opAbort c d g (startDesc c d.seq 0 s) = requestAbort g (startDesc c d.seq 0 s) := if_neg (not_not.2 hplain)
  exact ⟨_, congrArg Host.Outcome.next ((withStall_of_starts h hg htxn hw _).trans hop),
    requestAbort_asks (s := startDesc c d.seq 0 s) hab⟩

end

/-- Settles O29: each clause is the lemma of its descriptor and the stall's state. -/
theorem stallOrders : Obligations.StallOrders := fun _ _ _ _ hg htxn hw =>
  ⟨completes_release hg htxn hw, completes_releaseInterlock hg htxn hw, completes_holdHeld hg htxn hw,
    completes_holdRun hg htxn hw, completes_resume hg htxn hw, completes_abort hg htxn hw, completes_holdFormat hg htxn hw⟩

end Machine
end Sys2Proof

namespace Sys2Proof
namespace Machine

/-! ## A state entered (R94) -/

theorem stSt_enterState (g : Nat) {c : Nat} (hc : c < 2 ^ 4) (s : State) : stSt g (enterState g c s) = c := by
  rw [enterState, stSt_putHigh g 0 _ (by decide : 4 + 4 ≤ 32) (by decide : 4 ≤ 4)]
  exact (get_put_same s _ c (by decide : 0 + 4 ≤ 32)).trans (Nat.mod_eq_of_lt hc)

theorem enterState_writes (g c : Nat) (s : State) : OnlyWrites (· == R.STALL_STATE g) s (enterState g c s) := by
  have hstate : (R.STALL_STATE g == R.STALL_STATE g) = true := beq_self_eq_true _
  exact .put (.put (.refl s) _ hstate) 0 hstate

@[simp] theorem stall_enterState (g c : Nat) (s : State) (h : Fin 48) : stall (enterState g c s) h = stall s h := rfl

/-- The registers that going into RUN may write: its STATE word, and the layer deadline timer that it starts (R102). -/
def runReg (g o : Nat) : Bool := o == R.STALL_STATE g || o == R.YRD_LAYER_DEADLINE_STATUS

theorem layerTimer_effect (g : Nat) (s : State) :
    OnlyWrites (· == R.YRD_LAYER_DEADLINE_STATUS) s (layerTimer g s) ∧ (layerTimer g s).stalls = s.stalls := by
  unfold layerTimer
  split
  · exact ⟨.put (.regs (.refl s) rfl) 1 rfl, rfl⟩
  · exact ⟨.refl s, rfl⟩

/-- A stall that runs. -/
def Stall.ran (s : State) (g : Fin 48) (x : Stall) : Stall :=
  { (if x.everRun then x else { x with rest0 := restOf g s }) with
    everRun := true, noEntry := false, atMarker := false, forcedN := none }

theorem stall_enterRun (g : Fin 48) (s : State) : stall (enterRun g s) g = (stall s g).ran s g := by
  rw [enterRun, stall_setStall_same, stall_enterState, Stall.ran]
  by_cases h : (stall s g).everRun = true
  · rw [if_pos h, if_pos h]
  · rw [if_neg h, if_neg h, stall_setStall_same]

theorem stall_enterRun_other {g h : Fin 48} (hne : h ≠ g) (s : State) : stall (enterRun g s) h = stall s h := by
  rw [enterRun, stall_setStall_other _ _ hne, stall_enterState]
  split
  · rfl
  · exact stall_setStall_other _ _ hne

theorem enterRun_word (g : Fin 48) (s : State) :
    stSt g (enterRun g s) = ssRUN ∧ OnlyWrites (· == R.STALL_STATE g) s (enterRun g s) := by
  unfold enterRun
  extract_lets s1
  have h1 : OnlyWrites (· == R.STALL_STATE g) s s1 := .ite (.refl s) (.setStall (.refl s) g _)
  exact ⟨(get_setStall ..).trans (stSt_enterState g (by decide) s1), .setStall (h1.trans (enterState_writes g ssRUN s1)) g _⟩

theorem goRun_fields (g : Fin 48) (s : State) :
    stSt g (goRun g s) = ssRUN ∧ OnlyWrites (runReg g) s (goRun g s) ∧ stall (goRun g s) g = (stall s g).ran s g ∧
      ∀ h, h ≠ g → stall (goRun g s) h = stall s h := by
  obtain ⟨hst, hw⟩ := enterRun_word g s
  obtain ⟨hw', hstalls⟩ := layerTimer_effect g (enterRun g s)
  have hyard : R.STALL_STATE g ≠ R.YRD_LAYER_DEADLINE_STATUS := by
    have := stallBase_ge g
    simp only [R.STALL_STATE, R.YRD_LAYER_DEADLINE_STATUS]
    omega
  refine ⟨(hw'.get_eq (f := F.STALL_STATE_STATE g) (beq_eq_false_iff_ne.2 hyard)).trans hst, .trans (hw.mono fun o ho => ?_)
    (hw'.mono fun o ho => ?_), (stall_congr hstalls g).trans (stall_enterRun g s),
    fun h hne => (stall_congr hstalls h).trans (stall_enterRun_other hne s)⟩
  · rw [runReg, ho, Bool.true_or]
  · rw [runReg, ho, Bool.or_true]

theorem runReg_other {g h : Fin 48} (hne : h ≠ g) {k : Nat} (hk : k < 0x10000) : runReg g (stallBase h + k) = false := by
  have hstall : stallBase h + k ≠ stallBase g + 0x8 := (stallReg_ne_other hne (by decide) hk).symm
  have hge := stallBase_ge h
  simp only [runReg, R.STALL_STATE, R.YRD_LAYER_DEADLINE_STATUS, Bool.or_eq_false_iff, beq_eq_false_iff_ne]
  exact ⟨hstall, by omega⟩

/-! ## Hold causes that clear by themselves (R86, R131) -/

theorem holdCause_sub_lt (g n : Nat) (s : State) : get s (F.STALL_STATE_HOLD_CAUSE g) - n < 2 ^ 8 :=
  Nat.lt_of_le_of_lt (Nat.sub_le _ _) (get_lt s (F.STALL_STATE_HOLD_CAUSE g))

theorem completes_programEmptyCleared {g : Fin 48} {s : State} (hst : stSt g s = ssHOLD)
    (hbit : bit (get s (F.STALL_STATE_HOLD_CAUSE g)) 3 = true) (hvis : visibleAgain g s = true) :
    Completes (.programEmptyCleared g) s fun t => stSt g t = ssHOLD ∧
      get t (F.STALL_STATE_HOLD_CAUSE g) = get s (F.STALL_STATE_HOLD_CAUSE g) - hcPROGRAM_EMPTY := by
  obtain ⟨hheld, hcause⟩ := holdCause_put g (holdCause_sub_lt g hcPROGRAM_EMPTY s) s
  exact ⟨_, congrArg Host.Outcome.next (if_pos ⟨hst, hbit, hvis⟩), (get_setStall ..).trans (hheld.trans hst),
    (get_setStall ..).trans hcause⟩

theorem completes_starvedCleared {g : Fin 48} {s : State} (hst : stSt g s = ssHOLD)
    (hbit : bit (get s (F.STALL_STATE_HOLD_CAUSE g)) 2 = true) (hready : strokeReady g s = true) :
    Completes (.starvedCleared g) s fun t => stSt g t = ssHOLD ∧
      get t (F.STALL_STATE_HOLD_CAUSE g) = get s (F.STALL_STATE_HOLD_CAUSE g) - hcSTARVED := by
  obtain ⟨hheld, hcause⟩ := holdCause_put g (holdCause_sub_lt g hcSTARVED s) s
  exact ⟨_, congrArg Host.Outcome.next (if_pos ⟨hst, hbit, hready⟩), hheld.trans hst, hcause⟩

/-! ## Stopping markers (R90, R91, R93) -/

theorem releaseTo_beam (g : Fin 48) (k : Nat) (s : State) : (releaseTo g k s).beam = s.beam := by
  unfold releaseTo
  dsimp only
  split <;> rfl

theorem passMarker_beam (g : Fin 48) (s : State) : (passMarker g s).beam = s.beam := releaseTo_beam g _ _

theorem completes_layerEndReached {g : Fin 48} {s : State} {n : Nat} (h : reached g s = some (.layerEnd n)) :
    Completes (.layerEndReached g) s fun t => stSt g t = ssLAYER ∧ rdN t (R.STALL_LAYER_MARK g) = n % 2 ^ 32 := by
  have hrun : layerEndReached g s = wrN (enterState g ssLAYER (passMarker g s)) (R.STALL_LAYER_MARK g) n := by
    rw [layerEndReached, h]
  refine ⟨_, congrArg Host.Outcome.next hrun, ?_, rdN_wrN_same _ _ _⟩
  exact (get_wrN_other _ (F.STALL_STATE_STATE g) n (stallReg_ne g (by decide))).trans (stSt_enterState g (by decide) _)

theorem completes_syncBarrierReached {g : Fin 48} {s : State} {tmo mask id : Nat} (h : reached g s = some (.sync tmo mask id)) :
    Completes (.syncBarrierReached g) s fun t => stSt g t = ssSYNC ∧ (stall t g).sync = some (mask, id, tmo) ∧
      (stall t g).syncSince = s.beam ∧ get t (F.STALL_SYNC_BARRIER_ID g) = id % 256 := by
  have hrun : syncBarrierReached g s = beginSync g mask id tmo (enterState g ssSYNC (passMarker g s)) := by
    rw [syncBarrierReached, h]
  refine ⟨_, congrArg Host.Outcome.next hrun, ?_, ?_, ?_, ?_⟩
  · refine (get_setStall ..).trans ((get_put_other _ _ _ _ (stallReg_ne g (by decide))).trans ?_)
    exact stSt_enterState g (by decide) _
  · rw [beginSync, stall_setStall_same]
  · rw [beginSync, stall_setStall_same]
    exact passMarker_beam g s
  · exact (get_setStall ..).trans (get_put_same _ _ _ (by decide : 0 + 8 ≤ 32))

/-- Starting again from rest in IDLE writes no register and keeps the stall's requests and commands (R93). -/
theorem restIdle_fields (g : Fin 48) (s : State) :
    (restIdle g s).regs = s.regs ∧ (stall (restIdle g s) g).items = (stall s g).items ∧
      (stall (restIdle g s) g).holdReq = (stall s g).holdReq := by
  refine ⟨rfl, ?_, ?_⟩
  all_goals
    unfold restIdle replanFromRest
    dsimp only
    rw [stall_setStall_same, stall_setStall_same]

@[simp] theorem rdN_restIdle (g : Fin 48) (s : State) (o : Nat) : rdN (restIdle g s) o = rdN s o := by
  obtain ⟨hr, -⟩ := restIdle_fields g s
  rw [rdN, rd, hr]
  rfl

@[simp] theorem get_restIdle (g : Fin 48) (s : State) (f : Fld) : get (restIdle g s) f = get s f := by
  rw [Machine.get, rdN_restIdle]
  rfl

/-- The registers of the energy loop that entry to IDLE resets (R205). -/
def engReg (g o : Nat) : Bool := o == R.ENG_OUT g || o == R.STALL_TRJ_FACTORS g

theorem engIdle_writes (g : Fin 48) (s : State) : OnlyWrites (engReg g) s (engIdle g s) := by
  have hout : engReg g (R.ENG_OUT g) = true := by simp [engReg]
  have hfac : engReg g (R.STALL_TRJ_FACTORS g) = true := by simp [engReg]
  exact .put (.put (.put (.regs (.refl s) rfl) _ hout) _ hout) _ hfac

theorem engReg_stall (g : Nat) {k : Nat} (hk : k < 0x10000) (hne : 0x16C ≠ k) : engReg g (stallBase g + k) = false := by
  simp only [engReg, R.ENG_OUT, R.STALL_TRJ_FACTORS, cleBase, stallBase, Bool.or_eq_false_iff, beq_eq_false_iff_ne]
  omega

theorem stSt_enterIdle (g : Fin 48) (s : State) : stSt g (enterIdle g s) = ssIDLE :=
  ((engIdle_writes g _).get_eq (f := F.STALL_STATE_STATE g) (engReg_stall g (by decide) (by decide))).trans
    (stSt_enterState g (by decide) s)

/-- The stall at the end of its program, before its descriptors are told. -/
def programEnded (g : Fin 48) (s : State) : State :=
  restIdle g (setStall g (fun x => { x with holdReq := 0, squashNew := 0, squashDue := 0, kept := some x.plan.sett })
    (clrF (enterIdle g (passMarker g s)) (F.STALL_STATE_HOLD_PENDING g)))

theorem programEndReached_eq {g : Fin 48} {s : State} (h : reached g s = some .progEnd) :
    programEndReached g s =
      tellStall g [0x19] stABORTED (some (stateWord g (programEnded g s))) (some 0) (programEnded g s) := by
  rw [programEndReached, h]
  rfl

theorem programEnded_fields (g : Fin 48) (s : State) :
    stSt g (programEnded g s) = ssIDLE ∧ flag (programEnded g s) (F.STALL_STATE_HOLD_PENDING g) = false ∧
      (stall (programEnded g s) g).holdReq = 0 := by
  have hst := stSt_enterIdle g (passMarker g s)
  unfold programEnded
  generalize enterIdle g (passMarker g s) = u at hst ⊢
  refine ⟨?_, ?_, ?_⟩
  · rw [stSt, get_restIdle, get_setStall]
    exact (stSt_putHigh g 0 u (by decide : 24 + 1 ≤ 32) (by decide : 4 ≤ 24)).trans hst
  · rw [flag, get_restIdle, get_setStall]
    exact flag_clrF_same u _ (by decide : 24 + 1 ≤ 32)
  · obtain ⟨-, -, hreq⟩ := restIdle_fields g (setStall g
      (fun x => { x with holdReq := 0, squashNew := 0, squashDue := 0, kept := some x.plan.sett })
      (clrF u (F.STALL_STATE_HOLD_PENDING g)))
    rw [hreq, stall_setStall_same]

theorem completes_programEndReached {g : Fin 48} {s : State} (h : reached g s = some .progEnd) :
    Completes (.programEndReached g) s fun t => stSt g t = ssIDLE ∧ flag t (F.STALL_STATE_HOLD_PENDING g) = false ∧
      (stall t g).holdReq = 0 := by
  obtain ⟨hst, hpend, hreq⟩ := programEnded_fields g s
  exact ⟨_, congrArg Host.Outcome.next (programEndReached_eq h), (get_tellStall ..).trans hst,
    (flag_eq_of_rdN (rdN_tellStall ..)).trans hpend, by rw [stall_tellStall, hreq]⟩

/-! ## The release of a barrier (R90) -/

/-- What every step gives to index `j` or keeps, a run over a list that names `j` reaches. -/
theorem foldl_reaches {α β : Type} {P : α → Prop} {f : α → β → α} {l : List β} {j : β} (hj : j ∈ l) (hdo : ∀ y, P (f y j))
    (hkeep : ∀ i y, P y → P (f y i)) (x : α) : P (l.foldl f x) := by
  obtain ⟨before, after, rfl⟩ := List.append_of_mem hj
  rw [List.foldl_append, List.foldl_cons]
  exact List.foldlRecOn after _ (hdo _) fun y hy i _ => hkeep i y hy

/-- One stall of a barrier goes on. -/
def releaseOne (s : State) (h : Fin 48) : State :=
  goRun h (setStall h (fun x => { x with sync := none, syncRel := false, syncBad := false }) s)

/-- The stall runs and waits at no barrier. -/
def Released (h : Fin 48) (s : State) : Prop := stSt h s = ssRUN ∧ (stall s h).sync = none

theorem Stall.ran_sync (s : State) (g : Fin 48) (x : Stall) : (x.ran s g).sync = x.sync := by
  unfold Stall.ran
  split <;> rfl

theorem Stall.ran_retDue (s : State) (g : Fin 48) (x : Stall) : (x.ran s g).retDue = x.retDue := by
  unfold Stall.ran
  split <;> rfl

theorem releaseOne_same (h : Fin 48) (s : State) : Released h (releaseOne s h) := by
  obtain ⟨hst, -, hstall, -⟩ := goRun_fields h (setStall h (fun x => { x with sync := none, syncRel := false, syncBad := false }) s)
  refine ⟨hst, ?_⟩
  rw [releaseOne, hstall, Stall.ran_sync, stall_setStall_same]

theorem releaseOne_keeps (h i : Fin 48) {s : State} (hr : Released h s) : Released h (releaseOne s i) := by
  obtain rfl | hne := eq_or_ne h i
  · exact releaseOne_same h s
  obtain ⟨hst, hsync⟩ := hr
  obtain ⟨-, hw, -, hother⟩ := goRun_fields i (setStall i (fun x => { x with sync := none, syncRel := false, syncBad := false }) s)
  refine ⟨(hw.get_eq (f := F.STALL_STATE_STATE h) (runReg_other hne (by decide))).trans ((get_setStall ..).trans hst), ?_⟩
  rw [releaseOne, hother h hne, stall_setStall_other _ _ hne, hsync]

theorem completes_syncBarrierRelease {g : Fin 48} {s : State} {m id tmo : Nat} (hsync : (stall s g).sync = some (m, id, tmo))
    (hrel : (stall s g).syncRel = true) (hmet : barrierMet g s = true) (hinh : inhibited s = false) :
    Completes (.syncBarrierRelease g) s fun t => ∀ h : Fin 48, bit m h = true → stSt h t = ssRUN ∧ (stall t h).sync = none := by
  have hrun : syncBarrierRelease g s = (maskStalls m).foldl releaseOne s := by
    rw [syncBarrierRelease, hsync]
    exact if_pos ⟨hrel, hmet, by rw [hinh]; exact Bool.false_ne_true⟩
  refine ⟨_, congrArg Host.Outcome.next hrun, fun h hm => ?_⟩
  have hmem : h ∈ maskStalls m := List.mem_filter.2 ⟨List.mem_finRange h, hm⟩
  obtain ⟨hst, hnone⟩ := foldl_reaches hmem (releaseOne_same h) (fun i _ => releaseOne_keeps h i) s
  exact ⟨hst, hnone⟩

/-! ## The return from HOLD (R98) -/

/-- A stall without a hold cause goes back to the state `r`. -/
def heldReturned (g : Fin 48) (r : Nat) (s : State) : State :=
  let s1 := setStall g (fun x => { x with retDue := false, syncSince := s.beam, syncRel := false }) s
  if r = ssRUN then goRun g s1 else enterState g r s1

theorem heldReturned_fields (g : Fin 48) {r : Nat} (hr : r < 2 ^ 4) (s : State) :
    stSt g (heldReturned g r s) = r ∧ (stall (heldReturned g r s) g).retDue = false := by
  unfold heldReturned
  extract_lets s1
  have hret : (stall s1 g).retDue = false := by rw [stall_setStall_same]
  split
  next h =>
    obtain ⟨hst, -, hstall, -⟩ := goRun_fields g s1
    exact ⟨hst.trans h.symm, by rw [hstall, Stall.ran_retDue, hret]⟩
  next => exact ⟨stSt_enterState g hr s1, hret⟩

theorem completes_holdReturn {g : Fin 48} {s : State} (hst : stSt g s = ssHOLD) (hdue : (stall s g).retDue = true)
    (hcause : get s (F.STALL_STATE_HOLD_CAUSE g) = 0) (hinh : inhibited s = false) :
    Completes (.holdReturn g) s fun t => stSt g t = get s (F.STALL_STATE_RETURN_STATE g) ∧ (stall t g).retDue = false := by
  have hrun : holdReturn g s =
      let u := heldReturned g (get s (F.STALL_STATE_RETURN_STATE g)) s
      tellStall g [0x1A] stOK (some (stateWord g u)) (some 0) u :=
    if_pos ⟨hst, hdue, hcause, by rw [hinh]; exact Bool.false_ne_true⟩
  obtain ⟨hback, hret⟩ := heldReturned_fields g (get_lt s (F.STALL_STATE_RETURN_STATE g)) s
  exact ⟨_, congrArg Host.Outcome.next hrun, (get_tellStall ..).trans hback, by rw [stall_tellStall, hret]⟩

/-! ## The island deadline (R89) -/

theorem requestHold_writes (g : Fin 48) (c : Nat) (s : State) : OnlyWrites (· == R.STALL_STATE g) s (requestHold g c s) := by
  have hstate : (R.STALL_STATE g == R.STALL_STATE g) = true := beq_self_eq_true _
  exact .ite (.put (.refl s) _ hstate) (.ite (.put (.setStall (.refl s) g _) 1 hstate) (.ite (.setStall (.refl s) g _) (.refl s)))

theorem requestHold_islTold (g : Fin 48) (c : Nat) (s : State) : (stall (requestHold g c s) g).islTold = (stall s g).islTold := by
  unfold requestHold
  dsimp only
  split_ifs
  · rw [addHold, stall_put]
  · rw [setF, stall_put, stall_setStall_same]
  · rw [stall_setStall_same]
  · rfl

/-- An island deadline reported. -/
def islandLate (g : Fin 48) (s : State) : State :=
  raise (stallEv g 1)
    (lifeAdd (setF (setStall g (fun x => { x with islTold := true }) s) (F.STALL_FLAGS_ISLAND_LATE g)) (lifeNo 3 2 g) 1)

theorem islandLate_fields (g : Fin 48) (s : State) :
    flag (islandLate g s) (F.STALL_FLAGS_ISLAND_LATE g) = true ∧ (stall (islandLate g s) g).islTold = true ∧
      stSt g (islandLate g s) = stSt g s := by
  unfold islandLate
  refine ⟨?_, ?_, ?_⟩
  · rw [flag_raise (stallEv_lt g (by decide)) _ (eventReg_stall g 0xC), flag, get_lifeAdd]
    exact flag_setF_same _ _ (by decide : 1 + 1 ≤ 32) rfl
  · rw [stall_raise, stall_lifeAdd, setF, stall_put, stall_setStall_same]
  · rw [stSt, get_raise (stallEv_lt g (by decide)) _ (eventReg_stall g 0x8), get_lifeAdd]
    exact (get_put_other _ _ _ _ (stallReg_ne g (by decide))).trans (get_setStall ..)

theorem completes_islandDeadline {g : Fin 48} {s : State} (hin : flag s (F.STALL_STATE_IN_ISLAND g) = true)
    (hlim : (stall s g).islD ≠ 0) (htold : (stall s g).islTold = false)
    (hlate : (stall s g).islD * 1000 ≤ s.beam - (stall s g).islStart) :
    Completes (.islandDeadline g) s fun t => flag t (F.STALL_FLAGS_ISLAND_LATE g) = true ∧ (stall t g).islTold = true ∧
      (flag s (F.STALL_CTRL_ISLAND_LATE_HOLD g) = true → stSt g s = ssRUN →
        flag t (F.STALL_STATE_HOLD_PENDING g) = true ∧ stSt g t = ssRUN) := by
  have hrun : islandDeadline g s =
      if flag s (F.STALL_CTRL_ISLAND_LATE_HOLD g) then requestHold g hcISLAND (islandLate g s) else islandLate g s :=
    if_pos ⟨hin, hlim, by rw [htold]; exact Bool.false_ne_true, hlate⟩
  obtain ⟨hflag, hdone, hst⟩ := islandLate_fields g s
  refine ⟨_, congrArg Host.Outcome.next hrun, ?_⟩
  split
  next =>
    have hkept : (R.STALL_FLAGS g == R.STALL_STATE g) = false := beq_eq_false_iff_ne.2 (stallReg_ne g (by decide))
    refine ⟨((requestHold_writes g hcISLAND _).flag_eq (f := F.STALL_FLAGS_ISLAND_LATE g) hkept).trans hflag,
      (requestHold_islTold ..).trans hdone, fun _ hst' => ?_⟩
    obtain ⟨hheld, hpend, -⟩ := (requestHold_asks g (c := hcISLAND) (by decide) (islandLate g s)).running (hst.trans hst')
    exact ⟨hpend, hheld⟩
  next hno => exact ⟨hflag, hdone, fun hyes => absurd hyes hno⟩

/-! ## The end of a seam pause (R181) -/

theorem completes_seamPauseEnd {g : Fin 48} {s : State} (hstop : (stall s g).seq.stop = 8) (hworks : seqWorks g s = true)
    (hregs : seamRegs g s < 4) :
    Completes (.seamPauseEnd g) s fun t => (stall t g).seq.stop = 0 ∧ (stall t g).items = (stall s g).items := by
  have hrun : seamPauseEnd g s = setStall g (fun x => { x with loaded := true }) (seqStop g 0 s) :=
    (if_neg (not_not.2 hworks)).trans (if_pos ⟨hstop, hregs⟩)
  refine ⟨_, congrArg Host.Outcome.next hrun, ?_, ?_⟩
  all_goals rw [stall_setStall_same, seqStop, stall_setStall_same]

/-- Settles O27: each clause is the lemma of its event. -/
theorem stallTransitions : Obligations.StallTransitions :=
  ⟨fun _ _ hst hbit hvis => completes_programEmptyCleared hst hbit hvis,
    fun _ _ hst hbit hready => completes_starvedCleared hst hbit hready, fun _ _ _ h => completes_layerEndReached h,
    fun _ _ _ _ _ h => completes_syncBarrierReached h, fun _ _ h => completes_programEndReached h,
    fun _ _ _ _ _ hsync hrel hmet hinh => completes_syncBarrierRelease hsync hrel hmet hinh,
    fun _ _ hst hdue hcause hinh => completes_holdReturn hst hdue hcause hinh,
    fun _ _ hin hlim htold hlate => completes_islandDeadline hin hlim htold hlate,
    fun _ _ hstop hworks hregs => completes_seamPauseEnd hstop hworks hregs⟩

end Machine
end Sys2Proof

namespace Sys2Proof
namespace Machine

/-! ## ABORT by register (R99) -/

theorem completes_cmdAbort {sec : Bool} {g : Fin 48} {s : State} (h : accessOk sec (R.STALL_CMD g) s = true)
    (hab : flag s (F.STALL_STATE_ABORTING g) = false) :
    Completes (.cmdAbort sec g) s fun t => if stSt g s = ssRUN ∨ (stSt g s = ssHOLD ∧ 0 < (stall s g).hzn) then
        (stall t g).squashNew = (stall s g).squashNew ||| 2 ^ 5
      else (stall t g).abortNew = true := by
  refine ⟨regAbort g s, congrArg Host.Outcome.next (hostWrite_ok h _), ?_⟩
  unfold regAbort
  generalize hu : tellStall g [0x10, 0x11, 0x12] stABORTED none none s = u
  have hword (o : Nat) : rdN u o = rdN s o := by rw [← hu, rdN_tellStall]
  have hst : stSt g u = stSt g s := by rw [← hu, stSt, get_tellStall, stSt]
  have hstall : stall u g = stall s g := by rw [← hu, stall_tellStall]
  rw [← hst, ← hstall]
  exact requestAbort_asks ((flag_eq_of_rdN (hword _)).trans hab)

/-! ## The program pointers (R74) -/

/-- The registers of the program pointers. -/
def ptrReg (g o : Nat) : Bool :=
  [R.STALL_PROG_WP g, R.STALL_PROG_RP g, R.STALL_PROG_PARSE g, R.STALL_PROG_FREE g].contains o

theorem zeroPtrs_writes (g : Nat) (s : State) : OnlyWrites (ptrReg g) s (zeroPtrs g s) := by
  have hmem {o : Nat} (ho : o ∈ [R.STALL_PROG_WP g, R.STALL_PROG_RP g, R.STALL_PROG_PARSE g, R.STALL_PROG_FREE g]) :
      ptrReg g o = true := List.contains_iff_mem.2 ho
  unfold zeroPtrs showFree
  exact .wrN (.wrN (.wrN (.wrN (.refl s) 0 (hmem (by simp))) 0 (hmem (by simp))) 0 (hmem (by simp))) _ (hmem (by simp))

/-- Another register of the stall is none of them. -/
theorem ptrReg_stall (g : Nat) {k : Nat} (h : k ∉ [0x18, 0x1C, 0x20, 0x24]) : ptrReg g (stallBase g + k) = false := by
  simp only [List.mem_cons, List.not_mem_nil, or_false, not_or] at h
  rw [ptrReg, List.contains_eq_mem, decide_eq_false_iff_not]
  simp only [List.mem_cons, List.not_mem_nil, or_false, R.STALL_PROG_WP, R.STALL_PROG_RP, R.STALL_PROG_PARSE, R.STALL_PROG_FREE]
  omega

/-- The three pointers are 0. -/
def PtrsZero (g : Nat) (s : State) : Prop := ∀ k ∈ [0x18, 0x1C, 0x20], rdN s (stallBase g + k) = 0

theorem zeroPtrs_zero (g : Nat) (s : State) : PtrsZero g (zeroPtrs g s) := by
  intro k hk
  simp only [List.mem_cons, List.not_mem_nil, or_false] at hk
  obtain rfl | rfl | rfl := hk
  all_goals
    simp [zeroPtrs, showFree, rdN_wrN, R.STALL_PROG_WP, R.STALL_PROG_RP, R.STALL_PROG_PARSE, R.STALL_PROG_FREE]

/-- What leaves the pointers alone leaves them 0. -/
theorem PtrsZero.writes {g : Nat} {W : Nat → Bool} {s t : State} (h : PtrsZero g s) (hw : OnlyWrites W s t)
    (hW : ∀ k ∈ [0x18, 0x1C, 0x20], W (stallBase g + k) = false) : PtrsZero g t :=
  fun k hk => (hw _ (hW k hk)).trans (h k hk)

/-! ## The end of an abort (R94, R99) -/

/-- A stall whose abort has ended in the state `code`. -/
structure AbortEnded (g : Fin 48) (code : Nat) (s : State) : Prop where
  state : stSt g s = code
  ptrs : PtrsZero g s
  items : (stall s g).items = []
  faultCause : get s (F.STALL_STATE_FAULT_CAUSE g) = 0
  holdCause : get s (F.STALL_STATE_HOLD_CAUSE g) = 0

/-- The STATE word of a stall that drops its program: no hold, no fault, no island and no stroke. -/
def dropWord (g : Nat) (s : State) : State :=
  clrF (clrF (clrF (clrF (clrF (clrF s (F.STALL_STATE_HOLD_CAUSE g)) (F.STALL_STATE_HOLD_PENDING g))
    (F.STALL_STATE_ABORTING g)) (F.STALL_STATE_FAULT_CAUSE g)) (F.STALL_STATE_IN_ISLAND g)) (F.STALL_STATE_IN_STROKE g)

/-- A stall that drops its program shows no fault detail either. -/
def dropRegs (g : Nat) (s : State) : State := wrN (wrN (dropWord g s) (R.STALL_TRJ_FAULT g) 0) (R.STALL_OUT_FAULT g) 0

/-- A stall whose abort ends enters its state, with its pointers at 0. -/
def abortEntered (g : Fin 48) (code : Nat) (s : State) : State :=
  zeroPtrs g (if code = ssIDLE then enterIdle g s else enterState g code s)

/-- A stall at rest at `p` that has dropped its program. -/
def Stall.aborted (p : Int × Int × Int) (x : Stall) : Stall :=
  { x with
    items := [], ibase := 0, seq := Seq.init p.1 p.2.1, buf := [], hzn := 0, plan := Plan.rest 0 0 p.1 p.2.1 p.2.2,
    hplan := Plan.rest 0 0 p.1 p.2.1 p.2.2, cur := none, noEntry := false, atMarker := false, stopping := 0, disable := false,
    squashNew := 0, squashDue := 0, abortNew := false, abortDue := false, faultNew := 0, holdReq := 0,
    starveDue := false, retDue := false, relNew := false, sync := none, syncRel := false, syncBad := false, recs := [],
    cleared := false, islNo := 0, holdDue := false, pwPend := [], kept := none, engFault := 0 }

theorem abortEnd_eq (g : Fin 48) (code : Nat) (s : State) :
    abortEnd g code s =
      let s5 := seamLoss g true (showWindow g (writeCutArm g
        (setStall g (Stall.aborted (restOf g s)) (dropRegs g (abortEntered g code s)))))
      tellStall g [0x1B] stOK (some (stateWord g s5)) (some (progHeld g s))
        (tellStall g [0x18, 0x19, 0x1A] stABORTED (some (stateWord g s5)) none s5) := rfl

theorem dropWord_fields (g : Nat) (s : State) :
    stSt g (dropWord g s) = stSt g s ∧ get (dropWord g s) (F.STALL_STATE_FAULT_CAUSE g) = 0 ∧
      get (dropWord g s) (F.STALL_STATE_HOLD_CAUSE g) = 0 := by
  simp [dropWord, stSt, clrF, F.STALL_STATE_STATE, F.STALL_STATE_HOLD_CAUSE, F.STALL_STATE_HOLD_PENDING,
    F.STALL_STATE_ABORTING, F.STALL_STATE_FAULT_CAUSE, F.STALL_STATE_IN_ISLAND, F.STALL_STATE_IN_STROKE, get_put_same,
    get_put_disjoint]

/-- The registers of a dropped program. -/
def dropReg (g o : Nat) : Bool := [R.STALL_STATE g, R.STALL_TRJ_FAULT g, R.STALL_OUT_FAULT g].contains o

theorem dropReg_stall (g : Nat) {k : Nat} (h : k ∉ [0x8, 0x144, 0x21C]) : dropReg g (stallBase g + k) = false := by
  simp only [List.mem_cons, List.not_mem_nil, or_false, not_or] at h
  rw [dropReg, List.contains_eq_mem, decide_eq_false_iff_not]
  simp only [List.mem_cons, List.not_mem_nil, or_false, R.STALL_STATE, R.STALL_TRJ_FAULT, R.STALL_OUT_FAULT]
  omega

theorem dropRegs_writes (g : Nat) (s : State) : OnlyWrites (dropReg g) s (dropRegs g s) := by
  have hstate : dropReg g (R.STALL_STATE g) = true := by simp [dropReg]
  have hword : OnlyWrites (dropReg g) s (dropWord g s) :=
    .put (.put (.put (.put (.put (.put (.refl s) 0 hstate) 0 hstate) 0 hstate) 0 hstate) 0 hstate) 0 hstate
  exact .wrN (.wrN hword 0 (by simp [dropReg])) 0 (by simp [dropReg])

theorem dropRegs_fields (g : Nat) (s : State) :
    stSt g (dropRegs g s) = stSt g s ∧ get (dropRegs g s) (F.STALL_STATE_FAULT_CAUSE g) = 0 ∧
      get (dropRegs g s) (F.STALL_STATE_HOLD_CAUSE g) = 0 := by
  have hword (f : Fld) (hf : f.off = R.STALL_STATE g) : get (dropRegs g s) f = get (dropWord g s) f := by
    rw [dropRegs, get_wrN_other _ f 0 (by rw [hf]; exact stallReg_ne g (by decide)),
      get_wrN_other _ f 0 (by rw [hf]; exact stallReg_ne g (by decide))]
  obtain ⟨hst, hfault, hhold⟩ := dropWord_fields g s
  exact ⟨(hword _ rfl).trans hst, (hword _ rfl).trans hfault, (hword _ rfl).trans hhold⟩

theorem stSt_abortEntered (g : Fin 48) {code : Nat} (hc : code < 2 ^ 4) (s : State) : stSt g (abortEntered g code s) = code := by
  refine ((zeroPtrs_writes g _).get_eq (f := F.STALL_STATE_STATE g) (ptrReg_stall g (k := 0x8) (by decide))).trans ?_
  split
  next h => exact (stSt_enterIdle g s).trans h.symm
  next => exact stSt_enterState g hc s

@[simp] theorem stall_outFlag (f : Fld) (g : Nat) (s : State) (h : Fin 48) : stall (outFlag f g s) h = stall s h := by
  unfold outFlag raiseOnSet
  split
  · rfl
  · rw [stall_raise, setF, stall_put]

theorem stall_writeArm (g : Nat) (a : Arm) (s : State) (h : Fin 48) : stall (writeArm g a s) h = stall s h := by
  have hflag : ∀ (c : Prop) [Decidable c] {f : Fld} {t : State}, stall t h = stall s h →
      stall (if c then outFlag f g t else t) h = stall s h := fun c _ f t ht => by
    split
    · rw [stall_outFlag, ht]
    · exact ht
  unfold writeArm
  extract_lets s1 s2 s3 s4 s5 s6
  have h3 : stall s3 h = stall s h := by simp only [s3, s2, s1, stall_lifeAdd, stall_add64, stall_wrN]
  exact hflag _ (hflag _ (hflag _ (hflag _ h3)))

/-- The counts of a cut stroke leave the stall's commands. -/
theorem writeCutArm_items (g : Fin 48) (s : State) : (stall (writeCutArm g s) g).items = (stall s g).items := by
  unfold writeCutArm
  extract_lets x cut s1
  have h1 : (stall s1 g).items = (stall s g).items := by rw [stall_setStall_same]
  clear_value cut s1
  cases cut with
  | some a => exact (congrArg Stall.items (stall_writeArm g _ s1 g)).trans h1
  | none => exact h1

theorem abortEnd_ended (g : Fin 48) {code : Nat} (hc : code < 2 ^ 4) (s : State) : AbortEnded g code (abortEnd g code s) := by
  rw [abortEnd_eq]
  generalize hu : setStall g (Stall.aborted (restOf g s)) (dropRegs g (abortEntered g code s)) = u
  extract_lets s5
  obtain ⟨hst, hfault, hhold⟩ := dropRegs_fields g (abortEntered g code s)
  have hregs (o : Nat) : rdN u o = rdN (dropRegs g (abortEntered g code s)) o := by rw [← hu, rdN_setStall]
  have hafter : OnlyWrites (faultEndReg g) (dropRegs g (abortEntered g code s)) s5 :=
    .trans (.trans (.trans (fun o _ => hregs o) (writeCutArm_faultEnd g u)) (showWindow_faultEnd g _)) (seamLoss_faultEnd g true _)
  have hptrs : PtrsZero g s5 :=
    ((zeroPtrs_zero g _).writes (dropRegs_writes g _) fun k hk => dropReg_stall g (by revert k; decide)).writes hafter
      fun k hk => faultEndReg_stall g (by revert k; decide)
  have hitems : (stall s5 g).items = [] := by
    rw [stall_congr (seamLoss_stalls g true _) g, stall_showWindow, writeCutArm_items, ← hu, stall_setStall_same]
    rfl
  clear_value s5
  have hword (f : Fld) (hf : f.off = R.STALL_STATE g) : get s5 f = get (dropRegs g (abortEntered g code s)) f :=
    hafter.get_eq (by rw [hf]; exact faultEndReg_stall g (by decide))
  constructor
  case state => rw [stSt, get_tellStall, get_tellStall]; exact (hword _ rfl).trans (hst.trans (stSt_abortEntered g hc s))
  case ptrs => exact fun k hk => by rw [rdN_tellStall, rdN_tellStall]; exact hptrs k hk
  case items => rw [stall_tellStall, stall_tellStall, hitems]
  case faultCause => rw [get_tellStall, get_tellStall]; exact (hword _ rfl).trans hfault
  case holdCause => rw [get_tellStall, get_tellStall]; exact (hword _ rfl).trans hhold

theorem showWait_writes (g : Nat) (s : State) : OnlyWrites (· == R.STALL_STATE g) s (showWait g s) :=
  .put (.refl s) _ (beq_self_eq_true (R.STALL_STATE g))

theorem stSt_showWait (g : Nat) (s : State) : stSt g (showWait g s) = stSt g s :=
  stSt_putHigh g _ s (by decide : 26 + 1 ≤ 32) (by decide : 4 ≤ 26)

theorem AbortEnded.showWait {g : Fin 48} {code : Nat} {s : State} (h : AbortEnded g code s) : AbortEnded g code (showWait g s) := by
  constructor
  case state => exact (stSt_showWait g s).trans h.state
  case ptrs =>
    refine h.ptrs.writes (showWait_writes g s) fun k hk => beq_eq_false_iff_ne.2 (stallReg_ne g ?_)
    revert k; decide
  case items => exact h.items
  case faultCause => exact (get_put_disjoint s _ _ _ (by decide : 26 + 1 ≤ 32) (.inr (by decide : 16 + 8 ≤ 26))).trans h.faultCause
  case holdCause => exact (get_put_disjoint s _ _ _ (by decide : 26 + 1 ≤ 32) (.inr (by decide : 8 + 8 ≤ 26))).trans h.holdCause

theorem AbortEnded.restIdle {g : Fin 48} {code : Nat} {s : State} (h : AbortEnded g code s) : AbortEnded g code (restIdle g s) := by
  obtain ⟨-, hitems, -⟩ := restIdle_fields g s
  constructor
  case state => rw [stSt, get_restIdle]; exact h.state
  case ptrs => exact fun k hk => by rw [rdN_restIdle]; exact h.ptrs k hk
  case items => rw [hitems, h.items]
  case faultCause => rw [get_restIdle, h.faultCause]
  case holdCause => rw [get_restIdle, h.holdCause]

theorem abortTarget_lt (g : Fin 48) (s : State) : abortTarget g s < 2 ^ 4 := by
  unfold abortTarget
  split <;> decide

theorem completes_abortComplete {g : Fin 48} {s : State} (hover : abortOver g s = true)
    (hoff : ¬ (stSt g s = ssIDLE ∧ (stall s g).disable = true)) :
    Completes (.abortComplete g) s fun t => stSt g t = abortTarget g s ∧ rdN t (R.STALL_PROG_WP g) = 0 ∧
      rdN t (R.STALL_PROG_RP g) = 0 ∧ rdN t (R.STALL_PROG_PARSE g) = 0 ∧ (stall t g).items = [] ∧
      get t (F.STALL_STATE_FAULT_CAUSE g) = 0 ∧ get t (F.STALL_STATE_HOLD_CAUSE g) = 0 := by
  have hrun : abortComplete g s =
      let u := showWait g (abortEnd g (abortTarget g s) s)
      if abortTarget g s = ssIDLE then restIdle g u else u :=
    (if_neg (not_not.2 hover)).trans (if_neg hoff)
  have hu := (abortEnd_ended g (abortTarget_lt g s) s).showWait
  have ht : AbortEnded g (abortTarget g s) (if abortTarget g s = ssIDLE then
      restIdle g (showWait g (abortEnd g (abortTarget g s) s)) else showWait g (abortEnd g (abortTarget g s) s)) := by
    split
    · exact hu.restIdle
    · exact hu
  obtain ⟨hst, hptrs, hitems, hfault, hhold⟩ := ht
  exact ⟨_, congrArg Host.Outcome.next hrun, hst, hptrs 0x18 (by decide), hptrs 0x1C (by decide), hptrs 0x20 (by decide),
    hitems, hfault, hhold⟩

end Machine
end Sys2Proof

namespace Sys2Proof
namespace Machine

/-! ## Enabling a stall (R76, R94) -/

/-- The bay of a stall depends on the twelve words of the bay map. -/
theorem bayOf_congr {s t : State} (h : ∀ b < 12, rdN t (R.YRD_BAY_MAP b) = rdN s (R.YRD_BAY_MAP b)) (g : Nat) :
    bayOf g t = bayOf g s := by
  refine List.find?_congr fun p hp => ?_
  obtain ⟨b, hb, hk⟩ := List.mem_flatMap.1 hp
  obtain ⟨k, -, rfl⟩ := List.mem_map.1 hk
  rw [slotStall, slotStall, h b (List.mem_range.1 hb)]

/-- What only a stall's registers change, the conditions of ONLINE do not see. -/
theorem canOnline_of_stallWrites {g : Fin 48} {W : Nat → Bool} {s t : State} (h : OnlyWrites W s t)
    (hW : ∀ o, o < 0x200000 ∨ 0x800000 ≤ o → W o = false) : canOnline g t = canOnline g s := by
  have hlow (o : Nat) (ho : o < 0x200000) : rdN t o = rdN s o := h o (hW o (.inl ho))
  have hlnk (b k : Nat) : rdN t (lnkBase b + k) = rdN s (lnkBase b + k) := h _ (hW _ (.inr (by unfold lnkBase; omega)))
  have hbay : bayOf g t = bayOf g s := bayOf_congr (fun b hb => hlow _ (by simp only [R.YRD_BAY_MAP]; omega)) g
  have hen : stableEn (g / 8) t = stableEn (g / 8) s := by rw [stableEn, stableEn, hlow _ (by decide)]
  have hactive (b : Nat) : bayActive b t = bayActive b s := by
    rw [bayActive, bayActive, Machine.get, Machine.get, show rdN t (F.LNK_STATE_STAGE b).off = _ from hlnk b 0x8]
    rfl
  have hclass (b k : Nat) : slotClass b k t = slotClass b k s := by
    rw [slotClass, slotClass, show rdN t (R.LNK_CAPS b) = _ from hlnk b 0x20]
    rfl
  have hhead : headClass g t = headClass g s := by
    rw [headClass, headClass, hbay]
    cases bayOf g s with
    | none => rfl
    | some p => simp only [hactive, hclass]
  rw [canOnline, canOnline, hen, linkActive, linkActive, hhead]

/-- The bits of CTRL with EN as named. -/
theorem ctrlWord_lt (v : Word) {en : Nat} (hen : en ≤ 1) : ctrlWord v en < 2 ^ 32 := by
  unfold ctrlWord
  omega

theorem ctrlWord_en (v : Word) : bits (ctrlWord v 1) 0 1 = 1 := by
  unfold ctrlWord bits
  omega

theorem rdN_ctrl (g : Fin 48) (v : Word) {en : Nat} (hen : en ≤ 1) (s : State) :
    rdN (wrN s (R.STALL_CTRL g) (ctrlWord v en)) (R.STALL_CTRL g) = ctrlWord v en := by
  rw [rdN_wrN_same, Nat.mod_eq_of_lt (ctrlWord_lt v hen)]

theorem stSt_ctrl (g : Fin 48) (n : Nat) (s : State) : stSt g (wrN s (R.STALL_CTRL g) n) = stSt g s :=
  get_wrN_other s (F.STALL_STATE_STATE g) n (stallReg_ne g (by decide))

theorem rdN_showWait_ctrl (g : Nat) (s : State) : rdN (showWait g s) (R.STALL_CTRL g) = rdN s (R.STALL_CTRL g) :=
  showWait_writes g s _ (beq_eq_false_iff_ne.2 (stallReg_ne g (by decide)))

theorem completes_stallEnable {sec : Bool} {g : Fin 48} (v : Word) {s : State} (h : accessOk sec (R.STALL_CTRL g) s = true) :
    Completes (.stallEnable sec g v) s fun t => rdN t (R.STALL_CTRL g) = v.toNat % 8 / 2 * 2 + 1 ∧ stSt g t = stSt g s ∧
      flag t (F.STALL_STATE_EN_WAIT g) = (stSt g s == ssOFFLINE && !canOnline g s) := by
  refine ⟨_, congrArg Host.Outcome.next (hostWrite_ok h _), ?_⟩
  unfold stallEnable
  have hctrl := rdN_ctrl g v (Nat.le_refl 1) s
  have hst := stSt_ctrl g (ctrlWord v 1) s
  have hen : flag (wrN s (R.STALL_CTRL g) (ctrlWord v 1)) (F.STALL_CTRL_EN g) = true := by
    have hbits := get_wrN_same s (F.STALL_CTRL_EN g) (ctrlWord v 1) (by decide : 0 + 1 ≤ 32)
    rw [flag, beq_iff_eq]
    exact hbits.trans (ctrlWord_en v)
  have hon : canOnline g (wrN s (R.STALL_CTRL g) (ctrlWord v 1)) = canOnline g s := by
    refine canOnline_of_stallWrites (W := (· == R.STALL_CTRL g)) (.wrN (.refl s) _ (beq_self_eq_true _)) fun o ho => ?_
    simp only [beq_eq_false_iff_ne, R.STALL_CTRL, stallBase]
    omega
  generalize wrN s (R.STALL_CTRL g) (ctrlWord v 1) = u at hctrl hst hen hon ⊢
  refine ⟨(rdN_showWait_ctrl g u).trans hctrl, (stSt_showWait g u).trans hst, ?_⟩
  rw [showWait, flag, get_put_same _ _ _ (by decide : 26 + 1 ≤ 32), hst, hen, hon, Bool.and_true]
  cases (stSt g s == ssOFFLINE && !canOnline g s) <;> rfl

theorem completes_stallOnline {g : Fin 48} {s : State} (hst : stSt g s = ssOFFLINE) (hen : flag s (F.STALL_CTRL_EN g) = true)
    (hon : canOnline g s = true) :
    Completes (.stallOnline g) s fun t => stSt g t = ssIDLE ∧ flag t (F.STALL_STATE_EN_WAIT g) = false := by
  refine ⟨_, congrArg Host.Outcome.next (if_pos ⟨hst, hen, hon⟩), ?_, ?_⟩
  · rw [stSt, get_restIdle]
    exact (stSt_putHigh g 0 _ (by decide : 26 + 1 ≤ 32) (by decide : 4 ≤ 26)).trans (stSt_enterIdle g _)
  · rw [flag, get_restIdle]
    exact flag_clrF_same _ _ (by decide : 26 + 1 ≤ 32)

/-! ## Disabling a stall (R94) -/

theorem requestAbort_writes (g : Fin 48) (s : State) : OnlyWrites (faultEndReg g) s (requestAbort g s) := by
  have hloss := seamLoss_faultEnd g true s
  exact .ite (.refl s) (.ite (.setStall hloss g _) (.setStall hloss g _))

theorem requestAbort_disable (g : Fin 48) (s : State) : (stall (requestAbort g s) g).disable = (stall s g).disable := by
  cases h : flag s (F.STALL_STATE_ABORTING g) with
  | true => rw [requestAbort, if_pos h]
  | false =>
    rw [requestAbort_stall h, Stall.abortAsked]
    split <;> rfl

theorem completes_stallDisable {sec : Bool} {g : Fin 48} (v : Word) {s : State} (h : accessOk sec (R.STALL_CTRL g) s = true) :
    Completes (.stallDisable sec g v) s fun t => rdN t (R.STALL_CTRL g) = v.toNat % 8 / 2 * 2 ∧ stSt g t = stSt g s ∧
      (stSt g s ≠ ssOFFLINE → (stall t g).disable = true) := by
  refine ⟨stallDisable g v s, congrArg Host.Outcome.next (hostWrite_ok h _), ?_⟩
  have hctrl := rdN_ctrl g v (Nat.zero_le 1) s
  have hst := stSt_ctrl g (ctrlWord v 0) s
  unfold stallDisable
  extract_lets s1 s2
  have h2 : (stall s2 g).disable = true := by rw [stall_setStall_same]
  have hctrl2 : rdN s2 (R.STALL_CTRL g) = ctrlWord v 0 := hctrl
  have hst2 : stSt g s2 = stSt g s := hst
  change rdN s1 _ = _ at hctrl
  change stSt g s1 = _ at hst
  clear_value s2 s1
  split_ifs with hoff hquiet
  · exact ⟨(rdN_showWait_ctrl g s1).trans hctrl, (stSt_showWait g s1).trans hst, fun hno => absurd hoff hno⟩
  · exact ⟨hctrl2, hst2, fun _ => by rw [stall_setStall_same]; exact h2⟩
  · have hw := requestAbort_writes g s2
    exact ⟨(hw _ (faultEndReg_stall g (k := 0x0) (by decide))).trans hctrl2,
      (hw.get_eq (f := F.STALL_STATE_STATE g) (faultEndReg_stall g (by decide))).trans hst2,
      fun _ => (requestAbort_disable g s2).trans h2⟩

/-! ## The program region (R76) -/

theorem rdN_wr64_words (s : State) (o v : Nat) :
    rdN (wr64 s o v) o = v % 2 ^ 32 ∧ rdN (wr64 s o v) (o + 4) = v / 2 ^ 32 % 2 ^ 32 := by
  rw [wr64]
  exact ⟨(rdN_wrN_other _ _ (by omega)).trans (rdN_wrN_same _ _ _), rdN_wrN_same _ _ _⟩

theorem completes_progRegionWrite {sec : Bool} {g : Fin 48} (v : BitVec 64) {s : State}
    (h : accessOk sec (R.STALL_PROG_REGION g) s = true) :
    Completes (.progRegionWrite sec g (.both v)) s fun t =>
      if regionOk g (v.toNat % 2 ^ 32) (v.toNat / 2 ^ 32) s then
        rdN t (R.STALL_PROG_REGION g) = v.toNat % 2 ^ 32 ∧ rdN t (R.STALL_PROG_REGION g + 4) = v.toNat / 2 ^ 32 ∧
          rdN t (R.STALL_PROG_WP g) = 0 ∧ rdN t (R.STALL_PROG_RP g) = 0 ∧ rdN t (R.STALL_PROG_PARSE g) = 0
      else flag t (F.STALL_FLAGS_REGION_REFUSED g) = true ∧
        rdN t (R.STALL_PROG_REGION g) = rdN s (R.STALL_PROG_REGION g) ∧
        rdN t (R.STALL_PROG_REGION g + 4) = rdN s (R.STALL_PROG_REGION g + 4) := by
  refine ⟨progRegionWrite g v.toNat { s with lowHeld := cellDel s.lowHeld (R.STALL_PROG_REGION g) },
    congrArg Host.Outcome.next (hostWrite_ok h _), ?_⟩
  generalize hu : { s with lowHeld := cellDel s.lowHeld (R.STALL_PROG_REGION g) } = u
  have hok : regionOk g (v.toNat % 2 ^ 32) (v.toNat / 2 ^ 32) u = regionOk g (v.toNat % 2 ^ 32) (v.toNat / 2 ^ 32) s := by
    rw [← hu]
    rfl
  have hregs (o : Nat) : rdN u o = rdN s o := by
    rw [← hu]
    rfl
  rw [← hok]
  unfold progRegionWrite
  extract_lets base size
  split
  next =>
    obtain ⟨hlo, hhi⟩ := rdN_wr64_words u (R.STALL_PROG_REGION g) v.toNat
    have hkept {k : Nat} (hk : k ∉ [0x18, 0x1C, 0x20, 0x24]) (t : State) :
        rdN (zeroPtrs g t) (stallBase g + k) = rdN t (stallBase g + k) := zeroPtrs_writes g t _ (ptrReg_stall g hk)
    have hzero := zeroPtrs_zero g (setStall g
      (fun t => { t with items := [], ibase := 0, seq := Seq.init (restOf g u).1 (restOf g u).2.1 })
      (wr64 u (R.STALL_PROG_REGION g) v.toNat))
    refine ⟨(hkept (k := 0x10) (by decide) _).trans hlo, (hkept (k := 0x14) (by decide) _).trans (hhi.trans ?_),
      hzero 0x18 (by decide), hzero 0x1C (by decide), hzero 0x20 (by decide)⟩
    exact Nat.mod_eq_of_lt (Nat.div_lt_of_lt_mul v.isLt)
  next =>
    have hne : R.STALL_FLAGS g ≠ R.STALL_PROG_REGION g := stallReg_ne g (by decide)
    have hne4 : R.STALL_FLAGS g ≠ R.STALL_PROG_REGION g + 4 := stallReg_ne (b := 0x14) g (by decide)
    exact ⟨flag_setF_same u _ (by decide : 3 + 1 ≤ 32) rfl, (rdN_put_other u _ _ hne).trans (hregs _),
      (rdN_put_other u _ _ hne4).trans (hregs _)⟩

/-- Settles O30: each clause is the lemma of its command. -/
theorem stallAbortAndEnable : Obligations.StallAbortAndEnable :=
  ⟨fun _ _ _ h hab => completes_cmdAbort h hab, fun _ _ hover hoff => completes_abortComplete hover hoff,
    fun _ _ v _ h => completes_stallEnable v h, fun _ _ hst hen hon => completes_stallOnline hst hen hon,
    fun _ _ v _ h => completes_stallDisable v h, fun _ _ v _ h => completes_progRegionWrite v h⟩

end Machine
end Sys2Proof

namespace Sys2Proof
namespace Machine

/-! ## The heartbeat as the stalls show it (R100, R101) -/

theorem hbLost_fits (g : Nat) : (F.STALL_STATE_HB_LOST g).lo + (F.STALL_STATE_HB_LOST g).w ≤ 32 := (by decide : 29 + 1 ≤ 32)

/-- The registers of the stalls. -/
def stallsReg (o : Nat) : Bool := decide (0x200000 ≤ o)

theorem stallsReg_stall (g k : Nat) : stallsReg (stallBase g + k) = true := by
  have := stallBase_ge g
  rw [stallsReg, decide_eq_true_eq]
  omega

/-- Every stall shows the heartbeat as not lost. -/
def clearLost (s : State) : State := forAll 48 (fun g s => clrF s (F.STALL_STATE_HB_LOST g)) s

theorem clearLost_fields (s : State) :
    OnlyWrites stallsReg s (clearLost s) ∧ (clearLost s).hbSince = s.hbSince ∧
      ∀ g : Fin 48, flag (clearLost s) (F.STALL_STATE_HB_LOST g) = false := by
  refine ⟨.forAll (.refl s) fun g u => .put (.refl u) 0 (stallsReg_stall g 0x8),
    forAll_keeps (fun t : State => t.hbSince = s.hbSince) _ rfl fun _ _ h => h,
    forAll_reaches (fun g t => flag t (F.STALL_STATE_HB_LOST g) = false) (fun g t => ?_) (fun i g t h => ?_) s⟩
  · exact flag_clrF_same t _ (hbLost_fits g)
  · obtain rfl | hne := eq_or_ne g i
    · exact flag_clrF_same t _ (hbLost_fits g)
    · exact (flag_put_other t _ _ 0 (stallReg_ne_other hne (by decide) (by decide))).trans h

/-- The heartbeat restarted, before the stalls show it. -/
def hbRestarted (s : State) : State := clrF { s with hbSince := s.beam, hbTold := false } F.YRD_HEARTBEAT_STATUS_LOST

theorem hbRestart_eq (s : State) : hbRestart s = clearLost (hbRestarted s) := rfl

/-- A restart begins the period anew and clears LOST everywhere. -/
theorem hbRestart_fields (s : State) :
    (hbRestart s).hbSince = s.beam ∧ hbLost (hbRestart s) = false ∧
      (∀ g : Fin 48, flag (hbRestart s) (F.STALL_STATE_HB_LOST g) = false) ∧
      rdN (hbRestart s) R.YRD_HEARTBEAT = rdN s R.YRD_HEARTBEAT := by
  obtain ⟨hw, hsince, hlost⟩ := clearLost_fields (hbRestarted s)
  rw [hbRestart_eq]
  refine ⟨hsince, (hw.flag_eq (f := F.YRD_HEARTBEAT_STATUS_LOST) (by decide)).trans ?_, hlost, (hw _ (by decide)).trans ?_⟩
  · exact flag_clrF_same _ _ (by decide)
  · exact rdN_put_other { s with hbSince := s.beam, hbTold := false } F.YRD_HEARTBEAT_STATUS_LOST 0 (by decide)

theorem anyHolds_iff (s : State) : ((fins 48).any fun g => holdOk g s) = true ↔ ∃ g : Fin 48, holdOk g s = true := by
  simp [fins, List.any_eq_true]

theorem heartbeatPeriodWrite_eq (v : Word) (s : State) :
    heartbeatPeriodWrite v s =
      if 60 < v.toNat % 256 ∨ (v.toNat % 256 = 0 ∧ ∃ g : Fin 48, holdOk g s = true) then setF s F.YRD_HEARTBEAT_STATUS_REFUSED
      else hbRestart (wrN s R.YRD_HEARTBEAT (v.toNat % 256)) := by
  unfold heartbeatPeriodWrite
  simp only [anyHolds_iff]

theorem completes_heartbeatPeriodWrite {sec : Bool} (v : Word) {s : State} (h : accessOk sec R.YRD_HEARTBEAT s = true) :
    Completes (.heartbeatPeriodWrite sec v) s fun t =>
      if 60 < v.toNat % 256 ∨ (v.toNat % 256 = 0 ∧ ∃ g : Fin 48, holdOk g s = true) then
        flag t F.YRD_HEARTBEAT_STATUS_REFUSED = true ∧ rdN t R.YRD_HEARTBEAT = rdN s R.YRD_HEARTBEAT
      else rdN t R.YRD_HEARTBEAT = v.toNat % 256 ∧ t.hbSince = s.beam ∧ hbLost t = false ∧
        ∀ g : Fin 48, flag t (F.STALL_STATE_HB_LOST g) = false := by
  refine ⟨_, congrArg Host.Outcome.next ((hostWrite_ok h _).trans (heartbeatPeriodWrite_eq v s)), ?_⟩
  split
  next => exact ⟨flag_setF_same s _ (by decide) rfl, rdN_put_other s _ 1 (by decide)⟩
  next =>
    obtain ⟨hsince, hlost, hstalls, hperiod⟩ := hbRestart_fields (wrN s R.YRD_HEARTBEAT (v.toNat % 256))
    have hlt : v.toNat % 256 < 2 ^ 32 := by omega
    exact ⟨hperiod.trans ((rdN_wrN_same _ _ _).trans (Nat.mod_eq_of_lt hlt)), hsince, hlost, hstalls⟩

theorem completes_heartbeatKick {sec : Bool} {s : State} (h : accessOk sec R.YRD_HEARTBEAT_KICK s = true) :
    Completes (.heartbeatKick sec) s fun t => t.hbSince = s.beam ∧ hbLost t = false ∧
      ∀ g : Fin 48, flag t (F.STALL_STATE_HB_LOST g) = false := by
  obtain ⟨hsince, hlost, hstalls, -⟩ := hbRestart_fields s
  exact ⟨_, congrArg Host.Outcome.next (hostWrite_ok h _), hsince, hlost, hstalls⟩

/-! ## The layer deadline (R102) -/

theorem lifeAdd_ldTold (s : State) (k n : Nat) : (lifeAdd s k n).ldTold = s.ldTold := rfl

theorem put_ldTold (s : State) (f : Fld) (v : Nat) : (put s f v).ldTold = s.ldTold := rfl

theorem completes_layerDeadlinePassed {s : State} (hrun : s.ldSince.isSome = true) (hlim : get s F.YRD_LAYER_DEADLINE_LIMIT ≠ 0)
    (htold : s.ldTold = false) (hlate : get s F.YRD_LAYER_DEADLINE_LIMIT * 1000000 ≤ s.beam - s.ldSince.getD 0) :
    Completes .layerDeadlinePassed s fun t => flag t F.YRD_LAYER_DEADLINE_STATUS_LATE = true ∧ t.ldTold = true := by
  obtain ⟨since, hsince⟩ := Option.isSome_iff_exists.1 hrun
  rw [hsince, Option.getD_some] at hlate
  have hlater : layerDeadlinePassed s =
      raise 76 (lifeAdd (setF { s with ldTold := true } F.YRD_LAYER_DEADLINE_STATUS_LATE) (lifeNo 1 1 0) 1) := by
    unfold layerDeadlinePassed
    rw [hsince]
    exact if_pos ⟨hlim, by rw [htold]; exact Bool.false_ne_true, hlate⟩
  refine ⟨_, congrArg Host.Outcome.next hlater, ?_, ?_⟩
  · rw [flag_raise (by decide) _ (by decide), flag, get_lifeAdd]
    exact flag_setF_same { s with ldTold := true } _ (by decide) rfl
  · rw [raise_ldTold, lifeAdd_ldTold, setF, put_ldTold]

/-! ## Expiry (R101) -/

theorem lifeAdd_hbTold (s : State) (k n : Nat) : (lifeAdd s k n).hbTold = s.hbTold := rfl

theorem put_hbTold (s : State) (f : Fld) (v : Nat) : (put s f v).hbTold = s.hbTold := rfl

theorem setStall_hbTold (g : Fin 48) (f : Stall → Stall) (s : State) : (setStall g f s).hbTold = s.hbTold := rfl

theorem heldState_hbTold (g causes ret : Nat) (s : State) : (heldState g causes ret s).hbTold = s.hbTold := by
  simp only [heldState, clrF, put_hbTold]

theorem tellStall_hbTold (g : Nat) (ops : List Nat) (st : Nat) (a b : Option Nat) (s : State) :
    (tellStall g ops st a b s).hbTold = s.hbTold :=
  tellStall_keeps (fun c q st a b s => complete_hbTold c q st a b false s) g ops st a b s

theorem enterHold_hbTold (g : Fin 48) (causes ret : Nat) (s : State) : (enterHold g causes ret s).hbTold = s.hbTold := by
  obtain ⟨l, hl⟩ := countHold_shape g causes (setStall g Stall.held (heldState g causes ret s))
  have hheld : (setStall g Stall.held (heldState g causes ret s)).hbTold = s.hbTold :=
    (setStall_hbTold ..).trans (heldState_hbTold ..)
  rw [enterHold_eq]
  generalize setStall g Stall.held (heldState g causes ret s) = u at hl hheld ⊢
  have hcount : (countHold g causes u).hbTold = s.hbTold := by
    rw [hl]
    exact hheld
  dsimp only
  rw [tellStall_hbTold]
  exact (raise_hbTold ..).trans hcount

theorem requestHold_hbTold (g : Fin 48) (c : Nat) (s : State) : (requestHold g c s).hbTold = s.hbTold := by
  unfold requestHold
  dsimp only
  split_ifs
  · rw [addHold, put_hbTold]
  · rw [setF, put_hbTold, setStall_hbTold]
  · rw [setStall_hbTold]
  · rfl

/-- The hold fields written on entry to HOLD stand beside HB_LOST. -/
theorem enterHold_hbLost (g : Fin 48) (causes ret : Nat) {s : State} (h : flag s (F.STALL_STATE_HB_LOST g) = true) :
    flag (enterHold g causes ret s) (F.STALL_STATE_HB_LOST g) = true := by
  rw [(enterHold_afterState g causes ret s).flag_eq (eventReg_stall g 0x8), ← h]
  simp [heldState, flag, clrF, F.STALL_STATE_STATE, F.STALL_STATE_RETURN_STATE, F.STALL_STATE_HOLD_CAUSE,
    F.STALL_STATE_HOLD_PENDING, F.STALL_STATE_HB_LOST, get_put_disjoint]

theorem requestHold_hbLost (g : Fin 48) (c : Nat) {s : State} (h : flag s (F.STALL_STATE_HB_LOST g) = true) :
    flag (requestHold g c s) (F.STALL_STATE_HB_LOST g) = true := by
  unfold requestHold
  dsimp only
  split_ifs
  · exact (flag_put_disjoint s _ _ _ (by decide : 8 + 8 ≤ 32) (.inl (by decide : 8 + 8 ≤ 29))).trans h
  · exact (flag_put_disjoint _ _ _ 1 (by decide : 24 + 1 ≤ 32) (.inl (by decide : 24 + 1 ≤ 29))).trans h
  · exact h
  · exact h

/-- What an expiry does to one stall: it shows HB_LOST, and holds where it can be held. -/
theorem heartbeatStall_fields (g : Fin 48) (s : State) :
    flag (heartbeatStall g s) (F.STALL_STATE_HB_LOST g) = true ∧ OnlyWrites (holdReg g) s (heartbeatStall g s) ∧
      (heartbeatStall g s).hbTold = s.hbTold := by
  have hreg (o : Nat) (ho : (o == R.STALL_STATE g) = true) : holdReg g o = true := by rw [holdReg, ho, Bool.or_true]
  unfold heartbeatStall
  extract_lets s1 st
  have hlost : flag s1 (F.STALL_STATE_HB_LOST g) = true := flag_setF_same s _ (hbLost_fits g) rfl
  have hw : OnlyWrites (holdReg g) s s1 := .put (.refl s) 1 (hreg _ (beq_self_eq_true (R.STALL_STATE g)))
  have htold : s1.hbTold = s.hbTold := put_hbTold ..
  clear_value s1
  split_ifs
  · exact ⟨enterHold_hbLost g _ _ hlost, hw.trans (enterHold_writes g _ _ s1), (enterHold_hbTold ..).trans htold⟩
  · exact ⟨requestHold_hbLost g _ hlost, hw.trans ((requestHold_writes g _ s1).mono hreg), (requestHold_hbTold ..).trans htold⟩
  · exact ⟨hlost, hw, htold⟩

theorem holdReg_other {g h : Fin 48} (hne : h ≠ g) {k : Nat} (hk : k < 0x10000) : holdReg g (stallBase h + k) = false := by
  rw [holdReg, eventReg_stall, Bool.false_or, beq_eq_false_iff_ne]
  exact (stallReg_ne_other hne (by decide) hk).symm

/-- The stalls hear of an expiry. -/
def heartbeatHeard (s : State) : State := forAll 48 heartbeatStall s

theorem heartbeatHeard_fields (s : State) :
    (∀ g : Fin 48, flag (heartbeatHeard s) (F.STALL_STATE_HB_LOST g) = true) ∧
      OnlyWrites (fun o => eventReg o || stallsReg o) s (heartbeatHeard s) ∧ (heartbeatHeard s).hbTold = s.hbTold := by
  refine ⟨forAll_reaches (fun g t => flag t (F.STALL_STATE_HB_LOST g) = true) (fun g t => ?_) (fun i g t h => ?_) s,
    .forAll (.refl s) fun g u => ?_, forAll_keeps (fun t : State => t.hbTold = s.hbTold) _ rfl fun g u hu => ?_⟩
  · obtain ⟨hlost, -⟩ := heartbeatStall_fields g t
    exact hlost
  · obtain rfl | hne := eq_or_ne g i
    · obtain ⟨hlost, -⟩ := heartbeatStall_fields g t
      exact hlost
    · obtain ⟨-, hw, -⟩ := heartbeatStall_fields i t
      exact (hw.flag_eq (f := F.STALL_STATE_HB_LOST g) (holdReg_other hne (by decide))).trans h
  · obtain ⟨-, hw, -⟩ := heartbeatStall_fields g u
    refine hw.mono fun o ho => ?_
    rw [holdReg, Bool.or_eq_true, beq_iff_eq] at ho
    obtain ho | rfl := ho
    · rw [ho, Bool.true_or]
    · rw [show stallsReg (R.STALL_STATE g) = true from stallsReg_stall g 0x8, Bool.or_true]
  · obtain ⟨-, -, htold⟩ := heartbeatStall_fields g u
    exact htold.trans hu

/-- The expiry as the yard shows it. -/
def expiryShown (s : State) : State :=
  raise 75 (lifeAdd (setF (setF { s with hbTold := true } F.YRD_HEARTBEAT_STATUS_LOST) F.YRD_HEARTBEAT_STATUS_EXPIRED)
    (lifeNo 3 6 0) 1)

theorem expiryShown_fields (s : State) :
    hbLost (expiryShown s) = true ∧ flag (expiryShown s) F.YRD_HEARTBEAT_STATUS_EXPIRED = true ∧ (expiryShown s).hbTold = true := by
  have hraise {f : Fld} (hf : f.off = R.YRD_HEARTBEAT_STATUS) : flag (expiryShown s) f =
      flag (setF (setF { s with hbTold := true } F.YRD_HEARTBEAT_STATUS_LOST) F.YRD_HEARTBEAT_STATUS_EXPIRED) f := by
    rw [expiryShown, flag_raise (by decide) _ (by rw [hf]; decide), flag, get_lifeAdd]
    rfl
  refine ⟨(hraise rfl).trans ?_, (hraise rfl).trans ?_, ?_⟩
  · exact (flag_put_disjoint _ _ _ 1 (by decide) (by decide)).trans (flag_setF_same { s with hbTold := true } _ (by decide) rfl)
  · exact flag_setF_same _ _ (by decide) rfl
  · rw [expiryShown, raise_hbTold, lifeAdd_hbTold, setF, put_hbTold, setF, put_hbTold]

/-- The axes hear of it. -/
def axesHeard (s : State) : State := forAll 8 (fun a s => setAxis a (fun x => { x with due := { x.due with hb := true } }) s) s

theorem heartbeatExpired_due {s : State} (h : heartbeatDue s = true) :
    heartbeatExpired s = axesHeard (heartbeatHeard (expiryShown s)) := if_pos h

theorem axesHeard_kept (s : State) : (axesHeard s).regs = s.regs ∧ (axesHeard s).hbTold = s.hbTold :=
  forAll_keeps (fun t : State => t.regs = s.regs ∧ t.hbTold = s.hbTold) _ ⟨rfl, rfl⟩ fun _ _ h => h

theorem completes_heartbeatExpired {s : State} (hdue : heartbeatDue s = true) :
    Completes .heartbeatExpired s fun t => hbLost t = true ∧ flag t F.YRD_HEARTBEAT_STATUS_EXPIRED = true ∧ t.hbTold = true ∧
      ∀ g : Fin 48, flag t (F.STALL_STATE_HB_LOST g) = true := by
  refine ⟨_, congrArg Host.Outcome.next (heartbeatExpired_due hdue), ?_⟩
  obtain ⟨hlost, hexp, htold⟩ := expiryShown_fields s
  obtain ⟨hstalls, hw, htold'⟩ := heartbeatHeard_fields (expiryShown s)
  obtain ⟨hregs, htold''⟩ := axesHeard_kept (heartbeatHeard (expiryShown s))
  have hflag (f : Fld) : flag (axesHeard (heartbeatHeard (expiryShown s))) f = flag (heartbeatHeard (expiryShown s)) f :=
    flag_eq_of_rdN (by rw [rdN, rd, hregs]; rfl)
  exact ⟨(hflag _).trans ((hw.flag_eq (f := F.YRD_HEARTBEAT_STATUS_LOST) (by decide)).trans hlost),
    (hflag _).trans ((hw.flag_eq (f := F.YRD_HEARTBEAT_STATUS_EXPIRED) (by decide)).trans hexp),
    htold''.trans (htold'.trans htold), fun g => (hflag _).trans (hstalls g)⟩

/-- Settles O31: each clause is the lemma of its command; a restart and an expiry reach every stall. -/
theorem heartbeatAndDeadline : Obligations.HeartbeatAndDeadline :=
  ⟨fun _ v _ h => completes_heartbeatPeriodWrite v h, fun _ _ h => completes_heartbeatKick h,
    fun _ hrun hlim htold hlate => completes_layerDeadlinePassed hrun hlim htold hlate,
    fun _ hdue => completes_heartbeatExpired hdue⟩

end Machine
end Sys2Proof

namespace Sys2Proof
namespace Machine

/-! ## What the sequencer does with the visible command (R80, R103) -/

/-- The command at PARSE. -/
def visibleRaw (g : Fin 48) (s : State) : Raw := rawAt g (rdN s (R.STALL_PROG_PARSE g)) s

/-- The sequencer stops at a program error (R103). -/
def seqError (g : Fin 48) (e op off : Nat) (s : State) : State :=
  setStall g (fun x => { x with seq := { x.seq with stop := e, errOp := op, errOff := off } }) s

theorem parseCode_eq {op : Nat} {g : Fin 48} {s : State} (hp : canParse g s = true) (hop : (visibleRaw g s).op = op) :
    parseCode op g s = parseOne g s := if_pos ⟨hp, hop⟩

theorem parseCode_other {op : Nat} {g : Fin 48} {s : State} (h : ¬ (canParse g s = true ∧ (visibleRaw g s).op = op)) :
    parseCode op g s = s := if_neg h

theorem parseOne_unreadable {g : Fin 48} {s : State} (h : seqReads g (rdN s (R.STALL_PROG_PARSE g)) s = false) :
    parseOne g s = faultNext g 8 (seqStop g 11 s) := if_pos (by rw [h]; exact Bool.false_ne_true)

section
variable {g : Fin 48} {s : State} (hread : seqReads g (rdN s (R.STALL_PROG_PARSE g)) s = true)
  (hin : (stall s g).seq.seamLeft = 0 ∨ (stall s g).seq.skip = false)
include hread hin

/-- A command that may be read and stands in no skipped section is judged. -/
theorem parseOne_judged :
    parseOne g s =
      if progError g s.mvP (stall s g).seq (visibleRaw g s) ≠ 0 then
        seqError g (progError g s.mvP (stall s g).seq (visibleRaw g s)) (visibleRaw g s).op (rdN s (R.STALL_PROG_PARSE g)) s
      else if (visibleRaw g s).op = 0x0D then
        if (stall s g).seq.passBy then passSection g (rdN s (R.STALL_PROG_PARSE g)) (visibleRaw g s).h s
        else registerSeam false g (rdN s (R.STALL_PROG_PARSE g)) (visibleRaw g s) s
      else
        pushItem g (rdN s (R.STALL_PROG_PARSE g)) (itemOf g (visibleRaw g s) s).1 false
          (sectionStep (seqAfter (stall (itemOf g (visibleRaw g s) s).2 g).seq (visibleRaw g s)))
          (itemOf g (visibleRaw g s) s).2 := by
  have hskip : ¬ (0 < (stall s g).seq.seamLeft ∧ (stall s g).seq.skip = true) := by
    rintro ⟨hleft, hs⟩
    obtain h | h := hin
    · omega
    · rw [h] at hs
      exact Bool.false_ne_true hs
  exact (if_neg (not_not.2 hread)).trans (if_neg hskip)

theorem parseOne_error (he : progError g s.mvP (stall s g).seq (visibleRaw g s) ≠ 0) :
    parseOne g s = seqError g (progError g s.mvP (stall s g).seq (visibleRaw g s)) (visibleRaw g s).op
      (rdN s (R.STALL_PROG_PARSE g)) s := (parseOne_judged hread hin).trans (if_pos he)

theorem parseOne_seam (he : progError g s.mvP (stall s g).seq (visibleRaw g s) = 0) (hop : (visibleRaw g s).op = 0x0D) :
    parseOne g s =
      if (stall s g).seq.passBy then passSection g (rdN s (R.STALL_PROG_PARSE g)) (visibleRaw g s).h s
      else registerSeam false g (rdN s (R.STALL_PROG_PARSE g)) (visibleRaw g s) s :=
  (parseOne_judged hread hin).trans ((if_neg (not_not.2 he)).trans (if_pos hop))

theorem parseOne_item (he : progError g s.mvP (stall s g).seq (visibleRaw g s) = 0) (hop : (visibleRaw g s).op ≠ 0x0D) :
    parseOne g s =
      pushItem g (rdN s (R.STALL_PROG_PARSE g)) (itemOf g (visibleRaw g s) s).1 false
        (sectionStep (seqAfter (stall (itemOf g (visibleRaw g s) s).2 g).seq (visibleRaw g s)))
        (itemOf g (visibleRaw g s) s).2 :=
  (parseOne_judged hread hin).trans ((if_neg (not_not.2 he)).trans (if_neg hop))

end

/-! ## A refused command (R103, R449) -/

/-- The scan commands with their opcodes. -/
def scanRows (g : Fin 48) : List (Instr × Nat) :=
  [(.scanNop g, 0x00), (.jump g, 0x01), (.markLine g, 0x02), (.markArc g, 0x03), (.powerRamp g, 0x04),
    (.wobble g, 0x05), (.speedPower g, 0x06), (.delaySet g, 0x07), (.compareArm g, 0x08), (.islandBegin g, 0x09),
    (.islandEnd g, 0x0A), (.layerEnd g, 0x0B), (.syncBarrier g, 0x0C), (.seamHandover g, 0x0D),
    (.programEnd g, 0x0E)]

/-- Every scan command parses the visible command of its opcode. -/
theorem exec_scanRow {g : Fin 48} {i : Instr} {op : Nat} (h : (i, op) ∈ scanRows g) (s : State) :
    exec i s = .next (parseCode op g s) := by
  simp only [scanRows, List.mem_cons, Prod.mk.injEq, List.not_mem_nil, or_false] at h
  obtain ⟨rfl, rfl⟩ | ⟨rfl, rfl⟩ | ⟨rfl, rfl⟩ | ⟨rfl, rfl⟩ | ⟨rfl, rfl⟩ | ⟨rfl, rfl⟩ | ⟨rfl, rfl⟩ | ⟨rfl, rfl⟩ | ⟨rfl, rfl⟩ |
    ⟨rfl, rfl⟩ | ⟨rfl, rfl⟩ | ⟨rfl, rfl⟩ | ⟨rfl, rfl⟩ | ⟨rfl, rfl⟩ | ⟨rfl, rfl⟩ := h
  all_goals rfl

theorem completes_unreadable {g : Fin 48} {i : Instr} {op : Nat} {s : State} (hi : (i, op) ∈ scanRows g)
    (hp : canParse g s = true) (hop : (visibleRaw g s).op = op)
    (hread : seqReads g (rdN s (R.STALL_PROG_PARSE g)) s = false) :
    Completes i s fun t =>
      (stall t g).seq.stop = 11 ∧ (stall t g).faultNew = (if (stall s g).faultNew = 0 then 8 else (stall s g).faultNew) ∧
      (stall t g).items = (stall s g).items ∧ (∀ o, rdN t o = rdN s o) ∧ ∀ h : Fin 48, h ≠ g → stall t h = stall s h := by
  refine ⟨faultNext g 8 (seqStop g 11 s), (exec_scanRow hi s).trans ?_, ?_⟩
  · rw [parseCode_eq hp hop, parseOne_unreadable hread]
  have hstall : stall (faultNext g 8 (seqStop g 11 s)) g =
      { stall s g with
        seq := { (stall s g).seq with stop := 11 },
        faultNew := if (stall s g).faultNew = 0 then 8 else (stall s g).faultNew } := by
    rw [faultNext, stall_setStall_same, seqStop, stall_setStall_same]
  beta_reduce
  rw [hstall]
  refine ⟨rfl, rfl, rfl, fun o => rfl, fun h hne => ?_⟩
  rw [faultNext, stall_setStall_other _ _ hne, seqStop, stall_setStall_other _ _ hne]

theorem completes_scanError {g : Fin 48} {i : Instr} {op : Nat} {s : State} (hi : (i, op) ∈ scanRows g)
    (hp : canParse g s = true) (hop : (visibleRaw g s).op = op) (hread : seqReads g (rdN s (R.STALL_PROG_PARSE g)) s = true)
    (hin : (stall s g).seq.seamLeft = 0 ∨ (stall s g).seq.skip = false)
    (he : progError g s.mvP (stall s g).seq (visibleRaw g s) ≠ 0) :
    Completes i s fun t =>
      (stall t g).seq.stop = progError g s.mvP (stall s g).seq (visibleRaw g s) ∧ (stall t g).seq.errOp = op ∧
      (stall t g).seq.errOff = rdN s (R.STALL_PROG_PARSE g) ∧ (stall t g).items = (stall s g).items ∧
      (∀ o, rdN t o = rdN s o) ∧ ∀ h : Fin 48, h ≠ g → stall t h = stall s h := by
  refine ⟨_, (exec_scanRow hi s).trans (congrArg Host.Outcome.next ((parseCode_eq hp hop).trans (parseOne_error hread hin he))), ?_⟩
  generalize progError g s.mvP (stall s g).seq (visibleRaw g s) = e
  rw [hop, seqError, stall_setStall_same]
  exact ⟨rfl, rfl, rfl, rfl, fun o => rfl, fun h hne => stall_setStall_other _ _ hne⟩

/-- Settles O24: a command that is not the row's changes nothing, and one that is refused only stops the sequencer. -/
theorem scanCommandRefused : Obligations.ScanCommandRefused := by
  rintro g s i op r rfl hi
  exact ⟨fun h => (exec_scanRow hi s).trans (congrArg Host.Outcome.next (parseCode_other h)),
    fun hp hop hread => completes_unreadable hi hp hop hread,
    fun hp hop hread hin he => completes_scanError hi hp hop hread hin he⟩

end Machine
end Sys2Proof

namespace Sys2Proof
namespace Machine

/-! ## Clamps (R83) -/

/-- The registers that a clamp may write. -/
def clampReg (g o : Nat) : Bool := eventReg o || o == R.STALL_LIMIT_CLAMPS g || o == R.STALL_FLAGS g

/-- Two states that differ in what clamps write only. -/
structure ClampLike (g : Nat) (s t : State) : Prop where
  regs : OnlyWrites (clampReg g) s t
  stalls : t.stalls = s.stalls
  oldRegs : t.oldRegs = s.oldRegs

theorem ClampLike.refl (g : Nat) (s : State) : ClampLike g s s := ⟨.refl s, rfl, rfl⟩

theorem ClampLike.trans {g : Nat} {s t u : State} (h : ClampLike g s t) (k : ClampLike g t u) : ClampLike g s u :=
  ⟨h.regs.trans k.regs, k.stalls.trans h.stalls, k.oldRegs.trans h.oldRegs⟩

theorem clampReg_stall (g : Nat) {k : Nat} (h : k ∉ [0x5C, 0xC]) : clampReg g (stallBase g + k) = false := by
  simp only [List.mem_cons, List.not_mem_nil, or_false, not_or] at h
  rw [clampReg, eventReg_stall]
  simp only [R.STALL_LIMIT_CLAMPS, R.STALL_FLAGS, Bool.false_or, Bool.or_eq_false_iff, beq_eq_false_iff_ne]
  omega

theorem limitClamp_like (g : Fin 48) (s : State) : ClampLike g s (limitClamp g s) := by
  have hcount : OnlyWrites (clampReg g) s (lifeAdd (addSat s (R.STALL_LIMIT_CLAMPS g) 1) (lifeNo 3 4 g) 1) :=
    .lifeAdd (.wrN (.refl s) _ (by simp [clampReg])) _ _
  have hunits : (lifeAdd (addSat s (R.STALL_LIMIT_CLAMPS g) 1) (lifeNo 3 4 g) 1).stalls = s.stalls ∧
      (lifeAdd (addSat s (R.STALL_LIMIT_CLAMPS g) 1) (lifeNo 3 4 g) 1).oldRegs = s.oldRegs := ⟨rfl, rfl⟩
  obtain ⟨hstalls, hold⟩ := hunits
  unfold limitClamp
  generalize lifeAdd (addSat s (R.STALL_LIMIT_CLAMPS g) 1) (lifeNo 3 4 g) 1 = u at hcount hstalls hold ⊢
  refine ⟨hcount.raiseOnSet (stallEv_lt g (by decide)) (by simp [clampReg, F.STALL_FLAGS_LIMIT_CLAMPED]) fun o ho => ?_, ?_, ?_⟩
  · rw [clampReg, ho]
    rfl
  · unfold raiseOnSet
    split
    · exact hstalls
    · exact (raise_stalls ..).trans hstalls
  · unfold raiseOnSet
    split
    · exact hold
    · exact (raise_oldRegs ..).trans hold

/-- A clamp leaves the limits in effect. -/
theorem ClampLike.limSpeed_eq {g : Fin 48} {s t : State} (h : ClampLike g s t) : limSpeed g t = limSpeed g s := by
  have hrow : clampReg g (R.YRD_LIMIT_SPEED g) = false := by
    have hev : eventReg (R.YRD_LIMIT_SPEED g) = false := by
      rw [eventReg, decide_eq_false_iff_not, R.YRD_LIMIT_SPEED]
      omega
    rw [clampReg, hev]
    simp only [R.YRD_LIMIT_SPEED, R.STALL_LIMIT_CLAMPS, R.STALL_FLAGS, stallBase, Bool.false_or, Bool.or_eq_false_iff,
      beq_eq_false_iff_ne]
    omega
  simp only [limSpeed, rdEff, h.oldRegs, h.regs _ hrow]

theorem clampPower_fields (g : Fin 48) (v : Nat) (s : State) :
    (clampPower g v s).1 = min v (limPower g s) ∧ ClampLike g s (clampPower g v s).2 := by
  unfold clampPower
  split
  next h => exact ⟨(Nat.min_eq_right h.le).symm, limitClamp_like g s⟩
  next h => exact ⟨(Nat.min_eq_left (Nat.not_lt.1 h)).symm, .refl g s⟩

theorem clampSpeed_fields (g : Fin 48) (v : Nat) (s : State) :
    (clampSpeed g v s).1 = (if limSpeed g s = 0 then v else min v (limSpeed g s)) ∧ ClampLike g s (clampSpeed g v s).2 := by
  unfold clampSpeed
  split
  next h =>
    obtain ⟨hlim, hlt⟩ := h
    exact ⟨by rw [if_neg hlim, Nat.min_eq_right hlt.le], limitClamp_like g s⟩
  next h =>
    refine ⟨?_, .refl g s⟩
    split
    · rfl
    next hlim => exact (Nat.min_eq_left (Nat.not_lt.1 fun hlt => h ⟨hlim, hlt⟩)).symm

/-! ## Items (R80) -/

/-- The commands that become one item each, with their opcodes and items. -/
def itemRows (g : Fin 48) (s : State) (r : Raw) : List (Instr × Nat × ItemK) := [
  (.scanNop g, 0x00, .nop),
  (.jump g, 0x01, .jump (sext 16 r.h) (sext 32 r.w1) (sext 32 r.w2)),
  (.markLine g, 0x02, .line (r.fl == 1) (sext 16 r.h) (sext 32 r.w1) (sext 32 r.w2) r.w3),
  (.markArc g, 0x03, .arc (r.fl == 1) (sext 16 r.h) (sext 32 r.w1) (sext 32 r.w2) (sext 32 r.w3)),
  (.powerRamp g, 0x04, .ramp (min r.h (limPower g s)) r.w1),
  (.wobble g, 0x05, .wobble r.fl r.h (r.w1 % 2 ^ 16) (r.w1 / 2 ^ 16)),
  (.speedPower g, 0x06, .speed (if r.h = 0xFFFF then none else some (min r.h (limPower g s)))
    (if limSpeed g s = 0 then r.w1 else min r.w1 (limSpeed g s)) r.w2),
  (.delaySet g, 0x07, .delay r.h (sext 32 r.w1) (sext 32 r.w2)),
  (.compareArm g, 0x08, .compare r.fl r.h (r.w1 % 2 ^ 16)),
  (.islandBegin g, 0x09, .islBegin r.w1 r.w2),
  (.islandEnd g, 0x0A, .islEnd r.w1),
  (.layerEnd g, 0x0B, .layerEnd r.w1),
  (.syncBarrier g, 0x0C, .sync r.h (r.w1 + 2 ^ 32 * (r.w2 % 2 ^ 16)) (r.w2 / 2 ^ 16 % 256)),
  (.programEnd g, 0x0E, .progEnd)]

/-- The item of a command: its kind, and a state in which only clamps were counted. -/
def ItemIs (g : Fin 48) (k : ItemK) (r : Raw) (s : State) : Prop := (itemOf g r s).1 = k ∧ ClampLike g s (itemOf g r s).2

theorem itemOf_ramp {g : Fin 48} {r : Raw} {s : State} (h : r.op = 0x04) : ItemIs g (.ramp (min r.h (limPower g s)) r.w1) r s := by
  obtain ⟨hpower, hlike⟩ := clampPower_fields g r.h s
  rw [ItemIs, itemOf, h]
  exact ⟨congrArg (ItemK.ramp · r.w1) hpower, hlike⟩

/-- The power of a SPEED_POWER: none given, or clamped. -/
def powerOf (g : Nat) (h : Nat) (s : State) : Option Nat × State :=
  if h = 0xFFFF then (none, s) else (some (clampPower g h s).1, (clampPower g h s).2)

theorem powerOf_fields (g : Fin 48) (h : Nat) (s : State) :
    (powerOf g h s).1 = (if h = 0xFFFF then none else some (min h (limPower g s))) ∧ ClampLike g s (powerOf g h s).2 := by
  obtain ⟨hpower, hlike⟩ := clampPower_fields g h s
  unfold powerOf
  split
  · exact ⟨rfl, .refl g s⟩
  · exact ⟨congrArg some hpower, hlike⟩

/-- The speed of a SPEED_POWER: none given, or clamped. -/
def markSpeedOf (g : Nat) (v : Nat) (s : State) : Nat × State := if v = 0 then (0, s) else clampSpeed g v s

theorem markSpeedOf_fields (g : Fin 48) (v : Nat) (s : State) :
    (markSpeedOf g v s).1 = (if limSpeed g s = 0 then v else min v (limSpeed g s)) ∧ ClampLike g s (markSpeedOf g v s).2 := by
  unfold markSpeedOf
  split
  next h => exact ⟨by rw [h, Nat.zero_min, ite_self], .refl g s⟩
  next => exact clampSpeed_fields g v s

theorem itemOf_speed {g : Fin 48} {r : Raw} {s : State} (h : r.op = 0x06) :
    ItemIs g (.speed (if r.h = 0xFFFF then none else some (min r.h (limPower g s)))
      (if limSpeed g s = 0 then r.w1 else min r.w1 (limSpeed g s)) r.w2) r s := by
  obtain ⟨hpower, hlike⟩ := powerOf_fields g r.h s
  obtain ⟨hspeed, hlike'⟩ := markSpeedOf_fields g r.w1 (powerOf g r.h s).2
  rw [hlike.limSpeed_eq] at hspeed
  have hitem : itemOf g r s = (.speed (powerOf g r.h s).1 (markSpeedOf g r.w1 (powerOf g r.h s).2).1 r.w2,
      (markSpeedOf g r.w1 (powerOf g r.h s).2).2) := by
    rw [itemOf, h]
    rfl
  rw [ItemIs, hitem, ← hpower, ← hspeed]
  exact ⟨rfl, hlike.trans hlike'⟩

/-- Each of these commands gives its item and counts clamps only. -/
theorem itemOf_row {g : Fin 48} {i : Instr} {op : Nat} {k : ItemK} {r : Raw} {s : State} (h : (i, op, k) ∈ itemRows g s r)
    (hop : r.op = op) : ItemIs g k r s := by
  simp only [itemRows, List.mem_cons, Prod.mk.injEq, List.not_mem_nil, or_false] at h
  obtain ⟨-, rfl, rfl⟩ | ⟨-, rfl, rfl⟩ | ⟨-, rfl, rfl⟩ | ⟨-, rfl, rfl⟩ | ⟨-, rfl, rfl⟩ | ⟨-, rfl, rfl⟩ | ⟨-, rfl, rfl⟩ |
    ⟨-, rfl, rfl⟩ | ⟨-, rfl, rfl⟩ | ⟨-, rfl, rfl⟩ | ⟨-, rfl, rfl⟩ | ⟨-, rfl, rfl⟩ | ⟨-, rfl, rfl⟩ | ⟨-, rfl, rfl⟩ := h
  case inr.inr.inr.inr.inl => exact itemOf_ramp hop
  case inr.inr.inr.inr.inr.inr.inl => exact itemOf_speed hop
  all_goals
    rw [ItemIs, itemOf, hop]
    exact ⟨rfl, .refl g s⟩

/-- They are scan commands other than SEAM_HANDOVER. -/
theorem scanRow_of_itemRow {g : Fin 48} {i : Instr} {op : Nat} {k : ItemK} {r : Raw} {s : State}
    (h : (i, op, k) ∈ itemRows g s r) : (i, op) ∈ scanRows g ∧ op ≠ 0x0D := by
  simp only [itemRows, List.mem_cons, Prod.mk.injEq, List.not_mem_nil, or_false] at h
  obtain ⟨rfl, rfl, -⟩ | ⟨rfl, rfl, -⟩ | ⟨rfl, rfl, -⟩ | ⟨rfl, rfl, -⟩ | ⟨rfl, rfl, -⟩ | ⟨rfl, rfl, -⟩ | ⟨rfl, rfl, -⟩ |
    ⟨rfl, rfl, -⟩ | ⟨rfl, rfl, -⟩ | ⟨rfl, rfl, -⟩ | ⟨rfl, rfl, -⟩ | ⟨rfl, rfl, -⟩ | ⟨rfl, rfl, -⟩ | ⟨rfl, rfl, -⟩ := h
  all_goals exact ⟨by simp [scanRows], by decide⟩

/-! ## An item appended (R74) -/

theorem progSize_congr {g : Nat} {s t : State} (h : rdN t (R.STALL_PROG_REGION g + 4) = rdN s (R.STALL_PROG_REGION g + 4)) :
    progSize g t = progSize g s := by rw [progSize, progSize, h]

theorem pushItem_fields (g : Fin 48) (off : Nat) (k : ItemK) (skip : Bool) (q : Seq) (s : State) :
    (∃ it : Item, (stall (pushItem g off k skip q s) g).items = (stall s g).items ++ [it] ∧ it.k = k ∧ it.skip = skip ∧
        it.off = off) ∧
      (stall (pushItem g off k skip q s) g).seq = q ∧
      rdN (pushItem g off k skip q s) (R.STALL_PROG_PARSE g) = nextOff g off s % 2 ^ 32 ∧
      (pushItem g off k skip q s).seams = s.seams ∧
      ∀ h : Fin 48, h ≠ g → stall (pushItem g off k skip q s) h = stall s h := by
  unfold pushItem
  refine ⟨?_, ?_, rdN_wrN_same _ _ _, rfl, fun h hne => ?_⟩
  · rw [stall_wrN, stall_setStall_same]
    exact ⟨_, rfl, rfl, rfl, rfl⟩
  · rw [stall_wrN, stall_setStall_same]
  · rw [stall_wrN, stall_setStall_other _ _ hne]

theorem nextOff_lt {g : Nat} {s : State} (hpos : 0 < progSize g s) (hle : progSize g s ≤ 0x300000) (off : Nat) :
    nextOff g off s % 2 ^ 32 = (off + 16) % progSize g s := by
  have hlt : (off + 16) % progSize g s < progSize g s := Nat.mod_lt _ hpos
  rw [nextOff, if_neg hpos.ne', Nat.mod_eq_of_lt (by omega)]

/-- Settles O22: the command becomes the item of its row, behind the clamps that it counts. -/
theorem scanCommandParsed : Obligations.ScanCommandParsed := by
  rintro g s i op k r rfl hi hp hread hop hin he hpos hle
  obtain ⟨hscan, hseam⟩ := scanRow_of_itemRow (r := visibleRaw g s) (s := s) hi
  obtain ⟨hk, hlike⟩ := itemOf_row (r := visibleRaw g s) (s := s) hi hop
  have hop' : (visibleRaw g s).op ≠ 0x0D := fun e => hseam (hop.symm.trans e)
  refine ⟨_, (exec_scanRow hscan s).trans
    (congrArg Host.Outcome.next ((parseCode_eq hp hop).trans (parseOne_item hread hin he hop'))), ?_⟩
  rw [hk]
  generalize (itemOf g (visibleRaw g s) s).2 = u at hlike ⊢
  have hsize : progSize g u = progSize g s := progSize_congr (hlike.regs _ (clampReg_stall g (k := 0x14) (by decide)))
  have hunits (h : Fin 48) : stall u h = stall s h := stall_congr hlike.stalls h
  obtain ⟨⟨it, hitems, hit⟩, -, hparse, -, hother⟩ := pushItem_fields g (rdN s (R.STALL_PROG_PARSE g)) k false
    (sectionStep (seqAfter (stall u g).seq (visibleRaw g s))) u
  refine ⟨?_, ⟨it, by rw [hitems, hunits], hit⟩, fun h hne => by rw [hother h hne, hunits]⟩
  rw [hparse, nextOff_lt (by rwa [hsize]) (by rwa [hsize]), hsize]

end Machine
end Sys2Proof

namespace Sys2Proof
namespace Machine

/-! ## Sections (R92, R180, R186) -/

theorem Seq.opened_fields (q : Seq) (count : Nat) (id : Option Nat) (skip : Bool) :
    (q.opened count id skip).seamLeft = count ∧ (q.opened count id skip).seamId = id ∧ (q.opened count id skip).skip = skip ∧
      (q.opened count id skip).passBy = false := ⟨rfl, rfl, rfl, rfl⟩

theorem seam_setSeam_same (i : Fin 192) (f : Seam → Seam) (s : State) : seam (setSeam i f s) i = f (seam s i) :=
  Vector.getElem_set_self _

theorem seam_setSeam_other {i j : Fin 192} (f : Seam → Seam) (s : State) (hne : j ≠ i) : seam (setSeam i f s) j = seam s j :=
  Vector.getElem_set_ne i.isLt j.isLt fun e => hne (Fin.ext e.symm)

theorem seam_showSeams (s : State) (i : Fin 192) : seam (showSeams s) i = seam s i := rfl

theorem seam_congr {s t : State} (h : t.seams = s.seams) (i : Fin 192) : seam t i = seam s i := by rw [seam, seam, h]

theorem exec_seamHandover {g : Fin 48} {s : State} (hp : canParse g s = true) (hop : (visibleRaw g s).op = 0x0D) :
    exec (.seamHandover g) s = .next (parseOne g s) :=
  (exec_scanRow (op := 0x0D) (by simp [scanRows]) s).trans (congrArg Host.Outcome.next (parseCode_eq hp hop))

/-- The table entry that a SEAM_HANDOVER opens: the stall owns it where it is the default owner (R180, R182). -/
def openedSeam (g : Fin 48) (r : Raw) : Seam :=
  if r.fl = 1 then ⟨r.w1, 1, g, r.w2 % 256, true, false, 0, r.h⟩ else ⟨r.w1, 1, r.w2 % 256, g, false, true, 0, r.h⟩

/-- The table with a new entry. -/
def seamOpened (g : Fin 48) (r : Raw) (i : Fin 192) (s : State) : State := showSeams (setSeam i (fun _ => openedSeam g r) s)

/-- A section of a new SEAM_ID opens the free entry. -/
theorem registerSeam_new {g : Fin 48} {off : Nat} {r : Raw} {s : State} {i : Fin 192} (hregs : seamRegs g s < 4)
    (hnew : seamIdx r.w1 s = none) (hroom : (pausedFull s).length < seamsFree s) (hfree : seamFree s = some i) :
    registerSeam false g off r s = enterSection g off r.w1 r.h (r.fl == 1) (seamOpened g r i s) := by
  have hentry : (if (r.fl == 1) = true then (⟨r.w1, 1, g, r.w2 % 256, true, false, 0, r.h⟩ : Seam)
      else ⟨r.w1, 1, r.w2 % 256, g, false, true, 0, r.h⟩) = openedSeam g r := by
    simp only [openedSeam, beq_iff_eq]
  unfold registerSeam
  dsimp only
  rw [if_neg (Nat.not_le.2 hregs), hnew]
  dsimp only
  rw [if_pos (.inr hroom), hfree]
  dsimp only
  rw [hentry]
  rfl

section
variable {g : Fin 48} {s : State} (hp : canParse g s = true) (hread : seqReads g (rdN s (R.STALL_PROG_PARSE g)) s = true)
  (hop : (visibleRaw g s).op = 0x0D) (hin : (stall s g).seq.seamLeft = 0 ∨ (stall s g).seq.skip = false)
  (he : progError g s.mvP (stall s g).seq (visibleRaw g s) = 0)
include hp hread hop hin he

theorem completes_seamPassed (hpass : (stall s g).seq.passBy = true) :
    Completes (.seamHandover g) s fun t => (stall t g).seq.seamLeft = (visibleRaw g s).h ∧ (stall t g).seq.skip = true ∧
      (stall t g).seq.passBy = false ∧ t.seams = s.seams := by
  refine ⟨_, (exec_seamHandover hp hop).trans
    (congrArg Host.Outcome.next ((parseOne_seam hread hin he hop).trans (if_pos hpass))), ?_⟩
  obtain ⟨-, hseq, -, hseams, -⟩ := pushItem_fields g (rdN s (R.STALL_PROG_PARSE g)) .nop true
    ((stall s g).seq.opened (visibleRaw g s).h none true) s
  obtain ⟨hleft, -, hskip, hby⟩ := Seq.opened_fields (stall s g).seq (visibleRaw g s).h none true
  rw [← hseq] at hleft hskip hby
  exact ⟨hleft, hskip, hby, hseams⟩

theorem completes_seamRegistered {i : Fin 192} (hpass : (stall s g).seq.passBy = false) (hregs : seamRegs g s < 4)
    (hnew : seamIdx (visibleRaw g s).w1 s = none) (hroom : (pausedFull s).length < seamsFree s) (hfree : seamFree s = some i) :
    Completes (.seamHandover g) s fun t => seam t i = openedSeam g (visibleRaw g s) ∧
      (stall t g).seq.seamLeft = (visibleRaw g s).h ∧ (stall t g).seq.seamId = some (visibleRaw g s).w1 ∧
      (stall t g).seq.skip = decide ((visibleRaw g s).fl ≠ 1) ∧ ∀ j : Fin 192, j ≠ i → seam t j = seam s j := by
  have hby : ¬ (stall s g).seq.passBy = true := by rw [hpass]; exact Bool.false_ne_true
  refine ⟨_, (exec_seamHandover hp hop).trans (congrArg Host.Outcome.next ((parseOne_seam hread hin he hop).trans
    ((if_neg hby).trans (registerSeam_new hregs hnew hroom hfree)))), ?_⟩
  generalize hr : visibleRaw g s = r
  have hin : seam (seamOpened g r i s) i = openedSeam g r := (seam_showSeams ..).trans (seam_setSeam_same ..)
  have hout (j : Fin 192) (hne : j ≠ i) : seam (seamOpened g r i s) j = seam s j :=
    (seam_showSeams ..).trans (seam_setSeam_other _ _ hne)
  generalize seamOpened g r i s = u at hin hout ⊢
  obtain ⟨-, hseq, -, hseams, -⟩ := pushItem_fields g (rdN s (R.STALL_PROG_PARSE g)) (.seam r.w1) false
    ((stall u g).seq.opened r.h (some r.w1) (!(r.fl == 1))) u
  obtain ⟨hleft, hid, hskip, -⟩ := Seq.opened_fields (stall u g).seq r.h (some r.w1) (!(r.fl == 1))
  rw [← hseq] at hleft hid hskip
  refine ⟨(seam_congr hseams i).trans hin, hleft, hid, hskip.trans ?_, fun j hne => (seam_congr hseams j).trans (hout j hne)⟩
  rw [decide_not]
  rfl

end

/-- Settles O23: behind a RESUME the section is passed over, and else it opens the lowest free entry. -/
theorem seamSectionRegistered : Obligations.SeamSectionRegistered := by
  refine ⟨?_, ?_⟩
  · rintro g s r rfl hp hread hop hin hpass he
    exact completes_seamPassed hp hread hop hin he hpass
  · rintro g s r i rfl hp hread hop hpass hin he hregs hnew hroom hfree
    exact completes_seamRegistered hp hread hop hin he hpass hregs hnew hroom hfree

end Machine
end Sys2Proof

namespace Sys2Proof

/-! ## Little-endian bytes (R2) -/

theorem length_leBytes (n v : Nat) : (leBytes n v).length = n := by
  induction n generalizing v with
  | zero => rfl
  | succ n ih => rw [leBytes, List.length_cons, ih]

theorem leNat_leBytes (n v : Nat) : leNat (leBytes n v) = v % 2 ^ (8 * n) := by
  induction n generalizing v with
  | zero => exact (Nat.mod_one v).symm
  | succ n ih => rw [leBytes, leNat, ih, BitVec.toNat_ofNat, Nat.mul_succ, Nat.add_comm (8 * n), Nat.pow_add, Nat.mod_mul]

namespace Machine

theorem memBytes_eq_map (m : Mem) (a n : Nat) : memBytes m a n = (List.range n).map fun i => memGet m (a + i) := by
  induction n generalizing a with
  | zero => rfl
  | succ n ih =>
    simp only [memBytes, ih, List.range_succ_eq_map, List.map_cons, List.map_map, Nat.add_zero]
    exact congrArg _ (List.map_congr_left fun i _ => congrArg (memGet m) (Nat.add_right_comm a 1 i))

/-- A stored number reads back, cut to the bytes it was stored in. -/
theorem memLe_memWrite_leBytes (m : Mem) (a n v : Nat) : memLe (memWrite m a (leBytes n v)) a n = v % 2 ^ (8 * n) := by
  have hbytes : memBytes (memWrite m a (leBytes n v)) a n = leBytes n v := by
    rw [memBytes_eq_map]
    refine List.ext_getElem (by simp [length_leBytes]) fun i _ hi => ?_
    rw [List.getElem_map, List.getElem_range, memGet_memWrite_inside m a _ i hi]
  rw [memLe, hbytes, leNat_leBytes]

theorem loft_loftWrite (st : Fin 6) (off : Nat) (bs : List Byte) (s : State) :
    loft (loftWrite st off bs s) st = memWrite (loft s st) off bs := by
  simp [loft, loftWrite_lofts, vmod]

/-! ## Configuration writes -/

/-- A configuration write that the world check lets through is judged by the value it would leave. -/
theorem cfgWrite_ok {sec : Bool} {o : Nat} {s : State} (h : accessOk sec o s = true) (v : Word) (ok : Nat → State → Bool)
    (refuse : State → State) (apply : Nat → State → State) :
    cfgWrite sec o v ok refuse apply s = if ok (merged o v s) s then apply (merged o v s) s else refuse s :=
  hostWrite_ok h _

/-! ## Trajectory settings at rest (R140) -/

@[simp] theorem rdN_replanIdle (g : Fin 48) (s : State) (o : Nat) : rdN (replanIdle g s) o = rdN s o := by
  unfold replanIdle
  split
  · exact rdN_restIdle g s o
  · rfl

@[simp] theorem get_replanIdle (g : Fin 48) (s : State) (f : Fld) : get (replanIdle g s) f = get s f := by
  rw [Machine.get, rdN_replanIdle]
  rfl

/-- Planning again keeps the slots that a verification still has to read. -/
theorem replanIdle_verify (g : Fin 48) (s : State) : (stall (replanIdle g s) g).verify = (stall s g).verify := by
  unfold replanIdle
  split
  · unfold restIdle replanFromRest
    dsimp only
    rw [stall_setStall_same, stall_setStall_same]
  · rfl

/-- A refusal sets CFG_REFUSED and writes nothing else. -/
theorem trjRefused_fields (g : Nat) (s : State) :
    flag (trjRefused g s) (F.STALL_TRJ_FLAGS_CFG_REFUSED g) = true ∧ (trjRefused g s).stalls = s.stalls ∧
      ∀ p, p ≠ R.STALL_TRJ_FLAGS g → rd (trjRefused g s) p = rd s p :=
  ⟨flag_setF_same _ _ (by decide : 0 + 1 ≤ 32) rfl, rfl, fun _ hp => rd_wr_other _ _ hp.symm⟩

/-! ## Verifications (R129) -/

theorem rdN_startVerify (g : Fin 48) (l : List Nat) (s : State) {o : Nat} (ho : R.STALL_TRJ_STATUS g ≠ o) :
    rdN (startVerify g l s) o = rdN s o :=
  (rdN_put_other _ _ _ ho).trans (rdN_setStall g _ s o)

theorem get_startVerify_state (g : Fin 48) (l : List Nat) (s : State) :
    get (startVerify g l s) (F.STALL_TRJ_STATUS_GRID_STATE g) = 1 := get_put_same _ _ _ (by decide : 0 + 2 ≤ 32)

/-- A verification that begins reads its slots and those that an earlier one has left and the stall still uses. -/
theorem mem_startVerify (g : Fin 48) (l : List Nat) (s : State) (n : Nat) :
    n ∈ (stall (startVerify g l s) g).verify ↔
      (n ∈ (stall s g).verify ∧ n ∈ slotsInUse (rdN s (R.STALL_GRID_SEL g)) (rdN s (R.STALL_TRJ_CTRL g))) ∨ n ∈ l := by
  unfold startVerify
  rw [stall_put, stall_setStall_same]
  simp only [List.mem_eraseDups, List.mem_append, List.mem_filter, List.contains_iff_mem]

/-- Only the low word of GRID_SEL selects slots. -/
theorem slotsInUse_mod (sel ctrl : Nat) : slotsInUse (sel % 2 ^ 32) ctrl = slotsInUse sel ctrl := by
  rw [slotsInUse, bits_mod _ _ _ _ (by decide), bits_mod _ _ _ _ (by decide)]
  rfl

/-! ## Writes of the trajectory registers -/

/-- What an accepted write of a trajectory register does: setting TWO_PLANE verifies the second slot. -/
def trjTaken (g : Fin 48) (a n : Nat) (s : State) : State :=
  let s1 := replanIdle g (wrN s a n)
  if a == R.STALL_TRJ_CTRL g && bit n 1 && !(flag s (F.STALL_TRJ_CTRL_TWO_PLANE g)) then
    startVerify g [get s1 (F.STALL_GRID_SEL_PLANE1_SLOT g)] s1
  else s1

theorem trjConfigWrite_eq {sec : Bool} {g : Fin 48} {o a : Nat} {s : State} (ha : stallBase g + 0x100 + 4 * (o % 16) = a)
    (hsel : a ≠ R.STALL_GRID_SEL g) (h : accessOk sec a s = true) (v : Word) :
    trjConfigWrite sec g o v s =
      if trjOk g a (merged a v s) s then trjTaken g a (merged a v s) s else trjRefused g s := by
  rw [trjConfigWrite, ha, if_neg hsel, cfgWrite_ok h]
  rfl

/-- An accepted write changes its own register and at most TRJ_STATUS beside it. -/
theorem rdN_trjTaken (g : Fin 48) (a n : Nat) (s : State) {o : Nat} (ho : R.STALL_TRJ_STATUS g ≠ o) :
    rdN (trjTaken g a n s) o = rdN (wrN s a n) o := by
  unfold trjTaken
  dsimp only
  split
  · rw [rdN_startVerify g _ _ ho, rdN_replanIdle]
  · exact rdN_replanIdle g _ o

theorem stSt_trjTaken {g : Fin 48} {a : Nat} (ha : a ≠ R.STALL_STATE g) (n : Nat) (s : State) :
    stSt g (trjTaken g a n s) = stSt g s := by
  have hstatus : R.STALL_TRJ_STATUS g ≠ (F.STALL_STATE_STATE g).off := stallReg_ne g (by decide)
  rw [stSt, Machine.get, rdN_trjTaken g a n s hstatus]
  exact get_wrN_other s (F.STALL_STATE_STATE g) n ha

theorem completes_trjConfigWrite {sec : Bool} {g : Fin 48} {o a : Nat} {s : State}
    (ha : stallBase g + 0x100 + 4 * (o % 16) = a) (hsel : a ≠ R.STALL_GRID_SEL g) (h : accessOk sec a s = true) (v : Word) :
    Completes (.trjConfigWrite sec g o v) s fun t =>
      if trjOk g a (merged a v s) s then Takes a v s t ∧ stSt g t = stSt g s
      else flag t (F.STALL_TRJ_FLAGS_CFG_REFUSED g) = true ∧ t.stalls = s.stalls ∧
        ∀ p, p ≠ R.STALL_TRJ_FLAGS g → rd t p = rd s p := by
  refine ⟨_, congrArg Host.Outcome.next (trjConfigWrite_eq ha hsel h v), ?_⟩
  beta_reduce
  by_cases hok : trjOk g a (merged a v s) s = true
  · have hstatus : R.STALL_TRJ_STATUS g ≠ a := by simp only [← ha, R.STALL_TRJ_STATUS]; omega
    have hstate : a ≠ R.STALL_STATE g := by simp only [← ha, R.STALL_STATE]; omega
    rw [if_pos hok, if_pos hok]
    constructor
    · exact (rd_eq_of_rdN (rdN_trjTaken g a _ s hstatus)).trans (rd_wr_same _ _ _)
    · exact stSt_trjTaken hstate _ s
  · rw [if_neg hok, if_neg hok]
    exact trjRefused_fields g s

/-- What an accepted write of GRID_SEL does: the slots in use are verified. -/
def gridSelTaken (g : Fin 48) (n : Nat) (s : State) : State :=
  startVerify g (slotsInUse n (rdN s (R.STALL_TRJ_CTRL g))) (replanIdle g (wrN s (R.STALL_GRID_SEL g) n))

theorem gridSelWrite_eq {sec : Bool} {g : Fin 48} {s : State} (h : accessOk sec (R.STALL_GRID_SEL g) s = true) (v : Word) :
    gridSelWrite sec g v s =
      if stSt g s ≤ ssIDLE then gridSelTaken g (merged (R.STALL_GRID_SEL g) v s) s else trjRefused g s := by
  rw [gridSelWrite, cfgWrite_ok h]
  simp only [idleOrOff, decide_eq_true_eq]
  rfl

theorem rd_gridSelTaken (g : Fin 48) (n : Nat) (s : State) :
    rd (gridSelTaken g n s) (R.STALL_GRID_SEL g) = BitVec.ofNat 32 n := by
  have hstatus : R.STALL_TRJ_STATUS g ≠ R.STALL_GRID_SEL g := stallReg_ne g (by decide)
  exact (rd_eq_of_rdN ((rdN_startVerify g _ _ hstatus).trans (rdN_replanIdle ..))).trans (rd_wr_same _ _ _)

/-- The verification reads exactly the slots in use: what an earlier one has left counts only where it is among them. -/
theorem mem_gridSelTaken (g : Fin 48) (n : Nat) (s : State) (k : Nat) :
    k ∈ (stall (gridSelTaken g n s) g).verify ↔ k ∈ slotsInUse n (rdN s (R.STALL_TRJ_CTRL g)) := by
  have hctrl : R.STALL_GRID_SEL g ≠ R.STALL_TRJ_CTRL g := stallReg_ne g (by decide)
  rw [gridSelTaken, mem_startVerify, rdN_replanIdle, rdN_replanIdle, rdN_wrN_same, rdN_wrN_other _ _ hctrl, slotsInUse_mod]
  exact or_iff_right_of_imp And.right

theorem completes_gridSelWrite {sec : Bool} {g : Fin 48} {s : State} (h : accessOk sec (R.STALL_GRID_SEL g) s = true)
    (v : Word) :
    Completes (.gridSelWrite sec g v) s fun t =>
      if stSt g s ≤ ssIDLE then Takes (R.STALL_GRID_SEL g) v s t ∧ get t (F.STALL_TRJ_STATUS_GRID_STATE g) = 1 ∧
        ∀ n, n ∈ (stall t g).verify ↔ n ∈ slotsInUse (merged (R.STALL_GRID_SEL g) v s) (rdN s (R.STALL_TRJ_CTRL g))
      else flag t (F.STALL_TRJ_FLAGS_CFG_REFUSED g) = true ∧ t.stalls = s.stalls ∧
        rd t (R.STALL_GRID_SEL g) = rd s (R.STALL_GRID_SEL g) := by
  refine ⟨_, congrArg Host.Outcome.next (gridSelWrite_eq h v), ?_⟩
  beta_reduce
  by_cases hrest : stSt g s ≤ ssIDLE
  · rw [if_pos hrest, if_pos hrest]
    exact ⟨rd_gridSelTaken g _ s, get_startVerify_state g _ _, mem_gridSelTaken g _ s⟩
  · obtain ⟨hflag, hstalls, hregs⟩ := trjRefused_fields g s
    rw [if_neg hrest, if_neg hrest]
    exact ⟨hflag, hstalls, hregs _ (stallReg_ne g (by decide))⟩

/-! ## The end of a verification (R129) -/

/-- The result of a verification stands in GRID_STATE, and no slot is left to read. -/
def verified (g : Fin 48) (state : Nat) (s : State) : State :=
  put (setStall g (fun x => { x with verify := [] }) s) (F.STALL_TRJ_STATUS_GRID_STATE g) state

theorem verified_fields (g : Fin 48) (state : Nat) (s : State) :
    (stall (verified g state s) g).verify = [] ∧
      get (verified g state s) (F.STALL_TRJ_STATUS_GRID_STATE g) = state % 2 ^ 2 :=
  ⟨by rw [verified, stall_put, stall_setStall_same], get_put_same _ _ _ (by decide : 0 + 2 ≤ 32)⟩

theorem gridVerification_eq {g : Fin 48} {s : State} (h : get s (F.STALL_TRJ_STATUS_GRID_STATE g) = 1) :
    gridVerification g s =
      if (stall s g).verify.all (fun n => gridGood (stableOf g) n s) then replanIdle g (verified g 2 s)
      else raise (stableEv (g / 8) 3) (verified g 3 s) := by
  rw [gridVerification, if_pos h]
  extract_lets good s1
  have hs1 : s1 = verified g (if good then 2 else 3) s := rfl
  by_cases hgood : good = true
  · rw [if_pos hgood, if_pos hgood, hs1, if_pos hgood]
  · rw [if_neg hgood, if_neg hgood, hs1, if_neg hgood]

theorem completes_gridVerification {g : Fin 48} {s : State} (h : get s (F.STALL_TRJ_STATUS_GRID_STATE g) = 1) :
    Completes (.gridVerification g) s fun t => (stall t g).verify = [] ∧
      if (stall s g).verify.all (fun n => gridGood (stableOf g) n s) then get t (F.STALL_TRJ_STATUS_GRID_STATE g) = 2
      else get t (F.STALL_TRJ_STATUS_GRID_STATE g) = 3 ∧ flag t (pendBit (stableEv (g.val / 8) 3)) = true := by
  refine ⟨_, congrArg Host.Outcome.next (gridVerification_eq h), ?_⟩
  beta_reduce
  by_cases hgood : (stall s g).verify.all (fun n => gridGood (stableOf g) n s) = true
  · obtain ⟨hnone, hstate⟩ := verified_fields g 2 s
    rw [if_pos hgood, if_pos hgood]
    exact ⟨(replanIdle_verify g _).trans hnone, (get_replanIdle g _ _).trans hstate⟩
  · obtain ⟨hnone, hstate⟩ := verified_fields g 3 s
    have hev : stableEv (g / 8) 3 < 512 := stableEv_lt g (by decide)
    rw [if_neg hgood, if_neg hgood]
    exact ⟨(congrArg Stall.verify (stall_raise _ _ g)).trans hnone,
      (get_raise hev _ (eventReg_stall g 0x140)).trans hstate, flag_raise_same hev _⟩

/-! ## Writes through the grid window (R129) -/

/-- A window write of a grid slot. -/
theorem gridWindowWrite_slot {sec : Bool} {st : Fin 6} {w : Nat} {s : State} (hw : w < 0xD000) (h4 : w % 4 = 0)
    (h : accessOk sec (0x290000 + 0x100000 * st.val + w) s = true) (hslot : get s (F.STB_GRID_WIN_SEL_TARGET st) < 16)
    (v : Word) :
    gridWindowWrite sec st w v s =
      if slotLocked st (get s (F.STB_GRID_WIN_SEL_TARGET st)) s then setF s (F.STB_GRID_WIN_STATUS_REFUSED st)
      else windowWrite sec (0x290000 + 0x100000 * st.val + w) st (0xD000 * get s (F.STB_GRID_WIN_SEL_TARGET st) + w) v s := by
  have hword : w % 0x10000 / 4 * 4 = w := by omega
  rw [gridWindowWrite, hword, hostWrite_ok h, if_pos hslot, if_neg (by omega)]

/-- A window write that the Region Table lets through stores its word and writes no register. -/
theorem windowWrite_fields {sec : Bool} {st : Fin 6} {off : Nat} {s : State} (h : rangeOk sec (loftAddr st off) 4 s = true)
    (o : Nat) (v : Word) :
    (windowWrite sec o st off v s).regs = s.regs ∧ memLe (loft (windowWrite sec o st off v s) st) off 4 = v.toNat := by
  obtain ⟨hregs, -⟩ := loftWrite_frame st off (leBytes 4 v.toNat) s
  rw [windowWrite, if_pos h, loft_loftWrite, memLe_memWrite_leBytes]
  exact ⟨hregs, Nat.mod_eq_of_lt v.isLt⟩

/-- Settles O34: each write is its judgement followed by what it takes or a refusal, and planning again writes no register. -/
theorem gridsAndPlanner : Obligations.GridsAndPlanner := by
  refine ⟨fun sec g o v s hsel h => completes_trjConfigWrite rfl hsel h v, fun sec g v s h => completes_gridSelWrite h v,
    fun g s h => completes_gridVerification h, ?_⟩
  refine fun sec st w v s hw h4 h hslot => ⟨fun hlock => ?_, fun hopen hrange => ?_⟩
  · refine ⟨_, congrArg Host.Outcome.next ((gridWindowWrite_slot hw h4 h hslot v).trans (if_pos hlock)), ?_, rfl⟩
    exact flag_setF_same _ _ (Nat.le_of_ble_eq_true rfl) rfl
  · have hfree : ¬ slotLocked st (get s (F.STB_GRID_WIN_SEL_TARGET st)) s = true := by rw [hopen]; exact Bool.false_ne_true
    exact ⟨_, congrArg Host.Outcome.next ((gridWindowWrite_slot hw h4 h hslot v).trans (if_neg hfree)),
      windowWrite_fields hrange _ v⟩

end Machine
end Sys2Proof

namespace Sys2Proof

/-! ## Setting and clearing one bit of a mask -/

theorem bit_add_two_pow (x i : Nat) : bit (x + 2 ^ i) i = !bit x i := by
  rw [bit_eq_testBit, bit_eq_testBit, Nat.add_comm, Nat.testBit_two_pow_add_eq]

theorem bit_sub_two_pow {x i : Nat} (h : bit x i = true) : bit (x - 2 ^ i) i = false := by
  have hle : 2 ^ i ≤ x := Nat.ge_two_pow_of_testBit (by rwa [← bit_eq_testBit])
  have hadd := bit_add_two_pow (x - 2 ^ i) i
  rwa [Nat.sub_add_cancel hle, h, Bool.true_eq, Bool.not_eq_true'] at hadd

theorem bit_two_pow_self (i : Nat) : bit (2 ^ i) i = true := by rw [bit_eq_testBit, Nat.testBit_two_pow_self]

namespace Machine

/-! ## Gate and power settings (R146, R151) -/

/-- Telling the pairs' levels only sends. -/
theorem tellPairs_shape (old s : State) : ∃ u, tellPairs old s = { s with out := u } := by
  refine forAll_keeps (fun t : State => ∃ u, t = { s with out := u }) _ ⟨s.out, rfl⟩ fun g t ht => ?_
  split
  · exact ht
  · obtain ⟨u, rfl⟩ := ht
    exact ⟨_, rfl⟩

@[simp] theorem tellPairs_regs (old s : State) : (tellPairs old s).regs = s.regs := by
  obtain ⟨_, h⟩ := tellPairs_shape old s; rw [h]
@[simp] theorem tellPairs_stalls (old s : State) : (tellPairs old s).stalls = s.stalls := by
  obtain ⟨_, h⟩ := tellPairs_shape old s; rw [h]
@[simp] theorem tellPairs_forced (old s : State) : (tellPairs old s).forced = s.forced := by
  obtain ⟨_, h⟩ := tellPairs_shape old s; rw [h]
@[simp] theorem tellPairs_relSince (old s : State) : (tellPairs old s).relSince = s.relSince := by
  obtain ⟨_, h⟩ := tellPairs_shape old s; rw [h]
@[simp] theorem tellPairs_relTick (old s : State) : (tellPairs old s).relTick = s.relTick := by
  obtain ⟨_, h⟩ := tellPairs_shape old s; rw [h]

theorem rdN_congr {s t : State} (h : t.regs = s.regs) (o : Nat) : rdN t o = rdN s o := by rw [rdN, rdN, rd, rd, h]

theorem rdN_tellPairs (old s : State) (o : Nat) : rdN (tellPairs old s) o = rdN s o := rdN_congr (tellPairs_regs old s) o

theorem outFlag_writes (g : Fin 48) {f : Fld} (hf : f.off = R.STALL_OUT_FLAGS g) (s : State) :
    OnlyWrites (fun o => eventReg o || o == R.STALL_OUT_FLAGS g) s (outFlag f g s) :=
  .raiseOnSet (.refl s) (stallEv_lt g (by decide)) (by simp [hf]) fun o ho => by rw [ho, Bool.true_or]

theorem rdN_outFlag (g : Fin 48) {f : Fld} (hf : f.off = R.STALL_OUT_FLAGS g) (s : State) {k : Nat} (hk : k ≠ 0x218) :
    rdN (outFlag f g s) (stallBase g + k) = rdN s (stallBase g + k) := by
  refine outFlag_writes g hf s _ ?_
  beta_reduce
  rw [eventReg_stall, Bool.false_or, beq_eq_false_iff_ne]
  exact stallReg_ne g hk

theorem flag_outFlag_same (g : Fin 48) {f : Fld} (hf : f.off = R.STALL_OUT_FLAGS g) (hlo : f.lo + f.w ≤ 32) (hw : f.w = 1)
    (s : State) : flag (outFlag f g s) f = true := by
  unfold outFlag raiseOnSet
  split
  next h => exact h
  · rw [flag_raise (stallEv_lt g (by decide)) _ (by rw [hf]; exact eventReg_stall g 0x218)]
    exact flag_setF_same s f hlo hw

/-- A refused setting keeps its register and is told in CFG_REFUSED. -/
theorem outRefused_fields (g : Fin 48) (s : State) {k : Nat} (hk : k ≠ 0x218) :
    rd (outRefused g s) (stallBase g + k) = rd s (stallBase g + k) ∧
      flag (outRefused g s) (F.STALL_OUT_FLAGS_CFG_REFUSED g) = true :=
  ⟨rd_eq_of_rdN (rdN_outFlag g rfl s hk), flag_outFlag_same g rfl (by decide : 5 + 1 ≤ 32) rfl s⟩

theorem completes_gateCfgWrite {sec : Bool} {g : Fin 48} {s : State} (h : accessOk sec (R.STALL_GATE_CFG g) s = true)
    (v : Word) :
    Completes (.gateCfgWrite sec g v) s fun t => if stSt g s = ssOFFLINE then Takes (R.STALL_GATE_CFG g) v s t
      else rd t (R.STALL_GATE_CFG g) = rd s (R.STALL_GATE_CFG g) ∧ flag t (F.STALL_OUT_FLAGS_CFG_REFUSED g) = true := by
  refine ⟨_, congrArg (fun t => Host.Outcome.next (tellPairs s t)) (cfgWrite_ok h v _ _ _), ?_⟩
  have htold (t : State) (o : Nat) : rd (tellPairs s t) o = rd t o := rd_eq_of_rdN (rdN_tellPairs s t o)
  simp only [beq_iff_eq]
  by_cases hoff : stSt g s = ssOFFLINE
  · rw [if_pos hoff, if_pos hoff]
    exact (htold _ _).trans (rd_wr_same _ _ _)
  · obtain ⟨hkept, hflag⟩ := outRefused_fields g s (by decide : 0x200 ≠ 0x218)
    rw [if_neg hoff, if_neg hoff]
    exact ⟨(htold _ _).trans hkept, (flag_eq_of_rdN (rdN_tellPairs ..)).trans hflag⟩

theorem completes_outputConfigWrite {sec : Bool} {g : Fin 48} {r : Fin 3} {s : State}
    (h : accessOk sec (R.STALL_PWR_GAIN g + 4 * r.val) s = true) (v : Word) :
    Completes (.outputConfigWrite sec g r v) s fun t =>
      if stSt g s ≤ ssIDLE then Takes (R.STALL_PWR_GAIN g + 4 * r.val) v s t
      else rd t (R.STALL_PWR_GAIN g + 4 * r.val) = rd s (R.STALL_PWR_GAIN g + 4 * r.val) ∧
        flag t (F.STALL_OUT_FLAGS_CFG_REFUSED g) = true := by
  refine ⟨_, congrArg Host.Outcome.next (cfgWrite_ok h v _ _ _), ?_⟩
  simp only [idleOrOff, decide_eq_true_eq]
  by_cases hrest : stSt g s ≤ ssIDLE
  · rw [if_pos hrest, if_pos hrest]
    exact rd_wr_same _ _ _
  · have hoff : R.STALL_PWR_GAIN g + 4 * r.val = stallBase g + (0x208 + 4 * r.val) := Nat.add_assoc ..
    rw [if_neg hrest, if_neg hrest, hoff]
    exact outRefused_fields g s (by omega)

/-! ## The gate trim (R147) -/

theorem far_setFar_same (u : Fin 60) (f : FarUnit → FarUnit) (s : State) : far u (setFar u f s) = f (far u s) :=
  Vector.getElem_set_self _

theorem rd_setFar (u : Fin 60) (f : FarUnit → FarUnit) (s : State) (o : Nat) : rd (setFar u f s) o = rd s o := rfl

theorem rd_hostTrim (g : Fin 48) (n : Nat) (s : State) (o : Nat) :
    rd (hostTrim g n s) o = rd (wrN s (R.STALL_GATE_TRIM g) n) o := rd_setFar ..

theorem completes_gateTrimWrite {sec : Bool} {g : Fin 48} {s : State} (h : accessOk sec (R.STALL_GATE_TRIM g) s = true)
    (v : Word) :
    Completes (.gateTrimWrite sec g v) s fun t => Takes (R.STALL_GATE_TRIM g) v s t ∧ (far (stallUnit g) t).own = false ∧
      ∀ p, p ≠ R.STALL_GATE_TRIM g → rd t p = rd s p := by
  refine ⟨_, congrArg Host.Outcome.next (cfgWrite_ok h v (fun _ _ => true) id (hostTrim g)), ?_, ?_, fun p hp => ?_⟩
  · exact (rd_hostTrim g _ s _).trans (rd_wr_same _ _ _)
  · rw [if_pos rfl, hostTrim, far_setFar_same]
  · exact (rd_hostTrim g _ s p).trans (rd_wr_other _ _ hp.symm)

/-- Dropping a stall's collection leaves the stall's registers. -/
theorem get_farEmpty_stall (g : Fin 48) (s : State) {f : Fld} {k : Nat} (hf : f.off = stallBase g + k) :
    get (farEmpty g s) f = get s f := by
  refine get_put_other _ _ _ _ ?_
  have := stallBase_ge g
  simp only [hf, F.FAR_STALL_INFO_COLLECTED, R.FAR_STALL_INFO]
  omega

/-- IN_USE shows the trim. -/
def trimShown (g : Fin 48) (s : State) : State := put s (F.STALL_GATE_TRIM_IN_USE g) (get s (F.STALL_GATE_TRIM_TRIM g))

theorem trimShown_fields (g : Fin 48) (s : State) :
    get (trimShown g s) (F.STALL_GATE_TRIM_IN_USE g) = get s (F.STALL_GATE_TRIM_TRIM g) ∧
      get (trimShown g s) (F.STALL_GATE_TRIM_TRIM g) = get s (F.STALL_GATE_TRIM_TRIM g) :=
  ⟨(get_put_same _ _ _ (by decide : 16 + 12 ≤ 32)).trans (Nat.mod_eq_of_lt (get_lt s (F.STALL_GATE_TRIM_TRIM g))),
    get_put_disjoint _ _ _ _ (by decide : 16 + 12 ≤ 32) (.inr (by decide : 0 + 12 ≤ 16))⟩

theorem completes_trimApplied {g : Fin 48} {s : State} (h : stSt g s ≠ ssRUN ∨ trimFree g s = true) :
    Completes (.trimApplied g) s fun t => get t (F.STALL_GATE_TRIM_IN_USE g) = get s (F.STALL_GATE_TRIM_TRIM g) ∧
      get t (F.STALL_GATE_TRIM_TRIM g) = get s (F.STALL_GATE_TRIM_TRIM g) := by
  by_cases hsame : get s (F.STALL_GATE_TRIM_IN_USE g) = get s (F.STALL_GATE_TRIM_TRIM g)
  · exact ⟨s, congrArg Host.Outcome.next (if_neg fun hc => hc.2 hsame), hsame, rfl⟩
  · refine ⟨_, congrArg Host.Outcome.next (if_pos ⟨h, hsame⟩), ?_⟩
    split
    · exact trimShown_fields g s
    · rw [get_farEmpty_stall g _ rfl, get_farEmpty_stall g _ rfl]
      exact trimShown_fields g s

theorem exec_trimApplied_waiting {g : Fin 48} {s : State} (hrun : stSt g s = ssRUN) (hbusy : trimFree g s = false) :
    exec (.trimApplied g) s = .next s :=
  congrArg Host.Outcome.next (if_neg (by simp [hrun, hbusy]))

/-- Settles O35: a write is judged by the stall's state, and a trim is shown where no edge can be moved by it. -/
theorem gateSettings : Obligations.GateSettings :=
  ⟨fun _ _ v _ h => completes_gateCfgWrite h v, fun _ _ _ v _ h => completes_outputConfigWrite h v,
    fun _ _ v _ h => completes_gateTrimWrite h v, fun _ _ h => completes_trimApplied h,
    fun _ _ hrun hbusy => exec_trimApplied_waiting hrun hbusy⟩

end Machine
end Sys2Proof

namespace Sys2Proof
namespace Machine

/-! ## A source of inhibit becomes active (R157, R158) -/

/-- What the stalls show of their outputs. -/
def outStatusReg (o : Nat) : Bool := decide (0x200000 ≤ o) && o % 0x10000 == 0x214

/-- The registers that a source of inhibit writes. -/
def inhibitReg (o : Nat) : Bool := o == R.YRD_LSAFE_STATUS || outStatusReg o

theorem outStatusReg_stall (g : Nat) {k : Nat} (hk : k < 0x10000) : outStatusReg (stallBase g + k) = (k == 0x214) := by
  have hb := stallBase_ge g
  have hmod : (stallBase g + k) % 0x10000 = k := by unfold stallBase; omega
  rw [outStatusReg, hmod, decide_eq_true (by omega), Bool.true_and]

theorem inhibitReg_stall (g : Nat) {k : Nat} (hk : k < 0x10000) (hne : k ≠ 0x214) : inhibitReg (stallBase g + k) = false := by
  have hb := stallBase_ge g
  rw [inhibitReg, outStatusReg_stall g hk, beq_eq_false_iff_ne.2 hne, Bool.or_false, beq_eq_false_iff_ne, R.YRD_LSAFE_STATUS]
  omega

theorem inhibitReg_below {o : Nat} (h : o < 0x200000) (hne : R.YRD_LSAFE_STATUS ≠ o) : inhibitReg o = false := by
  rw [inhibitReg, outStatusReg, beq_eq_false_iff_ne.2 hne.symm, decide_eq_false (by omega), Bool.false_and, Bool.false_or]

/-- The release wait is dropped. -/
def waitDropped (s : State) : State := { s with relSince := none }

/-- A new source as LSAFE_STATUS and its lifetime counter show it. -/
def sourceShown (i : Nat) (s : State) : State :=
  let s1 := waitDropped (put s F.YRD_LSAFE_STATUS_SOURCES (get s F.YRD_LSAFE_STATUS_SOURCES + 2 ^ i))
  lifeAdd (clrF (clrF s1 F.YRD_LSAFE_STATUS_RELEASE_WAIT) F.YRD_LSAFE_STATUS_OK) (lifeNo 5 5 i) 1

/-- The gates count as forced off from now on. -/
def forcedNow (s : State) : State := { s with forced := true, inhNew := true, inhSince := s.beam }

/-- The stalls note how far their outputs have come, and go idle. -/
def stallsForced (s : State) : State := forAll 48 idleSamples (forAll 48 noteForced s)

/-- The gates forced off from now on, and their pairs told. -/
def gatesForced (old s : State) : State := tellPairs old (stallsForced (forcedNow s))

theorem inhibitOn_new {i : Nat} {s : State} (h : bit (get s F.YRD_LSAFE_STATUS_SOURCES) i = false) :
    inhibitOn i s = if s.forced then sourceShown i s else gatesForced s (sourceShown i s) :=
  if_neg (by rw [h]; exact Bool.false_ne_true)

theorem sourceShown_writes (i : Nat) (s : State) : OnlyWrites (· == R.YRD_LSAFE_STATUS) s (sourceShown i s) := by
  unfold sourceShown
  extract_lets s1
  have h1 : OnlyWrites (· == R.YRD_LSAFE_STATUS) s s1 := .regs (.put (.refl s) _ rfl) rfl
  exact .lifeAdd (.put (.put h1 0 rfl) 0 rfl) _ _

theorem lsafeIn_fits (b : Bool) : (lsafeIn b).off = R.YRD_LSAFE_STATUS ∧ (lsafeIn b).w = 1 ∧ (lsafeIn b).lo < 2 := by
  cases b <;> decide

theorem flag_put_lsafeIn {f : Fld} (hf : f.lo + f.w ≤ 32) (hlo : 2 ≤ f.lo) (s : State) (v : Nat) (b : Bool) :
    flag (put s f v) (lsafeIn b) = flag s (lsafeIn b) := by
  obtain ⟨-, hw, hl⟩ := lsafeIn_fits b
  exact flag_put_disjoint _ _ _ _ hf (.inr (by omega))

@[simp] theorem get_waitDropped (s : State) (f : Fld) : get (waitDropped s) f = get s f := rfl

/-- A source shown sets its bit, clears OK and RELEASE_WAIT, and leaves the inputs. -/
theorem sourceShown_fields {i : Nat} (hi : i < 9) {s : State} (h : bit (get s F.YRD_LSAFE_STATUS_SOURCES) i = false) :
    bit (get (sourceShown i s) F.YRD_LSAFE_STATUS_SOURCES) i = true ∧ flag (sourceShown i s) F.YRD_LSAFE_STATUS_OK = false ∧
      flag (sourceShown i s) F.YRD_LSAFE_STATUS_RELEASE_WAIT = false ∧
      ∀ b, flag (sourceShown i s) (lsafeIn b) = flag s (lsafeIn b) := by
  have hlife (f : Fld) (t : State) : flag (lifeAdd t (lifeNo 5 5 i) 1) f = flag t f := rfl
  have hdrop (f : Fld) (t : State) : flag (waitDropped t) f = flag t f := rfl
  unfold sourceShown
  refine ⟨?_, ?_, ?_, fun b => ?_⟩
  · rw [get_lifeAdd, clrF, get_put_disjoint _ _ _ _ (by decide) (by decide), clrF,
      get_put_disjoint _ _ _ _ (by decide) (by decide), get_waitDropped, get_put_same _ _ _ (by decide)]
    exact (bit_mod _ hi).trans (by rw [bit_add_two_pow, h]; rfl)
  · rw [hlife, flag_clrF_same _ _ (by decide)]
  · rw [hlife, clrF, flag_put_disjoint _ _ _ _ (by decide) (by decide), flag_clrF_same _ _ (by decide)]
  · rw [hlife, clrF, flag_put_lsafeIn (by decide) (by decide), clrF, flag_put_lsafeIn (by decide) (by decide), hdrop,
      flag_put_lsafeIn (by decide) (by decide)]

/-- A change of one stall that asks for no fault. -/
theorem faultNew_setStall {f : Stall → Stall} (hf : ∀ x, (f x).faultNew = x.faultNew) (i g : Fin 48) (s : State) :
    (stall (setStall i f s) g).faultNew = (stall s g).faultNew := by
  obtain rfl | hne := eq_or_ne g i
  · rw [stall_setStall_same, hf]
  · rw [stall_setStall_other _ _ hne]

theorem noteForced_shape (g : Fin 48) (s : State) : ∃ v, noteForced g s = { s with stalls := v } := ⟨_, rfl⟩

theorem idleSamples_shape (g : Fin 48) (s : State) : ∃ r v, idleSamples g s = { s with regs := r, stalls := v } := ⟨_, _, rfl⟩

/-- What every visit of a stall keeps holds after the visits of all. -/
theorem stallsForced_keeps (P : State → Prop) {s : State} (h : P s) (hnote : ∀ i t, P t → P (noteForced i t))
    (hidle : ∀ i t, P t → P (idleSamples i t)) : P (stallsForced s) :=
  forAll_keeps P _ (forAll_keeps P _ h hnote) hidle

theorem gatesForced_fields (old s : State) :
    (gatesForced old s).forced = true ∧ (gatesForced old s).relSince = s.relSince := by
  rw [gatesForced, tellPairs_forced, tellPairs_relSince]
  refine stallsForced_keeps (fun t => t.forced = true ∧ t.relSince = s.relSince) ⟨rfl, rfl⟩ (fun i t h => ?_) fun i t h => ?_
  · obtain ⟨v, hshape⟩ := noteForced_shape i t
    rwa [hshape]
  · obtain ⟨r, v, hshape⟩ := idleSamples_shape i t
    rwa [hshape]

theorem gatesForced_writes (old s : State) : OnlyWrites outStatusReg s (gatesForced old s) := by
  have hstalls : OnlyWrites outStatusReg s (stallsForced (forcedNow s)) :=
    stallsForced_keeps (OnlyWrites outStatusReg s) (.regs (.refl s) rfl) (fun i _ h => h.setStall i _)
      fun i _ h => .put (h.setStall i _) _ (outStatusReg_stall i (by decide))
  exact hstalls.regs (tellPairs_regs old _)

/-- Forcing the gates off asks for no fault. -/
theorem gatesForced_faultNew (old s : State) (g : Fin 48) :
    (stall (gatesForced old s) g).faultNew = (stall s g).faultNew := by
  rw [gatesForced, stall_congr (tellPairs_stalls ..)]
  refine stallsForced_keeps (fun t => (stall t g).faultNew = (stall s g).faultNew) rfl (fun i t h => ?_) fun i t h => ?_
  · refine (faultNew_setStall ?_ i g t).trans h
    exact fun _ => rfl
  · rw [idleSamples, stall_put]
    refine (faultNew_setStall ?_ i g t).trans h
    exact fun _ => rfl

theorem inhibitOn_active {i : Nat} {s : State} (h : bit (get s F.YRD_LSAFE_STATUS_SOURCES) i = true) :
    inhibitOn i s = s := if_pos h

theorem inhibitOn_writes (i : Nat) (s : State) : OnlyWrites inhibitReg s (inhibitOn i s) := by
  have hshown : OnlyWrites inhibitReg s (sourceShown i s) :=
    (sourceShown_writes i s).mono fun o ho => by rw [inhibitReg, ho, Bool.true_or]
  cases h : bit (get s F.YRD_LSAFE_STATUS_SOURCES) i with
  | true => rw [inhibitOn_active h]; exact .refl s
  | false =>
    rw [inhibitOn_new h]
    exact .ite hshown (hshown.trans ((gatesForced_writes s _).mono fun o ho => by rw [inhibitReg, ho, Bool.or_true]))

theorem inhibitOn_faultNew (i : Nat) (s : State) (g : Fin 48) :
    (stall (inhibitOn i s) g).faultNew = (stall s g).faultNew := by
  cases h : bit (get s F.YRD_LSAFE_STATUS_SOURCES) i with
  | true => rw [inhibitOn_active h]
  | false =>
    rw [inhibitOn_new h]
    split
    · rfl
    · exact gatesForced_faultNew s _ g

/-- A source that becomes active forces the gates off and leaves the inputs as they are. -/
theorem inhibitOn_inhibits {i : Nat} (hi : i < 9) {s : State} (h : bit (get s F.YRD_LSAFE_STATUS_SOURCES) i = false) :
    Inhibits i (inhibitOn i s) ∧ ∀ b, flag (inhibitOn i s) (lsafeIn b) = flag s (lsafeIn b) := by
  obtain ⟨hsource, hok, hwait, hin⟩ := sourceShown_fields hi h
  obtain ⟨hforced, hrel⟩ := gatesForced_fields s (sourceShown i s)
  have hw := gatesForced_writes s (sourceShown i s)
  have hstatus : outStatusReg R.YRD_LSAFE_STATUS = false := rfl
  rw [inhibitOn_new h]
  split
  next hf => exact ⟨⟨hsource, hf, hok, hwait, rfl⟩, hin⟩
  next =>
    refine ⟨⟨?_, hforced, (hw.flag_eq hstatus).trans hok, (hw.flag_eq hstatus).trans hwait, hrel⟩, fun b => ?_⟩
    · rw [hw.get_eq hstatus, hsource]
    · obtain ⟨hoff, -⟩ := lsafeIn_fits b
      exact (hw.flag_eq (by rw [hoff, hstatus])).trans (hin b)

/-! ## A source of inhibit ends (R161) -/

theorem inhibitOff_inactive {i : Nat} {s : State} (h : bit (get s F.YRD_LSAFE_STATUS_SOURCES) i = false) :
    inhibitOff i s = s :=
  if_pos (by rw [h]; exact Bool.false_ne_true)

/-- One source of several ends. -/
def sourceEnded (i : Nat) (s : State) : State :=
  put s F.YRD_LSAFE_STATUS_SOURCES (get s F.YRD_LSAFE_STATUS_SOURCES - 2 ^ i)

/-- The release wait begins. -/
def releaseBegun (s : State) : State := setF { s with relSince := some s.beam } F.YRD_LSAFE_STATUS_RELEASE_WAIT

theorem inhibitOff_ends {i : Nat} {s : State} (h : bit (get s F.YRD_LSAFE_STATUS_SOURCES) i = true) :
    inhibitOff i s = if get s F.YRD_LSAFE_STATUS_SOURCES = 2 ^ i then releaseBegun (sourceEnded i s) else sourceEnded i s :=
  if_neg (not_not_intro h)

/-- The end of a source writes LSAFE_STATUS and the start of the release wait only. -/
theorem inhibitOff_shape (i : Nat) (s : State) :
    ∃ r x, inhibitOff i s = { s with regs := r, relSince := x } ∧
      OnlyWrites (· == R.YRD_LSAFE_STATUS) s (inhibitOff i s) := by
  have hended : OnlyWrites (· == R.YRD_LSAFE_STATUS) s (sourceEnded i s) := .put (.refl s) _ rfl
  cases h : bit (get s F.YRD_LSAFE_STATUS_SOURCES) i with
  | false => exact ⟨s.regs, s.relSince, inhibitOff_inactive h, by rw [inhibitOff_inactive h]; exact .refl s⟩
  | true =>
    rw [inhibitOff_ends h]
    split
    · exact ⟨_, _, rfl, .put (.regs hended rfl) 1 rfl⟩
    · exact ⟨_, _, rfl, hended⟩

theorem get_sourceEnded (i : Nat) (s : State) :
    get (sourceEnded i s) F.YRD_LSAFE_STATUS_SOURCES = get s F.YRD_LSAFE_STATUS_SOURCES - 2 ^ i := by
  have hlt := get_lt s F.YRD_LSAFE_STATUS_SOURCES
  exact (get_put_same _ _ _ (by decide)).trans (Nat.mod_eq_of_lt (Nat.lt_of_le_of_lt (Nat.sub_le ..) hlt))

theorem get_releaseBegun_sources (s : State) :
    get (releaseBegun s) F.YRD_LSAFE_STATUS_SOURCES = get s F.YRD_LSAFE_STATUS_SOURCES :=
  get_put_disjoint _ _ _ _ (by decide) (by decide)

theorem bit_inhibitOff (i : Nat) (s : State) : bit (get (inhibitOff i s) F.YRD_LSAFE_STATUS_SOURCES) i = false := by
  cases h : bit (get s F.YRD_LSAFE_STATUS_SOURCES) i with
  | false => rw [inhibitOff_inactive h, h]
  | true =>
    rw [inhibitOff_ends h]
    split
    · rw [get_releaseBegun_sources, get_sourceEnded, bit_sub_two_pow h]
    · rw [get_sourceEnded, bit_sub_two_pow h]

/-- The end of the last source begins the release wait and leaves the inputs as they are. -/
theorem inhibitOff_releases {i : Nat} {s : State} (h : get s F.YRD_LSAFE_STATUS_SOURCES = 2 ^ i) :
    ReleaseWaits s (inhibitOff i s) ∧ ∀ b, flag (inhibitOff i s) (lsafeIn b) = flag s (lsafeIn b) := by
  rw [inhibitOff_ends (by rw [h, bit_two_pow_self]), if_pos h]
  refine ⟨⟨?_, flag_setF_same _ _ (by decide) rfl, rfl, rfl⟩, fun b => ?_⟩
  · rw [get_releaseBegun_sources, get_sourceEnded, h, Nat.sub_self]
  · exact (flag_put_lsafeIn (by decide) (by decide) _ _ b).trans (flag_put_lsafeIn (by decide) (by decide) s _ b)

/-! ## The inputs (R157, R160) -/

theorem noteDiff_shape (was : Bool) (s : State) : ∃ d, noteDiff was s = { s with lsDiff := d } := by
  unfold noteDiff
  split
  · exact ⟨_, rfl⟩
  · split
    · exact ⟨_, rfl⟩
    · exact ⟨s.lsDiff, rfl⟩

theorem lsafeIn_other (b : Bool) :
    (lsafeIn b).lo + (lsafeIn b).w ≤ (lsafeIn (!b)).lo ∨ (lsafeIn (!b)).lo + (lsafeIn (!b)).w ≤ (lsafeIn b).lo := by
  cases b <;> decide

theorem get_put_lsafeIn (s : State) (b : Bool) (v : Nat) :
    get (put s (lsafeIn b) v) F.YRD_LSAFE_STATUS_SOURCES = get s F.YRD_LSAFE_STATUS_SOURCES := by
  obtain ⟨-, hw, hlo⟩ := lsafeIn_fits b
  exact get_put_disjoint _ _ _ _ (by omega) (.inl (by simp only [F.YRD_LSAFE_STATUS_SOURCES]; omega))

theorem completes_lsafeInputLow (b : Bool) {s : State} (h : bit (get s F.YRD_LSAFE_STATUS_SOURCES) 0 = false) :
    Completes (.lsafeInputLow b) s fun t => Inhibits 0 t ∧ flag t (lsafeIn b) = false ∧
      flag t (lsafeIn (!b)) = flag s (lsafeIn (!b)) := by
  obtain ⟨-, hw, hlo⟩ := lsafeIn_fits b
  have hfits : (lsafeIn b).lo + (lsafeIn b).w ≤ 32 := by omega
  obtain ⟨d, hd⟩ := noteDiff_shape (lsafeAgree s) (clrF s (lsafeIn b))
  have hsource : bit (get { clrF s (lsafeIn b) with lsDiff := d } F.YRD_LSAFE_STATUS_SOURCES) 0 = false :=
    (congrArg (bit · 0) (get_put_lsafeIn s b 0)).trans h
  obtain ⟨hinhibits, hin⟩ := inhibitOn_inhibits (by decide : 0 < 9) hsource
  refine ⟨_, congrArg (fun u => Host.Outcome.next (inhibitOn srcINPUT u)) hd, hinhibits, (hin b).trans ?_,
    (hin (!b)).trans ?_⟩
  · exact flag_clrF_same s _ hfits
  · exact flag_put_disjoint s _ _ 0 hfits (lsafeIn_other b)

theorem lsafeHigh_of_inputs {s : State} {b : Bool} (h : flag s (lsafeIn b) = true) (h' : flag s (lsafeIn (!b)) = true) :
    lsafeHigh s = true := by
  cases b
  · exact Bool.and_eq_true_iff.2 ⟨h, h'⟩
  · exact Bool.and_eq_true_iff.2 ⟨h', h⟩

theorem lsafeAgree_of_high {s : State} (h : lsafeHigh s = true) : lsafeAgree s = true := by
  rw [lsafeHigh, flag, flag, Bool.and_eq_true, beq_iff_eq, beq_iff_eq] at h
  obtain ⟨ha, hb⟩ := h
  rw [lsafeAgree, ha, hb]
  rfl

/-- With the other input high, an input that goes high ends the disagreement and the source. -/
theorem lsafeInputHigh_second {b : Bool} {s : State} (h : flag s (lsafeIn (!b)) = true) :
    ∃ x, lsafeInputHigh b s = inhibitOff srcINPUT { setF s (lsafeIn b) with lsDiff := none, relSince := x } := by
  obtain ⟨-, hw, hlo⟩ := lsafeIn_fits b
  have hfits : (lsafeIn b).lo + (lsafeIn b).w ≤ 32 := by omega
  have hother : flag (setF s (lsafeIn b)) (lsafeIn (!b)) = true := (flag_put_disjoint s _ _ 1 hfits (lsafeIn_other b)).trans h
  have hhigh : lsafeHigh (setF s (lsafeIn b)) = true := lsafeHigh_of_inputs (flag_setF_same s _ hfits hw) hother
  have hdiff : noteDiff (lsafeAgree s) (setF s (lsafeIn b)) = { setF s (lsafeIn b) with lsDiff := none } :=
    if_pos (lsafeAgree_of_high hhigh)
  unfold lsafeInputHigh
  rw [hdiff]
  refine ⟨if lsafeHigh s then s.relSince else s.relSince.map fun _ => s.beam, (if_pos hhigh).trans (congrArg _ ?_)⟩
  split <;> rfl

theorem completes_lsafeInputHigh {b : Bool} {s : State} (h : flag s (lsafeIn (!b)) = true)
    (hlast : get s F.YRD_LSAFE_STATUS_SOURCES = 1) :
    Completes (.lsafeInputHigh b) s fun t => ReleaseWaits s t ∧ flag t (lsafeIn b) = true ∧ t.lsDiff = none := by
  obtain ⟨-, hw, hlo⟩ := lsafeIn_fits b
  obtain ⟨x, hx⟩ := lsafeInputHigh_second h
  obtain ⟨hwaits, hin⟩ := inhibitOff_releases (i := 0) (s := { setF s (lsafeIn b) with lsDiff := none, relSince := x })
    ((get_put_lsafeIn s b 1).trans hlast)
  obtain ⟨r, y, hshape, -⟩ := inhibitOff_shape 0 { setF s (lsafeIn b) with lsDiff := none, relSince := x }
  exact ⟨_, congrArg Host.Outcome.next hx, hwaits, (hin b).trans (flag_setF_same s _ (by omega) hw), by rw [srcINPUT, hshape]⟩

/-- A discrepancy as the flags, the counters and the event show it. -/
def discrepancyTold (s : State) : State :=
  raise 42 (lifeAdd (setF { s with lsDiff := none } F.YRD_LSAFE_FLAGS_DISCREPANCY_SEEN) (lifeNo 5 6 0) 1)

theorem discrepancyTold_fields (s : State) :
    get (discrepancyTold s) F.YRD_LSAFE_STATUS_SOURCES = get s F.YRD_LSAFE_STATUS_SOURCES ∧
      flag (discrepancyTold s) F.YRD_LSAFE_FLAGS_DISCREPANCY_SEEN = true ∧ flag (discrepancyTold s) (pendBit 42) = true := by
  refine ⟨?_, ?_, flag_raise_same (by decide) _⟩
  · rw [discrepancyTold, get_raise (by decide) _ (by decide), get_lifeAdd, setF, get_put_other _ _ _ _ (by decide)]
    rfl
  · rw [discrepancyTold, flag_raise (by decide) _ (by decide), flag_eq_of_rdN (rdN_lifeAdd _ _ _ _)]
    exact flag_setF_same _ _ (by decide) rfl

theorem lsafeDiscrepancy_long {x : Nat} {s : State} (hx : s.lsDiff = some x) (hlong : 1000000 < s.beam - x) :
    lsafeDiscrepancy s = inhibitOn srcDISCREPANCY (discrepancyTold s) := by
  rw [lsafeDiscrepancy, hx]
  exact if_pos hlong

theorem completes_lsafeDiscrepancy {x : Nat} {s : State} (hx : s.lsDiff = some x) (hlong : 1000000 < s.beam - x)
    (h : bit (get s F.YRD_LSAFE_STATUS_SOURCES) 1 = false) :
    Completes .lsafeDiscrepancy s fun t => Inhibits 1 t ∧ flag t F.YRD_LSAFE_FLAGS_DISCREPANCY_SEEN = true ∧
      flag t (pendBit 42) = true := by
  obtain ⟨hsources, hseen, hpend⟩ := discrepancyTold_fields s
  obtain ⟨hinhibits, -⟩ := inhibitOn_inhibits (i := 1) (by decide) ((congrArg (bit · 1) hsources).trans h)
  have hw := inhibitOn_writes 1 (discrepancyTold s)
  exact ⟨_, congrArg Host.Outcome.next (lsafeDiscrepancy_long hx hlong), hinhibits, (hw.flag_eq (by decide)).trans hseen,
    (hw.flag_eq (by decide)).trans hpend⟩

/-! ## The two registers that are sources (R157) -/

/-- The registers of the sources SOFTWARE and SECURE, with their writes. -/
def inhibitRows (sec : Bool) (v : Word) : List (Instr × Nat × Nat) :=
  [(.lsafeSwWrite sec v, 6, R.YRD_LSAFE_SW), (.lsafeSecWrite sec v, 7, R.YRD_LSAFE_SEC)]

theorem exec_inhibitRow {sec : Bool} {v : Word} {i : Instr} {k o : Nat} {s : State} (hi : (i, k, o) ∈ inhibitRows sec v)
    (h : accessOk sec o s = true) : exec i s = .next (inhibitBit o k v s) := by
  simp only [inhibitRows, List.mem_cons, List.not_mem_nil, or_false, Prod.mk.injEq] at hi
  obtain ⟨rfl, rfl, rfl⟩ | ⟨rfl, rfl, rfl⟩ := hi
  · exact congrArg Host.Outcome.next (hostWrite_ok h _)
  · exact congrArg Host.Outcome.next (hostWrite_ok h _)

theorem inhibitRow_regs {sec : Bool} {v : Word} {i : Instr} {k o : Nat} (hi : (i, k, o) ∈ inhibitRows sec v) :
    k < 9 ∧ inhibitReg o = false ∧ R.YRD_LSAFE_STATUS ≠ o := by
  simp only [inhibitRows, List.mem_cons, List.not_mem_nil, or_false, Prod.mk.injEq] at hi
  obtain ⟨-, rfl, rfl⟩ | ⟨-, rfl, rfl⟩ := hi <;> decide

theorem inhibitBit_set {v : Word} (hv : v.toNat % 2 = 1) (o k : Nat) (s : State) :
    inhibitBit o k v s = inhibitOn k (wrN s o 1) := by
  rw [inhibitBit, hv]
  rfl

theorem inhibitBit_clear {v : Word} (hv : v.toNat % 2 = 0) (o k : Nat) (s : State) :
    inhibitBit o k v s = inhibitOff k (wrN s o 0) := by
  rw [inhibitBit, hv]
  rfl

section
variable {sec : Bool} {v : Word} {i : Instr} {k o : Nat} {s : State} (hi : (i, k, o) ∈ inhibitRows sec v)
  (h : accessOk sec o s = true)
include hi h

theorem completes_inhibitBit_set (hv : v.toNat % 2 = 1) (hk : bit (get s F.YRD_LSAFE_STATUS_SOURCES) k = false) :
    Completes i s fun t => Inhibits k t ∧ rdN t o = 1 := by
  obtain ⟨hlt, hkept, hne⟩ := inhibitRow_regs hi
  have hsources : bit (get (wrN s o 1) F.YRD_LSAFE_STATUS_SOURCES) k = false := by
    rw [get_wrN_other s F.YRD_LSAFE_STATUS_SOURCES 1 hne.symm, hk]
  obtain ⟨hinhibits, -⟩ := inhibitOn_inhibits hlt hsources
  exact ⟨_, (exec_inhibitRow hi h).trans (congrArg Host.Outcome.next (inhibitBit_set hv o k s)), hinhibits,
    (inhibitOn_writes k _ o hkept).trans (rdN_wrN_same s o 1)⟩

theorem completes_inhibitBit_clear (hv : v.toNat % 2 = 0) (hk : get s F.YRD_LSAFE_STATUS_SOURCES = 2 ^ k) :
    Completes i s fun t => ReleaseWaits s t ∧ rdN t o = 0 := by
  obtain ⟨-, -, hne⟩ := inhibitRow_regs hi
  have hsources : get (wrN s o 0) F.YRD_LSAFE_STATUS_SOURCES = 2 ^ k := by
    rw [get_wrN_other s F.YRD_LSAFE_STATUS_SOURCES 0 hne.symm, hk]
  obtain ⟨hwaits, -⟩ := inhibitOff_releases hsources
  obtain ⟨-, -, -, hw⟩ := inhibitOff_shape k (wrN s o 0)
  exact ⟨_, (exec_inhibitRow hi h).trans (congrArg Host.Outcome.next (inhibitBit_clear hv o k s)), hwaits,
    (hw o (beq_eq_false_iff_ne.2 hne.symm)).trans (rdN_wrN_same s o 0)⟩

end

/-! ## A gate read back on another level (R149) -/

/-- The fault code of a mismatch at a level: detail 1 or 2 of cause 7. -/
def mismatchCode (on : Bool) : Nat := 7 + 256 * (if on then 1 else 2)

/-- A mismatch as its flag and count show it. -/
def mismatchCounted (g : Fin 48) (s : State) : State :=
  addSat (outFlag (F.STALL_OUT_FLAGS_READBACK_MISMATCH g) g s) (R.STALL_READBACK_COUNT g) 1

/-- A mismatch told, before a gate that is on becomes a source of inhibit. -/
def mismatchTold (g : Fin 48) (on : Bool) (s : State) : State :=
  raise (stableEv (g / 8) 6) (lifeAdd (faultNext g (mismatchCode on)
    (setStall g (fun x => { x with pinBad := true }) (mismatchCounted g s)))
      (lifeNo 5 3 (2 * g + ((if on then 1 else 2) - 1))) 1)

theorem readbackMismatch_told {g : Fin 48} {on : Bool} {s : State} (hdrive : flag s (F.STALL_GATE_CFG_DRIVE g) = true)
    (hdiff : ballDiffers g on s = true) :
    readbackMismatch g on s = if on then inhibitOn srcREADBACK (mismatchTold g on s) else mismatchTold g on s :=
  if_neg (by rw [hdrive, hdiff]; simp)

theorem exec_readbackMismatch_same {g : Fin 48} {on : Bool} {s : State} (h : ballDiffers g on s = false) :
    exec (.readbackMismatch g on) s = .next s :=
  congrArg Host.Outcome.next (if_pos (.inr (by rw [h]; exact Bool.false_ne_true)))

theorem rdN_mismatchTold (g : Fin 48) (on : Bool) (s : State) {o : Nat} (ho : eventReg o = false) :
    rdN (mismatchTold g on s) o = rdN (mismatchCounted g s) o := by
  rw [mismatchTold, rdN_raise (stableEv_lt g (by decide)) _ ho, rdN_lifeAdd, faultNext, rdN_setStall, rdN_setStall]

theorem mismatchTold_fields (g : Fin 48) (on : Bool) (s : State) :
    flag (mismatchTold g on s) (F.STALL_OUT_FLAGS_READBACK_MISMATCH g) = true ∧
      rdN (mismatchTold g on s) (R.STALL_READBACK_COUNT g) = min (rdN s (R.STALL_READBACK_COUNT g) + 1) 0xFFFFFFFF ∧
      flag (mismatchTold g on s) (pendBit (stableEv (g / 8) 6)) = true ∧
      get (mismatchTold g on s) F.YRD_LSAFE_STATUS_SOURCES = get s F.YRD_LSAFE_STATUS_SOURCES ∧
      ((stall s g).faultNew = 0 → (stall (mismatchTold g on s) g).faultNew = mismatchCode on) := by
  have hcount : R.STALL_READBACK_COUNT g ≠ R.YRD_LSAFE_STATUS := by
    have := stallBase_ge g
    simp only [R.STALL_READBACK_COUNT, R.YRD_LSAFE_STATUS]
    omega
  have hflags : R.YRD_LSAFE_STATUS ≠ R.STALL_OUT_FLAGS g := by
    have := stallBase_ge g
    simp only [R.STALL_OUT_FLAGS, R.YRD_LSAFE_STATUS]
    omega
  refine ⟨?_, ?_, flag_raise_same (stableEv_lt g (by decide)) _, ?_, fun h => ?_⟩
  · have hkept : rdN (mismatchTold g on s) (R.STALL_OUT_FLAGS g) =
        rdN (outFlag (F.STALL_OUT_FLAGS_READBACK_MISMATCH g) g s) (R.STALL_OUT_FLAGS g) :=
      (rdN_mismatchTold g on s (eventReg_stall g 0x218)).trans (rdN_addSat_other _ _ (stallReg_ne g (by decide)))
    rw [flag_eq_of_rdN (f := F.STALL_OUT_FLAGS_READBACK_MISMATCH g) hkept]
    exact flag_outFlag_same g rfl (by decide : 6 + 1 ≤ 32) rfl s
  · have hkept : rdN (outFlag (F.STALL_OUT_FLAGS_READBACK_MISMATCH g) g s) (R.STALL_READBACK_COUNT g) =
        rdN s (R.STALL_READBACK_COUNT g) := rdN_outFlag g rfl s (by decide)
    rw [rdN_mismatchTold g on s (o := R.STALL_READBACK_COUNT g) (eventReg_stall g 0x240), mismatchCounted, rdN_addSat_same,
      hkept]
  · have hkept : rdN (mismatchTold g on s) R.YRD_LSAFE_STATUS = rdN s R.YRD_LSAFE_STATUS := by
      rw [rdN_mismatchTold g on s (by decide), mismatchCounted, rdN_addSat_other _ _ hcount]
      refine outFlag_writes g rfl s _ ?_
      beta_reduce
      rw [show eventReg R.YRD_LSAFE_STATUS = false by decide, Bool.false_or, beq_eq_false_iff_ne]
      exact hflags
    exact congrArg (bits · 8 9) hkept
  · rw [mismatchTold, stall_raise, stall_lifeAdd, faultNext, stall_setStall_same, stall_setStall_same, mismatchCounted,
      stall_addSat, stall_outFlag]
    exact if_pos h

theorem completes_readbackMismatch {g : Fin 48} {on : Bool} {s : State} (hdrive : flag s (F.STALL_GATE_CFG_DRIVE g) = true)
    (hdiff : ballDiffers g on s = true) (h : bit (get s F.YRD_LSAFE_STATUS_SOURCES) 5 = false) :
    Completes (.readbackMismatch g on) s fun t => flag t (F.STALL_OUT_FLAGS_READBACK_MISMATCH g) = true ∧
      rdN t (R.STALL_READBACK_COUNT g) = min (rdN s (R.STALL_READBACK_COUNT g) + 1) 0xFFFFFFFF ∧
      flag t (pendBit (stableEv (g.val / 8) 6)) = true ∧
      ((stall s g).faultNew = 0 → (stall t g).faultNew = 7 + 256 * (if on then 1 else 2)) ∧ (on = true → Inhibits 5 t) := by
  refine ⟨_, congrArg Host.Outcome.next (readbackMismatch_told hdrive hdiff), ?_⟩
  obtain ⟨hflag, hcount, hpend, hsources, hfault⟩ := mismatchTold_fields g on s
  cases on with
  | false => exact ⟨hflag, hcount, hpend, hfault, nofun⟩
  | true =>
    have hw := inhibitOn_writes 5 (mismatchTold g true s)
    have hpendKept : inhibitReg (pendBit (stableEv (g.val / 8) 6)).off = false :=
      inhibitReg_below (by simp only [pendBit, R.EVC_PEND, stableEv]; omega) (pendBit_ne_yard (by decide))
    obtain ⟨hinhibits, -⟩ := inhibitOn_inhibits (i := 5) (by decide) ((congrArg (bit · 5) hsources).trans h)
    exact ⟨(hw.flag_eq (inhibitReg_stall g (by decide) (by decide))).trans hflag,
      (hw _ (inhibitReg_stall g (by decide) (by decide))).trans hcount, (hw.flag_eq hpendKept).trans hpend,
      fun h0 => (inhibitOn_faultNew 5 _ g).trans (hfault h0), fun _ => hinhibits⟩

/-! ## Clearing a latch (R160) -/

theorem latchClear_ok {sec : Bool} {s : State} (h : accessOk sec R.YRD_LSAFE_CLEAR s = true) (i : Nat) (ok : State → Bool) :
    latchClear sec i ok s = if ok s then inhibitOff i s else setF s F.YRD_LSAFE_FLAGS_CLEAR_IGNORED := hostWrite_ok h _

/-- A clear that is ignored tells so and leaves the sources. -/
theorem clearIgnored_fields (s : State) :
    flag (setF s F.YRD_LSAFE_FLAGS_CLEAR_IGNORED) F.YRD_LSAFE_FLAGS_CLEAR_IGNORED = true ∧
      get (setF s F.YRD_LSAFE_FLAGS_CLEAR_IGNORED) F.YRD_LSAFE_STATUS_SOURCES = get s F.YRD_LSAFE_STATUS_SOURCES :=
  ⟨flag_setF_same _ _ (by decide) rfl, get_put_other _ _ _ _ (by decide)⟩

theorem completes_clearDiscrepancy {sec : Bool} {s : State} (h : accessOk sec R.YRD_LSAFE_CLEAR s = true) :
    Completes (.clearDiscrepancy sec) s fun t =>
      if flag s F.YRD_LSAFE_STATUS_IN_A = false ∧ flag s F.YRD_LSAFE_STATUS_IN_B = false then
        bit (get t F.YRD_LSAFE_STATUS_SOURCES) 1 = false
      else flag t F.YRD_LSAFE_FLAGS_CLEAR_IGNORED = true ∧
        get t F.YRD_LSAFE_STATUS_SOURCES = get s F.YRD_LSAFE_STATUS_SOURCES := by
  refine ⟨_, congrArg Host.Outcome.next (latchClear_ok h _ _), ?_⟩
  simp only [Bool.and_eq_true, Bool.not_eq_true']
  split
  · exact bit_inhibitOff 1 s
  · exact clearIgnored_fields s

/-- The readback notes of every stall dropped. -/
def pinsCleared (s : State) : State := forAll 48 (fun g s => setStall g (fun x => { x with pinBad := false }) s) s

theorem pinsCleared_fields (s : State) : (pinsCleared s).regs = s.regs ∧ ∀ g, (stall (pinsCleared s) g).pinBad = false := by
  refine ⟨forAll_keeps (fun t : State => t.regs = s.regs) _ rfl fun _ _ h => h,
    forAll_reaches (fun g t => (stall t g).pinBad = false) (fun g t => ?_) (fun i g t h => ?_) s⟩
  · rw [stall_setStall_same]
  · obtain rfl | hne := eq_or_ne g i
    · rw [stall_setStall_same]
    · rw [stall_setStall_other _ _ hne, h]

theorem accessOk_congr {s t : State} (h : t.regs = s.regs) (sec : Bool) (o : Nat) : accessOk sec o t = accessOk sec o s := by
  simp only [accessOk, blockSecure, rd64, rdN_congr h]

theorem completes_clearReadback {sec : Bool} (bad : Bool) {s : State} (h : accessOk sec R.YRD_LSAFE_CLEAR s = true) :
    Completes (.clearReadback sec bad) s fun t =>
      if bad = false then bit (get t F.YRD_LSAFE_STATUS_SOURCES) 5 = false ∧ ∀ g : Fin 48, (stall t g).pinBad = false
      else flag t F.YRD_LSAFE_FLAGS_CLEAR_IGNORED = true ∧ t.stalls = s.stalls ∧
        get t F.YRD_LSAFE_STATUS_SOURCES = get s F.YRD_LSAFE_STATUS_SOURCES := by
  cases bad with
  | true =>
    obtain ⟨hflag, hsources⟩ := clearIgnored_fields s
    have he : clearReadback sec true s = setF s F.YRD_LSAFE_FLAGS_CLEAR_IGNORED := by
      rw [clearReadback, if_pos (.inl rfl), latchClear_ok h]
      rfl
    exact ⟨_, congrArg Host.Outcome.next he, hflag, rfl, hsources⟩
  | false =>
    obtain ⟨hregs, hpins⟩ := pinsCleared_fields s
    obtain ⟨r, x, hshape, -⟩ := inhibitOff_shape srcREADBACK (pinsCleared s)
    have he : clearReadback sec false s = inhibitOff srcREADBACK (pinsCleared s) := by
      rw [clearReadback, if_neg (by simp [h]), ← pinsCleared, latchClear_ok ((accessOk_congr hregs _ _).trans h)]
      rfl
    refine ⟨_, congrArg Host.Outcome.next he, bit_inhibitOff _ _, fun g => ?_⟩
    rw [hshape]
    exact hpins g

/-- Settles O36: each source is an `inhibitOn` behind what tells it, and each end an `inhibitOff`. -/
theorem inhibitSources : Obligations.InhibitSources :=
  ⟨fun b _ h => completes_lsafeInputLow b h,
    fun _ _ _ _ _ _ hi h => ⟨completes_inhibitBit_set hi h, completes_inhibitBit_clear hi h⟩,
    fun _ _ h hlast => completes_lsafeInputHigh h hlast, fun _ _ hx hlong h => completes_lsafeDiscrepancy hx hlong h,
    fun _ _ _ h => exec_readbackMismatch_same h, fun _ _ _ hdrive hdiff h => completes_readbackMismatch hdrive hdiff h,
    fun _ bad _ h => ⟨completes_clearDiscrepancy h, completes_clearReadback bad h⟩⟩

end Machine
end Sys2Proof

namespace Sys2Proof
namespace Machine

/-! ## The stalls follow the inhibit (R159) -/

/-- The inhibit as the yard shows it at its tick. -/
def inhibitTold (s : State) : State :=
  let s1 := setF { s with inhDue := false, relTick := false } F.YRD_LSAFE_STATUS_INHIBIT
  raise 40 (addSat (setF (wr64 s1 R.YRD_LSAFE_TIME s.now) F.YRD_LSAFE_FLAGS_ASSERTED) R.YRD_LSAFE_COUNT 1)

/-- The visit of one stall by the inhibit. -/
def inhibitStall (g : Fin 48) (s : State) : State :=
  if stSt g s = ssRUN ∧ ¬ flag s (F.STALL_STATE_ABORTING g) then latchSquash g 4 s else s

theorem laserInhibitAsserted_due {s : State} (h : s.inhDue = true) :
    laserInhibitAsserted s = forAll 48 inhibitStall (inhibitTold s) := if_neg (not_not_intro h)

/-- The registers that the inhibit writes at its tick. -/
def inhibitToldReg (o : Nat) : Bool :=
  eventReg o || [R.YRD_LSAFE_STATUS, R.YRD_LSAFE_TIME, R.YRD_LSAFE_TIME + 4, R.YRD_LSAFE_FLAGS, R.YRD_LSAFE_COUNT].contains o

theorem inhibitTold_writes (s : State) : OnlyWrites inhibitToldReg s (inhibitTold s) := by
  unfold inhibitTold
  extract_lets s1
  have h1 : OnlyWrites inhibitToldReg s s1 := .put (.regs (.refl s) rfl) 1 (by decide)
  have h2 : OnlyWrites inhibitToldReg s (wr64 s1 R.YRD_LSAFE_TIME s.now) := .wrN (.wrN h1 _ (by decide)) _ (by decide)
  exact .raise (.wrN (.put h2 1 (by decide)) _ (by decide)) (by decide) fun o ho => by rw [inhibitToldReg, ho, Bool.true_or]

theorem inhibitToldReg_stall (g k : Nat) : inhibitToldReg (stallBase g + k) = false := by
  have := stallBase_ge g
  rw [inhibitToldReg, eventReg_stall, Bool.false_or, List.contains_eq_mem, decide_eq_false_iff_not]
  simp only [List.mem_cons, List.not_mem_nil, or_false, R.YRD_LSAFE_STATUS, R.YRD_LSAFE_TIME, R.YRD_LSAFE_FLAGS,
    R.YRD_LSAFE_COUNT]
  omega

theorem stall_inhibitTold (s : State) (g : Fin 48) : stall (inhibitTold s) g = stall s g := by
  rw [inhibitTold, stall_raise, stall_addSat, setF, stall_put, stall_wr64, setF, stall_put]
  rfl

theorem inhibitTold_inhDue (s : State) : (inhibitTold s).inhDue = false := by
  rw [inhibitTold, raise_inhDue]
  rfl

theorem inhibitTold_fields (s : State) :
    flag (inhibitTold s) F.YRD_LSAFE_STATUS_INHIBIT = true ∧ flag (inhibitTold s) F.YRD_LSAFE_FLAGS_ASSERTED = true ∧
      rd64 (inhibitTold s) R.YRD_LSAFE_TIME = s.now % 2 ^ 64 ∧ flag (inhibitTold s) (pendBit 40) = true := by
  unfold inhibitTold
  extract_lets s1
  refine ⟨?_, ?_, ?_, flag_raise_same (by decide) _⟩
  · rw [flag_raise (by decide) _ (by decide), flag_eq_of_rdN (rdN_addSat_other _ _ (by decide)), setF,
      flag_put_other _ _ _ _ (by decide), flag_eq_of_rdN (rdN_wr64_other _ _ (by decide) (by decide))]
    exact flag_setF_same _ _ (by decide) rfl
  · rw [flag_raise (by decide) _ (by decide), flag_eq_of_rdN (rdN_addSat_other _ _ (by decide))]
    exact flag_setF_same _ _ (by decide) rfl
  · have hkept {o : Nat} (ho : eventReg o = false) (hc : R.YRD_LSAFE_COUNT ≠ o) (hf : R.YRD_LSAFE_FLAGS ≠ o) :
        rdN (raise 40 (addSat (setF (wr64 s1 R.YRD_LSAFE_TIME s.now) F.YRD_LSAFE_FLAGS_ASSERTED) R.YRD_LSAFE_COUNT 1)) o =
          rdN (wr64 s1 R.YRD_LSAFE_TIME s.now) o :=
      (rdN_raise (by decide) _ ho).trans ((rdN_addSat_other _ _ hc).trans (rdN_put_other _ _ _ hf))
    exact (rd64_eq_of_rdN (hkept (by decide) (by decide) (by decide)) (hkept (by decide) (by decide) (by decide))).trans
      (rd64_wr64_same s1 _ _)

theorem inhibitStall_view {i j : Fin 48} (hne : j ≠ i) (s : State) : StallView j s (inhibitStall i s) :=
  .ite (.setStall (.refl s) hne _) (.refl s)

/-- The squash of cause INHIBIT latched. -/
def Stall.inhibited (x : Stall) : Stall := { x with squashNew := x.squashNew ||| 2 ^ 4 }

theorem stall_inhibitStall (g : Fin 48) (s : State) :
    stall (inhibitStall g s) g =
      if stSt g s = ssRUN ∧ flag s (F.STALL_STATE_ABORTING g) = false then (stall s g).inhibited else stall s g := by
  rw [inhibitStall]
  simp only [Bool.not_eq_true]
  split
  · rw [latchSquash, stall_setStall_same, Stall.inhibited]
  · rfl

/-- The inhibit reaches each stall in the state that it had before. -/
theorem stall_inhibitStalls (s : State) (g : Fin 48) :
    stall (forAll 48 inhibitStall s) g =
      if stSt g s = ssRUN ∧ flag s (F.STALL_STATE_ABORTING g) = false then (stall s g).inhibited else stall s g := by
  obtain ⟨u, hbefore, hafter⟩ := forAll_visits (fun _ _ hne t => inhibitStall_view hne t) s g
  have haborting : flag u (F.STALL_STATE_ABORTING g) = flag s (F.STALL_STATE_ABORTING g) :=
    hbefore.flag_eq (seenBy_stall g (by decide))
  rw [hafter.unit, stall_inhibitStall, hbefore.stSt_eq, haborting, hbefore.unit]

theorem inhibitStalls_kept (s : State) :
    (forAll 48 inhibitStall s).regs = s.regs ∧ (forAll 48 inhibitStall s).inhDue = s.inhDue := by
  refine forAll_keeps (fun t : State => t.regs = s.regs ∧ t.inhDue = s.inhDue) _ ⟨rfl, rfl⟩ fun i t h => ?_
  unfold inhibitStall
  split
  · exact h
  · exact h

theorem completes_laserInhibitAsserted {s : State} (h : s.inhDue = true) :
    Completes .laserInhibitAsserted s fun t => flag t F.YRD_LSAFE_STATUS_INHIBIT = true ∧
      flag t F.YRD_LSAFE_FLAGS_ASSERTED = true ∧ rd64 t R.YRD_LSAFE_TIME = s.now % 2 ^ 64 ∧ flag t (pendBit 40) = true ∧
      t.inhDue = false ∧ ∀ g : Fin 48, stall t g = if stSt g s = ssRUN ∧ flag s (F.STALL_STATE_ABORTING g) = false then
        { stall s g with squashNew := (stall s g).squashNew ||| 2 ^ 4 } else stall s g := by
  obtain ⟨hinhibit, hasserted, htime, hpend⟩ := inhibitTold_fields s
  obtain ⟨hregs, hdue⟩ := inhibitStalls_kept (inhibitTold s)
  have hreg := rdN_congr hregs
  refine ⟨_, congrArg Host.Outcome.next (laserInhibitAsserted_due h), (flag_eq_of_rdN (hreg _)).trans hinhibit,
    (flag_eq_of_rdN (hreg _)).trans hasserted, (rd64_eq_of_rdN (hreg _) (hreg _)).trans htime,
    (flag_eq_of_rdN (hreg _)).trans hpend, hdue.trans (inhibitTold_inhDue s), fun g => ?_⟩
  have hstate : stSt g (inhibitTold s) = stSt g s := (inhibitTold_writes s).get_eq (inhibitToldReg_stall g 0x8)
  have haborting : flag (inhibitTold s) (F.STALL_STATE_ABORTING g) = flag s (F.STALL_STATE_ABORTING g) :=
    (inhibitTold_writes s).flag_eq (inhibitToldReg_stall g 0x8)
  rw [stall_inhibitStalls, hstate, haborting, stall_inhibitTold, Stall.inhibited]

theorem completes_inhibitStopComplete {g : Fin 48} {s : State} (hstop : (stall s g).stopping = 2)
    (hentry : (stall s g).noEntry = true) (hbuf : (stall s g).buf = []) :
    Completes (.inhibitStopComplete g) s fun t => stSt g t = ssFAULT ∧ get t (F.STALL_STATE_FAULT_CAUSE g) = 0x0B := by
  obtain ⟨hst, hcause, -, -⟩ := enterFault_fields g (by decide : 0x0B < 2 ^ 8) s
  exact ⟨_, congrArg Host.Outcome.next (if_pos ⟨hstop, hentry, by rw [hbuf]; rfl⟩), hst, hcause⟩

/-! ## The end of the release wait (R161) -/

/-- The forcing stops. -/
def gatesReleased (s : State) : State :=
  tellPairs s (clrF { s with relSince := none, forced := false, relTick := true } F.YRD_LSAFE_STATUS_RELEASE_WAIT)

/-- The inhibit's end as the yard shows it. -/
def inhibitReleased (s : State) : State :=
  raise 41 (lifeMax (setF (gatesReleased s) F.YRD_LSAFE_STATUS_OK) (lifeNo 5 7 0) ((s.beam - s.inhSince) / 1000000))

theorem laserInhibitReleased_over {x : Nat} {s : State} (hx : s.relSince = some x)
    (hover : clampN 1 1000 (rdN s R.YRD_LSAFE_RELEASE % 1024) * 1000000 ≤ s.beam - x) (hhigh : lsafeHigh s = true) :
    laserInhibitReleased s = inhibitReleased s := by
  rw [laserInhibitReleased, hx]
  exact if_pos ⟨hover, hhigh⟩

theorem lifeMax_shape (s : State) (k v : Nat) : ∃ l, lifeMax s k v = { s with life := l } := by
  unfold lifeMax
  split
  · exact ⟨_, rfl⟩
  · exact ⟨s.life, rfl⟩

theorem gatesReleased_fields (s : State) :
    (gatesReleased s).forced = false ∧ (gatesReleased s).relSince = none ∧ (gatesReleased s).relTick = true ∧
      flag (gatesReleased s) F.YRD_LSAFE_STATUS_RELEASE_WAIT = false := by
  rw [gatesReleased, tellPairs_forced, tellPairs_relSince, tellPairs_relTick, flag_eq_of_rdN (rdN_tellPairs _ _ _)]
  exact ⟨rfl, rfl, rfl, flag_clrF_same _ _ (by decide)⟩

theorem inhibitReleased_fields (s : State) :
    (inhibitReleased s).forced = false ∧ flag (inhibitReleased s) F.YRD_LSAFE_STATUS_OK = true ∧
      flag (inhibitReleased s) F.YRD_LSAFE_STATUS_RELEASE_WAIT = false ∧ (inhibitReleased s).relSince = none ∧
      (inhibitReleased s).relTick = true ∧ flag (inhibitReleased s) (pendBit 41) = true := by
  obtain ⟨hforced, hrel, htick, hwait⟩ := gatesReleased_fields s
  obtain ⟨l, hlife⟩ := lifeMax_shape (setF (gatesReleased s) F.YRD_LSAFE_STATUS_OK) (lifeNo 5 7 0)
    ((s.beam - s.inhSince) / 1000000)
  have hflag {f : Fld} (hf : f.off = R.YRD_LSAFE_STATUS) :
      flag (inhibitReleased s) f = flag (setF (gatesReleased s) F.YRD_LSAFE_STATUS_OK) f := by
    rw [inhibitReleased, flag_raise (by decide) _ (by rw [hf]; decide), hlife]
    rfl
  refine ⟨?_, ?_, ?_, ?_, ?_, flag_raise_same (by decide) _⟩
  · rw [inhibitReleased, raise_forced, hlife]
    exact hforced
  · rw [hflag rfl, flag_setF_same _ _ (by decide) rfl]
  · rw [hflag rfl, setF, flag_put_disjoint _ _ _ _ (by decide) (by decide), hwait]
  · rw [inhibitReleased, raise_relSince, hlife]
    exact hrel
  · rw [inhibitReleased, raise_relTick, hlife]
    exact htick

theorem completes_laserInhibitReleased {x : Nat} {s : State} (hx : s.relSince = some x)
    (hover : clampN 1 1000 (rdN s R.YRD_LSAFE_RELEASE % 1024) * 1000000 ≤ s.beam - x)
    (ha : flag s F.YRD_LSAFE_STATUS_IN_A = true) (hb : flag s F.YRD_LSAFE_STATUS_IN_B = true) :
    Completes .laserInhibitReleased s fun t => t.forced = false ∧ flag t F.YRD_LSAFE_STATUS_OK = true ∧
      flag t F.YRD_LSAFE_STATUS_RELEASE_WAIT = false ∧ t.relSince = none ∧ t.relTick = true ∧ flag t (pendBit 41) = true :=
  ⟨_, congrArg Host.Outcome.next (laserInhibitReleased_over hx hover (lsafeHigh_of_inputs (b := false) ha hb)),
    inhibitReleased_fields s⟩

/-- Settles O37: the inhibit visits each stall as it stood, and its release undoes the forcing. -/
theorem inhibitSequence : Obligations.InhibitSequence :=
  ⟨fun _ h => completes_laserInhibitAsserted h, fun _ _ hstop hentry hbuf => completes_inhibitStopComplete hstop hentry hbuf,
    fun _ _ hx hover ha hb => completes_laserInhibitReleased hx hover ha hb⟩

end Machine
end Sys2Proof

/-!
The statements of chapter 06: the marshal's parameters and the moves of its sections, and what the resets do to it.
-/
namespace Sys2Proof
namespace Machine

/-! ## What the marshal holds beside its registers -/

/-- The seam table, the requests and moves that wait, the late pairs and the earlier parameters. -/
def marshalTable (s : State) : Vector Seam 192 × List SeamReq × List SeamReq × List (Nat × Nat × Nat × Nat) ×
    List (List Nat × List (Nat × Nat × Nat × Nat)) := (s.seams, s.seamReqs, s.seamMoves, s.latePairs, s.mshOld)

theorem marshalTable_eq_iff {s t : State} : marshalTable t = marshalTable s ↔
    t.seams = s.seams ∧ t.seamReqs = s.seamReqs ∧ t.seamMoves = s.seamMoves ∧ t.latePairs = s.latePairs ∧
      t.mshOld = s.mshOld := by
  simp only [marshalTable, Prod.mk.injEq]

theorem marshalTable_wrN (s : State) (o v : Nat) : marshalTable (wrN s o v) = marshalTable s := rfl

theorem marshalTable_lifeAdd (s : State) (k n : Nat) : marshalTable (lifeAdd s k n) = marshalTable s := rfl

theorem marshalTable_raise (n : Nat) (s : State) : marshalTable (raise n s) = marshalTable s :=
  marshalTable_eq_iff.2 ⟨raise_seams n s, raise_seamReqs n s, raise_seamMoves n s, raise_latePairs n s, raise_mshOld n s⟩

/-! ## Writes of the marshal's parameters (R179) -/

theorem eventReg_yard {o : Nat} (h : 0x20000 ≤ o) (h' : o < 0x40000) : eventReg o = false := by
  rw [eventReg, decide_eq_false_iff_not]
  omega

theorem completes_marshalConfigWrite {sec : Bool} {r : Fin 6} {o : Nat} (ho : o = R.YRD_MSH_CTRL + 4 * r.val) (v : Word)
    {s : State} (h : accessOk sec o s = true) :
    Completes (.marshalConfigWrite sec r v) s fun t =>
      if allQuiet s = true ∧ marshalRange o (merged o v s) s = true then Takes o v s t
      else rd t o = rd s o ∧ flag t F.YRD_MSH_FLAGS_CFG_REFUSED = true ∧ flag t (pendBit 74) = true := by
  have hrange : 0x20800 ≤ o ∧ o < 0x20818 := by simp only [R.YRD_MSH_CTRL] at ho; omega
  have hevent : eventReg o = false := eventReg_yard (by omega) (by omega)
  have hflags : R.YRD_MSH_FLAGS ≠ o := by simp only [R.YRD_MSH_FLAGS]; omega
  subst ho
  refine ⟨_, congrArg Host.Outcome.next (cfgWrite_ok h v _ _ _), ?_⟩
  beta_reduce
  simp only [Bool.and_eq_true]
  split_ifs
  · exact rd_wr_same _ _ _
  · refine ⟨rd_eq_of_rdN ((rdN_raise (by decide) _ hevent).trans (rdN_put_other _ _ 1 hflags)), ?_, flag_raise_same (by decide) _⟩
    rw [flag_raise (by decide) _ (by decide)]
    exact flag_setF_same _ _ (by decide) rfl

/-! ## A host request of a move (R185) -/

/-- The INDEX that MSH_SEAM_RESULT shows of a SEAM_ID. -/
def shownIndex (id : Nat) (s : State) : Nat := ((seamIdx id s).map Fin.val).getD 0

theorem shownIndex_lt (id : Nat) (s : State) : shownIndex id s < 192 := by
  unfold shownIndex
  cases seamIdx id s with
  | none => decide
  | some i => exact i.isLt

theorem rdN_seamResult (id : Nat) {result kind : Nat} (hr : result < 2 ^ 4) (hk : kind < 2 ^ 2) (s : State) :
    rdN (seamResult id result kind s) R.YRD_MSH_SEAM_RESULT = result + 2 ^ 4 * kind + 2 ^ 8 * shownIndex id s := by
  have hindex := shownIndex_lt id s
  exact (rdN_wrN_same _ _ _).trans (Nat.mod_eq_of_lt (by unfold shownIndex at hindex; omega))

theorem completes_seamMoveWrite {sec : Bool} (v : BitVec 64) {s : State} (h : accessOk sec R.YRD_MSH_SEAM_MOVE s = true) :
    Completes (.seamMoveWrite sec (.both v)) s fun t =>
      t.seamReqs = s.seamReqs ++ [⟨1, v.toNat % 2 ^ 32, v.toNat / 2 ^ 32 % 64, true⟩] ∧ t.seams = s.seams ∧
      rdN t R.YRD_MSH_SEAM_RESULT = 1 + 2 ^ 4 + 2 ^ 8 * ((seamIdx (v.toNat % 2 ^ 32) s).map Fin.val).getD 0 :=
  ⟨_, congrArg Host.Outcome.next (hostWrite_ok h _), rfl, rfl, rdN_seamResult _ (by decide) (by decide) _⟩

/-! ## What follows a move leaves the owners (R185)

The squash of the stalls and their going back write registers of the stalls, and of the seam table only who has registered. -/

/-- The owner of a section, its other stall and its moves. -/
def Seam.sides (x : Seam) : Nat × Nat × Nat := (x.owner, x.other, x.moves)

/-- Registers below the stalls', the waiting moves and the owners of the sections are kept. -/
structure OwnersKept (s t : State) : Prop where
  regs : OnlyWrites stallsReg s t
  moves : t.seamMoves = s.seamMoves
  sides : ∀ i, (seam t i).sides = (seam s i).sides

namespace OwnersKept

variable {s t u : State}

theorem refl (s : State) : OwnersKept s s := ⟨.refl s, rfl, fun _ => rfl⟩

theorem trans (h : OwnersKept s t) (k : OwnersKept t u) : OwnersKept s u :=
  ⟨h.regs.trans k.regs, k.moves.trans h.moves, fun i => (k.sides i).trans (h.sides i)⟩

/-- What leaves the moves and the seam table alone is judged by its registers. -/
theorem of_regs (h : OnlyWrites stallsReg s t) (ht : marshalTable t = marshalTable s) : OwnersKept s t := by
  obtain ⟨hseams, -, hmoves, -⟩ := marshalTable_eq_iff.1 ht
  exact ⟨h, hmoves, fun i => by rw [seam_congr hseams]⟩

theorem ite {c : Prop} [Decidable c] (h : OwnersKept s t) (k : OwnersKept s u) : OwnersKept s (if c then t else u) := by
  split <;> assumption

theorem wrN (h : OwnersKept s t) {o : Nat} (ho : stallsReg o = true) (v : Nat) : OwnersKept s (wrN t o v) :=
  h.trans (of_regs (.wrN (.refl t) v ho) rfl)

theorem wr64 (h : OwnersKept s t) {o : Nat} (ho : stallsReg o = true) (v : Nat) : OwnersKept s (wr64 t o v) :=
  (h.wrN ho v).wrN (by simp only [stallsReg, decide_eq_true_eq] at ho ⊢; omega) _

theorem put (h : OwnersKept s t) {f : Fld} (hf : stallsReg f.off = true) (v : Nat) : OwnersKept s (put t f v) := h.wrN hf _

theorem setStall (h : OwnersKept s t) (g : Fin 48) (f : Stall → Stall) : OwnersKept s (setStall g f t) :=
  h.trans (of_regs (.setStall (.refl t) g f) rfl)

theorem countSquash (h : OwnersKept s t) (g mask n : Nat) : OwnersKept s (countSquash g mask n t) := by
  obtain ⟨l, hl⟩ := countSquash_shape g mask n t
  rw [hl]
  exact h.trans (of_regs (.regs (.refl t) rfl) rfl)

theorem setSeam (h : OwnersKept s t) (i : Fin 192) {f : Seam → Seam} (hf : ∀ x, (f x).sides = x.sides) :
    OwnersKept s (setSeam i f t) :=
  h.trans ⟨.setSeam (.refl t) i f, rfl, fun j => by
    obtain rfl | hne := eq_or_ne j i
    · rw [seam_setSeam_same, hf]
    · rw [seam_setSeam_other f t hne]⟩

theorem foldl {β : Type} {f : State → β → State} (h : OwnersKept s t) (l : List β) (hf : ∀ u b, OwnersKept u (f u b)) :
    OwnersKept s (l.foldl f t) :=
  List.foldlRecOn _ _ h fun u hu b _ => hu.trans (hf u b)

end OwnersKept

theorem squashReport_owners (g : Fin 48) (mask : Nat) (s : State) : OwnersKept s (squashReport g mask s) := by
  unfold squashReport
  extract_lets n s1 s2
  have hreg (k : Nat) : stallsReg (stallBase g + k) = true := stallsReg_stall g k
  have h1 : OwnersKept s s1 := .wrN (.setStall (.refl s) g _) (hreg 0x14C) _
  have h2 : OwnersKept s s2 := .wr64 h1 (hreg 0x150) _
  have h3 : OwnersKept s (add64 (addSat s2 (R.STALL_TRJ_SQUASHES g) 1) (R.STALL_TRJ_SQUASHED_MV g) n) :=
    .wr64 (.wrN h2 (hreg 0x158) _) (hreg 0x160) _
  exact .setStall (h3.countSquash g mask n) g _

theorem squashStop_owners (g : Fin 48) (mask : Nat) (s : State) : OwnersKept s (squashStop g mask s) :=
  .ite (.put (.setStall (.refl s) g _) (stallsReg_stall g 0x8) 1) (.ite (.setStall (.refl s) g _) (.refl s))

theorem showWindow_owners (g : Fin 48) (s : State) : OwnersKept s (showWindow g s) :=
  have hreg : stallsReg (R.STALL_TRJ_STATUS g) = true := stallsReg_stall g 0x140
  .put (.put (.put (.put (.refl s) hreg _) hreg _) hreg _) hreg _

/-- A squash that is due keeps the owners. -/
theorem squashDueStep_owners (g : Fin 48) (s : State) : OwnersKept s (squashDueStep g s) := by
  unfold squashDueStep
  split
  next => exact .refl s
  next hdue =>
    cases ha : flag s (F.STALL_STATE_ABORTING g) with
    | true =>
      rw [squash_of_aborting ha]
      exact .setStall (.refl s) g _
    | false =>
      rw [squash_of_not_aborting ha hdue]
      exact .trans (.trans (squashReport_owners g _ s) (squashStop_owners g _ _)) (showWindow_owners g _)

theorem unparse_owners (g : Fin 48) (k : Nat) (s : State) : OwnersKept s (unparse g k s) := by
  unfold unparse
  extract_lets x
  split
  · exact .refl s
  · exact .wrN (.setStall (.refl s) g _) (stallsReg_stall g 0x20) _

theorem withdraw_owners (g : Fin 48) (l : List Item) (s : State) : OwnersKept s (withdraw g l s) := by
  refine .foldl (.refl s) l fun u it => ?_
  split
  · split
    · exact .setSeam (.refl u) _ fun x => by split_ifs <;> rfl
    · exact .refl u
  · exact .refl u

/-- A stall that follows a move keeps the owners. -/
theorem followMove_owners (g : Fin 48) (id count : Nat) (own : Bool) (s : State) :
    OwnersKept s (followMove g id count own s) := by
  unfold followMove
  split
  · exact .refl s
  · exact .ite (.refl s) (.setStall (.trans (withdraw_owners g _ s) (unparse_owners g _ _)) g _)

/-! ## A decided move takes effect (R185) -/

/-- Latch the squash of a move for a stall that has registered. -/
def moveSquash (n : Nat) (on : Bool) (s : State) : State :=
  if h : n < 48 then
    (if on then setStall ⟨n, h⟩ (fun x => { x with squashDue := x.squashDue ||| 2 }) s else s) else s

theorem moveSquash_owners (n : Nat) (on : Bool) (s : State) : OwnersKept s (moveSquash n on s) := by
  unfold moveSquash
  split
  · exact .ite (.setStall (.refl s) _ _) (.refl s)
  · exact .refl s

/-- A section whose stalls have changed places. -/
def Seam.moved (x : Seam) : Seam :=
  { x with owner := x.other, other := x.owner, oReg := x.xReg, xReg := x.oReg, moves := satN 255 (x.moves + 1) }

/-- The table with the moved section, and the squashes of its stalls latched. -/
def sectionMoved (i : Fin 192) (s : State) : State :=
  moveSquash (seam s i).other (seam s i).xReg (moveSquash (seam s i).owner (seam s i).oReg (setSeam i Seam.moved s))

/-- The move as the marshal's registers and counters show it. -/
def moveShown (r : SeamReq) (s : State) : State :=
  lifeAdd (addSat (seamResult r.id 2 r.kind s) R.YRD_MSH_MOVE_COUNT 1) (lifeNo 6 4 r.kind) 1

theorem marshalTable_moveShown (r : SeamReq) (s : State) : marshalTable (moveShown r s) = marshalTable s := by
  rw [moveShown, marshalTable_lifeAdd, addSat, marshalTable_wrN, seamResult, marshalTable_wrN]

theorem carryMove_eq {r : SeamReq} {i : Fin 192} {s : State} (hi : seamIdx r.id s = some i) :
    carryMove s r = raise 74 (moveShown r (sectionMoved i s)) := by
  unfold carryMove
  rw [hi]
  rfl

theorem sectionMoved_fields (i : Fin 192) (s : State) :
    (sectionMoved i s).seamMoves = s.seamMoves ∧ (seam (sectionMoved i s) i).sides = (seam s i).moved.sides := by
  have h : OwnersKept (setSeam i Seam.moved s) (sectionMoved i s) :=
    .trans (moveSquash_owners _ _ _) (moveSquash_owners _ _ _)
  exact ⟨h.moves, (h.sides i).trans (by rw [seam_setSeam_same])⟩

/-- The move of a section makes the other stall its owner, counts it and raises event 74. -/
theorem carryMove_fields {r : SeamReq} {i : Fin 192} {s : State} (hi : seamIdx r.id s = some i) :
    (carryMove s r).seamMoves = s.seamMoves ∧ (seam (carryMove s r) i).sides = (seam s i).moved.sides ∧
      flag (carryMove s r) (pendBit 74) = true := by
  obtain ⟨hmoves, hsides⟩ := sectionMoved_fields i s
  obtain ⟨hseams', -, hmoves', -⟩ := marshalTable_eq_iff.1
    ((marshalTable_raise 74 _).trans (marshalTable_moveShown r (sectionMoved i s)))
  rw [carryMove_eq hi]
  exact ⟨hmoves'.trans hmoves, by rw [seam_congr hseams', hsides], flag_raise_same (by decide) _⟩

/-- What the stalls do behind the moves. -/
def movesFollowed (l : List (Fin 48 × Nat × Nat × Bool)) (s : State) : State :=
  l.foldl (fun s p => followMove p.1 p.2.1 p.2.2.1 p.2.2.2 s) (l.foldl (fun s p => squashDueStep p.1 s) s)

theorem movesFollowed_owners (l : List (Fin 48 × Nat × Nat × Bool)) (s : State) : OwnersKept s (movesFollowed l s) :=
  .trans (.foldl (.refl s) l fun u p => squashDueStep_owners p.1 u) (.foldl (.refl _) l fun u p => followMove_owners p.1 _ _ _ u)

theorem seamMove_of_one {r : SeamReq} {s : State} (h : s.seamMoves = [r]) :
    seamMove s = movesFollowed (followers s r) (carryMove { s with seamMoves := [] } r) := by
  unfold seamMove movesFollowed
  rw [h, List.flatMap_singleton]
  rfl

theorem completes_seamMove {r : SeamReq} {i : Fin 192} {s : State} (hone : s.seamMoves = [r]) (hi : seamIdx r.id s = some i) :
    Completes .seamMove s fun t => (seam t i).owner = (seam s i).other ∧ (seam t i).other = (seam s i).owner ∧
      (seam t i).moves = min ((seam s i).moves + 1) 255 ∧ t.seamMoves = [] ∧ flag t (pendBit 74) = true := by
  refine ⟨_, congrArg Host.Outcome.next (seamMove_of_one hone), ?_⟩
  obtain ⟨hmoves, hsides, hpend⟩ := carryMove_fields (s := { s with seamMoves := [] }) hi
  have hkept := movesFollowed_owners (followers s r) (carryMove { s with seamMoves := [] } r)
  have hall := (hkept.sides i).trans hsides
  simp only [Seam.sides, Seam.moved, Prod.mk.injEq, satN_eq_min] at hall
  obtain ⟨howner, hother, hcount⟩ := hall
  exact ⟨howner, hother, hcount, hkept.moves.trans hmoves, (hkept.regs.flag_eq (by decide)).trans hpend⟩

end Machine

open Machine in
/-- Settles O38: what the stalls do behind a move keeps the owners that the move has set. -/
theorem marshalSettings : Obligations.MarshalSettings :=
  ⟨fun _ _ v _ h => completes_marshalConfigWrite rfl v h, fun _ v _ h => completes_seamMoveWrite v h,
    fun _ _ _ hone hi => completes_seamMove hone hi⟩

end Sys2Proof

namespace Sys2Proof
namespace Machine

/-! ## The marshal's part of the state -/

theorem marshalTable_setStall (g : Fin 48) (f : Stall → Stall) (s : State) : marshalTable (setStall g f s) = marshalTable s := rfl

theorem marshalTable_complete (c : Fin 256) (q st : Nat) (a b : Option Nat) (g : Bool) (s : State) :
    marshalTable (complete c q st a b g s) = marshalTable s :=
  marshalTable_eq_iff.2 ⟨complete_seams c q st a b g s, complete_seamReqs c q st a b g s, complete_seamMoves c q st a b g s,
    complete_latePairs c q st a b g s, complete_mshOld c q st a b g s⟩

/-- The registers outside the marshal's chapter. -/
def besideMarshal (o : Nat) : Bool := !(decide (R.YRD_MSH_CTRL ≤ o) && decide (o < R.YRD_MSH_STALL 48))

theorem besideMarshal_eq_false_iff (o : Nat) : besideMarshal o = false ↔ R.YRD_MSH_CTRL ≤ o ∧ o < R.YRD_MSH_STALL 48 := by
  simp [besideMarshal]

theorem besideMarshal_of_ge {o : Nat} (h : R.YRD_MSH_STALL 48 ≤ o) : besideMarshal o = true := by simp [besideMarshal, h]

theorem besideMarshal_of_besideYard (o : Nat) (h : besideYard o = true) : besideMarshal o = true := by
  cases hm : besideMarshal o with
  | true => rfl
  | false =>
    obtain ⟨hlo, hhi⟩ := (besideMarshal_eq_false_iff o).1 hm
    simp only [R.YRD_MSH_CTRL, R.YRD_MSH_STALL] at hlo hhi
    rw [besideYard_yard (by omega) (by omega)] at h
    cases h

theorem besideMarshal_of_event (o : Nat) (h : eventReg o = true) : besideMarshal o = true :=
  besideMarshal_of_besideYard o (besideYard_of_event o h)

/-- The stroke records of a stall, and whether its next stroke is cleared. -/
def Stall.strokes (x : Stall) : List MRec × Bool := (x.recs, x.cleared)

/-- The marshal's registers, its table and the stroke records of every stall are kept. -/
structure MarshalKept (s t : State) : Prop where
  regs : OnlyWrites besideMarshal s t
  table : marshalTable t = marshalTable s
  strokes : ∀ g, (stall t g).strokes = (stall s g).strokes

namespace MarshalKept

variable {s t u : State}

theorem refl (s : State) : MarshalKept s s := ⟨.refl s, rfl, fun _ => rfl⟩

theorem trans (h : MarshalKept s t) (k : MarshalKept t u) : MarshalKept s u :=
  ⟨h.regs.trans k.regs, k.table.trans h.table, fun g => (k.strokes g).trans (h.strokes g)⟩

/-- What leaves the table and the stalls alone is judged by its registers. -/
theorem of_regs (h : OnlyWrites besideMarshal s t) (ht : marshalTable t = marshalTable s) (hs : t.stalls = s.stalls) :
    MarshalKept s t := ⟨h, ht, fun g => by rw [stall_congr hs]⟩

theorem ite {c : Prop} [Decidable c] (h : MarshalKept s t) (k : MarshalKept s u) : MarshalKept s (if c then t else u) := by
  split <;> assumption

theorem wrN (h : MarshalKept s t) {o : Nat} (ho : besideMarshal o = true) (v : Nat) : MarshalKept s (wrN t o v) :=
  h.trans (of_regs (.wrN (.refl t) v ho) rfl rfl)

theorem put (h : MarshalKept s t) {f : Fld} (hf : besideMarshal f.off = true) (v : Nat) : MarshalKept s (put t f v) := h.wrN hf _

theorem emit (h : MarshalKept s t) (x : Out) : MarshalKept s (emit x t) := h.trans (of_regs (.emit (.refl t) x) rfl rfl)

theorem lifeAdd (h : MarshalKept s t) (k n : Nat) : MarshalKept s (lifeAdd t k n) :=
  h.trans (of_regs (.lifeAdd (.refl t) k n) rfl rfl)

theorem raise (h : MarshalKept s t) {n : Nat} (hn : n < 512) : MarshalKept s (raise n t) :=
  h.trans (of_regs (.raise (.refl t) hn besideMarshal_of_event) (marshalTable_raise n t) (raise_stalls n t))

theorem complete (h : MarshalKept s t) (c : Fin 256) (q st : Nat) (a b : Option Nat) (g : Bool) :
    MarshalKept s (complete c q st a b g t) :=
  h.trans (of_regs (.complete (.refl t) c q st a b g) (marshalTable_complete c q st a b g t) (complete_stalls c q st a b g t))

theorem setStall (h : MarshalKept s t) (g : Fin 48) {f : Stall → Stall} (hf : ∀ x, (f x).strokes = x.strokes) :
    MarshalKept s (setStall g f t) :=
  h.trans ⟨.setStall (.refl t) g f, marshalTable_setStall g f t, fun k => by
    obtain rfl | hne := eq_or_ne k g
    · rw [stall_setStall_same, hf]
    · rw [stall_setStall_other f t hne]⟩

theorem foldl {β : Type} {f : State → β → State} (h : MarshalKept s t) (l : List β) (hf : ∀ u, ∀ b ∈ l, MarshalKept u (f u b)) :
    MarshalKept s (l.foldl f t) :=
  List.foldlRecOn _ _ h fun u hu b hb => hu.trans (hf u b hb)

theorem forAll {n : Nat} {f : Fin n → State → State} (h : MarshalKept s t) (hf : ∀ i u, MarshalKept u (f i u)) :
    MarshalKept s (forAll n f t) := h.foldl _ fun u i _ => hf i u

theorem tellStall (h : MarshalKept s t) (g : Nat) (ops : List Nat) (st : Nat) (a b : Option Nat) :
    MarshalKept s (tellStall g ops st a b t) :=
  h.foldl _ fun u c _ => (refl u).foldl _ fun v q _ => (refl v).complete c q st a b false

end MarshalKept

/-! ## What the marshal's registers show (R180) -/

theorem ne_of_besideMarshal {o p : Nat} (h : besideMarshal o = false) (hp : besideMarshal p = true) : o ≠ p := by
  rintro rfl
  rw [h] at hp
  cases hp

theorem viewWord_marshal {o : Nat} (h : besideMarshal o = false) (s : State) : viewWord o s = none := by
  have hcle : (fins 6).find? (fun (t : Fin 6) => o == R.CLE_STATUS t) = none :=
    List.find?_eq_none.2 fun t _ ht => ne_of_besideMarshal h
      (besideMarshal_of_besideYard _ (besideYard_of_ge (by simp only [R.CLE_STATUS, cleBase]; omega))) (beq_iff_eq.1 ht)
  rw [viewWord, hcle, if_neg (ne_of_besideMarshal (p := R.TMS_NOW) h (by decide)),
    if_neg (ne_of_besideMarshal (p := R.TMS_NOW + 4) h (by decide)),
    if_neg (ne_of_besideMarshal (p := R.YRD_LAYER_STATUS) h (by decide)),
    if_neg (ne_of_besideMarshal (p := R.YRD_HEARTBEAT_STATUS) h (by decide))]

/-- Of the marshal's registers only MSH_SEAM_INFO follows from other state. -/
theorem shownSingle_marshal {o : Nat} (h : besideMarshal o = false) (s : State) : shownSingle o s =
    if o = R.YRD_MSH_SEAM_INFO ∨ o = R.YRD_MSH_SEAM_INFO + 4 then some (half o R.YRD_MSH_SEAM_INFO (seamInfo (selSeam s)))
    else none := by
  obtain ⟨hlo, hhi⟩ := (besideMarshal_eq_false_iff o).1 h
  simp only [R.YRD_MSH_CTRL, R.YRD_MSH_STALL] at hlo hhi
  have hctx : ¬ (0x11000 ≤ o ∧ o < 0x15000) := by omega
  have hport (p : Prop) : ¬ (0xC0000 ≤ o ∧ o < 0xC0200 ∧ p) := by omega
  unfold shownSingle
  rw [viewWord_marshal h]
  simp (disch :=
    simp only [R.YRD_LAYER_DEADLINE_STATUS, R.YRD_STALL_SUMMARY, R.HIF_INFLIGHT, R.GTE_STATUS, R.GTE_TXN_INFO, R.GTE_TXN_TIME,
      R.GTE_TXN_EXPIRE, R.DMC_ELOG_ENTRY, R.DMC_CH_QUEUE, R.PORT_CCI_STATUS, R.TCK_RT_BASE, R.TCK_RT_LIMIT, R.TCK_RT_ATTR,
      R.LMP_STATUS, R.EVC_STATUS, R.EVC_VEC, R.ERW_STATUS, R.BOOT_IMG_INFO, R.DGN_TRACE_FILL]
    omega) only [if_neg]
  rw [if_neg hctx, if_neg (hport _)]

theorem shown_marshal {o : Nat} (h : besideMarshal o = false) (s : State) : shown o s =
    if o = R.YRD_MSH_SEAM_INFO ∨ o = R.YRD_MSH_SEAM_INFO + 4 then half o R.YRD_MSH_SEAM_INFO (seamInfo (selSeam s)) % 2 ^ 32
    else rdN s o := by
  obtain ⟨-, hhi⟩ := (besideMarshal_eq_false_iff o).1 h
  simp only [R.YRD_MSH_STALL] at hhi
  rw [shown, if_neg (by omega), shownSingle_marshal h]
  split
  · rfl
  · exact Nat.mod_eq_of_lt (rdN_lt s o)

/-- Where the marshal's part is kept, its registers show the same. -/
theorem MarshalKept.shown_eq {s t : State} (h : MarshalKept s t) {o : Nat} (ho : besideMarshal o = false) :
    shown o t = shown o s := by
  obtain ⟨hseams, -⟩ := marshalTable_eq_iff.1 h.table
  have hsel : selSeam t = selSeam s := by
    simp only [selSeam, h.regs R.YRD_MSH_SEAM_SEL (by decide), hseams]
  rw [shown_marshal ho, shown_marshal ho, hsel, h.regs o ho]

/-! ## A function-level reset (R68, R188) -/

theorem Stall.strokes_held (x : Stall) : x.held.strokes = x.strokes := by
  unfold Stall.held Stall.abortWaits
  split_ifs <;> rfl

theorem countHold_marshal (g causes : Nat) (s : State) : MarshalKept s (countHold g causes s) :=
  .foldl (.refl s) _ fun u _ _ => .ite (.lifeAdd (.refl u) _ _) (.refl u)

theorem enterHold_marshal (g : Fin 48) (causes ret : Nat) (s : State) : MarshalKept s (enterHold g causes ret s) := by
  have hst : besideMarshal (R.STALL_STATE g) = true := besideMarshal_of_besideYard _ (besideYard_stall g 0x8)
  have hheld : MarshalKept s (heldState g causes ret s) := .put (.put (.put (.put (.refl s) hst _) hst _) hst _) hst 0
  have hcounted := (hheld.setStall g Stall.strokes_held).trans (countHold_marshal g causes _)
  rw [enterHold_eq]
  exact .tellStall (.raise hcounted (stallEv_lt g (by decide))) _ _ _ _ _

theorem requestHold_marshal (g : Fin 48) (c : Nat) (s : State) : MarshalKept s (requestHold g c s) := by
  have hst : besideMarshal (R.STALL_STATE g) = true := besideMarshal_of_besideYard _ (besideYard_stall g 0x8)
  have hask : MarshalKept s (setStall g (fun x => { x with holdReq := x.holdReq ||| c }) s) := .setStall (.refl s) g fun _ => rfl
  exact .ite (.put (.refl s) hst _) (.ite (.put hask hst 1) (.ite hask (.refl s)))

theorem heartbeatStall_marshal (g : Fin 48) (s : State) : MarshalKept s (heartbeatStall g s) := by
  unfold heartbeatStall
  extract_lets s1 st
  have h1 : MarshalKept s s1 := .put (.refl s) (besideMarshal_of_besideYard _ (besideYard_stall g 0x8)) 1
  exact .ite (h1.trans (enterHold_marshal g _ _ s1)) (.ite (h1.trans (requestHold_marshal g _ s1)) h1)

theorem expiryShown_marshal (s : State) : MarshalKept s (expiryShown s) := by
  have hmark : MarshalKept s { s with hbTold := true } := .of_regs (.regs (.refl s) rfl) rfl rfl
  exact .raise (.lifeAdd (.put (.put hmark (by decide) 1) (by decide) 1) _ _) (by decide)

/-- The loss of the heartbeat keeps the marshal's part: it writes registers of the stalls and the axes. -/
theorem heartbeatLost_marshal (s : State) : MarshalKept s (heartbeatLost s) :=
  .forAll (.forAll (expiryShown_marshal s) heartbeatStall_marshal) fun _ u => .of_regs (.regs (.refl u) rfl) rfl rfl

theorem cutContexts_marshal (s : State) : MarshalKept s (cutContexts s) :=
  .forAll (.refl s) fun _ u => .ite (.refl u) (.of_regs (.regs (.refl u) rfl) rfl rfl)

theorem cutCommand_marshal (s : State) : MarshalKept s (cutCommand s) := by
  have hstatus (o : Nat) (ho : (o == R.HIF_CTX_CMD_STATUS) = true) : besideMarshal o = true := by
    rw [eq_of_beq ho]
    decide
  unfold cutCommand
  split
  next c _ =>
    have hnone : MarshalKept s { s with hifCmd := none } := .of_regs (.regs (.refl s) rfl) rfl rfl
    exact .ite (.refl s) (.put (hnone.trans (.of_regs ((cmdStatus_writes c 2 0 _).mono hstatus) rfl rfl)) (by decide) 0)
  next => exact .refl s

theorem msixReset_marshal (s : State) : MarshalKept s (msixReset s) :=
  .of_regs ((msixReset_writes s).mono fun o ho => by
    simp only [msixReg, Bool.and_eq_true, decide_eq_true_eq] at ho
    exact besideMarshal_of_besideYard o (by simp [besideYard]; omega)) rfl rfl

theorem mboxCut_marshal (s : State) : MarshalKept s (mboxCut s) := .ite (.of_regs (.regs (.refl s) rfl) rfl rfl) (.refl s)

/-- A function-level reset keeps the marshal's part. -/
theorem hostReset_marshal (s : State) : MarshalKept s (hostReset s) := by
  have hcut : MarshalKept s (hostCut s) :=
    .trans (.trans (cutContexts_marshal s) (cutCommand_marshal _)) (msixReset_marshal _)
  have hver : MarshalKept s (versionCleared (hostCut s)) := .put (.wrN hcut (by decide) 0) (by decide) 0
  have hrep : MarshalKept s (cutReported (mboxCut (versionCleared (hostCut s)))) :=
    .raise (.lifeAdd (.put (hver.trans (mboxCut_marshal _)) (by decide) 1) _ _) (by decide)
  rw [hostReset_eq]
  exact hrep.trans (heartbeatLost_marshal _)

/-! ## A device reset (R10, R188) -/

namespace MarshalKept

variable {s t : State}

theorem keepReg (h : MarshalKept s t) (old : State) {o : Nat} (ho : besideMarshal o = true) : MarshalKept s (keepReg old o t) :=
  h.wrN ho _

theorem keepField (h : MarshalKept s t) (old : State) {f : Fld} (hf : besideMarshal f.off = true) :
    MarshalKept s (keepField old f t) := h.put hf _

theorem foldl_keepReg (h : MarshalKept s t) (old : State) (l : List Nat) (hl : ∀ o ∈ l, besideMarshal o = true) :
    MarshalKept s (l.foldl (fun s o => Machine.keepReg old o s) t) :=
  h.foldl l fun u o ho => (refl u).keepReg old (hl o ho)

theorem keptFuses (h : MarshalKept s t) (old : State) : MarshalKept s (keptFuses old t) :=
  (h.foldl_keepReg old _ (by decide)).foldl _ fun u f hf => (refl u).keepField old (by
    revert f
    decide)

theorem keptTries (h : MarshalKept s t) (old : State) : MarshalKept s (keptTries old t) :=
  ite (h.keepField old (by decide)) h

theorem keptThermal (h : MarshalKept s t) (old : State) : MarshalKept s (keptThermal old t) := by
  unfold Machine.keptThermal
  extract_lets s1 s2
  have h1 : MarshalKept s s1 := h.keepField old (by decide)
  have h2 : MarshalKept s s2 := (h1.put (by decide) _).put (by decide) _
  exact ite (h2.trans (of_regs (.regs (.refl s2) rfl) rfl rfl)) h1

theorem keptCrystal (h : MarshalKept s t) (old : State) : MarshalKept s (keptCrystal old t) :=
  have h1 : MarshalKept s (Machine.keepField old F.CPM_STATUS_AO_XTAL t) := h.keepField old (by decide)
  ite ((h1.put (by decide) _).put (by decide) _) h1

theorem keptIsland (h : MarshalKept s t) (old : State) : MarshalKept s (keptIsland old t) := by
  unfold Machine.keptIsland
  refine foldl_keepReg ?_ old _ (by decide)
  exact h.trans (of_regs (.regs (.refl t) rfl) rfl rfl)

theorem keptTsets (h : MarshalKept s t) (old : State) : MarshalKept s (keptTsets old t) :=
  h.foldl _ fun u i _ => (refl u).keepReg old (besideMarshal_of_ge (by simp only [R.YRD_MSH_STALL, R.DMC_TSET]; omega))

theorem tellPairs (h : MarshalKept s t) (old : State) : MarshalKept s (tellPairs old t) :=
  h.forAll fun _ u => ite (refl u) ((refl u).emit _)

theorem tellAxisPins (h : MarshalKept s t) (a : Fin 8) (n : Nat) (old : State) : MarshalKept s (tellAxisPins a n old t) := by
  unfold Machine.tellAxisPins
  extract_lets s0 s1
  have h0 : MarshalKept s s0 := ite h (h.emit _)
  have h1 : MarshalKept s s1 := ite h0 (h0.emit _)
  exact ite h1 (h1.emit _)

theorem resetAxisPins (h : MarshalKept s t) (old : State) (a : Fin 8) : MarshalKept s (resetAxisPins old a t) :=
  ite ((h.tellAxisPins a _ old).emit _) (h.tellAxisPins a _ old)

theorem resetPortPins (h : MarshalKept s t) (old : State) (p : Fin 8) : MarshalKept s (resetPortPins old p t) :=
  ite (h.emit _) h

theorem ungate (h : MarshalKept s t) (k : Nat) : MarshalKept s (ungate k t) := by
  unfold Machine.ungate
  split
  next f hf => exact ite (h.put (besideMarshal_of_besideYard _ (besideYard_of_ge (gateBit_ge hf))) 0) h
  next => exact h

theorem resetBayPins (h : MarshalKept s t) (old : State) (b : Fin 12) : MarshalKept s (resetBayPins old b t) :=
  ite h (((ite h (h.ungate _)).put (besideMarshal_of_besideYard _ (besideYard_lnk b 8)) _).emit _)

theorem resetSinglePins (h : MarshalKept s t) (old : State) : MarshalKept s (resetSinglePins old t) := by
  unfold Machine.resetSinglePins
  extract_lets s1 s2
  have h1 : MarshalKept s s1 := ite (h.emit _) h
  have h2 : MarshalKept s s2 := ite h1 (h1.emit _)
  exact ite (h2.emit _) h2

theorem resetPins (h : MarshalKept s t) (old : State) : MarshalKept s (resetPins old t) :=
  resetSinglePins ((((h.tellPairs old).forAll fun a u => (refl u).resetAxisPins old a).forAll
    fun p u => (refl u).resetPortPins old p).forAll fun b u => (refl u).resetBayPins old b) old

end MarshalKept

/-- Behind `keptState` a device reset leaves the marshal's part as the reset gives it. -/
theorem deviceReset_marshal (s : State) : MarshalKept (keptState s) (deviceReset s) :=
  have hfresh := ((((MarshalKept.refl (keptState s)).keptFuses s).keptTries s).keptThermal s).keptCrystal s
  .resetPins (.lifeAdd ((hfresh.keptIsland s).keptTsets s) _ _) s

/-- A free entry of the seam table. -/
def Seam.free : Seam := ⟨0, 0, 0, 0, false, false, 0, 0⟩

theorem seam_keptState (s : State) (i : Fin 192) : seam (keptState s) i = Seam.free := Vector.getElem_replicate _

theorem stall_keptState (s : State) (g : Fin 48) : stall (keptState s) g = Stall.init := Vector.getElem_replicate _

theorem rdN_keptState (s : State) (o : Nat) : rdN (keptState s) o = (resetWord o).toNat := rfl

/-- Every register of the marshal shows its reset value, MSH_SEAM_INFO that of a free entry. -/
theorem shown_keptState (s : State) {o : Nat} (ho : besideMarshal o = false) : shown o (keptState s) = (resetWord o).toNat := by
  have hsel : selSeam (keptState s) = Seam.free := seam_keptState s _
  rw [shown_marshal ho, hsel, rdN_keptState]
  split
  next h =>
    obtain rfl | rfl := h
    · decide +kernel
    · decide +kernel
  next => rfl

theorem completes_deviceReset (s : State) :
    Completes .deviceReset s fun t =>
      (∀ o, R.YRD_MSH_CTRL ≤ o → o < R.YRD_MSH_STALL 48 → shown o t = (resetWord o).toNat ∧ rdN t o = (resetWord o).toNat) ∧
      (∀ i : Fin 192, (seam t i).st = 0) ∧ t.seamReqs = [] ∧ t.seamMoves = [] ∧ t.latePairs = [] ∧ t.mshOld = [] ∧
      ∀ g : Fin 48, (stall t g).recs = [] ∧ (stall t g).cleared = false := by
  have h := deviceReset_marshal s
  obtain ⟨hseams, hreqs, hmoves, hlate, hold⟩ := marshalTable_eq_iff.1 h.table
  refine ⟨deviceReset s, rfl, fun o hlo hhi => ?_, fun i => ?_, hreqs, hmoves, hlate, hold, fun g => ?_⟩
  · have ho := (besideMarshal_eq_false_iff o).2 ⟨hlo, hhi⟩
    exact ⟨(h.shown_eq ho).trans (shown_keptState s ho), (h.regs o ho).trans (rdN_keptState s o)⟩
  · rw [seam_congr hseams, seam_keptState]
    rfl
  · have hg := h.strokes g
    rw [stall_keptState] at hg
    exact Prod.mk.inj hg

theorem completes_functionLevelReset (s : State) :
    Completes .functionLevelReset s fun t =>
      (∀ o, R.YRD_MSH_CTRL ≤ o → o < R.YRD_MSH_STALL 48 → shown o t = shown o s ∧ rdN t o = rdN s o) ∧
      t.seams = s.seams ∧ t.seamReqs = s.seamReqs ∧ t.seamMoves = s.seamMoves ∧ t.latePairs = s.latePairs ∧
      t.mshOld = s.mshOld ∧
      ∀ g : Fin 48, (stall t g).recs = (stall s g).recs ∧ (stall t g).cleared = (stall s g).cleared := by
  have h := hostReset_marshal s
  obtain ⟨hseams, hreqs, hmoves, hlate, hold⟩ := marshalTable_eq_iff.1 h.table
  refine ⟨hostReset s, rfl, fun o hlo hhi => ?_, hseams, hreqs, hmoves, hlate, hold, fun g => Prod.mk.inj (h.strokes g)⟩
  have ho := (besideMarshal_eq_false_iff o).2 ⟨hlo, hhi⟩
  exact ⟨h.shown_eq ho, h.regs o ho⟩

end Machine

open Machine in
/-- Settles O43: a device reset keeps the marshal's part of the fresh state, and a function-level reset that of the old one. -/
theorem marshalReset : Obligations.MarshalReset := fun s => ⟨completes_deviceReset s, completes_functionLevelReset s⟩

end Sys2Proof

/-!
The statements of chapter 07: the servo loops and their commands, the energy loops, and the loads of coefficients that a tick ends.
-/
namespace Sys2Proof
namespace Machine

/-! ## The servo of a stall (R212) -/

theorem srv_congr {s t : State} (h : t.srvs = s.srvs) (g : Fin 48) : srv t g = srv s g := by rw [srv, srv, h]

@[simp] theorem srv_setSrv_same (g : Fin 48) (f : Srv → Srv) (s : State) : srv (setSrv g f s) g = f (srv s g) :=
  Vector.getElem_set_self _

theorem srv_setSrv_other {g h : Fin 48} (f : Srv → Srv) (s : State) (hne : h ≠ g) : srv (setSrv g f s) h = srv s h :=
  Vector.getElem_set_ne g.isLt h.isLt fun e => hne (Fin.ext e.symm)

@[simp] theorem srv_put (s : State) (f : Fld) (v : Nat) (g : Fin 48) : srv (put s f v) g = srv s g := rfl

@[simp] theorem rdN_setSrv (g : Fin 48) (f : Srv → Srv) (s : State) (o : Nat) : rdN (setSrv g f s) o = rdN s o := rfl

/-! ## The registers of a closed-loop engine (R28) -/

theorem eventReg_srvState (g : Nat) : eventReg (R.SRV_STATE g) = false :=
  eventReg_of_ge (by simp only [R.SRV_STATE, cleBase]; omega)

theorem pendBit_ne_srvState {n : Nat} (hn : n < 512) (g : Nat) : R.SRV_STATE g ≠ (pendBit n).off := by
  simp only [R.SRV_STATE, cleBase, pendBit, R.EVC_PEND]
  omega

theorem cmdStatus_ne_srvState (st g : Nat) : R.CLE_SERVO_CMD_STATUS st ≠ R.SRV_STATE g := by
  simp only [R.CLE_SERVO_CMD_STATUS, R.SRV_STATE, cleBase]
  omega

/-! ## The end of a servo command (R216) -/

/-- A command that ends may show so in SERVO_CMD_STATUS. -/
theorem srvCmdDone_writes (g : Fin 48) (s : State) :
    OnlyWrites (· == R.CLE_SERVO_CMD_STATUS (g / 8)) s (srvCmdDone g s) := by
  unfold srvCmdDone
  extract_lets st s1
  have h1 : OnlyWrites (· == R.CLE_SERVO_CMD_STATUS (g / 8)) s s1 := .regs (.refl s) rfl
  clear_value s1
  split
  · exact .ite (.ite (h1.put 0 (beq_self_eq_true _)) h1) (.refl s)
  · exact .refl s

@[simp] theorem srvCmdDone_srvs (g : Fin 48) (s : State) : (srvCmdDone g s).srvs = s.srvs := by
  unfold srvCmdDone
  extract_lets st s1
  have h1 : s1.srvs = s.srvs := rfl
  clear_value s1
  split
  · split_ifs
    · exact h1
    · exact h1
    · rfl
  · rfl

/-- The end of a command leaves the servo's own registers. -/
theorem get_srvCmdDone (g h : Fin 48) (s : State) {f : Fld} (hf : f.off = R.SRV_STATE h) :
    get (srvCmdDone g s) f = get s f :=
  (srvCmdDone_writes g s).get_eq (beq_eq_false_iff_ne.2 (by rw [hf]; exact (cmdStatus_ne_srvState _ _).symm))

/-! ## Faults of a servo (R218) -/

@[simp] theorem rdN_countServo (g : Fin 48) (d a : Nat) (s : State) (o : Nat) : rdN (countServo g d a s) o = rdN s o :=
  List.foldlRecOn (motive := fun t => rdN t o = rdN s o) _ _ rfl fun _ ht _ _ => ht

/-- A servo fault as SRV_STATE and the event tell it. -/
def servoFaultTold (g : Fin 48) (d a : Nat) (s : State) : State :=
  raise (stableEv (g / 8) 5) (countServo g d a (put (put s (F.SRV_STATE_FAULT_DETAIL g) d) (F.SRV_STATE_FAULT_AXIS g) a))

/-- A closing or closed loop opens with its fault; what follows writes at most SERVO_CMD_STATUS. -/
theorem servoFault_opens {g : Fin 48} {d : Nat} {s : State} (hd : d ≠ 5) (hst : srvSt g s = 2 ∨ srvSt g s = 3) (a : Nat) :
    OnlyWrites (· == R.CLE_SERVO_CMD_STATUS (g / 8)) (put (servoFaultTold g d a s) (F.SRV_STATE_STATE g) 4)
      (servoFault g d a s) := by
  unfold servoFault
  extract_lets s1 s2 s3
  have h2 : s2 = servoFaultTold g d a s := rfl
  have h3 : s3 = srvCmdDone g (setSrv g (fun v => { v with closeReq := false }) (put s2 (F.SRV_STATE_STATE g) 4)) := by
    refine (if_neg (by omega)).trans ?_
    rw [if_neg hd, if_pos hst]
  rw [← h2]
  have hdone : OnlyWrites (· == R.CLE_SERVO_CMD_STATUS (g / 8)) (put s2 (F.SRV_STATE_STATE g) 4) s3 := by
    rw [h3]
    exact .trans (.setSrv (.refl _) g _) (srvCmdDone_writes g _)
  exact .ite hdone (hdone.faultNext g _)

theorem servoFaultTold_fields (g : Fin 48) (d a : Nat) (s : State) :
    get (servoFaultTold g d a s) (F.SRV_STATE_FAULT_DETAIL g) = d % 2 ^ 4 ∧
      get (servoFaultTold g d a s) (F.SRV_STATE_FAULT_AXIS g) = a % 2 ^ 3 ∧
      flag (servoFaultTold g d a s) (pendBit (stableEv (g / 8) 5)) = true := by
  have hev : stableEv (g / 8) 5 < 512 := stableEv_lt g (by decide)
  have hcount (t : State) (f : Fld) : get (countServo g d a t) f = get t f := by rw [Machine.get, rdN_countServo]; rfl
  refine ⟨?_, ?_, flag_raise_same hev _⟩
  · rw [servoFaultTold, get_raise hev _ (eventReg_srvState g), hcount, get_put_disjoint _ _ _ _ (by decide : 12 + 3 ≤ 32)
      (.inr (by decide : 8 + 4 ≤ 12)), get_put_same _ _ _ (by decide : 8 + 4 ≤ 32)]
    rfl
  · rw [servoFaultTold, get_raise hev _ (eventReg_srvState g), hcount, get_put_same _ _ _ (by decide : 12 + 3 ≤ 32)]
    rfl

/-- A closing or closed loop that meets a fault opens, and the fault is shown and told. -/
theorem servoFault_fields {g : Fin 48} {d : Nat} {s : State} (hd : d ≠ 5) (hst : srvSt g s = 2 ∨ srvSt g s = 3) (a : Nat) :
    srvSt g (servoFault g d a s) = 4 ∧ get (servoFault g d a s) (F.SRV_STATE_FAULT_DETAIL g) = d % 2 ^ 4 ∧
      get (servoFault g d a s) (F.SRV_STATE_FAULT_AXIS g) = a % 2 ^ 3 ∧
      flag (servoFault g d a s) (pendBit (stableEv (g / 8) 5)) = true := by
  have hw := servoFault_opens hd hst a
  have hkept : (R.SRV_STATE g == R.CLE_SERVO_CMD_STATUS (g / 8)) = false :=
    beq_eq_false_iff_ne.2 (cmdStatus_ne_srvState _ _).symm
  have hev : stableEv (g / 8) 5 < 512 := stableEv_lt g (by decide)
  obtain ⟨hdetail, haxis, htold⟩ := servoFaultTold_fields g d a s
  refine ⟨(hw.get_eq hkept).trans (get_put_same _ _ _ (by decide : 0 + 3 ≤ 32)), (hw.get_eq hkept).trans ?_,
    (hw.get_eq hkept).trans ?_, (hw.flag_eq ?_).trans ?_⟩
  · rw [get_put_disjoint _ _ _ _ (by decide : 0 + 3 ≤ 32) (.inl (by decide : 0 + 3 ≤ 8)), hdetail]
  · rw [get_put_disjoint _ _ _ _ (by decide : 0 + 3 ≤ 32) (.inl (by decide : 0 + 3 ≤ 12)), haxis]
  · simp only [pendBit, R.EVC_PEND, R.CLE_SERVO_CMD_STATUS, cleBase, beq_eq_false_iff_ne]
    omega
  · rw [flag_put_other _ _ _ _ (pendBit_ne_srvState hev g), htold]

/-! ## Servo commands (R216) -/

theorem servoShow_fields (st : Nat) {u cmd r : Nat} (hu : u < 8) (hcmd : cmd < 4) (hr : r < 16) (s : State) :
    get (servoShow st u cmd r s) (F.CLE_SERVO_CMD_STATUS_STALL st) = u ∧
      get (servoShow st u cmd r s) (F.CLE_SERVO_CMD_STATUS_CMD st) = cmd ∧
      get (servoShow st u cmd r s) (F.CLE_SERVO_CMD_STATUS_RESULT st) = r := by
  unfold servoShow
  refine ⟨?_, ?_, ?_⟩
  · rw [get_put_disjoint _ _ _ _ (by decide : 8 + 4 ≤ 32) (.inr (by decide : 0 + 3 ≤ 8)),
      get_put_disjoint _ _ _ _ (by decide : 4 + 2 ≤ 32) (.inr (by decide : 0 + 3 ≤ 4)),
      get_put_same _ _ _ (by decide : 0 + 3 ≤ 32)]
    exact Nat.mod_eq_of_lt hu
  · rw [get_put_disjoint _ _ _ _ (by decide : 8 + 4 ≤ 32) (.inr (by decide : 4 + 2 ≤ 8)),
      get_put_same _ _ _ (by decide : 4 + 2 ≤ 32)]
    exact Nat.mod_eq_of_lt hcmd
  · rw [get_put_same _ _ _ (by decide : 8 + 4 ≤ 32)]
    exact Nat.mod_eq_of_lt hr

theorem servoRefusal_lt (st : Fin 6) (g : Fin 48) (cmd : Nat) (s : State) : servoRefusal st g cmd s < 16 := by
  unfold servoRefusal
  dsimp only
  split_ifs <;> decide

/-- SERVO_CMD_STATUS shows a command with the result of its judgement. -/
def CommandShown (st : Fin 6) (u : Fin 8) (cmd r : Nat) (t : State) : Prop :=
  get t (F.CLE_SERVO_CMD_STATUS_STALL st) = u.val ∧ get t (F.CLE_SERVO_CMD_STATUS_CMD st) = cmd ∧
    get t (F.CLE_SERVO_CMD_STATUS_RESULT st) = r

theorem CommandShown.of_rdN {st : Fin 6} {u : Fin 8} {cmd r : Nat} {s t : State} (h : CommandShown st u cmd r s)
    (ht : rdN t (R.CLE_SERVO_CMD_STATUS st) = rdN s (R.CLE_SERVO_CMD_STATUS st)) : CommandShown st u cmd r t := by
  have hget {f : Fld} (hf : f.off = R.CLE_SERVO_CMD_STATUS st) : get t f = get s f := by rw [Machine.get, hf, ht, ← hf]; rfl
  obtain ⟨hu, hcmd, hr⟩ := h
  exact ⟨(hget rfl).trans hu, (hget rfl).trans hcmd, (hget rfl).trans hr⟩

/-- A command that is refused is shown with its result and changes no servo. -/
theorem servoCommand_refused {st : Fin 6} {u : Fin 8} {cmd : Nat} {s : State} (hcmd : cmd < 4)
    (h : servoRefusal st (stallOf st u) cmd s ≠ 0) :
    CommandShown st u cmd (servoRefusal st (stallOf st u) cmd s) (servoCommand st u cmd s) ∧
      flag (servoCommand st u cmd s) (F.CLE_FLAGS_SERVO_CMD_REFUSED st) = true ∧ (servoCommand st u cmd s).srvs = s.srvs := by
  have hne : (F.CLE_FLAGS_SERVO_CMD_REFUSED st).off ≠ R.CLE_SERVO_CMD_STATUS st :=
    fun e => by simp only [F.CLE_FLAGS_SERVO_CMD_REFUSED, R.CLE_FLAGS, R.CLE_SERVO_CMD_STATUS] at e; omega
  unfold servoCommand
  extract_lets g r s1
  rw [if_pos h]
  have hshown : CommandShown st u cmd r (servoShow st u cmd r s) := servoShow_fields st u.isLt hcmd (servoRefusal_lt ..) s
  exact ⟨hshown.of_rdN (rdN_put_other _ _ _ hne), flag_setF_same _ _ (by decide : 2 + 1 ≤ 32) rfl, rfl⟩

/-- A command that is taken is in progress in its stable. -/
def commandTaken (st : Fin 6) (u : Fin 8) (cmd : Nat) (s : State) : State :=
  servoShow st u cmd 1 { s with srvCmd := vset s.srvCmd st (some (u.val, cmd)) }

theorem commandTaken_fields (st : Fin 6) (u : Fin 8) {cmd : Nat} (hcmd : cmd < 4) (s : State) :
    CommandShown st u cmd 1 (commandTaken st u cmd s) ∧ (commandTaken st u cmd s).srvCmd[st.val] = some (u.val, cmd) :=
  ⟨servoShow_fields st u.isLt hcmd (by decide) _, Vector.getElem_set_self _⟩

/-- A CLOSE that is taken waits for the next boundary, and the fault fields are clear. -/
theorem servoCommand_close {st : Fin 6} {u : Fin 8} {s : State} (h : servoRefusal st (stallOf st u) 1 s = 0) :
    CommandShown st u 1 1 (servoCommand st u 1 s) ∧ (servoCommand st u 1 s).srvCmd[st.val] = some (u.val, 1) ∧
      (srv (servoCommand st u 1 s) (stallOf st u)).closeReq = true ∧
      get (servoCommand st u 1 s) (F.SRV_STATE_FAULT_DETAIL (stallOf st u)) = 0 ∧
      get (servoCommand st u 1 s) (F.SRV_STATE_FAULT_AXIS (stallOf st u)) = 7 := by
  obtain ⟨hshown, hcmd⟩ := commandTaken_fields st u (by decide : 1 < 4) s
  have he : servoCommand st u 1 s = put (clrF (setSrv (stallOf st u) (fun v => { v with closeReq := true })
      (commandTaken st u 1 s)) (F.SRV_STATE_FAULT_DETAIL (stallOf st u))) (F.SRV_STATE_FAULT_AXIS (stallOf st u)) 7 :=
    (if_neg (not_not.2 h)).trans (if_pos rfl)
  have hne (f : Fld) (hf : f.off = R.SRV_STATE (stallOf st u)) : f.off ≠ R.CLE_SERVO_CMD_STATUS st := by
    rw [hf]; exact (cmdStatus_ne_srvState _ _).symm
  rw [he]
  refine ⟨hshown.of_rdN ?_, hcmd, ?_, ?_, get_put_same _ _ _ (by decide : 12 + 3 ≤ 32)⟩
  · rw [rdN_put_other _ _ _ (hne _ rfl), clrF, rdN_put_other _ _ _ (hne _ rfl), rdN_setSrv]
  · rw [srv_put, clrF, srv_put, srv_setSrv_same]
  · rw [get_put_disjoint _ _ _ _ (by decide : 12 + 3 ≤ 32) (.inr (by decide : 8 + 4 ≤ 12))]
    exact get_put_same _ _ _ (by decide : 8 + 4 ≤ 32)

/-- An OPEN that is taken makes the state OPENING. -/
theorem servoCommand_open {st : Fin 6} {u : Fin 8} {s : State} (h : servoRefusal st (stallOf st u) 2 s = 0) :
    CommandShown st u 2 1 (servoCommand st u 2 s) ∧ (servoCommand st u 2 s).srvCmd[st.val] = some (u.val, 2) ∧
      srvSt (stallOf st u) (servoCommand st u 2 s) = 4 := by
  obtain ⟨hshown, hcmd⟩ := commandTaken_fields st u (by decide : 2 < 4) s
  have he : servoCommand st u 2 s = put (commandTaken st u 2 s) (F.SRV_STATE_STATE (stallOf st u)) 4 :=
    (if_neg (not_not.2 h)).trans (if_neg (by decide))
  rw [he]
  exact ⟨hshown.of_rdN (rdN_put_other _ _ _ (cmdStatus_ne_srvState _ _).symm), hcmd,
    get_put_same _ _ _ (by decide : 0 + 3 ≤ 32)⟩

theorem exec_servoCommand {sec : Bool} {st : Fin 6} {u : Fin 8} {s : State} {i : Instr} {cmd : Nat}
    (h : accessOk sec (R.CLE_SERVO_CMD st) s = true) (hi : (i, cmd) ∈ [(.servoClose sec st u, 1), (.servoOpen sec st u, 2)]) :
    exec i s = .next (servoCommand st u cmd s) := by
  simp only [List.mem_cons, List.not_mem_nil, or_false, Prod.mk.injEq] at hi
  obtain ⟨rfl, rfl⟩ | ⟨rfl, rfl⟩ := hi
  · exact congrArg Host.Outcome.next (hostWrite_ok h _)
  · exact congrArg Host.Outcome.next (hostWrite_ok h _)

theorem completes_servoCommand {sec : Bool} {st : Fin 6} {u : Fin 8} {s : State} {i : Instr} {cmd : Nat}
    (h : accessOk sec (R.CLE_SERVO_CMD st) s = true) (hi : (i, cmd) ∈ [(.servoClose sec st u, 1), (.servoOpen sec st u, 2)]) :
    Completes i s fun t =>
      get t (F.CLE_SERVO_CMD_STATUS_STALL st) = u.val ∧ get t (F.CLE_SERVO_CMD_STATUS_CMD st) = cmd ∧
      if servoRefusal st (stallOf st u) cmd s = 0 then
        get t (F.CLE_SERVO_CMD_STATUS_RESULT st) = 1 ∧ t.srvCmd[st.val] = some (u.val, cmd) ∧
        (cmd = 1 → (srv t (stallOf st u)).closeReq = true ∧ get t (F.SRV_STATE_FAULT_DETAIL (stallOf st u)) = 0 ∧
          get t (F.SRV_STATE_FAULT_AXIS (stallOf st u)) = 7) ∧
        (cmd = 2 → srvSt (stallOf st u) t = 4)
      else get t (F.CLE_SERVO_CMD_STATUS_RESULT st) = servoRefusal st (stallOf st u) cmd s ∧
        flag t (F.CLE_FLAGS_SERVO_CMD_REFUSED st) = true ∧ t.srvs = s.srvs := by
  have hcmd : cmd = 1 ∨ cmd = 2 := by simp only [List.mem_cons, List.not_mem_nil, or_false, Prod.mk.injEq] at hi; omega
  refine ⟨_, exec_servoCommand h hi, ?_⟩
  beta_reduce
  by_cases hr : servoRefusal st (stallOf st u) cmd s = 0
  · rw [if_pos hr]
    obtain rfl | rfl := hcmd
    · obtain ⟨⟨hu, hc, hres⟩, hbusy, hclose⟩ := servoCommand_close hr
      exact ⟨hu, hc, hres, hbusy, fun _ => hclose, nofun⟩
    · obtain ⟨⟨hu, hc, hres⟩, hbusy, hopen⟩ := servoCommand_open hr
      exact ⟨hu, hc, hres, hbusy, nofun, fun _ => hopen⟩
  · rw [if_neg hr]
    obtain ⟨⟨hu, hc, hres⟩, hflag, hsrvs⟩ := servoCommand_refused (by omega) hr
    exact ⟨hu, hc, hres, hflag, hsrvs⟩

/-! ## The ways of a loop from state to state (R216) -/

theorem completes_servoClosed {g : Fin 48} {s : State} (hst : srvSt g s = 2) (hset : 64 ≤ (srv s g).settle) :
    Completes (.servoClosed g) s fun t => srvSt g t = 3 ∧
      rdN t (R.SRV_CLOSES g) = (rdN s (R.SRV_CLOSES g) + 1) % 2 ^ 32 := by
  have hcloses : R.SRV_CLOSES g ≠ R.SRV_STATE g := by simp only [R.SRV_CLOSES, R.SRV_STATE]; omega
  have hstatus : (R.SRV_CLOSES g == R.CLE_SERVO_CMD_STATUS (g / 8)) = false := by
    simp only [R.SRV_CLOSES, R.CLE_SERVO_CMD_STATUS, beq_eq_false_iff_ne]
    omega
  refine ⟨_, congrArg Host.Outcome.next (if_pos ⟨hst, hset⟩), ?_, ?_⟩
  · rw [srvSt, get_srvCmdDone g g _ rfl, get_lifeAdd]
    exact (get_wrN_other _ (F.SRV_STATE_STATE g) _ hcloses).trans (get_put_same _ _ _ (by decide : 0 + 3 ≤ 32))
  · rw [srvCmdDone_writes g _ _ hstatus, rdN_lifeAdd, addW, rdN_wrN_same, rdN_put_other _ _ _ hcloses.symm]

theorem completes_closeTimeout {g : Fin 48} {s : State} (hst : srvSt g s = 2) (hlate : 25000 ≤ (srv s g).since)
    (hset : (srv s g).settle < 64) :
    Completes (.closeTimeout g) s fun t => srvSt g t = 4 ∧ get t (F.SRV_STATE_FAULT_DETAIL g) = 4 ∧
      get t (F.SRV_STATE_FAULT_AXIS g) = 3 ∧ flag t (pendBit (stableEv (g.val / 8) 5)) = true :=
  ⟨_, congrArg Host.Outcome.next (if_pos ⟨hst, hlate, hset⟩), servoFault_fields (by decide) (.inl hst) 3⟩

theorem completes_servoOpened {g : Fin 48} {s : State} (hst : srvSt g s = 4)
    (hzero : (srv s g).axes.toList.all (fun x => x.c1 == 0) = true) :
    Completes (.servoOpened g) s fun t => srvSt g t = 1 ∧ t.srvs = s.srvs := by
  refine ⟨_, congrArg Host.Outcome.next (if_pos ⟨hst, hzero⟩), ?_, srvCmdDone_srvs g _⟩
  exact (get_srvCmdDone g g _ rfl).trans (get_put_same _ _ _ (by decide : 0 + 3 ≤ 32))

/-- Settles O40: a command is shown with its judgement, and the end of a command writes at most SERVO_CMD_STATUS. -/
theorem servoCommands : Obligations.ServoCommands :=
  ⟨fun _ _ _ _ _ _ h hi => completes_servoCommand h hi, fun _ _ hst hset => completes_servoClosed hst hset,
    fun _ _ hst hlate hset => completes_closeTimeout hst hlate hset, fun _ _ hst hzero => completes_servoOpened hst hzero⟩

/-! ## What the evaluation of one servo leaves to the others (R213)

An evaluation visits the stalls one by one. A visit changes nothing that the visit of another stall reads or writes. -/

/-- Every visit of a loop over a range finds what the visits before it have kept for it, and those after it keep its own. -/
theorem forAll_visits_of {α : Type} {n : Nat} {f : Fin n → α → α} {V : Fin n → α → α → Prop} (hrefl : ∀ j x, V j x x)
    (htrans : ∀ j x y z, V j x y → V j y z → V j x z) (hf : ∀ i j, j ≠ i → ∀ x, V j x (f i x)) (x : α) (j : Fin n) :
    ∃ y, V j x y ∧ V j (f j y) (forAll n f x) := by
  obtain ⟨before, after, h⟩ := List.append_of_mem (List.mem_finRange j)
  have hnd : (before ++ j :: after).Nodup := h ▸ List.nodup_finRange n
  rw [List.nodup_append, List.nodup_cons] at hnd
  obtain ⟨-, ⟨hafter, -⟩, hbefore⟩ := hnd
  have hfold (l : List (Fin n)) (hl : ∀ i ∈ l, j ≠ i) (y : α) : V j y (l.foldl (fun x i => f i x) y) :=
    List.foldlRecOn (motive := V j y) l _ (hrefl j y) fun z hz i hi => htrans j _ _ _ hz (hf i j (hl i hi) z)
  refine ⟨before.foldl (fun x i => f i x) x, hfold before (fun i hi => (hbefore i hi j List.mem_cons_self).symm) x, ?_⟩
  rw [forAll, fins, h, List.foldl_append, List.foldl_cons]
  exact hfold after (fun i hi e => hafter (e ▸ hi)) _

/-- The registers beside those that the evaluation of a stall's servo reads. -/
def besideServo (g o : Nat) : Bool := !(o == R.SRV_STATE g || o == R.SRV_CUR_LIM g)

theorem besideServo_of {g o : Nat} (h : o < 0x200000 ∨ o % 0x1000 < 0x400 ∨ 8 ≤ o % 0x40) : besideServo g o = true := by
  simp only [besideServo, R.SRV_STATE, R.SRV_CUR_LIM, cleBase, Bool.not_eq_true', Bool.or_eq_false_iff, beq_eq_false_iff_ne]
  omega

theorem besideServo_of_event {g : Nat} (o : Nat) (h : eventReg o = true) : besideServo g o = true := by
  simp only [eventReg, decide_eq_true_eq] at h
  exact besideServo_of (by omega)

theorem besideServo_state {g h : Fin 48} (hne : g ≠ h) : besideServo g (R.SRV_STATE h) = true := by
  have hval : g.val ≠ h.val := fun e => hne (Fin.ext e)
  simp only [besideServo, R.SRV_STATE, R.SRV_CUR_LIM, cleBase, Bool.not_eq_true', Bool.or_eq_false_iff, beq_eq_false_iff_ne]
  omega

theorem besideServo_cle (g st : Nat) {k : Nat} (h : k < 0x400) : besideServo g (cleBase st + k) = true :=
  besideServo_of (by simp only [cleBase]; omega)

/-- What an evaluation reads besides registers and servos, and the boundary that is next. -/
def servoGround (s : State) : Vector Mem 6 × Vector (Nat × Nat × Nat) 128 × Nat := (s.lofts, s.rtab, s.boundary)

/-- Two states look the same to the evaluation of a stall's servo. -/
structure ServoView (g : Fin 48) (s t : State) : Prop where
  regs : OnlyWrites (besideServo g) s t
  servo : srv t g = srv s g
  ground : servoGround t = servoGround s

namespace ServoView

variable {g : Fin 48} {s t u : State}

theorem refl (s : State) : ServoView g s s := ⟨.refl s, rfl, rfl⟩

theorem trans (h : ServoView g s t) (k : ServoView g t u) : ServoView g s u :=
  ⟨h.regs.trans k.regs, k.servo.trans h.servo, k.ground.trans h.ground⟩

theorem of_regs (h : OnlyWrites (besideServo g) s t) (hs : t.srvs = s.srvs) (hg : servoGround t = servoGround s) :
    ServoView g s t := ⟨h, srv_congr hs g, hg⟩

/-- What touches neither registers nor servos. -/
theorem same (h : ServoView g s t) (hr : u.regs = t.regs) (hs : u.srvs = t.srvs) (hg : servoGround u = servoGround t) :
    ServoView g s u := h.trans (of_regs (.regs (.refl t) hr) hs hg)

theorem ite {c : Prop} [Decidable c] (h : ServoView g s t) (k : ServoView g s u) : ServoView g s (if c then t else u) := by
  split <;> assumption

theorem wrN (h : ServoView g s t) {o : Nat} (v : Nat) (ho : besideServo g o = true) : ServoView g s (wrN t o v) :=
  h.trans (of_regs (.wrN (.refl t) v ho) rfl rfl)

theorem put (h : ServoView g s t) {f : Fld} (v : Nat) (hf : besideServo g f.off = true) : ServoView g s (put t f v) :=
  h.wrN _ hf

theorem lifeAdd (h : ServoView g s t) (k n : Nat) : ServoView g s (lifeAdd t k n) := h.same rfl rfl rfl

theorem lifeMax (h : ServoView g s t) (k v : Nat) : ServoView g s (lifeMax t k v) := ite (h.same rfl rfl rfl) h

theorem lifeTime (h : ServoView g s t) (k dt : Nat) : ServoView g s (lifeTime t k dt) := h.same rfl rfl rfl

theorem setStall (h : ServoView g s t) (i : Fin 48) (f : Stall → Stall) : ServoView g s (setStall i f t) := h.same rfl rfl rfl

theorem setSrv (h : ServoView g s t) {i : Fin 48} (hne : g ≠ i) (f : Srv → Srv) : ServoView g s (setSrv i f t) :=
  h.trans ⟨.setSrv (.refl t) i f, srv_setSrv_other f t hne, rfl⟩

theorem raise (h : ServoView g s t) {n : Nat} (hn : n < 512) : ServoView g s (raise n t) :=
  h.trans (of_regs (.raise (.refl t) hn besideServo_of_event) (raise_srvs n t)
    (by rw [servoGround, raise_lofts, raise_rtab, raise_boundary]; rfl))

theorem foldl {β : Type} {f : State → β → State} (h : ServoView g s t) (l : List β) (hf : ∀ u b, ServoView g u (f u b)) :
    ServoView g s (l.foldl f t) := List.foldlRecOn _ _ h fun u hu b _ => hu.trans (hf u b)

theorem forAll {n : Nat} {f : Fin n → State → State} (h : ServoView g s t) (hf : ∀ i u, ServoView g u (f i u)) :
    ServoView g s (forAll n f t) := h.foldl _ fun u i => hf i u

theorem stateReg (h : ServoView g s t) {f : Fld} (hf : f.off = R.SRV_STATE g) : get t f = get s f :=
  h.regs.get_eq (by simp [besideServo, hf])

theorem limitReg (h : ServoView g s t) {f : Fld} (hf : f.off = R.SRV_CUR_LIM g) : get t f = get s f :=
  h.regs.get_eq (by simp [besideServo, hf])

theorem lofts (h : ServoView g s t) : t.lofts = s.lofts := (Prod.mk.inj h.ground).1

theorem rtab (h : ServoView g s t) : t.rtab = s.rtab := (Prod.mk.inj (Prod.mk.inj h.ground).2).1

theorem boundary (h : ServoView g s t) : t.boundary = s.boundary := (Prod.mk.inj (Prod.mk.inj h.ground).2).2

end ServoView

/-! ## Memory errors under a servo (R218, R384) -/

theorem logError_view (g : Fin 48) (kind synd ctx a : Nat) (s : State) : ServoView g s (logError kind synd ctx a s) := by
  unfold logError
  extract_lets nx i src new
  have hlow {o : Nat} (ho : o < 0x200000) : besideServo g o = true := besideServo_of (.inl ho)
  have hsrc : ServoView g s src := .put (.wrN (.refl s) _ (hlow (by decide))) _ (hlow (by decide))
  have hnew : ServoView g s new := hsrc.same rfl rfl rfl
  obtain hc | ⟨e, hc⟩ := Option.eq_none_or_eq_some (cellGet s.elog i)
  · rw [hc]
    exact hnew
  · rw [hc]
    exact .ite (.same (.refl s) rfl rfl rfl) hnew

theorem memError_view (g : Fin 48) (kind synd ctx a : Nat) (s : State) (ha : a < 0x1800000) :
    ServoView g s (memError kind synd ctx a s) := by
  have hm : errMemory a < 6 := by
    rw [errMemory, lpBase, if_neg (by omega), if_neg (by omega)]
    omega
  unfold memError
  extract_lets m bad s0 s1 s2
  have hlow {o : Nat} (ho : o < 0x200000) : besideServo g o = true := besideServo_of (.inl ho)
  have h0 : ServoView g s s0 := .ite (.ite (.same (.refl s) rfl rfl rfl) (.refl s)) (.refl s)
  have h1 : ServoView g s s1 := .ite (h0.trans (logError_view g _ _ _ _ _)) h0
  have h2 : ServoView g s s2 :=
    .ite (.lifeAdd (.wrN h1 _ (hlow (by decide))) _ _) (.lifeAdd (.wrN h1 _ (hlow (by decide))) _ _)
  have hev : stableEv m (b2n (decide bad)) < 512 := by
    have hb := b2n_le_one (decide bad)
    have : m < 6 := hm
    simp only [stableEv]
    omega
  have hlost : ServoView g s2 (commandsLost (Fin.ofNat 6 m) (a % 0x400000) s2) :=
    .foldl (.refl s2) _ fun u i => .ite (.setStall (.refl u) i _) (.refl u)
  rw [if_neg (show m ≠ 7 by omega), if_neg (show m ≠ 6 by omega)]
  exact .raise (.ite (h2.trans hlost) h2) hev

theorem servoSetError_view (g h : Fin 48) (a : Fin 3) (kind : Nat) (s : State) : ServoView g s (servoSetError h a kind s) := by
  unfold servoSetError loftError draw
  dsimp only
  refine ServoView.trans ?_ (memError_view g _ _ _ _ _ ?_)
  · exact .same (.refl s) rfl rfl rfl
  · simp only [stableOf]
    omega

/-! ## One servo beside another -/

theorem srvCmdDone_view (g h : Fin 48) (s : State) : ServoView g s (srvCmdDone h s) := by
  refine .of_regs (.mono (srvCmdDone_writes h s) fun o ho => ?_) (srvCmdDone_srvs h s) ?_
  · rw [beq_iff_eq.1 ho]
    exact besideServo_cle g _ (by decide)
  · unfold srvCmdDone
    dsimp only
    split
    · split_ifs <;> rfl
    · rfl

theorem servoFault_view {g h : Fin 48} (hne : g ≠ h) (d a : Nat) (s : State) : ServoView g s (servoFault h d a s) := by
  have hreg := besideServo_state hne
  unfold servoFault
  extract_lets s1 s2 s3
  have h1 : ServoView g s s1 := .put (.put (.refl s) d hreg) a hreg
  have h2 : ServoView g s s2 := .raise (.foldl h1 _ fun u _ => .lifeAdd (.refl u) _ _) (stableEv_lt h (by decide))
  have h3 : ServoView g s s3 :=
    .ite h2 (.trans (.setSrv (.ite (h2.put 0 hreg) (.ite (h2.put 4 hreg) h2)) hne _) (srvCmdDone_view g h _))
  exact .ite h3 (h3.setStall h _)

theorem countClips_view (g : Fin 48) (st n : Nat) (s : State) : ServoView g s (countClips st n s) :=
  have hcle {k : Nat} (h : k < 0x400) := besideServo_cle g st h
  .ite (.refl s) (.put (.lifeAdd (.wrN (.refl s) _ (hcle (by decide))) _ _) 1 (hcle (by decide)))

theorem besideServo_row (g h : Nat) {k : Nat} (hlo : 0x408 ≤ k) (hhi : k < 0x440) :
    besideServo g (cleBase (h / 8) + k + 0x40 * (h % 8)) = true :=
  besideServo_of (.inr (.inr (by simp only [cleBase]; omega)))

theorem besideServo_current (g h : Nat) (a : Fin 3) : besideServo g (R.SRV_CURRENT h a) = true :=
  besideServo_of (.inr (.inr (by simp only [R.SRV_CURRENT, cleBase]; omega)))

theorem besideServo_follow (g h : Nat) (a : Fin 3) : besideServo g (R.SRV_FOLLOW h a) = true :=
  besideServo_of (.inr (.inr (by simp only [R.SRV_FOLLOW, cleBase]; omega)))

/-- The law of an axis on what a state holds for it. -/
def axisLaw (g : Fin 48) (first : Bool) (sp : Int × Int × Int) (a : Fin 3) (s : State) : ServoOut :=
  let x := (srv s g).axes[a]
  servoLaw (coefAt (loft s (g / 8)) (servoOff g a)) (if first then x.start (spAxis sp a) else x) (spAxis sp a)
    (get s (F.SRV_CUR_LIM_CUR_LIM g)) (get s (F.SRV_CUR_LIM_CUR_SLEW g))

/-- An axis as its evaluation leaves it. -/
def axisAfter (g : Fin 48) (first : Bool) (sp : Int × Int × Int) (a : Fin 3) (s : State) : SrvAxis :=
  let x0 := (srv s g).axes[a]
  let x := if first then x0.start (spAxis sp a) else x0
  { (axisLaw g first sp a s).ax with
    miss := if x.sample.isNone then x.miss + 1 else 0, seen := x.seen || !x.sample.isNone, sample := none }

/-- Behind the axis itself an evaluation writes the current it shows, flags and counts. -/
theorem servoAxis_view (j g : Fin 48) (first : Bool) (sp : Int × Int × Int) (a : Fin 3) (s : State) :
    ServoView j (setSrv g (fun v => v.axis a fun _ => axisAfter g first sp a s) s) (servoAxis g first sp a s) := by
  unfold servoAxis
  extract_lets x0 x lim o gone ax s1 s2 s3 s4
  have hrow {k : Nat} (hlo : 0x408 ≤ k) (hhi : k < 0x440) := besideServo_row j g hlo hhi
  have h2 : ServoView j s1 s2 := .put (.refl s1) _ (besideServo_current j g a)
  have h3 : ServoView j s1 s3 :=
    .ite (.put (.wrN h2 _ (hrow (by decide) (by decide))) 1 (hrow (by decide) (by decide))) h2
  have h4 : ServoView j s1 s4 := .ite (h3.put 1 (hrow (by decide) (by decide))) h3
  exact h4.trans (countClips_view j _ _ s4)

theorem servoAxis_view_other {j g : Fin 48} (hne : j ≠ g) (first : Bool) (sp : Int × Int × Int) (a : Fin 3) (s : State) :
    ServoView j s (servoAxis g first sp a s) := by
  have h := servoAxis_view j g first sp a s
  exact .trans (.setSrv (.refl s) hne _) h

theorem followAxis_view {j g : Fin 48} (hne : j ≠ g) (a : Fin 3) (s : State) : ServoView j s (followAxis g a s) := by
  unfold followAxis
  extract_lets v x sp fe lim s1 s2
  have h1 : ServoView j s s1 := .wrN (.refl s) _ (besideServo_follow j g a)
  have h2 : ServoView j s s2 := .ite (.wrN h1 _ (besideServo_row j g (by decide) (by decide))) h1
  exact .setSrv (h2.lifeMax _ _) hne _

theorem servoClosedLoop_view {j g : Fin 48} (hne : j ≠ g) (s : State) : ServoView j s (servoClosedLoop g s) := by
  unfold servoClosedLoop
  extract_lets v sp closed s1 s2 s3
  have h1 : ServoView j s s1 := .forAll (.refl s) fun a u => servoAxis_view_other hne _ _ a u
  have h2 : ServoView j s s2 := .setSrv h1 hne _
  have h3 : ServoView j s s3 := .ite ((h2.lifeTime _ _).forAll fun a u => followAxis_view hne a u) h2
  split
  · exact h3.trans (servoFault_view hne _ _ s3)
  · exact h3

theorem servoOpening_view {j g : Fin 48} (hne : j ≠ g) (s : State) : ServoView j s (servoOpening g s) :=
  .forAll (.refl s) fun a u => .put (.setSrv (.refl u) hne _) _ (besideServo_current j g a)

theorem servoSmart_view {j g : Fin 48} (hne : j ≠ g) (s : State) : ServoView j s (servoSmart g s) := by
  unfold servoSmart
  extract_lets s1 s2
  have h1 : ServoView j s s1 := .setSrv (.refl s) hne _
  have h2 : ServoView j s s2 := .forAll h1 fun a u => followAxis_view hne a u
  split
  · exact h1.setSrv hne _
  · split
    · exact .trans (h2.setSrv hne _) (servoFault_view hne _ _ _)
    · exact h2

/-- The visit of a stall leaves to another what it evaluates. -/
theorem servoStall_view {j g : Fin 48} (hne : j ≠ g) (errs : List (Fin 48 × Fin 3 × Nat)) (s : State) :
    ServoView j s (servoStall errs g s) := by
  have hfault {t : State} (h : ServoView j s t) (d a : Nat) := h.trans (servoFault_view hne d a t)
  have hclosed {t : State} (h : ServoView j s t) := h.trans (servoClosedLoop_view hne t)
  unfold servoStall
  extract_lets st
  refine .ite ?_ (.ite (servoOpening_view hne s) (.ite (.setSrv (.refl s) hne _) (servoSmart_view hne s)))
  split
  · exact .ite (hfault (servoSetError_view j g _ _ s) _ _)
      (.ite (hfault (.refl s) _ _) (hclosed (.ite (servoSetError_view j g _ _ s) (.refl s))))
  · split
    · exact hfault (.refl s) _ _
    · exact hclosed (.refl s)

/-! ## The axes of one servo -/

/-- Two states look the same to the evaluation of an axis. -/
def AxisView (g : Fin 48) (b : Fin 3) (s t : State) : Prop :=
  OnlyWrites (besideServo g) s t ∧ t.lofts = s.lofts ∧ (srv t g).axes[b] = (srv s g).axes[b]

namespace AxisView

variable {g : Fin 48} {b : Fin 3} {s t u : State}

theorem refl (s : State) : AxisView g b s s := ⟨.refl s, rfl, rfl⟩

theorem trans (h : AxisView g b s t) (k : AxisView g b t u) : AxisView g b s u := by
  obtain ⟨hregs, hlofts, hax⟩ := h
  obtain ⟨kregs, klofts, kax⟩ := k
  exact ⟨hregs.trans kregs, klofts.trans hlofts, kax.trans hax⟩

theorem of_servoView (h : ServoView g s t) : AxisView g b s t := ⟨h.regs, h.lofts, by rw [h.servo]⟩

theorem get_eq (h : AxisView g b s t) {f : Fld} (hf : f.off = R.SRV_CUR_LIM g) : get t f = get s f :=
  h.1.get_eq (by simp [besideServo, hf])

theorem setAxis {a : Fin 3} (hne : b ≠ a) (f : SrvAxis → SrvAxis) (s : State) :
    AxisView g b s (setSrv g (fun v => v.axis a f) s) := by
  refine ⟨.setSrv (.refl s) g _, rfl, ?_⟩
  rw [srv_setSrv_same]
  exact Vector.getElem_set_ne a.isLt b.isLt fun e => hne (Fin.ext e.symm)

end AxisView

/-- The current of an axis. -/
def axisCurrent (g : Fin 48) (b : Fin 3) (s : State) : Int := (srv s g).axes[b].c1

theorem axisCurrent_setAxis (g : Fin 48) (b : Fin 3) (f : SrvAxis → SrvAxis) (s : State) :
    axisCurrent g b (setSrv g (fun v => v.axis b f) s) = (f (srv s g).axes[b]).c1 := by
  rw [axisCurrent, srv_setSrv_same]
  exact congrArg SrvAxis.c1 (Vector.getElem_set_self _)

theorem axisLaw_congr {g : Fin 48} {a : Fin 3} {s t : State} (h : AxisView g a s t) (first : Bool) (sp : Int × Int × Int) :
    axisLaw g first sp a t = axisLaw g first sp a s := by
  unfold axisLaw
  rw [h.get_eq rfl, h.get_eq rfl, loft_congr h.2.1, h.2.2]

/-- Every axis of a closing or closed loop takes the current of its law. -/
theorem axisCurrent_servoAxes (g : Fin 48) (b : Fin 3) (first : Bool) (sp : Int × Int × Int) (s : State) :
    axisCurrent g b (forAll 3 (servoAxis g first sp) s) = (axisLaw g first sp b s).ax.c1 := by
  obtain ⟨u, hu, ht⟩ := forAll_visits_of (f := servoAxis g first sp) (V := AxisView g) (fun _ => .refl)
    (fun _ _ _ _ => .trans) (fun a j hne x => .trans (.setAxis hne _ x) (.of_servoView (servoAxis_view g g first sp a x))) s b
  have hown := (servoAxis_view g g first sp b u).servo
  have hset := axisCurrent_setAxis g b (fun _ => axisAfter g first sp b u) u
  rw [← axisLaw_congr hu]
  rw [axisCurrent, ht.2.2, hown]
  exact hset

/-- An axis of an opening loop at a boundary. -/
def openingAxis (g : Fin 48) (p : Int) (a : Fin 3) (s : State) : State :=
  let c' := axisCurrent g a s + min p (max (-p) (-axisCurrent g a s))
  put (setSrv g (fun v => v.axis a fun x => { x with c1 := c', sample := none }) s) (F.SRV_CURRENT_C g a) (code 16 c')

/-- Every axis of an opening loop goes towards no current. -/
theorem axisCurrent_servoOpening (g : Fin 48) (b : Fin 3) (s : State) :
    axisCurrent g b (servoOpening g s) = axisCurrent g b s + min (get s (F.SRV_CUR_LIM_CUR_SLEW g) : Int)
      (max (-(get s (F.SRV_CUR_LIM_CUR_SLEW g) : Int)) (-axisCurrent g b s)) := by
  obtain ⟨u, hu, ht⟩ := forAll_visits_of (f := openingAxis g (get s (F.SRV_CUR_LIM_CUR_SLEW g))) (V := AxisView g)
    (fun _ => .refl) (fun _ _ _ _ => .trans) (fun a j hne x => .trans (.setAxis hne _ x)
      (.of_servoView (.put (.refl _) _ (besideServo_current g g a)))) s b
  have hc : axisCurrent g b u = axisCurrent g b s := congrArg SrvAxis.c1 hu.2.2
  rw [← hc]
  exact (congrArg SrvAxis.c1 ht.2.2).trans (axisCurrent_setAxis g b _ u)

/-! ## What follows the law keeps the currents -/

/-- The axes of a stall's servo have the same currents. -/
structure CurrentsKept (g : Fin 48) (s t : State) : Prop where
  same : ∀ b, axisCurrent g b t = axisCurrent g b s

namespace CurrentsKept

variable {g : Fin 48} {s t u : State}

theorem refl (s : State) : CurrentsKept g s s := ⟨fun _ => rfl⟩

theorem trans (h : CurrentsKept g s t) (k : CurrentsKept g t u) : CurrentsKept g s u :=
  ⟨fun b => (k.same b).trans (h.same b)⟩

theorem ite {c : Prop} [Decidable c] (h : CurrentsKept g s t) (k : CurrentsKept g s u) :
    CurrentsKept g s (if c then t else u) := by split <;> assumption

theorem of_srvs (h : t.srvs = s.srvs) : CurrentsKept g s t := ⟨fun _ => by rw [axisCurrent, axisCurrent, srv_congr h]⟩

theorem setSrv {f : Srv → Srv} (hf : ∀ v, (f v).axes = v.axes) (s : State) : CurrentsKept g s (setSrv g f s) :=
  ⟨fun b => by rw [axisCurrent, srv_setSrv_same, hf, axisCurrent]⟩

theorem setAxis (a : Fin 3) {f : SrvAxis → SrvAxis} (hf : ∀ x, (f x).c1 = x.c1) (s : State) :
    CurrentsKept g s (Machine.setSrv g (fun v => v.axis a f) s) := by
  refine ⟨fun b => ?_⟩
  by_cases hb : b = a
  · rw [hb, axisCurrent_setAxis, hf, axisCurrent]
  · exact congrArg SrvAxis.c1 (AxisView.setAxis hb f s).2.2

end CurrentsKept

theorem followAxis_currents (g : Fin 48) (a : Fin 3) (s : State) : CurrentsKept g s (followAxis g a s) := by
  unfold followAxis
  extract_lets v x sp fe lim s1 s2
  have h2 : CurrentsKept g s s2 := .ite (.of_srvs rfl) (.of_srvs rfl)
  have h3 : CurrentsKept g s2 (lifeMax s2 (lifeNo 7 7 g) fe.natAbs) := .ite (.of_srvs rfl) (.refl s2)
  exact (h2.trans h3).trans
    (.setAxis a (f := fun x => { x with ferr := if lim < fe.natAbs then x.ferr + 1 else 0 }) (fun _ => rfl) _)

theorem countServo_srvs (g : Fin 48) (d a : Nat) (s : State) : (countServo g d a s).srvs = s.srvs :=
  List.foldlRecOn (motive := fun (t : State) => t.srvs = s.srvs) _ _ rfl fun _ ht _ _ => ht

theorem servoFault_currents (g : Fin 48) (d a : Nat) (s : State) : CurrentsKept g s (servoFault g d a s) := by
  unfold servoFault
  extract_lets s1 s2 s3
  have h2 : CurrentsKept g s s2 := .of_srvs ((raise_srvs _ _).trans (countServo_srvs g d a s1))
  have h3 : CurrentsKept g s s3 := by
    refine .ite h2 (.trans ?_ (.of_srvs (srvCmdDone_srvs g _)))
    refine .trans ?_ (.setSrv (fun _ => by rfl) _)
    exact .ite (h2.trans (.of_srvs rfl)) (.ite (h2.trans (.of_srvs rfl)) h2)
  exact .ite h3 (h3.trans (.of_srvs rfl))

/-- A closing or closed loop leaves every axis the current of its law. -/
theorem axisCurrent_servoClosedLoop (g : Fin 48) (b : Fin 3) (s : State) : axisCurrent g b (servoClosedLoop g s) =
    (axisLaw g (srv s g).first ((srv s g).sps.headD (0, 0, 0)) b s).ax.c1 := by
  rw [← axisCurrent_servoAxes]
  unfold servoClosedLoop
  extract_lets v sp closed s1 s2 s3
  have h2 : CurrentsKept g s1 s2 := .setSrv (fun _ => by rfl) s1
  have hfollow (u : State) (hu : u.srvs = s2.srvs) : CurrentsKept g s1 (forAll 3 (followAxis g) u) :=
    List.foldlRecOn (motive := CurrentsKept g s1) _ _ (h2.trans (.of_srvs hu))
      fun u hu a _ => hu.trans (followAxis_currents g a u)
  have h3 : CurrentsKept g s1 s3 := .ite (hfollow _ rfl) h2
  split
  · exact (h3.trans (servoFault_currents g _ _ s3)).same b
  · exact h3.same b

/-! ## One evaluation (R213, R214) -/

theorem regionEntry_congr {s t : State} (h : t.rtab = s.rtab) (sp page : Nat) :
    regionEntry sp page t = regionEntry sp page s := by simp only [regionEntry, h]

theorem unitReads_congr {s t : State} (h : t.rtab = s.rtab) (u a n : Nat) : unitReads u a n t = unitReads u a n s := by
  simp only [unitReads, pageReadable, pageSecure, pageReaders, regionEntry_congr h]

theorem setRefused_congr {s t : State} (h : t.rtab = s.rtab) (g : Fin 48) : setRefused g t = setRefused g s := by
  simp only [setRefused, unitReads_congr h]

/-- A closing or closed loop that meets no error and no refused coefficient set. -/
theorem servoStall_closedLoop {errs : List (Fin 48 × Fin 3 × Nat)} {g : Fin 48} {s : State}
    (hst : srvSt g s = 2 ∨ srvSt g s = 3) (herr : ∀ e ∈ errs, e.1 ≠ g) (hset : setRefused g s = none) :
    servoStall errs g s = servoClosedLoop g s := by
  have hnone : errs.find? (fun e => e.1 == g) = none := List.find?_eq_none.2 fun e he => by simpa using herr e he
  unfold servoStall
  rw [if_pos hst, hnone]
  dsimp only
  rw [hset]

theorem servoStall_opening {errs : List (Fin 48 × Fin 3 × Nat)} {g : Fin 48} {s : State} (hst : srvSt g s = 4) :
    servoStall errs g s = servoOpening g s := by
  unfold servoStall
  rw [if_neg (by omega), if_pos hst]

/-- Every stall is evaluated once, on what the evaluation found for it. -/
theorem servoEvaluation_stall (errs : List (Fin 48 × Fin 3 × Nat)) (g : Fin 48) (s : State) :
    ∃ u, ServoView g s u ∧ ServoView g (servoStall errs g u) (forAll 48 (servoStall errs) s) :=
  forAll_visits_of (fun _ => .refl) (fun _ _ _ _ => .trans) (fun _ _ hne x => servoStall_view hne errs x) s g

theorem axisCurrent_congr {g : Fin 48} {s t : State} (h : ServoView g s t) (b : Fin 3) :
    axisCurrent g b t = axisCurrent g b s := by rw [axisCurrent, axisCurrent, h.servo]

theorem axisCurrent_closedLoop {errs : List (Fin 48 × Fin 3 × Nat)} {g : Fin 48} {s : State}
    (hst : srvSt g s = 2 ∨ srvSt g s = 3) (herr : ∀ e ∈ errs, e.1 ≠ g) (hset : setRefused g s = none) (b : Fin 3) :
    axisCurrent g b (forAll 48 (servoStall errs) s) =
      (axisLaw g (srv s g).first ((srv s g).sps.headD (0, 0, 0)) b s).ax.c1 := by
  obtain ⟨u, hu, ht⟩ := servoEvaluation_stall errs g s
  have hst' : srvSt g u = 2 ∨ srvSt g u = 3 := by rwa [srvSt, hu.stateReg rfl]
  rw [axisCurrent_congr ht, servoStall_closedLoop hst' herr ((setRefused_congr hu.rtab g).trans hset),
    axisCurrent_servoClosedLoop, hu.servo, axisLaw_congr (.of_servoView hu)]

theorem axisCurrent_opening {errs : List (Fin 48 × Fin 3 × Nat)} {g : Fin 48} {s : State} (hst : srvSt g s = 4) (b : Fin 3) :
    axisCurrent g b (forAll 48 (servoStall errs) s) = axisCurrent g b s + min (get s (F.SRV_CUR_LIM_CUR_SLEW g) : Int)
      (max (-(get s (F.SRV_CUR_LIM_CUR_SLEW g) : Int)) (-axisCurrent g b s)) := by
  obtain ⟨u, hu, ht⟩ := servoEvaluation_stall errs g s
  rw [axisCurrent_congr ht, servoStall_opening ((hu.stateReg rfl).trans hst), axisCurrent_servoOpening, hu.limitReg rfl,
    axisCurrent_congr hu]

/-- The visit of a stall leaves the boundary, as every other stall can tell. -/
theorem servoStall_boundary (errs : List (Fin 48 × Fin 3 × Nat)) (g : Fin 48) (s : State) :
    (servoStall errs g s).boundary = s.boundary := by
  obtain ⟨j, hne⟩ := exists_ne g
  exact (servoStall_view hne errs s).boundary

/-- An evaluation at a new boundary. -/
theorem completes_servoEvaluation {errs : List (Fin 48 × Fin 3 × Nat)} {s : State} (hk : s.boundary ≤ s.now / 4000)
    (hp : 3000 < s.now % 4000 + s.mvP) : Completes (.servoEvaluation errs) s fun t => t.boundary = s.now / 4000 + 1 ∧
      ∀ (g : Fin 48) (a : Fin 3),
        ((srvSt g s = 2 ∨ srvSt g s = 3) → (∀ e ∈ errs, e.1 ≠ g) → (srv s g).first = false → setRefused g s = none →
          (srv t g).axes[a].c1 = (servoLaw (coefAt (loft s (g.val / 8)) (servoOff g a)) (srv s g).axes[a]
            (spAxis ((srv s g).sps.headD (0, 0, 0)) a) (get s (F.SRV_CUR_LIM_CUR_LIM g))
            (get s (F.SRV_CUR_LIM_CUR_SLEW g))).ax.c1) ∧
        (srvSt g s = 4 → (srv t g).axes[a].c1 = (srv s g).axes[a].c1 +
          min (get s (F.SRV_CUR_LIM_CUR_SLEW g) : Int)
            (max (-(get s (F.SRV_CUR_LIM_CUR_SLEW g) : Int)) (-(srv s g).axes[a].c1))) := by
  refine ⟨_, congrArg Host.Outcome.next (if_pos ⟨hk, hp⟩), ?_, fun g a => ⟨fun hst herr hfirst hset => ?_, fun hst => ?_⟩⟩
  · exact List.foldlRecOn (motive := fun (t : State) => t.boundary = s.now / 4000 + 1) _ _ rfl
      fun t ht g _ => (servoStall_boundary errs g t).trans ht
  · refine (axisCurrent_closedLoop (s := { s with boundary := s.now / 4000 + 1 }) hst herr hset a).trans ?_
    have hf : (srv { s with boundary := s.now / 4000 + 1 } g).first = false := hfirst
    rw [hf]
    rfl
  · exact axisCurrent_opening (s := { s with boundary := s.now / 4000 + 1 }) hst a

theorem servoEvaluation_same {errs : List (Fin 48 × Fin 3 × Nat)} {s : State}
    (h : s.now / 4000 < s.boundary ∨ s.now % 4000 + s.mvP ≤ 3000) : exec (.servoEvaluation errs) s = .next s :=
  congrArg Host.Outcome.next (if_neg (by omega))

/-! ## Positions (R361) -/

/-- The samples of a position record, by axis. -/
def recordSample (b0 b1 a : Nat) : Nat :=
  if a = 0 then bits b0 0 24 else if a = 1 then bits b0 24 24 else bits b0 48 16 + 2 ^ 16 * bits b1 0 8

/-- An axis that a record names keeps its sample. -/
def recordAxis (g : Fin 48) (b0 b1 : Nat) (a : Fin 3) (s : State) : State :=
  if bit b1 (9 + a) then setSrv g (fun v => v.axis a fun x => { x with sample := some (sext 24 (recordSample b0 b1 a)) }) s
  else s

theorem recordAxis_view {g : Fin 48} {a b : Fin 3} (hne : b ≠ a) (b0 b1 : Nat) (s : State) :
    AxisView g b s (recordAxis g b0 b1 a s) := by
  unfold recordAxis
  split
  · exact .setAxis hne _ s
  · exact .refl s

theorem recordAxis_sample (g : Fin 48) (b0 b1 : Nat) (a : Fin 3) (s : State) :
    ((srv (recordAxis g b0 b1 a s) g).axes[a]).sample =
      if bit b1 (9 + a) then some (sext 24 (recordSample b0 b1 a)) else ((srv s g).axes[a]).sample := by
  by_cases hb : bit b1 (9 + a) = true
  · rw [if_pos hb, recordAxis, if_pos hb, srv_setSrv_same]
    exact congrArg SrvAxis.sample (Vector.getElem_set_self _)
  · rw [if_neg hb, recordAxis, if_neg hb]

theorem recordAxis_regs (g : Fin 48) (b0 b1 : Nat) (a : Fin 3) (s : State) : (recordAxis g b0 b1 a s).regs = s.regs :=
  (apply_ite State.regs _ _ _).trans (ite_self _)

theorem posRecord_sample {g : Fin 48} {b0 b1 : Nat} {s : State} (h : bit b1 8 = flag s (F.SRV_STATE_HEAD_BARE g)) (a : Fin 3) :
    ((srv (posRecord g b0 b1 s) g).axes[a]).sample =
      if bit b1 (9 + a) then some (sext 24 (recordSample b0 b1 a)) else ((srv s g).axes[a]).sample := by
  obtain ⟨u, hu, ht⟩ := forAll_visits_of (f := recordAxis g b0 b1) (V := AxisView g) (fun _ => .refl) (fun _ _ _ _ => .trans)
    (fun _ _ hne x => recordAxis_view hne b0 b1 x) s a
  have hrec : posRecord g b0 b1 s = forAll 3 (recordAxis g b0 b1) s := if_neg (not_not.2 h)
  rw [hrec, ← hu.2.2, ← recordAxis_sample]
  exact congrArg SrvAxis.sample ht.2.2

theorem posRecord_regs (g : Fin 48) (b0 b1 : Nat) (s : State) : (posRecord g b0 b1 s).regs = s.regs := by
  have hrec : posRecord g b0 b1 s =
      if bit b1 8 ≠ flag s (F.SRV_STATE_HEAD_BARE g) then s else forAll 3 (recordAxis g b0 b1) s := rfl
  have haxes : (forAll 3 (recordAxis g b0 b1) s).regs = s.regs :=
    List.foldlRecOn (motive := fun (t : State) => t.regs = s.regs) _ _ rfl fun t ht a _ => (recordAxis_regs ..).trans ht
  rw [hrec, apply_ite State.regs, haxes, ite_self]

theorem positionFrame_record {b : Fin 12} {super : Nat} {k : Fin 4} {b0 b1 : Nat} {g : Fin 48} {s : State}
    (hbay : bayActive b s = true) (hsuper : superTime super s / 4000 = s.now / 4000) (hk : s.boundary ≤ s.now / 4000)
    (hlate : s.now % 4000 < 3000) (hslot : slotStall b k s = some g.val) :
    positionFrame b super [(k, b0, b1)] s = posRecord g b0 b1 s := by
  unfold positionFrame
  dsimp only
  rw [if_pos ⟨hbay, hsuper, hk, hlate⟩, List.foldl_cons, List.foldl_nil, hslot]
  exact dif_pos g.isLt

/-- A record of a slot whose head class it names. -/
theorem completes_positionFrame {b : Fin 12} {broken : Bool} {blocks : List (BitVec 64)} {f : UpFrame} {k : Fin 4}
    {b0 b1 : Nat} {g : Fin 48} {s : State} (hf : frameRead 0xA (some 2) broken blocks = some f)
    (hrec : f.records 2 = [(k, [b0, b1])]) (hbay : bayActive b s = true)
    (hsuper : superTime f.super s / 4000 = s.now / 4000) (hk : s.boundary ≤ s.now / 4000) (hlate : s.now % 4000 < 3000)
    (hslot : slotStall b k s = some g.val) (hhead : bit b1 8 = flag s (F.SRV_STATE_HEAD_BARE g)) :
    Completes (.positionFrame b broken blocks) s fun t => t.regs = s.regs ∧
      (srv t g).axes[0].sample = (if bit b1 9 then some (sext 24 (bits b0 0 24)) else (srv s g).axes[0].sample) ∧
      (srv t g).axes[1].sample = (if bit b1 10 then some (sext 24 (bits b0 24 24)) else (srv s g).axes[1].sample) ∧
      (srv t g).axes[2].sample = (if bit b1 11 then some (sext 24 (bits b0 48 16 + 2 ^ 16 * bits b1 0 8))
        else (srv s g).axes[2].sample) := by
  have hup : positionUp b broken blocks s = posRecord g b0 b1 s := by
    rw [positionUp, hf]
    dsimp only
    rw [hrec]
    exact positionFrame_record hbay hsuper hk hlate hslot
  exact ⟨_, congrArg Host.Outcome.next hup, posRecord_regs g b0 b1 s, posRecord_sample hhead 0, posRecord_sample hhead 1,
    posRecord_sample hhead 2⟩

/-! ## Servo registers (R219) -/

theorem rd_wrLater_same (o : Nat) (v : Word) (s : State) : rd (wrLater o v s) o = v := by
  unfold wrLater
  exact rd_wr_same _ o v

theorem completes_servoConfigWrite {sec : Bool} {g : Fin 48} {r : Fin 4} {o : Nat} {s : State}
    (ho : o = R.SRV_CUR_LIM g + 4 * r.val) (h : accessOk sec o s = true) (v : Word) :
    Completes (.servoConfigWrite sec g r v) s fun t =>
      if srvRange r (merged o v s) = true ∧ (r = 1 ∨ srvSt g s ≤ 1) then Takes o v s t
      else flag t (F.CLE_FLAGS_CFG_REFUSED (g.val / 8)) = true ∧ rd t o = rd s o := by
  subst ho
  refine ⟨servoConfigWrite sec g r v s, rfl, ?_⟩
  unfold servoConfigWrite
  extract_lets o
  rw [cfgWrite_ok h]
  have hok : (srvRange r (merged (R.SRV_CUR_LIM g + 4 * r.val) v s) && (r == 1 || servoFree g s)) = true ↔
      srvRange r (merged (R.SRV_CUR_LIM g + 4 * r.val) v s) = true ∧ (r = 1 ∨ srvSt g s ≤ 1) := by
    simp [servoFree]
  beta_reduce
  simp only [hok]
  split_ifs with hc hr
  · exact rd_wrLater_same _ _ s
  · exact rd_wr_same s _ _
  · refine ⟨flag_setF_same _ _ (by decide : 0 + 1 ≤ 32) rfl, ?_⟩
    refine rd_eq_of_rdN (rdN_put_other _ _ _ ?_)
    simp only [F.CLE_FLAGS_CFG_REFUSED, R.CLE_FLAGS, R.SRV_CUR_LIM]
    omega

/-! ## Coefficients (R195, R210) -/

theorem worldFault_lofts (req c : Nat) (write : Bool) (bwt addr : Nat) (s : State) :
    (worldFault req c write bwt addr s).lofts = s.lofts := by
  unfold worldFault
  extract_lets s1 s2 s3
  have h2 : s2.lofts = s.lofts := rfl
  have h3 : s3.lofts = s2.lofts := rfl
  rw [raise_lofts, ← h2, ← h3]
  rfl

theorem flag_windowFault (o addr : Nat) (s : State) : flag (windowFault o addr s) F.TCK_FLAGS_WORLD_FAULT = true := by
  rw [windowFault]
  exact flag_worldFault ..

theorem accessErr_lofts (off kind w : Nat) (s : State) : (accessErr off kind w s).lofts = s.lofts := rfl

theorem setF_lofts (s : State) (f : Fld) : (setF s f).lofts = s.lofts := rfl

theorem windowFault_lofts (o addr : Nat) (s : State) : (windowFault o addr s).lofts = s.lofts := by
  rw [windowFault, worldFault_lofts, setF_lofts, accessErr_lofts]

/-- A write of a word of the coefficient window. -/
theorem exec_coefficientWindowWrite {sec : Bool} {st : Fin 6} {w : Nat} {s : State} (hw : w < 0x8000) (h4 : w % 4 = 0)
    (h : accessOk sec (cleBase st + 0x4000 + w) s = true) (v : Word) :
    exec (.coefficientWindowWrite sec st w v) s = .next
      (if coefOpen st w s ∨ ¬ rangeOk sec (loftAddr st (0xE0000 + w)) 4 s then
        windowWrite sec (cleBase st + 0x4000 + w) st (0xE0000 + w) v s
      else setF s (F.CLE_FLAGS_COEF_REFUSED st)) := by
  have hword : w % 0x8000 / 4 * 4 = w := by omega
  refine congrArg Host.Outcome.next ?_
  unfold coefficientWindowWrite
  dsimp only
  rw [hword]
  exact hostWrite_ok h _

theorem completes_coefficientWindowWrite {sec : Bool} {st : Fin 6} {w : Nat} {s : State} (hw : w < 0x8000) (h4 : w % 4 = 0)
    (h : accessOk sec (cleBase st + 0x4000 + w) s = true) (v : Word) :
    (coefOpen st w s = true → rangeOk sec (loftAddr st (0xE0000 + w)) 4 s = true →
      Completes (.coefficientWindowWrite sec st w v) s fun t => memLe (loft t st) (0xE0000 + w) 4 = v.toNat ∧ t.regs = s.regs) ∧
    (coefOpen st w s = false → rangeOk sec (loftAddr st (0xE0000 + w)) 4 s = true →
      Completes (.coefficientWindowWrite sec st w v) s fun t =>
        flag t (F.CLE_FLAGS_COEF_REFUSED st) = true ∧ t.lofts = s.lofts) ∧
    (rangeOk sec (loftAddr st (0xE0000 + w)) 4 s = false → Completes (.coefficientWindowWrite sec st w v) s fun t =>
      flag t F.TCK_FLAGS_WORLD_FAULT = true ∧ t.lofts = s.lofts) := by
  refine ⟨fun hopen hrange => ⟨_, exec_coefficientWindowWrite hw h4 h v, ?_⟩,
    fun hopen hrange => ⟨_, exec_coefficientWindowWrite hw h4 h v, ?_⟩,
    fun hrange => ⟨_, exec_coefficientWindowWrite hw h4 h v, ?_⟩⟩
  · rw [if_pos (.inl hopen)]
    exact (windowWrite_fields hrange _ v).symm
  · rw [if_neg (by simp [hopen, hrange])]
    exact ⟨flag_setF_same _ _ (by decide : 1 + 1 ≤ 32) rfl, rfl⟩
  · rw [if_pos (.inr (by simp [hrange])), windowWrite, if_neg (by simp [hrange])]
    exact ⟨flag_windowFault .., windowFault_lofts ..⟩

/-! ## Loads of coefficients (R220) -/

theorem blockCheck_ok {c : Fin 256} {b : Nat} {s : State} (h : ctxSecure c = true ∨ blockSecure b s = false) (q off : Nat)
    (k : State → State) : blockCheck c q b off k s = k s := by
  refine if_neg fun hsec => ?_
  obtain ⟨hctx, hblock⟩ := hsec
  simp_all

/-- A CLE_LOAD that passes the checks of its form, its world and its range runs, or finds the coefficients in use. -/
theorem cleLoad_checked {c : Fin 256} {d : Desc} {bs : List Byte} {st : Fin 6} {base size : Nat} {s : State}
    (hst : d.at 20 1 = st.val) (ht : cleTarget (d.at 21 1) = some (base, size))
    (hsec : ctxSecure c = true ∨ blockSecure (32 + st.val) s = false) (hlen : d.len ≠ 0) (hlen8 : d.len % 8 = 0)
    (hoff : d.at 22 2 % 8 = 0) (hsize : d.at 22 2 + d.len ≤ size) (hzero : d.at 24 40 = 0) (hen : stableEn st s = true)
    (hrange : rangeOk (ctxSecure c) (loftAddr st (base + d.at 22 2)) d.len s = true) :
    opCleLoad c (.ok bs) d s = if ¬ coefOpen st (base - 0xE0000) s then complete c d.seq stBUSY none none false s
      else { s with cleLoads := s.cleLoads ++
        [⟨c.val, d.seq, st.val, base, base + d.at 22 2, (bs ++ List.replicate d.len 0#8).take d.len⟩] } := by
  unfold opCleLoad
  dsimp only
  rw [ht]
  dsimp only
  simp only [hst]
  rw [dif_pos st.isLt, if_neg (by omega), blockCheck_ok hsec, if_neg (not_not.2 hen), if_neg (not_not.2 hrange)]
  rfl

theorem completes_cleLoad {c : Fin 256} {d : Desc} {bs : List Byte} {st : Fin 6} {base size : Nat} {s : State}
    (h : Starts c 0x78 d s) (hst : d.at 20 1 = st.val) (ht : cleTarget (d.at 21 1) = some (base, size))
    (hsec : ctxSecure c = true ∨ blockSecure (32 + st.val) s = false) (hlen : d.len ≠ 0) (hlen8 : d.len % 8 = 0)
    (hoff : d.at 22 2 % 8 = 0) (hsize : d.at 22 2 + d.len ≤ size) (hzero : d.at 24 40 = 0) (hen : stableEn st s = true)
    (hrange : rangeOk (ctxSecure c) (loftAddr st (base + d.at 22 2)) d.len s = true) :
    (coefOpen st (base - 0xE0000) s = true → Completes (.cleLoad c (.ok bs)) s fun t =>
      t.cleLoads = s.cleLoads ++
        [⟨c.val, d.seq, st.val, base, base + d.at 22 2, (bs ++ List.replicate d.len 0#8).take d.len⟩] ∧ t.lofts = s.lofts) ∧
    (coefOpen st (base - 0xE0000) s = false → Completes (.cleLoad c (.ok bs)) s fun t =>
      Decided c d.seq stBUSY s t ∧ t.lofts = s.lofts) := by
  have hload := (withDesc_of_starts h (opCleLoad c (.ok bs))).trans
    (cleLoad_checked (s := startDesc c d.seq 0 s) hst ht hsec hlen hlen8 hoff hsize hzero hen hrange)
  have hcoef : coefOpen st (base - 0xE0000) (startDesc c d.seq 0 s) = coefOpen st (base - 0xE0000) s := rfl
  rw [hcoef] at hload
  refine ⟨fun hopen => ⟨_, congrArg Host.Outcome.next hload, ?_⟩, fun hopen => ⟨_, congrArg Host.Outcome.next hload, ?_⟩⟩
  · rw [if_neg (by simp [hopen])]
    exact ⟨rfl, rfl⟩
  · rw [if_pos (by simp [hopen])]
    exact ⟨decided_complete _ _ _ _ _ (hist_startDesc c d.seq 0 s) rfl, complete_lofts ..⟩

/-- A load that ends alone writes its bytes and completes with their number. -/
theorem cleLoadsEnd_single {c : Fin 256} {st : Fin 6} {q base a : Nat} {bs : List Byte} {s : State}
    (h : s.cleLoads = [⟨c.val, q, st.val, base, a, bs⟩]) :
    loft (cleLoadsEnd s) st = memWrite (loft s st) a bs ∧ DecidedWith c q stOK bs.length 0 s (cleLoadsEnd s) := by
  have hend : cleLoadsEnd s =
      complete c q stOK (some bs.length) (some 0) false (loftWrite st a bs { s with cleLoads := [] }) := by
    rw [cleLoadsEnd, h]
    exact dif_pos ⟨st.isLt, c.isLt⟩
  rw [hend]
  exact ⟨(loft_congr (complete_lofts ..) _).trans (loft_loftWrite ..), decidedWith_complete _ _ _ _ _ rfl rfl⟩

/-! ## What a tick does behind the end of the loads keeps the loads that run -/

/-! ### Branches and loops -/

@[simp] theorem ite_cleLoads {c : Prop} [Decidable c] (a b : State) :
    (if c then a else b).cleLoads = if c then a.cleLoads else b.cleLoads := apply_ite State.cleLoads c a b

@[simp] theorem dite_cleLoads {c : Prop} [Decidable c] (a : c → State) (b : ¬ c → State) :
    (dite c a b).cleLoads = dite c (fun h => (a h).cleLoads) (fun h => (b h).cleLoads) := apply_dite State.cleLoads c a b

@[simp] theorem foldl_cleLoads {β : Type} {f : State → β → State} (hf : ∀ u b, (f u b).cleLoads = u.cleLoads) (l : List β)
    (s : State) : (l.foldl f s).cleLoads = s.cleLoads := by
  induction l generalizing s with
  | nil => rfl
  | cons b l ih => exact (ih _).trans (hf s b)

@[simp] theorem forAll_cleLoads {n : Nat} {f : Fin n → State → State} (hf : ∀ i u, (f i u).cleLoads = u.cleLoads) (s : State) :
    (forAll n f s).cleLoads = s.cleLoads := foldl_cleLoads (fun u i => hf i u) _ s

/-! ### Writers of the state -/

@[simp] theorem wr_cleLoads (s o v) : (wr s o v).cleLoads = s.cleLoads := by simp [wr]
@[simp] theorem wrN_cleLoads (s o v) : (wrN s o v).cleLoads = s.cleLoads := by simp [wrN]
@[simp] theorem put_cleLoads (s f v) : (put s f v).cleLoads = s.cleLoads := by simp [put]
@[simp] theorem addSatF_cleLoads (s f n) : (addSatF s f n).cleLoads = s.cleLoads := by simp [addSatF]
@[simp] theorem wr64_cleLoads (s o v) : (wr64 s o v).cleLoads = s.cleLoads := by simp [wr64]
@[simp] theorem setF_cleLoads (s f) : (setF s f).cleLoads = s.cleLoads := by simp [setF]
@[simp] theorem emit_cleLoads (o s) : (emit o s).cleLoads = s.cleLoads := by simp [emit]
@[simp] theorem signalVector_cleLoads (v s) : (signalVector v s).cleLoads = s.cleLoads := by simp [signalVector, signalOut]
@[simp] theorem lifeSet_cleLoads (s k v) : (lifeSet s k v).cleLoads = s.cleLoads := by simp [lifeSet]
@[simp] theorem lifeAdd_cleLoads (s k n) : (lifeAdd s k n).cleLoads = s.cleLoads := by simp [lifeAdd]
@[simp] theorem addW_cleLoads (s o n) : (addW s o n).cleLoads = s.cleLoads := by simp [addW]
@[simp] theorem recNew_cleLoads (kind source detail s) : (recNew kind source detail s).cleLoads = s.cleLoads := by simp [recNew]
@[simp] theorem setCtx_cleLoads (c f s) : (setCtx c f s).cleLoads = s.cleLoads := by simp [setCtx]

/-! ### Contexts and transactions -/

@[simp] theorem hifBackpressure_cleLoads (c s) : (hifBackpressure c s).cleLoads = s.cleLoads := by simp [hifBackpressure]
@[simp] theorem irqAgeExpiry_cleLoads (c s) : (irqAgeExpiry c s).cleLoads = s.cleLoads := by simp [irqAgeExpiry]
@[simp] theorem draw_cleLoads (n s) : (draw n s).2.cleLoads = s.cleLoads := by simp [draw]

@[simp] theorem waitUntilDone_cleLoads (c s) : (waitUntilDone c s).cleLoads = s.cleLoads := by
  unfold waitUntilDone
  split <;> simp

@[simp] theorem heal_cleLoads (a n s) : (heal a n s).cleLoads = s.cleLoads := by simp [heal]
@[simp] theorem cleLoadEnd_cleLoads (s l) : (cleLoadEnd s l).cleLoads = s.cleLoads := by simp [cleLoadEnd, loftWrite, setLoft]
theorem stageOpen_cleLoads {k : State → State} (hk : ∀ u, (k u).cleLoads = u.cleLoads) (c q i s) :
    (stageOpen c q i k s).cleLoads = s.cleLoads := by simp [stageOpen, hk]
@[simp] theorem setTxn_cleLoads (i f s) : (setTxn i f s).cleLoads = s.cleLoads := by simp [setTxn]
@[simp] theorem doom_cleLoads (i why s) : (doom i why s).cleLoads = s.cleLoads := by simp [doom]
@[simp] theorem worldFault_cleLoads (req ctx write bwt addr s) :
    (worldFault req ctx write bwt addr s).cleLoads = s.cleLoads := by
  simp [worldFault]
@[simp] theorem stagedGridsFail_cleLoads (l bad s) : (stagedGridsFail l bad s).cleLoads = s.cleLoads := by
  simp [stagedGridsFail]
@[simp] theorem lifeMax_cleLoads (s k v) : (lifeMax s k v).cleLoads = s.cleLoads := by simp [lifeMax]
@[simp] theorem storeActs_cleLoads (c i l s) : (storeActs c i l s).cleLoads = s.cleLoads := by simp [storeActs]

theorem stageActs_cleLoads {k : State → State} (hk : ∀ u, (k u).cleLoads = u.cleLoads) (c q i l ra s) :
    (stageActs c q i l ra k s).cleLoads = s.cleLoads := by
  unfold stageActs
  split <;> simp [hk]

@[simp] theorem activateReady_cleLoads (c d s) : (activateReady c d s).cleLoads = s.cleLoads := by
  unfold activateReady
  split
  · exact stageOpen_cleLoads (fun u => stageActs_cleLoads (fun _ => rfl) _ _ _ _ _ u) _ _ _ s
  · rfl

@[simp] theorem pushOver_cleLoads (t type ok s) : (pushOver t type ok s).cleLoads = s.cleLoads := by
  unfold pushOver
  dsimp only
  split <;> simp [dropPushes, stageFormat]

@[simp] theorem imgReplyTimeout_cleLoads (b s) : (imgReplyTimeout b s).cleLoads = s.cleLoads := by
  unfold imgReplyTimeout
  split <;> simp

/-! ### Bays: bring-up and loss -/

@[simp] theorem setBay_cleLoads (b f s) : (setBay b f s).cleLoads = s.cleLoads := by simp [setBay]
@[simp] theorem linkMgmtTimeout_cleLoads (b s) : (linkMgmtTimeout b s).cleLoads = s.cleLoads := by simp [linkMgmtTimeout]
@[simp] theorem clrF_cleLoads (s f) : (clrF s f).cleLoads = s.cleLoads := by simp [clrF]

@[simp] theorem ungate_cleLoads (u s) : (ungate u s).cleLoads = s.cleLoads := by
  unfold ungate
  split <;> simp

@[simp] theorem sendControl_cleLoads (b t blocks s) : (sendControl b t blocks s).cleLoads = s.cleLoads := by simp [sendControl]
@[simp] theorem enterStage_cleLoads (b st s) : (enterStage b st s).cleLoads = s.cleLoads := by
  simp [enterStage, showStage, sendProbes, latchTrain]
@[simp] theorem raiseOnSet_cleLoads (f n s) : (raiseOnSet f n s).cleLoads = s.cleLoads := by simp [raiseOnSet]
@[simp] theorem linkFail_cleLoads (b d stage s) : (linkFail b d stage s).cleLoads = s.cleLoads := by
  simp [linkFail, countRetry, linkHalt, bayEvent, bayFlag]
@[simp] theorem moveSlip_cleLoads (b n s) : (moveSlip b n s).cleLoads = s.cleLoads := by simp [moveSlip]
@[simp] theorem slipOnce_cleLoads (b s) : (slipOnce b s).cleLoads = s.cleLoads := by simp [slipOnce]

@[simp] theorem badWindows_cleLoads (b n s) : (badWindows b n s).cleLoads = s.cleLoads := by
  induction n generalizing s with
  | zero => rfl
  | succ n ih => simp [badWindows, ih]

@[simp] theorem bringupTimeout_cleLoads (b search s) : (bringupTimeout b search s).cleLoads = s.cleLoads := by
  simp [bringupTimeout]

@[simp] theorem srvCmdDone_cleLoads (g s) : (srvCmdDone g s).cleLoads = s.cleLoads := by
  unfold srvCmdDone
  dsimp only
  split <;> simp

@[simp] theorem setSrv_cleLoads (g f s) : (setSrv g f s).cleLoads = s.cleLoads := by simp [setSrv]
@[simp] theorem setStall_cleLoads (g f s) : (setStall g f s).cleLoads = s.cleLoads := by simp [setStall]
@[simp] theorem faultNext_cleLoads (g c s) : (faultNext g c s).cleLoads = s.cleLoads := by simp [faultNext]
@[simp] theorem showWait_cleLoads (g s) : (showWait g s).cleLoads = s.cleLoads := by simp [showWait]
@[simp] theorem exitActive_cleLoads (b d stage s) : (exitActive b d stage s).cleLoads = s.cleLoads := by
  simp [exitActive, leaveActive, stallLinkLost, servoFault, countServo, showHeads, showHead]
@[simp] theorem skewExceeded_cleLoads (b s) : (skewExceeded b s).cleLoads = s.cleLoads := by simp [skewExceeded]
@[simp] theorem downSleep_cleLoads (b s) : (downSleep b s).cleLoads = s.cleLoads := by simp [downSleep]

/-! ### Lamps, sensors and network time at the end of a time -/

@[simp] theorem testBurst_cleLoads (i s) : (testBurst i s).cleLoads = s.cleLoads := by simp [testBurst, setLamp]
@[simp] theorem setCci_cleLoads (p f s) : (setCci p f s).cleLoads = s.cleLoads := by simp [setCci]
@[simp] theorem sensEnter_cleLoads (n st s) : (sensEnter n st s).cleLoads = s.cleLoads := by simp [sensEnter]

@[simp] theorem frameTimeout_cleLoads (n s) : (frameTimeout n s).cleLoads = s.cleLoads := by
  unfold frameTimeout
  dsimp only
  split <;> simp [readyLists, sensReport]

@[simp] theorem holdoverLong_cleLoads (s) : (holdoverLong s).cleLoads = s.cleLoads := by
  unfold holdoverLong
  split <;> simp

@[simp] theorem setTport_cleLoads (p f s) : (setTport p f s).cleLoads = s.cleLoads := by simp [setTport]

@[simp] theorem takeGm_cleLoads (s) : (takeGm s).cleLoads = s.cleLoads := by
  unfold takeGm
  split <;> simp [newGm]

@[simp] theorem enterHoldover_cleLoads (s) : (enterHoldover s).cleLoads = s.cleLoads := by
  simp [enterHoldover, tmsEnter, timeOutputs, setPps, endSlew, tellSlew]
@[simp] theorem portEnter_cleLoads (p n s) : (portEnter p n s).cleLoads = s.cleLoads := by simp [portEnter, showSlave]
@[simp] theorem receiptTimeout_cleLoads (p s) : (receiptTimeout p s).cleLoads = s.cleLoads := by
  simp [receiptTimeout, decideStates, takeState]

/-! ### The recorder, the boot and the gating -/

@[simp] theorem addSat_cleLoads (s o n) : (addSat s o n).cleLoads = s.cleLoads := by simp [addSat]
@[simp] theorem recorderFlush_cleLoads (s) : (recorderFlush s).cleLoads = s.cleLoads := by
  simp [recorderFlush, recFlush, recStore]
@[simp] theorem mgmtRestart_cleLoads (s) : (mgmtRestart s).cleLoads = s.cleLoads := by simp [mgmtRestart]
@[simp] theorem enterRecovery_cleLoads (cause s) : (enterRecovery cause s).cleLoads = s.cleLoads := by
  simp [enterRecovery, inhibitOn, tellPairs, idleSamples, noteForced]

@[simp] theorem readyTimeout_cleLoads (s) : (readyTimeout s).cleLoads = s.cleLoads := by
  unfold readyTimeout
  dsimp only
  split <;> simp [fallBackTo, setImg]

@[simp] theorem setTrace_cleLoads (c f s) : (setTrace c f s).cleLoads = s.cleLoads := by simp [setTrace]

@[simp] theorem finishJob_cleLoads (e j st cause s) : (finishJob e j st cause s).cleLoads = s.cleLoads := by
  unfold finishJob
  dsimp only
  split <;> simp [finishHost, writeRecord, putRecord, traceCoded, finishFrame]

@[simp] theorem setJobs_cleLoads (e f s) : (setJobs e f s).cleLoads = s.cleLoads := by simp [setJobs]
@[simp] theorem showJobs_cleLoads (s) : (showJobs s).cleLoads = s.cleLoads := by simp [showJobs]
@[simp] theorem completeN_cleLoads (c q st a b s) : (completeN c q st a b s).cleLoads = s.cleLoads := by simp [completeN]

@[simp] theorem abortBufs_cleLoads (n f s) : (abortBufs n f s).cleLoads = s.cleLoads := by
  unfold abortBufs
  dsimp only
  split <;> split <;> simp

@[simp] theorem setSn_cleLoads (n f s) : (setSn n f s).cleLoads = s.cleLoads := by simp [setSn]
@[simp] theorem showPipe_cleLoads (x s) : (showPipe x s).cleLoads = s.cleLoads := by simp [showPipe]
@[simp] theorem pipeTurn_cleLoads (x s) : (pipeTurn x s).cleLoads = s.cleLoads := by simp [pipeTurn]

@[simp] theorem removeFrame_cleLoads (n i s) : (removeFrame n i s).cleLoads = s.cleLoads := by
  unfold removeFrame
  dsimp only
  split <;> simp

@[simp] theorem cciStop_cleLoads (p l s) : (cciStop p l s).2.cleLoads = s.cleLoads := by simp [cciStop]
@[simp] theorem showSettings_cleLoads (n s) : (showSettings n s).cleLoads = s.cleLoads := by simp [showSettings]

@[simp] theorem sensStop_cleLoads (n s) : (sensStop n s).cleLoads = s.cleLoads := by
  unfold sensStop
  dsimp only
  split <;> simp

@[simp] theorem shutdownGating_cleLoads (s) : (shutdownGating s).cleLoads = s.cleLoads := by
  unfold shutdownGating
  dsimp only
  split <;> simp [disableStable, openLoops, disableBay, hostStage, disableEngine, disableSensor, showSr, gateAll]

@[simp] theorem layerDeadlinePassed_cleLoads (s) : (layerDeadlinePassed s).cleLoads = s.cleLoads := by
  unfold layerDeadlinePassed
  dsimp only
  split <;> simp

/-! ### What was asked for takes effect -/

@[simp] theorem stallDue_cleLoads (g s) : (stallDue g s).cleLoads = s.cleLoads := by simp [stallDue]
@[simp] theorem setRegions_cleLoads (l s) : (setRegions l s).cleLoads = s.cleLoads := by simp [setRegions, setRegion]
@[simp] theorem evalUpdate_cleLoads (s) : (evalUpdate s).cleLoads = s.cleLoads := by simp [evalUpdate]
@[simp] theorem answer_cleLoads (st payload s) : (answer st payload s).cleLoads = s.cleLoads := by simp [answer]
@[simp] theorem settingsAct_cleLoads (x s) : (settingsAct x s).cleLoads = s.cleLoads := by
  simp [settingsAct, loadLimits, setSeal]

@[simp] theorem worldAct_cleLoads (s w) : (worldAct s w).cleLoads = s.cleLoads := by
  unfold worldAct
  dsimp only
  split <;> split <;> simp

@[simp] theorem worldTick_cleLoads (s) : (worldTick s).cleLoads = s.cleLoads := by simp [worldTick]
@[simp] theorem setEng_cleLoads (g f s) : (setEng g f s).cleLoads = s.cleLoads := by simp [setEng]
@[simp] theorem engClampKs_cleLoads (g n s) : (engClampKs g n s).cleLoads = s.cleLoads := by simp [engClampKs]
@[simp] theorem engClampKp_cleLoads (g n s) : (engClampKp g n s).cleLoads = s.cleLoads := by simp [engClampKp]
@[simp] theorem engEnable_cleLoads (g old n s) : (engEnable g old n s).cleLoads = s.cleLoads := by simp [engEnable]

@[simp] theorem engTick_cleLoads (g s) : (engTick g s).cleLoads = s.cleLoads := by
  unfold engTick
  dsimp only
  split <;> split <;> split <;> simp

@[simp] theorem takeRegisters_cleLoads (s) : (takeRegisters s).cleLoads = s.cleLoads := by simp [takeRegisters, keepParams]

/-! ### Snapshots and traces -/

@[simp] theorem snapshotCapture_cleLoads (s) : (snapshotCapture s).cleLoads = s.cleLoads := by
  unfold snapshotCapture
  dsimp only
  split
  · rfl
  · split
    · rfl
    · split <;> simp

@[simp] theorem placeJob_cleLoads (s j) : (placeJob s j).cleLoads = s.cleLoads := by
  unfold placeJob
  split <;> simp

@[simp] theorem submitJob_cleLoads (j s) : (submitJob j s).cleLoads = s.cleLoads := by simp [submitJob]

@[simp] theorem traceAsk_cleLoads (c s) : (traceAsk c s).cleLoads = s.cleLoads := by
  unfold traceAsk
  dsimp only
  split
  · rfl
  · split <;> simp

@[simp] theorem bufDone_cleLoads (c b ended s) : (bufDone c b ended s).cleLoads = s.cleLoads := by simp [bufDone]

theorem traceMove_cleLoads {c : Fin 64} {s t : State} (h : traceMove c s = some t) : t.cleLoads = s.cleLoads := by
  unfold traceMove at h
  dsimp only at h
  split at h
  · simp at h
  · split at h
    · cases h; simp
    · split at h
      · split_ifs at h <;> cases h <;> simp
      · simp at h

@[simp] theorem traceRun_cleLoads (c n s) : (traceRun c n s).cleLoads = s.cleLoads := by
  induction n generalizing s with
  | zero => rfl
  | succ n ih =>
    unfold traceRun
    split
    next t h => exact (ih t).trans (traceMove_cleLoads h)
    next => rfl

@[simp] theorem traceFeed_cleLoads (c s) : (traceFeed c s).cleLoads = s.cleLoads := by simp [traceFeed]
@[simp] theorem traceItem_cleLoads (c r s) : (traceItem c r s).cleLoads = s.cleLoads := by
  simp [traceItem, tracePut, traceEnd, traceStore]

@[simp] theorem traceStall_cleLoads (g s) : (traceStall g s).cleLoads = s.cleLoads := by
  unfold traceStall
  split <;> simp

@[simp] theorem farNote_cleLoads (g s) : (farNote g s).cleLoads = s.cleLoads := by
  unfold farNote
  dsimp only
  split <;> simp [setFar]

/-! ### The output of a stall -/

@[simp] theorem ballTick_cleLoads (g s) : (ballTick g s).cleLoads = s.cleLoads := by simp [ballTick]
@[simp] theorem showWindow_cleLoads (g s) : (showWindow g s).cleLoads = s.cleLoads := by simp [showWindow]

@[simp] theorem applyPower_cleLoads (g s) : (applyPower g s).cleLoads = s.cleLoads := by
  unfold applyPower
  split <;> simp

@[simp] theorem strokeStart_cleLoads (g st s) : (strokeStart g st s).cleLoads = s.cleLoads := by simp [strokeStart]
@[simp] theorem islandDone_cleLoads (g s) : (islandDone g s).cleLoads = s.cleLoads := by simp [islandDone]
@[simp] theorem islandStep_cleLoads (g item s) : (islandStep g item s).cleLoads = s.cleLoads := by simp [islandStep]
@[simp] theorem lifeTime_cleLoads (s k dt) : (lifeTime s k dt).cleLoads = s.cleLoads := by simp [lifeTime]
@[simp] theorem add64_cleLoads (s o n) : (add64 s o n).cleLoads = s.cleLoads := by simp [add64]
@[simp] theorem writeArm_cleLoads (g a s) : (writeArm g a s).cleLoads = s.cleLoads := by simp [writeArm, outFlag]

@[simp] theorem strokeEnd_cleLoads (g st s) : (strokeEnd g st s).cleLoads = s.cleLoads := by
  unfold strokeEnd
  dsimp only
  split <;> simp

@[simp] theorem showFree_cleLoads (g s) : (showFree g s).cleLoads = s.cleLoads := by simp [showFree]
@[simp] theorem releaseTo_cleLoads (g k s) : (releaseTo g k s).cleLoads = s.cleLoads := by simp [releaseTo]
@[simp] theorem openBin_cleLoads (g e s) : (openBin g e s).cleLoads = s.cleLoads := by simp [openBin]
@[simp] theorem sendEdges_cleLoads (g gate edges s) : (sendEdges g gate edges s).cleLoads = s.cleLoads := by simp [sendEdges]
@[simp] theorem showEntry_cleLoads (g e s) : (showEntry g e s).cleLoads = s.cleLoads := by simp [showEntry, wrI]

@[simp] theorem outputEntry_cleLoads (g e rest s) : (outputEntry g e rest s).cleLoads = s.cleLoads := by
  unfold outputEntry
  dsimp only
  cases e.first <;> simp

@[simp] theorem outputNone_cleLoads (g s) : (outputNone g s).cleLoads = s.cleLoads := by simp [outputNone, islandRest]

@[simp] theorem outputStep_cleLoads (g s) : (outputStep g s).cleLoads = s.cleLoads := by
  unfold outputStep
  dsimp only
  split
  · split <;> simp
  · simp

@[simp] theorem outputAll_cleLoads (s) : (outputAll s).cleLoads = s.cleLoads := by simp [outputAll]

/-! ### Seams and boundaries -/

@[simp] theorem showSeams_cleLoads (s) : (showSeams s).cleLoads = s.cleLoads := by simp [showSeams]
@[simp] theorem setSeam_cleLoads (i f s) : (setSeam i f s).cleLoads = s.cleLoads := by simp [setSeam]
@[simp] theorem sweepSeams_cleLoads (s) : (sweepSeams s).cleLoads = s.cleLoads := by simp [sweepSeams, freeSeam]

@[simp] theorem traceFlush_cleLoads (c s) : (traceFlush c s).cleLoads = s.cleLoads := by
  unfold traceFlush
  dsimp only
  split <;> simp

@[simp] theorem traceTick_cleLoads (c s) : (traceTick c s).cleLoads = s.cleLoads := by simp [traceTick]
@[simp] theorem boundaryBegin_cleLoads (s) : (boundaryBegin s).cleLoads = s.cleLoads := by
  simp [boundaryBegin, traceSlow, servoBoundary]

/-! ### Faults and releases -/

@[simp] theorem enterState_cleLoads (g c s) : (enterState g c s).cleLoads = s.cleLoads := by simp [enterState]
@[simp] theorem seamLoss_cleLoads (g abort s) : (seamLoss g abort s).cleLoads = s.cleLoads := by simp [seamLoss, orphanSeam]

@[simp] theorem writeCutArm_cleLoads (g s) : (writeCutArm g s).cleLoads = s.cleLoads := by
  unfold writeCutArm
  dsimp only
  split <;> simp

@[simp] theorem tellStall_cleLoads (g ops st a b s) : (tellStall g ops st a b s).cleLoads = s.cleLoads := by simp [tellStall]
@[simp] theorem abortComplete_cleLoads (g s) : (abortComplete g s).cleLoads = s.cleLoads := by
  simp [abortComplete, abortEnd, zeroPtrs, enterIdle, engIdle, restIdle, replanFromRest]
@[simp] theorem takeRelease_cleLoads (g s) : (takeRelease g s).cleLoads = s.cleLoads := by
  simp [takeRelease, releaseNow, goRun, layerTimer, enterRun]
@[simp] theorem takeFault_cleLoads (g s) : (takeFault g s).cleLoads = s.cleLoads := by
  simp [takeFault, faultStep, enterFault, gateCut]

/-! ## The end of the loads (R220) -/

/-- Every load that runs ends at the tick. -/
theorem cleLoadsEnd_cleLoads (s : State) : (cleLoadsEnd s).cleLoads = [] :=
  foldl_cleLoads cleLoadEnd_cleLoads s.cleLoads { s with cleLoads := [] }

theorem timesUp_cleLoads (s : State) : (timesUp s).cleLoads = [] := by simp [timesUp, cleLoadsEnd_cleLoads]

theorem unitsTick_cleLoads (dt : Nat) (s : State) : (unitsTick dt s).cleLoads = [] := timesUp_cleLoads _

theorem takeRequests_cleLoads (s) : (takeRequests s).cleLoads = s.cleLoads := by simp [takeRequests]

theorem microvectorBegin_cleLoads (dt : Nat) (s : State) : (microvectorBegin dt s).cleLoads = [] := by
  simp [microvectorBegin, takeRequests_cleLoads, unitsTick_cleLoads]

theorem completes_microvectorTick (errs : List (Fin 48 × Nat)) (s : State) :
    Completes (.microvectorTick errs) s fun t => t.cleLoads = [] := ⟨_, rfl, microvectorBegin_cleLoads _ _⟩

/-- Settles O41: the visits of an evaluation are independent, and what a tick does behind the end of its loads starts none. -/
theorem servoLoop : Obligations.ServoLoop :=
  ⟨fun _ _ _ _ _ _ _ _ _ hf hrec hbay hsuper hk hlate hslot hhead =>
      completes_positionFrame hf hrec hbay hsuper hk hlate hslot hhead,
    fun _ _ => ⟨servoEvaluation_same, completes_servoEvaluation⟩,
    fun _ _ _ v _ _ ho h => completes_servoConfigWrite ho h v,
    fun _ _ _ v _ hw h4 h => completes_coefficientWindowWrite hw h4 h v,
    fun _ _ _ _ _ _ _ h hst ht hsec hlen hlen8 hoff hsize hzero hen hrange =>
      completes_cleLoad h hst ht hsec hlen hlen8 hoff hsize hzero hen hrange,
    completes_microvectorTick,
    fun _ _ _ _ _ _ _ h => cleLoadsEnd_single h⟩

/-! ## The energy loop of a stall -/

theorem eng_congr {s t : State} (h : t.engs = s.engs) (g : Fin 48) : eng t g = eng s g := by rw [eng, eng, h]

@[simp] theorem eng_setEng (g : Fin 48) (f : Eng → Eng) (s : State) : eng (setEng g f s) g = f (eng s g) :=
  Vector.getElem_set_self _

@[simp] theorem eng_put (s : State) (f : Fld) (v : Nat) (g : Fin 48) : eng (put s f v) g = eng s g := rfl

@[simp] theorem rdN_setEng (g : Fin 48) (f : Eng → Eng) (s : State) (o : Nat) : rdN (setEng g f s) o = rdN s o := rfl

@[simp] theorem rd_setEng (g : Fin 48) (f : Eng → Eng) (s : State) (o : Nat) : rd (setEng g f s) o = rd s o := rfl

@[simp] theorem get_setEng (g : Fin 48) (f : Eng → Eng) (s : State) (x : Fld) : get (setEng g f s) x = get s x := rfl

/-- What deliveries, faults and the note of a limit leave of a loop (R203 to R207). -/
def Eng.lawPart (x : Eng) : Eng := { x with lastDel := none, ksPend := none, kept := false, back := false, limAt := none }

/-- An operation writes at most the registers of `W` and leaves the law's part of a loop. -/
structure EngKept (W : Nat → Bool) (g : Fin 48) (s t : State) : Prop where
  regs : OnlyWrites W s t
  law : (eng t g).lawPart = (eng s g).lawPart

namespace EngKept

variable {W V : Nat → Bool} {g : Fin 48} {s t u : State}

theorem refl (s : State) : EngKept W g s s := ⟨.refl s, rfl⟩

theorem trans (h : EngKept W g s t) (k : EngKept W g t u) : EngKept W g s u := ⟨h.regs.trans k.regs, k.law.trans h.law⟩

/-- What leaves the loops alone. -/
theorem of_regs (h : OnlyWrites W s t) (he : t.engs = s.engs) : EngKept W g s t := ⟨h, by rw [eng_congr he]⟩

theorem mono (h : EngKept V g s t) (hV : ∀ o, V o = true → W o = true) : EngKept W g s t := ⟨h.regs.mono hV, h.law⟩

theorem ite {c : Prop} [Decidable c] (h : EngKept W g s t) (k : EngKept W g s u) : EngKept W g s (if c then t else u) := by
  split <;> assumption

theorem put (h : EngKept W g s t) {f : Fld} (v : Nat) (hf : W f.off = true) : EngKept W g s (put t f v) :=
  h.trans (of_regs (.put (.refl t) v hf) rfl)

theorem wrN (h : EngKept W g s t) {o : Nat} (v : Nat) (ho : W o = true) : EngKept W g s (wrN t o v) :=
  h.trans (of_regs (.wrN (.refl t) v ho) rfl)

theorem lifeAdd (h : EngKept W g s t) (k n : Nat) : EngKept W g s (lifeAdd t k n) := h.trans (of_regs (.regs (.refl t) rfl) rfl)

theorem setStall (h : EngKept W g s t) (i : Fin 48) (f : Stall → Stall) : EngKept W g s (setStall i f t) :=
  h.trans (of_regs (.regs (.refl t) rfl) rfl)

theorem setEng (h : EngKept W g s t) {f : Eng → Eng} (hf : ∀ x, (f x).lawPart = x.lawPart) : EngKept W g s (setEng g f t) :=
  h.trans ⟨.regs (.refl t) rfl, by rw [eng_setEng, hf]⟩

theorem raise (h : EngKept W g s t) {n : Nat} (hn : n < 512) (hW : ∀ o, eventReg o = true → W o = true) :
    EngKept W g s (raise n t) := h.trans (of_regs (.raise (.refl t) hn hW) (raise_engs n t))

end EngKept

/-! ## Deliveries and faults (R204 to R207) -/

/-- The registers of a delivery. -/
def deliveryReg (g o : Nat) : Bool := o == R.ENG_OUT g || o == R.STALL_TRJ_FACTORS g || o == R.ENG_DELIVERIES g

/-- The registers of a fault of an energy loop. -/
def engFaultReg (g o : Nat) : Bool := o == R.ENG_STATUS g || eventReg o

/-- The registers beside those that show what the law gave and how many bins were invalid. -/
def besideLaw (g o : Nat) : Bool := !(o == R.ENG_Y g || o == R.ENG_E g || o == R.ENG_INVALID g)

theorem deliverKs_kept (g : Fin 48) (v : Nat) (s : State) : EngKept (deliveryReg g) g s (deliverKs g v s) := by
  unfold deliverKs
  extract_lets s0 s1 s2
  have h0 : EngKept (deliveryReg g) g s s0 := .setStall (.refl s) g _
  have h1 : EngKept (deliveryReg g) g s s1 :=
    .put (h0.put (f := F.ENG_OUT_KS g) v (by simp [deliveryReg, F.ENG_OUT_KS])) v
      (by simp [deliveryReg, F.STALL_TRJ_FACTORS_K_SPEED])
  have h2 : EngKept (deliveryReg g) g s s2 := .lifeAdd (h1.wrN _ (by simp [deliveryReg])) _ _
  exact .setStall (h2.setEng fun _ => by rfl) g _

theorem deliverPend_kept (g : Fin 48) (s : State) : EngKept (deliveryReg g) g s (deliverPend g s) := by
  unfold deliverPend
  split
  · exact .ite (deliverKs_kept g _ s) (.refl s)
  · exact .refl s

theorem deliverSpeed_kept (g : Fin 48) (raw : Int) (s : State) : EngKept (deliveryReg g) g s (deliverSpeed g raw s) :=
  .ite (deliverKs_kept g _ s) (.refl s)

theorem energyFault_kept (g : Fin 48) (d : Nat) (s : State) : EngKept (engFaultReg g) g s (energyFault g d s) := by
  unfold energyFault
  extract_lets act s1 s2 s3
  have hst : engFaultReg g (R.ENG_STATUS g) = true := by simp [engFaultReg]
  have h1 : EngKept (engFaultReg g) g s s1 :=
    .raise (.lifeAdd (.put (.refl s) d hst) _ _) (stableEv_lt g (by decide)) fun o ho => by simp [engFaultReg, ho]
  have h2 : EngKept (engFaultReg g) g s s2 := h1.put 2 hst
  have h3 : EngKept (engFaultReg g) g s s3 := h2.setEng fun _ => by rfl
  exact .ite (.ite h3 (h3.setStall g _)) (h2.setEng fun _ => by rfl)

theorem deliveryReg_besideLaw {g o : Nat} (h : deliveryReg g o = true) : besideLaw g o = true := by
  simp only [deliveryReg, Bool.or_eq_true, beq_iff_eq] at h
  simp only [besideLaw, R.ENG_OUT, R.STALL_TRJ_FACTORS, R.ENG_DELIVERIES, R.ENG_Y, R.ENG_E, R.ENG_INVALID, cleBase, stallBase,
    Bool.not_eq_true', Bool.or_eq_false_iff, beq_eq_false_iff_ne] at h ⊢
  omega

theorem engFaultReg_besideLaw {g o : Nat} (h : engFaultReg g o = true) : besideLaw g o = true := by
  simp only [engFaultReg, eventReg, Bool.or_eq_true, beq_iff_eq, decide_eq_true_eq] at h
  simp only [besideLaw, R.ENG_STATUS, R.ENG_Y, R.ENG_E, R.ENG_INVALID, cleBase,
    Bool.not_eq_true', Bool.or_eq_false_iff, beq_eq_false_iff_ne] at h ⊢
  omega

theorem energyCheck_kept (g : Fin 48) (s : State) : EngKept (besideLaw g) g s (energyCheck g s) :=
  .ite (.mono (energyFault_kept g _ s) fun _ => engFaultReg_besideLaw) (.refl s)

/-! ## Signed registers -/

theorem sext_code {x : Int} (hlo : -(2 ^ 31) ≤ x) (hhi : x < 2 ^ 31) : sext 32 (code 32 x) = x := by
  unfold sext code
  split <;> omega

theorem sat32_range (a : Int) : -(2 ^ 31) ≤ sat32 a ∧ sat32 a < 2 ^ 31 := by
  unfold sat32 clampI
  split_ifs <;> omega

theorem rdI_wrI_same (s : State) (o : Nat) (a : Int) : rdI (wrI s o (sat32 a)) o = sat32 a := by
  have hlt : code 32 (sat32 a) < 2 ^ 32 := by unfold code; omega
  rw [rdI, wrI, rdN_wrN_same, Nat.mod_eq_of_lt hlt]
  exact sext_code (sat32_range a).1 (sat32_range a).2

/-! ## The law of an active bin (R202) -/

/-- The law's evaluation of a bin on a state. -/
def binLaw (g : Fin 48) (b : Bin) (s : State) : EnergyOut :=
  energyLaw (coefAt (loft s (g.val / 8)) (bankOff g (get s (F.ENG_BANK_ACTIVE g)))) (eng s g) b.values b.power
    (if featValid g s then some (rdI s (R.ENG_FEAT g)) else none) (energyRegs g s) (get s (F.ENG_OUT_KP g))

/-- What an evaluation leaves in the loop: `y` after `x`. -/
def LawTaken (o : EnergyOut) (x y : Eng) : Prop :=
  y.e1 = o.e ∧ y.e2 = x.e1 ∧ y.u1 = o.u ∧ y.u2 = x.u1 ∧ y.i = o.i ∧ y.v = o.v ∧ y.bins = x.bins

/-- What an evaluation leaves in the loop and shows of it. -/
def LawShown (g : Fin 48) (o : EnergyOut) (x : Eng) (t : State) : Prop :=
  rdI t (R.ENG_Y g) = o.y ∧ rdI t (R.ENG_E g) = o.e ∧ LawTaken o x (eng t g)

theorem LawShown.kept {g : Fin 48} {o : EnergyOut} {x : Eng} {s t : State} (h : LawShown g o x s)
    (hk : EngKept (besideLaw g) g s t) : LawShown g o x t := by
  obtain ⟨hy, he, h1, h2, h3, h4, h5, h6, h7⟩ := h
  have hreg {r : Nat} (hr : besideLaw g r = false) : rdI t r = rdI s r := by rw [rdI, hk.regs r hr, rdI]
  have hlaw := hk.law
  simp only [Eng.lawPart, Eng.mk.injEq] at hlaw
  obtain ⟨ki, ke1, ke2, ku1, ku2, kv, -, -, -, -, -, -, -, -, kbins, -⟩ := hlaw
  exact ⟨(hreg (by simp [besideLaw])).trans hy, (hreg (by simp [besideLaw])).trans he, ke1.trans h1, ke2.trans h2,
    ku1.trans h3, ku2.trans h4, ki.trans h5, kv.trans h6, kbins.trans h7⟩

/-- A register of a stall's energy loop beside those that show what the law gave. -/
theorem besideLaw_row (g : Nat) {k : Nat} (h : k < 0x124 ∨ 0x128 < k ∧ k < 0x13C) :
    besideLaw g (cleBase (g / 8) + k + 0x40 * (g % 8)) = true := by
  simp only [besideLaw, R.ENG_Y, R.ENG_E, R.ENG_INVALID, Bool.not_eq_true', Bool.or_eq_false_iff, beq_eq_false_iff_ne]
  omega

/-- A register of all loops of a stable. -/
theorem besideLaw_stable (g : Nat) {k : Nat} (h : k < 0x100) : besideLaw g (cleBase (g / 8) + k) = true := by
  simp only [besideLaw, R.ENG_Y, R.ENG_E, R.ENG_INVALID, Bool.not_eq_true', Bool.or_eq_false_iff, beq_eq_false_iff_ne]
  omega

theorem countClips_kept (g : Fin 48) (n : Nat) (s : State) : EngKept (besideLaw g) g s (countClips (g / 8) n s) :=
  .ite (.refl s) (.put (.lifeAdd (.wrN (.refl s) _ (besideLaw_stable g (by decide))) _ _) 1 (besideLaw_stable g (by decide)))

/-- What the law shows of a signal and its error is reduced to a register's range (R192). -/
theorem energyLaw_reduced (k : Nat → Coef) (x : Eng) (yc : List Nat) (power : Nat) (feat : Option Int) (r : EnergyRegs)
    (kp0 : Int) : ∃ y e, (energyLaw k x yc power feat r kp0).y = sat32 y ∧ (energyLaw k x yc power feat r kp0).e = sat32 e :=
  ⟨_, _, rfl, rfl⟩

theorem lawShown_written {g : Fin 48} {o : EnergyOut} {x : Eng} {s : State} {y e : Int} (hy : o.y = sat32 y)
    (he : o.e = sat32 e) (h : LawTaken o x (eng s g)) : LawShown g o x (wrI (wrI s (R.ENG_Y g) o.y) (R.ENG_E g) o.e) := by
  have hne : R.ENG_E g ≠ R.ENG_Y g := by
    simp only [R.ENG_Y, R.ENG_E]
    omega
  refine ⟨?_, ?_, h⟩
  · rw [hy, rdI, wrI, rdN_wrN_other _ _ hne]
    exact rdI_wrI_same _ _ _
  · rw [he]
    exact rdI_wrI_same _ _ _

theorem activeBin_shown (g : Fin 48) (b : Bin) (s : State) : LawShown g (binLaw g b s) (eng s g) (activeBin g b s) := by
  unfold activeBin
  extract_lets x r valid k o out floor s1 s2 s3 s4
  have ho : binLaw g b s = o := rfl
  rw [ho]
  obtain ⟨y, e, hy, he⟩ : ∃ y e, o.y = sat32 y ∧ o.e = sat32 e := energyLaw_reduced ..
  clear_value o
  have htaken : LawTaken o (eng s g) (eng s1 g) := by
    rw [eng_setEng]
    exact ⟨rfl, rfl, rfl, rfl, rfl, rfl, rfl⟩
  have hlaw : LawShown g o (eng s g) (wrI (wrI s1 (R.ENG_Y g) o.y) (R.ENG_E g) o.e) := lawShown_written hy he htaken
  have hrow {k : Nat} (h : k < 0x124 ∨ 0x128 < k ∧ k < 0x13C) := besideLaw_row g h
  have h2 : LawShown g o (eng s g) s2 := hlaw.kept (.put (.refl _) _ (hrow (by decide)))
  have h3 : LawShown g o (eng s g) s3 :=
    h2.kept (.put (.setEng (.put (.refl s2) _ (hrow (by decide))) fun _ => by rfl) _ (hrow (by decide)))
  have h4 : LawShown g o (eng s g) s4 := h3.kept
    (.trans (.trans (.ite (.lifeAdd (.refl s3) _ _) (.refl s3)) (countClips_kept g _ _)) (energyCheck_kept g _))
  exact h4.kept (.ite (.mono (deliverSpeed_kept g _ s4) fun _ => deliveryReg_besideLaw) (.refl s4))

/-! ## Bank swaps and bins (R208, R209) -/

/-- The registers of a bank swap. -/
def swapReg (g o : Nat) : Bool := o == R.ENG_BANK g || o == R.CLE_BANK_SWAPS (g / 8)

theorem swapBank_writes (g : Fin 48) (s : State) : OnlyWrites (swapReg g) s (swapBank g s) := by
  unfold swapBank
  extract_lets s1 s2
  have hbank : swapReg g (R.ENG_BANK g) = true := by simp [swapReg]
  have h1 : OnlyWrites (swapReg g) s s1 := .put (.put (.refl s) _ hbank) _ hbank
  have h2 : OnlyWrites (swapReg g) s s2 := .lifeAdd (.wrN h1 _ (by simp [swapReg])) _ _
  exact h2.regs rfl

theorem eng_swapBank (g : Fin 48) (s : State) : eng (swapBank g s) g =
    { (if flag s (F.ENG_CFG_SWAP_RESET g) then (eng s g).clear else eng s g) with swapNew := false, swapDue := false } :=
  eng_setEng g _ _

/-- The state on which the oldest due bin is evaluated: behind a swap and a delivery that are due. -/
def beforeBin (g : Fin 48) (s : State) : State := deliverPend g (bankSwap g s)

/-- What the swap and the delivery keep for the evaluation: the state of the loop, its bins and the counts of the missing. -/
theorem beforeBin_kept (g : Fin 48) (s : State) : get (beforeBin g s) (F.ENG_STATUS_LOOP g) = get s (F.ENG_STATUS_LOOP g) ∧
    rdN (beforeBin g s) (R.ENG_INVALID g) = rdN s (R.ENG_INVALID g) ∧ (eng (beforeBin g s) g).bins = (eng s g).bins ∧
    (eng (beforeBin g s) g).missing = (eng s g).missing := by
  have hswap : OnlyWrites (swapReg g) s (bankSwap g s) := .ite (swapBank_writes g s) (.refl s)
  have heng : (eng (bankSwap g s) g).bins = (eng s g).bins ∧ (eng (bankSwap g s) g).missing = (eng s g).missing := by
    unfold bankSwap
    split
    · rw [eng_swapBank]
      split <;> exact ⟨rfl, rfl⟩
    · exact ⟨rfl, rfl⟩
  have hdel := deliverPend_kept g (bankSwap g s)
  have hlaw := hdel.law
  simp only [Eng.lawPart, Eng.mk.injEq] at hlaw
  obtain ⟨-, -, -, -, -, -, -, -, hmissing, -, -, -, -, -, hbins, -⟩ := hlaw
  have hreg {k : Nat} (hk : 0x128 < k ∧ k < 0x140 ∧ k ≠ 0x138) :
      rdN (beforeBin g s) (cleBase (g / 8) + k + 0x40 * (g % 8)) = rdN s (cleBase (g / 8) + k + 0x40 * (g % 8)) := by
    refine (hdel.regs _ ?_).trans (hswap _ ?_)
    · simp only [deliveryReg, R.ENG_OUT, R.STALL_TRJ_FACTORS, R.ENG_DELIVERIES, cleBase, stallBase, Bool.or_eq_false_iff,
        beq_eq_false_iff_ne]
      omega
    · simp only [swapReg, R.ENG_BANK, R.CLE_BANK_SWAPS, cleBase, Bool.or_eq_false_iff, beq_eq_false_iff_ne]
      omega
  refine ⟨?_, hreg (by decide), hbins.trans heng.1, hmissing.trans heng.2⟩
  rw [Machine.get, Machine.get]
  exact congrArg (bits · 0 2) (hreg (by decide))

/-- The bin leaves the loop and shows its latency. -/
def binTaken (g : Fin 48) (b : Bin) (s : State) : State :=
  put (setEng g (fun x => { x with bins := x.bins.drop 1, done := joinDone (b.window.1, b.window.2, b.chans) x.done }) s)
    (F.ENG_STATUS_LATENCY g) ((s.now - b.t) / s.mvP)

theorem rdN_binTaken (g : Fin 48) (b : Bin) (s : State) {o : Nat} (h : o ≠ R.ENG_STATUS g) :
    rdN (binTaken g b s) o = rdN s o := rdN_put_other _ _ _ h.symm

theorem rdEff_binTaken (g : Fin 48) (b : Bin) (s : State) {o : Nat} (h : o ≠ R.ENG_STATUS g) :
    rdEff o (binTaken g b s) = rdEff o s := by
  unfold rdEff
  rw [rdN_binTaken g b s h]
  rfl

theorem row_ne_status (g : Nat) {k : Nat} (h : k ≠ 0x12C) : cleBase (g / 8) + k + 0x40 * (g % 8) ≠ R.ENG_STATUS g := by
  simp only [R.ENG_STATUS]
  omega

theorem eng_binTaken (g : Fin 48) (b : Bin) (s : State) : eng (binTaken g b s) g =
    { eng s g with bins := (eng s g).bins.drop 1, done := joinDone (b.window.1, b.window.2, b.chans) (eng s g).done } :=
  eng_setEng g _ _

/-- The law reads nothing that the taking of the bin changes. -/
theorem binLaw_binTaken (g : Fin 48) (b : Bin) (s : State) : binLaw g b (binTaken g b s) = binLaw g b s := by
  have heff {k : Nat} (h : k ≠ 0x12C) := rdEff_binTaken g b s (row_ne_status g h)
  have hregs : energyRegs g (binTaken g b s) = energyRegs g s := by
    simp [energyRegs, R.ENG_PCORR, R.ENG_SPEED, R.ENG_SLEW, R.ENG_CFG, heff]
  have hfeat : featValid g (binTaken g b s) = featValid g s := by
    simp only [featValid, R.ENG_FAULT_CFG, heff (k := 0x118) (by decide), eng_binTaken]
    rfl
  have hreg {k : Nat} (h : k ≠ 0x12C) := rdN_binTaken g b s (row_ne_status g h)
  have hbank : get (binTaken g b s) (F.ENG_BANK_ACTIVE g) = get s (F.ENG_BANK_ACTIVE g) :=
    congrArg (bits · 8 1) (hreg (k := 0x104) (by decide))
  have hkp : get (binTaken g b s) (F.ENG_OUT_KP g) = get s (F.ENG_OUT_KP g) :=
    congrArg (bits · 0 16) (hreg (k := 0x120) (by decide))
  have hfv : rdI (binTaken g b s) (R.ENG_FEAT g) = rdI s (R.ENG_FEAT g) := congrArg (sext 32) (hreg (k := 0x130) (by decide))
  rw [binLaw, hregs, hfeat, hbank, hkp, hfv, eng_binTaken]
  rfl

theorem bankReads_binTaken (g : Fin 48) (b : Bin) (s : State) : bankReads g (binTaken g b s) = bankReads g s := by
  have hbank : get (binTaken g b s) (F.ENG_BANK_ACTIVE g) = get s (F.ENG_BANK_ACTIVE g) :=
    congrArg (bits · 8 1) (rdN_binTaken g b s (row_ne_status g (k := 0x104) (by decide)))
  rw [bankReads, hbank]
  rfl

/-! ## An uncorrectable bank (R207, R222) -/

/-- An uncorrectable word of a loft raises its stable's event. -/
theorem flag_memError_loft (synd ctx : Nat) {a : Nat} (ha : a < 0x1800000) (s : State) :
    flag (memError 2 synd ctx a s) (pendBit (stableEv (a / 0x400000) 1)) = true := by
  have hm : errMemory a = a / 0x400000 := by rw [errMemory, lpBase, if_neg (by omega), if_neg (by omega)]
  have hev : stableEv (a / 0x400000) 1 < 512 := by
    unfold stableEv
    omega
  unfold memError
  extract_lets m bad s0 s1 s2
  have hbad : bad := by decide
  rw [if_neg (show m ≠ 7 by omega), if_neg (show m ≠ 6 by omega), show decide bad = true from decide_eq_true hbad,
    show m = a / 0x400000 from hm]
  exact flag_raise_same hev _

theorem flag_loftError (st : Fin 6) {base size : Nat} (hsize : 0 < size) (hend : base + size ≤ 0x400000) (s : State) :
    flag (loftError st base size 2 s) (pendBit (stableEv st.val 1)) = true := by
  obtain ⟨o, ho⟩ : ∃ o, o = (draw 29 (draw 25 s).2).1 := ⟨_, rfl⟩
  have hmod : o % size < size := Nat.mod_lt o hsize
  have hword : (0x400000 * st.val + base + o % size / 8 * 8) / 0x400000 = st.val := by omega
  have h := flag_memError_loft (draw 25 s).1 0 (a := 0x400000 * st.val + base + o % size / 8 * 8) (by omega)
    (draw 29 (draw 25 s).2).2
  rw [hword, ho] at h
  exact h

theorem flag_bankError (g : Fin 48) (s : State) : flag (bankError g 2 s) (pendBit (stableEv (g.val / 8) 1)) = true := by
  have hact : get s (F.ENG_BANK_ACTIVE g) < 2 := get_lt s _
  exact flag_loftError (stableOf g) (by decide) (by omega) s

/-- A fault of an energy loop as its status and the event tell it. -/
def energyFaultTold (g : Fin 48) (d : Nat) (s : State) : State :=
  raise (stableEv (g / 8) 4) (lifeAdd (put s (F.ENG_STATUS_FAULT_DETAIL g) d) (lifeNo 7 3 (8 * g + d)) 1)

theorem rdN_energyFault (g : Fin 48) (d : Nat) (s : State) (o : Nat) :
    rdN (energyFault g d s) o = rdN (put (energyFaultTold g d s) (F.ENG_STATUS_LOOP g) 2) o := by
  unfold energyFault
  extract_lets act s1 s2 s3
  split_ifs <;> rfl

theorem pendBit_ne_engStatus {n : Nat} (hn : n < 512) (g : Nat) : R.ENG_STATUS g ≠ (pendBit n).off := by
  simp only [R.ENG_STATUS, cleBase, pendBit, R.EVC_PEND]
  omega

/-- A fault opens the loop, shows its detail and raises the loop's event, with those raised before it. -/
theorem energyFault_fields {g : Fin 48} (d : Nat) {s : State} (h : flag s (pendBit (stableEv (g / 8) 1)) = true) :
    get (energyFault g d s) (F.ENG_STATUS_LOOP g) = 2 ∧ get (energyFault g d s) (F.ENG_STATUS_FAULT_DETAIL g) = d % 2 ^ 8 ∧
      flag (energyFault g d s) (pendBit (stableEv (g / 8) 4)) = true ∧
      flag (energyFault g d s) (pendBit (stableEv (g / 8) 1)) = true := by
  have hev {k : Nat} (hk : k < 8) : stableEv (g / 8) k < 512 := stableEv_lt g hk
  have hget (f : Fld) : get (energyFault g d s) f = get (put (energyFaultTold g d s) (F.ENG_STATUS_LOOP g) 2) f := by
    rw [Machine.get, rdN_energyFault]
    rfl
  have hflag {k : Nat} (hk : k < 8) (ht : flag (energyFaultTold g d s) (pendBit (stableEv (g / 8) k)) = true) :
      flag (energyFault g d s) (pendBit (stableEv (g / 8) k)) = true :=
    (flag_eq_of_rdN (rdN_energyFault g d s _)).trans
      ((flag_put_other _ _ _ _ (pendBit_ne_engStatus (hev hk) g)).trans ht)
  refine ⟨(hget _).trans (get_put_same _ _ _ (by decide : 0 + 2 ≤ 32)), ?_,
    hflag (by decide) (flag_raise_same (hev (by decide)) _), hflag (by decide) ?_⟩
  · rw [hget, get_put_disjoint _ _ _ _ (by decide : 0 + 2 ≤ 32) (.inl (by decide : 0 + 2 ≤ 8)), energyFaultTold,
      get_raise (hev (by decide)) _ (eventReg_of_ge (by simp only [F.ENG_STATUS_FAULT_DETAIL, R.ENG_STATUS, cleBase]; omega)),
      get_lifeAdd, get_put_same _ _ _ (by decide : 8 + 8 ≤ 32)]
    rfl
  · refine flag_raise_of_flag (hev (by decide)) (hev (by decide)) ?_
    rw [flag_eq_of_rdN (rdN_lifeAdd _ _ _ _), flag_put_other _ _ _ _ (pendBit_ne_engStatus (hev (by decide)) g)]
    exact h

/-! ## The evaluation of a due bin (R202, R203, R207) -/

/-- The evaluation of a due bin, by what the bin and the loop are. -/
theorem energyEvaluation_due {g : Fin 48} {b : Bin} {s : State} (h : dueBin g s = some b) (err : Nat) :
    energyEvaluation g err s =
      if ¬ b.cls ∨ get (beforeBin g s) (F.ENG_STATUS_LOOP g) = 0 then binTaken g b (beforeBin g s)
      else if ¬ b.complete then
        energyCheck g (setEng g (fun x => { x with missing := x.missing + 1 })
          (lifeAdd (addW (binTaken g b (beforeBin g s)) (R.ENG_INVALID g) 1) (lifeNo 7 2 g) 1))
      else if get (beforeBin g s) (F.ENG_STATUS_LOOP g) ≠ 1 then binTaken g b (beforeBin g s)
      else if err = 4 then energyFault g 4 (bankError g 2 (binTaken g b (beforeBin g s)))
      else if ¬ bankReads g (binTaken g b (beforeBin g s)) then energyFault g 4 (binTaken g b (beforeBin g s))
      else if err = 5 then energyEngineFault (stableOf g) (binTaken g b (beforeBin g s))
      else activeBin g b (if err = 1 then bankError g 1 (binTaken g b (beforeBin g s)) else binTaken g b (beforeBin g s)) := by
  rw [energyEvaluation, h]
  rfl

section

variable {g : Fin 48} {b : Bin} {s : State} (h : dueBin g s = some b) (hloop : get s (F.ENG_STATUS_LOOP g) = 1)
  (hcls : b.cls = true)

include h hloop hcls

theorem energyEvaluation_active (hc : b.complete = true) (hbank : bankReads g (beforeBin g s) = true) :
    energyEvaluation g 0 s = activeBin g b (binTaken g b (beforeBin g s)) := by
  have hl : get (beforeBin g s) (F.ENG_STATUS_LOOP g) = 1 := (beforeBin_kept g s).1.trans hloop
  rw [energyEvaluation_due h, hl, bankReads_binTaken, if_neg (by simp [hcls]), if_neg (by simp [hc]), if_neg (by decide),
    if_neg (by decide), if_neg (by simp [hbank]), if_neg (by decide), if_neg (by decide)]

theorem energyEvaluation_missing (hc : b.complete = false) : energyEvaluation g 0 s =
    energyCheck g (setEng g (fun x => { x with missing := x.missing + 1 })
      (lifeAdd (addW (binTaken g b (beforeBin g s)) (R.ENG_INVALID g) 1) (lifeNo 7 2 g) 1)) := by
  have hl : get (beforeBin g s) (F.ENG_STATUS_LOOP g) = 1 := (beforeBin_kept g s).1.trans hloop
  rw [energyEvaluation_due h, hl, if_neg (by simp [hcls]), if_pos (by simp [hc])]

theorem energyEvaluation_bankLost (hc : b.complete = true) :
    energyEvaluation g 4 s = energyFault g 4 (bankError g 2 (binTaken g b (beforeBin g s))) := by
  have hl : get (beforeBin g s) (F.ENG_STATUS_LOOP g) = 1 := (beforeBin_kept g s).1.trans hloop
  rw [energyEvaluation_due h, hl, if_neg (by simp [hcls]), if_neg (by simp [hc]), if_neg (by decide), if_pos rfl]

theorem completes_energyEvaluation (hc : b.complete = true) {o : EnergyOut} {u : State}
    (hu : u = deliverPend g (bankSwap g s)) (hbank : bankReads g u = true) (ho : o = binLaw g b u) :
    Completes (.energyEvaluation g 0) s fun t => rdI t (R.ENG_Y g) = o.y ∧ rdI t (R.ENG_E g) = o.e ∧
      (eng t g).e1 = o.e ∧ (eng t g).e2 = (eng u g).e1 ∧ (eng t g).u1 = o.u ∧ (eng t g).u2 = (eng u g).u1 ∧
      (eng t g).i = o.i ∧ (eng t g).v = o.v ∧ (eng t g).bins = (eng s g).bins.drop 1 := by
  subst hu ho
  refine ⟨_, congrArg Host.Outcome.next (energyEvaluation_active h hloop hcls hc hbank), ?_⟩
  obtain ⟨-, -, hbins, -⟩ := beforeBin_kept g s
  have hshown := activeBin_shown g b (binTaken g b (beforeBin g s))
  rw [binLaw_binTaken] at hshown
  rw [eng_binTaken] at hshown
  rw [← hbins]
  exact hshown

theorem completes_energyMissing (hc : b.complete = false) : Completes (.energyEvaluation g 0) s fun t =>
    (eng t g).missing = (eng s g).missing + 1 ∧ rdN t (R.ENG_INVALID g) = (rdN s (R.ENG_INVALID g) + 1) % 2 ^ 32 := by
  refine ⟨_, congrArg Host.Outcome.next (energyEvaluation_missing h hloop hcls hc), ?_⟩
  obtain ⟨-, hinvalid, -, hmissing⟩ := beforeBin_kept g s
  have hkept := energyCheck_kept g (setEng g (fun x => { x with missing := x.missing + 1 })
    (lifeAdd (addW (binTaken g b (beforeBin g s)) (R.ENG_INVALID g) 1) (lifeNo 7 2 g) 1))
  refine ⟨(congrArg Eng.missing hkept.law).trans ?_, (hkept.regs _ (by simp [besideLaw])).trans ?_⟩
  · rw [eng_setEng, ← hmissing]
    exact congrArg (·.missing + 1) (eng_binTaken g b (beforeBin g s))
  · have htaken := (rdN_binTaken g b (beforeBin g s) (row_ne_status g (k := 0x13C) (by decide))).trans hinvalid
    rw [rdN_setEng, rdN_lifeAdd, addW, rdN_wrN_same]
    exact congrArg (fun n => (n + 1) % 2 ^ 32) htaken

theorem completes_energyBankLost (hc : b.complete = true) : Completes (.energyEvaluation g 4) s fun t =>
    get t (F.ENG_STATUS_LOOP g) = 2 ∧ get t (F.ENG_STATUS_FAULT_DETAIL g) = 4 ∧
      flag t (pendBit (stableEv (g.val / 8) 4)) = true ∧ flag t (pendBit (stableEv (g.val / 8) 1)) = true :=
  ⟨_, congrArg Host.Outcome.next (energyEvaluation_bankLost h hloop hcls hc),
    energyFault_fields 4 (flag_bankError g (binTaken g b (beforeBin g s)))⟩

end

/-! ## Features, banks and energy registers (R206, R209 to R211) -/

/-- A feature in the registers that show it. -/
def featureShown (g : Fin 48) (v : Word) (q n : Nat) (s : State) : State :=
  put (put (wr s (R.ENG_FEAT g) v) (F.ENG_FEAT_TAG_SEQ g) q) (F.ENG_FEAT_TAG_GEN g) n

theorem featureShown_fields (g : Fin 48) (v : Word) (q n : Nat) (s : State) :
    rd (featureShown g v q n s) (R.ENG_FEAT g) = v ∧ get (featureShown g v q n s) (F.ENG_FEAT_TAG_SEQ g) = q % 2 ^ 24 ∧
      get (featureShown g v q n s) (F.ENG_FEAT_TAG_GEN g) = n % 2 ^ 8 := by
  have hne : R.ENG_FEAT_TAG g ≠ R.ENG_FEAT g := by
    simp only [R.ENG_FEAT_TAG, R.ENG_FEAT]
    omega
  unfold featureShown
  refine ⟨?_, ?_, get_put_same _ _ _ (by decide : 24 + 8 ≤ 32)⟩
  · rw [rd_eq_of_rdN (rdN_put_other _ _ _ hne), rd_eq_of_rdN (rdN_put_other _ _ _ hne), rd_wr_same]
  · rw [get_put_disjoint _ _ _ _ (by decide : 24 + 8 ≤ 32) (.inr (by decide : 0 + 24 ≤ 24)),
      get_put_same _ _ _ (by decide : 0 + 24 ≤ 32)]
    rfl

theorem completes_featureDelivery (g : Fin 48) (v : Word) (q n : Nat) (s : State) :
    Completes (.featureDelivery g v q n) s fun t => rd t (R.ENG_FEAT g) = v ∧
      get t (F.ENG_FEAT_TAG_SEQ g) = q % 2 ^ 24 ∧ get t (F.ENG_FEAT_TAG_GEN g) = n % 2 ^ 8 ∧ (eng t g).feat = some s.now ∧
      (eng t g).i = (eng s g).i := by
  obtain ⟨hfeat, hseq, hgen⟩ := featureShown_fields g v q n s
  have hset : featureDelivery g v q n s = setEng g (fun x => { x with feat := some s.now }) (featureShown g v q n s) := rfl
  refine ⟨featureDelivery g v q n s, rfl, ?_⟩
  beta_reduce
  rw [hset, rd_setEng, get_setEng, get_setEng, eng_setEng]
  exact ⟨hfeat, hseq, hgen, rfl, rfl⟩

theorem flags_ne_bank (g : Nat) : R.CLE_FLAGS (g / 8) ≠ R.ENG_BANK g := by
  simp only [R.CLE_FLAGS, R.ENG_BANK]
  omega

theorem exec_bankSelect {sec : Bool} {g : Fin 48} {s : State} (h : accessOk sec (R.ENG_BANK g) s = true) (v : Word) :
    exec (.bankSelect sec g v) s = .next (bankSelect g v s) := congrArg Host.Outcome.next (hostWrite_ok h _)

/-- SEL written with the other bank. -/
theorem bankSelect_pending {g : Fin 48} {v : Word} {s : State} (hv : v.toNat % 2 ≠ get s (F.ENG_BANK_ACTIVE g))
    (hl : bankLoading g (v.toNat % 2) s = false) : flag (bankSelect g v s) (F.ENG_BANK_PENDING g) = true ∧
      get (bankSelect g v s) (F.ENG_BANK_SEL g) = v.toNat % 2 ∧ (eng (bankSelect g v s) g).swapNew = true ∧
      get (bankSelect g v s) (F.ENG_BANK_ACTIVE g) = get s (F.ENG_BANK_ACTIVE g) := by
  rw [bankSelect, if_neg hv, if_neg (by simp [hl])]
  refine ⟨flag_setF_same _ _ (by decide : 9 + 1 ≤ 32) rfl, ?_, ?_, ?_⟩
  · rw [setF, get_put_disjoint _ _ _ _ (by decide : 9 + 1 ≤ 32) (.inr (by decide : 0 + 1 ≤ 9)),
      get_put_same _ _ _ (by decide : 0 + 1 ≤ 32)]
    exact Nat.mod_mod _ _
  · rw [setF, eng_put, eng_put, eng_setEng]
  · rw [setF, get_put_disjoint _ _ _ _ (by decide : 9 + 1 ≤ 32) (.inr (by decide : 8 + 1 ≤ 9)),
      get_put_disjoint _ _ _ _ (by decide : 0 + 1 ≤ 32) (.inl (by decide : 0 + 1 ≤ 8))]
    rfl

theorem completes_bankSelect {sec : Bool} {g : Fin 48} {s : State} (h : accessOk sec (R.ENG_BANK g) s = true) (v : Word) :
    (v.toNat % 2 = get s (F.ENG_BANK_ACTIVE g) → exec (.bankSelect sec g v) s = .next s) ∧
    (v.toNat % 2 ≠ get s (F.ENG_BANK_ACTIVE g) → bankLoading g (v.toNat % 2) s = false →
      Completes (.bankSelect sec g v) s fun t =>
        flag t (F.ENG_BANK_PENDING g) = true ∧ get t (F.ENG_BANK_SEL g) = v.toNat % 2 ∧ (eng t g).swapNew = true ∧
        get t (F.ENG_BANK_ACTIVE g) = get s (F.ENG_BANK_ACTIVE g)) ∧
    (v.toNat % 2 ≠ get s (F.ENG_BANK_ACTIVE g) → bankLoading g (v.toNat % 2) s = true →
      Completes (.bankSelect sec g v) s fun t => flag t (F.CLE_FLAGS_CFG_REFUSED (g.val / 8)) = true ∧
        rdN t (R.ENG_BANK g) = rdN s (R.ENG_BANK g) ∧ t.engs = s.engs) := by
  refine ⟨fun hv => (exec_bankSelect h v).trans (congrArg Host.Outcome.next (if_pos hv)),
    fun hv hl => ⟨_, exec_bankSelect h v, bankSelect_pending hv hl⟩, fun hv hl => ⟨_, exec_bankSelect h v, ?_⟩⟩
  rw [bankSelect, if_neg hv, if_pos hl]
  exact ⟨flag_setF_same _ _ (by decide : 0 + 1 ≤ 32) rfl, rdN_put_other _ _ _ (flags_ne_bank g), rfl⟩

/-- The count of the swaps is beside the stall's own bank register. -/
theorem get_swapBank (g : Fin 48) (s : State) {f : Fld} (hf : f.off = R.ENG_BANK g) : get (swapBank g s) f =
    get (clrF (put s (F.ENG_BANK_ACTIVE g) (get s (F.ENG_BANK_SEL g))) (F.ENG_BANK_PENDING g)) f := by
  have hne : R.CLE_BANK_SWAPS (g / 8) ≠ f.off := by
    rw [hf]
    simp only [R.CLE_BANK_SWAPS, R.ENG_BANK]
    omega
  unfold swapBank
  extract_lets s1 s2
  rw [Machine.get, rdN_setEng, rdN_lifeAdd, addW, rdN_wrN_other _ _ hne, Machine.get]

theorem completes_bankSwap {g : Fin 48} {s : State} (h : (eng s g).swapDue = true) : Completes (.bankSwap g) s fun t =>
    get t (F.ENG_BANK_ACTIVE g) = get s (F.ENG_BANK_SEL g) ∧ flag t (F.ENG_BANK_PENDING g) = false ∧ (eng t g).swapDue = false ∧
    (flag s (F.ENG_CFG_SWAP_RESET g) = true → (eng t g).i = 0 ∧ (eng t g).v = 0) := by
  refine ⟨swapBank g s, congrArg Host.Outcome.next (if_pos h), ?_, ?_, ?_, fun hreset => ?_⟩
  · rw [get_swapBank g s rfl, clrF, get_put_disjoint _ _ _ _ (by decide : 9 + 1 ≤ 32) (.inr (by decide : 8 + 1 ≤ 9)),
      get_put_same _ _ _ (by decide : 8 + 1 ≤ 32)]
    exact Nat.mod_eq_of_lt (get_lt s (F.ENG_BANK_SEL g))
  · rw [flag, get_swapBank g s rfl]
    exact flag_clrF_same _ _ (by decide : 9 + 1 ≤ 32)
  · rw [eng_swapBank]
  · rw [eng_swapBank, if_pos hreset]
    exact ⟨rfl, rfl⟩

/-- A write for the next tick leaves the value in effect. -/
theorem rdEff_wrLater_same (o : Nat) (v : Word) (s : State) : rdEff o (wrLater o v s) = rdEff o s := by
  obtain hc | ⟨w, hc⟩ := Option.eq_none_or_eq_some (cellGet s.oldRegs o)
  · have hold : cellGet (wrLater o v s).oldRegs o = some (rd s o) := by
      rw [wrLater, hc]
      exact (cellGet_cellPut s.oldRegs o o (rd s o)).trans (if_pos rfl)
    rw [rdEff, hold, rdEff, hc]
    rfl
  · have hold : cellGet (wrLater o v s).oldRegs o = some w := by
      rw [wrLater, hc]
      exact hc
    rw [rdEff, hold, rdEff, hc]

theorem completes_energyConfigWrite {sec : Bool} {g : Fin 48} {r : Fin 7} {o : Nat} {s : State}
    (ho : o = R.ENG_CFG g + engRegOff r) (h : accessOk sec o s = true) (v : Word) :
    Completes (.energyConfigWrite sec g r v) s fun t =>
      if engOk g (engRegOff r) (rdN s o) (merged o v s) s then Takes o v s t ∧ rdEff o t = rdEff o s
      else flag t (F.CLE_FLAGS_CFG_REFUSED (g.val / 8)) = true ∧ rd t o = rd s o := by
  subst ho
  refine ⟨energyConfigWrite sec g r v s, rfl, ?_⟩
  unfold energyConfigWrite
  dsimp only
  rw [cfgWrite_ok h]
  split_ifs
  · exact ⟨rd_wrLater_same _ _ _, rdEff_wrLater_same _ _ _⟩
  · exact ⟨rd_wrLater_same _ _ _, rdEff_wrLater_same _ _ _⟩
  · refine ⟨flag_setF_same _ _ (by decide : 0 + 1 ≤ 32) rfl, rd_eq_of_rdN (rdN_put_other _ _ _ ?_)⟩
    simp only [F.CLE_FLAGS_CFG_REFUSED, R.CLE_FLAGS, R.ENG_CFG]
    omega

/-- Settles O39: deliveries and faults leave the law's part of a loop, and the law reads nothing that the taking of its bin
changes. -/
theorem energyLoop : Obligations.EnergyLoop :=
  ⟨fun _ _ _ _ _ h hloop hcls hc hu hbank ho => completes_energyEvaluation h hloop hcls hc hu hbank ho,
    fun _ _ _ h hloop hcls => ⟨completes_energyMissing h hloop hcls, completes_energyBankLost h hloop hcls⟩,
    completes_featureDelivery, fun _ _ v _ h => completes_bankSelect h v, fun _ _ h => completes_bankSwap h,
    fun _ _ _ v _ _ ho h => completes_energyConfigWrite ho h v⟩

end Machine
end Sys2Proof

namespace Sys2Proof
namespace Machine

/-! ## The course of a quadrature port between edges (R255, R267, R268) -/

@[simp] theorem port_setPort (p : Fin 8) (f : Port → Port) (s : State) : port (setPort p f s) p = f (port s p) := by
  simp [port, setPort, vmod]

@[simp] theorem rdN_setPort (p : Fin 8) (f : Port → Port) (s : State) (o : Nat) : rdN (setPort p f s) o = rdN s o := rfl

/-- The registers that a quadrature port's own course writes. -/
def courseReg (p o : Nat) : Bool := o == R.FBKP_STATUS p || o == R.FBKP_SPEED p

/-- What a rejection reads of a port beyond its registers, and what keeps a re-read and a frame's end out of its course. -/
def rejectGround (x : Port) : Bool × Bool × Option Nat × Bool × Option AbsFrame × Nat × Nat :=
  (x.a, x.b, x.acc, x.reread, x.frame, x.rejMs, x.rejN)

/-- Two states look the same to an edge that a port rejects. -/
structure EdgeView (p : Fin 8) (s t : State) : Prop where
  regs : OnlyWrites (courseReg p) s t
  ground : rejectGround (port t p) = rejectGround (port s p)
  now : t.now = s.now
  beam : t.beam = s.beam

theorem courseReg_status (p : Nat) : courseReg p (R.FBKP_STATUS p) = true := by simp [courseReg]

theorem courseReg_speed (p : Nat) : courseReg p (R.FBKP_SPEED p) = true := by simp [courseReg]

namespace EdgeView

variable {p : Fin 8} {s t u : State}

theorem refl (s : State) : EdgeView p s s := ⟨.refl s, rfl, rfl, rfl⟩

theorem trans (h : EdgeView p s t) (k : EdgeView p t u) : EdgeView p s u :=
  ⟨h.regs.trans k.regs, k.ground.trans h.ground, k.now.trans h.now, k.beam.trans h.beam⟩

theorem ite {c : Prop} [Decidable c] (h : EdgeView p s t) (k : EdgeView p s u) : EdgeView p s (if c then t else u) := by
  split <;> assumption

theorem wrN (h : EdgeView p s t) {o : Nat} (v : Nat) (ho : courseReg p o = true) : EdgeView p s (wrN t o v) :=
  h.trans ⟨.wrN (.refl t) v ho, rfl, rfl, rfl⟩

theorem status (h : EdgeView p s t) {f : Fld} (v : Nat) (hf : f.off = R.FBKP_STATUS p) : EdgeView p s (put t f v) :=
  h.wrN _ (hf ▸ courseReg_status p)

theorem speed (h : EdgeView p s t) (v : Int) : EdgeView p s (wrI t (R.FBKP_SPEED p) v) := h.wrN _ (courseReg_speed p)

theorem speedOf (h : EdgeView p s t) (k : Int) (dt : Nat) : EdgeView p s (speedOf k dt t).2 := h.trans ⟨.refl t, rfl, rfl, rfl⟩

theorem setPort (h : EdgeView p s t) {f : Port → Port} (hf : ∀ x, rejectGround (f x) = rejectGround x) :
    EdgeView p s (setPort p f t) :=
  h.trans ⟨.refl t, (congrArg rejectGround (port_setPort p f t)).trans (hf _), rfl, rfl⟩

end EdgeView

theorem edgeSpeed_view (p : Fin 8) (dir : Int) (s : State) : EdgeView p s (edgeSpeed p dir s) := by
  unfold edgeSpeed
  dsimp only
  split
  · exact .speed (.speedOf (.refl s) _ _) _
  · exact .refl s

theorem windowSpeed_view (p : Fin 8) (d : Int) (t : Nat) (s : State) : EdgeView p s (windowSpeed p d t s) := by
  unfold windowSpeed
  extract_lets x w count s1 dir s2 v
  have h1 : EdgeView p s s1 := .ite (.status (.refl s) 1 rfl) (.ite (.status (.refl s) 0 rfl) (.refl s))
  have h2 : EdgeView p s s2 := h1.trans (edgeSpeed_view p dir s1)
  refine .ite h1 (.ite (h1.speed _) ?_)
  split
  next u _ _ _ =>
    have hcap : EdgeView p s (speedOf 1 (beamAt t s - u) s2).2 := h2.speedOf 1 _
    exact .ite (.ite (hcap.speed _) hcap) h2
  next => exact h2

theorem windowStep_view (p : Fin 8) (s : State) : EdgeView p s (windowStep p s) :=
  (windowSpeed_view p _ _ s).setPort fun _ => rfl

theorem standstillNow_view (p : Fin 8) (s : State) : EdgeView p s (standstillNow p s) := by
  have hset : EdgeView p s (setF s (F.FBKP_STATUS_STANDSTILL p)) := .status (.refl s) 1 rfl
  exact .ite hset (.setPort (.status (.status (hset.wrN 0 (courseReg_speed p)) 0 rfl) 0 rfl) fun _ => rfl)

/-- What is due first is one of what is due. -/
theorem portNext_mem {p : Fin 8} {d : Int} {s : State} {e : Int × Nat} (h : portNext p d s = some e) : e ∈ portTimes p s := by
  unfold portNext at h
  refine List.foldlRecOn (motive := fun b => ∀ e, b = some e → e ∈ portTimes p s) _ _ (by simp)
    (fun b hb x hx c hc => ?_) e h
  split at hc
  · exact hb c hc
  · cases b with
    | none => exact Option.some.inj hc ▸ hx
    | some y =>
      dsimp only at hc
      split at hc
      · exact Option.some.inj hc ▸ hx
      · exact hb c hc

/-- Without a re-read that is due and without a frame, a window boundary and standstill are all that can be due. -/
theorem portNext_kind {p : Fin 8} {d : Int} {s : State} (hreread : (port s p).reread = false) (hframe : (port s p).frame = none)
    {e : Int × Nat} (h : portNext p d s = some e) : e.2 = 0 ∨ e.2 = 1 := by
  have hmem := portNext_mem h
  unfold portTimes at hmem
  simp only [hreread, hframe, List.mem_append] at hmem
  grind

theorem portUntil_view (p : Fin 8) (d : Int) (n : Nat) {s : State} (hreread : (port s p).reread = false)
    (hframe : (port s p).frame = none) : EdgeView p s (portUntil p d n s) := by
  induction n generalizing s with
  | zero => exact .refl s
  | succ n ih =>
    unfold portUntil
    split
    next e he =>
      have hevent : EdgeView p s (portEvent p e.2 s) := by
        obtain hk | hk := portNext_kind hreread hframe he
        · rw [hk]
          exact windowStep_view p s
        · rw [hk]
          exact standstillNow_view p s
      have hground := hevent.ground
      simp only [rejectGround, Prod.mk.injEq] at hground
      obtain ⟨-, -, -, hr, hf, -, -⟩ := hground
      exact hevent.trans (ih (hr.trans hreread) (hf.trans hframe))
    next => exact .refl s

/-! ## Rejected edges (R259, R260) -/

theorem tooSoon_of_acc {p : Fin 8} {u t : Nat} {s : State} (h : (port s p).acc = some u) :
    tooSoon p t s = decide (beamAt t s < u + minEdge p s) := by rw [tooSoon, h]

theorem rejectEdge_port (p : Fin 8) (t : Nat) (s : State) :
    (port (rejectEdge p t s) p).rejMs = t / 1000000 ∧
      (port (rejectEdge p t s) p).rejN = if (port s p).rejMs = t / 1000000 then (port s p).rejN + 1 else 1 := by
  unfold rejectEdge
  rw [port_setPort]
  exact ⟨rfl, rfl⟩

theorem rejectEdge_edgeFaults (p : Fin 8) (t : Nat) (s : State) :
    rdN (rejectEdge p t s) (R.FBKP_EDGE_FAULTS p) = min (rdN s (R.FBKP_EDGE_FAULTS p) + 1) 0xFFFFFFFF := by
  have hne : R.FBKP_FLAGS p ≠ R.FBKP_EDGE_FAULTS p := by
    simp only [R.FBKP_FLAGS, R.FBKP_EDGE_FAULTS]
    omega
  unfold rejectEdge
  rw [rdN_setPort, rdN_lifeAdd, setF, rdN_put_other _ _ _ hne, rdN_addSat_same]

theorem rejectEdge_pos (p : Fin 8) (t : Nat) (s : State) : rdN (rejectEdge p t s) (R.FBKP_POS p) = rdN s (R.FBKP_POS p) := by
  have hflags : R.FBKP_FLAGS p ≠ R.FBKP_POS p := by
    simp only [R.FBKP_FLAGS, R.FBKP_POS]
    omega
  have hfaults : R.FBKP_EDGE_FAULTS p ≠ R.FBKP_POS p := by
    simp only [R.FBKP_EDGE_FAULTS, R.FBKP_POS]
    omega
  unfold rejectEdge
  rw [rdN_setPort, rdN_lifeAdd, setF, rdN_put_other _ _ _ hflags, rdN_addSat_other _ _ hfaults]

/-- The last clause of O44 for a port that holds no frame in progress, as a port in MODE 0 should: its course up to the edge is an
`EdgeView`, and behind that the edge is rejected. -/
theorem completes_quadratureEdge_tooSoon {p : Fin 8} {a b : Bool} {dt u : Nat} {s : State}
    (henabled : flag s (F.FBKP_STATUS_ENABLED p) = true) (hmode : fbkMode p s = 0) (hreread : (port s p).reread = false)
    (hframe : (port s p).frame = none) (hacc : (port s p).acc = some u) (hsoon : s.beam + 5 * dt < u + minEdge p s)
    (hedge : ¬ (a = (port s p).a ∧ b = (port s p).b)) :
    Completes (.quadratureEdge p a b dt) s fun t =>
      rdN t (R.FBKP_EDGE_FAULTS p) = min (rdN s (R.FBKP_EDGE_FAULTS p) + 1) 0xFFFFFFFF ∧
      (port t p).rejMs = stampAt dt s / 1000000 ∧
      (port t p).rejN = (if (port s p).rejMs = stampAt dt s / 1000000 then (port s p).rejN + 1 else 1) ∧
      rdN t (R.FBKP_POS p) = rdN s (R.FBKP_POS p) := by
  refine ⟨_, rfl, ?_⟩
  have hview : EdgeView p s (portRun p (stampAt dt s) s) := .ite (portUntil_view p _ _ hreread hframe) (.refl s)
  beta_reduce
  rw [quadratureEdge, if_neg (not_not.2 henabled), if_neg (not_not.2 hmode)]
  extract_lets s0 x s1
  obtain ⟨hregs, hground, hnow, hbeam⟩ := hview
  simp only [rejectGround, Prod.mk.injEq] at hground
  obtain ⟨ha, hb, hacc0, -, -, hms, hn⟩ := hground
  have hkept {o : Nat} (ho : courseReg p o = false) : rdN s1 o = rdN s o := hregs o ho
  have hport : port s1 p = { port s0 p with a := a, b := b } := port_setPort _ _ _
  have hnow1 : s1.now = s.now := hnow
  have hbeam1 : s1.beam = s.beam := hbeam
  have htoo : tooSoon p (stampAt dt s) s1 = true := by
    have hmin : minEdge p s1 = minEdge p s := by
      rw [minEdge, hkept (by simp [courseReg, R.FBKP_FILTER, R.FBKP_STATUS, R.FBKP_SPEED]), minEdge]
    rw [tooSoon_of_acc ((congrArg Port.acc hport).trans (hacc0.trans hacc)), decide_eq_true_iff, beamAt, stampAt, hmin, hnow1,
      hbeam1]
    omega
  rw [if_neg (by rw [ha, hb]; exact hedge), if_pos (.inl htoo), rejectEdge_edgeFaults, rejectEdge_pos,
    hkept (by simp [courseReg, R.FBKP_EDGE_FAULTS, R.FBKP_STATUS, R.FBKP_SPEED]),
    hkept (by simp [courseReg, R.FBKP_POS, R.FBKP_STATUS, R.FBKP_SPEED])]
  obtain ⟨hms1, hn1⟩ := rejectEdge_port p (stampAt dt s) s1
  rw [hport] at hn1
  exact ⟨rfl, hms1, by rw [hn1, ← hms, ← hn], rfl⟩

/-! ## A rejected edge at a quadrature port that holds a frame (R257, R259)

The port's own course up to an edge ends a frame in progress in every MODE, and the frame's position becomes POS. O44 is stated
of every state, so of those in MODE 0 that hold a frame too. -/

/-- An enabled port in MODE 0 with POS 0, MIN_EDGE 50 ns and its last accepted edge at the beam time 0, and with an SSI frame
in progress that brings position 1 and ends at that time too. -/
def frameInQuadrature : State :=
  setPort 0 (fun x => { x with
    acc := some 0, frame := some { start := 0, next := 4000, fin := 0, late := false, inp := ⟨0, 1, 0⟩ } })
    (setF (wrN State.reset (R.FBKP_FILTER 0) 10) (F.FBKP_STATUS_ENABLED 0))

/-- A rising edge of A 5 ns after the accepted one is an edge that R259 rejects. -/
theorem frameInQuadrature_rejects :
    flag frameInQuadrature (F.FBKP_STATUS_ENABLED 0) = true ∧ fbkMode 0 frameInQuadrature = 0 ∧
      (port frameInQuadrature 0).reread = false ∧ (port frameInQuadrature 0).acc = some 0 ∧
      frameInQuadrature.beam + 5 * 1 < 0 + minEdge 0 frameInQuadrature ∧
      ¬ (true = (port frameInQuadrature 0).a ∧ false = (port frameInQuadrature 0).b) := by decide +kernel

theorem frameInQuadrature_pos : rdN frameInQuadrature (R.FBKP_POS 0) = 0 := by decide +kernel

/-- The frame's end moves the count on the way to the rejection. -/
theorem quadratureEdge_frameInQuadrature_pos :
    rdN (quadratureEdge 0 true false (stampAt 1 frameInQuadrature) frameInQuadrature) (R.FBKP_POS 0) = 1 := by
  decide +kernel

/-- Refutes O44: its last clause has no hypothesis that the port holds no frame (`completes_quadratureEdge_tooSoon` does), and in
MODE 0 with a frame in progress POS does not stay behind a rejected edge, as the frame ends first and sets it. -/
theorem not_feedbackEdgeRate : ¬ Obligations.FeedbackEdgeRate := by
  unfold Obligations.FeedbackEdgeRate
  rintro ⟨-, -, hreject⟩
  obtain ⟨henabled, hmode, hreread, hacc, hsoon, hedge⟩ := frameInQuadrature_rejects
  obtain ⟨t, hexec, -, -, -, hpos⟩ := hreject 0 true false 1 0 frameInQuadrature henabled hmode hreread hacc hsoon hedge
  obtain rfl : quadratureEdge 0 true false (stampAt 1 frameInQuadrature) frameInQuadrature = t := Host.Outcome.next.inj hexec
  have hmoved : 1 = 0 := quadratureEdge_frameInQuadrature_pos.symm.trans (hpos.trans frameInQuadrature_pos)
  exact absurd hmoved (by decide)

end Machine
end Sys2Proof

/-!
The statements of chapter 10: the queue of an axis, and the step rate that a setting or a move may ask for.
-/
namespace Sys2Proof
namespace Machine

/-! ## Axes -/

theorem axis_setAxis_same (a : Fin 8) (f : Axis → Axis) (s : State) : axis (setAxis a f s) a = f (axis s a) :=
  Vector.getElem_set_self _

theorem axis_setAxis_other {a x : Fin 8} (f : Axis → Axis) (s : State) (hne : x ≠ a) : axis (setAxis a f s) x = axis s x :=
  Vector.getElem_set_ne a.isLt x.isLt fun e => hne (Fin.ext e.symm)

@[simp] theorem axis_axShow (a : Fin 8) (s : State) (x : Fin 8) : axis (axShow a s) x = axis s x := rfl

@[simp] theorem formatZero_axes (c : Fin 256) (q : Nat) (s : State) : (formatZero c q s).axes = s.axes := complete_axes ..

/-! ## The queue of an axis (R285) -/

/-- An entry joins its axis's queue behind the others. -/
theorem axis_enqueue_same (a : Fin 8) (e : AxEnt) (s : State) : (axis (enqueue a e s) a).queue = (axis s a).queue ++ [e] := by
  rw [enqueue, axis_axShow, axis_setAxis_same]

theorem axis_enqueue_other {a x : Fin 8} (e : AxEnt) (s : State) (hne : x ≠ a) : axis (enqueue a e s) x = axis s x := by
  rw [enqueue, axis_axShow, axis_setAxis_other _ _ hne]

/-! ## The step rate (R291) -/

theorem pulseBad_iff (v w : Nat) : pulseBad v w = true ↔ 1000000000 < v * 2 * w * 5 := decide_eq_true_iff

/-- VMAX has bits that a write sets. -/
theorem rwMask_vmax (a : Fin 8) : rwMask (R.AXIS_VMAX a) ≠ 0 := by
  revert a
  decide

/-- A VMAX with which two step pulses would touch is out of range, whatever else the range asks of it. -/
theorem axisRange_vmax_pulseBad {a n : Nat} {rdv : Nat → Nat}
    (h : pulseBad n (bits (rdv (R.AXIS_STEP_TIMING a)) 0 10) = true) : axisRange a 0x08 n rdv = false := by
  simp [axisRange, h]

/-- A refused setting of an axis sets CFG_REFUSED, and keeps VMAX and the axes. -/
theorem axisRefused_vmax (a : Nat) (s : State) :
    Refused (R.AXIS_VMAX a) (F.AXIS_FLAGS_CFG_REFUSED a) s (setF s (F.AXIS_FLAGS_CFG_REFUSED a)) ∧
      (setF s (F.AXIS_FLAGS_CFG_REFUSED a)).axes = s.axes := by
  have hoff : R.AXIS_FLAGS a ≠ R.AXIS_VMAX a := by simp [R.AXIS_FLAGS, R.AXIS_VMAX]
  exact ⟨⟨rdN_put_other _ _ _ hoff, flag_setF_same _ _ (by decide : 3 + 1 ≤ 32) rfl⟩, rfl⟩

theorem completes_vmaxWrite_pulseBad {sec : Bool} {a : Fin 8} {v : Word} {s : State}
    (h : accessOk sec (R.AXIS_VMAX a) s = true)
    (hrate : 1000000000 < merged (R.AXIS_VMAX a) v s * 2 * get s (F.AXIS_STEP_TIMING_STEP_WIDTH a) * 5) :
    Completes (.axisConfigWrite sec a 2 v) s fun t =>
      Refused (R.AXIS_VMAX a) (F.AXIS_FLAGS_CFG_REFUSED a) s t ∧ t.axes = s.axes := by
  have hp : R.AXIS_CFG a + 4 * (2 : Fin 24).val = R.AXIS_VMAX a := by simp [R.AXIS_CFG, R.AXIS_VMAX]; omega
  have hrange := axisRange_vmax_pulseBad (rdv := rdN s) ((pulseBad_iff ..).2 hrate)
  have hwrite : axisWrite sec a (4 * (2 : Fin 24).val) v s = setF s (F.AXIS_FLAGS_CFG_REFUSED a) := by
    unfold axisWrite
    extract_lets p
    rw [show p = R.AXIS_VMAX a from hp, if_neg (rwMask_vmax a), cfgWrite_ok h]
    exact if_neg (by rw [show 4 * (2 : Fin 24).val = 0x08 from rfl, hrange, Bool.and_false]; exact Bool.false_ne_true)
  exact ⟨_, congrArg Host.Outcome.next ((if_neg (by decide)).trans hwrite), axisRefused_vmax a s⟩

/-! ## Starting a move (R285) -/

section
variable {c : Fin 256} {d : Desc} {a : Fin 8} {s : State}

/-- A descriptor of an axis's context runs on the axis that the context may reach. -/
theorem withAxis_of_starts {op : Nat} (h : Starts c op d s) (htxn : d.txnV = false)
    (hbind : get s (F.HIF_CTX_CFG_BIND c) = a.val) (hw : ctxSecure c = true ∨ blockSecure 13 s = false)
    (k : Desc → Fin 8 → State → State) :
    withAxis c op k s = k d a (startDesc c d.seq 0 s) := by
  have hbind' : get (startDesc c d.seq 0 s) (F.HIF_CTX_CFG_BIND c) = a.val := hbind
  have hw' : ctxSecure c = true ∨ blockSecure 13 (startDesc c d.seq 0 s) = false := hw
  rw [withAxis, withDesc_of_starts h]
  simp only [hbind', a.isLt, dif_pos, htxn, Bool.false_eq_true, if_false, Fin.eta]
  exact blockCheck_ok hw' ..

/-- A queue with room lets the descriptor start. -/
theorem withRoom_of_starts {op : Nat} (h : Starts c op d s) (hbind : get s (F.HIF_CTX_CFG_BIND c) = a.val)
    (hroom : (axis s a).queue.length < 32) (k : Desc → Fin 8 → State → State) :
    withRoom c op k s = withAxis c op k s := by
  obtain ⟨hd, -, -⟩ := h
  rw [withRoom, hd]
  simp only [hbind, a.isLt, dif_pos, Fin.eta]
  exact if_neg fun hfull => Nat.not_le.2 hroom hfull.2

/-! ## An AXIS_MOVE is judged (R283, R284) -/

theorem moveRange_pulseBad (h : pulseBad (d.at 24 4) (get s (F.AXIS_STEP_TIMING_STEP_WIDTH a)) = true) :
    moveRange a d s = true := by simp [moveRange, h]

theorem opAxisMove_outOfRange (htxn : d.txnV = false) (h : moveRange a d s = true) :
    opAxisMove c d a s = formatZero c d.seq s := by
  unfold opAxisMove
  extract_lets zero
  rw [if_neg (by rw [htxn]; exact Bool.false_ne_true), if_pos (.inr h)]

theorem opAxisMove_taken (htxn : d.txnV = false) (haddr : d.addr = 0) (hlen : d.len = 0) (hzero : d.at 36 28 = 0)
    (hrange : moveRange a d s = false) (hdis : axSt a s ≠ asDISABLED) (hfault : axSt a s ≠ asFAULT)
    (htarget : targetBad a (moveTarget a d s) s = false) :
    opAxisMove c d a s = enqueue a (moveEnt c d (moveTarget a d s) false) s := by
  unfold opAxisMove
  extract_lets zero t
  have hz : zero = true := by simp [zero, haddr, hlen, hzero]
  rw [if_neg (by rw [htxn]; exact Bool.false_ne_true), if_neg (by simp [hz, hrange]), if_neg (not_or.2 ⟨hdis, hfault⟩),
    if_neg (by rw [htarget]; exact Bool.false_ne_true)]

/-! ## An AXIS_MOVE that starts (R285) -/

variable (h : Starts c 0x30 d s) (htxn : d.txnV = false) (hbind : get s (F.HIF_CTX_CFG_BIND c) = a.val)
  (hw : ctxSecure c = true ∨ blockSecure 13 s = false) (hroom : (axis s a).queue.length < 32)
include h htxn hbind hw hroom

/-- An unstaged AXIS_MOVE is judged on the axis of its context. -/
theorem exec_axisMove : exec (.axisMove c) s = .next (opAxisMove c d a (startDesc c d.seq 0 s)) :=
  congrArg Host.Outcome.next ((withRoom_of_starts h hbind hroom _).trans (withAxis_of_starts h htxn hbind hw _))

theorem completes_axisMove_pulseBad (hrate : 1000000000 < d.at 24 4 * 2 * get s (F.AXIS_STEP_TIMING_STEP_WIDTH a) * 5) :
    Completes (.axisMove c) s fun t => Decided c d.seq stFORMAT s t ∧ t.axes = s.axes := by
  have hrange : moveRange a d (startDesc c d.seq 0 s) = true := moveRange_pulseBad ((pulseBad_iff ..).2 hrate)
  refine ⟨_, (exec_axisMove h htxn hbind hw hroom).trans (congrArg _ (opAxisMove_outOfRange htxn hrange)), ?_, ?_⟩
  · exact decided_complete _ _ _ _ _ (hist_startDesc ..) rfl
  · exact formatZero_axes ..

theorem completes_axisMove_taken (haddr : d.addr = 0) (hlen : d.len = 0) (hzero : d.at 36 28 = 0)
    (hrange : moveRange a d s = false) (hdis : axSt a s ≠ asDISABLED) (hfault : axSt a s ≠ asFAULT)
    (htarget : targetBad a (moveTarget a d s) s = false) :
    Completes (.axisMove c) s fun t => (axis t a).queue = (axis s a).queue ++ [moveEnt c d (moveTarget a d s) false] ∧
      ∀ x : Fin 8, x ≠ a → axis t x = axis s x :=
  ⟨_, (exec_axisMove h htxn hbind hw hroom).trans
      (congrArg _ (opAxisMove_taken (s := startDesc c d.seq 0 s) htxn haddr hlen hzero hrange hdis hfault htarget)),
    axis_enqueue_same .., fun _ hne => axis_enqueue_other _ _ hne⟩

end

/-- Settles O50: a touching step rate is refused where VMAX or a move is judged, and a move that is taken is enqueued. -/
theorem axisStepRateLimit : Obligations.AxisStepRateLimit :=
  ⟨fun _ _ _ _ => completes_vmaxWrite_pulseBad, fun _ _ _ _ h htxn hbind hw hroom =>
    ⟨completes_axisMove_pulseBad h htxn hbind hw hroom, completes_axisMove_taken h htxn hbind hw hroom⟩⟩

end Machine
end Sys2Proof

/-!
A register that takes no staged writes (R230): the write list of a TXN_WRITE that names one fails at an entry, and a list that
fails gives no transaction an action.
-/
namespace Sys2Proof

/-! ## Parts of a little-endian number (R2) -/

theorem leNat_append (l r : List Byte) : leNat (l ++ r) = leNat l + 256 ^ l.length * leNat r := by
  induction l with
  | nil => simp [leNat]
  | cons b l ih =>
    simp only [List.cons_append, leNat, ih, List.length_cons, Nat.pow_succ]
    ring

theorem leAt_drop (bs : List Byte) (k o n : Nat) : leAt (bs.drop k) o n = leAt bs (k + o) n := by
  rw [leAt, leAt, List.drop_drop]

/-- A number of bytes above which the others are 0 is the number without them. -/
theorem leAt_of_high_zero {bs : List Byte} {o m n : Nat} (h : leAt bs (o + m) n = 0) : leAt bs o (m + n) = leAt bs o m := by
  rw [leAt] at h
  rw [leAt, leAt, List.take_add, leNat_append, List.drop_drop, h, Nat.mul_zero, Nat.add_zero]

/-- What lies within the bytes kept reads the same. -/
theorem leAt_take {bs : List Byte} {w o n : Nat} (h : o + n ≤ w) : leAt (bs.take w) o n = leAt bs o n := by
  rw [leAt, leAt, List.drop_take, List.take_take, Nat.min_eq_left (by omega)]

namespace Machine

/-! ## The write list (R229, R230) -/

/-- The yard, the units from the cameras to the lamps, and the stables hold all stageable registers (R230). -/
theorem stageable_outside {o : Nat} (hyard : o < 0x20000 ∨ 0x30000 ≤ o) (hunits : o < 0xC0000 ∨ 0x100000 ≤ o)
    (hstables : o < 0x200000 ∨ 0x800000 ≤ o) : stageable o = none := by
  have hstall : stallAt o = none := dif_neg (by omega)
  have hcle : cleAt o = none := by
    unfold cleAt
    exact dif_neg (by omega)
  have haxis : axisAt o = none := dif_neg (by omega)
  have hsens : sensAt o = none := dif_neg (by omega)
  have hlamp : lampAt o = none := dif_neg (by omega)
  have hpat : patAt o = none := if_neg (by omega)
  have hne {p : Nat} (hlo : 0x20000 ≤ p) (hhi : p < 0x30000) : o ≠ p := by omega
  have hmsh : (decide (R.YRD_MSH_CTRL ≤ o) && decide (o ≤ R.YRD_MSH_SEAM_CFG)) = false := by
    rw [Bool.and_eq_false_iff, decide_eq_false_iff_not, decide_eq_false_iff_not, R.YRD_MSH_CTRL, R.YRD_MSH_SEAM_CFG]
    omega
  have hdeadline : (o == R.YRD_LAYER_DEADLINE) = false := beq_eq_false_iff_ne.2 (hne (by decide) (by decide))
  rw [stageable, if_neg (not_or.2 ⟨hne (by decide) (by decide), hne (by decide) (by decide)⟩),
    if_neg (not_or.2 ⟨hne (by decide) (by decide), hne (by decide) (by decide)⟩)]
  simp only [hstall, hcle, haxis, hsens, hlamp, hpat, hmsh, hdeadline, Option.isSome_none, Bool.or_self, Bool.false_eq_true,
    if_false]

/-- The high word of a staged 64-bit register names the register's second word. -/
theorem stageable_high {o : Nat} (h : stageable o = some 1) : stageable (o + 4) = some 2 := by
  have hwide : o = R.YRD_LAYER_SET ∨ o = R.YRD_MSH_SEAM_MOVE := by
    by_contra hne
    unfold stageable at h
    grind
  obtain rfl | rfl := hwide <;> rfl

/-- The offset that the high word of a staged 64-bit register names, as that of an entry of its own. -/
theorem entryOffset_of_high {l : List Byte} {o : Nat} (hlow : leAt l 0 3 = o) (hzero : leAt l 3 1 = 0) : leAt l 0 4 = o :=
  (leAt_of_high_zero (o := 0) (m := 3) hzero).trans hlow

/-- A list that fails still fails with an action ahead of it. -/
theorem map_cons_error {r : Except Nat (List Act)} (h : ∃ n, r = .error n) (a : Act) :
    ∃ n, r.map (a :: ·) = .error n :=
  h.imp fun n hn => by rw [hn]; rfl

/-- A write list fails where one of its entries names a register that takes no staged writes. -/
theorem writeList_not_stageable {fuel k : Nat} (hk : k < fuel) (i : Nat) {l : List Byte} (hlen : 16 * k + 16 ≤ l.length)
    (hno : stageable (leAt l (16 * k) 4) = none) : ∃ n, writeList fuel i l = .error n := by
  induction fuel generalizing k i l with
  | zero => omega
  | succ fuel ih =>
    have hne : ¬ l.isEmpty = true := fun h => by
      rw [List.isEmpty_iff.1 h] at hlen
      simp at hlen
    rw [writeList, if_neg hne]
    extract_lets o v m rest
    have hfirst : ∀ {w}, stageable o = some w → k ≠ 0 := fun hw hk0 => by
      rw [hk0, show stageable (leAt l (16 * 0) 4) = _ from hw] at hno
      cases hno
    split
    next => exact ⟨_, rfl⟩
    next =>
      split
      next hnarrow =>
        obtain ⟨k, rfl⟩ := Nat.exists_eq_succ_of_ne_zero (hfirst hnarrow)
        refine map_cons_error (ih (k := k) (by omega) _ (by rw [List.length_drop]; omega) ?_) _
        rwa [leAt_drop, Nat.add_comm, ← Nat.mul_succ]
      next hwide =>
        obtain ⟨k, rfl⟩ := Nat.exists_eq_succ_of_ne_zero (hfirst hwide)
        split
        next => exact ⟨_, rfl⟩
        next hlow =>
          split
          next => exact ⟨_, rfl⟩
          next hhigh =>
            obtain ⟨-, hsecond⟩ := not_or.1 hlow
            obtain ⟨hzero, -⟩ := not_or.1 hhigh
            have hoff : leAt l 16 4 = o + 4 :=
              (leAt_drop ..).symm.trans (entryOffset_of_high (not_not.1 hsecond) (not_not.1 hzero))
            obtain _ | k := k
            · rw [hoff, stageable_high hwide] at hno
              cases hno
            · refine map_cons_error (ih (k := k) (by omega) _ ?_ ?_) _
              · rw [List.length_drop, List.length_drop]
                omega
              · rwa [leAt_drop, leAt_drop, ← Nat.add_assoc, Nat.add_comm, ← Nat.mul_add _ _ 2]
      next => exact ⟨_, rfl⟩

/-- A list that has such an entry fails whatever its length is. -/
theorem listActs_not_stageable {n k : Nat} {l : List Byte} (hk : k < 64) (hn : 16 * k + 16 ≤ n) (hlen : 16 * k + 16 ≤ l.length)
    (hno : stageable (leAt l (16 * k) 4) = none) : ∃ m, listActs n l = .error m := by
  have hwhole : 16 * k + 16 ≤ 16 * min (n / 16) 64 := by omega
  obtain ⟨m, hm⟩ := writeList_not_stageable (fuel := 64) hk 0 (l := l.take (16 * min (n / 16) 64))
    (by rw [List.length_take]; omega) (by rwa [leAt_take (by omega)])
  exact ⟨m, by rw [listActs]; simp only [hm]⟩

/-! ## A staging descriptor with a format error (R231) -/

theorem doom_ctxs (i : Fin 64) (why : Nat) (s : State) : (doom i why s).ctxs = s.ctxs := raise_ctxs ..

/-- A doom adds no action to a transaction. -/
theorem txn_doom_acts (i : Fin 64) (why : Nat) (s : State) (j : Fin 64) : (txn (doom i why s) j).acts = (txn s j).acts := by
  have htxns : (doom i why s).txns = vmod s.txns i fun t => { t with doom := if t.doom = 0 then why else t.doom } :=
    raise_txns ..
  rw [txn, htxns, vmod]
  obtain rfl | hne := eq_or_ne j i
  · rw [Vector.getElem_set_self]; rfl
  · rw [Vector.getElem_set_ne _ _ fun e => hne (Fin.ext e.symm)]; rfl

/-- A TXN_WRITE whose list fails completes FORMAT, and no transaction gains an action. -/
theorem completes_txnWrite_format {c : Fin 256} {d : Desc} {bs : List Byte} {s : State} {n : Nat} (h : Starts c 0x61 d s)
    (htxn : d.txnV = true) (hzero : d.at 20 44 = 0) (hopen : (txn s d.txnId).st = 1) (hdoom : (txn s d.txnId).doom = 0)
    (hlist : listActs d.len bs = .error n) :
    Completes (.txnWrite c (.ok bs)) s fun t => Decided c d.seq stFORMAT s t ∧
      ∀ i : Fin 64, (txn t i).acts = (txn s i).acts := by
  have hwrite : withDesc c 0x61 (opTxnWrite c (.ok bs)) s = stageFormat c d.seq n d.txnId (startDesc c d.seq 0 s) := by
    rw [withDesc_of_starts h, opTxnWrite]
    have hst : (txn (startDesc c d.seq 0 s) d.txnId).st = 1 := hopen
    have hdm : (txn (startDesc c d.seq 0 s) d.txnId).doom = 0 := hdoom
    dsimp only
    rw [if_neg (not_not.2 htxn), if_neg (not_not.2 hzero), stageOpen, if_neg (not_not.2 hst), if_neg (not_not.2 hdm)]
    simp only [hlist]
  refine ⟨_, congrArg Host.Outcome.next hwrite, ?_, fun i => ?_⟩
  · obtain ⟨a, b, k, hhist⟩ := decided_complete (s := s) d.seq stFORMAT (some n) none false (hist_startDesc c d.seq 0 s) rfl
    exact ⟨a, b, k, by rw [stageFormat, ctx, doom_ctxs]; exact hhist⟩
  · rw [stageFormat, txn_doom_acts, txn, complete_txns]
    rfl

/-- No register of a range can be staged where none of the range is stageable. -/
theorem notStaged_of_stageable {lo hi : Nat} (hno : ∀ o, lo ≤ o → o < hi → stageable o = none) : NotStaged lo hi := by
  intro c d bs k s h htxn hzero hopen hdoom hk hlen hbs hlo hhi
  obtain ⟨n, hlist⟩ := listActs_not_stageable hk hlen hbs (hno _ hlo hhi)
  exact completes_txnWrite_format h htxn hzero hopen hdoom hlist

end Machine
end Sys2Proof

/-!
The statements of chapter 13: which writes of a bay's link registers are refused while its stalls are at work.
-/
namespace Sys2Proof

/-! ## Fields of masked words -/

theorem bits_eq_of_bit {x y lo w : Nat} (h : ∀ j < w, bit x (lo + j) = bit y (lo + j)) : bits x lo w = bits y lo w := by
  refine Nat.eq_of_testBit_eq fun j => ?_
  rw [bits, bits, Nat.testBit_mod_two_pow, Nat.testBit_mod_two_pow, Nat.testBit_div_two_pow, Nat.testBit_div_two_pow]
  by_cases hj : j < w
  · rw [Nat.add_comm j, ← bit_eq_testBit, ← bit_eq_testBit, h j hj]
  · simp [hj]

namespace Machine

/-- A field whose bits are all under the mask takes the value written. -/
theorem bits_mix_covered {old v mask lo w : Nat} (h : ∀ j < w, bit mask (lo + j) = true) :
    bits (mix old v mask) lo w = bits v lo w :=
  bits_eq_of_bit fun j hj => by rw [bit_mix, if_pos (h j hj)]

theorem flag_eq_bit (s : State) (f : Fld) (hw : f.w = 1) : flag s f = bit (rdN s f.off) f.lo := by
  rw [flag, Machine.get, hw]
  rfl

theorem flag_raiseOnSet_same {f : Fld} {n : Nat} (hn : n < 512) (hlo : f.lo + f.w ≤ 32) (hw : f.w = 1)
    (hf : eventReg f.off = false) (s : State) : flag (raiseOnSet f n s) f = true := by
  unfold raiseOnSet
  split
  next h => exact h
  next => rw [flag_raise hn _ hf]; exact flag_setF_same s f hlo hw

/-! ## Link registers (R368, R375) -/

/-- A raise writes no register of the link blocks. -/
theorem eventReg_lnk (b k : Nat) : eventReg (lnkBase b + k) = false :=
  eventReg_of_ge (by unfold lnkBase; omega)

/-- EN and VER_MAX take what a write of CTRL gives them, and TEST what a write of TRAIN_CTL gives it. -/
theorem rwMask_lnk (b : Fin 12) :
    bit (rwMask (R.LNK_CTRL b)) 0 = true ∧ (∀ j < 2, bit (rwMask (R.LNK_CTRL b)) (4 + j) = true) ∧
      bit (rwMask (R.LNK_TRAIN_CTL b)) 3 = true := by
  revert b
  decide +kernel

/-- A refusal keeps every register of the bay but FLAGS, sets CFG_REFUSED, and changes no bay and no stall. -/
theorem lnkRefused_refuses (b : Fin 12) {k : Nat} (hk : k ≠ 0x24) (s : State) :
    Refused (lnkBase b + k) (F.LNK_FLAGS_CFG_REFUSED b) s (lnkRefused b s) ∧ (lnkRefused b s).bays = s.bays ∧
      (lnkRefused b s).stalls = s.stalls := by
  have hev : 160 + 4 * b.val + 3 < 512 := by omega
  have hwrites : OnlyWrites (fun o => eventReg o || o == R.LNK_FLAGS b) s (lnkRefused b s) :=
    .raiseOnSet (.refl s) hev (by simp [F.LNK_FLAGS_CFG_REFUSED]) fun o ho => by rw [ho, Bool.true_or]
  have hparts : Evolves (fun _ => false) s.store (lnkRefused b s).store := lnkRefused_evolves .refl b
  refine ⟨⟨hwrites _ ?_, flag_raiseOnSet_same hev (by decide : 4 + 1 ≤ 32) rfl (eventReg_lnk b 0x24) s⟩,
    hparts.bays_eq rfl rfl, hparts.stalls_eq rfl rfl⟩
  beta_reduce
  rw [eventReg_lnk, Bool.false_or, beq_eq_false_iff_ne]
  exact fun e => hk (Nat.add_left_cancel e)

/-! ## Bays whose stalls are at work (R375) -/

theorem bayOffline_of_online {b : Fin 12} {g : Fin 48} {s : State} (hg : g ∈ bayStalls b s) (h : stSt g s ≠ ssOFFLINE) :
    bayOffline b s = false :=
  List.all_eq_false.2 ⟨g, hg, by simpa using h⟩

theorem bayIdle_of_busy {b : Fin 12} {g : Fin 48} {s : State} (hg : g ∈ bayStalls b s)
    (h : stSt g s ∈ [ssRUN, ssSYNC, ssLAYER, ssHOLD] ∨ srvSt g s ∈ [2, 3, 4]) : bayIdle b s = false := by
  refine List.all_eq_false.2 ⟨g, hg, ?_⟩
  simp only [List.mem_cons, List.not_mem_nil, or_false, ssRUN, ssSYNC, ssLAYER, ssHOLD] at h
  rw [Bool.not_eq_true, Bool.and_eq_false_iff, Bool.not_eq_false', Bool.and_eq_true, decide_eq_true_eq, decide_eq_true_eq,
    decide_eq_false_iff_not, ssRUN, ssHOLD]
  omega

/-! ## Refused writes of CTRL and TRAIN_CTL (R375) -/

section
variable {sec : Bool} {b : Fin 12} {g : Fin 48} {v : Word} {s : State}

theorem lnkCtrlWrite_refused (h : accessOk sec (R.LNK_CTRL b) s = true)
    (hbad : lnkCtrlOk b (merged (R.LNK_CTRL b) v s) s = false) : lnkCtrlWrite sec b v s = lnkRefused b s := by
  rw [lnkCtrlWrite, cfgWrite_ok h, hbad, if_neg Bool.false_ne_true]

theorem trainCtlWrite_refused (h : accessOk sec (R.LNK_TRAIN_CTL b) s = true)
    (hbad : trainCtlOk b (merged (R.LNK_TRAIN_CTL b) v s) s = false) : trainCtlWrite sec b v s = lnkRefused b s := by
  rw [trainCtlWrite, cfgWrite_ok h, hbad, if_neg Bool.false_ne_true]

/-- Clearing EN of an enabled bay is not accepted while one of its stalls is at work or has a busy loop. -/
theorem lnkCtrlOk_clearing_en (hg : g ∈ bayStalls b s)
    (hbusy : stSt g s ∈ [ssRUN, ssSYNC, ssLAYER, ssHOLD] ∨ srvSt g s ∈ [2, 3, 4]) (hen : flag s (F.LNK_CTRL_EN b) = true)
    (hv : bit v.toNat 0 = false) : lnkCtrlOk b (merged (R.LNK_CTRL b) v s) s = false := by
  obtain ⟨hmask, -, -⟩ := rwMask_lnk b
  have hnew : bit (merged (R.LNK_CTRL b) v s) 0 = false := by rw [merged, bit_mix, if_pos hmask, hv]
  have hold : bit (rdN s (R.LNK_CTRL b)) 0 = true := (flag_eq_bit s (F.LNK_CTRL_EN b) rfl).symm.trans hen
  simp [lnkCtrlOk, hnew, hold, bayIdle_of_busy hg hbusy]

/-- Another VER_MAX is not accepted while one of the bay's stalls is not OFFLINE. -/
theorem lnkCtrlOk_changing_verMax (hg : g ∈ bayStalls b s) (honline : stSt g s ≠ ssOFFLINE)
    (hv : bits v.toNat 4 2 ≠ get s (F.LNK_CTRL_VER_MAX b)) : lnkCtrlOk b (merged (R.LNK_CTRL b) v s) s = false := by
  obtain ⟨-, hmask, -⟩ := rwMask_lnk b
  have hnew : bits (merged (R.LNK_CTRL b) v s) 4 2 ≠ bits (rdN s (R.LNK_CTRL b)) 4 2 := by
    rw [merged, bits_mix_covered hmask]
    exact hv
  simp [lnkCtrlOk, hnew, bayOffline_of_online hg honline]

/-- Setting TEST is not accepted while one of the bay's stalls is not OFFLINE. -/
theorem trainCtlOk_setting_test (hg : g ∈ bayStalls b s) (honline : stSt g s ≠ ssOFFLINE)
    (htest : flag s (F.LNK_TRAIN_CTL_TEST b) = false) (hv : bit v.toNat 3 = true) :
    trainCtlOk b (merged (R.LNK_TRAIN_CTL b) v s) s = false := by
  obtain ⟨-, -, hmask⟩ := rwMask_lnk b
  have hnew : bit (merged (R.LNK_TRAIN_CTL b) v s) 3 = true := by rw [merged, bit_mix, if_pos hmask, hv]
  simp [trainCtlOk, hnew, htest, bayOffline_of_online hg honline]

/-- A command that comes to a refused write of CTRL or TRAIN_CTL. -/
theorem linkRefuses_of_exec {i : Instr} {k : Nat} (hk : k ≠ 0x24) (h : exec i s = .next (lnkRefused b s)) :
    LinkRefuses i b (lnkBase b + k) s := ⟨_, h, lnkRefused_refuses b hk s⟩

theorem linkRefuses_ctrlWrite (h : accessOk sec (R.LNK_CTRL b) s = true)
    (hbad : lnkCtrlOk b (merged (R.LNK_CTRL b) v s) s = false) :
    LinkRefuses (.linkConfigWrite sec b 0 v) b (R.LNK_CTRL b) s :=
  linkRefuses_of_exec (by decide) (congrArg Host.Outcome.next (lnkCtrlWrite_refused h hbad))

theorem linkRefuses_trainCtlWrite (h : accessOk sec (R.LNK_TRAIN_CTL b) s = true)
    (hbad : trainCtlOk b (merged (R.LNK_TRAIN_CTL b) v s) s = false) :
    LinkRefuses (.linkConfigWrite sec b 1 v) b (R.LNK_TRAIN_CTL b) s :=
  linkRefuses_of_exec (by decide) (congrArg Host.Outcome.next (trainCtlWrite_refused h hbad))

/-- BAY_DISABLE writes CTRL with EN clear. -/
theorem linkRefuses_bayDisable (h : accessOk sec (R.LNK_CTRL b) s = true) (hg : g ∈ bayStalls b s)
    (hbusy : stSt g s ∈ [ssRUN, ssSYNC, ssLAYER, ssHOLD] ∨ srvSt g s ∈ [2, 3, 4]) (hen : flag s (F.LNK_CTRL_EN b) = true) :
    LinkRefuses (.bayDisable sec b) b (R.LNK_CTRL b) s := by
  have hclear : bit (rd s (R.LNK_CTRL b) &&& 0xFFFFFFFE#32).toNat 0 = false := by
    rw [BitVec.toNat_and, bit_and, show bit (0xFFFFFFFE#32).toNat 0 = false from rfl, Bool.and_false]
  exact linkRefuses_of_exec (by decide)
    (congrArg Host.Outcome.next (lnkCtrlWrite_refused h (lnkCtrlOk_clearing_en hg hbusy hen hclear)))

/-- TEST_ENTER writes TRAIN_CTL with TEST set. -/
theorem linkRefuses_testEnter (h : accessOk sec (R.LNK_TRAIN_CTL b) s = true) (hg : g ∈ bayStalls b s)
    (honline : stSt g s ≠ ssOFFLINE) (htest : flag s (F.LNK_TRAIN_CTL_TEST b) = false) :
    LinkRefuses (.testEnter sec b) b (R.LNK_TRAIN_CTL b) s := by
  have hset : bit (rd s (R.LNK_TRAIN_CTL b) ||| 8#32).toNat 3 = true := by
    rw [BitVec.toNat_or, bit_eq_testBit, Nat.testBit_or, show (8#32).toNat.testBit 3 = true from rfl, Bool.or_true]
  exact linkRefuses_of_exec (by decide)
    (congrArg Host.Outcome.next (trainCtlWrite_refused h (trainCtlOk_setting_test hg honline htest hset)))

end

/-- Settles O45: what the write would leave is judged by the bay's stalls, and no offset of the link blocks is stageable. -/
theorem linkWriteRefusals : Obligations.LinkWriteRefusals := by
  refine ⟨fun sec b v g s h hg hbusy hen => ⟨fun hv => ?_, linkRefuses_bayDisable h hg hbusy hen⟩,
    fun sec b v g s h hg honline hv => linkRefuses_ctrlWrite h (lnkCtrlOk_changing_verMax hg honline hv),
    fun sec b v g s h hg honline htest => ⟨fun hv => ?_, linkRefuses_testEnter h hg honline htest⟩,
    notStaged_of_stageable fun o hlo _ => stageable_outside (by omega) (by omega) (.inr hlo)⟩
  · exact linkRefuses_ctrlWrite h (lnkCtrlOk_clearing_en hg hbusy hen (by simp [bit, hv]))
  · exact linkRefuses_trainCtlWrite h (trainCtlOk_setting_test hg honline htest hv)

end Machine
end Sys2Proof

/-!
The statements of every command: how the block runs it, which parts of the state it leaves alone, and what no command takes
back. All but the dispatch follow from `exec_evolves`.
-/
namespace Sys2Proof
namespace Machine

/-! ## Running a command -/

/-- Settles O1: `step` looks at the queue and at nothing else. -/
theorem stepRunsFront : Obligations.StepRunsFront := fun s =>
  ⟨fun h => by simp only [step, h], fun c rest h => by simp only [step, h]⟩

/-- Settles O2: the meaning of each command is a next state by its definition, without a condition. -/
theorem everyCommandAnswers : Obligations.EveryCommandAnswers := by
  intro i s
  cases i <;> exact ⟨_, rfl⟩

/-! ## What a command leaves alone -/

/-- A command that may reset may change every part but the keys and the images (R10). -/
theorem mayTouch_reset_of_not_mayTouch {i : Instr} {p : Part} (hkeys : p ≠ .keys) (himgs : p ≠ .imgs)
    (hp : mayTouch i p = false) : mayTouch i .reset = false := by
  simp_all [mayTouch]

/-- An evolution leaves alone each part that it may not change, where a reset that would reach the part is not allowed. -/
theorem Evolves.same {pm : Part → Bool} {s t : State} (h : Evolves pm s.store t.store) {p : Part} (hp : pm p = false)
    (hr : p ≠ .keys → p ≠ .imgs → pm .reset = false) : p.same s t := by
  have hreset (hkeys : p ≠ .keys := by decide) (himgs : p ≠ .imgs := by decide) := hr hkeys himgs
  cases p with
  | reset => trivial
  | keys => exact h.keys_eq hp
  | imgs => exact h.imgs_eq hp
  | time => exact h.now_eq hp hreset
  | period => exact h.period_eq hp hreset
  | ask => exact h.ask_eq hp hreset
  | mem => exact h.mem_eq hp hreset
  | world => exact h.rtab_eq hp hreset
  | stalls => exact h.stalls_eq hp hreset
  | engs => exact h.engs_eq hp hreset
  | srvs => exact h.srvs_eq hp hreset
  | seams => exact h.seams_eq hp hreset
  | ports => exact h.ports_eq hp hreset
  | axes => exact h.axes_eq hp hreset
  | sens => exact h.sens_eq hp hreset
  | bays => exact h.bays_eq hp hreset
  | txns => exact h.txns_eq hp hreset
  | lamps => exact h.lamps_eq hp hreset
  | fars => exact h.fars_eq hp hreset
  | ctxs => exact h.ctxs_eq hp hreset
  | tports => exact h.tports_eq hp hreset
  | traces => exact h.traces_eq hp hreset
  | cmpJobs => exact h.cmpJobs_eq hp hreset
  | cci => exact h.cci_eq hp hreset

/-- Settles O5: a command is an evolution by the parts of its table. -/
theorem partsFrame : Obligations.PartsFrame := fun _ _ _ _ he hp =>
  (exec_evolves he).same hp fun hkeys himgs => mayTouch_reset_of_not_mayTouch hkeys himgs hp

/-- Settles O6: an evolution neither takes from the queue nor takes back an output or a drawn value. -/
theorem queueAndOutputs : Obligations.QueueAndOutputs := fun _ _ _ he =>
  ⟨(exec_evolves he).pending_eq, (exec_evolves he).out_prefix, (exec_evolves he).fresh_le⟩

/-- Settles O7: an evolution only raises rollback minima, and a reset keeps them (R517). -/
theorem rollbackNeverFalls : Obligations.RollbackNeverFalls := fun _ _ _ k he => (exec_evolves he).rollMin_le k

end Machine
end Sys2Proof

/-!
The statements of chapters 14 and 21 on configuration writes: DMC.CFG and DMC.SCRUB, and BOOT.TRIAL_CFG.
-/
namespace Sys2Proof
namespace Machine

/-! ## Configuration registers that only store their value -/

theorem merged_lt (o : Nat) (v : Word) (s : State) : merged o v s < 2 ^ 32 := by
  refine Nat.lt_pow_two_of_testBit _ fun i hi => ?_
  have hpow : 2 ^ 32 ≤ 2 ^ i := Nat.pow_le_pow_right (by decide) hi
  rw [← bit_eq_testBit, merged, bit_mix, bit_eq_testBit v.toNat, bit_eq_testBit (rdN s o),
    Nat.testBit_lt_two_pow (Nat.lt_of_lt_of_le v.isLt hpow), Nat.testBit_lt_two_pow (Nat.lt_of_lt_of_le (rdN_lt s o) hpow),
    ite_self]

/-- The topmost field of a word needs no mask. -/
theorem bits_top {n lo w : Nat} (h : n < 2 ^ (lo + w)) : bits n lo w = n / 2 ^ lo :=
  Nat.mod_eq_of_lt (Nat.div_lt_of_lt_mul (by rwa [← Nat.pow_add]))

/-- A configuration write whose value, where it is in range, only goes to the register. -/
def plainCfgWrite (sec : Bool) (o : Nat) (v : Word) (ok : Nat → Bool) (refused : Fld) (s : State) : State :=
  cfgWrite sec o v (fun n _ => ok n) (fun s => setF s refused) (fun n s => wrN s o n) s

section
variable {sec : Bool} {o : Nat} {f : Fld} {s : State} {ok : Nat → Bool} {v : Word}

/-- In range the register takes the value, and no other register changes. -/
theorem plainCfgWrite_takes (h : accessOk sec o s = true) (hok : ok (merged o v s) = true) :
    Takes o v s (plainCfgWrite sec o v ok f s) ∧ ∀ p, p ≠ o → rdN (plainCfgWrite sec o v ok f s) p = rdN s p := by
  rw [plainCfgWrite, cfgWrite_ok h, if_pos hok]
  exact ⟨rd_wr_same s o _, fun p hp => rdN_wrN_other s _ hp.symm⟩

/-- Out of range the refusal's flag is set, and no register but the flag's changes. -/
theorem plainCfgWrite_refuses (h : accessOk sec o s = true) (hfits : f.lo + f.w ≤ 32) (hw : f.w = 1) (hne : f.off ≠ o)
    (hok : ok (merged o v s) = false) :
    Refused o f s (plainCfgWrite sec o v ok f s) ∧ (∀ p, p ≠ f.off → rdN (plainCfgWrite sec o v ok f s) p = rdN s p) ∧
      (plainCfgWrite sec o v ok f s).imgs = s.imgs := by
  rw [plainCfgWrite, cfgWrite_ok h, if_neg (by rw [hok]; exact Bool.false_ne_true)]
  exact ⟨⟨rdN_put_other s f 1 hne, flag_setF_same s f hfits hw⟩, fun p hp => rdN_put_other s f 1 hp.symm, rfl⟩

end

/-! ## DMC.CFG and DMC.SCRUB (R396) -/

/-- A value of DMC.CFG or DMC.SCRUB is in range. -/
def dmcRange (scrub : Bool) (n : Nat) : Bool := scrub || decide (1 ≤ bits n 8 8)

theorem dmcRange_cfg (n : Nat) : dmcRange false n = decide (bits n 8 8 ≠ 0) := by
  simp [dmcRange, Nat.one_le_iff_ne_zero]

/-- AGE_LIMIT takes what a write of CFG gives it. -/
theorem ageLimit_merged (v : Word) (s : State) : bits (merged R.DMC_CFG v s) 8 8 = bits v.toNat 8 8 :=
  bits_mix_covered (by decide)

/-- Settles O46: the two registers only store their value, AGE_LIMIT alone is judged, and the DMC block is not stageable. -/
theorem memoryConfigWrites : Obligations.MemoryConfigWrites := by
  refine ⟨fun sec scrub v o s ho h => ?_, notStaged_of_stageable fun o hlo hhi =>
    stageable_outside (.inr (by omega)) (.inl (by omega)) (.inl (by omega))⟩
  subst ho
  refine ⟨plainCfgWrite sec _ v (dmcRange scrub) F.DMC_FLAGS_CFG_REFUSED s, rfl, ?_⟩
  rw [← ageLimit_merged v s]
  cases scrub with
  | true =>
    rw [if_neg fun hage => nomatch hage.1]
    exact plainCfgWrite_takes h rfl
  | false =>
    split
    next hage =>
      obtain ⟨hrefused, hother, -⟩ :=
        plainCfgWrite_refuses (f := F.DMC_FLAGS_CFG_REFUSED) (ok := dmcRange false) h (by decide) rfl (by decide)
          ((dmcRange_cfg _).trans (decide_eq_false (not_not_intro hage.2)))
      exact ⟨hrefused, hother⟩
    next hage => exact plainCfgWrite_takes h ((dmcRange_cfg _).trans (decide_eq_true fun hzero => hage ⟨rfl, hzero⟩))

/-! ## BOOT.TRIAL_CFG (R522) -/

theorem trialRange_merged (v : Word) (s : State) :
    let n := merged R.BOOT_TRIAL_CFG v s
    trialRange n = true ↔ 1 ≤ bits n 0 4 ∧ bits n 0 4 ≤ 7 ∧ 500 ≤ bits n 16 16 ∧ bits n 16 16 ≤ 10000 := by
  intro n
  rw [trialRange, ← bits_top (lo := 16) (w := 16) (merged_lt ..)]
  simp only [Bool.and_eq_true, decide_eq_true_eq, and_assoc, n]

/-- Settles O49: TRIAL_CFG only stores its value, which `trialRange` judges, and the BOOT block is not stageable. -/
theorem bootConfigRanges : Obligations.BootConfigRanges := by
  refine ⟨fun sec w n s h hn => ?_, notStaged_of_stageable fun o hlo hhi =>
    stageable_outside (.inr (by omega)) (.inr (by omega)) (.inl (by omega))⟩
  subst hn
  refine ⟨plainCfgWrite sec R.BOOT_TRIAL_CFG (wrWord w) trialRange F.BOOT_FLAGS_CFG_REFUSED s, rfl, ?_⟩
  split
  next hin => exact (plainCfgWrite_takes h ((trialRange_merged (wrWord w) s).2 hin)).1
  next hout =>
    obtain ⟨hrefused, -, himgs⟩ := plainCfgWrite_refuses (f := F.BOOT_FLAGS_CFG_REFUSED) h (by decide) rfl (by decide)
      (Bool.eq_false_iff.2 (mt (trialRange_merged (wrWord w) s).1 hout))
    exact ⟨hrefused, himgs⟩

end Machine
end Sys2Proof

/-!
The statements of chapter 19: lamp faults and failed groups, and the ranges of lamp-driver writes.
-/
namespace Sys2Proof

/-- A bit set in a mask that lacks it leaves the mask's other bits. -/
theorem bit_add_two_pow_of_bit {x i j : Nat} (hi : bit x i = false) (hj : bit x j = true) : bit (x + 2 ^ i) j = true := by
  rw [bit_eq_testBit] at hi hj
  have hapart : x &&& 2 ^ i = 0 := by rw [Nat.and_two_pow, hi, Bool.toNat_false, Nat.zero_mul]
  rw [add_eq_or_of_and_eq_zero hapart, bit_eq_testBit, Nat.testBit_or, hj, Bool.true_or]

namespace Machine

/-! ## Groups (R478) -/

theorem groupFailed_congr {s t : State} (h : rdN t R.LMP_GROUP_STATUS = rdN s R.LMP_GROUP_STATUS) (k : Nat) :
    groupFailed k t = groupFailed k s := by
  rw [groupFailed, groupFailed, Machine.get, Machine.get, F.LMP_GROUP_STATUS_FAILED, h]

/-- The registers that a failing group and the beacon's judgement write. -/
def groupReg (o : Nat) : Bool := o == R.LMP_GROUP_STATUS || o == R.LMP_FLAGS || eventReg o || inhibitReg o

theorem eventReg_lmp {o : Nat} (h : 0xF0000 ≤ o) : eventReg o = false := by
  rw [eventReg, decide_eq_false_iff_not]
  omega

/-- The faults and the registers of the lamps are none of them. -/
theorem groupReg_lamps {o : Nat} (h : 0xF0030 ≤ o) (h' : o < 0x100000) : groupReg o = false := by
  rw [groupReg, eventReg_lmp (by omega), inhibitReg_below (by omega) (by unfold R.YRD_LSAFE_STATUS; omega),
    beq_eq_false_iff_ne.2 (by unfold R.LMP_GROUP_STATUS; omega), beq_eq_false_iff_ne.2 (by unfold R.LMP_FLAGS; omega)]
  rfl

/-- What a failing group shows. -/
def groupShown (k : Nat) (s : State) : State :=
  setF (put s F.LMP_GROUP_STATUS_FAILED (get s F.LMP_GROUP_STATUS_FAILED + 2 ^ k)) F.LMP_FLAGS_GROUP_FAILED

/-- The failure of a group shown, counted and raised. -/
def groupTold (k : Nat) (s : State) : State := raise 208 (lifeAdd (groupShown k s) (lifeNo 19 1 k) 1)

theorem failGroup_again {k : Nat} {s : State} (h : groupFailed k s = true) : failGroup k s = s := if_pos h

theorem failGroup_new {k : Nat} {s : State} (h : groupFailed k s = false) :
    failGroup k s =
      if bit (get s F.LMP_BEACON_BIND_GROUPS) k then lifeAdd (groupTold k s) (lifeNo 19 2 k) 1 else groupTold k s :=
  if_neg (by rw [h]; exact Bool.false_ne_true)

theorem rdN_failGroup_new {k : Nat} {s : State} (h : groupFailed k s = false) (o : Nat) :
    rdN (failGroup k s) o = rdN (groupTold k s) o := by
  rw [failGroup_new h]
  split <;> rfl

theorem groupTold_writes (k : Nat) (s : State) : OnlyWrites groupReg s (groupTold k s) :=
  .raise (.lifeAdd (.put (.put (.refl s) _ rfl) 1 rfl) _ _) (by decide) fun o ho => by simp [groupReg, ho]

theorem groupFailed_groupTold (k j : Nat) (s : State) :
    groupFailed j (groupTold k s) = bit ((get s F.LMP_GROUP_STATUS_FAILED + 2 ^ k) % 2 ^ 8) j := by
  have hshown : get (groupShown k s) F.LMP_GROUP_STATUS_FAILED = (get s F.LMP_GROUP_STATUS_FAILED + 2 ^ k) % 2 ^ 8 :=
    (get_put_other _ _ _ _ (by decide)).trans (get_put_same _ _ _ (by decide))
  rw [groupTold, groupFailed, get_raise (by decide) _ (by decide), get_lifeAdd, hshown]

/-- A failing group sets its own flag and leaves that of the lamp fault. -/
theorem flag_groupTold (k : Nat) (s : State) :
    flag (groupTold k s) F.LMP_FLAGS_GROUP_FAILED = true ∧
      flag (groupTold k s) F.LMP_FLAGS_LAMP_FAULT = flag s F.LMP_FLAGS_LAMP_FAULT := by
  have hraise {f : Fld} (hf : f.off = R.LMP_FLAGS) : flag (groupTold k s) f = flag (groupShown k s) f :=
    flag_raise (by decide) _ (by rw [hf]; decide)
  exact ⟨(hraise rfl).trans (flag_setF_same _ _ (by decide) rfl),
    (hraise rfl).trans ((flag_put_disjoint _ _ _ _ (by decide) (by decide)).trans (flag_put_other _ _ _ _ (by decide)))⟩

/-- A group that was not FAILED is FAILED now, with its flag and its event. -/
theorem failGroup_new_fields {k : Nat} (hk : k < 8) {s : State} (h : groupFailed k s = false) :
    groupFailed k (failGroup k s) = true ∧ flag (failGroup k s) F.LMP_FLAGS_GROUP_FAILED = true ∧
      flag (failGroup k s) (pendBit 208) = true := by
  have hregs := rdN_failGroup_new h
  refine ⟨?_, (flag_eq_of_rdN (hregs _)).trans (flag_groupTold k s).1,
    (flag_eq_of_rdN (hregs _)).trans (flag_raise_same (by decide) _)⟩
  rw [groupFailed_congr (hregs _), groupFailed_groupTold, bit_mod _ hk, bit_add_two_pow, ← groupFailed, h]
  rfl

theorem lmp_ne_pendBit {n o : Nat} (hn : n < 512) (ho : 0xF0000 ≤ o) : o ≠ (pendBit n).off := by
  simp only [pendBit, R.EVC_PEND]
  omega

/-- The registers that the judgement of the beacon writes. -/
def beaconReg (o : Nat) : Bool := o == R.LMP_GROUP_STATUS || inhibitReg o

/-- The judgement of the beacon shows the empty groups, and turns its source on or off. -/
theorem beaconEval_cases (s : State) : ∃ n, beaconEval s = inhibitOn srcBEACON (put s F.LMP_GROUP_STATUS_EMPTY n) ∨
    beaconEval s = inhibitOff srcBEACON (put s F.LMP_GROUP_STATUS_EMPTY n) := by
  unfold beaconEval
  extract_lets empty s1
  split
  · exact ⟨_, .inl rfl⟩
  · exact ⟨_, .inr rfl⟩

theorem inhibitOff_writes (i : Nat) (s : State) : OnlyWrites inhibitReg s (inhibitOff i s) := by
  obtain ⟨_, _, -, hwrites⟩ := inhibitOff_shape i s
  exact hwrites.mono fun o ho => by rw [inhibitReg, ho, Bool.true_or]

/-- Behind the empty groups the judgement of the beacon is the inhibit's. -/
theorem beaconEval_shape (s : State) : ∃ n, OnlyWrites inhibitReg (put s F.LMP_GROUP_STATUS_EMPTY n) (beaconEval s) := by
  obtain ⟨n, h | h⟩ := beaconEval_cases s <;> rw [h]
  · exact ⟨n, inhibitOn_writes _ _⟩
  · exact ⟨n, inhibitOff_writes _ _⟩

theorem beaconEval_writes (s : State) : OnlyWrites beaconReg s (beaconEval s) := by
  obtain ⟨n, h⟩ := beaconEval_shape s
  exact .trans (.put (.refl s) n rfl) (h.mono fun o ho => by rw [beaconReg, ho, Bool.or_true])

theorem groupFailed_beaconEval (k : Nat) (s : State) : groupFailed k (beaconEval s) = groupFailed k s := by
  obtain ⟨n, h⟩ := beaconEval_shape s
  rw [groupFailed_congr (h _ rfl), groupFailed, get_put_disjoint _ _ _ _ (by decide) (by decide), ← groupFailed]

/-- What the judgement of the groups behind a lamp fault or a write leaves. -/
structure GroupsJudged (s t : State) : Prop where
  writes : OnlyWrites groupReg s t
  failed : ∀ k < 8, groupFailed k s = true → groupFailed k t = true
  told : flag s F.LMP_FLAGS_LAMP_FAULT = true → flag t F.LMP_FLAGS_LAMP_FAULT = true
  pend : PendKept 209 s t

namespace GroupsJudged

variable {s t : State}

theorem refl (s : State) : GroupsJudged s s := ⟨.refl s, fun _ _ h => h, id, .refl s⟩

theorem failGroup (h : GroupsJudged s t) (k : Nat) : GroupsJudged s (failGroup k t) := by
  cases hnew : groupFailed k t with
  | true => rwa [failGroup_again hnew]
  | false =>
    have hregs := rdN_failGroup_new hnew
    refine ⟨h.writes.trans fun o ho => (hregs o).trans (groupTold_writes k t o ho), fun j hj hs => ?_, fun hs => ?_,
      .regs (.raise (.regs (.put (.put h.pend _ (lmp_ne_pendBit (by decide) (by decide))) 1
        (lmp_ne_pendBit (by decide) (by decide))) (rdN_lifeAdd _ _ _)) (by decide) (by decide)) hregs⟩
    · rw [groupFailed_congr (hregs _), groupFailed_groupTold, bit_mod _ hj]
      exact bit_add_two_pow_of_bit hnew (h.failed j hj hs)
    · rw [flag_eq_of_rdN (hregs _), (flag_groupTold k t).2]
      exact h.told hs

theorem beaconEval (h : GroupsJudged s t) : GroupsJudged s (beaconEval t) := by
  have hwrites := beaconEval_writes t
  refine ⟨h.writes.trans (hwrites.mono fun o ho => ?_), fun k hk hs => ?_, fun hs => ?_, fun hs => ?_⟩
  · simp only [beaconReg, Bool.or_eq_true] at ho
    simp only [groupReg, Bool.or_eq_true]
    tauto
  · rw [groupFailed_beaconEval, h.failed k hk hs]
  · rw [hwrites.flag_eq rfl, h.told hs]
  · rw [hwrites.flag_eq rfl, h.pend hs]

end GroupsJudged

/-- The judgement of a group and then of the beacon. -/
theorem groupsJudged_ite (c : Prop) [Decidable c] (k : Nat) (s : State) :
    GroupsJudged s (beaconEval (if c then failGroup k s else s)) := by
  refine .beaconEval ?_
  split
  · exact .failGroup (.refl s) k
  · exact .refl s

/-! ## Lamps that are off (R478) -/

theorem lampShown_of_lampOff {i : Fin 160} {s : State} (h : lampOff i s = true) : lampShown i s = 0 := if_pos h

theorem lampShown_of_bit {i : Fin 160} {s : State} (h : flag s (lampBit i) = true) : lampShown i s = 0 :=
  lampShown_of_lampOff (by rw [lampOff, h, Bool.true_or])

theorem lampShown_of_groupFailed {i : Fin 160} {k : Nat} {s : State} (hk : k < 8) (hgroup : get s (F.LMP_LAMP_GROUP i) = k)
    (h : groupFailed k s = true) : lampShown i s = 0 :=
  lampShown_of_lampOff (by rw [lampOff, hgroup, h, decide_eq_true hk, Bool.and_self, Bool.or_true])

/-! ## A lamp fault (R477, R478) -/

/-- The fault in the lamp's bit, LAST_FAULT and LAST_FAULT_TIME. -/
def faultLatched (i : Fin 160) (short : Bool) (s : State) : State :=
  wr64 (wrN (setF s (lampBit i)) R.LMP_LAST_FAULT (i + 256 * b2n short)) R.LMP_LAST_FAULT_TIME s.now

/-- The fault latched, counted and raised. -/
def faultTold (i : Fin 160) (short : Bool) (s : State) : State :=
  raise 209 (lifeAdd (setF (faultLatched i short s) F.LMP_FLAGS_LAMP_FAULT) (lifeNo 19 0 (2 * i + b2n short)) 1)

theorem lampFault_recognised {i : Fin 160} {s : State} (hthere : lampThere i = true) (hchecked : lampChecked i s = true)
    (hnew : flag s (lampBit i) = false) (short : Bool) : lampFault i short s =
      beaconEval (if get s (F.LMP_LAMP_GROUP i) < 8 then failGroup (get s (F.LMP_LAMP_GROUP i)) (faultTold i short s)
        else faultTold i short s) :=
  if_neg (by simp [hthere, hchecked, hnew])

/-- The registers that a lamp fault writes. -/
def lampFaultReg (o : Nat) : Bool := o == R.LMP_FLAGS || (decide (0xF0030 ≤ o) && decide (o < 0xF0050)) || eventReg o

theorem lampBit_fits (i : Fin 160) : (lampBit i).lo + (lampBit i).w ≤ 32 := Nat.mod_lt i.val (by decide)

theorem lampBit_off (i : Fin 160) : 0xF0030 ≤ (lampBit i).off ∧ (lampBit i).off < R.LMP_LAST_FAULT := by
  simp only [lampBit, R.LMP_LAMP_FAULT, R.LMP_LAST_FAULT]
  omega

theorem faultTold_writes (i : Fin 160) (short : Bool) (s : State) : OnlyWrites lampFaultReg s (faultTold i short s) := by
  have hbit : lampFaultReg (lampBit i).off = true := by
    obtain ⟨hlo, hhi⟩ := lampBit_off i
    unfold R.LMP_LAST_FAULT at hhi
    rw [lampFaultReg, decide_eq_true hlo, decide_eq_true (by omega), Bool.and_self, Bool.or_true, Bool.true_or]
  exact .raise (.lifeAdd (.put (.wrN (.wrN (.wrN (.put (.refl s) 1 hbit) _ rfl) _ rfl) _ rfl) 1 rfl) _ _) (by decide)
    fun o ho => by rw [lampFaultReg, ho, Bool.or_true]

/-- What the raise leaves of the latched fault. -/
theorem rdN_faultTold (i : Fin 160) (short : Bool) (s : State) {o : Nat} (ho : 0xF0030 ≤ o) :
    rdN (faultTold i short s) o = rdN (faultLatched i short s) o := by
  rw [faultTold, rdN_raise (by decide) _ (eventReg_lmp (by omega)), rdN_lifeAdd]
  exact rdN_put_other _ _ _ (by simp only [F.LMP_FLAGS_LAMP_FAULT, R.LMP_FLAGS]; omega)

theorem faultTold_fields (i : Fin 160) (short : Bool) (s : State) :
    flag (faultTold i short s) (lampBit i) = true ∧ get (faultTold i short s) F.LMP_LAST_FAULT_LAMP = i.val ∧
      get (faultTold i short s) F.LMP_LAST_FAULT_KIND = (if short then 1 else 0) ∧
      rd64 (faultTold i short s) R.LMP_LAST_FAULT_TIME = s.now % 2 ^ 64 ∧
      flag (faultTold i short s) F.LMP_FLAGS_LAMP_FAULT = true ∧ flag (faultTold i short s) (pendBit 209) = true := by
  obtain ⟨hlo, hhi⟩ := lampBit_off i
  have hne {o : Nat} (h : R.LMP_LAST_FAULT ≤ o) : o ≠ (lampBit i).off := by omega
  have hlast : rdN (faultTold i short s) R.LMP_LAST_FAULT = i + 256 * b2n short := by
    rw [rdN_faultTold i short s (by decide), faultLatched, rdN_wr64_other _ _ (by decide) (by decide), rdN_wrN_same]
    cases short <;> simp [b2n] <;> omega
  have hbit : rdN (faultTold i short s) (lampBit i).off = rdN (setF s (lampBit i)) (lampBit i).off := by
    rw [rdN_faultTold i short s hlo, faultLatched, rdN_wr64_other _ _ (hne (by decide)) (hne (by decide)),
      rdN_wrN_other _ _ (hne (by decide))]
  refine ⟨?_, ?_, ?_, ?_, ?_, flag_raise_same (by decide) _⟩
  · rw [flag_eq_of_rdN hbit, flag_setF_same _ _ (lampBit_fits i) rfl]
  · rw [Machine.get, F.LMP_LAST_FAULT_LAMP, hlast, bits]
    cases short <;> simp [b2n] <;> omega
  · rw [Machine.get, F.LMP_LAST_FAULT_KIND, hlast, bits]
    cases short <;> simp [b2n] <;> omega
  · rw [rd64_eq_of_rdN (rdN_faultTold i short s (by decide)) (rdN_faultTold i short s (by decide)), faultLatched,
      rd64_wr64_same]
  · have hraise : flag (faultTold i short s) F.LMP_FLAGS_LAMP_FAULT =
        flag (setF (faultLatched i short s) F.LMP_FLAGS_LAMP_FAULT) F.LMP_FLAGS_LAMP_FAULT :=
      flag_raise (by decide) _ (by decide)
    rw [hraise, flag_setF_same _ _ (by decide) rfl]

theorem lampFaultReg_lamp (i : Nat) : lampFaultReg (R.LMP_LAMP i) = false := by
  have hlo : 0xF0400 ≤ R.LMP_LAMP i := Nat.le_add_right _ _
  rw [lampFaultReg, eventReg_lmp (by omega), decide_eq_false (by omega : ¬ R.LMP_LAMP i < 0xF0050), Bool.and_false,
    beq_eq_false_iff_ne.2 (by unfold R.LMP_FLAGS; omega)]
  rfl

theorem groupReg_lamp (i : Fin 160) : groupReg (R.LMP_LAMP i) = false :=
  groupReg_lamps (by unfold R.LMP_LAMP; omega) (by unfold R.LMP_LAMP; omega)

theorem completes_lampFault {i : Fin 160} {s : State} (hthere : lampThere i = true) (hchecked : lampChecked i s = true)
    (hnew : flag s (lampBit i) = false) (short : Bool) :
    Completes (.lampFault i short) s fun t => flag t (lampBit i) = true ∧ get t F.LMP_LAST_FAULT_LAMP = i.val ∧
      get t F.LMP_LAST_FAULT_KIND = (if short then 1 else 0) ∧ rd64 t R.LMP_LAST_FAULT_TIME = s.now % 2 ^ 64 ∧
      flag t F.LMP_FLAGS_LAMP_FAULT = true ∧ flag t (pendBit 209) = true ∧ lampShown i t = 0 ∧
      ∀ k : Fin 8, get s (F.LMP_LAMP_GROUP i) = k.val → groupFailed k s = false →
        groupFailed k t = true ∧ flag t F.LMP_FLAGS_GROUP_FAILED = true ∧ flag t (pendBit 208) = true ∧
        ∀ j : Fin 160, get s (F.LMP_LAMP_GROUP j) = k.val → lampShown j t = 0 := by
  refine ⟨_, congrArg Host.Outcome.next (lampFault_recognised hthere hchecked hnew short), ?_⟩
  have hjudged : GroupsJudged (faultTold i short s) _ :=
    groupsJudged_ite (get s (F.LMP_LAMP_GROUP i) < 8) (get s (F.LMP_LAMP_GROUP i)) (faultTold i short s)
  obtain ⟨hbit, hlamp, hkind, htime, htold, hpend⟩ := faultTold_fields i short s
  obtain ⟨hlo, hhi⟩ := lampBit_off i
  unfold R.LMP_LAST_FAULT at hhi
  have hbit' := (hjudged.writes.flag_eq (groupReg_lamps hlo (by omega))).trans hbit
  refine ⟨hbit', (hjudged.writes.get_eq rfl).trans hlamp, (hjudged.writes.get_eq rfl).trans hkind,
    (rd64_eq_of_rdN (hjudged.writes _ rfl) (hjudged.writes _ rfl)).trans htime, hjudged.told htold, hjudged.pend hpend,
    lampShown_of_bit hbit', fun k hgroup hwas => ?_⟩
  have htoldWrites := faultTold_writes i short s
  have hwas' : groupFailed k (faultTold i short s) = false := (groupFailed_congr (htoldWrites _ rfl) k).trans hwas
  obtain ⟨hfailed, hflag, hevent⟩ := failGroup_new_fields k.isLt hwas'
  rw [hgroup, if_pos k.isLt] at hjudged ⊢
  have hbeacon := beaconEval_writes (failGroup k (faultTold i short s))
  have hfailed' := (groupFailed_beaconEval k (failGroup k (faultTold i short s))).trans hfailed
  refine ⟨hfailed', (hbeacon.flag_eq rfl).trans hflag, (hbeacon.flag_eq rfl).trans hevent, fun j hj => ?_⟩
  exact lampShown_of_groupFailed k.isLt
    ((hjudged.writes.get_eq (groupReg_lamp j)).trans ((htoldWrites.get_eq (lampFaultReg_lamp j)).trans hj)) hfailed'

/-! ## Writes of the lamp driver's registers (R480, R483) -/

/-- A register of the driver that a write goes to: every one with a field to set but BEACON_BIND, which has its own command. -/
def LampReg (o : Nat) : Prop := 0xF0000 ≤ o ∧ o < 0x100000 ∧ o % 4 = 0 ∧ o ≠ R.LMP_BEACON_BIND ∧ rwMask o ≠ 0

/-- A write from the secure world, or one that changes no field kept for it, is judged by the value it would leave. -/
theorem lampConfigWrite_judged {sec : Bool} {o : Nat} {v : Word} {s : State} (hreg : LampReg o) (h : accessOk sec o s = true)
    (hfree : sec = true ∨ lampGuarded (rdN s o) (merged o v s) s = false) :
    lampConfigWrite sec o v s = lmpTake o (merged o v s) s := by
  obtain ⟨hlo, hhi, h4, hbind, hrw⟩ := hreg
  have ho : 0xF0000 + o % 0x10000 / 4 * 4 = o := by omega
  unfold lampConfigWrite
  simp only [ho]
  rw [if_neg (not_or.2 ⟨hbind, hrw⟩), hostWrite_ok h, if_neg]
  rintro ⟨-, hsec, hguarded⟩
  obtain rfl | hfree := hfree
  · exact hsec rfl
  · rw [hfree] at hguarded; cases hguarded

theorem rwMask_lamp : ∀ i : Fin 160, lampThere i = true → rwMask (R.LMP_LAMP i) ≠ 0 := by decide +kernel

theorem lampReg_lamp {i : Fin 160} (h : lampThere i = true) : LampReg (R.LMP_LAMP i) := by
  refine ⟨?_, ?_, ?_, ?_, rwMask_lamp i h⟩ <;> simp only [R.LMP_LAMP, R.LMP_BEACON_BIND] <;> omega

theorem lampAt_lamp {i : Fin 160} (h : lampThere i = true) : lampAt (R.LMP_LAMP i) = some i := by
  have hi : (R.LMP_LAMP i - 0xF0400) / 4 = i.val := by unfold R.LMP_LAMP; omega
  unfold lampAt
  rw [dif_pos ⟨by unfold R.LMP_LAMP; omega, by rw [hi]; exact i.isLt⟩]
  simp only [hi, h, if_true]

theorem lmpRange_lamp {i : Fin 160} (h : lampThere i = true) (n : Nat) : lmpRange (R.LMP_LAMP i) n =
    (decide (bits n 16 3 ≤ 4) && (decide (bits n 20 4 < 8) || bits n 20 4 == 15)) := by
  rw [lmpRange, lampAt_lamp h]

/-! ## Writes of a lamp (R475, R478) -/

/-- A lamp's register stored, with the fade that the write starts. -/
def lampStored (i : Fin 160) (n : Nat) (s : State) : State :=
  let s1 := wrN s (R.LMP_LAMP i) n
  if lampMoved i s s1 then fadeFrom i (lampShown i s) s1 else s1

theorem rdN_lampStored (i : Fin 160) (n : Nat) (s : State) (o : Nat) :
    rdN (lampStored i n s) o = rdN (wrN s (R.LMP_LAMP i) n) o := by
  unfold lampStored
  extract_lets s1
  split <;> rfl

theorem lmpApply_lamp {i : Fin 160} (h : lampThere i = true) (n : Nat) (s : State) : lmpApply (R.LMP_LAMP i) n s =
    beaconEval (if bits n 20 4 < 8 ∧ flag (lampStored i n s) (lampBit i) = true then
      failGroup (bits n 20 4) (lampStored i n s) else lampStored i n s) := by
  rw [lmpApply, lampAt_lamp h]
  rfl

/-- A stored value stands in the lamp's register, FAILED groups stay FAILED, and a lamp of one stays off. -/
theorem completes_lampWrite {sec : Bool} {i : Fin 160} {v : Word} {s : State} (hthere : lampThere i = true)
    (h : accessOk sec (R.LMP_LAMP i) s = true) (hin : ¬ LampFieldOut (R.LMP_LAMP i) (merged (R.LMP_LAMP i) v s))
    (hfree : sec = true ∨ lampGuarded (rdN s (R.LMP_LAMP i)) (merged (R.LMP_LAMP i) v s) s = false) {k : Fin 8}
    (hfailed : groupFailed k s = true) :
    Completes (.lampConfigWrite sec (R.LMP_LAMP i) v) s fun t => Takes (R.LMP_LAMP i) v s t ∧ groupFailed k t = true ∧
      (get t (F.LMP_LAMP_GROUP i) = k.val → lampShown i t = 0) := by
  have hrange : lmpRange (R.LMP_LAMP i) (merged (R.LMP_LAMP i) v s) = true := by
    rw [lmpRange_lamp hthere]
    by_contra hout
    simp only [Bool.and_eq_true, Bool.or_eq_true, decide_eq_true_eq, beq_iff_eq] at hout
    exact hin (.inr (.inr (.inr (.inr (.inr (.inr ⟨i, rfl, hthere, by omega⟩))))))
  have hexec := (lampConfigWrite_judged (lampReg_lamp hthere) h hfree).trans ((if_pos hrange).trans (lmpApply_lamp hthere _ s))
  refine ⟨_, congrArg Host.Outcome.next hexec, ?_⟩
  have hjudged := groupsJudged_ite (bits (merged (R.LMP_LAMP i) v s) 20 4 < 8 ∧
    flag (lampStored i (merged (R.LMP_LAMP i) v s) s) (lampBit i) = true) (bits (merged (R.LMP_LAMP i) v s) 20 4)
    (lampStored i (merged (R.LMP_LAMP i) v s) s)
  have hstored := rdN_lampStored i (merged (R.LMP_LAMP i) v s) s
  have hgroups : R.LMP_LAMP i ≠ R.LMP_GROUP_STATUS := by unfold R.LMP_LAMP R.LMP_GROUP_STATUS; omega
  have hstill := hjudged.failed k k.isLt ((groupFailed_congr ((hstored _).trans (rdN_wrN_other s _ hgroups)) k).trans hfailed)
  exact ⟨(rd_eq_of_rdN ((hjudged.writes _ (groupReg_lamp i)).trans (hstored _))).trans (rd_wr_same s _ _), hstill,
    fun hgroup => lampShown_of_groupFailed k.isLt hgroup hstill⟩

/-- Settles O48: a fault is latched before the groups are judged, and their judgement takes back neither a fault nor a FAILED
group. -/
theorem lampFaults : Obligations.LampFaults :=
  ⟨fun _ short _ hthere hchecked hnew => completes_lampFault hthere hchecked hnew short,
    fun _ _ _ _ _ hthere h _ hfailed hin hfree => completes_lampWrite hthere h hin hfree hfailed⟩

/-! ## Writes out of range (R483) -/

theorem lampReg_of_lampFieldOut {o n : Nat} (h : LampFieldOut o n) : LampReg o := by
  obtain ⟨rfl, -⟩ | ⟨rfl, -⟩ | ⟨rfl, -⟩ | ⟨k, rfl, -⟩ | ⟨k, rfl, -⟩ | ⟨i, rfl, -⟩ | ⟨i, rfl, hthere, -⟩ := h
  · unfold LampReg; decide +kernel
  · unfold LampReg; decide +kernel
  · unfold LampReg; decide +kernel
  · unfold LampReg; revert k; decide +kernel
  · unfold LampReg; revert k; decide +kernel
  · unfold LampReg; revert i; decide +kernel
  · exact lampReg_lamp hthere

theorem lmpRange_cfg (n : Nat) : lmpRange R.LMP_CFG n = (decide (8 ≤ bits n 0 5) && decide (bits n 0 5 ≤ 16)) := rfl

theorem lmpRange_matrixCfg {n : Nat} (hn : n < 2 ^ 32) : lmpRange R.LMP_MATRIX_CFG n =
    (decide (50 ≤ bits n 0 10) && decide (bits n 0 10 ≤ 1000) && decide (2 ≤ bits n 16 6) && decide (bits n 24 8 ≤ 240)) := by
  rw [bits_top (lo := 24) (w := 8) hn]
  rfl

theorem lmpRange_detect {n : Nat} (hn : n < 2 ^ 32) : lmpRange R.LMP_DETECT n =
    (decide (1 ≤ bits n 0 8) && decide (10 ≤ bits n 16 16) && decide (bits n 16 16 ≤ 60000)) := by
  rw [bits_top (lo := 16) (w := 16) hn]
  rfl

theorem lmpRange_pattern (k : Fin 4) (n : Nat) :
    lmpRange (R.LMP_PAT_CTRL k) n = (bits n 1 2 != 3 && decide (10 ≤ bits n 8 16) && decide (bits n 8 16 ≤ 60000)) ∧
      lmpRange (R.LMP_PAT_CHASE k) n =
        (decide (1 ≤ bits n 0 16) && decide (bits n 0 16 ≤ 60000) && decide (1 ≤ bits n 16 8)) := by
  have hplaces : lampAt (R.LMP_PAT_CTRL k) = none ∧ patAt (R.LMP_PAT_CTRL k) = some (k.val, 0) ∧
      lampAt (R.LMP_PAT_CHASE k) = none ∧ patAt (R.LMP_PAT_CHASE k) = some (k.val, 8) := by
    revert k; decide
  obtain ⟨hlamp, hctrl, hlamp', hchase⟩ := hplaces
  exact ⟨by rw [lmpRange, hlamp, hctrl]; rfl, by rw [lmpRange, hlamp', hchase]; rfl⟩

theorem lmpRange_sinkCur (i : Fin 24) (n : Nat) : lmpRange (R.LMP_SINK_CUR i) n = decide (bits n 0 8 ≤ 240) := by
  have hplaces : lampAt (R.LMP_SINK_CUR i) = none ∧ patAt (R.LMP_SINK_CUR i) = none ∧ R.LMP_SINK_CUR i ≠ R.LMP_CFG ∧
      R.LMP_SINK_CUR i ≠ R.LMP_MATRIX_CFG ∧ R.LMP_SINK_CUR i ≠ R.LMP_DETECT ∧ R.LMP_SINK_CUR 0 ≤ R.LMP_SINK_CUR i ∧
      R.LMP_SINK_CUR i < R.LMP_SINK_CUR 24 := by
    revert i; decide
  obtain ⟨hlamp, hpat, hcfg, hmatrix, hdetect, hrow⟩ := hplaces
  rw [lmpRange, hlamp, hpat]
  refine (if_neg hcfg).trans ((if_neg hmatrix).trans ((if_neg hdetect).trans ((if_pos hrow).trans ?_)))
  rw [bits, Nat.pow_zero, Nat.div_one]
  rfl

/-- The driver's judgement of a value agrees with the table of LMP registers. -/
theorem lmpRange_of_lampFieldOut {o n : Nat} (hn : n < 2 ^ 32) (h : LampFieldOut o n) : lmpRange o n = false := by
  rw [← Bool.not_eq_true]
  intro hin
  obtain ⟨rfl, hout⟩ | ⟨rfl, hout⟩ | ⟨rfl, hout⟩ | ⟨k, rfl, hout⟩ | ⟨k, rfl, hout⟩ | ⟨i, rfl, hout⟩ | ⟨i, rfl, hthere, hout⟩ := h
  · rw [lmpRange_cfg, Bool.and_eq_true, decide_eq_true_eq, decide_eq_true_eq] at hin
    exact hout hin
  · simp only [lmpRange_matrixCfg hn, Bool.and_eq_true, decide_eq_true_eq, and_assoc] at hin
    exact hout hin
  · simp only [lmpRange_detect hn, Bool.and_eq_true, decide_eq_true_eq, and_assoc] at hin
    exact hout hin
  · simp only [(lmpRange_pattern k n).1, Bool.and_eq_true, bne_iff_ne, decide_eq_true_eq, and_assoc] at hin
    exact hout hin
  · simp only [(lmpRange_pattern k n).2, Bool.and_eq_true, decide_eq_true_eq, and_assoc] at hin
    exact hout hin
  · rw [lmpRange_sinkCur, decide_eq_true_eq] at hin
    omega
  · simp only [lmpRange_lamp hthere, Bool.and_eq_true, Bool.or_eq_true, decide_eq_true_eq, beq_iff_eq] at hin
    omega

/-- A refusal keeps every register of the driver but FLAGS, sets CFG_REFUSED, and changes no lamp. -/
theorem lmpReport_refuses {o : Nat} (hreg : LampReg o) (hne : o ≠ R.LMP_FLAGS) (s : State) :
    Refused o F.LMP_FLAGS_CFG_REFUSED s (lmpReport F.LMP_FLAGS_CFG_REFUSED s) ∧
      (lmpReport F.LMP_FLAGS_CFG_REFUSED s).lamps = s.lamps := by
  have hwrites : OnlyWrites (fun o => eventReg o || o == R.LMP_FLAGS) s (lmpReport F.LMP_FLAGS_CFG_REFUSED s) :=
    .raiseOnSet (.refl s) (by decide) rfl fun o ho => by rw [ho, Bool.true_or]
  have hparts : Evolves (fun _ => false) s.store (lmpReport F.LMP_FLAGS_CFG_REFUSED s).store := lmpReport_evolves .refl _
  refine ⟨⟨hwrites o ?_, flag_raiseOnSet_same (by decide) (by decide) rfl (by decide) s⟩, hparts.lamps_eq rfl rfl⟩
  beta_reduce
  rw [eventReg_lmp hreg.1, beq_eq_false_iff_ne.2 hne, Bool.or_self]

/-- Out of range a write that is judged by the whole value it would leave is refused (R483). -/
theorem completes_lampConfigWrite_outOfRange {sec : Bool} {o : Nat} {v : Word} {s : State} (h : accessOk sec o s = true)
    (hout : LampFieldOut o (merged o v s)) (hfree : sec = true ∨ lampGuarded (rdN s o) (merged o v s) s = false) :
    Completes (.lampConfigWrite sec o v) s fun t => Refused o F.LMP_FLAGS_CFG_REFUSED s t ∧ t.lamps = s.lamps := by
  have hreg := lampReg_of_lampFieldOut hout
  have hne : o ≠ R.LMP_FLAGS := by
    rintro rfl
    obtain ⟨-, -, -, -, hrw⟩ := hreg
    exact hrw rfl
  have hrefused : lampConfigWrite sec o v s = lmpReport F.LMP_FLAGS_CFG_REFUSED s := by
    rw [lampConfigWrite_judged hreg h hfree, lmpTake, lmpRange_of_lampFieldOut (merged_lt o v s) hout]
    rfl
  exact ⟨_, congrArg Host.Outcome.next hrefused, lmpReport_refuses hreg hne s⟩

/-! ## A write of a lamp kept for the secure world (R480, R483)

A non-secure write may not change GROUP and MONITOR of a lamp in a bound group. It keeps them, and is judged without them.
O47 is stated of every requester that may reach the register. -/

/-- Lamp 0 belongs to group 0, which is bound to the beacon. -/
def boundLamp : State := put (put State.reset F.LMP_BEACON_BIND_GROUPS 1) (F.LMP_LAMP_GROUP 0) 0

/-- LEVEL 1, and GROUP 9, which no lamp may have. -/
def groupNine : Word := 0x00900001#32

theorem boundLamp_out : accessOk false (R.LMP_LAMP 0) boundLamp = true ∧
    LampFieldOut (R.LMP_LAMP 0) (merged (R.LMP_LAMP 0) groupNine boundLamp) := by
  unfold LampFieldOut
  decide +kernel

/-- The write keeps GROUP and stores LEVEL. -/
theorem lampConfigWrite_boundLamp : rdN boundLamp (R.LMP_LAMP 0) = 0 ∧
    rdN (lampConfigWrite false (R.LMP_LAMP 0) groupNine boundLamp) (R.LMP_LAMP 0) = 1 := by
  decide +kernel

/-- Refutes O47: a non-secure write that would set GROUP out of range on a lamp of a bound group is judged without the GROUP,
which stays, and stores the rest. A write from the secure world, or one that changes nothing kept for it, is refused
(`completes_lampConfigWrite_outOfRange`). -/
theorem not_lampWriteRanges : ¬ Obligations.LampWriteRanges := by
  unfold Obligations.LampWriteRanges
  intro hrefuses
  obtain ⟨haccess, hout⟩ := boundLamp_out
  obtain ⟨t, hexec, ⟨hkept, -⟩, -⟩ := hrefuses false (R.LMP_LAMP 0) groupNine boundLamp haccess hout
  obtain rfl : lampConfigWrite false (R.LMP_LAMP 0) groupNine boundLamp = t := Host.Outcome.next.inj hexec
  obtain ⟨hbefore, hafter⟩ := lampConfigWrite_boundLamp
  have hmoved : 1 = 0 := hafter.symm.trans (hkept.trans hbefore)
  exact absurd hmoved (by decide)

end Machine
end Sys2Proof
